-- ==== Sys2Proof/Word.lean ====
section
/-! DEFINITION. The bit words of the LX1024: bytes, register words, byte lists and little-endian fields (R5). -/

namespace Sys2Proof

/-- A byte. -/
abbrev Byte := BitVec 8

/-- A 32-bit register word (R413, R414). -/
abbrev Word := BitVec 32

/-- A string of bytes, in increasing address order. -/
abbrev Bytes := List Byte

/-- One address of a byte-addressed store and its byte. -/
abbrev Cells := List (Nat × Byte)

end Sys2Proof
end

