-- ==== Sys2Proof/Syntax.lean ====
section
/-! DEFINITION. The commands of the block: one constructor of Instr for each row of the table of operations and events, with
the operands a row needs. The table names no operands; each constructor's are what the rows' rules read from outside the part:
which port, queue or unit, and the bytes, levels and samples that arrive with the event (log 2). -/

namespace Sys2Proof

/-- A PCIe port (R271). -/
inductive Port where
  | a | b
  deriving DecidableEq, Repr

/-- What a PCIe link trains to with its partner: the rate, 0 for 16 GT/s, 1 for 32, 2 for 64, and the lanes as an exponent of 2 (Table 11-1). -/
structure PcieLink where
  rate : Fin 3
  lanes : Fin 5
  deriving DecidableEq, Repr

/-- A port and what its link trains to. -/
structure PortLink where
  port : Port
  link : PcieLink
  deriving DecidableEq, Repr

/-- The write-inhibit sources, in the order of Table 04-4. -/
inductive InhibitSource where
  | pes | shock | accel | feedback | handover | speed | motFault | hlkTx | wedge | alarm | power
  deriving DecidableEq, Repr

/-- The rows of Table 15-1 that INSTANCE_FAULT takes out of service (R377). -/
inductive FaultRow where
  | headElement | tile | hlInLane | hlOutLane | hlPhyHalf | eccCluster | cupolaCore | czEngine | dramDie | bufferStack
  | hostPort | steeple | controlCore | fabricPlane | keepCopy | servoReader | encoder | aon
  deriving DecidableEq, Repr

/-- What brings the part back to PS0 (Table 16-3). -/
inductive WakeCause where
  | doorbell | cartEdge | latch (i : Fin 16) | perst (p : Port)
  deriving DecidableEq, Repr

/-- What befalls the pair of Steeple instances: ST0 reports a self-check error, starts its output late or loses power; the two
outputs differ on 2 consecutive samples with no error reported; or ST1 reports a self-check error (R197). -/
inductive TakeoverCause where
  | selfCheck | lateOutput | powerLoss | outputsDiffer | standbySelfCheck
  deriving DecidableEq, Repr

/-- The clock that the time base counts (R405). -/
inductive TimeSource where
  | portA | portB | holdover
  deriving DecidableEq, Repr

/-- One data set as a slot of tape holds it: its sequence number, whether its frames carry TYPE 3, whether the copy was written
in full, whether the medium still lets it decode at levels 1 to 3 or 5, and its recorded payload (R34, R43, R56, R113). -/
structure TapeSlot where
  wrap : Nat
  slot : Nat
  n : Nat
  rewritten : Bool
  whole : Bool
  decodes : Bool
  payload : Bytes
  deriving DecidableEq, Repr

/-- A cartridge as it is put in: its memory, that memory's size in KiB and command-set version (R64), the tape-ID record that
each of the five servo bands carries (R31) and what its wraps hold (R34). -/
structure Cartridge where
  cm : Cells
  cmKiB : Nat
  cmSet : Nat
  tapeIds : List Bytes
  slots : List TapeSlot
  deriving DecidableEq, Repr

/-- What the ROM meets at a start: 15 readings of the straps (R433), whether each firmware slot reads without flash error
(R354), the failures that lead straight to fallback (Table 14-9), and what the two PCIe links train to (R271). -/
structure StartObs where
  strapReads : List (BitVec 4)
  slotAReads : Bool
  slotBReads : Bool
  flashReads : Bool
  selfTestOk : Bool
  mramOk : Bool
  keepOk : Bool
  fuseWriteOk : Bool
  portA : PcieLink
  portB : PcieLink
  /-- the newest Lantern record fails its CRC: a power loss tore it (R381) -/
  tornRecord : Bool
  deriving DecidableEq, Repr

/-- The stripes one servo reader saw in one servo frame: the arrival times of the stripes of bursts P, N, P′ and N′, counted in
sixty-fourths of a period of the 31.25 MS/s servo clock, that is in 0.5 ns, and the least stripe amplitude (R175, R210). How the
samples of SERVO packets are searched for stripes the manual does not say (log 156). -/
structure ServoObs where
  p : List Int
  n : List Int
  p' : List Int
  n' : List Int
  amp : Rat
  deriving DecidableEq, Repr

/-- A packet as an inbound lane of a head-link group brings it, descrambled: its header block and its payload blocks (R207). -/
structure HlPacket where
  group : Fin 8
  lane : Fin 8
  header : BitVec 64
  payload : List (BitVec 64)
  deriving DecidableEq, Repr

/-- An inbound lane of a head-link group. -/
structure HlLane where
  group : Fin 8
  lane : Fin 8
  deriving DecidableEq, Repr

/-- What comes for one servo frame: the packets since the frame before, and the stripes found in their samples (R178, R210). -/
structure ServoFrame where
  packets : List HlPacket
  readers : Vector (Option ServoObs) 4
  deriving DecidableEq, Repr

/-- An item of a hardware queue with its sideband (Table 13-5). -/
structure HqItem where
  type : BitVec 4
  data : BitVec 60
  parity : BitVec 8
  poison : Bool
  pri : Fin 4
  first : Bool
  last : Bool
  deriving DecidableEq, Repr

/-- The commands of the block. -/
inductive Instr where
  -- resets, start-up and straps
  | powerOnReset
  | pwrGoodFall (ns : Nat)
  | sysResetNLow (ns : Nat)
  | startUp (o : StartObs)
  | startConfirm (fuseWriteOk : Bool)
  | watchdogExpiry
  | portReset (p : Port) (ns : Nat)
  | flr (p : Port)
  | testEnHigh
  | strapChange (now : BitVec 4)
  -- alarms, presence, pins and time
  | alarm (cause : Fin 5)
  | sealLfsrTick (sealB : Bool) (readback : Bool)
  | presencePress
  | presenceWindowExpiry
  | wakeLatch (i : Fin 16) (ns : Nat)
  | cartRemoved
  | cartInserted (c : Cartridge)
  | shockNAssert (ns : Nat)
  | shockNClear
  | shockHoldExpiry
  | motFaultNAssert
  | thermalSample (milliC : Vector Int 16)
  | thermalCapStep
  | timeBaseSwitch (aPresent : Bool) (bPresent : Bool)
  | lifetimeCheckpoint
  -- the queue model
  | adminEnable (p : Port)
  | funcReset (p : Port)
  | sqTailDoorbell (p : Port) (q : Fin 256) (tail : BitVec 16)
  | cqHeadDoorbell (p : Port) (q : Fin 256) (head : BitVec 16)
  | sqFetch (entries : List Bytes)
  | commandStart (sgl : List Bytes)
  | holdoffExpiry (g : Fin 32)
  | staleExpiry (g : Fin 32)
  | msixMaskWrite (p : Port) (vector : Option (Fin 257)) (masked : Bool)
  | portLoss (p : Port)
  | pathRestored (l : PortLink)
  | functionD3hot (p : Port) (bmeCleared : Bool)
  | functionD0Return (p : Port)
  -- admin commands: the started command of queue 0 with this tag
  | identify (tag : BitVec 16)
  | negotiate (tag : BitVec 16)
  | createQp (tag : BitVec 16)
  | deleteQp (tag : BitVec 16)
  | formatFloor (tag : BitVec 16)
  | wake (tag : BitVec 16)
  | queuePort (tag : BitVec 16)
  | moderation (tag : BitVec 16)
  | cmArea (tag : BitVec 16) (data : Bytes)
  | deadClear (tag : BitVec 16)
  | getFeature (tag : BitVec 16)
  | getLog (tag : BitVec 16)
  | powerState (tag : BitVec 16)
  | fwStage (tag : BitVec 16) (data : Bytes) (flashOk : Bool)
  | fwActivate (tag : BitVec 16)
  | activationIdleTimeout
  | activationStillTimeout
  | activationSwitch
  | barrierCoreTimeout (core : Fin 4)
  | keyLoad (tag : BitVec 16) (block : Bytes)
  | keyErase (tag : BitVec 16)
  | keyWithdrawDone (slot : Fin 64)
  | keyQuery (tag : BitVec 16)
  | attest (tag : BitVec 16) (nonce : Bytes)
  | debugUnlock (tag : BitVec 16)
  | lanternClear (tag : BitVec 16)
  | registerIntegratorKeys (tag : BitVec 16) (block : Bytes)
  | zeroizeAllKeys (tag : BitVec 16)
  | armDowngradePermit (tag : BitVec 16)
  | downgradePermitExpiry
  | resetFailedStartCounter (tag : BitVec 16)
  | clearFails
  | health
  | lanternRead (rseq : BitVec 32)
  | queueReset (tag : BitVec 16)
  | tableLoad (tag : BitVec 16) (data : Bytes) (flashOk : Bool)
  -- I/O commands: the started command of queue q with this tag
  | mount (q : Fin 256) (tag : BitVec 16)
  | unmount (q : Fin 256) (tag : BitVec 16)
  | locate (q : Fin 256) (tag : BitVec 16)
  | readPosition (q : Fin 256) (tag : BitVec 16)
  | sync (q : Fin 256) (tag : BitVec 16)
  | fence (q : Fin 256) (tag : BitVec 16)
  | truncate (q : Fin 256) (tag : BitVec 16)
  | refreshFullRebuild (q : Fin 256) (tag : BitVec 16)
  | refreshLocateIndex (q : Fin 256) (tag : BitVec 16)
  | partition (q : Fin 256) (tag : BitVec 16)
  | crypt (q : Fin 256) (tag : BitVec 16) (input : Bytes) (param : Bytes)
  | cryptHandleTimeout (h : Fin 256)
  | write (q : Fin 256) (tag : BitVec 16) (lengths : List Nat) (data : Bytes)
  | writeMark (q : Fin 256) (tag : BitVec 16)
  | read (q : Fin 256) (tag : BitVec 16)
  | verify (q : Fin 256) (tag : BitVec 16)
  | space (q : Fin 256) (tag : BitVec 16)
  -- the write path
  | compressionBlockDone (e : Fin 4)
  | compressionEngineFault (e : Fin 4)
  | stagingStallRelease
  | cupolaInvocation
  | cupolaCoreError (core : Fin 4)
  | keepCopyMismatch (failed : Fin 2)
  | domeParityCompute (group : Nat) (dome : Fin 8)
  | slotCommit
  | verifyResult (slot : Nat)
  | writeInhibit (src : InhibitSource)
  | writeResume
  | wrapEnd
  | turnEntry
  | stackLoss (stack : Fin 2)
  | cmResponse (bytes : Bytes)
  | cmFieldOffTimeout
  | cmPollRetry
  -- Weathervane
  | wvnUpdate
  | speedReached
  | avsReadback (mv : Nat)
  | avsAckTimeout
  | avsRetryPeriod
  | marginSample (permille : Nat)
  | bhDwellExpiry
  | backhitchStopped
  | bhMaxWaitExpiry
  | stoppedIdleTimeout
  | restartResume
  | readAhead
  -- the read channel and the read path
  | samplePacket (g lane : Fin 8) (type : BitVec 4) (fields : BitVec 36) (crc : BitVec 24) (payload : List (BitVec 64))
  | syncWindow (c : Fin 1024)
  | frameEnd (c : Fin 1024)
  | blockAReplay (c : Fin 1024)
  | siblingPrediction (c : Fin 1024)
  | realignment (c : Fin 1024)
  | deskewComplete (slot : Nat)
  | domeRecovery (group : Nat) (dome : Fin 8)
  | retryAttemptDone
  | decryptInvocation
  | decompressionBlockDone (e : Fin 4)
  | hostPacketCommit
  -- Steeple
  | servoPacket (frame : ServoFrame)
  | feedbackLost
  | fbHoldTimeout
  | controlledStopDone
  | oneBandTimeout
  | encoderIndexPulse (reel : Fin 2)
  | reelLoopTick
  | accSample (x y z : BitVec 16)
  | sensorReading (ack : Bool) (bytes : Bytes)
  | motionLinkResponse (stage : Fin 5) (frame : BitVec 32)
  | motionLinkKeepalive
  | steepleHeartbeat
  | steepleHeartbeatTimeout
  | st1Takeover (cause : TakeoverCause)
  | programStart (prog : Fin 64) (p0 p1 p2 p3 : BitVec 32)
  | progEnd
  | progSpeed
  | progWaitSpeed
  | progGotoLpos
  | progWaitLpos
  | progLateral
  | progWaitLat
  | progTilt
  | progLaw
  | progTension
  | progDelay
  | progBranch
  | progEnable
  | progEvent
  | progChain
  | progStop
  | waitTimeout
  | faultClear
  -- the head link
  | groupTrainStart (g : Fin 8)
  | cdrTimeout (g : Fin 8)
  | blockLockGained (g : Fin 8) (headers : Vector (List (BitVec 2)) 8)
  | blockTimeout (g : Fin 8)
  | trainPacket (g : Fin 8) (lane : Fin 8) (header : BitVec 64) (payload : BitVec 64)
  | identTimeout (g : Fin 8)
  | downRetryTimeout (g : Fin 8)
  | statusPacket (l : HlLane) (header : BitVec 64) (payload : BitVec 64)
  | inboundLaneLost (g : Fin 8) (lane : Fin 8)
  | outboundLaneLost (g : Fin 8) (lane : Fin 2)
  | samplePacketLost (g : Fin 8) (ch : Fin 128)
  | tokenPeriod
  | retrain (mask : BitVec 8)
  | groupEn (mask : BitVec 8)
  -- Belfry and the hardware queues
  | sourceRequest (n : Fin 480)
  | claim (core : Fin 4)
  | eoi (core : Fin 4) (source : Fin 480) (parityError : Bool)
  | belfryMaskWrite (source : Fin 480) (priority : Fin 16) (route : Fin 5) (en : BitVec 4)
  | coreTimerExpiry (core : Fin 4) (timer : Fin 4)
  | interCoreSignal (core : Fin 4) (line : Fin 2)
  | belfryCopyMismatch (failed : Fin 2)
  | coreHeartbeatMissed (core : Fin 4)
  | hqItemWrite (q : Fin 64) (writer : Fin 4) (item : HqItem)
  | hqItemRead (q : Fin 64) (blocking : Bool)
  | hqStaleTail (q : Fin 64) (writer : Fin 4)
  | hqFlush (q : Fin 64)
  | hqDrain (q : Fin 64)
  | hqDrainDone (q : Fin 64)
  -- faults and power
  | instanceFault (row : FaultRow) (inst : Nat)
  | domainIdleGate (d : Fin 111)
  | ps4Commit
  | powerStateExit (cause : WakeCause)
  -- registers
  | lanTrigArm (value : Word)
  | ctBroadcastWrite (offset : Nat) (value : Word)
  | rcRead (p : Port) (offset : Nat)
  | loWordRead (p : Port) (offset : Nat)
  | badAccess (p : Port) (offset : Nat) (size : Nat) (isWrite : Bool)
  | registerWrite (p : Port) (offset : Nat) (value : Word)
  -- the rows that end the table
  | encoderEdge (reel : Fin 2) (a b : Bool)
  | discardedPacket (g : Fin 8) (lane : Fin 8)
  | holdoverReturn (src : TimeSource)
  | eccEncode
  deriving DecidableEq, Repr

end Sys2Proof
end

