-- ==== Sys2Proof/Decode.lean ====
section
/-! DEFINITION. The block takes commands, not words: no row of its table of operations and events gives bits, so no word spells a
command (log 2). -/

namespace Sys2Proof

/-- The command that a word spells by the table's bits: none, for no row gives bits. -/
def decodeTableWord (_nbits _w : Nat) : Option Instr := none

end Sys2Proof
end

