-- ==== Sys2Proof/Config.lean ====
section
/-! DEFINITION. What the manual leaves open or takes from a standard it only names: uninterpreted constants, none with a body.
A statement about the model holds whatever these are. Each is named in the assumption log. -/

namespace Sys2Proof

/-- The named quantities of the plant block and of the limits block of the Steeple table (Table 07-11, R179 to R202). The manual
gives each block's place and size and its content by name, and no offset of a field within it. -/
inductive PlantField where
  | kT | kS | curLsb | encCpr | jT | jS | thickness | lSrv (module : Nat) | elemOfs (module chan : Nat) | yW (band module : Nat) | yR (band module : Nat)
  | writerWidth | stepFf | stepRate | desat | srvAmin | accScale | accReg | accIdReg | accId | accInit (i : Nat) | accInitN
  | snsAddr | snsCmdLen | snsCmd | snsLen | snsTOfs | snsTA | snsTB | snsHOfs | snsHA | snsHB | snsCrcEn | snsPoly | snsInit | snsWait | brakeTorque
  | fSet | fMin | fMax | aMax | aTrack | aStop | iMax (reel : Nat) | umax (law : Nat) | smax (law : Nat) | ilim (law : Nat)
  | rcReel (loop : Nat) | rcLead (loop : Nat) | rcQ0 (loop : Nat) | rcQ1 (loop : Nat) | rcG (loop : Nat) | rcLim (loop : Nat)
  | stroke | stepSize
  deriving DecidableEq, Repr

end Sys2Proof

namespace Sys2Proof.Config

/-- AES-256 of one 16-byte block under a 32-byte key (R46, R249, R254 name the cipher and do not restate it). Log 3. -/
opaque aesEncrypt : Bytes → Bytes → Bytes
/-- The inverse cipher, which CBC and KWP decryption use (R266). Log 3. -/
opaque aesDecrypt : Bytes → Bytes → Bytes
/-- SHA-512 (R62, R244, R354). Log 3. -/
opaque sha512 : Bytes → Bytes
/-- X25519 of a private and a public key (R244). Log 3. -/
opaque x25519 : Bytes → Bytes → Bytes
/-- The public half of an X25519 private key (R245). Log 3. -/
opaque x25519Public : Bytes → Bytes
/-- The encapsulation key of an ML-KEM-768 seed (R245). Log 3. -/
opaque mlkemPublic : Bytes → Bytes
/-- ML-KEM-768 decapsulation of a ciphertext under a seed (R244). Log 3. -/
opaque mlkemDecaps : Bytes → Bytes → Bytes
/-- The public half of an Ed25519 seed (R362). Log 3. -/
opaque ed25519Public : Bytes → Bytes
/-- The public half of an ML-DSA-65 seed (R362). Log 3. -/
opaque mldsaPublic : Bytes → Bytes
/-- An Ed25519 signature by a seed over a message (R363). Log 3. -/
opaque ed25519Sign : Bytes → Bytes → Bytes
/-- An ML-DSA-65 signature by a seed over a message (R363). Log 3. -/
opaque mldsaSign : Bytes → Bytes → Bytes
/-- Ed25519 verification of a signature over a message under a public key (R354, R366). Log 3. -/
opaque ed25519Verify : Bytes → Bytes → Bytes → Bool
/-- ML-DSA-65 verification (R354, R366). Log 3. -/
opaque mldsaVerify : Bytes → Bytes → Bytes → Bool
/-- The sections of the compressed block that an engine finds for one chunk (R234, R235): effort, the frame's earlier blocks, the
output before the chunk, the chunk. Log 4. -/
opaque zstdBlock : Nat → Bytes → Bytes → Bytes → Bytes
/-- Whether the engine takes a run block for a chunk of one repeated byte (R235 leaves the type of each block to it). Log 4. -/
opaque zstdRun : Nat → Bytes → Bool
/-- What the sections of a compressed block of RFC 8878 decode to, for a window size, the frame's earlier blocks and the output
before it; none when they are not valid (R236). Log 4. -/
opaque zstdBlockDecode : Nat → Bytes → Bytes → Bytes → Option Bytes
/-- The 256 bits that the true random number generator gives for draw number i (R245, R249, R258, R369). Log 5. -/
opaque trng : Nat → BitVec 256
/-- A choice between two outcomes that the manual allows, at draw i (R434). Log 6. -/
opaque choice : Nat → Bool
/-- The regulators that acknowledge PMBus OPERATION off on the way into PS4, at draw i: bit k for the regulator at 0x40 + k (R399). Log 73. -/
opaque pmbusAcks : Nat → BitVec 7
/-- A value the manual does not state, at draw i. Log 6. -/
opaque freeRat : Nat → Rat
/-- A byte the manual does not state, at draw i. Log 6. -/
opaque freeByte : Nat → Byte
/-- The tentative bit decision of the detector from the equalized samples so far, newest first (R139). Log 7. -/
opaque tentative : List Rat → Bool
/-- The phase, in sample periods, that the quadrature correlation of a cold acquisition sets from 16 interpolated samples (R140). Log 7. -/
opaque acquirePhase : List Rat → Rat
/-- How a scaled min-sum message, given in sixteenths, is brought to an integer (R73). Log 7. -/
opaque roundSixteenths : Int → Int
/-- The head serial number in the bytes of the Steeple table (Table 07-11 names it and gives no offset). Log 8. -/
opaque headSerial : Bytes → Bytes
/-- The estimator of FB_HOLD: the error in µm and its rate in µm/ms one sample on, by the voice-coil model of the Steeple table, from
the error, its rate, the output applied, the repetitive controller's output and the interval in ms (R193). Log 7. -/
opaque coilModel : Bytes → Rat → Rat → Rat → Rat → Rat → Rat × Rat
/-- The bytes of the Steeple table's header that are rsvd, whose places the manual does not give (Table 07-11). Log 8. -/
opaque headerRsvd : Bytes → Bytes
/-- The width model: the tilt for a temperature and a humidity, from the bytes of the Steeple table (R185). Log 7. -/
opaque widthModel : Bytes → Rat → Rat → Rat
/-- The value of a named field in the bytes of the Steeple table, whose offsets the manual does not give (Table 07-11). Log 8. -/
opaque plant : PlantField → Bytes → Rat
/-- The arc sine in degrees of a number beyond ±1/2, which no tilt of the head reaches (R177). Log 8. -/
opaque asinFar : Rat → Rat
/-- The inertia of a reel at a radius, from the Steeple table's polynomial (R186). Log 8. -/
opaque inertia : Bytes → Rat → Rat
/-- The accelerometer axis that is the lateral one (R179 does not say which). Log 8. -/
opaque lateralAxis : Fin 3
/-- The event code of a discarded doorbell write (R277 states the event and no code). Log 6. -/
opaque doorbellEvent : Nat
/-- The event code of a staged data set lost at a cartridge removal (R320 states the event and no code). Log 6. -/
opaque stagedLossEvent : Nat
/-- The highest Oliah version and the highest format revision of an image, from its manifest (R390; Table 14-3 gives no field for
them). Log 6. -/
opaque imageOliahMax : Bytes → Nat
opaque imageFormatMax : Bytes → Nat
/-- The subsystem vendor and subsystem IDs in the bytes of the device table, whose layout the manual does not give (R272). Log 8. -/
opaque subsystemIds : Bytes → Nat × Nat
/-- TRIM_c of a channel in the bytes of the head table, whose layout the manual does not give (R92, R94). Log 8. -/
opaque headTrim : Bytes → Nat → BitVec 16
/-- The detector code that record 0x0010 carries (Table 15-3 names the field and no code). Log 6. -/
opaque detectorCode : FaultRow → Nat
/-- The core-voltage margin model is not stated; a quotient by zero in a control formula gives this. Log 6. -/
opaque quotByZero : Rat → Rat

/-- The body of the formatter's usage log in the cartridge memory when it is rewritten whole (R62, log 169). -/
opaque usageLog : Nat → List (BitVec 8)

end Sys2Proof.Config
end

