-- ==== Sys2Proof/Machine/State.lean ====
section
/-! DEFINITION. The state of the LX1024 as plain data, block by block, and the state right after a power-on reset. Every field's
default is its value at reset; its docstring gives the rule that names it. [DC n] and [PR n] mark a reset value of the model's
own, DESIGN CHOICE or PRESUMED, with its log entry. -/

namespace Sys2Proof.Machine

/-- What a reading of the spec would make stop. No command of this block does: see log 1. -/
inductive Fault where
  /-- Raised by no meaning: every row of the table has an effect the spec gives (log 1). Safe: a stop hides nothing. -/
  | noneSpecified
  deriving DecidableEq, Repr

/-- Why a command has no meaning in the model. -/
inductive Refusal where
  /-- Raised by an arm of the dispatch whose command is not modelled. Safe: nothing can be proved of what follows. -/
  | notModelled (mnemonic : String)
  deriving DecidableEq, Repr

/-! ## Outputs -/

/-- What the part drives at its boundary: posted writes and messages toward the host, frames on the serial links, sideband
answers and register read data. The model's own record, not a register of the part (log 9). -/
inductive Out where
  | data (p : Port) (addr : Nat) (bytes : Bytes)
  | entry (p : Port) (addr : Nat) (bytes : Bytes)
  | msix (p : Port) (vector : Nat)
  | pme (p : Port)
  | regData (p : Port) (offset : Nat) (value : Word)
  | smbus (bytes : Bytes)
  | motion (frame : BitVec 32)
  | headLink (g : Fin 8) (lane : Nat) (header : BitVec 64) (payload : List (BitVec 64)) (line : List (BitVec 66))
  | cmFrame (bytes : Bytes)
  | writeFill (wrap slot : Nat)
  | avsWrite (mv : Nat)
  | pmbus (address : Nat) (on : Bool)
  | speedSet (ratio : Nat)
  | coreOffer (core : Nat) (vector : Nat)
  | spurious (core : Nat)
  | hqItem (q : Nat) (item : HqItem)
  | sealDrive (bit : Bool)
  | accFrame (bytes : Bytes)
  | prbs31 (g : Fin 8) (lane : Nat)
  | electricalIdle (g : Fin 8) (lane : Nat)
  | sensorWrite (address : Nat) (bytes : Bytes)
  | sensorRead (address : Nat) (count : Nat)
  | jtagOpen
  deriving DecidableEq, Repr

/-! ## Start-up, trust and pins -/

/-- Whether the part is held in reset, serves boundary scan, or runs the image or the fallback program (R351, R361, R367). -/
inductive BootPhase where
  | held | scan | normal | fallback
  deriving DecidableEq, Repr

/-- The pins that the manual gives a level (Table 17-2, Table 18-4). -/
structure Pins where
  /-- PRESENCE_N level (R419) [DC 10] -/
  presenceN : Bool := true
  /-- CART_PRESENT_N level (R419) [DC 10] -/
  cartPresentN : Bool := true
  /-- SHOCK_N level (R419) [DC 10] -/
  shockN : Bool := true
  /-- MOT_FAULT_N level (R419) [DC 10] -/
  motFaultN : Bool := true
  /-- PWR_GOOD level (R419) [DC 10] -/
  pwrGood : Bool := true
  /-- SYS_RESET_N level (R434) [DC 10] -/
  sysResetN : Bool := true
  /-- TEST_EN level (R435) [DC 10] -/
  testEn : Bool := false
  /-- GPIO7 to GPIO0 levels (R419) [DC 10] -/
  gpio : BitVec 8 := 0xFF
  /-- STRAP[3:0] levels now (R367) [DC 10] -/
  straps : BitVec 4 := 0
  /-- ALARM_N asserted (R371) -/
  alarmAsserted : Bool := false
  /-- MOT_EN4 to MOT_EN0 driven high (R171) -/
  motEn : BitVec 5 := 0
  deriving DecidableEq, Repr

/-- An image or table version: major, minor, patch (R353). -/
structure Version where
  major : Nat
  minor : Nat
  patch : Nat
  deriving DecidableEq, Repr

/-- The choice of image, its confirmation and the reset history (R351 to R361, R372). -/
structure Boot where
  /-- what the control cores run (R351, R361, R367) -/
  phase : BootPhase := .held
  /-- PREFERRED, the slot tried first, in MRAM: A or B (R355) [DC 11] -/
  preferred : Port := .a
  /-- FAILS, 0 to 3, in MRAM (R355) [DC 11] -/
  fails : Nat := 0
  /-- SLOT_A reason code, in MRAM (R357, R372) [DC 11] -/
  slotA : Nat := 0
  /-- SLOT_B reason code, in MRAM (R357, R372) [DC 11] -/
  slotB : Nat := 0
  /-- GEN_FALLBACK_CAUSE.CAUSE (R372) -/
  cause : Nat := 0
  /-- GEN_BOOTCNT, part resets since manufacture, in MRAM (R372) [DC 11] -/
  bootCount : Nat := 0
  /-- CONFIRMED (R356, R372) -/
  confirmed : Bool := false
  /-- straps as sampled (R367, R433) -/
  straps : BitVec 4 := 0
  /-- the running slot (R419) [DC 11] -/
  slot : Port := .a
  /-- the running version (R419) [DC 11] -/
  version : Version := ⟨0, 0, 0⟩
  /-- OLIAH_READY (R419) -/
  ready : Bool := false
  /-- the 2 s watchdog since a handover: when it expires, and the cause its part reset records (R356, R389) -/
  watchdog : Option (Nat × Nat) := none
  /-- fused security epoch (R359) [DC 11] -/
  epoch : Nat := 0
  /-- MIN_VERSION, in MRAM (R359) [DC 11] -/
  minVersion : Version := ⟨0, 0, 0⟩
  /-- device serial in fuses, 16 bytes (R419) [DC 11] -/
  serial : Bytes := List.replicate 16 0
  /-- the four fused Tvedfaush root hashes (R354) [DC 11] -/
  rootHashes : List Bytes := List.replicate 4 (List.replicate 32 0)
  /-- roots revoked in fuses (R354) [DC 11] -/
  rootsRevoked : BitVec 4 := 0
  /-- unique device secret in fuses, 32 bytes (R362) [DC 11] -/
  deviceSecret : Bytes := List.replicate 32 0
  /-- the endorsement in read-only MRAM: Ed25519 then ML-DSA-65 (R362) [DC 11] -/
  endorsement : Bytes × Bytes := ([], [])
  /-- the boot flash, 64 MiB (R352) [DC 12] -/
  flash : Cells := []
  /-- bytes staged so far into the slot not running (R315) -/
  staged : Nat := 0
  /-- the staged image has verified (R315) -/
  stagedOk : Bool := false
  /-- the staged image was accepted under a downgrade permit (R360) -/
  stagedPermit : Bool := false
  /-- a pending activation: its mode, and the tag of the FW_ACTIVATE still to complete (R296) -/
  activation : Option (Nat × Option (BitVec 16)) := none
  /-- a start from PS4, for which FAILS is not raised and no record 0x0002 is written (R399) -/
  fromPs4 : Bool := false
  /-- both Keep copies have failed: the next start enters fallback with cause 0x07 (Table 15-1, row 15) -/
  keepFault : Bool := false
  deriving DecidableEq, Repr

/-- Presence, seal and alarms (R368 to R371, R373). -/
structure Trust where
  /-- when the presence window opened, in ticks (R368) -/
  press : Option Nat := none
  /-- the seal loop is intact (R369) [DC 13] -/
  sealOk : Bool := false
  /-- the seal has opened since the last press (R368) -/
  sealBroken : Bool := false
  /-- the seal LFSR (R369) [DC 13] -/
  lfsr : BitVec 16 := 1
  /-- consecutive SEAL_B mismatches (R369) -/
  mismatches : Nat := 0
  /-- debug unlocked (R370) -/
  debug : Bool := false
  /-- when an armed downgrade permit lapses, in ticks (R360) -/
  permit : Option Nat := none
  /-- KEEP_ALARM.CAUSE (R371) -/
  cause : BitVec 5 := 0
  /-- KEEP_ALARM.LIFETIME, in MRAM (R373) [DC 11] -/
  lifetime : Nat := 0
  /-- the registered table key, Ed25519 then ML-DSA-65, in both Keep copies (R364) [DC 11] -/
  tableKey : Option (Bytes × Bytes) := none
  /-- the registered cartridge signers (R364) [DC 11] -/
  signers : List (Bytes × Bytes) := []
  /-- the integrator tables in force by TYPE 1 to 5, each its manifest and its content (R317, R365) -/
  tables : Vector (Option (Bytes × Bytes)) 5 := Vector.replicate 5 none
  /-- a Steeple table accepted and waiting for OFF (R202) -/
  steepleNext : Option (Bytes × Bytes) := none
  /-- a head table accepted and waiting for the next MOUNT (Table 12-9) -/
  headNext : Option (Bytes × Bytes) := none
  /-- the device table's subsystem IDs in force since the start (R272) -/
  subsystem : Nat × Nat := (0xF7D5, 0x1024)
  deriving DecidableEq, Repr

/-! ## Power and time -/

/-- Power state, domains, rails, AVSBus and the time base (R394 to R406, R412, R423, R424). -/
structure Power where
  /-- the 64-bit time base, 10 ns ticks (R405) -/
  time : Nat := 0
  /-- the fraction of a tick kept in holdover, in 1/128 (R405) -/
  frac : Nat := 0
  /-- REFCLK of port A present (R405) [DC 10] -/
  refA : Bool := true
  /-- REFCLK of port B present (R405) [DC 10] -/
  refB : Bool := true
  /-- PWR_STAT.TB_SRC (R405) -/
  src : TimeSource := .portA
  /-- lifetime milliseconds when the time base stood at lifeAt (R406) [DC 11] -/
  lifeBase : Nat := 0
  /-- the tick from which lifetime milliseconds are counted (R406) -/
  lifeAt : Nat := 0
  /-- lifetime milliseconds as last written to MRAM (R406) [DC 11] -/
  lifeMram : Nat := 0
  /-- PWR_STAT.STATE and GEN_QSTAT.PSTATE, 0 to 4 (R298) -/
  pstate : Fin 5 := 0
  /-- PWR_STAT.ENTERING (R400) -/
  entering : Bool := false
  /-- when PS4 commits, in ticks (R399) -/
  ps4Due : Option Nat := none
  /-- domains powered, by the index of Table 16-2 (R394): set at start -/
  domOn : BitVec 111 := BitVec.ofNat 111 (2 ^ 110)
  /-- domains off for a fault (R394) -/
  domFault : BitVec 111 := 0
  /-- rails on, bit i for PMBus address 0x40 + i (R399) -/
  rails : BitVec 7 := 0x7F
  /-- WVN_VOP.MV, the operating point in force (R125, R135) -/
  vop : Nat := 600
  /-- PWR_AVS.VOUT (R404) -/
  vout : Nat := 600
  /-- the AVSBus write not yet acknowledged (R404) -/
  avsTarget : Option Nat := none
  /-- attempts made at it (R126) -/
  avsTries : Nat := 0
  /-- an attempt was not acknowledged in 2 ms and none has been since: r is held (R126) -/
  avsHold : Bool := false
  /-- the retries have failed (R404) -/
  avsFailed : Bool := false
  /-- PWR_CNT_AVSFAIL (R412) -/
  cntAvsFail : Nat := 0
  /-- PWR_CNT_HOLDOVER (R412) -/
  cntHoldover : Nat := 0
  /-- junction temperature, in 1/1000 °C (R423) [DC 10] -/
  junction : Int := 25000
  /-- samples of 1 ms at or above 103 °C since the last cap step (R424) -/
  hotMs : Nat := 0
  /-- samples of 1 ms below 100 °C since the last cap step (R424) -/
  coolMs : Nat := 0
  deriving DecidableEq, Repr

/-! ## Lantern -/

/-- A Lantern record (Table 15-2). -/
structure LanRec where
  time : Nat
  boot : Nat
  code : Nat
  cls : Nat
  pinned : Bool
  trigger : Bool
  suppressedBefore : Bool
  suppressed : Nat
  rseq : Nat
  data : Bytes
  /-- a power loss tore it: its CRC fails (R381) -/
  torn : Bool
  deriving DecidableEq, Repr

/-- An entry of log 0x01 (Table 12-6, R382). -/
structure DevEvent where
  time : Nat
  boot : Nat
  code : Nat
  data : Bytes
  deriving DecidableEq, Repr

/-- The black box and the state of degradation (R376 to R388). -/
structure Lantern where
  /-- the pinned region, earliest first, at most 16,384 (R382) [DC 11] -/
  pinnedRecs : List LanRec := []
  /-- the ring, oldest first, at most 245,760 (R382) [DC 11] -/
  ring : List LanRec := []
  /-- LAN_SEQ.RSEQ, in MRAM (R381) [DC 11] -/
  rseq : Nat := 0
  /-- LAN_CFG (R388) -/
  cfg : Word := 0x1002
  /-- LAN_TRIG.CODE (R388) -/
  trigCode : Nat := 0
  /-- LAN_TRIG.POST (R388) -/
  trigPost : Nat := 0
  /-- LAN_TRIG.ARM (R384) -/
  armed : Bool := false
  /-- LAN_TRIG.FIRED (R384) -/
  fired : Bool := false
  /-- records still to pin after the match (R384) -/
  postLeft : Nat := 0
  /-- LAN_STAT.PIN_FULL (R382) [DC 11] -/
  pinFull : Bool := false
  /-- the second in which records of classes 0 and 1 are counted (R383) -/
  second : Nat := 0
  /-- records written in that second, by CODE (R383) -/
  rate : List (Nat × Nat) := []
  /-- records suppressed since the last one written, by CODE (R383) -/
  suppressed : List (Nat × Nat) := []
  /-- instances out of service, by row and instance (R377) -/
  outOfService : List (FaultRow × Nat) := []
  /-- LAN_CNT_SUPPR (R388) -/
  cntSuppr : Nat := 0
  /-- LAN_CNT_TORN (R388) -/
  cntTorn : Nat := 0
  /-- log 0x01: device events not consumed (R376, R382) -/
  events : List DevEvent := []
  /-- log 0x02: outcomes that could not be written (R295) -/
  keptOutcomes : List Bytes := []
  /-- log 0x03: the recovery report, 32-byte entries (Table 12-6) -/
  report : List Bytes := []
  deriving DecidableEq, Repr

/-! ## Host ports and queues -/

/-- One PCIe port and its function (R271 to R274, R302, R303, R340, R415). -/
structure PortState where
  /-- lanes trained (R276) -/
  width : Nat := 0
  /-- rate code (R276) -/
  rate : Nat := 0
  /-- what the link trains to with its partner (R271, Table 11-1) [DC 21] -/
  trains : PcieLink := ⟨2, 4⟩
  /-- the link is in DL_Up (R303) -/
  linkUp : Bool := false
  /-- the function is in D0 (R302) [PR 14] -/
  d0 : Bool := true
  /-- Bus Master Enable (R302) [PR 14] -/
  bme : Bool := false
  /-- Memory Space Enable (R303) [PR 14] -/
  mse : Bool := false
  /-- Function Mask (R340) [PR 14] -/
  fnMask : Bool := false
  /-- the port's MSI-X table, 16 bytes an entry; bit 96 masks (R272, R340) [PR 14] -/
  msix : Vector (BitVec 128) 257 := Vector.replicate 257 (BitVec.ofNat 128 (2 ^ 96))
  /-- the port's PBA (R272, R340) [PR 14] -/
  pba : BitVec 257 := 0
  /-- wake on completion (Table 12-5) [DC 15] -/
  wakeEn : Bool := false
  /-- the latched _HI words by offset (R415) -/
  hiLatch : List (Nat × Word) := []
  deriving DecidableEq, Repr

/-- How far a fetched command has come (R285, R286, R292). -/
inductive CmdPhase where
  /-- fetched and checked, not started -/
  | fetched
  /-- started; its own step has not run or has not finished -/
  | started
  /-- a WRITE or WRITE_MARK whose objects are not all packed -/
  | packing
  /-- waits for durable objects: a durable write or TRUNCATE, or SYNC -/
  | durableWait
  /-- a FENCE that waits for the earlier commands of its queue -/
  | fenceWait
  /-- its outcome is known; its entry waits for the order of R285 -/
  | done (status : Nat) (result : Nat) (objs : Option (Nat × Nat))
  deriving DecidableEq, Repr

/-- A command between its fetch and its completion entry (R278, R310). -/
structure Cmd where
  qid : Nat
  tag : Nat
  /-- its place in the submission order (R282); the second number ranks what R288 puts behind a group's end -/
  order : Nat × Nat
  /-- the 64 bytes of its submission entry; its LON is the one resolved, once it has started (R310) -/
  entry : Bytes
  phase : CmdPhase
  /-- the buffer's pieces, address and length, once started (R313) -/
  segs : List (Nat × Nat)
  /-- host writes issued for it, in order (R262, R307) -/
  writes : List (Nat × Bytes)
  /-- how many of them a port has carried (R302) -/
  sent : Nat
  /-- objects, records or marks done so far -/
  count : Nat
  /-- bytes of the buffer used so far -/
  used : Nat
  /-- how many of them belong to the record in hand (R326) -/
  inRec : Nat
  /-- the next object it passes, or the first it assigned -/
  lon : Nat
  /-- the records or marks it will pack in all -/
  goal : Nat
  /-- key generations it is bound to, or that decrypted what it transferred: slot and number (R241, R260) -/
  keys : List (Nat × Nat)
  /-- encrypting invocations reserved for it and not used (R253) -/
  reserved : Nat
  /-- outcomes it has met, in the order met (R327) -/
  met : List Nat
  /-- what must leave write staging before it completes: partition, a staging number that bounds the data sets, and whether their
  EOD data sets count too (R109) -/
  waits : List (Nat × Nat × Bool)
  /-- earlier writes, by queue and tag, that a SYNC waits for until they have taken effect (R292) -/
  after : List (Nat × Nat)
  deriving DecidableEq, Repr

/-- A completion entry that is written or to be written (R279, R304). -/
structure Completion where
  tag : Nat
  status : Nat
  result : Nat
  /-- the partition of its objects and the LON after the last of them (R286) -/
  objs : Option (Nat × Nat)
  /-- FLAGS.DURABLE, settled when the entry is written (R286) -/
  durable : Bool
  /-- its command's place in the submission order (R283) -/
  order : Nat × Nat
  /-- its command's submission entry (R284) -/
  entry : Bytes
  /-- the host writes of its command, for a replay (R307) -/
  writes : List (Nat × Bytes)
  /-- how many of them a port has carried (R302) -/
  sent : Nat
  deriving DecidableEq, Repr

/-- An entry that stands in the CQ: its slot and SEQ with PHASE in bit 15, and its completion (R279, R304). -/
structure Posted where
  slot : Nat
  seq : Nat
  comp : Completion
  deriving DecidableEq, Repr

/-- A queue pair (R275 to R280). -/
structure QueuePair where
  qid : Nat
  sqSize : Nat
  cqSize : Nat
  sqBase : Nat
  cqBase : Nat
  vector : Nat
  group : Nat
  strict : Bool
  pref : Port
  active : Port
  multipath : Bool
  /-- Oliah version in BCD-like form, 0x10 to 0x12 (R281) -/
  version : Nat
  /-- last SQ tail accepted (R277) -/
  sqTail : Nat
  /-- the next SQ slot to fetch (R278) -/
  sqNext : Nat
  /-- places in the submission order of the slots exposed and not fetched, oldest first (R282) -/
  exposed : List Nat
  /-- the next CQ slot to write (R279) -/
  cqTail : Nat
  /-- last CQ head accepted (R277) -/
  cqHead : Nat
  /-- PHASE of the pass in progress (R279) -/
  phase : Bool
  /-- SEQ of the next entry (R279) -/
  seq : Nat
  /-- entries written and not consumed in evidence (R304) -/
  posted : List Posted
  /-- completions held for want of a slot or a path, in order (R280, R302, R308) -/
  heldComps : List Completion
  /-- a tail doorbell held during a reset of the queue (R293) -/
  heldTail : Option Nat
  deriving DecidableEq, Repr

/-- A host group's moderation (R338, R339). -/
structure HostGroup where
  /-- H, µs (R338) -/
  holdoff : Nat := 0
  /-- A (R338) -/
  agg : Nat := 1
  /-- S, µs (R338) -/
  stale : Nat := 1
  /-- held entries (R339) -/
  count : Nat := 0
  /-- the held set of vector and port pairs (R339) -/
  held : List (Nat × Port) := []
  /-- when the hold-off window opened, in ticks (R339) -/
  openAt : Option Nat := none
  /-- when the stale window last restarted, in ticks (R339) -/
  staleAt : Option Nat := none
  deriving DecidableEq, Repr

/-- The queue model's state (R275 to R308). -/
structure HostIf where
  /-- port A -/
  portA : PortState := {}
  /-- port B -/
  portB : PortState := {}
  /-- GEN_QCTL.ENABLE (R276) -/
  enable : Bool := false
  /-- GEN_QSTAT.CFG_ERR (R276) -/
  cfgErr : Bool := false
  /-- GEN_QSTAT.RESET_BUSY (R276) -/
  resetBusy : Bool := false
  /-- GEN_AQ_SIZE (R276) -/
  aqSize : Word := 0
  /-- GEN_AQ_SQB_LO (R276) -/
  aqSqbLo : Word := 0
  /-- GEN_AQ_SQB_HI (R276) -/
  aqSqbHi : Word := 0
  /-- GEN_AQ_CQB_LO (R276) -/
  aqCqbLo : Word := 0
  /-- GEN_AQ_CQB_HI (R276) -/
  aqCqbHi : Word := 0
  /-- the queue pairs that exist, the admin queue as queue 0 (R275, R276) -/
  qps : List QueuePair := []
  /-- the next place in the submission order (R282) -/
  nextOrder : Nat := 0
  /-- the queue fetched from last (R278) [DC 16] -/
  lastFetched : Nat := 0
  /-- commands fetched and not completed, in fetch order (R278) -/
  cmds : List Cmd := []
  /-- the queue held by a QUEUE_RESET or DELETE_QP that is still finishing its started commands, and the aborting status (R293) -/
  resetting : List (Nat × Nat) := []
  /-- fetching is stopped for a mode-2 activation (R296) -/
  holdForSwitch : Bool := false
  /-- a function reset waits for the end of the switch (R297) -/
  resetAfterSwitch : Option Port := none
  /-- the host groups (R338) -/
  groups : Vector HostGroup 32 := Vector.replicate 32 {}
  /-- the format floor, in MRAM (Table 12-5) -/
  floor : Nat := 0x11
  /-- GEN_CNT_FAILOVER (R276) -/
  cntFailover : Nat := 0
  /-- GEN_CNT_DBERR (R276) -/
  cntDbErr : Nat := 0
  /-- GEN_CNT_REPOST (R276) -/
  cntRepost : Nat := 0
  /-- GEN_CNT_BADACC (R419) -/
  cntBadAcc : Nat := 0
  deriving DecidableEq, Repr

/-! ## Keep, Cupola and compression -/

/-- A key generation (R240). -/
structure Gen where
  /-- generation number (R241) -/
  num : Nat
  key : Bytes
  keyId : Bytes
  use : BitVec 16
  limit : Nat
  base : Nat
  used : Nat
  /-- operations bound to it and not ended (R241, R242) -/
  bound : Nat
  /-- invocations reserved by started writes (R253) -/
  reserved : Nat
  /-- the media-bound key derived for the mounted cartridge (R251) -/
  derived : Option Bytes
  deriving DecidableEq, Repr

/-- The states of Table 10-2. -/
inductive SlotState where
  | empty | live | shadowed | withdraw
  deriving DecidableEq, Repr

/-- A key slot (R240 to R242). -/
structure KeySlot where
  /-- its state (R242) -/
  state : SlotState := .empty
  /-- the last generation number taken since the start (R241) -/
  lastGen : Nat := 0
  /-- the current generation (R240) -/
  cur : Option Gen := none
  /-- the shadow generation (R240) -/
  shadow : Option Gen := none
  /-- KEY_ERASE commands waiting for the zeroizing, by tag (R242, R260) -/
  erasers : List Nat := []
  deriving DecidableEq, Repr

/-- A suspended or idle CRYPT operation: its handle and its context record (R258, R267, Table 10-6). -/
structure CryptCtx where
  handle : Nat
  qid : Nat
  mode : Nat
  dir : Bool
  slot : Nat
  gen : Nat
  /-- counter block, chaining value or running CMAC block -/
  chain : Bytes
  /-- GHASH accumulator -/
  ghash : Bytes
  /-- held partial block -/
  held : Bytes
  iv : Bytes
  aadBits : Nat
  textBits : Nat
  segments : Nat
  /-- the host ranges its decrypting segments have written (R262, R267) -/
  writes : List (Nat × Bytes)
  deriving DecidableEq, Repr

/-- The Keep (R240 to R247, R259, R270). -/
structure Keep where
  /-- the 64 slots (R240) -/
  slots : Vector KeySlot 64 := Vector.replicate 64 {}
  /-- the private transport halves, X25519 and ML-KEM-768 seed (R245) -/
  transport : Option (Bytes × Bytes) := none
  /-- KEEP_LOADSEQ, in MRAM (R246) [DC 11] -/
  loadSeq : Nat := 0
  /-- KEEP_STAT.COPY_OK (R259) -/
  copyOk : BitVec 2 := 3
  /-- KEEP_STAT.ERASED (R264) -/
  erased : Bool := false
  /-- the context KEK (R258) -/
  ctxKek : Option Bytes := none
  /-- the spill serial, drawn at every start (R258) [DC 13] -/
  spillSerial : Nat := 0
  /-- the latest serial of each spilled context, by handle (R258) -/
  spillLatest : List (Nat × Nat) := []
  /-- KEEP_CNT_LOADFAIL (R270) -/
  cntLoadFail : Nat := 0
  deriving DecidableEq, Repr

/-- Cupola (R249 to R258, R269). -/
structure Cupola where
  /-- CUP_CFG (R269) -/
  cfg : Word := 0xF5
  /-- CUP_STAT.IN_SERVICE (R256) -/
  inService : BitVec 4 := 0xF
  /-- CUP_NONCE, the mount nonce in force (R249) -/
  nonce : BitVec 32 := 0
  /-- open CRYPT handles and their contexts, most recently used first (R258, R267) -/
  ctxs : List CryptCtx := []
  /-- spilled contexts in the buffer's system region, by handle: 176 bytes each (R258) -/
  spilled : List (Nat × Bytes) := []
  /-- CUP_CNT_INV (R269) -/
  cntInv : Nat := 0
  /-- CUP_CNT_TAGFAIL (R269) -/
  cntTagFail : Nat := 0
  /-- CUP_CNT_WITHDRAW (R269) -/
  cntWithdraw : Nat := 0
  /-- CUP_CNT_CORERR (R269) -/
  cntCorErr : Nat := 0
  /-- CUP_CNT_REPLAY (R269) -/
  cntReplay : Nat := 0
  deriving DecidableEq, Repr

/-- How a stream item is to be encrypted: its CIPHER, slot and generation (R248). -/
structure CipherSel where
  cipher : Nat
  slot : Nat
  gen : Nat
  deriving DecidableEq, Repr

/-- A compression block, or a mark, on its way to the packer (R230, R231, R249). -/
structure StreamItem where
  /-- its place in the packing order (R231) -/
  order : Nat
  part : Nat
  qid : Nat
  tag : Nat
  sel : CipherSel
  mark : Bool
  first : Bool
  last : Bool
  group : Bool
  groupEnd : Bool
  /-- the effort its WRITE names, 0xFF for none (R234) -/
  effort : Nat
  /-- the effort and EARLY_ABORT in force when its compression started (R234, R238) -/
  run : Option (Nat × Bool)
  /-- the uncompressed bytes -/
  data : Bytes
  /-- LENGTH of a block already compressed (R48) -/
  length : Nat
  deriving DecidableEq, Repr

/-- A frame waiting for an engine's decompression: its object, its place in the record, and LENGTH (R237). -/
structure DecompItem where
  part : Nat
  lon : Nat
  block : Nat
  last : Bool
  frame : Bytes
  length : Nat
  /-- the data sets its bytes came from, by N (R19) -/
  deps : List Nat
  deriving DecidableEq, Repr

/-- The compression engines and the packer's queue (R229 to R239). -/
structure Compress where
  /-- GEN_CZ_CFG (R239) -/
  cfg : Word := 0xF06
  /-- GEN_CZ_STAT.IN_SERVICE (R238) -/
  inService : BitVec 4 := 0xF
  /-- each engine's input, oldest first (R231) -/
  engines : Vector (List StreamItem) 4 := Vector.replicate 4 []
  /-- frames finished and marks, waiting for the packing order (R231) -/
  finished : List StreamItem := []
  /-- blocks and marks of started commands that the ports have not handed over yet, in packing order (R14, R118, R231) -/
  source : List StreamItem := []
  /-- the next place to hand out (R231) -/
  nextOrder : Nat := 0
  /-- each engine's decompression input, oldest first (R237) -/
  decomp : Vector (List DecompItem) 4 := Vector.replicate 4 []
  /-- GEN_CZ_IN (R239) -/
  bytesIn : Nat := 0
  /-- GEN_CZ_OUT (R239) -/
  bytesOut : Nat := 0
  /-- GEN_CZ_CNT_RAW (R239) -/
  cntRaw : Nat := 0
  /-- GEN_CZ_CNT_ERR (R239) -/
  cntErr : Nat := 0
  deriving DecidableEq, Repr

/-! ## Volume, staging and the write run -/

/-- A record-table entry (Table 02-12), with the command it came from while it is staged. -/
structure RecEntry where
  offset : Nat
  mark : Bool
  first : Bool
  last : Bool
  group : Bool
  groupEnd : Bool
  stored : Nat
  length : Nat
  lon : Nat
  deriving DecidableEq, Repr

/-- KIND of a data set; a parity set has no descriptor (R44, R45). -/
inductive DsKind where
  | user | eod | filler | parity
  deriving DecidableEq, Repr

/-- How far a staged data set has come (R12, R90, R96). -/
inductive DsStage where
  /-- payload under assembly -/
  | assembling
  /-- payload closed, not yet sealed and encrypted -/
  | closed
  /-- ciphertext (or mode-0 payload) complete -/
  | sealed
  /-- rows encoded -/
  | encoded
  /-- committed to a slot -/
  | committed
  /-- a copy has passed verify -/
  | passed
  deriving DecidableEq, Repr

/-- A data set in write staging (R14, R45, R116). -/
structure DataSet where
  /-- a staging number of the model's own -/
  id : Nat
  part : Nat
  kind : DsKind
  /-- N, once sealed (R53); a parity set's n from the start -/
  n : Option Nat
  stage : DsStage
  sel : CipherSel
  firstLon : Nat
  lead : Nat
  /-- the stream bytes placed so far (R47) -/
  stream : Bytes
  entries : List RecEntry
  closes : Bool
  /-- the recorded payload, 921,600 bytes, once sealed -/
  payload : Bytes
  /-- failed copies in a row (R100) -/
  fails : Nat
  /-- skips on this wrap (R100) -/
  skips : Nat
  /-- copies held, bit 0 in stack 0, bit 1 in stack 1 (R14, R116) -/
  inStacks : BitVec 2
  deriving DecidableEq, Repr

/-- What is known of one partition of the mounted volume (R50 to R57, R110). -/
structure Part where
  inUse : Bool
  firstWrap : Nat
  lastWrap : Nat
  /-- the highest N on tape or committed (R53, Table 02-15) -/
  highN : Nat
  /-- the N that the next data set takes (R53, R55) -/
  nextN : Nat
  /-- N of the EOD in force (R59) -/
  eodN : Option Nat
  /-- the logical end that commands see (R110) -/
  logicalEnd : Nat
  /-- END_LON of the EOD in force -/
  endLon : Nat
  /-- an atomic group is open: its queue, first LON, record bytes and records so far (R287, R288) -/
  group : Option (Nat × Nat × Nat × Nat)
  /-- the partition is full (R101) -/
  full : Bool
  /-- the wrap and slot after the last one written or to be written (R55) -/
  wrap : Nat
  slot : Nat
  /-- a data set of its has been committed on its last wrap (R321) -/
  onLastWrap : Bool
  /-- data sets written since its last EOD (R110) -/
  dirty : Bool
  /-- the format floor of the dome group in hand (R391) -/
  floor : Nat
  /-- queues with objects packed, and the staging number of the last data set that holds one (R292) -/
  writers : List (Nat × Nat)
  deriving DecidableEq, Repr

/-- The mounted volume (R319, R57 to R61). -/
structure Volume where
  readOnly : Bool
  recovered : Bool
  rebuilt : Bool
  blank : Bool
  mountCount : Nat
  lastRevision : Nat
  generation : Nat
  volumeId : Bytes
  /-- DIRTY as the cartridge memory shows it (R59) -/
  dirty : Bool
  /-- FLOOR: the floor in force at the last write (R59) -/
  floor : Nat
  /-- the attempt in hand to write DIRTY = 1, 0 for none (R111) -/
  dirtyTries : Nat
  /-- the cartridge mounted as a blank one (R319) -/
  foundBlank : Bool
  /-- TAPE_ID and CARTRIDGE_SERIAL (R251) -/
  tapeId : Bytes
  serial : Bytes
  parts : Vector Part 4
  /-- the wrap table: STATE, PARTITION, FIRST_N, LAST_N, LAST_SLOT, FIRST_LON (R60) -/
  wraps : List (Nat × Nat × Nat × Nat × Nat × Nat)
  /-- the locate index: wrap, entry, N, slot, FIRST_LON (R61) -/
  index : List (Nat × Nat × Nat × Nat × Nat)
  /-- the current position: partition and LON (R318) -/
  posPart : Nat
  posLon : Nat
  /-- the cartridge memory no longer takes writes and DIRTY = 1 was never read back (R111) -/
  cmRefused : Bool
  deriving DecidableEq, Repr

/-- What a group of accesses to the cartridge memory was for (R59, R63, R111). -/
inductive CmMark where
  /-- the volume header, with this DIRTY -/
  | header (dirty : Bool)
  /-- the wrap table -/
  | wraps
  /-- the locate-index entries of a wrap of a partition -/
  | index (wrap part : Nat)
  /-- the usage log -/
  | usage
  /-- the accesses of a command, named by its queue and tag -/
  | command (q tag : Nat)
  deriving DecidableEq, Repr

/-- What the answer to a request of the link is taken for (R63, R64). -/
inductive CmJob where
  /-- FIELD -/
  | plain
  /-- IDENT -/
  | ident
  /-- HLTA, to which the memory gives no reply -/
  | halt
  /-- REQA -/
  | reqa
  /-- ANTICOLLISION and SELECT of a cascade level -/
  | anticollision (level : Nat)
  | select (level : Nat)
  /-- CM_INFO -/
  | info
  /-- CM_READ of 32 bytes -/
  | read (addr : Nat)
  /-- CM_WRITE of 16 bytes, and the CM_READ that compares them -/
  | write (addr : Nat) (data : Bytes)
  | check (addr : Nat) (data : Bytes)
  /-- the end of a group of accesses; it stands for no frame -/
  | done (m : CmMark)
  deriving DecidableEq, Repr

/-- A request of the link and what its answer is for. -/
structure CmReq where
  frame : Bytes
  job : CmJob
  deriving DecidableEq, Repr

/-- The cartridge-memory link (R63, R64, R111). -/
structure CmLink where
  /-- the reader field is on (R63) -/
  field : Bool := false
  /-- the requests in order; the first one is in hand and polled for (R63) -/
  queue : List CmReq := []
  /-- retries of the request in hand (R63) -/
  tries : Nat := 0
  /-- the reader answered busy and is polled again after 50 µs (R63) -/
  busy : Bool := false
  /-- the answer to IDENT: vendor, part and link version (Table 02-17) -/
  identity : Bytes := []
  /-- an access of the group in hand has failed after its retries (R63) -/
  failed : Bool := false
  /-- updates that failed and are retried at the next point of Table 04-6 (R111) -/
  owed : List CmMark := []
  /-- the tick of the last access (R63) -/
  usedAt : Nat := 0
  deriving DecidableEq, Repr

/-- A commit of a data set to a slot that is not yet verified (R90, R99, R107). -/
structure Commit where
  slot : Nat
  /-- staging number of the data set -/
  id : Nat
  rewritten : Bool
  /-- its commit point, in ticks (R90) -/
  point : Rat
  /-- an inhibit affected it (R107) -/
  affected : Bool
  /-- ECC_VFY_CFG and ECC_VFY_CFG2 as they stood at the commit (R97) -/
  cfg : Word
  cfg2 : Word
  deriving DecidableEq, Repr

/-- Write staging, the write run and its verify (R90 to R118). -/
structure WritePath where
  /-- the staged data sets, oldest first (R14) -/
  sets : List DataSet := []
  /-- the next staging number -/
  nextId : Nat := 0
  /-- WVN_STAT.ONE_STACK and the working stacks (R117) -/
  stackOk : BitVec 2 := 3
  /-- WVN_STAT.STALLED (R118) -/
  stalled : Bool := false
  /-- the tick since which the stall counts in the millisecond in hand (R119) -/
  stallAt : Nat := 0
  /-- domes whose parity is computed: partition-and-group number and dome (R17) -/
  domesReady : List (Nat × Nat) := []
  /-- domes released (R16) -/
  domesReleased : List (Nat × Nat) := []
  /-- dome groups closed early, with the closing position (R54) -/
  closed : List (Nat × Nat) := []
  /-- numbers whose data sets were discarded once one of them had been written: from the first on and below the second (R53, R101) -/
  absent : List (Nat × Nat) := []
  /-- the wrap being written (R90) -/
  wrap : Nat := 0
  /-- the next slot to commit (R90) -/
  slot : Nat := 0
  /-- the slot after the last one written, or left for a skip, on this wrap (R129, R130) -/
  resumeAt : Nat := 0
  /-- the partition being written -/
  part : Nat := 0
  /-- commits not yet verified, in slot order (R90) -/
  commits : List Commit := []
  /-- a slot and its commit point in ticks, from which later commit points count; none before a run's first commit (R90) -/
  anchor : Option (Nat × Rat) := none
  /-- staging numbers whose rewrite is pending, in the order of need (R98) -/
  rewrites : List Nat := []
  /-- slots still to leave unwritten at a skip (R100) -/
  skipLeft : Nat := 0
  /-- the last 4,096 slots written, true for a rewritten copy, newest first (R120) -/
  history : List Bool := []
  /-- write-permit tokens flow (R105, R216) -/
  tokens : Bool := false
  /-- an inhibit has stopped the tokens and they have not resumed (R106) -/
  inhibited : Bool := false
  /-- active inhibit sources, in the order of Table 04-4 (R105) -/
  sources : BitVec 11 := 0
  /-- consecutive servo samples within the PES limit (R106) -/
  pesGood : Nat := 0
  /-- when the hold-off after a shock source ends, in ticks (R106) -/
  holdUntil : Option Nat := none
  /-- no resume before the next start (R106) -/
  noResume : Bool := false
  /-- first copies committed and not started when tokens stopped, to be written first (R107) -/
  requeued : List Nat := []
  /-- the wrap's end is reached and its verifies are awaited (R101) -/
  wrapEnding : Bool := false
  /-- in STOPPING a commit point found nothing ready: no further first copy is committed (R129) -/
  noFirst : Bool := false
  deriving DecidableEq, Repr

/-- The volume in the drive, its cartridge and its memory (R58 to R64, R319). -/
structure Drive where
  /-- the cartridge present -/
  cart : Option Cartridge := none
  /-- the mounted volume (R319) -/
  vol : Option Volume := none
  /-- the cartridge-memory link (R63) -/
  link : CmLink := {}
  deriving DecidableEq, Repr

/-! ## Weathervane -/

/-- The states of Table 05-3. -/
inductive WvnState where
  | idle | stream | turn | stopping | stopped | restart
  deriving DecidableEq, Repr

/-- What a run does (R129, R134). -/
inductive RunKind where
  | none | writing | reading | retry
  deriving DecidableEq, Repr

/-- The configuration registers of Weathervane as they were last written: they take effect at the next 1 ms update (R135). -/
structure WvnCfg where
  /-- WVN_CTRL (R135) -/
  ctrl : Word := 2
  /-- WVN_FIXED (R135) -/
  fixed : Word := 4096
  /-- WVN_SETPT (R135) -/
  setpt : Word := 0x10F01A
  /-- WVN_GAIN (R135) -/
  gain : Word := 0x20004000
  /-- WVN_RATE (R135) -/
  rate : Word := 0x2020
  /-- WVN_BH (R135) -/
  bh : Word := 0xC0FA4008
  /-- WVN_BH2 (R135) -/
  bh2 : Word := 0x271000C8
  /-- WVN_VTABLE0 to 15, mV, from fuses (R135) [DC 17] -/
  vtable : Vector Nat 16 := #v[600, 612, 624, 636, 648, 660, 672, 684, 696, 708, 720, 732, 744, 756, 768, 780]
  deriving DecidableEq, Repr

/-- Weathervane (R119 to R135, R445). The configuration fields ctrl to vtable are those in force. -/
structure Wvn where
  /-- the configuration registers as written and as read (R135) -/
  new : WvnCfg := {}
  /-- WVN_CTRL (R135) -/
  ctrl : Word := 2
  /-- WVN_FIXED (R135) -/
  fixed : Word := 4096
  /-- WVN_SETPT (R135) -/
  setpt : Word := 0x10F01A
  /-- WVN_GAIN (R135) -/
  gain : Word := 0x20004000
  /-- WVN_RATE (R135) -/
  rate : Word := 0x2020
  /-- WVN_BH (R135) -/
  bh : Word := 0xC0FA4008
  /-- WVN_BH2 (R135) -/
  bh2 : Word := 0x271000C8
  /-- WVN_VTABLE0 to 15, mV, from fuses (R135) [DC 17] -/
  vtable : Vector Nat 16 := #v[600, 612, 624, 636, 648, 660, 672, 684, 696, 708, 720, 732, 744, 756, 768, 780]
  /-- WVN_STAT.STATE (R129) -/
  state : WvnState := .idle
  /-- the run in hand (R129) -/
  run : RunKind := .none
  /-- the r in force, 1/4,096; WVN_STAT.R_NOW (R121) -/
  r : Nat := 0
  /-- a START waits for the voltage of its r: its LPOS (R20) -/
  startDue : Option Nat := none
  /-- a speed set-point waiting for its voltage (R20) -/
  rPending : Option Nat := none
  /-- a voltage to lower once the speed is reached (R20) -/
  vPending : Option Nat := none
  /-- r_cmd, 1/4,096; WVN_STAT.R_TARGET (R120) -/
  rCmd : Nat := 0
  /-- H, bytes per second (R119) -/
  h : Rat := 0
  /-- ρ (R120) -/
  rho : Rat := 0
  /-- the integrator (R120) -/
  integ : Rat := 0
  /-- anti-windup (R120) -/
  frozen : Bool := false
  /-- the part of a slew step not yet taken, 1/4,096 (R121) -/
  slewRest : Rat := 0
  /-- ticks for which the host was stalled since the last update (R119) -/
  stallTicks : Nat := 0
  /-- native user bytes that passed since the last update (R119) -/
  moved : Nat := 0
  /-- consecutive updates with r_cmd at 0.25 (R129) -/
  dwellMs : Nat := 0
  /-- the tick at which STOPPED was entered (R129) -/
  stoppedAt : Nat := 0
  /-- the run needs tape and Steeple refused its program (R445) -/
  refused : Bool := false
  /-- the voltage cap of R125, a band, 15 when not in force -/
  capV : Nat := 15
  /-- the margin cap of R126 -/
  capM : Nat := 15
  /-- the thermal cap of R424, a band, 16 when not in force -/
  capT : Nat := 16
  /-- the voltage band in force (R125) -/
  band : Nat := 0
  /-- WVN_VOP.MARGIN_OFS, mV (R126) -/
  marginOfs : Nat := 0
  /-- samples of 1 ms above 15 % (R126) -/
  marginMs : Nat := 0
  /-- the last turning points of r, with their milliseconds of the time base, newest first (R127) -/
  turns : List (Nat × Nat) := []
  /-- updates made, for R127 -/
  updates : Nat := 0
  /-- WVN_CNT_BH (R135) -/
  cntBh : Nat := 0
  /-- WVN_CNT_TURN (R135) -/
  cntTurn : Nat := 0
  /-- WVN_CNT_STALL (R135) -/
  cntStall : Nat := 0
  deriving DecidableEq, Repr

/-! ## ECC clusters and the read channel -/

/-- Row, column and dome codes, verify and dead channels (R80 to R104). -/
structure Ecc where
  /-- ECC_LDPC_CFG (R88) -/
  ldpcCfg : Word := 0x3C3214
  /-- ECC_RS_CFG (R88) -/
  rsCfg : Word := 0xBC
  /-- ECC_ESC_CFG (R88) -/
  escCfg : Word := 7
  /-- ECC_VFY_CFG (R97) -/
  vfyCfg : Word := 0x1808540C
  /-- ECC_VFY_CFG2 (R97) -/
  vfyCfg2 : Word := 0x28800440
  /-- ECC_WINH_CFG (R97) -/
  winhCfg : Word := 0x803E8
  /-- channels declared dead for module 0, in MRAM (R102, R103) [DC 11] -/
  dead0 : BitVec 1024 := 0
  /-- the head's serial number and the head table's manifest under which the declarations stand, in MRAM (R103) -/
  deadHead : Bytes × Bytes := ([], [])
  /-- channels declared dead for module 1, in MRAM (R102, R103) [DC 11] -/
  dead1 : BitVec 1024 := 0
  /-- consecutive failures per channel, module 0 (R102) -/
  run0 : Vector Nat 1024 := Vector.replicate 1024 0
  /-- consecutive failures per channel, module 1 (R102) -/
  run1 : Vector Nat 1024 := Vector.replicate 1024 0
  /-- ECC clusters in service (R377) -/
  inService : BitVec 8 := 0xFF
  /-- ECC_CNT_L3 (R88) -/
  cntL3 : Nat := 0
  /-- ECC_CNT_DOME (R88) -/
  cntDome : Nat := 0
  /-- ECC_CNT_UNREC (R88) -/
  cntUnrec : Nat := 0
  /-- ECC_CNT_REWRITE (R97) -/
  cntRewrite : Nat := 0
  /-- ECC_CNT_INHIBIT (R97) -/
  cntInhibit : Nat := 0
  /-- ECC_CNT_SKIP (R97) -/
  cntSkip : Nat := 0
  deriving DecidableEq, Repr

/-- The states of Table 06-2, with their codes in order from 0. -/
inductive RcState where
  | idle | anchorWait | acquire | track | seekSync | blockA | seekResync | wideResync | blockB | lostFrame
  deriving DecidableEq, Repr

/-- The statistics of Table 06-7. -/
structure ChanStats where
  frames : Nat := 0
  failed : Nat := 0
  weak : Nat := 0
  syncMiss : Nat := 0
  resync : Nat := 0
  sibling : Nat := 0
  realign : Nat := 0
  defBits : Nat := 0
  miscorr : Nat := 0
  iters : Nat := 0
  slips : Nat := 0
  deriving DecidableEq, Repr

/-- One read channel (R136 to R156, R166). -/
structure Chan where
  /-- CT_RCSTATk.STATE (R152) -/
  state : RcState := .idle
  /-- CT_RCSTATk.LOCK (R141) -/
  lock : Bool := false
  /-- CT_RCSTATk.ANCHORED (R149) -/
  anchored : Bool := false
  /-- CT_RCSTATk.DEFECT (R145) -/
  defect : Bool := false
  /-- CT_RCSTATk.SET (R163) -/
  set : Nat := 0
  /-- CT_RCSTATk.BAND (R163) -/
  band : Nat := 0
  /-- the schedule entry in force, 32 bytes; the defaults of Table 06-6 at reset (R162, R163) -/
  entry : Bytes := [40, 96, 10, 6, 9, 12, 10, 10, 14, 0, 16, 24, 12, 2, 16, 6, 8, 6, 8, 0, 0, 2, 40, 0, 0, 0, 0, 0, 0, 0, 0, 0]
  /-- the 13 taps (R142) -/
  taps : Vector Rat 13 := #v[0, 0, 0, 0, 0, 0, 1, 0, 0, 0, 0, 0, 0]
  /-- g (R142), 1.0 at reset as CT_GAINk shows -/
  gain : Rat := 1
  /-- ofs (R142) -/
  ofs : Rat := 0
  /-- beta (R142) -/
  beta : Rat := 0
  /-- f (R139) -/
  freq : Rat := 0
  /-- e_tau of the last update (R137) -/
  eTau : Rat := 0
  /-- how far the last bit lies behind the newest sample, in sample periods: R137's t told from that end -/
  t : Rat := 0
  /-- samples taken since the channel began -/
  sampNo : Nat := 0
  /-- where the loop held each bit of ys, in samples since the channel began, with f there, newest first (R153) -/
  phases : List (Rat × Rat) := []
  /-- values of z formed since the channel began -/
  bitNo : Nat := 0
  /-- the number of the first bit of the wedge found last, among the values of z (R139, R146) -/
  wedgeBit : Option Nat := none
  /-- the v[i] in the replay buffer, at most 12,288, newest first (R137, R153) -/
  vs : List Rat := []
  /-- the u[i] of the last 16 samples, newest first (R137, R142) -/
  uTail : List Rat := []
  /-- y of the last bits, newest first (R137) -/
  ys : List Rat := []
  /-- z of the last bits, newest first (R137) -/
  zs : List Rat := []
  /-- whether each bit of zs lies in a defect region, newest first (R145) -/
  defs : List Bool := []
  /-- whether LOCK was 0 at each bit of zs, newest first (R141) -/
  unlocked : List Bool := []
  /-- bits of zs, the newest, that the detector has not put out (R146) -/
  zPend : Nat := 0
  /-- u[i0] of the last bits, newest first (R142) -/
  us : List Rat := []
  /-- tentative decisions, newest first (R139) -/
  bits : List Bool := []
  /-- |e_tau| of the last 128 bits outside defects, newest first (R141) -/
  errs : List Rat := []
  /-- e² of the last 256 bits outside defects, newest first (R146) -/
  sq : List Rat := []
  /-- bits since the last cold acquisition (R142) -/
  sinceAcq : Nat := 0
  /-- where the cold acquisition stands: 0 before the pattern, 1 to 16 in the correlation, 17 to 48 in the loop's 32 bits (R140) -/
  acqBits : Nat := 0
  /-- the data-bit position from which sync positions are evaluated: the first bit that arrived after the acquisition (R140) -/
  lockFrom : Nat := 0
  /-- the reader module has changed and no acquisition has begun since (R140) -/
  newModule : Bool := false
  /-- module, taps, g, ofs and beta in force when the retry began (R144) -/
  kept : Option (Nat × Vector Rat 13 × Rat × Rat × Rat) := none
  /-- consecutive bits of low envelope (R145) -/
  lowRun : Nat := 0
  /-- bits for which neither defect condition has held (R145) -/
  cleanRun : Nat := 0
  /-- bits from the beginning of the open defect region to the newest; 0 when none is open (R145) -/
  defLen : Nat := 0
  /-- LLRs of the data bits, newest first, as far as the replay buffer reaches (R146, R153) -/
  llrs : List Int := []
  /-- whether each bit of llrs lies in a defect region, newest first (R145) -/
  llrDef : List Bool := []
  /-- detector output from the expected wedge on, newest first, with its defect flags, until the wedge has been looked for (R149) -/
  hold : List (Int × Bool) := []
  /-- guard bits of a wedge still to be left out (R149) -/
  dropNext : Nat := 0
  /-- the data-bit counter, one past the newest LLR of llrs (R149) -/
  counter : Nat := 0
  /-- the data-bit position of the next wedge (R149) -/
  wedgeAt : Nat := 0
  /-- by how much the last wedge stood off its expected position, none when it was missed (R149) -/
  wedgeOfs : Option Int := none
  /-- consecutive wedges missed (R149) -/
  wedgeMiss : Nat := 0
  /-- taps and g at the start of the frame in hand (R153) -/
  snap : Vector Rat 13 × Rat := (#v[0, 0, 0, 0, 0, 0, 1, 0, 0, 0, 0, 0, 0], 1)
  /-- taps and g where the loop last met the expected start of a frame (R153) -/
  snapNext : Vector Rat 13 × Rat := (#v[0, 0, 0, 0, 0, 0, 1, 0, 0, 0, 0, 0, 0], 1)
  /-- the start of the frame in hand (R152) -/
  frameAt : Option Nat := none
  /-- the slot in hand -/
  slot : Nat := 0
  /-- the sync of the slot in hand was found at this position (R154) -/
  syncAt : Option Nat := none
  /-- the resync of the frame in hand was found at this position (R139) -/
  resyncAt : Option Nat := none
  /-- CT_SYNCCFG as it was when the frame's search window opened (R166) -/
  cfg : Word := 0x3E34
  /-- WEDGE_DIST as it was when the wedge's window opened (R166) -/
  wedgeLim : Nat := 6
  /-- block B of the frame in hand starts here (R152) -/
  blockB : Nat := 0
  /-- the sync was missed (R165) -/
  syncMissed : Bool := false
  /-- block A waits for the replay engine (R153) -/
  replayA : Bool := false
  /-- a slot whose frame waits for sibling prediction (R154) -/
  lostSlot : Option Nat := none
  /-- slips since the last frame left (R165) -/
  slips : Nat := 0
  /-- SIDX of the next sample packet (R211) -/
  nextSidx : Nat := 0
  /-- the statistics for the module in use (R161, R165) -/
  stats : ChanStats := {}
  /-- the statistics for the other module (R161, R165) -/
  otherStats : ChanStats := {}
  deriving DecidableEq, Repr

/-- A frame at the deskew assembler, or a channel's word that it found none (R157, R158). -/
structure FrameRec where
  chan : Nat
  /-- a frame was found -/
  found : Bool
  start : Nat
  /-- LLRs of the frame's 9,024 bits with 4 further bits on each side (R155) -/
  raw : List Int
  /-- the CRC-12 of the header holds and CHANNEL is this channel (R148) -/
  valid : Bool
  seq : Nat
  type : Nat
  /-- realignment has been tried (R155) -/
  tried : Bool
  /-- a trial with δ other than 0 has won (R155) -/
  shifted : Bool
  /-- its sync was missed (R165) -/
  missed : Bool
  /-- block A came from the replay engine (R153) -/
  replayed : Bool
  /-- the frame came from sibling prediction (R154) -/
  predicted : Bool
  slips : Nat
  defBits : Nat
  deriving DecidableEq, Repr

/-- A slot under assembly (R157). -/
structure SlotAsm where
  slot : Nat
  frames : List FrameRec
  deriving DecidableEq, Repr

/-- What verify found of a slot: per channel the grade, 0 failed, 1 weak, 2 passed, and whether a column syndrome was nonzero
(R87, R95, R96). -/
structure VerifyRec where
  slot : Nat
  grades : List Nat
  syndrome : Bool
  deriving DecidableEq, Repr

/-- The tiles (R94, R136 to R167). -/
structure Tiles where
  /-- the 1,024 read channels (R136) -/
  chans : Vector Chan 1024 := Vector.replicate 1024 {}
  /-- CT_SYNCCFG of each tile (R166) -/
  syncCfg : Vector Word 64 := Vector.replicate 64 0x3E34
  /-- CT_TAPIDX of each tile (R166) -/
  tapIdx : Vector Word 64 := Vector.replicate 64 0
  /-- CT_WTRIM of each channel (R94) -/
  wtrim : Vector (BitVec 16) 1024 := Vector.replicate 1024 0
  /-- CT_WDLY of each channel, sixteenths of a bit (R94) -/
  wdly : Vector Nat 1024 := Vector.replicate 1024 144000
  /-- CT_RETRY0 to 15 (R167) -/
  retry : Vector Word 16 := #v[0x87000800, 0x87010400, 0x87020400, 0x87100400, 0x87F00400, 0x87002400, 0x87004400, 0x86020400,
    0, 0, 0, 0, 0, 0, 0, 0]
  /-- CT_RETRYCTL (R167) -/
  retryCtl : Word := 8
  /-- channel bits committed and not yet in a WRITE packet, by channel (R214) -/
  wfifo : Vector (List Bool) 1024 := Vector.replicate 1024 []
  /-- the place on the wrap, in channel bits, of the first of them (R214) -/
  wfifoAt : Vector Nat 1024 := Vector.replicate 1024 0
  /-- tiles in service (R377) -/
  inService : BitVec 64 := BitVec.allOnes 64
  /-- CT_RCSTATk.MODULE, the module in use (R136) -/
  module : Nat := 0
  /-- taps saved in MRAM, by module and channel (R164) [DC 11] -/
  savedTaps : List (Nat × Nat × Vector Rat 13) := []
  /-- the serial number of the head they belong to, in MRAM (R164) [DC 11] -/
  tapsHead : Bytes := []
  /-- taps adapted in this mount, by module left and channel (R164) -/
  mountTaps : List (Nat × Nat × Vector Rat 13) := []
  /-- the modules that a run has used in this mount (R164) -/
  modulesUsed : List Nat := []
  /-- n_nom, samples per channel bit, as the last servo frame left it; 230 over 200 before the first (R138) [DC 173] -/
  nNom : Rat := 23 / 20
  /-- the highest slot of the run in hand whose deskew is complete (R158) -/
  deskewed : Option Nat := none
  /-- arrivals of the wedge in hand: channel and tick (R150) -/
  arrivals : List (Nat × Rat) := []
  /-- slots under assembly (R157) -/
  asm : List SlotAsm := []
  /-- verify outcomes not yet taken (R87) -/
  verifies : List VerifyRec := []
  deriving DecidableEq, Repr

/-- The decoder settings that a data set started with: ECC_LDPC_CFG, ECC_RS_CFG, ECC_ESC_CFG (R88). -/
structure DecodeRegs where
  ldpc : Word
  rs : Word
  esc : Word
  deriving DecidableEq, Repr

/-- A data set in read-ahead (R19, R132, R133). -/
structure RaSet where
  part : Nat
  n : Nat
  wrap : Nat
  slot : Nat
  /-- the stack that holds it (R117) -/
  stack : Fin 2
  /-- the level it decoded at (R86) -/
  level : Nat
  /-- the recorded payload; from decryption on its first 256 bytes only (R133) -/
  payload : Bytes
  /-- its plaintext user area, once its tag has passed (R19) -/
  plain : Option Bytes
  /-- stream bytes that have left for decompression or have been passed (R119, R120, R133) -/
  used : Nat
  /-- objects from this LON on have been overwritten (R132, R134) -/
  stop : Option Nat
  regs : DecodeRegs
  /-- the key slot that decrypted it (R132) -/
  keySlot : Option Nat
  deriving DecidableEq, Repr

/-- A data set that levels 1 to 3 did not decode: the rows that have converged in any copy or pass (R81, R84, R160). -/
structure FailedSet where
  part : Nat
  n : Nat
  wrap : Nat
  slots : List Nat
  /-- converged rows: row number and information bits -/
  rows : List (Nat × List Bool)
  /-- retry attempts made (R159) -/
  attempts : Nat
  /-- the retry menu has ended (R159) -/
  retried : Bool
  /-- dome recoveries that have failed (R84, R85) -/
  domes : Nat
  /-- every level has failed (R86) -/
  unrecoverable : Bool
  /-- a decode of it reached a failing tag check (R261) -/
  tagFailed : Bool
  regs : DecodeRegs
  deriving DecidableEq, Repr

/-- A packet of the host-bound queue: a block's output and the data sets its tags depend on (R19). -/
structure HostPacket where
  part : Nat
  lon : Nat
  block : Nat
  bytes : Bytes
  deps : List Nat
  committed : Bool
  deriving DecidableEq, Repr

/-- Read-ahead, the read run and the host-bound queue (R19, R131 to R134, R157 to R160). -/
structure ReadPath where
  /-- data sets in read-ahead (R132) -/
  sets : List RaSet := []
  /-- data sets that failed levels 1 to 3 (R84) -/
  failed : List FailedSet := []
  /-- data sets whose content has gone and is read from tape again when it is needed: N, wrap and slot (R117, R132) -/
  holes : List (Nat × Nat × Nat) := []
  /-- decompressed blocks (R19, R237) -/
  packets : List HostPacket := []
  /-- blocks whose frame was invalid: partition, LON, block (R237) -/
  badBlocks : List (Nat × Nat × Nat) := []
  /-- the partition being read (R132) -/
  part : Nat := 0
  /-- the wrap being read -/
  wrap : Nat := 0
  /-- the slot after the last one read -/
  slot : Nat := 0
  /-- the lowest LON from which the run in hand holds or will hold every object; none before a run and once read-ahead is discarded -/
  covers : Option Nat := none
  /-- the read run goes on (R132) -/
  active : Bool := false
  /-- the run has met the EOD in force or the end of the partition (R132) -/
  ended : Bool := false
  /-- N and slot of the last descriptor decoded in the run, or of the estimate (R157) -/
  expected : Option (Nat × Nat) := none
  /-- a descriptor has decoded in the run (R157) -/
  sure : Bool := false
  /-- the highest N accepted (R56) -/
  accepted : Option Nat := none
  /-- the retry in hand: n and the attempt (R160) -/
  retry : Option (Nat × Nat) := none
  /-- the attempts of the retry in hand, as the menu stood when it began (R159, R167) -/
  menu : List Word := []
  /-- where the run goes on after its retries: wrap and slot (R160) -/
  resume : Nat × Nat := (0, 0)
  /-- which stack takes the next data set (R117) [DC 16] -/
  nextStack : Fin 2 := 0
  /-- the slot whose deskew completed last held a rewritten copy (R157) -/
  copySlot : Bool := false
  deriving DecidableEq, Repr

/-! ## Steeple -/

/-- The modes of Table 07-8, in the order of their codes. -/
inductive SteepleMode where
  | off | still | move | track | fbHold | fbStop | fault
  deriving DecidableEq, Repr

/-- One servo reader (R175, R176, R193, R30, R31). -/
structure Reader where
  /-- STP_STAT.SRV_OK (R176) -/
  usable : Bool := false
  /-- consecutive invalid samples (R176) -/
  bad : Nat := 0
  /-- consecutive valid samples that count for readmission (R176) -/
  good : Nat := 0
  /-- y of the last valid sample, in units of 0.3168 servo µm as R175 defines it (R175) -/
  y : Rat := 0
  /-- e_r of the last valid sample, µm (R184) -/
  err : Rat := 0
  /-- t_M of the last valid sample, µs (R175) -/
  tM : Option Rat := none
  /-- consecutive samples with y bit-identical (R193) -/
  sameY : Nat := 0
  /-- the data bits of the word in hand, newest first; none before its marker (R30) -/
  word : Option (List Bool) := none
  /-- LPOS of the last good word (R30) -/
  lpos : Option Nat := none
  /-- frame within the word (R30) -/
  frame : Nat := 0
  /-- encoder travel, in counts, since the frame number last advanced (R193) -/
  stillCounts : Nat := 0
  /-- tape-ID bits of consecutive good words, newest first, with their LPOS (R31) -/
  idBits : List (Nat × Bool) := []
  deriving DecidableEq, Repr

/-- One reel and its encoder (R168, R186, R195). -/
structure Reel where
  /-- STP_STAT.ENC_OK (R195) -/
  ok : Bool := false
  /-- A and B as last sampled (R195) [DC 10] -/
  a : Bool := false
  /-- B as last sampled (R195) [DC 10] -/
  b : Bool := false
  /-- counts since the index pulse, signed (R188, R195) -/
  count : Int := 0
  /-- the same with its fraction, while the encoder is lost and the angle comes from the servo (R195) -/
  angle : Rat := 0
  /-- an index pulse has been seen since the last loss (R195) -/
  indexed : Bool := false
  /-- consecutive clean revolutions (R195) -/
  cleanRevs : Nat := 0
  /-- the tick of the last edge (R195) -/
  edgeAt : Nat := 0
  /-- counts the servo travel predicts since the last edge (R195) -/
  predicted : Rat := 0
  /-- speed from the last two edges, counts per second, signed (R195) -/
  cps : Rat := 0
  /-- STP_RADIUS: radius in mm (R186) -/
  radius : Rat := 0
  /-- servo distance since the last index pulse, mm (R186) -/
  travel : Rat := 0
  /-- angular speed one sample before, rad/s, for the reel's acceleration (R186) -/
  omega : Rat := 0
  deriving DecidableEq, Repr

/-- The states of one biquad section (R179). -/
structure Biquad where
  x1 : Rat := 0
  x2 : Rat := 0
  y1 : Rat := 0
  y2 : Rat := 0
  deriving DecidableEq, Repr

/-- The states of one law of Table 07-5 (R179). -/
structure LawState where
  /-- biquad 1 (R179) -/
  q1 : Biquad := {}
  /-- biquad 2 (R179) -/
  q2 : Biquad := {}
  /-- integ (R179) -/
  integ : Rat := 0
  /-- dterm (R179) -/
  dterm : Rat := 0
  /-- x_prev (R179) -/
  xPrev : Rat := 0
  /-- u_last (R179) -/
  uLast : Rat := 0
  /-- the hand-over gap G, its length N and its sample m (R191) -/
  gap : Rat := 0
  /-- N of the ramp, 0 when none runs (R191) -/
  rampN : Nat := 0
  /-- m of the ramp (R191) -/
  rampM : Nat := 0
  deriving DecidableEq, Repr

/-- One power stage on the motion link (R169 to R171). -/
structure Stage where
  /-- the command frames sent whose responses have not come, oldest first: the response to a command comes with the next (R169) -/
  sent : List (BitVec 32) := []
  /-- commands that drew ACK = 0 and go again in the stage's next frames, oldest first (R171) -/
  again : List (BitVec 32) := []
  /-- consecutive responses with a bad CRC or ACK = 0 (R171) -/
  nacks : Nat := 0
  /-- the tick of its last frame (R170) -/
  sentAt : Nat := 0
  /-- MEAS of its last good response (R169) -/
  meas : Int := 0
  deriving DecidableEq, Repr

/-- A motion program in hand (R199 to R201). -/
structure Program where
  /-- STP_PROG.PROG (R203) -/
  prog : Nat := 0
  /-- STP_PROG.STEP (R203) -/
  step : Nat := 0
  /-- STP_PROG.RUNNING (R203) -/
  running : Bool := false
  /-- STP_PROG.FAULT (R201) -/
  fault : Nat := 0
  /-- P0 to P3 (R199) -/
  params : Vector (BitVec 32) 4 := #v[0, 0, 0, 0]
  /-- the tick at which the step in hand completes or times out (R200, R201) -/
  due : Option Nat := none
  /-- the step in hand has begun and waits for its completion (R200) -/
  waiting : Bool := false
  /-- consecutive samples that met the step's condition (R200) -/
  met : Nat := 0
  /-- the tick at which the program started (R199) -/
  started : Nat := 0
  /-- the role program that was started: 0 to 7 (R199) -/
  role : Nat := 0
  /-- the program is to start when Steeple next takes one: its number, parameters and purpose (R445) -/
  queued : Option (Nat × Nat × Nat × Nat × Nat) := none
  deriving DecidableEq, Repr

/-- Steeple (R168 to R203). -/
structure Steeple where
  /-- STP_STAT.MODE (R190) -/
  mode : SteepleMode := .off
  /-- STP_STAT.ACTIVE: ST1 drives (R197) -/
  st1 : Bool := false
  /-- STP_STAT.STANDBY_OK (R197) -/
  standbyOk : Bool := true
  /-- STP_STAT.BAND (R181) -/
  band : Nat := 0
  /-- STP_STAT.WIN_TU (R187) -/
  winTu : Nat := 0
  /-- STP_STAT.WIN_SUP (R187) -/
  winSup : Nat := 0
  /-- the servo readers SL0, SU0, SL1, SU1 (R168) -/
  readers : Vector Reader 4 := Vector.replicate 4 {}
  /-- the tape-ID records accepted from each servo band's words since the cartridge came in, empty for none (R31) -/
  tapeIds : Vector Bytes 5 := Vector.replicate 5 []
  /-- cartridge reel and machine reel (R168) -/
  reels : Vector Reel 2 := Vector.replicate 2 {}
  /-- STP_STAT.SPEED_OK (R192) -/
  speedOk : Bool := false
  /-- consecutive frames within 1 % (R192) -/
  speedFrames : Nat := 0
  /-- STP_STAT.ONE_BAND, and the tick since when (R194) -/
  oneBand : Option Nat := none
  /-- the speed is measured on the servo pattern, not by the encoders (R176, R191) -/
  bySrv : Bool := false
  /-- STP_STAT.RC_ON (R188) -/
  rcOn : Bool := false
  /-- STP_WINH (R203) -/
  winh : Word := 0x193C
  /-- STP_COEF_IDX (R203) -/
  coefIdx : Word := 0
  /-- v, m/s, signed, + forward (R176) -/
  v : Rat := 0
  /-- measured acceleration, m/s² (R187) -/
  accel : Rat := 0
  /-- the speed set-point in force is Weathervane's, by a SPEED step with SRC 5 (R200) -/
  wvnSpeed : Bool := false
  /-- the speed set-point in force, m/s signed (R189) -/
  vSet : Rat := 0
  /-- v_ref, m/s (R186) -/
  vRef : Rat := 0
  /-- the acceleration at which v_ref moves, m/s² (R186) -/
  vAcc : Rat := 0
  /-- LPOS and frame: the current position (R176) -/
  lpos : Nat := 0
  /-- frame within the word (R176) -/
  frame : Nat := 0
  /-- mm of travel by the encoders not yet counted in the position (R176) -/
  posRest : Rat := 0
  /-- STP_LPOS.VALID (R203) -/
  lposValid : Bool := false
  /-- mean e_r of the lower band, µm (R185) -/
  errL : Rat := 0
  /-- mean e_r of the upper band, µm (R185) -/
  errU : Rat := 0
  /-- θ, degrees; 3.0 at reset as STP_TILT shows (R177) -/
  theta : Rat := 3
  /-- the last 32 θ_s, newest first (R177) -/
  thetaHist : List Rat := []
  /-- THETA_CAL, in MRAM (R177) [DC 11] -/
  thetaCal : Rat := 0
  /-- the head serial number THETA_CAL belongs to, in MRAM (R177) [DC 11] -/
  thetaHead : Bytes := []
  /-- θ_0 of R185, degrees -/
  theta0 : Rat := 3
  /-- the fixed angle of a TILT step, degrees from 3° (R185) -/
  tiltFixed : Option Rat := none
  /-- the tilt output, degrees from 3° (R185) -/
  tiltOut : Rat := 0
  /-- the laws 0 to 6 (R179) -/
  laws : Vector LawState 7 := Vector.replicate 7 {}
  /-- the error that the lateral law last had, or FB_HOLD's estimate of it, µm (R193) -/
  estErr : Rat := 0
  /-- its rate, µm/ms (R193) -/
  estRate : Rat := 0
  /-- how far the target's servo bands lie beyond those being read, µm (R184) -/
  bandGap : Rat := 0
  /-- the code of the last EVENT step (R200) -/
  eventCode : Nat := 0
  /-- the accelerometer's identity has been asked for and not yet compared (R173) -/
  accIdWait : Bool := false
  /-- the lateral law in force, 0 to 2 (R180) -/
  latLaw : Nat := 0
  /-- the reel law in force, 4 or 5 (R180) -/
  reelLaw : Nat := 4
  /-- the wrap and purpose of the lateral set-point: wrap, reading (R183, R189) -/
  latWrap : Nat := 0
  /-- reading, not writing (R183) -/
  latRead : Bool := false
  /-- the LATERAL step's offset, in 10 nm (R183) -/
  latOfs : Int := 0
  /-- OFFTRACK of a retry attempt in force, in 10 nm (R183) -/
  retryOfs : Int := 0
  /-- STP_LAT.VCM: the voice-coil output, fraction of full scale (R184) -/
  vcm : Rat := 0
  /-- STP_LAT.STEPPER (R184) -/
  stepper : Int := 0
  /-- the 20 ms average in hand: its sum (R184) -/
  vcmSum : Rat := 0
  /-- samples of that average (R184) -/
  vcmN : Nat := 0
  /-- ticks of samples in it (R184) -/
  vcmTicks : Rat := 0
  /-- the part of a stepper step not yet made in a seek (R184) -/
  seekRest : Rat := 0
  /-- F̂, N (R186) -/
  fEst : Rat := 0
  /-- the tension set-point in force, mN (R189) -/
  fSet : Rat := 0
  /-- the tension a TENSION step ramps to, mN, and its rate, mN/ms (R189) -/
  fGoal : Option (Rat × Rat) := none
  /-- STP_CNT and the controllers' memories: lateral forward, lateral reverse, reel forward, reel reverse (R188) -/
  rc : Vector (Vector Rat 256) 4 := Vector.replicate 4 (Vector.replicate 256 0)
  /-- the bin in hand of the lateral and the reel controller, error sum and samples (R188) -/
  rcBin : Vector (Nat × Rat × Nat) 2 := #v[(0, 0, 0), (0, 0, 0)]
  /-- the power stages 0 to 4 (R169) -/
  stages : Vector Stage 5 := Vector.replicate 5 {}
  /-- the motion program (R199) -/
  program : Program := {}
  /-- a controlled stop is in progress, m/s² (R196) -/
  stopping : Option Rat := none
  /-- the mode held before FB_HOLD (R190) -/
  heldMode : SteepleMode := .still
  /-- the tick at which FB_HOLD began (R190) -/
  holdFrom : Nat := 0
  /-- valid samples since FB_HOLD began (R190) -/
  holdGood : Nat := 0
  /-- the enables are to go low after braking: the tick (R196) -/
  brakeUntil : Option Nat := none
  /-- the tick of the last heartbeat (R198) -/
  beatAt : Nat := 0
  /-- the heartbeat is absent (R198) -/
  beatLost : Bool := false
  /-- the last accelerometer sample, mg per axis (R172) -/
  acc : Vector Rat 3 := #v[0, 0, 0]
  /-- consecutive all-ones or all-zero samples (R173) -/
  accBad : Nat := 0
  /-- the accelerometer has failed until the next threading (R173) -/
  accFailed : Bool := false
  /-- temperature, °C, and humidity, % (R174) -/
  temp : Option Rat := none
  /-- humidity, % (R174) -/
  hum : Option Rat := none
  /-- consecutive failed readings (R174) -/
  sensorBad : Nat := 0
  /-- the sensor is taken as absent until the next threading (R174) -/
  sensorAbsent : Bool := false
  /-- the tick at which ST1 last copied ST0's state (R197) -/
  resyncAt : Option Nat := none
  /-- OFF was entered from FAULT, not by UNTHREAD (R445) -/
  offByFault : Bool := false
  /-- STP_CNT_HOLD (R203) -/
  cntHold : Nat := 0
  /-- STP_CNT_STOP (R203) -/
  cntStop : Nat := 0
  /-- STP_CNT_HANDOVER (R203) -/
  cntHandover : Nat := 0
  /-- STP_CNT_DROP (R203) -/
  cntDrop : Nat := 0
  /-- STP_CNT_LINKERR (R203) -/
  cntLinkErr : Nat := 0
  /-- STP_CNT_TAKEOVER (R203) -/
  cntTakeover : Nat := 0
  deriving DecidableEq, Repr

/-! ## The head link -/

/-- The training states of Table 08-5, in the order of their codes. -/
inductive TrainState where
  | down | cdr | block | ident | config | up
  deriving DecidableEq, Repr

/-- One head-link group (R204 to R226). -/
structure Group where
  /-- HLK_GSTATg.STATE (R219) -/
  state : TrainState := .down
  /-- inbound lanes with block lock (R219) -/
  lock : BitVec 8 := 0
  /-- lanes on which TRAIN has arrived (R219) -/
  trained : BitVec 8 := 0
  /-- HLK_GSTATg.RX_LIVE (R226) -/
  rxLive : BitVec 8 := 0
  /-- HLK_GSTATg.TX_LIVE (R226) -/
  txLive : BitVec 2 := 0
  /-- the front-end's own number of each formatter lane (R219) -/
  laneNo : Vector Nat 8 := #v[0, 1, 2, 3, 4, 5, 6, 7]
  /-- HLK_GSTATg.SHED, K (R222) -/
  shed : Nat := 0
  /-- lanes whose polarity is corrected (R206) -/
  inverted : BitVec 8 := 0
  /-- the scrambler of each outbound lane (R206) [DC 157] -/
  scr : Vector (BitVec 58) 2 := #v[0, 0]
  /-- the tick at which SIDX was last known (R209) -/
  sidxAt : Nat := 0
  /-- the write-clock index at a tick, counted from entry to CONFIG (R212, R219) -/
  widx : Rat := 0
  /-- that tick (R212) -/
  widxAt : Nat := 0
  /-- the tick at which TRAIN last went out (R219) -/
  trainAt : Nat := 0
  /-- CSEQ of the last command sent (R212) -/
  cseq : BitVec 4 := 0
  /-- CSEQ of the last command sent in CONFIG, awaited in STATUS (R219), or of a LANE_MAP (R224) -/
  awaits : Option (BitVec 4) := none
  /-- TSEQ of the next permit token, per lane (R216) -/
  tseq : Vector (BitVec 8) 2 := #v[0, 0]
  /-- HLK_FEIDg.VENDOR (R219) -/
  vendor : BitVec 16 := 0
  /-- HLK_FEIDg.PART (R219) -/
  part : BitVec 16 := 0
  /-- identity found wrong: not retried before RETRAIN (R219) -/
  refused : Bool := false
  /-- CRC errors of each inbound lane within the millisecond in hand (R221) -/
  laneErrs : Vector Nat 8 := Vector.replicate 8 0
  /-- that millisecond (R221) -/
  errMs : Nat := 0
  /-- outbound CRC errors reported within the millisecond in hand (R224) -/
  txErrs : Nat := 0
  /-- that millisecond (R224) -/
  txErrMs : Nat := 0
  /-- SIDX of the front-end's clock when last reported (R218) -/
  sidx : Nat := 0
  /-- domains HLgA and HLgB are without a fault (R377) -/
  halves : BitVec 2 := 3
  /-- HLK_CNT_CRCg (R226) -/
  cntCrc : Nat := 0
  /-- HLK_CNT_LOSTg (R226) -/
  cntLost : Nat := 0
  /-- HLK_CNT_LAPSEg (R226) -/
  cntLapse : Nat := 0
  /-- HLK_CNT_TRAINg (R226) -/
  cntTrain : Nat := 0
  deriving DecidableEq, Repr

/-- The head link (R204 to R227). -/
structure HeadLink where
  /-- the eight groups (R204) -/
  groups : Vector Group 8 := Vector.replicate 8 {}
  /-- HLK_CTRL.GROUP_EN in force (R226) -/
  groupEn : BitVec 8 := 0xFF
  /-- a GROUP_EN written while a cartridge is mounted (R226) -/
  groupEnNext : Option (BitVec 8) := none
  /-- RETRAIN written while a cartridge is mounted (R226) -/
  retrainNext : BitVec 8 := 0
  /-- HLK_CFG (R226) -/
  cfg : Word := 4
  /-- the ADC rate last commanded, MHz (R124) -/
  adc : Rat := 0
  /-- the write rate last commanded, MHz (R213) -/
  wclk : Rat := 0
  deriving DecidableEq, Repr

/-! ## Belfry and the hardware queues -/

/-- One Belfry source (R329 to R333). -/
structure Source where
  /-- BLF_PENDk (R329) -/
  pending : Bool := false
  /-- the core on which it is active (R333) -/
  active : Option (Fin 4) := none
  /-- PRIORITY (R332) -/
  prio : Fin 16 := 15
  /-- ROUTE, 4 for any core (R332) -/
  route : Fin 5 := 4
  /-- EN (R332) -/
  en : BitVec 4 := 0
  deriving DecidableEq, Repr

/-- A control core as Belfry sees it (R332, R335, R389). -/
structure Core where
  /-- the priority stack: source and priority, top first (R335) -/
  stack : List (Nat × Nat) := []
  /-- BLF_COREc.CLAIMED (R349) -/
  claimed : Nat := 0
  /-- the vector address on offer, by source (R332) -/
  offer : Option Nat := none
  /-- an offer was made and then withdrawn by a mask write or another core's claim (R333) -/
  withdrawn : Bool := false
  /-- heartbeats missed (R378) -/
  missed : Nat := 0
  /-- the core has stopped at the activation barrier (R389) -/
  atBarrier : Bool := false
  deriving DecidableEq, Repr

/-- Belfry (R329 to R349). -/
structure Belfry where
  /-- the 480 sources (R329) -/
  sources : Vector Source 480 := Vector.replicate 480 {}
  /-- the four control cores (R332) -/
  cores : Vector Core 4 := Vector.replicate 4 {}
  /-- BLF_STAT.CORE_OK (R336) -/
  coreOk : BitVec 4 := 0xF
  /-- BLF_STAT.COPY_OK (R337) -/
  copyOk : BitVec 2 := 3
  /-- BLF_CFG.VEC_BASE (R349) -/
  vecBase : BitVec 18 := 0
  /-- BLF_SRCIDX (R349) -/
  srcIdx : Word := 0
  /-- BLF_WAKE.LATCHED (R331) -/
  latched : BitVec 16 := 0
  /-- BLF_WAKE.WAKE_EN (R331) -/
  wakeEn : BitVec 16 := 6
  /-- BLF_CNT_SPURIOUS (R349) -/
  cntSpurious : Nat := 0
  /-- BLF_CNT_STACKFAULT (R349) -/
  cntStackFault : Nat := 0
  /-- BLF_CNT_PARITY (R349) -/
  cntParity : Nat := 0
  /-- BLF_CNT_MSIX (R349) -/
  cntMsix : Nat := 0
  /-- BLF_CNT_FLUSH (R349) -/
  cntFlush : Nat := 0
  deriving DecidableEq, Repr

/-- An open packet of one writer: its items, oldest first, and the tick of the last item accepted (R344, R347). -/
structure OpenPacket where
  writer : Fin 4
  items : List HqItem
  at_ : Nat
  deriving DecidableEq, Repr

/-- A hardware queue (R343 to R350). -/
structure HwQueue where
  /-- HQ_CFGj.CAP_LOG2 (R350) -/
  capLog2 : Nat := 4
  /-- HQ_CFGj.MAX_PACKET (R350) -/
  maxPacket : Nat := 1
  /-- HQ_TAILj.STALE_TAIL (R350) -/
  staleTail : Nat := 0
  /-- HQ_TAILj.HIGH_WATER (R350) -/
  highWater : Nat := 192
  /-- committed packets, in commit order (R344) -/
  packets : List (List HqItem) := []
  /-- open packets, at most one per writer (R344) -/
  opens : List OpenPacket := []
  /-- the rest of the packet the reader is in, and whether an item of it was poisoned (R345, R346) -/
  reading : Option (List HqItem × Bool) := none
  /-- writers whose items are discarded up to their next FIRST (R344, R347, R348) -/
  skip : BitVec 4 := 0
  /-- writers whose FIRST item is held (R344) -/
  held : List (Fin 4 × HqItem) := []
  /-- the reader's next read gets the idle item that marks a truncation (R348) -/
  truncated : Bool := false
  /-- HQ_STATj.DRAINING (R348) -/
  draining : Bool := false
  /-- a blocking read waits for an item (R345) -/
  waiting : Bool := false
  /-- HQ_ERRj.POISON (R350) -/
  errPoison : Nat := 0
  /-- HQ_ERRj.SEQ (R350) -/
  errSeq : Nat := 0
  deriving DecidableEq, Repr

/-- The hardware queues (R343 to R350). -/
structure HwQueues where
  /-- HQ0 to HQ63 (R343) -/
  queues : Vector HwQueue 64 := Vector.replicate 64 {}
  /-- HQ_CNT_PARITY (R350) -/
  cntParity : Nat := 0
  /-- HQ_CNT_STALE (R350) -/
  cntStale : Nat := 0
  /-- HQ_CNT_FLUSH (R350) -/
  cntFlush : Nat := 0
  deriving DecidableEq, Repr

/-! ## The whole machine -/

/-- The state of the block: every part's own, the outputs so far, the model's counter of free values, and the commands that
wait, first in, first out. -/
structure State where
  /-- pins (R419, R432) -/
  pins : Pins := {}
  /-- start-up (R351) -/
  boot : Boot := {}
  /-- trust and presence (R362) -/
  trust : Trust := {}
  /-- power and time (R393) -/
  power : Power := {}
  /-- Lantern (R381) -/
  lantern : Lantern := {}
  /-- the host interface (R271) -/
  host : HostIf := {}
  /-- the Keep (R240) -/
  keep : Keep := {}
  /-- Cupola (R249) -/
  cupola : Cupola := {}
  /-- compression (R229) -/
  cz : Compress := {}
  /-- the drive (R58) -/
  drive : Drive := {}
  /-- the write path (R90) -/
  wr : WritePath := {}
  /-- Weathervane (R119) -/
  wvn : Wvn := {}
  /-- ECC (R67) -/
  ecc : Ecc := {}
  /-- the tiles (R136) -/
  tiles : Tiles := {}
  /-- the read path (R131) -/
  rd : ReadPath := {}
  /-- Steeple (R168) -/
  stp : Steeple := {}
  /-- the head link (R204) -/
  hlk : HeadLink := {}
  /-- Belfry (R329) -/
  blf : Belfry := {}
  /-- the hardware queues (R343) -/
  hq : HwQueues := {}
  /-- what the part has driven, oldest first; the model's own record (log 9) -/
  out : List Out := []
  /-- the number of free values drawn so far; the model's own counter (log 6) [DC 6] -/
  fresh : Nat := 0
  /-- the commands that wait, first in, first out; the model's own queue -/
  pending : List Instr := []
  deriving DecidableEq, Repr

/-- The part right after power comes up, before START_UP runs (R351, R434). -/
def State.reset : State := {}

end Sys2Proof.Machine
end

