-- ==== Sys2Proof/Machine/Ops.lean ====
section
/-! DEFINITION. The operations the meanings share: little-endian fields, saturating counters, canonical byte stores, the outputs,
the time base, MSI-X messages, Lantern records and device events, Belfry requests, and the part reset. -/

namespace Sys2Proof.Machine

/-! ## Words, bytes and fields (R5) -/

/-- Bits lo to lo + len − 1 of a number (R5). -/
def bits (x lo len : Nat) : Nat := x / 2 ^ lo % 2 ^ len

/-- The n bytes of x, least significant first (R5). -/
def le : Nat → Nat → Bytes
  | 0, _ => []
  | n + 1, x => BitVec.ofNat 8 x :: le n (x / 256)

/-- The number whose bytes are given, least significant first (R5). -/
def unle : Bytes → Nat
  | [] => 0
  | b :: bs => b.toNat + 256 * unle bs

/-- The n bytes of x, most significant first. -/
def be (n x : Nat) : Bytes := (le n x).reverse

/-- The number whose bytes are given, most significant first. -/
def unbe (bs : Bytes) : Nat := unle bs.reverse

/-- n zero bytes. -/
def zeros (n : Nat) : Bytes := List.replicate n 0

/-- n bytes of bs from offset off, with zeros past its end. -/
def slice (bs : Bytes) (off n : Nat) : Bytes :=
  let part := (bs.drop off).take n
  part ++ zeros (n - part.length)

/-- The little-endian number in n bytes at offset off (R5). -/
def field (bs : Bytes) (off n : Nat) : Nat := unle (slice bs off n)

/-- bs cut or padded with zeros to n bytes. -/
def fit (n : Nat) (bs : Bytes) : Bytes := slice bs 0 n

/-- bs with the bytes at offset off replaced. -/
def patch (bs : Bytes) (off : Nat) (new : Bytes) : Bytes := bs.take off ++ new ++ bs.drop (off + new.length)

/-- Every byte is zero. -/
def allZero (bs : Bytes) : Bool := bs.all (· == 0)

/-- The bytes of an ASCII text. -/
def ascii (t : String) : Bytes := t.toList.map fun c => BitVec.ofNat 8 c.toNat

/-- One more, saturating at 0xFFFF_FFFF. -/
def inc (n : Nat) : Nat := min (n + 1) 0xFFFFFFFF

/-- n added, saturating at 0xFFFF_FFFF. -/
def incBy (n k : Nat) : Nat := min (n + k) 0xFFFFFFFF

/-- A number as a 32-bit word. -/
def w32 (n : Nat) : Word := BitVec.ofNat 32 n

/-- A signed number as the n-bit two's complement it reads as. -/
def twos (n : Nat) (x : Int) : Nat := (x % (2 : Int) ^ n).toNat

/-- The signed reading of the low n bits. -/
def signed (n x : Nat) : Int := let y := x % 2 ^ n; if y < 2 ^ (n - 1) then (y : Int) else (y : Int) - (2 : Int) ^ n

/-- x kept within [lo, hi]. -/
def clampRat (x lo hi : Rat) : Rat := max lo (min x hi)

/-- |x|. -/
def absRat (x : Rat) : Rat := if x < 0 then -x else x

/-- A quotient, with an unstated value for a zero divisor (log 6). -/
def divRat (x y : Rat) : Rat := if y = 0 then Config.quotByZero x else x / y

/-! ## Angles (R92, R177, R186)

The rules name π, the tangent and the arc sine. Series give them here to better than 2⁻⁶⁰ (log 8). -/

/-- π. -/
def piRat : Rat := 314159265358979323846264338327950288 / 10 ^ 35

/-- 2π. -/
def twoPi : Rat := 2 * piRat

/-- x to a multiple of 2⁻⁶⁴. -/
def fix64 (x : Rat) : Rat := (⌊x * 2 ^ 64⌋ : Rat) / 2 ^ 64

/-- sin x / x and cos x by their series in Horner form, n terms from the k-th, of x². -/
def sinTail (x2 : Rat) : Nat → Nat → Rat
  | 0, _ => 1
  | n + 1, k => 1 - x2 / ((2 * k * (2 * k + 1) : Nat) : Rat) * sinTail x2 n (k + 1)
def cosTail (x2 : Rat) : Nat → Nat → Rat
  | 0, _ => 1
  | n + 1, k => 1 - x2 / (((2 * k - 1) * (2 * k) : Nat) : Rat) * cosTail x2 n (k + 1)

/-- The tangent of an angle in degrees (R92). -/
def tanDeg (a : Rat) : Rat :=
  let x := fix64 (a * piRat / 180)
  let x2 := fix64 (x * x)
  fix64 (divRat (x * sinTail x2 16 1) (cosTail x2 16 1))

/-- asin x / x by its series in Horner form, n terms from the k-th, of x². -/
def asinTail (x2 : Rat) : Nat → Nat → Rat
  | 0, _ => 1
  | n + 1, k => 1 + x2 * (((2 * k + 1) ^ 2 : Nat) : Rat) / (((2 * k + 2) * (2 * k + 3) : Nat) : Rat) * asinTail x2 n (k + 1)

/-- The arc sine in degrees (R177). -/
def asinDeg (x : Rat) : Rat :=
  if absRat x ≤ 1 / 2 then
    let y := fix64 x
    fix64 (y * asinTail (fix64 (y * y)) 32 0 * 180 / piRat)
  else Config.asinFar x

/-! ## Vectors and lists -/

/-- A vector with f applied at index i; unchanged past its end. -/
def updAt {α : Type} {n : Nat} (v : Vector α n) (i : Nat) (f : α → α) : Vector α n :=
  if h : i < n then v.set i (f v[i]) else v

/-- A vector with x at index i; unchanged past its end. -/
def putAt {α : Type} {n : Nat} (v : Vector α n) (i : Nat) (x : α) : Vector α n := updAt v i fun _ => x

/-- The element at index i, or a default past the end. -/
def getAt {α : Type} {n : Nat} (v : Vector α n) (i : Nat) (d : α) : α := if h : i < n then v[i] else d

/-- Apply f to the elements that satisfy p. -/
def mapIf {α : Type} (p : α → Bool) (f : α → α) (l : List α) : List α := l.map fun x => if p x then f x else x

/-- The value a key has in an association list, or a default. -/
def assoc {α β : Type} [DecidableEq α] (l : List (α × β)) (k : α) (d : β) : β :=
  match l.find? (fun e => e.1 = k) with
  | some e => e.2
  | none => d

/-- An association list with one key's value replaced. -/
def assocSet {α β : Type} [DecidableEq α] (l : List (α × β)) (k : α) (v : β) : List (α × β) :=
  (k, v) :: l.filter fun e => decide (e.1 ≠ k)

/-- Bit i of a bit vector set to b. -/
def setBit {n : Nat} (w : BitVec n) (i : Nat) (b : Bool) : BitVec n :=
  if b then w ||| BitVec.ofNat n (2 ^ i) else w &&& ~~~(BitVec.ofNat n (2 ^ i))

/-- How many bits are set. -/
def popcount {n : Nat} (w : BitVec n) : Nat := (List.range n).countP fun i => w.getLsbD i

/-- The lowest index below n that satisfies p. -/
def firstIdx (n : Nat) (p : Nat → Bool) : Option Nat := (List.range n).find? p

/-! ## Byte stores: the boot flash and the cartridge memory (R58, R352)

A store lists its bytes by strictly rising address and lists no byte equal to what an unlisted address reads as. -/

/-- What an unlisted byte of the boot flash or of a cartridge memory reads as (log 12). -/
def emptyByte : Byte := 0xFF

/-- The canonical form: addresses strictly rising, and no entry equal to the unlisted value. -/
abbrev Memory.wf (m : Cells) : Prop := m.Pairwise (fun a b => a.1 < b.1) ∧ ∀ c ∈ m, c.2 ≠ emptyByte

/-- The byte at an address. -/
def Memory.read : Cells → Nat → Byte
  | [], _ => emptyByte
  | (a, b) :: m, x => if a = x then b else Memory.read m x

/-- The store with its entry of an address, if any, taken out. -/
def Memory.remove : Cells → Nat → Cells
  | [], _ => []
  | (a, b) :: m, x => if a = x then m else (a, b) :: Memory.remove m x

/-- The store with an entry put in at its place. -/
def Memory.insert : Cells → Nat → Byte → Cells
  | [], x, v => [(x, v)]
  | (a, b) :: m, x, v => if x < a then (x, v) :: (a, b) :: m else if a = x then (a, v) :: m else (a, b) :: Memory.insert m x v

/-- The store after one byte is written. -/
def Memory.write (m : Cells) (x : Nat) (v : Byte) : Cells :=
  if v = emptyByte then Memory.remove m x else Memory.insert m x v

/-- The store after a string of bytes is written from an address on. -/
def Memory.writeBytes (m : Cells) (x : Nat) : Bytes → Cells
  | [] => m
  | b :: bs => Memory.writeBytes (Memory.write m x b) (x + 1) bs

/-- Any listing of bytes in canonical form; of two entries with one address the first counts. -/
def Memory.canon : Cells → Cells
  | [] => []
  | (a, b) :: m => Memory.write (Memory.canon m) a b

/-- n bytes from an address on. -/
def Memory.readBytes (m : Cells) (x n : Nat) : Bytes := (List.range n).map fun i => Memory.read m (x + i)

/-- The store with an address range erased. -/
def Memory.erase (m : Cells) (x n : Nat) : Cells := m.filter fun c => decide (c.1 < x ∨ x + n ≤ c.1)

/-! ## Parts of the state -/

/-- Apply f to the part `pins` of the state. -/
def State.onPins (f : Pins → Pins) (s : State) : State := { s with pins := f s.pins }
/-- Apply f to the part `boot` of the state. -/
def State.onBoot (f : Boot → Boot) (s : State) : State := { s with boot := f s.boot }
/-- Apply f to the part `trust` of the state. -/
def State.onTrust (f : Trust → Trust) (s : State) : State := { s with trust := f s.trust }
/-- Apply f to the part `power` of the state. -/
def State.onPower (f : Power → Power) (s : State) : State := { s with power := f s.power }
/-- Apply f to the part `lantern` of the state. -/
def State.onLantern (f : Lantern → Lantern) (s : State) : State := { s with lantern := f s.lantern }
/-- Apply f to the part `host` of the state. -/
def State.onHost (f : HostIf → HostIf) (s : State) : State := { s with host := f s.host }
/-- Apply f to the part `keep` of the state. -/
def State.onKeep (f : Keep → Keep) (s : State) : State := { s with keep := f s.keep }
/-- Apply f to the part `cupola` of the state. -/
def State.onCupola (f : Cupola → Cupola) (s : State) : State := { s with cupola := f s.cupola }
/-- Apply f to the part `cz` of the state. -/
def State.onCz (f : Compress → Compress) (s : State) : State := { s with cz := f s.cz }
/-- Apply f to the part `drive` of the state. -/
def State.onDrive (f : Drive → Drive) (s : State) : State := { s with drive := f s.drive }
/-- Apply f to the part `wr` of the state. -/
def State.onWr (f : WritePath → WritePath) (s : State) : State := { s with wr := f s.wr }
/-- Apply f to the part `wvn` of the state. -/
def State.onWvn (f : Wvn → Wvn) (s : State) : State := { s with wvn := f s.wvn }
/-- Apply f to the part `ecc` of the state. -/
def State.onEcc (f : Ecc → Ecc) (s : State) : State := { s with ecc := f s.ecc }
/-- Apply f to the part `tiles` of the state. -/
def State.onTiles (f : Tiles → Tiles) (s : State) : State := { s with tiles := f s.tiles }
/-- Apply f to the part `rd` of the state. -/
def State.onRd (f : ReadPath → ReadPath) (s : State) : State := { s with rd := f s.rd }
/-- Apply f to the part `stp` of the state. -/
def State.onStp (f : Steeple → Steeple) (s : State) : State := { s with stp := f s.stp }
/-- Apply f to the part `hlk` of the state. -/
def State.onHlk (f : HeadLink → HeadLink) (s : State) : State := { s with hlk := f s.hlk }
/-- Apply f to the part `blf` of the state. -/
def State.onBlf (f : Belfry → Belfry) (s : State) : State := { s with blf := f s.blf }
/-- Apply f to the part `hq` of the state. -/
def State.onHq (f : HwQueues → HwQueues) (s : State) : State := { s with hq := f s.hq }
/-- Record an output (log 9). -/
def emit (o : Out) (s : State) : State := { s with out := s.out ++ [o] }

/-- Record outputs in order (log 9). -/
def emits (os : List Out) (s : State) : State := { s with out := s.out ++ os }

/-- Apply f for each element, in order. -/
def forEach {α : Type} (l : List α) (f : α → State → State) (s : State) : State := l.foldl (fun t x => f x t) s

/-- Apply f when the condition holds. -/
def when (b : Bool) (f : State → State) (s : State) : State := if b then f s else s

/-- Use up one free value (log 6). -/
def draw (s : State) : State := { s with fresh := s.fresh + 1 }

/-! ## Time (R405, R406) -/

/-- Ticks of 10 ns in a microsecond and a millisecond (R11). -/
abbrev usTicks : Nat := 100
abbrev msTicks : Nat := 100000

/-- The time base brought to t, unless it stands past it: it never steps back (R405). -/
def advanceTo (t : Nat) (s : State) : State := s.onPower fun p => { p with time := max p.time t }

/-- One count of the time base while nothing else happens: a 10 ns tick of REFCLK, or in holdover a period of the crystal, which is
390,625 / 128 ticks, the fraction kept (R405, log 18). -/
def idleTick (s : State) : State :=
  match s.power.src with
  | .portA | .portB => advanceTo (s.power.time + 1) s
  | .holdover => s.onPower fun p =>
    { p with time := p.time + (p.frac + 390625) / 128, frac := (p.frac + 390625) % 128 }

/-- Lifetime milliseconds (R406). -/
def lifeMs (s : State) : Nat := s.power.lifeBase + (s.power.time - s.power.lifeAt) / msTicks

/-- Lifetime milliseconds as its 48-bit field shows them (Table 15-2). -/
def life48 (s : State) : Nat := lifeMs s % 2 ^ 48

/-- Domains lo to lo + n − 1 as a mask (Table 16-2). -/
def domMask (lo n : Nat) : BitVec 111 := BitVec.ofNat 111 ((2 ^ n - 1) * 2 ^ lo)

/-- Work arrives for some domains: those switched off while idle come on again, those off for a fault do not (R394, R395). -/
def needDomains (lo n : Nat) (s : State) : State :=
  s.onPower fun p => { p with domOn := p.domOn ||| (domMask lo n &&& ~~~p.domFault) }

/-- The control cores run an image or the fallback program. -/
def live (s : State) : Bool := match s.boot.phase with | .normal | .fallback => true | _ => false

/-- The part runs a firmware image (R361). -/
def normalMode (s : State) : Bool := s.boot.phase == .normal

/-! ## Ports and MSI-X (R303, R338, R340) -/

/-- A port's state. -/
def portOf (s : State) : Port → PortState
  | .a => s.host.portA
  | .b => s.host.portB

/-- Apply f to a port's state. -/
def onPort (p : Port) (f : PortState → PortState) (s : State) : State :=
  match p with
  | .a => s.onHost fun h => { h with portA := f h.portA }
  | .b => s.onHost fun h => { h with portB := f h.portB }

/-- Lanes of a port at full width (Table 11-1). -/
def fullWidth : Port → Nat
  | .a => 16
  | .b => 8

/-- A link comes up at the rate and width it trains to, and the host has its function in D0 with bus mastering and memory space enabled
(R276, R303, Table 11-1, log 21). -/
def portUp (p : Port) (q : PortState) : PortState :=
  { q with width := min (fullWidth p) (2 ^ q.trains.lanes.val), rate := 4 + q.trains.rate.val, linkUp := true, d0 := true, bme := true, mse := true }

/-- The other port. -/
def otherPort : Port → Port
  | .a => .b
  | .b => .a

/-- The number a port has in the manual's fields: 0 A, 1 B. -/
def portNo : Port → Nat
  | .a => 0
  | .b => 1

/-- The port a field names. -/
def portOfBit (b : Nat) : Port := if b = 0 then .a else .b

/-- A port is a path: link in DL_Up, function in D0, Bus Master Enable and Memory Space Enable set (R303). -/
def isPath (s : State) (p : Port) : Bool :=
  let q := portOf s p
  q.linkUp && q.d0 && q.bme && q.mse

/-- A message for this vector is masked in the port's table or by its Function Mask (R340). -/
def masked (q : PortState) (v : Nat) : Bool := q.fnMask || (getAt q.msix v 0).getLsbD 96

/-- Send a vector through a port, or set its PBA bit where it is masked or the port is no path (R302, R340, R341). -/
def msix (p : Port) (v : Nat) (s : State) : State :=
  if isPath s p && !masked (portOf s p) v then
    emit (.msix p v) (s.onBlf fun b => { b with cntMsix := inc b.cntMsix })
  else onPort p (fun q => { q with pba := setBit q.pba v true }) s

/-- Vector 256 through every path; a port with its link up that is no path keeps its PBA bit, and one with its link down keeps
nothing (R338). -/
def vector256 (s : State) : State :=
  forEach [Port.a, Port.b] (fun p t => if (portOf t p).linkUp then msix p 256 t else t) s

/-! ## Device events and Belfry requests -/

/-- Post a device event to log 0x01 and send vector 256 (R376, R382). -/
def deviceEvent (code : Nat) (data : Bytes) (s : State) : State :=
  vector256 (s.onLantern fun l => { l with events := l.events ++ [⟨life48 s, s.boot.bootCount, code, fit 6 data⟩] })

/-- Whether a core may be offered a source now (R332). -/
def eligible (b : Belfry) (c : Fin 4) (n : Nat) : Bool :=
  let src := getAt b.sources n {}
  src.pending && src.active.isNone && src.en.getLsbD c && (src.route.val == 4 || src.route.val == c.val)

/-- The running priority of a core: the top of its stack, or 16 (R332). -/
def runPri (k : Core) : Nat := match k.stack with | [] => 16 | e :: _ => e.2

/-- The better of two candidate sources: numerically lower priority, then lower number (R332). -/
def betterSource (b : Belfry) (best : Option Nat) (n : Nat) : Option Nat :=
  match best with
  | none => some n
  | some m => if (getAt b.sources n {}).prio < (getAt b.sources m {}).prio then some n else some m

/-- The source Belfry offers to a core: the best eligible one whose priority is strictly below the core's running priority, ties to
the lowest number (R332). -/
def choice (b : Belfry) (c : Fin 4) : Option Nat :=
  if b.coreOk.getLsbD c then
    let cand := (List.range 480).filter fun n =>
      eligible b c n && decide ((getAt b.sources n {}).prio.val < runPri b.cores[c])
    cand.foldl (betterSource b) none
  else none

/-- The vector address of a source (R332). -/
def vectorOf (b : Belfry) (n : Nat) : Nat := b.vecBase.toNat * 2 ^ 14 + 32 * n

/-- Make every core's offer afresh; a new offer puts its vector address out, and an offer that ends unreplaced is marked (R332,
R333). -/
def offers (s : State) : State :=
  forEach [(0 : Fin 4), 1, 2, 3] (fun c t =>
    let b := t.blf
    let old := b.cores[c].offer
    let new := choice b c
    if new = old then t
    else
      let t1 := t.onBlf fun b => { b with cores := b.cores.set c { b.cores[c] with
        offer := new, withdrawn := if new.isNone then true else false } }
      match new with
      | some n => emit (.coreOffer c (vectorOf b n)) t1
      | none => t1) s

/-- A source numbered as reserved never becomes pending (R329). -/
def reservedSource (n : Nat) : Bool := decide (475 ≤ n)

/-- A request edge of a source sets its pending bit; edges on a set bit merge (R329). -/
def raise (n : Nat) (s : State) : State :=
  if reservedSource n then s
  else offers (s.onBlf fun b => { b with sources := updAt b.sources n fun q => { q with pending := true } })

/-! ## Lantern (R381 to R384) -/

/-- The class of a Lantern code; 0 for a code that Table 15-3 does not list. -/
def lanClass (code : Nat) : Nat :=
  if code ∈ [0x0002, 0x0003, 0x0005, 0x0010, 0x0031, 0x0032, 0x0060, 0x0080, 0x0090] then 3
  else if code ∈ [0x0030, 0x0051, 0x00A0, 0x00E0] then 1
  else if code ∈ [0x0001, 0x0004, 0x0011, 0x0012, 0x0020, 0x0021, 0x0040, 0x0050, 0x0061, 0x0070, 0x0071, 0x0072, 0x0091,
    0x00C0, 0x00C1, 0x00D0] then 2
  else 0

/-- Capacity of the pinned region, of the ring, and of the part of the pinned region that a trigger may use (R382, R384). -/
abbrev pinnedMax : Nat := 16384
abbrev ringMax : Nat := 245760
abbrev triggerMax : Nat := 15360

/-- LAN_CFG.RATE in effect: 0 acts as 1 (R388). -/
def lanRate (l : Lantern) : Nat := max 1 (bits l.cfg.toNat 8 8)

/-- Records of this class are written at all (R383). -/
def classOn (l : Lantern) (cls : Nat) : Bool :=
  if cls = 0 then l.cfg.getLsbD 0 else if cls = 1 then l.cfg.getLsbD 1 else true

/-- Put a record into the ring, over its oldest when full (R382). -/
def ringPut (r : LanRec) (l : Lantern) : Lantern :=
  { l with ring := (if ringMax ≤ l.ring.length then l.ring.drop 1 else l.ring) ++ [r] }

/-- Put a pinned copy in while fewer than a limit are held; PIN_FULL shows a full region (R382, R384). -/
def pinPut (limit : Nat) (r : LanRec) (l : Lantern) : Lantern :=
  let l1 := if l.pinnedRecs.length < limit then { l with pinnedRecs := l.pinnedRecs ++ [r] } else l
  { l1 with pinFull := l1.pinFull || decide (pinnedMax ≤ l1.pinnedRecs.length) }

/-- Write one record to the ring and pin what R382 and a fired trigger's POST count pin (R381, R382, R384). -/
def lanPut (r : LanRec) (byTrigger : Bool) (l : Lantern) : Lantern :=
  let l0 := { l with rseq := (l.rseq + 1) % 2 ^ 32 }
  let r0 := { r with rseq := l0.rseq }
  let l1 := ringPut r0 l0
  let trig := byTrigger && decide (l1.pinnedRecs.length < triggerMax)
  if trig then pinPut triggerMax { r0 with pinned := true, trigger := true } l1
  else if r.cls = 3 then pinPut pinnedMax { r0 with pinned := true } l1
  else l1

/-- A record of one code and class as the block makes it, with the count it carries (Table 15-2). -/
def lanRec (s : State) (code cls sup : Nat) (data : Bytes) : LanRec :=
  { time := life48 s, boot := s.boot.bootCount, code := code, cls := cls, pinned := false, trigger := false,
    suppressedBefore := decide (0 < sup), suppressed := min sup 65535, rseq := 0, data := fit 36 data,
    torn := false }

/-- The device event that a record of class 2 or 3 posts (R382). -/
def lanEvent (code cls : Nat) (data : Bytes) (s : State) : State := if 2 ≤ cls then deviceEvent code data s else s

/-- Fire the trigger: record 0x0091 is written and pinned, the next POST records are to be pinned, source 109 is raised, and ARM
gives way to FIRED (R384). -/
def lanFire (code : Nat) (s : State) : State :=
  let d := le 2 code
  let s1 := s.onLantern fun l => { lanPut (lanRec s 0x0091 2 0 d) true l with armed := false, fired := true, postLeft := l.trigPost }
  raise 109 (lanEvent 0x0091 2 d s1)

/-- Write a record that is not suppressed (R381, R382, R384). -/
def lanWrite (code cls sup : Nat) (data : Bytes) (s : State) : State :=
  let hit := s.lantern.armed && decide (s.lantern.trigCode = code)
  let post := decide (0 < s.lantern.postLeft)
  let s1 := s.onLantern fun l =>
    { lanPut (lanRec s code cls sup data) (hit || post) l with postLeft := l.postLeft - 1 }
  let s2 := lanEvent code cls data s1
  if hit then lanFire code s2 else s2

/-- Make a Lantern record: classes 2 and 3 always; classes 0 and 1 when enabled, and at most RATE of one code in each second of the
lifetime count, the rest suppressed and counted (R383). -/
def lantern (code : Nat) (data : Bytes) (s : State) : State :=
  let cls := lanClass code
  if 2 ≤ cls then lanWrite code cls 0 data s
  else if !classOn s.lantern cls then s
  else
    let sec := lifeMs s / 1000
    let s0 := s.onLantern fun l => if l.second = sec then l else { l with second := sec, rate := [] }
    let n := assoc s0.lantern.rate code 0
    if n < lanRate s0.lantern then
      let sup := assoc s0.lantern.suppressed code 0
      lanWrite code cls sup data (s0.onLantern fun l =>
        { l with rate := assocSet l.rate code (n + 1), suppressed := assocSet l.suppressed code 0 })
    else s0.onLantern fun l =>
      { l with suppressed := assocSet l.suppressed code (assoc l.suppressed code 0 + 1), cntSuppr := inc l.cntSuppr }

/-! ## Outcomes -/

/-- The answer of a command whose effect is f. -/
def go (f : State → State) (s : State) : Host.Outcome State Fault Refusal := .next (f s)

/-- The answer of a command that the part takes only while an image or the fallback program runs. -/
def goLive (f : State → State) (s : State) : Host.Outcome State Fault Refusal := .next (if live s then f s else s)

end Sys2Proof.Machine
end

