-- ==== Sys2Proof/Machine/Cipher.lean ====
section
/-! DEFINITION. The modes of operation that Cupola and the Keep use, over the AES and SHA-512 constants of Config: GCM (R46, R249),
CTR, CBC, CFB-128, CMAC and key wrap with padding (R266), and HKDF (R244, R251, R362). -/

namespace Sys2Proof.Machine

/-- The bytewise sum of two strings, as long as the shorter. -/
def xorBytes (a b : Bytes) : Bytes := List.zipWith (· ^^^ ·) a b

/-- The 16-byte pieces of a string, the last one possibly short. -/
def blocks16 (bs : Bytes) : List Bytes := (List.range ((bs.length + 15) / 16)).map fun i => (bs.drop (16 * i)).take 16

/-! ## GCM (SP 800-38D, R249) -/

/-- Halving in the GCM field: a right shift, reduced by 0xE1 when a bit falls out. -/
def ghashHalve (v : Nat) : Nat := if v % 2 = 1 then v / 2 ^^^ (0xE1 * 2 ^ 120) else v / 2

/-- The product of two blocks in the GCM field. -/
def ghashMulGo (x : Nat) : Nat → Nat → Nat → Nat
  | 0, _, z => z
  | k + 1, v, z => ghashMulGo x k (ghashHalve v) (if x.testBit k then z ^^^ v else z)

/-- The product of two blocks in the GCM field. -/
def ghashMul (x y : Nat) : Nat := ghashMulGo x 128 y 0

/-- GHASH over whole or short blocks, from a running value. -/
def ghash (h : Nat) (acc : Nat) (bs : Bytes) : Nat :=
  (blocks16 bs).foldl (fun a b => ghashMul (a ^^^ unbe (fit 16 b)) h) acc

/-- J0 for a 96-bit IV (R249). -/
def gcmJ0 (iv : Bytes) : Bytes := fit 12 iv ++ [0, 0, 0, 1]

/-- inc32 applied i times (R249). -/
def inc32 (block : Bytes) (i : Nat) : Bytes := block.take 12 ++ be 4 ((unbe (block.drop 12) + i) % 2 ^ 32)

/-- The GCM stream over a text whose first block has number first, counted from 1 (R249). -/
def gcmStream (key iv : Bytes) (first : Nat) (text : Bytes) : Bytes :=
  ((blocks16 text).mapIdx fun i b => xorBytes b (Config.aesEncrypt key (inc32 (gcmJ0 iv) (first + i)))).flatten

/-- The hash subkey H = E(K, 0). -/
def gcmH (key : Bytes) : Nat := unbe (Config.aesEncrypt key (zeros 16))

/-- The tag for associated-data and text lengths in bits and the GHASH of both (R249). -/
def gcmTag (key iv : Bytes) (acc aadBits textBits : Nat) : Bytes :=
  let s := ghashMul (acc ^^^ (aadBits % 2 ^ 64 * 2 ^ 64 + textBits % 2 ^ 64)) (gcmH key)
  xorBytes (be 16 s) (Config.aesEncrypt key (gcmJ0 iv))

/-- One GCM encryption: ciphertext and 16-byte tag (R46). -/
def gcmEncrypt (key iv aad text : Bytes) : Bytes × Bytes :=
  let c := gcmStream key iv 1 text
  let h := gcmH key
  (c, gcmTag key iv (ghash h (ghash h 0 aad) c) (8 * aad.length) (8 * c.length))

/-- One GCM decryption: the plaintext when the tag agrees (R46). -/
def gcmDecrypt (key iv aad cipher tag : Bytes) : Option Bytes :=
  let h := gcmH key
  if gcmTag key iv (ghash h (ghash h 0 aad) cipher) (8 * aad.length) (8 * cipher.length) = tag then
    some (gcmStream key iv 1 cipher)
  else none

/-! ## CTR, CBC and CFB-128 (R266) -/

/-- CTR from a counter block, a 128-bit big-endian integer (R266). -/
def ctrCrypt (key ctr text : Bytes) : Bytes :=
  ((blocks16 text).mapIdx fun i b => xorBytes b (Config.aesEncrypt key (be 16 ((unbe ctr + i) % 2 ^ 128)))).flatten

/-- The counter block after n whole blocks. -/
def ctrAfter (ctr : Bytes) (n : Nat) : Bytes := be 16 ((unbe ctr + n) % 2 ^ 128)

/-- CBC encryption of whole blocks (R266). -/
def cbcEncrypt (key : Bytes) : Bytes → List Bytes → Bytes
  | _, [] => []
  | chain, b :: bs => let c := Config.aesEncrypt key (xorBytes b chain); c ++ cbcEncrypt key c bs

/-- CBC decryption of whole blocks (R266). -/
def cbcDecrypt (key : Bytes) : Bytes → List Bytes → Bytes
  | _, [] => []
  | chain, c :: cs => xorBytes (Config.aesDecrypt key c) chain ++ cbcDecrypt key c cs

/-- CFB-128 encryption, the last block possibly short (R266). -/
def cfbEncrypt (key : Bytes) : Bytes → List Bytes → Bytes
  | _, [] => []
  | chain, b :: bs => let c := xorBytes b (Config.aesEncrypt key chain); c ++ cfbEncrypt key c bs

/-- CFB-128 decryption (R266). -/
def cfbDecrypt (key : Bytes) : Bytes → List Bytes → Bytes
  | _, [] => []
  | chain, c :: cs => xorBytes c (Config.aesEncrypt key chain) ++ cfbDecrypt key c cs

/-! ## CMAC (SP 800-38B, R247, R266) -/

/-- Doubling in the CMAC field. -/
def cmacDouble (x : Nat) : Nat :=
  let d := x * 2 % 2 ^ 128
  if x.testBit 127 then d ^^^ 0x87 else d

/-- The subkey for a last block that is whole, and the one for a padded last block. -/
def cmacSubkeys (key : Bytes) : Nat × Nat :=
  let k1 := cmacDouble (unbe (Config.aesEncrypt key (zeros 16)))
  (k1, cmacDouble k1)

/-- The running state over whole blocks. -/
def cmacBlocks (key : Bytes) (state : Bytes) (bs : List Bytes) : Bytes :=
  bs.foldl (fun s b => Config.aesEncrypt key (xorBytes s b)) state

/-- The tag from the running state before the last piece of the message. -/
def cmacFinish (key state lastPiece : Bytes) : Bytes :=
  let ks := cmacSubkeys key
  if lastPiece.length = 16 then Config.aesEncrypt key (xorBytes state (xorBytes lastPiece (be 16 ks.1)))
  else Config.aesEncrypt key (xorBytes state (xorBytes (fit 16 (lastPiece ++ [0x80])) (be 16 ks.2)))

/-- The CMAC of a message, from a running state. -/
def cmacFrom (key state msg : Bytes) : Bytes :=
  let bs := blocks16 msg
  cmacFinish key (cmacBlocks key state bs.dropLast) (bs.getLastD [])

/-- The CMAC of a message. -/
def cmac (key msg : Bytes) : Bytes := cmacFrom key (zeros 16) msg

/-! ## Key wrap with padding (RFC 5649, R243, R266) -/

/-- One wrapping step of RFC 3394 on the integrity block and semiblock i of n in round j. -/
def kwStep (key : Bytes) (n : Nat) (st : Bytes × List Bytes) (k : Nat) : Bytes × List Bytes :=
  let i := k % n
  let b := Config.aesEncrypt key (st.1 ++ st.2.getD i [])
  (xorBytes (b.take 8) (be 8 (k + 1)), st.2.set i (b.drop 8))

/-- One unwrapping step of RFC 3394. -/
def kwUnstep (key : Bytes) (n : Nat) (st : Bytes × List Bytes) (k : Nat) : Bytes × List Bytes :=
  let i := k % n
  let b := Config.aesDecrypt key (xorBytes st.1 (be 8 (k + 1)) ++ st.2.getD i [])
  (b.take 8, st.2.set i (b.drop 8))

/-- The 8-byte pieces of a string. -/
def semiblocks (bs : Bytes) : List Bytes := (List.range (bs.length / 8)).map fun i => (bs.drop (8 * i)).take 8

/-- The integrity block of a plaintext of the given length (RFC 5649). -/
def kwpIv (len : Nat) : Bytes := [0xA6, 0x59, 0x59, 0xA6] ++ be 4 len

/-- Wrap 1 to 4,096 bytes (RFC 5649). -/
def kwpWrap (key plain : Bytes) : Bytes :=
  let p := fit (8 * ((plain.length + 7) / 8)) plain
  let n := p.length / 8
  if n = 1 then Config.aesEncrypt key (kwpIv plain.length ++ p)
  else
    let r := (List.range (6 * n)).foldl (kwStep key n) (kwpIv plain.length, semiblocks p)
    r.1 ++ r.2.flatten

/-- Unwrap; none on an integrity failure (RFC 5649). -/
def kwpUnwrap (key blob : Bytes) : Option Bytes :=
  if blob.length % 8 ≠ 0 ∨ blob.length < 16 then none
  else
    let n := blob.length / 8 - 1
    let r := if n = 1 then
        let b := Config.aesDecrypt key blob
        (b.take 8, [b.drop 8])
      else (List.range (6 * n)).reverse.foldl (kwUnstep key n) (blob.take 8, semiblocks (blob.drop 8))
    let p := r.2.flatten
    let len := unbe (r.1.drop 4)
    if r.1.take 4 = [0xA6, 0x59, 0x59, 0xA6] ∧ len ≤ 8 * n ∧ 8 * (n - 1) < len ∧ allZero (p.drop len) then some (p.take len)
    else none

/-! ## HKDF-SHA-512 (RFC 5869) -/

/-- HMAC-SHA-512. -/
def hmac (key msg : Bytes) : Bytes :=
  let k := fit 128 (if 128 < key.length then Config.sha512 key else key)
  Config.sha512 (xorBytes k (List.replicate 128 0x5C) ++ Config.sha512 (xorBytes k (List.replicate 128 0x36) ++ msg))

/-- HKDF for an output of at most 64 bytes: extract, then one expansion block. -/
def hkdf (salt ikm info : Bytes) (len : Nat) : Bytes := (hmac (hmac salt ikm) (info ++ [1])).take len

/-- The first 32 bytes of SHA-512 over a string (R62, R244, R354). -/
def sha32 (bs : Bytes) : Bytes := (Config.sha512 bs).take 32

/-- The media-bound key (R251). -/
def mediaKey (slotKey tapeId serial : Bytes) : Bytes := hkdf (tapeId ++ serial) slotKey (ascii "EM1-data") 32

/-- The transport key-encryption key (R244). -/
def transportKek (xPriv xPub kPriv kPub hostPub ct : Bytes) : Bytes :=
  hkdf (Config.sha512 (xPub ++ kPub)) (Config.mlkemDecaps kPriv ct ++ Config.x25519 xPriv hostPub)
    (ascii "LX1024-KT1" ++ hostPub ++ sha32 ct) 32

end Sys2Proof.Machine
end

