-- ==== Sys2Proof/Machine/Codes.lean ====
section
/-! DEFINITION. CRCs, the scrambler, the 24/25 code and the frame header (R36 to R43), and the row, column and dome codes with their
decoders (R67 to R87). -/

namespace Sys2Proof.Machine

/-! ## CRC (R42) -/

/-- The bits of a number, most significant first. -/
def bitsMsb (w x : Nat) : List Bool := (List.range w).map fun i => x.testBit (w - 1 - i)

/-- The number whose bits are given, most significant first. -/
def ofBitsMsb (bs : List Bool) : Nat := bs.foldl (fun x b => 2 * x + b.toNat) 0

/-- The bits of bytes, each most significant first. -/
def byteBits (bs : Bytes) : List Bool := bs.flatMap fun b => bitsMsb 8 b.toNat

/-- The bytes whose bits are given, eight at a time; a short rest is dropped. -/
def bitBytes : List Bool → Bytes
  | a :: b :: c :: d :: e :: f :: g :: h :: rest => BitVec.ofNat 8 (ofBitsMsb [a, b, c, d, e, f, g, h]) :: bitBytes rest
  | _ => []

/-- One step of the bit-serial CRC (R42). -/
def crcStep (w poly reg : Nat) (b : Bool) : Nat :=
  let fb := reg.testBit (w - 1) != b
  let r := reg * 2 % 2 ^ w
  if fb then r ^^^ poly else r

/-- The CRC procedure of R42. -/
def crc (w poly init : Nat) (inverted : Bool) (bs : List Bool) : Nat :=
  let r := bs.foldl (crcStep w poly) init
  if inverted then r ^^^ (2 ^ w - 1) else r

/-- CRC-6 of a servo word (R30). -/
def crc6 (bs : List Bool) : Nat := crc 6 0x03 0 false bs

/-- CRC-8 of the motion link and of the cartridge-memory link (R63, R169). -/
def crc8 (bs : List Bool) : Nat := crc 8 0x07 0xFF false bs

/-- CRC-12 of a frame header (Table 02-8). -/
def crc12 (bs : List Bool) : Nat := crc 12 0x80F 0xFFF false bs

/-- CRC-24 of a head-link packet (R207). -/
def crc24 (bs : List Bool) : Nat := crc 24 0x864CFB 0xFFFFFF false bs

/-- CRC-32 with the parameters of Table 02-5. -/
def crc32 (bs : List Bool) : Nat := crc 32 0x04C11DB7 0xFFFFFFFF true bs

/-- CRC-32 over bytes. -/
def crc32Bytes (bs : Bytes) : Nat := crc32 (byteBits bs)

/-- CRC-64 of CIPHER 0x00 (Table 02-11). -/
def crc64Bytes (bs : Bytes) : Nat := crc 64 0x42F0E1EBA9EA3693 0 false (byteBits bs)

/-! ## Frames (R36 to R43) -/

/-- The scrambler's output bits for channel c (R39). -/
def scramble (s : Nat) : Nat → List Bool
  | 0 => []
  | n + 1 =>
    let o := s.testBit 22
    let f := o != s.testBit 17
    o :: scramble (s * 2 % 2 ^ 23 + f.toNat) n

/-- The scrambler's seed for channel c (R39). -/
def scrambleSeed (c : Nat) : Nat := c * 2 ^ 13 ||| 0x1ABD

/-- The scrambling sequence of one frame (R39). -/
def scrambleSeq (c : Nat) : List Bool := scramble (scrambleSeed c) 8496

/-- Content bits scrambled, or scrambled bits brought back (R39). -/
def scrambled (c : Nat) (content : List Bool) : List Bool := List.zipWith (· != ·) content (scrambleSeq c)

/-- The 24/25 code: after each group of 24 bits, the complement of its last (R40). -/
def insert25Go : List Bool → List Bool → List Bool
  | [], group => group
  | b :: bs, group =>
    if group.length = 23 then group ++ [b, !b] ++ insert25Go bs [] else insert25Go bs (group ++ [b])

/-- The modulated bits of scrambled bits (R40). -/
def insert25 (bs : List Bool) : List Bool := insert25Go bs []

/-- The row that channel c carries in data set n (R68). -/
def rowOf (n c : Nat) : Nat := (c + 1024 - 61 * n % 1024) % 1024

/-- TYPE of a frame of data set n on channel c (Table 02-9). -/
def frameType (n c : Nat) (rewritten : Bool) : Nat :=
  if rewritten then 3
  else if 960 ≤ rowOf n c then 1
  else if 496 ≤ n % 512 then 2
  else 0

/-- The channel that carries row ρ in data set n (R68). -/
def chanOf (n row : Nat) : Nat := (row + 61 * n) % 1024

/-- The 48 header bits, bit 47 first (Table 02-8). -/
def headerBits (n c type : Nat) : List Bool :=
  let h := bitsMsb 24 (n % 2 ^ 24) ++ bitsMsb 10 c ++ bitsMsb 2 type
  h ++ bitsMsb 12 (crc12 h)

/-- The fixed patterns of Table 02-7. -/
def preambleBits : List Bool := bitsMsb 96 0xCCCCCCCCCCCCCCCCCCCCCCCC
def syncBits : List Bool := bitsMsb 32 0xE1A8F0B2
def resyncBits : List Bool := bitsMsb 24 0x3D1E89
def postambleBits : List Bool := bitsMsb 22 0x333333
def wedgeBits : List Bool := bitsMsb 80 (0xCCCC * 2 ^ 64 + 0x0F3C5A9E17B3 * 2 ^ 16 + 0xCCCC)

/-- The 9,024 bits of a frame whose codeword bits are given (R36, R39, R40). -/
def frameBits (n c : Nat) (rewritten : Bool) (codeword : List Bool) : List Bool :=
  let m := insert25 (scrambled c (headerBits n c (frameType n c rewritten) ++ codeword))
  preambleBits ++ syncBits ++ m.take 4425 ++ resyncBits ++ m.drop 4425 ++ postambleBits

/-- Slots on a wrap, data bits of a word, and data bits of a slot (R34). -/
abbrev slotsPerWrap : Nat := 7181571
abbrev wordBits : Nat := 188528
abbrev slotBits : Nat := 9024

/-- The LPOS in which slot s starts and the data bits after the last wedge passed (R35). -/
def slotStart (wrap s : Nat) : Nat × Nat :=
  let d := slotBits * s
  let k := d / wordBits
  (if wrap % 2 = 0 then 3125 + k else 346875 - k, d % wordBits)

/-- How many bits of slot s come before the wedge that splits it, if one does (R35). -/
def slotSplit (s : Nat) : Option Nat :=
  let r := slotBits * s % wordBits
  if wordBits < r + slotBits then some (wordBits - r) else none

/-- The channel bits of a slot, its splitting wedge included (R35). -/
def slotBitsOnTape (s : Nat) (frame : List Bool) : List Bool :=
  match slotSplit s with
  | some k => frame.take k ++ wedgeBits ++ frame.drop k
  | none => frame

/-! ## Row code (R70 to R73) -/

/-- The shift of block row r and block column j, when the block is not zero (R70, R71). -/
def ldpcShift (r j : Nat) : Option Nat :=
  if j < 80 then
    if r = j % 8 ∨ r = (j + 1) % 8 ∨ r = (j + 3) % 8 ∨ r = (j + 6) % 8 then some ((17 * r * j + 5 * j + 11 * r) % 96) else none
  else if j = 80 then (if r = 0 then some 1 else if r = 4 then some 0 else if r = 7 then some 1 else none)
  else if j < 88 then (if r = j - 81 ∨ r = j - 80 then some 0 else none)
  else none

/-- The nonzero blocks of block row r: column and shift (R70, R71). -/
def ldpcRow (r : Nat) : List (Nat × Nat) := (List.range 88).filterMap fun j => (ldpcShift r j).map fun s => (j, s)

/-- The codeword bits of check a of block row r (R70). -/
def ldpcCheck (r a : Nat) : List Nat := (ldpcRow r).map fun e => 96 * e.1 + (a + e.2) % 96

/-- λ_r[a]: the information bits of one check added up (R72). -/
def ldpcLambda (info : Array Bool) (r a : Nat) : Bool :=
  ((ldpcRow r).filter fun e => e.1 < 80).foldl (fun x e => x != info.getD (96 * e.1 + (a + e.2) % 96) false) false

/-- The bitwise sum of two vectors. -/
def xorBits (a b : List Bool) : List Bool := List.zipWith (· != ·) a b

/-- The 768 parity bits of a row (R72). -/
def ldpcParity (bits : List Bool) : List Bool :=
  let info := bits.toArray
  let lam := (List.range 8).map fun r => (List.range 96).map fun a => ldpcLambda info r a
  let l := fun r => lam.getD r []
  let p0 := lam.foldl xorBits (List.replicate 96 false)
  let p0r := p0.drop 1 ++ p0.take 1
  let p1 := xorBits (l 0) p0r
  let p2 := xorBits (l 1) p1
  let p3 := xorBits (l 2) p2
  let p4 := xorBits (l 3) p3
  let p5 := xorBits (xorBits (l 4) p4) p0
  let p6 := xorBits (l 5) p5
  let p7 := xorBits (l 6) p6
  p0 ++ p1 ++ p2 ++ p3 ++ p4 ++ p5 ++ p6 ++ p7

/-- The 8,448 codeword bits of a row (R69, R72). -/
def ldpcEncode (bits : List Bool) : List Bool := bits ++ ldpcParity bits

/-- Every one of the 768 checks holds (R73). -/
def ldpcOk (cw : Array Bool) : Bool :=
  (List.range 8).all fun r => (List.range 96).all fun a => !((ldpcCheck r a).foldl (fun x i => x != cw.getD i false) false)

/-- The hard decision of an LLR: 0 when it is positive or zero (R146, R147). -/
def hard (l : Int) : Bool := decide (l < 0)

/-- A value kept within an 8-bit saturating message (R73). -/
def sat8 (x : Int) : Int := max (-127) (min 127 x)

/-- The outgoing messages of one check from its incoming ones: normalised min-sum with scale norm / 16 (R73, log 7). -/
def minSum (norm : Int) (ts : List Int) : List Int :=
  let sgn := ts.foldl (fun b t => b != decide (t < 0)) false
  ts.mapIdx fun i t =>
    let mins := (ts.mapIdx fun k u => if k = i then (127 : Int) else |u|).foldl min 127
    let m := sat8 (Config.roundSixteenths (norm * mins))
    if sgn != decide (t < 0) then -m else m

/-- One check of a layer: posteriors and this check's stored messages after it (R73). -/
def ldpcVisit (norm : Int) (bitsOf : List Nat) (post : Array Int) (msgs : List Int) : Array Int × List Int :=
  let ts := List.zipWith (fun i m => sat8 (post.getD i 0 - m)) bitsOf msgs
  let new := minSum norm ts
  ((bitsOf.zip (List.zipWith (· + ·) ts new)).foldl (fun p e => p.setIfInBounds e.1 e.2) post, new)

/-- One iteration: block rows 0 to 7 in order, the 96 checks of each (R73). -/
def ldpcIter (norm : Int) (post : Array Int) (msgs : List (List Int)) : Array Int × List (List Int) :=
  let checks := (List.range 768).map fun k => ldpcCheck (k / 96) (k % 96)
  let r := (checks.zip msgs).foldl (fun (acc : Array Int × List (List Int)) e =>
    let v := ldpcVisit norm e.1 acc.1 e.2
    (v.1, v.2 :: acc.2)) (post, [])
  (r.1, r.2.reverse)

/-- Iterate until every check holds or the limit is reached: the hard decisions and the iterations used when converged, the hard
decisions alone when not (R73). -/
def ldpcRun (norm : Int) (post : Array Int) (msgs : List (List Int)) (used : Nat) : Nat → (Array Bool × Option Nat)
  | 0 => (post.map hard, none)
  | k + 1 =>
    let r := ldpcIter norm post msgs
    let h := r.1.map hard
    if ldpcOk h then (h, some (used + 1)) else ldpcRun norm r.1 r.2 (used + 1) k

/-- Decode a row from its channel LLRs (R73). -/
def ldpcDecode (norm limit : Nat) (llrs : List Int) : Array Bool × Option Nat :=
  ldpcRun norm llrs.toArray ((List.range 768).map fun k => (ldpcCheck (k / 96) (k % 96)).map fun _ => 0) 0 limit

/-! ## Column code (R74 to R76, R83) -/

/-- Multiplication in a binary field of degree w with the polynomial's low part and leading bit given. -/
def gfMulGo (w poly a : Nat) : Nat → Nat → Nat
  | 0, _ => 0
  | k + 1, b =>
    let rest := gfMulGo w poly (let d := a * 2; if d.testBit w then d ^^^ poly else d) k (b / 2)
    if b % 2 = 1 then a ^^^ rest else rest

/-- GF(2^10) with x^10 + x^3 + 1 (R74). -/
def mul10 (a b : Nat) : Nat := gfMulGo 10 0x409 a 10 b

/-- A power in GF(2^10). -/
def pow10 (a : Nat) : Nat → Nat
  | 0 => 1
  | n + 1 => mul10 (pow10 a n) a

/-- The powers of α, from α^0 to α^1022 (R74). -/
def alphaTable : Array Nat := ((List.range 1022).foldl (fun (l : Array Nat × Nat) _ =>
  let x := mul10 l.2 2; (l.1.push x, x)) (#[1], 1)).1

/-- α^k. -/
def alpha10 (k : Nat) : Nat := alphaTable.getD (k % 1023) 1

/-- The inverse of a nonzero element: its 1,022nd power. -/
def inv10 (a : Nat) : Nat :=
  let sq := fun x => mul10 x x
  let p := (List.range 9).foldl (fun (acc : Nat × Nat) _ => let s := sq acc.2; (mul10 acc.1 s, s)) (1, a)
  p.1

/-- A polynomial's value, coefficients of lowest degree first. -/
def polyEval (p : List Nat) (x : Nat) : Nat := p.foldr (fun c acc => c ^^^ mul10 acc x) 0

/-- The product of two polynomials, lowest degree first. -/
def polyMul (p q : List Nat) : List Nat :=
  p.foldr (fun c acc =>
    let s := q.map (mul10 c)
    let t := 0 :: acc
    (List.range (max s.length t.length)).map fun i => s.getD i 0 ^^^ t.getD i 0) []

/-- g(x), the generator of degree 63, lowest degree first (R76). -/
def rsGen : List Nat := (List.range 63).foldl (fun g l => polyMul g [alpha10 l, 1]) [1]

/-- The remainder of x^63 · d(x) by g(x), highest degree first, for data symbols in row order (R76). -/
def rsRemainder (data : List Nat) : List Nat :=
  let g := (rsGen.reverse).drop 1
  data.foldl (fun reg c =>
    let f := c ^^^ reg.headD 0
    (List.range 63).map fun i => (reg.getD (i + 1) 0) ^^^ mul10 f (g.getD i 0)) (List.replicate 63 0)

/-- The 1,024 symbols of a column whose 960 data symbols are given (R76). -/
def rsEncode (data : List Nat) : List Nat :=
  let c := data ++ rsRemainder data
  let ext := c.foldl (fun acc s => mul10 acc (alpha10 63) ^^^ s) 0
  c ++ [ext]

/-- The check S_l of a column's 1,024 symbols (R75). -/
def rsCheck (c : List Nat) (l : Nat) : Nat :=
  let body := (c.take 1023).foldl (fun acc s => mul10 acc (alpha10 l) ^^^ s) 0
  if l = 63 then body ^^^ c.getD 1023 0 else body

/-- All 64 checks are zero. -/
def rsOk (c : List Nat) : Bool := (List.range 64).all fun l => rsCheck c l = 0

/-- One step of Berlekamp–Massey on modified syndromes: the error locator, its helper, the degree and the gap. -/
def bmStep (syn : Array Nat) (st : List Nat × List Nat × Nat × Nat × Nat) (n : Nat) : List Nat × List Nat × Nat × Nat × Nat :=
  match st with
  | (c, b, deg, m, bd) =>
    let d := (List.range (deg + 1)).foldl (fun acc i => acc ^^^ mul10 (c.getD i 0) (syn.getD (n - i) 0)) 0
    if d = 0 then (c, b, deg, m + 1, bd)
    else
      let k := mul10 d (inv10 bd)
      let shifted := List.replicate m 0 ++ b.map (mul10 k)
      let c' := (List.range (max c.length shifted.length)).map fun i => c.getD i 0 ^^^ shifted.getD i 0
      if 2 * deg ≤ n then (c', c, n + 1 - deg, 1, d) else (c', b, deg, m + 1, bd)

/-- The error positions and the values at them and at the erasures, from a column's first s checks: row and value to add. -/
def rsSolve (checks : List Nat) (erased : List Nat) : Option (List (Nat × Nat)) :=
  let loc := fun row => alpha10 (1022 - row)
  let gamma := erased.foldl (fun g row => polyMul g [1, loc row]) [1]
  let s := checks.length
  let e := erased.length
  let modified := ((polyMul checks gamma).take s).drop e
  let bm := (List.range (s - e)).foldl (bmStep modified.toArray) ([1], [1], 0, 1, 1)
  let lambda := bm.1.take (bm.2.2.1 + 1)
  let errs := (List.range 1023).filter fun row => !erased.contains row && polyEval lambda (alpha10 (1023 - (1022 - row))) = 0
  if errs.length ≠ bm.2.2.1 then none
  else
    let psi := polyMul lambda gamma
    let omega := (polyMul checks psi).take s
    let deriv := psi.mapIdx (fun i c => if i % 2 = 1 then c else 0) |>.drop 1
    some ((errs ++ erased).map fun row =>
      let x := loc row
      let xi := alpha10 (1023 - (1022 - row))
      (row, mul10 (mul10 x (polyEval omega xi)) (inv10 (polyEval deriv xi))))

/-- A column with corrections added. -/
def rsApply (c : List Nat) (fix : List (Nat × Nat)) : List Nat :=
  let a := fix.foldl (fun (a : Array Nat) e => a.setIfInBounds e.1 (a.getD e.1 0 ^^^ e.2)) c.toArray
  a.toList

/-- Decode one column with erased rows under 2t + e ≤ limit, with t forced to 0 unless errors are enabled: the corrected symbols
(R75, R83). The extension symbol is tried as right and, else, as the value its check asks for. -/
def rsDecode (limit : Nat) (errorsEn : Bool) (erased : List Nat) (c : List Nat) : Option (List Nat) :=
  let e := erased.length
  let clean := (c.mapIdx fun i s => if erased.contains i then 0 else s)
  let body := erased.filter (· < 1023)
  let extErased := erased.contains 1023
  let fits := fun (r : List Nat) =>
    let t := ((List.range 1024).filter fun i => !erased.contains i && r.getD i 0 ≠ clean.getD i 0).length
    rsOk r && decide (2 * t + e ≤ limit) && (errorsEn || t == 0)
  let viaExt := fun (fix : List (Nat × Nat)) =>
    let r := rsApply clean fix
    r.set 1023 (r.getD 1023 0 ^^^ rsCheck r 63)
  let short := (rsSolve ((List.range 63).map (rsCheck clean)) body).map viaExt
  let full := if extErased then none else (rsSolve ((List.range 64).map (rsCheck clean)) body).map (rsApply clean)
  match full with
  | some r => if fits r then some r else (match short with | some q => if fits q then some q else none | none => none)
  | none => match short with | some q => if fits q then some q else none | none => none

/-! ## Dome code (R77 to R79, R85) -/

/-- GF(2^8) with x^8 + x^4 + x^3 + x^2 + 1 (R78). -/
def mul8 (a b : Nat) : Nat := gfMulGo 8 0x11D a 8 b

/-- α^k in GF(2^8). -/
def alpha8 : Nat → Nat
  | 0 => 1
  | k + 1 => mul8 (alpha8 k) 2

/-- The inverse of a nonzero element of GF(2^8): its 254th power. -/
def inv8 (a : Nat) : Nat :=
  let p := (List.range 7).foldl (fun (acc : Nat × Nat) _ => let s := mul8 acc.2 acc.2; (mul8 acc.1 s, s)) (1, a)
  p.1

/-- The sum of bytes. -/
def domeS0 (bs : List Nat) : Nat := bs.foldl (· ^^^ ·) 0

/-- The sum of bytes weighted by their positions' locators (R79). -/
def domeS1 (ps : List (Nat × Nat)) : Nat := ps.foldl (fun acc e => acc ^^^ mul8 e.2 (alpha8 (63 - e.1))) 0

/-- The two parity bytes of the 62 data bytes of a dome at one payload byte (R79). -/
def domeParity (bs : List Nat) : Nat × Nat :=
  let s0 := domeS0 bs
  let s1 := domeS1 ((List.range 62).zip bs)
  let b62 := mul8 (s0 ^^^ s1) 0xF4
  (b62, s0 ^^^ b62)

/-- The bytes of one or two erased positions from the surviving ones (R85). -/
def domeErased (q1 : Nat) (q2 : Option Nat) (surv : List (Nat × Nat)) : List Nat :=
  let s0 := domeS0 (surv.map (·.2))
  match q2 with
  | none => [s0]
  | some q =>
    let x1 := alpha8 (63 - q1)
    let x2 := alpha8 (63 - q)
    let b1 := mul8 (domeS1 surv ^^^ mul8 s0 x2) (inv8 (x1 ^^^ x2))
    [b1, s0 ^^^ b1]

/-- Byte b of each payload of a list. -/
def column (b : Nat) (ps : List (Nat × Bytes)) : List (Nat × Nat) := ps.map fun e => (e.1, (e.2.getD b 0).toNat)

/-- Payload bytes of a data set (R44). -/
abbrev payloadBytes : Nat := 921600

/-- The two parity payloads of a dome's 62 data payloads, an absent one all zeros (R78, R79). -/
def domeParitySets (payloads : List Bytes) : Bytes × Bytes :=
  let cols := (List.range payloadBytes).map fun b => domeParity (payloads.map fun p => (p.getD b 0).toNat)
  (cols.map fun c => BitVec.ofNat 8 c.1, cols.map fun c => BitVec.ofNat 8 c.2)

/-- The payloads of one or two erased positions of a dome (R85). -/
def domeRebuild (q1 : Nat) (q2 : Option Nat) (surv : List (Nat × Bytes)) : List Bytes :=
  let cols := (List.range payloadBytes).map fun b => domeErased q1 q2 (column b surv)
  match q2 with
  | none => [cols.map fun c => BitVec.ofNat 8 (c.getD 0 0)]
  | some _ => [cols.map fun c => BitVec.ofNat 8 (c.getD 0 0), cols.map fun c => BitVec.ofNat 8 (c.getD 1 0)]

/-! ## The data-set array (R67, R76) -/

/-- The 10-bit column symbols of a row's information bits (R67). -/
def rowSymbols (info : List Bool) : List Nat :=
  let a := info.toArray
  (List.range 768).map fun m => ofBitsMsb ((List.range 10).map fun k => a.getD (10 * m + k) false)

/-- The information bits of a row's 768 symbols (R67). -/
def symbolBits (syms : List Nat) : List Bool := syms.flatMap (bitsMsb 10)

/-- The 1,024 rows of information bits of a payload: 960 data rows, 64 column-parity rows (R67, R76). -/
def payloadRows (payload : Bytes) : List (List Bool) :=
  let data := (List.range 960).map fun r => byteBits (slice payload (960 * r) 960)
  let syms := (data.map fun row => (rowSymbols row).toArray).toArray
  let cols := ((List.range 768).map fun m =>
    (rsEncode ((List.range 960).map fun r => (syms.getD r #[]).getD m 0)).toArray).toArray
  data ++ (List.range 64).map fun k => symbolBits ((List.range 768).map fun m => (cols.getD m #[]).getD (960 + k) 0)

/-- The payload that 1,024 rows of information bits carry (R67). -/
def rowsPayload (rows : List (List Bool)) : Bytes := (rows.take 960).flatMap bitBytes

/-- The bits of the frame of data set n on channel c (R43, R67 to R72). -/
def dataSetFrame (n c : Nat) (rewritten : Bool) (rows : List (List Bool)) : List Bool :=
  frameBits n c rewritten (ldpcEncode (rows.getD (rowOf n c) []))

/-! ## Decode levels 1 to 3 (R73, R80 to R84) -/

/-- A row in a decode: its channel LLRs, when a frame was found, and its converged information bits (R80). -/
structure RowIn where
  llrs : Option (List Int)
  bits : Option (List Bool)
  iters : Nat

/-- The limits that a data set is decoded under (R88). -/
structure DecodeCfg where
  iterL1 : Nat
  iterL3 : Nat
  norm : Nat
  rounds : Nat
  limit : Nat
  errorsEn : Bool

/-- Level 1 of a row: LDPC from its LLRs; a row without a frame is an erasure (R80, R84). -/
def level1 (cfg : DecodeCfg) (llrs : Option (List Int)) : RowIn :=
  match llrs with
  | none => ⟨none, none, 0⟩
  | some ls =>
    match ldpcDecode cfg.norm cfg.iterL1 ls with
    | (h, some k) => ⟨some ls, some (h.toList.take 7680), k⟩
    | (_, none) => ⟨some ls, none, cfg.iterL1⟩

/-- Level 2: the 768 columns, each decoded or not, with failed rows erased (R83). -/
def level2 (cfg : DecodeCfg) (rows : List (Option (List Bool))) : List (Option (List Nat)) :=
  let erased := (List.range 1024).filter fun r => (rows.getD r none).isNone
  let syms := (rows.map fun r => ((r.map rowSymbols).getD []).toArray).toArray
  (List.range 768).map fun m =>
    rsDecode cfg.limit cfg.errorsEn erased ((List.range 1024).map fun r => (syms.getD r #[]).getD m 0)

/-- The rows that accepted columns give (R83). -/
def columnsRows (cols : List (List Nat)) : List (List Bool) :=
  let a := (cols.map List.toArray).toArray
  (List.range 1024).map fun r => symbolBits ((List.range 768).map fun m => (a.getD m #[]).getD r 0)

/-- One round of level 3: accepted columns pin their bits in the failed rows to saturated LLRs, and those rows rerun LDPC (R84). -/
def level3Round (cfg : DecodeCfg) (rows : List RowIn) (cols : List (Option (List Nat))) : List RowIn :=
  rows.mapIdx fun r row =>
    match row.bits, row.llrs with
    | none, some ls =>
      let pinned := (List.range 8448).map fun i =>
        if i < 7680 then
          match cols.getD (i / 10) none with
          | some c => if (c.getD r 0).testBit (9 - i % 10) then (-31 : Int) else 31
          | none => ls.getD i 0
        else ls.getD i 0
      (match ldpcDecode cfg.norm cfg.iterL3 pinned with
      | (h, some _) => { row with bits := some (h.toList.take 7680) }
      | (_, none) => row)
    | _, _ => row

/-- The failed rows' hard decisions offered as decoded rows to the columns of level 3 (R84): the detector's, the signs of the row's LLRs [DC 171]. -/
def level3Rows (rows : List RowIn) : List (Option (List Bool)) :=
  rows.map fun row =>
    match row.bits, row.llrs with
    | some b, _ => some b
    | none, some ls => some ((ls.take 7680).map hard)
    | none, none => none

/-- Rounds of level 3 until every column is accepted (R84). -/
def level3 (cfg : DecodeCfg) (rows : List RowIn) : Nat → (List RowIn × Option (List (List Bool)))
  | 0 => (rows, none)
  | k + 1 =>
    let rows' := level3Round cfg rows (level2 cfg (level3Rows rows))
    let cols := level2 cfg (rows'.map (·.bits))
    if cols.all Option.isSome then (rows', some (columnsRows (cols.filterMap id)))
    else level3 cfg rows' k

/-- What levels 1 to 3 find: the rows as they stand, and the level and the 1,024 corrected rows when decoded (R84). -/
def decodeLevels (cfg : DecodeCfg) (rows : List RowIn) : List RowIn × Option (Nat × List (List Bool)) :=
  let cols := level2 cfg (rows.map (·.bits))
  if cols.all Option.isSome then
    let out := columnsRows (cols.filterMap id)
    (rows, some ((if rows.all fun r => r.bits.isSome then 1 else 2), out))
  else
    match level3 cfg rows cfg.rounds with
    | (rows', some out) => (rows', some (3, out))
    | (rows', none) => (rows', none)

end Sys2Proof.Machine
end

