-- ==== Sys2Proof/Machine/Format.lean ====
section
/-! DEFINITION. What stands in a payload and in the cartridge memory: the descriptor, the record table and its numbering, the EOD
record (R44 to R56), the volume header, the wrap table, the locate index, the identity block and the tape-ID record (R31, R57 to
R62). -/

namespace Sys2Proof.Machine

/-! ## Numbers of data sets (R53, R54) -/

/-- User-area bytes of a payload (R44). -/
abbrev userBytes : Nat := 921344

/-- The partition of N (R53). -/
def partOf (n : Nat) : Nat := n / 2 ^ 46 % 4

/-- N of number k in partition p (R53). -/
def mkN (p k : Nat) : Nat := p * 2 ^ 46 + k % 2 ^ 46

/-- The dome group, the dome and the position in it (R77). -/
def groupOf (n : Nat) : Nat := n / 512
def domeOf (n : Nat) : Nat := n % 8
def posOf (n : Nat) : Nat := n % 512 / 8

/-- n names a dome-parity set (R2). -/
def isParityN (n : Nat) : Bool := decide (496 ≤ n % 512)

/-- The first data set of the next dome group above n (R54, R55). -/
def nextGroup (n : Nat) : Nat := (n / 512 + 1) * 512

/-! ## The descriptor (R45) -/

/-- The fields of a descriptor (Table 02-10). -/
structure Descriptor where
  revision : Nat
  kind : Nat
  partition : Nat
  wrap : Nat
  n : Nat
  closes : Bool
  firstLon : Nat
  lead : Nat
  stream : Nat
  entries : Nat
  mountCount : Nat
  cipher : Nat
  iv : Bytes
  keyId : Bytes
  deriving DecidableEq, Repr

/-- "EM1D". -/
def magicD : Bytes := [0x45, 0x4D, 0x31, 0x44]

/-- Descriptor bytes 0 to 239 (Table 02-10). -/
def descriptorHead (d : Descriptor) : Bytes :=
  magicD ++ le 1 d.revision ++ le 1 d.kind ++ le 1 d.partition ++ le 1 d.wrap ++ le 6 d.n ++ le 2 d.closes.toNat ++
  le 8 d.firstLon ++ le 4 d.lead ++ le 4 d.stream ++ le 2 d.entries ++ zeros 2 ++ le 4 d.mountCount ++ le 1 d.cipher ++
  zeros 11 ++ fit 12 d.iv ++ fit 32 d.keyId ++ zeros 144

/-- The fields of descriptor bytes (Table 02-10). -/
def descriptorOf (b : Bytes) : Descriptor :=
  { revision := field b 4 1, kind := field b 5 1, partition := field b 6 1, wrap := field b 7 1, n := field b 8 6,
    closes := (field b 14 2).testBit 0, firstLon := field b 16 8, lead := field b 24 4, stream := field b 28 4,
    entries := field b 32 2, mountCount := field b 36 4, cipher := field b 40 1, iv := slice b 52 12, keyId := slice b 64 32 }

/-- The firmware's format maximum (R66, R392). -/
abbrev formatMax : Nat := 0x11

/-- The bytes that Tables 02-10 and 02-13 reserve are zero: the descriptor's, and those of an EOD data set's record (R45, R52). -/
def rsvdZero (b : Bytes) (kind : Nat) : Bool :=
  decide (field b 14 2 < 2) && field b 34 2 == 0 && (slice b 41 11).all (· == 0) && (slice b 96 144).all (· == 0) &&
  (kind != 1 || ((slice b (256 + 39) 1).all (· == 0) && (slice b (256 + 48) 80).all (· == 0)))

/-- A reader takes a payload of a known revision whose fields stay within Table 02-10, with no KIND or CIPHER that its revision lacks and no
reserved byte in use; of a later revision it reads the number only (R45, R65, R66). -/
def descriptorOk (b : Bytes) : Bool :=
  let d := descriptorOf b
  b.take 4 == magicD && decide (0x10 ≤ d.revision ∧ d.partition ≤ 3 ∧ d.partition = partOf d.n) &&
  (decide (formatMax < d.revision) ||
    (decide (d.kind ≤ d.revision - 0xF ∧ d.cipher ≤ d.revision - 0xF ∧ d.wrap ≤ 19 ∧ d.lead ≤ d.stream ∧ d.stream ≤ userBytes
      ∧ d.entries ≤ 57584) && rsvdZero b d.kind))

/-! ## The record table (R47 to R50) -/

/-- A record-table entry as it stands on tape (Table 02-12). -/
def recordEntry (e : RecEntry) : Bytes :=
  le 4 e.offset ++ le 1 (if e.mark then 2 else 1) ++
  le 1 (if e.mark then 0 else e.first.toNat + 2 * e.last.toNat + 4 * e.group.toNat + 8 * e.groupEnd.toNat) ++
  zeros 2 ++ le 4 e.stored ++ le 4 e.length

/-- A user area: the stream, zeros, and the record table with entry 0 last (R47). -/
def userArea (stream : Bytes) (es : List RecEntry) : Bytes :=
  fit (userBytes - 16 * es.length) stream ++ es.reverse.flatMap recordEntry

/-- Entry i of a user area's table (R47, R48). -/
def entryAt (user : Bytes) (i : Nat) : RecEntry :=
  let b := slice user (userBytes - 16 * (i + 1)) 16
  let f := field b 5 1
  { offset := field b 0 4, mark := field b 4 1 == 2, first := f.testBit 0, last := f.testBit 1, group := f.testBit 2,
    groupEnd := f.testBit 3, stored := field b 8 4, length := field b 12 4, lon := 0 }

/-- Entry i's bytes hold only what Table 02-12 defines. -/
def entryFieldsOk (user : Bytes) (i : Nat) : Bool :=
  let b := slice user (userBytes - 16 * (i + 1)) 16
  let item := field b 4 1
  let f := field b 5 1
  (item == 1 || item == 2) && field b 6 2 == 0 && decide (f < 16) &&
  (if item == 2 then f == 0 && field b 8 4 == 0 && field b 12 4 == 0
   else decide (1 ≤ field b 8 4 ∧ field b 8 4 ≤ 1048640 ∧ field b 12 4 ≤ 1048576))

/-- The record that is open in a table: none, or one begun in an earlier data set, or one with this GROUP (R49). -/
inductive OpenRec where
  | none
  | earlier
  | here (group : Bool)
  deriving DecidableEq, Repr

/-- Where the next block of a table has to begin and which record it goes on, after the entries read so far: FIRST opens a record, LAST closes
it, its blocks agree on GROUP, a mark stands between records, and a block of LENGTH 0 is a record (R49). -/
def tableStep (s : Nat) (acc : Option (Nat × OpenRec)) (e : RecEntry) : Option (Nat × OpenRec) :=
  match acc with
  | none => none
  | some (pos, rec_) =>
    if e.mark then if e.offset = pos ∧ pos ≤ s ∧ rec_ = .none then some (pos, rec_) else none
    else if e.offset = pos ∧ e.offset < s ∧ (e.groupEnd → e.group ∧ e.last) ∧ (e.length = 0 → e.first ∧ e.last) ∧
        (if e.first then rec_ = .none else rec_ = .earlier ∨ rec_ = .here e.group) then
      some (e.offset + e.stored, if e.last then .none else .here e.group)
    else none

/-- The table is well formed for LEAD and STREAM (R49). Whether a record was open at byte 0 follows from the first entry. -/
def tableOk (user : Bytes) (d : Descriptor) : Bool :=
  let es := (List.range d.entries).map (entryAt user)
  let begins := match es with
    | [] => true
    | e :: _ => e.mark || e.first
  decide (d.stream + 16 * d.entries ≤ userBytes) && (List.range d.entries).all (entryFieldsOk user) &&
  (es.foldl (tableStep d.stream) (some (d.lead, if begins then .none else .earlier))).isSome

/-- The LON of each entry, and FIRST_LON of the next data set (R50). -/
def numberGo (lon : Nat) (started : Bool) : List RecEntry → List RecEntry × Nat × Bool
  | [] => ([], lon, started)
  | e :: es =>
    let begins := e.mark || e.first
    let lon' := if begins && !started then lon + 1 else lon
    let r := numberGo lon' (if begins then false else started) es
    ({ e with lon := lon' } :: r.1, r.2)

/-- Number the objects of a data set (R50): the entries with their LONs, and the last LON reached. -/
def numberEntries (firstLon lead : Nat) (es : List RecEntry) : List RecEntry × Nat :=
  let started := match es with
    | [] => lead == 0
    | e :: _ => lead == 0 && (e.mark || e.first)
  let r := numberGo firstLon started es
  (r.1, r.2.1)

/-- The last object continues into the next data set (R50). -/
def continuesAfter (d : Descriptor) (es : List RecEntry) : Bool :=
  match (es.filter fun e => !e.mark).getLast? with
  | some e => !e.last && (match es.getLast? with | some l => !l.mark | none => true)
  | none => decide (0 < d.lead) && es.isEmpty

/-- The records and marks of a decrypted user area, numbered (R47, R50). -/
def objectsOf (user : Bytes) (d : Descriptor) : List RecEntry :=
  (numberEntries d.firstLon d.lead ((List.range d.entries).map (entryAt user))).1

/-! ## The EOD record (R52) -/

/-- A partition map of four entries: in use, first wrap, last wrap (Table 02-15). -/
def partMapBytes (m : List (Bool × Nat × Nat)) : Bytes :=
  m.flatMap fun e => if e.1 then le 1 e.2.1 ++ le 1 e.2.2 ++ [1, 0] else [0xFF, 0xFF, 0, 0]

/-- The user area of an EOD data set (Table 02-13). -/
def eodRecord (volumeId : Bytes) (m : List (Bool × Nat × Nat)) (highN floor endLon : Nat) : Bytes :=
  fit userBytes (fit 16 volumeId ++ partMapBytes m ++ le 6 highN ++ le 1 floor ++ zeros 1 ++ le 8 endLon)

/-! ## The volume header (R59) -/

/-- The volume header's fields (Table 02-15). -/
structure VolHeader where
  lastRevision : Nat
  floor : Nat
  generation : Nat
  mountCount : Nat
  volumeId : Bytes
  map : List (Bool × Nat × Nat)
  highN : List Nat
  eodN : List Nat
  dirty : Bool
  deriving DecidableEq, Repr

/-- All ones in 48 bits: no data set (Table 02-15). -/
abbrev noN : Nat := 0xFFFFFFFFFFFF

/-- The first 124 bytes of a volume header. -/
def volHeaderHead (h : VolHeader) : Bytes :=
  ascii "EM1V" ++ le 1 h.lastRevision ++ le 1 h.floor ++ zeros 2 ++ le 4 h.generation ++ le 4 h.mountCount ++
  fit 16 h.volumeId ++ fit 16 (partMapBytes h.map) ++ fit 24 (h.highN.flatMap (le 6)) ++ fit 24 (h.eodN.flatMap (le 6)) ++
  le 1 h.dirty.toNat ++ zeros 27

/-- The 128 bytes of a volume header, CRC-32 included (R58, R59). -/
def volHeaderBytes (h : VolHeader) : Bytes := let b := volHeaderHead h; b ++ le 4 (crc32Bytes b)

/-- A partition-map entry of a header: none when it lies outside the field's range (R66, Table 02-15). -/
def mapEntry (b : Bytes) : Option (Bool × Nat × Nat) :=
  let f := field b 0 1
  let l := field b 1 1
  let u := field b 2 1
  if u = 0 ∧ f = 0xFF ∧ l = 0xFF then some (false, f, l)
  else if u = 1 ∧ f ≤ l ∧ l ≤ 19 then some (true, f, l)
  else none

/-- The fields of a header copy, or none when its CRC or a field's range fails (R59, R66). -/
def volHeaderOf (b : Bytes) : Option VolHeader :=
  let ms := (List.range 4).map fun p => mapEntry (slice b (32 + 4 * p) 4)
  if b.take 4 = ascii "EM1V" ∧ field b 124 4 = crc32Bytes (b.take 124) ∧ 0x10 ≤ field b 4 1 ∧ 0x10 ≤ field b 5 1 ∧
      ms.all Option.isSome then
    some { lastRevision := field b 4 1, floor := field b 5 1, generation := field b 8 4, mountCount := field b 12 4,
           volumeId := slice b 16 16, map := ms.filterMap id, highN := (List.range 4).map fun p => field b (48 + 6 * p) 6,
           eodN := (List.range 4).map fun p => field b (72 + 6 * p) 6, dirty := (field b 96 1).testBit 0 }
  else none

/-- The copy that wins: the valid one with the higher GENERATION (R59). -/
def volHeaderWins (a b : Bytes) : Option (Bool × VolHeader) :=
  match volHeaderOf a, volHeaderOf b with
  | some x, some y => if x.generation < y.generation then some (true, y) else some (false, x)
  | some x, none => some (false, x)
  | none, some y => some (true, y)
  | none, none => none

/-- Addresses of the cartridge-memory regions (Table 02-14). -/
abbrev cmHeaderA : Nat := 0x1000
abbrev cmHeaderB : Nat := 0x1080
abbrev cmWraps : Nat := 0x1100
abbrev cmIndex : Nat := 0x1400
abbrev cmLog : Nat := 0x6E00
abbrev cmArea : Nat := 0x7C00

/-! ## The wrap table and the locate index (R60, R61) -/

/-- A wrap-table entry: STATE, PARTITION, FIRST_N, LAST_N, LAST_SLOT, FIRST_LON (R60). -/
def wrapEntryBytes (e : Nat × Nat × Nat × Nat × Nat × Nat) : Bytes :=
  le 1 e.1 ++ le 1 e.2.1 ++ zeros 2 ++ le 6 e.2.2.1 ++ le 6 e.2.2.2.1 ++ le 4 e.2.2.2.2.1 ++ le 8 e.2.2.2.2.2 ++ zeros 4

/-- The wrap table with its CRC-32 (R60). -/
def wrapTableBytes (es : List (Nat × Nat × Nat × Nat × Nat × Nat)) : Bytes :=
  let b := fit 640 (es.flatMap wrapEntryBytes)
  b ++ le 4 (crc32Bytes b)

/-- A wrap-table entry's fields. -/
def wrapEntryOf (b : Bytes) : Nat × Nat × Nat × Nat × Nat × Nat :=
  (field b 0 1, field b 1 1, field b 4 6, field b 10 6, field b 16 4, field b 20 8)

/-- The wrap table of a memory region, when its CRC-32 and the range of every entry hold (R60). -/
def wrapTableOf (b : Bytes) : Option (List (Nat × Nat × Nat × Nat × Nat × Nat)) :=
  let es := (List.range 20).map fun w => wrapEntryOf (slice b (32 * w) 32)
  if field b 640 4 = crc32Bytes (b.take 640) ∧
      es.all fun e => decide (e.1 ≤ 3 ∧ e.2.1 ≤ 3 ∧ e.2.2.2.2.1 ≤ slotsPerWrap) then some es else none

/-- A locate-index entry (R61). -/
def indexBytes (n part wrap slot lon : Nat) : Bytes := le 6 n ++ le 1 part ++ le 1 wrap ++ le 4 slot ++ le 8 lon ++ zeros 4

/-- The slot from which locate-index entry j of a wrap counts (R61). -/
def indexSlot (j : Nat) : Nat := 149616 * j

/-! ## The identity block and the tape-ID record (R31, R62) -/

/-- The fixed fields and reserved bytes of the identity block are as Table 02-16 gives. -/
def identityFixed (b : Bytes) : Bool :=
  b.take 4 == ascii "EM1I" && field b 4 1 == 1 && allZero (slice b 5 3) && field b 40 4 == 1130000 && field b 44 1 == 1 &&
  allZero (slice b 45 3) && allZero (slice b 3453 131)

/-- The bits of a tape-ID record of 32 bytes, record bit 0 first (R31). -/
def tapeIdBits (r : Bytes) : List Bool := byteBits (fit 32 r)

/-- A tape-ID record of servo band k checks: CRC-32, SERVO_BAND and PATTERN_REV; its reserved bits are ignored (R31, R66). -/
def tapeIdOk (k : Nat) (r : Bytes) : Bool :=
  let bs := tapeIdBits r
  r.length == 32 && ofBitsMsb (bs.drop 224) == crc32 (bs.take 224) && ofBitsMsb ((bs.drop 128).take 8) == k &&
  ofBitsMsb ((bs.drop 136).take 8) == 1

/-- The five bands carry valid records that agree on the tape ID (R31). -/
def tapeIdsAgree (rs : List Bytes) : Bool :=
  rs.length == 5 && (rs.mapIdx fun k r => tapeIdOk k r).all id && rs.all fun r => r.take 16 == (rs.headD []).take 16

/-- TAPE_ID of a record (R31). -/
def tapeIdOf (r : Bytes) : Bytes := slice r 0 16

/-- The manufacturer page can be read, with its CRC-32 in order, and names the media type EM1 (R58, Table 02-14, log 167). -/
def mediaTypeOk (page : Bytes) : Bool := field page 16 2 == 0x0E01 && field page 252 4 == crc32Bytes (page.take 252)

/-- The usage log's own CRC-32 holds (R62). -/
def usageLogOk (log : Bytes) : Bool := field log (log.length - 4) 4 == crc32Bytes (log.take (log.length - 4))

end Sys2Proof.Machine
end

