-- ==== Sys2Proof/Machine/Operands.lean ====
section
/-! DEFINITION. The operand form of a command that the host submits: the fields of the 64-byte submission entry (R310), which of
them each opcode uses, the checks that need no state of the drive (R312), and the range a command covers (R284). -/

namespace Sys2Proof.Machine

/-! ## Fields (Table 12-1) -/

def opcodeOf (e : Bytes) : Nat := field e 0 1
def flagsOf (e : Bytes) : Nat := field e 1 1
def fenceBefore (e : Bytes) : Bool := (flagsOf e).testBit 0
def durableFlag (e : Bytes) : Bool := (flagsOf e).testBit 1
def atomicFlag (e : Bytes) : Bool := (flagsOf e).testBit 2
def groupEndFlag (e : Bytes) : Bool := (flagsOf e).testBit 3
def priorityOf (e : Bytes) : Nat := bits (flagsOf e) 4 2
def sglFlag (e : Bytes) : Bool := (flagsOf e).testBit 6
def tagOf (e : Bytes) : Nat := field e 2 2
def partField (e : Bytes) : Nat := field e 4 1
def slotField (e : Bytes) : Nat := field e 5 1
def lonField (e : Bytes) : Nat := field e 8 8
def countField (e : Bytes) : Nat := field e 16 8
def dp0 (e : Bytes) : Nat := field e 24 8
def dp1 (e : Bytes) : Nat := field e 32 8
def lengthField (e : Bytes) : Nat := field e 40 8

/-- LON all ones (R310). -/
abbrev allOnes64 : Nat := 0xFFFFFFFFFFFFFFFF

/-- The opcode-specific number in n bytes at byte i. -/
def specField (e : Bytes) (i n : Nat) : Nat := field e i n

/-! ## Opcodes (Tables 12-3 and 12-7, R321, R325) -/

abbrev opIdentify : Nat := 0x01
abbrev opNegotiate : Nat := 0x02
abbrev opCreateQp : Nat := 0x04
abbrev opDeleteQp : Nat := 0x05
abbrev opSetFeature : Nat := 0x08
abbrev opGetFeature : Nat := 0x09
abbrev opGetLog : Nat := 0x0C
abbrev opPowerState : Nat := 0x10
abbrev opFwStage : Nat := 0x14
abbrev opFwActivate : Nat := 0x15
abbrev opKeyLoad : Nat := 0x18
abbrev opKeyErase : Nat := 0x19
abbrev opKeyQuery : Nat := 0x1A
abbrev opAttest : Nat := 0x1C
abbrev opPresence : Nat := 0x1E
abbrev opQueueReset : Nat := 0x1F
abbrev opTableLoad : Nat := 0x20
abbrev opMount : Nat := 0x40
abbrev opUnmount : Nat := 0x41
abbrev opLocate : Nat := 0x44
abbrev opReadPosition : Nat := 0x45
abbrev opWrite : Nat := 0x48
abbrev opWriteMark : Nat := 0x49
abbrev opRead : Nat := 0x4C
abbrev opVerify : Nat := 0x4D
abbrev opSpace : Nat := 0x50
abbrev opSync : Nat := 0x54
abbrev opFence : Nat := 0x55
abbrev opTruncate : Nat := 0x58
abbrev opRefresh : Nat := 0x5C
abbrev opPartition : Nat := 0x60
abbrev opCrypt : Nat := 0x68

/-- What an opcode reads of its entry: whether it is an admin opcode, the flags it accepts beside FENCE_BEFORE and PRIORITY, and
the bits it uses of bytes 4 to 63, as first byte, count and the bits of each (R310). -/
structure OpSpec where
  admin : Bool
  flags : Nat
  used : List (Nat × Nat × Nat)

/-- The spans of the common fields. -/
def fPart : Nat × Nat × Nat := (4, 1, 0xFF)
def fSlot : Nat × Nat × Nat := (5, 1, 0xFF)
def fLon : Nat × Nat × Nat := (8, 8, 0xFF)
def fCount : Nat × Nat × Nat := (16, 8, 0xFF)
def fDp0 : Nat × Nat × Nat := (24, 8, 0xFF)
def fDp1 : Nat × Nat × Nat := (32, 8, 0xFF)
def fLen : Nat × Nat × Nat := (40, 8, 0xFF)
def fSpec (i n : Nat) : Nat × Nat × Nat := (i, n, 0xFF)

/-- The flag bits of Table 12-1. -/
abbrev flDurable : Nat := 0x02
abbrev flGroup : Nat := 0x0C
abbrev flSgl : Nat := 0x40

/-- The VALUE and VALUE2 bits of each SET_FEATURE FID, and its data buffer (Table 12-5). -/
def featureSpec (fid : Nat) : OpSpec :=
  let base := [fSpec 48 2]
  match fid with
  | 0x01 => ⟨true, 0, fSpec 52 4 :: base⟩
  | 0x02 => ⟨true, 0, fSpec 52 4 :: base⟩
  | 0x03 => ⟨true, 0, fSpec 52 4 :: base⟩
  | 0x04 => ⟨true, 0, fSpec 52 3 :: fSpec 56 2 :: base⟩
  | 0x05 => ⟨true, flSgl, fDp0 :: fLen :: base⟩
  | 0x06 => ⟨true, 0, fSpec 52 1 :: (53, 1, 0x03) :: (55, 1, 0x80) :: base⟩
  | _ => ⟨true, 0, base⟩

/-- What the opcode of an entry reads; none for a reserved opcode (Tables 12-3 and 12-7). The group flags belong to version 1.1 and
later (R281). -/
def opSpec (version : Nat) (e : Bytes) : Option OpSpec :=
  let grp := if 0x11 ≤ version then flGroup else 0
  match opcodeOf e with
  | 0x01 => some ⟨true, flSgl, [fDp0, fLen]⟩
  | 0x02 => some ⟨true, 0, [fSpec 48 1]⟩
  | 0x04 => some ⟨true, 0, [fDp0, fDp1, fSpec 48 3, (51, 1, 0x07), fSpec 52 4]⟩
  | 0x05 => some ⟨true, 0, [fSpec 48 1]⟩
  | 0x08 => some (featureSpec (specField e 48 1))
  | 0x09 => some ⟨true, 0, [fSpec 48 2]⟩
  | 0x0C => some ⟨true, flSgl, [fDp0, fLen, fSpec 48 1, (49, 1, 0x01), fSpec 56 8]⟩
  | 0x10 => some ⟨true, 0, [fSpec 48 1]⟩
  | 0x14 => some ⟨true, flSgl, [fDp0, fLen, (49, 1, 0x01), fSpec 52 4]⟩
  | 0x15 => some ⟨true, 0, [fSpec 48 1, fSpec 52 4]⟩
  | 0x18 => some ⟨true, 0, [fSlot, fSpec 48 2, fSpec 56 8]⟩
  | 0x19 => some ⟨true, 0, [fSlot]⟩
  | 0x1A => some ⟨true, flSgl, [fSlot, fDp0, fLen]⟩
  | 0x1C => some ⟨true, flSgl, [fDp0, fDp1, fLen]⟩
  | 0x1E => some (if specField e 48 1 = 3 then ⟨true, flSgl, [fDp0, fLen, fSpec 48 1]⟩ else ⟨true, 0, [fSpec 48 1]⟩)
  | 0x1F => some ⟨true, 0, [fSpec 48 1]⟩
  | 0x20 => some ⟨true, flSgl, [fDp0, fLen, fSpec 48 1]⟩
  | 0x40 => some ⟨false, 0, [(48, 1, 0x01)]⟩
  | 0x41 => some ⟨false, 0, []⟩
  | 0x44 => some ⟨false, 0, [fPart, fLon]⟩
  | 0x45 => some ⟨false, 0, [fDp0]⟩
  | 0x48 => some ⟨false, flDurable ||| grp ||| flSgl, [fPart, fSlot, fLon, fCount, fDp0, fDp1, fLen, fSpec 48 1, fSpec 56 8]⟩
  | 0x49 => some ⟨false, flDurable, [fPart, fSlot, fLon, fCount, fSpec 56 8]⟩
  | 0x4C => some ⟨false, flSgl, [fPart, fSlot, fLon, fCount, fDp0, fDp1, fLen, (48, 1, 0x01)]⟩
  | 0x4D => some ⟨false, 0, [fPart, fSlot, fLon, fCount, fDp1, (48, 1, 0x03)]⟩
  | 0x50 => some ⟨false, 0, [fPart, fSlot, fLon, fCount, fDp1, fSpec 48 1]⟩
  | 0x54 => some ⟨false, 0, [fPart, fSpec 48 1]⟩
  | 0x55 => some ⟨false, 0, []⟩
  | 0x58 => some ⟨false, flDurable, [fPart, fLon]⟩
  | 0x5C => some ⟨false, 0, [fSpec 48 1]⟩
  | 0x60 => some ⟨false, 0, [fSpec 48 8]⟩
  | 0x68 => some ⟨false, 0, [fSlot, fDp0, fDp1, fLen, fSpec 48 1, (49, 1, 0x07), fSpec 50 6, fSpec 56 8]⟩
  | _ => none

/-- The bits of entry byte i that an opcode uses. -/
def usedBits (sp : OpSpec) (i : Nat) : Nat :=
  sp.used.foldl (fun m u => if u.1 ≤ i ∧ i < u.1 + u.2.1 then m ||| u.2.2 else m) 0

/-- Every flag and every bit that the opcode does not use is zero (R310). -/
def unusedZero (sp : OpSpec) (e : Bytes) : Bool :=
  decide (flagsOf e &&& (0x31 ||| sp.flags) = flagsOf e) &&
  (List.range 60).all fun k => decide (field e (4 + k) 1 &&& usedBits sp (4 + k) = field e (4 + k) 1)

/-- The opcodes whose byte 5 is a key slot with 64 to 254 reserved (R248, R252, R265). -/
def slotted (op : Nat) : Bool := op ∈ [0x18, 0x19, 0x1A, 0x48, 0x49, 0x4C, 0x4D, 0x50, 0x68]

/-- A field holds a value that its list leaves reserved, or asks for a feature that Table 11-6 does not give the queue's version
(R10, R281, log 20). -/
def reservedValue (version : Nat) (e : Bytes) : Bool :=
  let op := opcodeOf e
  let b := specField e 48 1
  (slotted op && decide (64 ≤ slotField e ∧ slotField e ≤ 254)) ||
  match op with
  | 0x04 => (specField e 51 1).testBit 2 && decide (version < 0x12)
  | 0x08 | 0x09 => decide (b < 1 ∨ 6 < b) || (decide (b = 2) && decide (version < 0x12))
  | 0x0C => decide (b < 1 ∨ 5 < b)
  | 0x15 => decide (b = 2) && decide (version < 0x12)
  | 0x18 => decide (1 < b) || (decide (b = 0) && decide (specField e 49 1 ≠ 0))
  | 0x1E => decide (b < 1 ∨ 6 < b)
  | 0x20 => decide (b < 1 ∨ 5 < b)
  | 0x48 => decide (4 ≤ b ∧ b ≤ 0xFE)
  | 0x50 => decide (2 < b)
  | 0x54 => decide (2 < b)
  | 0x5C => decide (1 < b)
  | 0x68 => decide (b < 1 ∨ 6 < b) || (decide (bits (specField e 49 1) 1 2 ≠ 0) && decide (version < 0x11))
  | _ => false

/-- Check 1 of R312: a reserved opcode or a reserved encoding. -/
def check1 (version : Nat) (e : Bytes) : Bool :=
  match opSpec version e with
  | none => true
  | some sp => !unusedZero sp e || reservedValue version e

/-- The opcodes that fallback mode takes (R311). -/
def fallbackOp (op : Nat) : Bool := op ∈ [0x01, 0x0C, 0x14, 0x15]

/-- Two ranges of host addresses that share a byte. -/
def meet (a la b lb : Nat) : Bool := decide (0 < la ∧ 0 < lb ∧ a < b + lb ∧ b < a + la)

/-- Bytes that a CRYPT writes to its output range (R266). -/
def cryptOutLen (mode : Nat) (dir : Bool) (len aad : Nat) : Nat :=
  if mode = 5 then 0
  else if mode = 6 then (if dir then len - 8 else 8 * ((len + 7) / 8) + 8)
  else len - aad

/-- The field ranges of CRYPT (R265, R266, R267). -/
def cryptRange (e : Bytes) : Bool :=
  let mode := specField e 48 1
  let dir := (specField e 49 1).testBit 0
  let seg := bits (specField e 49 1) 1 2
  let tagLen := specField e 50 1
  let handle := specField e 51 1
  let aad := specField e 52 4
  let len := lengthField e
  let out := cryptOutLen mode dir len aad
  decide (slotField e ≤ 63 ∧ len ≤ 2 ^ 32 ∧ specField e 56 8 % 16 = 0) &&
  (if mode = 1 then decide (12 ≤ tagLen ∧ tagLen ≤ 16) else if mode = 5 then decide (4 ≤ tagLen ∧ tagLen ≤ 16)
    else decide (tagLen = 0)) &&
  (if 2 ≤ seg then decide (1 ≤ handle) else decide (handle = 0)) &&
  (if mode = 1 ∧ seg ≤ 1 then decide (aad ≤ len) else decide (aad = 0)) &&
  (if seg = 1 ∨ seg = 2 then decide (len % 16 = 0) else true) &&
  (match mode with
   | 3 => decide (len % 16 = 0)
   | 6 => decide (seg = 0) && decide (1 ≤ len ∧ len ≤ 4096) &&
       (!dir || decide (len % 8 = 0 ∧ 16 ≤ len))
   | _ => true) &&
  (decide (dp0 e = dp1 e ∧ len = out) || !meet (dp0 e) len (dp1 e) out)

/-- Check 4 of R312: every field lies in its range, where that needs no state of the drive (Tables 12-3, 12-5, 12-7, R243, R265,
R321, R325, R363). -/
def fieldsInRange (e : Bytes) : Bool :=
  let op := opcodeOf e
  let b := specField e 48 1
  let len := lengthField e
  let v := specField e 52 4
  (!(sglFlag e && decide (0 < len)) || decide (dp0 e % 16 = 0)) &&
  match op with
  | 0x01 => decide (4096 ≤ len)
  | 0x02 => decide (0x10 ≤ b)
  | 0x08 =>
    let sel := specField e 49 1
    (match b with
     | 1 => decide (sel = 0 ∧ (v = 0x10 ∨ v = 0x11))
     | 2 => decide (sel ≤ 1 ∧ v ≤ 1)
     | 3 => decide (v ≤ 1)
     | 4 => decide (sel ≤ 31 ∧ 1 ≤ bits v 16 8 ∧ 1 ≤ specField e 56 2)
     | 5 => decide (sel = 0 ∧ len = 1024)
     | 6 => decide (sel ≤ 1)
     | _ => true)
  | 0x09 =>
    let sel := specField e 49 1
    (match b with
     | 1 => decide (sel = 0)
     | 2 => decide (sel ≤ 1)
     | 4 => decide (sel ≤ 31)
     | 5 => decide (sel = 0)
     | 6 => decide (sel ≤ 1)
     | _ => true)
  | 0x0C => !((specField e 49 1).testBit 0 && decide (4 ≤ b))
  | 0x10 => decide (b ≤ 4)
  | 0x14 => decide (v % 4096 = 0 ∧ len ≤ 2 ^ 20) && ((specField e 49 1).testBit 0 || decide (len % 4096 = 0))
  | 0x15 => decide (b ≤ 2) && (if b = 1 then decide (1 ≤ v ∧ v ≤ 600) else decide (v = 0))
  | 0x18 => decide (slotField e ≤ 63) && (decide (b ≠ 1) || decide (specField e 49 1 ≤ 63))
  | 0x19 => decide (slotField e ≤ 63)
  | 0x1A => decide ((if slotField e = 0xFF then 1280 + 64 * 64 else 1280 + 64) ≤ len)
  | 0x1C => decide (10496 ≤ len)
  | 0x1E => decide (b ≠ 3) || decide (len = 17872)
  | 0x20 => decide (len ≤ 4 * 2 ^ 20)
  | 0x44 => decide (partField e ≤ 3)
  | 0x48 => decide (partField e ≤ 3 ∧ 1 ≤ countField e ∧ countField e ≤ 65536 ∧ len ≤ 2 ^ 32 ∧ dp1 e % 4 = 0) &&
      (decide (countField e ≠ 1) || decide (dp1 e = 0))
  | 0x49 => decide (partField e ≤ 3 ∧ 1 ≤ countField e ∧ countField e ≤ 65536)
  | 0x4C => decide (partField e ≤ 3 ∧ 1 ≤ countField e ∧ countField e ≤ 2 ^ 32 ∧ dp1 e ≠ 0 ∧ dp1 e % 16 = 0)
  | 0x4D => decide (partField e ≤ 3 ∧ 1 ≤ countField e ∧ countField e ≤ 2 ^ 32 ∧ dp1 e % 16 = 0)
  | 0x50 => decide (partField e ≤ 3 ∧ dp1 e % 16 = 0) && (decide (b ≠ 2) || decide (countField e = 0))
  | 0x54 => decide (partField e ≤ 3)
  | 0x58 => decide (partField e ≤ 3)
  | 0x68 => cryptRange e
  | _ => true

/-- Checks 1 to 4 of R312 on an entry of a queue: the status of the first that fails. -/
def entryCheck (qid version : Nat) (fallback tagBusy : Bool) (e : Bytes) : Option Nat :=
  let admin := match opSpec version e with
    | some sp => sp.admin
    | none => true
  if check1 version e then some 0x0102
  else if admin ≠ decide (qid = 0) then some 0x0100
  else if fallback && !fallbackOp (opcodeOf e) then some 0x0103
  else if tagBusy then some 0x0101
  else if !fieldsInRange e then some 0x0101
  else none

/-! ## The data buffer (R313) -/

/-- The list of a scatter list's pieces, or none when it breaks R313; the list ends where its running sum reaches the length. -/
def sglGo (left : Nat) : Nat → List Bytes → Option (List (Nat × Nat))
  | 0, _ => none
  | _ + 1, [] => none
  | fuel + 1, e :: es =>
    let len := field e 8 4
    if field e 12 4 ≠ 0 ∨ len = 0 ∨ left < len then none
    else if len = left then some [(field e 0 8, len)]
    else (sglGo (left - len) fuel es).map fun r => (field e 0 8, len) :: r

/-- The pieces of a command's buffer, or none for a list that breaks R313. -/
def bufferOf (e : Bytes) (sgl : List Bytes) : Option (List (Nat × Nat)) :=
  let len := lengthField e
  if len = 0 then some []
  else if sglFlag e then sglGo len 65536 sgl
  else some [(dp0 e, len)]

/-- The host writes that put bytes at offset off of a buffer of pieces. -/
def scatter : List (Nat × Nat) → Nat → Bytes → List (Nat × Bytes)
  | [], _, _ => []
  | (a, l) :: segs, off, bs =>
    if bs.isEmpty then []
    else if l ≤ off then scatter segs (off - l) bs
    else
      let n := min (l - off) bs.length
      (a + off, bs.take n) :: scatter segs 0 (bs.drop n)

/-! ## Ranges (R284) -/

/-- The range of a command: none, the whole volume, or a partition with a first LON and an end, none for an open end. -/
inductive CmdRange where
  | none
  | whole
  | objects (part first : Nat) (stop : Option Nat)
  deriving DecidableEq, Repr

/-- The opcodes that write to a partition's objects. -/
def writesObjects (op : Nat) : Bool := op ∈ [0x48, 0x49, 0x58]

/-- The range of an entry, given the current LON and the logical ends (Table 11-7). -/
def rangeOf (e : Bytes) (posLon : Nat) (ends : Nat → Nat) : CmdRange :=
  let op := opcodeOf e
  let p := partField e
  let x := lonField e
  let here := if x = allOnes64 then posLon else x
  match op with
  | 0x48 | 0x49 => .objects p (if x = allOnes64 then ends p else x) Option.none
  | 0x58 => .objects p here Option.none
  | 0x4C | 0x4D => .objects p here (some (here + countField e))
  | 0x50 => if specField e 48 1 ≠ 2 ∧ 2 ^ 63 ≤ countField e then .objects p 0 (some (here + 1)) else .objects p here Option.none
  | 0x44 => .objects p here (some (here + 1))
  | 0x40 | 0x41 | 0x5C | 0x60 => .whole
  | _ => .none

/-- Two ranges intersect (R284). -/
def overlaps : CmdRange → CmdRange → Bool
  | .none, _ => false
  | _, .none => false
  | .whole, _ => true
  | _, .whole => true
  | .objects p a ea, .objects q b eb =>
    p == q && (match ea with | some x => decide (b < x) | Option.none => true) &&
    (match eb with | some y => decide (a < y) | Option.none => true)

/-- Whether a command must read host memory once it runs (R308). -/
def readsHost (e : Bytes) : Bool :=
  let op := opcodeOf e
  (sglFlag e && decide (0 < lengthField e)) || op ∈ [0x14, 0x18, 0x1C, 0x20, 0x48, 0x68] ||
  (op == 0x08 && specField e 48 1 == 5) || (op == 0x1E && specField e 48 1 == 3)

end Sys2Proof.Machine
end

