-- ==== Sys2Proof/Machine/Queue.lean ====
section
/-! DEFINITION. The queue model's shared operations: queue pairs and commands by name, the host writes of a command (R262, R302), the
completion entry and its moderation (R279, R280, R338, R339), the order of completions (R283, R285) and the choice of the next
command to start (R278, R285, R288). -/

namespace Sys2Proof.Machine

/-! ## Queue pairs and commands -/

/-- The queue pair of this number, if it exists. -/
def qpOf (s : State) (q : Nat) : Option QueuePair := s.host.qps.find? fun x => x.qid == q

/-- Apply f to the queue pair of this number. -/
def onQp (q : Nat) (f : QueuePair → QueuePair) (s : State) : State :=
  s.onHost fun h => { h with qps := mapIf (fun x => x.qid == q) f h.qps }

/-- The command of this queue and tag, between its fetch and its completion. -/
def cmdOf (s : State) (q tag : Nat) : Option Cmd := s.host.cmds.find? fun c => c.qid == q && c.tag == tag

/-- Apply f to a command. -/
def onCmd (q tag : Nat) (f : Cmd → Cmd) (s : State) : State :=
  s.onHost fun h => { h with cmds := mapIf (fun c => c.qid == q && c.tag == tag) f h.cmds }

/-- The started command of this queue, tag and opcode: what a row that runs an opcode acts on. -/
def startedCmd (s : State) (q tag op : Nat) : Option Cmd :=
  match cmdOf s q tag with
  | some c => if c.phase = .started ∧ opcodeOf c.entry = op then some c else none
  | none => none

/-- The version a queue speaks (R281). -/
def versionOf (s : State) (q : Nat) : Nat := match qpOf s q with | some x => x.version | none => 0x10

/-- Lexicographic order of places in the submission order. -/
def before (a b : Nat × Nat) : Bool := decide (a.1 < b.1) || (a.1 == b.1 && decide (a.2 < b.2))

/-- The command's outcome is known. -/
def isDone (c : Cmd) : Bool := match c.phase with | .done _ _ _ => true | _ => false

/-- The command has been fetched and has not started. -/
def unstarted (c : Cmd) : Bool := c.phase == .fetched

/-- A queue's active port, when it is a path (R303). -/
def queuePath (s : State) (x : QueuePair) : Option Port := if isPath s x.active then some x.active else none

/-! ## Host writes (R262, R302, R307) -/

/-- Drive the host writes of a list through a port. -/
def emitWrites (p : Port) (ws : List (Nat × Bytes)) (s : State) : State := emits (ws.map fun w => .data p w.1 w.2) s

/-- Send the writes of a command that no port has carried yet, when its queue has a path. -/
def sendWrites (q tag : Nat) (s : State) : State :=
  match qpOf s q, cmdOf s q tag with
  | some x, some c =>
    (match queuePath s x with
     | some p => onCmd q tag (fun k => { k with sent := k.writes.length }) (emitWrites p (c.writes.drop c.sent) s)
     | none => s)
  | _, _ => s

/-- Issue host writes for a command: they are kept for a replay and go out at once when its queue has a path. -/
def hostWrites (q tag : Nat) (ws : List (Nat × Bytes)) (s : State) : State :=
  sendWrites q tag (onCmd q tag (fun c => { c with writes := c.writes ++ ws.filter fun w => !w.2.isEmpty }) s)

/-- Write bytes into the command's buffer from offset off (R313). -/
def writeBuffer (q tag off : Nat) (bs : Bytes) (s : State) : State :=
  match cmdOf s q tag with
  | some c => hostWrites q tag (scatter c.segs off bs) s
  | none => s

/-- Bytes in all of a list of host writes. -/
def writtenBytes (ws : List (Nat × Bytes)) : Nat := (ws.map fun w => w.2.length).sum

/-- Zeros over every range of a list of host writes. -/
def zeroWrites (ws : List (Nat × Bytes)) : List (Nat × Bytes) := ws.map fun w => (w.1, zeros w.2.length)

/-- Write zeros over every host range that a command has written (R262); from here its zeros are what is replayed (R307). -/
def zeroOut (q tag : Nat) (s : State) : State :=
  sendWrites q tag (onCmd q tag (fun c => { c with writes := zeroWrites c.writes, sent := 0 }) s)

/-! ## Interrupts of a group (R338, R339) -/

/-- Vector numbers in increasing order, port A before port B. -/
def pairBefore (a b : Nat × Port) : Bool := decide (a.1 < b.1) || (a.1 == b.1 && decide (portNo a.2 ≤ portNo b.2))

/-- Put a pair into a sorted set. -/
def pairInsert (x : Nat × Port) : List (Nat × Port) → List (Nat × Port)
  | [] => [x]
  | y :: ys => if x = y then y :: ys else if pairBefore x y then x :: y :: ys else y :: pairInsert x ys

/-- Deliver a group: one message for each pair held, in order; the set, the count and both windows are emptied (R339). -/
def deliver (g : Nat) (s : State) : State :=
  let grp := getAt s.host.groups g {}
  forEach grp.held (fun x t => msix x.2 x.1 t)
    (s.onHost fun h => { h with groups := updAt h.groups g fun k => { k with count := 0, held := [], openAt := none, staleAt := none } })

/-- Flush one group, counted whether or not it held entries (R341). -/
def flushGroup (g : Nat) (s : State) : State := deliver g (s.onBlf fun b => { b with cntFlush := inc b.cntFlush })

/-- Flush every group (R341). -/
def flushGroups (s : State) : State := forEach (List.range 32) flushGroup s

/-- An entry of a CQ with this group, vector and port has been written: its interrupt is sent or joins the group (R338, R339). -/
def moderate (g v : Nat) (p : Port) (s : State) : State :=
  let grp := getAt s.host.groups g {}
  if grp.holdoff = 0 then msix p v s
  else
    let now := s.power.time
    let s1 := s.onHost fun h => { h with groups := updAt h.groups g fun k =>
      { k with count := k.count + 1, held := pairInsert (v, p) k.held, openAt := some (k.openAt.getD now), staleAt := some now } }
    if grp.agg ≤ grp.count + 1 then deliver g s1 else s1

/-! ## Completion entries (R279, R280) -/

/-- The 16 bytes of a completion entry (Table 11-5). -/
def entryBytes (q : Nat) (repost : Bool) (p : Port) (seqPhase : Nat) (c : Completion) : Bytes :=
  le 8 c.result ++ le 2 c.tag ++ le 1 q ++ le 1 (repost.toNat + 2 * portNo p + 4 * c.durable.toNat) ++ le 2 c.status ++ le 2 seqPhase

/-- Entries of a CQ not consumed by its last accepted head (R280). -/
def cqUsed (x : QueuePair) : Nat := (x.cqTail + x.cqSize - x.cqHead) % x.cqSize

/-- A slot is free for one more entry: a CQ of size S holds at most S − 1 (R280). -/
def cqRoom (x : QueuePair) : Bool := decide (cqUsed x + 1 < x.cqSize)

/-- A partition of which nothing is known. -/
def noPart : Part :=
  { inUse := false, firstWrap := 0, lastWrap := 0, highN := 0, nextN := 0, eodN := none, logicalEnd := 0, endLon := 0, group := none,
    full := false, wrap := 0, slot := 0, onLastWrap := false, dirty := false, floor := 0x10, writers := [] }

/-- A partition of the mounted volume. -/
def partAt (s : State) (p : Nat) : Part := match s.drive.vol with | some v => getAt v.parts p noPart | none => noPart

/-- The first LON of a partition that is not durable: objects whose data sets are all released lie below it (R109). -/
def durableLon (s : State) (p : Nat) : Nat :=
  let pt := partAt s p
  let staged := (s.wr.sets.filter fun d => d.part == p && d.kind == .user).map (·.firstLon)
  let top := match pt.group with
    | some g => g.2.1
    | none => pt.logicalEnd
  staged.foldl min top

/-- FLAGS.DURABLE of a completion now (R286). -/
def nowDurable (s : State) (c : Completion) : Bool :=
  match c.objs with
  | some (p, stop) => decide (stop ≤ durableLon s p)
  | none => false

/-- Write one completion entry of a queue through a port: the rest of its command's data first, then the entry; PHASE inverts at
each wrap and SEQ rises by one (R274, R279). -/
def writeEntry (q : Nat) (x : QueuePair) (p : Port) (c : Completion) (s : State) : State :=
  let d := { c with durable := nowDurable s c, sent := c.writes.length }
  let sp := x.seq + (if x.phase then 0x8000 else 0)
  let s1 := emit (.entry p (x.cqBase + 16 * x.cqTail) (entryBytes q false p sp d)) (emitWrites p (c.writes.drop c.sent) s)
  onQp q (fun y => { y with
    cqTail := (y.cqTail + 1) % y.cqSize, phase := if y.cqTail + 1 = y.cqSize then !y.phase else y.phase,
    seq := (y.seq + 1) % 2 ^ 15, posted := y.posted ++ [⟨y.cqTail, sp, d⟩] }) s1

/-- The vector of an entry held inside the formatter is marked in the PBA, and the first such entry wakes the host when wake on
completion is enabled (R302). -/
def heldMark (x : QueuePair) (s : State) : State :=
  let port := portOf s x.active
  if port.linkUp && (!port.d0 || !port.bme) then
    let s1 := onPort x.active (fun q => { q with pba := setBit q.pba x.vector true }) s
    if port.wakeEn && !port.d0 && (x.heldComps.isEmpty) then emit (.pme x.active) s1 else s1
  else s

/-- Write a completion's entry, or hold it in order behind others for want of a path or a slot (R280, R302, R308). Interrupts still held go out
before the entry of a POWER_STATE, and its own is not moderated (R300). -/
def postComp (q : Nat) (c : Completion) (s : State) : State :=
  match qpOf s q with
  | none => s
  | some x =>
    match queuePath s x, x.heldComps.isEmpty && cqRoom x with
    | some p, true =>
      if opcodeOf c.entry = opPowerState ∧ q = 0 then
        msix p x.vector (writeEntry q x p c (if s.host.groups.toList.any fun g => !g.held.isEmpty then flushGroups s else s))
      else moderate x.group x.vector p (writeEntry q x p c s)
    | some _, false => onQp q (fun y => { y with heldComps := y.heldComps ++ [c] }) s
    | none, _ => onQp q (fun y => { y with heldComps := y.heldComps ++ [c] }) (heldMark x s)

/-- Write the held completions of a queue, in order, as far as its path and its free slots allow (R280, R302, R308). -/
def flushHeld (q : Nat) (s : State) : State :=
  match qpOf s q with
  | none => s
  | some x => forEach x.heldComps (postComp q) (onQp q (fun y => { y with heldComps := [] }) s)

/-! ## The order of completions (R283, R285) -/

/-- Logical end of a partition as commands see it. -/
def logicalEndOf (s : State) (p : Nat) : Nat :=
  match s.drive.vol with
  | some v => (v.parts.toList.map (·.logicalEnd)).getD p 0
  | none => 0

/-- The current LON, 0 with no volume. -/
def posLonOf (s : State) : Nat := match s.drive.vol with | some v => v.posLon | none => 0

/-- The range of an entry in this state (R284). -/
def rangeIn (s : State) (e : Bytes) : CmdRange := rangeOf e (posLonOf s) (logicalEndOf s)

/-- An I/O command is outstanding: its entry has been exposed, and its completion entry is not yet written (R296, R298). -/
def ioOutstanding (s : State) : Bool :=
  (s.host.cmds.any fun c => c.qid != 0) || s.host.qps.any fun x => x.qid != 0 && !(x.exposed.isEmpty && x.heldComps.isEmpty)

/-- A done command's entry has to wait for the entry of an earlier overlapping command (R285). -/
def entryWaits (s : State) (c : Cmd) : Bool :=
  let r := rangeIn s c.entry
  (s.host.cmds.any fun d => before d.order c.order && overlaps (rangeIn s d.entry) r) ||
  s.host.qps.any fun x => x.heldComps.any fun d => before d.order c.order && x.qid != c.qid && overlaps (rangeIn s d.entry) r

/-- The completion of a done command. -/
def compOf (c : Cmd) (status result : Nat) (objs : Option (Nat × Nat)) : Completion :=
  { tag := c.tag, status := status, result := result, objs := objs, durable := false, order := c.order, entry := c.entry,
    writes := c.writes, sent := c.sent }

/-- Move one command on: a done one leaves for its CQ when its entry need not wait; a FENCE is done when every earlier command of
its queue has completed (R283, R285). -/
def tidyOne (q tag : Nat) (s : State) : State :=
  match cmdOf s q tag with
  | none => s
  | some c =>
    match c.phase with
    | .done st res objs =>
      if entryWaits s c then s
      else postComp q (compOf c st res objs) (s.onHost fun h => { h with cmds := h.cmds.filter fun d => !(d.qid == q && d.tag == tag) })
    | .fenceWait =>
      if opcodeOf c.entry ≠ opFence then s
      else if s.host.cmds.any fun d => d.qid == q && before d.order c.order then s
      else postComp q (compOf c 0 0 none) (s.onHost fun h => { h with cmds := h.cmds.filter fun d => !(d.qid == q && d.tag == tag) })
    | _ => s

/-- Put a command into a list by submission order. -/
def orderInsert (c : Cmd) : List Cmd → List Cmd
  | [] => [c]
  | d :: ds => if before c.order d.order then c :: d :: ds else d :: orderInsert c ds

/-- The commands in submission order. -/
def byOrder (cs : List Cmd) : List Cmd := cs.foldl (fun l c => orderInsert c l) []

/-! ## Queues being reset (R293 to R295) -/

/-- Entries of a queue up to a tail take their places in the submission order (R277, R282). -/
def acceptTail (q tail : Nat) (s : State) : State :=
  match qpOf s q with
  | none => s
  | some x =>
    let n := (tail + x.sqSize - x.sqTail) % x.sqSize
    onQp q (fun y => { y with sqTail := tail, exposed := y.exposed ++ (List.range n).map fun i => s.host.nextOrder + i })
      (s.onHost fun h => { h with nextOrder := h.nextOrder + n })

/-- A multipath queue whose active port is no path goes to the other port when that is one (R303). -/
def repath (q : Nat) (s : State) : State :=
  match qpOf s q with
  | none => s
  | some x =>
    if x.multipath && !isPath s x.active && isPath s (otherPort x.active) then onQp q (fun y => { y with active := otherPort y.active }) s
    else s

/-- A queue in deletion or function reset that has no path gives up what it holds: discarded by DELETE_QP, kept for GET_LOG by a
function reset (R294, R295). -/
def sweepReset (q st : Nat) (s : State) : State :=
  match qpOf s q with
  | none => s
  | some x =>
    if (queuePath s x).isSome || st == 0x0210 then s
    else
      let s1 := onQp q (fun y => { y with exposed := [], heldComps := [] }) s
      if st = 0x0211 then s1.onLantern fun l => { l with
        keptOutcomes := l.keptOutcomes ++ x.heldComps.map fun c => entryBytes q false x.active 0 { c with durable := nowDurable s c } }
      else s1

/-- Every command of a queue has completed and its entries are written. -/
def resetIdle (s : State) (q : Nat) : Bool :=
  match qpOf s q with
  | none => true
  | some x => x.exposed.isEmpty && x.heldComps.isEmpty && !(s.host.cmds.any fun c => c.qid == q)

/-- The admin commands of an opcode that wait for a queue's reset complete. -/
def endWaiters (op q : Nat) (s : State) : State :=
  forEach (s.host.cmds.filter fun c => c.qid == 0 && opcodeOf c.entry == op && specField c.entry 48 1 == q && c.phase == .fenceWait)
    (fun c t => postComp 0 (compOf c 0 0 none) (t.onHost fun h => { h with cmds := h.cmds.filter fun d => !(d.qid == 0 && d.tag == c.tag) })) s

/-- A queue's reset is over: a held tail takes effect, or the queue is gone, and the command that asked for it completes (R293,
R294). -/
def endReset (q st : Nat) (s : State) : State :=
  let s1 := s.onHost fun h => { h with resetting := h.resetting.filter (· != (q, st)) }
  if st = 0x0210 then
    let s2 := match (qpOf s1 q).bind (·.heldTail) with
      | some t => acceptTail q t (onQp q (fun y => { y with heldTail := none }) s1)
      | none => s1
    endWaiters opQueueReset q s2
  else if st = 0x0213 then endWaiters opDeleteQp q (s1.onHost fun h => { h with qps := h.qps.filter fun x => x.qid != q })
  else s1

/-- A function reset is over: every queue pair is gone, ENABLE is clear, every group is flushed and at its reset state (R295, R338,
R341). -/
def endFunctionReset (s : State) : State :=
  (flushGroups s).onHost fun h => { h with
    qps := [], cmds := [], enable := false, resetBusy := false, groups := Vector.replicate 32 {} }

/-- Go on with the queues in reset. -/
def resetsPass (s : State) : State :=
  let s1 := forEach s.host.resetting (fun e t =>
    let t1 := sweepReset e.1 e.2 t
    if resetIdle t1 e.1 then endReset e.1 e.2 t1 else t1) s
  if s1.host.resetBusy && s1.host.resetting.all (fun e => e.2 != 0x0211) then endFunctionReset s1 else s1

/-- Complete, in submission order, every command whose entry may now be written, and every reset that is over. -/
def tidy (s : State) : State := resetsPass (forEach (byOrder s.host.cmds) (fun c t => tidyOne c.qid c.tag t) s)

/-- The command has met its end with this status, result and objects; its entry follows as the order allows. -/
def finish (q tag status result : Nat) (objs : Option (Nat × Nat)) (s : State) : State :=
  tidy (onCmd q tag (fun c => if isDone c then c else { c with phase := .done status result objs }) s)

/-- The command completes with a status and no objects. -/
def reply (q tag status result : Nat) (s : State) : State := finish q tag status result none s

/-- Record an outcome that a command has met and goes on from (R327). -/
def meetOutcome (q tag status : Nat) (s : State) : State := onCmd q tag (fun c => { c with met := c.met ++ [status] }) s

/-- The line of R327 that an outcome stands in. -/
def outcomeRank (st : Nat) : Nat :=
  if st = 0x0301 ∨ st = 0x0302 then 1
  else if st = 0x0300 ∨ st = 0x0304 then 2
  else if st = 0x0212 then 3
  else if st = 0x0210 ∨ st = 0x0211 ∨ st = 0x0213 ∨ st = 0x0214 then 4
  else if st = 0x0410 ∨ st = 0x0305 ∨ st = 0x0411 ∨ st = 0x0416 then 5
  else if st = 0x0403 then 6
  else if st = 0x0400 ∨ st = 0x0401 ∨ st = 0x0404 ∨ st = 0x0405 then 7
  else if st = 0x0402 then 8
  else if st = 0x0001 then 9
  else 10

/-- The status of a command that met these outcomes, in this order: the first of the lowest line (R327). -/
def prevails (met : List Nat) : Nat :=
  met.foldl (fun best st => if outcomeRank st < outcomeRank best then st else best) 0

/-! ## Which command starts (R278, R283, R285, R288) -/

/-- The queue and the first LON of the atomic group open in a partition. -/
def openGroup (s : State) (p : Nat) : Option (Nat × Nat × Nat × Nat) :=
  match s.drive.vol with
  | some v => ((v.parts.toList.map (·.group)).getD p none)
  | none => none

/-- A write of another queue to a partition whose atomic group is open: it waits, and counts as submitted after the group (R288). -/
def deferred (s : State) (c : Cmd) : Bool :=
  unstarted c && writesObjects (opcodeOf c.entry) &&
  match openGroup s (partField c.entry) with
  | some g => g.1 != c.qid
  | none => false

/-- The command has taken effect under R285. -/
def tookEffect (c : Cmd) : Bool :=
  match c.phase with
  | .done _ _ _ => true
  | .durableWait => opcodeOf c.entry == opWrite || opcodeOf c.entry == opWriteMark
  | _ => false

/-- An entry exposed and not yet fetched, of a queue that can be fetched from, is earlier than this place. -/
def unfetchedBefore (s : State) (o : Nat × Nat) : Bool :=
  s.host.qps.any fun x => (queuePath s x).isSome && x.exposed.any fun n => before (n, 0) o

/-- An enabled head-link group is in training: a MOUNT or a writing command waits (R225). -/
def training (s : State) : Bool :=
  (List.range 8).any fun g =>
    s.hlk.groupEn.getLsbD g && (match (getAt s.hlk.groups g {}).state with | .cdr | .block | .ident | .config => true | _ => false)

/-- A fetched command may start now. -/
def mayStart (s : State) (c : Cmd) : Bool :=
  let r := rangeIn s c.entry
  let op := opcodeOf c.entry
  match qpOf s c.qid with
  | none => false
  | some x =>
    unstarted c && !s.host.holdForSwitch && !deferred s c &&
    ((queuePath s x).isSome || !readsHost c.entry) &&
    !(x.strict && s.host.cmds.any fun d => d.qid == c.qid && unstarted d && before d.order c.order) &&
    !(fenceBefore c.entry && ((s.host.cmds.any fun d => d.qid == c.qid && before d.order c.order) ||
      x.heldComps.any fun d => before d.order c.order)) &&
    !(s.host.cmds.any fun d => d.qid == c.qid && opcodeOf d.entry == opFence && before d.order c.order) &&
    !(s.host.cmds.any fun d => before d.order c.order && !tookEffect d && !deferred s d && overlaps (rangeIn s d.entry) r) &&
    !(r != .none && unfetchedBefore s c.order) &&
    !(training s && op ∈ [opMount, opWrite, opWriteMark, opPartition])

/-- The lower PRIORITY, then the earlier place, of two commands that may start (R278). -/
def better (best : Option Cmd) (c : Cmd) : Option Cmd :=
  match best with
  | none => some c
  | some b =>
    if priorityOf c.entry < priorityOf b.entry ∨ (priorityOf c.entry = priorityOf b.entry ∧ before c.order b.order) then some c else some b

/-- The command that starts next. -/
def nextStart (s : State) : Option Cmd := (s.host.cmds.filter (mayStart s)).foldl better none

end Sys2Proof.Machine
end

