-- ==== Sys2Proof/Machine/CartMem.lean ====
section
/-! DEFINITION. The cartridge memory: the link's frames (R63, R64) and the updates of the volume header, the wrap table and the
locate index (R58 to R61, Table 04-6). -/

namespace Sys2Proof.Machine

/-! ## The link (R63, R64) -/

/-- Apply f to the link. -/
def onLink (f : CmLink → CmLink) (s : State) : State := s.onDrive fun d => { d with link := f d.link }

/-- A request frame: OP, LEN, payload, CRC-8 (R63). -/
def cmFrame (op : Nat) (payload : Bytes) : Bytes :=
  let b := le 1 op ++ le 1 payload.length ++ payload
  b ++ le 1 (crc8 (byteBits b))

/-- The payload of a TRANSCEIVE of a command with CRC_A appended and checked (Table 02-17, R64). -/
def cmTransceive (timeout : Nat) (frame : Bytes) : Bytes := [0x18] ++ le 2 timeout ++ frame

/-- POLL collects the answer to a request (R63). -/
abbrev cmPoll : Bytes := cmFrame 0 []

/-- The request in hand goes out, with the POLL for its answer. -/
def cmIssue (s : State) : State :=
  match s.drive.link.queue with
  | r :: _ => emits [.cmFrame r.frame, .cmFrame cmPoll] (onLink (fun l => { l with tries := 0, busy := false, usedAt := s.power.time }) s)
  | [] => s

/-- Requests join those that wait; with none in hand the first goes out. -/
def cmQueue (rs : List CmReq) (s : State) : State :=
  let s1 := onLink (fun l => { l with queue := l.queue ++ rs }) s
  if s.drive.link.queue.isEmpty then cmIssue s1 else s1

/-- Nothing is on its way over the link. -/
def cmIdle (s : State) : Bool := s.drive.link.queue.isEmpty

/-- A request of a command of Table 02-18: CRC_A appended and checked, with its timeout in 10 µs. -/
def cmReq (timeout : Nat) (frame : Bytes) (job : CmJob) : CmReq := ⟨cmFrame 2 (cmTransceive timeout frame), job⟩

/-- REQA: a short frame of seven bits without CRC_A (R63). -/
def reqaReq : CmReq := ⟨cmFrame 2 ([0x07] ++ le 2 100 ++ [0x26]), .reqa⟩

/-- The SEL code of a cascade level (R63). -/
def selCode (level : Nat) : Byte := BitVec.ofNat 8 (0x93 + 2 * level)

/-- ANTICOLLISION of a cascade level, and the SELECT of the four UID bytes and the check byte that it answered (R63). -/
def anticollisionReq (level : Nat) : CmReq := ⟨cmFrame 2 ([0x00] ++ le 2 100 ++ [selCode level, 0x20]), .anticollision level⟩
def selectReq (level : Nat) (uid : Bytes) : CmReq := cmReq 100 ([selCode level, 0x70] ++ uid) (.select level)

/-- The field goes on before the first access of a group of accesses, and the memory is activated afresh from REQA (R63). -/
def cmOpening (s : State) : List CmReq := if s.drive.link.field then [] else [⟨cmFrame 1 [1], .plain⟩, reqaReq]

/-- A group of accesses, and what it was for. -/
def cmGroup (rs : List CmReq) (m : CmMark) (s : State) : State :=
  onLink (fun l => { l with field := true }) (cmQueue (cmOpening s ++ rs ++ [⟨[], .done m⟩]) s)

/-- HLTA, and the field goes off (R63). -/
def cmClose (s : State) : State :=
  if s.drive.link.field then
    cmQueue [cmReq 100 [0x50, 0x00] .halt, ⟨cmFrame 1 [0], .plain⟩] (onLink (fun l => { l with field := false }) s)
  else s

/-- Bytes of the cartridge memory as it was last read or written over the link. -/
def cmBytes (s : State) (addr n : Nat) : Bytes :=
  match s.drive.cart with
  | some c => Memory.readBytes c.cm addr n
  | none => List.replicate n emptyByte

/-- What CM_INFO answered: the size in KiB and the command set (R64). -/
def setCmInfo (kib set : Nat) (s : State) : State :=
  s.onDrive fun d => { d with cart := d.cart.map fun c => { c with cmKiB := kib, cmSet := set } }

/-- Bytes of the cartridge memory become what the link showed them to be (R63, R64). -/
def storeCm (a : Nat) (bs : Bytes) (s : State) : State :=
  s.onDrive fun d => { d with cart := d.cart.map fun c => { c with cm := Memory.writeBytes c.cm a bs } }

/-- The same bytes once the writes that wait have been done. -/
def cmPlanned (s : State) (addr n : Nat) : Bytes :=
  match s.drive.cart with
  | some c => Memory.readBytes (s.drive.link.queue.foldl (fun m r => match r.job with
      | .write a bs => Memory.writeBytes m a bs
      | _ => m) c.cm) addr n
  | none => List.replicate n emptyByte

/-- CM_READ of n bytes in pieces of 32 (R64). -/
def cmReads (addr n : Nat) : List CmReq :=
  (List.range ((n + 31) / 32)).map fun i => cmReq 200 ([0xC4] ++ be 2 (addr + 32 * i)) (.read (addr + 32 * i))

/-- CM_WRITE of bytes in pieces of 16, each read back and compared (R64, R111). -/
def cmWrites (addr : Nat) (bs : Bytes) : List CmReq :=
  let data := fit (16 * ((bs.length + 15) / 16)) bs
  (List.range (data.length / 16)).flatMap fun i =>
    let at_ := addr + 16 * i
    let piece := (data.drop (16 * i)).take 16
    [cmReq 1000 ([0xC5] ++ be 2 at_ ++ piece) (.write at_ piece), cmReq 200 ([0xC4] ++ be 2 (at_ / 32 * 32)) (.check at_ piece)]

/-! ## The volume's fields (R57, R59) -/

/-- Apply f to the mounted volume. -/
def onVol (f : Volume → Volume) (s : State) : State := s.onDrive fun d => { d with vol := d.vol.map f }

/-- Apply f to a partition of the mounted volume. -/
def onPart (p : Nat) (f : Part → Part) (s : State) : State := onVol (fun v => { v with parts := updAt v.parts p f }) s

/-- A volume is mounted for writing. -/
def writable (s : State) : Bool := match s.drive.vol with | some v => !v.readOnly | none => false

/-- The partition map of a volume. -/
def mapOf (v : Volume) : List (Bool × Nat × Nat) := v.parts.toList.map fun p => (p.inUse, p.firstWrap, p.lastWrap)

/-- The header that a volume's state asks for, with a generation and DIRTY (Table 02-15). -/
def headerOf (v : Volume) (generation : Nat) (dirty : Bool) : VolHeader :=
  { lastRevision := v.lastRevision, floor := v.floor, generation := generation, mountCount := v.mountCount,
    volumeId := v.volumeId, map := mapOf v, highN := v.parts.toList.map (·.highN),
    eodN := v.parts.toList.map fun p => p.eodN.getD noN, dirty := dirty }

/-- Write the volume header into the copy that does not hold the current generation, one generation higher (R59). -/
def writeHeader (dirty : Bool) (s : State) : State :=
  match s.drive.vol with
  | none => s
  | some v =>
    let addr := match volHeaderWins (cmPlanned s cmHeaderA 128) (cmPlanned s cmHeaderB 128) with
      | some (true, _) => cmHeaderA
      | some (false, _) => cmHeaderB
      | none => cmHeaderA
    let g := (v.generation + 1) % 2 ^ 32
    cmGroup (cmWrites addr (volHeaderBytes (headerOf v g dirty))) (.header dirty) (onVol (fun v => { v with generation := g }) s)

/-- Write the wrap table with its CRC-32 (R60). -/
def writeWraps (s : State) : State :=
  match s.drive.vol with
  | none => s
  | some v => cmGroup (cmWrites cmWraps (wrapTableBytes v.wraps)) .wraps s

/-- The 48 locate-index entries of a wrap as bytes; an empty one is all ones (R61). -/
def wrapIndexBytes (v : Volume) (w part : Nat) : Bytes :=
  (List.range 48).flatMap fun j =>
    match v.index.find? fun e => e.1 == w && e.2.1 == j with
    | some (_, _, n, slot, lon) => indexBytes n part w slot lon
    | none => List.replicate 24 0xFF

/-- Write the locate-index entries of a wrap (R61). -/
def writeIndex (w part : Nat) (s : State) : State :=
  match s.drive.vol with
  | none => s
  | some v => cmGroup (cmWrites (cmIndex + 24 * 48 * w) (wrapIndexBytes v w part)) (.index w part) s

/-- Write the usage log whole: what stands in it the manual leaves open, under its CRC-32 (R62, log 169). -/
def writeUsage (s : State) : State :=
  let body := fit (cmArea - cmLog - 4) (Config.usageLog s.fresh)
  draw (cmGroup (cmWrites cmLog (body ++ le 4 (crc32Bytes body))) .usage s)

/-- Apply f to the wrap-table entry of a wrap. -/
def onWrap (w : Nat) (f : Nat × Nat × Nat × Nat × Nat × Nat → Nat × Nat × Nat × Nat × Nat × Nat) (s : State) : State :=
  onVol (fun v => { v with wraps := v.wraps.modify w f }) s

/-- The wrap-table entry of a wrap. -/
def wrapEntry (s : State) (w : Nat) : Nat × Nat × Nat × Nat × Nat × Nat :=
  match s.drive.vol with
  | some v => v.wraps.getD w (0, 0, 0, 0, 0, 0)
  | none => (0, 0, 0, 0, 0, 0)

/-- Forget the locate-index entries of a wrap that a write from this slot on makes stale (R61). -/
def clearIndex (w slot : Nat) (s : State) : State :=
  onVol (fun v => { v with index := v.index.filter fun e => !(e.1 == w && decide (slot ≤ max e.2.2.2.1 (indexSlot e.2.1))) }) s

/-- A user data set's first copy stands at this slot: it fills the index entries up to there that are empty (R61). -/
def noteIndex (w slot n lon : Nat) (s : State) : State :=
  onVol (fun v =>
    let new := (List.range 48).filter fun j => decide (indexSlot j ≤ slot) && !(v.index.any fun e => e.1 == w && e.2.1 == j)
    { v with index := v.index ++ new.map fun j => (w, j, n, slot, lon) }) s

/-- A write session opens: DIRTY = 1 is written and read back, in up to three attempts; a blank volume takes its VOLUME_ID first (R59, R111,
R319). Until it has been read back nothing is written to tape. -/
def openSession (s : State) : State :=
  match s.drive.vol with
  | none => s
  | some v =>
    if v.dirty || v.dirtyTries != 0 then s
    else
      let s1 := if v.blank then
          draw (onVol (fun v => { v with blank := false, volumeId := (le 32 (Config.trng s.fresh).toNat).take 16 }) s)
        else s
      writeHeader true (onVol (fun v => { v with dirtyTries := 1 }) s1)

/-- DIRTY = 1 that was refused is tried again: at a SYNC, a durable write and UNMOUNT (R111). -/
def retryMemory (s : State) : State := match s.drive.vol with | some v => if v.cmRefused then openSession s else s | none => s

/-- DIRTY = 1 has been read back in the session (R111). -/
def sessionOpen (s : State) : Bool := match s.drive.vol with | some v => v.dirty | none => false

/-- Updates that failed are tried again at the next point of Table 04-6 (R111). -/
def payOwed (s : State) : State :=
  forEach s.drive.link.owed (fun m t => match m with
    | .header _ => writeHeader (sessionOpen t) t
    | .wraps => writeWraps t
    | .index w p => writeIndex w p t
    | .usage => writeUsage t
    | .command _ _ => t) (onLink (fun l => { l with owed := [] }) s)

/-- Step 2 of Table 04-6, before the first frame on a wrap: STATE 1, PARTITION, FIRST_N, and HIGH_N in the header (R111). -/
def openWrap (w slot part n lon : Nat) (s : State) : State :=
  let s1 := clearIndex w slot s
  let s2 := onWrap w (fun e => if slot = 0 then (1, part, n, n, 0, lon) else (1, part, e.2.2.1, n, e.2.2.2.2.1, e.2.2.2.2.2)) s1
  writeHeader true (writeWraps (payOwed s2))

/-- Step 3 of Table 04-6, once a wrap is finished: STATE 2, LAST_N, LAST_SLOT and the wrap's index entries (R111). -/
def closeWrap (w part lastSlot : Nat) (s : State) : State :=
  writeIndex w part (writeWraps (onWrap w (fun e => (2, e.2.1, e.2.2.1, (partAt s part).highN, lastSlot, e.2.2.2.2.2)) (payOwed s)))

/-- A partition with data on tape is closed by an EOD data set in force (R101). -/
def partClosed (pt : Part) : Bool := !pt.inUse || pt.highN == noN || pt.eodN.isSome

/-- Step 4 of Table 04-6: the wrap-table entries and index of the wraps in hand, then the header with DIRTY = 0 (R111). DIRTY stays set when a
partition's closing EOD data set has not passed verify (R101). -/
def closeSession (s : State) : State :=
  let parts := (List.range 4).filter fun p => (partAt s p).inUse
  let s1 := forEach parts (fun p t =>
    let pt := partAt t p
    let e := wrapEntry t pt.wrap
    if e.1 = 1 ∧ e.2.1 = p then
      writeIndex pt.wrap p (onWrap pt.wrap (fun e => (1, p, e.2.2.1, pt.highN, pt.slot - 1, e.2.2.2.2.2)) t)
    else t) (payOwed s)
  writeHeader (!parts.all fun p => partClosed (partAt s p)) (writeWraps s1)

/-! ## Answers (R63, R64, R111) -/

/-- A group of accesses has ended. A header brings its DIRTY into force; DIRTY = 1 that cannot be written is tried three times; another update
that fails is owed; a command goes on with goal 2, or with goal 3 when an access of its own has failed (R63, R111). -/
def cmDone (ok : Bool) (m : CmMark) (s : State) : State :=
  match m with
  | .command q tag => onCmd q tag (fun c => { c with goal := if ok then 2 else 3 }) s
  | .header d =>
    if ok then onVol (fun v => { v with dirty := d, dirtyTries := 0, cmRefused := v.cmRefused && !d }) s
    else match s.drive.vol with
      | none => s
      | some v =>
        if d && !v.dirty then
          if v.dirtyTries < 3 then writeHeader true (onVol (fun v => { v with dirtyTries := v.dirtyTries + 1 }) s)
          else onVol (fun v => { v with dirtyTries := 0, cmRefused := true }) s
        else onLink (fun l => { l with owed := l.owed ++ [m] }) s
  | .wraps | .index _ _ | .usage => if ok then s else onLink (fun l => { l with owed := l.owed ++ [m] }) s

/-- The group that a request of the link ends, if it is no frame. -/
def doneMark (r : CmReq) : Option CmMark := match r.job with | .done m => some m | _ => none

/-- Go on with the requests that are left: groups that have ended are settled, and the next frame goes out. The first group ended carries the
outcome of the accesses before it. -/
def cmGoOn (rest : List CmReq) (s : State) : State :=
  let ended := (rest.takeWhile fun r => (doneMark r).isSome).filterMap doneMark
  let left := rest.dropWhile fun r => (doneMark r).isSome
  let ok := !s.drive.link.failed
  let s1 := onLink (fun l => { l with queue := left, busy := false, tries := 0, failed := l.failed && ended.isEmpty }) s
  let s2 := cmIssue s1
  match ended with
  | [] => s2
  | m :: ms => forEach ms (cmDone true) (cmDone ok m s2)

/-- The request in hand is done; others may come before those that wait. -/
def cmNext (first : List CmReq) (s : State) : State := cmGoOn (first ++ s.drive.link.queue.drop 1) s

/-- The access has failed: the rest of its group is dropped (R63). -/
def cmFail (s : State) : State :=
  cmGoOn ((s.drive.link.queue.drop 1).dropWhile fun r => (doneMark r).isNone) (onLink (fun l => { l with failed := true }) s)

/-- The request is sent again, up to three times; then the access has failed (R63). -/
def cmRetry (s : State) : State :=
  match s.drive.link.queue with
  | [] => s
  | r :: _ =>
    if s.drive.link.tries < 3 then
      emits [.cmFrame r.frame, .cmFrame cmPoll] (onLink (fun l => { l with tries := l.tries + 1, busy := false, usedAt := s.power.time }) s)
    else cmFail s

/-- Five bytes of ANTICOLLISION whose last is the exclusive or of the others. -/
def uidOk (b : Bytes) : Bool := decide (b.length = 5) && b.foldl (· ^^^ ·) 0 == 0

/-- Take the reply of a request that is done (R63, R64). A SAK with bit 2 set asks for the next cascade level. -/
def cmAccept (job : CmJob) (reply : Bytes) (s : State) : State :=
  match job with
  | .plain | .halt | .done _ => cmNext [] s
  | .ident => cmNext [] (onLink (fun l => { l with identity := reply }) s)
  | .reqa => if reply.length = 2 then cmNext [anticollisionReq 0] s else cmRetry s
  | .anticollision k => if uidOk reply then cmNext [selectReq k reply] s else cmRetry s
  | .select k =>
    match reply with
    | [sak] => if sak.getLsbD 2 then (if k < 2 then cmNext [anticollisionReq (k + 1)] s else cmFail s) else cmNext [] s
    | _ => cmRetry s
  | .info =>
    if reply.length = 8 then
      cmNext [] (setCmInfo (field reply 0 2) (field reply 2 1) s)
    else cmRetry s
  | .read a => if reply.length = 32 then cmNext [] (storeCm a reply s) else cmRetry s
  | .write a bs =>
    match reply with
    | [r] => if r = 0 then cmNext [] (storeCm a bs s) else cmFail s
    | _ => cmRetry s
  | .check a bs =>
    if reply.length = 32 then
      let s1 := storeCm (a / 32 * 32) reply s
      if slice reply (a % 32) 16 = bs then cmNext [] s1 else cmFail s1
    else cmRetry s

/-- An answer's CRC-8 and length hold (R63). -/
def cmFrameOk (frame : Bytes) : Bool :=
  decide (3 ≤ frame.length ∧ frame.length = field frame 1 1 + 3) && crc8 (byteBits frame) == 0

/-- Take the answer to the request in hand: busy, done, or anything else, which counts as an error. HLTA is done when it draws no reply (R63). -/
def cmTake (bytes : Bytes) (s : State) : State :=
  match s.drive.link.queue with
  | [] => s
  | r :: _ =>
    if field bytes 0 1 = 0 then onLink (fun l => { l with busy := true }) s
    else if field bytes 0 1 = 1 ∧ cmFrameOk bytes then cmAccept r.job (slice bytes 2 (field bytes 1 1)) s
    else if r.job = .halt then cmNext [] s
    else cmRetry s

end Sys2Proof.Machine
end

