-- ==== Sys2Proof/Machine/Keys.lean ====
section
/-! DEFINITION. Key slots and their generations (R240 to R247): binding, invocation counters, reservations, the choice of a slot to
decrypt with (R252), the key-load block (R243, R244) and the context store (R258, R267). -/

namespace Sys2Proof.Machine

/-! ## Slots and generations -/

/-- A key slot. -/
def keySlot (s : State) (i : Nat) : KeySlot := getAt s.keep.slots i {}

/-- Apply f to a key slot. -/
def onSlot (i : Nat) (f : KeySlot → KeySlot) (s : State) : State := s.onKeep fun k => { k with slots := updAt k.slots i f }

/-- Apply f to the generation of this number in a slot, current or shadow. -/
def onGen (i num : Nat) (f : Gen → Gen) (s : State) : State :=
  let g := fun (x : Gen) => if x.num = num then f x else x
  onSlot i (fun k => { k with cur := k.cur.map g, shadow := k.shadow.map g }) s

/-- The generation of this number in a slot. -/
def genOf (s : State) (i num : Nat) : Option Gen :=
  let k := keySlot s i
  match k.cur, k.shadow with
  | some c, some h => if c.num = num then some c else if h.num = num then some h else none
  | some c, none => if c.num = num then some c else none
  | none, some h => if h.num = num then some h else none
  | none, none => none

/-- The current generation of a slot that is LIVE or SHADOWED. -/
def curGen (s : State) (i : Nat) : Option Gen :=
  let k := keySlot s i
  match k.state with
  | .live | .shadowed => k.cur
  | .empty | .withdraw => none

/-- The use attributes of Table 10-1. -/
def useTape (g : Gen) : Bool := g.use.getLsbD 0
def useCrypt (g : Gen) : Bool := g.use.getLsbD 1
def useKek (g : Gen) : Bool := g.use.getLsbD 2
def useBind (g : Gen) : Bool := g.use.getLsbD 3

/-- One more operation is bound to a generation (R241). -/
def bindGen (i num : Nat) (s : State) : State := onGen i num (fun g => { g with bound := g.bound + 1 }) s

/-- The shadow is zeroized when its last operation has ended (Table 10-2). -/
def dropShadow (i : Nat) (s : State) : State :=
  onSlot i (fun k =>
    match k.state, k.shadow with
    | .shadowed, some g => if g.bound = 0 then { k with shadow := none, state := .live } else k
    | _, _ => k) s

/-- An operation bound to a generation has ended: it gives its reservations back and its binding up (R241, R253). -/
def unbindGen (i num reserved : Nat) (s : State) : State :=
  dropShadow i (onGen i num (fun g => { g with bound := g.bound - 1, reserved := g.reserved - reserved }) s)

/-- The number of the next invocation of a generation: COUNTER_BASE + USED (R249). -/
def counterOf (g : Gen) : Nat := g.base + g.used

/-- One invocation of a generation has been assigned; a reserved one is used up first (R249, R253). -/
def useGen (i num : Nat) (fromReserve : Bool) (s : State) : State :=
  onGen i num (fun g => { g with used := g.used + 1, reserved := if fromReserve then g.reserved - 1 else g.reserved }) s

/-- One invocation has completed (Table 10-11); the count wraps at 2^64. -/
def countInv (s : State) : State := s.onCupola fun c => { c with cntInv := (c.cntInv + 1) % 2 ^ 64 }

/-- The IV of an invocation: mount nonce and counter, most significant byte first (R249). -/
def invIv (s : State) (counter : Nat) : Bytes := be 4 s.cupola.nonce.toNat ++ be 8 counter

/-- The key of a generation for a CIPHER: the slot key, or the media-bound key of the mounted cartridge (R251). -/
def cipherKey (s : State) (cipher : Nat) (g : Gen) : Bytes :=
  if cipher = 2 then
    match s.drive.vol with
    | some v => mediaKey g.key v.tapeId v.serial
    | none => g.key
  else g.key

/-- Hold the media-bound key beside its generation, once it has been derived (R251). -/
def holdDerived (i num cipher : Nat) (s : State) : State :=
  if cipher = 2 then
    match genOf s i num with
    | some g => onGen i num (fun x => { x with derived := some (cipherKey s 2 g) }) s
    | none => s
  else s

/-- A slot's current generation carries this KEY_ID and TAPE. -/
def qualifies (s : State) (keyId : Bytes) (i : Nat) : Bool :=
  match curGen s i with
  | some g => g.keyId == keyId && useTape g
  | none => false

/-- The slot that decrypts a data set, for byte 5 of the command: the lowest that qualifies, or the one named (R252). -/
def decryptSlot (s : State) (byte5 : Nat) (keyId : Bytes) : Option Nat :=
  if byte5 < 64 then (if qualifies s keyId byte5 then some byte5 else none) else firstIdx 64 (qualifies s keyId)

/-- How a WRITE or WRITE_MARK with this byte 5 is encrypted under a floor, or the status it completes with (R248). -/
def writeSel (s : State) (byte5 floor : Nat) : Except Nat CipherSel :=
  if byte5 = 0xFF then .ok ⟨0, 0xFF, 0⟩
  else
    match curGen s byte5 with
    | none => .error 0x0305
    | some g =>
      if !useTape g then .error 0x0305
      else if useBind g && decide (floor < 0x11) then .error 0x0101
      else .ok ⟨if useBind g then 2 else 1, byte5, g.num⟩

/-- Invocations a WRITE reserves for the raw lengths of its blocks (R253): N_max. -/
def reserveFor (lengths : List Nat) : Nat := ((lengths.map (· + 16)).sum + 921343) / 921344 + 1

/-- A generation has room for this many more invocations beside what other writes have reserved (R253). -/
def hasRoom (g : Gen) (n : Nat) : Bool := decide (g.used + g.reserved + n ≤ g.limit)

/-! ## Loading a key (R243, R244) -/

/-- The generation that a wrapped plaintext of 96 bytes describes, when every field follows its rule (Table 10-4). -/
def genFrom (loadSeq num : Nat) (p : Bytes) : Option Gen :=
  let limit := field p 80 4
  let base := field p 72 8
  let use := field p 84 2
  if p.length = 96 ∧ !allZero (slice p 32 32) ∧ field p 64 8 = loadSeq ∧ base + limit ≤ 2 ^ 64 - 1 ∧ 1 ≤ limit ∧ limit ≤ 2 ^ 31 ∧
      1 ≤ use ∧ use ≤ 15 ∧ allZero (slice p 86 10) then
    some { num := num, key := slice p 0 32, keyId := slice p 32 32, use := BitVec.ofNat 16 use, limit := limit, base := base,
           used := 0, bound := 0, reserved := 0, derived := none }
  else none

/-- The plaintext that a key-load block wraps, or none when it is rejected (R243). -/
def keyLoadPlain (s : State) (source kekSlot : Nat) (block : Bytes) : Option Bytes :=
  if source = 0 then
    match s.keep.transport with
    | none => none
    | some (x, k) =>
      let hostPub := slice block 0 32
      if allZero (Config.x25519 x hostPub) then none
      else
        kwpUnwrap (transportKek x (Config.x25519Public x) k (Config.mlkemPublic k) hostPub (slice block 32 1088)) (slice block 1120 104)
  else
    match curGen s kekSlot with
    | some g => if useKek g then kwpUnwrap g.key (slice block 0 104) else none
    | none => none

/-- Read-ahead plaintext that a slot decrypted is discarded, with the packets that depend on it; its ciphertext has gone with the decryption,
so the tape is read again when it is needed (R132, R133, R260). -/
def discardPlain (i : Nat) (s : State) : State :=
  let lost := s.rd.sets.filter fun r => r.keySlot == some i
  let gone := lost.map (·.n)
  s.onRd fun r => { r with
    sets := r.sets.filter (fun x => x.keySlot != some i), holes := r.holes ++ lost.map (fun x => (x.n, x.wrap, x.slot)),
    packets := r.packets.filter fun k => !(k.deps.any fun n => gone.contains n) }

/-- Install a new generation in a slot (Table 10-2). -/
def installGen (i : Nat) (g : Gen) (s : State) : State :=
  discardPlain i (onSlot i (fun k =>
    match k.cur with
    | some c =>
      if 0 < c.bound then { k with state := .shadowed, shadow := some c, cur := some g, lastGen := g.num }
      else { k with state := .live, shadow := none, cur := some g, lastGen := g.num }
    | none => { k with state := .live, shadow := none, cur := some g, lastGen := g.num }) s)

/-! ## The context store (R258, R267) -/

/-- The context of an open handle. -/
def ctxOf (s : State) (h : Nat) : Option CryptCtx := s.cupola.ctxs.find? fun c => c.handle == h

/-- The lowest handle that is not open (R267). -/
def freeHandle (s : State) : Option Nat := ((List.range 255).map (· + 1)).find? fun h => (ctxOf s h).isNone

/-- Close a handle and forget its context (R267). -/
def dropCtx (h : Nat) (s : State) : State :=
  (s.onCupola fun c => { c with ctxs := c.ctxs.filter (fun x => x.handle != h), spilled := c.spilled.filter fun x => x.1 != h }).onKeep
    fun k => { k with spillLatest := k.spillLatest.filter fun x => x.1 != h }

/-- Contexts that the on-die store holds (CUP_CTX.ONDIE). -/
def onDie (c : Cupola) : Nat := c.ctxs.length - c.spilled.length

/-- The context record of an operation between segments (Table 10-6). A CMAC holds back one whole block, whose length of 16 stands in byte 56
[DED 178]. -/
def ctxRecord (x : CryptCtx) : Bytes :=
  [BitVec.ofNat 8 x.mode, BitVec.ofNat 8 (x.dir.toNat + 2 * (if x.segments = 1 then 1 else 2)), BitVec.ofNat 8 x.slot,
    BitVec.ofNat 8 x.handle] ++ le 4 x.gen ++ fit 16 x.chain ++ fit 16 x.ghash ++ fit 16 x.held ++ le 1 x.held.length ++ le 1 x.segments ++
    zeros 6 ++ le 8 x.aadBits ++ le 8 x.textBits ++ fit 12 x.iv ++ zeros 36

/-- The context that a record holds; the queue and the host ranges of the handle are the formatter's own. -/
def ctxOfRecord (x : CryptCtx) (r : Bytes) : CryptCtx :=
  { x with
    mode := field r 0 1, dir := (field r 1 1).testBit 0, slot := field r 2 1, gen := field r 4 4, chain := slice r 8 16,
    ghash := slice r 24 16, held := slice r 40 (field r 56 1), segments := field r 57 1, aadBits := field r 64 8, textBits := field r 72 8,
    iv := if field r 0 1 = 1 then slice r 80 12 else [] }

/-- Bytes 0 to 31 of a spilled context: the associated data (R258). -/
def spillHead (handle serial : Nat) : Bytes := ascii "CUPX" ++ le 1 handle ++ zeros 3 ++ le 8 serial ++ zeros 16

/-- The IV of a spill under its serial (R258). -/
def spillIv (serial : Nat) : Bytes := zeros 4 ++ be 8 serial

/-- A context wrapped under the context KEK (R258). -/
def spillWrap (kek : Bytes) (serial : Nat) (x : CryptCtx) : Bytes :=
  let e := gcmEncrypt kek (spillIv serial) (spillHead x.handle serial) (ctxRecord x)
  spillHead x.handle serial ++ e.1 ++ e.2

/-- What a spilled context leaves beside its record: which handle it is, its queue and the host ranges it has written. -/
def spilledStub (x : CryptCtx) : CryptCtx :=
  { x with chain := [], ghash := [], held := [], iv := [], aadBits := 0, textBits := 0, segments := 0 }

/-- Spill the least recently used idle context while more than 64 are on the die, under the next spill serial, which the Keep holds as the
handle's latest (R258). -/
def spill (s : State) : State :=
  if onDie s.cupola ≤ 64 then s
  else
    match (s.cupola.ctxs.reverse.find? fun x => !(s.cupola.spilled.any fun y => y.1 == x.handle)) with
    | some x =>
      (s.onCupola fun c => { c with
        ctxs := c.ctxs.map (fun y => if y.handle = x.handle then spilledStub y else y),
        spilled := c.spilled ++ [(x.handle, spillWrap (s.keep.ctxKek.getD []) s.keep.spillSerial x)] }).onKeep fun k =>
        { k with spillSerial := (k.spillSerial + 1) % 2 ^ 64, spillLatest := k.spillLatest ++ [(x.handle, k.spillSerial)] }
    | none => s

/-- The context of an operation that resumes: the one on the die, or the record of a spilled one; a record whose tag fails (reason 0) or whose
serial is not the latest (reason 1) is rejected (R258). -/
def resumeCtx (s : State) (x : CryptCtx) : Except Nat CryptCtx :=
  match s.cupola.spilled.find? fun y => y.1 == x.handle with
  | none => .ok x
  | some y =>
    let serial := field y.2 8 8
    match gcmDecrypt (s.keep.ctxKek.getD []) (spillIv serial) (y.2.take 32) (slice y.2 32 128) (slice y.2 160 16) with
    | none => .error 0
    | some r => if assoc s.keep.spillLatest x.handle (2 ^ 64) = serial then .ok (ctxOfRecord x r) else .error 1

/-- Put a context in as the most recently used (R258). -/
def putCtx (x : CryptCtx) (s : State) : State := spill ((dropCtx x.handle s).onCupola fun c => { c with ctxs := x :: c.ctxs })

/-- A handle closes other than by a passing tag: the output of every segment of a GCM decryption is zeroed (R267). The zeros go
out through the active port of the handle's queue. -/
def closeHandle (h : Nat) (s : State) : State :=
  match ctxOf s h with
  | none => s
  | some x =>
    let s1 := dropCtx h s
    if x.mode = 1 ∧ x.dir then
      match qpOf s x.qid with
      | some qp => (match queuePath s qp with | some p => emitWrites p (zeroWrites x.writes) s1 | none => s1)
      | none => s1
    else s1

/-- Close every handle of a queue (R267). -/
def closeQueueHandles (q : Nat) (s : State) : State :=
  forEach (s.cupola.ctxs.filter fun x => x.qid == q) (fun x => closeHandle x.handle) s

/-- Close every handle under a slot's key (R260). -/
def closeSlotHandles (i : Nat) (s : State) : State :=
  forEach (s.cupola.ctxs.filter fun x => x.slot == i) (fun x => closeHandle x.handle) s

end Sys2Proof.Machine
end

