-- ==== Sys2Proof/Machine/Link.lean ====
section
/-! DEFINITION. The head link's outbound side: packets with their CRC-24 (R207), commands (R212), permit tokens (R216), the live lanes
and the capacity of a group (R221 to R225). -/

namespace Sys2Proof.Machine

/-- The low n bits of a number, least significant first. -/
def bitsLsb (n x : Nat) : List Bool := (List.range n).map fun i => x.testBit i

/-- CRC-24 of a packet: header bits 0 to 39, then the payload bits in wire order (R207). -/
def hlCrc (low : Nat) (payload : List (BitVec 64)) : Nat :=
  crc24 (bitsLsb 40 low ++ payload.flatMap fun w => bitsLsb 64 w.toNat)

/-- The header block of a packet: TYPE in bits 3:0, the fields from bit 4, CRC-24 in bits 63:40 (R207). -/
def hlHeader (type fields : Nat) (payload : List (BitVec 64)) : BitVec 64 :=
  let low := type + 16 * (fields % 2 ^ 36)
  BitVec.ofNat 64 (low + hlCrc low payload * 2 ^ 40)

/-- The payload blocks of each TYPE, none for a reserved TYPE (Table 08-1). -/
def hlBlocks (type : Nat) : Option Nat :=
  match type with
  | 0 => some 0
  | 1 => some 25
  | 2 => some 4
  | 3 => some 1
  | 4 => some 1
  | 8 => some 25
  | 9 => some 0
  | 10 => some 1
  | _ => none

/-- A group. -/
def hlGroup (s : State) (g : Nat) : Group := getAt s.hlk.groups g {}

/-- Apply f to a group. -/
def onGroup (g : Nat) (f : Group → Group) (s : State) : State := s.onHlk fun h => { h with groups := updAt h.groups g f }

/-- Outbound lanes that are live. -/
def txLanes (k : Group) : List Nat := (List.range 2).filter fun j => k.txLive.getLsbD j

/-- One bit through the self-synchronous scrambler x⁵⁸ + x³⁹ + 1: its register, newest bit lowest, and the bit sent (R206). -/
def scrambleBit (r : BitVec 58) (b : Bool) : BitVec 58 × Bool :=
  let o := (b != r.getLsbD 38) != r.getLsbD 57
  (r <<< 1 ||| (if o then 1 else 0), o)

/-- A 66-bit block on the wire, its first bit lowest: the sync header, 0b10 for a header block and 0b01 for a payload block with the first
bit on the left, then the 64 scrambled bits, bit 0 first (R206). -/
def lineBlock (r : BitVec 58) (head : Bool) (w : BitVec 64) : BitVec 58 × BitVec 66 :=
  let st := (List.range 64).foldl (fun (a : BitVec 58 × Nat) i =>
    let x := scrambleBit a.1 (w.getLsbD i)
    (x.1, if x.2 then a.2 + 2 ^ i else a.2)) (r, 0)
  (st.1, BitVec.ofNat 66 ((if head then 1 else 2) + 4 * st.2))

/-- The blocks of a packet on the wire, and the scrambler after them (R206, R207). -/
def lineBlocks (r : BitVec 58) (header : BitVec 64) (payload : List (BitVec 64)) : BitVec 58 × List (BitVec 66) :=
  let h := lineBlock r true header
  payload.foldl (fun a w => let b := lineBlock a.1 false w; (b.1, a.2 ++ [b.2])) (h.1, [h.2])

/-- Send one packet on an outbound lane: its blocks and what the wire carries of them (R206, R207). -/
def hlSend (g : Fin 8) (lane type fields : Nat) (payload : List (BitVec 64)) (s : State) : State :=
  let h := hlHeader type fields payload
  let l := lineBlocks (getAt (hlGroup s g).scr lane 0) h payload
  emit (.headLink g lane h payload l.2) (onGroup g (fun k => { k with scr := putAt k.scr lane l.1 }) s)

/-! ## Indices to apply commands at (R212) -/

/-- How far ahead of now an indexed command's APPLY lies, µs: R212 asks for 2 at least (log 158). -/
abbrev applyAhead : Rat := 4

/-- SIDX of a group's ADC clock some µs from now, by the rate commanded since it was last known (R209, R212). -/
def sidxIn (s : State) (g : Nat) (us : Rat) : Nat :=
  let k := hlGroup s g
  (⌈(k.sidx : Rat) + s.hlk.adc * (((s.power.time : Rat) - k.sidxAt) / usTicks + us)⌉).toNat % 2 ^ 24

/-- The write-clock index of a group some µs from now (R212, R214). -/
def widxIn (s : State) (g : Nat) (us : Rat) : Rat :=
  let k := hlGroup s g
  max 0 (k.widx + s.hlk.wclk * (((s.power.time : Rat) - k.widxAt) / usTicks + us))

/-- Send one command to a group on its lowest live outbound lane, under the next CSEQ (R212). -/
def hlCommand (g : Fin 8) (cmd apply : Nat) (payload : Nat) (s : State) : State :=
  let k := hlGroup s g
  match txLanes k with
  | [] => s
  | lane :: _ =>
    let n := k.cseq + 1
    hlSend g lane 0xA (cmd % 256 + apply % 2 ^ 24 * 2 ^ 8 + n.toNat * 2 ^ 32) [BitVec.ofNat 64 payload] (onGroup g (fun k => { k with cseq := n }) s)

/-- The groups in UP. -/
def upGroups (s : State) : List (Fin 8) :=
  ([0, 1, 2, 3, 4, 5, 6, 7] : List (Fin 8)).filter fun g => (hlGroup s g).state == .up

/-- One permit token on each live outbound lane of a group, TSEQ counting them (R216). -/
def permitToken (g : Fin 8) (s : State) : State :=
  forEach (txLanes (hlGroup s g)) (fun lane t =>
    let n := (getAt (hlGroup t g).tseq lane 0).toNat
    onGroup g (fun k => { k with tseq := updAt k.tseq lane (· + 1) }) (hlSend g lane 9 n [] t)) s

/-- One token with HALT on each live outbound lane of a group (R216). -/
def haltToken (g : Fin 8) (s : State) : State :=
  forEach (txLanes (hlGroup s g)) (fun lane t =>
    hlSend g lane 9 ((getAt (hlGroup t g).tseq lane 0).toNat + 2 ^ 8) [] t) s

/-- Capacity of L live inbound lanes of a group, in 0.1 MS/s (R222). -/
def laneCapacity (g l : Nat) : Nat := 43597 * l - (if (g = 0 ∨ g = 7) ∧ 0 < l then 761 else 0)

/-- The cap of a group: 4,096ths of full speed, 0 below two lanes (R223, Table 08-6). -/
def groupCap (g : Nat) (k : Group) : Nat :=
  let l := popcount k.rxLive
  if k.state ≠ .up ∨ l < 2 then 0 else min 4096 (4096 * laneCapacity g l / 294400)

/-- A group is failed: fewer than 2 live inbound lanes, no live outbound lane, in DOWN, or not enabled; a group in training is not
(R225). -/
def groupFailed (s : State) (g : Nat) : Bool :=
  let k := hlGroup s g
  if !s.hlk.groupEn.getLsbD g then true
  else match k.state with
    | .down => true
    | .up => decide (popcount k.rxLive < 2) || k.txLive == 0
    | .cdr | .block | .ident | .config => false

/-- Some group is failed (R225). -/
def anyGroupFailed (s : State) : Bool := (List.range 8).any (groupFailed s)

/-- The lowest cap of the groups in UP; 0 with none in UP (R223). -/
def linkCap (s : State) : Nat :=
  match (upGroups s).map (fun (g : Fin 8) => groupCap g.val (hlGroup s g)) with
  | [] => 0
  | c :: cs => cs.foldl min c

/-- K for a group with L live lanes at a measured speed (R222). -/
def shedFor (g l : Nat) (v : Rat) : Nat :=
  if v = 0 then 0
  else
    let need : Rat := 294400 * absRat v / (339 / 100)
    128 - (⌊128 * (laneCapacity g l : Rat) / need⌋).toNat

/-- RATE of a rate command for a frequency in MHz, to the nearest step (R213). -/
def rateOf (mhz : Rat) : Nat := (⌊mhz / (625 / 4) * 8388608 + 1 / 2⌋).toNat

/-- LANE_MAP of a group's live lanes, in the front-end's own lane numbers (Table 08-3). -/
def laneMap (k : Group) : Nat :=
  let rx := (List.range 8).foldl (fun m j => if k.rxLive.getLsbD j then m ||| 2 ^ getAt k.laneNo j 0 else m) 0
  rx + k.txLive.toNat * 2 ^ 8

end Sys2Proof.Machine
end

