-- ==== Sys2Proof/Machine/Inhibit.lean ====
section
/-! DEFINITION. The write inhibit: its sources, what a stop of the tokens does to the slots committed, and the resume (R105 to R107). -/

namespace Sys2Proof.Machine

/-- The bit of a source in ECC_WINH_STAT (Table 04-4). -/
def sourceBit : InhibitSource → Nat
  | .pes => 0
  | .shock => 1
  | .accel => 2
  | .feedback => 3
  | .handover => 4
  | .speed => 5
  | .motFault => 6
  | .hlkTx => 7
  | .wedge => 8
  | .alarm => 9
  | .power => 10

/-- ECC_WINH_CFG.SHOCK_HOLD in ticks, and PES_GOOD in effect (R97). -/
def shockHold (s : State) : Nat := usTicks * bits s.ecc.winhCfg.toNat 0 16
def pesGoodNeed (s : State) : Nat := max 8 (bits s.ecc.winhCfg.toNat 16 4)

/-- The slot interval T in ticks at a measured speed: 45.139 µs at 3.39 m/s (R91). -/
def slotTicks (v : Rat) : Rat := divRat (4512 * 188608 / 188528 * (339 / 100)) (absRat v)

/-- The least and the greatest write delay in force, as offsets from 9,000 bits, in ticks at a measured speed (R92). -/
def delayTicks (s : State) : Rat × Rat :=
  let ds := s.tiles.wdly.toList
  let lo := ds.foldl min 288000
  let hi := ds.foldl max 0
  let f := fun (d : Nat) => divRat (((d : Rat) - 144000) / 16 / 2 * (339 / 100)) (absRat s.stp.v)
  (f lo, f hi)

/-- The first and the last moment at which a commit's frame is being written: its reference start is two slot intervals after its
commit point (R90, R91). -/
def emission (s : State) (c : Commit) : Rat × Rat :=
  let t := slotTicks s.stp.v
  let d := delayTicks s
  (c.point + 2 * t + d.1, c.point + 3 * t + d.2)

/-- From the detection of an inhibit to the last moment at which a writer can still be on: 1.0 µs and 2.1 µs (R105). -/
abbrev cutoffTicks : Rat := 310

/-- The commit had started by the end of the cutoff (R90). -/
def commitStarted (s : State) (c : Commit) : Bool := decide ((emission s c).1 < (s.power.time : Rat) + cutoffTicks)

/-- A writer was emitting the commit's frame within the cutoff (R107). -/
def commitHit (s : State) (c : Commit) : Bool :=
  commitStarted s c && decide ((s.power.time : Rat) < (emission s c).2)

/-- The staged data set of this staging number. -/
def stagedSet (s : State) (id : Nat) : Option DataSet := s.wr.sets.find? fun d => d.id == id

/-- Apply f to a staged data set. -/
def onSet (id : Nat) (f : DataSet → DataSet) (s : State) : State :=
  s.onWr fun w => { w with sets := mapIf (fun d => d.id == id) f w.sets }

/-- A rewrite of a staged data set becomes pending, once (R98, R99). -/
def needRewrite (id : Nat) (s : State) : State :=
  if s.wr.rewrites.contains id then s
  else s.onWr fun w => { w with rewrites := w.rewrites ++ [id] }

/-- An entry of the recovery report (Table 12-6). -/
def reportEntry (first last part kind n : Nat) : Bytes := le 8 first ++ le 8 last ++ le 1 part ++ le 1 kind ++ le 6 n ++ zeros 8

/-- What the tape holds at a slot. -/
def tapeAt (s : State) (wrap slot : Nat) : Option TapeSlot :=
  match s.drive.cart with
  | some c => c.slots.find? fun t => t.wrap == wrap && t.slot == slot
  | none => none

/-- Apply f to what the tape holds. -/
def onTape (f : List TapeSlot → List TapeSlot) (s : State) : State :=
  s.onDrive fun d => { d with cart := d.cart.map fun c => { c with slots := f c.slots } }

/-- A data set that is no longer staged has lost a copy: it is not rewritten but recorded and reported (R16). The report names the
first LON of its descriptor. -/
def lostAfterRelease (c : Commit) (s : State) : State :=
  match tapeAt s s.wr.wrap c.slot with
  | none => s
  | some t =>
    let p := t.n / 2 ^ 46 % 4
    let lon := field t.payload 16 8
    (lantern 0x0031 (le 6 t.n ++ le 1 p) s).onLantern fun l => { l with report := l.report ++ [reportEntry lon lon p 2 t.n] }

/-- A data set whose copy an inhibit affected is rewritten, unless a copy has passed (R99, R107). -/
def hitCommit (c : Commit) (s : State) : State :=
  match stagedSet s c.id with
  | some d => if d.stage = .passed then s else needRewrite c.id s
  | none => lostAfterRelease c s

/-- What a stop of the tokens does to the commits (R107): those hit stay on tape in part and are rewritten, those not started give
their slots up, are not counted as written (R97), and are written again first, in their order. -/
def cutCommits (s : State) : State :=
  let late := s.wr.commits.filter fun c => !commitStarted s c
  let hit := s.wr.commits.filter fun c => commitHit s c && !c.affected
  let first := late.filter fun c => !c.rewritten
  let s1 := s.onWr fun w => { w with
    commits := (w.commits.filter (commitStarted s)).map fun c => if commitHit s c then { c with affected := true } else c,
    requeued := w.requeued ++ first.map (·.id),
    rewrites := (late.filter (·.rewritten)).map (·.id) ++ w.rewrites,
    resumeAt := match late with | c :: _ => min c.slot w.resumeAt | [] => w.resumeAt,
    history := w.history.drop late.length }
  let s2 := forEach first (fun c => onSet c.id fun d => { d with stage := .encoded })
    (s1.onEcc fun e => { e with cntRewrite := e.cntRewrite - late.countP (·.rewritten) })
  let s3 := onTape (fun ts => (ts.filter fun t => !(t.wrap == s.wr.wrap && late.any fun c => c.slot == t.slot)).map fun t =>
    if t.wrap = s.wr.wrap ∧ hit.any (fun c => c.slot == t.slot) then { t with whole := false } else t) (forEach hit hitCommit s2)
  s3.onTiles fun k => { k with wfifo := Vector.replicate 1024 [], wfifoAt := Vector.replicate 1024 0 }

/-- N of the data set committed last, 0 with none. -/
def nInHand (s : State) : Nat :=
  match s.wr.commits.getLast? with
  | some c => (match stagedSet s c.id with | some d => d.n.getD 0 | none => 0)
  | none => 0

/-- The tokens stop: HALT goes out, and the commits are sorted out (R105, R107, R216). -/
def stopTokens (s : State) : State :=
  if s.wr.tokens then
    forEach (upGroups s) haltToken (cutCommits (s.onWr fun w => { w with tokens := false }))
  else s

/-- A source of Table 04-4 becomes active (R105): tokens stop; the entry is counted and recorded when no other source was active.
After ALARM or POWER nothing resumes before the next start (R106). -/
def inhibitOn (src : InhibitSource) (s : State) : State :=
  let i := sourceBit src
  if s.wr.sources.getLsbD i then s
  else
    let fresh := decide (s.wr.sources = 0)
    let s1 := s.onWr fun w => { w with
      sources := setBit w.sources i true, inhibited := true,
      noResume := w.noResume || src == .alarm || src == .power }
    if fresh then
      let s2 := stopTokens (s1.onEcc fun e => { e with cntInhibit := inc e.cntInhibit })
      lantern 0x0030 (le 2 s1.wr.sources.toNat ++ le 6 (nInHand s)) s2
    else s1

/-- A source clears; a shock source leaves a hold-off behind (R106). -/
def inhibitOff (src : InhibitSource) (s : State) : State :=
  let i := sourceBit src
  if s.wr.sources.getLsbD i then
    s.onWr fun w => { w with
      sources := setBit w.sources i false,
      holdUntil := if src = .shock ∨ src = .accel then some (max (w.holdUntil.getD 0) (s.power.time + shockHold s)) else w.holdUntil }
  else s

/-- A source that is raised while a condition holds. -/
def inhibitIf (src : InhibitSource) (b : Bool) (s : State) : State := if b then inhibitOn src s else inhibitOff src s

/-- Everything R106 asks for but the hold-off: no source active, no ban, and PES_GOOD met. -/
def mayResume (s : State) : Bool :=
  s.wr.inhibited && decide (s.wr.sources = 0) && !s.wr.noResume && decide (pesGoodNeed s ≤ s.wr.pesGood)

/-- Writing is free of an inhibit (R106). -/
def writeFree (s : State) : Bool := !s.wr.inhibited && decide (s.wr.sources = 0) && !s.wr.noResume

/-- The slot whose commit point is the first at or after now, counted from the last commit point (R106). -/
def nextCommitSlot (s : State) : Nat :=
  match s.wr.anchor with
  | none => s.wr.slot
  | some (slot, point) =>
    let k := ⌈((s.power.time : Rat) - point) / slotTicks s.stp.v⌉
    max s.wr.slot (slot + k.toNat)

/-- Tokens flow again: a permit token goes out first, and the slots passed over meanwhile stay unwritten (R107, R216). -/
def resumeTokens (s : State) : State :=
  let s1 := s.onWr fun w => { w with inhibited := false, holdUntil := none, tokens := true, slot := nextCommitSlot s }
  forEach (upGroups s1) permitToken s1

end Sys2Proof.Machine
end

