-- ==== Sys2Proof/Machine/TileOps.lean ====
section
/-! DEFINITION. The read channels as a set: one channel's state, what takes channels to ANCHOR_WAIT (R152, R161, R222), the module in use
(R136, R161), and the taps a channel starts from (R162, R164). -/

namespace Sys2Proof.Machine

/-- A channel. -/
def chanOf_ (s : State) (c : Nat) : Chan := getAt s.tiles.chans c {}

/-- Apply f to a channel. -/
def onChan (c : Nat) (f : Chan → Chan) (s : State) : State := s.onTiles fun k => { k with chans := updAt k.chans c f }

/-- Apply f to every channel, with its number. -/
def onChans (f : Nat → Chan → Chan) (s : State) : State := s.onTiles fun k => { k with chans := k.chans.mapIdx f }

/-- A channel waits for an anchor: what it knew of frames and bits goes, its taps and f stay (R152, R161). -/
def anchorWait (k : Chan) : Chan :=
  { k with
    state := .anchorWait, lock := false, anchored := false, frameAt := none, syncAt := none, resyncAt := none, syncMissed := false,
    replayA := false, wedgeBit := none, lockFrom := 0,
    lostSlot := none, slips := 0, wedgeMiss := 0, wedgeOfs := none, hold := [], dropNext := 0, acqBits := 0, llrs := [], llrDef := [] }

/-- The module that verifies a wrap, and reads it (R136): 0 on forward wraps, 1 on reverse wraps. -/
def moduleOf (wrap : Nat) : Nat := wrap % 2

/-- The serial number of the head that the Steeple table names. -/
def headSerialOf (s : State) : Bytes :=
  match getAt s.trust.tables 1 none with
  | some t => Config.headSerial t.2
  | none => []

/-- The taps a channel starts from: those saved for this head and module, else those of the schedule, else 1.0 on tap 6 (R162, R164). -/
def startTaps (s : State) (m c : Nat) : Vector Rat 13 :=
  match (if s.tiles.tapsHead = headSerialOf s then s.tiles.savedTaps else []).find? fun e => e.1 == m && e.2.1 == c with
  | some e => e.2.2
  | none =>
    match getAt s.trust.tables 0 none with
    | some t => Vector.ofFn fun j : Fin 13 => (signed 16 (field t.2 (2048 + 26 * (1024 * m + c) + 2 * j.val) 2) : Rat) / 256
    | none => (default : Vector Rat 13).mapIdx fun j _ => if j = 6 then 1 else 0

/-- A channel begins afresh: it keeps f, and waits for its timing and for an anchor (R140, R161). -/
def freshChan (taps : Vector Rat 13) (k : Chan) : Chan :=
  { anchorWait k with
    taps := taps, t := 0, sampNo := 0, phases := [], bitNo := 0, vs := [], uTail := [], ys := [], zs := [], us := [], defs := [], unlocked := [], zPend := 0, bits := [], errs := [],
    sq := [], sinceAcq := 0, lowRun := 0, cleanRun := 0, defLen := 0, defect := false, eTau := 0 }

/-- Frames, verify outcomes and arrivals of the pass before go; the module in use is used in this mount (R158, R164). -/
def startSlots (s : State) : State :=
  s.onTiles fun k => { k with
    asm := [], verifies := [], arrivals := [], deskewed := none,
    modulesUsed := k.module :: k.modulesUsed.filter (· != k.module) }

/-- Every channel begins afresh with the taps of the module in use: a run starts (R140, R152, R164). -/
def startChans (s : State) : State := onChans (fun c k => freshChan (startTaps s s.tiles.module c) k) (startSlots s)

/-- Every channel anchors and acquires afresh with the taps it has: a further pass of a run (R160). -/
def passChans (s : State) : State := onChans (fun _ k => freshChan k.taps k) (startSlots s)

/-- A retry begins: every channel notes its taps, g, ofs and beta (R144). -/
def keepValues (s : State) : State := onChans (fun _ k => { k with kept := some (s.tiles.module, k.taps, k.gain, k.ofs, k.beta) }) s

/-- A FREEZE attempt runs with what the channels noted as the retry began; another module's taps are those it starts from (R144, R161). -/
def frozenValues (s : State) : State :=
  onChans (fun _ k => match k.kept with
    | some (m, w, g, o, b) => { k with taps := if m = s.tiles.module then w else k.taps, gain := g, ofs := o, beta := b }
    | none => k) s

/-- What each channel has adapted under the module in use. -/
def tapsNow (s : State) : List (Nat × Nat × Vector Rat 13) :=
  s.tiles.chans.toList.mapIdx fun c k => (s.tiles.module, c, k.taps)

/-- The read channels take another module: the front-ends are told, the adapted taps are kept for UNMOUNT, the counters change with the module,
and every channel begins afresh (R161, R164, R165, Table 08-3). -/
def useModule (m : Nat) (s : State) : State :=
  if s.tiles.module = m then s
  else
    let s1 := s.onTiles fun k => { k with
      module := m, mountTaps := tapsNow s ++ k.mountTaps.filter fun e => e.1 != s.tiles.module }
    let s2 := onChans (fun c k => freshChan (startTaps s1 m c) { k with stats := k.otherStats, otherStats := k.stats, newModule := true }) s1
    forEach (upGroups s2) (fun g => hlCommand g 3 (sidxIn s2 g applyAhead) m) s2

/-- The channels serve no read run (Table 06-2). -/
def idleChans (s : State) : State := onChans (fun _ k => { anchorWait k with state := .idle }) s

/-- UNMOUNT saves the adapted taps of every channel for each module that a run has used, with the head's serial number (R164). -/
def saveTaps (s : State) : State :=
  let used := (tapsNow s ++ s.tiles.mountTaps.filter fun e => e.1 != s.tiles.module).filter fun e => s.tiles.modulesUsed.contains e.1
  let kept := if s.tiles.tapsHead = headSerialOf s then s.tiles.savedTaps.filter fun e => !(used.any fun u => u.1 == e.1) else []
  s.onTiles fun k => { k with savedTaps := used ++ kept, tapsHead := headSerialOf s, mountTaps := [], modulesUsed := [] }

/-- Channels from a to b − 1 of the whole set wait for an anchor. -/
def anchorRange (a b : Nat) (s : State) : State := onChans (fun i k => if a ≤ i ∧ i < b then anchorWait k else k) s

end Sys2Proof.Machine
end

