-- ==== Sys2Proof/Machine/SteepleOps.lean ====
section
/-! DEFINITION. Steeple's shared operations: the table's values (R180, R202), the control law (R179) and its hand-over (R191), the
motion link (R169), the loops of a servo sample (R183 to R188), the modes (R190), controlled stops (R196) and program faults
(R201). -/

namespace Sys2Proof.Machine

/-! ## The table in force (R202) -/

/-- The content of the Steeple table in force. -/
def stpTable (s : State) : Option Bytes := (getAt s.trust.tables 1 none).map (·.2)

/-- A named value of the table; 0 with none in force, when Steeple drives nothing. -/
def plantOf (s : State) (f : PlantField) : Rat := match stpTable s with | some b => Config.plant f b | none => 0

/-- The raw word w of law l in band j (R180, Table 07-11). -/
def coefWord (s : State) (l j w : Nat) : Nat :=
  match stpTable s with
  | some b => field b (0x0200 + 64 * (16 * l + j) + 4 * w) 4
  | none => 0

/-- A coefficient in Q4.27 (R180). -/
def coef (s : State) (l j w : Nat) : Rat := (signed 32 (coefWord s l j w) : Rat) / 2 ^ 27

/-- Step i of program g (Table 07-11). -/
def stepWord (s : State) (g i : Nat) : Nat :=
  match stpTable s with
  | some b => field b (0x2200 + 8 * (32 * g + i)) 8
  | none => 0

/-- x rounded to the nearest integer, halves up. -/
def roundRat (x : Rat) : Int := ⌊x + 1 / 2⌋

/-- x rounded to the nearest integer, halves away from zero (R92). -/
def roundAway (x : Rat) : Int := if x < 0 then -⌊-x + 1 / 2⌋ else ⌊x + 1 / 2⌋

/-! ## Sources toward the cores (Table 13-1) -/

/-- The event source of the instance that drives. -/
def stpEvent (s : State) : State := raise (if s.stp.st1 then 102 else 100) s

/-- The fault source of the instance that drives. -/
def stpFaultSource (s : State) : State := raise (if s.stp.st1 then 103 else 101) s

/-- The code of a mode (Table 07-8). -/
def modeCode : SteepleMode → Nat
  | .off => 0
  | .still => 1
  | .move => 2
  | .track => 3
  | .fbHold => 4
  | .fbStop => 5
  | .fault => 6

/-- Lantern record 0x0040 of a kind (Table 15-3). -/
def stpRecord (kind : Nat) (s : State) : State :=
  lantern 0x0040 [BitVec.ofNat 8 kind, BitVec.ofNat 8 (modeCode s.stp.mode), BitVec.ofNat 8 s.stp.program.prog,
    BitVec.ofNat 8 s.stp.program.fault] s

/-! ## The motion link (R169 to R171) -/

/-- A command frame: ADDR, CMD, VALUE and CRC-8 over bits 31:8 (Table 07-2). -/
def motionFrame (addr cmd : Nat) (value : Int) : BitVec 32 :=
  let top := addr * 2 ^ 20 + cmd * 2 ^ 16 + twos 16 value
  BitVec.ofNat 32 (top * 2 ^ 8 + crc8 (bitsMsb 24 top))

/-- Put a frame out to a stage; its response is to come (R169). -/
def driveFrame (i : Nat) (f : BitVec 32) (s : State) : State :=
  emit (.motion f) (s.onStp fun p => { p with stages := updAt p.stages i fun k =>
    { k with sent := k.sent ++ [f], sentAt := s.power.time } })

/-- Send a stage a command. What drew ACK = 0 before goes again in the stage's next frames, and the new command follows it (R171). -/
def sendMotion (i cmd : Nat) (value : Int) (s : State) : State :=
  let old := (getAt s.stp.stages i {}).again
  let s1 := s.onStp fun p => { p with
    cntLinkErr := incBy p.cntLinkErr old.length, stages := updAt p.stages i fun k => { k with again := [] } }
  driveFrame i (motionFrame i cmd value) (forEach old (driveFrame i) s1)

/-- Take enables low or drive them high (R171). -/
def setEnables (m : BitVec 5) (s : State) : State := s.onPins fun p => { p with motEn := m }

/-! ## The control law (R179) -/

/-- One biquad section on a new input. -/
def biquadStep (b0 b1 b2 a1 a2 x : Rat) (q : Biquad) : Rat × Biquad :=
  let y := b0 * x + b1 * q.x1 + b2 * q.x2 - a1 * q.y1 - a2 * q.y2
  (y, { x1 := x, x2 := q.x1, y1 := y, y2 := q.y1 })

/-- s of R179: the speed scaling of the block in force. -/
def lawScale (s : State) (l : Nat) : Rat :=
  let w := coefWord s l s.stp.band 15
  divRat (1000 * max (absRat s.stp.v) (1 / 10)) (bits w 16 16 : Rat) ^ (bits w 0 2)

/-- The proportional and derivative terms, the filtered error and the state behind them, before the integrator (R179). -/
structure LawTerms where
  x : Rat
  p : Rat
  st : LawState

/-- Filter the error and form the proportional and derivative terms (R179). -/
def lawTerms (s : State) (l : Nat) (e : Rat) : LawTerms :=
  let j := s.stp.band
  let c := coef s l j
  let st := getAt s.stp.laws l {}
  let f1 := biquadStep (c 5) (c 6) (c 7) (c 8) (c 9) e st.q1
  let f2 := biquadStep (c 10) (c 11) (c 12) (c 13) (c 14) f1.1 st.q2
  let x := f2.1
  let k := lawScale s l
  { x := x, p := k * c 0 * x,
    st := { st with q1 := f1.2, q2 := f2.2, dterm := c 3 * st.dterm + k * c 2 * (x - st.xPrev), xPrev := x } }

/-- One sample of a law in force: its output, with any hand-over ramp taken off, and the law's next state; t is the sample interval in
ms (R179, R191). -/
def lawStep (s : State) (l : Nat) (e acc ff rc t : Rat) (frozen : Bool) : Rat × LawState :=
  let r := lawTerms s l e
  let c := coef s l s.stp.band
  let umax := plantOf s (.umax l)
  let slew := plantOf s (.smax l) * t
  let lim := plantOf s (.ilim l)
  let st := r.st
  let sat := (decide (umax ≤ st.uLast) && decide (0 < r.x * c 1)) || (decide (st.uLast ≤ -umax) && decide (r.x * c 1 < 0))
  let integ := if frozen || sat then st.integ else clampRat (st.integ + lawScale s l * c 1 * r.x) (-lim) lim
  let u0 := clampRat (r.p + integ + st.dterm + c 4 * acc + ff + rc) (-umax) umax
  let u := clampRat u0 (st.uLast - slew) (st.uLast + slew)
  let ramp := if 0 < st.rampN then st.gap * (1 - (st.rampM : Rat) / st.rampN) else 0
  let ended := decide (st.rampN ≤ st.rampM)
  (u - ramp, { st with integ := integ, uLast := u, rampM := if ended then 0 else st.rampM + 1, rampN := if ended then 0 else st.rampN,
                       gap := if ended then 0 else st.gap })

/-- Put a law's state back. -/
def setLaw (l : Nat) (st : LawState) (s : State) : State := s.onStp fun p => { p with laws := putAt p.laws l st }

/-- A hand-over ramp is in progress in some loop. -/
def ramping (s : State) : Bool := s.stp.laws.toList.any fun l => decide (0 < l.rampN)

/-- Hand a loop over to a law whose error is e, from an output uPrev whose proportional and derivative terms were dOut (R191): the
incoming integrator is preset, and a gap that the slew limit cannot bridge is ramped out under HANDOVER. -/
def handOverFrom (uPrev dOut : Rat) (lin : Nat) (e ff rc t : Rat) (s : State) : State :=
  let b := lawTerms s lin e
  let slew := plantOf s (.smax lin) * t
  let lim := plantOf s (.ilim lin)
  let dIn := b.p + b.st.dterm
  let base := if absRat (dIn - dOut) ≤ slew then uPrev - dIn - ff - rc else uPrev - dOut - ff - rc
  let preset := if absRat (dIn - dOut) ≤ slew then clampRat base (-lim) lim else base
  let gap := if absRat (dIn - dOut) ≤ slew then preset - base else dIn - dOut
  let n := if gap = 0 then 0 else max 16 (min 256 (⌈divRat (absRat gap) slew⌉).toNat)
  let old := getAt s.stp.laws lin {}
  let s1 := setLaw lin { old with integ := preset, uLast := uPrev + gap, gap := gap, rampN := n, rampM := 0 } s
  if n = 0 then s1 else inhibitOn .handover (s1.onStp fun p => { p with cntHandover := inc p.cntHandover })

/-- Hand a loop over from one law to another for the same error (R191). -/
def handOver (lout lin : Nat) (e ff rc t : Rat) (s : State) : State :=
  let a := lawTerms s lout e
  handOverFrom a.st.uLast (a.p + a.st.dterm) lin e ff rc t s

/-! ## Set-points and modes (R189, R190, R196) -/

/-- The direction of motion: by an encoder that turns, else by the speed reference. -/
def forward (s : State) : Bool :=
  match s.stp.reels.toList.find? fun r => r.ok && r.cps != 0 with
  | some r => decide (0 < r.cps)
  | none => decide (0 ≤ s.stp.vRef)

/-- +1 forward, −1 in reverse. -/
def dirSign (s : State) : Rat := if forward s then 1 else -1

/-- A reel stands still by its encoder: no edge for 10 ms (log 40). -/
def reelStill (s : State) (r : Reel) : Bool := r.cps == 0 || decide (r.edgeAt + 10 * msTicks ≤ s.power.time)

/-- The tape stands still: no reference, no measured speed. -/
def tapeStopped (s : State) : Bool :=
  decide (s.stp.vRef = 0) && decide (absRat s.stp.v < 1 / 10) && s.stp.reels.toList.all fun r => !r.ok || reelStill s r

/-- The speed lies within 1 % of the set-point (R192). -/
def speedNear (s : State) : Bool := decide (absRat (s.stp.v - s.stp.vSet) ≤ absRat s.stp.vSet / 100)

/-- The speed that Weathervane asks for on a wrap: r × 3.39 m/s, negative on a reverse wrap (R189). -/
def weathervaneSpeed (s : State) : Rat :=
  let m : Rat := (s.wvn.r : Rat) / 4096 * (339 / 100)
  let w := match s.wvn.run with
    | .reading | .retry => s.rd.wrap
    | .writing | .none => s.wr.wrap
  if w % 2 = 0 then m else -m

/-- A new speed set-point and the acceleration toward it, in m/s² (R186, R189). -/
def putSpeed (v a : Rat) (s : State) : State :=
  s.onStp fun p => { p with vSet := v, vAcc := a, speedOk := false, speedFrames := 0 }

/-- A speed set-point of a program's step or of Weathervane: the profile of a controlled stop governs before either (Table 07-7). -/
def setSpeed (v a : Rat) (s : State) : State := if s.stp.stopping.isSome then s else putSpeed v a s

/-- A_STOP and A_TRACK in m/s². -/
def aStop (s : State) : Rat := plantOf s .aStop / 1000
def aTrack (s : State) : Rat := plantOf s .aTrack / 1000

/-- Enter a mode. -/
def setMode (m : SteepleMode) (s : State) : State := s.onStp fun p => { p with mode := m }

/-- A table that waits for OFF comes into force: the saved calibration of tilt and the controllers' memories go (R177, R188, R202). -/
def installSteeple (s : State) : State :=
  match s.trust.steepleNext with
  | none => s
  | some t =>
    (s.onTrust fun k => { k with tables := putAt k.tables 1 (some t), steepleNext := none }).onStp fun p =>
      { p with thetaCal := 0, rc := Vector.replicate 4 (Vector.replicate 256 0) }

/-- Enter OFF: every enable goes low and a waiting table comes into force (R190, R202). -/
def enterOff (byFault : Bool) (s : State) : State :=
  installSteeple ((setEnables 0 s).onStp fun p => { p with
    mode := .off, offByFault := byFault, vSet := 0, vRef := 0, v := 0, stopping := none, brakeUntil := none,
    readers := Vector.replicate 4 {}, lposValid := false, bySrv := false, bandGap := 0,
    program := { p.program with running := false, due := none, waiting := false } })

/-- Begin a controlled stop at an acceleration in m/s²: v_ref goes to zero, tension is held, and the stop is counted and recorded
(R196). -/
def controlledStop (a : Rat) (s : State) : State :=
  stpRecord 0 ((putSpeed 0 a s).onStp fun p => { p with stopping := some a, cntStop := inc p.cntStop })

/-- A program fault: its code, a controlled stop at A_STOP, an event and a record (R201); the mode goes to STILL once the tape has
stopped (R190). -/
def programFault (code : Nat) (s : State) : State :=
  let s1 := s.onStp fun p => { p with program := { p.program with running := false, waiting := false, due := none, fault := code } }
  stpFaultSource (stpRecord 2 (controlledStop (aStop s1) s1))

/-- Enter FAULT: every enable low within 1 µs (R171, R190). -/
def enterFault (s : State) : State :=
  if s.stp.mode = .off then setEnables 0 s
  else (setEnables 0 s).onStp fun p => { p with
    mode := .fault, vSet := 0, vRef := 0, stopping := none, program := { p.program with running := false, due := none, waiting := false } }

/-- A motor fault (R171): on a reel stage, or with no stage known, the enables go low and FAULT is entered; on another stage its enable
goes low, the program in hand ends, and the tape is brought to a controlled stop. -/
def motorFault (stage : Option Nat) (s : State) : State :=
  let s1 := stpRecord 3 (inhibitOn .motFault s)
  match stage with
  | some i =>
    if 2 ≤ i then
      controlledStop (aStop s1) ((setEnables (setBit s1.pins.motEn i false) s1).onStp fun p => { p with
        program := { p.program with running := false, waiting := false, due := none } })
    else stpFaultSource (enterFault s1)
  | none => stpFaultSource (enterFault s1)

/-! ## One servo sample's loops (R183 to R188) -/

/-- Reader i serves the lower band (Table 07-1). -/
def lowerReader (i : Nat) : Bool := i % 2 == 0

/-- The lateral target of a reader, µm (R183). -/
def lateralTarget (s : State) (i : Nat) : Rat :=
  let b := s.stp.latWrap / 5
  let p := s.stp.latWrap % 5
  let m := i / 2
  let w := plantOf s .writerWidth
  let o : Rat := ((s.stp.latOfs + s.stp.retryOfs : Int) : Rat) / 100
  if s.stp.latRead then
    plantOf s (.yR b m) + (if p = 0 then w / 2 else if p = 4 then 2 + w / 2 else 1 / 4 + (p : Rat) / 2) + o
  else plantOf s (.yW b m) + (p : Rat) / 2 + o

/-- The mean of a list, 0 for none. -/
def meanRat (xs : List Rat) : Rat := if xs = [] then 0 else xs.sum / (xs.length : Rat)

/-- The usable readers' numbers. -/
def usableReaders (s : State) : List Nat := (List.range 4).filter fun i => (getAt s.stp.readers i {}).usable

/-- Mean e_r of the usable readers that a test picks. -/
def meanErr (s : State) (pick : Nat → Bool) : Rat :=
  meanRat (((usableReaders s).filter pick).map fun i => (getAt s.stp.readers i {}).err)

/-- Both servo bands have a usable reader. -/
def bothBands (s : State) : Bool := (usableReaders s).any lowerReader && (usableReaders s).any fun i => !lowerReader i

/-- The band that covers a speed: the edges are 0.5 × 2^(j/4), compared by fourth powers (R181). -/
def bandOfSpeed (v : Rat) : Nat := (List.range 16).countP fun j => decide (0 < j) && decide ((2 : Rat) ^ j ≤ (2 * v) ^ 4)

/-- The band for a speed: the one in force is left only once the speed has passed 1 % beyond its edge (R181). -/
def bandFor (cur : Nat) (v : Rat) : Nat :=
  let q := (2 * v) ^ 4
  if (decide (cur < 15) && decide ((2 : Rat) ^ (cur + 1) * (101 / 100) ^ 4 < q)) ||
      (decide (0 < cur) && decide (q < (2 : Rat) ^ cur * (99 / 100) ^ 4)) then bandOfSpeed v else cur

/-- The reel that the repetitive controller of a loop is keyed to (R188). -/
def keyReel (s : State) (loop : Nat) : Nat := if plantOf s (.rcReel loop) = 0 then 0 else 1

/-- The memory of a loop's controller for the direction of motion. -/
def rcMemory (s : State) (loop : Nat) : Nat := 2 * loop + (if forward s then 0 else 1)

/-- Bin of the key reel's count (R188). -/
def rcBinOf (s : State) (loop : Nat) : Nat :=
  let cpr := max 1 (⌊plantOf s .encCpr⌋).toNat
  let c := (getAt s.stp.reels (keyReel s loop) {}).count
  (256 * (c % (cpr : Int)).toNat / cpr) % 256

/-- rc of a loop: zero outside TRACK and FB_HOLD (R188). -/
def rcOut (s : State) (loop : Nat) : Rat :=
  match s.stp.mode with
  | .track | .fbHold =>
    let lead := (⌊plantOf s (.rcLead loop)⌋).toNat
    getAt (getAt s.stp.rc (rcMemory s loop) (Vector.replicate 256 0)) ((rcBinOf s loop + lead) % 256) 0
  | _ => 0

/-- The repetitive controllers may update now (R188). -/
def rcUpdates (s : State) (loop : Nat) : Bool :=
  s.stp.mode == .track && !ramping s && !s.wr.sources.getLsbD 1 && !s.wr.sources.getLsbD 2 &&
  (match s.wr.holdUntil with | some t => decide (t ≤ s.power.time) | none => true) &&
  (getAt s.stp.reels (keyReel s loop) {}).ok

/-- Add a filtered error to the bin in hand; a bin that is left is written into the memory (R188). -/
def rcFeed (loop : Nat) (x : Rat) (s : State) : State :=
  let i := rcBinOf s loop
  let (bin, sum, n) := getAt s.stp.rcBin loop (0, 0, 0)
  if bin = i then s.onStp fun p => { p with rcBin := putAt p.rcBin loop (i, sum + x, n + 1) }
  else
    let s1 := s.onStp fun p => { p with rcBin := putAt p.rcBin loop (i, x, 1) }
    if rcUpdates s loop && decide (0 < n) then
      let mem := getAt s.stp.rc (rcMemory s loop) (Vector.replicate 256 0)
      let m := fun (k : Nat) => getAt mem (k % 256) (0 : Rat)
      let lim := plantOf s (.rcLim loop)
      let new := clampRat (plantOf s (.rcQ0 loop) * m bin + plantOf s (.rcQ1 loop) * (m (bin + 255) + m (bin + 1)) +
        plantOf s (.rcG loop) * (sum / (n : Rat))) (-lim) lim
      s1.onStp fun p => { p with rc := updAt p.rc (rcMemory s loop) fun v => putAt v bin new }
    else s1

/-- The sample interval in ms: 100 µm / v, or 100 µs while no reader is usable (R178, R186). -/
def sampleMs (s : State) : Rat :=
  if (usableReaders s).isEmpty then 1 / 10 else 1 / (10 * max (absRat s.stp.v) (1 / 10))

/-- Both reel loops' speed measurement goes over to another source: the reel law is handed over to itself (R191). -/
def speedHandOver (s : State) : State :=
  let d := dirSign s
  handOver 4 4 (d * (s.stp.vRef - s.stp.v)) 0 (rcOut s 1) (sampleMs s) s

/-- The loops run: in every mode but OFF and FAULT. -/
def driving (s : State) : Bool := s.stp.mode != .off && s.stp.mode != .fault

/-- The speed is measured from now on by the servo pattern, or by the encoders; a change while the loops run is handed over (R176,
R191). -/
def speedBy (servo : Bool) (s : State) : State :=
  if s.stp.bySrv = servo then s
  else (if driving s then speedHandOver s else s).onStp fun p => { p with bySrv := servo }

/-- Feedback is lost or frozen (R190, R193): tokens stop, the program pauses, the mode in force is kept, and the reel loop goes over to
encoder speed. -/
def enterHold (s : State) : State :=
  match s.stp.mode with
  | .move | .track =>
    speedBy false (stpRecord 1 ((inhibitOn .feedback s).onStp fun p => { p with
      heldMode := p.mode, mode := .fbHold, holdFrom := s.power.time, holdGood := 0, cntHold := inc p.cntHold }))
  | _ => inhibitOn .feedback s

/-- The lateral error: the mean e_r of the usable readers, and how far the target's servo bands lie from those being read (R184). -/
def lateralErr (s : State) : Rat := meanErr s (fun _ => true) + s.stp.bandGap

/-- The lateral axis of the accelerometer in m/s², zero once it has failed (R173, R179). -/
def lateralAcc (s : State) : Rat :=
  if s.stp.accFailed then 0 else (getAt s.stp.acc Config.lateralAxis 0) * (980665 / 100000) / 1000

/-- Steps and feedforward of the coarse stepper for the 20 ms average of the voice coil (R184). -/
def desaturate (u t : Rat) (s : State) : Int × State :=
  let sum := s.stp.vcmSum + u
  let n := s.stp.vcmN + 1
  let ticks := s.stp.vcmTicks + t * msTicks
  if 20 * msTicks ≤ ticks then
    let avg := sum / (n : Rat)
    let k : Int := if plantOf s .desat < avg then 1 else if avg < -plantOf s .desat then -1 else 0
    (k, s.onStp fun p => { p with vcmSum := 0, vcmN := 0, vcmTicks := 0 })
  else (0, s.onStp fun p => { p with vcmSum := sum, vcmN := n, vcmTicks := ticks })

/-- The error and its rate for this sample of the lateral loop: measured, or in FB_HOLD one step on by the estimator (R193). -/
def lateralState (s : State) : Rat × Rat :=
  let t := sampleMs s
  if s.stp.mode = .fbHold then
    Config.coilModel ((stpTable s).getD []) s.stp.estErr s.stp.estRate s.stp.vcm (rcOut s 0) t
  else
    let e := lateralErr s
    (e, divRat (e - s.stp.estErr) t)

/-- Steps of the stepper toward another band bring its servo bands nearer (R184). -/
def stepsToward (gap size : Rat) (k : Int) : Rat :=
  if absRat gap ≤ size * (k.natAbs : Rat) then 0 else gap - size * (k : Rat)

/-- The lateral loop (R184): far from the target the stepper seeks while the voice coil holds its centre; near it the law in force
drives the coil. The steps to make go out last (Table 07-3). -/
def lateralLoop (u : State) : State × Int :=
  let hold := u.stp.mode == .fbHold
  let est := lateralState u
  let s := u.onStp fun p => { p with estErr := est.1, estRate := est.2 }
  let e := est.1
  let t := sampleMs s
  let l := s.stp.latLaw
  if l = 1 ∧ plantOf s .stroke < absRat e ∧ !hold then
    let due := s.stp.seekRest + plantOf s .stepRate * t / 1000
    let k : Int := if 0 < e then ⌊due⌋ else -⌊due⌋
    (sendMotion 2 1 0 (s.onStp fun p => { p with
      seekRest := due - ⌊due⌋, vcm := 0, stepper := p.stepper + k, bandGap := stepsToward p.bandGap (plantOf s .stepSize) k }), k)
  else
    let d := desaturate s.stp.vcm t s
    let ff := plantOf s .stepFf * (d.1 : Rat)
    let r := lawStep d.2 l e (lateralAcc s) ff (rcOut s 0) t hold
    let s1 := rcFeed 0 (lawTerms d.2 l e).x (setLaw l r.2 d.2)
    let s2 := s1.onStp fun p => { p with vcm := r.1, stepper := p.stepper + d.1 }
    (sendMotion 2 1 (max (-32768) (min 32767 (roundRat (r.1 * 32768)))) s2, d.1)

/-- The stepper's frame, last of a sample (Table 07-3). -/
def stepperFrame (k : Int) (s : State) : State := if k = 0 then s else sendMotion 3 2 k s

/-- The write delay of a channel in sixteenths of a bit, for the tangent of the tilt (R92). -/
def writeDelay (forwardWrap : Bool) (tanTheta : Rat) (trim c : Nat) : Nat :=
  let tr := max (-27648) (min 27648 (signed 16 trim))
  let geo : Rat := 5 / 2 * ((c : Rat) - 1023 / 2) * tanTheta * (5894 / 100)
  let o := (if forwardWrap then (1 : Rat) else -1) * (geo + (tr : Rat) / 16)
  (144000 + roundAway (16 * o)).toNat

/-- Move a write delay toward its goal by at most 1/16 bit per 256 channel bits: 23 sixteenths in one servo frame of 5,894 bits (R93). -/
def slewDelay (cur goal : Nat) : Nat := if cur < goal then min goal (cur + 23) else max goal (cur - 23)

/-- Recompute every channel's write delay at a tilt-loop output (R92, R93). -/
def writeDelays (s : State) : State :=
  let fw := decide (s.stp.latWrap % 2 = 0)
  let tt := tanDeg s.stp.theta
  s.onTiles fun k => { k with
    wdly := Vector.ofFn fun c : Fin 1024 => slewDelay k.wdly[c] (writeDelay fw tt k.wtrim[c].toNat c.val) }

/-- The tilt loop (R185): TILT_SPAN while both bands are read, its last value while they are not, or the fixed angle of a TILT step. -/
def tiltLoop (s : State) : State :=
  match s.stp.tiltFixed with
  | some a => writeDelays (sendMotion 4 1 (roundRat (a * 10000)) (s.onStp fun p => { p with tiltOut := a }))
  | none =>
    if bothBands s && s.stp.mode != .fbHold then
      let r := lawStep s 3 (-(s.stp.errU - s.stp.errL)) 0 (s.stp.theta0 - 3) 0 (sampleMs s) false
      let a := clampRat r.1 (-5 / 2) (5 / 2)
      writeDelays (sendMotion 4 1 (roundRat (a * 10000)) ((setLaw 3 r.2 s).onStp fun p => { p with tiltOut := a }))
    else writeDelays (sendMotion 4 1 (roundRat (s.stp.tiltOut * 10000)) s)

/-- The least of the candidates, ties to the lower code. -/
def lowest (xs : List (Nat × Rat)) : Nat × Rat :=
  match xs with
  | [] => (0, 0)
  | x :: rest => rest.foldl (fun b y => if y.2 < b.2 then y else b) x

/-- The selection of Table 07-6: the least of the first codes, raised to the floor, cut at the ceiling. -/
def selectTorque (cands : List (Nat × Rat)) (floor ceil : Rat) : Nat × Rat :=
  let a := lowest cands
  let b := if a.2 < floor then (3, floor) else a
  if ceil < b.2 then (4, ceil) else b

/-- v_ref for the next sample: toward the set-point at no more than the acceleration in force, or the position law's output. A controlled
stop brings it to zero at its own acceleration under either law (R186, R196). -/
def nextRef (s : State) (posErr : Rat) : Rat × Option (Rat × LawState) :=
  let t := sampleMs s
  if s.stp.reelLaw = 5 ∧ s.stp.stopping.isNone then
    let r := lawStep s 5 posErr 0 0 0 t (s.stp.mode == .fbHold)
    (clampRat r.1 (-(absRat s.stp.vSet)) (absRat s.stp.vSet), some r)
  else
    let d := s.stp.vAcc * t / 1000
    (if s.stp.vRef < s.stp.vSet then min s.stp.vSet (s.stp.vRef + d) else max s.stp.vSet (s.stp.vRef - d), none)

/-- The tension set-point, on its way to a TENSION step's goal at the step's ramp (R189). -/
def nextTension (s : State) : Rat :=
  let t := sampleMs s
  match s.stp.fGoal with
  | none => plantOf s .fSet
  | some (goal, ramp) => if s.stp.fSet < goal then min goal (s.stp.fSet + ramp * t) else max goal (s.stp.fSet - ramp * t)

/-- The reel loop (R186, R187): the speed and tension laws propose torques, the lowest-value selection chooses, and the take-up and
supply currents go out. -/
def reelLoop (posErr : Rat) (s : State) : State :=
  let b := (stpTable s).getD []
  let t := sampleMs s
  let fw := forward s
  let d := dirSign s
  let sup := if fw then 0 else 1
  let tu := 1 - sup
  let rT := (getAt s.stp.reels tu {}).radius / 1000
  let rS := (getAt s.stp.reels sup {}).radius / 1000
  let jT := Config.inertia b (1000 * rT)
  let jS := Config.inertia b (1000 * rS)
  let supReel := getAt s.stp.reels sup {}
  let om := twoPi * divRat supReel.cps (plantOf s .encCpr)
  let alphaS := d * divRat (supReel.omega - om) (t / 1000)
  let iS := -d * ((getAt s.stp.stages sup {}).meas : Rat) * plantOf s .curLsb
  let fEst := divRat (plantOf s .kS * iS - jS * alphaS) rS
  let fSet := nextTension s
  let nr := nextRef s posErr
  let vRef := nr.1
  let aRef := d * divRat (vRef - s.stp.vRef) (t / 1000)
  let ev := d * (vRef - s.stp.v)
  let hold := s.stp.mode == .fbHold
  let rv := lawStep s 4 ev 0 0 (rcOut s 1) t (s.stp.winTu != 0 || hold)
  let rf := lawStep s 6 ((fSet / 1000) - fEst) 0 0 0 t (s.stp.winSup != 0 || hold)
  let fMin := plantOf s .fMin / 1000
  let fMax := plantOf s .fMax / 1000
  let a := d * s.stp.accel
  let tau := rT * (fSet / 1000 + rv.1) + divRat (jT * aRef) rT
  let hld := rS * (fSet / 1000 - rf.1) - divRat (jS * aRef) rS
  let wt := selectTorque [(0, tau), (1, rT * fMax + divRat (jT * a) rT), (2, rT * fEst + divRat (jT * (plantOf s .aMax / 1000)) rT)]
    (rT * fMin) (plantOf s .kT * plantOf s (.iMax tu))
  let ws := selectTorque [(0, hld), (1, rS * fMax)] (rS * fMin) (plantOf s .kS * plantOf s (.iMax sup))
  let cur := fun (q k : Rat) => max (-32768) (min 32767 (roundRat (divRat (divRat q k) (plantOf s .curLsb))))
  let s1 := setLaw 6 rf.2 (rcFeed 1 (lawTerms s 4 ev).x (setLaw 4 rv.2 s))
  let s2 := match nr.2 with | some r => setLaw 5 r.2 s1 | none => s1
  let s3 := s2.onStp fun p => { p with
    vRef := vRef, fEst := fEst, fSet := fSet, winTu := wt.1, winSup := ws.1,
    reels := updAt p.reels sup fun r => { r with omega := om } }
  let sgn : Int := if fw then 1 else -1
  sendMotion sup 1 (-sgn * cur ws.2 (plantOf s .kS)) (sendMotion tu 1 (sgn * cur wt.2 (plantOf s .kT)) s3)

/-- Distance in mm from the position in hand to the start of an LPOS (R29, R200). -/
def lposDistance (s : State) (target : Nat) : Rat :=
  16 / 5 * ((target : Rat) - s.stp.lpos) - (s.stp.frame : Rat) / 10

/-- The speed measured by the encoders that are not lost, m/s (R176, R195). -/
def encoderSpeed (s : State) : Rat :=
  meanRat ((s.stp.reels.toList.filter (·.ok)).map fun r =>
    if reelStill s r then 0 else divRat (r.cps * twoPi * r.radius) (plantOf s .encCpr) / 1000)

/-- The step in hand of the running program, its opcode and operands A and B; A comes from where SRC says (R200). -/
def stepInHand (s : State) : Option (Nat × Nat × Nat) :=
  let p := s.stp.program
  if p.running then
    let w := stepWord s p.prog p.step
    let src := bits w 55 3
    let a := if src = 0 then bits w 0 32 else if src ≤ 4 then (getAt p.params (src - 1) 0).toNat else 0
    some (bits w 58 6, a, bits w 32 16)
  else none

/-- SRC of the step in hand. -/
def stepSrc (s : State) : Nat := bits (stepWord s s.stp.program.prog s.stp.program.step) 55 3

/-- Go on to the next step; past step 31 the program faults (R201). -/
def nextStep (s : State) : State :=
  if 31 ≤ s.stp.program.step then programFault 4 s
  else s.onStp fun p => { p with program := { p.program with step := p.program.step + 1, waiting := false, due := none, met := 0 } }

/-- Begin to wait in the step in hand, with a timeout in ticks when it has one. -/
def beginWait (timeout : Option Nat) (s : State) : State :=
  if s.stp.program.waiting then s
  else s.onStp fun p => { p with program := { p.program with
    waiting := true, met := 0, due := timeout.map fun t => s.power.time + t } }

/-- A program's first step is all zero (R199). -/
def programEmpty (s : State) (g : Nat) : Bool := decide (stepWord s g 0 = 0)

/-- The mode in which a role's program may start (R190, R199). -/
def roleMode (s : State) (prog : Nat) : Bool :=
  match prog with
  | 0 => s.stp.mode == .off && (stpTable s).isSome && s.drive.cart.isSome && !s.pins.cartPresentN
  | 1 => s.stp.mode == .still
  | 2 => s.stp.mode == .still
  | 3 => s.stp.mode == .track
  | 4 => s.stp.mode == .track
  | 5 => s.stp.mode == .track
  | 6 => s.stp.mode == .still || s.stp.mode == .track
  | 7 => s.stp.mode == .still || s.stp.mode == .track
  | _ => false

/-- A program of a role may start: its mode, a table, its first step, and the heartbeat (R190, R199, R202). -/
def programAllowed (s : State) (prog : Nat) : Bool :=
  (stpTable s).isSome && decide (prog ≤ 7) && !programEmpty s prog && roleMode s prog && !(s.stp.mode == .still && s.stp.beatLost)

/-- A whole number of the table. -/
def plantNat (s : State) (f : PlantField) : Nat := ⌊plantOf s f⌋.toNat

/-- The accelerometer is set up with the ACC_INIT list of up to 8 writes, and its identity asked for (R173). -/
def accStart (s : State) : State :=
  emits ((List.range (min 8 (plantNat s .accInitN))).map (fun i => Out.accFrame (be 2 (plantNat s (.accInit i) % 65536 &&& 0x3FFF))) ++
    [.accFrame [BitVec.ofNat 8 (0x80 + plantNat s .accIdReg % 64)]]) (s.onStp fun p => { p with accIdWait := true })

/-- At threading: the reduction of R173, R174, R188 and R185 starts afresh. -/
def threadFresh (s : State) : State :=
  (accStart s).onStp fun p => { p with
    thetaCal := if p.thetaHead = headSerialOf s then p.thetaCal else 0,
    accFailed := false, accBad := 0, sensorAbsent := false, sensorBad := 0, offByFault := false,
    rc := Vector.replicate 4 (Vector.replicate 256 0), rcBin := #v[(0, 0, 0), (0, 0, 0)],
    theta0 := Config.widthModel ((stpTable s).getD []) (p.temp.getD 21) (p.hum.getD 45) }

/-- Start a program, or refuse it and tell the cores (R190, R199). -/
def startProgram (prog p0 p1 p2 p3 : Nat) (s : State) : State :=
  if programAllowed s prog then
    let s1 := if prog = 0 then threadFresh s else s
    s1.onStp fun p => { p with mode := .move, program := { p.program with
      prog := prog, role := prog, step := 0, running := true, fault := 0, params := #v[w32 p0, w32 p1, w32 p2, w32 p3],
      due := none, waiting := false, met := 0, started := s.power.time, queued := none } }
  else
    match s.stp.mode with
    | .fbHold | .fbStop =>
      stpEvent (s.onStp fun p => { p with program := { p.program with queued := some (prog, p0, p1, p2, p3) } })
    | _ => stpEvent s

/-- A program that Steeple refused in FB_HOLD or FB_STOP starts as soon as it can (R445). -/
def startQueued (s : State) : State :=
  match s.stp.program.queued with
  | some (g, p0, p1, p2, p3) => if programAllowed s g then startProgram g p0 p1 p2 p3 s else s
  | none => s

end Sys2Proof.Machine
end

