-- ==== Sys2Proof/Machine/WvnOps.lean ====
section
/-! DEFINITION. Weathervane's shared operations: staging and read-ahead fill (R115, R118, R133), the operating point and its order
against speed (R20, R125, R404), the caps, the speed law (R119 to R121) and the runs (R128, R129, R445). -/

namespace Sys2Proof.Machine

/-! ## Fill (R115, R118, R120) -/

/-- Bytes of a staged or read-ahead data set. -/
abbrev setBytes : Nat := 921600
abbrev gib : Nat := 1073741824
abbrev mib : Nat := 1048576

/-- The data set is not yet committed to a slot. -/
def uncommitted (d : DataSet) : Bool :=
  match d.stage with
  | .assembling | .closed | .sealed | .encoded => true
  | .committed | .passed => false

/-- B, the write backlog: data sets not yet committed, per copy (R118). -/
def backlog (s : State) : Nat := setBytes * (s.wr.sets.filter uncommitted).length

/-- U: data sets committed and not yet released (R118). -/
def unreleased (s : State) : Nat := setBytes * (s.wr.sets.filter fun d => !uncommitted d).length

/-- One stack is lost (R117). -/
def oneStack (s : State) : Bool := decide (s.wr.stackOk ≠ 3)

/-- Read-ahead plaintext not yet consumed, in native user bytes (R120, R133). -/
def raFill (s : State) : Nat := ((s.rd.sets.filter fun r => r.plain.isSome).map fun r => 921344 - r.used).sum

/-- The region that the run in hand fills or drains, C (R120). -/
def regionSize (s : State) : Nat :=
  match s.wvn.run with
  | .reading | .retry => if oneStack s then 10 * gib else 20 * gib
  | .writing | .none => 20 * gib

/-- A read run (R120). -/
def reading (s : State) : Bool := s.wvn.run == .reading || s.wvn.run == .retry

/-- F of the run in hand (R120). -/
def fillOf (s : State) : Nat := if reading s then raFill s else backlog s

/-- The host's record data is held, or let go again; the time held counts in the millisecond in hand (R118, R119). -/
def setStall (b : Bool) (s : State) : State :=
  if s.wr.stalled = b then s
  else (s.onWvn fun w => { w with stallTicks := w.stallTicks + (if b then 0 else s.power.time - s.wr.stallAt) }).onWr fun w =>
    { w with stalled := b, stallAt := s.power.time }

/-- Staging full holds the host's record data; it is let go again 64 MiB lower (R118). -/
def updateStall (s : State) : State :=
  let u := backlog s + unreleased s + 256 * mib
  if 20 * gib ≤ u then setStall true s
  else if u < 20 * gib - 64 * mib then setStall false s
  else s

/-! ## The operating point (R125, R404) -/

/-- The voltage band of a ratio in 1/4,096 (R125). -/
def bandOfR (r : Nat) : Nat := min 15 ((r - 1024) / 192)

/-- The upper edge of a band in 1/4,096 (R125). -/
def bandTop (j : Nat) : Nat := min 4096 (1024 + 192 * (j + 1))

/-- What a band requires: its fused voltage, the cold offset and the margin offset, before the clamp (R125). -/
def bandNeed (s : State) (j : Nat) : Nat :=
  let v := max 600 (min 850 (getAt s.wvn.vtable j 850))
  let cold := min 30 (2 * ((25000 - s.power.junction).toNat / 1000))
  v + cold + s.wvn.marginOfs

/-- The operating point of a band (R125). -/
def bandVoltage (s : State) (j : Nat) : Nat := max 600 (min 850 (bandNeed s j))

/-- The band for a target r: a lower band only once r lies 1/256 below its upper edge (R125). -/
def targetBand (s : State) (r : Nat) : Nat :=
  let j := bandOfR r
  if s.wvn.band ≤ j then j else if r + 16 ≤ bandTop j then j else min s.wvn.band (j + 1)

/-- The lowest of the three caps (R125). -/
def capBand (s : State) : Nat := min s.wvn.capV (min s.wvn.capM s.wvn.capT)

/-- Lantern record 0x00A0 of a kind: 0 VCAP, 1 oscillation, 2 stack loss (Table 15-3). -/
def wvnRecord (kind : Nat) (s : State) : State := lantern 0x00A0 (le 1 kind ++ le 2 s.wvn.r) s

/-- The highest band whose voltage fits in 850 mV becomes the voltage cap, 15 when all fit (R125). -/
def voltageCap (s : State) : State :=
  let fit := (List.range 16).reverse.find? fun j => decide (bandNeed s j ≤ 850)
  let cap := fit.getD 0
  if cap = s.wvn.capV then s
  else
    let s1 := s.onWvn fun w => { w with capV := cap }
    if cap < s.wvn.capV then wvnRecord 0 s1 else s1

/-- Issue an AVSBus write (R404); it stays pending until a read-back lies within 5 mV. -/
def avsWrite (mv : Nat) (s : State) : State :=
  emit (.avsWrite mv) (s.onPower fun p => { p with avsTarget := some mv, avsTries := 1, avsFailed := false })

/-- Bring the speed ratio into force: Steeple's set-point in TRACK, and the ratio shown (R20). -/
def applySpeed (r : Nat) (s : State) : State :=
  let s1 := s.onWvn fun w => { w with r := r, rPending := none }
  let s2 := emit (.speedSet r) s1
  match s2.stp.mode with
  | .track => setSpeed (weathervaneSpeed s2) (aTrack s2) s2
  | .move => if s2.stp.wvnSpeed then setSpeed (weathervaneSpeed s2) s2.stp.vAcc s2 else s2
  | _ => s2

/-- The voltage that is sure to be held: a write on its way that lowers it may have taken effect (R20). -/
def heldVoltage (s : State) : Nat := match s.power.avsTarget with | some t => min t s.power.vop | none => s.power.vop

/-- Ask for a new ratio under R20: for a rise the voltage goes first and the speed waits for its acknowledgement; for a fall the speed
goes first and the voltage waits for the speed. A newer target replaces an older one. -/
def askRatio (r : Nat) (s : State) : State :=
  let j := targetBand s r
  let mv := bandVoltage s j
  let s1 := s.onWvn fun w => { w with band := j }
  if heldVoltage s < mv then
    if s.power.avsTarget = some mv then s1.onWvn fun w => { w with rPending := some r, vPending := none }
    else avsWrite mv (s1.onWvn fun w => { w with rPending := some r, vPending := none })
  else
    applySpeed r (s1.onWvn fun w => { w with
      vPending := if mv < max s.power.vop (s.power.avsTarget.getD 0) then some mv else none })

/-! ## The law (R119 to R127) -/

/-- K_P and K_I in effect, in 1/4,096 (R127). -/
def gainP (s : State) : Nat := max 1024 (min 32768 (bits s.wvn.gain.toNat 0 16))
def gainI (s : State) : Nat := min (bits s.wvn.gain.toNat 16 16) (229 * gainP s * gainP s / (1000 * 4096))

/-- The upper bound on r_cmd: the caps' band edge, the head link's cap, Cupola's and the ECC clusters' (R125, R223, R257). -/
def cupolaCap (s : State) : Nat :=
  let per := getAt (#v[73140, 64000, 56890, 46550] : Vector Nat 4) (bits s.cupola.cfg.toNat 0 2) 64000
  let en := if bits s.cupola.cfg.toNat 4 4 = 0 then (1 : BitVec 4) else BitVec.ofNat 4 (bits s.cupola.cfg.toNat 4 4)
  let on := s.cupola.inService &&& en
  let n := if on = 0 then popcount s.cupola.inService else popcount on
  min 4096 (4096 * per * n / 158200)

/-- The ECC clusters' cap: 32 Gb/s each against 191.6 Gb/s (Table 15-1, row 6). -/
def eccCap (s : State) : Nat := min 4096 (4096 * 320 * popcount s.ecc.inService / 1916)

/-- The caps that act at once: the head link's, which is none with no group in UP, Cupola's and the ECC clusters' (R223, R257, Table 15-1
row 6). -/
def hardCap (s : State) : Nat :=
  min (if (upGroups s).isEmpty then 4096 else linkCap s) (min (cupolaCap s) (eccCap s))

/-- The cap of everything that bounds r, in 1/4,096; r does not leave its range for a cap (R121). -/
def ratioCap (s : State) : Nat := max 1024 (min (bandTop (capBand s)) (hardCap s))

/-- ρ: the rewritten part of the last 4,096 slots written (R120). -/
def rhoOf (s : State) : Rat :=
  match s.wr.history.length with
  | 0 => 0
  | n => (s.wr.history.countP id : Rat) / (n : Rat)

/-- SET of the run in hand (R120, R135). -/
def setPoint (s : State) : Rat :=
  if reading s then (min 250 (bits s.wvn.setpt.toNat 8 8) : Rat) / 256 else (max 1 (bits s.wvn.setpt.toNat 0 8) : Rat) / 256

/-- e, the fill error, turned round when reading; and k, 0.5 for a 10 GiB region (R120). -/
def fillError (s : State) : Rat :=
  let e := (fillOf s : Rat) / (regionSize s : Rat) - setPoint s
  if reading s then -e else e
def gainScale (s : State) : Rat := (regionSize s : Rat) / (20 * gib : Rat)

/-- r_ff + k K_P e + integ, within 0.25 and 1.00, in 1/4,096 (R120). -/
def commanded (s : State) (integ : Rat) : Nat :=
  let rff := divRat s.wvn.h (19770000000 * (1 - (if reading s then 0 else rhoOf s)))
  let x := rff + gainScale s * (gainP s : Rat) / 4096 * fillError s + integ
  (⌊clampRat x (1 / 4) 1 * 4096⌋).toNat

/-- The fixed ratio of R122. -/
def fixedRatio (s : State) : Nat := max 1024 (min 4096 (bits s.wvn.fixed.toNat 0 13))

/-- The ratio that the fill asks for at this moment, capped (R120, R122, R128). -/
def ratioNow (s : State) : Nat :=
  let r := if s.wvn.ctrl.getLsbD 0 then fixedRatio s else commanded s s.wvn.integ
  max 1024 (min r (ratioCap s))

/-- A cap of R223 or R257 below the r in force acts at once, without the slew of R121, and Steeple decelerates at A_STOP (R223). -/
def clampNow (s : State) : State :=
  let c := max 1024 (hardCap s)
  if s.wvn.state = .stream ∧ c < s.wvn.r then
    let s1 := askRatio c (s.onWvn fun w => { w with rCmd := min w.rCmd c, frozen := true })
    if s1.stp.stopping.isSome then s1 else s1.onStp fun p => { p with vAcc := aStop s1 }
  else s

/-! ## Runs (R129, R134, R445) -/

/-- Weathervane changes state; Belfry source 108 tells the cores (Table 13-1). -/
def setWvn (st : WvnState) (s : State) : State :=
  if s.wvn.state = st then s else raise 108 (s.onWvn fun w => { w with state := st })

/-- A speed in µm/s as the parameter of a program. -/
def umPerS (v : Rat) : Nat := twos 32 (roundRat (v * 1000000))

/-- Start the tape for a run or a RESTART at a ratio: the START program. When Steeple refuses it, the cores are told and Weathervane starts
it again itself (R129, R190, R445). A ratio that waits for its voltage holds the start back (R20). -/
def startTape (r lpos : Nat) (s : State) : State :=
  let v : Rat := (r : Rat) / 4096 * (339 / 100)
  let sp := umPerS (if s.stp.latWrap % 2 = 0 then v else -v)
  if programAllowed s 2 then
    let s1 := s.onWvn fun w => { w with refused := false }
    if s1.wvn.rPending.isSome then s1.onWvn fun w => { w with startDue := some lpos }
    else startProgram 2 sp lpos 0 0 (s1.onWvn fun w => { w with startDue := none })
  else stpEvent (s.onWvn fun w => { w with refused := true, startDue := none })

/-- The LPOS at which the head has to stream: the slot's own, and one wedge interval before it when reading (R149). -/
def runStart (k : RunKind) (wrap slot : Nat) : Nat :=
  let l := (slotStart wrap slot).1
  if k = .writing then l else if wrap % 2 = 0 then l - 1 else l + 1

/-- A run begins from IDLE: r from the fill at that moment, STREAM, and the START program (Table 05-3). -/
def beginRun (k : RunKind) (wrap slot : Nat) (s : State) : State :=
  let s0 := (needDomains 80 8 (needDomains 0 64 (s.onWvn fun w => { w with run := k }))).onStp fun p => { p with latWrap := wrap, latRead := (k != .writing) }
  let s0 := startChans (useModule (moduleOf wrap) s0)
  if programAllowed s0 2 then
    let r := ratioNow s0
    let s1 := setWvn .stream (askRatio r (s0.onWvn fun w => { w with rCmd := r, frozen := false, dwellMs := 0 }))
    startTape r (runStart k wrap slot) s1
  else startTape (ratioNow s0) (runStart k wrap slot) s0

/-- The run in hand ends: the tape is stopped and Weathervane is IDLE (Table 05-3). -/
def endRun (s : State) : State :=
  let s1 := match s.wvn.state with
    | .stream | .stopping => startProgram 3 (⌊plantOf s .aStop⌋.toNat) 0 0 0 s
    | _ => s
  idleChans (setWvn .idle (s1.onWvn fun w => { w with run := .none, r := 0, rPending := none, startDue := none, dwellMs := 0, refused := false }))

/-- Levels of WVN_BH in effect (R135). -/
def bhStop (s : State) : Nat := bits s.wvn.bh.toNat 0 8
def bhStart (s : State) : Nat := if 247 < bhStop s then 255 else max (bhStop s + 8) (bits s.wvn.bh.toNat 8 8)
def raStop (s : State) : Nat := bits s.wvn.bh.toNat 16 8
def raStart (s : State) : Nat := if raStop s < 8 then 0 else min (raStop s - 8) (bits s.wvn.bh.toNat 24 8)
def bhDwell (s : State) : Nat := max 1 (bits s.wvn.bh2.toNat 0 16)
def bhMaxWait (s : State) : Nat := max 1 (bits s.wvn.bh2.toNat 16 16)

/-- The slot at which a run goes on: the first after the last slot written or read (R129, R130). -/
def resumeSlot (s : State) : Nat × Nat := if reading s then (s.rd.wrap, s.rd.slot) else (s.wr.wrap, s.wr.resumeAt)

/-- The BACKHITCH program to the slot at which the run goes on, and its speed at r = 0.25 (R130). -/
def startBackhitch (s : State) : State :=
  let a := resumeSlot s
  startProgram 5 (slotStart a.1 a.2).1 (umPerS ((if a.1 % 2 = 0 then (1 : Rat) else -1) * (339 / 400))) 0 0 s

/-- From STOPPED to RESTART: Steeple approaches, writing at r = 0.25, after retry passes at the read run's r (Table 05-3). -/
def restart (s : State) : State :=
  let r := if s.wvn.run = .retry then max 1024 s.wvn.rCmd else 1024
  let at_ := resumeSlot s
  let lpos := (slotStart at_.1 at_.2).1
  if programAllowed s 2 then
    let s1 := askRatio r (s.onWvn fun w => { w with run := if w.run == .retry then .reading else w.run, rCmd := r })
    startTape r lpos (setWvn .restart s1)
  else startTape r lpos s

/-- Leave STOPPED when the rows of Table 05-3 that need no timer ask for it. -/
def restartIfAsked (tapeNeeded : Bool) (s : State) : State :=
  if s.wvn.state = .stopped ∧ s.wvn.run ≠ .retry then
    if tapeNeeded || (if reading s then decide (256 * raFill s ≤ raStart s * regionSize s)
        else decide (bhStart s * (20 * gib) ≤ 256 * backlog s)) then restart s else s
  else s

end Sys2Proof.Machine
end

