-- ==== Sys2Proof/Machine/Staging.lean ====
section
/-! DEFINITION. Write staging: packing (R47 to R50), sealing (R45, R46, R249), EOD, dome groups and parity (R52 to R55, R17), release
and durability (R16, R109), what is discarded and reported (R101, R110, R260), and when a write completes (R286, R292). -/

namespace Sys2Proof.Machine

/-! ## Packing (R47 to R50, R248) -/

/-- The payload under assembly of a partition. -/
def assembling (s : State) (p : Nat) : Option DataSet := s.wr.sets.find? fun d => d.part == p && d.stage == .assembling

/-- A data set about to be staged. -/
def freshSet (s : State) (p : Nat) (kind : DsKind) (sel : CipherSel) (firstLon : Nat) : DataSet :=
  { id := s.wr.nextId, part := p, kind := kind, n := none, stage := .assembling, sel := sel, firstLon := firstLon, lead := 0,
    stream := [], entries := [], closes := false, payload := [], fails := 0, skips := 0, inStacks := s.wr.stackOk }

/-- Stage a data set. -/
def stage (d : DataSet) (s : State) : State :=
  updateStall (s.onWr fun w => { w with sets := w.sets ++ [d], nextId := max w.nextId (d.id + 1) })

/-- The payload under assembly is closed as it stands. -/
def closePayload (p : Nat) (s : State) : State :=
  s.onWr fun w => { w with sets := mapIf (fun d => d.part == p && d.stage == .assembling) (fun d => { d with stage := .closed }) w.sets }

/-- An unsealed data set holds its key generation (R241). -/
def holdKey (sel : CipherSel) (s : State) : State := if sel.cipher = 0 then s else bindGen sel.slot sel.gen s

/-- Begin a payload of a partition. -/
def openPayload (p : Nat) (sel : CipherSel) (firstLon : Nat) (s : State) : State :=
  holdKey sel (stage (freshSet s p .user sel firstLon) s)

/-- A record-table entry more, and at least this many stream bytes, fit into a payload (R47, R49). -/
def fits (d : DataSet) (n : Nat) : Bool := decide (d.stream.length + n + 16 * (d.entries.length + 1) ≤ userBytes)

/-- The payload in which the next item of a selection can stand; the one under assembly is closed when its selection differs or it
has no room (R49, R248). -/
def payloadFor (p : Nat) (sel : CipherSel) (firstLon n : Nat) (s : State) : State :=
  match assembling s p with
  | some d => if d.sel = sel ∧ fits d n then s else openPayload p sel firstLon (closePayload p s)
  | none => openPayload p sel firstLon s

/-- Put stream bytes that continue a block into new payloads of a partition, each as full as it gets (R50). -/
def spillBytes (p : Nat) (sel : CipherSel) (lon : Nat) : Nat → Bytes → State → State
  | 0, _, s => s
  | fuel + 1, bs, s =>
    if bs.isEmpty then s
    else
      let s1 := openPayload p sel lon (closePayload p s)
      let here := bs.take userBytes
      spillBytes p sel lon fuel (bs.drop userBytes) (s1.onWr fun w => { w with
        sets := mapIf (fun d => d.part == p && d.stage == .assembling) (fun d => { d with lead := here.length, stream := here }) w.sets })

/-- Close a payload into which no further entry fits (R49). -/
def closeIfFull (p : Nat) (s : State) : State :=
  match assembling s p with
  | some d => if fits d 0 then s else closePayload p s
  | none => s

/-- Place one frame or mark of a partition's stream (R47 to R50): its entry, its bytes, and the counts of what is packed. -/
def placeItem (it : StreamItem) (s : State) : State :=
  let p := it.part
  let lon := (partAt s p).logicalEnd
  let s1 := payloadFor p it.sel lon (if it.mark then 0 else 1) s
  match assembling s1 p with
  | none => s1
  | some d =>
    let room := userBytes - 16 * (d.entries.length + 1) - d.stream.length
    let e : RecEntry := { offset := d.stream.length, mark := it.mark, first := it.first, last := it.last, group := it.group,
                          groupEnd := it.groupEnd, stored := it.data.length, length := it.length, lon := lon }
    let s2 := onSet d.id (fun d => { d with stream := d.stream ++ it.data.take room, entries := d.entries ++ [e] }) s1
    let s3 := closeIfFull p (spillBytes p it.sel lon 3 (it.data.drop room) s2)
    let s4 := onPart p (fun q => { q with dirty := true, writers := assocSet q.writers it.qid (s3.wr.nextId - 1) }) s3
    let s5 := s4.onCz fun c => { c with bytesIn := (c.bytesIn + it.length) % 2 ^ 64, bytesOut := (c.bytesOut + it.data.length) % 2 ^ 64 }
    let s6 := s5.onWvn fun w => { w with moved := w.moved + it.data.length }
    if it.last || it.mark then
      onCmd it.qid it.tag (fun c => { c with count := c.count + 1 }) (onPart p (fun q => { q with logicalEnd := q.logicalEnd + 1 }) s6)
    else s6

/-! ## End of data (R52, R110) -/

/-- The LON an EOD of a partition carries: the first LON of an open group, else the logical end (R110). -/
def eodLon (s : State) (p : Nat) : Nat :=
  match (partAt s p).group with
  | some g => g.2.1
  | none => (partAt s p).logicalEnd

/-- Stage an EOD data set of a partition; it closes the payload before it and its dome group (R52, R110). -/
def stageEod (p lon : Nat) (s : State) : State :=
  let s1 := closePayload p s
  onPart p (fun q => { q with dirty := false, endLon := lon })
    (stage { freshSet s1 p .eod ⟨0, 0xFF, 0⟩ lon with closes := true, stage := .closed } s1)

/-! ## Sealing (R45, R46, R53, R249) -/

/-- The wrap a data set will first stand on, as far as it is known when it is sealed: the one in hand, or the next when the data sets, parity
sets, rewrites and skip before it fill it (R45, log 24). -/
def expectedWrap (s : State) (p : Nat) : Nat :=
  let pt := partAt s p
  let ahead := (s.wr.sets.filter fun d => d.part == p && uncommitted d && d.n.isSome).length
  let parity := 2 * ((s.wr.closed.filter fun e => partOf (512 * e.1) == p).map fun e =>
    (List.range 8).countP fun d => !(s.wr.domesReady ++ s.wr.domesReleased).contains (e.1, d)).sum
  let here := s.wvn.run == .writing && s.wr.part == p
  let at_ := if here && s.wr.wrap == pt.wrap then max pt.slot (s.wr.slot + s.wr.skipLeft + s.wr.rewrites.length) else pt.slot
  if at_ + ahead + parity < slotsPerWrap then pt.wrap else pt.wrap + 1

/-- Number k's successor among data positions, past the parity positions (R53, R54). -/
def numberAfter (k : Nat) (closes : Bool) : Nat := if closes || decide (495 ≤ k % 512) then nextGroup k else k + 1

/-- The descriptor of a data set as it is sealed (R45). -/
def sealHead (s : State) (d : DataSet) (n floor : Nat) (iv keyId : Bytes) : Bytes :=
  let v := match s.drive.vol with | some v => v.mountCount | none => 0
  descriptorHead {
    revision := floor, kind := (match d.kind with | .user => 0 | .eod => 1 | .filler => 2 | .parity => 0),
    partition := d.part, wrap := expectedWrap s d.part, n := n, closes := d.closes, firstLon := d.firstLon, lead := d.lead,
    stream := d.stream.length, entries := d.entries.length, mountCount := v, cipher := d.sel.cipher, iv := iv, keyId := keyId }

/-- The plain user area of a data set (R47, R52, R108). -/
def plainUser (s : State) (d : DataSet) (n floor : Nat) : Bytes :=
  match d.kind, s.drive.vol with
  | .eod, some v => eodRecord v.volumeId (mapOf v) n floor d.firstLon
  | _, _ => userArea d.stream d.entries

/-- A clear payload: descriptor, CRC-64 in TAG, user area (Table 02-11). -/
def clearPayload (head user : Bytes) : Bytes := head ++ le 8 (crc64Bytes (head ++ user)) ++ zeros 8 ++ user

/-- An encrypted payload: descriptor, GCM tag, ciphertext (R46). -/
def gcmPayload (key iv head user : Bytes) : Bytes :=
  let r := gcmEncrypt key iv head user
  head ++ r.2 ++ r.1

/-- The started write whose reservation a sealing uses: the earliest bound to the generation that has one left (R253). -/
def reserveOwner (s : State) (slot gen : Nat) : Option Cmd :=
  (byOrder s.host.cmds).find? fun c => c.keys.contains (slot, gen) && decide (0 < c.reserved)

/-- Use up one invocation of a generation, reserved where a write has one left (R249, R253). -/
def sealInvocation (slot gen : Nat) (s : State) : State :=
  match reserveOwner s slot gen with
  | some c => onCmd c.qid c.tag (fun c => { c with reserved := c.reserved - 1 }) (useGen slot gen true s)
  | none => useGen slot gen false s

/-- A sealed data set takes its number, its payload and its place in its dome group (R53, R54). -/
def sealed (d : DataSet) (n floor : Nat) (payload : Bytes) (s : State) : State :=
  let k := n % 2 ^ 46
  let s1 := onSet d.id (fun d => { d with n := some n, stage := .sealed, payload := payload }) s
  let s2 := onPart d.part (fun q => { q with nextN := numberAfter k d.closes, floor := floor }) s1
  if d.closes || decide (k % 512 = 495) then s2.onWr fun w => { w with closed := w.closed ++ [(groupOf n, n % 512)] } else s2

/-- The floor that a partition's next data set comes under: a dome group keeps the one it began with; one that begins takes the host's, raised
to 0x11 while a staged data set needs what only that revision has (R65, R391, log 166). -/
def groupFloor (s : State) (p : Nat) : Nat :=
  let pt := partAt s p
  if pt.nextN % 512 ≠ 0 then pt.floor
  else if s.wr.sets.any fun d => d.part == p && d.n.isNone && (d.sel.cipher == 2 || d.kind == .filler) then max 0x11 s.host.floor
  else s.host.floor

/-- Seal one closed data set: number, descriptor, cipher (R45, R46, R249). -/
def sealSet (d : DataSet) (s : State) : State :=
  let pt := partAt s d.part
  let n := mkN d.part pt.nextN
  let floor := groupFloor s d.part
  let user := plainUser s d n floor
  if d.sel.cipher = 0 then sealed d n floor (clearPayload (sealHead s d n floor (zeros 12) (zeros 32)) user) s
  else
    match genOf s d.sel.slot d.sel.gen with
    | none => s
    | some g =>
      let iv := invIv s (counterOf g)
      let pay := gcmPayload (cipherKey s d.sel.cipher g) iv (sealHead s d n floor iv g.keyId) user
      unbindGen d.sel.slot d.sel.gen 0
        (countInv (holdDerived d.sel.slot d.sel.gen d.sel.cipher (sealInvocation d.sel.slot d.sel.gen (sealed d n floor pay s))))

/-! ## Dome parity (R17, R78, R79) -/

/-- Where a dome group ends: its last data position, once closed (R54). -/
def closingPos (s : State) (g : Nat) : Option Nat := (s.wr.closed.find? fun e => e.1 == g).map (·.2)

/-- The data set is at least encoded. -/
def encodedYet (d : DataSet) : Bool := match d.stage with | .encoded | .committed | .passed => true | _ => false

/-- The staged data set with this number. -/
def setOfN (s : State) (n : Nat) : Option DataSet := s.wr.sets.find? fun d => d.n == some n

/-- The payload of each of the 62 data positions of a dome, absent ones all zeros (R78). -/
def domePayloads (s : State) (g dome last : Nat) : List Bytes :=
  (List.range 62).map fun q =>
    if 8 * q + dome ≤ last then (match setOfN s (512 * g + 8 * q + dome) with | some d => d.payload | none => zeros payloadBytes)
    else zeros payloadBytes

/-- No data set of this number belongs to its dome group any more (R78, R101). -/
def absentN (s : State) (n : Nat) : Bool := s.wr.absent.any fun r => decide (r.1 ≤ n ∧ n < r.2)

/-- The data positions of a dome that its group holds, up to the closing position, are all encoded in staging (R17). -/
def domeEncoded (s : State) (g dome last : Nat) : Bool :=
  (List.range 62).all fun q =>
    decide (last < 8 * q + dome) ||
    (match setOfN s (512 * g + 8 * q + dome) with | some d => encodedYet d | none => absentN s (512 * g + 8 * q + dome))

/-- A parity set of a dome (R44, R54). -/
def paritySet (s : State) (g pos : Nat) (payload : Bytes) : DataSet :=
  { freshSet s (partOf (512 * g)) .parity ⟨0, 0xFF, 0⟩ 0 with n := some (512 * g + pos), stage := .sealed, payload := payload }

/-- Compute and stage the two parity sets of a dome (R17, R54). -/
def makeParity (g dome last : Nat) (s : State) : State :=
  let ps := domeParitySets (domePayloads s g dome last)
  let s1 := stage (paritySet s g (496 + dome) ps.1) s
  let s2 := stage (paritySet s1 g (504 + dome) ps.2) s1
  s2.onWr fun w => { w with domesReady := w.domesReady ++ [(g, dome)] }

/-! ## Completion of writes (R286, R287, R253) -/

/-- A write-type command gives its reservations and its binding back as it ends (R241, R253). -/
def releaseKeys (c : Cmd) (s : State) : State :=
  if opcodeOf c.entry ∈ [opWrite, opWriteMark, opCrypt] then
    forEach c.keys (fun k => unbindGen k.1 k.2 c.reserved) (onCmd c.qid c.tag (fun c => { c with keys := [], reserved := 0 }) s)
  else s

/-- Finish a command and give back what it holds. -/
def finishCmd (q tag st res : Nat) (objs : Option (Nat × Nat)) (s : State) : State :=
  match cmdOf s q tag with
  | some c => if isDone c then s else finish q tag st res objs (releaseKeys c s)
  | none => s

/-- A WRITE or WRITE_MARK ends with a status: its report, its RESULT and its objects (R321). -/
def endWrite (c : Cmd) (st packed : Nat) (s : State) : State :=
  let addr := specField c.entry 56 8
  let s1 := if addr = 0 then s else hostWrites c.qid c.tag [(addr, le 8 c.lon ++ le 4 packed ++ zeros 4)] s
  finishCmd c.qid c.tag st packed (if packed = 0 then none else some (partField c.entry, c.lon + packed)) s1

/-- One of the command's data sets is committed on the partition's last wrap (R321). -/
def earlyWarning (s : State) (c : Cmd) (allReleased : Bool) : Bool :=
  let p := partField c.entry
  let pt := partAt s p
  pt.onLastWrap && (allReleased || s.wr.sets.any fun d =>
    d.part == p && d.kind == .user && !uncommitted d &&
      (decide (c.lon ≤ d.firstLon) || d.entries.any fun e => decide (c.lon ≤ e.lon)))

/-- The status of a write that has been served in full (R321, R327). -/
def writeStatus (s : State) (c : Cmd) (allReleased : Bool) : Nat :=
  prevails (c.met ++ (if earlyWarning s c allReleased then [0x0402] else []))

/-- Staged user data sets of a partition below a staging number are all released, and its EOD data sets too where asked (R109). -/
def waitsOver (s : State) (c : Cmd) : Bool :=
  !c.waits.isEmpty && c.waits.all fun w => !(s.wr.sets.any fun d =>
    d.part == w.1 && decide (d.id < w.2.1) && (d.kind == .user || (w.2.2 && d.kind == .eod)))

/-- The partitions in a SYNC's scope: of its queue's writes, the one named, or all (Table 12-7). -/
def syncScope (s : State) (c : Cmd) (p : Nat) : Bool :=
  let pt := partAt s p
  pt.inUse && (match specField c.entry 48 1 with
    | 0 => pt.writers.any fun w => w.1 == c.qid
    | 1 => p == partField c.entry
    | _ => true)

/-- The staging number below which a SYNC's objects of a partition lie: those of an open group stay out (R292). -/
def syncBound (s : State) (c : Cmd) (p : Nat) : Nat :=
  let pt := partAt s p
  let sets := s.wr.sets.filter fun d => d.part == p && d.kind == .user &&
    (match pt.group with | some g => decide (d.firstLon < g.2.1) | none => true)
  let top := (sets.map fun d => d.id + 1).foldl max 0
  if specField c.entry 48 1 = 0 then min top (assoc pt.writers c.qid 0 + 1) else top

/-- Records of open groups in a SYNC's scope, which it does not wait for (R292). -/
def syncResult (s : State) (c : Cmd) : Nat :=
  ((List.range 4).map fun p =>
    match (partAt s p).group with
    | some g => if (partAt s p).inUse && (match specField c.entry 48 1 with
        | 0 => g.1 == c.qid
        | 1 => p == partField c.entry
        | _ => true) then g.2.2.2 else 0
    | none => 0).sum

/-- A SYNC whose earlier writes are packed: an EOD for each partition of its scope that has data after its last one, and a wait for
what is not durable; with nothing to wait for it is done (R109, R110, R292). -/
def openSync (c : Cmd) (s : State) : State :=
  let parts := (List.range 4).filter fun p => syncScope s c p &&
    s.wr.sets.any fun d => d.part == p && d.kind == .user && decide (d.id < syncBound s c p)
  let waits := parts.map fun p => (p, syncBound s c p, false)
  let s1 := forEach parts (fun p t => if (partAt t p).dirty then stageEod p (eodLon t p) t else t) s
  if waits.isEmpty then finishCmd c.qid c.tag 0 (syncResult s c) none s1
  else onCmd c.qid c.tag (fun c => { c with waits := waits, count := syncResult s c }) s1

/-- The tape cannot move before a new THREAD: Steeple is in FAULT, or in OFF reached from it with a volume mounted (R445). -/
def tapeDead (s : State) : Bool :=
  match s.stp.mode with
  | .fault => true
  | .off => s.stp.offByFault && s.drive.vol.isSome
  | _ => false

/-- The cartridge memory has refused DIRTY = 1 (R111). -/
def memoryRefuses (s : State) : Bool := match s.drive.vol with | some v => v.cmRefused | none => false

/-- It has refused it, and no further attempt is in hand (R111). -/
def memoryFailed (s : State) : Bool := match s.drive.vol with | some v => v.cmRefused && v.dirtyTries == 0 | none => false

/-- Move on one command that waits for durable objects (R109, R111, R286, R292, R445). -/
def settleOne (c : Cmd) (s : State) : State :=
  let op := opcodeOf c.entry
  match c.phase with
  | .durableWait =>
    if waitsOver s c then
      if op = opWrite ∨ op = opWriteMark then endWrite c (writeStatus s c true) c.count s
      else finishCmd c.qid c.tag (prevails c.met) c.count none s
    else if op = opSync ∧ c.waits.isEmpty then
      if (c.after.any fun k => match cmdOf s k.1 k.2 with | some d => !tookEffect d | none => false) then s else openSync c s
    else if memoryFailed s ∧ !c.waits.isEmpty then
      (if op = opWrite ∨ op = opWriteMark then endWrite c 0x0311 c.count s else finishCmd c.qid c.tag 0x0311 c.count none s)
    else if tapeDead s ∧ !c.waits.isEmpty then
      (if op = opWrite ∨ op = opWriteMark then endWrite c 0x0416 c.count s else finishCmd c.qid c.tag 0x0416 c.count none s)
    else s
  | .packing =>
    if tapeDead s && s.wr.stalled then endWrite c 0x0416 c.count s else s
  | _ => s

/-- Move on every command that waits for durable objects, then write the entries that may follow. -/
def settle (s : State) : State :=
  tidy (forEach (byOrder s.host.cmds) (fun c t => match cmdOf t c.qid c.tag with | some d => settleOne d t | none => t) s)

/-! ## Packing in order (R231) -/

/-- Some item of a partition before this place is still in an engine or unpacked. -/
def earlierItem (s : State) (it : StreamItem) : Bool :=
  let f := fun (x : StreamItem) => x.part == it.part && decide (x.order < it.order)
  (s.cz.engines.toList.any fun e => e.any f) || s.cz.finished.any f || s.cz.source.any f

/-- What a WRITE or WRITE_MARK does once its last item is packed: it completes, or waits to be durable (R286). -/
def packed (c : Cmd) (s : State) : State :=
  let p := partField c.entry
  if c.count < c.goal then s
  else if c.met.any fun st => decide (0x0210 ≤ st ∧ st ≤ 0x0213) then endWrite c (writeStatus s c false) c.count s
  else if durableFlag c.entry then
    if atomicFlag c.entry && !groupEndFlag c.entry && (partAt s p).group.isSome then
      onCmd c.qid c.tag (fun c => { c with phase := .durableWait }) s
    else
      let s1 := if (partAt s p).dirty then stageEod p (eodLon s p) s else s
      onCmd c.qid c.tag (fun c => { c with phase := .durableWait, waits := [(p, s1.wr.nextId, false)] }) s1
  else endWrite c (writeStatus s c false) c.count s

/-- The group of a partition ends: its deferred writes count as submitted just after the write that ends it, and its durable writes
begin to wait for their objects (R109, R288). -/
def endGroup (p : Nat) (endOrder : Nat × Nat) (s : State) : State :=
  let later := (byOrder (s.host.cmds.filter (deferred s))).filter fun c => partField c.entry == p
  let s1 := onPart p (fun q => { q with group := none }) s
  let s2 := (List.range later.length).foldl (fun t i =>
    match later[i]? with
    | some c => onCmd c.qid c.tag (fun c => { c with order := (endOrder.1, endOrder.2 + 1 + i) }) t
    | none => t) s1
  let waiting := s2.host.cmds.filter fun c =>
    c.phase == .durableWait && c.waits.isEmpty && atomicFlag c.entry && partField c.entry == p && opcodeOf c.entry == opWrite
  if waiting.isEmpty then s2
  else
    let s3 := if (partAt s2 p).dirty then stageEod p (eodLon s2 p) s2 else s2
    forEach waiting (fun c => onCmd c.qid c.tag fun c => { c with waits := [(p, s3.wr.nextId, false)] }) s3

/-- Pack one finished item, with what its command and its group do next. -/
def packItem (it : StreamItem) (s : State) : State :=
  let s1 := placeItem it (s.onCz fun c => { c with finished := c.finished.filter fun x => x.order != it.order })
  match cmdOf s1 it.qid it.tag with
  | none => s1
  | some c =>
    let s2 := if it.groupEnd && it.last then endGroup it.part c.order s1 else s1
    match cmdOf s2 it.qid it.tag with
    | some d => if isDone d then s2 else packed d s2
    | none => s2

/-- Pack everything that is finished and next in its partition's order (R231). -/
def packReady : Nat → State → State
  | 0, s => s
  | fuel + 1, s =>
    match s.cz.finished.find? fun it => !earlierItem s it with
    | some it => packReady fuel (packItem it s)
    | none => s

/-- The engine with the least input queued among those that take blocks, ties to the lower number (R231, R238). -/
def engineFor (s : State) : Nat :=
  let allowed := BitVec.ofNat 4 (let e := bits s.cz.cfg.toNat 8 4; if e = 0 then 1 else e)
  let both := allowed &&& s.cz.inService
  let takers := if both = 0 then s.cz.inService else both
  let load := fun (i : Nat) => ((getAt s.cz.engines i []).map fun x => x.data.length).sum
  let ids := (List.range 4).filter fun i => takers.getLsbD i
  match ids with
  | [] => 0
  | i :: rest => rest.foldl (fun b j => if load j < load b then j else b) i

/-- An engine starts on the block at the head of its queue, under the settings of that moment (R234, R238). -/
def startEngine (i : Nat) (s : State) : State :=
  let eff := bits s.cz.cfg.toNat 0 2
  let early := s.cz.cfg.getLsbD 2
  s.onCz fun c => { c with engines := updAt c.engines i fun l =>
    match l with
    | [] => []
    | it :: rest => (if it.run.isSome then it else { it with run := some (if it.effort = 0xFF then eff else it.effort, early) }) :: rest }

/-- Hand a block to an engine (R231). -/
def toEngine (it : StreamItem) (s : State) : State :=
  let i := engineFor s
  startEngine i (needDomains (92 + i) 1 (s.onCz fun c => { c with
    engines := updAt c.engines i fun l => l ++ [{ it with run := none }] }))

/-- The next item that the ports hand over: the first one of its partition, a mark, or a block while record data is fetched and the engine
with the least input holds fewer than the two blocks of its memory (R14, R118, R231). -/
def nextSource (s : State) : Option StreamItem :=
  s.cz.source.find? fun it => !(s.cz.source.any fun x => x.part == it.part && decide (x.order < it.order)) &&
    (it.mark || (!s.wr.stalled && decide ((getAt s.cz.engines (engineFor s) []).length < 2)))

/-- Hand items over, a block to an engine and a mark to the packer, as long as they are taken (R14, R118, R231). -/
def feed : Nat → State → State
  | 0, s => s
  | fuel + 1, s =>
    match nextSource s with
    | some it =>
      let s1 := s.onCz fun c => { c with source := c.source.filter fun x => x.order != it.order }
      feed fuel (if it.mark then s1.onCz fun c => { c with finished := c.finished ++ [it] } else toEngine it s1)
    | none => s

/-- Hand over what is taken, pack what can be packed, then move the waiting commands on. -/
def pack (s : State) : State :=
  let s1 := feed s.cz.source.length s
  settle (packReady s1.cz.finished.length s1)

/-! ## Release (R16) -/

/-- A dome may be released: its parity is computed and written, and every data set of it has passed with no rewrite pending. -/
def domeDone (s : State) (g dome : Nat) : Bool :=
  let mine := s.wr.sets.filter fun d => match d.n with
    | some n => groupOf n == g && domeOf n == dome
    | none => false
  ((List.range 62).all fun q => decide ((closingPos s g).getD 495 < 8 * q + dome) || absentN s (512 * g + 8 * q + dome) ||
    (setOfN s (512 * g + 8 * q + dome)).isSome) &&
  (setOfN s (512 * g + 496 + dome)).isSome && (setOfN s (512 * g + 504 + dome)).isSome &&
  mine.all fun d => d.stage == .passed && !s.wr.rewrites.contains d.id

/-- Release a dome: its data sets leave staging (R16). -/
def releaseDome (g dome : Nat) (s : State) : State :=
  updateStall (s.onWr fun w => { w with
    sets := w.sets.filter (fun d => match d.n with
      | some n => !(groupOf n == g && domeOf n == dome)
      | none => true)
    domesReady := w.domesReady.filter (· != (g, dome)), domesReleased := w.domesReleased ++ [(g, dome)] })

/-- Release every dome that may be (R16). -/
def releaseDomes (s : State) : State :=
  forEach s.wr.domesReady (fun e t => if domeDone t e.1 e.2 then releaseDome e.1 e.2 t else t) s

/-! ## What is discarded (R101, R110, R260, R288) -/

/-- Items of a partition still on their way to the packer are dropped. -/
def dropItems (keep : StreamItem → Bool) (s : State) : State :=
  s.onCz fun c => { c with
    engines := c.engines.map fun e => e.filter keep, finished := c.finished.filter keep, source := c.source.filter keep }

/-- A data set goes with a cut: staged from this number on, or a parity set of the dome group that is open after the cut or a later one. -/
def inCut (p id group : Nat) (d : DataSet) : Bool :=
  d.part == p && (match d.kind, d.n with
    | .parity, some n => decide (group ≤ groupOf n)
    | _, _ => decide (id ≤ d.id))

/-- The number after a cut: the first one cut when none of them was committed, else one past the highest committed (R53). -/
def numberAtCut (q : Part) (cutN : Nat) (written : Bool) : Nat :=
  let k := if written then max (q.highN + 1) cutN % 2 ^ 46 else cutN % 2 ^ 46
  if 496 ≤ k % 512 then nextGroup k else k

/-- Data sets of a partition from a staging number on leave staging, with their commits and rewrites; unsealed ones let their keys
go, and the dome group is open again at the number that follows. Numbers that have been written and are given up stay absent in their
groups (R16, R53, R101). -/
def discardSets (p id : Nat) (s : State) : State :=
  let cutN := match stagedSet s id with
    | some d => d.n.getD (mkN p (partAt s p).nextN)
    | none => mkN p (partAt s p).nextN
  let next := numberAtCut (partAt s p) cutN (s.wr.sets.any fun d => d.part == p && d.kind != .parity && decide (id ≤ d.id) && !uncommitted d)
  let group := groupOf (mkN p next)
  let gone := s.wr.sets.filter (inCut p id group)
  let unsealed := gone.filter fun d => d.sel.cipher != 0 && (d.stage == .assembling || d.stage == .closed)
  let ids := gone.map (·.id)
  let s1 := s.onWr fun w => { w with
    sets := w.sets.filter (fun d => !ids.contains d.id), commits := w.commits.filter (fun c => !ids.contains c.id),
    rewrites := w.rewrites.filter (fun i => !ids.contains i), requeued := w.requeued.filter (fun i => !ids.contains i),
    closed := w.closed.filter (fun e => !(partOf (512 * e.1) == p && decide (group ≤ e.1))),
    domesReady := w.domesReady.filter (fun e => !(partOf (512 * e.1) == p && decide (group ≤ e.1))),
    absent := w.absent ++ [(cutN, mkN p next)] }
  let s2 := onPart p (fun q => { q with nextN := next }) s1
  updateStall (forEach unsealed (fun d => unbindGen d.sel.slot d.sel.gen 0) s2)

/-- Started writes to a partition that have not completed. -/
def openWrites (s : State) (p : Nat) : List Cmd :=
  (byOrder s.host.cmds).filter fun c =>
    (opcodeOf c.entry == opWrite || opcodeOf c.entry == opWriteMark) && partField c.entry == p &&
    (c.phase == .packing || c.phase == .durableWait)

/-- Objects from a LON to an end that no uncompleted write owns: the first and the last of them (R101). -/
def acknowledged (cs : List Cmd) (first stop : Nat) : Option (Nat × Nat) :=
  let f := cs.foldl (fun x c => if c.lon ≤ x ∧ x < c.lon + c.count then c.lon + c.count else x) first
  let l := cs.reverse.foldl (fun x c => if c.lon < x ∧ x ≤ c.lon + c.count then c.lon else x) stop
  if f < l then some (f, l - 1) else none

/-- A waiting SYNC's scope holds an object of a partition in a data set of this staging number or a later one (R101, R292). -/
def syncHolds (s : State) (p id : Nat) (c : Cmd) : Bool :=
  opcodeOf c.entry == opSync && c.phase == .durableWait &&
  (if c.waits.isEmpty then syncScope s c p && decide (id < syncBound s c p) else c.waits.any fun w => w.1 == p && decide (id < w.2.1))

/-- Acknowledged objects are lost, in data sets from a staging number on: Lantern record 0x0032, an entry of the recovery report, and 0x0403
for the SYNCs whose scope holds one (R101, R111). -/
def reportLoss (p id cause n : Nat) (lost : Nat × Nat) (s : State) : State :=
  let s1 := lantern 0x0032 (le 8 lost.1 ++ le 8 lost.2 ++ le 1 p ++ le 1 cause) s
  let s2 := s1.onLantern fun l => { l with report := l.report ++ [reportEntry lost.1 lost.2 p (if cause = 0 then 3 else 4) n] }
  if cause = 0 then
    forEach (s2.host.cmds.filter (syncHolds s2 p id))
      (fun c => finishCmd c.qid c.tag 0x0403 c.count none) s2
  else s2

/-- End the started writes to a partition that have a byte past an end, with a status; their RESULT counts the records before it. -/
def endWritesPast (p stop st : Nat) (s : State) : State :=
  forEach (openWrites s p) (fun c t =>
    if stop < c.lon + c.count ∨ c.phase = .packing then endWrite c st (min c.count (stop - c.lon)) t else t) s

/-- The partition is cut at a data set: that one and every later one are discarded, the logical end falls back to the first object
with a byte in it, and the writes past it end with a status; the EOD for the new end is staged (R101, R110, Table 10-7). -/
def cutPartition (p id st : Nat) (s : State) : State :=
  match stagedSet s id with
  | none => s
  | some d =>
    let stop := min d.firstLon (partAt s p).logicalEnd
    let s1 := discardSets p id (dropItems (fun it => it.part != p) s)
    let s2 := endWritesPast p stop st s1
    let s3 := onPart p (fun q => { q with
      logicalEnd := stop, group := match q.group with | some g => if stop ≤ g.2.1 then none else some g | none => none }) s2
    stageEod p (eodLon s3 p) s3

/-- The partition is full at a user data set (R101). -/
def partitionFull (p id : Nat) (s : State) : State :=
  match stagedSet s id with
  | none => s
  | some d =>
    let top := (partAt s p).logicalEnd
    let writes := openWrites s p
    let n := d.n.getD noN
    let lost := acknowledged writes d.firstLon top
    let s1 := match lost with
      | some r => reportLoss p id 0 n r s
      | none => s
    let s2 := match lost with
      | some r => forEach (writes.filter fun c => durableFlag c.entry && c.phase == .durableWait && decide (r.1 < c.lon))
          (fun c => endWrite c 0x0403 (min c.count (d.firstLon - c.lon))) s1
      | none => s1
    onPart p (fun q => { q with full := true }) (cutPartition p id 0x0403 s2)

/-- Take back objects from a LON on without discarding staged data: the payload is closed, and the EOD for the LON follows (R110,
R288, R322). -/
def truncateAt (p lon : Nat) (s : State) : State := stageEod p lon (onPart p (fun q => { q with logicalEnd := lon }) s)

/-- Abandon the open group of a partition with a status for its uncompleted writes: how many records it held (R288). -/
def abandonGroup (p st : Nat) (s : State) : State :=
  match (partAt s p).group with
  | none => s
  | some g =>
    let mine := (openWrites s p).filter fun c => c.qid == g.1 && atomicFlag c.entry
    let s1 := dropItems (fun it => !(it.part == p && it.qid == g.1)) s
    let s2 := forEach mine (fun c => endWrite c st c.count) s1
    truncateAt p g.2.1 (endGroup p (s2.host.nextOrder, 0) s2)

/-- Abandon the groups that a queue holds open (R288). -/
def abandonGroupsOf (q st : Nat) (s : State) : State :=
  forEach (List.range 4) (fun p t => match (partAt t p).group with
    | some g => if g.1 = q then abandonGroup p st t else t
    | none => t) s

/-- Withdraw the tape encryption of a key slot: in each partition the data sets not yet encrypted under it go, with all after them
(Table 10-7). -/
def withdrawTape (slot : Nat) (s : State) : State :=
  forEach (List.range 4) (fun p t =>
    let s1 := dropItems (fun it => !(it.part == p && it.sel.cipher != 0 && it.sel.slot == slot)) t
    let hit := t.wr.sets.find? fun d => d.part == p && d.sel.cipher != 0 && d.sel.slot == slot && (d.stage == .assembling || d.stage == .closed)
    let s2 := match hit with
      | some d => cutPartition p d.id 0x0302 s1
      | none => s1
    forEach ((openWrites s2 p).filter fun c => c.phase == .packing && slotField c.entry == slot)
      (fun c => endWrite c 0x0302 c.count) s2) s

end Sys2Proof.Machine
end

