-- ==== Sys2Proof/Machine/ResetOps.lean ====
section
/-! DEFINITION. Loss of keys and resets: withdrawal of a slot's work (Table 10-7), the erasure of R264, alarms (R371), the part reset
and the power-on reset (R351), and the loss of an instance (R377, Table 15-1). -/

namespace Sys2Proof.Machine

/-! ## Zeroing (R262) -/

/-- End a command after zeros have gone over everything it transferred; RESULT is the number of bytes zeroed (R262). -/
def endZeroed (c : Cmd) (st : Nat) (s : State) : State :=
  finishCmd c.qid c.tag st (writtenBytes c.writes) none (zeroOut c.qid c.tag s)

/-- Discard read-ahead: what is decoded, what is decompressed and what failed to decode (R132). -/
def discardReadAhead (s : State) : State :=
  s.onRd fun r => { r with sets := [], failed := [], holes := [], packets := [], badBlocks := [], active := false, ended := false, expected := none,
                           sure := false, accepted := none, retry := none, covers := none }

/-! ## Withdrawal of a key (R260, Table 10-7) -/

/-- Reading commands that transferred data decrypted under a slot. -/
def readsUnder (s : State) (slot : Nat) : List Cmd :=
  (byOrder s.host.cmds).filter fun c =>
    (opcodeOf c.entry == opRead || opcodeOf c.entry == opVerify || opcodeOf c.entry == opSpace) && c.phase == .started &&
    c.keys.any fun k => k.1 == slot

/-- Started CRYPT commands that name a slot. -/
def cryptsUnder (s : State) (slot : Nat) : List Cmd :=
  (byOrder s.host.cmds).filter fun c => opcodeOf c.entry == opCrypt && c.phase == .started && slotField c.entry == slot

/-- CRYPT operations of a slot: open handles, and started commands that open or need none. -/
def cryptOps (s : State) (slot : Nat) : Nat :=
  (s.cupola.ctxs.filter fun x => x.slot == slot).length + ((cryptsUnder s slot).filter fun c => specField c.entry 51 1 == 0).length

/-- Operations bound to a slot's generations. -/
def boundTo (s : State) (slot : Nat) : Nat :=
  let k := keySlot s slot
  (match k.cur with | some g => g.bound | none => 0) + (match k.shadow with | some g => g.bound | none => 0)

/-- Withdraw every operation of a slot (Table 10-7). -/
def withdrawSlot (slot : Nat) (s : State) : State :=
  let n := boundTo s slot + (readsUnder s slot).length + cryptOps s slot
  let s1 := s.onCupola fun c => { c with cntWithdraw := incBy c.cntWithdraw n }
  let s2 := closeSlotHandles slot (discardPlain slot (withdrawTape slot s1))
  let s3 := forEach (readsUnder s2 slot) (fun c => endZeroed c 0x0302) s2
  settle (forEach (cryptsUnder s3 slot) (fun c => endZeroed c 0x0302) s3)

/-- The key material of a slot is zeroized; the slot is EMPTY (Table 10-2). -/
def zeroizeSlot (slot : Nat) (s : State) : State :=
  onSlot slot (fun k => { k with state := .empty, cur := none, shadow := none, erasers := [] }) s

/-- Every slot is withdrawn and zeroized, and the erasures that waited for it complete (R242, Table 10-7). -/
def eraseSlots (s : State) : State :=
  let used := (List.range 64).filter fun i => (keySlot s i).state != .empty
  let s1 := forEach used withdrawSlot s
  let erasers := (List.range 64).flatMap fun i => (keySlot s1 i).erasers
  forEach erasers (fun t => reply 0 t 0 0) (forEach (List.range 64) zeroizeSlot s1)

/-- The erasure of R264: every slot with its derived keys, the context KEK and store, the transport private keys and the mount
nonce; operations in flight end as in Table 10-7, and read-ahead goes (R132). -/
def eraseKeys (s : State) : State :=
  ((discardReadAhead (eraseSlots s)).onKeep fun k => { k with transport := none, ctxKek := none, spillLatest := [] }).onCupola fun c =>
    { c with nonce := 0, ctxs := [], spilled := [] }

/-- Take an alarm (R371): the erasure, ALARM_N, KEEP_STAT.ERASED, the cause, the inhibit, source 110 and record 0x0060. A privileged operation
that has started and not committed completes with 0x0500 (R368). -/
def takeAlarm (cause : Fin 5) (s : State) : State :=
  let s1 := (s.onTrust fun t => { t with cause := setBit t.cause cause true, lifetime := min 65535 (t.lifetime + 1) }).onPins
    fun p => { p with alarmAsserted := true }
  let s2 := inhibitOn .alarm ((eraseKeys s1).onKeep fun k => { k with erased := true })
  let s3 := raise 110 (lantern 0x0060 (le 1 s2.trust.cause.toNat) s2)
  forEach ((byOrder s3.host.cmds).filter fun c => c.qid == 0 && opcodeOf c.entry == opPresence && c.phase == .started)
    (fun c => reply c.qid c.tag 0x0500 0) s3

/-! ## The part reset and the power-on reset (R351, R377) -/

/-- Belfry after a part reset: the wake latches and their enables lie in AON, and a set latch is pending (R331). -/
def latchedBelfry (b : Belfry) : Belfry :=
  { ({} : Belfry) with
    latched := b.latched, wakeEn := b.wakeEn,
    sources := Vector.ofFn fun n : Fin 480 =>
      { ({} : Source) with pending := decide (112 ≤ n.val ∧ n.val < 128) && b.latched.getLsbD (n.val - 112) } }

/-- What a part reset leaves: AON with Lantern, the MRAM, the fuses, the flash, the pins, the cartridge and the model's own
records; everything else is as after reset (R351, log 27). -/
def afterPartReset (s : State) : State :=
  { State.reset with
    pins := { s.pins with alarmAsserted := false, motEn := 0 },
    boot := { s.boot with
      phase := .held, cause := 0, confirmed := false, ready := false, watchdog := none, staged := 0, stagedOk := false,
      stagedPermit := false, activation := none, fromPs4 := false, bootCount := (s.boot.bootCount + 1) % 2 ^ 32 },
    trust := { s.trust with
      debug := false, permit := none, cause := 0, mismatches := 0, tables := Vector.replicate 5 none, steepleNext := none,
      headNext := none, subsystem := (0xF7D5, 0x1024) },
    power := { s.power with
      pstate := 0, entering := false, ps4Due := none, domOn := BitVec.ofNat 111 (2 ^ 110),
      domFault := s.power.domFault &&& BitVec.ofNat 111 (2 ^ 110), vop := 600, vout := 600, avsTarget := none, avsTries := 0,
      avsFailed := false, cntAvsFail := 0, cntHoldover := 0, hotMs := 0, coolMs := 0 },
    lantern := { s.lantern with outOfService := s.lantern.outOfService.filter fun e => e.1 == .aon },
    host := { ({} : HostIf) with floor := s.host.floor },
    keep := { ({} : Keep) with loadSeq := s.keep.loadSeq },
    drive := { ({} : Drive) with cart := s.drive.cart },
    ecc := { ({} : Ecc) with dead0 := s.ecc.dead0, dead1 := s.ecc.dead1, deadHead := s.ecc.deadHead },
    tiles := { ({} : Tiles) with savedTaps := s.tiles.savedTaps, tapsHead := s.tiles.tapsHead },
    stp := { ({} : Steeple) with thetaCal := s.stp.thetaCal, thetaHead := s.stp.thetaHead },
    blf := latchedBelfry s.blf,
    out := s.out, fresh := s.fresh, pending := s.pending }

/-- A part reset of a cause of record 0x0002: the record first, then tokens stop, then the reset (R351, R377). -/
def partReset (cause : Nat) (s : State) : State := afterPartReset (stopTokens (lantern 0x0002 [BitVec.ofNat 8 cause] s))

/-- A power-on reset: AON starts afresh too; only MRAM, fuses, flash, pins and the cartridge stay (R351, R406). -/
def afterPowerOn (s : State) : State :=
  let t := afterPartReset s
  { t with
    trust := { t.trust with press := none, sealOk := false, sealBroken := false, lfsr := 1 },
    power := { ({} : Power) with refA := s.power.refA, refB := s.power.refB, junction := s.power.junction,
                                 lifeBase := s.power.lifeMram, lifeMram := s.power.lifeMram },
    lantern := { ({} : Lantern) with
      pinnedRecs := s.lantern.pinnedRecs, ring := s.lantern.ring, rseq := s.lantern.rseq, pinFull := s.lantern.pinFull,
      events := s.lantern.events, keptOutcomes := s.lantern.keptOutcomes, report := s.lantern.report },
    blf := {} }

/-! ## An instance out of service (R376, R377, Table 15-1) -/

/-- The row's number in Table 15-1. -/
def rowNo : FaultRow → Nat
  | .headElement => 1 | .tile => 2 | .hlInLane => 3 | .hlOutLane => 4 | .hlPhyHalf => 5 | .eccCluster => 6 | .cupolaCore => 7
  | .czEngine => 8 | .dramDie => 9 | .bufferStack => 10 | .hostPort => 11 | .steeple => 12 | .controlCore => 13
  | .fabricPlane => 14 | .keepCopy => 15 | .servoReader => 16 | .encoder => 17 | .aon => 18

/-- The domain that is switched off for a fault of an instance (Table 16-2). -/
def rowDomain (row : FaultRow) (i : Nat) : Option Nat :=
  match row with
  | .tile => some (i % 64)
  | .hlPhyHalf => some (64 + i % 16)
  | .eccCluster => some (80 + i % 8)
  | .cupolaCore => some (88 + i % 4)
  | .czEngine => some (92 + i % 4)
  | .bufferStack => some (96 + i % 2)
  | .hostPort => some (98 + i % 2)
  | .steeple => some (100 + i % 2)
  | .controlCore => some (102 + i % 4)
  | .keepCopy => some (106 + i % 2)
  | .fabricPlane => some (108 + i % 2)
  | .headElement | .hlInLane | .hlOutLane | .dramDie | .servoReader | .encoder | .aon => none

/-- An instance of a row is out of service. -/
def outOf (s : State) (row : FaultRow) (i : Nat) : Bool := s.lantern.outOfService.contains (row, i)

/-- Instances of a row out of service. -/
def outCount (s : State) (row : FaultRow) : Nat := s.lantern.outOfService.countP fun e => e.1 == row

/-- A further fault of this row makes a double-fault reset (the last column of Table 15-1). -/
def noSpare (s : State) (row : FaultRow) : Bool :=
  match row with
  | .bufferStack | .steeple | .fabricPlane | .keepCopy => decide (1 ≤ outCount s row)
  | .controlCore => decide (3 ≤ outCount s row)
  | _ => false

/-- Note an instance as out of service: its domain off for a fault, record 0x0010 and its device event (R376, R394). -/
def noteOut (row : FaultRow) (i : Nat) (s : State) : State :=
  let s1 := s.onLantern fun l => { l with outOfService := l.outOfService ++ [(row, i)] }
  let s2 := match rowDomain row i with
    | some d => s1.onPower fun p => { p with domOn := setBit p.domOn d false, domFault := setBit p.domFault d true }
    | none => s1
  lantern 0x0010 (le 1 (rowNo row) ++ le 1 i ++ le 2 (Config.detectorCode row) ++ le 8 s.wr.slot) s2

/-- An instance has returned to service (R377). -/
def noteBack (row : FaultRow) (i : Nat) (s : State) : State :=
  if outOf s row i then
    lantern 0x0011 (le 1 (rowNo row) ++ le 1 i) (s.onLantern fun l => { l with outOfService := l.outOfService.filter (· != (row, i)) })
  else s

/-- A stack is lost (R116, R117): staging goes on from the surviving copies, the read-ahead the stack held goes, and Weathervane
records it. -/
def loseStack (i : Fin 2) (s : State) : State :=
  let s1 := s.onWr fun w => { w with
    stackOk := setBit w.stackOk i false, sets := w.sets.map fun d => { d with inStacks := setBit d.inStacks i false } }
  let lost := s.rd.sets.filter fun r => r.stack == i
  let gone := lost.map (·.n)
  let s2 := s1.onRd fun r => { r with
    sets := r.sets.filter (fun x => x.stack != i),
    holes := r.holes ++ (lost.filter fun x => !isParityN x.n).map (fun x => (x.n, x.wrap, x.slot)), nextStack := if i = 0 then 1 else 0,
    packets := r.packets.filter fun k => !(k.deps.any fun n => gone.contains n) }
  raise (96 + i.val) (wvnRecord 2 s2)

/-- Hand a frame to an engine for decompression (R237). -/
def toDecomp (it : DecompItem) (s : State) : State :=
  needDomains (92 + engineFor s) 1 (s.onCz fun c => { c with decomp := updAt c.decomp (engineFor s) fun l => l ++ [it] })

/-- A compression engine leaves service; its blocks are done again on others, from the host's memory (R14, R238). -/
def loseEngine (i : Nat) (s : State) : State :=
  let work := getAt s.cz.engines i []
  let reads := getAt s.cz.decomp i []
  let s1 := s.onCz fun c => { c with
    inService := setBit c.inService i false, engines := putAt c.engines i [], decomp := putAt c.decomp i [],
    source := work.map (fun it => { it with run := none }) ++ c.source }
  raise (92 + i) (forEach reads toDecomp s1)

/-- Re-route a core's sources when it leaves service: to the lowest-numbered core in service; its active sources are pending again
(R336). -/
def loseCore (c : Fin 4) (s : State) : State :=
  let ok := setBit s.blf.coreOk c false
  let heir : Fin 5 := match (List.range 4).find? fun i => ok.getLsbD i with
    | some i => if h : i < 5 then ⟨i, h⟩ else 4
    | none => 4
  offers (s.onBlf fun b => { b with
    coreOk := ok, cores := b.cores.set c {},
    sources := b.sources.map fun q =>
      let q1 := if q.active = some c then { q with active := none, pending := true } else q
      if q1.route.val = c.val then { q1 with route := heir } else q1 })

/-- Cupola's or the ECC clusters' loss of a core or cluster bounds r anew (R256, R257, Table 15-1). -/
def loseCipherCore (i : Nat) (s : State) : State :=
  raise (88 + i) (clampNow (s.onCupola fun c => { c with inService := setBit c.inService i false, cntCorErr := inc c.cntCorErr }))

/-- The data sets in flight to verify are rewritten (R98; Table 15-1, row 2). -/
def rewriteInFlight (s : State) : State :=
  let live := s.wr.commits.filter fun c => !c.affected
  forEach live hitCommit (s.onWr fun w => { w with commits := w.commits.map fun c => { c with affected := true } })

/-- The effect of a lost instance on its own block. -/
def loseBlock (row : FaultRow) (i : Nat) (s : State) : State :=
  match row with
  | .tile => raise (i % 64) (rewriteInFlight (s.onTiles fun k => { k with inService := setBit k.inService (i % 64) false }))
  | .eccCluster => raise (80 + i % 8) (clampNow (s.onEcc fun e => { e with inService := setBit e.inService (i % 8) false }))
  | .cupolaCore => loseCipherCore (i % 4) s
  | .czEngine => loseEngine (i % 4) s
  | .bufferStack => loseStack (if i % 2 = 0 then 0 else 1) s
  | .controlCore => loseCore (Fin.ofNat 4 i) s
  | .fabricPlane => raise (106 + i % 2) s
  | .keepCopy => raise (104 + i % 2) (s.onKeep fun k => { k with copyOk := setBit k.copyOk (i % 2) false })
  | .aon | .dramDie | .headElement | .hlInLane | .hlOutLane | .hlPhyHalf | .hostPort | .steeple | .servoReader | .encoder => s

/-- Take an instance out of service: already out, nothing more; with no spare left, a double-fault reset, cause 3 (R377). -/
def takeOut (row : FaultRow) (i : Nat) (s : State) : State :=
  if outOf s row i then s
  else if noSpare s row then partReset 3 (if row = .keepCopy then s.onBoot fun b => { b with keepFault := true } else s)
  else loseBlock row i (noteOut row i s)

/-- A compression engine fails: its work goes to the others, and an engine that is out already changes nothing (R376). -/
def engineFault (e : Nat) (s : State) : State := if outOf s .czEngine e then s else pack (takeOut .czEngine e s)

end Sys2Proof.Machine
end

