-- ==== Sys2Proof/Machine/WriteOps.lean ====
section
/-! DEFINITION. The write run's shared operations: the erase map and its declarations (R82, R102), WRITE packets (R214), which data set a
slot takes (R98, R101, R108, R129), the commit (R90), the verify's outcome (R96, R99, R100), and the ends of a wrap and of a run
(R101, R111, R128, R129). -/

namespace Sys2Proof.Machine

/-! ## The erase map (R82, R102, R103) -/

/-- The channels of the tiles out of service (Table 15-1, row 2). -/
def tilesOut (s : State) : BitVec 1024 :=
  BitVec.ofNat 1024 (((List.range 64).filter fun t => !s.tiles.inService.getLsbD t).map fun t => 0xFFFF * 2 ^ (16 * t)).sum

/-- Channels declared dead for a module (R102). -/
def deadOf (s : State) (m : Nat) : BitVec 1024 := if m = 0 then s.ecc.dead0 else s.ecc.dead1

/-- ECC_ERASE_MAP for a module: channels declared dead, and those of tiles out of service (R82, R102). -/
def eraseMap (s : State) (m : Nat) : BitVec 1024 := deadOf s m ||| tilesOut s

/-- Declare a channel dead for a module: its bit, record 0x0020 with BEYOND above 32, and its tile's source (R102, R103, R380). -/
def declareDead (m c : Nat) (s : State) : State :=
  let s1 := s.onEcc fun e => if m = 0 then { e with dead0 := setBit e.dead0 c true } else { e with dead1 := setBit e.dead1 c true }
  raise (c / 16) (lantern 0x0020 (le 1 m ++ le 2 c ++ le 1 (decide (32 < popcount (deadOf s1 m))).toNat) s1)

/-- ECC_VFY_CFG2 fields in effect (R97). -/
def deadRun (w : Word) : Nat := max 1 (bits w.toNat 0 8)
def maxCopies (w : Word) : Nat := max 1 (bits w.toNat 8 4)
def skipSlots (w : Word) : Nat := max 1 (bits w.toNat 16 8)
def deadStop (w : Word) : Nat := max 32 (min 56 (bits w.toNat 24 8))

/-- FAIL_FRAMES and FAIL_WEAK in effect (R97). -/
def failFrames (w : Word) : Nat := min 60 (bits w.toNat 16 8)
def failWeak (w : Word) : Nat := max (failFrames w) (min 60 (bits w.toNat 24 8))

/-- A channel shed by its group: its number in the group is among the last K (R222). -/
def shedChannel (s : State) (c : Nat) : Bool := decide (128 - (hlGroup s (c / 128)).shed ≤ c % 128)

/-! ## WRITE packets (R33 to R36, R214) -/

/-- The place on a wrap, in channel bits, of the first bit of a slot, its leading wedge included (R33, R34). -/
def slotBitIndex (slot : Nat) : Nat :=
  let d := slotBits * slot
  d + 80 * (d / wordBits + (if d % wordBits = 0 then 0 else 1))

/-- The channel bits that stand in a slot: the wedge that begins its word, if it begins one, and the frame (R33, R35). -/
def slotStream (slot : Nat) (frame : List Bool) : List Bool :=
  (if slotBits * slot % wordBits = 0 then wedgeBits else []) ++ slotBitsOnTape slot frame

/-- The payload blocks of a WRITE packet from at most 1,600 channel bits, zeros behind them (R214). -/
def packetBlocks (bs : List Bool) : List (BitVec 64) :=
  (List.range 25).map fun i =>
    BitVec.ofNat 64 (((List.range 64).filter fun k => bs.getD (64 * i + k) false).map fun k => 2 ^ k).sum

/-- Send one WRITE packet of a channel: X and PHASE hold the whole write delay (R214). Two live lanes share the channels of a group
by turns. -/
def writePacket (c at_ : Nat) (last : Bool) (bs : List Bool) (s : State) : State :=
  let g : Fin 8 := Fin.ofNat 8 (c / 128)
  let k := hlGroup s g
  let w := getAt s.tiles.wdly c 144000
  match txLanes k with
  | [] => s
  | l :: ls =>
    if k.state ≠ .up then s
    else
      let lane := if c % 2 = 0 then l else ls.getLastD l
      hlSend g lane 8 (c % 128 + 2 ^ 7 * last.toNat + 2 ^ 8 * ((at_ + w / 16) % 2 ^ 21) + 2 ^ 29 * (w % 16)) (packetBlocks bs) s

/-- Send every whole packet that a channel's bits fill (R214). -/
def drainChannel (c : Nat) : Nat → State → State
  | 0, s => s
  | fuel + 1, s =>
    let q := getAt s.tiles.wfifo c []
    if q.length < 1600 then s
    else
      let at_ := getAt s.tiles.wfifoAt c 0
      let s1 := writePacket c at_ false (q.take 1600) s
      drainChannel c fuel (s1.onTiles fun k => { k with
        wfifo := putAt k.wfifo c (q.drop 1600), wfifoAt := putAt k.wfifoAt c (at_ + 1600) })

/-- A channel's bits of one slot join those not yet sent (R214). -/
def pushChannel (c at_ : Nat) (bs : List Bool) (s : State) : State :=
  let q := getAt s.tiles.wfifo c []
  drainChannel c 8 (s.onTiles fun k => { k with
    wfifo := putAt k.wfifo c (q ++ bs), wfifoAt := if q.isEmpty then putAt k.wfifoAt c at_ else k.wfifoAt })

/-- The writers go off behind what has been committed: each channel's last bits go out in a LAST packet (R214). -/
def flushChannels (s : State) : State :=
  forEach (List.range 1024) (fun c t =>
    let q := getAt t.tiles.wfifo c []
    if q.isEmpty then t
    else (writePacket c (getAt t.tiles.wfifoAt c 0) true q t).onTiles fun k => { k with wfifo := putAt k.wfifo c [] }) s

/-- Every channel's frame of a data set for a slot goes to the front-ends (R36 to R43, R67 to R72, R214). -/
def writeFrames (slot n : Nat) (rewritten : Bool) (payload : Bytes) (s : State) : State :=
  let rows := payloadRows payload
  forEach (List.range 1024) (fun c =>
    pushChannel c (slotBitIndex slot) (slotStream slot (dataSetFrame n c rewritten rows))) s

/-- The end of a wrap: the preamble pattern fills the slots after the last frame, if any are left, and the 3,296 data bits behind the last
slot, and the wedge at the far end closes the wrap (R33, R34). The fill of whole slots stands for the packets that carry it (log 165). -/
def writeTail (s : State) : State :=
  let s1 := flushChannels s
  let s2 := if s.wr.slot < slotsPerWrap then emit (.writeFill s.wr.wrap s.wr.slot) s1 else s1
  flushChannels (forEach (List.range 1024) (fun c =>
    pushChannel c (slotBitIndex slotsPerWrap) (((List.range 3296).map fun i => decide (i % 4 < 2)) ++ wedgeBits)) s2)

/-- The place on a wrap, in channel bits, of the wedge that begins or falls inside a slot, if one does (R33, R35). -/
def slotWedge (slot : Nat) : Option Nat :=
  let r := slotBits * slot % wordBits
  if r = 0 then some (slotBitIndex slot)
  else if wordBits < r + slotBits then some (slotBitIndex slot + (wordBits - r)) else none

/-- The writers write nothing in a slot but the wedge at a word boundary, if one lies in it and tokens flow (R33, R90, log 165). -/
def writeNothing (s : State) : State :=
  let s1 := flushChannels s
  match slotWedge s.wr.slot with
  | some at_ =>
    if s.wr.tokens && writeFree s then flushChannels (forEach (List.range 1024) (fun c => pushChannel c at_ wedgeBits) s1) else s1
  | none => s1

/-! ## A run (R111, R129, R445) -/

/-- A data set waits for its first slot. -/
def readyFirst (d : DataSet) : Bool := d.stage == .encoded

/-- The partition and the first number that a new write run takes up. -/
def runHead (s : State) : Option DataSet := s.wr.sets.find? readyFirst

/-- Where a partition is written next: its append point, or the first slot of its next wrap (R55). -/
def appendPoint (s : State) (p : Nat) : Nat × Nat :=
  let pt := partAt s p
  if slotsPerWrap ≤ pt.slot ∧ pt.wrap < pt.lastWrap then (pt.wrap + 1, 0) else (pt.wrap, pt.slot)

/-- The dead count of the module that verifies on a wrap exceeds DEAD_STOP (R104). -/
def headDegradedAt (s : State) (w : Nat) : Bool := decide (deadStop s.ecc.vfyCfg2 < popcount (deadOf s (moduleOf w)))

/-- The same where a partition is written next: no new writing (R104). -/
def headDegraded (s : State) (p : Nat) : Bool := headDegradedAt s (appendPoint s p).1

/-- Point the write path at a partition's append point and make the wrap's entry (R55, R111). -/
def enterWrap (d : DataSet) (s : State) : State :=
  let a := appendPoint s d.part
  let n := d.n.getD 0
  let s1 := s.onWr fun w => { w with
    part := d.part, wrap := a.1, slot := a.2, resumeAt := a.2, anchor := none, skipLeft := 0, wrapEnding := false, noFirst := false,
    sets := w.sets.map fun d => { d with skips := 0 } }
  let s2 := onPart d.part (fun q => { q with
    wrap := a.1, slot := a.2, highN := if a.2 = 0 then (if q.highN = noN then n else max q.highN n) else q.highN }) s1
  openWrap a.1 a.2 d.part n d.firstLon s2

/-- A write run may begin: nothing else moves the tape and every group serves (R134, R225). -/
def mayWrite (s : State) : Bool :=
  (s.wvn.run == .none || (s.wvn.run == .writing && s.wvn.refused)) && s.wvn.state == .idle && writable s && !anyGroupFailed s &&
  !training s

/-- Begin a write run when an encoded data set waits for one. DIRTY = 1 is written and read back first; once it has been refused it is tried
again only at the points of R111. -/
def kickWrites (retry : Bool) (s : State) : State :=
  match runHead s with
  | none => s
  | some d =>
    if mayWrite s && (retry || !memoryRefuses s) then
      if sessionOpen s then
        let s2 := enterWrap d s
        beginRun .writing s2.wr.wrap s2.wr.slot s2
      else openSession s
    else s

/-! ## Which data set a slot takes (R98, R99, R101, R108, R129) -/

/-- Rewrites of data sets that have passed meanwhile, or are gone, are withdrawn (R99). -/
def pruneRewrites (s : State) : State :=
  s.onWr fun w => { w with rewrites := w.rewrites.filter fun i => w.sets.any fun d => d.id == i && d.stage != .passed }

/-- Parity of every dome of a group is staged or already released. -/
def groupParity (s : State) (g : Nat) : Bool :=
  (List.range 8).all fun d => s.wr.domesReady.contains (g, d) || s.wr.domesReleased.contains (g, d)

/-- A data set's turn has come: no closed dome group before its own still waits for parity, and a parity set's own group has all of it
(R53, R54). -/
def turnCome (s : State) (d : DataSet) (n : Nat) : Bool :=
  (!isParityN n || groupParity s (groupOf n)) &&
  !(s.wr.closed.any fun e => partOf (512 * e.1) == d.part && decide (e.1 < groupOf n) && !groupParity s e.1)

/-- The numbered data set of the partition in hand with the lowest number that no slot has taken. -/
def nextNumbered (s : State) : Option DataSet :=
  let c := s.wr.sets.filter fun d => d.part == s.wr.part && uncommitted d && d.n.isSome && !s.wr.rewrites.contains d.id
  c.foldl (fun b d => match b with
    | none => some d
    | some x => if d.n.getD 0 < x.n.getD 0 then some d else some x) none

/-- The slot in hand lies in the end reserve of the partition (R101). -/
def inReserve (s : State) : Bool :=
  decide (s.wr.wrap = (partAt s s.wr.part).lastWrap ∧ slotsPerWrap - 64 ≤ s.wr.slot)

/-- What a commit point decides. -/
inductive SlotUse where
  | rewrite (d : DataSet)
  | first (d : DataSet)
  | filler
  | full (id : Nat)
  | nothing
  deriving DecidableEq, Repr

/-- Only the closing EOD and its parity may stand in the end reserve (R101). -/
def reservedOnly (d : DataSet) : Bool := d.kind == .user || d.kind == .filler

/-- A filler may be committed: the tape streams, the group's floor allows KIND 0x02, and no numbered data set waits (R108). -/
def fillerDue (s : State) : Bool :=
  let pt := partAt s s.wr.part
  let floor := groupFloor s s.wr.part
  s.wvn.state == .stream && decide (0x11 ≤ floor) && !inReserve s && !pt.full &&
  !(s.wr.closed.any fun e => partOf (512 * e.1) == s.wr.part && !groupParity s e.1)

/-- The decision at a commit point, once withdrawn rewrites are out of the way (R98, R101, R108, R129). -/
def slotUse (s : State) : SlotUse :=
  match s.wr.rewrites.head?.bind (stagedSet s) with
  | some d =>
    if d.part ≠ s.wr.part then .nothing
    else if inReserve s && reservedOnly d then .full d.id else .rewrite d
  | none =>
    if s.wr.noFirst then .nothing
    else
      match s.wr.requeued.head?.bind (stagedSet s) with
      | some d => if inReserve s && reservedOnly d then .full d.id else .first d
      | none =>
        match nextNumbered s with
        | some d =>
          if readyFirst d && turnCome s d (d.n.getD 0) then (if inReserve s && reservedOnly d then .full d.id else .first d)
          else .nothing
        | none => if fillerDue s then .filler else .nothing

/-! ## The commit (R90) -/

/-- The commit point of the slot in hand (R90). -/
def commitPoint (s : State) : Rat :=
  match s.wr.anchor with
  | none => s.power.time
  | some (slot, point) => point + ((s.wr.slot : Rat) - (slot : Rat)) * slotTicks s.stp.v

/-- The slot goes on to the next one. -/
def passSlot (point : Rat) (s : State) : State := s.onWr fun w => { w with slot := w.slot + 1, anchor := some (w.slot, point) }

/-- A slot is left unwritten (R90). A backhitch comes back to it (R130). -/
def leaveSlot (point : Rat) (s : State) : State := passSlot point (writeNothing s)

/-- A slot is left unwritten for a skip: a backhitch does not come back to it (R100). -/
def leaveSkip (point : Rat) (s : State) : State :=
  leaveSlot point (s.onWr fun w => { w with skipLeft := w.skipLeft - 1, resumeAt := w.slot + 1 })

/-- Put a copy on the tape (R34, R43). Whether the medium carries it is not the formatter's to know before its verify (log 6). -/
def landCopy (n slot : Nat) (rewritten : Bool) (payload : Bytes) (s : State) : State :=
  let w := s.wr.wrap
  draw (onTape (fun ts => (ts.filter fun t => !(t.wrap == w && t.slot == slot)) ++
    [{ wrap := w, slot := slot, n := n, rewritten := rewritten, whole := true, decodes := Config.choice s.fresh, payload := payload }]) s)

/-- Note in the partition and in the volume what a commit puts on tape (R55, R59, R61, R321). -/
def noteCommit (d : DataSet) (n slot : Nat) (rewritten : Bool) (s : State) : State :=
  let w := s.wr.wrap
  let user := d.kind == .user
  let s1 := onPart d.part (fun q => { q with
    highN := if q.highN = noN then n else max q.highN n, wrap := w, slot := slot + 1,
    onLastWrap := q.onLastWrap || (user && w == q.lastWrap), eodN := if user && !rewritten then none else q.eodN }) s
  let s2 := if d.kind = .parity then s1
    else onVol (fun v => { v with lastRevision := max v.lastRevision (field d.payload 4 1), floor := field d.payload 4 1 }) s1
  if user && !rewritten then noteIndex w slot n d.firstLon s2 else s2

/-- Commit a data set to the slot in hand (R90, R98). -/
def commitSet (d : DataSet) (rewritten : Bool) (point : Rat) (s : State) : State :=
  let slot := s.wr.slot
  let n := d.n.getD 0
  let s1 := s.onWr fun w => { w with
    commits := w.commits ++ [⟨slot, d.id, rewritten, point, false, s.ecc.vfyCfg, s.ecc.vfyCfg2⟩],
    resumeAt := slot + 1, history := (rewritten :: w.history).take 4096, rewrites := w.rewrites.filter (· != d.id),
    requeued := w.requeued.filter (· != d.id) }
  let s2 := onSet d.id (fun d => { d with stage := .committed }) s1
  let s3 := if rewritten then s2.onEcc fun e => { e with cntRewrite := inc e.cntRewrite } else s2
  passSlot point (writeFrames slot n rewritten d.payload (landCopy n slot rewritten d.payload (noteCommit d n slot rewritten s3)))

/-- The FIRST_LON that the partition's next user data set will carry (R108). -/
def nextUserLon (s : State) (p : Nat) : Nat :=
  match s.wr.sets.find? fun d => d.part == p && d.kind == .user && (d.stage == .assembling || d.stage == .closed) with
  | some d => d.firstLon
  | none => (partAt s p).logicalEnd

/-- The filler data set of the partition in hand (R108). -/
def fillerSet (s : State) : DataSet :=
  { freshSet s s.wr.part .filler ⟨0, 0xFF, 0⟩ (nextUserLon s s.wr.part) with stage := .closed }

/-- Commit the data set of an id, where it is staged. -/
def commitId (id : Nat) (point : Rat) (s : State) : State :=
  match stagedSet s id with
  | some d => commitSet d false point s
  | none => s

/-- Commit a filler data set: it takes the next N and a dome position like a user data set (R108). -/
def commitFiller (point : Rat) (s : State) : State :=
  commitId s.wr.nextId point (sealSet (fillerSet s) (stage (fillerSet s) s))

/-- Do what a commit point has decided (R90, R98, R101, R108, R129). -/
def useSlot (point : Rat) (s : State) : State :=
  match slotUse s with
  | .rewrite d => commitSet d true point s
  | .first d => commitSet d false point s
  | .filler => commitFiller point s
  | .full id => leaveSlot point (settle (partitionFull s.wr.part id s))
  | .nothing => leaveSlot point (if s.wvn.state = .stopping then s.onWr fun w => { w with noFirst := true } else s)

/-! ## Ends (R101, R111, R128, R129) -/

/-- Nothing is on its way to the reader and nothing waits to be rewritten. -/
def allVerified (s : State) : Bool := s.wr.commits.isEmpty && s.wr.rewrites.isEmpty

/-- The backhitch begins once the last slot committed is verified (Table 05-3). -/
def backhitchIfDone (s : State) : State :=
  if s.wvn.run = .writing ∧ s.wvn.state = .stopping ∧ s.wr.noFirst ∧ allVerified s ∧ !s.stp.program.running then
    startBackhitch s
  else s

/-- No slot is left for a partition: what cannot be placed is discarded, and nothing closes it on tape (R101). -/
def partitionOut (p : Nat) (s : State) : State :=
  let s1 := match s.wr.sets.find? fun d => d.part == p && reservedOnly d && d.stage != .passed && d.stage != .committed with
    | some d => partitionFull p d.id s
    | none => s
  let left := (s1.wr.sets.filter fun d => d.part == p && uncommitted d).map (·.id)
  endRun (s1.onWr fun w => { w with
    sets := w.sets.filter (fun d => !left.contains d.id), rewrites := w.rewrites.filter fun i =>
      !(s1.wr.sets.any fun d => d.id == i && d.part == p), wrapEnding := false })

/-- The run in hand has written all it was given and another partition's data waits, or the run was asked to end. -/
def otherPartition (s : State) : Bool :=
  allVerified s && (nextNumbered s).isNone && s.wr.sets.any fun d => readyFirst d && d.part != s.wr.part

/-- After a change in what is verified: releases, waiting commands, the backhitch, another partition's turn. -/
def afterVerify (s : State) : State :=
  let s1 := backhitchIfDone (pack (releaseDomes s))
  if s1.wvn.run = .writing ∧ s1.wvn.state = .stream ∧ otherPartition s1 then kickWrites false (endRun s1) else s1

/-! ## Verify (R95, R96, R99, R100, R102) -/

/-- What verify found of a slot; a slot of which nothing was found has failed on every channel (Table 04-3). -/
def verifyOf (s : State) (slot : Nat) : VerifyRec :=
  (s.tiles.verifies.find? fun v => v.slot == slot).getD ⟨slot, List.replicate 1024 0, true⟩

/-- The consecutive failures of each channel after a verified data set, shed channels left as they are (R102, R222). -/
def runsAfter (s : State) (v : VerifyRec) (old : Vector Nat 1024) : Vector Nat 1024 :=
  Vector.ofFn fun c : Fin 1024 => if shedChannel s c.val then old[c] else if v.grades.getD c.val 0 = 0 then old[c] + 1 else 0

/-- Count a verified data set toward the dead channels of a module (R102). -/
def countDead (m : Nat) (v : VerifyRec) (limit : Nat) (s : State) : State :=
  let runs := runsAfter s v (if m = 0 then s.ecc.run0 else s.ecc.run1)
  let s1 := s.onEcc fun e => if m = 0 then { e with run0 := runs } else { e with run1 := runs }
  let new := (List.range 1024).filter fun c => decide (limit ≤ getAt runs c 0) && !(deadOf s m).getLsbD c && !shedChannel s c
  forEach new (declareDead m) s1

/-- The channels of R96 that count: those outside the erase map of the verifying module. -/
def counted (s : State) (m : Nat) (v : VerifyRec) (grade : Nat → Bool) : Nat :=
  (List.range 1024).countP fun c => !(eraseMap s m).getLsbD c && grade (v.grades.getD c 0)

/-- The data set has passed verify under the settings of its commit and the map in force when it was verified (R82, R96, R97). -/
def verifyPasses (s : State) (m : Nat) (cfg : Word) (v : VerifyRec) : Bool :=
  decide (counted s m v (· == 0) ≤ failFrames cfg) && decide (counted s m v (· ≤ 1) ≤ failWeak cfg) && !v.syndrome

/-- A copy has passed: the data set waits only for its dome (R16), and an EOD comes into force (R59). -/
def copyPassed (d : DataSet) (c : Commit) (s : State) : State :=
  let w := s.wr.wrap
  let s1 := onSet d.id (fun d => { d with stage := .passed, fails := 0 }) s
  let s2 := onTape (fun ts => ts.map fun t => if t.wrap = w ∧ t.slot = c.slot then { t with decodes := true } else t) s1
  let s3 := s2.onWr fun w => { w with rewrites := w.rewrites.filter (· != d.id) }
  if d.kind = .eod then onPart d.part (fun q => { q with eodN := d.n }) s3 else s3

/-- A skip: slots are left unwritten before the next copy, and the second skip of a data set ends the wrap as its last slot does (R100). -/
def countSkip (d : DataSet) (c : Commit) (s : State) : State :=
  let s1 := s.onEcc fun e => { e with cntSkip := inc e.cntSkip }
  let s2 := onSet d.id (fun d => { d with fails := 0, skips := d.skips + 1 }) s1
  if 1 ≤ d.skips then writeTail (s2.onWr fun w => { w with wrapEnding := true })
  else s2.onWr fun w => { w with skipLeft := skipSlots c.cfg2 }

/-- A copy has failed: the data set is written again, after a skip when MAX_COPIES in a row have failed (R98, R100). -/
def copyFailed (d : DataSet) (c : Commit) (s : State) : State :=
  let s1 := needRewrite d.id s
  if maxCopies c.cfg2 ≤ d.fails + 1 then countSkip d c s1 else onSet d.id (fun d => { d with fails := d.fails + 1 }) s1

/-- Take the verify result of a slot (R96, R99). -/
def takeVerify (slot : Nat) (s : State) : State :=
  match s.wr.commits.find? fun c => c.slot == slot with
  | none => s
  | some c =>
    let v := verifyOf s slot
    let m := moduleOf s.wr.wrap
    let s1 := (s.onWr fun w => { w with commits := w.commits.filter fun x => x.slot != slot }).onTiles fun k =>
      { k with verifies := k.verifies.filter fun x => x.slot != slot }
    let s2 :=
      if c.affected then s1
      else
        match stagedSet s1 c.id with
        | none => s1
        | some d =>
          if d.stage = .passed then s1
          else
            let t := countDead m v (deadRun c.cfg2) s1
            if verifyPasses s1 m c.cfg v then copyPassed d c t else copyFailed d c t
    afterVerify s2

end Sys2Proof.Machine
end

