-- ==== Sys2Proof/Machine/AbortOps.lean ====
section
/-! DEFINITION. What a reset of a queue does to its commands (R288, R293, R294), the function reset (R295), and a port's loss, reset and
return (R302 to R308). -/

namespace Sys2Proof.Machine

/-! ## Aborting a queue's commands (R288, R293) -/

/-- Items of a command that are still on their way to the packer, in order. -/
def itemsOf (s : State) (c : Cmd) : List StreamItem :=
  let mine := fun (x : StreamItem) => x.qid == c.qid && x.tag == c.tag
  let all := (s.cz.engines.toList.flatMap fun e => e.filter mine) ++ s.cz.finished.filter mine ++ s.cz.source.filter mine
  let ids := (List.range s.cz.nextOrder).filter fun i => all.any fun x => x.order == i
  ids.filterMap fun i => all.find? fun x => x.order == i

/-- The place of the last item of the record in hand. -/
def recordEnd (items : List StreamItem) : Nat :=
  match items.find? fun x => x.last || x.mark with
  | some x => x.order
  | none => 0

/-- A started WRITE or WRITE_MARK packs the record in hand to its end and no more (R293). A queue without a path cannot fetch that
record's rest: the record is taken back (R295). -/
def cutWrite (c : Cmd) (st : Nat) (path : Bool) (s : State) : State :=
  let items := itemsOf s c
  let p := partField c.entry
  let mine := fun (x : StreamItem) => x.qid == c.qid && x.tag == c.tag
  match items with
  | [] => endWrite c st c.count s
  | x :: _ =>
    if path then
      let stop := recordEnd items
      onCmd c.qid c.tag (fun k => { k with met := k.met ++ [st], goal := k.count + 1 })
        (dropItems (fun it => !(mine it && decide (stop < it.order))) s)
    else
      let s1 := dropItems (fun it => !mine it) s
      endWrite c st c.count (if x.first || x.mark then s1 else truncateAt p (partAt s1 p).logicalEnd s1)

/-- What the reset of its queue does to one command (R293). -/
def abortCmd (st : Nat) (path : Bool) (c : Cmd) (s : State) : State :=
  let op := opcodeOf c.entry
  if unstarted c then reply c.qid c.tag st 0 s
  else if op = opWrite ∨ op = opWriteMark then
    match c.phase with
    | .packing => cutWrite c st path s
    | .started | .durableWait => endWrite c st c.count s
    | _ => s
  else if op = opRead ∨ op = opVerify ∨ op = opSpace then
    (if c.phase = .started then finishCmd c.qid c.tag st c.count none s else s)
  else if op = opCrypt then (if c.phase = .started then finishCmd c.qid c.tag st 0 none s else s)
  else s

/-- Act on a queue pair as R293 does, with a status: groups of its own are abandoned first, its handles close (R267, R288). -/
def abortQueue (q st : Nat) (s : State) : State :=
  let s1 := (abandonGroupsOf q st s).onHost fun h => { h with resetting := h.resetting ++ [(q, st)] }
  let path := match qpOf s1 q with | some x => (queuePath s1 x).isSome | none => false
  let s2 := forEach (byOrder (s1.host.cmds.filter fun c => c.qid == q))
    (fun c t => match cmdOf t c.qid c.tag with | some d => abortCmd st path d t | none => t) s1
  settle (closeQueueHandles q s2)

/-! ## The function reset (R295, R297) -/

/-- A read run ends with its read-ahead (R132, R295). -/
def dropReads (s : State) : State :=
  let s1 := discardReadAhead s
  if reading s1 then endRun s1 else s1

/-- Act as a write of FUNC_RESET or an FLR does; during a mode-2 hold only once the switch is over (R295, R297). -/
def functionReset (p : Port) (s : State) : State :=
  if s.host.holdForSwitch then s.onHost fun h => { h with resetAfterSwitch := some p }
  else
    let s1 := (dropReads s).onHost fun h => { h with resetBusy := true }
    let qs := s1.host.qps.map (·.qid)
    let fw := s1.host.cmds.filter fun c => c.qid == 0 && opcodeOf c.entry == opFwActivate && !unstarted c
    let s2 := forEach fw (fun c => reply 0 c.tag 0x0211 0) s1
    let s3 := s2.onBoot fun b => { b with activation := b.activation.map fun a => (a.1, none) }
    tidy (forEach qs (fun q t => abortQueue q 0x0211 (repath q t)) s3)

/-! ## Ports (R302 to R308) -/

/-- A port's own state after an FLR: its MSI-X table and PBA, and the enables of its configuration space, are as after reset (R272, R295). The
_HI latches clear only at a part reset (R415), and the WAKE feature stays as set. -/
def portFresh (p : Port) (s : State) : State := onPort p (fun q => { ({} : PortState) with
  width := q.width, rate := q.rate, trains := q.trains, linkUp := q.linkUp, wakeEn := q.wakeEn, hiLatch := q.hiLatch }) s

/-- Replay for one command what it wrote through a lost port (R307). -/
def replayCmd (p : Port) (c : Cmd) (s : State) : State :=
  onCmd c.qid c.tag (fun k => { k with sent := k.writes.length }) (emitWrites p c.writes s)

/-- Rewrite the unconsumed entries of a queue in slot order, each after its command's data, with REPOST set (R306). -/
def repost (q : Nat) (x : QueuePair) (p : Port) (s : State) : State :=
  forEach x.posted (fun e t =>
    (emit (.entry p (x.cqBase + 16 * e.slot) (entryBytes q true p e.seq e.comp)) (emitWrites p e.comp.writes t)).onHost fun h =>
      { h with cntRepost := inc h.cntRepost }) s

/-- A queue's active port is a path again or anew: data writes are replayed, unconsumed entries rewritten, held entries written and
its vector sent (R305 to R308). -/
def resumeQueue (q : Nat) (s : State) : State :=
  match qpOf s q with
  | none => s
  | some x =>
    match queuePath s x with
    | none => s
    | some p =>
      let mine := (byOrder s.host.cmds).filter fun c => c.qid == q
      let s1 := forEach mine (replayCmd p) (repost q x p s)
      let s2 := if x.posted.isEmpty then s1 else msix p x.vector s1
      flushHeld q s2

/-- A queue's CRYPT commands that cannot be rerun after a loss (R307): those in place and those with a segment. -/
def brokenCrypts (s : State) (q : Nat) : List Cmd :=
  s.host.cmds.filter fun c => c.qid == q && opcodeOf c.entry == opCrypt && c.phase == .started &&
    (bits (specField c.entry 49 1) 1 2 != 0 || dp0 c.entry == dp1 c.entry)

/-- End a CRYPT that cannot be rerun, and close its handle (R307). -/
def breakCrypt (c : Cmd) (s : State) : State :=
  let s1 := if specField c.entry 51 1 = 0 then s else closeHandle (specField c.entry 51 1) s
  finishCmd c.qid c.tag 0x0212 0 none s1

/-- Fail one queue over to the surviving port (Table 11-10). -/
def failOver (q : Nat) (s : State) : State :=
  match qpOf s q with
  | none => s
  | some x =>
    let dest := otherPort x.active
    let s1 := (onQp q (fun y => { y with active := dest }) s).onHost fun h => { h with cntFailover := inc h.cntFailover }
    let n := x.posted.length
    let s2 := resumeQueue q (lantern 0x0051 (le 1 q ++ le 4 n) (forEach (brokenCrypts s1 q) breakCrypt s1))
    if n = 0 then msix dest x.vector s2 else s2

/-- A port that was a path is none any more: multipath queues fail over to the other port when that is a path, the others are held;
record 0x0050 and its device event tell the host (R303, R305, R308). -/
def declareLost (p : Port) (s : State) : State :=
  let qs := (s.host.qps.filter fun x => x.active == p && x.multipath && isPath s (otherPort p)).map (·.qid)
  tidy (forEach qs failOver (raise (98 + portNo p) (lantern 0x0050 [BitVec.ofNat 8 (portNo p)] s)))

/-- A port's link goes down, and the port is lost (R303). -/
def losePort (p : Port) (s : State) : State :=
  declareLost p (onPort p (fun q => { q with linkUp := false, width := 0, rate := 0 }) s)

/-- Send every pending vector of a port once, where it is not masked (R302). -/
def sendPending (p : Port) (s : State) : State :=
  forEach (List.range 257) (fun v t =>
    if (portOf t p).pba.getLsbD v && !masked (portOf t p) v then
      msix p v (onPort p (fun q => { q with pba := setBit q.pba v false }) t)
    else t) s

/-- The function of a port is in D0 with Bus Master Enable set again: held data and entries are written in completion order, then every
pending vector is sent once (R302). -/
def returnD0 (p : Port) (s : State) : State :=
  let mine := (s.host.qps.filter fun x => x.active == p).map (·.qid)
  let s1 := forEach s.host.cmds (fun c t => if mine.contains c.qid then sendWrites c.qid c.tag t else t) s
  tidy (sendPending p (forEach mine flushHeld s1))

/-- A port is a path again: the queues whose active port it is go on (R302, R308), and those without one move to it (R303). -/
def regainPort (p : Port) (s : State) : State :=
  let qs := s.host.qps.map (·.qid)
  let s1 := forEach qs repath s
  let mine := (s1.host.qps.filter fun x => x.active == p).map (·.qid)
  tidy (sendPending p (forEach mine resumeQueue s1))

end Sys2Proof.Machine
end

