-- ==== Sys2Proof/Machine/Manifest.lean ====
section
/-! DEFINITION. Manifests and their checks (R353, R354), firmware slots and integrator tables (R352, R365), the choice of an image and
the hand-over (R355, R357), and what a start draws afresh (R245, R258, R369). -/

namespace Sys2Proof.Machine

/-! ## Manifests (R353, R354) -/

/-- Bytes of a manifest (Table 14-3). -/
abbrev manifestLen : Nat := 12288

/-- A version field of six bytes. -/
def versionAt (b : Bytes) (off : Nat) : Version := ⟨field b off 2, field b (off + 2) 2, field b (off + 4) 2⟩

/-- The six bytes of a version. -/
def versionBytes (v : Version) : Bytes := le 2 v.major ++ le 2 v.minor ++ le 2 v.patch

/-- One version lies below another. -/
def versionLt (a b : Version) : Bool :=
  decide (a.major < b.major) || (a.major == b.major && (decide (a.minor < b.minor) || (a.minor == b.minor && decide (a.patch < b.patch))))

/-- The larger of two versions. -/
def versionMax (a b : Version) : Version := if versionLt a b then b else a

def manVersion (m : Bytes) : Version := versionAt m 8
def manFloor (m : Bytes) : Version := versionAt m 16
def manEpoch (m : Bytes) : Nat := field m 6 1
def manEdKey (m : Bytes) : Bytes := slice m 96 32
def manMldsaKey (m : Bytes) : Bytes := slice m 128 1952

/-- Segment i: offset, length and digest (Table 14-3). -/
def manSeg (m : Bytes) (i : Nat) : Nat × Nat × Bytes :=
  let o := 2080 + 96 * i
  (field m o 8, field m (o + 8) 8, slice m (o + 16) 64)

/-- The segments that a manifest uses. -/
def manSegs (m : Bytes) : List (Nat × Nat × Bytes) := (List.range (field m 14 2)).map (manSeg m)

/-- The segments lie behind the manifest, within the region, and do not overlap (R354). -/
def segsPlaced (size : Nat) (segs : List (Nat × Nat × Bytes)) : Bool :=
  segs.all (fun e => decide (manifestLen ≤ e.1 ∧ e.1 + e.2.1 ≤ size)) &&
  decide (segs.Pairwise fun a b => a.1 + a.2.1 ≤ b.1 ∨ b.1 + b.2.1 ≤ a.1)

/-- Check 2 of Table 14-4: fixed fields, counts, reserved bytes, unused entries and segment bounds. -/
def manShape (table : Bool) (size : Nat) (m : Bytes) : Bool :=
  let n := field m 14 2
  m.take 4 == ascii "LXFM" && field m 4 1 == 1 && field m 5 1 == (if table then 2 else 1) &&
  (if table then n == 1 && decide (1 ≤ field m 22 1 ∧ field m 22 1 ≤ 5) && field m 6 1 == 0 && field m 7 1 == 0 && allZero (slice m 16 6)
    else decide (1 ≤ n ∧ n ≤ 32) && field m 22 1 == 0 && decide (field m 7 1 ≤ 3)) &&
  allZero (slice m 23 9) && allZero (slice m 48 48) && allZero (slice m 8525 3763) &&
  ((List.range 32).all fun i => if i < n then allZero (slice m (2080 + 96 * i + 84) 12) else allZero (slice m (2080 + 96 * i) 96)) &&
  segsPlaced size (manSegs m)

/-- Both signatures over bytes 0 to 5,151 (Table 14-4, checks 4 and 5). -/
def manEdOk (m : Bytes) : Bool := Config.ed25519Verify (manEdKey m) (m.take 5152) (slice m 5152 64)
def manMldsaOk (m : Bytes) : Bool := Config.mldsaVerify (manMldsaKey m) (m.take 5152) (slice m 5216 3309)

/-- Check 3: the fused roots for firmware, the registered table key for a table (Table 14-4). -/
def manKeyOk (s : State) (table : Bool) (m : Bytes) : Bool :=
  if table then s.trust.tableKey == some (manEdKey m, manMldsaKey m)
  else
    let i := field m 7 1
    sha32 (manEdKey m ++ manMldsaKey m) == s.boot.rootHashes.getD i [] && !s.boot.rootsRevoked.getLsbD i

/-- The first failing check's reason code, 1 when all pass (Table 14-4). The region is given by its bytes from an offset on; check 9
counts at a start and at an activation. -/
def checkManifest (s : State) (table : Bool) (reads atStart : Bool) (size : Nat) (rd : Nat → Nat → Bytes) : Nat :=
  let m := rd 0 manifestLen
  if !reads then 8
  else if !manShape table size m then 2
  else if !manKeyOk s table m || !manEdOk m then 3
  else if !manMldsaOk m then 4
  else if !((manSegs m).all fun e => Config.sha512 (rd e.1 e.2.1) == e.2.2) then 5
  else if !allZero (slice m 32 16) && slice m 32 16 != s.boot.serial then 9
  else if !table && decide (manEpoch m < s.boot.epoch) then 6
  else if !table && atStart && versionLt (manVersion m) s.boot.minVersion then 7
  else 1

/-! ## The flash regions (R352) -/

/-- Bytes of a firmware slot and its base address. -/
abbrev fwSlotLen : Nat := 0x1600000
def fwSlotBase (p : Port) : Nat := fwSlotLen * portNo p

/-- Bytes of a table region and its base address, for TYPE t. -/
abbrev tableLen : Nat := 0x400000
def tableBase (t : Nat) : Nat := 0x2C00000 + tableLen * (t - 1)

/-- Bytes of the flash from a base. -/
def flashFrom (s : State) (base off n : Nat) : Bytes := Memory.readBytes s.boot.flash (base + off) n

/-- The manifest of a firmware slot. -/
def slotManifest (s : State) (p : Port) : Bytes := flashFrom s (fwSlotBase p) 0 manifestLen

/-- The checks of R354 on a firmware slot. -/
def checkSlot (s : State) (p : Port) (reads atStart : Bool) : Nat :=
  checkManifest s false reads atStart fwSlotLen (flashFrom s (fwSlotBase p))

/-- Put a slot's reason code down (R357, R372). -/
def setSlotCode (p : Port) (code : Nat) (s : State) : State :=
  s.onBoot fun b => match p with
    | .a => { b with slotA := code }
    | .b => { b with slotB := code }

/-! ## Tables in force (R365) -/

/-- A checked table comes into force as its TYPE asks for at a start: the Steeple table at once, since Steeple is in OFF (Table 12-9). -/
def putTable (t : Nat) (m content : Bytes) (s : State) : State :=
  s.onTrust fun k => { k with
    tables := putAt k.tables (t - 1) (some (m, content)),
    subsystem := if t = 5 then Config.subsystemIds content else k.subsystem }

/-- A head table that a start brings into force removes the dead declarations when it is a new one, or another head's; else they stand as MRAM
kept them (R103). -/
def headAtStart (m content : Bytes) (s : State) : State :=
  let mine := (Config.headSerial content, m)
  if s.ecc.deadHead = mine then s
  else s.onEcc fun e => { e with dead0 := 0, dead1 := 0, deadHead := mine }

/-- Check one table region at a start: in force when it passes, else a Lantern record (R365). -/
def checkTable (reads : Bool) (t : Nat) (s : State) : State :=
  let rd := flashFrom s (tableBase t)
  let code := checkManifest s true reads true tableLen rd
  let m := rd 0 manifestLen
  if code = 1 ∧ field m 22 1 = t then
    let e := manSeg m 0
    putTable t m (rd e.1 e.2.1) (if t = 4 then headAtStart m (rd e.1 e.2.1) s else s)
  else lantern 0x0071 (le 1 t ++ le 1 (if code = 1 then 2 else code)) s

/-! ## Choosing an image (R355, R357, R361) -/

/-- GEN_FALLBACK_CAUSE (R372). -/
def fallbackWord (b : Boot) : Nat := b.cause + 2 ^ 8 * b.slotA + 2 ^ 12 * b.slotB + 2 ^ 16 * b.fails

/-- Power the domains that no fault holds off (R394). -/
def powerDomains (s : State) : State := s.onPower fun p => { p with domOn := ~~~p.domFault, pstate := 0 }

/-- Both links train to what they can with their partners, and the host enables both functions (Table 11-1, log 21). -/
def bringPorts (s : State) : State := onPort .b (portUp .b) (onPort .a (portUp .a) s)

/-- Enter the fallback program: the cause is kept, record 0x0003 is made and the device event tells the host (R361). -/
def enterFallback (cause : Nat) (s : State) : State :=
  let s1 := (powerDomains s).onBoot fun b => { b with phase := .fallback, cause := cause, ready := true }
  lantern 0x0003 (le 4 (fallbackWord s1.boot)) (bringPorts s1)

/-- Draws that every start of an image makes: the transport keys, the context KEK and the spill serial, and the mount nonce (R245, R249,
R258). -/
def drawKeys (s : State) : State :=
  let d := fun i => le 32 (Config.trng (s.fresh + i)).toNat
  let s1 := s.onKeep fun k => { k with
    transport := some (d 0, d 1 ++ d 2), ctxKek := some (d 3), spillSerial := (Config.trng (s.fresh + 4)).toNat % 2 ^ 64, spillLatest := [] }
  let s2 := s1.onCupola fun c => { c with nonce := BitVec.ofNat 32 (Config.trng (s.fresh + 5)).toNat }
  { s2 with fresh := s.fresh + 6 }

/-- The seal drive starts: the LFSR is seeded from the TRNG, and the loop is taken as closed until two samples differ (R369). -/
def startSeal (s : State) : State :=
  let v := (Config.trng s.fresh).setWidth 16
  draw (s.onTrust fun t => { t with lfsr := if v = 0 then 1 else v, sealOk := true, mismatches := 0 })

/-- Hand over to an image: FAILS rises first, the slot reads as handed over, and the watchdog runs (R355, R356). -/
def handOverTo (p : Port) (s : State) : State :=
  let m := slotManifest s p
  let s1 := setSlotCode p 10 (s.onBoot fun b => { b with
    phase := .normal, cause := 0, fails := if b.fromPs4 then b.fails else min 3 (b.fails + 1), slot := p, version := manVersion m,
    watchdog := some (s.power.time + 2000 * msTicks, 2) })
  drawKeys (bringPorts (powerDomains s1))

/-- Try the slots in turn (R355). -/
def trySlots (reads : Port → Bool) : List Port → State → State
  | [], s => enterFallback 2 s
  | p :: ps, s =>
    let code := checkSlot s p (reads p) true
    if code = 1 then handOverTo p s else trySlots reads ps (setSlotCode p code s)

/-- What a start takes before it chooses an image: how the ports train, and the end of what is kept of a Keep fault (R3, R239). -/
def startSeen (o : StartObs) (s : State) : State :=
  (onPort .b (fun q => { q with trains := o.portB }) (onPort .a (fun q => { q with trains := o.portA }) s)).onBoot fun b =>
    { b with keepFault := false }

/-- The boot chain's choice (R355): the failures that lead straight to fallback first, then the slots in the order of FAILS. -/
def chooseImage (o : StartObs) (u : State) : State :=
  let s := startSeen o u
  let b := s.boot
  let first := if b.fails % 2 = 0 then b.preferred else otherPort b.preferred
  if !o.selfTestOk || !o.fuseWriteOk then enterFallback 4 s
  else if !o.keepOk || u.boot.keepFault then enterFallback 7 s
  else if !o.mramOk then enterFallback 5 s
  else if !o.flashReads then enterFallback 3 s
  else if b.straps.getLsbD 3 then enterFallback 6 s
  else if 3 ≤ b.fails then enterFallback 1 s
  else
    let s1 := trySlots (fun p => match p with | .a => o.slotAReads | .b => o.slotBReads) [first, otherPort first] s
    if s1.boot.phase = .normal then forEach [1, 2, 3, 4, 5] (checkTable o.flashReads) s1 else s1

/-- Each strap takes the majority of its 15 readings (R433). -/
def majorityStraps (reads : List (BitVec 4)) : BitVec 4 :=
  BitVec.ofNat 4 (((List.range 4).filter fun i => decide (7 < reads.countP fun r => r.getLsbD i)).map fun i => 2 ^ i).sum

end Sys2Proof.Machine
end

