-- ==== Sys2Proof/Machine/PowerOps.lean ====
section
/-! DEFINITION. Power states: the domains of each state, entry and exit (R394 to R400), and idle gating (R395). -/

namespace Sys2Proof.Machine

/-- The domains powered in a power state, retention counted as powered (Table 16-2). -/
def stateDomains (ps : Fin 5) : BitVec 111 :=
  let all := BitVec.allOnes 111
  let ps1 := all &&& ~~~(domMask 0 64 ||| domMask 80 8 ||| domMask 92 4)
  let ps2 := ps1 &&& ~~~(domMask 64 16 ||| domMask 100 2)
  let ps3 := ps2 &&& ~~~(domMask 88 4 ||| domMask 96 2)
  match ps with
  | 0 => all
  | 1 => ps1
  | 2 => ps2
  | 3 => ps3
  | 4 => domMask 110 1

/-- Power the domains of a state, but for those off for a fault (R394). -/
def powerState (ps : Fin 5) (s : State) : State :=
  s.onPower fun p => { p with pstate := ps, domOn := stateDomains ps &&& ~~~p.domFault, entering := false }

/-- Every head-link group goes to DOWN: its PHY halves are off (Table 16-2, R219). -/
def groupsOff (s : State) : State :=
  s.onHlk fun h => { h with groups := h.groups.map fun k => { k with state := .down, lock := 0, trained := 0, rxLive := 0, txLive := 0, awaits := none } }

/-- Enter PS1, PS2 or PS3 (Table 16-3, R398). -/
def enterPs (ps : Fin 5) (s : State) : State :=
  let s1 := powerState ps s
  let s2 := if 2 ≤ ps.val then groupsOff s1 else s1
  if 3 ≤ ps.val then discardReadAhead s2 else s2

/-- Leave PS1, PS2 or PS3 for PS0: the domains of PS0 come on; the groups train anew from DOWN (Table 16-3). -/
def leavePs (s : State) : State :=
  match s.power.pstate with
  | 0 | 4 => s
  | _ => powerState 0 s

/-- The regulators in the order in which PS4 turns them off, and on (R399). -/
def railsOff : List Nat := [5, 6, 4, 3, 2, 1, 0]
def railsOn : List Nat := [0, 1, 2, 3, 4, 6, 5]

/-- Turn one rail off or on over PMBus (R399). -/
def rail (turnOn : Bool) (i : Nat) (s : State) : State :=
  emit (.pmbus (0x40 + i) turnOn) (s.onPower fun p => { p with rails := setBit p.rails i turnOn })

/-- Tell one rail's regulator to turn off; one that does not acknowledge leaves its rail on (R399). -/
def railOff (acks : BitVec 7) (i : Nat) (s : State) : State := if acks.getLsbD i then rail false i s else emit (.pmbus (0x40 + i) false) s

/-- Enter PS4: every domain but AON goes off with what it holds, and the rails follow (R399). No part reset is counted. -/
def enterPs4 (acks : BitVec 7) (s : State) : State :=
  let t := afterPartReset (stopTokens s)
  let t1 := { t with
    boot := { t.boot with bootCount := s.boot.bootCount, fromPs4 := true },
    pins := { t.pins with alarmAsserted := s.pins.alarmAsserted },
    power := { t.power with pstate := 4 } }
  forEach railsOff (railOff acks) t1

/-- The wake latches that wake whatever WAKE_EN says, and the one that never wakes (Table 13-2). -/
def latchWakes (s : State) (i : Nat) : Bool :=
  s.blf.latched.getLsbD i && (i == 1 || i == 2 || (i != 7 && s.blf.wakeEn.getLsbD i))

/-- A cause brings the state in force back to PS0 (Table 16-3). -/
def wakes (s : State) (c : WakeCause) : Bool :=
  match s.power.pstate, c with
  | 1, .doorbell | 2, .doorbell | 3, .doorbell => true
  | 1, .cartEdge | 2, .cartEdge => s.blf.latched.getLsbD 3 || s.blf.latched.getLsbD 4
  | 1, .latch i | 2, .latch i | 3, .latch i => latchWakes s i.val
  | 4, .latch i => latchWakes s i.val
  | 4, .perst _ => true
  | _, _ => false

/-- Leave the power state in force; from PS4 the rails come on and the part starts as after a part reset (R397, R399). -/
def leaveState (s : State) : State :=
  if s.power.pstate = 4 then
    (forEach railsOn (rail true) s).onPower fun p => { p with pstate := 0, domOn := domMask 110 1 }
  else leavePs s

/-- A domain has no work: its engine, core, cluster or tile serves nothing (R395). -/
def domainIdle (s : State) (d : Nat) : Bool :=
  if d < 64 then s.wvn.run == .none
  else if 80 ≤ d ∧ d < 88 then s.wvn.run == .none && !(s.wr.sets.any fun x => x.stage == .sealed)
  else if 88 ≤ d ∧ d < 92 then !(s.wr.sets.any fun x => x.stage == .closed)
  else if 92 ≤ d ∧ d < 96 then (getAt s.cz.engines (d - 92) []).isEmpty && (getAt s.cz.decomp (d - 92) []).isEmpty
  else false

/-- A domain that the state in force may gate while idle: code G of Table 16-2. -/
def gated (ps : Fin 5) (d : Nat) : Bool :=
  match ps with
  | 0 => decide (d < 64 ∨ 80 ≤ d ∧ d < 96)
  | 1 | 2 => decide (88 ≤ d ∧ d < 92)
  | _ => false

/-- DOMAIN_IDLE_GATE: a G domain without work for 10 ms is switched off (R395). -/
def execDomainIdleGate (d : Fin 111) (s : State) : Host.Outcome State Fault Refusal :=
  goLive (fun s => if gated s.power.pstate d.val && domainIdle s d.val then
      s.onPower fun p => { p with domOn := setBit p.domOn d.val false }
    else s) s

/-- PS4_COMMIT: 10 ms after POWER_STATE has completed, the part enters PS4; which regulators acknowledge is free (R399). -/
def execPs4Commit (s : State) : Host.Outcome State Fault Refusal :=
  goLive (fun s => match s.power.ps4Due with
    | some t => enterPs4 (Config.pmbusAcks s.fresh) (advanceTo t (draw s))
    | none => s) s

/-- POWER_STATE_EXIT: an event of Table 16-3 returns the part to PS0 (R397). -/
def execPowerStateExit (cause : WakeCause) (s : State) : Host.Outcome State Fault Refusal :=
  go (fun s => if wakes s cause then leaveState s else s) s

end Sys2Proof.Machine
end

