-- ==== Sys2Proof/Machine/Flags.lean ====
section
/-! DEFINITION. The flags and summaries that the spec computes from state: LAN_DEGRADED (Table 15-4), the presence window and seal
(R368), a Lantern record's bytes (Table 15-2), and the versions a slot shows (Table 12-4). -/

namespace Sys2Proof.Machine

/-! ## Degradation (R377, R380, R388) -/

/-- More than 32 elements are declared dead in the module in use (R380). -/
def beyond (s : State) : Bool := decide (32 < popcount (deadOf s s.tiles.module))

/-- A row of Table 15-1 has an instance out of service; row 1 counts dead elements too (R388). -/
def rowOut (s : State) (row : FaultRow) : Bool :=
  decide (0 < outCount s row) || (row == .headElement && (deadOf s 0 != 0 || deadOf s 1 != 0))

/-- The rows of Table 15-1 in order. -/
def faultRows : List FaultRow :=
  [.headElement, .tile, .hlInLane, .hlOutLane, .hlPhyHalf, .eccCluster, .cupolaCore, .czEngine, .dramDie, .bufferStack, .hostPort, .steeple,
   .controlCore, .fabricPlane, .keepCopy, .servoReader, .encoder, .aon]

/-- A row has no spare left: the rows that end in a double-fault reset, a host port, an encoder, three readers, AON (R377, log 33). -/
def rowUncovered (s : State) (row : FaultRow) : Bool :=
  noSpare s row ||
  match row with
  | .hostPort | .encoder | .aon => decide (1 ≤ outCount s row)
  | .servoReader => decide (3 ≤ outCount s row)
  | _ => false

/-- LAN_DEGRADED (Table 15-4). -/
def lanDegraded (s : State) : Nat :=
  ((faultRows.filter (rowOut s)).map fun r => 2 ^ (rowNo r - 1)).sum + 2 ^ 18 * (beyond s).toNat + 2 ^ 19 * (faultRows.any (rowUncovered s)).toNat

/-! ## Presence and seal (R368) -/

/-- Ticks of the presence window and of a downgrade permit (R360, R368). -/
abbrev presenceTicks : Nat := 120000 * msTicks
abbrev permitTicks : Nat := 600000 * msTicks

/-- The presence window is open: [press, press + 120 s) (R368). -/
def windowOpen (s : State) : Bool :=
  match s.trust.press with
  | some t => decide (s.power.time < t + presenceTicks)
  | none => false

/-- A privileged operation may start: the window is open and the seal has been intact since the press (R368). -/
def presenceOk (s : State) : Bool := windowOpen s && s.trust.sealOk && !s.trust.sealBroken

/-- A downgrade permit is armed (R360). -/
def permitArmed (s : State) : Bool :=
  match s.trust.permit with
  | some t => decide (s.power.time < t)
  | none => false

/-- Seconds left in the presence window (Table 14-10). -/
def presenceLeft (s : State) : Nat :=
  match s.trust.press with
  | some t => (t + presenceTicks - s.power.time + 1000 * msTicks - 1) / (1000 * msTicks)
  | none => 0

/-! ## Lantern's records as bytes (Table 15-2) -/

/-- FLAGS of a record. -/
def lanFlags (r : LanRec) : Nat := r.pinned.toNat + 2 * r.trigger.toNat + 4 * r.suppressedBefore.toNat

/-- The 64 bytes that a torn record is left with: free values whose CRC does not agree (R381, log 6). -/
def tornBytes (rseq : Nat) : Bytes :=
  let b := (List.range 60).map fun i => Config.freeByte (64 * rseq + i)
  b ++ le 4 ((crc32Bytes b + 1 + ⌊Config.freeRat rseq⌋.toNat % (2 ^ 32 - 1)) % 2 ^ 32)

/-- The 64 bytes of a whole record, CRC included (Table 15-2). -/
def wholeBytes (r : LanRec) : Bytes :=
  let b := le 6 r.time ++ le 4 r.boot ++ le 2 r.code ++ le 1 r.cls ++ le 1 (lanFlags r) ++ le 2 r.suppressed ++ le 4 r.rseq ++
    fit 36 r.data ++ zeros 4
  b ++ le 4 (crc32Bytes b)

/-- The 64 bytes of a record as it stands (R381). -/
def lanBytes (r : LanRec) : Bytes := if r.torn then tornBytes r.rseq else wholeBytes r

/-- Log 0x04: a header, the pinned records in order, the ring from oldest to newest (R386). -/
def lanternLog (l : Lantern) : Bytes :=
  let oldest := match l.ring with | r :: _ => r.rseq | [] => 0
  let newest := match l.ring.getLast? with | some r => r.rseq | none => 0
  fit 64 (ascii "LANT" ++ [1, 0, 0, 0] ++ le 4 l.pinnedRecs.length ++ le 4 l.ring.length ++ le 4 oldest ++ le 4 newest) ++
    l.pinnedRecs.flatMap lanBytes ++ l.ring.flatMap lanBytes

/-- The record with the least distance above a sequence number in a list. -/
def nearest (rseq : Nat) (rs : List LanRec) : Option LanRec :=
  rs.foldl (fun best r =>
    match best with
    | none => if rseq ≤ r.rseq then some r else none
    | some b => if rseq ≤ r.rseq ∧ r.rseq < b.rseq then some r else best) none

/-- What LANTERN_READ answers: the record of that RSEQ, else the next one above it; the ring's copy before the pinned one. A torn record is a
gap (R381, R386). -/
def lanternAt (l : Lantern) (rseq : Nat) : Bytes :=
  match nearest rseq (l.ring.filter fun r => !r.torn), nearest rseq (l.pinnedRecs.filter fun r => !r.torn) with
  | some r, some p => lanBytes (if p.rseq < r.rseq then p else r)
  | some r, none => lanBytes r
  | none, some p => lanBytes p
  | none, none => zeros 64

/-- SMBus HEALTH (R386). -/
def healthBytes (s : State) : Bytes :=
  le 4 (lanDegraded s) ++ le 4 s.lantern.rseq ++ le 1 s.trust.cause.toNat ++ le 1 s.boot.cause ++ le 1 s.power.pstate.val ++
    le 1 ((windowOpen s).toNat + 2 * s.trust.sealOk.toNat) ++ zeros 4

/-! ## Versions (Table 12-4, Table 17-2) -/

/-- All ones in a version field. -/
def noVersion : Bytes := List.replicate 6 0xFF

/-- The version a slot shows: all ones when it holds no verified image (Table 12-4, R359). -/
def slotVersion (s : State) (p : Port) : Bytes := if checkSlot s p true false = 1 then slice (slotManifest s p) 8 6 else noVersion

/-- The running version; all ones in fallback (Table 17-2). -/
def runningVersion (s : State) : Bytes := if s.boot.phase = .fallback then noVersion else versionBytes s.boot.version

/-- IDENTIFY's TABLES, GEN's and KEEP's summaries of what is in force (Table 12-4). -/
def tablesByte (s : State) : Nat := ((List.range 5).filter fun i => (getAt s.trust.tables i none).isSome).map (2 ^ ·) |>.sum

end Sys2Proof.Machine
end

