-- ==== Sys2Proof/Machine/HostQueues.lean ====
section
/-! DEFINITION. The commands of the queue model: the admin queue (R276), doorbells (R277, R280, R282), fetch (R278, R312), start (R285,
R310, R313), moderation windows (R339), masks (R340), the function reset (R295) and the ports' life (R302 to R308). -/

namespace Sys2Proof.Machine

/-! ## The admin queue (R276) -/

/-- Queue pair 0 as the GEN_ registers define it, started through a port. -/
def adminQueue (h : HostIf) (p : Port) : QueuePair :=
  { qid := 0, sqSize := bits h.aqSize.toNat 0 16, cqSize := bits h.aqSize.toNat 16 16,
    sqBase := h.aqSqbLo.toNat / 4096 * 4096 + h.aqSqbHi.toNat * 2 ^ 32, cqBase := h.aqCqbLo.toNat / 4096 * 4096 + h.aqCqbHi.toNat * 2 ^ 32,
    vector := 0, group := 0, strict := false, pref := p, active := p, multipath := true, version := 0x10, sqTail := 0, sqNext := 0,
    exposed := [], cqTail := 0, cqHead := 0, phase := true, seq := 0, posted := [], heldComps := [], heldTail := none }

/-- GEN_AQ_SIZE lies in its range. -/
def aqSizesOk (h : HostIf) : Bool :=
  let a := bits h.aqSize.toNat 0 16
  let b := bits h.aqSize.toNat 16 16
  decide (2 ≤ a ∧ a ≤ 4096 ∧ 2 ≤ b ∧ b ≤ 4096)

/-- ENABLE is written with 1: the admin queue starts, or CFG_ERR is set; a queue that runs goes on. The bit reads as written, also after a
refusal (R8, log 177). Nothing happens while a reset is in progress (R276). -/
def enableAdmin (p : Port) (s : State) : State :=
  if s.host.resetBusy then s
  else if (qpOf s 0).isSome then s.onHost fun h => { h with enable := true }
  else if aqSizesOk s.host then s.onHost fun h => { h with enable := true, cfgErr := false, qps := adminQueue h p :: h.qps }
  else s.onHost fun h => { h with enable := true, cfgErr := true }

/-- ADMIN_ENABLE (R276). -/
def execAdminEnable (p : Port) (s : State) : Host.Outcome State Fault Refusal := goLive (enableAdmin p) s

/-- FUNC_RESET (R295): a write while RESET_BUSY is set is discarded (R276). -/
def execFuncReset (p : Port) (s : State) : Host.Outcome State Fault Refusal :=
  goLive (fun s => if s.host.resetBusy then s else functionReset p s) s

/-! ## Doorbells (R277, R280, R282, R304) -/

/-- A doorbell write is discarded: counted, and a device event; it too leads back to PS0 (R277, R298). -/
def badDoorbell (p : Port) (s : State) : State :=
  raise (98 + portNo p) (deviceEvent Config.doorbellEvent [BitVec.ofNat 8 (portNo p)] ((leavePs s).onHost fun h => { h with cntDbErr := inc h.cntDbErr }))

/-- A tail doorbell (R277, R282, R293, R298). -/
def tailDoorbell (p : Port) (q tail : Nat) (s : State) : State :=
  match qpOf s q with
  | none => badDoorbell p s
  | some x =>
    if x.sqSize ≤ tail then badDoorbell p s
    else
      let t := raise (128 + q) (leavePs s)
      if t.host.resetting.any fun e => e.1 == q then onQp q (fun y => { y with heldTail := some tail }) t else acceptTail q tail t

/-- SQ_TAIL_DOORBELL (R282). -/
def execSqTailDoorbell (p : Port) (q : Fin 256) (tail : BitVec 16) (s : State) : Host.Outcome State Fault Refusal :=
  goLive (tailDoorbell p q.val tail.toNat) s

/-- Entries that a head value newly consumes. -/
def consumes (x : QueuePair) (head : Nat) : Nat := (head + x.cqSize - x.cqHead) % x.cqSize

/-- A head doorbell: entries behind it are consumed, and held completions follow into the freed slots (R277, R280, R304). -/
def headDoorbell (p : Port) (q head : Nat) (s : State) : State :=
  match qpOf s q with
  | none => badDoorbell p s
  | some x =>
    if x.cqSize ≤ head ∨ cqUsed x < consumes x head then badDoorbell p s
    else tidy (flushHeld q (onQp q (fun y => { y with cqHead := head, posted := y.posted.drop (consumes y head) }) (leavePs s)))

/-- CQ_HEAD_DOORBELL (R280). -/
def execCqHeadDoorbell (p : Port) (q : Fin 256) (head : BitVec 16) (s : State) : Host.Outcome State Fault Refusal :=
  goLive (headDoorbell p q.val head.toNat) s

/-! ## Fetch (R278, R312) -/

/-- A queue has something to fetch and a path to fetch it through. -/
def fetchable (s : State) (x : QueuePair) : Bool := !x.exposed.isEmpty && (queuePath s x).isSome

/-- How far a queue lies behind the one fetched from last, in the round (R278). -/
def turnOf (s : State) (x : QueuePair) : Nat := (x.qid + 255 - s.host.lastFetched) % 256

/-- The queue whose turn it is (R278). -/
def fetchTurn (s : State) : Option QueuePair :=
  (s.host.qps.filter (fetchable s)).foldl (fun best x =>
    match best with
    | none => some x
    | some y => if turnOf s x < turnOf s y then some x else some y) none

/-- A command of this queue and tag is outstanding: fetched and its entry not yet written (R312). -/
def tagBusy (s : State) (q tag : Nat) : Bool :=
  (cmdOf s q tag).isSome || (match qpOf s q with | some x => x.heldComps.any fun c => c.tag == tag | none => false)

/-- A fetched entry at its place in the submission order. -/
def freshCmd (q order : Nat) (e : Bytes) : Cmd :=
  { qid := q, tag := tagOf e, order := (order, 0), entry := e, phase := .fetched, segs := [], writes := [], sent := 0, count := 0, used := 0, inRec := 0,
    lon := 0, goal := 0, keys := [], reserved := 0, met := [], waits := [], after := [] }

/-- The version that a NEGOTIATE which passes its checks gives the entries behind it (R281). -/
def negotiated (e : Bytes) (s : State) : State :=
  if opcodeOf e = opNegotiate then onQp 0 (fun x => { x with version := min 0x12 (specField e 48 1) }) s else s

/-- A fetched entry completes at once with a status; a POWER_STATE flushes the held interrupts whatever its outcome (R300). -/
def endFetched (c : Cmd) (st : Nat) (s : State) : State :=
  postComp c.qid (compOf c st 0 none) (if opcodeOf c.entry = opPowerState ∧ c.qid = 0 then flushGroups s else s)

/-- Fetch one entry: a queue in reset completes it at once; otherwise it is checked, and completes at the first check that fails
(R293, R312). -/
def fetchOne (q : Nat) (e0 : Bytes) (s : State) : State :=
  match qpOf s q with
  | none => s
  | some x =>
    match x.exposed with
    | [] => s
    | o :: rest =>
      let e := fit 64 e0
      let c := freshCmd q o e
      let s1 := onQp q (fun y => { y with exposed := rest, sqNext := (y.sqNext + 1) % y.sqSize }) s
      match s.host.resetting.find? fun r => r.1 == q with
      | some r => endFetched c r.2 s1
      | none =>
        match entryCheck q x.version (s.boot.phase == .fallback) (tagBusy s q c.tag) e with
        | some st => endFetched c st s1
        | none => negotiated e (s1.onHost fun h => { h with cmds := h.cmds ++ [c] })

/-- One turn of the fetch: up to 8 entries of the queue whose turn it is, as its slots hold them (R278). Nothing is fetched outside PS0
or while a switch is awaited (R296, R298). -/
def fetchRound (entries : List Bytes) (s : State) : State :=
  if s.host.holdForSwitch ∨ s.power.pstate ≠ 0 then s
  else
    match fetchTurn s with
    | none => s
    | some x =>
      let n := min 8 x.exposed.length
      tidy (forEach (List.range n) (fun i => fetchOne x.qid (entries.getD i [])) (s.onHost fun h => { h with lastFetched := x.qid }))

/-- SQ_FETCH (R278). -/
def execSqFetch (entries : List Bytes) (s : State) : Host.Outcome State Fault Refusal := goLive (fetchRound entries) s

/-! ## Start (R285, R310, R313) -/

/-- The opcodes whose LON of all ones means the current position. -/
def usesPosition (op : Nat) : Bool := op ∈ [opLocate, opRead, opVerify, opSpace, opTruncate]

/-- The LON that an entry names once it starts, none when the position lies in another partition (R310). With no volume mounted the
entry keeps its LON. -/
def resolveLon (s : State) (e : Bytes) : Option Nat :=
  match s.drive.vol with
  | none => some (lonField e)
  | some v =>
    if lonField e ≠ allOnes64 then some (lonField e)
    else if opcodeOf e = opWrite ∨ opcodeOf e = opWriteMark then some (logicalEndOf s (partField e))
    else if usesPosition (opcodeOf e) then (if v.posPart = partField e then some v.posLon else none)
    else some (lonField e)

/-- Start a command: its scatter list is read, its LON is settled (R310, R313). -/
def startCmd (c : Cmd) (sgl : List Bytes) (s : State) : State :=
  match bufferOf c.entry sgl, resolveLon s c.entry with
  | some segs, some lon =>
    onCmd c.qid c.tag (fun k => { k with phase := .started, segs := segs, lon := lon, entry := patch k.entry 8 (le 8 lon) }) s
  | _, _ => reply c.qid c.tag 0x0101 0 s

/-- COMMAND_START: the best of the commands that may start (R278, R285). -/
def execCommandStart (sgl : List Bytes) (s : State) : Host.Outcome State Fault Refusal :=
  goLive (fun s => match nextStart s with
    | some c => startCmd c sgl s
    | none => s) s

/-! ## Windows and masks (R339, R340) -/

/-- HOLDOFF_EXPIRY: the group's hold-off window closes H µs after it opened (R339). -/
def execHoldoffExpiry (g : Fin 32) (s : State) : Host.Outcome State Fault Refusal :=
  goLive (fun s => match s.host.groups[g].openAt with
    | some t => deliver g.val (advanceTo (t + usTicks * s.host.groups[g].holdoff) s)
    | none => s) s

/-- STALE_EXPIRY: the group's stale window closes S µs after its last entry (R339). -/
def execStaleExpiry (g : Fin 32) (s : State) : Host.Outcome State Fault Refusal :=
  goLive (fun s => match s.host.groups[g].staleAt with
    | some t => deliver g.val (advanceTo (t + usTicks * s.host.groups[g].stale) s)
    | none => s) s

/-- Write one vector's mask or the Function Mask of a port. -/
def setMask (p : Port) (vector : Option (Fin 257)) (m : Bool) (s : State) : State :=
  onPort p (fun q => match vector with
    | some v => { q with msix := updAt q.msix v.val fun e => setBit e 96 m }
    | none => { q with fnMask := m }) s

/-- MSIX_MASK_WRITE: a cleared mask sends what is pending (R340). -/
def execMsixMaskWrite (p : Port) (vector : Option (Fin 257)) (masked : Bool) (s : State) : Host.Outcome State Fault Refusal :=
  goLive (fun s => if masked then setMask p vector masked s else sendPending p (setMask p vector masked s)) s

/-! ## Ports (R302 to R308) -/

/-- PORT_LOSS: the link of a port goes down (R303). -/
def execPortLoss (p : Port) (s : State) : Host.Outcome State Fault Refusal :=
  goLive (fun s => if (portOf s p).linkUp then losePort p s else s) s

/-- PATH_RESTORED: the port's link is up, at the rate and width it has trained to, and its function serves again (R303, R308, Table 11-1). A
port out of service stays down. -/
def execPathRestored (l : PortLink) (s : State) : Host.Outcome State Fault Refusal :=
  goLive (fun s => if isPath s l.port || outOf s .hostPort (portNo l.port) then s
    else regainPort l.port (onPort l.port (fun q => portUp l.port { q with trains := l.link }) s)) s

/-- Multipath queues leave a port that is no path for the other; what they hold goes out there (R303). -/
def moveQueues (p : Port) (s : State) : State :=
  let qs := (s.host.qps.filter fun x => x.active == p && x.multipath && isPath s (otherPort p)).map (·.qid)
  tidy (forEach qs (fun q t =>
    let t1 := repath q t
    flushHeld q (forEach (t1.host.cmds.filter fun c => c.qid == q) (fun c => sendWrites c.qid c.tag) t1)) s)

/-- FUNCTION_D3HOT: the function enters D3hot, which is no loss of the port, or its Bus Master Enable is cleared, which is (R302,
R303). -/
def execFunctionD3hot (p : Port) (bmeCleared : Bool) (s : State) : Host.Outcome State Fault Refusal :=
  goLive (fun s =>
    if bmeCleared then
      let t := onPort p (fun q => { q with bme := false }) s
      if isPath s p then declareLost p t else t
    else moveQueues p (onPort p (fun q => { q with d0 := false }) s)) s

/-- FUNCTION_D0_RETURN: D0 with Bus Master Enable set (R302). Queues whose own port is lost come over (R308). -/
def execFunctionD0Return (p : Port) (s : State) : Host.Outcome State Fault Refusal :=
  goLive (fun s =>
    let t := onPort p (fun q => { q with d0 := true, bme := true }) s
    let qs := (t.host.qps.filter fun x => x.active != p && x.multipath && !isPath t x.active && isPath t p).map (·.qid)
    returnD0 p (forEach qs failOver t)) s

end Sys2Proof.Machine
end

