-- ==== Sys2Proof/Machine/Admin.lean ====
section
/-! DEFINITION. Admin commands: IDENTIFY, NEGOTIATE, the queue pairs, the features, the logs, POWER_STATE and QUEUE_RESET (Table 12-3,
R275, R281, R293, R294, R298, R314), and the sideband reads of Lantern (R386). -/

namespace Sys2Proof.Machine

/-- Run a started command of queue 0. -/
def adminRun (tag : BitVec 16) (op : Nat) (f : Cmd → State → State) (s : State) : State :=
  match startedCmd s 0 tag.toNat op with
  | some c => f c s
  | none => s

/-- Run a started command of queue 0 whose byte 48 holds a number: a feature's FID, or PRESENCE_OP's OP. -/
def adminSub (tag : BitVec 16) (op sub : Nat) (f : Cmd → State → State) (s : State) : State :=
  adminRun tag op (fun c t => if specField c.entry 48 1 = sub then f c t else t) s

/-- Complete an admin command. -/
def adminDone (c : Cmd) (st res : Nat) (s : State) : State := reply c.qid c.tag st res s

/-- SEL of a feature command. -/
def selOf (c : Cmd) : Nat := specField c.entry 49 1

/-- VALUE of a feature command. -/
def valueOf (c : Cmd) : Nat := specField c.entry 52 4

/-! ## IDENTIFY and NEGOTIATE (Table 12-4, R281) -/

/-- The structure of Table 12-4. -/
def identifyBytes (s : State) : Bytes :=
  fit 4096 (le 2 0xF7D5 ++ le 2 0x1024 ++ le 1 0xB0 ++ le 1 0x12 ++ le 1 formatMax ++ le 1 s.host.floor ++ fit 16 s.boot.serial ++
    runningVersion s ++ le 1 (portNo s.boot.slot) ++ le 1 s.boot.epoch ++ slotVersion s .a ++ slotVersion s .b ++
    le 1 (s.boot.activation.isSome.toNat + 2 * s.boot.stagedOk.toNat) ++ le 1 (s.boot.phase == .fallback).toNat ++
    le 2 (fallbackWord s.boot) ++ le 2 255 ++ le 4 65536 ++ le 4 67108864 ++ le 4 1073741824 ++ le 1 64 ++ le 1 (tablesByte s))

/-- IDENTIFY. -/
def execIdentify (tag : BitVec 16) (s : State) : Host.Outcome State Fault Refusal :=
  goLive (adminRun tag opIdentify fun c t => adminDone c 0 0 (writeBuffer c.qid c.tag 0 (identifyBytes t) t)) s

/-- NEGOTIATE: the lower of the version asked for and 1.2; the version itself took effect for the entries behind it (R281). -/
def execNegotiate (tag : BitVec 16) (s : State) : Host.Outcome State Fault Refusal :=
  goLive (adminRun tag opNegotiate fun c t => adminDone c 0 (min 0x12 (specField c.entry 48 1)) t) s

/-! ## Queue pairs (R275, R293, R294) -/

/-- The queue pair that a CREATE_QP entry describes. -/
def describedQp (version : Nat) (e : Bytes) : QueuePair :=
  let f := specField e 51 1
  { qid := specField e 48 1, vector := specField e 49 1, group := specField e 50 1, strict := f.testBit 0,
    pref := portOfBit (bits f 1 1), active := portOfBit (bits f 1 1), multipath := f.testBit 2,
    sqSize := specField e 52 2 + 1, cqSize := specField e 54 2 + 1, sqBase := dp0 e, cqBase := dp1 e, version := version,
    sqTail := 0, sqNext := 0, exposed := [], cqTail := 0, cqHead := 0, phase := true, seq := 0, posted := [], heldComps := [], heldTail := none }

/-- The rules of Table 11-2. -/
def qpRules (s : State) (x : QueuePair) : Bool :=
  decide (1 ≤ x.qid ∧ 2 ≤ x.sqSize ∧ x.sqSize ≤ x.cqSize ∧ x.group ≤ 31 ∧ x.sqBase % 4096 = 0 ∧ x.cqBase % 4096 = 0) &&
  (!x.multipath || decide (x.cqSize ≤ 32768)) && (qpOf s x.qid).isNone

/-- CREATE_QP: a pair that breaks a rule gives 0x0101 and creates nothing (R275). -/
def createQueue (c : Cmd) (s : State) : State :=
  let x := describedQp (versionOf s 0) c.entry
  if qpRules s x then adminDone c 0 0 (repath x.qid (s.onHost fun h => { h with qps := h.qps ++ [x] })) else adminDone c 0x0101 0 s

/-- CREATE_QP (R275). -/
def execCreateQp (tag : BitVec 16) (s : State) : Host.Outcome State Fault Refusal := goLive (adminRun tag opCreateQp createQueue) s

/-- Act on the queue pair that a command names, with an aborting status; the command completes behind it (R293, R294). -/
def resetNamed (st : Nat) (c : Cmd) (s : State) : State :=
  let q := specField c.entry 48 1
  if q = 0 ∨ (qpOf s q).isNone then adminDone c 0x0101 0 s
  else abortQueue q st (onCmd c.qid c.tag (fun k => { k with phase := .fenceWait }) s)

/-- DELETE_QP (R294). -/
def execDeleteQp (tag : BitVec 16) (s : State) : Host.Outcome State Fault Refusal := goLive (adminRun tag opDeleteQp (resetNamed 0x0213)) s

/-- QUEUE_RESET (R293). -/
def execQueueReset (tag : BitVec 16) (s : State) : Host.Outcome State Fault Refusal := goLive (adminRun tag opQueueReset (resetNamed 0x0210)) s

/-! ## Features (Table 12-5) -/

/-- FORMAT_FLOOR: a change makes record 0x00E0 (R391). -/
def setFloor (c : Cmd) (s : State) : State :=
  let v := valueOf c
  let s1 := s.onHost fun h => { h with floor := v }
  adminDone c 0 0 (if v = s.host.floor then s1 else lantern 0x00E0 (le 1 0 ++ le 1 v) s1)

/-- FORMAT_FLOOR (R391). -/
def execFormatFloor (tag : BitVec 16) (s : State) : Host.Outcome State Fault Refusal := goLive (adminSub tag opSetFeature 1 setFloor) s

/-- WAKE: wake on completion of a port (R302). -/
def execWake (tag : BitVec 16) (s : State) : Host.Outcome State Fault Refusal :=
  goLive (adminSub tag opSetFeature 2 fun c t =>
    adminDone c 0 0 (onPort (portOfBit (selOf c)) (fun q => { q with wakeEn := decide (valueOf c = 1) }) t)) s

/-- QUEUE_PORT: a multipath queue goes over to a port that is a path (R303). -/
def movePort (c : Cmd) (s : State) : State :=
  let q := selOf c
  let p := portOfBit (valueOf c)
  match qpOf s q with
  | some x =>
    if x.multipath && isPath s p then adminDone c 0 0 (flushHeld q (onQp q (fun y => { y with pref := p, active := p }) s))
    else adminDone c 0x0101 0 s
  | none => adminDone c 0x0101 0 s

/-- QUEUE_PORT (R303). -/
def execQueuePort (tag : BitVec 16) (s : State) : Host.Outcome State Fault Refusal := goLive (adminSub tag opSetFeature 3 movePort) s

/-- MODERATION: the group is flushed, and the new values hold from its next interrupt (R341, Table 12-5). -/
def setModeration (c : Cmd) (s : State) : State :=
  let v := valueOf c
  adminDone c 0 0 ((flushGroup (selOf c) s).onHost fun h => { h with groups := updAt h.groups (selOf c) fun k =>
    { k with holdoff := bits v 0 16, agg := bits v 16 8, stale := specField c.entry 56 2 } })

/-- MODERATION (R338). -/
def execModeration (tag : BitVec 16) (s : State) : Host.Outcome State Fault Refusal := goLive (adminSub tag opSetFeature 4 setModeration) s

/-- CM_AREA: the integrator area is written and read back before completion (Table 12-5): goal 0 at first, 1 while the link is at it, 2 or 3
once it has ended. -/
def setArea (data : Bytes) (c : Cmd) (s : State) : State :=
  if s.drive.vol.isNone then adminDone c 0x0411 0 s
  else match c.goal with
    | 0 => cmGroup (cmWrites cmArea (fit 1024 data)) (.command c.qid c.tag) (onCmd c.qid c.tag (fun d => { d with goal := 1 }) s)
    | 1 => s
    | 2 => adminDone c 0 0 s
    | _ => adminDone c 0x0311 0 s

/-- CM_AREA. -/
def execCmArea (tag : BitVec 16) (data : Bytes) (s : State) : Host.Outcome State Fault Refusal :=
  goLive (adminSub tag opSetFeature 5 (setArea data)) s

/-- DEAD_CLEAR: one declaration of a module goes, or all of them, and record 0x0021 is made (R103). -/
def clearDead (c : Cmd) (s : State) : State :=
  let m := selOf c
  let v := valueOf c
  let f := fun (d : BitVec 1024) => if v.testBit 31 then 0 else setBit d (v % 1024) false
  let s1 := s.onEcc fun e => if m = 0 then { e with dead0 := f e.dead0 } else { e with dead1 := f e.dead1 }
  adminDone c 0 0 (lantern 0x0021 (le 1 m ++ le 2 (if v.testBit 31 then 0xFFFF else v % 1024)) s1)

/-- DEAD_CLEAR (R103). -/
def execDeadClear (tag : BitVec 16) (s : State) : Host.Outcome State Fault Refusal := goLive (adminSub tag opSetFeature 6 clearDead) s

/-- VALUE and VALUE2 of a feature as last set; none for a queue that does not exist (Table 12-5). -/
def featureValue (s : State) (fid sel : Nat) : Option (Nat × Nat) :=
  match fid with
  | 1 => some (s.host.floor, 0)
  | 2 => some ((portOf s (portOfBit sel)).wakeEn.toNat, 0)
  | 3 => (qpOf s sel).map fun x => (portNo x.pref, 0)
  | 4 => let g := getAt s.host.groups sel {}; some (g.holdoff + 2 ^ 16 * g.agg, g.stale)
  | 6 => some (popcount (deadOf s sel), 0)
  | _ => some (0, 0)

/-- GET_FEATURE. -/
def execGetFeature (tag : BitVec 16) (s : State) : Host.Outcome State Fault Refusal :=
  goLive (adminRun tag opGetFeature fun c t =>
    match featureValue t (specField c.entry 48 1) (selOf c) with
    | some v => adminDone c 0 (v.1 + 2 ^ 32 * v.2) t
    | none => adminDone c 0x0101 0 t) s

/-! ## Logs (Table 12-6) -/

/-- The 16 bytes of a device event. -/
def eventBytes (e : DevEvent) : Bytes := le 6 e.time ++ le 2 e.boot ++ le 2 e.code ++ fit 6 e.data

/-- The whole entries of n bytes that lie within a window of a log of so many entries: the first and how many. -/
def entryWindow (n count off len : Nat) : Nat × Nat :=
  let first := (off + n - 1) / n
  (first, min (count - first) ((off + len) / n - first))

/-- Take a window out of a list. -/
def dropWindow {α : Type} (w : Nat × Nat) (l : List α) : List α := l.take w.1 ++ l.drop (w.1 + w.2)

/-- Return a window of entries and, with CONSUME, remove it from its log. -/
def entryLog (c : Cmd) (n : Nat) (entries : List Bytes) (remove : Nat × Nat → Lantern → Lantern) (s : State) : State :=
  let w := entryWindow n entries.length (specField c.entry 56 8) (lengthField c.entry)
  let bs := ((entries.drop w.1).take w.2).flatten
  let s1 := writeBuffer c.qid c.tag 0 bs s
  adminDone c 0 bs.length (if (specField c.entry 49 1).testBit 0 then s1.onLantern (remove w) else s1)

/-- Return bytes of a log from OFFSET on. -/
def byteLog (c : Cmd) (bs : Bytes) (s : State) : State :=
  let out := (bs.drop (specField c.entry 56 8)).take (lengthField c.entry)
  adminDone c 0 out.length (writeBuffer c.qid c.tag 0 out s)

/-- GET_LOG of the integrator area: it is read over the link first, in the steps of setArea (Table 12-6). -/
def areaLog (c : Cmd) (s : State) : State :=
  if s.drive.vol.isNone then adminDone c 0x0411 0 s
  else match c.goal with
    | 0 => cmGroup (cmReads cmArea 1024) (.command c.qid c.tag) (onCmd c.qid c.tag (fun d => { d with goal := 1 }) s)
    | 1 => s
    | 2 => byteLog c (cmBytes s cmArea 1024) s
    | _ => adminDone c 0x0411 0 s

/-- GET_LOG by LOG (Table 12-6). -/
def readLog (c : Cmd) (s : State) : State :=
  match specField c.entry 48 1 with
  | 1 => entryLog c 16 (s.lantern.events.map eventBytes) (fun w l => { l with events := dropWindow w l.events }) s
  | 2 => entryLog c 16 s.lantern.keptOutcomes (fun w l => { l with keptOutcomes := dropWindow w l.keptOutcomes }) s
  | 3 => entryLog c 32 s.lantern.report (fun w l => { l with report := dropWindow w l.report }) s
  | 4 => byteLog c (lanternLog s.lantern) s
  | _ => areaLog c s

/-- GET_LOG. -/
def execGetLog (tag : BitVec 16) (s : State) : Host.Outcome State Fault Refusal := goLive (adminRun tag opGetLog readLog) s

/-- SMBus HEALTH (R386): AON answers in every power state. -/
def execHealth (s : State) : Host.Outcome State Fault Refusal := go (fun s => emit (.smbus (healthBytes s)) s) s

/-- SMBus LANTERN_READ (R386). -/
def execLanternRead (rseq : BitVec 32) (s : State) : Host.Outcome State Fault Refusal :=
  go (fun s => emit (.smbus (lanternAt s.lantern rseq.toNat)) s) s

/-! ## POWER_STATE (R298, R300, R399) -/

/-- The reason for which a target is refused, if any; PS1 without a cartridge mounted acts as PS2 (Table 11-9). -/
def powerRefusal (s : State) (target : Nat) : Option Nat :=
  let mounted := s.drive.vol.isSome
  let stopped := s.stp.mode == .still || s.stp.mode == .off
  match target with
  | 0 => none
  | 1 => if mounted && (ioOutstanding s || !stopped) then some 1 else none
  | 2 => if mounted then some 2 else none
  | _ => if mounted then some 2 else if !s.wr.sets.isEmpty then some 3 else if 0 < outCount s .aon then some 4 else none

/-- The state that a target brings about. -/
def targetState (s : State) (target : Nat) : Fin 5 :=
  match target with
  | 0 => 0
  | 1 => if s.drive.vol.isSome then 1 else 2
  | 2 => 2
  | 3 => 3
  | _ => 4

/-- POWER_STATE: every held interrupt first, then the entry, then the state; PS4 commits 10 ms later (R298, R300, R399). -/
def changePower (c : Cmd) (s : State) : State :=
  let target := specField c.entry 48 1
  let s1 := flushGroups s
  match powerRefusal s target with
  | some r => adminDone c 0x0220 r s1
  | none =>
    let s2 := adminDone c 0 0 s1
    if targetState s target = 4 then s2.onPower fun p => { p with entering := true, ps4Due := some (p.time + 10 * msTicks) }
    else if target = 0 then s2
    else enterPs (targetState s target) s2

/-- POWER_STATE (R298). -/
def execPowerState (tag : BitVec 16) (s : State) : Host.Outcome State Fault Refusal := goLive (adminRun tag opPowerState changePower) s

end Sys2Proof.Machine
end

