-- ==== Sys2Proof/Machine/Belfry.lean ====
section
/-! DEFINITION. Belfry's commands: requests, claims, ends of interrupt, masks, timers, signals, and the loss of a copy or a core
(R329 to R337, R379). -/

namespace Sys2Proof.Machine

/-! ## Claim and EOI (Table 13-3) -/

/-- A wake latch is cleared when its source is claimed (R331). -/
def clearLatch (n : Nat) (b : Belfry) : Belfry :=
  if 112 ≤ n ∧ n < 128 then { b with latched := setBit b.latched (n - 112) false } else b

/-- The claim of an offered source completes: pending cleared, priority pushed, source active on the core. -/
def claimSource (core : Fin 4) (n : Nat) (s : State) : State :=
  let prio := (getAt s.blf.sources n {}).prio.val
  offers (s.onBlf fun b => clearLatch n { b with
    sources := updAt b.sources n fun q => { q with pending := false, active := some core }
    cores := b.cores.set core { b.cores[core] with
      stack := (n, prio) :: b.cores[core].stack, claimed := n, offer := none, withdrawn := false } })

/-- A claim answered with the spurious number (R333). -/
def claimSpurious (core : Fin 4) (s : State) : State :=
  emit (.spurious core) (s.onBlf fun b => { b with
    cntSpurious := inc b.cntSpurious, cores := b.cores.set core { b.cores[core] with claimed := 511, withdrawn := false } })

/-- A stack fault (R335): the count, source 472 at priority 0 to the lowest-numbered other core in service, record 0x00D0, and the
core out of service (R379). -/
def stackFault (core : Fin 4) (s : State) : State :=
  let heir : Fin 5 := match (List.range 4).find? fun i => decide (i ≠ core.val) && s.blf.coreOk.getLsbD i with
    | some i => if h : i < 5 then ⟨i, h⟩ else 4
    | none => 4
  let s1 := s.onBlf fun b => { b with
    cntStackFault := inc b.cntStackFault, sources := updAt b.sources 472 fun q => { q with prio := 0, route := heir } }
  takeOut .controlCore core (lantern 0x00D0 (le 1 2 ++ le 1 core) (raise 472 s1))

/-- An EOI that names the top of the stack pops it; any other, or a parity error in the entry, is a stack fault (R335). -/
def endOfInterrupt (core : Fin 4) (source : Nat) (parityError : Bool) (s : State) : State :=
  match s.blf.cores[core].stack with
  | [] => stackFault core s
  | (n, _) :: rest =>
    if n = source ∧ !parityError then
      offers (s.onBlf fun b => { b with
        sources := updAt b.sources n fun q => { q with active := none }
        cores := b.cores.set core { b.cores[core] with stack := rest } })
    else stackFault core s

/-! ## The commands -/

/-- SOURCE_REQUEST: a request edge of a source (R329, R330). -/
def execSourceRequest (n : Fin 480) (s : State) : Host.Outcome State Fault Refusal := go (raise n) s

/-- CLAIM: the core takes the source on offer; an offer withdrawn before the claim gives 511; with neither there is nothing to claim
(R333). -/
def execClaim (core : Fin 4) (s : State) : Host.Outcome State Fault Refusal :=
  match s.blf.cores[core].offer with
  | some n => .next (claimSource core n s)
  | none => if s.blf.cores[core].withdrawn then .next (claimSpurious core s) else .next s

/-- EOI (R335). -/
def execEoi (core : Fin 4) (source : Fin 480) (parityError : Bool) (s : State) : Host.Outcome State Fault Refusal :=
  go (endOfInterrupt core source parityError) s

/-- BELFRY_MASK_WRITE: a source's priority, route and enables (R332, R333). -/
def execBelfryMaskWrite (source : Fin 480) (priority : Fin 16) (route : Fin 5) (en : BitVec 4) (s : State) :
    Host.Outcome State Fault Refusal :=
  go (fun s => offers (s.onBlf fun b => { b with
    sources := b.sources.set source { b.sources[source] with prio := priority, route := route, en := en } })) s

/-- CORE_TIMER_EXPIRY: source 448 + 4c + t (Table 13-1). -/
def execCoreTimerExpiry (core : Fin 4) (timer : Fin 4) (s : State) : Host.Outcome State Fault Refusal :=
  go (raise (448 + 4 * core.val + timer.val)) s

/-- INTER_CORE_SIGNAL: source 464 + 2c + line; it carries the core's heartbeat (Table 13-1, R379). -/
def execInterCoreSignal (core : Fin 4) (line : Fin 2) (s : State) : Host.Outcome State Fault Refusal :=
  go (fun s => raise (464 + 2 * core.val + line.val)
    (s.onBlf fun b => { b with cores := b.cores.set core { b.cores[core] with missed := 0 } })) s

/-- BELFRY_COPY_MISMATCH: the failed copy leaves, the other serves alone, source 473 is raised (R337). -/
def execBelfryCopyMismatch (failed : Fin 2) (s : State) : Host.Outcome State Fault Refusal :=
  go (fun s => lantern 0x00D0 (le 1 3 ++ le 1 failed) (raise 473 (s.onBlf fun b => { b with
    copyOk := setBit b.copyOk failed false, cntParity := inc b.cntParity }))) s

/-- CORE_HEARTBEAT_MISSED: the fifth in a row takes the core out of service (R379). -/
def execCoreHeartbeatMissed (core : Fin 4) (s : State) : Host.Outcome State Fault Refusal :=
  go (fun s =>
    let n := s.blf.cores[core].missed + 1
    if !s.blf.coreOk.getLsbD core then s
    else if 5 ≤ n then takeOut .controlCore core s
    else s.onBlf fun b => { b with cores := b.cores.set core { b.cores[core] with missed := n } }) s

end Sys2Proof.Machine
end

