-- ==== Sys2Proof/Machine/Channel.lean ====
section
/-! DEFINITION. One read channel, sample by sample and bit by bit: the signal path (R137), timing and adaptation (R139 to R144), defects
(R145), the detector (R146), wedges (R149, R150), the sync search (R151, R152) and the replay engine's pass (R153, R154). -/

namespace Sys2Proof.Machine

/-! ## The schedule entry in force (R162) -/

/-- A byte of the entry in force. -/
def entB (k : Chan) (i : Nat) : Nat := (k.entry.getD i 0).toNat

/-- A byte of the entry where 0 acts as 1. -/
def entOne (k : Chan) (i : Nat) : Nat := max 1 (entB k i)

/-- 2^−n for an exponent byte, kept within 4 to 20. -/
def entStep (k : Chan) (i : Nat) : Rat := 1 / 2 ^ max 4 (min 20 (entB k i))

/-- DEF_EXT and DEF_COAST in effect. -/
def defExt (k : Chan) : Nat := min 32 (entB k 18)
def defCoast (k : Chan) : Nat := max 64 (entB k 20 + 256 * entB k 21)

/-- LOCK_LOSS in effect, in UI. -/
def lockLoss (k : Chan) : Rat := (max 1 (entB k 22 + 256 * entB k 23) : Nat) / 256

/-- The target t0 to t3 (Table 06-6). -/
def targets (k : Chan) : List Rat :=
  let raw := fun i => signed 8 (entB k i)
  [(if raw 10 = 0 then (1 : Rat) else raw 10) / 16, (raw 11 : Rat) / 16, (raw 12 : Rat) / 16, (raw 13 : Rat) / 16]

/-- +1 for channel bit 1, −1 for channel bit 0 (R139). -/
def polar (b : Bool) : Rat := if b then 1 else -1

/-- d of a bit from the target and the bits a[k], a[k−1], a[k−2], a[k−3] (R139). -/
def idealOut (ts : List Rat) (as : List Bool) : Rat := 8 * ((ts.zip as).map fun p => p.1 * polar p.2).sum

/-- TE_NORM (R139). -/
def teNorm (ts : List Rat) : Rat :=
  128 * (ts.getD 0 0 * ts.getD 1 0 + ts.getD 1 0 * ts.getD 2 0 + ts.getD 2 0 * ts.getD 3 0)

/-! ## What the rest of the part tells a channel -/

/-- What a channel is told with its samples: n_nom, the schedule entry it may take up, the freezes and gains of a retry, the erase map,
whether the samples are lost, its tile's CT_SYNCCFG, the wedge that Steeple's position names, the median f of its siblings (R140), the time
and the ticks of a channel bit. -/
structure ChanEnv where
  nNom : Rat
  set : Nat
  band : Nat
  entry : Bytes
  erased : Bool
  freeze : Bool
  narrow : Bool
  lost : Bool
  cfg : Word
  sibF : Option Rat
  wedgePos : Option Nat
  time : Rat
  bitTicks : Rat

/-- WEDGE_DIST now (R166). -/
def wedgeDist (e : ChanEnv) : Nat := bits e.cfg.toNat 8 3

/-- Take up the schedule entry offered (R163). -/
def takeEntry (e : ChanEnv) (k : Chan) : Chan := { k with set := e.set, band := e.band, entry := e.entry }

/-- Kp and Ki: the ACQ pair in a cold acquisition, the TRK pair otherwise, halved by NARROW (R139, R159). -/
def loopKp (e : ChanEnv) (k : Chan) : Rat := ((if k.lock then entOne k 2 else entOne k 0) : Nat) / 256 / (if e.narrow then 2 else 1)
def loopKi (e : ChanEnv) (k : Chan) : Rat := ((if k.lock then entB k 3 else entB k 1) : Nat) / 65536 / (if e.narrow then 2 else 1)

/-! ## Samples and interpolation (R136, R137) -/

/-- A sample comes in: offset and asymmetry corrected, kept for the replay (R136, R137). -/
def takeSample (x : Int) (k : Chan) : Chan :=
  let u : Rat := ((max (-31) x : Int) : Rat) - k.ofs
  { k with vs := ((u - k.beta * u * u) :: k.vs).take 12288, uTail := (u :: k.uTail).take 16, t := k.t + 1, sampNo := k.sampNo + 1 }

/-- Cubic Lagrange interpolation at mu between the second and third of four samples (R137). -/
def cubicLagrange (a b c d mu : Rat) : Rat :=
  -mu * (mu - 1) * (mu - 2) / 6 * a + (mu + 1) * (mu - 1) * (mu - 2) / 2 * b - (mu + 1) * mu * (mu - 2) / 2 * c +
  (mu + 1) * mu * (mu - 1) / 6 * d

/-- The value t sample periods behind the newest sample (R137). -/
def valueAt (vs : List Rat) (t : Rat) : Rat :=
  let i := ⌈t⌉.toNat
  let mu := (i : Rat) - t
  cubicLagrange (vs.getD (i + 1) 0) (vs.getD i 0) (vs.getD (i - 1) 0) (vs.getD (i - 2) 0) mu

/-- z from 13 values of y, the newest first (R137). -/
def equalize (w : Vector Rat 13) (g : Rat) (ys : List Rat) : Rat := g * ((w.toList.zip ys).map fun p => p.1 * p.2).sum

/-! ## Positions (R149) -/

/-- The data-bit position of the bit n places before the newest bit of zs; none inside a wedge or before an anchor. -/
def bitPosition (k : Chan) (n : Nat) : Option Nat :=
  if k.anchored then
    let ahead := k.hold.length + k.zPend
    let raw := k.counter + ahead - 1 - n
    if raw < k.counter then some raw
    else if raw < k.counter + k.dropNext then none
    else
      let r := raw - k.dropNext
      if r < k.wedgeAt then some r else if r < k.wedgeAt + 80 then none else some (r - 80)
  else none

/-- The known bit at a position: in a preamble, a postamble, or a sync or resync mark that has been found (R139). -/
def knownBit (k : Chan) (pos : Nat) : Option Bool :=
  let off := match k.frameAt with
    | some f => if f ≤ pos then pos - f else pos % slotBits
    | none => pos % slotBits
  let marked := fun (at_ : Option Nat) (mark : List Bool) => at_.bind fun p => if p ≤ pos then mark[pos - p]? else none
  if off < 96 then preambleBits[off]?
  else if 9002 ≤ off then postambleBits[off - 9002]?
  else (marked k.syncAt syncBits).or (marked k.resyncAt resyncBits)

/-- The bit n places before the newest of zs, as the wedge found last gives it (R139, R146). -/
def wedgeKnown (k : Chan) (n : Nat) : Option Bool :=
  k.wedgeBit.bind fun w => if n < k.bitNo ∧ w + n < k.bitNo then wedgeBits[k.bitNo - 1 - n - w]? else none

/-! ## Defects (R145) -/

/-- A bit meets one of the defect conditions. -/
def defectSeen (e : ChanEnv) (k : Chan) (lowRun : Nat) : Bool :=
  e.lost || decide (entOne k 16 ≤ lowRun) || decide ((entOne k 17 : Rat) < absRat (meanRat (k.vs.take 8)))

/-- Follow the defect region through the newest bit of zs (R145). -/
def defectStep (e : ChanEnv) (k : Chan) : Chan :=
  let thr : Rat := (min 15 (entB k 15) : Nat) / 16 * 8 * ((targets k).map absRat).sum
  let lowRun := if (k.zs.take 4).all fun z => decide (absRat z < thr) then k.lowRun + 1 else 0
  if defectSeen e k lowRun then
    let back := if k.defLen = 0 then defExt k else max (defExt k) k.cleanRun
    { k with lowRun := lowRun, cleanRun := 0, defect := true,
             defLen := if k.defLen = 0 then defExt k + 1 else k.defLen + 1,
             defs := true :: (List.replicate (min back k.defs.length) true ++ k.defs.drop back) }
  else if k.defLen = 0 then { k with lowRun := lowRun, defect := false, defs := false :: k.defs }
  else
    let n := k.cleanRun + 1
    let inside := decide (n ≤ defExt k)
    let k1 := { k with lowRun := lowRun, cleanRun := n, defect := inside, defs := inside :: k.defs, defLen := k.defLen + 1 }
    if n < defExt k ∨ n < entOne k 16 then k1
    else
      let long := decide (defCoast k < k1.defLen + defExt k - n)
      { k1 with defLen := 0, lock := k1.lock && !long, acqBits := if long then 0 else k1.acqBits }

/-- Of the bits not put out, the newest that a further flagged bit would still take into the open region (R145). -/
def undecided (k : Chan) : Nat := if k.defLen = 0 then 0 else k.cleanRun - defExt k

/-! ## Acquisition, adaptation and timing (R139 to R144) -/

/-- The newest 16 bits run in the 0b1100 pattern, in any phase of it (R140). -/
def acquirePattern (bs : List Bool) : Bool := decide (16 ≤ bs.length) && (List.range 14).all fun i => bs.getD i false != bs.getD (i + 2) false

/-- The next data-bit position to arrive; 0 before an anchor. -/
def nextArrival (k : Chan) : Nat := if k.anchored then k.counter + k.hold.length + k.zPend + 6 else 0

/-- One bit of a cold acquisition: the pattern awaited, 16 bits of correlation and the phase set, 32 bits at the ACQ gains, then LOCK. After a
change of module f begins at the siblings' median (R140). -/
def acquireStep (e : ChanEnv) (k : Chan) : Chan :=
  if k.lock then k
  else if k.acqBits = 0 then
    if acquirePattern k.bits then
      { k with acqBits := 1, newModule := false, freq := if k.newModule then e.sibF.getD k.freq else k.freq }
    else k
  else if k.acqBits = 16 then { k with t := k.t + Config.acquirePhase (k.ys.take 16), eTau := 0, acqBits := 17 }
  else if k.acqBits < 48 then { k with acqBits := k.acqBits + 1 }
  else takeEntry e { k with lock := true, acqBits := 0, sinceAcq := 0, errs := [], lockFrom := nextArrival k }

/-- The tentative decision: a known bit, the pattern of an acquisition, or the detector's (R139). -/
def decideBit (k : Chan) : Bool :=
  if 0 < k.acqBits then !(k.bits.getD 1 false)
  else
    match (wedgeKnown k 6).or ((bitPosition k 6).bind (knownBit k)) with
    | some b => b
    | none => Config.tentative k.zs

/-- The adaptation of R142 at the bit that the tentative decisions have reached; err = d − z there. A range open above ends 1/65,536 below its
bound (R137, log 172). -/
def adapt (k : Chan) (err d : Rat) : Chan :=
  let mu := if k.sinceAcq ≤ 512 then entStep k 4 else entStep k 5
  let u := k.us.getD 12 0
  { k with
    taps := k.taps.mapIdx fun j w =>
      if j = 6 then w else clampRat (w + mu * err * k.gain * k.ys.getD (6 + j) 0) (-8) (8 - 1 / 65536)
    gain := clampRat (k.gain + entStep k 6 * err * d / 64) (1 / 16) (16 - 1 / 65536)
    ofs := clampRat (k.ofs - entStep k 7 * err) (-16) (16 - 1 / 65536)
    beta := clampRat (k.beta - entStep k 8 * err * u * u) (-1 / 16) (1 / 16 - 1 / 65536) }

/-- One update of every loop, R142 before R139 (R139, R141 to R144). -/
def loopUpdate (e : ChanEnv) (k : Chan) : Chan :=
  let ts := targets k
  let d0 := idealOut ts (k.bits.take 4)
  let d1 := idealOut ts ((k.bits.drop 1).take 4)
  let z0 := k.zs.getD 6 0
  let z1 := k.zs.getD 7 0
  let err := d0 - z0
  let tau := divRat (z0 * d1 - z1 * d0) (teNorm ts)
  if k.defs.getD 6 false || (0 < k.acqBits && k.acqBits ≤ 16) then { k with eTau := 0 }
  else
    let k1 := if k.lock && !e.erased && !e.freeze then adapt k err d0 else k
    let errs := (absRat tau :: k1.errs).take 128
    let drops := k1.lock && decide (errs.length = 128) && decide (lockLoss k < meanRat errs)
    { k1 with
      eTau := tau, freq := k1.freq - loopKi e k * tau, errs := if drops then [] else errs, sq := (err * err :: k1.sq).take 256,
      lock := k1.lock && !drops, acqBits := if drops then 0 else k1.acqBits }

/-! ## The detector (R146) -/

/-- The trellis state after a bit; the state holds a[k−1], a[k−2], a[k−3] as bits 2, 1, 0. -/
def trellisNext (st : Nat) (a : Bool) : Nat := 4 * a.toNat + st / 2

/-- The branch metric of a bit from a state. -/
def branchMetric (ts : List Rat) (var z : Rat) (st : Nat) (a : Bool) : Rat :=
  let d := idealOut ts [a, st.testBit 2, st.testBit 1, st.testBit 0]
  (z - d) * (z - d) / (2 * var)

/-- The least of a list. -/
def leastRat : List Rat → Rat
  | [] => 0
  | x :: xs => xs.foldl min x

/-- The least metric of the paths that exist; none when none does. -/
def leastPath (ms : List (Option Rat)) : Option Rat := match ms.filterMap id with | [] => none | x :: xs => some (leastRat (x :: xs))

/-- A value of z for the trellis, with the bit when it is known data (R146). -/
structure TrellisIn where
  z : Rat
  known : Option Bool

/-- The metric of a branch; a branch against a known bit does not exist. -/
def branch (ts : List Rat) (var : Rat) (x : TrellisIn) (st : Nat) (a : Bool) : Option Rat :=
  if x.known = some (!a) then none else some (branchMetric ts var x.z st a)

/-- The metric of a path and what joins it. -/
def joined (a b : Option Rat) : Option Rat := a.bind fun x => b.map fun y => x + y

/-- Path metrics one bit on. -/
def alphaStep (ts : List Rat) (var : Rat) (m : List (Option Rat)) (x : TrellisIn) : List (Option Rat) :=
  (List.range 8).map fun s => leastPath ([0, 1].map fun p =>
    let q := 2 * (s % 4) + p
    joined (m.getD q none) (branch ts var x q (decide (4 ≤ s))))

/-- Path metrics one bit back. -/
def betaStep (ts : List Rat) (var : Rat) (x : TrellisIn) (m : List (Option Rat)) : List (Option Rat) :=
  (List.range 8).map fun s => leastPath ([false, true].map fun a => joined (branch ts var x s a) (m.getD (trellisNext s a) none))

/-- The best metric of a path through a bit value. -/
def bestThrough (ts : List Rat) (var : Rat) (x : TrellisIn) (before after : List (Option Rat)) (a : Bool) : Option Rat :=
  leastPath ((List.range 8).map fun s => joined (joined (before.getD s none) (branch ts var x s a)) (after.getD (trellisNext s a) none))

/-- Λ of every bit of a run of z, oldest first: the best metric through +1 less the best through −1, none for known data. The metrics at both
ends of the run start equal for all eight states (R146, log 172). -/
def mapDetect (ts : List Rat) (var : Rat) (xs : List TrellisIn) : List (Option Rat) :=
  let flat := List.replicate 8 (some (0 : Rat))
  let before := xs.scanl (alphaStep ts var) flat
  let after := (xs.scanr (betaStep ts var) flat).drop 1
  (xs.zip (before.zip after)).map fun p =>
    joined (bestThrough ts var p.1 p.2.1 p.2.2 true) ((bestThrough ts var p.1 p.2.1 p.2.2 false).map fun y => -y)

/-- σ²: the mean of e² over the last 256 bits outside defects, at least 0.25 (R146). -/
def noiseVar (k : Chan) : Rat := max (1 / 4) (meanRat k.sq)

/-- L from Λ (R146); known data is certain. -/
def softOut (k : Chan) (known : Option Bool) (x : Option Rat) : Int :=
  match known, x with
  | some b, _ => if b then -31 else 31
  | none, some y => max (-31) (min 31 (roundRat (y * (entOne k 14 : Nat) / 16)))
  | none, none => 0

/-- The LLRs of a block of 64 with 32 bits of warm-up on each side, fewer before it at a run's start: z oldest first. -/
def blockLlrs (k : Chan) (xs : List TrellisIn) (warm : Nat) : List Int :=
  (((xs.zip (mapDetect (targets k) (noiseVar k) xs)).drop warm).take 64).map fun p => softOut k p.1.known p.2

/-! ## Wedges (R149, R150) -/

/-- The 48 bits of the wedge mark (R33). -/
def wedgeMark : List Bool := bitsMsb 48 0x0F3C5A9E17B3

/-- Bits of a mark that the hard decisions miss; none when more than 8 of them are erased (R151). -/
def markErrors (mark : List Bool) (ls : List Int) : Option Nat :=
  if 8 < ls.count 0 then none else some ((mark.zip ls).countP fun p => p.2 == 0 || hard p.2 != p.1)

/-- The arrival of a wedge mark's first bit, m channel bits before the newest bit of zs, to 1/16 bit: time is that of the newest sample
(R150). -/
def arrivalOf (e : ChanEnv) (time : Rat) (k : Chan) (m : Nat) : Rat :=
  let bitsAgo : Rat := m + 6 + divRat k.t e.nNom
  time - e.bitTicks * ((roundRat (16 * bitsAgo) : Rat) / 16)

/-- The slot whose sync window has not closed at a counter value (R151). -/
def slotAfter (counter : Nat) : Nat := (counter - 144 + (slotBits - 1)) / slotBits

/-- The number of the first bit of a wedge whose mark begins m bits before the newest bit of zs. -/
def wedgeStart (k : Chan) (m : Nat) : Option Nat := some (k.bitNo - 1 - m - 16)

/-- A wedge mark has been found, beginning m bits before the newest bit of zs, by a channel without an anchor (R149). -/
def anchorAt (k : Chan) (pos m : Nat) : Chan :=
  { k with anchored := true, wedgeBit := wedgeStart k m, lockFrom := 0, counter := pos, wedgeAt := pos + wordBits, dropNext := 16, llrs := [], llrDef := [], hold := [],
           wedgeMiss := 0, wedgeOfs := some 0, slot := slotAfter pos, state := if k.state = .anchorWait then .track else k.state }

/-- The best place of the mark within ±64 bits of its expected one: the correction, lowest distance first, earliest on ties (R149). -/
def wedgeSearch (dist : Nat) (bitsOldest : List Int) : Option Int :=
  let cands := (List.range 129).filterMap fun i =>
    let d := (wedgeMark.zip ((bitsOldest.drop (i + 16)).take 48)).countP fun p => hard p.2 != p.1
    if d ≤ dist then some (d, (i : Int) - 64) else none
  let best : Option (Nat × Int) := cands.foldl (fun b x => match b with
    | none => some x
    | some y => if x.1 < y.1 then some x else some y) none
  best.map (·.2)

/-- Look for the wedge once 144 bits from its expected place are in: 80 bits leave the stream, and the counter stands by the mark found
(R149). n bits of zs are newer. The second component is how many bits before the newest the mark began. -/
def wedgeCheck (n : Nat) (k : Chan) : Chan × Option Nat :=
  let all : List (Int × Bool) := k.hold ++ k.llrs.zip k.llrDef
  let recent := ((all.take 208).map (·.1)).reverse
  let put := fun (ofs : Int) (k : Chan) =>
    let after := (64 - ofs).toNat
    let keep : List (Int × Bool) := all.take after ++ all.drop (after + 80)
    { k with llrs := keep.map Prod.fst, llrDef := keep.map Prod.snd, hold := [], counter := k.wedgeAt + after, wedgeAt := k.wedgeAt + wordBits }
  match (if 208 ≤ recent.length then wedgeSearch k.wedgeLim recent else none) with
  | some ofs =>
    let m := (127 - ofs).toNat + n
    ({ put ofs k with wedgeMiss := 0, wedgeOfs := some ofs, wedgeBit := wedgeStart k m, slips := k.slips + (decide (ofs ≠ 0)).toNat }, some m)
  | none => ({ put 0 k with wedgeMiss := k.wedgeMiss + 1, wedgeOfs := none, wedgeBit := none }, none)

/-! ## The sync search (R151, R152) -/

/-- The LLR at a data-bit position; 0 where none is kept. -/
def llrAt (k : Chan) (p : Nat) : Int := if p < k.counter then k.llrs.getD (k.counter - 1 - p) 0 else 0

/-- Expected position of the sync of the slot in hand. -/
def syncExpected (k : Chan) : Nat := slotBits * k.slot + 96

/-- States that change by themselves when the counter or LOCK reaches what Table 06-2 names; a window that opens takes CT_SYNCCFG as it is
(R166). -/
def autoState (cfg : Word) (k : Chan) : Chan :=
  match k.state with
  | .track =>
    if !k.lock then { k with state := .acquire }
    else
      let k1 := { k with slot := max k.slot (slotAfter k.counter) }
      if syncExpected k1 ≤ k1.counter + 48 then { k1 with state := .seekSync, cfg := cfg, snap := k1.snapNext, frameAt := none, syncAt := none, resyncAt := none, syncMissed := false }
      else k1
  | .acquire => if k.lock then { k with state := .track } else k
  | .blockA => (match k.frameAt with
    | some f => if f + 4545 ≤ k.counter then { k with state := .seekResync, cfg := cfg } else k
    | none => k)
  | .lostFrame => if syncExpected k + 8976 ≤ k.counter then { k with state := .track, lostSlot := some k.slot, slot := k.slot + 1 } else k
  | .idle | .anchorWait | .seekSync | .seekResync | .wideResync | .blockB => k

/-- Search a window for a mark: none while bits it needs are still to come, then the position chosen, or a miss (R151). -/
def seekMark (k : Chan) (mark : List Bool) (limit lo hi : Nat) : Option (Option Nat) :=
  let errors := fun p => markErrors mark ((List.range mark.length).map fun i => llrAt k (p + i))
  let ready := fun p => decide (p + mark.length ≤ k.counter)
  let good := fun p => match errors p with | some d => decide (d ≤ limit) | none => false
  match ((List.range (hi + 1 - lo)).map (lo + ·)).find? fun p => ready p && good p with
  | some p =>
    let last := min hi (p + 4)
    if ready last then
      some (((List.range (last + 1 - p)).map (p + ·)).foldl (fun (b : Option Nat) q => match b, errors q with
        | none, some _ => some q
        | some r, some d => if d < (errors r).getD 99 then some q else some r
        | _, none => b) none)
    else none
  | none => if ready hi then some none else none

/-- Evaluate whichever window is open (R151, Table 06-2). -/
def syncStep (e : ChanEnv) (syncDist resyncDist : Nat) (k : Chan) : Chan :=
  let x := syncExpected k
  match k.state with
  | .seekSync =>
    (match seekMark k syncBits syncDist (max k.lockFrom (x - 48)) (x + 48) with
    | some (some p) => autoState e.cfg (takeEntry e { k with state := .blockA, frameAt := some (p - 96), syncAt := some p })
    | some none => { k with state := .wideResync, cfg := e.cfg, syncMissed := true }
    | none => k)
  | .seekResync =>
    (match k.frameAt with
    | none => k
    | some f =>
      match seekMark k resyncBits resyncDist (f + 4545) (f + 4561) with
      | some (some q) => { k with state := .blockB, resyncAt := some q, blockB := q + 24, slips := k.slips + (decide (q ≠ f + 4553)).toNat }
      | some none => { k with state := .blockB, blockB := f + 4577 }
      | none => k)
  | .wideResync =>
    (match seekMark k resyncBits resyncDist (x + 4409) (x + 4505) with
    | some (some q) => { k with state := .blockB, frameAt := some (q - 4553), resyncAt := some q, blockB := q + 24, replayA := true }
    | some none => autoState e.cfg { k with state := .lostFrame }
    | none => k)
  | .idle | .anchorWait | .acquire | .track | .blockA | .blockB | .lostFrame => k

/-! ## One channel bit -/

/-- One LLR leaves the detector, with n newer bits behind it: it is looked at for an anchor, joins the data bits, or is held over the
expected wedge. The second component is how many bits ago a wedge mark began, when one has been found. -/
def takeLlr (e : ChanEnv) (l : Int) (isDef : Bool) (n : Nat) (k : Chan) : Chan × Option Nat :=
  if 0 < k.dropNext then ({ k with dropNext := k.dropNext - 1 }, none)
  else if !k.anchored then
    let ls := (l :: k.llrs).take 48
    let k1 := { k with llrs := ls, llrDef := (isDef :: k.llrDef).take 48 }
    match e.wedgePos with
    | some pos =>
      if ls.length = 48 ∧ ((wedgeMark.zip ls.reverse).countP fun p => hard p.2 != p.1) ≤ wedgeDist e then (anchorAt k1 pos (47 + n), some (47 + n))
      else (k1, none)
    | none => (k1, none)
  else if k.counter < k.wedgeAt then
    let k1 := { k with llrs := (l :: k.llrs).take 10685, llrDef := (isDef :: k.llrDef).take 10685, counter := k.counter + 1 }
    (autoState e.cfg (if k1.counter + 64 = k1.wedgeAt then { k1 with wedgeLim := wedgeDist e } else k1), none)
  else
    let k1 := { k with hold := (l, isDef) :: k.hold }
    if k1.hold.length = 144 then
      let r := wedgeCheck n k1
      (autoState e.cfg r.1, r.2)
    else (k1, none)

/-- The detector puts a block of 64 out once 96 bits wait and none of the 64 could still be taken into a defect region (R145, R146); erased
bits leave it as 0 (R141, R145). -/
def emitBlock (e : ChanEnv) (k : Chan) : Chan × Option Nat :=
  if k.zPend < 96 ∨ k.zPend < 64 + undecided k then (k, none)
  else
    let newer := k.zPend - 96
    let warm := min 32 (k.zs.length - k.zPend)
    let xs := k.zs.mapIdx fun n z => (⟨z, wedgeKnown k n⟩ : TrellisIn)
    let win := ((xs.drop newer).take (96 + warm)).reverse
    let flags := (((k.defs.zip k.unlocked).drop newer).take 96).reverse.take 64
    let out := ((blockLlrs k win warm).zip flags).mapIdx fun i p => (i, (if p.2.1 || p.2.2 then 0 else p.1), p.2.1)
    out.foldl (fun acc p =>
      let r := takeLlr e p.2.1 p.2.2 (k.zPend - 1 - p.1) acc.1
      (r.1, if r.2.isSome then r.2 else acc.2)) ({ k with zPend := k.zPend - 64, zs := k.zs.take (k.zPend + 32) }, none)

/-- One channel bit: interpolated, equalized, decided, adapted and detected (R137 to R146). -/
def channelBit (e : ChanEnv) (k : Chan) : Chan × Option Nat :=
  let t := k.t - e.nNom * (1 + k.freq - loopKp e k * k.eTau)
  let k1 := { k with t := t, ys := (valueAt k.vs t :: k.ys).take 32, us := (k.uTail.getD ⌈t⌉.toNat 0 :: k.us).take 16,
                     phases := ((k.sampNo - t, k.freq) :: k.phases).take 10800 }
  if k1.ys.length < 13 then (k1, none)
  else
    let k2 := { k1 with zs := equalize k1.taps k1.gain (k1.ys.take 13) :: k1.zs, zPend := k1.zPend + 1, bitNo := k1.bitNo + 1, sinceAcq := k1.sinceAcq + 1 }
    let k3 := defectStep e k2
    let k4 := { k3 with unlocked := ((!k3.lock) :: k3.unlocked).take 480, defs := k3.defs.take 480, bits := (decideBit k3 :: k3.bits).take 32 }
    let k4 := if (bitPosition k4 6).any fun p => p % slotBits == 0 then { k4 with snapNext := (k4.taps, k4.gain) } else k4
    let k5 := if 20 ≤ k4.bits.length then loopUpdate e k4 else k4
    emitBlock e (acquireStep e k5)

/-- The channel bits that a new sample completes; at most 4 (R137). -/
def channelBits (e : ChanEnv) : Nat → Chan × Option Nat → Chan × Option Nat
  | 0, r => r
  | fuel + 1, r =>
    if r.1.t - e.nNom * (1 + r.1.freq - loopKp e r.1 * r.1.eTau) < 2 then r
    else
      let q := channelBit e r.1
      channelBits e fuel (q.1, if q.2.isSome then q.2.map fun m => m else r.2)

/-- A run of samples of one channel, and the arrival of a wedge mark among them: e.time is that of the last of the samples (R136, R150). -/
def takeSamples (e : ChanEnv) (xs : List Int) (k : Chan) : Chan × Option Rat :=
  let times := (List.range xs.length).map fun i => e.time - ((xs.length - 1 - i : Nat) : Rat) * divRat e.bitTicks e.nNom
  (xs.zip times).foldl (fun acc x =>
    let r := channelBits e 4 (takeSample x.1 acc.1, none)
    (r.1, match r.2 with | some m => some (arrivalOf e x.2 r.1 m) | none => acc.2)) (k, none)

/-! ## The replay engine (R153, R154, R156) -/

/-- A replay in progress: how far the last bit lies behind the newest sample, f, e_τ, and what it has formed, the last first. -/
structure Replay where
  t : Rat
  freq : Rat
  eTau : Rat
  ys : List Rat
  zs : List Rat
  bits : List Bool

/-- The z that a replay forms from its newest 13 values, backward or forward in time (R137, R153). -/
def replayZ (k : Chan) (fw : Bool) (ys : List Rat) : Rat :=
  let w := k.snap.1
  equalize (if fw then w else Vector.ofFn fun j : Fin 13 => w[12 - j.val]) k.snap.2 (ys.take 13)

/-- e_τ at the bit that a replay's decisions have reached (R139). -/
def replayTau (k : Chan) (fw : Bool) (r : Replay) : Rat :=
  let ts := targets k
  let b := fun i => r.bits.getD i false
  let z := fun i => r.zs.getD i 0
  if r.bits.length < 8 then 0
  else if fw then
    divRat (z 6 * idealOut ts [b 1, b 2, b 3, b 4] - z 7 * idealOut ts [b 0, b 1, b 2, b 3]) (teNorm ts)
  else divRat (z 10 * idealOut ts [b 3, b 2, b 1, b 0] - z 9 * idealOut ts [b 4, b 3, b 2, b 1]) (teNorm ts)

/-- One bit of a replay, with its gains, forward or backward in time (R153). -/
def replayBit (e : ChanEnv) (k : Chan) (kp ki : Rat) (fw : Bool) (known : Option Bool) (r : Replay) : Replay :=
  let sg : Rat := if fw then -1 else 1
  let t := r.t + sg * e.nNom * (1 + r.freq) - e.nNom * (-kp * r.eTau)
  let ys := valueAt k.vs t :: r.ys
  let r1 := { r with t := t, ys := ys }
  if ys.length < 13 then r1
  else
    let zs := replayZ k fw ys :: r.zs
    let r2 := { r1 with zs := zs, bits := (match known with | some b => b | none => Config.tentative zs) :: r.bits }
    let tau := replayTau k fw r2
    { r2 with eTau := tau, freq := r.freq + sg * ki * tau }

/-- n bits of a replay, with the known bits by their count from its beginning. -/
def replayRun (e : ChanEnv) (k : Chan) (kp ki : Rat) (fw : Bool) (known : Nat → Option Bool) (n : Nat) (r : Replay) : Replay :=
  (List.range n).foldl (fun r i => replayBit e k kp ki fw (known i) r) r

/-- One bit of a replay where the loop itself held it, before the replay's own loop begins (R153). -/
def replayHeld (k : Chan) (fw : Bool) (t : Rat) (known : Option Bool) (r : Replay) : Replay :=
  let ys := valueAt k.vs t :: r.ys
  let r1 := { r with t := t, ys := ys }
  if ys.length < 13 then r1
  else
    let zs := replayZ k fw ys :: r.zs
    { r1 with zs := zs, bits := (match known with | some b => b | none => Config.tentative zs) :: r.bits }

/-- The LLRs of a run of z, oldest first, behind its first lead values: blocks of 64 with 32 bits of warm-up on each side. -/
def replayLlrs (k : Chan) (xs : List TrellisIn) (lead : Nat) : List Int :=
  (List.range ((xs.length - lead + 63) / 64)).flatMap fun i =>
    let at_ := lead + 64 * i
    let warm := min 32 at_
    blockLlrs k ((xs.drop (at_ - warm)).take (warm + 96)) warm

/-- The data-bit position of the wedge passed last. -/
def lastWedge (k : Chan) : Nat := k.wedgeAt - wordBits

/-- Bits of the wedge passed last that have left the stream. -/
def wedgeGone (k : Chan) : Nat := 80 - k.dropNext

/-- How far a data-bit position lies behind the newest bit of ys, in channel bits, a wedge between them included. -/
def bitsBehind (k : Chan) (pos : Nat) : Nat :=
  k.counter + k.hold.length + k.zPend + 5 - pos + (if pos < lastWedge k ∧ lastWedge k ≤ k.counter then wedgeGone k else 0)

/-- The known bit n places behind the newest of ys, as a replay of the frame that starts at f takes it: the wedge passed last, when it was
found, a preamble, a postamble, and the marks found (R139). -/
def knownBehind (k : Chan) (f n : Nat) : Option Bool :=
  let raw := k.counter + k.hold.length + k.zPend + 5 - n
  if k.counter < lastWedge k ∨ lastWedge k ≤ raw then knownBit { k with frameAt := some f } raw
  else if raw + wedgeGone k < lastWedge k then knownBit { k with frameAt := some f } (raw + wedgeGone k)
  else if k.wedgeOfs.isSome then wedgeBits[raw + wedgeGone k - lastWedge k]?
  else none

/-- The wedge's bit n places behind the newest of ys, when it was found (R146). -/
def wedgeBehind (k : Chan) (n : Nat) : Option Bool :=
  let raw := k.counter + k.hold.length + k.zPend + 5 - n
  if k.counter < lastWedge k ∨ lastWedge k ≤ raw ∨ raw + wedgeGone k < lastWedge k ∨ k.wedgeOfs = none then none
  else wedgeBits[raw + wedgeGone k - lastWedge k]?

/-- How far behind the newest sample the loop held the bit n places behind the newest of ys; past its record, as f extrapolates (R153). -/
def heldAt (e : ChanEnv) (k : Chan) (f : Rat) (n : Nat) : Rat :=
  match k.phases[n]? with
  | some p => k.sampNo - p.1
  | none => k.t + (n : Rat) * e.nNom * (1 + f)

/-- f as the loop held it at a data-bit position (R153). -/
def freqAt (k : Chan) (pos : Nat) : Rat := (k.phases[bitsBehind k pos]?.map (·.2)).getD k.freq

/-- The wedge leaves a replayed stream that begins at a position, and erasures of the first pass stay erasures (R145, R146). -/
def replayed (k : Chan) (pos n : Nat) (ls : List Int) : List Int :=
  let d := lastWedge k - pos
  let data := if pos < lastWedge k ∧ lastWedge k < pos + n then ls.take d ++ ls.drop (d + 80) else ls
  (data.take n).mapIdx fun i l =>
    if pos + i < k.counter ∧ k.llrDef.getD (k.counter - 1 - (pos + i)) false then 0 else l

/-- TRK gains, and ACQ gains (R153, R140). -/
def trkGains (e : ChanEnv) (k : Chan) : Rat × Rat := (loopKp e { k with lock := true }, loopKi e { k with lock := true })
def acqGains (e : ChanEnv) (k : Chan) : Rat × Rat := (loopKp e { k with lock := false }, loopKi e { k with lock := false })

/-- A run of z for the trellis, oldest first, the first n places behind the newest of ys. -/
def trellisOf (k : Chan) (n : Nat) (zs : List Rat) : List TrellisIn := zs.mapIdx fun i z => ⟨z, wedgeBehind k (n - i)⟩

/-- The LLRs of n bits from a position on, from a replay that runs backward in time from a later mark, with the phase the loop held there and
a seeded frequency, for a frame that starts at f (R153). The 40 bits from the mark on fill its filter and its warm-up, and it goes 38 bits past
the position. -/
def replayBack (e : ChanEnv) (k : Chan) (seed : Rat) (f mark pos n : Nat) : List Int :=
  let g := trkGains e k
  let b := bitsBehind k mark
  let r0 : Replay := { t := 0, freq := seed, eTau := 0, ys := [], zs := [], bits := [] }
  let r1 := (List.range 40).foldl (fun r i =>
    let at_ := b + 1 + i - 40
    replayHeld k false (heldAt e k seed at_) (knownBehind k f (at_ - 12)) r) r0
  let m := bitsBehind k pos - b + 38
  let r := replayRun e k g.1 g.2 false (fun i => knownBehind k f (b + 1 + i - 12)) m r1
  replayed k pos n (replayLlrs k (trellisOf k (b + m - 6) r.zs) 32)

/-- The LLRs of a whole frame from F − 4 on, 9,032 of them: acquired on its preamble, then run at the TRK gains (R140, R154). The first z
stands at F + 6; what lies before it is preamble. -/
def replayFrame (e : ChanEnv) (k : Chan) (seed : Rat) (f : Nat) : List Int :=
  let a := acqGains e k
  let g := trkGains e k
  let b := bitsBehind k f
  let r0 : Replay := { t := heldAt e k seed (b + 1), freq := seed, eTau := 0, ys := [], zs := [], bits := [] }
  let r1 := replayRun e k 0 0 true (fun _ => none) 16 r0
  let r2 := { r1 with t := r1.t + Config.acquirePhase (r1.ys.take 16), eTau := 0 }
  let r3 := (List.range 32).foldl (fun r _ => replayBit e k a.1 a.2 true (some (!(r.bits.getD 1 false))) r) r2
  let r4 := replayRun e k g.1 g.2 true (fun i => knownBehind k f (b + 12 - 48 - i)) 9150 r3
  replayed k (f - 4) 9032 (List.replicate 10 0 ++ replayLlrs k (trellisOf k (b - 6) r4.zs.reverse) 0)

end Sys2Proof.Machine
end

