-- ==== Sys2Proof/Machine/Tables.lean ====
section
/-! DEFINITION. The content rules of the integrator tables (R162, R188, R200, R202, R220) and how an accepted table takes effect
(Table 12-9). -/

namespace Sys2Proof.Machine

/-! ## Content rules -/

/-- A schedule entry's reserved bytes are zero (Table 06-6). -/
def scheduleEntryOk (b : Bytes) (i : Nat) : Bool :=
  field b (32 * i + 9) 1 == 0 && field b (32 * i + 19) 1 == 0 && allZero (slice b (32 * i + 24) 8)

/-- The read-channel schedule's rule (R162). -/
def scheduleOk (b : Bytes) : Bool := (List.range 64).all (scheduleEntryOk b)

/-- A program step keeps Table 07-10: no reserved opcode, SRC or law, no reserved bit set, A zero with another source, and a branch
target within the program (R200, R202). -/
def stepOk (w : Nat) : Bool :=
  let op := bits w 58 6
  let src := bits w 55 3
  let a := bits w 0 32
  decide (op ≤ 0x0F ∧ src ≤ 5) && bits w 48 7 == 0 && (src == 0 || a == 0) && (src != 5 || op == 1) &&
  (match op with
   | 0x03 | 0x04 => decide (a < 2 ^ 24)
   | 0x05 => decide (a < 2 ^ 6)
   | 0x08 => decide (a < 2 ^ 6 ∧ bits a 0 2 ≤ 2 ∧ bits a 2 4 ≤ 6)
   | 0x0B => decide (a ≤ 31)
   | _ => true)

/-- Word 15 of a coefficient block (Table 07-4). -/
def scaleWordOk (w : Nat) : Bool :=
  decide (100 ≤ bits w 16 16 ∧ bits w 16 16 ≤ 8000) && bits w 2 14 == 0 && decide (bits w 0 2 ≤ 2)

/-- The coefficient blocks: law 7 all zero, the others with VREF and SCALE_EXP in range (R202). -/
def blocksOk (b : Bytes) : Bool :=
  allZero (slice b (0x0200 + 64 * 112) 1024) && (List.range 112).all fun i => scaleWordOk (field b (0x0200 + 64 * i + 60) 4)

/-- Both repetitive controllers keep Q0 + 2 Q1 ≤ 1 (R188). -/
def controllersOk (b : Bytes) : Bool :=
  (List.range 2).all fun l => decide (Config.plant (.rcQ0 l) b + 2 * Config.plant (.rcQ1 l) b ≤ 1)

/-- The Steeple table's rules (R202). -/
def steepleOk (b : Bytes) : Bool :=
  b.take 4 == ascii "STPT" && field b 4 1 == 1 && allZero (Config.headerRsvd b) && blocksOk b && controllersOk b &&
  (List.range 2048).all fun i => stepOk (field b (0x2200 + 8 * i) 8)

/-- The front-end table's rules (R220). -/
def frontEndOk (b : Bytes) : Bool :=
  let n := field b 8 2
  b.take 4 == ascii "HLFT" && field b 4 1 == 1 && allZero (slice b 5 3) && allZero (slice b 10 6) && decide (n ≤ 4096) &&
  (List.range n).all fun i => field b (16 + 8 * i + 3) 1 == 0

/-- The content rules of a table of a TYPE (R317). -/
def contentOk (t : Nat) (b : Bytes) : Bool :=
  match t with
  | 1 => scheduleOk b
  | 2 => steepleOk b
  | 3 => frontEndOk b
  | _ => true

/-! ## Taking effect (Table 12-9) -/

/-- A table in force from now on. -/
def tableInForce (t : Nat) (m content : Bytes) (s : State) : State :=
  s.onTrust fun k => { k with tables := putAt k.tables (t - 1) (some (m, content)) }

/-- An accepted table takes effect as its TYPE asks for (Table 12-9). The device table waits for the next start. -/
def takeTable (t : Nat) (m content : Bytes) (s : State) : State :=
  match t with
  | 1 => (tableInForce 1 m content s).onTiles fun k => { k with savedTaps := [] }
  | 2 =>
    let s1 := s.onTrust fun k => { k with steepleNext := some (m, content) }
    if s.stp.mode = .off then installSteeple s1 else s1
  | 3 => tableInForce 3 m content s
  | 4 => s.onTrust fun k => { k with headNext := some (m, content) }
  | _ => s

/-- The version of the table of a TYPE in force, if any (R365). -/
def tableVersion (s : State) (t : Nat) : Option Version := (getAt s.trust.tables (t - 1) none).map fun e => manVersion e.1

/-- The reason code for which a loaded table is refused, none when it is accepted: Table 14-4 first, then its TYPE, its VERSION and its
content (R317, R365, log 34). -/
def tableRefusal (s : State) (t : Nat) (data : Bytes) : Option Nat :=
  let code := checkManifest s true true false data.length (slice data)
  if code ≠ 1 then some code
  else if field data 22 1 ≠ t then some 2
  else if (match tableVersion s t with | some v => versionLt (manVersion data) v | none => false) then some 7
  else
    let e := manSeg data 0
    if contentOk t (slice data e.1 e.2.1) then none else some 2

end Sys2Proof.Machine
end

