-- ==== Sys2Proof/Machine/HeadLink.lean ====
section
/-! DEFINITION. The head link: training (R219, R220), STATUS (R218), lane losses with their LANE_MAP, SHED and caps (R221 to R225), the
permit tokens (R216), the rates (R124, R213) and the enables (R226). -/

namespace Sys2Proof.Machine

/-- The eight groups. -/
def allGroups : List (Fin 8) := [0, 1, 2, 3, 4, 5, 6, 7]

/-! ## Rates and SHED at every servo frame (R124, R213, R222) -/

/-- The measured speed as a magnitude. -/
def speedNow (s : State) : Rat := absRat s.stp.v

/-- The ADC rate for a speed in MHz, within what a front-end synthesises (R124, R213). -/
def adcRate (v : Rat) : Rat := clampRat (230 * v / (339 / 100)) 55 240

/-- The write rate for a speed in MHz: 58,940 channel bits in every millimetre (R21, R213). -/
def writeRate (v : Rat) : Rat := clampRat (2947 / 50 * v) 48 205

/-- The next ADC rate: toward that of the measured speed by at most 0.5 % (R124). -/
def nextAdc (s : State) : Rat :=
  let goal := adcRate (speedNow s)
  if s.hlk.adc = 0 then goal else clampRat goal (s.hlk.adc * (199 / 200)) (s.hlk.adc * (201 / 200))

/-- K of a group now: none below two live lanes, when no sample is used (R222, R225). -/
def shedNow (s : State) (g : Nat) : Nat := min 127 (shedFor g (popcount (hlGroup s g).rxLive) (speedNow s))

/-- Send a SHED when K changes; a channel that is restored waits for an anchor (R222). -/
def updateShed (g : Fin 8) (s : State) : State :=
  let old := (hlGroup s g).shed
  let k := shedNow s g
  if (hlGroup s g).state ≠ .up ∨ k = old then s
  else
    let s1 := onGroup g (fun x => { x with shed := k }) (hlCommand g 5 (sidxIn s g applyAhead) k s)
    if k < old then anchorRange (128 * g.val + 128 - old) (128 * g.val + 128 - k) s1 else s1

/-- Command a group's ADC rate and write rate, each from an index ahead; from there on its clock counts at the new rate (R212, R213). -/
def commandRates (g : Fin 8) (adc wclk : Rat) (s : State) : State :=
  let a := sidxIn s g applyAhead
  let w := (⌈widxIn s g applyAhead⌉).toNat
  let at_ := s.power.time + (⌊applyAhead⌋).toNat * usTicks
  onGroup g (fun k => { k with sidx := a, sidxAt := at_, widx := w, widxAt := at_ })
    (hlCommand g 2 (w % 2 ^ 24) (rateOf wclk) (hlCommand g 1 a (rateOf adc) s))

/-- What the head link does at a servo frame: the rates of every group in UP, n_nom, and SHED (R124, R138, R213, R222). -/
def linkFrame (s : State) : State :=
  let adc := nextAdc s
  let wclk := writeRate (speedNow s)
  let s1 := forEach (upGroups s) (fun g => commandRates g adc wclk) s
  let n := if speedNow s = 0 then s.tiles.nNom else divRat adc (5894 / 100 * absRat (speedNow s))
  forEach (upGroups s1) updateShed ((s1.onHlk fun h => { h with adc := adc, wclk := wclk }).onTiles fun t => { t with nNom := n })

/-! ## Training (R219) -/

/-- Both PHY halves of a group are powered and without a fault. -/
def halvesOn (s : State) (g : Nat) : Bool := s.power.domOn.getLsbD (64 + 2 * g) && s.power.domOn.getLsbD (65 + 2 * g)

/-- Belfry's sources of a group's halves see a change (Table 13-1). -/
def groupEdge (g : Nat) (s : State) : State := raise (65 + 2 * g) (raise (64 + 2 * g) s)

/-- A group enters CDR with PRBS31 on both outbound lanes: every lane may be used again (R219, R221). -/
def enterCdr (g : Fin 8) (s : State) : State :=
  groupEdge g (emits [.prbs31 g 0, .prbs31 g 1] (onGroup g (fun k => { k with
    state := .cdr, lock := 0, trained := 0, rxLive := 0, txLive := 3, awaits := none, shed := 0, refused := false,
    laneErrs := Vector.replicate 8 0, txErrs := 0, cntTrain := inc k.cntTrain }) s))

/-- A group goes to DOWN: its lanes are in electrical idle. -/
def enterDown (g : Fin 8) (s : State) : State :=
  groupEdge g (emits [.electricalIdle g 0, .electricalIdle g 1]
    (onGroup g (fun k => { k with state := .down, lock := 0, trained := 0, rxLive := 0, txLive := 0, awaits := none }) s))

/-- A group in DOWN starts to train, when it is powered, enabled and not refused (R219). -/
def trainFrom (g : Fin 8) (s : State) : State :=
  let k := hlGroup s g
  if k.state = .down ∧ halvesOn s g ∧ s.hlk.groupEn.getLsbD g ∧ !k.refused then enterCdr g s else s

/-- GROUP_TRAIN_START (R219). -/
def execGroupTrainStart (g : Fin 8) (s : State) : Host.Outcome State Fault Refusal := goLive (trainFrom g) s

/-- IDLE on both outbound lanes (R207). -/
def sendIdle (g : Fin 8) (s : State) : State := hlSend g 1 0 0 [] (hlSend g 0 0 0 [] s)

/-- TRAIN on both outbound lanes: the formatter's number of the lane, VERSION 0x01, and the group (R219, Table 08-2). -/
def sendTrain (g : Fin 8) (s : State) : State :=
  let one := fun lane (t : State) => hlSend g lane 4 (lane + 1 * 2 ^ 8) [BitVec.ofNat 64 g.val] t
  onGroup g (fun k => { k with trainAt := s.power.time }) (one 1 (one 0 s))

/-- CDR_TIMEOUT: 200 µs after CDR began IDLE goes out and the group is in BLOCK (R219). -/
def execCdrTimeout (g : Fin 8) (s : State) : Host.Outcome State Fault Refusal :=
  goLive (fun s =>
    if (hlGroup s g).state = .cdr then groupEdge g (onGroup g (fun k => { k with state := .block }) (sendIdle g s)) else s) s

/-- A sync header is valid: one of 0b10 and 0b01 (R206). -/
def headerValid (h : BitVec 2) : Bool := h == 2 || h == 1

/-- Block lock: the last 64 sync headers of a lane are valid (R206). -/
def gainsLock (hs : List (BitVec 2)) : Bool := decide (64 ≤ hs.length) && (hs.drop (hs.length - 64)).all headerValid

/-- A lane is inverted: a front-end that trains sends IDLE and TRAIN, whose blocks are mostly header blocks, and the headers show more of
0b01 (R206, R219, log 162). -/
def laneInverted (hs : List (BitVec 2)) : Bool :=
  let xs := hs.drop (hs.length - 64)
  decide (xs.count 2 < xs.count 1)

/-- The lanes that a test on their sync headers picks. -/
def lanesOf (hs : Vector (List (BitVec 2)) 8) (p : List (BitVec 2) → Bool) : BitVec 8 :=
  (List.range 8).foldl (fun m j => setBit m j (p (getAt hs j []))) 0

/-- BLOCK_LOCK_GAINED: lanes whose sync headers are good come into block lock with their polarity corrected; with at least two inbound lanes
in lock TRAIN goes out and the group is in IDENT (R206, R219). -/
def execBlockLockGained (g : Fin 8) (headers : Vector (List (BitVec 2)) 8) (s : State) : Host.Outcome State Fault Refusal :=
  goLive (fun s =>
    let new := lanesOf headers gainsLock
    let lock := (hlGroup s g).lock ||| new
    let take := fun (k : Group) => { k with lock := lock, inverted := (k.inverted &&& ~~~new) ||| (new &&& lanesOf headers laneInverted) }
    match (hlGroup s g).state with
    | .block =>
      let s1 := onGroup g take s
      if 2 ≤ popcount lock then groupEdge g (onGroup g (fun k => { k with state := .ident, trained := 0 }) (sendTrain g s1)) else s1
    | .ident => onGroup g take s
    | .down | .cdr | .config | .up => s) s

/-- A training failure: record 0x0012 with the state it failed in and the reason (Table 15-3). -/
def trainFailed (g : Fin 8) (at_ reason : Nat) (s : State) : State :=
  enterDown g (lantern 0x0012 (le 1 g.val ++ le 1 at_ ++ le 1 reason) s)

/-- BLOCK_TIMEOUT: 2 ms in BLOCK without block lock (R219). -/
def execBlockTimeout (g : Fin 8) (s : State) : Host.Outcome State Fault Refusal :=
  goLive (fun s => if (hlGroup s g).state = .block then trainFailed g 2 0 s else s) s

/-- The group has failed in IDENT and is not retried before RETRAIN (R219). -/
def identFailed (g : Fin 8) (reason : Nat) (s : State) : State :=
  onGroup g (fun k => { k with refused := true }) (trainFailed g 3 reason s)

/-- IDENT_TIMEOUT: 1 ms in IDENT without TRAIN (R219). -/
def execIdentTimeout (g : Fin 8) (s : State) : Host.Outcome State Fault Refusal :=
  goLive (fun s => if (hlGroup s g).state = .ident then identFailed g 4 s else s) s

/-- DOWN_RETRY_TIMEOUT: 1 s after a failure in BLOCK the group trains again (R219). -/
def execDownRetryTimeout (g : Fin 8) (s : State) : Host.Outcome State Fault Refusal := goLive (trainFrom g) s

/-! ## Packets discarded (R208, R221) -/

/-- The number of an inbound and of an outbound lane as an instance of Table 15-1. -/
def rxInst (g lane : Nat) : Nat := 8 * g + lane
def txInst (g lane : Nat) : Nat := 2 * g + lane

/-- A failed group 0 or 7 takes its servo band's readers from Steeple (R225). -/
def dropBand (g : Nat) (s : State) : State :=
  if groupFailed s g && (g == 0 || g == 7) then
    s.onStp fun p => { p with readers := p.readers.mapIdx fun i r =>
      if (i % 2 = 0) = (g = 0) then { r with usable := false, good := 0 } else r }
  else s

/-- An inbound lane is lost: out of use until the group next trains, with its record, a LANE_MAP, a SHED and the group's new cap; in training
it is no longer in block lock (R219, R221 to R223, R225). -/
def loseRx (g : Fin 8) (lane : Nat) (u : State) : State :=
  let s := if (hlGroup u g).state = .block ∨ (hlGroup u g).state = .ident then
      onGroup g (fun k => { k with lock := setBit k.lock lane false, trained := setBit k.trained lane false }) u
    else u
  if (hlGroup s g).rxLive.getLsbD lane then
    let s1 := noteOut .hlInLane (rxInst g lane) (onGroup g (fun k => { k with rxLive := setBit k.rxLive lane false }) s)
    let s2 := hlCommand g 4 0 (laneMap (hlGroup s1 g)) s1
    clampNow (dropBand g (updateShed g (groupEdge g s2)))
  else s

/-- HLK_TX clears once no group waits for its LANE_MAP to be confirmed (R224). -/
def clearTx (s : State) : State :=
  if (upGroups s).any fun g => (hlGroup s g).awaits.isSome then s else inhibitOff .hlkTx s

/-- An outbound lane is lost: HLK_TX is raised, everything moves to the other lane with a LANE_MAP, and with no lane left the group has
failed and HLK_TX clears at once (R224, R225). -/
def loseTx (g : Fin 8) (lane : Nat) (s : State) : State :=
  if (hlGroup s g).txLive.getLsbD lane then
    let s1 := inhibitOn .hlkTx (noteOut .hlOutLane (txInst g lane) (onGroup g (fun k => { k with txLive := setBit k.txLive lane false }) s))
    let s2 := groupEdge g s1
    if (hlGroup s2 g).txLive = 0 then clearTx (dropBand g (onGroup g (fun k => { k with awaits := none }) s2))
    else
      let s3 := hlCommand g 4 0 (laneMap (hlGroup s2 g)) s2
      onGroup g (fun k => { k with awaits := some k.cseq }) s3
  else s

/-- CRC errors that declare a lane lost within 1 ms (R226). -/
def errLimit (s : State) : Nat := max 1 (bits s.hlk.cfg.toNat 0 4)

/-- One packet of an inbound lane is discarded and counted; ERR_LIMIT of them within 1 ms lose the lane (R208, R221). -/
def discardPacket (g : Fin 8) (lane : Nat) (s : State) : State :=
  let ms := s.power.time / msTicks
  let s1 := onGroup g (fun k =>
    let errs := if k.errMs = ms then k.laneErrs else Vector.replicate 8 0
    { k with cntCrc := inc k.cntCrc, errMs := ms, laneErrs := updAt errs lane (· + 1) }) s
  if errLimit s1 ≤ getAt (hlGroup s1 g).laneErrs lane 0 then loseRx g lane s1 else s1

/-- DISCARDED_PACKET (R208). -/
def execDiscardedPacket (g : Fin 8) (lane : Fin 8) (s : State) : Host.Outcome State Fault Refusal := goLive (discardPacket g lane.val) s

/-- INBOUND_LANE_LOST (R221). -/
def execInboundLaneLost (g : Fin 8) (lane : Fin 8) (s : State) : Host.Outcome State Fault Refusal := goLive (loseRx g lane.val) s

/-- OUTBOUND_LANE_LOST (R224). -/
def execOutboundLaneLost (g : Fin 8) (lane : Fin 2) (s : State) : Host.Outcome State Fault Refusal := goLive (loseTx g lane.val) s

/-- A packet of a TYPE is acted on: TYPE, CRC-24 and the reserved header bits hold (R208). -/
def packetOk (type rsvd : Nat) (header : BitVec 64) (payload : List (BitVec 64)) : Bool :=
  let h := header.toNat
  bits h 0 4 == type && hlCrc (h % 2 ^ 40) payload == bits h 40 24 && (h &&& rsvd) == 0

/-! ## TRAIN and CONFIG (R219, R220) -/

/-- Entries of the front-end table for a group: ADDR and DATA, in order (R220). -/
def frontEndWrites (s : State) (g : Nat) : List (Nat × Nat) :=
  match getAt s.trust.tables 2 none with
  | none => []
  | some t =>
    ((List.range (field t.2 8 2)).filter fun i => (field t.2 (16 + 8 * i + 2) 1).testBit g).map fun i =>
      (field t.2 (16 + 8 * i) 2, field t.2 (16 + 8 * i + 4) 4)

/-- CONFIG begins: the lane numbers are known, lanes without block lock count as lost, and LANE_MAP, the front-end table, MODULE and the
rates go out; the last of them is to be confirmed (R219, R220). -/
def enterConfig (g : Fin 8) (s : State) : State :=
  let lock := (hlGroup s g).lock
  let s1 := onGroup g (fun k => { k with
    state := .config, rxLive := lock, sidx := 0, sidxAt := s.power.time, widx := 0, widxAt := s.power.time }) s
  let s2 := forEach ((List.range 8).filter fun j => !lock.getLsbD j && !outOf s .hlInLane (rxInst g j)) (fun j => noteOut .hlInLane (rxInst g j)) s1
  let s3 := hlCommand g 4 0 (laneMap (hlGroup s2 g)) s2
  let s4 := forEach (frontEndWrites s3 g) (fun e => hlCommand g 6 0 (e.1 + e.2 * 2 ^ 32)) s3
  let s5 := commandRates g (nextAdc s4) (writeRate (speedNow s4)) (hlCommand g 3 (sidxIn s4 g applyAhead) s4.tiles.module s4)
  groupEdge g (onGroup g (fun k => { k with awaits := some k.cseq }) s5)

/-- The reason for which an identity is refused (Table 15-3): VERSION, channel count, servo fitting. -/
def identReason (g : Nat) (h p : Nat) : Option Nat :=
  if bits h 12 8 ≠ 1 then some 1
  else if bits p 32 8 ≠ 128 then some 2
  else if (g = 0 ∨ g = 7) ∧ bits p 40 1 = 0 then some 3
  else none

/-- Take a TRAIN in IDENT (R219). -/
def takeTrain (g : Fin 8) (lane : Nat) (h p : Nat) (s : State) : State :=
  match identReason g h p with
  | some r => identFailed g r s
  | none =>
    let s1 := onGroup g (fun k => { k with
      trained := setBit k.trained lane true, laneNo := putAt k.laneNo lane (bits h 4 3), vendor := BitVec.ofNat 16 (bits p 0 16),
      part := BitVec.ofNat 16 (bits p 16 16) }) s
    if (hlGroup s1 g).lock &&& ~~~(hlGroup s1 g).trained = 0 then enterConfig g s1 else s1

/-- TRAIN_PACKET (R208, R219). -/
def execTrainPacket (g : Fin 8) (lane : Fin 8) (header payload : BitVec 64) (s : State) : Host.Outcome State Fault Refusal :=
  goLive (fun s =>
    if !packetOk 4 (0x1F * 2 ^ 7 + 0xFFFFF * 2 ^ 20) header [payload] || decide (2 ^ 41 ≤ payload.toNat) then discardPacket g lane.val s
    else if (hlGroup s g).state = .ident ∧ (hlGroup s g).lock.getLsbD lane then takeTrain g lane.val header.toNat payload.toNat s
    else s) s

/-! ## STATUS (R218, R219, R224) -/

/-- A group reaches UP: lanes back in use return to service, its channels wait for an anchor, and what waited for it goes on (R219,
R221, R225). -/
def enterUp (g : Fin 8) (s : State) : State :=
  let s1 := onGroup g (fun k => { k with state := .up, awaits := none }) s
  let k := hlGroup s1 g
  let s2 := forEach ((List.range 8).filter fun j => k.rxLive.getLsbD j) (fun j => noteBack .hlInLane (rxInst g j)) s1
  let s3 := forEach ((List.range 2).filter fun j => k.txLive.getLsbD j) (fun j => noteBack .hlOutLane (txInst g j)) s2
  kickWrites false (clampNow (updateShed g (anchorRange (128 * g.val) (128 * g.val + 128) (groupEdge g s3))))

/-- Count the outbound CRC errors that a STATUS reports; ERR_LIMIT within 1 ms lose a lane, and STATUS does not say which of two live ones
(R224, log 6). -/
def countTx (g : Fin 8) (n : Nat) (s : State) : State :=
  let ms := s.power.time / msTicks
  let s1 := onGroup g (fun k => { k with txErrMs := ms, txErrs := (if k.txErrMs = ms then k.txErrs else 0) + n }) s
  if 0 < n ∧ errLimit s1 ≤ (hlGroup s1 g).txErrs then
    match txLanes (hlGroup s1 g) with
    | [a] => loseTx g a s1
    | _ => loseTx g (if Config.choice s1.fresh then 0 else 1) (draw s1)
  else s1

/-- A STATUS that shows this CSEQ as the last command applied confirms the command that is awaited: that one, or one sent after it
(R218, R224). -/
def confirms (k : Group) (c : Nat) : Bool :=
  match k.awaits with
  | some a => decide ((BitVec.ofNat 4 c - a).toNat ≤ (k.cseq - a).toNat)
  | none => false

/-- Take a STATUS: it confirms commands, reports block lock, errors and flags (R218, R219, R224). -/
def takeStatus (g : Fin 8) (h p : Nat) (s : State) : State :=
  let s1 := onGroup g (fun k => { k with
    sidx := bits h 12 24, sidxAt := s.power.time, cntLapse := if bits p 20 2 ≠ 0 then inc k.cntLapse else k.cntLapse }) s
  let s2 := if bits p 20 6 ≠ 0 then groupEdge g s1 else s1
  let done := confirms (hlGroup s2 g) (bits h 4 4)
  match (hlGroup s2 g).state with
  | .config => if done then enterUp g s2 else s2
  | .up =>
    let s3 := if done then clearTx (onGroup g (fun k => { k with awaits := none }) s2) else s2
    let s4 := forEach ((List.range 2).filter fun j => !(bits p 8 2).testBit j) (loseTx g) s3
    countTx g (bits p 12 8) s4
  | .down | .cdr | .block | .ident => s2

/-- STATUS_PACKET: on a lane that is in use (R208, R218, R221). -/
def execStatusPacket (l : HlLane) (header payload : BitVec 64) (s : State) : Host.Outcome State Fault Refusal :=
  goLive (fun s =>
    if !packetOk 3 (0xF * 2 ^ 8 + 0xF * 2 ^ 36) header [payload] || bits payload.toNat 10 2 != 0 || bits payload.toNat 26 6 != 0 then
      discardPacket l.group l.lane.val s
    else if (hlGroup s l.group).rxLive.getLsbD l.lane then takeStatus l.group header.toNat payload.toNat s
    else s) s

/-! ## Tokens and enables (R216, R226) -/

/-- A group past CDR has its outbound lanes in block lock. -/
def idleGroups (s : State) : List (Fin 8) :=
  allGroups.filter fun g => (hlGroup s g).state != .down && (hlGroup s g).state != .cdr

/-- A group with no token to send: TRAIN in IDENT once 1 µs has passed since the last, else IDLE (R207, R219). -/
def fillLanes (g : Fin 8) (s : State) : State :=
  let k := hlGroup s g
  if k.state = .ident ∧ k.trainAt + usTicks ≤ s.power.time then sendTrain g s else sendIdle g s

/-- TOKEN_PERIOD: every 400 ns a permit token on each live outbound lane of the groups in UP, while writing is permitted (R216); lanes without
a token carry TRAIN or IDLE (R207, R219). -/
def execTokenPeriod (s : State) : Host.Outcome State Fault Refusal :=
  goLive (fun s =>
    let permit := s.wr.tokens && s.wr.sources == 0
    forEach (idleGroups s) (fun g t => if permit && (hlGroup t g).state == .up then permitToken g t else fillLanes g t) s) s

/-- Groups of a mask train again from DOWN (R226). -/
def retrainNow (mask : BitVec 8) (s : State) : State :=
  forEach (allGroups.filter fun (g : Fin 8) => mask.getLsbD g.val)
    (fun g t => trainFrom g (onGroup g (fun k => { k with refused := false }) (enterDown g t))) s

/-- GROUP_EN takes effect: a group not enabled is in electrical idle (R225, R226). -/
def enableNow (mask : BitVec 8) (s : State) : State :=
  forEach (allGroups.filter fun (g : Fin 8) => !mask.getLsbD g.val && (hlGroup s g).state != .down) (enterDown)
    (s.onHlk fun h => { h with groupEn := mask })

/-- Write RETRAIN; with a cartridge mounted it waits for UNMOUNT (R226). -/
def writeRetrain (mask : BitVec 8) (s : State) : State :=
  if s.drive.vol.isSome then s.onHlk fun h => { h with retrainNext := h.retrainNext ||| mask } else retrainNow mask s

/-- Write GROUP_EN; with a cartridge mounted it waits for UNMOUNT (R226). -/
def writeGroupEn (mask : BitVec 8) (s : State) : State :=
  if s.drive.vol.isSome then s.onHlk fun h => { h with groupEnNext := some mask } else enableNow mask s

/-- RETRAIN (R226). -/
def execRetrain (mask : BitVec 8) (s : State) : Host.Outcome State Fault Refusal := goLive (writeRetrain mask) s

/-- GROUP_EN (R226). -/
def execGroupEn (mask : BitVec 8) (s : State) : Host.Outcome State Fault Refusal := goLive (writeGroupEn mask) s

/-- What UNMOUNT does to the head link: the writes that waited take effect, and a group with a lost lane trains (R221, R226). -/
def linkAtUnmount (s : State) : State :=
  let lost := allGroups.filter fun (g : Fin 8) =>
    (hlGroup s g).state == .up && ((hlGroup s g).rxLive != 0xFF || (hlGroup s g).txLive != 3)
  let mask : BitVec 8 := lost.foldl (fun m (g : Fin 8) => setBit m g.val true) s.hlk.retrainNext
  let s1 := match s.hlk.groupEnNext with
    | some m => enableNow m s
    | none => s
  retrainNow mask (s1.onHlk fun h => { h with groupEnNext := none, retrainNext := 0 })

end Sys2Proof.Machine
end

