-- ==== Sys2Proof/Machine/Channels.lean ====
section
/-! DEFINITION. The read channels' commands: sample packets (R136, R209, R211), the sync search (R151, R152), the replay engine's work
(R153, R154), realignment (R155), and what a wedge's arrivals give Steeple (R93, R150, R177). -/

namespace Sys2Proof.Machine

/-! ## What a channel is told (R124, R138, R159, R163) -/

/-- The retry entry in force, none outside an attempt (R159, R160). -/
def retryEntry (s : State) : Option Nat :=
  match s.wvn.run, s.rd.retry with
  | .retry, some (_, k) => some (s.rd.menu.getD k 0).toNat
  | _, _ => none

/-- The wrap under the head: the one read, or the one written and verified. -/
def wrapInHand (s : State) : Nat := if reading s then s.rd.wrap else s.wr.wrap

/-- The data-bit position of the wedge nearest to Steeple's position on the wrap in hand (R33, R34, R149). -/
def wedgeNear (s : State) : Option Nat :=
  let k := if s.stp.frame < 16 then s.stp.lpos else s.stp.lpos + 1
  if wrapInHand s % 2 = 0 then (if 3125 ≤ k ∧ k ≤ 346875 then some ((k - 3125) * wordBits) else none)
  else if 3125 ≤ k ∧ k ≤ 346875 then some ((346875 - k) * wordBits) else none

/-- The schedule entry of a set for the r band in force; the defaults of Table 06-6 until a schedule is loaded (R162). -/
def scheduleEntry (s : State) (set band : Nat) : Bytes :=
  match getAt s.trust.tables 0 none with
  | some t => slice t.2 (32 * (16 * set + band)) 32
  | none => ({} : Chan).entry

/-- The siblings of channel c that are not in the erase map (R154). -/
def siblingsOf (s : State) (c : Nat) : List Nat :=
  (List.range 9).filterMap fun i =>
    let d := c + i
    if 4 ≤ d ∧ d - 4 ≠ c ∧ d - 4 < 1024 ∧ !(eraseMap s s.tiles.module).getLsbD (d - 4) then some (d - 4) else none

/-- The lower middle value of a list. -/
def medianOf {α : Type} [LE α] [DecidableRel (α := α) (· ≤ ·)] (xs : List α) : Option α :=
  (xs.mergeSort fun a b => decide (a ≤ b))[(xs.length - 1) / 2]?

/-- The median f of the siblings that are in a frame whose sync they have found: what a channel takes after a change of module (R140,
log 174). -/
def siblingF (s : State) (c : Nat) : Option Rat :=
  medianOf ((siblingsOf s c).filterMap fun d => let q := chanOf_ s d; q.syncAt.map fun _ => q.freq)

/-- What channel c is told now. -/
def chanEnv (s : State) (c : Nat) (lost : Bool) : ChanEnv :=
  let w := retryEntry s
  let set := match w with | some w => bits w 14 2 | none => 0
  let band := bandOfR (max 1024 s.wvn.r)
  { nNom := s.tiles.nNom, set := set, band := band, entry := scheduleEntry s set band,
    erased := (eraseMap s s.tiles.module).getLsbD c,
    freeze := (match w with | some w => w.testBit 16 | none => false),
    narrow := (match w with | some w => w.testBit 17 | none => false),
    lost := lost, cfg := getAt s.tiles.syncCfg (c / 16) 0, sibF := siblingF s c, wedgePos := wedgeNear s,
    time := s.power.time, bitTicks := divRat 100 (5894 / 100 * absRat s.stp.v) }

/-- The sync limit of a channel's window, a retry attempt's in place of its tile's (R151, R159, R166). -/
def syncLimit (s : State) (c : Nat) : Nat :=
  let cfg := min 6 (bits (chanOf_ s c).cfg.toNat 0 3)
  match retryEntry s with
  | some w => if bits w 24 3 = 7 then cfg else bits w 24 3
  | none => cfg

/-- The resync limit of a channel's window (R151, R166). -/
def resyncLimit (s : State) (c : Nat) : Nat := min 5 (bits (chanOf_ s c).cfg.toNat 4 3)

/-- HDR_FILL, REALIGN_EN and SIBLING_EN of a channel's tile (R148, R154, R155). -/
def hdrFill (s : State) (c : Nat) : Bool := (getAt s.tiles.syncCfg (c / 16) 0).getLsbD 11
def realignEn (s : State) (c : Nat) : Bool := (getAt s.tiles.syncCfg (c / 16) 0).getLsbD 12
def siblingEn (s : State) (c : Nat) : Bool := (getAt s.tiles.syncCfg (c / 16) 0).getLsbD 13

/-! ## Siblings (R154) -/

/-- Channels of a list that have found the sync of a slot, with where it was found (R154). -/
def syncedAt (s : State) (cs : List Nat) (slot : Nat) : List (Nat × Nat) :=
  cs.filterMap fun c =>
    let k := chanOf_ s c
    match (if k.slot = slot then k.syncAt else none) with
    | some p => some (c, p)
    | none =>
      match s.tiles.asm.find? fun a => a.slot == slot with
      | some a => (match a.frames.find? fun f => f.chan == c && f.found && !f.missed with
        | some f => some (c, f.start + 96)
        | none => none)
      | none => none

/-- Two wedges missed in a row: the channel counts from its siblings' wedges, when at least three have found theirs (R149, R154). -/
def siblingWedge (c : Nat) (s : State) : State :=
  let k := chanOf_ s c
  let ofs := (siblingsOf s c).filterMap fun d => let q := chanOf_ s d; if q.anchored && q.wedgeAt == k.wedgeAt then q.wedgeOfs else none
  if 2 ≤ k.wedgeMiss ∧ 3 ≤ ofs.length then
    match medianOf ofs with
    | some m => onChan c (fun k => { k with counter := ((k.counter : Int) - m).toNat, wedgeMiss := 0 }) s
    | none => s
  else s

/-! ## Wedge arrivals (R93, R150, R177) -/

/-- The place of channel c along the head, µm from its middle (R92). -/
def elementY (c : Nat) : Rat := 5 / 2 * ((c : Rat) - 1023 / 2)

/-- What is left of a wedge's arrivals, as µm of tape in the direction BOT to EOT, once each element's geometric offset is removed: the
channels in the erase map are not used (R177). -/
def wedgePoints (s : State) : List (Rat × Rat) :=
  (s.tiles.arrivals.filter fun a => !(eraseMap s s.tiles.module).getLsbD a.1).map fun a =>
    (elementY a.1, dirSign s * absRat s.stp.v * a.2 / usTicks - plantOf s (.elemOfs s.tiles.module a.1))

/-- The least-squares line through points: its slope, and its value at 0 (R177). -/
def lineFit (xs : List (Rat × Rat)) : Rat × Rat :=
  let my := meanRat (xs.map (·.1))
  let mx := meanRat (xs.map (·.2))
  let k := divRat ((xs.map fun p => (p.1 - my) * (p.2 - mx)).sum) ((xs.map fun p => (p.1 - my) * (p.1 - my)).sum)
  (k, mx - k * my)

/-- θ_w of a wedge: the end of channel 1,023 lies toward EOT, and meets the wedge first in forward motion, when θ_w is positive (R177). -/
def wedgeTilt (s : State) : Rat := asinDeg (-(lineFit (wedgePoints s)).1)

/-- The greatest deviation of a wedge from the square position, in channel bits of 1/58.94 µm: against arrivals predicted from θ and the
element geometry, about the line's own middle (R93, R177, log 163). -/
def wedgeError (s : State) : Rat :=
  let xs := wedgePoints s
  let tt := tanDeg s.stp.theta
  let ds := xs.map fun p => p.2 + tt * p.1
  let mid := meanRat ds
  (ds.map fun d => absRat (d - mid)).foldl max 0 * (5894 / 100)

/-- A wedge is complete: while reading, THETA_CAL moves toward its tilt; while writing, its squareness decides the WEDGE source. -/
def judgeWedge (s : State) : State :=
  if reading s then
    let d := (wedgeTilt s - s.stp.theta) / 256
    s.onStp fun p => { p with thetaCal := clampRat (p.thetaCal + d) (-1 / 20) (1 / 20), thetaHead := headSerialOf s }
  else inhibitIf .wedge (decide (3 < wedgeError s)) s

/-- A channel has measured a wedge; a second arrival of one channel belongs to the next wedge, so the one before is complete. -/
def wedgeArrival (c : Nat) (at_ : Rat) (s : State) : State :=
  if s.tiles.arrivals.any fun a => a.1 == c then (judgeWedge s).onTiles fun k => { k with arrivals := [(c, at_)] }
  else s.onTiles fun k => { k with arrivals := k.arrivals ++ [(c, at_)] }

/-! ## Sample packets (R136, R209, R211) -/

/-- Samples of a channel reach it, lost ones as zeros inside a defect region (R211). -/
def feedChannel (c : Nat) (lost : Bool) (xs : List Int) (s : State) : State :=
  let r := takeSamples (chanEnv s c lost) xs (chanOf_ s c)
  let s1 := onChan c (fun _ => { r.1 with nextSidx := (r.1.nextSidx + xs.length) % 2 ^ 24 }) s
  siblingWedge c (match r.2 with | some a => wedgeArrival c a s1 | none => s1)

/-- The channel of a group's channel number. -/
def chanNo (g : Fin 8) (ch : Fin 128) : Nat := 128 * g.val + ch.val

/-- The samples that have not come before index sidx, as far as the replay buffer reaches; none before a run's first packet, and none for
an index already passed. -/
def missingBefore (k : Chan) (sidx : Nat) : Nat :=
  let d := (sidx + 2 ^ 24 - k.nextSidx) % 2 ^ 24
  if k.vs = [] ∨ 2 ^ 23 ≤ d then 0 else min 12288 d

/-- SAMPLE_PACKET: the packet of one channel (R136, R209). A channel of a tile out of service, or idle, takes none; samples already taken are
not taken again. -/
def samplePacket (g : Fin 8) (ch : Fin 128) (sidx : Nat) (samples : List Int) (s : State) : State :=
  let c := chanNo g ch
  let k := chanOf_ s c
  if k.state = .idle ∨ (tilesOut s).getLsbD c then s
  else if k.vs ≠ [] ∧ 2 ^ 23 ≤ (sidx + 2 ^ 24 - k.nextSidx) % 2 ^ 24 then s
  else
    let s1 := feedChannel c true (List.replicate (missingBefore k sidx) 0) s
    feedChannel c false samples (onChan c (fun k => { k with nextSidx := sidx }) s1)

/-- Bit p of a payload: bit p mod 64 of block p div 64 (R207). -/
def payloadBit (ps : List (BitVec 64)) (p : Nat) : Bool := (ps.getD (p / 64) 0).getLsbD (p % 64)

/-- Sample k of a SAMPLE packet: payload bits 6k to 6k + 5 as 6-bit two's complement, bit 0 first (R209). -/
def packedSample (ps : List (BitVec 64)) (k : Nat) : Int :=
  signed 6 ((List.range 6).foldl (fun x i => if payloadBit ps (6 * k + i) then x + 2 ^ i else x) 0)

/-- The 266 samples of a SAMPLE packet (R209). -/
def packedSamples (ps : List (BitVec 64)) : List Int := (List.range 266).map (packedSample ps)

/-- A SAMPLE packet keeps R207: 25 payload blocks, TYPE, CRC-24 and the reserved header bits (R208). -/
def samplePacketOk (p : HlPacket) : Bool := decide (p.payload.length = 25) && packetOk 1 (0xF * 2 ^ 36) p.header p.payload

/-- SAMPLE_PACKET: a packet that does not keep R207 is discarded; a good one, on a live lane of a group in UP, brings CH's samples from SIDX
on (R136, R207 to R209). -/
def execSamplePacket (g lane : Fin 8) (type : BitVec 4) (fields : BitVec 36) (crc : BitVec 24) (payload : List (BitVec 64)) (s : State) :
    Host.Outcome State Fault Refusal :=
  goLive (fun s =>
    if !samplePacketOk ⟨g, lane, crc ++ fields ++ type, payload⟩ then discardPacket g lane.val s
    else if (hlGroup s g).state = .up ∧ (hlGroup s g).rxLive.getLsbD lane.val then
      samplePacket g (Fin.ofNat 128 (bits fields.toNat 0 7)) (bits fields.toNat 8 24) (packedSamples payload) s
    else s) s

/-- SAMPLE_PACKET_LOST: a packet has not come 4.0 µs after its last sample (R211, R226). -/
def samplePacketLost (g : Fin 8) (ch : Fin 128) (s : State) : State :=
  let s1 := onGroup g (fun k => { k with cntLost := inc k.cntLost }) s
  if (chanOf_ s (chanNo g ch)).state = .idle then s1 else feedChannel (chanNo g ch) true (List.replicate 266 0) s1

/-- SAMPLE_PACKET_LOST (R211). -/
def execSamplePacketLost (g : Fin 8) (ch : Fin 128) (s : State) : Host.Outcome State Fault Refusal := goLive (samplePacketLost g ch) s

/-! ## The sync search (R151, R152) -/

/-- SYNC_WINDOW: the window that is open is evaluated (R151, Table 06-2). -/
def execSyncWindow (c : Fin 1024) (s : State) : Host.Outcome State Fault Refusal :=
  goLive (fun s => onChan c.val (syncStep (chanEnv s c.val false) (syncLimit s c.val) (resyncLimit s c.val)) s) s

/-! ## Content and header (R147, R148) -/

/-- The 8,496 content LLRs of a frame that starts δ bits from where it was taken to start (R147, R155). -/
def contentLlrs (c : Nat) (raw : List Int) (shift : Int) : List Int :=
  let o := (4 + shift).toNat
  let m := ((raw.drop (o + 128)).take 4425 ++ (raw.drop (o + 4577)).take 4425).toArray
  let at_ := fun i => m.getD i 0
  let g := (List.range 354).flatMap fun i =>
    (List.range 23).map (fun j => at_ (25 * i + j)) ++ [max (-31) (min 31 (at_ (25 * i + 23) - at_ (25 * i + 24)))]
  (g.zip (scrambleSeq c)).map fun p => if p.2 then -p.1 else p.1

/-- The CRC-12 of the header's hard decisions holds (R148). -/
def headerCrc (content : List Int) : Bool :=
  let h := (content.take 48).map hard
  decide (crc12 (h.take 36) = ofBitsMsb (h.drop 36))

/-- The header's hard decisions: whether CRC-12 and CHANNEL hold, SEQ and TYPE (R148, Table 02-8). -/
def headerOf48 (c : Nat) (content : List Int) : Bool × Nat × Nat :=
  let h := (content.take 48).map hard
  (headerCrc content && decide (ofBitsMsb ((h.drop 24).take 10) = c), ofBitsMsb (h.take 24), ofBitsMsb ((h.drop 34).take 2))

/-- A frame as it stands after reading at its start with a shift. -/
def readHeader (f : FrameRec) (shift : Int) : FrameRec :=
  let h := headerOf48 f.chan (contentLlrs f.chan f.raw shift)
  { f with valid := h.1, seq := h.2.1, type := h.2.2 }

/-- A candidate header is accepted: it differs from the hard decisions only in bits of LLR 0 (R148). -/
def fillOk (content : List Int) (cand : List Bool) : Bool :=
  (content.take 48).any (· == 0) && ((content.take 48).zip cand).all fun p => p.1 == 0 || hard p.1 == p.2

/-! ## Frames to the assembler (R152 to R155, R157) -/

/-- The LLRs of a frame from F − 4 to F + 9,027, block B from where it was found (R152, R155). -/
def frameRaw (k : Chan) (f : Nat) : List Int :=
  (List.range 9032).map fun i =>
    let off := f + i - 4
    if i < 4581 then (if f + i < 4 then 0 else llrAt k off) else llrAt k (k.blockB + (i - 4581))

/-- Data bits of the frame in hand inside defect regions (R165). -/
def frameDefects (k : Chan) (f : Nat) : Nat :=
  (List.range 9024).countP fun i => decide (f + i < k.counter) && k.llrDef.getD (k.counter - 1 - (f + i)) false

/-- A slot is taken into assembly: a read run that has been told to stop reads no further slot (R129, R158). -/
def slotTaken (s : State) (slot : Nat) : Bool :=
  !(s.wvn.run == .reading && !s.rd.active) || s.tiles.asm.any fun a => a.slot == slot

/-- The deskew of a slot is complete: frames that still come are discarded (R158). -/
def deskewDone (s : State) (slot : Nat) : Bool := match s.tiles.deskewed with | some d => decide (slot ≤ d) | none => false

/-- Give a frame to the assembler, once for a channel and slot (R157, R158). -/
def toAssembler (slot : Nat) (f : FrameRec) (s : State) : State :=
  if slotTaken s slot && !deskewDone s slot then
    s.onTiles fun k => { k with
      asm := if k.asm.any fun a => a.slot == slot then
          mapIf (fun a => a.slot == slot) (fun a => { a with frames := if a.frames.any fun x => x.chan == f.chan then a.frames else a.frames ++ [f] }) k.asm
        else k.asm ++ [⟨slot, [f]⟩] }
  else s

/-- The frequency seed of a replay: the median of the channel's own f, where it counts, and its siblings' at the slot (R153, R154). -/
def replaySeed (s : State) (c slot : Nat) (own : Option Rat) : Rat :=
  let fs := (syncedAt s (siblingsOf s c) slot).map fun p => (chanOf_ s p.1).freq
  (medianOf (own.toList ++ fs)).getD (chanOf_ s c).freq

/-- Block A of the frame in hand comes from the replay engine (R153). -/
def replayBlockA (c : Nat) (s : State) : State :=
  let k := chanOf_ s c
  match (if k.replayA then k.frameAt else none) with
  | none => s
  | some f =>
    let ls := replayBack (chanEnv s c false) k (replaySeed s c k.slot (some (freqAt k (f + 4553)))) f (f + 4553) (f - 4) 4581
    onChan c (fun k =>
      let n := k.counter - (f - 4)
      { k with replayA := false, llrs := k.llrs.take (n - ls.length) ++ ls.reverse ++ k.llrs.drop n }) s

/-- The slot whose frame waits for a replay engine (R156). -/
def engineWork (k : Chan) : Option Nat := if k.replayA then some k.slot else k.lostSlot

/-- One of the two replay engines of channel c's tile may take its work now: at most one channel of the tile comes before it, by deskew
deadline and then by channel (R156). -/
def engineFree (s : State) (c : Nat) : Bool :=
  match engineWork (chanOf_ s c) with
  | none => false
  | some slot =>
    decide (((List.range 16).countP fun i =>
      let d := 16 * (c / 16) + i
      match engineWork (chanOf_ s d) with
      | some x => decide (x < slot) || (x == slot && decide (d < c))
      | none => false) < 2)

/-- BLOCK_A_REPLAY: a replay engine takes block A when its turn has come (R153, R156). -/
def execBlockAReplay (c : Fin 1024) (s : State) : Host.Outcome State Fault Refusal :=
  goLive (fun s => if engineFree s c.val then replayBlockA c.val s else s) s

/-- The frame of a channel in BLOCK_B is checked and goes to the assembler; a replay still due has run by then (R152, R156). -/
def frameEnds (c : Nat) (u : State) : State :=
  let k0 := chanOf_ u c
  match k0.state, k0.frameAt with
  | .blockB, some f =>
    if k0.counter < f + 9002 then u
    else
      let s := replayBlockA c u
      let k := chanOf_ s c
      let fr := readHeader
        { chan := c, found := true, start := f, raw := frameRaw k f, valid := false, seq := 0, type := 0, tried := false, shifted := false,
          missed := k.syncMissed, replayed := k0.syncMissed, predicted := false, slips := k.slips, defBits := frameDefects k f } 0
      onChan c (fun k => autoState (getAt s.tiles.syncCfg (c / 16) 0) { k with
        state := .track, slot := k.slot + 1, frameAt := none, syncAt := none, resyncAt := none, syncMissed := false,
        slips := if deskewDone s k.slot then k.slips else 0 }) (toAssembler k.slot fr s)
  | _, _ => u

/-- FRAME_END (R148, R152). -/
def execFrameEnd (c : Fin 1024) (s : State) : Host.Outcome State Fault Refusal := goLive (frameEnds c.val) s

/-! ## Realignment and sibling prediction (R154, R155) -/

/-- Whether a frame's header agrees with a slot: CRC-12 and CHANNEL with SEQ of the slot and a TYPE the data set allows, or a fill accepted
(R80, R148). -/
def headerFits (s : State) (seq n : Nat) (c : Nat) (content : List Int) : Bool :=
  let h := headerOf48 c content
  (h.1 && h.2.1 == seq && (h.2.2 == 3 || h.2.2 == frameType n c false)) ||
  (!headerCrc content && hdrFill s c && (fillOk content (headerBits seq c (frameType n c false)) || fillOk content (headerBits seq c 3)))

/-- Checks of the row code that the hard decisions of a trial fail (R155). -/
def syndromeWeight (content : List Int) : Nat :=
  let cw := ((content.drop 48).map hard).toArray
  ((List.range 8).map fun r => (List.range 96).countP fun a => (ldpcCheck r a).foldl (fun x i => x != cw.getD i false) false).sum

/-- The trials in the order in which ties fall: the smaller |δ| first, then the positive one (R155). -/
def trialShifts : List Int := [0, 1, -1, 2, -2, 3, -3, 4, -4]

/-- The winning trial: a valid header and the lowest syndrome weight (R155). -/
def bestTrial (valid : List Int → Bool) (f : FrameRec) : Option Int :=
  let ts : List (Int × Nat) := trialShifts.filterMap fun d =>
    let ls := contentLlrs f.chan f.raw d
    if valid ls then some (d, syndromeWeight ls) else none
  match ts with
  | [] => none
  | x :: xs => some (xs.foldl (fun (b : Int × Nat) y => if y.2 < b.2 then y else b) x).1

/-- LLRs of a frame moved by a winning shift. -/
def shiftRaw (raw : List Int) (d : Int) : List Int :=
  (List.range raw.length).map fun i => let j : Int := i + d; if j < 0 then 0 else raw.getD j.toNat 0

/-- Realignment of a frame, with what counts as a valid header (R155): a winner off 0 replaces its LLRs; without a valid trial the frame is not
found. -/
def realignFrame (valid : List Int → Bool) (f : FrameRec) : FrameRec :=
  match bestTrial valid f with
  | none => { f with found := false, tried := true }
  | some d =>
    if d = 0 then { f with tried := true }
    else readHeader { f with raw := shiftRaw f.raw d, start := ((f.start : Int) + d).toNat, tried := true, shifted := true } 0

/-- SEQ of a slot: the value of most valid headers, the lower on ties (R157). -/
def slotSeq (frames : List FrameRec) : Option Nat :=
  let vs := (frames.filter fun f => f.found && f.valid).map (·.seq)
  let best : Option Nat := vs.foldl (fun b x => match b with
    | none => some x
    | some y => if vs.count y < vs.count x ∨ (vs.count x = vs.count y ∧ x < y) then some x else some y) none
  best

/-- A slot holds a rewritten copy: most of the headers that carry its SEQ carry TYPE 3 (R157). -/
def rewrittenSlot (frames : List FrameRec) : Bool :=
  match slotSeq frames with
  | some seq =>
    let hs := frames.filter fun f => f.found && f.valid && f.seq == seq
    decide (hs.length < 2 * hs.countP fun f => f.type == 3)
  | none => false

/-- SEQ of a slot under assembly, once no further frame can change it: more than half of the channels have given it (R157, log 175). -/
def settledSeq (frames : List FrameRec) : Option Nat :=
  (slotSeq frames).bind fun seq => if 512 < frames.countP fun f => f.found && f.valid && f.seq == seq then some seq else none

/-- Due for realignment in a slot of a SEQ: a predicted frame whatever its header shows, another when its header is not valid (R154, R155). -/
def realignDue (fits : List Int → Bool) (f : FrameRec) : Bool :=
  f.found && !f.tried && (f.predicted || !fits (contentLlrs f.chan f.raw 0))

/-- The frame of channel c in a slot under assembly, realigned where that is due, once the slot's SEQ is settled (R155). -/
def realignIn (s : State) (c : Nat) (a : SlotAsm) : SlotAsm :=
  match settledSeq a.frames with
  | none => a
  | some seq =>
    let fits := headerFits s seq seq c
    { a with frames := mapIf (fun f => f.chan == c && realignDue fits f) (realignFrame fits) a.frames }

/-- REALIGNMENT: a channel's frame at the assembler whose header is not valid, once the slot's SEQ is settled; before that it waits for the
end of the deskew (R155). -/
def realignment (c : Nat) (s : State) : State :=
  if realignEn s c then s.onTiles fun k => { k with asm := k.asm.map (realignIn s c) } else s

/-- REALIGNMENT (R155). -/
def execRealignment (c : Fin 1024) (s : State) : Host.Outcome State Fault Refusal := goLive (realignment c.val) s

/-- The replay engine takes a frame whose two marks were missed; with fewer than three siblings it is not found, else the trials of R155 await
it whatever its header shows (R154). -/
def siblingPrediction (c : Nat) (s : State) : State :=
  let k := chanOf_ s c
  match k.lostSlot with
  | none => s
  | some slot =>
    let x := slotBits * slot + 96
    let sib := syncedAt s (siblingsOf s c) slot
    let fresh : FrameRec :=
      { chan := c, found := false, start := 0, raw := [], valid := false, seq := 0, type := 0, tried := true, shifted := false,
        missed := true, replayed := false, predicted := false, slips := k.slips, defBits := frameDefects k (slotBits * slot) }
    let s1 := onChan c (fun k => { k with lostSlot := none, slips := 0 }) s
    match medianOf (sib.map fun p => (p.2 : Int) - x) with
    | none => toAssembler slot fresh s1
    | some m =>
      if sib.length < 3 ∨ !siblingEn s c then toAssembler slot fresh s1
      else
        let f := ((x : Int) + m).toNat - 96
        let raw := replayFrame (chanEnv s c false) k (replaySeed s c slot none) f
        toAssembler slot (readHeader { fresh with
          found := true, start := f, raw := raw, predicted := true, tried := !realignEn s c, defBits := frameDefects k f } 0) s1

/-- SIBLING_PREDICTION: a replay engine takes the frame when its turn has come (R154, R156). -/
def execSiblingPrediction (c : Fin 1024) (s : State) : Host.Outcome State Fault Refusal :=
  goLive (fun s => if engineFree s c.val then siblingPrediction c.val s else s) s

end Sys2Proof.Machine
end

