-- ==== Sys2Proof/Machine/KeyCmds.lean ====
section
/-! DEFINITION. The commands of the Keep: KEY_LOAD (R243 to R246), KEY_ERASE and the end of a withdrawal (R242, R260), KEY_QUERY (R247,
R316). -/

namespace Sys2Proof.Machine

/-! ## KEY_LOAD -/

/-- A key load is rejected: counted, no slot changed (R243). -/
def rejectLoad (c : Cmd) (s : State) : State := adminDone c 0x0308 0 (s.onKeep fun k => { k with cntLoadFail := inc k.cntLoadFail })

/-- The generation that a load installs, or none when it is rejected; after an alarm or a debug unlock every load is (R243, R245,
R246). -/
def loadedGen (c : Cmd) (block : Bytes) (s : State) : Option Gen :=
  let e := c.entry
  if s.trust.debug || s.keep.erased then none
  else
    match keyLoadPlain s (specField e 48 1) (specField e 49 1) block with
    | some p => genFrom s.keep.loadSeq (((keySlot s (slotField e)).lastGen + 1) % 2 ^ 32) p
    | none => none

/-- KEY_LOAD: busy while a shadow is held or an erasure runs; else rejected, or installed with KEEP_LOADSEQ one higher (R242, R243,
R246). -/
def loadKey (block : Bytes) (c : Cmd) (s : State) : State :=
  let i := slotField c.entry
  match (keySlot s i).state with
  | .shadowed | .withdraw => adminDone c 0x0307 0 s
  | _ =>
    match loadedGen c block s with
    | some g => adminDone c 0 g.num ((installGen i g s).onKeep fun k => { k with loadSeq := k.loadSeq + 1 })
    | none => rejectLoad c s

/-- KEY_LOAD. -/
def execKeyLoad (tag : BitVec 16) (block : Bytes) (s : State) : Host.Outcome State Fault Refusal :=
  goLive (adminRun tag opKeyLoad (loadKey (fit 1224 block))) s

/-! ## KEY_ERASE -/

/-- KEY_ERASE: an empty slot is done; a slot in WITHDRAW completes with the erasure under way; else every operation of either generation
is withdrawn (R242, R260). -/
def eraseKey (c : Cmd) (s : State) : State :=
  let i := slotField c.entry
  match (keySlot s i).state with
  | .empty => adminDone c 0 0 s
  | .withdraw => onSlot i (fun k => { k with erasers := k.erasers ++ [c.tag] }) s
  | _ => withdrawSlot i (onSlot i (fun k => { k with state := .withdraw, erasers := [c.tag] }) s)

/-- KEY_ERASE. -/
def execKeyErase (tag : BitVec 16) (s : State) : Host.Outcome State Fault Refusal := goLive (adminRun tag opKeyErase eraseKey) s

/-- All withdrawals of a slot are done: its key material is zeroized and the erasures complete (Table 10-2). -/
def withdrawDone (i : Nat) (s : State) : State :=
  if (keySlot s i).state = .withdraw then forEach (keySlot s i).erasers (fun t => reply 0 t 0 0) (zeroizeSlot i s) else s

/-- KEY_WITHDRAW_DONE. -/
def execKeyWithdrawDone (slot : Fin 64) (s : State) : Host.Outcome State Fault Refusal := goLive (withdrawDone slot.val) s

/-! ## KEY_QUERY (R247, R316) -/

/-- The code of a slot's state (R316). -/
def slotCode : SlotState → Nat
  | .empty => 0
  | .live => 1
  | .shadowed => 2
  | .withdraw => 3

/-- The check value of a key (R247). -/
def checkValue (key : Bytes) : Bytes := (cmac key (ascii "LX1024-KCV")).take 4

/-- The 64-byte entry of a slot (R316). -/
def slotEntry (i : Nat) (k : KeySlot) : Bytes :=
  match k.state, k.cur with
  | .empty, _ | _, none => fit 64 (le 1 i ++ le 1 (slotCode k.state))
  | st, some g =>
    fit 64 (le 1 i ++ le 1 (slotCode st) ++ le 1 (k.shadow.isSome.toNat + 2 * (decide (g.limit ≤ g.used)).toNat) ++ [0] ++ le 4 g.num ++
      fit 32 g.keyId ++ le 2 g.use.toNat ++ zeros 2 ++ le 4 g.limit ++ le 4 g.used ++ le 8 (counterOf g) ++ checkValue g.key)

/-- The public halves of the transport keys, zeros while none is held (R245). -/
def transportPublic (k : Keep) : Bytes :=
  match k.transport with
  | some (x, m) => fit 32 (Config.x25519Public x) ++ fit 1184 (Config.mlkemPublic m)
  | none => zeros 1216

/-- The 1,280-byte header (R316). -/
def queryHeader (k : Keep) : Bytes := fit 1280 (transportPublic k ++ le 8 k.loadSeq)

/-- KEY_QUERY: the header, then one entry or all 64 (R316). -/
def queryKeys (c : Cmd) (s : State) : State :=
  let ids := if slotField c.entry = 0xFF then List.range 64 else [slotField c.entry]
  let bs := queryHeader s.keep ++ ids.flatMap fun i => slotEntry i (keySlot s i)
  adminDone c 0 bs.length (writeBuffer c.qid c.tag 0 bs s)

/-- KEY_QUERY. -/
def execKeyQuery (tag : BitVec 16) (s : State) : Host.Outcome State Fault Refusal := goLive (adminRun tag opKeyQuery queryKeys) s

end Sys2Proof.Machine
end

