-- ==== Sys2Proof/Machine/Zstd.lean ====
section
/-! DEFINITION. XXH64 and the Zstandard frames that the compression engines write (R232 to R235) and accept (R236). The entropy
coding inside a compressed block is the constants zstdBlock and zstdBlockDecode of Config (log 4). -/

namespace Sys2Proof.Machine

/-! ## XXH64 -/

abbrev W64 := BitVec 64

abbrev xp1 : W64 := 0x9E3779B185EBCA87
abbrev xp2 : W64 := 0xC2B2AE3D27D4EB4F
abbrev xp3 : W64 := 0x165667B19E3779F9
abbrev xp4 : W64 := 0x85EBCA77C2B2AE63
abbrev xp5 : W64 := 0x27D4EB2F165667C5

/-- One lane's round. -/
def xxRound (acc lane : W64) : W64 := ((acc + lane * xp2).rotateLeft 31) * xp1

/-- An accumulator merged into the hash. -/
def xxMerge (h acc : W64) : W64 := (h ^^^ xxRound 0 acc) * xp1 + xp4

/-- A little-endian word of n bytes. -/
def word64 (bs : Bytes) : W64 := BitVec.ofNat 64 (unle bs)

/-- The four accumulators over whole 32-byte stripes. -/
def xxStripes (v : W64 × W64 × W64 × W64) (bs : Bytes) : Nat → W64 × W64 × W64 × W64
  | 0 => v
  | k + 1 =>
    let l := fun i => word64 ((bs.drop (8 * i)).take 8)
    xxStripes (xxRound v.1 (l 0), xxRound v.2.1 (l 1), xxRound v.2.2.1 (l 2), xxRound v.2.2.2 (l 3)) (bs.drop 32) k

/-- The rest below 32 bytes: 8-byte, then 4-byte, then single-byte pieces. -/
def xxTail (h : W64) : Nat → Bytes → W64
  | 0, _ => h
  | fuel + 1, bs =>
    if 8 ≤ bs.length then
      xxTail (((h ^^^ xxRound 0 (word64 (bs.take 8))).rotateLeft 27) * xp1 + xp4) fuel (bs.drop 8)
    else if 4 ≤ bs.length then
      xxTail (((h ^^^ word64 (bs.take 4) * xp1).rotateLeft 23) * xp2 + xp3) fuel (bs.drop 4)
    else match bs with
      | [] => h
      | b :: rest => xxTail (((h ^^^ word64 [b] * xp5).rotateLeft 11) * xp1) fuel rest

/-- XXH64 with seed 0 (R232). -/
def xxh64 (bs : Bytes) : W64 :=
  let n := bs.length / 32
  let h0 : W64 := if n = 0 then xp5 else
    let v := xxStripes (xp1 + xp2, xp2, 0, 0 - xp1) bs n
    let h := v.1.rotateLeft 1 + v.2.1.rotateLeft 7 + v.2.2.1.rotateLeft 12 + v.2.2.2.rotateLeft 18
    xxMerge (xxMerge (xxMerge (xxMerge h v.1) v.2.1) v.2.2.1) v.2.2.2
  let h1 := xxTail (h0 + BitVec.ofNat 64 bs.length) 40 (bs.drop (32 * n))
  let h2 := (h1 ^^^ h1 >>> 33) * xp2
  let h3 := (h2 ^^^ h2 >>> 29) * xp3
  h3 ^^^ h3 >>> 32

/-- The Content_Checksum of an output (R232). -/
def zstdSum (bs : Bytes) : Bytes := le 4 (xxh64 bs).toNat

/-! ## Frames the engines write (R232 to R235) -/

/-- The frame header for LENGTH bytes (Table 09-2). -/
def zstdHeader (len : Nat) : Bytes := [0x28, 0xB5, 0x2F, 0xFD, 0xA4] ++ le 4 len

/-- A block header: Last_Block, Block_Type and Block_Size (RFC 8878). -/
def zstdBlockHeader (last : Bool) (type size : Nat) : Bytes := le 3 (last.toNat + 2 * type + 8 * size)

/-- The pieces of at most 131,072 bytes of a block (R232). -/
def zstdChunks (bs : Bytes) : List Bytes :=
  (List.range ((bs.length + 131071) / 131072)).map fun i => (bs.drop (131072 * i)).take 131072

/-- A raw block (RFC 8878). -/
def rawBlock (last : Bool) (chunk : Bytes) : Bytes := zstdBlockHeader last 0 chunk.length ++ chunk

/-- The blocks of a raw frame (R235). -/
def rawBlocks : List Bytes → Bytes
  | [] => []
  | [c] => rawBlock true c
  | c :: cs => rawBlock false c ++ rawBlocks cs

/-- The raw frame of a block, and the empty frame of a zero-length one (R233, R235). -/
def rawFrame (data : Bytes) : Bytes :=
  zstdHeader data.length ++ (if data.isEmpty then rawBlock true [] else rawBlocks (zstdChunks data)) ++ zstdSum data

/-- The length of the raw frame of a block of L bytes (R235, R253). -/
def rawFrameLength (len : Nat) : Nat := if len = 0 then 16 else 13 + 3 * ((len + 131071) / 131072) + len

/-- One block at an effort, after what the frame already holds: compressed where the sections the engine found are shorter than the
chunk and decode to it, as its shadow decoder requires (R238), a run where the engine takes one, and raw otherwise (R235). -/
def zstdBlockOf (window effort : Nat) (prior history : Bytes) (last : Bool) (chunk : Bytes) : Bytes :=
  let sections := Config.zstdBlock effort prior history chunk
  if sections.length < chunk.length ∧ Config.zstdBlockDecode window prior history sections = some chunk then
    zstdBlockHeader last 2 sections.length ++ sections
  else if Config.zstdRun effort chunk ∧ 1 < chunk.length ∧ chunk.all (· == chunk.headD 0) then
    zstdBlockHeader last 1 chunk.length ++ [chunk.headD 0]
  else rawBlock last chunk

/-- The blocks of a frame, each after those before it. -/
def zstdBlocks (window effort : Nat) (prior history : Bytes) : List Bytes → Bytes
  | [] => []
  | c :: cs =>
    let b := zstdBlockOf window effort prior history cs.isEmpty c
    b ++ zstdBlocks window effort (prior ++ b) (history ++ c) cs

/-- The compressed frame of a block, whatever its length (R234). -/
def zstdCompressed (effort : Nat) (data : Bytes) : Bytes :=
  zstdHeader data.length ++ zstdBlocks data.length effort [] [] (zstdChunks data) ++ zstdSum data

/-- EARLY_ABORT stores the block raw: the sections for its first 65,536 bytes exceed 64,512 bytes (R235). -/
def zstdAborts (effort : Nat) (early : Bool) (data : Bytes) : Bool :=
  early && decide (65536 < data.length) && decide (64512 < (Config.zstdBlock effort [] [] (data.take 65536)).length)

/-- The frame an engine writes (R232 to R235). -/
def zstdFrame (effort : Nat) (early : Bool) (data : Bytes) : Bytes :=
  let raw := rawFrame data
  if data.isEmpty ∨ effort = 0 ∨ zstdAborts effort early data then raw
  else
    let c := zstdCompressed effort data
    if c.length < raw.length then c else raw

/-- The frame written is a raw frame of a block of one byte or more, which GEN_CZ_CNT_RAW counts (R235). -/
def zstdIsRaw (effort : Nat) (early : Bool) (data : Bytes) : Bool := !data.isEmpty && zstdFrame effort early data == rawFrame data

/-! ## Frames the engines accept (R236) -/

/-- The blocks of a frame: what follows the last one and the whole output, or none when a rule of R236 is broken. -/
def zstdUnblock (window : Nat) : Nat → Bytes → Bytes → Bytes → Option (Bytes × Bytes)
  | 0, _, _, _ => none
  | fuel + 1, prior, history, bs =>
    if bs.length < 3 then none
    else
      let h := field bs 0 3
      let last := h % 2 = 1
      let type := bits h 1 2
      let size := h / 8
      let body := bs.drop 3
      let used := if type = 1 then 1 else size
      if body.length < used then none
      else
        let piece := if type = 0 then (if size ≤ 131072 then some (body.take size) else none)
          else if type = 1 then (if size ≤ 131072 then some (List.replicate size (body.headD 0)) else none)
          else if type = 2 then Config.zstdBlockDecode window prior history (body.take size)
          else none
        match piece with
        | none => none
        | some p =>
          if 131072 < p.length then none
          else if last then some (body.drop used, history ++ p)
          else zstdUnblock window fuel (prior ++ bs.take (3 + used)) (history ++ p) (body.drop used)

/-- Decompress STORED bytes whose block has LENGTH uncompressed bytes: none for an invalid frame (R236). -/
def zstdDecode (len : Nat) (frame : Bytes) : Option Bytes :=
  let fhd := (frame.getD 4 0).toNat
  let single := fhd.testBit 5
  let flag := fhd / 64
  let fcsSize := if flag = 0 then (if single then 1 else 0) else if flag = 1 then 2 else if flag = 2 then 4 else 8
  let at_ := if single then 5 else 6
  let wd := (frame.getD 5 0).toNat
  let base := 2 ^ (10 + wd / 8)
  let window := if single then len else min (base + base / 8 * (wd % 8)) len
  if frame.take 4 ≠ [0x28, 0xB5, 0x2F, 0xFD] ∨ fhd.testBit 3 ∨ fhd % 4 ≠ 0 ∨ !fhd.testBit 2 ∨ fcsSize = 0 then none
  else if frame.length < at_ + fcsSize then none
  else
    let fcs := field frame at_ fcsSize + (if fcsSize = 2 then 256 else 0)
    if fcs ≠ len then none
    else match zstdUnblock window frame.length [] [] (frame.drop (at_ + fcsSize)) with
      | some (rest, out) => if rest = zstdSum out ∧ out.length = len then some out else none
      | none => none

end Sys2Proof.Machine
end

