-- ==== Sys2Proof/Machine/WritePath.lean ====
section
/-! DEFINITION. The write path's commands: compression, sealing, encoding, dome parity, slot commits and verify, the write inhibit and
the resume, the ends of wraps, stack loss, and the cartridge-memory link. -/

namespace Sys2Proof.Machine

/-! ## From the engines to encoded rows (R12, R229 to R239, R254, R76) -/

/-- An engine has finished the block at the head of its queue: its frame waits for the packing order, and what is next in order is
packed (R231 to R235). -/
def blockDone (e : Nat) (s : State) : State :=
  match getAt s.cz.engines e [] with
  | [] => s
  | it :: rest =>
    let r := it.run.getD (it.effort, false)
    let raw := zstdIsRaw r.1 r.2 it.data
    let s1 := s.onCz fun c => { c with
      engines := putAt c.engines e rest, finished := c.finished ++ [{ it with data := zstdFrame r.1 r.2 it.data }],
      cntRaw := if raw then inc c.cntRaw else c.cntRaw }
    pack (startEngine e (raise (92 + e) s1))

/-- COMPRESSION_BLOCK_DONE (R231 to R235). -/
def execCompressionBlockDone (e : Fin 4) (s : State) : Host.Outcome State Fault Refusal := goLive (blockDone e.val) s

/-- COMPRESSION_ENGINE_FAULT: the engine leaves service, and its blocks are done on others (R238). -/
def execCompressionEngineFault (e : Fin 4) (s : State) : Host.Outcome State Fault Refusal := goLive (engineFault e.val) s

/-- STAGING_STALL_RELEASE: below the lower level the ports fetch record data again (R118). -/
def execStagingStallRelease (s : State) : Host.Outcome State Fault Refusal := goLive (fun s => pack (updateStall s)) s

/-- The oldest data set at a stage. -/
def oldestAt (s : State) (st : DsStage) : Option DataSet := s.wr.sets.find? fun d => d.stage == st

/-- The lowest-numbered cipher core that takes work (R256). -/
def cipherCore (c : Cupola) : Nat :=
  let en := if bits c.cfg.toNat 4 4 = 0 then (1 : BitVec 4) else BitVec.ofNat 4 (bits c.cfg.toNat 4 4)
  let both := en &&& c.inService
  ((List.range 4).find? fun i => (if both = 0 then c.inService else both).getLsbD i).getD 0

/-- CUPOLA_INVOCATION: the oldest closed payload is sealed, encrypted where its writes asked for it (R46, R249, R254). -/
def execCupolaInvocation (s : State) : Host.Outcome State Fault Refusal :=
  goLive (fun s => match oldestAt s .closed with
    | some d => raise (88 + cipherCore s.cupola) (sealSet d (needDomains (88 + cipherCore s.cupola) 1 s))
    | none => s) s

/-- CUPOLA_CORE_ERROR: the core leaves service and its invocation reruns on another (R256). -/
def execCupolaCoreError (core : Fin 4) (s : State) : Host.Outcome State Fault Refusal := goLive (takeOut .cupolaCore core.val) s

/-- KEEP_COPY_MISMATCH: the copy whose parity failed is switched off, and the other serves alone (R259). -/
def execKeepCopyMismatch (failed : Fin 2) (s : State) : Host.Outcome State Fault Refusal := goLive (takeOut .keepCopy failed.val) s

/-- ECC_ENCODE: the oldest ciphertext data set has its rows, and a run begins when none is in hand (R67 to R76, R111). -/
def execEccEncode (s : State) : Host.Outcome State Fault Refusal :=
  goLive (fun s => match oldestAt s .sealed with
    | some d => kickWrites false (onSet d.id (fun d => { d with stage := .encoded }) (needDomains 80 8 s))
    | none => s) s

/-- DOME_PARITY_COMPUTE: the parity sets of a dome, once the last of its data sets is encoded (R17, R79). -/
def execDomeParityCompute (group : Nat) (dome : Fin 8) (s : State) : Host.Outcome State Fault Refusal :=
  goLive (fun s =>
    let last := (closingPos s group).getD 495
    if domeEncoded s group dome.val last && !(s.wr.domesReady ++ s.wr.domesReleased).contains (group, dome.val) then
      makeParity group dome.val last s
    else s) s

/-! ## Slots (R90 to R101) -/

/-- A commit point may fall due: a write run streams, its tape has reached the set-point, and the cartridge memory holds the wrap's entry
(R111, R129, R192). -/
def committing (s : State) : Bool :=
  s.wvn.run == .writing && (s.wvn.state == .stream || s.wvn.state == .stopping) && s.stp.mode == .track &&
  (s.stp.speedOk || s.wr.anchor.isSome) && (cmIdle s || s.wr.anchor.isSome) && !s.wr.wrapEnding

/-- Bring a commit point about (R90, R98, R100, R101, R106, R225). -/
def commitSlot (s : State) : State :=
  let point := commitPoint s
  let s1 := pruneRewrites (advanceTo (⌈point⌉.toNat) s)
  if slotsPerWrap ≤ s1.wr.slot then writeTail (s1.onWr fun w => { w with wrapEnding := true })
  else if anyGroupFailed s1 || training s1 then
    (if s1.wr.commits.isEmpty then endRun s1 else leaveSlot point s1)
  else if !writeFree s1 || memoryRefuses s1 then leaveSlot point s1
  else
    let s2 := if s1.wr.tokens then s1 else forEach (upGroups s1) permitToken (s1.onWr fun w => { w with tokens := true })
    if 0 < s2.wr.skipLeft then leaveSkip point s2
    else afterVerify (useSlot point s2)

/-- SLOT_COMMIT: the commit point of the next slot (R90). -/
def execSlotCommit (s : State) : Host.Outcome State Fault Refusal := goLive (fun s => if committing s then commitSlot s else s) s

/-- VERIFY_RESULT: the outcome of the slot's verify (R96). -/
def execVerifyResult (slot : Nat) (s : State) : Host.Outcome State Fault Refusal := goLive (takeVerify slot) s

/-- WRAP_END: the last slot of the wrap is reached; no more is committed on it, and its verify results are awaited (R101). -/
def execWrapEnd (s : State) : Host.Outcome State Fault Refusal :=
  goLive (fun s => if s.wvn.run = .writing ∧ (s.wvn.state = .stream ∨ s.wvn.state = .stopping) ∧ slotsPerWrap ≤ s.wr.slot ∧ !s.wr.wrapEnding
    then writeTail (s.onWr fun w => { w with wrapEnding := true }) else s) s

/-- A wrap that belongs to a partition follows this one. -/
def wrapFollows (s : State) (p w : Nat) : Bool := let pt := partAt s p; pt.inUse && decide (w < pt.lastWrap)

/-- Weathervane enters TURN: the integrator freezes and Steeple takes the TURNAROUND program to a wrap's first LPOS (R128). -/
def enterTurn (w : Nat) (s : State) : State :=
  let s1 := setWvn .turn (s.onWvn fun v => { v with frozen := true, cntTurn := inc v.cntTurn })
  startProgram 4 w 0 (slotStart w 0).1 0 (useModule (moduleOf w) (s1.onWr fun k => { k with anchor := none }))

/-- The wrap has been written and verified: its entries go to the cartridge memory, and the partition's next wrap follows; with none
left, what cannot be placed is discarded (R101, R111, R128). -/
def turnWriting (s : State) : State :=
  let p := s.wr.part
  let w := s.wr.wrap
  let s1 := closeWrap w p (s.wr.resumeAt - 1) s
  if wrapFollows s p w then
    let s2 := s1.onWr fun k => { k with
      wrap := w + 1, slot := 0, resumeAt := 0, wrapEnding := false, skipLeft := 0, noFirst := false, sets := k.sets.map fun d => { d with skips := 0 } }
    let head := match s2.wr.rewrites.head?.bind (stagedSet s2) with
      | some d => some d
      | none => nextNumbered s2
    let n := match head with | some d => d.n.getD 0 | none => mkN p (partAt s2 p).nextN
    let lon := match head with | some d => d.firstLon | none => nextUserLon s2 p
    let s3 := onPart p (fun q => { q with wrap := w + 1, slot := 0, highN := if q.highN = noN then n else max q.highN n }) s2
    enterTurn (w + 1) (openWrap (w + 1) 0 p n lon s3)
  else partitionOut p s1

/-- Reading has reached the last slot of a wrap: the partition's next wrap follows, or the run ends (R128, R132). -/
def turnReading (s : State) : State :=
  if wrapFollows s s.rd.part s.rd.wrap then
    enterTurn (s.rd.wrap + 1) (s.onRd fun r => { r with
      wrap := r.wrap + 1, slot := 0, expected := r.expected.map fun e => (e.1 + (slotsPerWrap - e.2), 0) })
  else endRun (s.onRd fun r => { r with active := false, ended := true })

/-- TURN_ENTRY: after the wrap's verifies when writing, and at its last slot when reading (R128). -/
def execTurnEntry (s : State) : Host.Outcome State Fault Refusal :=
  goLive (fun s => match s.wvn.run with
    | .writing =>
      if (s.wvn.state = .stream ∨ s.wvn.state = .stopping) ∧ s.wr.wrapEnding ∧ s.wr.commits.isEmpty then turnWriting s else s
    | .reading =>
      if (s.wvn.state = .stream ∨ s.wvn.state = .stopping) ∧ slotsPerWrap ≤ s.rd.slot then turnReading s else s
    | .none | .retry => s) s

/-! ## The inhibit (R105 to R107) -/

/-- WRITE_INHIBIT: a source of Table 04-4 becomes active (R105). -/
def execWriteInhibit (src : InhibitSource) (s : State) : Host.Outcome State Fault Refusal := goLive (inhibitOn src) s

/-- WRITE_RESUME: every source has cleared, PES_GOOD is met and the hold-off is over; tokens flow again (R106, R216). -/
def execWriteResume (s : State) : Host.Outcome State Fault Refusal :=
  goLive (fun s => if mayResume s then resumeTokens (advanceTo (s.wr.holdUntil.getD 0) s) else s) s

/-- STACK_LOSS (R116, R117). -/
def execStackLoss (stack : Fin 2) (s : State) : Host.Outcome State Fault Refusal := goLive (takeOut .bufferStack stack.val) s

/-! ## The cartridge-memory link (R63) -/

/-- CM_RESPONSE: the reader's answer to a POLL (R63). Data that waited for DIRTY = 1 goes on its way, or its commands end (R111). -/
def execCmResponse (bytes : Bytes) (s : State) : Host.Outcome State Fault Refusal :=
  goLive (fun s => settle (kickWrites false (cmTake bytes s))) s

/-- CM_POLL_RETRY: a busy reader is polled again (R63). -/
def execCmPollRetry (s : State) : Host.Outcome State Fault Refusal :=
  goLive (fun s => if s.drive.link.busy then
      emit (.cmFrame cmPoll) (advanceTo (s.power.time + 50 * usTicks) (onLink (fun l => { l with busy := false }) s))
    else s) s

/-- CM_FIELD_OFF_TIMEOUT: no access has followed for 100 ms, and the field goes off (R63). -/
def execCmFieldOffTimeout (s : State) : Host.Outcome State Fault Refusal :=
  goLive (fun s => if s.drive.link.field && cmIdle s then cmClose (advanceTo (s.drive.link.usedAt + 100 * msTicks) s) else s) s

end Sys2Proof.Machine
end

