-- ==== Sys2Proof/Machine/Crypt.lean ====
section
/-! DEFINITION. CRYPT: the modes, the parameter block, the segments and the handles of R265 to R267, and the time limit of an idle handle. -/

namespace Sys2Proof.Machine

/-- The fields of a CRYPT entry (Table 10-8). -/
def cryptMode (c : Cmd) : Nat := specField c.entry 48 1
def cryptDir (c : Cmd) : Bool := (specField c.entry 49 1).testBit 0
def cryptSeg (c : Cmd) : Nat := bits (specField c.entry 49 1) 1 2
def cryptTagLen (c : Cmd) : Nat := specField c.entry 50 1
def cryptHandle (c : Cmd) : Nat := specField c.entry 51 1
def cryptAad (c : Cmd) : Nat := specField c.entry 52 4
def cryptParam (c : Cmd) : Nat := specField c.entry 56 8

/-- The context that a whole or first segment begins with: a fresh one, its IV or counter block from the parameter block, except for a GCM
encryption, whose IV is the mount nonce and the next counter (R249, R266). -/
def freshCtx (s : State) (c : Cmd) (handle : Nat) (g : Gen) (param : Bytes) : CryptCtx :=
  { handle := handle, qid := c.qid, mode := cryptMode c, dir := cryptDir c, slot := slotField c.entry, gen := g.num,
    chain := if cryptMode c = 5 then zeros 16 else param.take 16, ghash := zeros 16, held := [],
    iv := if cryptMode c = 1 then (if cryptDir c then param.take 12 else invIv s (counterOf g)) else [],
    aadBits := 0, textBits := 0, segments := 0, writes := [] }

/-- One segment through GCM: associated data, then text; the GHASH takes the ciphertext in whole blocks and the rest is held (R249). -/
def gcmSegment (key : Bytes) (x : CryptCtx) (aad text : Bytes) : CryptCtx × Bytes :=
  let h := gcmH key
  let gap := x.held.length
  let out := (gcmStream key x.iv (x.textBits / 128 + 1) (zeros gap ++ text)).drop gap
  let ct := x.held ++ (if x.dir then text else out)
  let whole := 16 * (ct.length / 16)
  ({ x with ghash := be 16 (ghash h (ghash h (unbe x.ghash) aad) (ct.take whole)), held := ct.drop whole,
            aadBits := x.aadBits + 8 * aad.length, textBits := x.textBits + 8 * text.length }, out)

/-- The last whole block of a text, or the block before it when the text is empty. -/
def chainAfter (before text : Bytes) : Bytes := if text.length < 16 then before else text.drop (text.length - 16)

/-- One segment through its mode: the context after it and its output (Table 10-9). -/
def cryptSegment (key : Bytes) (x : CryptCtx) (aad text : Bytes) : CryptCtx × Bytes :=
  let blocks := blocks16 text
  match x.mode with
  | 1 => gcmSegment key x aad text
  | 2 => ({ x with chain := ctrAfter x.chain blocks.length }, ctrCrypt key x.chain text)
  | 3 =>
    let out := if x.dir then cbcDecrypt key x.chain blocks else cbcEncrypt key x.chain blocks
    ({ x with chain := chainAfter x.chain (if x.dir then text else out) }, out)
  | 4 =>
    let out := if x.dir then cfbDecrypt key x.chain blocks else cfbEncrypt key x.chain blocks
    ({ x with chain := chainAfter x.chain (if x.dir then text else out) }, out)
  | 5 =>
    let all := blocks16 (x.held ++ text)
    ({ x with chain := cmacBlocks key x.chain all.dropLast, held := all.getLastD [] }, [])
  | _ => (x, if x.dir then (kwpUnwrap key text).getD [] else kwpWrap key text)

/-- The tag at the end of an operation, of the modes that have one (Table 10-9). -/
def cryptTag (key : Bytes) (x : CryptCtx) : Bytes :=
  match x.mode with
  | 1 => gcmTag key x.iv (ghash (gcmH key) (unbe x.ghash) x.held) x.aadBits x.textBits
  | 5 => cmacFinish key x.chain x.held
  | _ => []

/-- The check at the end of a decryption, verification or unwrapping passes (Table 10-9). -/
def cryptPasses (key : Bytes) (x : CryptCtx) (tagLen : Nat) (text param : Bytes) : Bool :=
  match x.mode with
  | 1 | 5 => slice param 16 tagLen == (cryptTag key x).take tagLen
  | 6 => (kwpUnwrap key text).isSome
  | _ => true

/-- A CRYPT fails with a status before it writes anything; its handle, if it names one, closes (R267). -/
def cryptRefused (c : Cmd) (st : Nat) (s : State) : State :=
  reply c.qid c.tag st 0 (match ctxOf s (cryptHandle c) with
    | some x => if x.qid = c.qid then closeHandle (cryptHandle c) s else s
    | none => s)

/-- What the first or only segment of an encryption writes to the parameter block: the IV of a GCM encryption (Table 10-9). -/
def ivWrite (c : Cmd) (x : CryptCtx) : List (Nat × Bytes) :=
  if cryptMode c = 1 ∧ !cryptDir c ∧ cryptSeg c ≤ 1 then [(cryptParam c, x.iv)] else []

/-- What the last or only segment writes there: the tag with a zero tail (R265). -/
def tagWrite (c : Cmd) (tag : Bytes) : List (Nat × Bytes) :=
  if (cryptMode c = 1 ∨ cryptMode c = 5) ∧ !cryptDir c ∧ (cryptSeg c = 0 ∨ cryptSeg c = 3) then
    [(cryptParam c + 16, fit 16 (tag.take (cryptTagLen c)))] else []

/-- The last segment of an operation: the tag is written, or the check is made. A check that fails zeroes what the command and, for a
handle, its earlier segments have written (R261, R262, R266, R267). -/
def cryptLast (c : Cmd) (key : Bytes) (x : CryptCtx) (out text param : Bytes) (s : State) : State :=
  if x.dir ∧ !cryptPasses key x (cryptTagLen c) text param then
    let s1 := if x.mode = 6 then s else s.onCupola fun k => { k with cntTagFail := inc k.cntTagFail }
    let earlier := match ctxOf s1 x.handle with | some y => writtenBytes y.writes | none => 0
    let own := match cmdOf s1 c.qid c.tag with | some d => writtenBytes d.writes | none => 0
    finishCmd c.qid c.tag 0x0301 (earlier + own) none (zeroOut c.qid c.tag (closeHandle x.handle s1))
  else reply c.qid c.tag 0 out.length (hostWrites c.qid c.tag (tagWrite c (cryptTag key x)) (dropCtx x.handle s))

/-- A segment that is not the last keeps its context; after the 64th the handle closes (R267). -/
def cryptKeep (c : Cmd) (x : CryptCtx) (out : Bytes) (s : State) : State :=
  let s1 := putCtx x s
  let result := out.length + (if cryptSeg c = 1 then x.handle * 2 ^ 56 else 0)
  if 64 ≤ x.segments then
    reply c.qid c.tag 0 result (closeHandle x.handle (if x.mode = 1 ∧ x.dir then zeroOut c.qid c.tag s1 else s1))
  else reply c.qid c.tag 0 result s1

/-- Run one segment under a key: its output, then its end (R266, R267). -/
def cryptRun (c : Cmd) (key : Bytes) (x : CryptCtx) (input param : Bytes) (s : State) : State :=
  let r := cryptSegment key x (input.take (cryptAad c)) (input.drop (cryptAad c))
  let out := r.2
  let s1 := hostWrites c.qid c.tag (ivWrite c x ++ [(dp1 c.entry, out)]) (needDomains (88 + cipherCore s.cupola) 1 s)
  let y := { r.1 with segments := x.segments + 1, writes := x.writes ++ (if x.mode = 1 ∧ x.dir then [(dp1 c.entry, out)] else []) }
  if cryptSeg c = 0 ∨ cryptSeg c = 3 then cryptLast c key y out input param (countInv s1) else cryptKeep c y out s1

/-- A whole or first segment: the slot's key and its use, a free handle, the limit of an encryption, which counts once (R253, R265,
R267). -/
def cryptBegin (c : Cmd) (input param : Bytes) (s : State) : State :=
  match curGen s (slotField c.entry) with
  | none => cryptRefused c 0x0305 s
  | some g =>
    let handle := if cryptSeg c = 1 then freeHandle s else some 0
    if !(if cryptMode c = 6 then useKek g else useCrypt g) then cryptRefused c 0x0305 s
    else if cryptMode c = 1 ∧ cryptDir c ∧ !allZero (slice param 12 4) then cryptRefused c 0x0101 s
    else
      match handle with
      | none => cryptRefused c 0x0307 s
      | some h =>
        if !cryptDir c ∧ g.limit < g.used + 1 then cryptRefused c 0x0303 s
        else cryptRun c g.key (freshCtx s c h g param) input param (if cryptDir c then s else useGen (slotField c.entry) g.num false s)

/-- A spilled context is rejected: the operation ends with its handle, and the rejection is counted and recorded (R258). -/
def rejectSpill (c : Cmd) (reason : Nat) (s : State) : State :=
  cryptRefused c 0x0306 (lantern 0x00C1 (le 1 (cryptHandle c) ++ le 1 reason) (s.onCupola fun k => { k with cntReplay := inc k.cntReplay }))

/-- A later segment: its handle is open on this queue for this mode, direction and slot, whose generation is still the one the operation
began under; a spilled context comes back from the buffer; GCM text keeps its bound (R258, R260, R266, R267). -/
def cryptContinue (c : Cmd) (input param : Bytes) (s : State) : State :=
  match ctxOf s (cryptHandle c), curGen s (slotField c.entry) with
  | some y, some g =>
    if y.qid ≠ c.qid ∨ y.mode ≠ cryptMode c ∨ y.dir ≠ cryptDir c ∨ y.slot ≠ slotField c.entry ∨ y.gen ≠ g.num then cryptRefused c 0x0306 s
    else
      match resumeCtx s y with
      | .error reason => rejectSpill c reason s
      | .ok x =>
        if 8 * (2 ^ 36 - 32) < x.aadBits + x.textBits + 8 * input.length ∧ x.mode = 1 then cryptRefused c 0x0101 s
        else cryptRun c g.key x input param s
  | none, _ => cryptRefused c 0x0306 s
  | _, none => cryptRefused c 0x0305 s

/-- A started CRYPT whose host memory can be reached and for which a core serves. -/
def cryptReady (s : State) (c : Cmd) : Bool :=
  (match qpOf s c.qid with | some x => (queuePath s x).isSome | none => false) && decide (s.cupola.inService ≠ 0)

/-- CRYPT: input and param are the bytes that the host holds in the input range and the parameter block. -/
def cryptCmd (c : Cmd) (input param : Bytes) (s : State) : State :=
  if !cryptReady s c then s
  else if cryptSeg c ≤ 1 then cryptBegin c (fit (lengthField c.entry) input) (fit 32 param) s
  else cryptContinue c (fit (lengthField c.entry) input) (fit 32 param) s

/-- CRYPT. -/
def execCrypt (q : Fin 256) (tag : BitVec 16) (input param : Bytes) (s : State) : Host.Outcome State Fault Refusal :=
  goLive (fun s => match startedCmd s q.val tag.toNat opCrypt with | some c => cryptCmd c input param s | none => s) s

/-- A command waits or runs that names a handle. -/
def handleNamed (s : State) (h : Nat) : Bool :=
  s.host.cmds.any fun c => opcodeOf c.entry == opCrypt && !isDone c && cryptHandle c == h

/-- CRYPT_HANDLE_TIMEOUT: 60 s have passed with no segment (R267). -/
def execCryptHandleTimeout (h : Fin 256) (s : State) : Host.Outcome State Fault Refusal :=
  goLive (fun s => if handleNamed s h.val then s else closeHandle h.val s) s

end Sys2Proof.Machine
end

