-- ==== Sys2Proof/Machine/RetryOps.lean ====
section
/-! DEFINITION. Which level of escalation a failed data set comes to next (R84), and the passes of the retry menu (R159, R160, R161). -/

namespace Sys2Proof.Machine

/-- The decoder settings in force (R88). -/
def regsNow (s : State) : DecodeRegs := ⟨s.ecc.ldpcCfg, s.ecc.rsCfg, s.ecc.escCfg⟩

/-- ECC_ESC_CFG fields (Table 03-4). -/
def DecodeRegs.domeEn (r : DecodeRegs) : Bool := r.esc.getLsbD 0
def DecodeRegs.domeFirst (r : DecodeRegs) : Bool := r.esc.getLsbD 1
def DecodeRegs.mergeCopies (r : DecodeRegs) : Bool := r.esc.getLsbD 2

/-- The attempts that the menu gives now: up to MAX_ATTEMPTS, before the first entry with VALID = 0 (R159). -/
def menuNow (s : State) : List Word :=
  (s.tiles.retry.toList.take (bits s.tiles.retryCtl.toNat 0 4)).takeWhile fun w => w.getLsbD 31

/-- The level that a failed data set waits for under the settings it started with: 4 or 6 (dome), 5 (retry), or 0 when every level has failed
(R84, R88). -/
def nextLevel (f : FailedSet) : Nat :=
  if f.regs.domeFirst then
    if f.regs.domeEn && f.domes == 0 && !f.retried then 4
    else if !f.retried then 5
    else if f.regs.domeEn && decide (f.domes ≤ 1) then 6 else 0
  else if !f.retried then 5
  else if f.regs.domeEn && f.domes == 0 then 4 else 0

/-- Apply f to a failed data set. -/
def onFailed (n : Nat) (f : FailedSet → FailedSet) (s : State) : State :=
  s.onRd fun r => { r with failed := mapIf (fun x => x.n == n) f r.failed }

/-- A failed data set. -/
def failedSet (s : State) (n : Nat) : Option FailedSet := s.rd.failed.find? fun x => x.n == n

/-- A data set that every level has failed is counted (R86, Table 03-4). -/
def giveUp (n : Nat) (s : State) : State :=
  match failedSet s n with
  | some f =>
    if f.unrecoverable ∨ nextLevel f ≠ 0 then s
    else onFailed n (fun x => { x with unrecoverable := true }) (s.onEcc fun e => { e with cntUnrec := inc e.cntUnrec })
  | none => s

/-- The next failed data set whose turn at level 5 has come. -/
def retryNext (s : State) : Option FailedSet :=
  s.rd.failed.find? fun f => !f.unrecoverable && nextLevel f == 5

/-- r of an attempt, in 1/4,096 (Table 06-4). -/
def attemptRatio (s : State) (w : Nat) : Nat :=
  let x := bits w 0 13
  min (ratioCap s) (if x = 0 then max 1024 s.wvn.rCmd else max 1024 (min 4096 x))

/-- The lateral offset of an attempt, in 10 nm (Table 06-4). -/
def attemptOffset (w : Nat) : Int := max (-15) (min 15 (signed 6 (bits w 18 6)))

/-- Start pass k for a data set: its module, its offset, every channel afresh, and the RETRY_PASS program from one wedge interval before the
earliest copy to the end of the latest (R159 to R161). -/
def startPass (f : FailedSet) (k : Nat) (s : State) : State :=
  let w := (s.rd.menu.getD k 0).toNat
  let m := if w.testBit 13 then 1 - moduleOf f.wrap else moduleOf f.wrap
  let first := f.slots.foldl min (f.slots.headD 0)
  let last := f.slots.foldl max 0
  let r := attemptRatio s w
  let v : Rat := (r : Rat) / 4096 * (339 / 100)
  let ofs := attemptOffset w
  let s1 := s.onRd fun x => { x with retry := some (f.n, k), slot := first, wrap := f.wrap }
  let s2 := passChans (useModule m (askRatio r (s1.onWvn fun x => { x with run := .retry })))
  let s2 := if w.testBit 16 then frozenValues s2 else s2
  startProgram 7 (runStart .retry f.wrap first) (slotStart f.wrap (last + 1)).1 (umPerS (if f.wrap % 2 = 0 then v else -v)) (twos 32 ofs)
    (s2.onStp fun p => { p with retryOfs := ofs, latWrap := f.wrap, latRead := true })

/-- The first pass for the next failed data set that waits for level 5; the others wait their turn (R160). -/
def startRetry (s : State) : State :=
  match retryNext s with
  | none => s
  | some f =>
    let s1 := s.onRd fun r => { r with menu := menuNow s }
    if menuNow s = [] then s1 else startPass f 0 (keepValues s1)

/-- A read run has stopped for a retry: where it goes on is kept (R160). -/
def stoppedForRetry (s : State) : State :=
  if s.wvn.run = .reading ∧ (retryNext s).isSome then startRetry (s.onRd fun r => { r with resume := (r.wrap, r.slot) }) else s

/-- A failed data set waits for level 5 while no run is in hand and the tape stands: its passes begin from there (R84, R160). -/
def retryFromIdle (s : State) : State :=
  if s.wvn.run = .none ∧ s.wvn.state = .idle ∧ (retryNext s).isSome ∧ backlog s = 0 ∧ programAllowed s 7 then
    stoppedForRetry (setWvn .stopped (s.onWvn fun w => { w with run := .reading }))
  else s

/-- After the last attempt the run goes on where it stopped, with its own settings: the module of the wrap and no offset (R160, R161). -/
def endRetry (s : State) : State :=
  let a := s.rd.resume
  let s1 := (s.onRd fun r => { r with retry := none, menu := [], wrap := a.1, slot := a.2 }).onStp fun p => { p with retryOfs := 0 }
  passChans (useModule (moduleOf a.1) s1)

end Sys2Proof.Machine
end

