-- ==== Sys2Proof/Machine/Weathervane.lean ====
section
/-! DEFINITION. The commands of Weathervane: the 1 ms update (R119 to R122, R127), the voltage (R20, R126, R404) and the stops of the tape
(R129 to R131, R445). -/

namespace Sys2Proof.Machine

/-! ## The operating point (R125, R126) -/

/-- Bring the operating point in line with the band in force: the cold offset, the margin offset and the table act from the next update
(R125, R135). -/
def refreshVoltage (s : State) : State :=
  let mv := bandVoltage s s.wvn.band
  if mv = s.power.vop ∨ s.power.avsTarget = some mv ∨ s.wvn.vPending.isSome ∨ s.wvn.rPending.isSome ∨ s.power.avsFailed then s else avsWrite mv s

/-- SPEED_REACHED: Steeple reports the new speed within 1 %, and the voltage of a falling r follows (R20, R192). -/
def execSpeedReached (s : State) : Host.Outcome State Fault Refusal :=
  goLive (fun s => match s.wvn.vPending with
    | some mv => if speedNear s then avsWrite mv (s.onWvn fun w => { w with vPending := none }) else s
    | none => s) s

/-- A read-back lies within 5 mV of a target (R404). -/
def within5 (mv target : Nat) : Bool := decide (mv ≤ target + 5 ∧ target ≤ mv + 5)

/-- AVS_READBACK: within ±5 mV it acknowledges the write; a rise of r that waited for it goes on (R20, R404). -/
def readback (mv : Nat) (s : State) : State :=
  let s1 := s.onPower fun p => { p with vout := mv }
  match s.power.avsTarget with
  | some t =>
    if within5 mv t then
      let s2 := s1.onPower fun p => { p with vop := t, avsTarget := none, avsTries := 0, avsFailed := false, avsHold := false }
      match s.wvn.rPending with
      | some r =>
        let s3 := askRatio r (s2.onWvn fun w => { w with rPending := none })
        match s3.wvn.startDue with
        | some lpos => startTape r lpos s3
        | none => s3
      | none => s2
    else s1
  | none => s1

/-- AVS_READBACK (R404). -/
def execAvsReadback (mv : Nat) (s : State) : Host.Outcome State Fault Refusal := goLive (readback mv) s

/-- AVS_ACK_TIMEOUT: 2 ms without an acknowledgement; r is held from now on, up to three retries follow, then source 111 is raised (R126,
R404). -/
def execAvsAckTimeout (s : State) : Host.Outcome State Fault Refusal :=
  goLive (fun s => match s.power.avsTarget with
    | some t =>
      if s.power.avsFailed then s
      else if s.power.avsTries ≤ 3 then emit (.avsWrite t) (s.onPower fun p => { p with avsTries := p.avsTries + 1, avsHold := true })
      else raise 111 (s.onPower fun p => { p with avsFailed := true, avsHold := true, cntAvsFail := inc p.cntAvsFail })
    | none => s) s

/-- AVS_RETRY_PERIOD: a write that failed is tried again every 100 ms (R404). -/
def execAvsRetryPeriod (s : State) : Host.Outcome State Fault Refusal :=
  goLive (fun s => match s.power.avsTarget with
    | some t => if s.power.avsFailed then emit (.avsWrite t) s else s
    | none => s) s

/-- The margin lies below 8 %: the offset rises by 10 mV, and at 60 mV the margin cap goes one band below the r in force (R126). -/
def marginLow (s : State) : State :=
  if s.wvn.marginOfs < 60 then s.onWvn fun w => { w with marginOfs := min 60 (w.marginOfs + 10), marginMs := 0 }
  else
    let cap := bandOfR s.wvn.r - 1
    let s1 := s.onWvn fun w => { w with marginMs := 0, capM := min w.capM cap }
    if cap < s.wvn.capM then wvnRecord 0 s1 else s1

/-- The margin has stayed above 15 % for 1 s: a band that was removed comes back, else the offset falls by 5 mV (R126). -/
def marginHigh (s : State) : State :=
  if s.wvn.capM < 15 then s.onWvn fun w => { w with capM := w.capM + 1, marginMs := 0 }
  else s.onWvn fun w => { w with marginOfs := w.marginOfs - 5, marginMs := 0 }

/-- MARGIN_SAMPLE: one reading of the margin monitor, in 1/1,000 (R126). -/
def marginStep (permille : Nat) (s : State) : State :=
  let s1 :=
    if permille < 80 then marginLow s
    else if 150 < permille then
      let s0 := s.onWvn fun w => { w with marginMs := w.marginMs + 1 }
      if 1000 ≤ s0.wvn.marginMs then marginHigh s0 else s0
    else s.onWvn fun w => { w with marginMs := 0 }
  voltageCap s1

/-- MARGIN_SAMPLE (R126). -/
def execMarginSample (permille : Nat) (s : State) : Host.Outcome State Fault Refusal := goLive (marginStep permille) s

/-! ## The update (R119 to R122, R127) -/

/-- TAU_H, SLEW and DEADBAND in effect (R135). -/
def tauH (s : State) : Nat := max 1 (bits s.wvn.rate.toNat 0 8)
def slewOf (s : State) : Nat := max 1 (bits s.wvn.rate.toNat 8 8)
def deadband (s : State) : Nat := max 1 (bits s.wvn.setpt.toNat 16 8)

/-- |a − b| of two ratios. -/
def ratioGap (a b : Nat) : Nat := (a - b) + (b - a)

/-- Ticks of the millisecond in hand for which the host was stalled (R119). -/
def stalledTicks (s : State) : Nat := s.wvn.stallTicks + (if s.wr.stalled then s.power.time - s.wr.stallAt else 0)

/-- The update of H is skipped: a stall for more than half of the interval, a stop of the tape, a turnaround, or the fixed ratio (R119,
R122). -/
def skipH (s : State) : Bool :=
  decide (msTicks < 2 * stalledTicks s) || s.wvn.ctrl.getLsbD 0 ||
  match s.wvn.state with
  | .turn | .stopping | .stopped | .restart => true
  | .idle | .stream => false

/-- H after one update (R119). -/
def updateH (s : State) : State :=
  let x : Rat := 1000 * s.wvn.moved
  (s.onWvn fun w => { w with h := if skipH s then w.h else w.h + (x - w.h) / tauH s, moved := 0, stallTicks := 0,
                             rho := if reading s then 0 else rhoOf s }).onWr fun w => { w with stallAt := s.power.time }

/-- The set-point was still being slewed after the last update (R120, R121). -/
def slewLimited (s : State) : Bool := decide (deadband s ≤ ratioGap s.wvn.rCmd s.wvn.r)

/-- The integrator after one update: frozen by anti-windup, by the slew and outside STREAM (R120). -/
def nextInteg (s : State) : Rat :=
  if s.wvn.frozen || slewLimited s || s.wvn.state != .stream then s.wvn.integ
  else s.wvn.integ + gainScale s * (gainI s : Rat) / 4096 * fillError s / 1000

/-- r_ff + k K_P e + integ, clamped (R120). -/
def clampedLaw (s : State) (integ : Rat) : Rat :=
  clampRat (divRat s.wvn.h (19770000000 * (1 - (if reading s then 0 else rhoOf s))) + gainScale s * (gainP s : Rat) / 4096 * fillError s + integ)
    (1 / 4) 1

/-- Compute r_cmd: the law or the fixed ratio, under the caps; the integrator is held while r_cmd is at a cap of R223 (R120, R122, R125). -/
def command (s : State) : State :=
  if s.wvn.ctrl.getLsbD 0 then s.onWvn fun w => { w with rCmd := ratioNow s }
  else
    let i := nextInteg s
    let x := clampedLaw s i
    let s1 := s.onWvn fun w => { w with
      integ := i, frozen := decide (x = 1 / 4 ∨ x = 1) || decide (hardCap s < 4096 ∧ (hardCap s : Rat) ≤ 4096 * x) }
    s1.onWvn fun w => { w with rCmd := ratioNow s1 }

/-- Move r toward r_cmd, past the deadband and within the slew (R121). From an AVSBus command that was not acknowledged until one is, r is held
(R126). -/
def slew (s : State) : State :=
  let d := ratioGap s.wvn.rCmd s.wvn.r
  if d < deadband s ∨ s.power.avsHold then s.onWvn fun w => { w with slewRest := 0 }
  else
    let allow : Rat := s.wvn.slewRest + (64 * slewOf s : Rat) / 1000
    let step := min d ⌊allow⌋.toNat
    let s1 := s.onWvn fun w => { w with slewRest := if step = d then 0 else allow - step }
    if step = 0 then s1 else askRatio (if s.wvn.r < s.wvn.rCmd then s.wvn.r + step else s.wvn.r - step) s1

/-- Follow the turning points of r; a full swing above 0.05 within 10 s makes a record (R127). -/
def watchTurns (s : State) : State :=
  let r := s.wvn.r
  let u := s.power.time / msTicks
  let put := fun (l : List (Nat × Nat)) (s : State) => s.onWvn fun w => { w with turns := l.take 4, updates := w.updates + 1 }
  match s.wvn.turns with
  | [] => put [(r, u)] s
  | [a] => if r = a.1 then put [a] s else put [(r, u), a] s
  | a :: b :: rest =>
    if r = a.1 then put (a :: b :: rest) s
    else if decide (b.1 < a.1) = decide (a.1 < r) then put ((r, u) :: b :: rest) s
    else
      let s1 := put ((r, u) :: a :: b :: rest) s
      match rest with
      | c :: _ => if 1024 < 5 * ratioGap a.1 b.1 ∧ a.2 - c.2 < 10000 then wvnRecord 1 s1 else s1
      | [] => s1

/-- r_cmd has been at 0.25 for so many updates (R129). -/
def countDwell (s : State) : State := s.onWvn fun w => { w with dwellMs := if w.rCmd ≤ 1024 then w.dwellMs + 1 else 0 }

/-- A SYNC, a durable write, or another command waits for what is on its way to tape (Table 05-3). -/
def tapeAwaited (s : State) : Bool := s.wvn.run == .writing && s.host.cmds.any fun c => c.phase == .durableWait && !c.waits.isEmpty

/-- The configuration registers written since the last update take effect (R135). -/
def takeConfig (s : State) : State :=
  s.onWvn fun w => { w with
    ctrl := w.new.ctrl, fixed := w.new.fixed, setpt := w.new.setpt, gain := w.new.gain, rate := w.new.rate, bh := w.new.bh,
    bh2 := w.new.bh2, vtable := w.new.vtable }

/-- One update at a millisecond of the time base: the registers written, H, the command, the slew, the voltage, the stall count, and what
STOPPED and IDLE ask for (R118 to R129, R135). -/
def weathervaneUpdate (s : State) : State :=
  let s0 := takeConfig (advanceTo ((s.power.time / msTicks + 1) * msTicks) s)
  let s1 := updateH (if s0.wr.stalled then s0.onWvn fun w => { w with cntStall := inc w.cntStall } else s0)
  let s2 := if s1.wvn.state = .stream then countDwell (watchTurns (slew (command s1))) else s1
  kickWrites false (restartIfAsked (tapeAwaited s2) (updateStall (refreshVoltage (voltageCap s2))))

/-- WVN_UPDATE (R120). -/
def execWvnUpdate (s : State) : Host.Outcome State Fault Refusal := goLive weathervaneUpdate s

/-! ## STOPPING, STOPPED and RESTART (R129 to R131, R445) -/

/-- Enter STOPPING: reading reads no further slot and the backhitch begins; writing goes on to its last verified slot (Table 05-3). -/
def enterStopping (s : State) : State :=
  let s1 := setWvn .stopping s
  if reading s then startBackhitch (s1.onRd fun r => { r with active := false }) else backhitchIfDone s1

/-- The fill lets the tape stop: little to write, or read-ahead near its top (R129). -/
def mayStop (s : State) : Bool :=
  if reading s then decide (raStop s * regionSize s ≤ 256 * raFill s)
  else s.wvn.ctrl.getLsbD 1 && decide (256 * backlog s ≤ bhStop s * (20 * gib))

/-- BH_DWELL_EXPIRY (R129): r_cmd has stayed at 0.25 for BH_DWELL ms. -/
def execBhDwellExpiry (s : State) : Host.Outcome State Fault Refusal :=
  goLive (fun s => if s.wvn.state = .stream ∧ bhDwell s ≤ s.wvn.dwellMs ∧ mayStop s then enterStopping s else s) s

/-- The tape has stopped: STOPPED is entered and counted (R129, R135). -/
def enterStopped (s : State) : State :=
  setWvn .stopped (s.onWvn fun w => { w with cntBh := inc w.cntBh, r := 0, stoppedAt := s.power.time })

/-- BACKHITCH_STOPPED: the last slot is verified or read, and the tape stands after its backhitch (R129). -/
def execBackhitchStopped (s : State) : Host.Outcome State Fault Refusal :=
  goLive (fun s =>
    if s.wvn.state = .stopping then
      (if s.stp.mode = .still ∧ !s.stp.program.running then restartIfAsked false (stoppedForRetry (enterStopped s)) else backhitchIfDone s)
    else s) s

/-- BH_MAX_WAIT_EXPIRY: data has waited BH_MAX_WAIT ms in STOPPED (R129). -/
def execBhMaxWaitExpiry (s : State) : Host.Outcome State Fault Refusal :=
  goLive (fun s =>
    if s.wvn.state = .stopped ∧ s.wvn.run = .writing ∧ 0 < backlog s then restart (advanceTo (s.wvn.stoppedAt + bhMaxWait s * msTicks) s)
    else s) s

/-- No work is pending for the run that has stopped. -/
def noWork (s : State) : Bool :=
  match s.wvn.run with
  | .writing => !(s.wr.sets.any uncommitted) && s.wr.rewrites.isEmpty
  | .reading => !(s.host.cmds.any fun c => c.phase == .started && opcodeOf c.entry ∈ [opRead, opVerify, opSpace, opLocate])
  | .none => true
  | .retry => false

/-- STOPPED_IDLE_TIMEOUT: no work for 60 s, and the run ends (R129). -/
def execStoppedIdleTimeout (s : State) : Host.Outcome State Fault Refusal :=
  goLive (fun s =>
    if s.wvn.state = .stopped ∧ noWork s then endRun ((advanceTo (s.wvn.stoppedAt + 60000 * msTicks) s).onRd fun r => { r with active := false })
    else s) s

/-- RESTART_RESUME: at speed before the resume slot, with PES_GOOD met, the run streams on behind the last slot written or read (R129,
R130); a data set that needs level 5 stops a read run again (R131, R160). -/
def execRestartResume (s : State) : Host.Outcome State Fault Refusal :=
  goLive (fun s =>
    if s.wvn.state = .restart ∧ s.stp.mode = .track ∧ speedNear s ∧ pesGoodNeed s ≤ s.wr.pesGood then
      let s1 := (setWvn .stream s).onWvn fun w => { w with dwellMs := 0, frozen := false }
      if reading s then
        let t := s1.onRd fun r => { r with active := true }
        if (retryNext t).isSome then enterStopping t else t
      else s1.onWr fun w => { w with noFirst := false, anchor := none, slot := w.resumeAt }
    else s) s

/-- A run or a RESTART that Steeple refused begins again once Steeple takes the START program (R445). -/
def resumeRuns (s : State) : State :=
  if s.wvn.refused && programAllowed s 2 then
    match s.wvn.state with
    | .idle =>
      (match s.wvn.run with
       | .none => s.onWvn fun w => { w with refused := false }
       | k => let a := resumeSlot s; beginRun k a.1 a.2 s)
    | .stopped => restart s
    | .stream | .turn | .stopping | .restart => s
  else s

end Sys2Proof.Machine
end

