-- ==== Sys2Proof/Machine/Serve.lean ====
section
/-! DEFINITION. Serving READ, VERIFY and SPACE: the data sets a reading command sees, the walk that finds an object in them, the early ends
of Table 12-10, and the tape that they ask for (R132, R325 to R327). -/

namespace Sys2Proof.Machine

/-! ## The data sets of a partition as reading sees them -/

/-- A user data set whose record table can be read, in read-ahead or in write staging. -/
structure SrcSet where
  n : Option Nat
  /-- the level it decoded at; 0 for one in staging -/
  level : Nat
  /-- the slot that decrypted it -/
  key : Option Nat
  /-- it is encrypted -/
  coded : Bool
  firstLon : Nat
  lead : Nat
  stream : Bytes
  entries : List RecEntry
  deriving DecidableEq, Repr

/-- What stands in the place of a data set, in the order of R56. -/
inductive Src where
  | known (d : SrcSet)
  /-- decoded and not decrypted: its level, FIRST_LON -/
  | coded (level firstLon : Nat)
  /-- not to be had: the status for its objects, and FIRST_LON where known -/
  | closed (st : Nat) (firstLon : Option Nat)
  /-- waits for a further level of decoding -/
  | pending
  /-- what lies here is only on tape: between read-ahead and write staging, or content of read-ahead that has gone -/
  | gap
  deriving DecidableEq, Repr

/-- FIRST_LON of the next data set: the last object's LON when it continues, else one more (R50). -/
def SrcSet.next (d : SrcSet) : Nat :=
  match d.entries.getLast? with
  | some e => if e.mark || e.last then e.lon + 1 else e.lon
  | none => d.firstLon

/-- A read-ahead data set as a command with this byte 5 sees it; without decryption an encrypted one stays as it is (R66, R252, R325). -/
def raSrc (s : State) (byte5 : Nat) (noDec : Bool) (r : RaSet) : Src :=
  let d := descriptorOf r.payload
  if formatMax < d.revision then .closed 0x0410 (some d.firstLon)
  else if d.cipher ≠ 0 ∧ noDec then .coded r.level d.firstLon
  else if d.cipher ≠ 0 ∧ decryptSlot s byte5 d.keyId = none then .closed 0x0305 (some d.firstLon)
  else match r.plain with
    | none => .coded r.level d.firstLon
    | some user =>
      if tableOk user d then
        .known { n := some r.n, level := r.level, key := r.keySlot, coded := d.cipher != 0, firstLon := d.firstLon, lead := d.lead,
                 stream := user.take d.stream,
                 entries := (objectsOf user d).filter fun e => match r.stop with | some x => decide (e.lon < x) | none => true }
      else .closed 0x0300 (some d.firstLon)

/-- A failed data set as a command sees it (R86, R261). -/
def failedSrc (f : FailedSet) : Src := if f.unrecoverable then .closed (if f.tagFailed then 0x0301 else 0x0300) none else .pending

/-- KEY_ID of a staged encrypted data set: its key generation's, or its descriptor's once it is sealed. -/
def stagedKeyId (s : State) (d : DataSet) : Bytes :=
  if d.payload = [] then (match genOf s d.sel.slot d.sel.gen with | some g => g.keyId | none => []) else (descriptorOf d.payload).keyId

/-- A staged data set as a command sees it (R285). -/
def stagedSrc (s : State) (byte5 : Nat) (noDec : Bool) (d : DataSet) : Src :=
  if d.sel.cipher ≠ 0 ∧ !noDec ∧ decryptSlot s byte5 (stagedKeyId s d) = none then .closed 0x0305 (some d.firstLon)
  else .known { n := d.n, level := 0, key := if d.sel.cipher = 0 then none else some d.sel.slot, coded := d.sel.cipher != 0,
                firstLon := d.firstLon, lead := d.lead, stream := d.stream, entries := d.entries }

/-- Put a source into a list by N. -/
def srcInsert (x : Nat × Src) : List (Nat × Src) → List (Nat × Src)
  | [] => [x]
  | y :: l => if x.1 < y.1 then x :: y :: l else y :: srcInsert x l

/-- A read-ahead data set holds user data; a parity set has no descriptor (R44). -/
def userSet (r : RaSet) : Bool :=
  let d := descriptorOf r.payload
  !isParityN r.n && (d.kind == 0 || decide (formatMax < d.revision))

/-- What read-ahead holds of a partition's user data, by N. -/
def tapeSrcs (s : State) (p byte5 : Nat) (noDec : Bool) : List (Nat × Src) :=
  let held := (s.rd.sets.filter fun r => r.part == p && userSet r).map fun r => (r.n, raSrc s byte5 noDec r)
  let lost := (s.rd.failed.filter fun f => f.part == p).map fun f => (f.n, failedSrc f)
  let again := (s.rd.holes.filter fun h => partOf h.1 == p).map fun h => (h.1, Src.gap)
  (held ++ lost ++ again).foldr srcInsert []

/-- What write staging holds of a partition's user data beyond read-ahead. -/
def stagedSrcs (s : State) (p byte5 : Nat) (noDec : Bool) : List Src :=
  (s.wr.sets.filter fun d => d.part == p && d.kind == .user && !(s.rd.sets.any fun r => some r.n == d.n)).map (stagedSrc s byte5 noDec)

/-- FIRST_LON of a source, where it is known. -/
def Src.first : Src → Option Nat
  | .known d => some d.firstLon
  | .coded _ f => some f
  | .closed _ f => f
  | .pending => none
  | .gap => none

/-- Ignore what a later data set's lower FIRST_LON makes stale; with the list, the lowest FIRST_LON in it (R56). -/
def cutStale : List Src → List Src × Option Nat
  | [] => ([], none)
  | x :: l =>
    let r := cutStale l
    let low := match x.first, r.2 with
      | some a, some b => some (min a b)
      | some a, none => some a
      | none, b => b
    match x, r.2 with
    | .known d, some f => (.known (if f < d.next then { d with entries := d.entries.filter fun e => decide (e.lon < f) } else d) :: r.1, low)
    | y, _ => (y :: r.1, low)

/-- The sources of a partition in order. Staging follows read-ahead at once when their objects join. -/
def sources (s : State) (p byte5 : Nat) (noDec : Bool) : List Src :=
  let tape := (tapeSrcs s p byte5 noDec).map (·.2)
  let staged := stagedSrcs s p byte5 noDec
  let joined := match tape.getLast?, staged.head? with
    | some (.known d), some x => some d.next == x.first
    | _, _ => false
  (cutStale (tape ++ (if joined || staged.isEmpty then [] else [.gap]) ++ staged)).1

/-! ## Finding an object -/

/-- An object found whole: a mark, or a record with its blocks' entries and frames. -/
structure Obj where
  mark : Bool
  group : Bool
  blocks : List (RecEntry × Bytes)
  /-- numbers of the data sets it lies in -/
  deps : List Nat
  /-- the highest level one of them decoded at -/
  level : Nat
  /-- where its bytes end in each of them -/
  ends : List (Nat × Nat)
  /-- slots that decrypted them -/
  keys : List Nat
  /-- it lies in encrypted data -/
  coded : Bool
  /-- its table is not read: a VERIFY without decryption passes it -/
  opaque_ : Bool
  deriving DecidableEq, Repr

/-- The outcome of the walk for an object. -/
inductive Found where
  | object (o : Obj)
  /-- it is being decoded or decrypted -/
  | wait
  | stop (st : Nat)
  /-- it lies beyond what is held: the tape has to be read -/
  | past
  deriving DecidableEq, Repr

/-- Nothing of an object yet. -/
def noObj : Obj := ⟨false, false, [], [], 0, [], [], false, false⟩

/-- An object that lies in encrypted data which is not decrypted. -/
def codedObj (level : Nat) : Obj := { noObj with level := level, coded := true, opaque_ := true }

/-- Bytes that the last block of an object still lacks. -/
def Obj.lacks (o : Obj) : Nat := match o.blocks.getLast? with | some b => b.1.stored - b.2.length | none => 0

/-- The object's last block is there in full and ends it. -/
def Obj.whole (o : Obj) : Bool :=
  match o.blocks.getLast? with
  | some b => b.1.last && decide (b.1.stored ≤ b.2.length)
  | none => false

/-- The object with bytes more for its last block. -/
def Obj.extend (o : Obj) (bs : Bytes) : Obj :=
  match o.blocks.getLast? with
  | some b => { o with blocks := o.blocks.dropLast ++ [(b.1, b.2 ++ bs)] }
  | none => o

/-- The object with a data set's blocks of it. -/
def Obj.take (o : Obj) (d : SrcSet) (es : List RecEntry) : Obj :=
  { o with
    group := o.group || es.any (·.group), deps := o.deps ++ d.n.toList, level := max o.level d.level,
    keys := o.keys ++ d.key.toList, coded := o.coded || d.coded,
    ends := o.ends ++ d.n.toList.map fun n => (n, min d.stream.length (match es.getLast? with | some e => e.offset + e.stored | none => d.lead)),
    blocks := o.blocks ++ es.map fun e => (e, slice d.stream e.offset (min e.stored (d.stream.length - e.offset))) }

/-- The rest of a record that has begun: it continues in the data sets that follow with its LON as their FIRST_LON (R49, R50). -/
def gather (x : Nat) (o : Obj) : List Src → Found
  | [] => .past
  | .gap :: _ => .past
  | .pending :: _ => .wait
  | .coded _ _ :: _ => .wait
  | .closed st _ :: _ => .stop st
  | .known d :: rest =>
    if d.firstLon ≠ x then .stop 0x0300
    else
      let o1 := o.extend (d.stream.take (min o.lacks d.lead))
      let es := if 0 < o1.lacks then [] else d.entries.filter fun e => decide (e.lon = x) && !e.first && !e.mark
      let o2 := o1.take d es
      if o2.whole then .object o2 else gather x o2 rest

/-- An entry begins object x. -/
def begins (x : Nat) (e : RecEntry) : Bool := decide (e.lon = x) && (e.mark || e.first)

/-- Object x begins in this data set. -/
def startIn (x : Nat) (d : SrcSet) (rest : List Src) : Found :=
  let es := d.entries.filter fun e => decide (e.lon = x) && (e.mark || e.first || (d.entries.any (begins x)))
  match es with
  | e :: _ =>
    if e.mark then .object { noObj with mark := true, deps := d.n.toList, level := d.level, keys := d.key.toList, coded := d.coded }
    else
      let o := noObj.take d es
      if o.whole then .object o else gather x o rest
  | [] => .past

/-- A data set shows that object x, which it does not begin, stands nowhere after it. -/
def passes (x : Nat) (d : SrcSet) : Bool :=
  decide (x < d.firstLon) || d.entries.any (fun e => decide (x < e.lon)) ||
  (decide (d.firstLon = x) && (decide (0 < d.lead) || (match d.entries.head? with | some e => !e.mark && !e.first | none => false)))

/-- What the end of an encrypted data set that is not decrypted says of object x (R325). -/
def codedFound (noDec ended : Bool) (level : Nat) (x : Nat) : List Src → Option Found
  | [] => if noDec && ended then some (.object (codedObj level)) else none
  | y :: _ =>
    if !noDec then none
    else match y, y.first with
      | .pending, _ => some .wait
      | .closed st none, _ => some (.stop st)
      | _, some g => if x < g then some (.object (codedObj level)) else none
      | _, none => none

/-- Walk the sources for object x. miss: the outcome once a later object shows that x is in none of them; last: the object that follows the
data set before; front: that object, when what comes after it cannot be read. -/
def seek (x : Nat) (noDec ended : Bool) (miss : Found) (last front : Option Nat) : List Src → Found
  | [] => if ended || front == some x then miss else .past
  | .gap :: rest => seek x noDec false .past none none rest
  | .pending :: rest => seek x noDec ended .wait none last rest
  | .closed st f :: rest =>
    match f with
    | some g => if x < g then miss else if x = g then .stop st else seek x noDec ended (.stop st) none none rest
    | none => seek x noDec ended (.stop st) none last rest
  | .coded level g :: rest =>
    if x < g then miss
    else if !noDec && x == g then .wait
    else match codedFound noDec ended level x rest with
      | some f => f
      | none => seek x noDec ended (if noDec then .object (codedObj level) else .wait) none none rest
  | .known d :: rest =>
    if d.entries.any (begins x) then startIn x d rest
    else if passes x d then miss
    else seek x noDec ended (.stop 0x0300) (some d.next) none rest

/-- The reading command asks for no decryption (R325). -/
def noDecrypt (c : Cmd) : Bool := opcodeOf c.entry == opVerify && (specField c.entry 48 1).testBit 1

/-- The run in hand covers object x of a partition. -/
def covered (s : State) (p x : Nat) : Bool :=
  s.rd.part == p && (match s.rd.covers with | some f => decide (f ≤ x) | none => false)

/-- Find object x for a command (R50, R56). -/
def findObj (s : State) (c : Cmd) (x : Nat) : Found :=
  let p := partField c.entry
  let cov := covered s p x
  seek x (noDecrypt c) (cov && s.rd.ended) (if cov then .stop 0x0300 else .past) none none (sources s p (slotField c.entry) (noDecrypt c))

/-! ## The tape for reading (R132, R134, R445) -/

/-- Where reading has to begin for object x of a partition: wrap, slot and N of the last known data set whose first object lies below x,
from the locate index and the wrap table, else the partition's first slot (R61, R157). -/
def readStart (s : State) (p x : Nat) : Nat × Nat × Option Nat :=
  match s.drive.vol with
  | none => (0, 0, none)
  | some v =>
    let ws := ((List.range v.wraps.length).zip v.wraps).filter fun w => w.2.1 ≠ 0 && w.2.2.1 == p
    let marks := (v.index.filter fun i => ws.any fun w => w.1 == i.1).map (fun i => (i.2.2.2.2, i.1, i.2.2.2.1, i.2.2.1)) ++
      ws.map fun w => (w.2.2.2.2.2.2, w.1, 0, w.2.2.2.1)
    let best : Option (Nat × Nat × Nat × Nat) := (marks.filter fun m => decide (m.1 < x)).foldl (fun (b : Option (Nat × Nat × Nat × Nat)) m =>
      match b with
      | some y => if y.1 < m.1 then some m else b
      | none => some m) none
    match best with
    | some m => (m.2.1, m.2.2.1, some m.2.2.2)
    | none => ((partAt s p).firstWrap, 0, none)

/-- A read run begins for object x: what read-ahead held of elsewhere goes (R132). -/
def startReadRun (p x : Nat) (s : State) : State :=
  let a := readStart s p x
  let s1 := (discardReadAhead s).onRd fun r => { r with
    part := p, wrap := a.1, slot := a.2.1, covers := some x, active := true, expected := a.2.2.map fun n => (n, a.2.1) }
  beginRun .reading a.1 a.2.1 s1

/-- A write run makes way for reading once all it was given is on tape and verified; until then its EODs are asked for (Table 05-3). -/
def endWrites (s : State) : State :=
  let s1 := forEach (List.range 4) (fun p t => if (partAt t p).dirty then stageEod p (eodLon t p) t else t) s
  if s1.wr.sets.any uncommitted || !allVerified s1 then kickWrites true (restartIfAsked true s1) else endRun s1

/-- The first data set of a partition whose content has gone from read-ahead (R117, R132). -/
def firstHole (s : State) (p : Nat) : Option (Nat × Nat × Nat) :=
  (s.rd.holes.filter fun h => partOf h.1 == p).foldl (fun (b : Option (Nat × Nat × Nat)) h =>
    match b with
    | some y => if h.1 < y.1 then some h else b
    | none => some h) none

/-- A read run begins for object x: at the first data set whose content has gone, what is kept staying, or afresh (R117, R132). -/
def readFor (p x : Nat) (s : State) : State :=
  match (if covered s p x then firstHole s p else none) with
  | some h =>
    beginRun .reading h.2.1 h.2.2 (s.onRd fun r => { r with
      wrap := h.2.1, slot := h.2.2, active := true, ended := false, expected := some (h.1, h.2.2) })
  | none => startReadRun p x s

/-- Object x of a partition has to be read from tape for a started command: the run that covers it goes on, or another begins. -/
def needTape (c : Cmd) (x : Nat) (s : State) : State :=
  let p := partField c.entry
  match s.wvn.run with
  | .none => if 0 < backlog s then endWrites s else readFor p x s
  | .writing => let s1 := endWrites s; if s1.wvn.run = .none ∧ backlog s1 = 0 then readFor p x s1 else s1
  | .reading =>
    if covered s p x then (if (firstHole s p).isNone then restartIfAsked true s else readFor p x (endRun s)) else startReadRun p x (dropReads s)
  | .retry => s

/-! ## Serving one command -/

/-- A reading command ends: its status under R327, its RESULT, and the position after it (R326). -/
def endRead (c : Cmd) (st : Nat) (s : State) : State :=
  match cmdOf s c.qid c.tag with
  | none => s
  | some d =>
    let final := prevails (d.met ++ [st])
    let s1 := onVol (fun v => { v with posPart := partField d.entry, posLon := d.lon }) s
    if final = 0x0301 ∨ final = 0x0302 then endZeroed d final s1 else finishCmd d.qid d.tag final d.count none s1

/-- The bytes of the record in hand that have been transferred are zeroed (R237, R326). -/
def zeroRecord (c : Cmd) (s : State) : State :=
  if c.inRec = 0 then s else onCmd c.qid c.tag (fun d => { d with inRec := 0 }) (writeBuffer c.qid c.tag c.used (zeros c.inRec) s)

/-- End early at the object in hand, its bytes zeroed (Table 12-10). -/
def endAt (c : Cmd) (st : Nat) (s : State) : State := endRead c st (zeroRecord c s)

/-- Write the object-list entry of an object (R325). -/
def listEntry (c : Cmd) (x len kind : Nat) (group : Bool) (s : State) : State :=
  if dp1 c.entry = 0 then s
  else hostWrites c.qid c.tag [(dp1 c.entry + 16 * c.count, le 8 x ++ le 4 len ++ le 1 kind ++ le 1 group.toNat ++ zeros 2)] s

/-- Uncompressed length of a record. -/
def Obj.length (o : Obj) : Nat := (o.blocks.map fun b => b.1.length).sum

/-- The list length of an object: a free value where its table is not read (log 6). -/
def listLength (s : State) (o : Obj) : Nat := if o.opaque_ then ⌊Config.freeRat s.fresh⌋.toNat % 2 ^ 32 else o.length

/-- Its KIND there, likewise. -/
def listKind (s : State) (o : Obj) : Nat := if o.mark || (o.opaque_ && Config.choice s.fresh) then 2 else 1

/-- Stream bytes of an object's data sets are consumed (R119, R133). -/
def useSets (o : Obj) (s : State) : State :=
  s.onRd fun r => { r with sets := r.sets.map fun x => match o.ends.find? fun e => e.1 == x.n with
    | some e => { x with used := max x.used e.2 }
    | none => x }

/-- An object lies in read-ahead. -/
def inReadAhead (s : State) (o : Obj) : Bool := !o.deps.isEmpty && o.deps.all fun n => s.rd.sets.any fun r => r.n == n

/-- Read-ahead goes when a SPACE passes an object outside it, or any reading command one of another partition outside it (R132). -/
def leaveReadAhead (c : Cmd) (o : Obj) (s : State) : State :=
  if !inReadAhead s o && !o.opaque_ && (opcodeOf c.entry == opSpace || partField c.entry != s.rd.part) then dropReads s else s

/-- An object has been passed: its list entry, the counts, what decrypted it, and 0x0001 when a set of it needed level 4 or above. -/
def passObj (c : Cmd) (x next : Nat) (o : Obj) (s : State) : State :=
  let s1 := listEntry c x (if o.mark then 0 else listLength s o) (listKind s o) o.group s
  let s2 := if o.opaque_ then draw s1 else s1
  let keys := if noDecrypt c then [] else o.keys.map fun k => (k, match curGen s k with | some g => g.num | none => 0)
  onCmd c.qid c.tag (fun d => { d with
    count := d.count + 1, lon := next, inRec := 0, used := d.used + (if opcodeOf d.entry = opRead then (if o.mark then 0 else o.length) else 0),
    met := if 4 ≤ o.level && !d.met.contains 0x0001 then d.met ++ [0x0001] else d.met,
    keys := d.keys ++ keys.filter fun k => !d.keys.contains k })
    ((useSets o (leaveReadAhead c o s2)).onRd fun r => { r with packets := r.packets.filter fun k => !(k.part == partField c.entry && k.lon == x) })

/-- The packet of a block, once it has committed (R19). -/
def packetOf (s : State) (p x b : Nat) : Option HostPacket :=
  s.rd.packets.find? fun k => k.part == p && k.lon == x && k.block == b && k.committed

/-- A block's frame is in decompression or its output waits to commit. -/
def blockUnderWay (s : State) (p x b : Nat) : Bool :=
  (s.rd.packets.any fun k => k.part == p && k.lon == x && k.block == b) ||
  (s.cz.decomp.toList.any fun l => l.any fun i => i.part == p && i.lon == x && i.block == b)

/-- Hand a record's frames that are not under way to the engines; what leaves read-ahead counts toward the host's rate (R119, R237). -/
def submitBlocks (p x : Nat) (o : Obj) (s : State) : State :=
  let new := ((List.range o.blocks.length).zip o.blocks).filter fun b => !blockUnderWay s p x b.1
  let count := if inReadAhead s o then (new.map fun b => b.2.2.length).sum else 0
  useSets o <| (fun (t : State) => t.onWvn fun w => { w with moved := w.moved + count }) <| forEach ((List.range o.blocks.length).zip o.blocks) (fun b t =>
    if blockUnderWay t p x b.1 then t
    else toDecomp { part := p, lon := x, block := b.1, last := b.2.1.last, frame := b.2.2, length := b.2.1.length, deps := o.deps } t) s

/-- The blocks of a record that have committed, from its first on. -/
def readyBytes (s : State) (p x n : Nat) : List Bytes := ((List.range n).map fun b => packetOf s p x b).takeWhile (·.isSome) |>.map fun k =>
  match k with | some y => y.bytes | none => []

/-- What one round did for a command: it goes on with its next object, or stands. -/
abbrev Round := State × Bool

/-- READ or VERIFY of the record x: transfer what has committed, and pass it once it is whole (R19, R237, R325). -/
def serveRecord (c : Cmd) (x : Nat) (o : Obj) (s : State) : Round :=
  let p := partField c.entry
  let toHost := opcodeOf c.entry == opRead
  if toHost && decide (lengthField c.entry < c.used + o.length) then
    (endRead c 0x0404 (listEntry c x o.length 0x81 o.group s), false)
  else if noDecrypt c && o.coded then (passObj c x (x + 1) o s, true)
  else if s.rd.badBlocks.any fun b => b.1 == p && b.2.1 == x then (endAt c 0x0304 s, false)
  else
    let done := readyBytes s p x o.blocks.length
    let new := (done.flatten).drop c.inRec
    let s1 := if toHost && !new.isEmpty then
        onCmd c.qid c.tag (fun d => { d with inRec := d.inRec + new.length }) (writeBuffer c.qid c.tag (c.used + c.inRec) new s) else s
    if done.length = o.blocks.length then (passObj c x (x + 1) o s1, true) else (submitBlocks p x o s1, false)

/-- One round of a READ or VERIFY (R325, R326). -/
def serveRead (c : Cmd) (s : State) : Round :=
  let p := partField c.entry
  if countField c.entry ≤ c.count then (endRead c 0 s, false)
  else if logicalEndOf s p ≤ c.lon then (endRead c 0x0401 s, false)
  else match findObj s c c.lon with
    | .past => if tapeDead s then (endAt c 0x0416 s, false) else (needTape c c.lon s, false)
    | .wait => (s, false)
    | .stop st => (endAt c st s, false)
    | .object o =>
      if o.mark then
        let s1 := passObj c c.lon (c.lon + 1) o s
        if (specField c.entry 48 1).testBit 0 then (s1, true) else (endRead c 0x0400 s1, false)
      else serveRecord c c.lon o s

/-- COUNT of a SPACE, signed (R325). -/
def spaceCount (c : Cmd) : Int := signed 64 (countField c.entry)

/-- UNIT of a SPACE. -/
def spaceUnit (c : Cmd) : Nat := specField c.entry 48 1

/-- A SPACE goes backward. -/
def spaceBack (c : Cmd) : Bool := decide (spaceCount c < 0)

/-- A SPACE has passed what it was asked to; used counts the units. -/
def spaceDone (c : Cmd) : Bool := spaceUnit c != 2 && decide ((spaceCount c).natAbs ≤ c.used)

/-- Pass an object of a SPACE forward or backward (R325, R326). -/
def spacePass (c : Cmd) (x next : Nat) (o : Obj) (s : State) : Round :=
  let s1 := onCmd c.qid c.tag (fun d => { d with used := if spaceUnit d = 1 && !o.mark then d.used else d.used + 1 }) (passObj c x next o s)
  if o.mark ∧ spaceUnit c = 0 then (endRead c 0x0400 s1, false) else (s1, true)

/-- One round of a SPACE. -/
def serveSpace (c : Cmd) (s : State) : Round :=
  let e := logicalEndOf s (partField c.entry)
  let x := if spaceBack c then c.lon - 1 else c.lon
  if spaceDone c then (endRead c 0 s, false)
  else if spaceBack c ∧ c.lon = 0 then (endRead c 0x0405 s, false)
  else if !spaceBack c ∧ e ≤ c.lon then (endRead c (if spaceUnit c = 2 then 0 else 0x0401) s, false)
  else if spaceUnit c = 2 ∧ dp1 c.entry = 0 then
    (endRead c 0 (onCmd c.qid c.tag (fun d => { d with count := d.count + (e - d.lon), lon := e }) s), false)
  else match findObj s c x with
    | .past => if tapeDead s then (endRead c 0x0416 s, false) else (needTape c x s, false)
    | .wait => (s, false)
    | .stop st => (endRead c st s, false)
    | .object o => spacePass c x (if spaceBack c then x else x + 1) o s

/-- Rounds of a command while each passes an object. -/
def serveRounds (q tag : Nat) : Nat → State → State
  | 0, s => s
  | k + 1, s =>
    match cmdOf s q tag with
    | none => s
    | some c =>
      if c.phase ≠ .started then s
      else
        let r := if opcodeOf c.entry = opSpace then serveSpace c s else serveRead c s
        if r.2 then serveRounds q tag k r.1 else r.1

/-- Objects that a command can still pass, with one round to end it. -/
def roundsFor (s : State) (c : Cmd) : Nat := logicalEndOf s (partField c.entry) + c.lon + 2

/-- Reading opcodes. -/
def isReading (c : Cmd) : Bool := opcodeOf c.entry == opRead || opcodeOf c.entry == opVerify || opcodeOf c.entry == opSpace

/-- The last LON with a byte in a data set whose table is given. -/
def lastLon (firstLon : Nat) (es : List RecEntry) : Nat := match es.getLast? with | some e => e.lon | none => firstLon

/-- Read-ahead that lies below what the run was begun for, or below the position and every started command's place, is used up (R133). -/
def dropConsumed (s : State) : State :=
  let p := s.rd.part
  let low := max (s.rd.covers.getD 0) <| ((s.host.cmds.filter fun c => isReading c && c.phase == .started && partField c.entry == p).map fun c =>
      if opcodeOf c.entry = opSpace ∧ spaceBack c then 0 else c.lon).foldl min
    (match s.drive.vol with | some v => if v.posPart = p then v.posLon else 0 | none => 0)
  let gone := s.rd.sets.filter fun r =>
    match r.plain with
    | some user =>
      let d := descriptorOf r.payload
      userSet r && r.part == p && tableOk user d &&
        decide (lastLon d.firstLon (objectsOf user d) < low)
    | none => false
  if gone.isEmpty then s
  else s.onRd fun r => { r with
    sets := r.sets.filter (fun x => !(gone.any fun g => g.n == x.n || (!userSet x && decide (x.n < g.n)))),
    holes := r.holes.filter (fun h => !(gone.any fun g => decide (h.1 < g.n))), covers := r.covers.map fun f => max f low }

/-- Serve one reading command as far as it goes. -/
def serveCmd (q tag : Nat) (s : State) : State :=
  match cmdOf s q tag with
  | none => s
  | some c =>
    if !isReading c ∨ c.phase ≠ .started then s
    else if s.drive.vol = none then endRead c 0x0411 s
    else if !(partAt s (partField c.entry)).inUse then endRead c 0x0101 s
    else dropConsumed (serveRounds q tag (roundsFor s c) s)

/-- Commands that wait for objects from the tape. -/
def readWaits (s : State) : Bool := s.host.cmds.any fun c => (isReading c || opcodeOf c.entry == opLocate) && c.phase == .started

/-- A command waits for a data set that needs level 4 or above: a stopped tape goes on for it, and one that no run uses is moved (R84, R131,
R160). -/
def wakePending (s : State) : State :=
  if readWaits s && s.rd.failed.any (fun f => !f.unrecoverable) then retryFromIdle (restartIfAsked true s) else s

/-- Serve every started reading command, in submission order. -/
def serveAll (s : State) : State :=
  wakePending (forEach ((byOrder s.host.cmds).filter fun c => isReading c && c.phase == .started) (fun c => serveCmd c.qid c.tag) s)

/-- READ (R325). -/
def execRead (q : Fin 256) (tag : BitVec 16) (s : State) : Host.Outcome State Fault Refusal :=
  goLive (fun s => match startedCmd s q.val tag.toNat opRead with | some c => serveCmd c.qid c.tag s | none => s) s

/-- VERIFY (R325). -/
def execVerify (q : Fin 256) (tag : BitVec 16) (s : State) : Host.Outcome State Fault Refusal :=
  goLive (fun s => match startedCmd s q.val tag.toNat opVerify with | some c => serveCmd c.qid c.tag s | none => s) s

/-- SPACE (R325). -/
def execSpace (q : Fin 256) (tag : BitVec 16) (s : State) : Host.Outcome State Fault Refusal :=
  goLive (fun s => match startedCmd s q.val tag.toNat opSpace with | some c => serveCmd c.qid c.tag s | none => s) s

/-- READ_AHEAD: the run ends at the EOD in force or at the end of the partition, keeping what it has read; with read-ahead at
R_SET / 256 of its size and no command waiting it stops once r_cmd has stayed at 0.25 for BH_DWELL ms; else it reads on (R22, R130, R132). -/
def readAhead (s : State) : State :=
  if s.wvn.run = .reading then
    if s.rd.ended then endRun (s.onRd fun r => { r with active := false })
    else if s.wvn.state = .stream ∧ !readWaits s ∧
        bhDwell s ≤ s.wvn.dwellMs ∧ min 250 (bits s.wvn.setpt.toNat 8 8) * regionSize s ≤ 256 * raFill s then enterStopping s
    else s
  else retryFromIdle s

/-- READ_AHEAD (R132). -/
def execReadAhead (s : State) : Host.Outcome State Fault Refusal := goLive readAhead s

end Sys2Proof.Machine
end

