-- ==== Sys2Proof/Machine/Deskew.lean ====
section
/-! DEFINITION. Deskew of a slot: its frames become rows, level 1, the statistics, verify's grades while writing, and levels 1 to 3 with row
merging while reading (R80 to R88, R95, R155 to R158, R165). -/

namespace Sys2Proof.Machine

/-! ## Frames of a slot (R155, R157) -/

/-- What the decoder settings that a data set started with give (R88, Table 03-4). -/
def decodeCfg (regs : DecodeRegs) : DecodeCfg :=
  let w := regs.ldpc.toNat
  let r := regs.rs.toNat
  { iterL1 := max 1 (min 100 (bits w 0 8)), iterL3 := max 1 (min 100 (bits w 8 8)), norm := max 8 (min 15 (bits w 16 4)), rounds := bits w 20 3,
    limit := min 64 (bits r 0 7), errorsEn := r.testBit 7 }

/-- A channel's part in a slot: the frame it delivered, the frame as far as it is used, and its row. -/
structure ChanRow where
  chan : Nat
  frame : Option FrameRec
  row : RowIn

/-- The row of a frame, none when its header does not fit the slot (R80). -/
def rowLlrs (fits : List Int → Bool) (f : FrameRec) : Option (List Int) :=
  let content := contentLlrs f.chan f.raw 0
  if f.found && fits content then some (content.drop 48) else none

/-- A frame after the realignment still due to it (R155). -/
def realigned (realign : Bool) (fits : List Int → Bool) (f : FrameRec) : FrameRec :=
  if realign && realignDue fits f then realignFrame fits f else f

/-- Level 1 of a channel's frame, with a second realignment when a fitting header's row fails (R84, R155). A channel in the erasure map is an
erasure (R80). -/
def chanRow (cfg : DecodeCfg) (realign erased : Bool) (fits : List Int → Bool) (c : Nat) (fr : Option FrameRec) : ChanRow :=
  match fr with
  | none => ⟨c, none, level1 cfg none⟩
  | some f0 =>
    let f := realigned realign fits f0
    let r := level1 cfg (if erased then none else rowLlrs fits f)
    if r.llrs.isSome && r.bits.isNone && realign && !f.tried then
      let g := realignFrame fits f
      ⟨c, some g, if g.shifted then level1 cfg (rowLlrs fits g) else r⟩
    else ⟨c, some f, r⟩

/-- Every channel's row of a slot under assembly, with the channels that are erasures and what counts as a fitting header (R82, R157). -/
def chanRows (s : State) (cfg : DecodeCfg) (erased : BitVec 1024) (fits : Nat → List Int → Bool) (frames : List FrameRec) : List ChanRow :=
  (List.range 1024).map fun c =>
    chanRow cfg (realignEn s c) (erased.getLsbD c) (fits c) c (frames.find? fun f => f.chan == c)

/-- The rows in row order (R68). -/
def inRowOrder (n : Nat) (rows : List ChanRow) : List RowIn :=
  let a := (rows.map (·.row)).toArray
  (List.range 1024).map fun r => a.getD (chanOf n r) ⟨none, none, 0⟩

/-- A slot in which fewer than 64 channels deliver a valid header, by a fill or after realignment too, is empty (R148, R155, R157). -/
def emptySlot (s : State) (fits : Nat → List Int → Bool) (frames : List FrameRec) : Bool :=
  decide ((frames.countP fun f =>
    let g := realigned (realignEn s f.chan) (fits f.chan) f
    g.found && fits f.chan (contentLlrs f.chan g.raw 0)) < 64)

/-! ## Statistics (R165) -/

/-- One channel's counters after a data set: its row, whether it is weak, whether the column code corrected it. -/
def statsAfter (r : ChanRow) (orig : Option FrameRec) (weak miscorr : Bool) (k : ChanStats) : ChanStats :=
  let flag := fun (p : FrameRec → Bool) => (match r.frame with | some f => p f | none => false)
  let o := orig.getD { chan := r.chan, found := false, start := 0, raw := [], valid := false, seq := 0, type := 0, tried := false, shifted := false,
                       missed := false, replayed := false, predicted := false, slips := 0, defBits := 0 }
  { frames := inc k.frames, failed := if r.row.bits.isNone then inc k.failed else k.failed, weak := if weak then inc k.weak else k.weak,
    syncMiss := if o.missed then inc k.syncMiss else k.syncMiss, resync := if flag (fun f => f.found && f.replayed) then inc k.resync else k.resync,
    sibling := if flag (fun f => f.found && f.predicted) then inc k.sibling else k.sibling,
    realign := if flag (·.shifted) then inc k.realign else k.realign, defBits := incBy k.defBits o.defBits,
    miscorr := if miscorr then inc k.miscorr else k.miscorr, iters := incBy k.iters r.row.iters, slips := min 0xFFFF (k.slips + o.slips) }

/-- Count a data set in the statistics of every channel but those shed (R165, R222). -/
def countStats (rows : List ChanRow) (frames : List FrameRec) (weak miscorr : Nat → Bool) (s : State) : State :=
  let a := rows.toArray
  onChans (fun c k => match a[c]? with
    | some r =>
      if shedChannel s c then k
      else { k with stats := statsAfter r (frames.find? fun f => f.chan == c) (weak c) (miscorr c) k.stats }
    | none => k) s

/-! ## Verify (R87, R95) -/

/-- A header as it was written: SEQ, CHANNEL and TYPE, or a fill of it that is accepted (R95, R148). -/
def headerWritten (s : State) (n type c : Nat) (content : List Int) : Bool :=
  let h := headerOf48 c content
  (h.1 && h.2.1 == n % 2 ^ 24 && h.2.2 == type) || (!headerCrc content && hdrFill s c && fillOk content (headerBits (n % 2 ^ 24) c type))

/-- The grade of a row read back: 0 failed, 1 weak, 2 passed (Table 04-3). -/
def gradeOf (cfg : Word) (iterL1 : Nat) (r : RowIn) : Nat :=
  match r.bits, r.llrs with
  | some b, some ls =>
    let weakIter := bits cfg.toNat 0 8
    let flip := bits cfg.toNat 8 8
    let flips := ((ls.map hard).zip (ldpcEncode b)).countP fun p => p.1 != p.2
    if (weakIter < iterL1 ∧ weakIter < r.iters) ∨ (flip ≠ 255 ∧ flip < flips) then 1 else 2
  | _, _ => 0

/-- A column syndrome is nonzero, with the failed rows as erasures (R87). -/
def badSyndrome (cfg : DecodeCfg) (rows : List RowIn) : Bool :=
  (level2 { cfg with limit := 64, errorsEn := false } (rows.map (·.bits))).any Option.isNone

/-- The rows with those of the channels in the erasure map as erasures (R80). -/
def eraseRows (erased : BitVec 1024) (rows : List ChanRow) : List ChanRow :=
  rows.map fun r => if erased.getLsbD r.chan then { r with row := ⟨none, none, 0⟩ } else r

/-- Verify a slot against what was committed to it: every channel's frame is graded, and the syndromes are those without the channels in the
erasure map (R87, R95, R96). -/
def verifySlot (c : Commit) (n : Nat) (frames : List FrameRec) (s : State) : State :=
  let cfg := decodeCfg (regsNow s)
  let rows := chanRows s cfg 0 (fun ch => headerWritten s n (if c.rewritten then 3 else frameType n ch false) ch) frames
  let grades := rows.map fun r => gradeOf c.cfg cfg.iterL1 r.row
  let v : VerifyRec := ⟨c.slot, grades, badSyndrome cfg (inRowOrder n (eraseRows (eraseMap s s.tiles.module) rows))⟩
  let g := grades.toArray
  countStats rows frames (fun ch => g.getD ch 0 == 1) (fun _ => false)
    (s.onTiles fun k => { k with verifies := k.verifies.filter (fun x => x.slot != c.slot) ++ [v] })

/-! ## Which data set a slot holds (R157) -/

/-- The value congruent to a SEQ that lies nearest to an expected n, the lower on a tie. -/
def nearestN (e : Int) (seq : Nat) : Nat :=
  let base := e - (e - seq) % (2 ^ 24 : Int)
  let up := base + 2 ^ 24
  (if up - e < e - base then up else base).toNat

/-- n expected at a slot: in a retry pass that of the data set retried, else that of the run. -/
def expectedN (s : State) (slot : Nat) : Option Int :=
  match s.rd.retry with
  | some (n, _) =>
    (match (failedSet s n).bind fun f => (f.slots.filter fun x => decide (x ≤ slot)).getLast? with
     | some at_ => some ((n : Int) + slot - at_)
     | none => some ((n : Int) + slot - s.rd.slot))
  | none => s.rd.expected.map fun e => (e.1 : Int) + slot - e.2

/-- The full n of a slot (R157). -/
def fullN (s : State) (slot seq : Nat) : Nat :=
  match expectedN s slot with
  | some e => nearestN e seq
  | none =>
    let h := (partAt s s.rd.part).highN
    if h = noN then mkN s.rd.part seq else h - (h - seq) % 2 ^ 24

/-! ## Merging and acceptance (R56, R81) -/

/-- Of two converged codewords that differ, the one that satisfies every column that decodes; an erasure when neither or both do (R81). -/
def pickRow (cols : List (Option (List Nat))) (r : Nat) (a b : List Bool) : Option (List Bool) :=
  let fitsCols := fun (x : List Bool) => ((rowSymbols x).zip cols).all fun p => match p.2 with | some c => c.getD r 0 == p.1 | none => true
  if fitsCols a && !fitsCols b then some a else if fitsCols b && !fitsCols a then some b else none

/-- The rows of a copy merged with those that other copies and passes have given (R81, R160). -/
def mergeRows (cfg : DecodeCfg) (old : List (Nat × List Bool)) (rows : List RowIn) : List RowIn :=
  let prior := fun (r : Nat) => (old.find? fun x => x.1 == r).map (·.2)
  let clash := fun (r : Nat) (row : RowIn) => (match row.bits, prior r with | some a, some b => a != b | _, _ => false)
  let cols := level2 cfg (rows.mapIdx fun r row => if clash r row then none else match row.bits with | some a => some a | none => prior r)
  rows.mapIdx fun r row =>
    match row.bits, prior r with
    | some a, some b => if a = b then row else
        (match pickRow cols r a b with
         | some x => { row with bits := some x }
         | none => ⟨none, none, row.iters⟩)
    | none, some b => { row with bits := some b }
    | _, none => row

/-- The converged rows of a data set. -/
def keptRows (rows : List RowIn) : List (Nat × List Bool) :=
  ((List.range rows.length).zip rows).filterMap fun x => x.2.bits.map fun b => (x.1, b)

/-- Every number taken under an estimate moves by what the first descriptor shows (R157). -/
def renumber (delta : Int) (s : State) : State :=
  let mv := fun (n : Nat) => ((n : Int) + delta).toNat
  s.onRd fun r => { r with
    sets := r.sets.map (fun x => { x with n := mv x.n }), failed := r.failed.map (fun x => { x with n := mv x.n }), accepted := r.accepted.map mv }

/-- The stack that takes the next data set (R117). -/
def raStack (s : State) : Fin 2 := if s.wr.stackOk.getLsbD s.rd.nextStack.val then s.rd.nextStack else 1 - s.rd.nextStack

/-- Place a decoded data set in read-ahead (R19, R132). -/
def placeSet (n wrap slot level : Nat) (regs : DecodeRegs) (payload : Bytes) (s : State) : State :=
  s.onRd fun r => { r with
    sets := r.sets ++ [{ part := partOf n, n := n, wrap := wrap, slot := slot, stack := raStack s, level := level, payload := payload, plain := none,
                         used := 0, stop := none, regs := regs, keySlot := none }],
    failed := r.failed.filter (fun f => f.n != n), holes := r.holes.filter (fun h => h.1 != n), nextStack := 1 - raStack s }

/-- R56: whether a data set met in a slot is taken, and not a copy of what has been delivered; one whose content has gone is read again. -/
def takesSet (s : State) (n : Nat) : Bool :=
  decide (partOf n = s.rd.part) && !(s.rd.sets.any fun x => x.n == n) &&
  ((failedSet s n).isSome || (s.rd.holes.any fun h => h.1 == n) || (match s.rd.accepted with | some a => decide (a < n) | none => true))

/-- A failed data set comes to its next level: a retry pass ends the run's streaming, or starts from a tape that no run uses; an empty menu is at
its end at once, and with no level left it is counted (R84, R86, R160). In STOPPED it waits for RESTART (R131). -/
def escalate (n : Nat) (s : State) : State :=
  match failedSet s n with
  | none => s
  | some f =>
    let s1 := if nextLevel f = 5 ∧ menuNow s = [] then onFailed n (fun x => { x with retried := true }) s else s
    match failedSet s1 n with
    | none => s1
    | some g =>
      if nextLevel g = 5 then (if s1.wvn.run = .reading ∧ s1.wvn.state = .stream then enterStopping s1 else retryFromIdle s1)
      else giveUp n s1

/-- What levels 1 to 3 make of a slot's rows: the level and the payload with the corrected rows, or nothing. -/
structure Decoded where
  rows : List RowIn
  out : Option (Nat × List (List Bool))

/-- The settings that a data set decodes under: those it started with, else those in force (R88). -/
def regsOf (s : State) (n : Nat) : DecodeRegs := match failedSet s n with | some f => f.regs | none => regsNow s

/-- Levels 1 to 3 on a slot, merged with the copies before it (R81, R84). -/
def decodeSlot (s : State) (n : Nat) (rows : List RowIn) : Decoded :=
  let cfg := decodeCfg (regsOf s n)
  let old := match failedSet s n with | some f => if f.regs.mergeCopies then f.rows else [] | none => []
  let r := decodeLevels cfg (mergeRows cfg old rows)
  ⟨r.1, r.2⟩

/-- A decoded data set's own N: its descriptor's, or what its place says for a parity set. -/
def ownN (n : Nat) (payload : Bytes) : Option Nat :=
  if isParityN n then some n else if descriptorOk payload then some (descriptorOf payload).n else none

/-- A data set that did not decode is kept with its rows for the levels to come (R81, R84). -/
def keepFailed (n slot : Nat) (rows : List RowIn) (s : State) : State :=
  match failedSet s n with
  | some _ => onFailed n (fun f => { f with rows := keptRows rows, slots := if f.slots.contains slot then f.slots else f.slots ++ [slot] }) s
  | none => s.onRd fun r => { r with failed := r.failed ++
      [{ part := partOf n, n := n, wrap := r.wrap, slots := [slot], rows := keptRows rows, attempts := 0, retried := false, domes := 0,
         unrecoverable := false, tagFailed := false, regs := regsNow s }] }

/-- The highest N accepted so far (R56). -/
def noteAccepted (n : Nat) (s : State) : State :=
  s.onRd fun r => { r with accepted := some (match r.accepted with | some a => max a n | none => n) }

/-- A decoded data set under its own N: the first descriptor settles the numbers, R56 takes or ignores it, and the EOD in force ends the run
(R56, R132, R157). -/
def acceptSet (n est slot level : Nat) (payload : Bytes) (s : State) : State :=
  let s1 := if isParityN n then s
    else
      let t := if s.rd.sure then s else renumber ((n : Int) - est) s
      t.onRd fun r => { r with sure := true, expected := some (n, slot) }
  if takesSet s1 n then
    let s2 := noteAccepted n (placeSet n s1.rd.wrap slot level (regsOf s1 n) payload s1)
    let s3 := if level = 3 then s2.onEcc fun e => { e with cntL3 := inc e.cntL3 } else s2
    if !isParityN n && (descriptorOf payload).kind == 1 && (partAt s3 s3.rd.part).eodN == some n then s3.onRd fun r => { r with ended := true } else s3
  else s1

/-- A slot read: its data set is decoded and taken, or kept for the further levels (R56, R84). -/
def readSlot (slot seq : Nat) (frames : List FrameRec) (s : State) : State :=
  let n := fullN s slot seq
  let rows := chanRows s (decodeCfg (regsOf s n)) (eraseMap s s.tiles.module) (fun c => headerFits s seq n c) frames
  let d := decodeSlot s n (inRowOrder n rows)
  let fixed := match d.out with
    | some (_, out) => ((d.rows.zip out).map fun (p : RowIn × List Bool) => match p.1.bits with | some b => b != p.2 | none => false).toArray
    | none => #[]
  let s1 := countStats rows frames (fun _ => false) (fun c => fixed.getD (rowOf n c) false) s
  match d.out.bind fun o => (ownN n (rowsPayload o.2)).map fun m => (m, o) with
  | some (m, level, out) => acceptSet m n slot (if s.rd.retry.isSome then 5 else level) (rowsPayload out) s1
  | none => if takesSet s1 n then escalate n (noteAccepted n (keepFailed n slot d.rows s1)) else s1

/-- The frames of a slot that have not come as its deskew completes: a channel still searching it, or whose replay is not done, has not found
it (R156, R158, R165). -/
def abandoned (s : State) (slot : Nat) : List FrameRec :=
  (List.range 1024).filterMap fun c =>
    let k := chanOf_ s c
    let none_ : FrameRec :=
      { chan := c, found := false, start := 0, raw := [], valid := false, seq := 0, type := 0, tried := true, shifted := false,
        missed := k.syncMissed, replayed := false, predicted := false, slips := k.slips, defBits := frameDefects k (slotBits * slot) }
    if s.tiles.asm.any (fun a => a.slot == slot && a.frames.any fun f => f.chan == c) then none
    else if k.lostSlot = some slot then some { none_ with missed := true }
    else if k.anchored ∧ k.slot = slot then some none_
    else if k.anchored ∧ slot < k.slot then some { none_ with missed := false, slips := 0 }
    else none

/-- Work on a slot that has not finished is abandoned (R156). -/
def abandon (slot : Nat) (s : State) : State :=
  onChans (fun _ k =>
    let k1 := if k.lostSlot = some slot then { k with lostSlot := none, slips := 0 } else k
    if k1.slot = slot then { k1 with replayA := false, slips := 0 } else k1) s

/-- Deskew of a slot is complete (R157, R158): while writing it is verified, while reading it is decoded. -/
def deskewComplete (slot : Nat) (s : State) : State :=
  let frames := (match s.tiles.asm.find? fun a => a.slot == slot with | some a => a.frames | none => []) ++ abandoned s slot
  let s1 := abandon slot (s.onTiles fun k => { k with
    asm := k.asm.filter (fun a => a.slot != slot), deskewed := some (max slot (k.deskewed.getD 0)) })
  let seq := slotSeq frames
  let empty := fun (n : Nat) => match seq with | some q => emptySlot s (fun c => headerFits s q n c) frames | none => true
  match s.wvn.run with
  | .none => s1
  | .writing =>
    (match (s1.wr.commits.find? fun c => c.slot == slot).bind fun c => (stagedSet s1 c.id).bind fun d => d.n.map fun n => (c, n) with
     | some (c, n) => if empty n then s1 else verifySlot c n frames s1
     | none => s1)
  | .reading | .retry =>
    let passed := fun (t : State) => t.onRd fun r => { r with slot := max r.slot (slot + 1) }
    match seq with
    | none => passed s1
    | some q =>
      if empty (fullN s slot q) then passed s1
      else serveAll (passed (readSlot slot q frames (s1.onRd fun r => { r with copySlot := rewrittenSlot frames })))

/-- DESKEW_COMPLETE: every frame of a slot is in, or the deadline has passed; a slot completes once (R158). -/
def execDeskewComplete (slot : Nat) (s : State) : Host.Outcome State Fault Refusal :=
  goLive (fun s => if deskewDone s slot then s else deskewComplete slot s) s

end Sys2Proof.Machine
end

