-- ==== Sys2Proof/Machine/Pins.lean ====
section
/-! DEFINITION. The commands of alarms, presence and seal (R368, R369, R371), of the wake latches and pins (R331, R105, R171), of the
temperature sensors (R423, R424) and of the time base (R405, R406). -/

namespace Sys2Proof.Machine

/-! ## Wake latches (R331) -/

/-- A wake latch catches its edge; its source becomes pending while Belfry is powered (R331). -/
def latch (i : Nat) (s : State) : State :=
  let s1 := s.onBlf fun b => { b with latched := setBit b.latched i true }
  if live s && s.power.pstate != 4 then raise (112 + i) s1 else s1

/-- A pulse of 100 ns or more is caught (R331). -/
def caught (ns : Nat) : Bool := decide (100 ≤ ns)

/-- WAKE_LATCH: an edge on a latch input (R331). -/
def execWakeLatch (i : Fin 16) (ns : Nat) (s : State) : Host.Outcome State Fault Refusal :=
  go (fun s => if caught ns then latch i.val s else s) s

/-! ## Presence and seal (R368, R369) -/

/-- PRESENCE_PRESS: a debounced press is latched; the window of 120 s opens or starts again, from now (R331, R368). -/
def execPresencePress (s : State) : Host.Outcome State Fault Refusal :=
  go (fun s => latch 0 (s.onTrust fun t => { t with press := some s.power.time, sealBroken := !t.sealOk })) s

/-- PRESENCE_WINDOW_EXPIRY: 120 s after the last press the window closes (R368). -/
def execPresenceWindowExpiry (s : State) : Host.Outcome State Fault Refusal :=
  go (fun s => match s.trust.press with
    | some t => (advanceTo (t + 120000 * msTicks) s).onTrust fun k => { k with press := none }
    | none => s) s

/-- An alarm condition is detected: taken while an image or the fallback program runs; in PS4 only the seal is monitored, by its wake
latch (R371). -/
def alarmSeen (cause : Fin 5) (s : State) : State :=
  if s.power.pstate = 4 then (if cause.val = 0 then latch 1 s else s)
  else if live s then takeAlarm cause s
  else s

/-- The seal loop has opened: the presence window closes at once, and the opening is latched and taken as an alarm (R331, R368, R371). -/
def sealOpens (latchNo : Nat) (s : State) : State :=
  let s1 := s.onTrust fun t => { t with sealOk := false, sealBroken := true, press := none }
  alarmSeen 0 (latch latchNo s1)

/-- ALARM: a condition of Table 14-8 is detected (R371). -/
def execAlarm (cause : Fin 5) (s : State) : Host.Outcome State Fault Refusal :=
  go (fun s => if cause = 0 then sealOpens 1 s else alarmSeen cause s) s

/-- One step of the seal LFSR, x^16 + x^14 + x^13 + x^11 + 1 (R369). -/
def lfsrStep (v : BitVec 16) : BitVec 16 :=
  let b := v.getLsbD 0 != (v.getLsbD 2 != (v.getLsbD 3 != v.getLsbD 5))
  setBit (v >>> 1) 15 b

/-- SEAL_LFSR_TICK: SEAL_A is driven with the next bit; SEAL_B and the level read back at SEAL_A are sampled (R369). -/
def sealTick (sealB readback : Bool) (s : State) : State :=
  let v := lfsrStep s.trust.lfsr
  let bit := v.getLsbD 0
  let s1 := emit (.sealDrive bit) (s.onTrust fun t => { t with lfsr := v })
  let n := if sealB = bit then 0 else s.trust.mismatches + 1
  let s2 := s1.onTrust fun t => { t with mismatches := n }
  let isOpen := decide (2 ≤ n) || readback != bit
  if isOpen && s.trust.sealOk then sealOpens (if readback = bit then 2 else 1) s2
  else if !isOpen && n == 0 then s2.onTrust fun t => { t with sealOk := true }
  else s2

/-- SEAL_LFSR_TICK (R369): AON clocks the loop once a start has seeded it, in PS4 too. -/
def execSealLfsrTick (sealB readback : Bool) (s : State) : Host.Outcome State Fault Refusal :=
  go (fun s => if live s || s.power.pstate == 4 then sealTick sealB readback s else s) s

/-! ## Shock and motor-fault inputs (R105, R106, R171) -/

/-- SHOCK_N_ASSERT: the latch catches it, and the SHOCK source holds the tokens off (R105, R331). -/
def execShockNAssert (ns : Nat) (s : State) : Host.Outcome State Fault Refusal :=
  go (fun s =>
    if caught ns then
      let t := latch 5 (s.onPins fun p => { p with shockN := false })
      if live s then inhibitOn .shock t else t
    else s) s

/-- SHOCK_N_CLEAR: the source clears, and SHOCK_HOLD begins (R106). -/
def execShockNClear (s : State) : Host.Outcome State Fault Refusal :=
  go (fun s => inhibitOff .shock (s.onPins fun p => { p with shockN := true })) s

/-- SHOCK_HOLD_EXPIRY: the hold-off after a shock source is over (R106). -/
def execShockHoldExpiry (s : State) : Host.Outcome State Fault Refusal :=
  goLive (fun s => match s.wr.holdUntil with
    | some t => (advanceTo t s).onWr fun w => { w with holdUntil := none }
    | none => s) s

/-! ## Temperature (R423, R424) -/

/-- The highest of the 16 readings (R423). -/
def highest (v : Vector Int 16) : Int := v.toList.foldl max v[0]

/-- One sample of 1 ms: junction temperature, the counts of the thermal cap, the alarm of bit 3, taken once while its condition holds, and the
cold offset's voltage cap
(R125, R371, R423, R424). -/
def thermal (v : Vector Int 16) (s : State) : State :=
  let t := highest v
  let s1 := s.onPower fun p => { p with
    junction := t, hotMs := if 103000 ≤ t then p.hotMs + 1 else 0, coolMs := if t < 100000 then p.coolMs + 1 else 0 }
  let s2 := voltageCap s1
  let wasOut := decide (s.power.junction < -25000 ∨ 120000 < s.power.junction)
  if (t < -25000 ∨ 120000 < t) ∧ !(wasOut && s.trust.cause.getLsbD 3 && s.pins.alarmAsserted && s.keep.erased) then alarmSeen 3 s2 else s2

/-- THERMAL_SAMPLE (R423). -/
def execThermalSample (milliC : Vector Int 16) (s : State) : Host.Outcome State Fault Refusal := goLive (thermal milliC) s

/-- One step of the thermal cap: after 1 s at or above 103 °C one band down, as far as band 0, after 10 s below 100 °C one band up (R424). -/
def capStep (s : State) : State :=
  if 1000 ≤ s.power.hotMs then
    let cap := if s.wvn.capT = 16 then bandOfR (max 1024 s.wvn.r) - 1 else s.wvn.capT - 1
    let s1 := (s.onWvn fun w => { w with capT := cap }).onPower fun p => { p with hotMs := 0 }
    if cap = s.wvn.capT then s1 else wvnRecord 0 s1
  else if 10000 ≤ s.power.coolMs ∧ s.wvn.capT < 16 then
    (s.onWvn fun w => { w with capT := w.capT + 1 }).onPower fun p => { p with coolMs := 0 }
  else s

/-- THERMAL_CAP_STEP (R424). -/
def execThermalCapStep (s : State) : Host.Outcome State Fault Refusal := goLive capStep s

/-! ## The time base (R405, R406) -/

/-- The clock that the time base takes: port A's, else port B's, else holdover (R405). -/
def pickSource (a b : Bool) : TimeSource := if a then .portA else if b then .portB else .holdover

/-- The time base goes over to a clock; counting continues from the value held, and an entry to holdover is counted (R405, R412). -/
def setSource (t : TimeSource) (s : State) : State :=
  s.onPower fun p => { p with
    src := t, cntHoldover := if t = .holdover ∧ p.src ≠ .holdover then inc p.cntHoldover else p.cntHoldover }

/-- TIME_BASE_SWITCH: the REFCLK inputs that are present now (R405). -/
def execTimeBaseSwitch (aPresent bPresent : Bool) (s : State) : Host.Outcome State Fault Refusal :=
  go (fun s => setSource (pickSource aPresent bPresent) (s.onPower fun p => { p with refA := aPresent, refB := bPresent })) s

/-- HOLDOVER_RETURN: a REFCLK is present again (R405). -/
def execHoldoverReturn (src : TimeSource) (s : State) : Host.Outcome State Fault Refusal :=
  go (fun s =>
    if s.power.src = .holdover ∧ src ≠ .holdover then
      setSource src (s.onPower fun p => { p with refA := p.refA || src == .portA, refB := p.refB || src == .portB })
    else s) s

/-- LIFETIME_CHECKPOINT: lifetime milliseconds are written to MRAM (R406). -/
def execLifetimeCheckpoint (s : State) : Host.Outcome State Fault Refusal :=
  go (fun s => s.onPower fun p => { p with lifeMram := lifeMs s }) s

end Sys2Proof.Machine
end

