-- ==== Sys2Proof/Machine/ServoOps.lean ====
section
/-! DEFINITION. Steeple's feedback: what one servo frame gives a reader (R29 to R31, R175), which readers are usable (R176, R193), the
measured speed, position and tilt (R176, R177), the encoders (R195), and the return from FB_HOLD (R190). -/

namespace Sys2Proof.Machine

/-! ## One reader's frame (R29, R175, R176) -/

/-- An arrival time in µs, from sixty-fourths of a period of the 31.25 MS/s servo clock (R175, R210). -/
def stripeUs (t : Int) : Rat := (t : Rat) / 2000

/-- The mean arrival time of some stripes of a burst, µs. -/
def stripeMean (xs : List Int) (is : List Nat) : Rat := meanRat (is.map fun i => stripeUs (xs.getD i 0))

/-- What one reader's stripes give: y in µm, t_M in µs and D in µs (R175). -/
structure ServoMark where
  y : Rat
  tM : Rat
  d : Rat

/-- y, t_M and D of a frame (R175). -/
def servoMark (o : ServoObs) : ServoMark :=
  let tP := stripeMean o.p [0, 1, 2, 3]
  let tN := stripeMean o.n [0, 1, 2, 3]
  let tP' := stripeMean o.p' [0, 2, 4]
  let tN' := stripeMean o.n' [0, 2, 4]
  let dsum := (tN - tP) + (tN' - tP')
  let span := (tP' - tP) + (tN' - tN)
  let y := (103 / 2 * divRat dsum span - 25) / (3168 / 10000)
  { y := (roundAway (4000 * y) : Rat) / 4000, tM := (tP + tN) / 2, d := span }

/-- The frame is the marker of a word: P and N hold four stripes (Table 02-3). -/
def isMarker (o : ServoObs) : Bool := o.p.length == 4 && o.n.length == 4

/-- Every burst has a stripe count that Table 02-3 allows, P′ and N′ alike in frames 1 to 31 (R176). -/
def stripeCounts (o : ServoObs) : Bool :=
  (isMarker o && o.p'.length == 5 && o.n'.length == 5) ||
  (o.p.length == 5 && o.n.length == 5 && (o.p'.length == 5 || o.p'.length == 6) && o.n'.length == o.p'.length)

/-- The speed that a reader's frame gives, m/s signed: 100 µm over the time between timing marks, or over the bursts' own separation when
the frame before had none (R175, R176). -/
def frameSpeed (prev : Option Rat) (m : ServoMark) : Rat :=
  let mag := match prev with
    | some t => divRat 100 (absRat (m.tM - t))
    | none => divRat 103 (absRat m.d)
  if m.d < 0 then -mag else mag

/-- Every stripe of a burst stands within ±0.8 µm of its place on the 3.0 µm pitch, the burst's mean taken as its origin, at a speed in m/s
signed (R29, R176, log 159). -/
def pitchOk (v : Rat) (xs : List Int) : Bool :=
  let us := xs.map stripeUs
  let mid := meanRat us
  let c : Rat := ((xs.length : Rat) - 1) / 2
  (us.mapIdx fun k t => absRat ((t - mid) * v - 3 * ((k : Rat) - c))).all fun d => decide (d ≤ 4 / 5)

/-- A sample is valid (R176). -/
def sampleValid (amin : Rat) (prev : Option Rat) (o : ServoObs) : Bool :=
  let m := servoMark o
  let v := absRat (frameSpeed prev m)
  let w := divRat 103 m.d
  stripeCounts o && [o.p, o.n, o.p', o.n'].all (pitchOk w) && decide (amin ≤ o.amp) && decide (m.d ≠ 0) && decide (prev ≠ some m.tM) &&
  decide (1 / 10 ≤ v) && decide (v ≤ 8)

/-! ## Servo words (R30, R31) -/

/-- The frame after one in the direction of motion: its LPOS and number (R29, R30). -/
def frameAfter (fw : Bool) (at_ : Nat × Nat) : Nat × Nat :=
  if fw then (if at_.2 = 31 then (at_.1 + 1, 0) else (at_.1, at_.2 + 1))
  else if at_.2 = 0 then (at_.1 - 1, 31) else (at_.1, at_.2 - 1)

/-- LPOS and tape-ID bit of a word whose bits of frames 1 to 31 are given, when its CRC-6 holds (Table 02-4). -/
def servoWord (bs : List Bool) : Option (Nat × Bool) :=
  if bs.length = 31 ∧ crc6 (bs.take 25) = ofBitsMsb (bs.drop 25) then some (ofBitsMsb (bs.take 24), bs.getD 24 false) else none

/-- A word is complete: a good one gives LPOS and carries the tape-ID record on; a bad one is discarded, and the record's run of good words
ends (R30, R31). -/
def takeWord (fw : Bool) (bs : List Bool) (r : Reader) : Reader :=
  match servoWord bs with
  | some (l, b) =>
    let follows := match r.idBits with
      | (k, _) :: _ => if fw then l == k + 1 else k == l + 1
      | [] => false
    { r with lpos := some l, idBits := (l, b) :: (if follows then r.idBits.take 255 else []) }
  | none => { r with idBits := [] }

/-- The 256 bits of a reader's run of good words as a tape-ID record, bit k mod 256 from the word with LPOS k (R31). -/
def recordOf (r : Reader) : Bytes :=
  let bit := fun (i : Nat) => match r.idBits.find? fun e => e.1 % 256 == i with | some e => e.2 | none => false
  (List.range 32).map fun j => BitVec.ofNat 8 (ofBitsMsb ((List.range 8).map fun i => bit (8 * j + i)))

/-- A run of 256 consecutive good words whose record's CRC-32 passes gives the record of its servo band (R31). -/
def noteTapeId (r : Reader) (s : State) : State :=
  let b := recordOf r
  let k := field b 16 1
  if r.idBits.length = 256 ∧ k ≤ 4 ∧ tapeIdOk k b then s.onStp fun p => { p with tapeIds := putAt p.tapeIds k b } else s

/-- The place of the next frame, from the last good word (R30). -/
def advanceReader (fw : Bool) (r : Reader) : Reader :=
  { r with frame := (frameAfter fw (1, r.frame)).2, lpos := r.lpos.map fun l => (frameAfter fw (l, r.frame)).1 }

/-- Follow the words through one valid frame (R30). -/
def followWord (fw : Bool) (o : ServoObs) (r0 : Reader) : Reader :=
  let r := advanceReader fw r0
  if isMarker o then
    let r1 := { r with frame := 0, lpos := r.lpos.map fun l => if r.frame < 16 then l else l + 1 }
    let r2 := match r1.word with
      | some bs => if fw then r1 else takeWord fw bs r1
      | none => r1
    { r2 with word := some [] }
  else
    match r.word with
    | none => r
    | some bs =>
      let bs1 := decide (o.p'.length = 6) :: bs
      if fw ∧ bs1.length = 31 then takeWord fw bs1.reverse { r with frame := 31, word := none }
      else { r with word := if 31 < bs1.length then none else some bs1 }

/-! ## Usable readers (R176, R193) -/

/-- Encoder travel of one count, µm (R195). -/
def countTravel (s : State) (reel : Nat) : Rat :=
  divRat (1000 * twoPi * (getAt s.stp.reels reel {}).radius) (plantOf s .encCpr)

/-- The reel whose encoder shows the travel: the cartridge reel's while it is not lost. -/
def travelReel (s : State) : Nat := if (getAt s.stp.reels 0 {}).ok then 0 else 1

/-- A reader is frozen (R193). -/
def frozenReader (s : State) (r : Reader) : Bool :=
  (decide (16 ≤ r.sameY) && decide (1 / 10 ≤ absRat s.stp.v)) || decide (400 ≤ (r.stillCounts : Rat) * countTravel s (travelReel s))

/-- One reader through one servo frame, before any drop or readmission. -/
def readerFrame (s : State) (i : Nat) (o : Option ServoObs) (r : Reader) : Reader :=
  match o with
  | some o =>
    if sampleValid (plantOf s .srvAmin) r.tM o then
      let m := servoMark o
      let r1 := followWord (decide (0 < m.d)) o r
      { r1 with
        y := m.y, err := lateralTarget s i - m.y, tM := some m.tM, bad := 0,
        stillCounts := if r1.frame = r.frame ∧ r1.lpos = r.lpos then r.stillCounts else 0,
        sameY := if m.y = r.y then r.sameY + 1 else 1 }
    else { advanceReader (forward s) r with tM := none, word := none, bad := r.bad + 1, good := 0, sameY := 0 }
  | none => { advanceReader (forward s) r with tM := none, word := none, bad := r.bad + 1, good := 0, sameY := 0 }

/-- A reader is dropped: counted, and taken out of service (R176, R377). -/
def dropReader (i : Nat) (s : State) : State :=
  let s1 := s.onStp fun p => { p with
    cntDrop := inc p.cntDrop, readers := updAt p.readers i fun r => { r with usable := false, good := 0 } }
  if outOf s .servoReader i then s1 else noteOut .servoReader i s1

/-- Drop every usable reader that has failed three times or is frozen (R176, R193). -/
def dropReaders (s : State) : State :=
  forEach (usableReaders s) (fun i t =>
    let r := getAt t.stp.readers i {}
    if 3 ≤ r.bad ∨ frozenReader s r then dropReader i t else t) s

/-- A sample of a dropped reader counts toward its return: it agrees with a usable reader of its band, or the band has none (R176). -/
def countsToward (s : State) (i : Nat) : Bool :=
  let r := getAt s.stp.readers i {}
  let peers := (usableReaders s).filter fun j => lowerReader j == lowerReader i
  r.bad == 0 && r.tM.isSome && (peers.isEmpty || peers.any fun j => decide (absRat ((getAt s.stp.readers j {}).y - r.y) ≤ 1 / 10))

/-- Readmit what has given 32 such samples in a row (R176). -/
def readmitReaders (s : State) : State :=
  forEach ((List.range 4).filter fun i => !(getAt s.stp.readers i {}).usable) (fun i t =>
    let n := if countsToward s i then (getAt t.stp.readers i {}).good + 1 else 0
    let t1 := t.onStp fun p => { p with readers := updAt p.readers i fun r => { r with good := n, usable := decide (32 ≤ n) } }
    if 32 ≤ n then noteBack .servoReader i t1 else t1) s

/-! ## Speed, position and tilt (R176, R177, R181, R192) -/

/-- The usable readers with a valid sample in this frame. -/
def validReaders (s : State) : List Nat := (usableReaders s).filter fun i =>
  (getAt s.stp.readers i {}).bad == 0 && (getAt s.stp.readers i {}).tM.isSome

/-- The value that most of a list hold, ties to the one met first. -/
def majority {α : Type} [DecidableEq α] (xs : List α) : Option α :=
  xs.foldl (fun b x => match b with
    | none => some x
    | some y => if xs.count y < xs.count x then some x else some y) none

/-- Take a new measured speed: the acceleration, and at a servo frame the count of frames near the set-point, which a tick between frames
can only end (R176, R187, R192). -/
def takeSpeed (frame : Bool) (v : Rat) (s : State) : State :=
  let near := decide (absRat (v - s.stp.vSet) ≤ absRat s.stp.vSet / 100)
  let n := if near then (if frame then s.stp.speedFrames + 1 else s.stp.speedFrames) else 0
  s.onStp fun p => { p with
    accel := divRat (v - p.v) (sampleMs s / 1000), v := v, speedFrames := n, speedOk := decide (16 ≤ n) }

/-- The coefficient band for the next sample (R181). -/
def takeBand (s : State) : State := s.onStp fun p => { p with band := bandFor p.band (absRat p.v) }

/-- SPEED holds while the measured speed lies outside 0.85 to 3.39 m/s by more than 0.5 % (R192, Table 04-4). -/
def speedSource (s : State) : State :=
  let v := absRat s.stp.v
  inhibitIf .speed (decide (v < 85 / 100 * (199 / 200)) || decide (339 / 100 * (201 / 200) < v)) s

/-- Position by the encoders: n frames of 0.1 mm from the one in hand (R176). -/
def movePosition (n : Int) (s : State) : State :=
  let x := ((32 * s.stp.lpos + s.stp.frame : Nat) : Int) + n
  s.onStp fun p => { p with lpos := x.toNat / 32, frame := x.toNat % 32 }

/-- The position voted by the usable readers; with no word read yet it goes on by prediction (R30, R176). -/
def takePosition (s : State) : State :=
  match majority ((usableReaders s).filterMap fun i =>
      let r := getAt s.stp.readers i {}
      r.lpos.map fun l => (l, r.frame)) with
  | some a => s.onStp fun p => { p with lpos := a.1, frame := a.2, lposValid := true, posRest := 0 }
  | none => movePosition (if forward s then 1 else -1) (s.onStp fun p => { p with lposValid := false })

/-- θ_s of a module from the timing marks of one frame (R177). -/
def moduleTilt (s : State) (m : Nat) : Option Rat :=
  let lo := getAt s.stp.readers (2 * m) {}
  let up := getAt s.stp.readers (2 * m + 1) {}
  if (validReaders s).contains (2 * m) && (validReaders s).contains (2 * m + 1) then
    match lo.tM, up.tM with
    | some a, some b => some (asinDeg (divRat (dirSign s * absRat s.stp.v * (a - b)) (plantOf s (.lSrv m))))
    | _, _ => none
  else none

/-- θ: θ_s over the usable modules and the last 32 frames, with THETA_CAL (R177). -/
def takeTilt (s : State) : State :=
  match (List.range 2).filterMap (moduleTilt s) with
  | [] => s
  | xs => s.onStp fun p =>
    let h := (meanRat xs :: p.thetaHist).take 32
    { p with thetaHist := h, theta := meanRat h + p.thetaCal }

/-- Every servo band with a usable reader has a valid sample in this frame (R106). -/
def bandsSampled (s : State) : Bool :=
  !(validReaders s).isEmpty && (usableReaders s).all fun i => (validReaders s).any fun j => lowerReader j == lowerReader i

/-- The mean errors of the two bands (R185), the PES source and the count of samples within the limit on every band in use (R106, R184). -/
def takeErrors (s : State) : State :=
  let lim : Rat := (max 30 (min 100 (bits s.stp.winh.toNat 0 7)) : Nat) / 1000
  let beyond := (validReaders s).any fun i => decide (lim < absRat (getAt s.stp.readers i {}).err)
  let s1 := s.onStp fun p => { p with
    errL := meanErr s lowerReader, errU := meanErr s fun i => !lowerReader i }
  inhibitIf .pes beyond (s1.onWr fun w => { w with pesGood := if beyond || !bandsSampled s then 0 else inc w.pesGood })

/-- One servo band without a usable reader while the other has one (R194): since when, and the end of it. -/
def takeBands (s : State) : State :=
  if bothBands s then
    match s.stp.oneBand with
    | some _ => if s.stp.mode = .fbHold then s.onStp fun p => { p with oneBand := none }
                else inhibitOff .feedback (s.onStp fun p => { p with oneBand := none })
    | none => s
  else if (usableReaders s).isEmpty then s
  else s.onStp fun p => { p with oneBand := some (p.oneBand.getD s.power.time) }

/-! ## Encoders (R186, R195) -/

/-- With both encoders lost, the table's open-loop braking torque for v / A_STOP (R196): both reels oppose the motion. -/
def brake (s : State) : State :=
  let q := fun (i : Nat) => divRat (divRat (plantOf s .brakeTorque) (if i = 0 then plantOf s .kS else plantOf s .kT)) (plantOf s .curLsb)
  let cur := fun (i : Nat) => (if forward s then -1 else 1) * max (-32768) (min 32767 (roundRat (q i)))
  let ticks := ⌈divRat (absRat s.stp.v) (aStop s) * (1000 * msTicks : Nat)⌉.toNat
  sendMotion 1 1 (cur 1) (sendMotion 0 1 (cur 0) (s.onStp fun p => { p with brakeUntil := some (s.power.time + ticks) }))

/-- In FB_STOP the braking torque replaces the reel loop once no encoder is left (R196). -/
def brakeIfBlind (s : State) : State :=
  if s.stp.mode = .fbStop ∧ s.stp.brakeUntil.isNone ∧ !s.stp.reels.toList.any (·.ok) then brake s else s

/-- An encoder is lost (R195). -/
def dropEncoder (i : Nat) (s : State) : State :=
  let r := getAt s.stp.reels i {}
  let s1 := s.onStp fun p => { p with
    reels := updAt p.reels i fun r => { r with ok := false, indexed := false, cleanRevs := 0, cps := 0, predicted := 0 },
    cntDrop := if r.ok then inc p.cntDrop else p.cntDrop }
  if r.ok && !outOf s .encoder i then noteOut .encoder i s1 else s1

/-- An encoder is lost, and in FB_STOP perhaps the last one (R195, R196). -/
def loseEncoder (i : Nat) (s : State) : State := brakeIfBlind (dropEncoder i s)

/-- A reel whose encoder is lost follows the servo: its speed and its angle come from the servo speed and its radius, which is held (R195). -/
def derivedReel (s : State) (c : Rat) (r : Reel) : Reel :=
  { r with
    cps := divRat (1000 * s.stp.v * plantOf s .encCpr) (twoPi * r.radius),
    angle := r.angle + (if s.stp.v < 0 then -c else c), count := ⌊r.angle + (if s.stp.v < 0 then -c else c)⌋ }

/-- The tape has moved by one servo frame: 0.1 mm since the index pulse, and the counts it predicts; a lost reel follows the servo (R186,
R195). -/
def reelTravel (s : State) : State :=
  forEach [0, 1] (fun i t =>
    let c := divRat 100 (countTravel t i)
    let t1 := t.onStp fun p => { p with reels := updAt p.reels i fun r =>
      let q := { r with travel := r.travel + 1 / 10, predicted := r.predicted + c }
      if q.ok ∨ !s.stp.bySrv then q else derivedReel s c q }
    let r := getAt t1.stp.reels i {}
    if r.ok ∧ 8 ≤ r.predicted then loseEncoder i t1 else t1) s

/-! ## FB_HOLD and STILL (R190, R445) -/

/-- Some sample since FB_HOLD began is the third valid one: the laws in force before take over, the inhibit clears and the mode held before
returns (R190, R191). -/
def leaveHold (s : State) : State :=
  let s1 := handOver s.stp.latLaw s.stp.latLaw (lateralErr s) 0 (rcOut s 0) (sampleMs s) s
  let s2 := speedBy true (s1.onStp fun p => { p with mode := p.heldMode, holdGood := 0 })
  let late := match s2.stp.oneBand with | some t => decide (t + 2000 * msTicks ≤ s2.power.time) | none => false
  resumeRuns (startQueued (if late then s2 else inhibitOff .feedback s2))

/-- Count the valid samples of FB_HOLD (R190). -/
def holdSample (s : State) : State :=
  if s.stp.mode = .fbHold ∧ !(validReaders s).isEmpty then
    if 2 ≤ s.stp.holdGood ∧ s.power.time ≤ s.stp.holdFrom + 8 * msTicks then leaveHold s
    else s.onStp fun p => { p with holdGood := p.holdGood + 1 }
  else s

/-- What the tape's stop leaves of a run that was streaming: its copies not yet verified are to be written again, and it waits for the
START program (R107, R445). -/
def parkRun (s : State) : State :=
  match s.wvn.state with
  | .idle | .stopped => s
  | .stream | .turn | .stopping | .restart =>
    let s1 := stopTokens s
    let s2 := (forEach s1.wr.commits hitCommit s1).onWr fun w => { w with commits := [], anchor := none }
    setWvn .idle (((if s.wvn.run = .writing then s2 else s1).onRd fun r => { r with
      retry := none, wrap := if s.wvn.run = .retry then r.resume.1 else r.wrap, slot := if s.wvn.run = .retry then r.resume.2 else r.slot }).onWvn fun w =>
      { w with run := if w.run == .retry then .reading else w.run, r := 0, rPending := none, startDue := none, refused := true })

/-- The tape has come to rest: STILL with tension held, under laws 0, 3 and 4; another lateral law is handed over. REEL_SPEED takes over
from REEL_POSITION at the v_ref in force, so its output has no gap (R190, R191). -/
def enterStill (s : State) : State :=
  (if s.stp.latLaw = 0 then s else handOver s.stp.latLaw 0 (lateralErr s) 0 (rcOut s 0) (sampleMs s) s).onStp fun p => { p with
    mode := .still, stopping := none, brakeUntil := none, vSet := 0, vRef := 0, latLaw := 0, reelLaw := 4,
    program := { p.program with running := false, waiting := false, due := none } }

/-- What may begin once Steeple is in STILL: a program that was refused, a run that waits, and staged data (R445). -/
def stillAgain (s : State) : State := kickWrites true (resumeRuns (startQueued s))

end Sys2Proof.Machine
end

