-- ==== Sys2Proof/Machine/Servo.lean ====
section
/-! DEFINITION. Steeple's samples and its surroundings: servo samples, encoders, sensors, the motion link, feedback failures, the heartbeat and
the pair of instances (R168 to R198). -/

namespace Sys2Proof.Machine

/-! ## The tape cannot move (R445) -/

/-- Started commands other than reading ones that cannot complete without tape motion. -/
def needsMotion (c : Cmd) : Bool := c.phase == .started && (opcodeOf c.entry == opLocate || opcodeOf c.entry == opRefresh || opcodeOf c.entry == opPartition)

/-- Steeple has entered FAULT: the run in hand is parked, and every command that waits for tape motion completes with 0x0416 (R445). -/
def tapeLost (s : State) : State :=
  if tapeDead s then
    let s1 := parkRun s
    let s2 := forEach ((byOrder s1.host.cmds).filter needsMotion) (fun c => finishCmd c.qid c.tag 0x0416 0 none) s1
    let held := (byOrder s2.host.cmds).filter fun c => (opcodeOf c.entry == opWrite || opcodeOf c.entry == opWriteMark) && c.phase == .started && s2.wr.stalled
    settle (serveAll (forEach held (fun c => endWrite c 0x0416 0) s2))
  else s

/-- MOT_FAULT_N_ASSERT: the latch catches it; a motor fault with no stage identified (R171, R331). -/
def execMotFaultNAssert (s : State) : Host.Outcome State Fault Refusal :=
  go (fun s =>
    let t := latch 6 (s.onPins fun p => { p with motFaultN := false })
    if live s then tapeLost (motorFault none t) else t) s

/-! ## One servo sample (R175 to R178, R190 to R194) -/

/-- The speed after a frame, and whether it is the servo's: by the encoders in FB_HOLD and FB_STOP, with no usable reader and below
0.10 m/s; else what the valid readers give by the marks before it, and the speed in force when no usable reader was valid (R176, R193,
R196). -/
def sampleSpeed (before after : State) (obs : Vector (Option ServoObs) 4) : Rat × Bool :=
  let vs := (validReaders after).filterMap fun i => (getAt obs i none).map fun o => frameSpeed (getAt before.stp.readers i {}).tM (servoMark o)
  let v := meanRat vs
  if after.stp.mode = .fbHold ∨ after.stp.mode = .fbStop ∨ (usableReaders after).isEmpty then (encoderSpeed after, false)
  else if vs.isEmpty then (if before.stp.bySrv then before.stp.v else encoderSpeed after, before.stp.bySrv)
  else if absRat v < 1 / 10 then (encoderSpeed after, false)
  else (v, true)

/-- WAIT_LAT's count of samples within its settle band (R200). -/
def countSettled (s : State) : State :=
  match stepInHand s with
  | some (6, _, b) =>
    if s.stp.program.waiting then
      let ok := !(validReaders s).isEmpty && (validReaders s).all fun i => decide (absRat (getAt s.stp.readers i {}).err ≤ (b : Rat) / 1000)
      s.onStp fun p => { p with program := { p.program with met := if ok then p.program.met + 1 else 0 } }
    else s
  | _ => s

/-- The position error of REEL_POSITION: the distance to the LPOS of a GOTO_LPOS step in hand (R186, R200). -/
def positionError (s : State) : Rat :=
  match stepInHand s with
  | some (3, a, _) => if s.stp.program.waiting then lposDistance s (bits a 0 24) else 0
  | _ => 0

/-- The loops of one sample, in the order in which their frames leave: voice coil, tilt, take-up, supply, stepper (Table 07-3). -/
def runLoops (s : State) : State :=
  if driving s then
    let l := lateralLoop s
    let s0 := tiltLoop l.1
    let s1 := stepperFrame l.2 (if s.stp.brakeUntil.isSome then s0 else reelLoop (positionError s) s0)
    let s2 := if ramping s1 then s1 else inhibitOff .handover s1
    s2.onStp fun p => { p with rcOn := rcUpdates s2 0 || rcUpdates s2 1 }
  else s

/-- Feedback has returned outside FB_HOLD: its inhibit clears unless a band has been missing for 2 s (R105, R194). -/
def feedbackBack (s : State) : State :=
  let late : Bool := match s.stp.oneBand with | some t => decide (t + 2000 * msTicks ≤ s.power.time) | none => false
  if s.stp.mode = .fbHold ∨ s.stp.mode = .fbStop ∨ (validReaders s).isEmpty ∨ late then s else inhibitOff .feedback s

/-- One frame of the four servo readers (R178). -/
def servoSample (obs : Vector (Option ServoObs) 4) (s : State) : State :=
  let had := !(usableReaders s).isEmpty
  let s1 := forEach [0, 1, 2, 3] (fun i t => t.onStp fun p => { p with readers := updAt p.readers i (readerFrame t i (getAt obs i none)) }) s
  let s2 := readmitReaders (dropReaders (forEach [0, 1, 2, 3] (fun i t => noteTapeId (getAt t.stp.readers i {}) t) s1))
  let s3 := if had && (usableReaders s2).isEmpty then enterHold s2 else s2
  let v := sampleSpeed s s3 obs
  let s5 := speedBy v.2 (takeSpeed true v.1 s3)
  let s6 := takeBands (takeErrors (takeTilt (takePosition (speedSource s5))))
  linkFrame (takeBand (runLoops (holdSample (feedbackBack (countSettled (reelTravel s6))))))

/-- A SERVO packet keeps R207 and comes from group 0 or 7; any other is discarded and counted (R208, R210). -/
def servoPacketOk (p : HlPacket) : Bool :=
  (p.group == 0 || p.group == 7) && decide (p.payload.length = 4) && packetOk 2 (0xFF * 2 ^ 4 + 0xF * 2 ^ 36) p.header p.payload

/-- SERVO_PACKET: the SERVO packets since the frame before are checked, and the stripes found in their samples make one servo sample
(R178, R208, R210). -/
def execServoPacket (frame : ServoFrame) (s : State) : Host.Outcome State Fault Refusal :=
  goLive (fun s =>
    servoSample frame.readers (forEach (frame.packets.filter fun p => !servoPacketOk p) (fun p => discardPacket p.group p.lane.val) s)) s

/-! ## Feedback failures (R190, R193 to R196) -/

/-- FEEDBACK_LOST: no usable reader has given a valid sample within 3 frame intervals, or every reader is frozen (R193). -/
def execFeedbackLost (s : State) : Host.Outcome State Fault Refusal := goLive enterHold s

/-- FB_HOLD_TIMEOUT: 8 ms without valid feedback; a controlled stop on encoder speed alone (R190, R196). -/
def holdTimeout (s : State) : State :=
  if s.stp.mode = .fbHold then
    let s1 := setMode .fbStop (advanceTo (s.stp.holdFrom + 8 * msTicks) s)
    let s2 := controlledStop (aStop s1) (s1.onStp fun p => { p with program := { p.program with running := false, waiting := false, due := none } })
    brakeIfBlind s2
  else s

/-- FB_HOLD_TIMEOUT (R190). -/
def execFbHoldTimeout (s : State) : Host.Outcome State Fault Refusal := goLive holdTimeout s

/-- The tape has come to rest after a controlled stop: the run it carried is parked, and Steeple stands in STILL (R190, R196). -/
def stopDone (s : State) : State :=
  let fromStop := s.stp.mode == .fbStop
  let s1 := enterStill (parkRun s)
  stillAgain (if fromStop then stpEvent s1 else s1)

/-- CONTROLLED_STOP_DONE: the tape stands, or the braking time is over and the enables go low (R190, R196). -/
def stopEnds (s : State) : State :=
  if s.stp.stopping.isNone then s
  else match s.stp.brakeUntil with
    | some t => stopDone (setEnables 0 ((advanceTo t s).onStp fun p => { p with v := 0 }))
    | none => if tapeStopped s then stopDone s else s

/-- CONTROLLED_STOP_DONE (R196). -/
def execControlledStopDone (s : State) : Host.Outcome State Fault Refusal := goLive stopEnds s

/-- ONE_BAND_TIMEOUT: 2 s on one servo band raise FEEDBACK until the other returns (R194). -/
def execOneBandTimeout (s : State) : Host.Outcome State Fault Refusal :=
  goLive (fun s => match s.stp.oneBand with
    | some t => inhibitOn .feedback (advanceTo (t + 2000 * msTicks) s)
    | none => s) s

/-! ## Encoders (R176, R186, R193, R195) -/

/-- Apply f to a reel. -/
def onReel (i : Nat) (f : Reel → Reel) (s : State) : State := s.onStp fun p => { p with reels := updAt p.reels i f }

/-- The count step of a change of one line: A leads B forward. -/
def quadrature (r : Reel) (a b : Bool) : Int := if r.a != a then (if a != b then 1 else -1) else if a == b then 1 else -1

/-- Readers in use see one count more of travel; those that stand still all that while are frozen, and with none left feedback is frozen
(R193). -/
def readersTravel (reel : Nat) (s : State) : State :=
  if reel = travelReel s ∧ !(usableReaders s).isEmpty then
    let s1 := s.onStp fun p => { p with readers := p.readers.map fun r => if r.usable then { r with stillCounts := r.stillCounts + 1 } else r }
    let s2 := dropReaders s1
    if (usableReaders s2).isEmpty then enterHold s2 else s2
  else s

/-- One count of an encoder: its speed from the last two edges, and the radius advanced by the tape's thickness (R186). A lost encoder's reel
keeps its radius, and takes its speed from the servo (R195). -/
def countEdge (i : Nat) (a b : Bool) (s : State) : State :=
  let r := getAt s.stp.reels i {}
  let d := quadrature r a b
  let dt : Rat := max 1 (s.power.time - r.edgeAt)
  let grow := divRat (plantOf s .thickness) (plantOf s .encCpr) * (if i = 1 then (d : Rat) else -(d : Rat))
  let ok := r.ok || !outOf s .encoder i
  let s1 := onReel i (fun r => { r with
    a := a, b := b, count := r.count + d, cps := if ok then (d : Rat) * 100000000 / dt else r.cps, edgeAt := s.power.time, predicted := 0,
    radius := if ok then r.radius + grow else r.radius, ok := ok }) s
  readersTravel i s1

/-- ENCODER_EDGE: a sample of an encoder's lines; both lines changing at once lose the encoder (R195). -/
def encoderEdge (i : Nat) (a b : Bool) (s : State) : State :=
  let r := getAt s.stp.reels i {}
  if r.a != a && r.b != b then loseEncoder i (onReel i (fun r => { r with a := a, b := b }) s)
  else if r.a == a && r.b == b then s
  else countEdge i a b s

/-- ENCODER_EDGE (R195). -/
def execEncoderEdge (reel : Fin 2) (a b : Bool) (s : State) : Host.Outcome State Fault Refusal := goLive (encoderEdge reel.val a b) s

/-- The radius that the servo distance of the last revolution gives, while the speed is measured on the servo pattern (R186). -/
def radiusNow (s : State) (r : Reel) : Rat := if s.stp.bySrv ∧ 0 < r.travel then divRat r.travel twoPi else r.radius

/-- The servo agrees with one revolution of a lost encoder: its travel gives the counts of a revolution within 4, at the radius held (R195,
log 160). -/
def servoAgrees (s : State) (r : Reel) : Bool :=
  s.stp.bySrv && decide (absRat (divRat (r.travel * plantOf s .encCpr) (twoPi * r.radius) - plantOf s .encCpr) ≤ 4)

/-- ENCODER_INDEX_PULSE: the count between two pulses is checked, four clean revolutions checked against the servo bring a lost encoder back,
and the radius is measured (R186, R195). -/
def indexPulse (i : Nat) (s : State) : State :=
  let r := getAt s.stp.reels i {}
  let clean := decide (((r.count.natAbs : Rat) - plantOf s .encCpr) ≤ 4) && decide (plantOf s .encCpr - (r.count.natAbs : Rat) ≤ 4)
  let fresh := fun (n : Nat) (ok : Bool) (rad : Rat) => onReel i (fun r => { r with
    indexed := true, count := 0, angle := 0, travel := 0, cleanRevs := n, ok := ok, radius := rad })
  if !r.indexed then fresh 0 r.ok r.radius s
  else if clean && (r.ok || servoAgrees s r) then
    let s1 := fresh (r.cleanRevs + 1) (r.ok || decide (4 ≤ r.cleanRevs + 1)) (if r.ok then radiusNow s r else r.radius) s
    if !r.ok && decide (4 ≤ r.cleanRevs + 1) then noteBack .encoder i s1 else s1
  else if r.ok then onReel i (fun r => { r with indexed := true, count := 0, angle := 0, travel := 0 }) (loseEncoder i s)
  else fresh 0 false r.radius s

/-- ENCODER_INDEX_PULSE (R186). -/
def execEncoderIndexPulse (reel : Fin 2) (s : State) : Host.Outcome State Fault Refusal := goLive (indexPulse reel.val) s

/-- Position by the encoders over 100 µs, in frames of 0.1 mm (R176). -/
def encoderPosition (v : Rat) (s : State) : State :=
  let x := s.stp.posRest + v / 10
  let n : Int := if 0 ≤ x then ⌊x * 10⌋ else -⌊-x * 10⌋
  (movePosition n s).onStp fun p => { p with posRest := x - (n : Rat) / 10, lposValid := false }

/-- REEL_LOOP_TICK: every 100 µs without a usable reader, or in FB_HOLD or FB_STOP, the reel loop runs on encoder speed; in FB_HOLD the
lateral law runs on the estimator's error. Open-loop braking leaves the reels as they are driven (R176, R186, R193, R196). -/
def reelTick (s : State) : State :=
  if driving s ∧ ((usableReaders s).isEmpty ∨ s.stp.mode = .fbHold ∨ s.stp.mode = .fbStop) then
    let s1 := s.onStp fun p => { p with reels := p.reels.map fun r => if reelStill s r then { r with cps := 0 } else r }
    let v := encoderSpeed s1
    let s2 := speedSource (encoderPosition v (speedBy false (takeSpeed false v s1)))
    let l := if s2.stp.mode = .fbHold then lateralLoop s2 else (s2, 0)
    let s3 := stepperFrame l.2 (if s2.stp.brakeUntil.isSome then l.1 else reelLoop (positionError l.1) l.1)
    takeBand (if ramping s3 then s3 else inhibitOff .handover s3)
  else s

/-- REEL_LOOP_TICK (R186). -/
def execReelLoopTick (s : State) : Host.Outcome State Fault Refusal := goLive reelTick s

/-! ## Sensors (R172 to R174) -/

/-- One axis in mg. -/
def accMg (s : State) (x : BitVec 16) : Rat := (x.toInt : Rat) * plantOf s .accScale

/-- The shock threshold in mg (R172, R203). -/
def accThreshold (s : State) : Rat := (max 1 (bits s.stp.winh.toNat 8 8) : Nat) * 20

/-- The accelerometer has failed: ACCEL falls and never rises before the next threading (R173). -/
def failAcc (s : State) : State := stpRecord 5 (inhibitOff .accel (s.onStp fun p => { p with accFailed := true }))

/-- ACC_SAMPLE: after the identity has been asked for at threading, the first byte that comes is compared with it; three samples in a row of all ones or all zeros fail the
accelerometer; else ACCEL follows the threshold (R172, R173). -/
def accSample (x y z : BitVec 16) (u : State) : State :=
  let s := if u.stp.accFailed then u else
    emit (.accFrame [BitVec.ofNat 8 (0xC0 + plantNat u .accReg % 64)]) (u.onStp fun p => { p with accIdWait := false })
  if s.stp.accFailed then s
  else if u.stp.accIdWait ∧ x.toNat % 256 ≠ plantNat s .accId % 256 then failAcc s
  else if (x = 0 ∧ y = 0 ∧ z = 0) ∨ (x = 0xFFFF ∧ y = 0xFFFF ∧ z = 0xFFFF) then
    let s1 := s.onStp fun p => { p with accBad := p.accBad + 1 }
    if 3 ≤ s1.stp.accBad then failAcc s1 else s1
  else
    let v : Vector Rat 3 := #v[accMg s x, accMg s y, accMg s z]
    inhibitIf .accel (v.toList.any fun a => decide (accThreshold s < absRat a)) (s.onStp fun p => { p with acc := v, accBad := 0 })

/-- ACC_SAMPLE (R172). -/
def execAccSample (x y z : BitVec 16) (s : State) : Host.Outcome State Fault Refusal := goLive (accSample x y z) s

/-- The 16-bit value at an offset of a reading, none when its CRC-8 fails (R174). -/
def sensorValue (s : State) (bs : Bytes) (ofs : Nat) : Option Nat :=
  let ok := plantOf s .snsCrcEn = 0 ∨
    crc 8 (plantNat s .snsPoly % 256) (plantNat s .snsInit % 256) false (byteBits (slice bs ofs 2)) = field bs (ofs + 2) 1
  if ok ∧ ofs + 2 ≤ bs.length then some (unbe (slice bs ofs 2)) else none

/-- The two transactions of a reading: the trigger command to SNS_ADDR, and SNS_WAIT ms later the read of SNS_LEN bytes (R174). -/
def sensorAsk (s : State) : State :=
  emits [.sensorWrite (plantNat s .snsAddr % 128) (be (max 1 (min 4 (plantNat s .snsCmdLen))) (plantNat s .snsCmd)),
    .sensorRead (plantNat s .snsAddr % 128) (plantNat s .snsLen)] s

/-- SENSOR_READING: temperature and humidity; ten readings in a row that are not acknowledged or fail their check make the sensor absent
(R174). -/
def sensorReading (ack : Bool) (bs : Bytes) (u : State) : State :=
  if u.stp.sensorAbsent then u
  else
    let s := sensorAsk u
    let t := sensorValue s bs (plantNat s .snsTOfs)
    let h := sensorValue s bs (plantNat s .snsHOfs)
    if ack ∧ bs.length = plantNat s .snsLen ∧ t.isSome ∧ h.isSome then
      s.onStp fun p => { p with
        sensorBad := 0, temp := t.map fun x => plantOf s .snsTA + plantOf s .snsTB * (x : Rat),
        hum := h.map fun x => plantOf s .snsHA + plantOf s .snsHB * (x : Rat) }
    else
      let s1 := s.onStp fun p => { p with
        sensorBad := p.sensorBad + 1, temp := if ack then (match t with | some x => some (plantOf s .snsTA + plantOf s .snsTB * (x : Rat)) | none => p.temp) else p.temp,
        hum := if ack then (match h with | some x => some (plantOf s .snsHA + plantOf s .snsHB * (x : Rat)) | none => p.hum) else p.hum }
      if 10 ≤ s1.stp.sensorBad then
        stpRecord 6 (s1.onStp fun p => { p with
          sensorAbsent := true, temp := none, hum := none, theta0 := Config.widthModel ((stpTable s).getD []) 21 45 })
      else s1

/-- SENSOR_READING (R174). -/
def execSensorReading (ack : Bool) (bytes : Bytes) (s : State) : Host.Outcome State Fault Refusal := goLive (sensorReading ack bytes) s

/-! ## The motion link (R169 to R171) -/

/-- A response frame is good: its CRC-8 holds and it echoes the stage's address. -/
def responseOk (stage : Nat) (f : BitVec 32) : Bool :=
  decide (crc8 (bitsMsb 24 (f.toNat / 256)) = f.toNat % 256) && decide (bits f.toNat 28 4 = stage)

/-- The command that a response answers: a response comes with the next command, so it is the older of two at least that were sent (R169). -/
def answered (k : Stage) : Option (BitVec 32) :=
  match k.sent with
  | f :: _ :: _ => some f
  | _ => none

/-- Note a response with a bad CRC or ACK = 0, with the command to send again: the third in a row is a motor fault (R171). -/
def badResponse (stage : Nat) (again : Option (BitVec 32)) (s : State) : State :=
  let s1 := s.onStp fun p => { p with stages := updAt p.stages stage fun k =>
    { k with nacks := k.nacks + 1, again := k.again ++ again.toList } }
  if 3 ≤ (getAt s1.stp.stages stage {}).nacks then
    tapeLost (motorFault (some stage) (s1.onStp fun p => { p with stages := updAt p.stages stage fun k => { k with nacks := 0 } }))
  else s1

/-- MOTION_LINK_RESPONSE: FAULT is a motor fault; ACK = 0 sends the command it answers again (R169, R171). -/
def motionResponse (stage : Nat) (f : BitVec 32) (u : State) : State :=
  let cmd := answered (getAt u.stp.stages stage {})
  let s := u.onStp fun p => { p with stages := updAt p.stages stage fun k => { k with sent := if cmd.isSome then k.sent.drop 1 else k.sent } }
  if !responseOk stage f then badResponse stage none s
  else
    let ack := f.getLsbD 24
    let s1 := s.onStp fun p => { p with stages := updAt p.stages stage fun k => { k with
      meas := signed 16 (bits f.toNat 8 16), nacks := if ack then 0 else k.nacks } }
    if f.getLsbD 27 then tapeLost (motorFault (some stage) s1) else if ack then s1 else badResponse stage cmd s1

/-- MOTION_LINK_RESPONSE (R171). -/
def execMotionLinkResponse (stage : Fin 5) (frame : BitVec 32) (s : State) : Host.Outcome State Fault Refusal :=
  goLive (motionResponse stage.val frame) s

/-- MOTION_LINK_KEEPALIVE: every enabled stage that has had no frame for 1 ms gets a status poll (R170). -/
def keepalive (s : State) : State :=
  forEach [0, 1, 2, 3, 4] (fun i t =>
    if t.pins.motEn.getLsbD i ∧ (getAt t.stp.stages i {}).sentAt + msTicks ≤ t.power.time then sendMotion i 0 0 t else t) s

/-- MOTION_LINK_KEEPALIVE (R170). -/
def execMotionLinkKeepalive (s : State) : Host.Outcome State Fault Refusal := goLive keepalive s

/-- Neither encoder has shown motion for 1 s (R190). -/
def stillForSecond (s : State) : Bool := s.stp.reels.toList.all fun r => decide (r.edgeAt + 1000 * msTicks ≤ s.power.time)

/-- FAULT_CLEAR: MOT_FAULT_N is negated and the cores clear the fault. In FAULT, once nothing has moved for 1 s, CLEAR_FAULT goes to each
stage, the accelerometer is set up again, and Steeple is in OFF (R173, R190). Where FAULT was not entered, the source clears (R106). -/
def faultClear (s : State) : State :=
  let s1 := s.onPins fun p => { p with motFaultN := true }
  if s1.stp.mode ≠ .fault then inhibitOff .motFault s1
  else if stillForSecond s1 then
    let s2 := forEach [0, 1, 2, 3, 4] (fun i => sendMotion i 3 0) s1
    accStart (inhibitOff .motFault (enterOff true s2))
  else s1

/-- FAULT_CLEAR (R190). -/
def execFaultClear (s : State) : Host.Outcome State Fault Refusal := goLive faultClear s

/-! ## Heartbeat and the pair of instances (R197, R198) -/

/-- STEEPLE_HEARTBEAT: programs are taken again in STILL (R198). -/
def heartbeat (s : State) : State :=
  let s1 := s.onStp fun p => { p with beatAt := s.power.time, beatLost := false }
  if s.stp.beatLost ∧ s.stp.mode = .still then stillAgain s1 else s1

/-- STEEPLE_HEARTBEAT (R198). -/
def execSteepleHeartbeat (s : State) : Host.Outcome State Fault Refusal := goLive heartbeat s

/-- STEEPLE_HEARTBEAT_TIMEOUT: 2 s without a heartbeat start a controlled stop in MOVE or TRACK (R190, R198). -/
def heartbeatTimeout (s : State) : State :=
  let s1 := (advanceTo (s.stp.beatAt + 2000 * msTicks) s).onStp fun p => { p with beatLost := true }
  match s1.stp.mode with
  | .move | .track =>
    controlledStop (aStop s1) (s1.onStp fun p => { p with program := { p.program with running := false, waiting := false, due := none } })
  | _ => s1

/-- STEEPLE_HEARTBEAT_TIMEOUT (R198). -/
def execSteepleHeartbeatTimeout (s : State) : Host.Outcome State Fault Refusal := goLive heartbeatTimeout s

/-- A Steeple instance leaves service: ST1 drives when it was ST0 that drove, within the sample, and no tokens stop (R197). -/
def loseSteeple (i : Nat) (s : State) : State :=
  if outOf s .steeple i ∨ noSpare s .steeple then takeOut .steeple i s
  else
    let takes := i == 0 && !s.stp.st1
    takeOut .steeple i (s.onStp fun p => { p with
      standbyOk := false, st1 := p.st1 || takes, cntTakeover := if takes then inc p.cntTakeover else p.cntTakeover })

/-- ST1_TAKEOVER: what befalls the pair (R197). -/
def pairEvent (cause : TakeoverCause) (s : State) : State :=
  match cause with
  | .selfCheck | .lateOutput | .powerLoss => loseSteeple 0 s
  | .standbySelfCheck => loseSteeple 1 s
  | .outputsDiffer =>
    if !s.stp.standbyOk then s
    else match s.stp.resyncAt with
      | some t =>
        if s.power.time < t + 1000 * msTicks then loseSteeple 1 s
        else stpRecord 4 (s.onStp fun p => { p with resyncAt := some s.power.time })
      | none => stpRecord 4 (s.onStp fun p => { p with resyncAt := some s.power.time })

/-- ST1_TAKEOVER (R197). -/
def execSt1Takeover (cause : TakeoverCause) (s : State) : Host.Outcome State Fault Refusal := goLive (pairEvent cause) s

end Sys2Proof.Machine
end

