-- ==== Sys2Proof/Machine/Faults.lean ====
section
/-! DEFINITION. INSTANCE_FAULT: the fault of one instance of a row of Table 15-1, with what its block does then (R374 to R380). -/

namespace Sys2Proof.Machine

/-- A head-link PHY half fails: four inbound lanes and one outbound lane of its group are lost (Table 15-1, row 5). -/
def losePhyHalf (i : Nat) (s : State) : State :=
  if outOf s .hlPhyHalf i then s
  else
    let g := Fin.ofNat 8 (i / 2)
    let h := i % 2
    loseTx g h (forEach (List.range 4) (fun k => loseRx g (4 * h + k)) (noteOut .hlPhyHalf i s))

/-- A DRAM die fails: the stack corrects it; a second die of the same stack loses the stack (R115, Table 15-1, row 9). -/
def loseDie (i : Nat) (s : State) : State :=
  if outOf s .dramDie i then s
  else
    let second := s.lantern.outOfService.any fun e => e.1 == .dramDie && e.2 / 9 == i / 9
    let s1 := noteOut .dramDie i s
    if second then takeOut .bufferStack (i / 9) s1 else s1

/-- A host port fails (Table 15-1, row 11, R303). -/
def losePortInstance (i : Nat) (s : State) : State :=
  if outOf s .hostPort i then s else losePort (portOfBit i) (noteOut .hostPort i s)

/-- The fault of an instance, numbered within its row: a head element by module and channel, a PHY half by group and half, a lane by
group and lane, a die by stack and die (log 45). -/
def instanceFault (row : FaultRow) (inst : Nat) (s : State) : State :=
  match row with
  | .headElement =>
    let m := inst / 1024 % 2
    let c := inst % 1024
    if (deadOf s m).getLsbD c then s else declareDead m c s
  | .tile => takeOut .tile (inst % 64) s
  | .hlInLane => loseRx (Fin.ofNat 8 (inst / 8)) (inst % 8) s
  | .hlOutLane => loseTx (Fin.ofNat 8 (inst / 2)) (inst % 2) s
  | .hlPhyHalf => losePhyHalf (inst % 16) s
  | .eccCluster => takeOut .eccCluster (inst % 8) s
  | .cupolaCore => takeOut .cupolaCore (inst % 4) s
  | .czEngine => engineFault (inst % 4) s
  | .dramDie => loseDie (inst % 18) s
  | .bufferStack => takeOut .bufferStack (inst % 2) s
  | .hostPort => losePortInstance (inst % 2) s
  | .steeple => loseSteeple (inst % 2) s
  | .controlCore => takeOut .controlCore (inst % 4) s
  | .fabricPlane => takeOut .fabricPlane (inst % 2) s
  | .keepCopy => takeOut .keepCopy (inst % 2) s
  | .servoReader => dropReader (inst % 4) s
  | .encoder => loseEncoder (inst % 2) s
  | .aon => takeOut .aon 0 s

/-- INSTANCE_FAULT (R376, R377). -/
def execInstanceFault (row : FaultRow) (inst : Nat) (s : State) : Host.Outcome State Fault Refusal := goLive (instanceFault row inst) s

end Sys2Proof.Machine
end

