-- ==== Sys2Proof/Machine/Firmware.lean ====
section
/-! DEFINITION. FW_STAGE (R315) and firmware activation: the modes of Table 11-8, the barrier (R389), the checks of R390 and the hand-over
of R357. -/

namespace Sys2Proof.Machine

/-! ## FW_STAGE (R315, R360) -/

/-- The firmware slot that is not running. -/
def spareSlot (s : State) : Port := otherPort s.boot.slot

/-- The FW_ACTIVATE that waits for its activation, if any, completes with a status. -/
def endActivate (st : Nat) (s : State) : State :=
  match s.boot.activation with
  | some (_, some tag) => reply 0 tag.toNat st 0 s
  | _ => s

/-- Erase the slot that is not running; a pending activation is cancelled (R315). -/
def eraseSpare (s : State) : State :=
  let s1 := endActivate 0x0603 s
  { s1 with
    boot := { s1.boot with
      flash := Memory.erase s1.boot.flash (fwSlotBase (spareSlot s)) fwSlotLen, staged := 0, stagedOk := false, stagedPermit := false,
      activation := none },
    host := { s1.host with holdForSwitch := false } }

/-- The outcome of the checks at LAST, and whether the image was staged under a permit: the slot's manifest, the fused epoch, then the version against
the running one within its epoch (R315, R360). -/
def stagedVerdict (s : State) : Nat × Bool :=
  let m := slotManifest s (spareSlot s)
  let code := checkSlot s (spareSlot s) true false
  if code = 6 then (0x0602, false)
  else if code ≠ 1 then (0x0601, false)
  else if s.boot.phase = .normal ∧ manEpoch m = manEpoch (slotManifest s s.boot.slot) ∧ versionLt (manVersion m) s.boot.version then
    (if permitArmed s then (0, true) else (0x0500, false))
  else (0, permitArmed s)

/-- Verify the whole image; a signature, manifest or format failure leaves the slot without an image, and the permit is used up (R315,
R360). -/
def finishStage (c : Cmd) (s : State) : State :=
  let v := stagedVerdict s
  let s1 := s.onTrust fun t => { t with permit := none }
  let s2 := if v.1 = 0x0601 then s1.onBoot fun b => { b with flash := Memory.erase b.flash (fwSlotBase (spareSlot s)) fwSlotLen } else s1
  adminDone c v.1 (if v.1 = 0 then s.boot.staged else 0) (s2.onBoot fun b => { b with stagedOk := decide (v.1 = 0), stagedPermit := v.2 })

/-- FW_STAGE: one chunk (R315). -/
def stageChunk (data : Bytes) (flashOk : Bool) (c : Cmd) (s : State) : State :=
  let off := specField c.entry 52 4
  let len := lengthField c.entry
  let s1 := if off = 0 then eraseSpare s else s
  if off ≠ s1.boot.staged ∨ fwSlotLen < off + len then adminDone c 0x0101 0 s
  else if !flashOk then
    adminDone c 0x0604 0 (if (specField c.entry 49 1).testBit 0 then s1.onTrust fun t => { t with permit := none } else s1)
  else
    let s2 := s1.onBoot fun b => { b with
      flash := Memory.writeBytes b.flash (fwSlotBase (spareSlot s) + off) (fit len data), staged := off + len, stagedOk := false }
    if (specField c.entry 49 1).testBit 0 then finishStage c s2 else adminDone c 0 (off + len) s2

/-- FW_STAGE. -/
def execFwStage (tag : BitVec 16) (data : Bytes) (flashOk : Bool) (s : State) : Host.Outcome State Fault Refusal :=
  goLive (adminRun tag opFwStage (stageChunk data flashOk)) s

/-! ## The checks of R390 -/

/-- The reason for which the staged image cannot take over: 0 a version in use that it lacks, 1 the format floor (R390, Table 15-3). -/
def activationLacks (s : State) : Option Nat :=
  let m := slotManifest s (spareSlot s)
  if s.host.qps.any fun x => decide (Config.imageOliahMax m < x.version) then some 0
  else if Config.imageFormatMax m < s.host.floor then some 1
  else none

/-! ## The switch (R357, R360, R389) -/

/-- The moment for a pending activation has come: no volume mounted, no I/O command outstanding, or the tape still (Table 11-8). -/
def switchReady (s : State) (mode : Nat) : Bool :=
  match mode with
  | 0 => s.drive.vol.isNone
  | 1 => !ioOutstanding s
  | _ => (s.stp.mode == .still || s.stp.mode == .off) && (s.wvn.state == .idle || s.wvn.state == .stopped)

/-- Fetching goes on and the tape starts again, and a function reset that waited for the switch acts (R296, R297). -/
def releaseHold (s : State) : State :=
  let s1 := s.onHost fun h => { h with holdForSwitch := false, resetAfterSwitch := none }
  let s2 := kickWrites false (restartIfAsked true s1)
  match s.host.resetAfterSwitch with
  | some p => functionReset p s2
  | none => s2

/-- MIN_VERSION falls to the version of an image staged under a permit, as it is activated (R360). -/
def permitFloor (s : State) : Version :=
  let v := manVersion (slotManifest s (spareSlot s))
  if s.boot.stagedPermit && versionLt v s.boot.minVersion then v else s.boot.minVersion

/-- The cores leave the barrier under the new image: PREFERRED, FAILS, the slot's code, the watchdog, record 0x0070 (R357, R389). -/
def handOverSwitch (mode : Nat) (s : State) : State :=
  let p := spareSlot s
  let v := manVersion (slotManifest s p)
  let s1 := setSlotCode p 10 (s.onBoot fun b => { b with
    preferred := p, fails := 1, slot := p, version := v, confirmed := false, watchdog := some (s.power.time + 2000 * msTicks, 4),
    activation := none, staged := 0, stagedOk := false, stagedPermit := false, minVersion := permitFloor s })
  lantern 0x0070 (versionBytes s.boot.version ++ versionBytes v ++ le 1 mode) (s1.onBlf fun b => { b with
    cores := b.cores.map fun k => { k with atBarrier := false } })

/-- An activation is cancelled at the barrier: nothing changes but that it is no longer pending; a command still waiting for it completes
with 0x0606, or 0x0603 when the image no longer verifies (R357, R390). -/
def cancelSwitch (reason : Option Nat) (s : State) : State :=
  let s1 := (endActivate (if reason.isSome then 0x0606 else 0x0603) s).onBoot fun b => { b with
    activation := none, stagedOk := b.stagedOk && reason.isSome }
  match reason, s.boot.activation with
  | some r, some (mode, _) =>
    if mode = 2 then s1 else lantern 0x0072 (versionBytes (manVersion (slotManifest s (spareSlot s))) ++ le 1 r) s1
  | _, _ => s1

/-- The barrier: the checks of R354 and R390 again, then the switch; FW_ACTIVATE completes with 0x0211 when a function reset waits
(R297, R357, R389, R390). -/
def switchCores (s : State) : State :=
  match s.boot.activation with
  | none => s
  | some (mode, _) =>
    if !switchReady s mode then s
    else
      let t := s.onBoot fun b => { b with minVersion := permitFloor s }
      if checkSlot t (spareSlot s) true true ≠ 1 then releaseHold (cancelSwitch none s)
      else
        match activationLacks s with
        | some r => releaseHold (cancelSwitch (some r) s)
        | none => releaseHold (handOverSwitch mode (endActivate (if s.host.resetAfterSwitch.isSome then 0x0211 else 0) s))

/-- ACTIVATION_SWITCH: the cores switch together at one barrier, once the mode's moment has come (R389). -/
def execActivationSwitch (s : State) : Host.Outcome State Fault Refusal := goLive (fun s => if normalMode s then switchCores s else s) s

/-- BARRIER_CORE_TIMEOUT: a core that has not arrived within 100 ms is taken out of service, and the barrier completes without it
(R389). -/
def execBarrierCoreTimeout (core : Fin 4) (s : State) : Host.Outcome State Fault Refusal :=
  goLive (fun s => match s.boot.activation with
    | some (mode, _) =>
      if normalMode s && switchReady s mode && s.blf.coreOk.getLsbD core then
        let s1 := takeOut .controlCore core.val s
        if normalMode s1 then switchCores s1 else s1
      else s
    | none => s) s

/-! ## FW_ACTIVATE (R296, R361, R390) -/

/-- In fallback a verified image acts at once: FAILS is cleared, its slot is preferred, and a part reset follows (R361). -/
def activateFallback (c : Cmd) (s : State) : State :=
  partReset 2 ((adminDone c 0 0 s).onBoot fun b => { b with fails := 0, preferred := spareSlot s })

/-- The tape goes to STILL through STOPPING for a mode-2 switch (Table 11-8). -/
def stopForSwitch (s : State) : State :=
  if s.wvn.state = .stream then
    enterStopping (if reading s then s else s.onWr fun w => { w with noFirst := true })
  else s

/-- An activation becomes pending in its mode; one that was pending is replaced, and a command that waited for it completes with 0x0600
(R296). The tick at which a timeout falls is kept with the command. -/
def beginActivation (mode : Nat) (c : Cmd) (s : State) : State :=
  let s1 := (endActivate 0x0600 s).onHost fun h => { h with holdForSwitch := false }
  let put := fun (t : Option (BitVec 16)) (s : State) => s.onBoot fun b => { b with activation := some (mode, t) }
  let tag := BitVec.ofNat 16 c.tag
  let due := fun (ms : Nat) => onCmd c.qid c.tag (fun k => { k with goal := s.power.time + ms * msTicks })
  match mode with
  | 0 => if s.drive.vol.isNone then put (some tag) s1 else adminDone c 0x0600 0 (put none s1)
  | 1 => due (1000 * specField c.entry 52 4) (put (some tag) s1)
  | _ => stopForSwitch ((due 10000 (put (some tag) s1)).onHost fun h => { h with holdForSwitch := true })

/-- FW_ACTIVATE (R296, R390). -/
def activate (c : Cmd) (s : State) : State :=
  if !s.boot.stagedOk then adminDone c 0x0603 0 s
  else if (activationLacks s).isSome then adminDone c 0x0606 0 s
  else if s.boot.phase = .fallback then activateFallback c s
  else if (match s.boot.activation with | some (_, some t) => t.toNat == c.tag | _ => false) then s
  else beginActivation (specField c.entry 48 1) c s

/-- FW_ACTIVATE. -/
def execFwActivate (tag : BitVec 16) (s : State) : Host.Outcome State Fault Refusal := goLive (adminRun tag opFwActivate activate) s

/-- A mode's time is up: FW_ACTIVATE completes with 0x0600 and the activation stays pending as mode 0 (Table 11-8). -/
def activationTimeout (mode : Nat) (s : State) : State :=
  match s.boot.activation with
  | some (m, some tag) =>
    if m = mode then
      let due := match cmdOf s 0 tag.toNat with | some c => c.goal | none => 0
      let s1 := (reply 0 tag.toNat 0x0600 0 (advanceTo due s)).onBoot fun b => { b with activation := some (0, none) }
      if mode = 2 then releaseHold s1 else s1
    else s
  | _ => s

/-- ACTIVATION_IDLE_TIMEOUT (Table 11-8, mode 1). -/
def execActivationIdleTimeout (s : State) : Host.Outcome State Fault Refusal := goLive (activationTimeout 1) s

/-- ACTIVATION_STILL_TIMEOUT (Table 11-8, mode 2). -/
def execActivationStillTimeout (s : State) : Host.Outcome State Fault Refusal := goLive (activationTimeout 2) s

end Sys2Proof.Machine
end

