-- ==== Sys2Proof/Machine/HwQueues.lean ====
section
/-! DEFINITION. The hardware queues' commands: items written and read, stale tails, flush and drain (R343 to R348). -/

namespace Sys2Proof.Machine

/-! ## Items (Table 13-5, R346) -/

/-- The 64 data bits of an item. -/
def hqWord (it : HqItem) : BitVec 64 := it.type ++ it.data

/-- Odd parity of each byte of a 64-bit word (Table 13-5). -/
def hqParity (w : BitVec 64) : BitVec 8 :=
  (List.range 8).foldl (fun p i => setBit p i (popcount (w.extractLsb' (8 * i) 8) % 2 == 0)) 0

/-- The item's parity is right. -/
def hqParityOk (it : HqItem) : Bool := it.parity == hqParity (hqWord it)

/-- An item as it is stored: one with bad parity gets POISON and fresh parity (R346). -/
def hqStored (it : HqItem) : HqItem :=
  if hqParityOk it then it else { it with poison := true, parity := hqParity (hqWord it) }

/-- The idle item (R345). -/
def hqIdle : HqItem := { type := 0, data := 0, parity := hqParity 0, poison := false, pri := 0, first := true, last := true }

/-! ## A queue -/

/-- A hardware queue. -/
def hwq (s : State) (q : Nat) : HwQueue := getAt s.hq.queues q {}

/-- Apply f to a hardware queue. -/
def onHwq (q : Nat) (f : HwQueue → HwQueue) (s : State) : State := s.onHq fun h => { h with queues := updAt h.queues q f }

/-- Words held, open packets and the rest of the packet being read included (Table 13-8). -/
def hqOccupancy (k : HwQueue) : Nat :=
  (k.packets.map List.length).sum + (k.opens.map fun o => o.items.length).sum +
  (match k.reading with | some (rest, _) => rest.length | none => 0)

/-- HIGH_WATER in words (R343). -/
def hqHigh (k : HwQueue) : Nat := k.highWater * 2 ^ k.capLog2 / 256

/-- The open packet of a writer. -/
def hqOpen (k : HwQueue) (w : Fin 4) : Option OpenPacket := k.opens.find? fun o => o.writer == w

/-- A FIRST item of a writer may be accepted (R344). -/
def hqAdmits (k : HwQueue) (w : Fin 4) : Bool :=
  !k.draining && decide (k.maxPacket * ((k.opens.filter fun o => o.writer != w).length + 1) + hqOccupancy k ≤ 2 ^ k.capLog2)

/-- The queue's source, and the summary for a sequence error, a stale tail or poison (Table 13-1, R346, R347). -/
def hqRaise (q : Nat) (s : State) : State := raise (384 + q) s

/-- A sequence error (Table 13-6). -/
def hqSeqError (q : Nat) (s : State) : State := hqRaise q (onHwq q (fun k => { k with errSeq := min 65535 (k.errSeq + 1) }) s)

/-- The open packet of a writer is rewound; its further items up to the next FIRST are discarded when asked. -/
def hqRewind (w : Fin 4) (skip : Bool) (k : HwQueue) : HwQueue :=
  { k with opens := k.opens.filter (fun o => o.writer != w), skip := if skip then setBit k.skip w true else k.skip }

/-- Accept an item into the writer's packet; LAST commits it (R344). -/
def hqAccept (w : Fin 4) (now : Nat) (it : HqItem) (k : HwQueue) : HwQueue :=
  let items := (match hqOpen k w with | some o => o.items | none => []) ++ [it]
  let rest := k.opens.filter fun o => o.writer != w
  if it.last then { k with opens := rest, packets := k.packets ++ [items] }
  else { k with opens := rest ++ [⟨w, items, now⟩] }

/-- Accept an item and raise the queue's source when the occupancy rises past HIGH_WATER. -/
def hqTake (q : Nat) (w : Fin 4) (it : HqItem) (s : State) : State :=
  let k := hwq s q
  let s1 := onHwq q (hqAccept w s.power.time it) s
  if hqOccupancy k < hqHigh k ∧ hqHigh k ≤ hqOccupancy (hwq s1 q) then hqRaise q s1 else s1

/-- A FIRST item opens the writer's packet, or is held until there is room (R344). -/
def hqFirst (q : Nat) (w : Fin 4) (it : HqItem) (s : State) : State :=
  let s1 := onHwq q (fun k => { k with skip := setBit k.skip w false }) s
  if hqAdmits (hwq s1 q) w then hqTake q w it s1 else onHwq q (fun k => { k with held := k.held ++ [(w, it)] }) s1

/-- Accept held FIRST items, in order, as far as there is room (R344). -/
def hqAdmit (q : Nat) (s : State) : State :=
  forEach (hwq s q).held (fun e t =>
    if hqAdmits (hwq t q) e.1 then hqTake q e.1 e.2 (onHwq q (fun k => { k with held := k.held.filter fun x => x.1 != e.1 }) t) else t) s

/-- Put one item to the reader: the stored parity is checked again, and after a packet's first poisoned item the rest carry POISON; each
poisoned item is counted and raises the queue source and source 474 (R346). -/
def hqDeliver (q : Nat) (it : HqItem) (poisoned : Bool) (rest : List HqItem) (s : State) : State :=
  let bad := it.poison || poisoned || !hqParityOk it
  let s0 := if hqParityOk it then s else s.onHq fun h => { h with cntParity := inc h.cntParity }
  let s1 := onHwq q (fun k => { k with reading := if rest.isEmpty then none else some (rest, bad) }) s0
  let s2 := emit (.hqItem q { it with poison := bad }) s1
  if bad then
    lantern 0x00D0 (le 1 0 ++ le 1 q) (raise 474 (hqRaise q (onHwq q (fun k => { k with errPoison := min 65535 (k.errPoison + 1) }) s2)))
  else s2

/-- PRI of a packet, from its FIRST item. -/
def hqPri (p : List HqItem) : Nat := match p with | it :: _ => it.pri.val | [] => 3

/-- The place of the packet to read: the oldest of the lowest PRI (R345). -/
def hqNext (ps : List (List HqItem)) : Option Nat :=
  match (List.range 4).find? fun p => ps.any fun k => hqPri k == p with
  | some p => (List.range ps.length).find? fun i => hqPri (ps.getD i []) == p
  | none => none

/-- The reader takes an item: the mark of a truncation, the next of its packet, or the first of the next packet; an empty queue
gives the idle item, or holds a blocking read (R345, R348). -/
def hqRead (q : Nat) (blocking : Bool) (s : State) : State :=
  let k := hwq s q
  if k.truncated then
    emit (.hqItem q { hqIdle with first := false, poison := true }) (onHwq q (fun k => { k with truncated := false }) s)
  else
    match k.reading with
    | some (it :: rest, bad) => hqAdmit q (hqDeliver q it bad rest s)
    | some ([], _) | none =>
      match hqNext k.packets with
      | some i =>
        (match k.packets.getD i [] with
         | it :: rest => hqAdmit q (hqDeliver q it false rest (onHwq q (fun k => { k with packets := k.packets.eraseIdx i, waiting := false }) s))
         | [] => s)
      | none => if blocking then onHwq q (fun k => { k with waiting := true }) s else emit (.hqItem q hqIdle) s

/-- A blocking read that waits gets the first item of the packet that has come (R345). -/
def hqWake (q : Nat) (s : State) : State :=
  let k := hwq s q
  if k.waiting && !k.packets.isEmpty then hqRead q true s else s

/-- An idle item shows that its writer is alive and takes no space (R345). -/
def hqAlive (q : Nat) (w : Fin 4) (s : State) : State :=
  onHwq q (fun k => { k with opens := mapIf (fun o => o.writer == w) (fun o => { o with at_ := s.power.time }) k.opens }) s

/-- Write one item (R344, R345, R346, Table 13-6). -/
def hqWrite (q : Nat) (w : Fin 4) (item : HqItem) (s : State) : State :=
  let it := hqStored item
  let s1 := if hqParityOk item then s else raise 474 (s.onHq fun h => { h with cntParity := inc h.cntParity })
  let k := hwq s1 q
  if it.type = 0 then hqAlive q w s1
  else
    match hqOpen k w, it.first with
    | some _, true => hqFirst q w it (hqSeqError q (onHwq q (hqRewind w false) s1))
    | some o, false =>
      if k.maxPacket ≤ o.items.length then hqAdmit q (hqSeqError q (onHwq q (hqRewind w true) s1)) else hqTake q w it s1
    | none, true => hqFirst q w it s1
    | none, false => if k.skip.getLsbD w then s1 else hqSeqError q s1

/-! ## The commands -/

/-- HQ_ITEM_WRITE; while the writer's FIRST item is held, its handshake is held and nothing more of it comes (R344). -/
def execHqItemWrite (q : Fin 64) (writer : Fin 4) (item : HqItem) (s : State) : Host.Outcome State Fault Refusal :=
  go (fun s => if (hwq s q).held.any fun e => e.1 == writer then s else hqWake q (hqWrite q writer item s)) s

/-- HQ_ITEM_READ (R345). -/
def execHqItemRead (q : Fin 64) (blocking : Bool) (s : State) : Host.Outcome State Fault Refusal := go (hqRead q blocking) s

/-- HQ_STALE_TAIL: the stale window of a writer's open packet closes (R347). -/
def execHqStaleTail (q : Fin 64) (writer : Fin 4) (s : State) : Host.Outcome State Fault Refusal :=
  go (fun s =>
    let k := hwq s q
    match hqOpen k writer with
    | some o =>
      if k.staleTail = 0 then s
      else
        let s1 := advanceTo (o.at_ + usTicks * k.staleTail) s
        let s2 := hqSeqError q (onHwq q (hqRewind writer true) s1)
        hqWake q (hqAdmit q (lantern 0x00D0 (le 1 1 ++ le 1 q) (raise 474 (s2.onHq fun h => { h with cntStale := inc h.cntStale }))))
    | none => s) s

/-- HQ_FLUSH (R348). -/
def execHqFlush (q : Fin 64) (s : State) : Host.Outcome State Fault Refusal :=
  go (fun s => hqWake q (hqAdmit q ((onHwq q (fun k => { k with
    packets := [], opens := [], truncated := k.truncated || k.reading.isSome, reading := none, skip := 0xF }) s).onHq fun h =>
      { h with cntFlush := inc h.cntFlush }))) s

/-- HQ_DRAIN: new FIRST items are held until the queue is empty (R348). -/
def execHqDrain (q : Fin 64) (s : State) : Host.Outcome State Fault Refusal := go (onHwq q fun k => { k with draining := true }) s

/-- HQ_DRAIN_DONE: the queue holds no item; the drain completes and held items go on (R348). -/
def execHqDrainDone (q : Fin 64) (s : State) : Host.Outcome State Fault Refusal :=
  go (fun s =>
    let k := hwq s q
    if k.draining && decide (hqOccupancy k = 0) then hqWake q (hqAdmit q (onHwq q (fun k => { k with draining := false }) s)) else s) s

end Sys2Proof.Machine
end

