-- ==== Sys2Proof/Machine/Programs.lean ====
section
/-! DEFINITION. Motion programs: their start and every step of Table 07-10 (R199 to R201). A row of a step acts when that step is in hand and
the program is not paused; a step that waits begins on its row's first occurrence and completes on a later one, once its condition holds. -/

namespace Sys2Proof.Machine

/-- PROGRAM_START: the firmware starts a program, or Steeple refuses it (R190, R199). -/
def execProgramStart (prog : Fin 64) (p0 p1 p2 p3 : BitVec 32) (s : State) : Host.Outcome State Fault Refusal :=
  goLive (startProgram prog.val p0.toNat p1.toNat p2.toNat p3.toNat) s

/-- Run the step in hand when it is of this opcode; a program runs in MOVE only, and FB_HOLD pauses it (R190). -/
def runStep (op : Nat) (f : Nat → Nat → State → State) (s : State) : State :=
  match stepInHand s with
  | some (o, a, b) => if o = op ∧ s.stp.mode = .move then f a b s else s
  | none => s

/-- A step that waits: it begins, with a timeout in ticks where it has one, and leads on once its condition holds. -/
def waitStep (timeout : Option Nat) (done : State → Bool) (s : State) : State :=
  let s1 := beginWait timeout s
  if done s1 then nextStep s1 else s1

/-- Milliseconds as a timeout. -/
def msTimeout (n : Nat) : Option Nat := some (n * msTicks)

/-- The program is over. -/
def endProgram (s : State) : State :=
  s.onStp fun p => { p with program := { p.program with running := false, waiting := false, due := none } }

/-- A TURNAROUND or BACKHITCH that ends beyond its bound makes a record (R130, R199). -/
def lateRecord (role limitMs : Nat) (s : State) : State :=
  if s.stp.program.role = role ∧ s.stp.program.started + limitMs * msTicks < s.power.time then stpRecord 2 s else s

/-- END in TRACK: Weathervane's set-point governs, and a turnaround is over (R128, R190). -/
def endTrack (s : State) : State :=
  let s1 := lateRecord 4 1000 (endProgram s)
  let s2 := setSpeed (weathervaneSpeed s1) (aTrack s1) ((setMode .track s1).onStp fun p => { p with wvnSpeed := false })
  if s2.stp.program.role = 4 ∧ s2.wvn.state = .turn then setWvn .stream (s2.onWvn fun w => { w with frozen := false }) else s2

/-- END: STILL with the tape stopped, TRACK at speed under LAT_FOLLOW, OFF with the tape stopped; else the program faults (R190, R201). -/
def stepEnd (a : Nat) (s : State) : State :=
  match a with
  | 0 => if tapeStopped s then stillAgain (enterStill (lateRecord 5 2200 s)) else programFault 5 s
  | 1 => if speedNear s ∧ s.stp.latLaw = 0 then endTrack s else programFault 5 s
  | 2 => if tapeStopped s then (if s.pins.motFaultN then inhibitOff .motFault (enterOff false s) else enterOff false s) else programFault 5 s
  | _ => programFault 2 s

/-- END (R190). -/
def execProgEnd (s : State) : Host.Outcome State Fault Refusal := goLive (runStep 0 fun a _ s => stepEnd a s) s

/-- In TURN the re-acceleration takes r_cmd from the fill at that moment, with the voltage step of R20 and without the slew (R128). -/
def turnRatio (s : State) : State :=
  if s.wvn.state = .turn then
    let r := ratioNow s
    askRatio r (s.onWvn fun w => { w with rCmd := r })
  else s

/-- SPEED: a new set-point and its ramp; with SRC 5 Weathervane's, which a later change of r moves (R128, R200). -/
def stepSpeed (a b : Nat) (u : State) : State :=
  let src := decide (stepSrc u = 5)
  let s := (if src then turnRatio u else u).onStp fun p => { p with wvnSpeed := src }
  let v : Rat := if src then weathervaneSpeed s else (signed 32 a : Rat) / 1000000
  if absRat v ≤ 8 ∧ (b : Rat) ≤ plantOf s .aMax then nextStep (setSpeed v ((b : Rat) / 1000) s) else programFault 2 s

/-- SPEED (R200). -/
def execProgSpeed (s : State) : Host.Outcome State Fault Refusal := goLive (runStep 1 stepSpeed) s

/-- WAIT_SPEED: 16 frames within 1 % (R192, R200). -/
def execProgWaitSpeed (s : State) : Host.Outcome State Fault Refusal :=
  goLive (runStep 2 fun _ b s => waitStep (msTimeout b) (fun t => t.stp.speedOk) s) s

/-- The reel loop goes under REEL_POSITION, handed over from the reference in force, which has no terms of its own (R186, R191). -/
def enterPosition (v posErr : Rat) (s : State) : State :=
  (handOverFrom s.stp.vRef 0 5 posErr 0 0 (sampleMs s) s).onStp fun p => { p with reelLaw := 5, vSet := if p.stopping.isSome then p.vSet else v }

/-- The tape stands within 100 µm of an LPOS's start (R200). -/
def standsAt (lpos : Nat) (s : State) : Bool :=
  decide (absRat (lposDistance s lpos) ≤ 1 / 10) && decide (absRat s.stp.v < 1 / 10) && s.stp.reels.toList.all fun r => !r.ok || reelStill s r

/-- GOTO_LPOS: REEL_POSITION takes the tape to an LPOS at no more than the approach speed (R186, R200). -/
def stepGoto (a b : Nat) (s : State) : State :=
  if 8000 < b ∨ 2 ^ 24 ≤ a then programFault 2 s
  else if !s.stp.program.waiting then beginWait none (enterPosition ((b : Rat) / 1000) (lposDistance s a) s)
  else if standsAt a s then nextStep (s.onStp fun p => { p with reelLaw := 4, vSet := 0, vRef := 0 })
  else s

/-- GOTO_LPOS (R200). -/
def execProgGotoLpos (s : State) : Host.Outcome State Fault Refusal := goLive (runStep 3 stepGoto) s

/-- An LPOS has been passed in the direction of motion (R200). -/
def passedLpos (lpos : Nat) (s : State) : Bool := if forward s then decide (lposDistance s lpos ≤ 0) else decide (0 ≤ lposDistance s lpos)

/-- WAIT_LPOS (R200). -/
def execProgWaitLpos (s : State) : Host.Outcome State Fault Refusal :=
  goLive (runStep 4 fun a b s => if 2 ^ 24 ≤ a then programFault 2 s else waitStep (msTimeout b) (passedLpos a) s) s

/-- A wrap lies in the partition map; with no volume mounted, on the tape (R201). -/
def wrapInMap (s : State) (w : Nat) : Bool :=
  match s.drive.vol with
  | some v => v.parts.toList.any fun p => p.inUse && decide (p.firstWrap ≤ w ∧ w ≤ p.lastWrap)
  | none => decide (w ≤ 19)

/-- How far the readers stand from a new lateral target, µm (R184). -/
def lateralGap (before after : State) : Rat :=
  meanRat ((usableReaders before).map fun i =>
    absRat ((getAt before.stp.readers i {}).err + lateralTarget after i - lateralTarget before i + after.stp.bandGap))

/-- LATERAL: the wrap, the purpose and the offset; another band, 2,700 µm on for each band away from the reference edge, or a target beyond
the voice coil's stroke, runs under LAT_SEEK (R183, R184, R200). -/
def stepLateral (a b : Nat) (s : State) : State :=
  let w := bits a 0 5
  if 64 ≤ a ∨ !wrapInMap s w then programFault 2 s
  else
    let bands : Int := (w / 5 : Int) - (s.stp.latWrap / 5 : Int)
    let s1 := s.onStp fun p => { p with
      latWrap := w, latRead := a.testBit 5, latOfs := signed 16 b, bandGap := p.bandGap + 2700 * (bands : Rat) }
    let seek := bands ≠ 0 ∨ plantOf s .stroke < lateralGap s s1
    nextStep (if seek ∧ s.stp.latLaw ≠ 1 then
      (handOver s.stp.latLaw 1 (lateralErr s) 0 (rcOut s 0) (sampleMs s) s1).onStp fun p => { p with latLaw := 1 } else s1)

/-- LATERAL (R200). -/
def execProgLateral (s : State) : Host.Outcome State Fault Refusal := goLive (runStep 5 stepLateral) s

/-- WAIT_LAT: every |e_r| within the settle band for 8 samples (R200). -/
def execProgWaitLat (s : State) : Host.Outcome State Fault Refusal :=
  goLive (runStep 6 fun a _ s => waitStep (msTimeout a) (fun t => decide (8 ≤ t.stp.program.met)) s) s

/-- TILT: TILT_SPAN, or a fixed angle within the actuator's range (R185, R200). -/
def stepTilt (a b : Nat) (s : State) : State :=
  let x := signed 32 a
  match b with
  | 0 => nextStep (s.onStp fun p => { p with tiltFixed := none })
  | 1 => if x.natAbs ≤ 25000 then nextStep (s.onStp fun p => { p with tiltFixed := some ((x : Rat) / 10000) }) else programFault 2 s
  | _ => programFault 2 s

/-- TILT (R200). -/
def execProgTilt (s : State) : Host.Outcome State Fault Refusal := goLive (runStep 7 stepTilt) s

/-- LAW: a loop goes over to another of its laws, with a hand-over (R180, R191, R200). TENSION is always in force in the reel loop (R186), so
naming it changes nothing; REEL_SPEED takes over from REEL_POSITION at the v_ref in force. -/
def stepLaw (a : Nat) (s : State) : State :=
  let loop := bits a 0 2
  let law := bits a 2 4
  if 64 ≤ a then programFault 2 s
  else match loop with
    | 0 =>
      if law ≤ 2 then
        nextStep ((handOver s.stp.latLaw law (lateralErr s) 0 (rcOut s 0) (sampleMs s) s).onStp fun p => { p with latLaw := law })
      else programFault 2 s
    | 1 => if law = 3 then nextStep s else programFault 2 s
    | 2 =>
      if law = 5 then nextStep (enterPosition s.stp.vSet 0 s)
      else if law = 4 then nextStep (s.onStp fun p => { p with reelLaw := 4 })
      else if law = 6 then nextStep s
      else programFault 2 s
    | _ => programFault 2 s

/-- LAW (R200). -/
def execProgLaw (s : State) : Host.Outcome State Fault Refusal := goLive (runStep 8 fun a _ s => stepLaw a s) s

/-- TENSION: a set-point within F_MIN and F_MAX, reached at the step's ramp (R189, R200). The range is the model's (log 161). -/
def stepTension (a b : Nat) (s : State) : State :=
  if plantOf s .fMin ≤ a ∧ (a : Rat) ≤ plantOf s .fMax then nextStep (s.onStp fun p => { p with fGoal := some ((a : Rat), (b : Rat)) })
  else programFault 2 s

/-- TENSION (R200). -/
def execProgTension (s : State) : Host.Outcome State Fault Refusal := goLive (runStep 9 stepTension) s

/-- DELAY: the step begins, and its row's next occurrence is the moment A µs later (R200). -/
def stepDelay (a : Nat) (s : State) : State :=
  if s.stp.program.waiting then nextStep (advanceTo (s.stp.program.due.getD 0) s) else beginWait (some (a * usTicks)) s

/-- DELAY (R200). -/
def execProgDelay (s : State) : Host.Outcome State Fault Refusal := goLive (runStep 10 fun a _ s => stepDelay a s) s

/-- A BRANCH's condition; none for a value outside Table 07-10. -/
def branchOn (s : State) (b : Nat) : Option Bool :=
  match b with
  | 0 => some true
  | 1 => some (forward s)
  | 2 => some (tapeStopped s)
  | 3 => some s.stp.lposValid
  | 4 => some ((getAt s.stp.program.params 0 0) != 0)
  | 5 => some (s.stp.latWrap % 2 == 0)
  | _ => none

/-- BRANCH (R200). -/
def stepBranch (a b : Nat) (s : State) : State :=
  match branchOn s b with
  | none => programFault 2 s
  | some taken =>
    if 32 ≤ a then programFault 2 s
    else if taken then s.onStp fun p => { p with program := { p.program with step := a, waiting := false, due := none, met := 0 } }
    else nextStep s

/-- BRANCH (R200). -/
def execProgBranch (s : State) : Host.Outcome State Fault Refusal := goLive (runStep 11 stepBranch) s

/-- ENABLE: the enables of the five stages (R171, R200). -/
def stepEnable (a : Nat) (s : State) : State := if 32 ≤ a then programFault 2 s else nextStep (setEnables (BitVec.ofNat 5 a) s)

/-- ENABLE (R200). -/
def execProgEnable (s : State) : Host.Outcome State Fault Refusal := goLive (runStep 12 fun a _ s => stepEnable a s) s

/-- EVENT: its code goes to the cores through Belfry (R200). -/
def execProgEvent (s : State) : Host.Outcome State Fault Refusal :=
  goLive (runStep 13 fun a _ s => nextStep (stpEvent (s.onStp fun p => { p with eventCode := a }))) s

/-- CHAIN: control passes to a program 8 to 63 that is not empty (R199 to R201). -/
def stepChain (a : Nat) (s : State) : State :=
  if a < 8 ∨ 63 < a then programFault 2 s
  else if programEmpty s a then programFault 3 s
  else s.onStp fun p => { p with program := { p.program with prog := a, step := 0, waiting := false, due := none, met := 0 } }

/-- CHAIN (R200). -/
def execProgChain (s : State) : Host.Outcome State Fault Refusal := goLive (runStep 14 fun a _ s => stepChain a s) s

/-- STOP: the set-point goes to zero at a deceleration; the step ends once the tape stands (R200). -/
def stepStop (a : Nat) (s : State) : State :=
  if plantOf s .aMax < a then programFault 2 s
  else if s.stp.program.waiting then (if tapeStopped s then nextStep s else s)
  else beginWait none (setSpeed 0 ((a : Rat) / 1000) s)

/-- STOP (R200). -/
def execProgStop (s : State) : Host.Outcome State Fault Refusal := goLive (runStep 15 fun a _ s => stepStop a s) s

/-- WAIT_TIMEOUT: a WAIT step has reached its timeout: fault code 1 (R201). -/
def waitTimeout (s : State) : State :=
  match stepInHand s, s.stp.program.due with
  | some (op, _, _), some t =>
    if (op = 2 ∨ op = 4 ∨ op = 6) ∧ s.stp.program.waiting ∧ s.stp.mode = .move then programFault 1 (advanceTo t s) else s
  | _, _ => s

/-- WAIT_TIMEOUT (R201). -/
def execWaitTimeout (s : State) : Host.Outcome State Fault Refusal := goLive waitTimeout s

end Sys2Proof.Machine
end

