-- ==== Sys2Proof/Machine/ReadRows.lean ====
section
/-! DEFINITION. What follows levels 1 to 3 on the read path: dome recovery, the passes of the retry menu, decryption, decompression, and the
host-bound queue (R19, R84 to R86, R159 to R161, R236, R237, R252, R261). -/

namespace Sys2Proof.Machine

/-! ## Dome recovery (R84, R85) -/

/-- N of the member of a dome at a position. -/
def memberN (g dome pos : Nat) : Nat := 512 * g + 8 * pos + dome

/-- A copy on tape that still decodes (R85). -/
def tapeCopy (s : State) (n : Nat) : Option Bytes :=
  match s.drive.cart with
  | some c => (c.slots.find? fun t => t.n == n && t.whole && t.decodes).map (·.payload)
  | none => none

/-- The recorded payload of a data set in read-ahead: as decoded, or from its plaintext where it is not encrypted; the ciphertext of a decrypted
one has gone, and the tape moves to read it (R84, R133, log 170). -/
def heldPayload (s : State) (r : RaSet) : Option Bytes :=
  match r.plain with
  | none => some r.payload
  | some user => if (descriptorOf r.payload).cipher = 0 then some (r.payload.take 256 ++ user) else tapeCopy s r.n

/-- The payload of a dome member that has decoded with levels 1 to 3, in a retry pass or before: from read-ahead, or from the tape, which moves
to read it (R84, R85, log 170). -/
def memberPayload (s : State) (n : Nat) : Option Bytes :=
  match s.rd.sets.find? fun r => r.n == n with
  | some r => if r.level = 4 ∨ r.level = 6 then none else heldPayload s r
  | none => if (failedSet s n).isSome then none else tapeCopy s n

/-- A data set of this number has been met: in read-ahead, as one that failed, or on the tape (R54, R157). -/
def metN (s : State) (n : Nat) : Bool :=
  (s.rd.sets.any fun r => r.n == n) || (failedSet s n).isSome ||
  (match s.drive.cart with | some c => c.slots.any fun t => t.n == n | none => false)

/-- The last data position of a group: once a parity set of it has been met, the highest position met before them, which a group closed early has
below 495 even where its closing data set has failed (R54). -/
def groupEndOf (s : State) (g : Nat) : Nat :=
  if (List.range 16).any fun k => metN s (512 * g + 496 + k) then ((List.range 496).reverse.find? fun m => metN s (512 * g + m)).getD 495 else 495

/-- The members of a dome: the payload of each position, with the absent positions of a closed group all zeros, none for a failed one. -/
def domeMembers (s : State) (g dome : Nat) : List (Nat × Option Bytes) :=
  let last := groupEndOf s g
  (List.range 64).map fun pos =>
    if pos < 62 ∧ last < 8 * pos + dome then (pos, some (zeros payloadBytes)) else (pos, memberPayload s (memberN g dome pos))

/-- The failed data sets of a dome whose turn at level 4 or 6 has come. -/
def domeWaiting (s : State) (g dome : Nat) : List FailedSet :=
  s.rd.failed.filter fun f => groupOf f.n == g && domeOf f.n == dome && !f.unrecoverable && (nextLevel f == 4 || nextLevel f == 6)

/-- A rebuilt member takes its place like a decoded one, counted; its level is the one in hand, 6 for one that every level had failed (R85,
R86). -/
def placeRebuilt (n : Nat) (payload : Bytes) (s : State) : State :=
  match failedSet s n with
  | none => s
  | some f => (placeSet n f.wrap (f.slots.headD 0) (if nextLevel f = 4 then 4 else 6) f.regs payload s).onEcc fun e => { e with cntDome := inc e.cntDome }

/-- DOME_RECOVERY: one or two failed members of a dome are rebuilt from the others; with three the attempt has failed (R85).
In STOPPED it waits for RESTART (R131). -/
def domeRecovery (g dome : Nat) (s : State) : State :=
  let waiting := domeWaiting s g dome
  if waiting = [] ∨ s.wvn.state = .stopped then s
  else
    let members := domeMembers s g dome
    let lost := (members.filter fun m => m.2.isNone).map (·.1)
    let surv := members.filterMap fun m => m.2.map fun b => (m.1, b)
    match lost with
    | [a] => serveAll (forEach ((lost.map (memberN g dome)).zip (domeRebuild a none surv)) (fun x => placeRebuilt x.1 x.2) s)
    | [a, b] => serveAll (forEach ((lost.map (memberN g dome)).zip (domeRebuild a (some b) surv)) (fun x => placeRebuilt x.1 x.2) s)
    | _ =>
      serveAll (forEach waiting (fun f t => escalate f.n (onFailed f.n (fun x => { x with domes := x.domes + 1 }) t)) s)

/-- DOME_RECOVERY (R85). -/
def execDomeRecovery (group : Nat) (dome : Fin 8) (s : State) : Host.Outcome State Fault Refusal := goLive (domeRecovery group dome.val) s

/-! ## The retry menu (R159 to R161) -/

/-- The retries are over for a data set: another one's begin, or the run goes on where it stopped, through RESTART, unless it had
met its end (R160). -/
def afterRetry (s : State) : State :=
  match retryNext s with
  | some _ => startRetry s
  | none => let t := endRetry s; if t.rd.ended then endRun t else restart t

/-- RETRY_ATTEMPT_DONE: the pass is over. Unless the data set has decoded, the menu's next attempt follows, up to its end (R159). -/
def retryDone (s : State) : State :=
  match s.rd.retry with
  | none => s
  | some (n, k) =>
    if s.wvn.run ≠ .retry then s
    else
      let s1 := (onFailed n (fun f => { f with attempts := k + 1 }) s).onTiles fun t => { t with asm := [] }
      match failedSet s1 n with
      | some f =>
        if k + 1 < s1.rd.menu.length then startPass f (k + 1) s1
        else serveAll (afterRetry (giveUp n (onFailed n (fun f => { f with retried := true }) s1)))
      | none => afterRetry s1

/-- RETRY_ATTEMPT_DONE (R159). -/
def execRetryAttemptDone (s : State) : Host.Outcome State Fault Refusal := goLive retryDone s

/-! ## Decryption (R19, R46, R252, R261) -/

/-- Byte 5 under which read-ahead is decrypted: that of the first started reading command of the partition that asks for decryption, else
that of a command that names no slot. -/
def readSlotField (s : State) : Nat :=
  match (byOrder s.host.cmds).find? fun c => isReading c && c.phase == .started && partField c.entry == s.rd.part && !noDecrypt c with
  | some c => slotField c.entry
  | none => 0xFF

/-- The key of a data set: none for an unencrypted one; it is not decrypted while no slot qualifies. -/
def decryptKey (s : State) (d : Descriptor) : Option (Option (Nat × Gen)) :=
  if d.cipher = 0 then some none
  else match decryptSlot s (readSlotField s) d.keyId with
    | some i => (curGen s i).map fun g => some (i, g)
    | none => none

/-- The oldest data set in read-ahead that can be decrypted and is not. -/
def decryptNext (s : State) : Option (RaSet × Option (Nat × Gen)) :=
  (s.rd.sets.filter fun r => userSet r && r.plain.isNone && decide ((descriptorOf r.payload).revision ≤ formatMax)).findSome? fun r =>
    (decryptKey s (descriptorOf r.payload)).map fun k => (r, k)

/-- The plaintext user area of a payload, when its tag or its CRC-64 passes (R46, Table 02-11). -/
def openedUser (s : State) (payload : Bytes) (key : Option (Nat × Gen)) : Option Bytes :=
  let d := descriptorOf payload
  let head := slice payload 0 240
  let user := slice payload 256 userBytes
  match key with
  | none => if field payload 240 8 = crc64Bytes (head ++ user) then some user else none
  | some (_, g) => gcmDecrypt (cipherKey s d.cipher g) d.iv head user (slice payload 240 16)

/-- A tag has failed: counted and recorded; the data set has not decoded at its level and goes on to the next (R261). -/
def tagFails (r : RaSet) (s : State) : State :=
  let f : FailedSet :=
    { part := r.part, n := r.n, wrap := r.wrap, slots := [r.slot], rows := [], attempts := 0, retried := decide (5 ≤ r.level),
      domes := if r.level = 4 then 1 else if r.level = 6 then 2 else 0, unrecoverable := false, tagFailed := true, regs := r.regs }
  let s1 := (s.onCupola fun c => { c with cntTagFail := inc c.cntTagFail }).onRd fun x => { x with
    sets := x.sets.filter (fun y => y.n != r.n), failed := x.failed ++ [f] }
  escalate r.n (lantern 0x00C0 (le 1 1 ++ le 6 r.n) s1)

/-- DECRYPT_INVOCATION: one data set of read-ahead is decrypted and its tag checked before anything of it is used (R19). -/
def decryptOne (s : State) : State :=
  match decryptNext s with
  | none => s
  | some (r, k) =>
    let cipher := (descriptorOf r.payload).cipher
    let s1 := match k with
      | some (i, g) => holdDerived i g.num cipher (countInv (needDomains (88 + cipherCore s.cupola) 1 s))
      | none => s
    match openedUser s r.payload k with
    | some user =>
      let opened := fun (y : RaSet) => { y with plain := some user, payload := y.payload.take 256, keySlot := k.map Prod.fst }
      serveAll (s1.onRd fun x => { x with sets := mapIf (fun y => y.n == r.n) opened x.sets })
    | none => serveAll (tagFails r s1)

/-- DECRYPT_INVOCATION (R252, R261): a cipher core in service does it. -/
def execDecryptInvocation (s : State) : Host.Outcome State Fault Refusal :=
  goLive (fun s => if s.cupola.inService = 0 then s else decryptOne s) s

/-! ## Decompression and the host-bound queue (R19, R236, R237) -/

/-- A frame has been decompressed and checked in full: its output is released, or the frame is invalid (R236, R237). -/
def decompressed (it : DecompItem) (s : State) : State :=
  match zstdDecode it.length it.frame with
  | some out => s.onRd fun r => { r with packets := r.packets ++
      [{ part := it.part, lon := it.lon, block := it.block, bytes := out, deps := it.deps, committed := false }] }
  | none =>
    lantern 0x00C0 (le 1 0 ++ le 6 (it.deps.headD 0))
      ((s.onCz fun c => { c with cntErr := inc c.cntErr }).onRd fun r => { r with badBlocks := r.badBlocks ++ [(it.part, it.lon, it.block)] })

/-- DECOMPRESSION_BLOCK_DONE: the frame at the head of an engine's queue. -/
def blockDecompressed (e : Nat) (s : State) : State :=
  match getAt s.cz.decomp e [] with
  | [] => s
  | it :: rest => serveAll (decompressed it (s.onCz fun c => { c with decomp := putAt c.decomp e rest }))

/-- DECOMPRESSION_BLOCK_DONE (R236, R237). -/
def execDecompressionBlockDone (e : Fin 4) (s : State) : Host.Outcome State Fault Refusal := goLive (blockDecompressed e.val) s

/-- The tags of everything a packet depends on have passed: none of its data sets waits for decryption or has failed (R19). -/
def tagsPassed (s : State) (k : HostPacket) : Bool :=
  !(k.deps.any fun n => (s.rd.failed.any fun f => f.n == n) || s.rd.sets.any fun r => r.n == n && r.plain.isNone)

/-- HOST_PACKET_COMMIT: the oldest packet of the host-bound queue commits, once the tags of all it depends on have passed (R19). -/
def packetCommit (s : State) : State :=
  match s.rd.packets.find? fun k => !k.committed with
  | none => s
  | some k =>
    if tagsPassed s k then
      serveAll (s.onRd fun r => { r with packets := mapIf (fun x => x == k) (fun x => { x with committed := true }) r.packets })
    else s

/-- HOST_PACKET_COMMIT (R19). -/
def execHostPacketCommit (s : State) : Host.Outcome State Fault Refusal := goLive packetCommit s

end Sys2Proof.Machine
end

