-- ==== Sys2Proof/Machine/Registers.lean ====
section
/-! DEFINITION. The register map: what every offset of BAR0 reads (Tables 17-1 to 17-3 and the chapters' own), what a read clears or latches
(R415, R416), what a write changes (R8, R9, R418), and accesses that are not served (R413, R414). -/

namespace Sys2Proof.Machine

/-! ## Fields -/

/-- A number saturated to n bits. -/
def satBits (n : Nat) (x : Int) : Nat := min (2 ^ n - 1) x.toNat

/-- A signed number in n bits of two's complement, saturated. -/
def satSigned (n : Nat) (x : Int) : Nat :=
  (max (-2 ^ (n - 1)) (min (2 ^ (n - 1) - 1) x) % 2 ^ n).toNat

/-- A rational in units of 1/k as a signed field, rounded to the nearest and saturated. -/
def fixSigned (n k : Nat) (x : Rat) : Nat := satSigned n (roundRat (x * k))

/-- Word k of a long bit vector. -/
def wordOf {w : Nat} (v : BitVec w) (k : Nat) : Nat := bits v.toNat (32 * k) 32

/-- A mask of the members of 0 to n − 1 that satisfy p. -/
def maskOf (n : Nat) (p : Nat → Bool) : Nat := ((List.range n).map fun i => if p i then 2 ^ i else 0).sum

/-! ## GEN_ (Tables 09-4, 11-3, 14-9, 17-2) -/

/-- A port's half of GEN_PORTSTAT. -/
def rateStat (q : PortState) (path : Bool) : Nat := q.width % 32 + 32 * (q.rate % 8) + 256 * path.toNat

/-- The bit for a port or slot letter. -/
def portLetter : Port → Nat
  | .a => 0
  | .b => 1

def genWord (s : State) (off : Nat) : Nat :=
  let h := s.host
  let v := s.boot.version
  let fb := s.boot.phase == .fallback
  match off with
  | 0x000 => 0x1024F7D5
  | 0x004 => 0x12B0 + formatMax * 2 ^ 16
  | 0x008 => if fb then 0xFFFFFFFF else v.patch % 65536 + v.minor % 65536 * 65536
  | 0x00C => (if fb then 0xFFFF else v.major % 65536) + 65536 * portLetter s.boot.slot
  | 0x010 => s.boot.ready.toNat + 2 * fb.toNat + 4 * s.pins.alarmAsserted.toNat + 8 * (lanDegraded s != 0).toNat +
      16 * s.drive.vol.isSome.toNat + 32 * s.drive.cart.isSome.toNat
  | 0x014 => s.pins.presenceN.toNat + 2 * s.pins.cartPresentN.toNat + 4 * s.pins.shockN.toNat + 8 * s.pins.motFaultN.toNat +
      16 * s.pins.pwrGood.toNat + 256 * s.pins.gpio.toNat
  | 0x020 => field s.boot.serial 0 4
  | 0x024 => field s.boot.serial 4 4
  | 0x028 => field s.boot.serial 8 4
  | 0x02C => field s.boot.serial 12 4
  | 0x030 => h.cntBadAcc
  | 0x100 => s.boot.cause % 256 + 256 * (s.boot.slotA % 16) + 4096 * (s.boot.slotB % 16) + 65536 * (s.boot.fails % 4)
  | 0x104 => portLetter s.boot.preferred + 2 * s.boot.confirmed.toNat + 4 * s.boot.straps.toNat
  | 0x108 => s.boot.bootCount
  | 0x200 => h.enable.toNat
  | 0x204 => (qpOf s 0).isSome.toNat + 2 * h.resetBusy.toNat + 4 * h.cfgErr.toNat + 8 * s.power.pstate.val +
      64 * s.boot.activation.isSome.toNat
  | 0x208 => h.aqSize.toNat
  | 0x20C => h.aqSqbLo.toNat
  | 0x210 => h.aqSqbHi.toNat
  | 0x214 => h.aqCqbLo.toNat
  | 0x218 => h.aqCqbHi.toNat
  | 0x21C => rateStat h.portA (isPath s .a) + 65536 * rateStat h.portB (isPath s .b)
  | 0x220 => h.cntFailover
  | 0x224 => h.cntDbErr
  | 0x228 => h.cntRepost
  | 0x400 => s.cz.cfg.toNat
  | 0x404 => s.cz.inService.toNat
  | 0x408 => s.cz.bytesIn
  | 0x40C => s.cz.bytesIn / 2 ^ 32
  | 0x410 => s.cz.bytesOut
  | 0x414 => s.cz.bytesOut / 2 ^ 32
  | 0x418 => s.cz.cntRaw
  | 0x41C => s.cz.cntErr
  | _ => 0

/-- The doorbells: the last value accepted (Table 11-4). -/
def doorbellWord (s : State) (off : Nat) : Nat :=
  match qpOf s ((off - 0x1000) / 8) with
  | some x => if off % 8 = 0 then x.sqTail else x.cqHead
  | none => 0

/-! ## BLF_ (Table 13-7) and HQ_ (Table 13-8) -/

def sourceWord (b : Belfry) : Nat :=
  let q := getAt b.sources (min 479 (bits b.srcIdx.toNat 0 9)) {}
  q.prio.val + 16 * q.route.val + 256 * q.en.toNat + 4096 * q.pending.toNat + 8192 * q.active.isSome.toNat +
    16384 * (match q.active with | some c => c.val | none => 0)

def coreWord (k : Core) : Nat :=
  (match k.stack with | e :: _ => e.2 | [] => 16) + 32 * k.stack.length + 1024 * k.claimed

def blfWord (s : State) (off : Nat) : Nat :=
  let b := s.blf
  let o := off - 0x10000
  if 0x010 ≤ o ∧ o < 0x04C then maskOf 32 fun i => (getAt b.sources (8 * (o - 0x010) + i) {}).pending
  else if 0x050 ≤ o ∧ o < 0x08C then maskOf 32 fun i => (getAt b.sources (8 * (o - 0x050) + i) {}).active.isSome
  else if 0x0A0 ≤ o ∧ o < 0x0B0 then coreWord (getAt b.cores ((o - 0x0A0) / 4) {})
  else if 0x100 ≤ o ∧ o < 0x200 then
    let g := getAt s.host.groups ((o - 0x100) / 8) {}
    if o % 8 = 0 then g.holdoff % 65536 + 65536 * (g.agg % 256) else g.stale % 65536
  else if 0x200 ≤ o ∧ o < 0x280 then
    let g := getAt s.host.groups ((o - 0x200) / 4) {}
    g.count % 256 + 256 * g.openAt.isSome.toNat
  else
    match o with
    | 0x000 => b.vecBase.toNat * 2 ^ 14
    | 0x004 => b.coreOk.toNat + 16 * b.copyOk.toNat
    | 0x090 => b.srcIdx.toNat
    | 0x094 => sourceWord b
    | 0x280 => b.latched.toNat + 65536 * b.wakeEn.toNat
    | 0x300 => b.cntSpurious
    | 0x304 => b.cntStackFault
    | 0x308 => b.cntParity
    | 0x30C => b.cntMsix
    | 0x310 => b.cntFlush
    | _ => 0

def hqRegWord (s : State) (off : Nat) : Nat :=
  let o := off - 0x90000
  if o < 0x400 then
    let k := hwq s (o / 16)
    match o % 16 with
    | 0 => k.capLog2 % 32 + 256 * (k.maxPacket % 8192)
    | 4 => k.staleTail % 65536 + 65536 * (k.highWater % 256)
    | 8 => hqOccupancy k + 2 ^ 17 * k.opens.length + 2 ^ 20 * (!k.held.isEmpty).toNat + 2 ^ 21 * k.draining.toNat +
        2 ^ 22 * (decide (hqHigh k ≤ hqOccupancy k)).toNat
    | _ => k.errPoison % 65536 + 65536 * (k.errSeq % 65536)
  else
    match o with
    | 0x400 => s.hq.cntParity
    | 0x404 => s.hq.cntStale
    | 0x408 => s.hq.cntFlush
    | _ => 0

/-! ## STP_ (Table 07-12) -/

def stpStat (p : Steeple) : Nat :=
  modeCode p.mode + 16 * p.st1.toNat + 32 * p.standbyOk.toNat + 64 * p.band + 1024 * p.winTu + 8192 * p.winSup +
    65536 * maskOf 4 (fun i => (getAt p.readers i {}).usable) + 2 ^ 20 * maskOf 2 (fun i => (getAt p.reels i {}).ok) +
    2 ^ 22 * p.speedOk.toNat + 2 ^ 23 * (p.laws.toList.any fun l => decide (0 < l.rampN)).toNat + 2 ^ 24 * p.rcOn.toNat +
    2 ^ 25 * p.oneBand.isSome.toNat

def stpWord (s : State) (off : Nat) : Nat :=
  let p := s.stp
  match off - 0x20000 with
  | 0x00 => stpStat p
  | 0x04 => p.winh.toNat
  | 0x08 => fixSigned 16 1000 p.v + 65536 * fixSigned 16 1000 p.vSet
  | 0x0C => fixSigned 16 4000 p.errL + 65536 * fixSigned 16 4000 p.errU
  | 0x10 => p.lpos % 2 ^ 24 + 2 ^ 24 * (p.frame % 32) + 2 ^ 31 * p.lposValid.toNat
  | 0x14 => fixSigned 16 10000 (p.theta - 3) + 65536 * fixSigned 16 1000 (p.errU - p.errL)
  | 0x18 => fixSigned 16 32768 p.vcm + 65536 * satSigned 16 p.stepper
  | 0x1C => satBits 16 (roundRat ((getAt p.reels 0 {}).radius * 1000)) + 65536 * satBits 16 (roundRat ((getAt p.reels 1 {}).radius * 1000))
  | 0x20 => satBits 16 (roundRat (p.fEst * 1000)) + 65536 * satBits 16 (roundRat p.fSet)
  | 0x24 => p.program.prog % 64 + 64 * (p.program.step % 32) + 2048 * p.program.running.toNat + 65536 * (p.program.fault % 256)
  | 0x40 => p.coefIdx.toNat
  | 0x44 => coefWord s (bits p.coefIdx.toNat 8 3) (bits p.coefIdx.toNat 4 4) (bits p.coefIdx.toNat 0 4)
  | 0x80 => p.cntHold
  | 0x84 => p.cntStop
  | 0x88 => p.cntHandover
  | 0x8C => p.cntDrop
  | 0x90 => p.cntLinkErr
  | 0x94 => p.cntTakeover
  | _ => 0

/-! ## CUP_ and KEEP_ (Tables 10-11, 10-12, 14-10) -/

def cupWord (s : State) (off : Nat) : Nat :=
  let c := s.cupola
  match off - 0x30000 with
  | 0x00 => c.cfg.toNat
  | 0x04 => c.inService.toNat + 16 * cupolaCap s
  | 0x08 => c.nonce.toNat
  | 0x0C => onDie c + 256 * c.ctxs.length
  | 0x10 => c.cntInv
  | 0x14 => c.cntInv / 2 ^ 32
  | 0x18 => c.cntTagFail
  | 0x1C => c.cntWithdraw
  | 0x20 => c.cntCorErr
  | 0x24 => c.cntReplay
  | _ => 0

def slotLoaded (s : State) (i : Nat) : Bool := (keySlot s i).state != .empty
def slotShadow (s : State) (i : Nat) : Bool := (keySlot s i).shadow.isSome

def keepWord (s : State) (off : Nat) : Nat :=
  let k := s.keep
  let t := s.trust
  match off - 0x40000 with
  | 0x00 => k.copyOk.toNat + 4 * k.erased.toNat + 16 * ((List.range 64).filter (slotLoaded s)).length
  | 0x04 => maskOf 32 (slotLoaded s)
  | 0x08 => maskOf 32 fun i => slotLoaded s (32 + i)
  | 0x0C => maskOf 32 (slotShadow s)
  | 0x10 => maskOf 32 fun i => slotShadow s (32 + i)
  | 0x14 => k.loadSeq
  | 0x18 => k.loadSeq / 2 ^ 32
  | 0x1C => k.cntLoadFail
  | 0x20 => (windowOpen s).toNat + 2 * t.sealOk.toNat + 4 * (t.debug).toNat + 8 * (permitArmed s).toNat + 16 * (presenceLeft s % 256)
  | 0x24 => t.cause.toNat + 65536 * (t.lifetime % 65536)
  | 0x28 => s.boot.minVersion.patch % 65536 + 65536 * (s.boot.minVersion.minor % 65536)
  | 0x2C => s.boot.minVersion.major % 65536 + 65536 * (s.boot.epoch % 256) + 2 ^ 24 * (t.signers.length % 16) +
      2 ^ 28 * t.tableKey.isSome.toNat
  | _ => 0

/-! ## WVN_ and PWR_ (Tables 05-4, 16-6) -/

def wvnCode : WvnState → Nat
  | .idle => 0
  | .stream => 1
  | .turn => 2
  | .stopping => 3
  | .stopped => 4
  | .restart => 5

/-- A cap of R125, R126 or R424 lies below band 15. -/
def vcapOn (w : Wvn) : Bool := decide (w.capV < 15) || decide (w.capM < 15) || decide (w.capT < 15)

def wvnWord (s : State) (off : Nat) : Nat :=
  let w := s.wvn
  let o := off - 0x50000
  if 0x40 ≤ o ∧ o < 0x80 then getAt w.new.vtable ((o - 0x40) / 4) 0
  else
    match o with
    | 0x00 => w.new.ctrl.toNat
    | 0x04 => w.new.fixed.toNat
    | 0x08 => w.new.setpt.toNat
    | 0x0C => w.new.gain.toNat
    | 0x10 => w.new.rate.toNat
    | 0x14 => w.new.bh.toNat
    | 0x18 => w.new.bh2.toNat
    | 0x20 => w.r % 8192 + 2 ^ 13 * wvnCode w.state + 2 ^ 16 * (w.rCmd % 8192) + 2 ^ 29 * s.wr.stalled.toNat + 2 ^ 30 * (vcapOn w).toNat +
        2 ^ 31 * (oneStack s).toNat
    | 0x24 => satBits 16 ⌊w.h / 1000000⌋ + 65536 * satBits 16 ⌊w.rho * 65536⌋
    | 0x28 => satBits 16 (backlog s / mib : Nat) + 65536 * satBits 16 (unreleased s / mib : Nat)
    | 0x2C => satBits 16 (raFill s / mib : Nat)
    | 0x30 => s.power.vop % 1024 + 65536 * (w.marginOfs % 64)
    | 0x80 => w.cntBh
    | 0x84 => w.cntTurn
    | 0x88 => w.cntStall
    | _ => 0

def srcCode : TimeSource → Nat
  | .portA => 0
  | .portB => 1
  | .holdover => 2

def pwrWord (s : State) (off : Nat) : Nat :=
  let p := s.power
  let o := off - 0x50100
  if 0x04 ≤ o ∧ o < 0x14 then wordOf p.domOn ((o - 0x04) / 4)
  else if 0x14 ≤ o ∧ o < 0x24 then wordOf p.domFault ((o - 0x14) / 4)
  else
    match o with
    | 0x00 => p.pstate.val + 8 * p.entering.toNat + 16 * srcCode p.src
    | 0x24 => p.time
    | 0x28 => p.time / 2 ^ 32
    | 0x2C => p.vout % 1024 + 1024 * p.avsTarget.isSome.toNat
    | 0x30 => p.cntAvsFail
    | 0x34 => p.cntHoldover
    | _ => 0

/-! ## ECC_, HLK_ and LAN_ (Tables 03-4, 04-5, 08-8, 15-4) -/

/-- A hold-off after a shock source runs, or the PES_GOOD count is under way once every source has cleared (R97, R106). -/
def holding (s : State) : Bool :=
  s.wr.inhibited && ((match s.wr.holdUntil with | some t => decide (s.power.time < t) | none => false) ||
    (s.wr.sources == 0 && decide (s.wr.pesGood < pesGoodNeed s)))

/-- ECC_WINH_STAT: the sources in table order, and HOLD (R97). -/
def winhStat (s : State) : Nat := s.wr.sources.toNat + 2048 * (holding s).toNat

def eccWord (s : State) (off : Nat) : Nat :=
  let e := s.ecc
  let o := off - 0x60000
  if 0x100 ≤ o ∧ o < 0x180 then wordOf (eraseMap s s.tiles.module) ((o - 0x100) / 4)
  else
    match o with
    | 0x000 => e.ldpcCfg.toNat
    | 0x004 => e.rsCfg.toNat
    | 0x008 => e.escCfg.toNat
    | 0x010 => e.cntL3
    | 0x014 => e.cntDome
    | 0x018 => e.cntUnrec
    | 0x200 => e.vfyCfg.toNat
    | 0x204 => e.vfyCfg2.toNat
    | 0x208 => e.winhCfg.toNat
    | 0x20C => winhStat s
    | 0x210 => popcount e.dead0 + 65536 * popcount e.dead1
    | 0x214 => e.cntRewrite
    | 0x218 => e.cntInhibit
    | 0x21C => e.cntSkip
    | _ => 0

def trainCode : TrainState → Nat
  | .down => 0
  | .cdr => 1
  | .block => 2
  | .ident => 3
  | .config => 4
  | .up => 5

def groupWord (g : Nat) (k : Group) (o : Nat) : Nat :=
  match o with
  | 0x00 => trainCode k.state + 16 * k.rxLive.toNat + 4096 * k.txLive.toNat + 65536 * (k.shed % 128)
  | 0x04 => groupCap g k
  | 0x08 => k.vendor.toNat + 65536 * k.part.toNat
  | 0x0C => k.cntCrc
  | 0x10 => k.cntLost
  | 0x14 => k.cntLapse
  | 0x18 => k.cntTrain
  | _ => 0

def hlkWord (s : State) (off : Nat) : Nat :=
  let o := off - 0x70000
  if 0x100 ≤ o ∧ o < 0x200 then
    let g := (o - 0x100) / 0x20
    groupWord g (getAt s.hlk.groups g {}) (o % 0x20)
  else
    match o with
    | 0x00 => (s.hlk.groupEnNext.getD s.hlk.groupEn).toNat
    | 0x04 => maskOf 8 (fun g => (getAt s.hlk.groups g {}).state == .up) + 256 * linkCap s
    | 0x08 => s.hlk.cfg.toNat
    | _ => 0

def lanWord (s : State) (off : Nat) : Nat :=
  let l := s.lantern
  match off - 0x80000 with
  | 0x00 => l.pinnedRecs.length + 32768 * l.pinFull.toNat
  | 0x04 => l.rseq
  | 0x08 => l.cfg.toNat
  | 0x0C => l.trigCode % 65536 + 65536 * (l.trigPost % 256) + 2 ^ 24 * l.armed.toNat + 2 ^ 25 * l.fired.toNat
  | 0x10 => lanDegraded s
  | 0x14 => l.cntSuppr
  | 0x18 => l.cntTorn
  | _ => 0

/-! ## CT_ (Tables 04-2, 06-7, 06-8, 06-9) -/

def rcStateCode : RcState → Nat
  | .idle => 0
  | .anchorWait => 1
  | .acquire => 2
  | .track => 3
  | .seekSync => 4
  | .blockA => 5
  | .seekResync => 6
  | .wideResync => 7
  | .blockB => 8
  | .lostFrame => 9

def statWord (k : ChanStats) (o : Nat) : Nat :=
  match o with
  | 0x00 => k.frames
  | 0x04 => k.failed
  | 0x08 => k.weak
  | 0x0C => k.syncMiss
  | 0x10 => k.resync
  | 0x14 => k.sibling
  | 0x18 => k.realign
  | 0x1C => k.defBits
  | 0x20 => k.miscorr
  | 0x24 => k.iters
  | 0x28 => k.slips
  | _ => 0

def chanWord (s : State) (k : Chan) (o : Nat) : Nat :=
  match o with
  | 0x0 => rcStateCode k.state + 16 * k.lock.toNat + 32 * k.anchored.toNat + 64 * k.defect.toNat + 128 * (s.tiles.module % 2) +
      256 * (k.set % 4) + 1024 * (k.band % 16)
  | 0x4 => satBits 12 (roundRat (k.gain * 256)) + 65536 * fixSigned 12 64 k.ofs
  | 0x8 => fixSigned 16 65536 k.beta
  | 0xC => fixSigned 16 1000000 k.freq + 65536 * (if k.sq.isEmpty then 0 else satBits 16 (roundRat (noiseVar k * 256)))
  | _ => 0

/-- A tile's register. -/
def tileWord (s : State) (t o : Nat) : Nat :=
  let k := s.tiles
  if 0x200 ≤ o ∧ o < 0x240 then getAt k.wdly (16 * t + (o - 0x200) / 4) 0
  else if 0x240 ≤ o ∧ o < 0x280 then (getAt k.wtrim (16 * t + (o - 0x240) / 4) 0).toNat
  else if 0x400 ≤ o ∧ o < 0x800 then chanWord s (getAt k.chans (16 * t + (o - 0x400) / 0x40) {}) (o % 0x40)
  else if 0x800 ≤ o ∧ o < 0xC00 then statWord (getAt k.chans (16 * t + (o - 0x800) / 0x40) {}).stats (o % 0x40)
  else
    match o with
    | 0x000 => (getAt k.syncCfg t 0).toNat
    | 0x100 => (getAt k.tapIdx t 0).toNat
    | 0x104 =>
      let i := (getAt k.tapIdx t 0).toNat
      fixSigned 16 256 (getAt (getAt k.chans (16 * t + bits i 0 4) {}).taps (min 12 (bits i 8 4)) 0)
    | _ => 0

/-- The broadcast window: tile 0's registers, and the retry registers (R167). -/
def broadcastWord (s : State) (o : Nat) : Nat :=
  if o < 0xF00 then tileWord s 0 o
  else if o < 0xF40 then (getAt s.tiles.retry ((o - 0xF00) / 4) 0).toNat
  else if o = 0xF40 then s.tiles.retryCtl.toNat
  else 0

/-! ## The map (R413) -/

/-- The MSI-X structures of a port (Table 17-1). -/
def msixWord (q : PortState) (off : Nat) : Nat :=
  if off < 0x301010 then wordOf (getAt q.msix ((off - 0x300000) / 16) 0) (off % 16 / 4)
  else if 0x304000 ≤ off ∧ off < 0x304028 then wordOf q.pba ((off - 0x304000) / 4)
  else 0

/-- What an aligned offset holds, without latches: 0 outside every populated register. -/
def regValue (p : Port) (s : State) (off : Nat) : Nat :=
  (if off < 0x1000 then genWord s off
  else if off < 0x1800 then doorbellWord s off
  else if off < 0x10000 then 0
  else if off < 0x20000 then blfWord s off
  else if off < 0x30000 then stpWord s off
  else if off < 0x40000 then cupWord s off
  else if off < 0x50000 then keepWord s off
  else if off < 0x50100 then wvnWord s off
  else if off < 0x60000 then pwrWord s off
  else if off < 0x70000 then eccWord s off
  else if off < 0x80000 then hlkWord s off
  else if off < 0x90000 then lanWord s off
  else if off < 0xA0000 then hqRegWord s off
  else if off < 0x100000 then 0
  else if off < 0x140000 then (if off % 0x1000 < 0xF00 then tileWord s ((off - 0x100000) / 0x1000) (off % 0x1000) else 0)
  else if off < 0x141000 then broadcastWord s (off % 0x1000)
  else if off < 0x300000 then 0
  else msixWord (portOf s p) off) % 2 ^ 32

/-! ## Reads (R415, R416) -/

/-- The offsets of the _LO words; each _HI word follows (R415). -/
def loWords : List Nat := [0x008, 0x20C, 0x214, 0x408, 0x410, 0x30010, 0x40014, 0x40028, 0x50124]

/-- A channel's statistic cleared. -/
def clearStat (o : Nat) (k : ChanStats) : ChanStats :=
  match o with
  | 0x00 => { k with frames := 0 }
  | 0x04 => { k with failed := 0 }
  | 0x08 => { k with weak := 0 }
  | 0x0C => { k with syncMiss := 0 }
  | 0x10 => { k with resync := 0 }
  | 0x14 => { k with sibling := 0 }
  | 0x18 => { k with realign := 0 }
  | 0x1C => { k with defBits := 0 }
  | 0x20 => { k with miscorr := 0 }
  | 0x24 => { k with iters := 0 }
  | 0x28 => { k with slips := 0 }
  | _ => k

/-- A head-link group's counter cleared. -/
def clearGroupCount (o : Nat) (k : Group) : Group :=
  match o with
  | 0x0C => { k with cntCrc := 0 }
  | 0x10 => { k with cntLost := 0 }
  | 0x14 => { k with cntLapse := 0 }
  | 0x18 => { k with cntTrain := 0 }
  | _ => k

/-- Clear a tile's RC register. -/
def clearTile (t o : Nat) (s : State) : State :=
  if 0x800 ≤ o ∧ o < 0xC00 then
    s.onTiles fun k => { k with chans := updAt k.chans (16 * t + (o - 0x800) / 0x40) fun c => { c with stats := clearStat (o % 0x40) c.stats } }
  else s

/-- Clear the RC fields at an offset (R416). -/
def clearRc (off : Nat) (s : State) : State :=
  if 0x70100 ≤ off ∧ off < 0x70200 then
    s.onHlk fun h => { h with groups := updAt h.groups ((off - 0x70100) / 0x20) (clearGroupCount (off % 0x20)) }
  else if 0x90000 ≤ off ∧ off < 0x90400 then
    (if off % 16 = 12 then onHwq ((off - 0x90000) / 16) (fun k => { k with errPoison := 0, errSeq := 0 }) s else s)
  else if 0x100000 ≤ off ∧ off < 0x140000 then clearTile ((off - 0x100000) / 0x1000) (off % 0x1000) s
  else if 0x140000 ≤ off ∧ off < 0x141000 then clearTile 0 (off % 0x1000) s
  else
    match off with
    | 0x00030 => s.onHost fun h => { h with cntBadAcc := 0 }
    | 0x00220 => s.onHost fun h => { h with cntFailover := 0 }
    | 0x00224 => s.onHost fun h => { h with cntDbErr := 0 }
    | 0x00228 => s.onHost fun h => { h with cntRepost := 0 }
    | 0x00418 => s.onCz fun c => { c with cntRaw := 0 }
    | 0x0041C => s.onCz fun c => { c with cntErr := 0 }
    | 0x10300 => s.onBlf fun b => { b with cntSpurious := 0 }
    | 0x10304 => s.onBlf fun b => { b with cntStackFault := 0 }
    | 0x10308 => s.onBlf fun b => { b with cntParity := 0 }
    | 0x1030C => s.onBlf fun b => { b with cntMsix := 0 }
    | 0x10310 => s.onBlf fun b => { b with cntFlush := 0 }
    | 0x20080 => s.onStp fun p => { p with cntHold := 0 }
    | 0x20084 => s.onStp fun p => { p with cntStop := 0 }
    | 0x20088 => s.onStp fun p => { p with cntHandover := 0 }
    | 0x2008C => s.onStp fun p => { p with cntDrop := 0 }
    | 0x20090 => s.onStp fun p => { p with cntLinkErr := 0 }
    | 0x20094 => s.onStp fun p => { p with cntTakeover := 0 }
    | 0x30018 => s.onCupola fun c => { c with cntTagFail := 0 }
    | 0x3001C => s.onCupola fun c => { c with cntWithdraw := 0 }
    | 0x30020 => s.onCupola fun c => { c with cntCorErr := 0 }
    | 0x30024 => s.onCupola fun c => { c with cntReplay := 0 }
    | 0x4001C => s.onKeep fun k => { k with cntLoadFail := 0 }
    | 0x50080 => s.onWvn fun w => { w with cntBh := 0 }
    | 0x50084 => s.onWvn fun w => { w with cntTurn := 0 }
    | 0x50088 => s.onWvn fun w => { w with cntStall := 0 }
    | 0x50130 => s.onPower fun p => { p with cntAvsFail := 0 }
    | 0x50134 => s.onPower fun p => { p with cntHoldover := 0 }
    | 0x60010 => s.onEcc fun e => { e with cntL3 := 0 }
    | 0x60014 => s.onEcc fun e => { e with cntDome := 0 }
    | 0x60018 => s.onEcc fun e => { e with cntUnrec := 0 }
    | 0x60214 => s.onEcc fun e => { e with cntRewrite := 0 }
    | 0x60218 => s.onEcc fun e => { e with cntInhibit := 0 }
    | 0x6021C => s.onEcc fun e => { e with cntSkip := 0 }
    | 0x80014 => s.onLantern fun l => { l with cntSuppr := 0 }
    | 0x80018 => s.onLantern fun l => { l with cntTorn := 0 }
    | 0x90400 => s.onHq fun q => { q with cntParity := 0 }
    | 0x90404 => s.onHq fun q => { q with cntStale := 0 }
    | 0x90408 => s.onHq fun q => { q with cntFlush := 0 }
    | _ => s

/-- Load a port's latch of a _HI word (R415). -/
def latchHi (p : Port) (off value : Nat) (s : State) : State :=
  onPort p (fun q => { q with hiLatch := (off, w32 value) :: q.hiLatch.filter fun e => e.1 != off }) s

/-- What a read through a port answers: a _HI word comes from the port's latch (R415). -/
def readValue (p : Port) (s : State) (off : Nat) : Nat :=
  if 4 ≤ off ∧ loWords.contains (off - 4) then (assoc (portOf s p).hiLatch off 0#32).toNat else regValue p s off

/-- A bad access is counted (R414). -/
def countBad (s : State) : State := s.onHost fun h => { h with cntBadAcc := inc h.cntBadAcc }

/-- A bad read returns zeros (R414). -/
def badRead (p : Port) (off : Nat) (s : State) : State := emit (.regData p off 0) (countBad s)

/-- An aligned 32-bit read: its value, then the latch of a _LO word and the clearing of RC fields (R415, R416). -/
def readReg (p : Port) (off : Nat) (s : State) : State :=
  let s1 := if loWords.contains off then latchHi p (off + 4) (regValue p s (off + 4)) s else s
  emit (.regData p off (w32 (readValue p s off))) (clearRc off s1)

/-- A 32-bit read at any offset. -/
def readAt (p : Port) (off : Nat) (s : State) : State := if off % 4 = 0 then readReg p off s else badRead p off s

/-! ## Writes (R8, R9, R418) -/

/-- Write the RW fields of GEN_QCTL, and act on FUNC_RESET; nothing while RESET_BUSY is set (R276, R295). -/
def writeQctl (p : Port) (v : Nat) (s : State) : State :=
  if s.host.resetBusy then s
  else
    let s1 := if v.testBit 0 then enableAdmin p s else s.onHost fun h => { h with enable := false }
    if v.testBit 1 then functionReset p s1 else s1

/-- Write LAN_TRIG: CODE and POST, and ARM arms the trigger and clears FIRED (R384). -/
def writeTrigger (v : Nat) (s : State) : State :=
  s.onLantern fun l => { l with
    trigCode := bits v 0 16, trigPost := bits v 16 8, armed := l.armed || v.testBit 24, fired := l.fired && !v.testBit 24 }

/-- The fields of a written word that a mask leaves; rsvd fields are discarded (R9). -/
def masked32 (m v : Nat) : Word := w32 (v &&& m)

/-- Write a tile's register (R166). -/
def writeTile (t o v : Nat) (s : State) : State :=
  if 0x240 ≤ o ∧ o < 0x280 then s.onTiles fun k => { k with wtrim := putAt k.wtrim (16 * t + (o - 0x240) / 4) (BitVec.ofNat 16 v) }
  else if o = 0x000 then s.onTiles fun k => { k with syncCfg := putAt k.syncCfg t (masked32 0x3F77 v) }
  else if o = 0x100 then s.onTiles fun k => { k with tapIdx := putAt k.tapIdx t (masked32 0xF0F v) }
  else s

/-- Write the broadcast window: the same offset of all 64 tiles, or a retry register (R167). -/
def writeBroadcast (o v : Nat) (s : State) : State :=
  if o < 0xF00 then forEach (List.range 64) (fun t => writeTile t o v) s
  else if o < 0xF40 then s.onTiles fun k => { k with retry := putAt k.retry ((o - 0xF00) / 4) (masked32 0x87FFFFFF v) }
  else if o = 0xF40 then s.onTiles fun k => { k with retryCtl := masked32 0xF v }
  else s

/-- Write one word of a port's MSI-X table; a vector whose mask clears is sent when it is pending (R340). The PBA is not written. -/
def writeMsix (p : Port) (off v : Nat) (s : State) : State :=
  if off < 0x301010 then
    let i := (off - 0x300000) / 16
    let j := off % 16 / 4
    let x := if j = 0 then v / 4 * 4 else if j = 3 then v % 2 else v
    let entry := fun (e : BitVec 128) => BitVec.ofNat 128 (e.toNat - wordOf e j * 2 ^ (32 * j) + x * 2 ^ (32 * j))
    let s1 := onPort p (fun q => { q with msix := updAt q.msix i entry }) s
    if j = 3 ∧ x = 0 then sendPending p s1 else s1
  else s

/-- Write a configuration register of Weathervane: it takes effect at the next 1 ms update (R135). -/
def onWvnCfg (f : WvnCfg → WvnCfg) (s : State) : State := s.onWvn fun w => { w with new := f w.new }

/-- Write a register outside the doorbells, the tiles and MSI-X. -/
def writeBlock (p : Port) (off v : Nat) (s : State) : State :=
  if 0x50040 ≤ off ∧ off < 0x50080 then onWvnCfg (fun w => { w with vtable := putAt w.vtable ((off - 0x50040) / 4) (bits v 0 10) }) s
  else
    match off with
    | 0x00200 => writeQctl p v s
    | 0x00208 => s.onHost fun h => { h with aqSize := w32 v }
    | 0x0020C => s.onHost fun h => { h with aqSqbLo := masked32 0xFFFFF000 v }
    | 0x00210 => s.onHost fun h => { h with aqSqbHi := w32 v }
    | 0x00214 => s.onHost fun h => { h with aqCqbLo := masked32 0xFFFFF000 v }
    | 0x00218 => s.onHost fun h => { h with aqCqbHi := w32 v }
    | 0x00400 => s.onCz fun c => { c with cfg := masked32 0xF07 v }
    | 0x10090 => s.onBlf fun b => { b with srcIdx := masked32 0x1FF v }
    | 0x20004 => s.onStp fun p => { p with winh := masked32 0xFF7F v }
    | 0x20040 => s.onStp fun p => { p with coefIdx := masked32 0x7FF v }
    | 0x30000 => s.onCupola fun c => { c with cfg := masked32 0xF7 v }
    | 0x50000 => onWvnCfg (fun w => { w with ctrl := masked32 0x3 v }) s
    | 0x50004 => onWvnCfg (fun w => { w with fixed := masked32 0x1FFF v }) s
    | 0x50008 => onWvnCfg (fun w => { w with setpt := masked32 0xFFFFFF v }) s
    | 0x5000C => onWvnCfg (fun w => { w with gain := w32 v }) s
    | 0x50010 => onWvnCfg (fun w => { w with rate := masked32 0xFFFF v }) s
    | 0x50014 => onWvnCfg (fun w => { w with bh := w32 v }) s
    | 0x50018 => onWvnCfg (fun w => { w with bh2 := w32 v }) s
    | 0x60000 => s.onEcc fun e => { e with ldpcCfg := masked32 0x7FFFFF v }
    | 0x60004 => s.onEcc fun e => { e with rsCfg := masked32 0xFF v }
    | 0x60008 => s.onEcc fun e => { e with escCfg := masked32 0x7 v }
    | 0x60200 => s.onEcc fun e => { e with vfyCfg := w32 v }
    | 0x60204 => s.onEcc fun e => { e with vfyCfg2 := masked32 0xFFFF0FFF v }
    | 0x60208 => s.onEcc fun e => { e with winhCfg := masked32 0xFFFFF v }
    | 0x70000 => writeRetrain (BitVec.ofNat 8 (bits v 8 8)) (writeGroupEn (BitVec.ofNat 8 v) s)
    | 0x70008 => s.onHlk fun h => { h with cfg := masked32 0xF v }
    | 0x80008 => s.onLantern fun l => { l with cfg := masked32 0xFF03 v }
    | 0x8000C => writeTrigger v s
    | _ => s

/-- An aligned 32-bit write through a port. -/
def writeReg (p : Port) (off v : Nat) (s : State) : State :=
  if 0x1000 ≤ off ∧ off < 0x1800 then
    (if off % 8 = 0 then tailDoorbell p ((off - 0x1000) / 8) (v % 65536) s else headDoorbell p ((off - 0x1000) / 8) (v % 65536) s)
  else if 0x100000 ≤ off ∧ off < 0x140000 then writeTile ((off - 0x100000) / 0x1000) (off % 0x1000) v s
  else if 0x140000 ≤ off ∧ off < 0x141000 then writeBroadcast (off % 0x1000) v s
  else if 0x300000 ≤ off then writeMsix p off v s
  else writeBlock p off v s

/-- A 32-bit write at any offset: an unaligned one is bad and discarded (R414). -/
def writeAt (p : Port) (off v : Nat) (s : State) : State := if off % 4 = 0 then writeReg p off v s else countBad s

/-! ## The commands -/

/-- LAN_TRIG_ARM: a write to LAN_TRIG (R384). -/
def execLanTrigArm (value : Word) (s : State) : Host.Outcome State Fault Refusal := goLive (writeTrigger value.toNat) s

/-- CT_BROADCAST_WRITE: a write to an offset of the broadcast window (R167). -/
def execCtBroadcastWrite (offset : Nat) (value : Word) (s : State) : Host.Outcome State Fault Refusal :=
  goLive (fun s => if offset % 4 = 0 then writeBroadcast offset value.toNat s else countBad s) s

/-- RC_READ: a 32-bit read; RC fields at its offset clear (R416). -/
def execRcRead (p : Port) (offset : Nat) (s : State) : Host.Outcome State Fault Refusal := goLive (readAt p offset) s

/-- LO_WORD_READ: a 32-bit read; a _LO word loads the port's latch of its _HI word (R415). -/
def execLoWordRead (p : Port) (offset : Nat) (s : State) : Host.Outcome State Fault Refusal := goLive (readAt p offset) s

/-- An access that R414 serves. -/
def servedAccess (offset size : Nat) : Bool := decide (size = 4 ∧ offset % 4 = 0) || decide (size = 8 ∧ offset % 8 = 0)

/-- BAD_ACCESS: a bad read answers zeros, a bad write is discarded, and either is counted; an access that is served is not one (R414). -/
def execBadAccess (p : Port) (offset size : Nat) (isWrite : Bool) (s : State) : Host.Outcome State Fault Refusal :=
  goLive (fun s => if servedAccess offset size then s else if isWrite then countBad s else badRead p offset s) s

/-- REGISTER_WRITE: a 32-bit write (R8, R9, R418). -/
def execRegisterWrite (p : Port) (offset : Nat) (value : Word) (s : State) : Host.Outcome State Fault Refusal :=
  goLive (writeAt p offset value.toNat) s

end Sys2Proof.Machine
end

