-- ==== Sys2Proof/Machine/Resets.lean ====
section
/-! DEFINITION. The commands of resets, start-up and straps (R351 to R361, R367, R433 to R435). -/

namespace Sys2Proof.Machine

/-- A low pulse of this many ns is taken: never up to 100 ns, always from 1 µs, either way between (R434). -/
def pulseTaken (s : State) (ns : Nat) : Bool := decide (1000 ≤ ns) || (decide (100 < ns) && Config.choice s.fresh)

/-- The free choice of R434 is used up where it was asked for. -/
def afterPulse (ns : Nat) (s : State) : State := if 100 < ns ∧ ns < 1000 then draw s else s

/-- POWER_ON_RESET: the whole part, AON included (R351). -/
def execPowerOnReset (s : State) : Host.Outcome State Fault Refusal := go afterPowerOn s

/-- N in hand of each partition open for writing (Table 15-3, record 0x0080). -/
def openNs (s : State) : Bytes :=
  match s.drive.vol with
  | some v => if v.dirty && !v.readOnly then (v.parts.toList.filter (·.inUse)).flatMap fun p => le 6 p.highN else []
  | none => []

/-- A reset input makes a part reset; one that falls while the part is in reset adds none (R434). -/
def fallReset (cause : Nat) (s : State) : State :=
  if s.boot.phase = .held ∧ s.power.pstate ≠ 4 then s else partReset cause s

/-- A fall of PWR_GOOD is taken: tokens stop, record 0x0080, then the part reset (R112, R351, R385). -/
def powerFall (s : State) : State := fallReset 1 (lantern 0x0080 (openNs s) (if live s then inhibitOn .power s else s))

/-- PWR_GOOD_FALL: not taken in PS4 (R399, R434). -/
def execPwrGoodFall (ns : Nat) (s : State) : Host.Outcome State Fault Refusal :=
  go (fun s => let t := afterPulse ns s
    if s.power.pstate = 4 then s else if pulseTaken s ns then powerFall t else t) s

/-- SYS_RESET_N_LOW (R351, R434). -/
def execSysResetNLow (ns : Nat) (s : State) : Host.Outcome State Fault Refusal :=
  go (fun s => let t := afterPulse ns s
    if pulseTaken s ns then fallReset 0 t else t) s

/-- The newest Lantern record was torn by a power loss: it is counted and left in place (R381). -/
def countTorn (s : State) : State :=
  let newest := fun (r : LanRec) => r.rseq == s.lantern.rseq
  if s.lantern.ring.any newest then
    s.onLantern fun l => { l with
      ring := mapIf newest (fun r => { r with torn := true }) l.ring, pinnedRecs := mapIf newest (fun r => { r with torn := true }) l.pinnedRecs,
      cntTorn := inc l.cntTorn }
  else s

/-- Sample the straps and set the core voltage of a start, then scan or the boot chain (R355, R367, R403, R433). -/
def bootChain (o : StartObs) (u : State) : State :=
  let straps := majorityStraps o.strapReads
  let s := if o.tornRecord then countTorn u else u
  let s1 := (startSeal s).onBoot fun b => { b with straps := straps }
  let s2 := avsWrite (600 + min 30 (2 * ((25000 - s.power.junction).toNat / 1000))) (s1.onPins fun p => { p with straps := straps })
  if straps.getLsbD 0 then s2.onBoot fun b => { b with phase := .scan } else chooseImage o s2

/-- START_UP: the part runs its boot chain once it is held, with both resets high (R351, R355). -/
def execStartUp (o : StartObs) (s : State) : Host.Outcome State Fault Refusal :=
  go (fun s => if s.boot.phase = .held ∧ s.pins.sysResetN ∧ s.pins.pwrGood ∧ !s.pins.testEn ∧ s.power.pstate ≠ 4 then bootChain o s else s) s

/-- The anti-rollback updates of a confirmation (R359). -/
def antiRollback (fuseWriteOk : Bool) (s : State) : State :=
  let m := slotManifest s s.boot.slot
  let e := manEpoch m
  if s.boot.epoch < e then
    if fuseWriteOk then s.onBoot fun b => { b with epoch := e, minVersion := manFloor m }
    else lantern 0x0005 (le 1 e ++ le 1 s.boot.epoch) s
  else s.onBoot fun b => { b with minVersion := versionMax b.minVersion (manFloor m) }

/-- The image confirms its start (R356). -/
def confirmStart (fuseWriteOk : Bool) (s : State) : State :=
  let s1 := setSlotCode s.boot.slot 1 (s.onBoot fun b => { b with
    fails := 0, preferred := b.slot, confirmed := true, ready := true, watchdog := none, fromPs4 := false })
  lantern 0x0001 (versionBytes s.boot.version ++ le 1 (portNo s.boot.slot)) (antiRollback fuseWriteOk s1)

/-- START_CONFIRM (R356). -/
def execStartConfirm (fuseWriteOk : Bool) (s : State) : Host.Outcome State Fault Refusal :=
  go (fun s => if normalMode s && !s.boot.confirmed then confirmStart fuseWriteOk s else s) s

/-- WATCHDOG_EXPIRY: 2 s after a hand-over without confirmation, a part reset (R356, R357). -/
def execWatchdogExpiry (s : State) : Host.Outcome State Fault Refusal :=
  go (fun s => match s.boot.watchdog with
    | some (due, cause) => partReset cause (advanceTo due s)
    | none => s) s

/-- Reset one port: its link and its function, as an FLR (R351). -/
def resetPort (p : Port) (s : State) : State :=
  functionReset p (onPort p (fun q => { q with linkUp := false, width := 0, rate := 0 }) (portFresh p s))

/-- PORT_RESET: PERST_N of one port (R351, R434). -/
def execPortReset (p : Port) (ns : Nat) (s : State) : Host.Outcome State Fault Refusal :=
  goLive (fun s => let t := afterPulse ns s
    if pulseTaken s ns then resetPort p t else t) s

/-- FLR (R295). -/
def execFlr (p : Port) (s : State) : Host.Outcome State Fault Refusal := goLive (fun s => functionReset p (portFresh p s)) s

/-- TEST_EN_HIGH: as SYS_RESET_N held low, the part stays in part reset (R435). -/
def execTestEnHigh (s : State) : Host.Outcome State Fault Refusal :=
  go (fun s => (fallReset 0 s).onPins fun p => { p with testEn := true }) s

/-- STRAP_CHANGE: takes effect at the next part reset, and Lantern records it (R367). -/
def execStrapChange (now : BitVec 4) (s : State) : Host.Outcome State Fault Refusal :=
  go (fun s =>
    let t := s.onPins fun p => { p with straps := now }
    if live s && now != s.boot.straps then lantern 0x0004 (le 1 s.boot.straps.toNat ++ le 1 now.toNat) t else t) s

end Sys2Proof.Machine
end

