-- ==== Sys2Proof/Machine/TrustCmds.lean ====
section
/-! DEFINITION. ATTEST (R363), the operations that need presence (Table 12-8, R360, R364, R368, R370, R387), CLEAR_FAILS (R361) and
TABLE_LOAD (R317, R365). -/

namespace Sys2Proof.Machine

/-! ## ATTEST (R362, R363) -/

/-- The seeds of the device identity keys (R362). -/
def identitySeed (s : State) (info : String) : Bytes := hkdf [] s.boot.deviceSecret (ascii info) 32
def edSeed (s : State) : Bytes := identitySeed s "LX1024-DEVID-ED"
def mldsaSeed (s : State) : Bytes := identitySeed s "LX1024-DEVID-MLDSA"

/-- The ID of the registered table key; zeros when none is (Table 14-6). -/
def integratorId (s : State) : Bytes :=
  match s.trust.tableKey with
  | some k => sha32 (k.1 ++ k.2)
  | none => zeros 32

/-- The digest of the table of index i in force; zeros when none is (Table 14-6). -/
def tableDigest (s : State) (i : Nat) : Bytes :=
  match getAt s.trust.tables i none with
  | some t => sha32 t.1
  | none => zeros 32

/-- The signed part of the attestation: bytes 0 to 1,599 (Table 14-6). -/
def attestReport (s : State) (nonce : Bytes) : Bytes :=
  fit 1600 (ascii "LXAR" ++ [1] ++ le 1 (s.boot.phase == .fallback).toNat ++ le 1 s.boot.epoch ++ le 1 (portNo s.boot.slot) ++
    fit 16 s.boot.serial ++ fit 32 nonce ++ runningVersion s ++ le 2 (fallbackWord s.boot) ++
    fit 64 (Config.sha512 ((slotManifest s s.boot.slot).take 8525)) ++ fit 32 (integratorId s) ++
    ((List.range 5).flatMap fun i => fit 32 (tableDigest s i)) ++ transportPublic s.keep ++ le 8 s.keep.loadSeq ++ le 4 s.boot.bootCount ++
    le 1 (s.boot.straps.toNat + 16 * s.trust.sealOk.toNat + 32 * (s.trust.debug).toNat + 64 * (decide (s.trust.cause ≠ 0)).toNat) ++
    le 1 s.trust.signers.length ++ zeros 2 ++ le 6 (life48 s))

/-- The 10,496 bytes of the attestation (Table 14-6). -/
def attestBytes (s : State) (nonce : Bytes) : Bytes :=
  let r := attestReport s nonce
  fit 10496 (fit 5120 (r ++ fit 64 (Config.ed25519Sign (edSeed s) r) ++ fit 3309 (Config.mldsaSign (mldsaSeed s) r)) ++
    fit 32 (Config.ed25519Public (edSeed s)) ++ fit 1952 (Config.mldsaPublic (mldsaSeed s)) ++
    fit 64 s.boot.endorsement.1 ++ fit 3309 s.boot.endorsement.2)

/-- ATTEST. -/
def execAttest (tag : BitVec 16) (nonce : Bytes) (s : State) : Host.Outcome State Fault Refusal :=
  goLive (adminRun tag opAttest fun c t => adminDone c 0 10496 (writeBuffer c.qid c.tag 0 (attestBytes t nonce) t)) s

/-! ## PRESENCE_OP (Table 12-8, R368) -/

/-- A privileged operation: 0x0500 and no effect without presence (R368). -/
def privileged (f : Cmd → State → State) (c : Cmd) (s : State) : State := if presenceOk s then f c s else adminDone c 0x0500 0 s

/-- Debug unlock: refused by STRAP[1]; else the erasure without ALARM_N, the inhibit, and record 0x0061 (R367, R370). -/
def unlockDebug (c : Cmd) (s : State) : State :=
  if !s.boot.straps.getLsbD 1 then adminDone c 0x0101 0 s
  else privileged (fun c s =>
    let s1 := (eraseKeys s).onTrust fun t => { t with debug := true }
    adminDone c 0 0 (emit .jtagOpen (lantern 0x0061 (le 1 1) (inhibitOn .alarm s1)))) c s

/-- DEBUG_UNLOCK. -/
def execDebugUnlock (tag : BitVec 16) (s : State) : Host.Outcome State Fault Refusal := goLive (adminSub tag opPresence 1 unlockDebug) s

/-- Lantern clear: both regions are erased, and record 0x0090 is the first one after (R387). -/
def clearLantern (c : Cmd) (s : State) : State :=
  let s1 := s.onLantern fun l => { l with pinnedRecs := [], ring := [], pinFull := false, fired := false }
  adminDone c 0 0 (lantern 0x0090 (le 4 s.lantern.rseq) s1)

/-- LANTERN_CLEAR. -/
def execLanternClear (tag : BitVec 16) (s : State) : Host.Outcome State Fault Refusal :=
  goLive (adminSub tag opPresence 2 (privileged clearLantern)) s

/-- Signer i of an integrator-key block (R364). -/
def blockSigner (b : Bytes) (i : Nat) : Bytes × Bytes := (slice b (2000 + 1984 * i) 32, slice b (2032 + 1984 * i) 1952)

/-- The rules of an integrator-key block (R364). -/
def keyBlockOk (b : Bytes) : Bool :=
  b.take 4 == ascii "LXIK" && field b 4 1 == 1 && decide (field b 5 1 ≤ 8) && allZero (slice b 6 10) &&
  (List.range 8).all fun i => decide (i < field b 5 1) || allZero (slice b (2000 + 1984 * i) 1984)

/-- Register the integrator keys: every table goes out of force with the old key (R364). -/
def registerKeys (block : Bytes) (c : Cmd) (s : State) : State :=
  if keyBlockOk block then
    adminDone c 0 0 (s.onTrust fun t => { t with
      tableKey := some (slice block 16 32, slice block 48 1952), signers := (List.range (field block 5 1)).map (blockSigner block),
      tables := Vector.replicate 5 none, steepleNext := none, headNext := none, subsystem := (0xF7D5, 0x1024) })
  else adminDone c 0x0101 0 s

/-- REGISTER_INTEGRATOR_KEYS. -/
def execRegisterIntegratorKeys (tag : BitVec 16) (block : Bytes) (s : State) : Host.Outcome State Fault Refusal :=
  goLive (adminSub tag opPresence 3 (privileged (registerKeys (fit 17872 block)))) s

/-- New transport key pairs, unless an alarm or a debug unlock has ended them for this start (R245). -/
def redrawTransport (s : State) : State :=
  if s.keep.erased || s.trust.debug then s.onKeep fun k => { k with transport := none }
  else
    let d := fun i => le 32 (Config.trng (s.fresh + i)).toNat
    { s.onKeep fun k => { k with transport := some (d 0, d 1 ++ d 2) } with fresh := s.fresh + 3 }

/-- Zeroize every slot and the transport keys, and draw new transport keys; record 0x0061 (Table 12-8). -/
def zeroizeAll (c : Cmd) (s : State) : State := adminDone c 0 0 (lantern 0x0061 (le 1 4) (redrawTransport (eraseSlots s)))

/-- ZEROIZE_ALL_KEYS. -/
def execZeroizeAllKeys (tag : BitVec 16) (s : State) : Host.Outcome State Fault Refusal :=
  goLive (adminSub tag opPresence 4 (privileged zeroizeAll)) s

/-- ARM_DOWNGRADE_PERMIT: for 600 s (R360). -/
def execArmDowngradePermit (tag : BitVec 16) (s : State) : Host.Outcome State Fault Refusal :=
  goLive (adminSub tag opPresence 5 (privileged fun c t =>
    adminDone c 0 0 (t.onTrust fun k => { k with permit := some (t.power.time + permitTicks) }))) s

/-- DOWNGRADE_PERMIT_EXPIRY (R360). -/
def execDowngradePermitExpiry (s : State) : Host.Outcome State Fault Refusal :=
  goLive (fun s => match s.trust.permit with
    | some t => (advanceTo t s).onTrust fun k => { k with permit := none }
    | none => s) s

/-- RESET_FAILED_START_COUNTER (R361). -/
def execResetFailedStartCounter (tag : BitVec 16) (s : State) : Host.Outcome State Fault Refusal :=
  goLive (adminSub tag opPresence 6 (privileged fun c t => adminDone c 0 0 (t.onBoot fun b => { b with fails := 0 }))) s

/-- CLEAR_FAILS over SMBus, in either mode, subject to presence (R361, R368). -/
def execClearFails (s : State) : Host.Outcome State Fault Refusal :=
  goLive (fun s => if presenceOk s then s.onBoot fun b => { b with fails := 0 } else s) s

/-! ## TABLE_LOAD (R317, R365) -/

/-- The flash region of a TYPE holds a table's bytes, behind an erase. -/
def flashTable (t : Nat) (data : Bytes) (s : State) : State :=
  s.onBoot fun b => { b with flash := Memory.writeBytes (Memory.erase b.flash (tableBase t) tableLen) (tableBase t) data }

/-- TABLE_LOAD: refused with 0x0605 and record 0x0071; a flash failure gives 0x0604 and leaves the table in force; else the table is
kept in flash and takes effect (R317, R365, Table 12-9). -/
def loadTable (data : Bytes) (flashOk : Bool) (c : Cmd) (s : State) : State :=
  let t := specField c.entry 48 1
  match tableRefusal s t data with
  | some code => adminDone c 0x0605 0 (lantern 0x0071 (le 1 t ++ le 1 code) s)
  | none =>
    if !flashOk then adminDone c 0x0604 0 (flashTable t [] s)
    else
      let e := manSeg data 0
      adminDone c 0 0 (takeTable t (data.take manifestLen) (slice data e.1 e.2.1) (lantern 0x0071 (le 1 t ++ le 1 0) (flashTable t data s)))

/-- TABLE_LOAD. -/
def execTableLoad (tag : BitVec 16) (data : Bytes) (flashOk : Bool) (s : State) : Host.Outcome State Fault Refusal :=
  goLive (adminRun tag opTableLoad fun c => loadTable (fit (lengthField c.entry) data) flashOk c) s

end Sys2Proof.Machine
end

