-- ==== Sys2Proof/Machine/MountOps.lean ====
section
/-! DEFINITION. What a MOUNT finds out about a volume: the data sets on its tape, the rebuilt header, wrap table and locate index (R60,
R114), the recovery of a partition (R113), and the volume that comes into force (R319). -/

namespace Sys2Proof.Machine

/-! ## What stands on the tape (R43, R52, R56) -/

/-- Put a slot's content into a list by wrap and slot. -/
def slotInsert (x : TapeSlot) : List TapeSlot → List TapeSlot
  | [] => [x]
  | y :: l => if x.wrap < y.wrap ∨ (x.wrap = y.wrap ∧ x.slot ≤ y.slot) then x :: y :: l else y :: slotInsert x l

/-- The slots of the tape in the cartridge, along its wraps. -/
def tapeSlots (s : State) : List TapeSlot :=
  match s.drive.cart with
  | some c => c.slots.foldr slotInsert []
  | none => []

/-- The data set of a slot decodes. -/
def slotReads (t : TapeSlot) : Bool := t.whole && t.decodes

/-- The descriptor of a slot whose data set decodes and has one (R44, R45). -/
def slotDesc (t : TapeSlot) : Option Descriptor :=
  let d := descriptorOf t.payload
  if slotReads t && !isParityN t.n && descriptorOk t.payload && d.n == t.n then some d else none

/-- The slots of a partition that a reader accepts, in order: each N above all before it (R56). -/
def acceptGo : Option Nat → List TapeSlot → List TapeSlot
  | _, [] => []
  | top, t :: l =>
    match top with
    | some n => if slotReads t && decide (n < t.n) then t :: acceptGo (some t.n) l else acceptGo top l
    | none => if slotReads t then t :: acceptGo (some t.n) l else acceptGo top l

/-- What a reader accepts of a partition. -/
def acceptedOf (ts : List TapeSlot) (p : Nat) : List TapeSlot := acceptGo none (ts.filter fun t => partOf t.n == p)

/-- Accepted data sets of a KIND, with their descriptors. -/
def kindOf (k : Nat) (ts : List TapeSlot) : List (TapeSlot × Descriptor) :=
  ts.filterMap fun t => match slotDesc t with
    | some d => if d.kind = k then some (t, d) else none
    | none => none

/-- The EOD data set of a partition with this N. -/
def eodWith (ts : List TapeSlot) (n : Nat) : Option (TapeSlot × Descriptor) := (kindOf 1 ts).find? fun x => x.2.n == n

/-- The EOD data set in force as the tape shows it: no user data set or EOD of its partition has a higher N (R52). -/
def eodOnTape (ts : List TapeSlot) (p : Nat) : Option (TapeSlot × Descriptor) :=
  let acc := acceptedOf ts p
  match (kindOf 1 acc).getLast? with
  | some e => if (kindOf 0 acc).all fun u => decide (u.2.n < e.2.n) then some e else none
  | none => none

/-- The place behind the last slot that holds a member of a dome group (R55). -/
def afterGroup (ts : List TapeSlot) (g : Nat) : Option (Nat × Nat) :=
  ((ts.filter fun t => groupOf t.n == g).getLast?).map fun t => (t.wrap, t.slot + 1)

/-! ## The rebuild from tape (R60, R114) -/

/-- The EOD data sets of a partition that the tape still holds, in force or not (R114). -/
def eodsOnTape (ts : List TapeSlot) (p : Nat) : List (TapeSlot × Descriptor) := kindOf 1 (ts.filter fun t => partOf t.n == p)

/-- The user data set that a probe meets: the first of a wrap with its first copy at or after a slot (R61, R114). -/
def probeAt (users : List (TapeSlot × Descriptor)) (w j : Nat) : Option (TapeSlot × Descriptor) :=
  users.find? fun u => u.1.wrap == w && !u.1.rewritten && decide (indexSlot j ≤ u.1.slot)

/-- What the 48 probes of every wrap meet: wrap, probe, slot and descriptor (R114). -/
def probes (ts : List TapeSlot) : List (Nat × Nat × TapeSlot × Descriptor) :=
  let users := (List.range 4).flatMap fun p => kindOf 0 (acceptedOf ts p)
  (List.range 20).flatMap fun w => (List.range 48).filterMap fun j => (probeAt users w j).map fun u => (w, j, u)

/-- The locate index that the probes give: wrap, entry, N, slot, FIRST_LON (R61, R114). -/
def probedIndex (ts : List TapeSlot) : List (Nat × Nat × Nat × Nat × Nat) :=
  (probes ts).map fun x => (x.1, x.2.1, x.2.2.2.n, x.2.2.1.slot, x.2.2.2.firstLon)

/-- The partition whose run of wraps holds a wrap. -/
def wrapOwner (m : List (Bool × Nat × Nat)) (w : Nat) : Option Nat :=
  firstIdx 4 fun p => match m[p]? with | some e => e.1 && decide (e.2.1 ≤ w ∧ w ≤ e.2.2) | none => false

/-- A wrap-table entry as the tape shows it: blank, partly written on its partition's last wrap with data, full before that, or the guard
between two partitions (R60). -/
def probedWrap (ts : List TapeSlot) (m : List (Bool × Nat × Nat)) (w : Nat) : Nat × Nat × Nat × Nat × Nat × Nat :=
  match wrapOwner m w with
  | none => if (wrapOwner m (w - 1)).isSome && (wrapOwner m (w + 1)).isSome && decide (0 < w) then (3, 0, 0, 0, 0, 0) else (0, 0, 0, 0, 0, 0)
  | some p =>
    let acc := acceptedOf ts p
    let here := acc.filter fun t => t.wrap == w
    match here.head?, here.getLast? with
    | some a, some b =>
      let lon := match (here.filterMap slotDesc).head? with | some d => d.firstLon | none => 0
      (if acc.any fun t => decide (w < t.wrap) then 2 else 1, p, a.n, b.n, b.slot, lon)
    | _, _ => (0, p, 0, 0, 0, 0)

/-- The wrap table that the probes give. -/
def probedWraps (ts : List TapeSlot) (m : List (Bool × Nat × Nat)) : List (Nat × Nat × Nat × Nat × Nat × Nat) :=
  (List.range 20).map (probedWrap ts m)

/-- The lowest wrap on which a data set of a partition was found. -/
def firstWrapOf (ts : List TapeSlot) (p : Nat) : Option Nat := ((acceptedOf ts p).head?).map (·.wrap)

/-- The partition map when no EOD record supplies one: from each partition's lowest wrap with data to the last wrap before the next one's,
less a guard wrap where the two would share a band of five (R57, R114). -/
def foundMap (ts : List TapeSlot) : List (Bool × Nat × Nat) :=
  let starts := (List.range 4).map (firstWrapOf ts)
  (List.range 4).map fun p => match starts.getD p none with
    | none => (false, 0xFF, 0xFF)
    | some f =>
      match (starts.drop (p + 1)).findSome? id with
      | none => (true, f, 19)
      | some g => (true, f, if g % 5 = 0 then g - 1 else g - 2)

/-- The highest of a list of numbers. -/
def topOf (xs : List Nat) : Option Nat := xs.foldl (fun (b : Option Nat) x => some (match b with | some y => max x y | none => x)) none

/-- The volume's fields when no header copy is valid and the tape holds data sets (R114): from the EOD record in force with the highest
MOUNT_COUNT, with none in force from a superseded one (log 176), or from what the probes show. fresh stands for the VOLUME_ID drawn when there
is no EOD at all. -/
def foundHeader (ts : List TapeSlot) (fresh : Bytes) : VolHeader :=
  let descs := ts.filterMap slotDesc
  let inForce := (List.range 4).filterMap fun p => eodOnTape ts p
  let eods := if inForce.isEmpty then (List.range 4).flatMap (eodsOnTape ts) else inForce
  let best : Option (TapeSlot × Descriptor) := eods.foldl (fun (b : Option (TapeSlot × Descriptor)) x =>
    match b with
    | some y => if y.2.mountCount < x.2.mountCount then some x else b
    | none => some x) none
  let rev := (topOf (descs.map (·.revision))).getD 0x10
  let mc := (topOf (descs.map (·.mountCount))).getD 0
  let floor := (topOf ((probes ts).map fun x => x.2.2.2.revision)).getD 0x10
  let found := fun (p : Nat) => topOf (((probes ts).map fun x => x.2.2.2.n).filter fun n => partOf n == p)
  let record := fun (p : Nat) => (eodOnTape ts p).map fun e => field (slice e.1.payload 256 128) 32 6
  let high := (List.range 4).map fun p => match record p, found p with
    | some a, _ => a
    | none, some b => b
    | none, none => noN
  let eodN := (List.range 4).map fun p => match eodOnTape ts p with | some e => e.2.n | none => noN
  match best with
  | some e =>
    let user := slice e.1.payload 256 128
    { lastRevision := rev, floor := field user 38 1, generation := 1, mountCount := mc, volumeId := slice user 0 16,
      map := (List.range 4).map fun p => (mapEntry (slice user (16 + 4 * p) 4)).getD (false, 0xFF, 0xFF), highN := high, eodN := eodN,
      dirty := false }
  | none =>
    { lastRevision := rev, floor := floor, generation := 1, mountCount := mc, volumeId := fresh, map := foundMap ts, highN := high,
      eodN := eodN, dirty := false }

/-- The header of a blank cartridge: partition 0 on wraps 0 to 19, and no VOLUME_ID (R319). -/
def blankHeader : VolHeader :=
  { lastRevision := 0x10, floor := 0x10, generation := 0, mountCount := 0, volumeId := zeros 16,
    map := [(true, 0, 19), (false, 0xFF, 0xFF), (false, 0xFF, 0xFF), (false, 0xFF, 0xFF)],
    highN := List.replicate 4 noN, eodN := List.replicate 4 noN, dirty := false }

/-- The locate index as the cartridge memory holds it (R61). -/
def storedIndex (s : State) : List (Nat × Nat × Nat × Nat × Nat) :=
  let b := cmBytes s cmIndex (24 * 960)
  (List.range 960).filterMap fun k =>
    let e := slice b (24 * k) 24
    if field e 0 6 = noN then none else some (k / 48, k % 48, field e 0 6, field e 8 4, field e 12 8)

/-- What a MOUNT has read: the header, the wrap table and the index, whether the cartridge is blank, and whether the header, or the wrap
table with the index, had to be rebuilt. -/
structure Found0 where
  header : VolHeader
  wraps : List (Nat × Nat × Nat × Nat × Nat × Nat)
  index : List (Nat × Nat × Nat × Nat × Nat)
  blank : Bool
  newHeader : Bool
  newWraps : Bool

/-- Read the volume's description from the cartridge memory, or from the tape where the memory does not hold it (R59, R60, R114). With
`always` the tape is used whatever the memory holds. -/
def findVolume (always : Bool) (s : State) : Found0 :=
  let ts := tapeSlots s
  match volHeaderWins (cmBytes s cmHeaderA 128) (cmBytes s cmHeaderB 128), always with
  | some (_, h), false =>
    match wrapTableOf (cmBytes s cmWraps 644) with
    | some ws => { header := h, wraps := ws, index := storedIndex s, blank := false, newHeader := false, newWraps := false }
    | none => { header := h, wraps := probedWraps ts h.map, index := probedIndex ts, blank := false, newHeader := false, newWraps := true }
  | _, _ =>
    if (ts.filterMap slotDesc).isEmpty then
      { header := blankHeader, wraps := List.replicate 20 (0, 0, 0, 0, 0, 0), index := [], blank := true, newHeader := false, newWraps := false }
    else
      let h := foundHeader ts ((le 32 (Config.trng s.fresh).toNat).take 16)
      { header := h, wraps := probedWraps ts h.map, index := probedIndex ts, blank := false, newHeader := true, newWraps := true }

/-! ## A partition at MOUNT (R52, R55, R110) -/

/-- The wraps of a partition that are partly written or full. -/
def writtenWraps (ws : List (Nat × Nat × Nat × Nat × Nat × Nat)) (p : Nat) : List Nat :=
  (List.range 20).filter fun w => match ws[w]? with
    | some e => (e.1 == 1 || e.1 == 2) && e.2.1 == p
    | none => false

/-- A partition's write position lies in the end reserve of its last wrap: it takes no further user data (R101). -/
def fullAt (lastWrap : Nat) (at_ : Nat × Nat) : Bool := decide (at_.1 = lastWrap ∧ slotsPerWrap - 64 ≤ at_.2)

/-- What is known of a partition from the header and its EOD in force. -/
def partFrom (ts : List TapeSlot) (h : VolHeader) (floor p : Nat) : Part :=
  let m := h.map.getD p (false, 0xFF, 0xFF)
  let hi := h.highN.getD p noN
  let e := if h.eodN.getD p noN = noN then none else eodWith ts (h.eodN.getD p noN)
  let lon := match e with | some x => x.2.firstLon | none => 0
  let place := match e with
    | some x => (afterGroup ts (groupOf x.2.n)).getD (x.1.wrap, x.1.slot + 1)
    | none => (m.2.1, 0)
  { noPart with
    inUse := m.1, firstWrap := m.2.1, lastWrap := m.2.2, highN := hi, nextN := if hi = noN then 0 else nextGroup (hi % 2 ^ 46),
    eodN := e.map fun x => x.2.n, logicalEnd := lon, endLon := lon, wrap := place.1, slot := place.2,
    full := m.1 && fullAt m.2.2 place, onLastWrap := e.isSome && decide (place.1 = m.2.2), floor := floor }

/-- A partition needs recovery (R59, R113, R114): its last written wrap is partly written on a volume that shows DIRTY, or it has no EOD
in force though a wrap of it is written. -/
def needsRecovery (f : Found0) (pt : Part) (p : Nat) : Bool :=
  let ws := writtenWraps f.wraps p
  pt.inUse && !ws.isEmpty &&
  (pt.eodN.isNone || (f.header.dirty && (match f.wraps[ws.getLastD 0]? with | some e => e.1 == 1 | none => false)))

/-! ## Recovery (R113) -/

/-- Slots of a wrap that recovery reads: up to LAST_SLOT on a full wrap (R60). -/
def wrapSlots (ws : List (Nat × Nat × Nat × Nat × Nat × Nat)) (w : Nat) : Nat :=
  match ws[w]? with
  | some e => if e.1 = 2 then e.2.2.2.2.1 + 1 else slotsPerWrap
  | none => slotsPerWrap

/-- The place of a slot counted along the wraps from the start of a wrap. -/
def alongFrom (ws : List (Nat × Nat × Nat × Nat × Nat × Nat)) (start w slot : Nat) : Nat :=
  ((List.range w).filter fun i => decide (start ≤ i)).foldl (fun k i => k + wrapSlots ws i) slot

/-- Recovery's walk along the tape (R56, R113): the slots it takes, with whether each decodes; it ends behind 256 slots that yield none. -/
def recoverGo (ws : List (Nat × Nat × Nat × Nat × Nat × Nat)) (start : Nat) : Option Nat → Nat → List TapeSlot → List TapeSlot
  | _, _, [] => []
  | top, next, t :: l =>
    let place := alongFrom ws start t.wrap t.slot
    let above := match top with | some n => decide (n < t.n) | none => true
    if wrapSlots ws t.wrap ≤ t.slot then recoverGo ws start top next l
    else if next + 256 ≤ place then []
    else if above && slotReads t then t :: recoverGo ws start (some t.n) (place + 1) l
    else if above then t :: recoverGo ws start top next l
    else recoverGo ws start top (if top = some t.n ∧ slotReads t then place + 1 else next) l

/-- What recovery meets of a partition. -/
def recoverTaken (f : Found0) (pt : Part) (p : Nat) (ts : List TapeSlot) : List TapeSlot :=
  let last := (writtenWraps f.wraps p).getLastD pt.firstWrap
  let start := if pt.firstWrap < last then last - 1 else last
  recoverGo f.wraps start none 0 (ts.filter fun t => partOf t.n == p && decide (start ≤ t.wrap ∧ t.wrap ≤ pt.lastWrap))

/-- The payload of a failed data set rebuilt from its dome, whose parity sets are both on tape (R85, R113). -/
def rebuiltPayload (s : State) (n : Nat) : Option Bytes :=
  let g := groupOf n
  let d := domeOf n
  if (tapeCopy s (memberN g d 62)).isSome && (tapeCopy s (memberN g d 63)).isSome then
    let members := domeMembers s g d
    let lost := (members.filter fun m => m.2.isNone).map (·.1)
    let surv := members.filterMap fun m => m.2.map fun b => (m.1, b)
    match lost with
    | [a] => if a = posOf n then (domeRebuild a none surv).head? else none
    | [a, b] => (((lost.zip (domeRebuild a (some b) surv)).find? fun x => x.1 == posOf n)).map (·.2)
    | _ => none
  else none

/-- What a data set is to recovery. -/
inductive RecSet where
  /-- it failed every level -/
  | bad
  /-- an EOD, with its FIRST_LON -/
  | eod (lon : Nat)
  /-- user data: N, FIRST_LON, whether an object begins at its first byte, and its table where it can be read -/
  | user (n firstLon : Nat) (fresh : Bool) (src : Option SrcSet)

/-- The table of a recorded payload, where no key is needed or a slot holds it (R49, R252). -/
def payloadTable (s : State) (n : Nat) (payload : Bytes) : Option SrcSet :=
  let d := descriptorOf payload
  let key := if formatMax < d.revision then none
    else if d.cipher = 0 then some none
    else (decryptSlot s 0xFF d.keyId).bind fun i => (curGen s i).map fun g => some (i, g)
  key.bind fun k => (openedUser s payload k).bind fun user =>
    if tableOk user d then
      some { n := some n, level := 0, key := none, coded := d.cipher != 0, firstLon := d.firstLon, lead := d.lead,
             stream := user.take d.stream, entries := objectsOf user d }
    else none

/-- A data set as recovery sees it; none for one that holds no object: parity, or filler. -/
def recSet (s : State) (n : Nat) (payload : Option Bytes) : Option RecSet :=
  match payload with
  | none => if isParityN n then none else some .bad
  | some b =>
    if isParityN n then none
    else if !descriptorOk b then some .bad
    else
      let d := descriptorOf b
      match (if formatMax < d.revision then 0 else d.kind) with
      | 1 => some (.eod d.firstLon)
      | 0 =>
        let src := payloadTable s n b
        let begins := match src with
          | some x => (match x.entries.head? with | some e => e.mark || e.first | none => true)
          | none => true
        some (.user n d.firstLon (d.lead == 0 && begins) src)
      | _ => none

/-- Put a number with what stands there into a list by number. -/
def numInsert (x : Nat × Option Bytes) : List (Nat × Option Bytes) → List (Nat × Option Bytes)
  | [] => [x]
  | y :: l => if x.1 < y.1 then x :: y :: l else if x.1 = y.1 then y :: l else y :: numInsert x l

/-- The data sets recovery has, by N: what decoded, what its dome gave back, and what failed. -/
def recoverSets (s : State) (taken : List TapeSlot) : List RecSet :=
  let good := (taken.filter slotReads).map fun t => (t.n, some t.payload)
  let failed := (taken.filter fun t => !slotReads t && !good.any fun g => g.1 == t.n).map fun t => (t.n, rebuiltPayload s t.n)
  (((good ++ failed).foldr numInsert []).filterMap fun x => recSet s x.1 x.2)

/-- Whether the last object of a data set goes on into the next. -/
def goesOn (x : SrcSet) : Bool := match x.entries.getLast? with | some e => !(e.mark || e.last) | none => decide (0 < x.lead)

/-- The next user data set's FIRST_LON and whether an object begins there, if it follows with nothing failed between. -/
def nextUser : List RecSet → Option (Nat × Bool)
  | .user _ f fresh _ :: _ => some (f, fresh)
  | .eod x :: [] => some (x, true)
  | .eod _ :: l => nextUser l
  | _ => none

/-- The end that the data sets give: the first object with a byte in a failed one, or that goes on past the last accepted one (R113). e: the
end so far; on: an object goes on there; bad: a failed data set came since; eod: an EOD closed what came so far. -/
def endGo (e : Nat) (on bad : Bool) (eod : Option Nat) : List RecSet → Nat
  | [] => eod.getD e
  | .bad :: l => endGo e on true eod l
  | .eod x :: l => endGo e on bad (some x) l
  | .user _ f fresh src :: l =>
    if e < f ∨ (f = e ∧ bad ∧ (on ∨ !fresh)) then e
    else match src with
      | some x => endGo x.next (goesOn x) false none l
      | none => match nextUser l with
        | some (f', fresh') => endGo f' (!fresh') false none l
        | none => f

/-- The entries of the objects that the data sets still hold, older ones cut where a later data set begins lower (R56). -/
def liveEntries (sets : List RecSet) : List RecEntry :=
  sets.foldl (fun es x => match x with
    | .user _ f _ src => (es.filter fun e => decide (e.lon < f)) ++ (match src with | some y => y.entries | none => [])
    | _ => es) []

/-- The first record of an atomic group whose GROUP_END record is not below an end (R113). -/
def openGroupStart (es : List RecEntry) (e : Nat) : Option Nat :=
  (es.filter fun x => decide (x.lon < e)).foldl (fun (g : Option Nat) x =>
    if !x.group then g else if x.groupEnd && x.last then none else match g with | some y => some y | none => some x.lon) none

/-- The recovered end of a partition (R113), from the first LON that recovery meets. -/
def recoveredEnd (base : Nat) (sets : List RecSet) : Nat :=
  let first := match sets.find? fun x => match x with | .user _ _ _ _ => true | _ => false with
    | some (.user _ f _ _) => f
    | _ => base
  let e := endGo first false false none sets
  match openGroupStart (liveEntries sets) e with
  | some g => min g e
  | none => e

/-- The objects of the open group below a recovered end: those with data in the last dome group, when its parity is not all on tape. -/
def openObjects (taken : List TapeSlot) (sets : List RecSet) (e : Nat) : Option (Nat × Nat × Nat) :=
  let users := sets.filterMap fun x => match x with | .user n f _ _ => some (n, f) | _ => none
  match users.getLast? with
  | none => none
  | some last =>
    let g := groupOf last.1
    let parity := (taken.filter fun t => slotReads t && isParityN t.n && groupOf t.n == g).length
    match users.find? fun u => groupOf u.1 == g with
    | some u => if parity < 16 ∧ u.2 < e then some (u.2, e - 1, u.1) else none
    | none => none

/-- Recover one partition (R113): its end, its append point behind the last accepted data set, and the report. A writable mount stages
the EOD for the end. -/
def recoverPart (f : Found0) (p : Nat) (s : State) : State :=
  let pt := partAt s p
  let taken := recoverTaken f pt p (tapeSlots s)
  let sets := recoverSets s taken
  let base := match f.wraps[(writtenWraps f.wraps p).headD 0]? with | some w => w.2.2.2.2.2 | none => 0
  let e := recoveredEnd base sets
  let high := (topOf ((taken.map (·.n)) ++ (if pt.highN = noN then [] else [pt.highN]))).getD noN
  let place := match ((taken.filter slotReads).getLast?).map (fun t => (t.wrap, t.slot + 1)) with
    | some x => x
    | none => (pt.wrap, pt.slot)
  let s1 := onPart p (fun q => { q with
    logicalEnd := e, endLon := e, eodN := none, highN := high, nextN := if high = noN then 0 else nextGroup (high % 2 ^ 46),
    wrap := place.1, slot := place.2, full := fullAt q.lastWrap place, onLastWrap := decide (place.1 = q.lastWrap) }) s
  let s2 := match openObjects taken sets e with
    | some r => s1.onLantern fun l => { l with report := l.report ++ [reportEntry r.1 r.2.1 p 1 r.2.2] }
    | none => s1
  onVol (fun v => { v with recovered := true }) (if writable s2 then stageEod p e s2 else s2)

/-! ## The volume comes into force (R59, R94, R103, R249, R319, R392) -/

/-- Nothing of an earlier mount is left in the write path. -/
def freshWrites (s : State) : State :=
  s.onWr fun w => { w with
    sets := [], domesReady := [], domesReleased := [], closed := [], commits := [], anchor := none, rewrites := [], requeued := [],
    skipLeft := 0, wrapEnding := false, noFirst := false, absent := [] }

/-- The head table in force for this mount: one that waited takes its place and removes the dead declarations; every channel's trim is loaded
from it (R94, R103, Table 12-9). -/
def loadHead (s : State) : State :=
  let s1 := match s.trust.headNext with
    | some t =>
      (s.onTrust fun k => { k with tables := putAt k.tables 3 (some t), headNext := none }).onEcc fun e => { e with
        dead0 := 0, dead1 := 0, deadHead := (Config.headSerial t.2, t.1), run0 := Vector.replicate 1024 0, run1 := Vector.replicate 1024 0 }
    | none => s
  let trim := fun (c : Nat) => match getAt s1.trust.tables 3 none with | some t => Config.headTrim t.2 c | none => 0
  s1.onTiles fun t => { t with wtrim := Vector.ofFn fun c => trim c.val, mountTaps := [], modulesUsed := [] }

/-- The highest REVISION or floor a header tells of lies above the format maximum (R66, R392). -/
def newerFormat (h : VolHeader) : Bool := decide (formatMax < h.lastRevision ∨ formatMax < h.floor)

/-- The tape-ID record of a servo band: the one accepted from its words since the cartridge came in, else the one it carries (R31, log 168). -/
def bandRecord (s : State) (k : Nat) : Bytes :=
  let read := getAt s.stp.tapeIds k []
  if read.isEmpty then (match s.drive.cart with | some c => c.tapeIds.getD k [] | none => []) else read

/-- The volume as found, mounted for writing or not, before any partition is recovered. -/
def volumeFrom (f : Found0) (ro : Bool) (s : State) : Volume :=
  let ts := tapeSlots s
  let record := bandRecord s 0
  { readOnly := ro, recovered := false, rebuilt := f.newHeader || f.newWraps, blank := allZero f.header.volumeId,
    mountCount := f.header.mountCount, lastRevision := f.header.lastRevision, generation := f.header.generation,
    volumeId := f.header.volumeId, dirty := f.header.dirty, floor := f.header.floor, dirtyTries := 0, foundBlank := f.blank,
    tapeId := tapeIdOf record, serial := cmBytes s 0 16,
    parts := Vector.ofFn fun p => partFrom ts f.header s.host.floor p.val,
    wraps := f.wraps, index := f.index, posPart := 0, posLon := 0, cmRefused := false }

/-- The accesses that write both header copies with GENERATION 1 (R114). -/
def headerCopies (v : Volume) : List CmReq :=
  let b := volHeaderBytes (headerOf v 1 v.dirty)
  cmWrites cmHeaderA b ++ cmWrites cmHeaderB b

/-- Write what a writable MOUNT has rebuilt: both header copies with GENERATION 1, the wrap table and the index (R60, R114). -/
def writeRebuilt (f : Found0) (s : State) : State :=
  let s1 := if f.newHeader then
      match s.drive.vol with
      | some v =>
        cmGroup (headerCopies v) (.header v.dirty) (onVol (fun v => { v with generation := 1 }) s)
      | none => s
    else s
  if f.newWraps then
    forEach (List.range 20) (fun w => writeIndex w (wrapEntry s1 w).2.1) (writeWraps s1)
  else s1

/-- A writable MOUNT raises MOUNT_COUNT and writes the header (R59), with what had to be rebuilt. -/
def countMount (f : Found0) (s : State) : State :=
  match s.drive.vol with
  | none => s
  | some v =>
    let s1 := onVol (fun v => { v with mountCount := (v.mountCount + 1) % 2 ^ 32 }) s
    writeRebuilt f (if f.newHeader then s1 else writeHeader v.dirty s1)

/-- Bring the volume into force and recover what needs it. -/
def bringVolume (ro : Bool) (s : State) : State :=
  let f := findVolume false s
  let s0 := when f.newHeader draw s
  let newer := newerFormat f.header
  let s1 := loadHead (freshWrites (dropReads (s0.onDrive fun d => { d with vol := some (volumeFrom f (ro || newer) s) })))
  let s2 := draw (s1.onCupola fun c => { c with nonce := BitVec.ofNat 32 (Config.trng s1.fresh).toNat })
  let s3 := if ro || newer then s2 else countMount f s2
  let s4 := forEach ((List.range 4).filter fun p => needsRecovery f (partAt s3 p) p) (recoverPart f) s3
  if newer then lantern 0x00E0 [1, BitVec.ofNat 8 f.header.lastRevision] s4 else s4

/-- RESULT of MOUNT (Table 12-7). -/
def mountResult (s : State) : Nat :=
  match s.drive.vol with
  | none => 0
  | some v =>
    v.mountCount + v.lastRevision * 2 ^ 32 + (v.parts.toList.filter (·.inUse)).length * 2 ^ 40 +
    (v.readOnly.toNat + 2 * v.recovered.toNat + 4 * v.rebuilt.toNat + 8 * v.foundBlank.toNat) * 2 ^ 48

end Sys2Proof.Machine
end

