-- ==== Sys2Proof/Machine/Volume.lean ====
section
/-! DEFINITION. The cartridge's coming and going and the volume commands: MOUNT, UNMOUNT, LOCATE, READ_POSITION, SYNC, FENCE, TRUNCATE,
REFRESH and PARTITION (R283, R292, R318 to R324). A command that waits for the tape stays started, and its row goes on from there. -/

namespace Sys2Proof.Machine

/-! ## The volume leaves (R251, R320) -/

/-- Media-bound keys are zeroized with the mount (R251). -/
def dropDerived (s : State) : State :=
  s.onKeep fun k => { k with slots := k.slots.map fun x => { x with
    cur := x.cur.map fun g => { g with derived := none }, shadow := x.shadow.map fun g => { g with derived := none } } }

/-- Staged data that no tape will take is lost, and each data set is reported by a device event (R320). -/
def loseStaged (s : State) : State :=
  let data := s.wr.sets.filter fun d => d.kind != .parity
  let unsealed := data.filter fun d => d.sel.cipher != 0 && (d.stage == .assembling || d.stage == .closed)
  let s1 := forEach data (fun d => deviceEvent Config.stagedLossEvent (le 6 (d.n.getD noN))) s
  updateStall (freshWrites (forEach unsealed (fun d => unbindGen d.sel.slot d.sel.gen 0) (dropItems (fun _ => false) s1)))

/-- The volume is no longer mounted: no read-ahead, no run, no media-bound key; what waited for the end of the mount takes effect. -/
def volumeGone (s : State) : State :=
  let s1 := dropDerived (dropReads s)
  let s2 := if s1.wvn.run = .none then s1 else endRun s1
  linkAtUnmount ((freshWrites s2).onDrive fun d => { d with vol := none })

/-- A command that needs a mounted volume once it runs. -/
def needsVolume (c : Cmd) : Bool :=
  let op := opcodeOf c.entry
  decide (opMount ≤ op ∧ op < opCrypt) && op != opFence

/-- End a command whose volume has gone: the bytes of a record in hand are zeroed, and RESULT counts what was done (R320). -/
def endVolumeLost (c : Cmd) (s : State) : State :=
  let op := opcodeOf c.entry
  if op = opWrite ∨ op = opWriteMark then endWrite c 0x0411 c.count s
  else if isReading c then
    let s1 := zeroRecord c s
    match cmdOf s1 c.qid c.tag with
    | some d => finishCmd d.qid d.tag 0x0411 d.count none s1
    | none => s1
  else finishCmd c.qid c.tag 0x0411 0 none s

/-- CART_REMOVED: with a volume mounted it ceases to be mounted, its commands in flight end, and what is staged is lost (R320). -/
def cartRemoved (s : State) : State :=
  let s1 := latch 4 (s.onPins fun p => { p with cartPresentN := true })
  let s2 :=
    if s.drive.vol.isSome then
      let flight := (byOrder s1.host.cmds).filter fun c => needsVolume c && !isDone c && !unstarted c
      volumeGone (loseStaged (forEach flight endVolumeLost s1))
    else s1
  tidy (s2.onDrive fun d => { d with cart := none, link := {} })

/-- CART_REMOVED (R320). -/
def execCartRemoved (s : State) : Host.Outcome State Fault Refusal := go cartRemoved s

/-- CART_INSERTED: CART_PRESENT_N asserts, and its latch catches the edge (R331). A cartridge that is in stays in. -/
def execCartInserted (c : Cartridge) (s : State) : Host.Outcome State Fault Refusal :=
  go (fun s => if s.drive.cart.isSome then s
    else ((latch 3 (s.onPins fun p => { p with cartPresentN := false })).onDrive fun d =>
      { d with cart := some { c with cm := Memory.canon c.cm }, link := {} }).onStp fun p =>
      { p with tapeIds := Vector.replicate 5 [] }) s

/-! ## Tape for what is staged (R134, Table 05-3) -/

/-- Staged data is to reach the tape now: a read run that no command waits for ends, a stopped run goes on, or a write run begins. -/
def writeTape (s : State) : State :=
  let s1 := if s.wvn.run = .reading ∧ !readWaits s then endRun (s.onRd fun r => { r with active := false }) else s
  kickWrites false (restartIfAsked true (retryMemory s1))

/-! ## MOUNT (R319, R366) -/

/-- The identity block is accepted (R62, R366). -/
def identityOk (s : State) : Bool :=
  let b := cmBytes s 0x100 3584
  let id := tapeIdOf (bandRecord s 0)
  identityFixed b && slice b 8 16 == cmBytes s 0 16 && slice b 24 16 == id &&
  s.trust.signers.any fun k =>
    slice b 48 32 == sha32 (k.1 ++ k.2) && Config.ed25519Verify k.1 (b.take 80) (slice b 80 64) &&
    Config.mldsaVerify k.2 (b.take 80) (slice b 144 3309)

/-- Checks 1 to 3 of R319: the status of the first that fails. -/
def mountCheckFirst (s : State) : Option Nat :=
  if s.drive.vol.isSome then some 0x0411
  else if s.drive.cart.isNone || s.pins.cartPresentN then some 0x0412
  else if (stpTable s).isNone || anyGroupFailed s || s.stp.mode == .fault then some 0x0416
  else none

/-- Checks 4 to 6 of R319, on a threaded cartridge. STRAP[2] lets a refused identity through (R366). -/
def mountCheckLast (s : State) : Option Nat :=
  match s.drive.cart with
  | none => some 0x0412
  | some c =>
    if decide (c.cmKiB < 32) || c.cmSet != 1 || !mediaTypeOk (cmBytes s 0 256) then some 0x0412
    else if !tapeIdsAgree ((List.range 5).map (bandRecord s)) then some 0x0414
    else if !identityOk s && !s.boot.straps.getLsbD 2 then some 0x0413
    else none

/-- The accesses by which MOUNT reads the memory: the reader's IDENT, CM_INFO, then everything below the integrator area (R62 to R64). -/
def memoryReads : List CmReq := [⟨cmFrame 3 [], .ident⟩, cmReq 200 [0xC6] .info] ++ cmReads 0 cmArea

/-- A refused cartridge is unthreaded, and MOUNT completes. -/
def mountRefused (c : Cmd) (st : Nat) (s : State) : State := reply c.qid c.tag st 0 (cmClose (startProgram 1 0 0 0 0 s))

/-- The volume is in force: MOUNT completes once nothing is on its way to the cartridge memory; a header write that failed does not hold it
(R59). -/
def mountEnd (c : Cmd) (st : Nat) (s : State) : State :=
  if cmIdle s then reply c.qid c.tag st (mountResult s) s else onCmd c.qid c.tag (fun d => { d with goal := 6, count := st }) s

/-- A recovered volume's EODs are on tape: step 4 of Table 04-6, and MOUNT completes; until then their writing is asked for (R113). -/
def mountRecovered (c : Cmd) (s : State) : State :=
  if s.wr.sets.isEmpty then mountEnd c c.count (closeSession (if s.wvn.run = .none then s else endRun s))
  else if tapeDead s then reply c.qid c.tag 0x0416 0 (volumeGone s)
  else if memoryFailed s then mountEnd c c.count s
  else if s.wvn.run = .none then writeTape s else s

/-- The cartridge memory has been read: it is checked, and the volume comes into force (R319). A usage log whose CRC-32 fails is written
whole (R62). -/
def mountLoaded (c : Cmd) (s : State) : State :=
  match mountCheckLast s with
  | some st => mountRefused c st s
  | none =>
    let f := findVolume false s
    let strapped := !identityOk s
    let s1 := bringVolume ((specField c.entry 48 1).testBit 0 || strapped) s
    let s2 := if writable s1 && !usageLogOk (cmBytes s1 cmLog (cmArea - cmLog)) then writeUsage s1 else s1
    let st := if newerFormat f.header || strapped then 0x0410 else 0
    if s2.wr.sets.isEmpty then mountEnd c st s2
    else onCmd c.qid c.tag (fun d => { d with goal := 5, count := st }) s2

/-- One step of a MOUNT on a threaded cartridge: goal 1 while THREAD runs, 4 while the memory is read, 2 once it has been read, 3 when it
could not be. -/
def mountThreaded (c : Cmd) (s : State) : State :=
  if c.goal = 1 then
    (if s.stp.program.fault != 0 then mountRefused c 0x0416 s
     else cmGroup memoryReads (.command c.qid c.tag) (onCmd c.qid c.tag (fun d => { d with goal := 4 }) s))
  else if c.goal = 2 then mountLoaded c s
  else if c.goal = 3 then mountRefused c 0x0412 s
  else if c.goal = 0 then mountRefused c 0x0416 s
  else s

/-- One step of a MOUNT: goal 0 before THREAD has started, 1 to 4 until the volume is in force, 5 while a recovery writes, 6 while the last
updates of the cartridge memory are on their way. -/
def mountStep (c : Cmd) (s : State) : State :=
  if c.goal = 5 then mountRecovered c s
  else if c.goal = 6 then mountEnd c c.count s
  else match mountCheckFirst s with
    | some st => reply c.qid c.tag st 0 s
    | none =>
      match s.stp.mode with
      | .off =>
        if c.goal = 0 && programAllowed s 0 then onCmd c.qid c.tag (fun d => { d with goal := 1 }) (startProgram 0 0 0 0 0 s)
        else reply c.qid c.tag 0x0416 0 s
      | .still => mountThreaded c s
      | _ => s

/-- MOUNT (R319). -/
def execMount (q : Fin 256) (tag : BitVec 16) (s : State) : Host.Outcome State Fault Refusal :=
  goLive (fun s => match startedCmd s q.val tag.toNat opMount with | some c => mountStep c s | none => s) s

/-! ## UNMOUNT (R320, R445) -/

/-- UNMOUNT begins: every open group is abandoned with 0x0214, and the EODs that R110 asks for are staged. -/
def unmountBegin (c : Cmd) (s : State) : State :=
  let records := ((List.range 4).map fun p => match (partAt s p).group with | some g => g.2.2.2 | none => 0).sum
  let s1 := forEach (List.range 4) (fun p => abandonGroup p 0x0214) s
  let s2 := forEach (List.range 4) (fun p t => if (partAt t p).dirty then stageEod p (eodLon t p) t else t) s1
  onCmd c.qid c.tag (fun d => { d with goal := 1, count := records }) (writeTape s2)

/-- Held data that the cartridge memory keeps from the tape is discarded, and the acknowledged objects in it are reported (R111). -/
def discardHeld (s : State) : State :=
  forEach (List.range 4) (fun p t =>
    match t.wr.sets.find? fun d => d.part == p && d.kind == .user with
    | none => t.onWr fun w => { w with sets := w.sets.filter fun d => d.part != p }
    | some d =>
      let lost := acknowledged (openWrites t p) d.firstLon (partAt t p).logicalEnd
      let n := d.n.getD (mkN p (partAt t p).nextN)
      let t1 := match lost with | some r => reportLoss p d.id 1 n r t | none => t
      let t2 := endWritesPast p d.firstLon 0x0311 (discardSets p d.id (dropItems (fun it => it.part != p) t1))
      t2.onWr fun w => { w with sets := w.sets.filter fun x => x.part != p }) s

/-- The cartridge is unthreaded: the volume is gone and UNMOUNT completes. -/
def unmountDone (c : Cmd) (s : State) : State := reply c.qid c.tag 0 c.count (cmClose (volumeGone s))

/-- Nothing is staged any more: the session is closed, the taps are kept, and the cartridge is unthreaded once the tape stands. -/
def unmountClose (c : Cmd) (s : State) : State :=
  let s1 := if s.wvn.run = .none then s else endRun s
  let dirty := writable s1 && (match s1.drive.vol with | some v => v.dirty | none => false)
  let close := fun (t : State) => dropDerived (dropReads (saveTaps (if dirty then closeSession t else t)))
  match s1.stp.mode with
  | .still => onCmd c.qid c.tag (fun d => { d with goal := 2 }) (startProgram 1 0 0 0 0 (close s1))
  | .off => onCmd c.qid c.tag (fun d => { d with goal := 2 }) (close s1)
  | _ => s1

/-- One step of an UNMOUNT: goal 0 at first, 1 while staged data is written, 2 while UNTHREAD runs. -/
def unmountStep (c : Cmd) (s : State) : State :=
  if s.drive.vol.isNone then reply c.qid c.tag 0x0411 0 s
  else if c.goal = 0 then unmountBegin c s
  else if c.goal = 2 then
    match s.stp.mode with
    | .off | .fault => if cmIdle s then unmountDone c s else s
    | .still => if s.stp.program.running then s else startProgram 1 0 0 0 0 s
    | _ => s
  else if tapeDead s then unmountDone c (saveTaps (loseStaged s))
  else if s.wr.sets.isEmpty then unmountClose c s
  else if memoryFailed s then unmountClose c (discardHeld s)
  else if s.wvn.run = .writing then restartIfAsked true s else writeTape s

/-- UNMOUNT (R320). -/
def execUnmount (q : Fin 256) (tag : BitVec 16) (s : State) : Host.Outcome State Fault Refusal :=
  goLive (fun s => match startedCmd s q.val tag.toNat opUnmount with | some c => unmountStep c s | none => s) s

/-! ## LOCATE and READ_POSITION (R318) -/

/-- The position of the volume. -/
def setPosition (p lon : Nat) (s : State) : State := onVol (fun v => { v with posPart := p, posLon := lon }) s

/-- Find the object that a LOCATE goes to; any slot's key may decrypt on the way. -/
def locateObj (s : State) (p x : Nat) : Found :=
  let cov := covered s p x
  seek x false (cov && s.rd.ended) (if cov then .stop 0x0300 else .past) none none (sources s p 0xFF false)

/-- LOCATE: the position before object x, or at the logical end for an x above it (Table 12-7). -/
def locate (c : Cmd) (s : State) : State :=
  let p := partField c.entry
  let x := lonField c.entry
  let stop := logicalEndOf s p
  if s.drive.vol.isNone then reply c.qid c.tag 0x0411 0 s
  else if !(partAt s p).inUse then reply c.qid c.tag 0x0101 0 s
  else if stop < x then reply c.qid c.tag 0x0401 stop (setPosition p stop s)
  else if x = stop then reply c.qid c.tag 0 x (setPosition p x (if covered s p x then s else discardReadAhead s))
  else match locateObj s p x with
    | .object o => reply c.qid c.tag 0 x (setPosition p x (if inReadAhead s o then s else dropReads s))
    | .stop st => reply c.qid c.tag st x (setPosition p x s)
    | .wait => s
    | .past => if tapeDead s then reply c.qid c.tag 0x0416 (posLonOf s) s else needTape c x s

/-- LOCATE. -/
def execLocate (q : Fin 256) (tag : BitVec 16) (s : State) : Host.Outcome State Fault Refusal :=
  goLive (fun s => match startedCmd s q.val tag.toNat opLocate with | some c => locate c s | none => s) s

/-- A place along a wrap in channel bits, from an LPOS and the channel bits behind its start in the direction of motion. -/
def wrapPlace (wrap lpos past : Nat) : Int := (if wrap % 2 = 0 then (lpos : Int) else -(lpos : Int)) * 188608 + past

/-- N of the data set under the head: that of the last slot on the wrap in hand that begins at or before the current position. All ones where
no data set stands. -/
def underHead (s : State) : Nat :=
  let w := s.stp.latWrap
  let past := (if w % 2 = 0 then s.stp.frame else 32 - s.stp.frame) * 5894
  let here := wrapPlace w s.stp.lpos past
  match ((tapeSlots s).filter fun t => t.wrap == w &&
      decide (wrapPlace w (slotStart w t.slot).1 (slotStart w t.slot).2 ≤ here)).getLast? with
  | some t => t.n
  | none => noN

/-- The 64-byte block of READ_POSITION. -/
def positionBlock (v : Volume) (s : State) : Bytes :=
  let pt := partAt s v.posPart
  fit 64 (le 1 v.posPart ++ le 1 s.stp.latWrap ++ zeros 6 ++ le 8 v.posLon ++ le 8 pt.logicalEnd ++ le 6 (underHead s) ++ zeros 2 ++
    le 4 s.stp.lpos ++ le 1 (pt.onLastWrap.toNat + 2 * v.readOnly.toNat))

/-- READ_POSITION: the LON of the current position, and the block when DP0 asks for it. -/
def readPosition (c : Cmd) (s : State) : State :=
  match s.drive.vol with
  | none => reply c.qid c.tag 0x0411 0 s
  | some v =>
    let s1 := if dp0 c.entry = 0 then s else hostWrites c.qid c.tag [(dp0 c.entry, positionBlock v s)] s
    reply c.qid c.tag 0 v.posLon s1

/-- READ_POSITION. -/
def execReadPosition (q : Fin 256) (tag : BitVec 16) (s : State) : Host.Outcome State Fault Refusal :=
  goLive (fun s => match startedCmd s q.val tag.toNat opReadPosition with | some c => readPosition c s | none => s) s

/-! ## SYNC and FENCE (R283, R292) -/

/-- A write that a SYNC waits for: earlier, within its scope, and not of a group that stays open (R292). -/
def inSync (s : State) (c d : Cmd) : Bool :=
  let op := opcodeOf d.entry
  let p := partField d.entry
  (op == opWrite || op == opWriteMark) && before d.order c.order && !isDone d &&
  (match specField c.entry 48 1 with
   | 0 => d.qid == c.qid
   | 1 => p == partField c.entry
   | _ => true) &&
  !(atomicFlag d.entry && (match (partAt s p).group with | some g => g.1 == d.qid | none => false))

/-- SYNC begins: it takes down the earlier writes of its scope, the cartridge memory is tried again, and what is durable is settled. -/
def syncBegin (c : Cmd) (s : State) : State :=
  if s.drive.vol.isNone then reply c.qid c.tag 0x0411 0 s
  else if unfetchedBefore s c.order then s
  else
    let after := (s.host.cmds.filter (inSync s c)).map fun d => (d.qid, d.tag)
    settle (writeTape (onCmd c.qid c.tag (fun d => { d with phase := .durableWait, after := after }) s))

/-- SYNC (R292). -/
def execSync (q : Fin 256) (tag : BitVec 16) (s : State) : Host.Outcome State Fault Refusal :=
  goLive (fun s => match startedCmd s q.val tag.toNat opSync with | some c => syncBegin c s | none => s) s

/-- FENCE (R283): it waits for the earlier commands of its queue. -/
def execFence (q : Fin 256) (tag : BitVec 16) (s : State) : Host.Outcome State Fault Refusal :=
  goLive (fun s => match startedCmd s q.val tag.toNat opFence with
    | some c => tidy (onCmd c.qid c.tag (fun d => { d with phase := .fenceWait }) s)
    | none => s) s

/-! ## TRUNCATE (R55, R110, R322) -/

/-- The read-ahead content at or above a LON of a partition is discarded, in data sets that also hold objects below it too, and a run that reads
on there ends (R132, R134). A failed data set stays while a decoded one after it lies below the LON. -/
def discardFrom (p x : Nat) (s : State) : State :=
  if s.rd.part ≠ p then s
  else
    let below := fun (n : Nat) => s.rd.sets.any fun y => userSet y && decide (n < y.n) && decide ((descriptorOf y.payload).firstLon ≤ x)
    let s1 := s.onRd fun r => { r with
      sets := (r.sets.filter fun y => !userSet y || decide ((descriptorOf y.payload).firstLon < x)).map fun y =>
        { y with stop := some (match y.stop with | some z => min z x | none => x) },
      failed := r.failed.filter (fun f => below f.n), holes := r.holes.filter (fun h => below h.1),
      packets := r.packets.filter (fun k => decide (k.lon < x)), badBlocks := r.badBlocks.filter (fun b => decide (b.2.1 < x)),
      active := false, covers := match r.covers with | some f => if f < x ∧ (r.failed.all fun y => below y.n) ∧ (r.holes.all fun y => below y.1) then some f else none | none => none }
    if reading s1 then endRun s1 else s1

/-- The dome group that holds the start of object x on tape: x begins in the last user data set below x, or in one of FIRST_LON x that does
not go on with it; for an append, the group that the EOD in force closed (R55). -/
def holdingGroup (s : State) (ts : List TapeSlot) (pt : Part) (p x : Nat) : Option Nat :=
  let starts := fun (u : TapeSlot × Descriptor) => match recSet s u.2.n (some u.1.payload) with | some (.user _ _ fresh _) => fresh | _ => false
  if pt.logicalEnd ≤ x then pt.eodN.map groupOf
  else (((kindOf 0 (acceptedOf ts p)).filter fun u => decide (u.2.firstLon < x) || (u.2.firstLon == x && starts u)).getLast?).map
    fun u => groupOf u.2.n

/-- With nothing of a partition staged, writing goes on behind the dome group that holds the start of object x, in a new group above HIGH_N
(R55). -/
def rewind (p x : Nat) (s : State) : State :=
  if s.wr.sets.any fun d => d.part == p then s
  else
    let pt := partAt s p
    let ts := tapeSlots s
    match (holdingGroup s ts pt p x).bind (afterGroup ts) with
    | none => s
    | some place =>
      let s1 := if s.wvn.run = .writing ∧ s.wr.part = p then endRun s else s
      onPart p (fun q => { q with
        wrap := place.1, slot := place.2, nextN := if q.highN = noN then 0 else nextGroup (q.highN % 2 ^ 46),
        full := fullAt q.lastWrap place, onLastWrap := decide (place.1 = q.lastWrap) }) s1

/-- The partition ends at x: what lies above is taken back, and the EOD for x follows what is staged (R322). -/
def takeBack (p x : Nat) (s : State) : State :=
  let s1 := rewind p x (discardFrom p x s)
  truncateAt p x (onPart p (fun q => { q with
    full := false, group := q.group.map fun g => (g.1, min g.2.1 x, g.2.2.1, g.2.2.2) }) s1)

/-- TRUNCATE: RESULT is the number of objects removed; with DURABLE it waits for the EOD of its new end. -/
def truncate (c : Cmd) (s : State) : State :=
  let p := partField c.entry
  let x := lonField c.entry
  let stop := logicalEndOf s p
  if s.drive.vol.isNone then reply c.qid c.tag 0x0411 0 s
  else if !(partAt s p).inUse then reply c.qid c.tag 0x0101 0 s
  else if !writable s then reply c.qid c.tag 0x0415 0 s
  else if stop < x then reply c.qid c.tag 0x0401 0 s
  else
    let s1 := takeBack p x s
    if durableFlag c.entry then
      settle (writeTape (onCmd c.qid c.tag (fun d => { d with
        phase := .durableWait, waits := [(p, s1.wr.nextId, true)], count := stop - x }) s1))
    else reply c.qid c.tag 0 (stop - x) s1

/-- TRUNCATE (R322). -/
def execTruncate (q : Fin 256) (tag : BitVec 16) (s : State) : Host.Outcome State Fault Refusal :=
  goLive (fun s => match startedCmd s q.val tag.toNat opTruncate with | some c => truncate c s | none => s) s

/-! ## REFRESH (R114, R323) -/

/-- What stops a REFRESH at once: no volume, a read-only one, a cartridge memory that refuses, a tape that cannot move. -/
def refreshStop (s : State) : Option Nat :=
  if s.drive.vol.isNone then some 0x0411
  else if !writable s then some 0x0415
  else if memoryRefuses s then some 0x0311
  else if tapeDead s then some 0x0416
  else none

/-- Everything written is on tape, and the tape is free to be read. -/
def tapeSettled (s : State) : Bool := s.wr.sets.isEmpty && s.wvn.run != .writing

/-- Bring staged data to tape and end the run in hand, so that the tape can be read for a REFRESH. -/
def clearTape (s : State) : State :=
  let s1 := endWrites s
  if s1.wr.sets.isEmpty ∧ s1.wvn.run = .writing then endRun s1 else s1

/-- REFRESH with ACTION 0: the volume's fields, the wrap table and the index come from the tape (R114). -/
def refreshAll (s : State) : State :=
  let f := findVolume true s
  let hasEod := f.header.eodN.any (· != noN)
  let s1 := onVol (fun v => { v with
    volumeId := if hasEod then f.header.volumeId else v.volumeId, lastRevision := max v.lastRevision f.header.lastRevision,
    wraps := probedWraps (tapeSlots s) (mapOf v), index := f.index,
    parts := Vector.ofFn fun p =>
      let q := getAt v.parts p.val noPart
      let e := f.header.eodN.getD p.val noN
      { q with eodN := if e = noN then q.eodN else some e } }) s
  onVol (fun v => { v with generation := 1 }) s1

/-- REFRESH with ACTION 1: the locate index alone is read from the tape (R323). -/
def refreshIndex (s : State) : State := onVol (fun v => { v with index := probedIndex (tapeSlots s) }) s

/-- The accesses that write the locate index, and with ACTION 0 both header copies and the wrap table before it (R114, R323). -/
def refreshWrites (s : State) (whole : Bool) : List CmReq :=
  match s.drive.vol with
  | none => []
  | some v =>
    (if whole then headerCopies v ++ cmWrites cmWraps (wrapTableBytes v.wraps) else []) ++
    (List.range 20).flatMap fun w => cmWrites (cmIndex + 24 * 48 * w) (wrapIndexBytes v w (wrapEntry s w).2.1)

/-- One step of a REFRESH: goal 0 until the tape is read, 1 while the memory is written, 2 or 3 once that has ended. -/
def refreshStep (c : Cmd) (whole : Bool) (s : State) : State :=
  if c.goal = 1 then s
  else if c.goal = 2 then reply c.qid c.tag 0 0 s
  else if c.goal = 3 then reply c.qid c.tag 0x0311 0 s
  else match refreshStop s with
  | some st => reply c.qid c.tag st 0 s
  | none =>
    if tapeSettled s then
      let s1 := (if whole then refreshAll else refreshIndex) (dropReads s)
      cmGroup (refreshWrites s1 whole) (.command c.qid c.tag) (onCmd c.qid c.tag (fun d => { d with goal := 1 }) s1)
    else clearTape s

/-- The started REFRESH of a queue and tag, with this ACTION. -/
def startedRefresh (s : State) (q tag action : Nat) : Option Cmd :=
  (startedCmd s q tag opRefresh).filter fun c => specField c.entry 48 1 == action

/-- REFRESH with ACTION 0. -/
def execRefreshFullRebuild (q : Fin 256) (tag : BitVec 16) (s : State) : Host.Outcome State Fault Refusal :=
  goLive (fun s => match startedRefresh s q.val tag.toNat 0 with | some c => refreshStep c true s | none => s) s

/-- REFRESH with ACTION 1. -/
def execRefreshLocateIndex (q : Fin 256) (tag : BitVec 16) (s : State) : Host.Outcome State Fault Refusal :=
  goLive (fun s => match startedRefresh s q.val tag.toNat 1 with | some c => refreshStep c false s | none => s) s

/-! ## PARTITION (R57, R324) -/

/-- The map that a PARTITION asks for. -/
def askedMap (e : Bytes) : List (Bool × Nat × Nat) :=
  (List.range 4).map fun p =>
    let f := specField e (48 + 2 * p) 1
    let l := specField e (49 + 2 * p) 1
    (!(f == 0xFF && l == 0xFF), f, l)

/-- Two consecutive partitions stand as R57 asks: they meet at a band boundary, or share a band with one guard wrap between them. -/
def neighbours (a b : Bool × Nat × Nat) : Bool :=
  decide ((b.2.1 = a.2.2 + 1 ∧ b.2.1 % 5 = 0) ∨ (b.2.1 = a.2.2 + 2 ∧ b.2.1 / 5 = a.2.2 / 5))

/-- A map that R57 and R324 allow: 1 to 4 partitions from 0 without a gap, each of at least one wrap. -/
def mapAllowed (m : List (Bool × Nat × Nat)) : Bool :=
  let used := m.takeWhile (·.1)
  !used.isEmpty && (m.drop used.length).all (fun e => !e.1) && used.all (fun e => decide (e.2.1 ≤ e.2.2 ∧ e.2.2 ≤ 19)) &&
  (used.zip used.tail).all fun x => neighbours x.1 x.2

/-- The partitions whose entry a map changes. -/
def changedParts (s : State) (m : List (Bool × Nat × Nat)) : List Nat :=
  (List.range 4).filter fun p =>
    let q := partAt s p
    let e := m.getD p (false, 0, 0)
    q.inUse != e.1 || (e.1 && (q.firstWrap != e.2.1 || q.lastWrap != e.2.2))

/-- Every partition whose entry changes holds no object. -/
def changedEmpty (s : State) (m : List (Bool × Nat × Nat)) : Bool :=
  (changedParts s m).all fun p => !(partAt s p).inUse || (partAt s p).logicalEnd == 0

/-- A new wrap-table entry under a map: the guard between two partitions, or a blank wrap. -/
def newWrap (m : List (Bool × Nat × Nat)) (w : Nat) : Nat × Nat × Nat × Nat × Nat × Nat := probedWrap [] m w

/-- The map comes into force: each changed partition starts at its first wrap, in a new dome group, and its EOD is staged. -/
def applyMap (m : List (Bool × Nat × Nat)) (s : State) : State :=
  let changed := changedParts s m
  let kept := fun (w : Nat) => match wrapOwner m w with | some p => !changed.contains p | none => false
  let s1 := if s.wvn.run = .writing ∧ changed.contains s.wr.part then endRun s else s
  let s2 := onVol (fun v => { v with
    wraps := v.wraps.mapIdx (fun w e => if kept w then e else newWrap m w), index := v.index.filter (fun i => kept i.1),
    parts := Vector.ofFn fun p =>
      let q := getAt v.parts p.val noPart
      let e := m.getD p.val (false, 0, 0)
      if changed.contains p.val then
        { q with inUse := e.1, firstWrap := e.2.1, lastWrap := e.2.2, nextN := if q.highN = noN then 0 else nextGroup (q.highN % 2 ^ 46),
                 eodN := none, logicalEnd := 0, endLon := 0, full := false, wrap := e.2.1, slot := 0, onLastWrap := false, dirty := false,
                 writers := [] }
      else q }) s1
  forEach (changed.filter fun p => (partAt s2 p).inUse) (fun p => stageEod p 0) s2

/-- What a PARTITION completes with at once, if anything. -/
def partitionStop (s : State) (m : List (Bool × Nat × Nat)) : Option Nat :=
  if s.drive.vol.isNone then some 0x0411
  else if !writable s then some 0x0415
  else if (m.any fun e => e.1 && headDegradedAt s e.2.1) || anyGroupFailed s then some 0x0310
  else if memoryRefuses s then some 0x0311
  else if !mapAllowed m || !changedEmpty s m then some 0x0101
  else if tapeDead s then some 0x0416
  else none

/-- The EODs of a PARTITION are durable: the volume header and the wrap table follow, and it completes behind them. -/
def partitionDone (c : Cmd) (s : State) : State :=
  match s.drive.vol with
  | some v => onCmd c.qid c.tag (fun d => { d with goal := 2 }) (writeHeader v.dirty (writeWraps s))
  | none => reply c.qid c.tag 0x0411 0 s

/-- A refusal for too many dead channels writes the EODs that are due (R104, R110). -/
def eodsDue (s : State) : State := forEach (List.range 4) (fun p t => if (partAt t p).dirty then stageEod p (eodLon t p) t else t) s

/-- One step of a PARTITION: goal 0 at first, 1 while its EODs are not durable, 2 while the cartridge memory is written. -/
def partitionStep (c : Cmd) (s : State) : State :=
  let m := askedMap c.entry
  if c.goal = 2 then (if cmIdle s then reply c.qid c.tag 0 0 s else s)
  else if c.goal = 0 then
    match partitionStop s m with
    | some st => reply c.qid c.tag st 0 (if st = 0x0310 ∧ !anyGroupFailed s then eodsDue s else s)
    | none =>
      let mine := (changedParts s m).filter fun p => (m.getD p (false, 0, 0)).1
      let s1 := applyMap m (discardReadAhead s)
      if mine.isEmpty then partitionDone c s1
      else writeTape (onCmd c.qid c.tag (fun d => { d with goal := 1, waits := mine.map fun p => (p, s1.wr.nextId, true) }) s1)
  else if waitsOver s c then partitionDone c s
  else if memoryFailed s then reply c.qid c.tag 0x0311 0 s
  else if s.wvn.run = .none then writeTape s else s

/-- PARTITION (R324). -/
def execPartition (q : Fin 256) (tag : BitVec 16) (s : State) : Host.Outcome State Fault Refusal :=
  goLive (fun s => match startedCmd s q.val tag.toNat opPartition with | some c => partitionStep c s | none => s) s

end Sys2Proof.Machine
end

