-- ==== Sys2Proof/Machine/Writes.lean ====
section
/-! DEFINITION. WRITE and WRITE_MARK: what they are refused for, the truncation at a lower LON, the reservation of invocations, and the cutting
of records into blocks for the engines (R230, R231, R248, R253, R287, R288, R321, R322). -/

namespace Sys2Proof.Machine

/-- The opcode is WRITE. -/
def isWrite (c : Cmd) : Bool := opcodeOf c.entry == opWrite

/-- The record lengths of a WRITE: LENGTH for a single record, else the list read at DP1 (R321). -/
def recordLengths (c : Cmd) (lengths : List Nat) : List Nat :=
  let n := countField c.entry
  if n = 1 then [lengthField c.entry] else (List.range n).map fun i => lengths.getD i 0

/-- The record-length list agrees with LENGTH, and no record exceeds 64 MiB (R287, R321). -/
def lengthsOk (c : Cmd) (ls : List Nat) : Bool := ls.sum == lengthField c.entry && ls.all fun l => decide (l ≤ 67108864)

/-- The grouping of a write is refused (R287): GROUP_END without ATOMIC_GROUP, a group that would pass 1 GiB, or a write outside the group from
the queue whose group is open. -/
def groupRefused (s : State) (c : Cmd) (bytes : Nat) : Bool :=
  let atomic := isWrite c && atomicFlag c.entry
  let held := match (partAt s (partField c.entry)).group with | some g => g.2.2.1 | none => 0
  (isWrite c && groupEndFlag c.entry && !atomic) || (atomic && decide (2 ^ 30 < held + bytes)) ||
  (!atomic && (match (partAt s (partField c.entry)).group with | some g => g.1 == c.qid | none => false))

/-- What a write completes with at once, if anything, once its lengths stand (R318, R321, R248). -/
def writeStop (s : State) (c : Cmd) (bytes : Nat) : Option Nat :=
  let p := partField c.entry
  if s.drive.vol.isNone then some 0x0411
  else if !(partAt s p).inUse || groupRefused s c bytes then some 0x0101
  else if !writable s then some 0x0415
  else if headDegraded s p || anyGroupFailed s then some 0x0310
  else if memoryRefuses s then some 0x0311
  else if logicalEndOf s p < lonField c.entry then some 0x0401
  else if (partAt s p).full && lonField c.entry == logicalEndOf s p then some 0x0403
  else match writeSel s (slotField c.entry) (groupFloor s p) with
    | .error st => some st
    | .ok _ => none

/-- The data sets of a payload of raw blocks leave no room in the bound generation (R253). -/
def roomLacks (s : State) (sel : CipherSel) (n : Nat) : Bool :=
  match curGen s sel.slot with
  | some g => decide (sel.cipher ≠ 0) && !hasRoom g n
  | none => false

/-- The blocks of a record: 1 MiB each, the last one the rest; a record of no bytes has one empty block (R230). -/
def blocksOf (bs : Bytes) : List Bytes :=
  (List.range (max 1 ((bs.length + 1048575) / 1048576))).map fun i => (bs.drop (1048576 * i)).take 1048576

/-- The lengths of a record's blocks. -/
def blockLengths (n : Nat) : List Nat :=
  (List.range (max 1 ((n + 1048575) / 1048576))).map fun i => min 1048576 (n - 1048576 * i)

/-- The records of a WRITE's data. -/
def splitRecords : List Nat → Bytes → List Bytes
  | [], _ => []
  | n :: ls, bs => bs.take n :: splitRecords ls (bs.drop n)

/-- One block or mark of a command as a stream item; its place in the packing order comes when it is handed over. -/
def itemOf (c : Cmd) (sel : CipherSel) (mark first last groupEnd : Bool) (data : Bytes) : StreamItem :=
  { order := 0, part := partField c.entry, qid := c.qid, tag := c.tag, sel := sel, mark := mark, first := first, last := last,
    group := !mark && atomicFlag c.entry, groupEnd := groupEnd, effort := if mark then 0xFF else specField c.entry 48 1, run := none,
    data := data, length := data.length }

/-- The items of one record. -/
def recordItems (c : Cmd) (sel : CipherSel) (ends : Bool) (bs : Bytes) : List StreamItem :=
  let bl := blocksOf bs
  bl.mapIdx fun i b => itemOf c sel false (i == 0) (i + 1 == bl.length) (ends && i + 1 == bl.length) b

/-- The items of a WRITE: its records in order, the last block of the last one ending the group where the WRITE does (R230, R231). -/
def writeItems (c : Cmd) (sel : CipherSel) (recs : List Bytes) : List StreamItem :=
  (recs.mapIdx fun i r => recordItems c sel (groupEndFlag c.entry && atomicFlag c.entry && i + 1 == recs.length) r).flatten

/-- An item joins those that the host's memory still holds; it takes the next place in the packing order (R14, R231). -/
def handItem (it : StreamItem) (s : State) : State :=
  s.onCz fun c => { c with nextOrder := c.nextOrder + 1, source := c.source ++ [{ it with order := c.nextOrder }] }

/-- The group of a partition takes an atomic WRITE in (R287). -/
def joinGroup (c : Cmd) (bytes : Nat) (s : State) : State :=
  if isWrite c && atomicFlag c.entry then
    onPart (partField c.entry) (fun q => { q with group := some (match q.group with
      | some g => (g.1, g.2.1, g.2.2.1 + bytes, g.2.2.2 + countField c.entry)
      | none => (c.qid, q.logicalEnd, bytes, countField c.entry)) }) s
  else s

/-- Bind a write to its key generation, with its reservation (R241, R253). -/
def bindWrite (c : Cmd) (sel : CipherSel) (n : Nat) (s : State) : State :=
  if sel.cipher = 0 then s
  else onCmd c.qid c.tag (fun d => { d with keys := [(sel.slot, sel.gen)], reserved := n })
    (onGen sel.slot sel.gen (fun g => { g with reserved := g.reserved + n }) (bindGen sel.slot sel.gen s))

/-- A write is taken: a LON below the logical end truncates first, and its objects go on their way to the packer (R231, R287, R322). -/
def takeWrite (c : Cmd) (sel : CipherSel) (reserve bytes : Nat) (items : List StreamItem) (s : State) : State :=
  let p := partField c.entry
  let x := lonField c.entry
  let s1 := if x < logicalEndOf s p then takeBack p x s else discardFrom p x s
  let s2 := onCmd c.qid c.tag (fun d => { d with phase := .packing, goal := countField d.entry, count := 0, lon := x })
    (bindWrite c sel reserve (joinGroup c bytes s1))
  pack (forEach items handItem (needDomains 92 4 s2))

/-- A refusal for too many dead channels writes the EODs that are due (R104, R110). -/
def refuseWrite (c : Cmd) (st : Nat) (s : State) : State :=
  let p := partField c.entry
  let s1 := if st = 0x0310 ∧ headDegraded s p ∧ (partAt s p).dirty then stageEod p (eodLon s p) s else s
  finishCmd c.qid c.tag st 0 none s1

/-- WRITE and WRITE_MARK once their lengths are known: refused, or taken. With a full staging and a tape that cannot move a WRITE ends at
once (R445); else its data waits in the host's memory (R118). -/
def admitWrite (c : Cmd) (bytes reserve : Nat) (items : CipherSel → List StreamItem) (s : State) : State :=
  match writeStop s c bytes with
  | some st => refuseWrite c st s
  | none =>
    match writeSel s (slotField c.entry) (groupFloor s (partField c.entry)) with
    | .error st => refuseWrite c st s
    | .ok sel =>
      if roomLacks s sel reserve then refuseWrite c 0x0303 s
      else if s.wr.stalled && tapeDead s then refuseWrite c 0x0416 s
      else takeWrite c sel reserve bytes (items sel) s

/-- WRITE and WRITE_MARK, but that a durable one on a volume whose cartridge memory has refused DIRTY = 1 has it tried again once first: it
waits while that is in hand, and goes on when it failed too (R111). -/
def admitTried (c : Cmd) (bytes reserve : Nat) (items : CipherSel → List StreamItem) (s : State) : State :=
  if !(memoryRefuses s && durableFlag c.entry) then admitWrite c bytes reserve items s
  else if !memoryFailed s then s
  else if c.count = 0 then retryMemory (onCmd c.qid c.tag (fun d => { d with count := 1 }) s)
  else admitWrite c bytes reserve items s

/-- The queue of a command has a path, through which its data is read (R308). -/
def hasPath (s : State) (q : Nat) : Bool := match qpOf s q with | some x => (queuePath s x).isSome | none => false

/-- WRITE (R321): its record lengths and its data are read from the host. -/
def writeCmd (c : Cmd) (lengths : List Nat) (data : Bytes) (s : State) : State :=
  if !hasPath s c.qid then s
  else
    let ls := recordLengths c lengths
    if !lengthsOk c ls then reply c.qid c.tag 0x0101 0 s
    else
      let raw := (ls.flatMap blockLengths).map rawFrameLength
      admitTried c ls.sum (reserveFor raw) (fun sel => writeItems c sel (splitRecords ls (fit ls.sum data))) s

/-- WRITE. -/
def execWrite (q : Fin 256) (tag : BitVec 16) (lengths : List Nat) (data : Bytes) (s : State) : Host.Outcome State Fault Refusal :=
  goLive (fun s => match startedCmd s q.val tag.toNat opWrite with | some c => writeCmd c lengths data s | none => s) s

/-- WRITE_MARK: COUNT marks; it reserves one invocation (R253, R321). -/
def writeMark (c : Cmd) (s : State) : State :=
  admitTried c 0 1 (fun sel => List.replicate (countField c.entry) (itemOf c sel true true true false [])) s

/-- WRITE_MARK. -/
def execWriteMark (q : Fin 256) (tag : BitVec 16) (s : State) : Host.Outcome State Fault Refusal :=
  goLive (fun s => match startedCmd s q.val tag.toNat opWriteMark with | some c => writeMark c s | none => s) s

end Sys2Proof.Machine
end

