-- ==== Sys2Proof/Machine/Dispatch.lean ====
section
/-! DEFINITION. One arm per command: each is one call of that command's meaning. -/

namespace Sys2Proof.Machine

/-- The effect of a command on everything but the queue of waiting commands. -/
def exec (i : Instr) (s : State) : Host.Outcome State Fault Refusal :=
  match i with
  | .powerOnReset => Sys2Proof.Machine.execPowerOnReset s
  | .pwrGoodFall ns => Sys2Proof.Machine.execPwrGoodFall ns s
  | .sysResetNLow ns => Sys2Proof.Machine.execSysResetNLow ns s
  | .startUp o => Sys2Proof.Machine.execStartUp o s
  | .startConfirm fuseWriteOk => Sys2Proof.Machine.execStartConfirm fuseWriteOk s
  | .watchdogExpiry => Sys2Proof.Machine.execWatchdogExpiry s
  | .portReset p ns => Sys2Proof.Machine.execPortReset p ns s
  | .flr p => Sys2Proof.Machine.execFlr p s
  | .testEnHigh => Sys2Proof.Machine.execTestEnHigh s
  | .strapChange now => Sys2Proof.Machine.execStrapChange now s
  | .alarm cause => Sys2Proof.Machine.execAlarm cause s
  | .sealLfsrTick sealB readback => Sys2Proof.Machine.execSealLfsrTick sealB readback s
  | .presencePress => Sys2Proof.Machine.execPresencePress s
  | .presenceWindowExpiry => Sys2Proof.Machine.execPresenceWindowExpiry s
  | .wakeLatch n ns => Sys2Proof.Machine.execWakeLatch n ns s
  | .cartRemoved => Sys2Proof.Machine.execCartRemoved s
  | .cartInserted c => Sys2Proof.Machine.execCartInserted c s
  | .shockNAssert ns => Sys2Proof.Machine.execShockNAssert ns s
  | .shockNClear => Sys2Proof.Machine.execShockNClear s
  | .shockHoldExpiry => Sys2Proof.Machine.execShockHoldExpiry s
  | .motFaultNAssert => Sys2Proof.Machine.execMotFaultNAssert s
  | .thermalSample milliC => Sys2Proof.Machine.execThermalSample milliC s
  | .thermalCapStep => Sys2Proof.Machine.execThermalCapStep s
  | .timeBaseSwitch aPresent bPresent => Sys2Proof.Machine.execTimeBaseSwitch aPresent bPresent s
  | .lifetimeCheckpoint => Sys2Proof.Machine.execLifetimeCheckpoint s
  | .adminEnable p => Sys2Proof.Machine.execAdminEnable p s
  | .funcReset p => Sys2Proof.Machine.execFuncReset p s
  | .sqTailDoorbell p q tail => Sys2Proof.Machine.execSqTailDoorbell p q tail s
  | .cqHeadDoorbell p q head => Sys2Proof.Machine.execCqHeadDoorbell p q head s
  | .sqFetch entries => Sys2Proof.Machine.execSqFetch entries s
  | .commandStart sgl => Sys2Proof.Machine.execCommandStart sgl s
  | .holdoffExpiry g => Sys2Proof.Machine.execHoldoffExpiry g s
  | .staleExpiry g => Sys2Proof.Machine.execStaleExpiry g s
  | .msixMaskWrite p vector masked => Sys2Proof.Machine.execMsixMaskWrite p vector masked s
  | .portLoss p => Sys2Proof.Machine.execPortLoss p s
  | .pathRestored l => Sys2Proof.Machine.execPathRestored l s
  | .functionD3hot p bmeCleared => Sys2Proof.Machine.execFunctionD3hot p bmeCleared s
  | .functionD0Return p => Sys2Proof.Machine.execFunctionD0Return p s
  | .identify tag => Sys2Proof.Machine.execIdentify tag s
  | .negotiate tag => Sys2Proof.Machine.execNegotiate tag s
  | .createQp tag => Sys2Proof.Machine.execCreateQp tag s
  | .deleteQp tag => Sys2Proof.Machine.execDeleteQp tag s
  | .formatFloor tag => Sys2Proof.Machine.execFormatFloor tag s
  | .wake tag => Sys2Proof.Machine.execWake tag s
  | .queuePort tag => Sys2Proof.Machine.execQueuePort tag s
  | .moderation tag => Sys2Proof.Machine.execModeration tag s
  | .cmArea tag data => Sys2Proof.Machine.execCmArea tag data s
  | .deadClear tag => Sys2Proof.Machine.execDeadClear tag s
  | .getFeature tag => Sys2Proof.Machine.execGetFeature tag s
  | .getLog tag => Sys2Proof.Machine.execGetLog tag s
  | .powerState tag => Sys2Proof.Machine.execPowerState tag s
  | .fwStage tag data flashOk => Sys2Proof.Machine.execFwStage tag data flashOk s
  | .fwActivate tag => Sys2Proof.Machine.execFwActivate tag s
  | .activationIdleTimeout => Sys2Proof.Machine.execActivationIdleTimeout s
  | .activationStillTimeout => Sys2Proof.Machine.execActivationStillTimeout s
  | .activationSwitch => Sys2Proof.Machine.execActivationSwitch s
  | .barrierCoreTimeout core => Sys2Proof.Machine.execBarrierCoreTimeout core s
  | .keyLoad tag block => Sys2Proof.Machine.execKeyLoad tag block s
  | .keyErase tag => Sys2Proof.Machine.execKeyErase tag s
  | .keyWithdrawDone slot => Sys2Proof.Machine.execKeyWithdrawDone slot s
  | .keyQuery tag => Sys2Proof.Machine.execKeyQuery tag s
  | .attest tag nonce => Sys2Proof.Machine.execAttest tag nonce s
  | .debugUnlock tag => Sys2Proof.Machine.execDebugUnlock tag s
  | .lanternClear tag => Sys2Proof.Machine.execLanternClear tag s
  | .registerIntegratorKeys tag block => Sys2Proof.Machine.execRegisterIntegratorKeys tag block s
  | .zeroizeAllKeys tag => Sys2Proof.Machine.execZeroizeAllKeys tag s
  | .armDowngradePermit tag => Sys2Proof.Machine.execArmDowngradePermit tag s
  | .downgradePermitExpiry => Sys2Proof.Machine.execDowngradePermitExpiry s
  | .resetFailedStartCounter tag => Sys2Proof.Machine.execResetFailedStartCounter tag s
  | .clearFails => Sys2Proof.Machine.execClearFails s
  | .health => Sys2Proof.Machine.execHealth s
  | .lanternRead rseq => Sys2Proof.Machine.execLanternRead rseq s
  | .queueReset tag => Sys2Proof.Machine.execQueueReset tag s
  | .tableLoad tag data flashOk => Sys2Proof.Machine.execTableLoad tag data flashOk s
  | .mount q tag => Sys2Proof.Machine.execMount q tag s
  | .unmount q tag => Sys2Proof.Machine.execUnmount q tag s
  | .locate q tag => Sys2Proof.Machine.execLocate q tag s
  | .readPosition q tag => Sys2Proof.Machine.execReadPosition q tag s
  | .sync q tag => Sys2Proof.Machine.execSync q tag s
  | .fence q tag => Sys2Proof.Machine.execFence q tag s
  | .truncate q tag => Sys2Proof.Machine.execTruncate q tag s
  | .refreshFullRebuild q tag => Sys2Proof.Machine.execRefreshFullRebuild q tag s
  | .refreshLocateIndex q tag => Sys2Proof.Machine.execRefreshLocateIndex q tag s
  | .partition q tag => Sys2Proof.Machine.execPartition q tag s
  | .crypt q tag input param => Sys2Proof.Machine.execCrypt q tag input param s
  | .cryptHandleTimeout h => Sys2Proof.Machine.execCryptHandleTimeout h s
  | .write q tag lengths data => Sys2Proof.Machine.execWrite q tag lengths data s
  | .writeMark q tag => Sys2Proof.Machine.execWriteMark q tag s
  | .read q tag => Sys2Proof.Machine.execRead q tag s
  | .verify q tag => Sys2Proof.Machine.execVerify q tag s
  | .space q tag => Sys2Proof.Machine.execSpace q tag s
  | .compressionBlockDone e => Sys2Proof.Machine.execCompressionBlockDone e s
  | .compressionEngineFault e => Sys2Proof.Machine.execCompressionEngineFault e s
  | .stagingStallRelease => Sys2Proof.Machine.execStagingStallRelease s
  | .cupolaInvocation => Sys2Proof.Machine.execCupolaInvocation s
  | .cupolaCoreError core => Sys2Proof.Machine.execCupolaCoreError core s
  | .keepCopyMismatch failed => Sys2Proof.Machine.execKeepCopyMismatch failed s
  | .domeParityCompute group dome => Sys2Proof.Machine.execDomeParityCompute group dome s
  | .slotCommit => Sys2Proof.Machine.execSlotCommit s
  | .verifyResult slot => Sys2Proof.Machine.execVerifyResult slot s
  | .writeInhibit src => Sys2Proof.Machine.execWriteInhibit src s
  | .writeResume => Sys2Proof.Machine.execWriteResume s
  | .wrapEnd => Sys2Proof.Machine.execWrapEnd s
  | .turnEntry => Sys2Proof.Machine.execTurnEntry s
  | .stackLoss stack => Sys2Proof.Machine.execStackLoss stack s
  | .cmResponse bytes => Sys2Proof.Machine.execCmResponse bytes s
  | .cmFieldOffTimeout => Sys2Proof.Machine.execCmFieldOffTimeout s
  | .cmPollRetry => Sys2Proof.Machine.execCmPollRetry s
  | .wvnUpdate => Sys2Proof.Machine.execWvnUpdate s
  | .speedReached => Sys2Proof.Machine.execSpeedReached s
  | .avsReadback mv => Sys2Proof.Machine.execAvsReadback mv s
  | .avsAckTimeout => Sys2Proof.Machine.execAvsAckTimeout s
  | .avsRetryPeriod => Sys2Proof.Machine.execAvsRetryPeriod s
  | .marginSample permille => Sys2Proof.Machine.execMarginSample permille s
  | .bhDwellExpiry => Sys2Proof.Machine.execBhDwellExpiry s
  | .backhitchStopped => Sys2Proof.Machine.execBackhitchStopped s
  | .bhMaxWaitExpiry => Sys2Proof.Machine.execBhMaxWaitExpiry s
  | .stoppedIdleTimeout => Sys2Proof.Machine.execStoppedIdleTimeout s
  | .restartResume => Sys2Proof.Machine.execRestartResume s
  | .readAhead => Sys2Proof.Machine.execReadAhead s
  | .samplePacket g lane type fields crc payload => Sys2Proof.Machine.execSamplePacket g lane type fields crc payload s
  | .syncWindow c => Sys2Proof.Machine.execSyncWindow c s
  | .frameEnd c => Sys2Proof.Machine.execFrameEnd c s
  | .blockAReplay c => Sys2Proof.Machine.execBlockAReplay c s
  | .siblingPrediction c => Sys2Proof.Machine.execSiblingPrediction c s
  | .realignment c => Sys2Proof.Machine.execRealignment c s
  | .deskewComplete slot => Sys2Proof.Machine.execDeskewComplete slot s
  | .domeRecovery group dome => Sys2Proof.Machine.execDomeRecovery group dome s
  | .retryAttemptDone => Sys2Proof.Machine.execRetryAttemptDone s
  | .decryptInvocation => Sys2Proof.Machine.execDecryptInvocation s
  | .decompressionBlockDone e => Sys2Proof.Machine.execDecompressionBlockDone e s
  | .hostPacketCommit => Sys2Proof.Machine.execHostPacketCommit s
  | .servoPacket frame => Sys2Proof.Machine.execServoPacket frame s
  | .feedbackLost => Sys2Proof.Machine.execFeedbackLost s
  | .fbHoldTimeout => Sys2Proof.Machine.execFbHoldTimeout s
  | .controlledStopDone => Sys2Proof.Machine.execControlledStopDone s
  | .oneBandTimeout => Sys2Proof.Machine.execOneBandTimeout s
  | .encoderIndexPulse reel => Sys2Proof.Machine.execEncoderIndexPulse reel s
  | .reelLoopTick => Sys2Proof.Machine.execReelLoopTick s
  | .accSample x y z => Sys2Proof.Machine.execAccSample x y z s
  | .sensorReading ack bytes => Sys2Proof.Machine.execSensorReading ack bytes s
  | .motionLinkResponse stage frame => Sys2Proof.Machine.execMotionLinkResponse stage frame s
  | .motionLinkKeepalive => Sys2Proof.Machine.execMotionLinkKeepalive s
  | .steepleHeartbeat => Sys2Proof.Machine.execSteepleHeartbeat s
  | .steepleHeartbeatTimeout => Sys2Proof.Machine.execSteepleHeartbeatTimeout s
  | .st1Takeover cause => Sys2Proof.Machine.execSt1Takeover cause s
  | .programStart prog p0 p1 p2 p3 => Sys2Proof.Machine.execProgramStart prog p0 p1 p2 p3 s
  | .progEnd => Sys2Proof.Machine.execProgEnd s
  | .progSpeed => Sys2Proof.Machine.execProgSpeed s
  | .progWaitSpeed => Sys2Proof.Machine.execProgWaitSpeed s
  | .progGotoLpos => Sys2Proof.Machine.execProgGotoLpos s
  | .progWaitLpos => Sys2Proof.Machine.execProgWaitLpos s
  | .progLateral => Sys2Proof.Machine.execProgLateral s
  | .progWaitLat => Sys2Proof.Machine.execProgWaitLat s
  | .progTilt => Sys2Proof.Machine.execProgTilt s
  | .progLaw => Sys2Proof.Machine.execProgLaw s
  | .progTension => Sys2Proof.Machine.execProgTension s
  | .progDelay => Sys2Proof.Machine.execProgDelay s
  | .progBranch => Sys2Proof.Machine.execProgBranch s
  | .progEnable => Sys2Proof.Machine.execProgEnable s
  | .progEvent => Sys2Proof.Machine.execProgEvent s
  | .progChain => Sys2Proof.Machine.execProgChain s
  | .progStop => Sys2Proof.Machine.execProgStop s
  | .waitTimeout => Sys2Proof.Machine.execWaitTimeout s
  | .faultClear => Sys2Proof.Machine.execFaultClear s
  | .groupTrainStart g => Sys2Proof.Machine.execGroupTrainStart g s
  | .cdrTimeout g => Sys2Proof.Machine.execCdrTimeout g s
  | .blockLockGained g headers => Sys2Proof.Machine.execBlockLockGained g headers s
  | .blockTimeout g => Sys2Proof.Machine.execBlockTimeout g s
  | .trainPacket g lane header payload => Sys2Proof.Machine.execTrainPacket g lane header payload s
  | .identTimeout g => Sys2Proof.Machine.execIdentTimeout g s
  | .downRetryTimeout g => Sys2Proof.Machine.execDownRetryTimeout g s
  | .statusPacket l header payload => Sys2Proof.Machine.execStatusPacket l header payload s
  | .inboundLaneLost g lane => Sys2Proof.Machine.execInboundLaneLost g lane s
  | .outboundLaneLost g lane => Sys2Proof.Machine.execOutboundLaneLost g lane s
  | .samplePacketLost g ch => Sys2Proof.Machine.execSamplePacketLost g ch s
  | .tokenPeriod => Sys2Proof.Machine.execTokenPeriod s
  | .retrain mask => Sys2Proof.Machine.execRetrain mask s
  | .groupEn mask => Sys2Proof.Machine.execGroupEn mask s
  | .sourceRequest n => Sys2Proof.Machine.execSourceRequest n s
  | .claim core => Sys2Proof.Machine.execClaim core s
  | .eoi core source parityError => Sys2Proof.Machine.execEoi core source parityError s
  | .belfryMaskWrite source priority route en => Sys2Proof.Machine.execBelfryMaskWrite source priority route en s
  | .coreTimerExpiry core timer => Sys2Proof.Machine.execCoreTimerExpiry core timer s
  | .interCoreSignal core line => Sys2Proof.Machine.execInterCoreSignal core line s
  | .belfryCopyMismatch failed => Sys2Proof.Machine.execBelfryCopyMismatch failed s
  | .coreHeartbeatMissed core => Sys2Proof.Machine.execCoreHeartbeatMissed core s
  | .hqItemWrite q writer item => Sys2Proof.Machine.execHqItemWrite q writer item s
  | .hqItemRead q blocking => Sys2Proof.Machine.execHqItemRead q blocking s
  | .hqStaleTail q writer => Sys2Proof.Machine.execHqStaleTail q writer s
  | .hqFlush q => Sys2Proof.Machine.execHqFlush q s
  | .hqDrain q => Sys2Proof.Machine.execHqDrain q s
  | .hqDrainDone q => Sys2Proof.Machine.execHqDrainDone q s
  | .instanceFault row inst => Sys2Proof.Machine.execInstanceFault row inst s
  | .domainIdleGate d => Sys2Proof.Machine.execDomainIdleGate d s
  | .ps4Commit => Sys2Proof.Machine.execPs4Commit s
  | .powerStateExit cause => Sys2Proof.Machine.execPowerStateExit cause s
  | .lanTrigArm value => Sys2Proof.Machine.execLanTrigArm value s
  | .ctBroadcastWrite offset value => Sys2Proof.Machine.execCtBroadcastWrite offset value s
  | .rcRead p offset => Sys2Proof.Machine.execRcRead p offset s
  | .loWordRead p offset => Sys2Proof.Machine.execLoWordRead p offset s
  | .badAccess p offset size isWrite => Sys2Proof.Machine.execBadAccess p offset size isWrite s
  | .registerWrite p offset value => Sys2Proof.Machine.execRegisterWrite p offset value s
  | .encoderEdge reel a b => Sys2Proof.Machine.execEncoderEdge reel a b s
  | .discardedPacket g lane => Sys2Proof.Machine.execDiscardedPacket g lane s
  | .holdoverReturn src => Sys2Proof.Machine.execHoldoverReturn src s
  | .eccEncode => Sys2Proof.Machine.execEccEncode s

end Sys2Proof.Machine
end

