-- ==== Sys2Proof/Safety.lean ====
section
/-! DEFINITION. What the statements of this row speak of: the fields of the state by name, the relation 'nothing but these fields
changed', and the invariants that a run keeps. A safe run of the block is one that keeps them: its byte stores stay canonical, its
fused identity stands, and each command changes only what its rule lets it change. -/

namespace Sys2Proof.Machine

/-- The fields of the state, part by part. Of a port, of the sources and of the cores, what any device event or request may change
counts apart: pba, requests and coreOffers. -/
inductive Field where
  | pinsPresenceN | pinsCartPresentN | pinsShockN | pinsMotFaultN | pinsPwrGood | pinsSysResetN | pinsTestEn | pinsGpio |
    pinsStraps | pinsAlarmAsserted | pinsMotEn
  | bootPhase | bootPreferred | bootFails | bootSlotA | bootSlotB | bootCause | bootBootCount | bootConfirmed | bootStraps |
    bootSlot | bootVersion | bootReady | bootWatchdog | bootEpoch | bootMinVersion | bootSerial | bootRootHashes |
    bootRootsRevoked | bootDeviceSecret | bootEndorsement | bootFlash | bootStaged | bootStagedOk | bootStagedPermit |
    bootActivation | bootFromPs4 | bootKeepFault
  | trustPress | trustSealOk | trustSealBroken | trustLfsr | trustMismatches | trustDebug | trustPermit | trustCause |
    trustLifetime | trustTableKey | trustSigners | trustTables | trustSteepleNext | trustHeadNext | trustSubsystem
  | powerTime | powerFrac | powerRefA | powerRefB | powerSrc | powerLifeBase | powerLifeAt | powerLifeMram | powerPstate |
    powerEntering | powerPs4Due | powerDomOn | powerDomFault | powerRails | powerVop | powerVout | powerAvsTarget |
    powerAvsTries | powerAvsHold | powerAvsFailed | powerCntAvsFail | powerCntHoldover | powerJunction | powerHotMs |
    powerCoolMs
  | lanternPinnedRecs | lanternRing | lanternRseq | lanternCfg | lanternTrigCode | lanternTrigPost | lanternArmed |
    lanternFired | lanternPostLeft | lanternPinFull | lanternSecond | lanternRate | lanternSuppressed | lanternOutOfService |
    lanternCntSuppr | lanternCntTorn | lanternEvents | lanternKeptOutcomes | lanternReport
  | hostPortA | hostPortB | hostPba | hostEnable | hostCfgErr | hostResetBusy | hostAqSize | hostAqSqbLo | hostAqSqbHi |
    hostAqCqbLo | hostAqCqbHi | hostQps | hostNextOrder | hostLastFetched | hostCmds | hostResetting | hostHoldForSwitch |
    hostResetAfterSwitch | hostGroups | hostFloor | hostCntFailover | hostCntDbErr | hostCntRepost | hostCntBadAcc
  | keepSlots | keepTransport | keepLoadSeq | keepCopyOk | keepErased | keepCtxKek | keepSpillSerial | keepSpillLatest |
    keepCntLoadFail
  | cupolaCfg | cupolaInService | cupolaNonce | cupolaCtxs | cupolaSpilled | cupolaCntInv | cupolaCntTagFail |
    cupolaCntWithdraw | cupolaCntCorErr | cupolaCntReplay
  | czCfg | czInService | czEngines | czFinished | czSource | czNextOrder | czDecomp | czBytesIn | czBytesOut | czCntRaw |
    czCntErr
  | driveCart | driveVol | driveLink
  | wrSets | wrNextId | wrStackOk | wrStalled | wrStallAt | wrDomesReady | wrDomesReleased | wrClosed | wrAbsent | wrWrap |
    wrSlot | wrResumeAt | wrPart | wrCommits | wrAnchor | wrRewrites | wrSkipLeft | wrHistory | wrTokens | wrInhibited |
    wrSources | wrPesGood | wrHoldUntil | wrNoResume | wrRequeued | wrWrapEnding | wrNoFirst
  | wvnNew | wvnCtrl | wvnFixed | wvnSetpt | wvnGain | wvnRate | wvnBh | wvnBh2 | wvnVtable | wvnState | wvnRun | wvnR |
    wvnStartDue | wvnRPending | wvnVPending | wvnRCmd | wvnH | wvnRho | wvnInteg | wvnFrozen | wvnSlewRest | wvnStallTicks |
    wvnMoved | wvnDwellMs | wvnStoppedAt | wvnRefused | wvnCapV | wvnCapM | wvnCapT | wvnBand | wvnMarginOfs | wvnMarginMs |
    wvnTurns | wvnUpdates | wvnCntBh | wvnCntTurn | wvnCntStall
  | eccLdpcCfg | eccRsCfg | eccEscCfg | eccVfyCfg | eccVfyCfg2 | eccWinhCfg | eccDead0 | eccDeadHead | eccDead1 | eccRun0 |
    eccRun1 | eccInService | eccCntL3 | eccCntDome | eccCntUnrec | eccCntRewrite | eccCntInhibit | eccCntSkip
  | tilesChans | tilesSyncCfg | tilesTapIdx | tilesWtrim | tilesWdly | tilesRetry | tilesRetryCtl | tilesWfifo | tilesWfifoAt |
    tilesInService | tilesModule | tilesSavedTaps | tilesTapsHead | tilesMountTaps | tilesModulesUsed | tilesNNom |
    tilesDeskewed | tilesArrivals | tilesAsm | tilesVerifies
  | rdSets | rdFailed | rdHoles | rdPackets | rdBadBlocks | rdPart | rdWrap | rdSlot | rdCovers | rdActive | rdEnded |
    rdExpected | rdSure | rdAccepted | rdRetry | rdMenu | rdResume | rdNextStack | rdCopySlot
  | stpMode | stpSt1 | stpStandbyOk | stpBand | stpWinTu | stpWinSup | stpReaders | stpTapeIds | stpReels | stpSpeedOk |
    stpSpeedFrames | stpOneBand | stpBySrv | stpRcOn | stpWinh | stpCoefIdx | stpV | stpAccel | stpWvnSpeed | stpVSet | stpVRef |
    stpVAcc | stpLpos | stpFrame | stpPosRest | stpLposValid | stpErrL | stpErrU | stpTheta | stpThetaHist | stpThetaCal |
    stpThetaHead | stpTheta0 | stpTiltFixed | stpTiltOut | stpLaws | stpEstErr | stpEstRate | stpBandGap | stpEventCode |
    stpAccIdWait | stpLatLaw | stpReelLaw | stpLatWrap | stpLatRead | stpLatOfs | stpRetryOfs | stpVcm | stpStepper | stpVcmSum |
    stpVcmN | stpVcmTicks | stpSeekRest | stpFEst | stpFSet | stpFGoal | stpRc | stpRcBin | stpStages | stpProgram |
    stpStopping | stpHeldMode | stpHoldFrom | stpHoldGood | stpBrakeUntil | stpBeatAt | stpBeatLost | stpAcc | stpAccBad |
    stpAccFailed | stpTemp | stpHum | stpSensorBad | stpSensorAbsent | stpResyncAt | stpOffByFault | stpCntHold | stpCntStop |
    stpCntHandover | stpCntDrop | stpCntLinkErr | stpCntTakeover
  | hlkGroups | hlkGroupEn | hlkGroupEnNext | hlkRetrainNext | hlkCfg | hlkAdc | hlkWclk
  | blfSources | blfRequests | blfCores | blfCoreOffers | blfCoreOk | blfCopyOk | blfVecBase | blfSrcIdx | blfLatched |
    blfWakeEn | blfCntSpurious | blfCntStackFault | blfCntParity | blfCntMsix | blfCntFlush
  | hqQueues | hqCntParity | hqCntStale | hqCntFlush
  | out | fresh
  deriving DecidableEq, Repr

/-- A field has the same value in both states. -/
def Field.same (f : Field) (s t : State) : Prop :=
  match f with
  | .pinsPresenceN => t.pins.presenceN = s.pins.presenceN
  | .pinsCartPresentN => t.pins.cartPresentN = s.pins.cartPresentN
  | .pinsShockN => t.pins.shockN = s.pins.shockN
  | .pinsMotFaultN => t.pins.motFaultN = s.pins.motFaultN
  | .pinsPwrGood => t.pins.pwrGood = s.pins.pwrGood
  | .pinsSysResetN => t.pins.sysResetN = s.pins.sysResetN
  | .pinsTestEn => t.pins.testEn = s.pins.testEn
  | .pinsGpio => t.pins.gpio = s.pins.gpio
  | .pinsStraps => t.pins.straps = s.pins.straps
  | .pinsAlarmAsserted => t.pins.alarmAsserted = s.pins.alarmAsserted
  | .pinsMotEn => t.pins.motEn = s.pins.motEn
  | .bootPhase => t.boot.phase = s.boot.phase
  | .bootPreferred => t.boot.preferred = s.boot.preferred
  | .bootFails => t.boot.fails = s.boot.fails
  | .bootSlotA => t.boot.slotA = s.boot.slotA
  | .bootSlotB => t.boot.slotB = s.boot.slotB
  | .bootCause => t.boot.cause = s.boot.cause
  | .bootBootCount => t.boot.bootCount = s.boot.bootCount
  | .bootConfirmed => t.boot.confirmed = s.boot.confirmed
  | .bootStraps => t.boot.straps = s.boot.straps
  | .bootSlot => t.boot.slot = s.boot.slot
  | .bootVersion => t.boot.version = s.boot.version
  | .bootReady => t.boot.ready = s.boot.ready
  | .bootWatchdog => t.boot.watchdog = s.boot.watchdog
  | .bootEpoch => t.boot.epoch = s.boot.epoch
  | .bootMinVersion => t.boot.minVersion = s.boot.minVersion
  | .bootSerial => t.boot.serial = s.boot.serial
  | .bootRootHashes => t.boot.rootHashes = s.boot.rootHashes
  | .bootRootsRevoked => t.boot.rootsRevoked = s.boot.rootsRevoked
  | .bootDeviceSecret => t.boot.deviceSecret = s.boot.deviceSecret
  | .bootEndorsement => t.boot.endorsement = s.boot.endorsement
  | .bootFlash => t.boot.flash = s.boot.flash
  | .bootStaged => t.boot.staged = s.boot.staged
  | .bootStagedOk => t.boot.stagedOk = s.boot.stagedOk
  | .bootStagedPermit => t.boot.stagedPermit = s.boot.stagedPermit
  | .bootActivation => t.boot.activation = s.boot.activation
  | .bootFromPs4 => t.boot.fromPs4 = s.boot.fromPs4
  | .bootKeepFault => t.boot.keepFault = s.boot.keepFault
  | .trustPress => t.trust.press = s.trust.press
  | .trustSealOk => t.trust.sealOk = s.trust.sealOk
  | .trustSealBroken => t.trust.sealBroken = s.trust.sealBroken
  | .trustLfsr => t.trust.lfsr = s.trust.lfsr
  | .trustMismatches => t.trust.mismatches = s.trust.mismatches
  | .trustDebug => t.trust.debug = s.trust.debug
  | .trustPermit => t.trust.permit = s.trust.permit
  | .trustCause => t.trust.cause = s.trust.cause
  | .trustLifetime => t.trust.lifetime = s.trust.lifetime
  | .trustTableKey => t.trust.tableKey = s.trust.tableKey
  | .trustSigners => t.trust.signers = s.trust.signers
  | .trustTables => t.trust.tables = s.trust.tables
  | .trustSteepleNext => t.trust.steepleNext = s.trust.steepleNext
  | .trustHeadNext => t.trust.headNext = s.trust.headNext
  | .trustSubsystem => t.trust.subsystem = s.trust.subsystem
  | .powerTime => t.power.time = s.power.time
  | .powerFrac => t.power.frac = s.power.frac
  | .powerRefA => t.power.refA = s.power.refA
  | .powerRefB => t.power.refB = s.power.refB
  | .powerSrc => t.power.src = s.power.src
  | .powerLifeBase => t.power.lifeBase = s.power.lifeBase
  | .powerLifeAt => t.power.lifeAt = s.power.lifeAt
  | .powerLifeMram => t.power.lifeMram = s.power.lifeMram
  | .powerPstate => t.power.pstate = s.power.pstate
  | .powerEntering => t.power.entering = s.power.entering
  | .powerPs4Due => t.power.ps4Due = s.power.ps4Due
  | .powerDomOn => t.power.domOn = s.power.domOn
  | .powerDomFault => t.power.domFault = s.power.domFault
  | .powerRails => t.power.rails = s.power.rails
  | .powerVop => t.power.vop = s.power.vop
  | .powerVout => t.power.vout = s.power.vout
  | .powerAvsTarget => t.power.avsTarget = s.power.avsTarget
  | .powerAvsTries => t.power.avsTries = s.power.avsTries
  | .powerAvsHold => t.power.avsHold = s.power.avsHold
  | .powerAvsFailed => t.power.avsFailed = s.power.avsFailed
  | .powerCntAvsFail => t.power.cntAvsFail = s.power.cntAvsFail
  | .powerCntHoldover => t.power.cntHoldover = s.power.cntHoldover
  | .powerJunction => t.power.junction = s.power.junction
  | .powerHotMs => t.power.hotMs = s.power.hotMs
  | .powerCoolMs => t.power.coolMs = s.power.coolMs
  | .lanternPinnedRecs => t.lantern.pinnedRecs = s.lantern.pinnedRecs
  | .lanternRing => t.lantern.ring = s.lantern.ring
  | .lanternRseq => t.lantern.rseq = s.lantern.rseq
  | .lanternCfg => t.lantern.cfg = s.lantern.cfg
  | .lanternTrigCode => t.lantern.trigCode = s.lantern.trigCode
  | .lanternTrigPost => t.lantern.trigPost = s.lantern.trigPost
  | .lanternArmed => t.lantern.armed = s.lantern.armed
  | .lanternFired => t.lantern.fired = s.lantern.fired
  | .lanternPostLeft => t.lantern.postLeft = s.lantern.postLeft
  | .lanternPinFull => t.lantern.pinFull = s.lantern.pinFull
  | .lanternSecond => t.lantern.second = s.lantern.second
  | .lanternRate => t.lantern.rate = s.lantern.rate
  | .lanternSuppressed => t.lantern.suppressed = s.lantern.suppressed
  | .lanternOutOfService => t.lantern.outOfService = s.lantern.outOfService
  | .lanternCntSuppr => t.lantern.cntSuppr = s.lantern.cntSuppr
  | .lanternCntTorn => t.lantern.cntTorn = s.lantern.cntTorn
  | .lanternEvents => t.lantern.events = s.lantern.events
  | .lanternKeptOutcomes => t.lantern.keptOutcomes = s.lantern.keptOutcomes
  | .lanternReport => t.lantern.report = s.lantern.report
  | .hostPortA => { t.host.portA with pba := 0 } = { s.host.portA with pba := 0 }
  | .hostPortB => { t.host.portB with pba := 0 } = { s.host.portB with pba := 0 }
  | .hostPba => (t.host.portA.pba, t.host.portB.pba) = (s.host.portA.pba, s.host.portB.pba)
  | .hostEnable => t.host.enable = s.host.enable
  | .hostCfgErr => t.host.cfgErr = s.host.cfgErr
  | .hostResetBusy => t.host.resetBusy = s.host.resetBusy
  | .hostAqSize => t.host.aqSize = s.host.aqSize
  | .hostAqSqbLo => t.host.aqSqbLo = s.host.aqSqbLo
  | .hostAqSqbHi => t.host.aqSqbHi = s.host.aqSqbHi
  | .hostAqCqbLo => t.host.aqCqbLo = s.host.aqCqbLo
  | .hostAqCqbHi => t.host.aqCqbHi = s.host.aqCqbHi
  | .hostQps => t.host.qps = s.host.qps
  | .hostNextOrder => t.host.nextOrder = s.host.nextOrder
  | .hostLastFetched => t.host.lastFetched = s.host.lastFetched
  | .hostCmds => t.host.cmds = s.host.cmds
  | .hostResetting => t.host.resetting = s.host.resetting
  | .hostHoldForSwitch => t.host.holdForSwitch = s.host.holdForSwitch
  | .hostResetAfterSwitch => t.host.resetAfterSwitch = s.host.resetAfterSwitch
  | .hostGroups => t.host.groups = s.host.groups
  | .hostFloor => t.host.floor = s.host.floor
  | .hostCntFailover => t.host.cntFailover = s.host.cntFailover
  | .hostCntDbErr => t.host.cntDbErr = s.host.cntDbErr
  | .hostCntRepost => t.host.cntRepost = s.host.cntRepost
  | .hostCntBadAcc => t.host.cntBadAcc = s.host.cntBadAcc
  | .keepSlots => t.keep.slots = s.keep.slots
  | .keepTransport => t.keep.transport = s.keep.transport
  | .keepLoadSeq => t.keep.loadSeq = s.keep.loadSeq
  | .keepCopyOk => t.keep.copyOk = s.keep.copyOk
  | .keepErased => t.keep.erased = s.keep.erased
  | .keepCtxKek => t.keep.ctxKek = s.keep.ctxKek
  | .keepSpillSerial => t.keep.spillSerial = s.keep.spillSerial
  | .keepSpillLatest => t.keep.spillLatest = s.keep.spillLatest
  | .keepCntLoadFail => t.keep.cntLoadFail = s.keep.cntLoadFail
  | .cupolaCfg => t.cupola.cfg = s.cupola.cfg
  | .cupolaInService => t.cupola.inService = s.cupola.inService
  | .cupolaNonce => t.cupola.nonce = s.cupola.nonce
  | .cupolaCtxs => t.cupola.ctxs = s.cupola.ctxs
  | .cupolaSpilled => t.cupola.spilled = s.cupola.spilled
  | .cupolaCntInv => t.cupola.cntInv = s.cupola.cntInv
  | .cupolaCntTagFail => t.cupola.cntTagFail = s.cupola.cntTagFail
  | .cupolaCntWithdraw => t.cupola.cntWithdraw = s.cupola.cntWithdraw
  | .cupolaCntCorErr => t.cupola.cntCorErr = s.cupola.cntCorErr
  | .cupolaCntReplay => t.cupola.cntReplay = s.cupola.cntReplay
  | .czCfg => t.cz.cfg = s.cz.cfg
  | .czInService => t.cz.inService = s.cz.inService
  | .czEngines => t.cz.engines = s.cz.engines
  | .czFinished => t.cz.finished = s.cz.finished
  | .czSource => t.cz.source = s.cz.source
  | .czNextOrder => t.cz.nextOrder = s.cz.nextOrder
  | .czDecomp => t.cz.decomp = s.cz.decomp
  | .czBytesIn => t.cz.bytesIn = s.cz.bytesIn
  | .czBytesOut => t.cz.bytesOut = s.cz.bytesOut
  | .czCntRaw => t.cz.cntRaw = s.cz.cntRaw
  | .czCntErr => t.cz.cntErr = s.cz.cntErr
  | .driveCart => t.drive.cart = s.drive.cart
  | .driveVol => t.drive.vol = s.drive.vol
  | .driveLink => t.drive.link = s.drive.link
  | .wrSets => t.wr.sets = s.wr.sets
  | .wrNextId => t.wr.nextId = s.wr.nextId
  | .wrStackOk => t.wr.stackOk = s.wr.stackOk
  | .wrStalled => t.wr.stalled = s.wr.stalled
  | .wrStallAt => t.wr.stallAt = s.wr.stallAt
  | .wrDomesReady => t.wr.domesReady = s.wr.domesReady
  | .wrDomesReleased => t.wr.domesReleased = s.wr.domesReleased
  | .wrClosed => t.wr.closed = s.wr.closed
  | .wrAbsent => t.wr.absent = s.wr.absent
  | .wrWrap => t.wr.wrap = s.wr.wrap
  | .wrSlot => t.wr.slot = s.wr.slot
  | .wrResumeAt => t.wr.resumeAt = s.wr.resumeAt
  | .wrPart => t.wr.part = s.wr.part
  | .wrCommits => t.wr.commits = s.wr.commits
  | .wrAnchor => t.wr.anchor = s.wr.anchor
  | .wrRewrites => t.wr.rewrites = s.wr.rewrites
  | .wrSkipLeft => t.wr.skipLeft = s.wr.skipLeft
  | .wrHistory => t.wr.history = s.wr.history
  | .wrTokens => t.wr.tokens = s.wr.tokens
  | .wrInhibited => t.wr.inhibited = s.wr.inhibited
  | .wrSources => t.wr.sources = s.wr.sources
  | .wrPesGood => t.wr.pesGood = s.wr.pesGood
  | .wrHoldUntil => t.wr.holdUntil = s.wr.holdUntil
  | .wrNoResume => t.wr.noResume = s.wr.noResume
  | .wrRequeued => t.wr.requeued = s.wr.requeued
  | .wrWrapEnding => t.wr.wrapEnding = s.wr.wrapEnding
  | .wrNoFirst => t.wr.noFirst = s.wr.noFirst
  | .wvnNew => t.wvn.new = s.wvn.new
  | .wvnCtrl => t.wvn.ctrl = s.wvn.ctrl
  | .wvnFixed => t.wvn.fixed = s.wvn.fixed
  | .wvnSetpt => t.wvn.setpt = s.wvn.setpt
  | .wvnGain => t.wvn.gain = s.wvn.gain
  | .wvnRate => t.wvn.rate = s.wvn.rate
  | .wvnBh => t.wvn.bh = s.wvn.bh
  | .wvnBh2 => t.wvn.bh2 = s.wvn.bh2
  | .wvnVtable => t.wvn.vtable = s.wvn.vtable
  | .wvnState => t.wvn.state = s.wvn.state
  | .wvnRun => t.wvn.run = s.wvn.run
  | .wvnR => t.wvn.r = s.wvn.r
  | .wvnStartDue => t.wvn.startDue = s.wvn.startDue
  | .wvnRPending => t.wvn.rPending = s.wvn.rPending
  | .wvnVPending => t.wvn.vPending = s.wvn.vPending
  | .wvnRCmd => t.wvn.rCmd = s.wvn.rCmd
  | .wvnH => t.wvn.h = s.wvn.h
  | .wvnRho => t.wvn.rho = s.wvn.rho
  | .wvnInteg => t.wvn.integ = s.wvn.integ
  | .wvnFrozen => t.wvn.frozen = s.wvn.frozen
  | .wvnSlewRest => t.wvn.slewRest = s.wvn.slewRest
  | .wvnStallTicks => t.wvn.stallTicks = s.wvn.stallTicks
  | .wvnMoved => t.wvn.moved = s.wvn.moved
  | .wvnDwellMs => t.wvn.dwellMs = s.wvn.dwellMs
  | .wvnStoppedAt => t.wvn.stoppedAt = s.wvn.stoppedAt
  | .wvnRefused => t.wvn.refused = s.wvn.refused
  | .wvnCapV => t.wvn.capV = s.wvn.capV
  | .wvnCapM => t.wvn.capM = s.wvn.capM
  | .wvnCapT => t.wvn.capT = s.wvn.capT
  | .wvnBand => t.wvn.band = s.wvn.band
  | .wvnMarginOfs => t.wvn.marginOfs = s.wvn.marginOfs
  | .wvnMarginMs => t.wvn.marginMs = s.wvn.marginMs
  | .wvnTurns => t.wvn.turns = s.wvn.turns
  | .wvnUpdates => t.wvn.updates = s.wvn.updates
  | .wvnCntBh => t.wvn.cntBh = s.wvn.cntBh
  | .wvnCntTurn => t.wvn.cntTurn = s.wvn.cntTurn
  | .wvnCntStall => t.wvn.cntStall = s.wvn.cntStall
  | .eccLdpcCfg => t.ecc.ldpcCfg = s.ecc.ldpcCfg
  | .eccRsCfg => t.ecc.rsCfg = s.ecc.rsCfg
  | .eccEscCfg => t.ecc.escCfg = s.ecc.escCfg
  | .eccVfyCfg => t.ecc.vfyCfg = s.ecc.vfyCfg
  | .eccVfyCfg2 => t.ecc.vfyCfg2 = s.ecc.vfyCfg2
  | .eccWinhCfg => t.ecc.winhCfg = s.ecc.winhCfg
  | .eccDead0 => t.ecc.dead0 = s.ecc.dead0
  | .eccDeadHead => t.ecc.deadHead = s.ecc.deadHead
  | .eccDead1 => t.ecc.dead1 = s.ecc.dead1
  | .eccRun0 => t.ecc.run0 = s.ecc.run0
  | .eccRun1 => t.ecc.run1 = s.ecc.run1
  | .eccInService => t.ecc.inService = s.ecc.inService
  | .eccCntL3 => t.ecc.cntL3 = s.ecc.cntL3
  | .eccCntDome => t.ecc.cntDome = s.ecc.cntDome
  | .eccCntUnrec => t.ecc.cntUnrec = s.ecc.cntUnrec
  | .eccCntRewrite => t.ecc.cntRewrite = s.ecc.cntRewrite
  | .eccCntInhibit => t.ecc.cntInhibit = s.ecc.cntInhibit
  | .eccCntSkip => t.ecc.cntSkip = s.ecc.cntSkip
  | .tilesChans => t.tiles.chans = s.tiles.chans
  | .tilesSyncCfg => t.tiles.syncCfg = s.tiles.syncCfg
  | .tilesTapIdx => t.tiles.tapIdx = s.tiles.tapIdx
  | .tilesWtrim => t.tiles.wtrim = s.tiles.wtrim
  | .tilesWdly => t.tiles.wdly = s.tiles.wdly
  | .tilesRetry => t.tiles.retry = s.tiles.retry
  | .tilesRetryCtl => t.tiles.retryCtl = s.tiles.retryCtl
  | .tilesWfifo => t.tiles.wfifo = s.tiles.wfifo
  | .tilesWfifoAt => t.tiles.wfifoAt = s.tiles.wfifoAt
  | .tilesInService => t.tiles.inService = s.tiles.inService
  | .tilesModule => t.tiles.module = s.tiles.module
  | .tilesSavedTaps => t.tiles.savedTaps = s.tiles.savedTaps
  | .tilesTapsHead => t.tiles.tapsHead = s.tiles.tapsHead
  | .tilesMountTaps => t.tiles.mountTaps = s.tiles.mountTaps
  | .tilesModulesUsed => t.tiles.modulesUsed = s.tiles.modulesUsed
  | .tilesNNom => t.tiles.nNom = s.tiles.nNom
  | .tilesDeskewed => t.tiles.deskewed = s.tiles.deskewed
  | .tilesArrivals => t.tiles.arrivals = s.tiles.arrivals
  | .tilesAsm => t.tiles.asm = s.tiles.asm
  | .tilesVerifies => t.tiles.verifies = s.tiles.verifies
  | .rdSets => t.rd.sets = s.rd.sets
  | .rdFailed => t.rd.failed = s.rd.failed
  | .rdHoles => t.rd.holes = s.rd.holes
  | .rdPackets => t.rd.packets = s.rd.packets
  | .rdBadBlocks => t.rd.badBlocks = s.rd.badBlocks
  | .rdPart => t.rd.part = s.rd.part
  | .rdWrap => t.rd.wrap = s.rd.wrap
  | .rdSlot => t.rd.slot = s.rd.slot
  | .rdCovers => t.rd.covers = s.rd.covers
  | .rdActive => t.rd.active = s.rd.active
  | .rdEnded => t.rd.ended = s.rd.ended
  | .rdExpected => t.rd.expected = s.rd.expected
  | .rdSure => t.rd.sure = s.rd.sure
  | .rdAccepted => t.rd.accepted = s.rd.accepted
  | .rdRetry => t.rd.retry = s.rd.retry
  | .rdMenu => t.rd.menu = s.rd.menu
  | .rdResume => t.rd.resume = s.rd.resume
  | .rdNextStack => t.rd.nextStack = s.rd.nextStack
  | .rdCopySlot => t.rd.copySlot = s.rd.copySlot
  | .stpMode => t.stp.mode = s.stp.mode
  | .stpSt1 => t.stp.st1 = s.stp.st1
  | .stpStandbyOk => t.stp.standbyOk = s.stp.standbyOk
  | .stpBand => t.stp.band = s.stp.band
  | .stpWinTu => t.stp.winTu = s.stp.winTu
  | .stpWinSup => t.stp.winSup = s.stp.winSup
  | .stpReaders => t.stp.readers = s.stp.readers
  | .stpTapeIds => t.stp.tapeIds = s.stp.tapeIds
  | .stpReels => t.stp.reels = s.stp.reels
  | .stpSpeedOk => t.stp.speedOk = s.stp.speedOk
  | .stpSpeedFrames => t.stp.speedFrames = s.stp.speedFrames
  | .stpOneBand => t.stp.oneBand = s.stp.oneBand
  | .stpBySrv => t.stp.bySrv = s.stp.bySrv
  | .stpRcOn => t.stp.rcOn = s.stp.rcOn
  | .stpWinh => t.stp.winh = s.stp.winh
  | .stpCoefIdx => t.stp.coefIdx = s.stp.coefIdx
  | .stpV => t.stp.v = s.stp.v
  | .stpAccel => t.stp.accel = s.stp.accel
  | .stpWvnSpeed => t.stp.wvnSpeed = s.stp.wvnSpeed
  | .stpVSet => t.stp.vSet = s.stp.vSet
  | .stpVRef => t.stp.vRef = s.stp.vRef
  | .stpVAcc => t.stp.vAcc = s.stp.vAcc
  | .stpLpos => t.stp.lpos = s.stp.lpos
  | .stpFrame => t.stp.frame = s.stp.frame
  | .stpPosRest => t.stp.posRest = s.stp.posRest
  | .stpLposValid => t.stp.lposValid = s.stp.lposValid
  | .stpErrL => t.stp.errL = s.stp.errL
  | .stpErrU => t.stp.errU = s.stp.errU
  | .stpTheta => t.stp.theta = s.stp.theta
  | .stpThetaHist => t.stp.thetaHist = s.stp.thetaHist
  | .stpThetaCal => t.stp.thetaCal = s.stp.thetaCal
  | .stpThetaHead => t.stp.thetaHead = s.stp.thetaHead
  | .stpTheta0 => t.stp.theta0 = s.stp.theta0
  | .stpTiltFixed => t.stp.tiltFixed = s.stp.tiltFixed
  | .stpTiltOut => t.stp.tiltOut = s.stp.tiltOut
  | .stpLaws => t.stp.laws = s.stp.laws
  | .stpEstErr => t.stp.estErr = s.stp.estErr
  | .stpEstRate => t.stp.estRate = s.stp.estRate
  | .stpBandGap => t.stp.bandGap = s.stp.bandGap
  | .stpEventCode => t.stp.eventCode = s.stp.eventCode
  | .stpAccIdWait => t.stp.accIdWait = s.stp.accIdWait
  | .stpLatLaw => t.stp.latLaw = s.stp.latLaw
  | .stpReelLaw => t.stp.reelLaw = s.stp.reelLaw
  | .stpLatWrap => t.stp.latWrap = s.stp.latWrap
  | .stpLatRead => t.stp.latRead = s.stp.latRead
  | .stpLatOfs => t.stp.latOfs = s.stp.latOfs
  | .stpRetryOfs => t.stp.retryOfs = s.stp.retryOfs
  | .stpVcm => t.stp.vcm = s.stp.vcm
  | .stpStepper => t.stp.stepper = s.stp.stepper
  | .stpVcmSum => t.stp.vcmSum = s.stp.vcmSum
  | .stpVcmN => t.stp.vcmN = s.stp.vcmN
  | .stpVcmTicks => t.stp.vcmTicks = s.stp.vcmTicks
  | .stpSeekRest => t.stp.seekRest = s.stp.seekRest
  | .stpFEst => t.stp.fEst = s.stp.fEst
  | .stpFSet => t.stp.fSet = s.stp.fSet
  | .stpFGoal => t.stp.fGoal = s.stp.fGoal
  | .stpRc => t.stp.rc = s.stp.rc
  | .stpRcBin => t.stp.rcBin = s.stp.rcBin
  | .stpStages => t.stp.stages = s.stp.stages
  | .stpProgram => t.stp.program = s.stp.program
  | .stpStopping => t.stp.stopping = s.stp.stopping
  | .stpHeldMode => t.stp.heldMode = s.stp.heldMode
  | .stpHoldFrom => t.stp.holdFrom = s.stp.holdFrom
  | .stpHoldGood => t.stp.holdGood = s.stp.holdGood
  | .stpBrakeUntil => t.stp.brakeUntil = s.stp.brakeUntil
  | .stpBeatAt => t.stp.beatAt = s.stp.beatAt
  | .stpBeatLost => t.stp.beatLost = s.stp.beatLost
  | .stpAcc => t.stp.acc = s.stp.acc
  | .stpAccBad => t.stp.accBad = s.stp.accBad
  | .stpAccFailed => t.stp.accFailed = s.stp.accFailed
  | .stpTemp => t.stp.temp = s.stp.temp
  | .stpHum => t.stp.hum = s.stp.hum
  | .stpSensorBad => t.stp.sensorBad = s.stp.sensorBad
  | .stpSensorAbsent => t.stp.sensorAbsent = s.stp.sensorAbsent
  | .stpResyncAt => t.stp.resyncAt = s.stp.resyncAt
  | .stpOffByFault => t.stp.offByFault = s.stp.offByFault
  | .stpCntHold => t.stp.cntHold = s.stp.cntHold
  | .stpCntStop => t.stp.cntStop = s.stp.cntStop
  | .stpCntHandover => t.stp.cntHandover = s.stp.cntHandover
  | .stpCntDrop => t.stp.cntDrop = s.stp.cntDrop
  | .stpCntLinkErr => t.stp.cntLinkErr = s.stp.cntLinkErr
  | .stpCntTakeover => t.stp.cntTakeover = s.stp.cntTakeover
  | .hlkGroups => t.hlk.groups = s.hlk.groups
  | .hlkGroupEn => t.hlk.groupEn = s.hlk.groupEn
  | .hlkGroupEnNext => t.hlk.groupEnNext = s.hlk.groupEnNext
  | .hlkRetrainNext => t.hlk.retrainNext = s.hlk.retrainNext
  | .hlkCfg => t.hlk.cfg = s.hlk.cfg
  | .hlkAdc => t.hlk.adc = s.hlk.adc
  | .hlkWclk => t.hlk.wclk = s.hlk.wclk
  | .blfSources => (t.blf.sources.map fun q => { q with pending := false }) = (s.blf.sources.map fun q => { q with pending := false })
  | .blfRequests => (t.blf.sources.map fun q => q.pending) = (s.blf.sources.map fun q => q.pending)
  | .blfCores => (t.blf.cores.map fun k => { k with offer := none, withdrawn := false }) = (s.blf.cores.map fun k => { k with offer := none, withdrawn := false })
  | .blfCoreOffers => (t.blf.cores.map fun k => (k.offer, k.withdrawn)) = (s.blf.cores.map fun k => (k.offer, k.withdrawn))
  | .blfCoreOk => t.blf.coreOk = s.blf.coreOk
  | .blfCopyOk => t.blf.copyOk = s.blf.copyOk
  | .blfVecBase => t.blf.vecBase = s.blf.vecBase
  | .blfSrcIdx => t.blf.srcIdx = s.blf.srcIdx
  | .blfLatched => t.blf.latched = s.blf.latched
  | .blfWakeEn => t.blf.wakeEn = s.blf.wakeEn
  | .blfCntSpurious => t.blf.cntSpurious = s.blf.cntSpurious
  | .blfCntStackFault => t.blf.cntStackFault = s.blf.cntStackFault
  | .blfCntParity => t.blf.cntParity = s.blf.cntParity
  | .blfCntMsix => t.blf.cntMsix = s.blf.cntMsix
  | .blfCntFlush => t.blf.cntFlush = s.blf.cntFlush
  | .hqQueues => t.hq.queues = s.hq.queues
  | .hqCntParity => t.hq.cntParity = s.hq.cntParity
  | .hqCntStale => t.hq.cntStale = s.hq.cntStale
  | .hqCntFlush => t.hq.cntFlush = s.hq.cntFlush
  | .out => t.out = s.out
  | .fresh => t.fresh = s.fresh

/-- Nothing changed but the fields of the list: every other field, and the queue of waiting commands, is as before. -/
def changesOnly (l : List Field) (s t : State) : Prop := t.pending = s.pending ∧ ∀ f, f ∉ l → f.same s t

/-! ## What each command may change -/

/-- What a part reset sets to its reset value (R351). -/
def resetFields : List Field :=
  [.pinsAlarmAsserted, .pinsMotEn, .bootPhase, .bootCause, .bootBootCount, .bootConfirmed, .bootReady, .bootWatchdog,
   .bootStaged, .bootStagedOk, .bootStagedPermit, .bootActivation, .bootFromPs4, .trustMismatches, .trustDebug, .trustPermit,
   .trustCause, .trustTables, .trustSteepleNext, .trustHeadNext, .trustSubsystem, .powerPstate, .powerEntering, .powerPs4Due,
   .powerDomOn, .powerDomFault, .powerVop, .powerVout, .powerAvsTarget, .powerAvsTries, .powerAvsFailed, .powerCntAvsFail,
   .powerCntHoldover, .powerHotMs, .powerCoolMs, .lanternOutOfService, .hostPortA, .hostPortB, .hostPba, .hostEnable,
   .hostCfgErr, .hostResetBusy, .hostAqSize, .hostAqSqbLo, .hostAqSqbHi, .hostAqCqbLo, .hostAqCqbHi, .hostQps, .hostNextOrder,
   .hostLastFetched, .hostCmds, .hostResetting, .hostHoldForSwitch, .hostResetAfterSwitch, .hostGroups, .hostCntFailover,
   .hostCntDbErr, .hostCntRepost, .hostCntBadAcc, .keepSlots, .keepTransport, .keepCopyOk, .keepErased, .keepCtxKek,
   .keepSpillSerial, .keepSpillLatest, .keepCntLoadFail, .cupolaCfg, .cupolaInService, .cupolaNonce, .cupolaCtxs, .cupolaSpilled,
   .cupolaCntInv, .cupolaCntTagFail, .cupolaCntWithdraw, .cupolaCntCorErr, .cupolaCntReplay, .czCfg, .czInService, .czEngines,
   .czFinished, .czSource, .czNextOrder, .czDecomp, .czBytesIn, .czBytesOut, .czCntRaw, .czCntErr, .driveVol, .driveLink,
   .wrSets, .wrNextId, .wrStackOk, .wrStalled, .wrStallAt, .wrDomesReady, .wrDomesReleased, .wrClosed, .wrAbsent, .wrWrap,
   .wrSlot, .wrResumeAt, .wrPart, .wrCommits, .wrAnchor, .wrRewrites, .wrSkipLeft, .wrHistory, .wrTokens, .wrInhibited,
   .wrSources, .wrPesGood, .wrHoldUntil, .wrNoResume, .wrRequeued, .wrWrapEnding, .wrNoFirst, .wvnNew, .wvnCtrl, .wvnFixed,
   .wvnSetpt, .wvnGain, .wvnRate, .wvnBh, .wvnBh2, .wvnVtable, .wvnState, .wvnRun, .wvnR, .wvnStartDue, .wvnRPending,
   .wvnVPending, .wvnRCmd, .wvnH, .wvnRho, .wvnInteg, .wvnFrozen, .wvnSlewRest, .wvnStallTicks, .wvnMoved, .wvnDwellMs,
   .wvnStoppedAt, .wvnRefused, .wvnCapV, .wvnCapM, .wvnCapT, .wvnBand, .wvnMarginOfs, .wvnMarginMs, .wvnTurns, .wvnUpdates,
   .wvnCntBh, .wvnCntTurn, .wvnCntStall, .eccLdpcCfg, .eccRsCfg, .eccEscCfg, .eccVfyCfg, .eccVfyCfg2, .eccWinhCfg, .eccDeadHead,
   .eccRun0, .eccRun1, .eccInService, .eccCntL3, .eccCntDome, .eccCntUnrec, .eccCntRewrite, .eccCntInhibit, .eccCntSkip,
   .tilesChans, .tilesSyncCfg, .tilesTapIdx, .tilesWtrim, .tilesWdly, .tilesRetry, .tilesRetryCtl, .tilesWfifo, .tilesWfifoAt,
   .tilesInService, .tilesModule, .tilesMountTaps, .tilesModulesUsed, .tilesNNom, .tilesDeskewed, .tilesArrivals, .tilesAsm,
   .tilesVerifies, .rdSets, .rdFailed, .rdHoles, .rdPackets, .rdBadBlocks, .rdPart, .rdWrap, .rdSlot, .rdCovers, .rdActive,
   .rdEnded, .rdExpected, .rdSure, .rdAccepted, .rdRetry, .rdMenu, .rdResume, .rdNextStack, .rdCopySlot, .stpMode, .stpSt1,
   .stpStandbyOk, .stpBand, .stpWinTu, .stpWinSup, .stpReaders, .stpTapeIds, .stpReels, .stpSpeedOk, .stpSpeedFrames,
   .stpOneBand, .stpBySrv, .stpRcOn, .stpWinh, .stpCoefIdx, .stpV, .stpAccel, .stpWvnSpeed, .stpVSet, .stpVRef, .stpVAcc,
   .stpLpos, .stpFrame, .stpPosRest, .stpLposValid, .stpErrL, .stpErrU, .stpTheta, .stpThetaHist, .stpTheta0, .stpTiltFixed,
   .stpTiltOut, .stpLaws, .stpEstErr, .stpEstRate, .stpBandGap, .stpEventCode, .stpAccIdWait, .stpLatLaw, .stpReelLaw,
   .stpLatWrap, .stpLatRead, .stpLatOfs, .stpRetryOfs, .stpVcm, .stpStepper, .stpVcmSum, .stpVcmN, .stpVcmTicks, .stpSeekRest,
   .stpFEst, .stpFSet, .stpFGoal, .stpRc, .stpRcBin, .stpStages, .stpProgram, .stpStopping, .stpHeldMode, .stpHoldFrom,
   .stpHoldGood, .stpBrakeUntil, .stpBeatAt, .stpBeatLost, .stpAcc, .stpAccBad, .stpAccFailed, .stpTemp, .stpHum, .stpSensorBad,
   .stpSensorAbsent, .stpResyncAt, .stpOffByFault, .stpCntHold, .stpCntStop, .stpCntHandover, .stpCntDrop, .stpCntLinkErr,
   .stpCntTakeover, .hlkGroups, .hlkGroupEn, .hlkGroupEnNext, .hlkRetrainNext, .hlkCfg, .hlkAdc, .hlkWclk, .blfSources,
   .blfRequests, .blfCores, .blfCoreOffers, .blfCoreOk, .blfCopyOk, .blfVecBase, .blfSrcIdx, .blfCntSpurious, .blfCntStackFault,
   .blfCntParity, .blfCntMsix, .blfCntFlush, .hqQueues, .hqCntParity, .hqCntStale, .hqCntFlush]

/-- What bringing the tape to what is staged may move: the write run, its program, its set-points and its voltage (R134, R445). -/
def tapeFields : List Field :=
  [.powerDomOn, .powerAvsTarget, .powerAvsTries, .powerAvsFailed, .driveVol, .driveLink, .wrSets, .wrWrap, .wrSlot, .wrResumeAt,
   .wrPart, .wrAnchor, .wrSkipLeft, .wrWrapEnding, .wrNoFirst, .wvnState, .wvnRun, .wvnR, .wvnStartDue, .wvnRPending,
   .wvnVPending, .wvnRCmd, .wvnFrozen, .wvnDwellMs, .wvnRefused, .wvnBand, .tilesChans, .tilesModule, .tilesMountTaps,
   .tilesModulesUsed, .tilesDeskewed, .tilesArrivals, .tilesAsm, .tilesVerifies, .stpMode, .stpSpeedOk, .stpSpeedFrames,
   .stpVSet, .stpVAcc, .stpThetaCal, .stpTheta0, .stpAccIdWait, .stpLatWrap, .stpLatRead, .stpRc, .stpRcBin, .stpProgram,
   .stpAccBad, .stpAccFailed, .stpSensorBad, .stpSensorAbsent, .stpOffByFault, .hlkGroups, .blfRequests, .blfCoreOffers, .out,
   .fresh]

/-- What a Lantern record changes: the region it goes to, its device event and vector, and source 109 when it fires the trigger (R381 to R384). -/
def recordFields : List Field :=
  [.lanternPinnedRecs, .lanternRing, .lanternRseq, .lanternArmed, .lanternFired, .lanternPostLeft, .lanternPinFull,
   .lanternSecond, .lanternRate, .lanternSuppressed, .lanternCntSuppr, .lanternEvents, .hostPba, .blfRequests, .blfCoreOffers,
   .blfCntMsix, .out]

/-- What posting a completion changes: the queues, the moderation of host groups, vectors and outputs (R279, R302, R339). -/
def completionFields : List Field :=
  [.lanternKeptOutcomes, .hostPba, .hostEnable, .hostResetBusy, .hostQps, .hostNextOrder, .hostCmds, .hostResetting, .hostGroups,
   .blfCntMsix, .blfCntFlush, .out]

/-- What ending a partition at an object changes (R322). -/
def truncateFields : List Field :=
  [.driveVol, .wrSets, .wrNextId, .wrStalled, .wrStallAt, .wvnState, .wvnRun, .wvnR, .wvnStartDue, .wvnRPending, .wvnStallTicks,
   .wvnDwellMs, .wvnRefused, .tilesChans, .rdSets, .rdFailed, .rdHoles, .rdPackets, .rdBadBlocks, .rdCovers, .rdActive, .stpMode,
   .stpThetaCal, .stpTheta0, .stpAccIdWait, .stpRc, .stpRcBin, .stpProgram, .stpAccBad, .stpAccFailed, .stpSensorBad,
   .stpSensorAbsent, .stpOffByFault, .blfRequests, .blfCoreOffers, .out]

/-- What a write inhibit changes: the tokens, the commits they cut, its record and its count (R105 to R107). -/
def inhibitFields : List Field :=
  [.lanternPinnedRecs, .lanternRing, .lanternRseq, .lanternArmed, .lanternFired, .lanternPostLeft, .lanternPinFull,
   .lanternSecond, .lanternRate, .lanternSuppressed, .lanternCntSuppr, .lanternEvents, .lanternReport, .hostPba, .driveCart,
   .wrSets, .wrResumeAt, .wrCommits, .wrRewrites, .wrHistory, .wrTokens, .wrInhibited, .wrSources, .wrNoResume, .wrRequeued,
   .eccCntRewrite, .eccCntInhibit, .tilesWfifo, .tilesWfifoAt, .hlkGroups, .blfRequests, .blfCoreOffers, .blfCntMsix, .out]

/-- What asking for another speed changes: the voltage first, or the speed at once (R20, R121). -/
def ratioFields : List Field :=
  [.powerAvsTarget, .powerAvsTries, .powerAvsFailed, .wvnR, .wvnRPending, .wvnVPending, .wvnBand, .stpSpeedOk, .stpSpeedFrames,
   .stpVSet, .stpVAcc, .out]

/-- What discarding read-ahead changes (R133). -/
def readAheadFields : List Field :=
  [.rdSets, .rdFailed, .rdHoles, .rdPackets, .rdBadBlocks, .rdCovers, .rdActive, .rdEnded, .rdExpected, .rdSure, .rdAccepted,
   .rdRetry]

/-- What starting a motion program changes (R199). -/
def programFields : List Field :=
  [.stpMode, .stpThetaCal, .stpTheta0, .stpAccIdWait, .stpRc, .stpRcBin, .stpProgram, .stpAccBad, .stpAccFailed, .stpSensorBad,
   .stpSensorAbsent, .stpOffByFault, .blfRequests, .blfCoreOffers, .out]

/-- What abandoning an atomic group changes (R288). -/
def groupFields : List Field :=
  [.lanternKeptOutcomes, .hostPba, .hostEnable, .hostResetBusy, .hostQps, .hostNextOrder, .hostCmds, .hostResetting, .hostGroups,
   .keepSlots, .czEngines, .czFinished, .czSource, .driveVol, .wrSets, .wrNextId, .wrStalled, .wrStallAt, .wvnStallTicks,
   .blfCntMsix, .blfCntFlush, .out]

/-- What a step of a motion program that completes, faults or waits changes (R200, R201). -/
def stepFields : List Field :=
  [.lanternPinnedRecs, .lanternRing, .lanternRseq, .lanternArmed, .lanternFired, .lanternPostLeft, .lanternPinFull,
   .lanternSecond, .lanternRate, .lanternSuppressed, .lanternCntSuppr, .lanternEvents, .hostPba, .stpSpeedOk, .stpSpeedFrames,
   .stpVSet, .stpVAcc, .stpProgram, .stpStopping, .stpCntStop, .blfRequests, .blfCoreOffers, .blfCntMsix, .out]

/-- The counters and flags that a read clears (R2). -/
def counterFields : List Field :=
  [.powerCntAvsFail, .powerCntHoldover, .lanternCntSuppr, .lanternCntTorn, .hostPortA, .hostPortB, .hostPba, .hostCntFailover,
   .hostCntDbErr, .hostCntRepost, .hostCntBadAcc, .keepCntLoadFail, .cupolaCntTagFail, .cupolaCntWithdraw, .cupolaCntCorErr,
   .cupolaCntReplay, .czCntRaw, .czCntErr, .wvnCntBh, .wvnCntTurn, .wvnCntStall, .eccCntL3, .eccCntDome, .eccCntUnrec,
   .eccCntRewrite, .eccCntInhibit, .eccCntSkip, .tilesChans, .stpCntHold, .stpCntStop, .stpCntHandover, .stpCntDrop,
   .stpCntLinkErr, .stpCntTakeover, .hlkGroups, .blfCntSpurious, .blfCntStackFault, .blfCntParity, .blfCntMsix, .blfCntFlush,
   .hqQueues, .hqCntParity, .hqCntStale, .hqCntFlush, .out]

/-- What dropping a context changes (R258). -/
def contextFields : List Field :=
  [.keepSpillLatest, .cupolaCtxs, .cupolaSpilled]

/-- What the end of a retry changes (R131). -/
def retryFields : List Field :=
  [.tilesChans, .tilesModule, .tilesMountTaps, .tilesModulesUsed, .tilesDeskewed, .tilesArrivals, .tilesAsm, .tilesVerifies,
   .rdWrap, .rdSlot, .rdRetry, .rdMenu, .stpRetryOfs, .hlkGroups, .out]

/-- What a Belfry request changes (R329, R332). -/
def requestFields : List Field :=
  [.blfRequests, .blfCoreOffers, .out]

/-- What discarding staged data sets changes (R111, R288). -/
def discardFields : List Field :=
  [.keepSlots, .driveVol, .wrSets, .wrStalled, .wrStallAt, .wrDomesReady, .wrClosed, .wrAbsent, .wrCommits, .wrRewrites,
   .wrRequeued, .wvnStallTicks]

/-- The fields that a command may change, over all its forms and all states. -/
def touches : Instr → List Field
  | .powerOnReset => resetFields ++ [.trustPress, .trustSealOk, .trustSealBroken, .trustLfsr, .powerTime, .powerFrac, .powerSrc,
      .powerLifeBase, .powerLifeAt, .powerRails, .powerAvsHold, .lanternCfg, .lanternTrigCode, .lanternTrigPost, .lanternArmed,
      .lanternFired, .lanternPostLeft, .lanternSecond, .lanternRate, .lanternSuppressed, .lanternCntSuppr, .lanternCntTorn, .blfLatched,
      .blfWakeEn]
  | .pwrGoodFall _ => resetFields ++ recordFields ++ inhibitFields ++ [.fresh]
  | .sysResetNLow _ => resetFields ++ recordFields ++ inhibitFields ++ [.fresh]
  | .startUp _ => recordFields ++ [.pinsStraps, .bootPhase, .bootFails, .bootSlotA, .bootSlotB, .bootCause, .bootStraps, .bootSlot,
      .bootVersion, .bootReady, .bootWatchdog, .bootKeepFault, .trustSealOk, .trustLfsr, .trustMismatches, .trustTables, .trustSubsystem,
      .powerPstate, .powerDomOn, .powerAvsTarget, .powerAvsTries, .powerAvsFailed, .lanternCntTorn, .hostPortA, .hostPortB,
      .keepTransport, .keepCtxKek, .keepSpillSerial, .keepSpillLatest, .cupolaNonce, .eccDead0, .eccDeadHead, .eccDead1, .fresh]
  | .startConfirm _ => recordFields ++ [.bootPreferred, .bootFails, .bootSlotA, .bootSlotB, .bootConfirmed, .bootReady,
      .bootWatchdog, .bootEpoch, .bootMinVersion, .bootFromPs4]
  | .watchdogExpiry => resetFields ++ recordFields ++ inhibitFields ++ [.powerTime]
  | .portReset _ _ => completionFields ++ truncateFields ++ readAheadFields ++ groupFields ++ contextFields ++ [.bootActivation,
      .hostPortA, .hostPortB, .hostResetAfterSwitch, .fresh]
  | .flr _ => completionFields ++ truncateFields ++ readAheadFields ++ groupFields ++ contextFields ++ [.bootActivation, .hostPortA,
      .hostPortB, .hostResetAfterSwitch]
  | .testEnHigh => resetFields ++ recordFields ++ inhibitFields ++ [.pinsTestEn]
  | .strapChange _ => recordFields ++ [.pinsStraps]
  | .alarm _ => recordFields ++ completionFields ++ inhibitFields ++ readAheadFields ++ groupFields ++ contextFields ++ discardFields
      ++ [.pinsAlarmAsserted, .trustPress, .trustSealOk, .trustSealBroken, .trustCause, .trustLifetime, .keepTransport, .keepErased,
      .keepCtxKek, .cupolaNonce, .cupolaCntWithdraw, .blfLatched]
  | .sealLfsrTick _ _ => recordFields ++ completionFields ++ inhibitFields ++ ratioFields ++ readAheadFields ++ programFields ++
      groupFields ++ contextFields ++ discardFields ++ [.pinsAlarmAsserted, .trustPress, .trustSealOk, .trustSealBroken, .trustLfsr,
      .trustMismatches, .trustCause, .trustLifetime, .powerVop, .powerVout, .powerAvsHold, .keepTransport, .keepErased, .keepCtxKek,
      .cupolaNonce, .cupolaCntWithdraw, .wvnStartDue, .wvnRefused, .blfLatched]
  | .presencePress => requestFields ++ [.trustPress, .trustSealBroken, .blfLatched]
  | .presenceWindowExpiry => [.trustPress, .powerTime]
  | .wakeLatch _ _ => requestFields ++ [.blfLatched]
  | .cartRemoved => completionFields ++ truncateFields ++ readAheadFields ++ groupFields ++ discardFields ++ [.pinsCartPresentN,
      .lanternEvents, .driveCart, .driveLink, .wrDomesReleased, .wrAnchor, .wrSkipLeft, .wrWrapEnding, .wrNoFirst, .hlkGroups,
      .hlkGroupEn, .hlkGroupEnNext, .hlkRetrainNext, .blfLatched]
  | .cartInserted _ => requestFields ++ [.pinsCartPresentN, .driveCart, .driveLink, .stpTapeIds, .blfLatched]
  | .shockNAssert _ => recordFields ++ inhibitFields ++ [.pinsShockN, .blfLatched]
  | .shockNClear => [.pinsShockN, .wrSources, .wrHoldUntil]
  | .shockHoldExpiry => [.powerTime, .wrHoldUntil]
  | .motFaultNAssert => tapeFields ++ recordFields ++ completionFields ++ truncateFields ++ inhibitFields ++ readAheadFields ++
      stepFields ++ retryFields ++ [.pinsMotFaultN, .pinsMotEn, .keepSlots, .czDecomp, .wvnMoved, .rdPart, .rdResume, .stpVRef,
      .blfLatched]
  | .thermalSample _ => recordFields ++ completionFields ++ inhibitFields ++ readAheadFields ++ groupFields ++ contextFields ++
      discardFields ++ [.pinsAlarmAsserted, .trustCause, .trustLifetime, .powerJunction, .powerHotMs, .powerCoolMs, .keepTransport,
      .keepErased, .keepCtxKek, .cupolaNonce, .cupolaCntWithdraw, .wvnCapV, .blfLatched]
  | .thermalCapStep => recordFields ++ [.powerHotMs, .powerCoolMs, .wvnCapT]
  | .timeBaseSwitch _ _ => [.powerRefA, .powerRefB, .powerSrc, .powerCntHoldover]
  | .lifetimeCheckpoint => [.powerLifeMram]
  | .adminEnable _ => [.hostEnable, .hostCfgErr, .hostQps]
  | .funcReset _ => completionFields ++ truncateFields ++ readAheadFields ++ groupFields ++ contextFields ++ [.bootActivation,
      .hostResetAfterSwitch]
  | .sqTailDoorbell _ _ _ => requestFields ++ [.powerPstate, .powerEntering, .powerDomOn, .lanternEvents, .hostPba, .hostQps,
      .hostNextOrder, .hostCntDbErr, .blfCntMsix]
  | .cqHeadDoorbell _ _ _ => completionFields ++ requestFields ++ [.powerPstate, .powerEntering, .powerDomOn, .lanternEvents, .hostCntDbErr]
  | .sqFetch _ => completionFields ++ [.hostLastFetched]
  | .commandStart _ => completionFields
  | .holdoffExpiry _ => [.powerTime, .hostPba, .hostGroups, .blfCntMsix, .out]
  | .staleExpiry _ => [.powerTime, .hostPba, .hostGroups, .blfCntMsix, .out]
  | .msixMaskWrite _ _ _ => [.hostPortA, .hostPortB, .hostPba, .blfCntMsix, .out]
  | .portLoss _ => recordFields ++ completionFields ++ contextFields ++ [.hostPortA, .hostPortB, .hostCntFailover, .hostCntRepost,
      .keepSlots]
  | .pathRestored _ => completionFields ++ [.hostPortA, .hostPortB, .hostCntRepost]
  | .functionD3hot _ _ => recordFields ++ completionFields ++ contextFields ++ [.hostPortA, .hostPortB, .hostCntFailover,
      .hostCntRepost, .keepSlots]
  | .functionD0Return _ => recordFields ++ completionFields ++ contextFields ++ [.hostPortA, .hostPortB, .hostCntFailover,
      .hostCntRepost, .keepSlots]
  | .identify _ => completionFields
  | .negotiate _ => completionFields
  | .createQp _ => completionFields
  | .deleteQp _ => completionFields ++ groupFields ++ contextFields
  | .formatFloor _ => recordFields ++ completionFields ++ [.hostFloor]
  | .wake _ => completionFields ++ [.hostPortA, .hostPortB]
  | .queuePort _ => completionFields
  | .moderation _ => completionFields
  | .cmArea _ _ => completionFields ++ [.driveLink]
  | .deadClear _ => recordFields ++ completionFields ++ [.eccDead0, .eccDead1]
  | .getFeature _ => completionFields
  | .getLog _ => completionFields ++ [.lanternEvents, .lanternReport, .driveLink]
  | .powerState _ => completionFields ++ readAheadFields ++ [.powerPstate, .powerEntering, .powerPs4Due, .powerDomOn, .hlkGroups]
  | .fwStage _ _ _ => completionFields ++ [.bootFlash, .bootStaged, .bootStagedOk, .bootStagedPermit, .bootActivation, .trustPermit,
      .hostHoldForSwitch]
  | .fwActivate _ => resetFields ++ recordFields ++ inhibitFields ++ [.bootPreferred, .bootFails, .lanternKeptOutcomes, .stpThetaCal]
  | .activationIdleTimeout => tapeFields ++ completionFields ++ truncateFields ++ readAheadFields ++ groupFields ++ contextFields ++
      [.bootActivation, .powerTime, .hostHoldForSwitch, .hostResetAfterSwitch]
  | .activationStillTimeout => tapeFields ++ completionFields ++ truncateFields ++ readAheadFields ++ groupFields ++ contextFields ++
      [.bootActivation, .powerTime, .hostHoldForSwitch, .hostResetAfterSwitch]
  | .activationSwitch => tapeFields ++ recordFields ++ completionFields ++ truncateFields ++ readAheadFields ++ groupFields ++
      contextFields ++ [.bootPreferred, .bootFails, .bootSlotA, .bootSlotB, .bootConfirmed, .bootSlot, .bootVersion, .bootWatchdog,
      .bootMinVersion, .bootStaged, .bootStagedOk, .bootStagedPermit, .bootActivation, .hostHoldForSwitch, .hostResetAfterSwitch,
      .blfCores]
  | .barrierCoreTimeout _ => resetFields ++ tapeFields ++ recordFields ++ inhibitFields ++ [.bootPreferred, .bootFails, .bootSlotA,
      .bootSlotB, .bootSlot, .bootVersion, .bootMinVersion, .bootKeepFault, .lanternKeptOutcomes]
  | .keyLoad _ _ => completionFields ++ [.keepSlots, .keepLoadSeq, .keepCntLoadFail, .rdSets, .rdHoles, .rdPackets]
  | .keyErase _ => completionFields ++ groupFields ++ contextFields ++ discardFields ++ [.cupolaCntWithdraw, .rdSets, .rdHoles, .rdPackets]
  | .keyWithdrawDone _ => completionFields ++ [.keepSlots]
  | .keyQuery _ => completionFields
  | .attest _ _ => completionFields
  | .debugUnlock _ => recordFields ++ completionFields ++ inhibitFields ++ readAheadFields ++ groupFields ++ contextFields ++
      discardFields ++ [.trustDebug, .keepTransport, .keepCtxKek, .cupolaNonce, .cupolaCntWithdraw]
  | .lanternClear _ => recordFields ++ completionFields
  | .registerIntegratorKeys _ _ => completionFields ++ [.trustTableKey, .trustSigners, .trustTables, .trustSteepleNext,
      .trustHeadNext, .trustSubsystem]
  | .zeroizeAllKeys _ => recordFields ++ completionFields ++ groupFields ++ contextFields ++ discardFields ++ [.keepTransport,
      .cupolaCntWithdraw, .rdSets, .rdHoles, .rdPackets, .fresh]
  | .armDowngradePermit _ => completionFields ++ [.trustPermit]
  | .downgradePermitExpiry => [.trustPermit, .powerTime]
  | .resetFailedStartCounter _ => completionFields ++ [.bootFails]
  | .clearFails => [.bootFails]
  | .health => [.out]
  | .lanternRead _ => [.out]
  | .queueReset _ => completionFields ++ groupFields ++ contextFields
  | .tableLoad _ _ _ => recordFields ++ completionFields ++ [.bootFlash, .trustTables, .trustSteepleNext, .trustHeadNext,
      .tilesSavedTaps, .stpThetaCal, .stpRc]
  | .mount _ _ => tapeFields ++ recordFields ++ completionFields ++ truncateFields ++ readAheadFields ++ discardFields ++
      [.trustTables, .trustHeadNext, .lanternReport, .cupolaNonce, .wrDomesReleased, .eccDead0, .eccDeadHead, .eccDead1, .eccRun0,
      .eccRun1, .tilesWtrim, .hlkGroupEn, .hlkGroupEnNext, .hlkRetrainNext]
  | .unmount _ _ => tapeFields ++ recordFields ++ completionFields ++ truncateFields ++ readAheadFields ++ groupFields ++
      discardFields ++ [.lanternReport, .wrDomesReleased, .tilesSavedTaps, .tilesTapsHead, .hlkGroupEn, .hlkGroupEnNext, .hlkRetrainNext]
  | .locate _ _ => tapeFields ++ completionFields ++ truncateFields ++ readAheadFields ++ [.rdPart, .rdWrap, .rdSlot]
  | .readPosition _ _ => completionFields
  | .sync _ _ => tapeFields ++ completionFields ++ [.keepSlots, .wrNextId, .wrStalled, .wrStallAt, .wvnStallTicks, .rdActive]
  | .fence _ _ => completionFields
  | .truncate _ _ => tapeFields ++ completionFields ++ truncateFields ++ [.keepSlots]
  | .refreshFullRebuild _ _ => tapeFields ++ completionFields ++ truncateFields ++ readAheadFields
  | .refreshLocateIndex _ _ => tapeFields ++ completionFields ++ truncateFields ++ readAheadFields
  | .partition _ _ => tapeFields ++ completionFields ++ truncateFields ++ readAheadFields
  | .crypt _ _ _ _ => recordFields ++ completionFields ++ contextFields ++ [.powerDomOn, .keepSlots, .keepSpillSerial, .cupolaCntInv,
      .cupolaCntTagFail, .cupolaCntReplay]
  | .cryptHandleTimeout _ => contextFields ++ [.out]
  | .write _ _ _ _ => completionFields ++ truncateFields ++ groupFields ++ [.powerDomOn, .czNextOrder, .czBytesIn, .czBytesOut,
      .driveLink, .wvnMoved, .fresh]
  | .writeMark _ _ => completionFields ++ truncateFields ++ groupFields ++ [.powerDomOn, .czNextOrder, .czBytesIn, .czBytesOut,
      .driveLink, .wvnMoved, .fresh]
  | .read _ _ => tapeFields ++ completionFields ++ truncateFields ++ readAheadFields ++ [.keepSlots, .czDecomp, .wvnMoved, .rdPart,
      .rdWrap, .rdSlot]
  | .verify _ _ => tapeFields ++ completionFields ++ truncateFields ++ readAheadFields ++ [.keepSlots, .czDecomp, .wvnMoved, .rdPart,
      .rdWrap, .rdSlot]
  | .space _ _ => tapeFields ++ completionFields ++ truncateFields ++ readAheadFields ++ [.keepSlots, .czDecomp, .wvnMoved, .rdPart,
      .rdWrap, .rdSlot]
  | .compressionBlockDone _ => completionFields ++ groupFields ++ requestFields ++ [.powerDomOn, .czBytesIn, .czBytesOut, .czCntRaw,
      .wvnMoved]
  | .compressionEngineFault _ => resetFields ++ recordFields ++ inhibitFields ++ [.bootKeepFault, .lanternKeptOutcomes]
  | .stagingStallRelease => completionFields ++ groupFields ++ [.powerDomOn, .czBytesIn, .czBytesOut, .wvnMoved]
  | .cupolaInvocation => requestFields ++ [.powerDomOn, .hostCmds, .keepSlots, .cupolaCntInv, .driveVol, .wrSets, .wrClosed]
  | .cupolaCoreError _ => resetFields ++ recordFields ++ inhibitFields ++ [.bootKeepFault]
  | .keepCopyMismatch _ => resetFields ++ recordFields ++ inhibitFields ++ [.bootKeepFault]
  | .domeParityCompute _ _ => [.wrSets, .wrNextId, .wrStalled, .wrStallAt, .wrDomesReady, .wvnStallTicks]
  | .slotCommit => tapeFields ++ recordFields ++ completionFields ++ groupFields ++ discardFields ++ [.powerTime, .lanternReport,
      .cupolaCntInv, .czBytesIn, .czBytesOut, .driveCart, .wrDomesReleased, .wrHistory, .wrTokens, .wvnMoved, .eccCntRewrite,
      .tilesWfifo, .tilesWfifoAt]
  | .verifyResult _ => tapeFields ++ recordFields ++ completionFields ++ groupFields ++ [.czBytesIn, .czBytesOut, .driveCart,
      .wrDomesReady, .wrDomesReleased, .wrCommits, .wrRewrites, .wvnMoved, .eccDead0, .eccDead1, .eccRun0, .eccRun1, .eccCntSkip,
      .tilesWfifo, .tilesWfifoAt]
  | .writeInhibit _ => recordFields ++ inhibitFields
  | .writeResume => [.powerTime, .wrSlot, .wrTokens, .wrInhibited, .wrHoldUntil, .hlkGroups, .out]
  | .wrapEnd => [.wrWrapEnding, .tilesWfifo, .tilesWfifoAt, .hlkGroups, .out]
  | .turnEntry => recordFields ++ completionFields ++ programFields ++ groupFields ++ discardFields ++ [.lanternReport, .driveLink,
      .wrWrap, .wrSlot, .wrResumeAt, .wrAnchor, .wrSkipLeft, .wrWrapEnding, .wrNoFirst, .wvnState, .wvnRun, .wvnR, .wvnStartDue,
      .wvnRPending, .wvnFrozen, .wvnDwellMs, .wvnRefused, .wvnCntTurn, .tilesChans, .tilesModule, .tilesMountTaps, .rdWrap, .rdSlot,
      .rdActive, .rdEnded, .rdExpected, .hlkGroups, .fresh]
  | .stackLoss _ => resetFields ++ recordFields ++ inhibitFields ++ [.bootKeepFault]
  | .cmResponse _ => tapeFields ++ completionFields ++ [.keepSlots, .driveCart, .wrNextId, .wrStalled, .wrStallAt, .wvnStallTicks]
  | .cmFieldOffTimeout => [.powerTime, .driveLink, .out]
  | .cmPollRetry => [.powerTime, .driveLink, .out]
  | .wvnUpdate => tapeFields ++ recordFields ++ [.powerTime, .wrStalled, .wrStallAt, .wvnCtrl, .wvnFixed, .wvnSetpt, .wvnGain,
      .wvnRate, .wvnBh, .wvnBh2, .wvnVtable, .wvnH, .wvnRho, .wvnInteg, .wvnSlewRest, .wvnStallTicks, .wvnMoved, .wvnCapV, .wvnTurns,
      .wvnUpdates, .wvnCntStall]
  | .speedReached => [.powerAvsTarget, .powerAvsTries, .powerAvsFailed, .wvnVPending, .out]
  | .avsReadback _ => ratioFields ++ programFields ++ [.powerVop, .powerVout, .powerAvsHold, .wvnStartDue, .wvnRefused]
  | .avsAckTimeout => requestFields ++ [.powerAvsTries, .powerAvsHold, .powerAvsFailed, .powerCntAvsFail]
  | .avsRetryPeriod => [.out]
  | .marginSample _ => recordFields ++ [.wvnCapV, .wvnCapM, .wvnMarginOfs, .wvnMarginMs]
  | .bhDwellExpiry => programFields ++ [.wvnState, .rdActive]
  | .backhitchStopped => ratioFields ++ programFields ++ retryFields ++ [.wvnState, .wvnRun, .wvnStartDue, .wvnRCmd, .wvnStoppedAt,
      .wvnRefused, .wvnCntBh, .rdResume, .stpLatWrap, .stpLatRead]
  | .bhMaxWaitExpiry => ratioFields ++ programFields ++ [.powerTime, .wvnState, .wvnRun, .wvnStartDue, .wvnRCmd, .wvnRefused]
  | .stoppedIdleTimeout => programFields ++ [.powerTime, .wvnState, .wvnRun, .wvnR, .wvnStartDue, .wvnRPending, .wvnDwellMs,
      .wvnRefused, .tilesChans, .rdActive]
  | .restartResume => programFields ++ [.wrSlot, .wrAnchor, .wrNoFirst, .wvnState, .wvnFrozen, .wvnDwellMs, .rdActive]
  | .readAhead => ratioFields ++ programFields ++ retryFields ++ [.wvnState, .wvnRun, .wvnStartDue, .wvnDwellMs, .wvnRefused,
      .rdActive, .rdResume, .stpLatWrap, .stpLatRead]
  | .samplePacket _ _ _ _ _ _ => recordFields ++ inhibitFields ++ ratioFields ++ [.powerDomOn, .powerDomFault, .lanternOutOfService,
      .wrHoldUntil, .wvnRCmd, .wvnFrozen, .tilesChans, .tilesArrivals, .stpReaders, .stpThetaCal, .stpThetaHead]
  | .syncWindow _ => [.tilesChans]
  | .frameEnd _ => [.tilesChans, .tilesAsm]
  | .blockAReplay _ => [.tilesChans]
  | .siblingPrediction _ => [.tilesChans, .tilesAsm]
  | .realignment _ => [.tilesAsm]
  | .deskewComplete _ => tapeFields ++ completionFields ++ truncateFields ++ readAheadFields ++ retryFields ++ [.keepSlots,
      .czDecomp, .wvnMoved, .eccCntL3, .eccCntUnrec, .rdPart, .rdResume, .rdNextStack, .rdCopySlot]
  | .domeRecovery _ _ => tapeFields ++ completionFields ++ truncateFields ++ readAheadFields ++ retryFields ++ [.keepSlots,
      .czDecomp, .wvnMoved, .eccCntDome, .eccCntUnrec, .rdPart, .rdResume, .rdNextStack]
  | .retryAttemptDone => tapeFields ++ completionFields ++ truncateFields ++ readAheadFields ++ retryFields ++ [.keepSlots,
      .czDecomp, .wvnMoved, .eccCntUnrec, .rdPart, .rdResume]
  | .decryptInvocation => tapeFields ++ recordFields ++ completionFields ++ truncateFields ++ readAheadFields ++ retryFields ++
      [.keepSlots, .cupolaCntInv, .cupolaCntTagFail, .czDecomp, .wvnMoved, .eccCntUnrec, .rdPart, .rdResume]
  | .decompressionBlockDone _ => tapeFields ++ recordFields ++ completionFields ++ truncateFields ++ readAheadFields ++ retryFields
      ++ [.keepSlots, .czDecomp, .czCntErr, .wvnMoved, .rdPart, .rdResume]
  | .hostPacketCommit => tapeFields ++ completionFields ++ truncateFields ++ readAheadFields ++ retryFields ++ [.keepSlots,
      .czDecomp, .wvnMoved, .rdPart, .rdResume]
  | .servoPacket _ => recordFields ++ inhibitFields ++ ratioFields ++ programFields ++ [.powerDomOn, .powerDomFault,
      .lanternOutOfService, .wrPesGood, .wrHoldUntil, .wvnState, .wvnRun, .wvnStartDue, .wvnRCmd, .wvnFrozen, .wvnSlewRest, .wvnDwellMs,
      .wvnRefused, .tilesChans, .tilesWdly, .tilesModule, .tilesMountTaps, .tilesModulesUsed, .tilesNNom, .tilesDeskewed, .tilesArrivals,
      .tilesAsm, .tilesVerifies, .stpBand, .stpWinTu, .stpWinSup, .stpReaders, .stpTapeIds, .stpReels, .stpOneBand, .stpBySrv, .stpRcOn,
      .stpV, .stpAccel, .stpVRef, .stpLpos, .stpFrame, .stpPosRest, .stpLposValid, .stpErrL, .stpErrU, .stpTheta, .stpThetaHist,
      .stpTiltOut, .stpLaws, .stpEstErr, .stpEstRate, .stpBandGap, .stpLatWrap, .stpLatRead, .stpVcm, .stpStepper, .stpVcmSum, .stpVcmN,
      .stpVcmTicks, .stpSeekRest, .stpFEst, .stpFSet, .stpStages, .stpHeldMode, .stpHoldFrom, .stpHoldGood, .stpBrakeUntil, .stpCntHold,
      .stpCntHandover, .stpCntDrop, .stpCntLinkErr, .hlkAdc, .hlkWclk]
  | .feedbackLost => recordFields ++ inhibitFields ++ ratioFields ++ [.wvnSlewRest, .stpMode, .stpBySrv, .stpLaws, .stpHeldMode,
      .stpHoldFrom, .stpHoldGood, .stpCntHold, .stpCntHandover]
  | .fbHoldTimeout => recordFields ++ stepFields ++ [.powerTime, .stpMode, .stpStages, .stpBrakeUntil, .stpCntLinkErr]
  | .controlledStopDone => tapeFields ++ recordFields ++ inhibitFields ++ [.pinsMotEn, .powerTime, .wvnSlewRest, .rdWrap, .rdSlot,
      .rdRetry, .stpV, .stpVRef, .stpLaws, .stpLatLaw, .stpReelLaw, .stpStopping, .stpBrakeUntil, .stpCntHandover]
  | .oneBandTimeout => recordFields ++ inhibitFields ++ [.powerTime]
  | .encoderIndexPulse _ => recordFields ++ [.powerDomOn, .powerDomFault, .lanternOutOfService, .stpReels, .stpStages,
      .stpBrakeUntil, .stpCntDrop, .stpCntLinkErr]
  | .reelLoopTick => recordFields ++ inhibitFields ++ ratioFields ++ [.wrHoldUntil, .wvnSlewRest, .stpBand, .stpWinTu, .stpWinSup,
      .stpReels, .stpBySrv, .stpV, .stpAccel, .stpVRef, .stpLpos, .stpFrame, .stpPosRest, .stpLposValid, .stpLaws, .stpEstErr,
      .stpEstRate, .stpBandGap, .stpVcm, .stpStepper, .stpVcmSum, .stpVcmN, .stpVcmTicks, .stpSeekRest, .stpFEst, .stpFSet, .stpRc,
      .stpRcBin, .stpStages, .stpCntHandover, .stpCntLinkErr]
  | .accSample _ _ _ => recordFields ++ inhibitFields ++ [.wrHoldUntil, .stpAccIdWait, .stpAcc, .stpAccBad, .stpAccFailed]
  | .sensorReading _ _ => recordFields ++ [.stpTheta0, .stpTemp, .stpHum, .stpSensorBad, .stpSensorAbsent]
  | .motionLinkResponse _ _ => tapeFields ++ recordFields ++ completionFields ++ truncateFields ++ inhibitFields ++ readAheadFields
      ++ stepFields ++ retryFields ++ [.pinsMotEn, .keepSlots, .czDecomp, .wvnMoved, .rdPart, .rdResume, .stpVRef, .stpStages]
  | .motionLinkKeepalive => [.stpStages, .stpCntLinkErr, .out]
  | .steepleHeartbeat => tapeFields ++ [.stpBeatAt, .stpBeatLost]
  | .steepleHeartbeatTimeout => recordFields ++ stepFields ++ [.powerTime, .stpBeatLost]
  | .st1Takeover _ => resetFields ++ recordFields ++ inhibitFields ++ [.bootKeepFault]
  | .programStart _ _ _ _ _ => programFields
  | .progEnd => tapeFields ++ recordFields ++ inhibitFields ++ stepFields ++ [.pinsMotEn, .trustTables, .trustSteepleNext,
      .wrHoldUntil, .wvnSlewRest, .stpReaders, .stpBySrv, .stpV, .stpWvnSpeed, .stpVRef, .stpLposValid, .stpLaws, .stpBandGap,
      .stpLatLaw, .stpReelLaw, .stpBrakeUntil, .stpCntHandover]
  | .progSpeed => recordFields ++ ratioFields ++ stepFields ++ [.wvnRCmd, .stpWvnSpeed]
  | .progWaitSpeed => recordFields ++ stepFields
  | .progGotoLpos => recordFields ++ inhibitFields ++ ratioFields ++ stepFields ++ [.wvnSlewRest, .stpVRef, .stpLaws, .stpReelLaw,
      .stpCntHandover]
  | .progWaitLpos => recordFields ++ stepFields
  | .progLateral => recordFields ++ inhibitFields ++ ratioFields ++ stepFields ++ [.wvnSlewRest, .stpLaws, .stpBandGap, .stpLatLaw,
      .stpLatWrap, .stpLatRead, .stpLatOfs, .stpCntHandover]
  | .progWaitLat => recordFields ++ stepFields
  | .progTilt => recordFields ++ stepFields ++ [.stpTiltFixed]
  | .progLaw => recordFields ++ inhibitFields ++ ratioFields ++ stepFields ++ [.wvnSlewRest, .stpLaws, .stpLatLaw, .stpReelLaw,
      .stpCntHandover]
  | .progTension => recordFields ++ stepFields ++ [.stpFGoal]
  | .progDelay => recordFields ++ stepFields ++ [.powerTime]
  | .progBranch => recordFields ++ stepFields
  | .progEnable => recordFields ++ stepFields ++ [.pinsMotEn]
  | .progEvent => recordFields ++ stepFields ++ [.stpEventCode]
  | .progChain => recordFields ++ stepFields
  | .progStop => recordFields ++ stepFields
  | .waitTimeout => recordFields ++ stepFields ++ [.powerTime]
  | .faultClear => [.pinsMotFaultN, .pinsMotEn, .trustTables, .trustSteepleNext, .wrSources, .wrHoldUntil, .stpMode, .stpReaders,
      .stpBySrv, .stpV, .stpVSet, .stpVRef, .stpLposValid, .stpThetaCal, .stpBandGap, .stpAccIdWait, .stpRc, .stpStages, .stpProgram,
      .stpStopping, .stpBrakeUntil, .stpOffByFault, .stpCntLinkErr, .out]
  | .groupTrainStart _ => requestFields ++ [.hlkGroups]
  | .cdrTimeout _ => requestFields ++ [.hlkGroups]
  | .blockLockGained _ _ => requestFields ++ [.hlkGroups]
  | .blockTimeout _ => recordFields ++ [.hlkGroups]
  | .trainPacket _ _ _ _ => recordFields ++ ratioFields ++ [.powerDomOn, .powerDomFault, .lanternOutOfService, .wvnRCmd, .wvnFrozen,
      .tilesChans, .stpReaders, .hlkGroups]
  | .identTimeout _ => recordFields ++ [.hlkGroups]
  | .downRetryTimeout _ => requestFields ++ [.hlkGroups]
  | .statusPacket _ _ _ => tapeFields ++ recordFields ++ inhibitFields ++ [.powerDomFault, .lanternOutOfService, .wrHoldUntil,
      .stpReaders]
  | .inboundLaneLost _ _ => recordFields ++ ratioFields ++ [.powerDomOn, .powerDomFault, .lanternOutOfService, .wvnRCmd, .wvnFrozen,
      .tilesChans, .stpReaders, .hlkGroups]
  | .outboundLaneLost _ _ => recordFields ++ inhibitFields ++ [.powerDomOn, .powerDomFault, .lanternOutOfService, .wrHoldUntil, .stpReaders]
  | .samplePacketLost _ _ => recordFields ++ inhibitFields ++ [.wrHoldUntil, .tilesChans, .tilesArrivals, .stpThetaCal, .stpThetaHead]
  | .tokenPeriod => [.hlkGroups, .out]
  | .retrain _ => requestFields ++ [.hlkGroups, .hlkRetrainNext]
  | .groupEn _ => requestFields ++ [.hlkGroups, .hlkGroupEn, .hlkGroupEnNext]
  | .sourceRequest _ => requestFields
  | .claim _ => requestFields ++ [.blfSources, .blfCores, .blfLatched, .blfCntSpurious]
  | .eoi _ _ _ => resetFields ++ recordFields ++ inhibitFields ++ [.bootKeepFault]
  | .belfryMaskWrite _ _ _ _ => requestFields ++ [.blfSources]
  | .coreTimerExpiry _ _ => requestFields
  | .interCoreSignal _ _ => requestFields ++ [.blfCores]
  | .belfryCopyMismatch _ => recordFields ++ [.blfCopyOk, .blfCntParity]
  | .coreHeartbeatMissed _ => resetFields ++ recordFields ++ inhibitFields ++ [.bootKeepFault]
  | .hqItemWrite _ _ _ => recordFields ++ [.hqQueues, .hqCntParity]
  | .hqItemRead _ _ => recordFields ++ [.hqQueues, .hqCntParity]
  | .hqStaleTail _ _ => recordFields ++ [.powerTime, .hqQueues, .hqCntParity, .hqCntStale]
  | .hqFlush _ => recordFields ++ [.hqQueues, .hqCntParity, .hqCntFlush]
  | .hqDrain _ => [.hqQueues]
  | .hqDrainDone _ => recordFields ++ [.hqQueues, .hqCntParity]
  | .instanceFault _ _ => resetFields ++ recordFields ++ inhibitFields ++ [.bootKeepFault, .lanternKeptOutcomes, .eccDead0, .eccDead1]
  | .domainIdleGate _ => [.powerDomOn]
  | .ps4Commit => resetFields ++ recordFields ++ inhibitFields ++ [.powerTime, .powerRails, .fresh]
  | .powerStateExit _ => [.powerPstate, .powerEntering, .powerDomOn, .powerRails, .out]
  | .lanTrigArm _ => [.lanternTrigCode, .lanternTrigPost, .lanternArmed, .lanternFired]
  | .ctBroadcastWrite _ _ => [.hostCntBadAcc, .tilesSyncCfg, .tilesTapIdx, .tilesWtrim, .tilesRetry, .tilesRetryCtl]
  | .rcRead _ _ => counterFields
  | .loWordRead _ _ => counterFields
  | .badAccess _ _ _ _ => [.hostCntBadAcc, .out]
  | .registerWrite _ _ _ => completionFields ++ truncateFields ++ readAheadFields ++ groupFields ++ contextFields ++
      [.bootActivation, .powerPstate, .powerEntering, .powerDomOn, .lanternCfg, .lanternTrigCode, .lanternTrigPost, .lanternArmed,
      .lanternFired, .lanternEvents, .hostPortA, .hostPortB, .hostCfgErr, .hostAqSize, .hostAqSqbLo, .hostAqSqbHi, .hostAqCqbLo,
      .hostAqCqbHi, .hostResetAfterSwitch, .hostCntDbErr, .hostCntBadAcc, .cupolaCfg, .czCfg, .wvnNew, .eccLdpcCfg, .eccRsCfg,
      .eccEscCfg, .eccVfyCfg, .eccVfyCfg2, .eccWinhCfg, .tilesSyncCfg, .tilesTapIdx, .tilesWtrim, .tilesRetry, .tilesRetryCtl, .stpWinh,
      .stpCoefIdx, .hlkGroups, .hlkGroupEn, .hlkGroupEnNext, .hlkRetrainNext, .hlkCfg, .blfSrcIdx]
  | .encoderEdge _ _ _ => recordFields ++ inhibitFields ++ ratioFields ++ [.powerDomOn, .powerDomFault, .lanternOutOfService,
      .wvnSlewRest, .stpMode, .stpReaders, .stpReels, .stpBySrv, .stpLaws, .stpStages, .stpHeldMode, .stpHoldFrom, .stpHoldGood,
      .stpBrakeUntil, .stpCntHold, .stpCntHandover, .stpCntDrop, .stpCntLinkErr]
  | .discardedPacket _ _ => recordFields ++ ratioFields ++ [.powerDomOn, .powerDomFault, .lanternOutOfService, .wvnRCmd, .wvnFrozen,
      .tilesChans, .stpReaders, .hlkGroups]
  | .holdoverReturn _ => [.powerRefA, .powerRefB, .powerSrc, .powerCntHoldover]
  | .eccEncode => tapeFields

/-! ## What a reset leaves -/

/-- What a part reset makes of the state: the control side and every unit of the powered domains afresh, one more reset counted,
nothing driven; AON, the MRAM, the fuses, the flash and the pins as they stood (R351, R372). -/
def partResetOf (s t : State) : Prop :=
  t.boot.phase = .held ∧ t.boot.bootCount = (s.boot.bootCount + 1) % 2 ^ 32 ∧ t.boot.ready = false ∧ t.boot.confirmed = false ∧
  t.boot.watchdog = none ∧ t.pins.alarmAsserted = false ∧ t.pins.motEn = 0 ∧ t.trust.debug = false ∧ t.trust.cause = 0 ∧
  t.host = { ({} : HostIf) with floor := s.host.floor } ∧ t.keep = { ({} : Keep) with loadSeq := s.keep.loadSeq } ∧
  t.cupola = {} ∧ t.cz = {} ∧ t.drive.vol = none ∧ t.wr = {} ∧ t.wvn = {} ∧ t.rd = {} ∧ t.hlk = {} ∧ t.hq = {} ∧
  t.stp.mode = .off ∧ t.tiles.chans = Vector.replicate 1024 {} ∧ t.blf.coreOk = 0xF ∧
  t.blf.latched = s.blf.latched ∧ t.blf.wakeEn = s.blf.wakeEn ∧ t.trust.press = s.trust.press ∧ t.trust.sealOk = s.trust.sealOk ∧
  t.power.rails = s.power.rails ∧ t.power.lifeMram = s.power.lifeMram ∧
  t.boot.preferred = s.boot.preferred ∧ t.boot.fails = s.boot.fails ∧ t.boot.slotA = s.boot.slotA ∧ t.boot.slotB = s.boot.slotB ∧
  t.boot.epoch = s.boot.epoch ∧ t.boot.minVersion = s.boot.minVersion ∧ t.boot.serial = s.boot.serial ∧ t.boot.flash = s.boot.flash ∧
  t.trust.tableKey = s.trust.tableKey ∧ t.trust.signers = s.trust.signers ∧ t.trust.lifetime = s.trust.lifetime ∧
  t.ecc.dead0 = s.ecc.dead0 ∧ t.ecc.dead1 = s.ecc.dead1 ∧ t.stp.thetaCal = s.stp.thetaCal ∧ t.tiles.savedTaps = s.tiles.savedTaps

/-! ## The invariants of a run -/

/-- The byte stores of the block, the boot flash and the memory of a cartridge that is in, are in canonical form (log 12). -/
def memoryInv (s : State) : Prop := Memory.wf s.boot.flash ∧ ∀ c, s.drive.cart = some c → Memory.wf c.cm

/-! ## The forms of the statements -/

/-- The part runs, and this command of a queue has been fetched and started and waits for its own row: queue, tag and opcode. -/
def inHand (s : State) (q tag op : Nat) (c : Cmd) : Prop := live s = true ∧ startedCmd s q tag op = some c

/-- A command answers by completing the host's command (q, tag) with a status and a result once the state u is reached. -/
def answers (i : Instr) (s : State) (q tag st res : Nat) (u : State) : Prop := exec i s = .next (reply q tag st res u)

/-- A Lantern record of this code with these data bytes is in the ring, under the number that follows the last one (R381, R382). -/
def madeRecord (code : Nat) (data : Bytes) (s t : State) : Prop :=
  ∃ r ∈ t.lantern.ring, r.code = code ∧ r.data = fit 36 data ∧ r.rseq = (s.lantern.rseq + 1) % 2 ^ 32

/-- Belfry source n is pending (R329). -/
def isPending (s : State) (n : Nat) : Prop := (getAt s.blf.sources n {}).pending = true

/-- The command is the only one outstanding, no reset is under way, no completion is held, and its queue has a path and a free slot. -/
def alone (s : State) (c : Cmd) (x : QueuePair) (p : Port) : Prop :=
  s.host.cmds = [c] ∧ s.host.resetting = [] ∧ s.host.resetBusy = false ∧ (∀ y ∈ s.host.qps, y.heldComps = []) ∧
  qpOf s c.qid = some x ∧ queuePath s x = some p ∧ cqRoom x = true

/-- No command is outstanding, and the newest entry of a command's queue is its completion with this status and result (R279). -/
def completed (t : State) (c : Cmd) (st res : Nat) : Prop :=
  t.host.cmds = [] ∧ ∃ y e, qpOf t c.qid = some y ∧ y.posted.getLast? = some e ∧ e.comp.tag = c.tag ∧ e.comp.status = st ∧ e.comp.result = res

/-- The commands that do not ask whether the control cores run: resets, start-up, what AON and the wake latches see, the time base, the
SMBus, and what reaches Belfry and the hardware queues directly (R351, R371, R386, R405). -/
def actsHeld : Instr → Bool
  | .powerOnReset | .pwrGoodFall _ | .sysResetNLow _ | .startUp _ | .startConfirm _ | .watchdogExpiry | .testEnHigh | .strapChange _
  | .alarm _ | .sealLfsrTick _ _ | .presencePress | .presenceWindowExpiry | .wakeLatch _ _ | .cartRemoved | .cartInserted _
  | .shockNAssert _ | .shockNClear | .motFaultNAssert | .timeBaseSwitch _ _ | .holdoverReturn _ | .lifetimeCheckpoint | .health
  | .lanternRead _ | .powerStateExit _ | .sourceRequest _ | .claim _ | .eoi _ _ _ | .belfryMaskWrite _ _ _ _ | .coreTimerExpiry _ _
  | .interCoreSignal _ _ | .belfryCopyMismatch _ | .coreHeartbeatMissed _ | .hqItemWrite _ _ _ | .hqItemRead _ _ | .hqStaleTail _ _
  | .hqFlush _ | .hqDrain _ | .hqDrainDone _ => true
  | _ => false

/-- The header and the payload of a TRAIN that is acted on, and of a STATUS (R208, R218, R219). -/
def trainOk (h p : BitVec 64) : Bool := packetOk 4 (0x1F * 2 ^ 7 + 0xFFFFF * 2 ^ 20) h [p] && decide (p.toNat < 2 ^ 41)
def statusOk (h p : BitVec 64) : Bool :=
  packetOk 3 (0xF * 2 ^ 8 + 0xF * 2 ^ 36) h [p] && bits p.toNat 10 2 == 0 && bits p.toNat 26 6 == 0

/-- A program runs, is not paused, and the step in hand has this opcode and these operands (R190, R200). -/
def inStep (s : State) (op a b : Nat) : Prop := live s = true ∧ s.stp.mode = .move ∧ stepInHand s = some (op, a, b)

/-- A program fault: the code, the program ended, and a controlled stop at A_STOP begun (R196, R201). -/
def faultsWith (code : Nat) (s t : State) : Prop :=
  t.stp.program.running = false ∧ t.stp.program.waiting = false ∧ t.stp.program.fault = code ∧ t.stp.stopping = some (aStop s) ∧
  t.stp.vSet = 0 ∧ t.stp.cntStop = inc s.stp.cntStop

/-- The program goes on to its next step; there is none behind step 31 (R201). -/
def stepGoesOn (s t : State) : Prop :=
  if 31 ≤ s.stp.program.step then faultsWith 4 s t
  else t.stp.program = { s.stp.program with step := s.stp.program.step + 1, waiting := false, due := none, met := 0 }

/-- The step waits, from now on when it has not waited yet: then with this time of its end (R200). -/
def stepWaits (due : Option Nat) (s t : State) : Prop :=
  t.stp.program.waiting = true ∧ t.stp.program.step = s.stp.program.step ∧ t.stp.program.running = s.stp.program.running ∧
  t.stp.program.due = if s.stp.program.waiting then s.stp.program.due else due

/-- A source of Belfry, and a hardware queue (R329, R343). -/
def srcOf (s : State) (n : Nat) : Source := getAt s.blf.sources n {}

/-- Every core is offered what Table 13-3 has it offered now (R332). -/
def offersFresh (s : State) : Prop := ∀ c : Fin 4, s.blf.cores[c].offer = choice s.blf c

/-- A further instance of a row may leave service without a reset (Table 15-1). -/
def spareLeft (s : State) (row : FaultRow) (i : Nat) : Prop := outOf s row i = false ∧ noSpare s row = false

/-- The state with its secrets blanked: the bytes of every key and derived key, the transport halves, the context KEK, what the open
contexts hold, the device secret and the endorsement key (R417). -/
def withoutSecrets (s : State) : State :=
  let gen := fun (g : Gen) => { g with key := [], derived := none }
  { s with
    keep := { s.keep with
      slots := s.keep.slots.map (fun k => { k with cur := k.cur.map gen, shadow := k.shadow.map gen }), transport := none, ctxKek := none }
    cupola := { s.cupola with ctxs := s.cupola.ctxs.map fun x => { x with chain := [], ghash := [], held := [] } }
    boot := { s.boot with deviceSecret := [], endorsement := ([], []) } }

end Sys2Proof.Machine
end

