-- ==== Sys2Proof/Certificates/Slice0/Obligations.lean ====
section
/-! DEFINITION. The statements for the provers, family by family of the table of operations and events. -/

open Sys2Proof Sys2Proof.Machine

/-! ## The block and its queue -/

/-- A step with a command at the front of the queue runs that command with the rest of the queue; the queue is the model's own (log 18). -/
def Obligations.StepRunsTheFrontCommand : Prop :=
  ∀ (c : Instr) (s : State), step { s with pending := c :: s.pending } = exec c s

/-- With nothing waiting the time base counts one tick: a count of REFCLK, or in holdover a period of the crystal with its fraction
kept; nothing else changes (log 18, R405). -/
def Obligations.EmptyQueueCountsOneTick : Prop :=
  ∀ s : State, s.pending = [] → ∃ t, step s = .next t ∧ changesOnly [.powerTime, .powerFrac] s t ∧
    (s.power.src ≠ .holdover → t.power.time = s.power.time + 1 ∧ t.power.frac = s.power.frac) ∧
    (s.power.src = .holdover → 128 * t.power.time + t.power.frac = 128 * s.power.time + s.power.frac + 390625)

/-- Every command answers with a next state, whatever the state: no command of this block stops it (log 1). For twelve of them the
effect they complete with is stated here too: what an alarm, a tick of the seal loop and a wake input do, a record that a READ or VERIFY
passes whole and that a SPACE passes, the loss of a lane in either direction, the outbound tokens, the switches of the head link, and a
packet that is discarded. -/
def Obligations.EveryCommandAnswersNext : Prop :=
  (∀ (c : Instr) (s : State), ∃ t, exec c s = .next t) ∧
  (∀ (k : Fin 5) (s : State), live s = true → s.power.pstate ≠ 4 → ∃ t, exec (.alarm k) s = .next t ∧ t.pins.alarmAsserted = true ∧
    t.trust.cause.getLsbD k.val = true ∧ t.keep.erased = true) ∧
  (∀ s : State, live s = true → let bit := (lfsrStep s.trust.lfsr).getLsbD 0
    ∃ t, exec (.sealLfsrTick bit bit) s = .next t ∧ t.trust.lfsr = lfsrStep s.trust.lfsr ∧ t.trust.mismatches = 0 ∧
      t.trust.sealOk = true ∧ t.out = s.out ++ [.sealDrive bit]) ∧
  (∀ (i : Fin 16) (ns : Nat) (s : State), 100 ≤ ns → ∃ t, exec (.wakeLatch i ns) s = .next t ∧ t.blf.latched.getLsbD i.val = true) ∧
  (∀ (s : State) (q : Fin 256) (tag : BitVec 16) (c : Cmd) (x : QueuePair) (p : Port) (v : Volume) (i : Instr) (o : Obj),
    (i = .read q tag ∧ inHand s q.val tag.toNat opRead c ∧ o.length ≤ lengthField c.entry) ∨
      (i = .verify q tag ∧ inHand s q.val tag.toNat opVerify c ∧ noDecrypt c = false) → alone s c x p → c.met = [] →
    s.drive.vol = some v → (partAt s (partField c.entry)).inUse = true → countField c.entry = 1 → c.count = 0 → c.used = 0 →
    c.lon < logicalEndOf s (partField c.entry) → findObj s c c.lon = .object o → o.mark = false →
    (∀ b ∈ s.rd.badBlocks, ¬ (b.1 = partField c.entry ∧ b.2.1 = c.lon)) →
    (readyBytes s (partField c.entry) c.lon o.blocks.length).length = o.blocks.length →
    ∃ t, exec i s = .next t ∧ completed t c (if 4 ≤ o.level then 0x0001 else 0) 1) ∧
  (∀ (s : State) (q : Fin 256) (tag : BitVec 16) (c : Cmd) (x : QueuePair) (p : Port) (v : Volume) (o : Obj),
    inHand s q.val tag.toNat opSpace c → alone s c x p → c.met = [] → s.drive.vol = some v →
    (partAt s (partField c.entry)).inUse = true → specField c.entry 48 1 = 0 → countField c.entry = 1 → c.count = 0 → c.used = 0 →
    c.lon < logicalEndOf s (partField c.entry) → findObj s c c.lon = .object o → o.mark = false →
    ∃ t, exec (.space q tag) s = .next t ∧ completed t c (if 4 ≤ o.level then 0x0001 else 0) 1) ∧
  (∀ (g lane : Fin 8) (s : State), live s = true → (hlGroup s g).rxLive.getLsbD lane = true → ∃ t, exec (.inboundLaneLost g lane) s = .next t ∧
    (hlGroup t g).rxLive = setBit (hlGroup s g).rxLive lane false) ∧
  (∀ (g : Fin 8) (lane : Fin 2) (s : State), live s = true → (hlGroup s g).txLive.getLsbD lane = true →
    ∃ t, exec (.outboundLaneLost g lane) s = .next t ∧ (hlGroup t g).txLive = setBit (hlGroup s g).txLive lane false) ∧
  (∀ (g : Fin 8) (j : Fin 2) (s : State), live s = true → s.wr.tokens = true → s.wr.sources = 0 → (hlGroup s g).state = .up →
    (hlGroup s g).txLive.getLsbD j = true →
    ∃ t, exec .tokenPeriod s = .next t ∧ getAt (hlGroup t g).tseq j 0 = getAt (hlGroup s g).tseq j 0 + 1) ∧
  (∀ (mask : BitVec 8) (s : State), live s = true → s.drive.vol = none → ∃ t, exec (.retrain mask) s = .next t ∧
    ∀ (g : Fin 8), mask.getLsbD g = true → (hlGroup t g).refused = false ∧
      (hlGroup t g).state = if halvesOn s g = true ∧ s.hlk.groupEn.getLsbD g = true then .cdr else .down) ∧
  (∀ (mask : BitVec 8) (s : State), live s = true → s.drive.vol = none → ∃ t, exec (.groupEn mask) s = .next t ∧ t.hlk.groupEn = mask ∧
    ∀ (g : Fin 8), mask.getLsbD g = false → (hlGroup t g).state = .down) ∧
  (∀ (g lane : Fin 8) (s : State), live s = true → ∃ t, exec (.discardedPacket g lane) s = .next t ∧
    (hlGroup t g).cntCrc = inc (hlGroup s g).cntCrc)

/-- A step that ran a waiting command leaves exactly the commands behind it, in their order. -/
def Obligations.QueueIsFirstInFirstOut : Prop :=
  ∀ (c : Instr) (rest : List Instr) (s t : State), s.pending = c :: rest → step s = .next t → t.pending = rest

/-- Each command changes nothing but the fields that Safety.touches lists for it: every other register, buffer, counter and pin is as it
was, whatever the operands and the state. -/
def Obligations.EachCommandChangesOnlyItsFields : Prop :=
  ∀ (c : Instr) (s t : State), exec c s = .next t → changesOnly (touches c) s t

/-- The byte stores stay in canonical form at every step, from every state in which they are (log 12). -/
def Obligations.ByteStoresStayCanonical : Prop := ∀ s t : State, memoryInv s → step s = .next t → memoryInv t

/-- They are in canonical form right after reset. -/
def Obligations.ByteStoresStartCanonical : Prop := memoryInv State.reset

/-- The fused identity never changes: serial number, device secret, root hashes and endorsement are the same after every step. -/
def Obligations.FusedIdentityNeverChanges : Prop :=
  ∀ s t : State, step s = .next t → t.boot.serial = s.boot.serial ∧ t.boot.deviceSecret = s.boot.deviceSecret ∧
    t.boot.rootHashes = s.boot.rootHashes ∧ t.boot.endorsement = s.boot.endorsement

/-! ## Resets and start-up -/

/-- The part reset of SYS_RESET_N, of a watchdog that expires, and of TEST_EN: what it resets and what AON, MRAM, fuses and flash keep. A
pulse of SYS_RESET_N of 100 ns or less is never taken, one of 1 µs or more always, and between the two it is either (R434); while the part is held in reset it adds no second reset (log 179). A fall of PWR_GOOD that
is taken makes a record and a part reset; in PS4, or of 100 ns or less, it does nothing. A power-on reset makes AON
afresh too: time, wake latches and the presence window; lifetime goes on from its last MRAM value, and flash, fuses and the Lantern
regions stay. -/
def Obligations.ResetsLeaveWhatTheirDomainKeeps : Prop :=
  ((∀ (ns : Nat) (s : State), 1000 ≤ ns → (s.boot.phase ≠ .held ∨ s.power.pstate = 4) →
     ∃ t, exec (.sysResetNLow ns) s = .next t ∧ partResetOf s t ∧ t.power.time = s.power.time) ∧
   (∀ (ns : Nat) (s : State), 1000 ≤ ns → s.boot.phase = .held → s.power.pstate ≠ 4 → exec (.sysResetNLow ns) s = .next s) ∧
   (∀ (ns : Nat) (s : State), ns ≤ 100 → exec (.sysResetNLow ns) s = .next s) ∧
   (∀ (ns : Nat) (s : State), 100 < ns → ns < 1000 → ∃ t, exec (.sysResetNLow ns) s = .next t ∧
     (partResetOf s t ∨ changesOnly [.fresh] s t)) ∧
   (∀ (s : State) (due cause : Nat), s.boot.watchdog = some (due, cause) → ∃ t, exec .watchdogExpiry s = .next t ∧ partResetOf s t ∧
     t.power.time = max s.power.time due) ∧
   (∀ s : State, s.boot.watchdog = none → exec .watchdogExpiry s = .next s) ∧
   (∀ s : State, (s.boot.phase ≠ .held ∨ s.power.pstate = 4) → ∃ t, exec .testEnHigh s = .next t ∧ partResetOf s t ∧ t.pins.testEn = true) ∧
   (∀ s : State, s.boot.phase = .held → s.power.pstate ≠ 4 →
     exec .testEnHigh s = .next { s with pins := { s.pins with testEn := true } })) ∧
  ((∀ (ns : Nat) (s : State), 1000 ≤ ns → s.power.pstate ≠ 4 → s.boot.phase ≠ .held → ∃ t, exec (.pwrGoodFall ns) s = .next t ∧ partResetOf s t) ∧
   (∀ (ns : Nat) (s : State), 1000 ≤ ns → s.power.pstate ≠ 4 → s.boot.phase = .held → ∃ t, exec (.pwrGoodFall ns) s = .next t ∧
     t.boot = s.boot ∧ t.host.cmds = s.host.cmds ∧ madeRecord 0x0080 (openNs s) s t) ∧
   (∀ (ns : Nat) (s : State), ns ≤ 100 ∨ s.power.pstate = 4 → exec (.pwrGoodFall ns) s = .next s) ∧
   (∀ s : State, ∃ t, exec .powerOnReset s = .next t ∧ t.boot.phase = .held ∧ t.boot.bootCount = (s.boot.bootCount + 1) % 2 ^ 32 ∧
     t.power.time = 0 ∧ t.power.lifeBase = s.power.lifeMram ∧ t.power.lifeMram = s.power.lifeMram ∧ t.blf = {} ∧ t.trust.press = none ∧
     t.lantern.ring = s.lantern.ring ∧ t.lantern.pinnedRecs = s.lantern.pinnedRecs ∧ t.lantern.rseq = s.lantern.rseq ∧
     t.boot.flash = s.boot.flash ∧ t.boot.fails = s.boot.fails ∧ t.boot.epoch = s.boot.epoch ∧ t.boot.serial = s.boot.serial ∧
     t.keep = { ({} : Keep) with loadSeq := s.keep.loadSeq } ∧ t.host.cmds = [] ∧ t.wr = {}))

/-- START_UP of a held part: the straps are the majority of 15 readings; STRAP[0] leads to boundary scan; a failure of Table 14-9
leads straight to the fallback program with its cause, a Keep fault kept from the run before as one found now; else the slot that FAILS selects is tried first, and when its checks pass the
part hands over to it with FAILS raised and the watchdog at 2 s. START_CONFIRM: FAILS is 0, the running slot becomes PREFERRED and reads as good, the watchdog stops, and the anti-rollback updates
of R359 follow: the fused epoch never falls, and within one epoch MIN_VERSION never falls. -/
def Obligations.StartUpAndConfirmation : Prop :=
  (∀ (o : StartObs) (s : State), s.boot.phase = .held → s.pins.sysResetN = true → s.pins.pwrGood = true → s.pins.testEn = false →
     s.power.pstate ≠ 4 →
     ∃ t, exec (.startUp o) s = .next t ∧ t.boot.straps = majorityStraps o.strapReads ∧
       ((majorityStraps o.strapReads).getLsbD 0 = true → t.boot.phase = .scan) ∧
       ((majorityStraps o.strapReads).getLsbD 0 = false →
         ((o.selfTestOk = false ∨ o.fuseWriteOk = false) → t.boot.phase = .fallback ∧ t.boot.cause = 4) ∧
         (o.selfTestOk = true → o.fuseWriteOk = true → (o.keepOk = false ∨ s.boot.keepFault = true) → t.boot.phase = .fallback ∧ t.boot.cause = 7) ∧
         t.boot.keepFault = false ∧
         (o.selfTestOk = true → o.fuseWriteOk = true → o.keepOk = true → s.boot.keepFault = false → o.mramOk = true → o.flashReads = true →
           (majorityStraps o.strapReads).getLsbD 3 = false → 3 ≤ s.boot.fails → t.boot.phase = .fallback ∧ t.boot.cause = 1) ∧
         (o.selfTestOk = true → o.fuseWriteOk = true → o.keepOk = true → s.boot.keepFault = false → o.mramOk = true → o.flashReads = true →
           (majorityStraps o.strapReads).getLsbD 3 = false → s.boot.fails < 3 → s.boot.fromPs4 = false →
           let first := if s.boot.fails % 2 = 0 then s.boot.preferred else otherPort s.boot.preferred
           checkSlot s first (match first with | .a => o.slotAReads | .b => o.slotBReads) true = 1 →
           t.boot.phase = .normal ∧ t.boot.slot = first ∧ t.boot.fails = s.boot.fails + 1 ∧
           t.boot.watchdog = some (s.power.time + 200000000, 2)))) ∧
  (∀ (ok : Bool) (s : State), s.boot.phase = .normal → s.boot.confirmed = false →
     ∃ t, exec (.startConfirm ok) s = .next t ∧ t.boot.fails = 0 ∧ t.boot.preferred = s.boot.slot ∧ t.boot.confirmed = true ∧
       t.boot.ready = true ∧ t.boot.watchdog = none ∧ (s.boot.slot = .a → t.boot.slotA = 1) ∧ (s.boot.slot = .b → t.boot.slotB = 1) ∧
       (s.boot.epoch < manEpoch (slotManifest s s.boot.slot) → ok = true →
         t.boot.epoch = manEpoch (slotManifest s s.boot.slot) ∧ t.boot.minVersion = manFloor (slotManifest s s.boot.slot)) ∧
       (¬ s.boot.epoch < manEpoch (slotManifest s s.boot.slot) → t.boot.epoch = s.boot.epoch ∧
         t.boot.minVersion = versionMax s.boot.minVersion (manFloor (slotManifest s s.boot.slot))) ∧
       s.boot.epoch ≤ t.boot.epoch ∧ t.boot.flash = s.boot.flash ∧ t.keep = s.keep ∧ t.trust = s.trust)



/-! ## The queue model -/

/-- ADMIN_ENABLE: with sizes in range the admin queue starts as queue pair 0, from the bases and sizes in the GEN_ registers, through the
port of the write; with a size out of range CFG_ERR is set and nothing starts; a queue that runs goes on; while a reset is in progress
nothing happens. ENABLE reads as written (after a refusal that is the model's reading, log 177). -/
def Obligations.AdminQueueStartsAsConfigured : Prop :=
  (∀ (p : Port) (s : State), live s = true → s.host.resetBusy = false → qpOf s 0 = none → aqSizesOk s.host = true →
    ∃ t x, exec (.adminEnable p) s = .next t ∧ qpOf t 0 = some x ∧ t.host.enable = true ∧ t.host.cfgErr = false ∧
      x.sqSize = s.host.aqSize.toNat % 2 ^ 16 ∧ x.cqSize = s.host.aqSize.toNat / 2 ^ 16 ∧ x.vector = 0 ∧ x.group = 0 ∧
      x.active = p ∧ x.sqBase % 4096 = 0 ∧ x.cqBase % 4096 = 0 ∧ x.phase = true ∧ x.seq = 0 ∧ x.cqTail = 0 ∧ x.posted = [] ∧
      (∀ q, q ≠ 0 → qpOf t q = qpOf s q) ∧ changesOnly [.hostEnable, .hostCfgErr, .hostQps] s t) ∧
  (∀ (p : Port) (s : State), live s = true → s.host.resetBusy = false → qpOf s 0 = none → aqSizesOk s.host = false →
    ∃ t, exec (.adminEnable p) s = .next t ∧ t.host.cfgErr = true ∧ t.host.enable = true ∧ changesOnly [.hostEnable, .hostCfgErr] s t) ∧
  (∀ (p : Port) (s : State), live s = true → s.host.resetBusy = false → (qpOf s 0).isSome → ∃ t, exec (.adminEnable p) s = .next t ∧
    t.host.enable = true ∧ changesOnly [.hostEnable] s t) ∧
  (∀ (p : Port) (s : State), live s = true → s.host.resetBusy = true → exec (.adminEnable p) s = .next s)

/-- FUNC_RESET, FLR and PORT_RESET of a function with no command outstanding and no volume mounted: every queue pair is gone, ENABLE is
clear, and every host group is at its reset state. FUNC_RESET does nothing while one is in progress. An FLR puts the port's MSI-X table
back; a port reset also takes its link down. -/
def Obligations.FunctionResetEndsEveryQueue : Prop :=
  (∀ (p : Port) (s : State), live s = true → s.host.resetBusy = true → exec (.funcReset p) s = .next s) ∧
  (∀ (p : Port) (s : State), live s = true → s.host.resetBusy = false → s.host.holdForSwitch = false → s.host.cmds = [] →
    s.host.resetting = [] → s.drive.vol = none → (∀ x ∈ s.host.qps, x.exposed = [] ∧ x.heldComps = []) →
    (∃ t, exec (.funcReset p) s = .next t ∧ t.host.qps = [] ∧ t.host.enable = false ∧ t.host.resetBusy = false ∧
      t.host.groups = Vector.replicate 32 {} ∧ t.host.aqSize = s.host.aqSize ∧ t.keep.loadSeq = s.keep.loadSeq) ∧
    (∃ t, exec (.flr p) s = .next t ∧ t.host.qps = [] ∧ t.host.enable = false ∧ (portOf t p).msix = Vector.replicate 257 (BitVec.ofNat 128 (2 ^ 96)) ∧
      (portOf t p).bme = false ∧ (portOf t p).linkUp = (portOf s p).linkUp) ∧
    (∀ ns, 1000 ≤ ns → ∃ t, exec (.portReset p ns) s = .next t ∧ t.host.qps = [] ∧ t.host.enable = false ∧ (portOf t p).linkUp = false ∧
      (portOf t p).bme = false))

/-- Doorbells. A tail within its queue exposes the entries up to it, which take the next places in the submission order; a head that
consumes no more than the queue holds frees their slots. A doorbell of no queue, a tail of SQ_SIZE or more and a head past the entries
posted are discarded, counted, and a device event. -/
def Obligations.DoorbellsMoveTheirQueues : Prop :=
  (∀ (p : Port) (q : Fin 256) (tail : BitVec 16) (s : State) (x : QueuePair), live s = true → qpOf s q.val = some x →
    tail.toNat < x.sqSize → (s.host.resetting.any fun e => e.1 == q.val) = false →
    let n := (tail.toNat + x.sqSize - x.sqTail) % x.sqSize
    ∃ t, exec (.sqTailDoorbell p q tail) s = .next t ∧ t.host.nextOrder = s.host.nextOrder + n ∧ t.host.cntDbErr = s.host.cntDbErr ∧
      qpOf t q.val = some { x with sqTail := tail.toNat, exposed := x.exposed ++ (List.range n).map fun i => s.host.nextOrder + i }) ∧
  (∀ (p : Port) (q : Fin 256) (head : BitVec 16) (s : State) (x : QueuePair), live s = true → qpOf s q.val = some x → head.toNat < x.cqSize →
    consumes x head.toNat ≤ cqUsed x → x.heldComps = [] → s.host.cmds = [] → s.host.resetting = [] → s.host.resetBusy = false →
    ∃ t, exec (.cqHeadDoorbell p q head) s = .next t ∧ t.host.cntDbErr = s.host.cntDbErr ∧
      qpOf t q.val = some { x with cqHead := head.toNat, posted := x.posted.drop (consumes x head.toNat) }) ∧
  (∀ (p : Port) (q : Fin 256) (v : BitVec 16) (s : State), live s = true →
    ((∀ x, qpOf s q.val = some x → x.sqSize ≤ v.toNat) → ∃ t, exec (.sqTailDoorbell p q v) s = .next t ∧
      t.host.cntDbErr = inc s.host.cntDbErr ∧ t.host.qps = s.host.qps ∧ t.host.nextOrder = s.host.nextOrder ∧
      t.lantern.events.length = s.lantern.events.length + 1) ∧
    ((∀ x, qpOf s q.val = some x → x.cqSize ≤ v.toNat ∨ cqUsed x < consumes x v.toNat) → ∃ t, exec (.cqHeadDoorbell p q v) s = .next t ∧
      t.host.cntDbErr = inc s.host.cntDbErr ∧ t.host.qps = s.host.qps ∧ t.lantern.events.length = s.lantern.events.length + 1))

/-- SQ_FETCH and COMMAND_START. The queue whose turn it is gives its exposed entries; an entry that passes the checks becomes a command
at its place in the submission order, one that fails a check completes with that check's status and makes no command. The command
that starts is the best of those that may start; its buffer and its LON are settled then, and nothing else changes. -/
def Obligations.FetchAndStartTakeTheQueueInTurn : Prop :=
  (∀ (e : Bytes) (s : State) (x : QueuePair) (o : Nat), live s = true → s.host.holdForSwitch = false → s.power.pstate = 0 →
    s.host.cmds = [] → s.host.resetting = [] → s.host.resetBusy = false → fetchTurn s = some x → qpOf s x.qid = some x → x.exposed = [o] →
    x.heldComps = [] → entryCheck x.qid x.version (s.boot.phase == .fallback) false (fit 64 e) = none → opcodeOf (fit 64 e) ≠ opNegotiate →
    ∃ t, exec (.sqFetch [e]) s = .next t ∧ t.host.cmds = [freshCmd x.qid o (fit 64 e)] ∧ t.host.lastFetched = x.qid ∧ t.out = s.out ∧
      qpOf t x.qid = some { x with exposed := [], sqNext := (x.sqNext + 1) % x.sqSize }) ∧
  (∀ (e : Bytes) (s : State) (x : QueuePair) (o st : Nat) (p : Port), live s = true → s.host.holdForSwitch = false → s.power.pstate = 0 →
    s.host.cmds = [] → s.host.resetting = [] → s.host.resetBusy = false → fetchTurn s = some x → qpOf s x.qid = some x → x.exposed = [o] →
    x.heldComps = [] → cqRoom x = true → queuePath s x = some p →
    entryCheck x.qid x.version (s.boot.phase == .fallback) false (fit 64 e) = some st →
    ∃ t pre post, exec (.sqFetch [e]) s = .next t ∧ t.host.cmds = [] ∧ (opcodeOf (fit 64 e) ≠ opPowerState ∨ x.qid ≠ 0 → pre = []) ∧
      t.out = s.out ++ pre ++ .entry p (x.cqBase + 16 * x.cqTail) (entryBytes x.qid false p (x.seq + if x.phase then 0x8000 else 0) (compOf (freshCmd x.qid o (fit 64 e)) st 0 none)) :: post) ∧
  (∀ (sgl : List Bytes) (s : State) (c : Cmd) (segs : List (Nat × Nat)) (lon : Nat), live s = true → nextStart s = some c →
    bufferOf c.entry sgl = some segs → resolveLon s c.entry = some lon →
    ∃ t, exec (.commandStart sgl) s = .next t ∧ changesOnly [.hostCmds] s t ∧
      t.host.cmds = s.host.cmds.map fun k => if k.qid = c.qid ∧ k.tag = c.tag then
        { k with phase := .started, segs := segs, lon := lon, entry := patch k.entry 8 (le 8 lon) } else k) ∧
  (∀ (sgl : List Bytes) (s : State), live s = true → nextStart s = none → exec (.commandStart sgl) s = .next s) ∧
  (∀ (es : List Bytes) (s : State), live s = true → s.host.holdForSwitch = true ∨ s.power.pstate ≠ 0 → exec (.sqFetch es) s = .next s)

/-- The completion of the only command outstanding: its data first, then one 16-byte entry in the queue's next slot with the status, the
result, the tag and PHASE and SEQ, then only messages; the slot and SEQ move on, and the command is gone. -/
def Obligations.CompletionIsOneEntryAfterItsData : Prop :=
  ∀ (s : State) (c : Cmd) (x : QueuePair) (p : Port) (st res : Nat), s.host.cmds = [c] → isDone c = false → qpOf s c.qid = some x →
    (∀ y ∈ s.host.qps, y.heldComps = []) → queuePath s x = some p → cqRoom x = true → s.host.resetting = [] → s.host.resetBusy = false →
    ∃ y pre post, (reply c.qid c.tag st res s).host.cmds = [] ∧ qpOf (reply c.qid c.tag st res s) c.qid = some y ∧
      y.cqTail = (x.cqTail + 1) % x.cqSize ∧ y.seq = (x.seq + 1) % 2 ^ 15 ∧ (y.phase = if x.cqTail + 1 = x.cqSize then !x.phase else x.phase) ∧
      (∀ o ∈ pre ++ post, ∃ pt v, o = .msix pt v) ∧ (opcodeOf c.entry ≠ opPowerState ∨ c.qid ≠ 0 → pre = []) ∧
      (reply c.qid c.tag st res s).out = s.out ++ pre ++ (c.writes.drop c.sent).map (fun w => .data p w.1 w.2) ++
        .entry p (x.cqBase + 16 * x.cqTail) (le 8 res ++ le 2 c.tag ++ le 1 c.qid ++ le 1 (2 * portNo p) ++ le 2 st ++
          le 2 (x.seq + if x.phase then 0x8000 else 0)) :: post

/-- Windows and masks. When the hold-off or the stale window of a host group closes, the group is empty again and one message has gone
for each vector and port it held; a cleared mask sends what is pending once, and a set mask sends nothing. -/
def Obligations.ModerationDeliversTheGroupOnce : Prop :=
  (∀ (g : Fin 32) (s : State) (at_ : Nat), live s = true → s.host.groups[g].openAt = some at_ →
    (∀ x ∈ s.host.groups[g].held, isPath s x.2 = true ∧ masked (portOf s x.2) x.1 = false) →
    ∃ t, exec (.holdoffExpiry g) s = .next t ∧ t.out = s.out ++ s.host.groups[g].held.map (fun x => .msix x.2 x.1) ∧
      t.host.groups[g] = { s.host.groups[g] with count := 0, held := [], openAt := none, staleAt := none } ∧
      t.power.time = max s.power.time (at_ + 100 * s.host.groups[g].holdoff) ∧
      changesOnly [.powerTime, .hostGroups, .blfCntMsix, .out] s t) ∧
  (∀ (g : Fin 32) (s : State) (at_ : Nat), live s = true → s.host.groups[g].staleAt = some at_ →
    (∀ x ∈ s.host.groups[g].held, isPath s x.2 = true ∧ masked (portOf s x.2) x.1 = false) →
    ∃ t, exec (.staleExpiry g) s = .next t ∧ t.out = s.out ++ s.host.groups[g].held.map (fun x => .msix x.2 x.1) ∧
      t.host.groups[g] = { s.host.groups[g] with count := 0, held := [], openAt := none, staleAt := none } ∧
      t.power.time = max s.power.time (at_ + 100 * s.host.groups[g].stale)) ∧
  (∀ (p : Port) (v : Fin 257) (s : State), live s = true →
    (∃ t, exec (.msixMaskWrite p (some v) true) s = .next t ∧ t.out = s.out ∧ (portOf t p).msix[v].getLsbD 96 = true ∧
      (portOf t p).pba = (portOf s p).pba) ∧
    (isPath s p = true → (portOf s p).fnMask = false → (portOf s p).pba.getLsbD v.val = true →
      ∃ t, exec (.msixMaskWrite p (some v) false) s = .next t ∧ .msix p v.val ∈ t.out ∧ (portOf t p).pba.getLsbD v.val = false ∧
        (portOf t p).msix[v].getLsbD 96 = false))

/-- Ports. A lost port is down, and the loss is recorded; a port that returns is up at the rate and width it trains to; D3hot and a cleared Bus Master Enable
show in the function's state, and D0 with Bus Master Enable serves again. The other port's link is not touched. -/
def Obligations.PortEventsMoveTheirPort : Prop :=
  (∀ (p : Port) (s : State), live s = true → (portOf s p).linkUp = true → s.host.qps = [] →
    ∃ t, exec (.portLoss p) s = .next t ∧ (portOf t p).linkUp = false ∧ (portOf t p).width = 0 ∧
      (portOf t (otherPort p)).linkUp = (portOf s (otherPort p)).linkUp ∧ s.lantern.rseq ≠ t.lantern.rseq) ∧
  (∀ (p : Port) (l : PcieLink) (s : State), live s = true → isPath s p = false → outOf s .hostPort (portNo p) = false → s.host.qps = [] → s.host.cmds = [] →
    ∃ t, exec (.pathRestored ⟨p, l⟩) s = .next t ∧ isPath t p = true ∧
      (portOf t p).width = min (fullWidth p) (2 ^ l.lanes.val) ∧ (portOf t p).rate = 4 + l.rate.val) ∧
  (∀ (p : Port) (s : State), live s = true → s.host.qps = [] → s.host.cmds = [] →
    (∃ t, exec (.functionD3hot p false) s = .next t ∧ (portOf t p).d0 = false ∧ (portOf t p).linkUp = (portOf s p).linkUp) ∧
    (∃ t, exec (.functionD3hot p true) s = .next t ∧ (portOf t p).bme = false ∧ (portOf t p).d0 = (portOf s p).d0) ∧
    (∃ t, exec (.functionD0Return p) s = .next t ∧ (portOf t p).d0 = true ∧ (portOf t p).bme = true))


/-! ## Admin commands -/

/-- While no control core runs, a command that asks for one changes nothing; the model's reading of rows that fall in a reset (log 1). A row that runs a host command changes nothing when no such command has been fetched and started (log 2). -/
def Obligations.RowsOutOfPlaceChangeNothing : Prop :=
  (∀ (c : Instr) (s : State), live s = false → actsHeld c = false → exec c s = .next s) ∧
  ((∀ (s : State) (tag : BitVec 16), (∀ op, startedCmd s 0 tag.toNat op = none) →
     ∀ c ∈ [Instr.identify tag, .negotiate tag, .createQp tag, .deleteQp tag, .formatFloor tag, .wake tag, .queuePort tag, .moderation tag,
       .deadClear tag, .getFeature tag, .getLog tag, .powerState tag, .fwActivate tag, .keyErase tag, .keyQuery tag, .debugUnlock tag,
       .lanternClear tag, .zeroizeAllKeys tag, .armDowngradePermit tag, .resetFailedStartCounter tag, .queueReset tag],
       exec c s = .next s) ∧
   (∀ (s : State) (tag : BitVec 16) (data : Bytes) (ok : Bool), (∀ op, startedCmd s 0 tag.toNat op = none) →
     ∀ c ∈ [Instr.cmArea tag data, .fwStage tag data ok, .keyLoad tag data, .attest tag data, .registerIntegratorKeys tag data, .tableLoad tag data ok],
       exec c s = .next s) ∧
   (∀ (s : State) (q : Fin 256) (tag : BitVec 16), (∀ op, startedCmd s q.val tag.toNat op = none) → cmdOf s q.val tag.toNat = none →
     ∀ c ∈ [Instr.mount q tag, .unmount q tag, .locate q tag, .readPosition q tag, .sync q tag, .fence q tag, .truncate q tag,
       .refreshFullRebuild q tag, .refreshLocateIndex q tag, .partition q tag, .writeMark q tag, .read q tag, .verify q tag, .space q tag],
       exec c s = .next s))

/-- IDENTIFY, NEGOTIATE, GET_FEATURE, KEY_QUERY and ATTEST: what they return. IDENTIFY gives 4,096 bytes that begin with the vendor and
device IDs, NEGOTIATE the lower of the version asked for and 1.2, KEY_QUERY 1,280 bytes and 64 for each slot asked about, ATTEST 10,496
bytes; none of them changes anything but the command and its host writes. -/
def Obligations.QueriesReturnTheirBytes : Prop :=
  (∀ (s : State) (tag : BitVec 16) (c : Cmd), inHand s 0 tag.toNat opIdentify c →
    answers (.identify tag) s 0 tag.toNat 0 0 (writeBuffer 0 tag.toNat 0 (identifyBytes s) s) ∧ (identifyBytes s).length = 4096 ∧
    field (identifyBytes s) 0 2 = 0xF7D5 ∧ field (identifyBytes s) 2 2 = 0x1024) ∧
  (∀ (s : State) (tag : BitVec 16) (c : Cmd), inHand s 0 tag.toNat opNegotiate c →
    answers (.negotiate tag) s 0 tag.toNat 0 (min 0x12 (specField c.entry 48 1)) s) ∧
  (∀ (s : State) (tag : BitVec 16) (c : Cmd), inHand s 0 tag.toNat opGetFeature c →
    (specField c.entry 48 1 = 1 → answers (.getFeature tag) s 0 tag.toNat 0 s.host.floor s) ∧
    (specField c.entry 48 1 = 4 → answers (.getFeature tag) s 0 tag.toNat 0
      (let g := getAt s.host.groups (specField c.entry 49 1) {}; g.holdoff + 2 ^ 16 * g.agg + 2 ^ 32 * g.stale) s) ∧
    (specField c.entry 48 1 = 3 → qpOf s (specField c.entry 49 1) = none → answers (.getFeature tag) s 0 tag.toNat 0x0101 0 s)) ∧
  (∀ (s : State) (tag : BitVec 16) (c : Cmd), inHand s 0 tag.toNat opKeyQuery c → slotField c.entry < 64 →
    ∃ bs, answers (.keyQuery tag) s 0 tag.toNat 0 1344 (writeBuffer 0 tag.toNat 0 bs s) ∧ bs.length = 1344 ∧
      field bs 1216 8 = s.keep.loadSeq % 2 ^ 64 ∧ field bs 1280 1 = slotField c.entry ∧
      field bs 1281 1 = slotCode (keySlot s (slotField c.entry)).state) ∧
  (∀ (s : State) (tag : BitVec 16) (nonce : Bytes) (c : Cmd), inHand s 0 tag.toNat opAttest c →
    ∃ bs, answers (.attest tag nonce) s 0 tag.toNat 0 10496 (writeBuffer 0 tag.toNat 0 bs s) ∧ bs.length = 10496 ∧
      slice bs 0 4 = [0x4C, 0x58, 0x41, 0x52] ∧ slice bs 24 32 = fit 32 nonce)

/-- CREATE_QP makes the pair it describes when every rule holds, and gives 0x0101 and makes nothing otherwise. A QUEUE_RESET of an idle
queue leaves the queue pair as it was; a DELETE_QP of an idle queue removes it; of queue 0 or of no queue either gives 0x0101. -/
def Obligations.QueuePairsAreMadeAndEnded : Prop :=
  (∀ (s : State) (tag : BitVec 16) (c : Cmd), inHand s 0 tag.toNat opCreateQp c →
    let x := describedQp (versionOf s 0) c.entry
    (qpRules s x = true → ∃ u y, answers (.createQp tag) s 0 tag.toNat 0 0 u ∧ changesOnly [.hostQps] s u ∧ qpOf u x.qid = some y ∧
      y.sqSize = specField c.entry 52 2 + 1 ∧ y.cqSize = specField c.entry 54 2 + 1 ∧ y.sqBase = dp0 c.entry ∧ y.cqBase = dp1 c.entry ∧
      y.vector = specField c.entry 49 1 ∧ y.group = specField c.entry 50 1 ∧ y.sqTail = 0 ∧ y.posted = [] ∧
      ∀ q, q ≠ x.qid → qpOf u q = qpOf s q) ∧
    (qpRules s x = false → answers (.createQp tag) s 0 tag.toNat 0x0101 0 s)) ∧
  (∀ (s : State) (tag : BitVec 16) (c : Cmd),
    (inHand s 0 tag.toNat opQueueReset c → (specField c.entry 48 1 = 0 ∨ qpOf s (specField c.entry 48 1) = none) →
      answers (.queueReset tag) s 0 tag.toNat 0x0101 0 s) ∧
    (inHand s 0 tag.toNat opDeleteQp c → (specField c.entry 48 1 = 0 ∨ qpOf s (specField c.entry 48 1) = none) →
      answers (.deleteQp tag) s 0 tag.toNat 0x0101 0 s)) ∧
  (∀ (s : State) (tag : BitVec 16) (c : Cmd) (x : QueuePair), s.host.cmds = [c] → specField c.entry 48 1 ≠ 0 →
    qpOf s (specField c.entry 48 1) = some x → x.exposed = [] → x.heldComps = [] → x.heldTail = none → s.drive.vol = none →
    s.host.resetting = [] → s.host.resetBusy = false → s.cupola.ctxs = [] →
    (inHand s 0 tag.toNat opQueueReset c → ∃ t, exec (.queueReset tag) s = .next t ∧ t.host.cmds = [] ∧
      qpOf t (specField c.entry 48 1) = some x ∧ t.host.resetting = []) ∧
    (inHand s 0 tag.toNat opDeleteQp c → ∃ t, exec (.deleteQp tag) s = .next t ∧ t.host.cmds = [] ∧
      qpOf t (specField c.entry 48 1) = none ∧ t.host.resetting = []))

/-- SET_FEATURE by its features: each stores its value, and what it touches besides is the record it makes. -/
def Obligations.FeaturesStoreTheirValues : Prop :=
  (∀ (s : State) (tag : BitVec 16) (c : Cmd), inHand s 0 tag.toNat opSetFeature c → specField c.entry 48 1 = 1 →
    ∃ u, answers (.formatFloor tag) s 0 tag.toNat 0 0 u ∧ u.host.floor = specField c.entry 52 4 ∧
      changesOnly ([.hostFloor] ++ recordFields) s u ∧ (specField c.entry 52 4 = s.host.floor → changesOnly [.hostFloor] s u)) ∧
  (∀ (s : State) (tag : BitVec 16) (c : Cmd), inHand s 0 tag.toNat opSetFeature c → specField c.entry 48 1 = 2 →
    ∃ u, answers (.wake tag) s 0 tag.toNat 0 0 u ∧
      (portOf u (portOfBit (specField c.entry 49 1))).wakeEn = decide (specField c.entry 52 4 = 1) ∧
      portOf u (otherPort (portOfBit (specField c.entry 49 1))) = portOf s (otherPort (portOfBit (specField c.entry 49 1))) ∧
      changesOnly [.hostPortA, .hostPortB] s u) ∧
  (∀ (s : State) (tag : BitVec 16) (c : Cmd) (x : QueuePair), inHand s 0 tag.toNat opSetFeature c → specField c.entry 48 1 = 3 →
    qpOf s (specField c.entry 49 1) = some x →
    (x.multipath = true → isPath s (portOfBit (specField c.entry 52 4)) = true → x.heldComps = [] →
      ∃ u y, answers (.queuePort tag) s 0 tag.toNat 0 0 u ∧ qpOf u (specField c.entry 49 1) = some y ∧
        y = { x with pref := portOfBit (specField c.entry 52 4), active := portOfBit (specField c.entry 52 4) } ∧
        changesOnly [.hostQps] s u) ∧
    (x.multipath = false ∨ isPath s (portOfBit (specField c.entry 52 4)) = false → answers (.queuePort tag) s 0 tag.toNat 0x0101 0 s)) ∧
  (∀ (s : State) (tag : BitVec 16) (c : Cmd), inHand s 0 tag.toNat opSetFeature c → specField c.entry 48 1 = 4 →
    (h : specField c.entry 49 1 < 32) →
    ∃ u, answers (.moderation tag) s 0 tag.toNat 0 0 u ∧
      u.host.groups[specField c.entry 49 1].holdoff = specField c.entry 52 4 % 2 ^ 16 ∧
      u.host.groups[specField c.entry 49 1].agg = specField c.entry 52 4 / 2 ^ 16 % 2 ^ 8 ∧
      u.host.groups[specField c.entry 49 1].stale = specField c.entry 56 2 ∧
      u.host.groups[specField c.entry 49 1].held = [] ∧ u.host.groups[specField c.entry 49 1].count = 0 ∧
      changesOnly [.hostGroups, .hostPba, .blfCntMsix, .blfCntFlush, .out] s u) ∧
  (∀ (s : State) (tag : BitVec 16) (c : Cmd), inHand s 0 tag.toNat opSetFeature c → specField c.entry 48 1 = 6 →
    ∃ u, answers (.deadClear tag) s 0 tag.toNat 0 0 u ∧ changesOnly ([.eccDead0, .eccDead1] ++ recordFields) s u ∧
      ((specField c.entry 52 4).testBit 31 = true → specField c.entry 49 1 = 0 → u.ecc.dead0 = 0 ∧ u.ecc.dead1 = s.ecc.dead1) ∧
      ((specField c.entry 52 4).testBit 31 = false → specField c.entry 49 1 ≠ 0 → u.ecc.dead0 = s.ecc.dead0 ∧
        u.ecc.dead1 = setBit s.ecc.dead1 (specField c.entry 52 4 % 1024) false))

/-- CM_AREA on a mounted volume: its 1,024 bytes go to the integrator area in pieces of 16, each followed by the read that compares it, behind
what the link already has to do, and nothing else is written; the command completes with 0 once the group is done, with 0x0311 when an
access of it has failed. With no volume mounted it gives 0x0411. -/
def Obligations.TheIntegratorAreaIsWrittenAlone : Prop :=
  (∀ (s : State) (tag : BitVec 16) (data : Bytes) (c : Cmd), inHand s 0 tag.toNat opSetFeature c →
    specField c.entry 48 1 = 5 →
    (s.drive.vol = none → answers (.cmArea tag data) s 0 tag.toNat 0x0411 0 s) ∧
    (s.drive.vol.isSome = true → c.goal = 0 → ∃ t, exec (.cmArea tag data) s = .next t ∧
      t.drive.link.queue = s.drive.link.queue ++ cmOpening s ++ cmWrites cmArea (fit 1024 data) ++ [⟨[], .done (.command 0 tag.toNat)⟩] ∧
      t.drive.cart = s.drive.cart ∧ (cmdOf t 0 tag.toNat).map (·.goal) = some 1 ∧ changesOnly [.hostCmds, .driveLink, .out] s t) ∧
    (s.drive.vol.isSome = true → c.goal = 2 → answers (.cmArea tag data) s 0 tag.toNat 0 0 s) ∧
    (s.drive.vol.isSome = true → 3 ≤ c.goal → answers (.cmArea tag data) s 0 tag.toNat 0x0311 0 s)) ∧
  (∀ (bs : Bytes) (r : CmReq), bs.length = 1024 → r ∈ cmWrites cmArea bs →
    ∃ a, cmArea ≤ a ∧ a + 16 ≤ cmArea + 1024 ∧ (r.job = .write a (slice bs (a - cmArea) 16) ∨ r.job = .check a (slice bs (a - cmArea) 16)))

/-- GET_LOG of the device events: whole 16-byte entries of the window, and with CONSUME those entries are gone and no others; without it
the log stays. -/
def Obligations.LogEntriesAreConsumedAsRead : Prop :=
  ∀ (s : State) (tag : BitVec 16) (c : Cmd), inHand s 0 tag.toNat opGetLog c → specField c.entry 48 1 = 1 → specField c.entry 56 8 = 0 →
    let n := min s.lantern.events.length (lengthField c.entry / 16)
    ∃ u bs, answers (.getLog tag) s 0 tag.toNat 0 (16 * n) u ∧ bs = ((s.lantern.events.take n).map eventBytes).flatten ∧ bs.length = 16 * n ∧
      u.host = (writeBuffer 0 tag.toNat 0 bs s).host ∧
      ((specField c.entry 49 1).testBit 0 = true → u.lantern.events = s.lantern.events.drop n) ∧
      ((specField c.entry 49 1).testBit 0 = false → u.lantern.events = s.lantern.events) ∧
      changesOnly [.lanternEvents, .hostCmds, .out] s u

/-! ## Keys and presence -/

/-- KEY_LOAD, KEY_ERASE and KEY_WITHDRAW_DONE. An accepted load installs the generation, with KEEP_LOADSEQ one higher and the generation's
number as the result; a rejected one changes no slot and is counted; a slot with a shadow or in withdrawal is busy. An erased empty
slot is done at once; the end of a withdrawal leaves the slot empty, with no key material. KEEP_LOADSEQ never decreases (R246). -/
def Obligations.KeySlotsChangeAsTheTableSays : Prop :=
  (∀ (s : State) (tag : BitVec 16) (block : Bytes) (c : Cmd) (g : Gen), inHand s 0 tag.toNat opKeyLoad c →
    ((keySlot s (slotField c.entry)).state = .empty ∨ (keySlot s (slotField c.entry)).state = .live) → slotField c.entry < 64 →
    loadedGen c (fit 1224 block) s = some g →
    ∃ u, answers (.keyLoad tag block) s 0 tag.toNat 0 g.num u ∧ u.keep.loadSeq = s.keep.loadSeq + 1 ∧
      (keySlot u (slotField c.entry)).cur = some g ∧ (keySlot u (slotField c.entry)).lastGen = g.num ∧
      (∀ i, i ≠ slotField c.entry → keySlot u i = keySlot s i) ∧ changesOnly [.keepSlots, .keepLoadSeq, .rdSets, .rdPackets] s u) ∧
  (∀ (s : State) (tag : BitVec 16) (block : Bytes) (c : Cmd), inHand s 0 tag.toNat opKeyLoad c →
    ((keySlot s (slotField c.entry)).state = .shadowed ∨ (keySlot s (slotField c.entry)).state = .withdraw →
      answers (.keyLoad tag block) s 0 tag.toNat 0x0307 0 s) ∧
    ((keySlot s (slotField c.entry)).state = .empty ∨ (keySlot s (slotField c.entry)).state = .live → loadedGen c (fit 1224 block) s = none →
      ∃ u, answers (.keyLoad tag block) s 0 tag.toNat 0x0308 0 u ∧ u.keep.cntLoadFail = inc s.keep.cntLoadFail ∧ u.keep.slots = s.keep.slots ∧
        changesOnly [.keepCntLoadFail] s u)) ∧
  (∀ (s : State) (tag : BitVec 16) (c : Cmd), inHand s 0 tag.toNat opKeyErase c →
    ((keySlot s (slotField c.entry)).state = .empty → answers (.keyErase tag) s 0 tag.toNat 0 0 s) ∧
    ((keySlot s (slotField c.entry)).state = .withdraw → slotField c.entry < 64 → ∃ t, exec (.keyErase tag) s = .next t ∧
      (keySlot t (slotField c.entry)).erasers = (keySlot s (slotField c.entry)).erasers ++ [c.tag] ∧ changesOnly [.keepSlots] s t) ∧
    ((keySlot s (slotField c.entry)).state = .live ∨ (keySlot s (slotField c.entry)).state = .shadowed →
      exec (.keyErase tag) s = .next (withdrawSlot (slotField c.entry)
        (onSlot (slotField c.entry) (fun k => { k with state := .withdraw, erasers := [c.tag] }) s)))) ∧
  (∀ (s : State) (slot : Fin 64), live s = true → (keySlot s slot.val).state = .withdraw →
    ∃ t, exec (.keyWithdrawDone slot) s = .next t ∧ (keySlot t slot.val).state = .empty ∧ (keySlot t slot.val).cur = none ∧
      (keySlot t slot.val).shadow = none ∧ ∀ i, i ≠ slot.val → keySlot t i = keySlot s i) ∧
  (∀ (s : State) (slot : Fin 64), live s = true → (keySlot s slot.val).state ≠ .withdraw → exec (.keyWithdrawDone slot) s = .next s) ∧
  (∀ (i : Instr) (s t : State), exec i s = .next t → s.keep.loadSeq ≤ t.keep.loadSeq)

/-- PRESENCE_OP. Without presence the operation has no effect and gives 0x0500. With it: Lantern clear empties both regions, so that the
record 0x0090 is the only one; the integrator keys are those of a good block, and every table goes out of force; all keys are zeroized
and the slots empty; the permit lapses 600 s from now; FAILS is 0. STRAP[1] = 0 refuses a debug unlock. The presence window, the downgrade permit and the SMBus. A press opens the window anew from now and records whether the seal was open;
after 120 s without one it closes; the permit lapses at its time; CLEAR_FAILS clears FAILS with presence and does nothing without;
HEALTH and LANTERN_READ answer in every power state and change nothing else. -/
def Obligations.PresenceOpensAndGates : Prop :=
  ((∀ (s : State) (tag : BitVec 16) (block : Bytes) (c : Cmd), inHand s 0 tag.toNat opPresence c → presenceOk s = false →
     (specField c.entry 48 1 = 1 → s.boot.straps.getLsbD 1 = true → answers (.debugUnlock tag) s 0 tag.toNat 0x0500 0 s) ∧
     (specField c.entry 48 1 = 2 → answers (.lanternClear tag) s 0 tag.toNat 0x0500 0 s) ∧
     (specField c.entry 48 1 = 3 → answers (.registerIntegratorKeys tag block) s 0 tag.toNat 0x0500 0 s) ∧
     (specField c.entry 48 1 = 4 → answers (.zeroizeAllKeys tag) s 0 tag.toNat 0x0500 0 s) ∧
     (specField c.entry 48 1 = 5 → answers (.armDowngradePermit tag) s 0 tag.toNat 0x0500 0 s) ∧
     (specField c.entry 48 1 = 6 → answers (.resetFailedStartCounter tag) s 0 tag.toNat 0x0500 0 s)) ∧
   (∀ (s : State) (tag : BitVec 16) (c : Cmd), inHand s 0 tag.toNat opPresence c → specField c.entry 48 1 = 1 →
     s.boot.straps.getLsbD 1 = false → answers (.debugUnlock tag) s 0 tag.toNat 0x0101 0 s) ∧
   (∀ (s : State) (tag : BitVec 16) (block : Bytes) (c : Cmd), inHand s 0 tag.toNat opPresence c → presenceOk s = true →
     (specField c.entry 48 1 = 1 → s.boot.straps.getLsbD 1 = true → ∃ u, answers (.debugUnlock tag) s 0 tag.toNat 0 0 u ∧
       u.trust.debug = true ∧ u.keep.transport = none ∧ u.keep.ctxKek = none ∧ u.cupola.nonce = 0 ∧ u.cupola.ctxs = [] ∧
       .jtagOpen ∈ u.out ∧ u.pins.alarmAsserted = s.pins.alarmAsserted) ∧
     (specField c.entry 48 1 = 2 → s.lantern.armed = false → s.lantern.postLeft = 0 → ∃ u r, answers (.lanternClear tag) s 0 tag.toNat 0 0 u ∧
       u.lantern.ring = [r] ∧ r.code = 0x0090 ∧ r.data = fit 36 (le 4 s.lantern.rseq) ∧ u.lantern.pinnedRecs.length = 1 ∧
       u.lantern.pinFull = false ∧ u.lantern.fired = false) ∧
     (specField c.entry 48 1 = 3 → keyBlockOk (fit 17872 block) = true → ∃ u, answers (.registerIntegratorKeys tag block) s 0 tag.toNat 0 0 u ∧
       u.trust.tableKey = some (slice (fit 17872 block) 16 32, slice (fit 17872 block) 48 1952) ∧ u.trust.tables = Vector.replicate 5 none ∧
       u.trust.signers.length = field (fit 17872 block) 5 1 ∧
       changesOnly [.trustTableKey, .trustSigners, .trustTables, .trustSteepleNext, .trustHeadNext, .trustSubsystem] s u) ∧
     (specField c.entry 48 1 = 3 → keyBlockOk (fit 17872 block) = false → answers (.registerIntegratorKeys tag block) s 0 tag.toNat 0x0101 0 s) ∧
     (specField c.entry 48 1 = 4 → ∃ u, answers (.zeroizeAllKeys tag) s 0 tag.toNat 0 0 u ∧ ∀ i, i < 64 →
       (keySlot u i).state = .empty ∧ (keySlot u i).cur = none ∧ (keySlot u i).shadow = none) ∧
     (specField c.entry 48 1 = 5 → ∃ u, answers (.armDowngradePermit tag) s 0 tag.toNat 0 0 u ∧
       u.trust.permit = some (s.power.time + 60000000000) ∧ changesOnly [.trustPermit] s u) ∧
     (specField c.entry 48 1 = 6 → ∃ u, answers (.resetFailedStartCounter tag) s 0 tag.toNat 0 0 u ∧ u.boot.fails = 0 ∧
       changesOnly [.bootFails] s u))) ∧
  ((∀ s : State, ∃ t, exec .presencePress s = .next t ∧ t.trust.press = some s.power.time ∧ t.trust.sealBroken = !s.trust.sealOk ∧
     t.blf.latched.getLsbD 0 = true ∧ changesOnly ([.trustPress, .trustSealBroken, .blfLatched] ++ requestFields) s t) ∧
   (∀ (s : State) (a : Nat), s.trust.press = some a → ∃ t, exec .presenceWindowExpiry s = .next t ∧ t.trust.press = none ∧
     t.power.time = max s.power.time (a + 12000000000) ∧ changesOnly [.trustPress, .powerTime] s t) ∧
   (∀ (s : State) (a : Nat), live s = true → s.trust.permit = some a → ∃ t, exec .downgradePermitExpiry s = .next t ∧ t.trust.permit = none ∧
     t.power.time = max s.power.time a ∧ changesOnly [.trustPermit, .powerTime] s t) ∧
   (∀ s : State, live s = true → presenceOk s = true → ∃ t, exec .clearFails s = .next t ∧ t.boot.fails = 0 ∧ changesOnly [.bootFails] s t) ∧
   (∀ s : State, live s = true → presenceOk s = false → exec .clearFails s = .next s) ∧
   (∀ s : State, ∃ t bs, exec .health s = .next t ∧ t.out = s.out ++ [.smbus bs] ∧ bs.length = 16 ∧ changesOnly [.out] s t) ∧
   (∀ (s : State) (n : BitVec 32), ∃ t bs, exec (.lanternRead n) s = .next t ∧ t.out = s.out ++ [.smbus bs] ∧ changesOnly [.out] s t))



/-! ## AON, pins and temperature -/

/-- The time base takes the clock of the first port whose REFCLK is present, else holdover; the count goes on from the value held and
each entry to holdover is counted; a return needs a REFCLK. The lifetime count is put into MRAM in whole milliseconds. -/
def Obligations.TimeBaseGoesOver : Prop :=
  (∀ (a b : Bool) (s : State), ∃ t, exec (.timeBaseSwitch a b) s = .next t ∧ t.power.time = s.power.time ∧ t.power.refA = a ∧
    t.power.refB = b ∧ (a = true → t.power.src = .portA) ∧ (a = false → b = true → t.power.src = .portB) ∧
    (a = false → b = false → t.power.src = .holdover) ∧
    (t.power.cntHoldover = if t.power.src = .holdover ∧ s.power.src ≠ .holdover then inc s.power.cntHoldover else s.power.cntHoldover) ∧
    changesOnly [.powerRefA, .powerRefB, .powerSrc, .powerCntHoldover] s t) ∧
  (∀ (src : TimeSource) (s : State), s.power.src = .holdover → src ≠ .holdover →
    ∃ t, exec (.holdoverReturn src) s = .next t ∧ t.power.src = src ∧ t.power.time = s.power.time ∧
      t.power.cntHoldover = s.power.cntHoldover ∧ changesOnly [.powerRefA, .powerRefB, .powerSrc] s t) ∧
  (∀ (src : TimeSource) (s : State), s.power.src ≠ .holdover ∨ src = .holdover → exec (.holdoverReturn src) s = .next s) ∧
  (∀ s : State, ∃ t, exec .lifetimeCheckpoint s = .next t ∧
    t.power.lifeMram = s.power.lifeBase + (s.power.time - s.power.lifeAt) / 100000 ∧ changesOnly [.powerLifeMram] s t)

/-- A wake latch catches an edge of 100 ns or more, keeps the others, and makes its source pending while Belfry is powered. An alarm
condition erases every key, asserts ALARM_N, marks the Keep and the cause, and inhibits writing; in PS4 only the seal is looked at. The
seal opens at once on a broken loop, at the second mismatch on SEAL_B, and closes on a match. The seal loop's sequence never stops: no step of the LFSR leads from a value that is not zero to zero, and none merges two values
(R369). -/
def Obligations.LatchesSealAndAlarms : Prop :=
  ((∀ (i : Fin 16) (ns : Nat) (s : State), 100 ≤ ns → ∃ t, exec (.wakeLatch i ns) s = .next t ∧ t.blf.latched.getLsbD i.val = true ∧
     (∀ j, j ≠ i.val → t.blf.latched.getLsbD j = s.blf.latched.getLsbD j) ∧
     (live s = true → s.power.pstate ≠ 4 → isPending t (112 + i.val)) ∧ changesOnly ([.blfLatched] ++ requestFields) s t) ∧
   (∀ (i : Fin 16) (ns : Nat) (s : State), ns < 100 → exec (.wakeLatch i ns) s = .next s) ∧
   (∀ (k : Fin 5) (s : State), live s = true → s.power.pstate ≠ 4 → ∃ t, exec (.alarm k) s = .next t ∧ t.pins.alarmAsserted = true ∧
     t.trust.cause.getLsbD k.val = true ∧ t.keep.erased = true ∧ t.keep.transport = none ∧ t.keep.ctxKek = none ∧ t.cupola.nonce = 0 ∧
     t.cupola.ctxs = [] ∧ (∀ j, j < 64 → (keySlot t j).state = .empty ∧ (keySlot t j).cur = none ∧ (keySlot t j).shadow = none) ∧
     t.wr.sources.getLsbD 9 = true ∧ isPending t 110 ∧ (k = 0 → t.trust.sealOk = false ∧ t.trust.press = none ∧ t.blf.latched.getLsbD 1 = true)) ∧
   (∀ (k : Fin 5) (s : State), s.power.pstate = 4 → k ≠ 0 → exec (.alarm k) s = .next s) ∧
   (∀ s : State, s.power.pstate = 4 → ∃ t, exec (.alarm 0) s = .next t ∧ t.trust.sealOk = false ∧ t.trust.press = none ∧
     t.blf.latched.getLsbD 1 = true ∧ changesOnly [.trustSealOk, .trustSealBroken, .trustPress, .blfLatched] s t) ∧
   (∀ (x y : Bool) (s : State), live s = true ∨ s.power.pstate = 4 → let bit := (lfsrStep s.trust.lfsr).getLsbD 0
     (x = bit → y = bit → ∃ t, exec (.sealLfsrTick x y) s = .next t ∧ t.trust.lfsr = lfsrStep s.trust.lfsr ∧ t.trust.mismatches = 0 ∧
       t.trust.sealOk = true ∧ t.out = s.out ++ [.sealDrive bit] ∧ changesOnly [.trustLfsr, .trustMismatches, .trustSealOk, .out] s t) ∧
     (x ≠ bit → y = bit → s.trust.mismatches = 0 → ∃ t, exec (.sealLfsrTick x y) s = .next t ∧ t.trust.mismatches = 1 ∧
       t.trust.sealOk = s.trust.sealOk ∧ changesOnly [.trustLfsr, .trustMismatches, .out] s t) ∧
     (s.trust.sealOk = true → (x ≠ bit ∧ 1 ≤ s.trust.mismatches) ∨ y ≠ bit → ∃ t, exec (.sealLfsrTick x y) s = .next t ∧
       t.trust.sealOk = false ∧ t.trust.press = none ∧ t.blf.latched.getLsbD (if y = bit then 2 else 1) = true)) ∧
   (∀ (x y : Bool) (s : State), live s = false → s.power.pstate ≠ 4 → exec (.sealLfsrTick x y) s = .next s)) ∧
  ((∀ v : BitVec 16, v ≠ 0 → lfsrStep v ≠ 0) ∧ ∀ v w : BitVec 16, lfsrStep v = lfsrStep w → v = w)

/-- Inputs. A change of the straps waits for the next part reset and makes record 0x0004; SHOCK_N and MOT_FAULT_N set their latch and,
while the part runs, their inhibit; a cleared shock starts SHOCK_HOLD, whose end forgets it; a motor fault takes the enables low. -/
def Obligations.PinsActOnTheirLatchesAndInhibits : Prop :=
  (∀ (now : BitVec 4) (s : State), ∃ t, exec (.strapChange now) s = .next t ∧ t.pins.straps = now ∧ t.boot.straps = s.boot.straps ∧
    (live s = true → now ≠ s.boot.straps → madeRecord 0x0004 (le 1 s.boot.straps.toNat ++ le 1 now.toNat) s t) ∧
    (live s = false ∨ now = s.boot.straps → changesOnly [.pinsStraps] s t)) ∧
  (∀ (ns : Nat) (s : State), 100 ≤ ns → ∃ t, exec (.shockNAssert ns) s = .next t ∧ t.pins.shockN = false ∧ t.blf.latched.getLsbD 5 = true ∧
    (live s = true → t.wr.sources.getLsbD 1 = true) ∧ (live s = true → s.wr.sources.getLsbD 1 = false → t.wr.inhibited = true) ∧
    (live s = true → s.wr.sources = 0 → s.wr.tokens = true → t.wr.tokens = false)) ∧
  (∀ (ns : Nat) (s : State), ns < 100 → exec (.shockNAssert ns) s = .next s) ∧
  (∀ s : State, s.wr.sources.getLsbD 1 = true → ∃ t, exec .shockNClear s = .next t ∧ t.pins.shockN = true ∧ t.wr.sources.getLsbD 1 = false ∧
    (∀ i, i ≠ 1 → t.wr.sources.getLsbD i = s.wr.sources.getLsbD i) ∧ t.wr.inhibited = s.wr.inhibited ∧
    t.wr.holdUntil = some (max (s.wr.holdUntil.getD 0) (s.power.time + 100 * (s.ecc.winhCfg.toNat % 2 ^ 16))) ∧
    changesOnly [.pinsShockN, .wrSources, .wrHoldUntil] s t) ∧
  (∀ s : State, s.wr.sources.getLsbD 1 = false → ∃ t, exec .shockNClear s = .next t ∧ t.pins.shockN = true ∧ changesOnly [.pinsShockN] s t) ∧
  (∀ (s : State) (a : Nat), live s = true → s.wr.holdUntil = some a → ∃ t, exec .shockHoldExpiry s = .next t ∧ t.wr.holdUntil = none ∧
    t.power.time = max s.power.time a ∧ changesOnly [.wrHoldUntil, .powerTime] s t) ∧
  (∀ s : State, ∃ t, exec .motFaultNAssert s = .next t ∧ t.pins.motFaultN = false ∧ t.blf.latched.getLsbD 6 = true ∧
    (live s = true → t.pins.motEn = 0 ∧ t.wr.sources.getLsbD 6 = true)) ∧
  (∀ s : State, s.wr.holdUntil = none → exec .shockHoldExpiry s = .next s)

/-- A cartridge that comes in is in, its memory in canonical form, and no volume is mounted by it; one that is in stays in. A cartridge
that goes leaves no cartridge and no volume; its latch is set. -/
def Obligations.CartridgesComeAndGo : Prop :=
  (∀ (c : Cartridge) (s : State), s.drive.cart = none → ∃ t k, exec (.cartInserted c) s = .next t ∧ t.drive.cart = some k ∧
    k.slots = c.slots ∧ Memory.wf k.cm ∧ (∀ a, Memory.read k.cm a = Memory.read c.cm a) ∧ t.drive.vol = s.drive.vol ∧
    t.pins.cartPresentN = false ∧ t.blf.latched.getLsbD 3 = true ∧
    changesOnly ([.pinsCartPresentN, .driveCart, .driveLink, .stpTapeIds, .blfLatched] ++ requestFields) s t) ∧
  (∀ (c k : Cartridge) (s : State), s.drive.cart = some k → exec (.cartInserted c) s = .next s) ∧
  (∀ s : State, ∃ t, exec .cartRemoved s = .next t ∧ t.drive.cart = none ∧ t.drive.vol = none ∧ t.pins.cartPresentN = true ∧
    t.blf.latched.getLsbD 4 = true)

/-- Temperature. The junction temperature is the highest reading; the counts of 103 °C and 100 °C follow it; outside −25 °C to 120 °C
it is an alarm. The thermal cap goes one band down after 1 s hot and one band up after 10 s cool. -/
def Obligations.TemperatureDrivesTheThermalCap : Prop :=
  (∀ (v : Vector Int 16) (s : State), live s = true → s.power.pstate ≠ 4 → ∃ t, exec (.thermalSample v) s = .next t ∧
    (∀ i : Fin 16, v[i] ≤ t.power.junction) ∧ (∃ i : Fin 16, v[i] = t.power.junction) ∧
    t.power.hotMs = (if 103000 ≤ t.power.junction then s.power.hotMs + 1 else 0) ∧
    t.power.coolMs = (if t.power.junction < 100000 then s.power.coolMs + 1 else 0) ∧
    (t.power.junction < -25000 ∨ 120000 < t.power.junction → t.pins.alarmAsserted = true ∧ t.trust.cause.getLsbD 3 = true ∧ t.keep.erased = true) ∧
    (-25000 ≤ t.power.junction → t.power.junction ≤ 120000 → t.pins = s.pins ∧ t.trust = s.trust ∧ t.keep = s.keep ∧ t.cupola = s.cupola)) ∧
  (∀ s : State, live s = true → 1000 ≤ s.power.hotMs → s.wvn.capT < 16 → ∃ t, exec .thermalCapStep s = .next t ∧
    t.wvn.capT = s.wvn.capT - 1 ∧ t.power.hotMs = 0) ∧
  (∀ s : State, live s = true → 1000 ≤ s.power.hotMs → s.wvn.capT = 16 → ∃ t, exec .thermalCapStep s = .next t ∧
    t.wvn.capT = bandOfR (max 1024 s.wvn.r) - 1 ∧ t.wvn.capT < 15 ∧ t.power.hotMs = 0) ∧
  (∀ s : State, live s = true → s.power.hotMs < 1000 → 10000 ≤ s.power.coolMs → s.wvn.capT < 16 → ∃ t, exec .thermalCapStep s = .next t ∧
    t.wvn.capT = s.wvn.capT + 1 ∧ t.power.coolMs = 0 ∧ changesOnly [.wvnCapT, .powerCoolMs] s t) ∧
  (∀ s : State, s.power.hotMs < 1000 → s.power.coolMs < 10000 ∨ 16 ≤ s.wvn.capT → exec .thermalCapStep s = .next s)

/-! ## Power states -/

/-- POWER_STATE, PS4_COMMIT, POWER_STATE_EXIT and DOMAIN_IDLE_GATE. A state that may be entered powers its own domains, save those off for
a fault; PS4 comes 10 ms after the command and takes down every rail whose converter acknowledges; a refused state names its reason; leaving a state powers PS0's
domains, or from PS4 the rails, with AON alone. A domain is gated only while it is idle in a state that lets it. -/
def Obligations.PowerStatesSwitchTheirDomains : Prop :=
  (∀ (s : State) (tag : BitVec 16) (c : Cmd), inHand s 0 tag.toNat opPowerState c →
    (specField c.entry 48 1 = 0 → answers (.powerState tag) s 0 tag.toNat 0 0 (flushGroups s)) ∧
    (∀ r, powerRefusal s (specField c.entry 48 1) = some r → answers (.powerState tag) s 0 tag.toNat 0x0220 r (flushGroups s)) ∧
    (specField c.entry 48 1 = 2 → s.drive.vol = none → ∃ t, exec (.powerState tag) s = .next t ∧ t.power.pstate = 2 ∧
      t.power.domOn = stateDomains 2 &&& ~~~s.power.domFault ∧ (∀ g : Fin 8, t.hlk.groups[g].state = .down) ∧ t.rd = s.rd) ∧
    (specField c.entry 48 1 = 3 → s.drive.vol = none → s.wr.sets = [] → outCount s .aon = 0 → ∃ t, exec (.powerState tag) s = .next t ∧
      t.power.pstate = 3 ∧ t.power.domOn = stateDomains 3 &&& ~~~s.power.domFault ∧ t.rd.sets = [] ∧ t.rd.packets = []) ∧
    (specField c.entry 48 1 = 4 → s.drive.vol = none → s.wr.sets = [] → outCount s .aon = 0 → ∃ t, exec (.powerState tag) s = .next t ∧
      t.power.pstate = s.power.pstate ∧ t.power.entering = true ∧ t.power.ps4Due = some (s.power.time + 1000000))) ∧
  (∀ (s : State) (a : Nat), live s = true → s.power.ps4Due = some a → ∃ t, exec .ps4Commit s = .next t ∧ t.power.pstate = 4 ∧
    (∀ i : Fin 7, t.power.rails.getLsbD i.val = (s.power.rails.getLsbD i.val && !(Config.pmbusAcks s.fresh).getLsbD i.val)) ∧ t.power.domOn = domMask 110 1 ∧ t.power.time = max s.power.time a ∧ t.boot.phase = .held ∧
    t.boot.bootCount = s.boot.bootCount ∧ t.boot.fromPs4 = true ∧ t.keep = { ({} : Keep) with loadSeq := s.keep.loadSeq } ∧ t.wr = {}) ∧
  (∀ s : State, s.power.ps4Due = none → exec .ps4Commit s = .next s) ∧
  (∀ (c : WakeCause) (s : State), wakes s c = true →
    (s.power.pstate = 4 → ∃ t, exec (.powerStateExit c) s = .next t ∧ t.power.pstate = 0 ∧ t.power.rails = 0x7F ∧ t.power.domOn = domMask 110 1 ∧
      t.out = s.out ++ [0, 1, 2, 3, 4, 6, 5].map (fun i => .pmbus (0x40 + i) true) ∧
      changesOnly [.powerPstate, .powerRails, .powerDomOn, .out] s t) ∧
    (s.power.pstate ≠ 4 → ∃ t, exec (.powerStateExit c) s = .next t ∧ t.power.pstate = 0 ∧ t.power.domOn = ~~~s.power.domFault ∧
      changesOnly [.powerPstate, .powerDomOn, .powerEntering] s t)) ∧
  (∀ (c : WakeCause) (s : State), wakes s c = false → exec (.powerStateExit c) s = .next s) ∧
  (∀ s : State, wakes s (.latch 7) = false ∧ (s.power.pstate = 0 → ∀ c, wakes s c = false) ∧
    (s.power.pstate = 4 → s.blf.latched.getLsbD 1 = true → wakes s (.latch 1) = true)) ∧
  (∀ (d : Fin 111) (s : State), live s = true → gated s.power.pstate d.val = true → domainIdle s d.val = true →
    ∃ t, exec (.domainIdleGate d) s = .next t ∧ t.power.domOn.getLsbD d.val = false ∧
      (∀ j, j ≠ d.val → t.power.domOn.getLsbD j = s.power.domOn.getLsbD j) ∧ changesOnly [.powerDomOn] s t) ∧
  (∀ (d : Fin 111) (s : State), gated s.power.pstate d.val = false ∨ domainIdle s d.val = false → exec (.domainIdleGate d) s = .next s)

/-! ## Firmware and tables -/

/-- FW_STAGE and FW_ACTIVATE. A chunk lands in the slot that is not running, at its offset, and nowhere else in the flash; a chunk out of
place gives 0x0101 and changes nothing. An activation without a verified image, or of one that lacks a version or format in use, is
refused; one in mode 0 with a volume mounted completes with 0x0600 and stays pending; in fallback it makes a part reset. -/
def Obligations.FirmwareIsStagedThenActivated : Prop :=
  (∀ (s : State) (tag : BitVec 16) (data : Bytes) (c : Cmd), inHand s 0 tag.toNat opFwStage c → s.boot.activation = none →
    Memory.wf s.boot.flash → (specField c.entry 52 4 = 0 ∨ specField c.entry 52 4 = s.boot.staged) →
    specField c.entry 52 4 + lengthField c.entry ≤ fwSlotLen → (specField c.entry 49 1).testBit 0 = false →
    let p := fwSlotBase (spareSlot s) + specField c.entry 52 4
    ∃ u, answers (.fwStage tag data true) s 0 tag.toNat 0 (specField c.entry 52 4 + lengthField c.entry) u ∧
      u.boot.staged = specField c.entry 52 4 + lengthField c.entry ∧ u.boot.stagedOk = false ∧ u.boot.activation = none ∧
      Memory.readBytes u.boot.flash p (lengthField c.entry) = fit (lengthField c.entry) data ∧
      (∀ a, a < fwSlotBase (spareSlot s) ∨ fwSlotBase (spareSlot s) + fwSlotLen ≤ a → Memory.read u.boot.flash a = Memory.read s.boot.flash a)) ∧
  (∀ (s : State) (tag : BitVec 16) (data : Bytes) (ok : Bool) (c : Cmd), inHand s 0 tag.toNat opFwStage c →
    ((specField c.entry 52 4 ≠ 0 ∧ specField c.entry 52 4 ≠ s.boot.staged) ∨ fwSlotLen < specField c.entry 52 4 + lengthField c.entry) →
    answers (.fwStage tag data ok) s 0 tag.toNat 0x0101 0 s) ∧
  (∀ (s : State) (tag : BitVec 16) (c : Cmd), inHand s 0 tag.toNat opFwActivate c →
    (s.boot.stagedOk = false → answers (.fwActivate tag) s 0 tag.toNat 0x0603 0 s) ∧
    (s.boot.stagedOk = true → activationLacks s ≠ none → answers (.fwActivate tag) s 0 tag.toNat 0x0606 0 s) ∧
    (s.boot.stagedOk = true → activationLacks s = none → s.boot.phase = .fallback → ∃ t, exec (.fwActivate tag) s = .next t ∧
      t.boot.phase = .held ∧ t.boot.fails = 0 ∧ t.boot.preferred = otherPort s.boot.slot) ∧
    (s.boot.stagedOk = true → activationLacks s = none → s.boot.phase = .normal → s.boot.activation = none → specField c.entry 48 1 = 0 →
      (s.drive.vol = none → ∃ t, exec (.fwActivate tag) s = .next t ∧ t.boot.activation = some (0, some tag) ∧ t.host.cmds = s.host.cmds ∧
        changesOnly [.bootActivation, .hostHoldForSwitch] s t) ∧
      (s.drive.vol ≠ none → ∃ u, answers (.fwActivate tag) s 0 tag.toNat 0x0600 0 u ∧ u.boot.activation = some (0, none) ∧
        changesOnly [.bootActivation, .hostHoldForSwitch] s u)) ∧
    (s.boot.stagedOk = true → activationLacks s = none → s.boot.phase = .normal → s.boot.activation = none → specField c.entry 48 1 = 1 →
      ∃ t k, exec (.fwActivate tag) s = .next t ∧ t.boot.activation = some (1, some tag) ∧ cmdOf t 0 tag.toNat = some k ∧
        k.goal = s.power.time + 100000000 * specField c.entry 52 4 ∧ changesOnly [.bootActivation, .hostHoldForSwitch, .hostCmds] s t))

/-- The switch. When an activation's moment has come and its image passes every check, all cores leave the barrier under it, with FAILS
at 1, PREFERRED changed, the watchdog at 2 s and what the part holds intact; an image that fails its checks does not take over; before
the moment nothing happens. When a mode's time is up the activation is pending in mode 0. A core that does not arrive goes out of
service. -/
def Obligations.TheCoresSwitchTogether : Prop :=
  (∀ (s : State) (mode : Nat) (w : Option (BitVec 16)), s.boot.phase = .normal → s.boot.activation = some (mode, w) →
    (switchReady s mode = false → exec .activationSwitch s = .next s) ∧
    (switchReady s mode = true → s.host.resetAfterSwitch = none → activationLacks s = none →
      checkSlot (s.onBoot fun b => { b with minVersion := permitFloor s }) (spareSlot s) true true = 1 →
      ∃ t, exec .activationSwitch s = .next t ∧ t.boot.slot = otherPort s.boot.slot ∧ t.boot.preferred = otherPort s.boot.slot ∧ t.boot.fails = 1 ∧
        t.boot.version = manVersion (slotManifest s (spareSlot s)) ∧ t.boot.watchdog = some (s.power.time + 200000000, 4) ∧
        t.boot.activation = none ∧ t.boot.confirmed = false ∧ t.boot.bootCount = s.boot.bootCount ∧ t.boot.phase = .normal ∧
        t.keep = s.keep ∧ t.cupola = s.cupola ∧ t.host.holdForSwitch = false) ∧
    (switchReady s mode = true → checkSlot (s.onBoot fun b => { b with minVersion := permitFloor s }) (spareSlot s) true true ≠ 1 →
      ∃ t, exec .activationSwitch s = .next t ∧ t.boot.slot = s.boot.slot ∧ t.boot.activation = none ∧ t.boot.stagedOk = false ∧
        t.boot.preferred = s.boot.preferred ∧ t.boot.fails = s.boot.fails)) ∧
  (∀ (s : State) (g : BitVec 16), live s = true →
    (s.boot.activation = some (1, some g) → ∃ t, exec .activationIdleTimeout s = .next t ∧ t.boot.activation = some (0, none) ∧ t.boot.slot = s.boot.slot) ∧
    (s.boot.activation = some (2, some g) → ∃ t, exec .activationStillTimeout s = .next t ∧ t.boot.activation = some (0, none) ∧
      t.host.holdForSwitch = false ∧ t.boot.slot = s.boot.slot)) ∧
  (∀ (s : State), s.boot.activation = none →
    exec .activationIdleTimeout s = .next s ∧ exec .activationStillTimeout s = .next s ∧ exec .activationSwitch s = .next s ∧
    ∀ core, exec (.barrierCoreTimeout core) s = .next s) ∧
  (∀ (s : State) (mode : Nat) (w : Option (BitVec 16)) (core : Fin 4), s.boot.phase = .normal → s.boot.activation = some (mode, w) →
    switchReady s mode = true → s.blf.coreOk.getLsbD core.val = true → outOf s .controlCore core.val = false → outCount s .controlCore < 3 →
    ∃ t, exec (.barrierCoreTimeout core) s = .next t ∧ t.blf.coreOk.getLsbD core.val = false ∧
      (∀ j, j ≠ core.val → t.blf.coreOk.getLsbD j = s.blf.coreOk.getLsbD j))

/-- TABLE_LOAD. An accepted table is in the flash region of its TYPE and takes effect as Table 12-9 says: at once, when Steeple is OFF, at
the next mount, or at the next start; a refused one leaves the flash and the tables in force as they were and makes record 0x0071 with
its code; a flash failure gives 0x0604 and leaves the tables in force. -/
def Obligations.TablesTakeEffectAsTheirTypeAsks : Prop :=
  ∀ (s : State) (tag : BitVec 16) (data : Bytes) (c : Cmd), inHand s 0 tag.toNat opTableLoad c →
    let ty := specField c.entry 48 1
    let d := fit (lengthField c.entry) data
    let new := some (d.take manifestLen, slice d (manSeg d 0).1 (manSeg d 0).2.1)
    (∀ code ok, tableRefusal s ty d = some code → ∃ u, answers (.tableLoad tag data ok) s 0 tag.toNat 0x0605 0 u ∧
      madeRecord 0x0071 (le 1 ty ++ le 1 code) s u ∧ changesOnly recordFields s u) ∧
    (tableRefusal s ty d = none → ∃ u, answers (.tableLoad tag data false) s 0 tag.toNat 0x0604 0 u ∧ u.trust = s.trust) ∧
    (tableRefusal s ty d = none → Memory.wf s.boot.flash → ∃ u, answers (.tableLoad tag data true) s 0 tag.toNat 0 0 u ∧
      Memory.readBytes u.boot.flash (tableBase ty) (lengthField c.entry) = d ∧ madeRecord 0x0071 (le 1 ty ++ le 1 0) s u ∧
      (ty = 1 → u.trust.tables = putAt s.trust.tables 0 new ∧ u.tiles.savedTaps = []) ∧
      (ty = 2 → s.stp.mode = .off → u.trust.tables = putAt s.trust.tables 1 new ∧ u.stp.thetaCal = 0) ∧
      (ty = 2 → s.stp.mode ≠ .off → u.trust.steepleNext = new ∧ u.trust.tables = s.trust.tables) ∧
      (ty = 3 → u.trust.tables = putAt s.trust.tables 2 new) ∧
      (ty = 4 → u.trust.headNext = new ∧ u.trust.tables = s.trust.tables) ∧
      (ty = 5 → u.trust = s.trust))


/-! ## The volume -/

/-- MOUNT and UNMOUNT. The checks of R319 in their order: a mounted volume, no cartridge, a tape that cannot move each end MOUNT with their
status and change nothing; with the tape OFF it starts THREAD; a threaded cartridge that passes brings a volume into force. UNMOUNT of
no volume gives 0x0411; when UNTHREAD is over no volume is mounted, and RESULT counts the records of abandoned groups. -/
def Obligations.MountsBringAVolumeIntoForce : Prop :=
  (∀ (s : State) (q : Fin 256) (tag : BitVec 16) (c : Cmd), inHand s q.val tag.toNat opMount c → c.goal < 5 →
    (s.drive.vol.isSome = true → answers (.mount q tag) s q.val tag.toNat 0x0411 0 s) ∧
    (s.drive.vol = none → s.drive.cart = none → answers (.mount q tag) s q.val tag.toNat 0x0412 0 s) ∧
    (s.drive.vol = none → s.drive.cart.isSome = true → s.pins.cartPresentN = false → s.stp.mode = .fault →
      answers (.mount q tag) s q.val tag.toNat 0x0416 0 s) ∧
    (mountCheckFirst s = none → s.stp.mode = .off → c.goal = 0 → programAllowed s 0 = true → ∃ t k, exec (.mount q tag) s = .next t ∧
      cmdOf t q.val tag.toNat = some k ∧ k.goal = 1 ∧ t.stp.program.running = true ∧ t.drive = s.drive) ∧
    (mountCheckFirst s = none → s.stp.mode = .still → c.goal = 1 → s.stp.program.fault = 0 → ∃ t, exec (.mount q tag) s = .next t ∧
      t.drive.link.queue = s.drive.link.queue ++ cmOpening s ++ memoryReads ++ [⟨[], .done (.command q.val tag.toNat)⟩] ∧
      (cmdOf t q.val tag.toNat).map (·.goal) = some 4 ∧ t.drive.cart = s.drive.cart) ∧
    (mountCheckFirst s = none → s.stp.mode = .still → c.goal = 2 → mountCheckLast s = none → ∃ t v, exec (.mount q tag) s = .next t ∧
      t.drive.vol = some v ∧ v.readOnly = ((specField c.entry 48 1).testBit 0 || !identityOk s)) ∧
    (∀ st, mountCheckFirst s = none → s.stp.mode = .still → c.goal = 2 → mountCheckLast s = some st →
      ∃ u, answers (.mount q tag) s q.val tag.toNat st 0 u ∧ u.drive.vol = none) ∧
    (mountCheckFirst s = none → s.stp.mode = .still → c.goal = 3 →
      ∃ u, answers (.mount q tag) s q.val tag.toNat 0x0412 0 u ∧ u.drive.vol = none)) ∧
  (∀ (s : State) (q : Fin 256) (tag : BitVec 16) (c : Cmd), inHand s q.val tag.toNat opMount c → c.goal = 6 → cmIdle s = true →
    answers (.mount q tag) s q.val tag.toNat c.count (mountResult s) s) ∧
  (∀ (s : State) (q : Fin 256) (tag : BitVec 16) (c : Cmd), inHand s q.val tag.toNat opUnmount c →
    (s.drive.vol = none → answers (.unmount q tag) s q.val tag.toNat 0x0411 0 s) ∧
    (s.drive.vol.isSome = true → c.goal = 2 → s.stp.mode = .off → cmIdle s = true → ∃ u, answers (.unmount q tag) s q.val tag.toNat 0 c.count u ∧
      u.drive.vol = none))

/-- LOCATE, READ_POSITION, TRUNCATE. A LOCATE leaves the position at its object, or at the logical end with 0x0401 for one above it, and
keeps read-ahead only where it holds the object; a
READ_POSITION returns the position and changes no part of the volume; a TRUNCATE takes the partition back to its object and returns how
many objects went. Without a volume each gives 0x0411. -/
def Obligations.PositionCommandsDoAsTheySay : Prop :=
  (∀ (s : State) (q : Fin 256) (tag : BitVec 16) (c : Cmd), inHand s q.val tag.toNat opLocate c →
    (s.drive.vol = none → answers (.locate q tag) s q.val tag.toNat 0x0411 0 s) ∧
    (∀ v, s.drive.vol = some v → (partAt s (partField c.entry)).inUse = false → answers (.locate q tag) s q.val tag.toNat 0x0101 0 s) ∧
    (∀ v, s.drive.vol = some v → (partAt s (partField c.entry)).inUse = true →
      (logicalEndOf s (partField c.entry) < lonField c.entry →
        ∃ u, answers (.locate q tag) s q.val tag.toNat 0x0401 (logicalEndOf s (partField c.entry)) u ∧ changesOnly [.driveVol] s u ∧
          u.drive.vol = some { v with posPart := partField c.entry, posLon := logicalEndOf s (partField c.entry) }) ∧
      (lonField c.entry = logicalEndOf s (partField c.entry) → ∃ u, answers (.locate q tag) s q.val tag.toNat 0 (lonField c.entry) u ∧
        u.drive.vol = some { v with posPart := partField c.entry, posLon := lonField c.entry }) ∧
      (lonField c.entry < logicalEndOf s (partField c.entry) → ∀ o, locateObj s (partField c.entry) (lonField c.entry) = .object o →
        ∃ u, answers (.locate q tag) s q.val tag.toNat 0 (lonField c.entry) u ∧
          u.drive.vol = some { v with posPart := partField c.entry, posLon := lonField c.entry } ∧
          (inReadAhead s o = true → changesOnly [.driveVol] s u) ∧ (inReadAhead s o = false → u.rd.sets = [])))) ∧
  (∀ (s : State) (q : Fin 256) (tag : BitVec 16) (c : Cmd), inHand s q.val tag.toNat opReadPosition c →
    (s.drive.vol = none → answers (.readPosition q tag) s q.val tag.toNat 0x0411 0 s) ∧
    (∀ v, s.drive.vol = some v → ∃ u, answers (.readPosition q tag) s q.val tag.toNat 0 v.posLon u ∧ changesOnly [.hostCmds, .out] s u ∧
      (positionBlock v s).length = 64)) ∧
  (∀ (s : State) (q : Fin 256) (tag : BitVec 16) (c : Cmd), inHand s q.val tag.toNat opTruncate c →
    (s.drive.vol = none → answers (.truncate q tag) s q.val tag.toNat 0x0411 0 s) ∧
    ((partAt s (partField c.entry)).inUse = true → writable s = false → answers (.truncate q tag) s q.val tag.toNat 0x0415 0 s) ∧
    ((partAt s (partField c.entry)).inUse = true → writable s = true → logicalEndOf s (partField c.entry) < lonField c.entry →
      answers (.truncate q tag) s q.val tag.toNat 0x0401 0 s) ∧
    ((partAt s (partField c.entry)).inUse = true → writable s = true → lonField c.entry ≤ logicalEndOf s (partField c.entry) →
      durableFlag c.entry = false → ∃ u, answers (.truncate q tag) s q.val tag.toNat 0
        (logicalEndOf s (partField c.entry) - lonField c.entry) u ∧ logicalEndOf u (partField c.entry) = lonField c.entry ∧
        (partAt u (partField c.entry)).full = false))

/-- SYNC and FENCE. A SYNC with nothing staged and a FENCE with no earlier command complete at once; without a volume a SYNC gives 0x0411;
a FENCE behind an earlier command of its queue waits. -/
def Obligations.SyncAndFenceCompleteWhenNothingWaits : Prop :=
  (∀ (s : State) (q : Fin 256) (tag : BitVec 16) (c : Cmd), inHand s q.val tag.toNat opSync c → s.drive.vol = none →
    answers (.sync q tag) s q.val tag.toNat 0x0411 0 s) ∧
  (∀ (s : State) (q : Fin 256) (tag : BitVec 16) (c : Cmd) (x : QueuePair) (p : Port), inHand s q.val tag.toNat opSync c → alone s c x p →
    c.waits = [] → s.drive.vol.isSome = true → s.wr.sets = [] → s.wvn.run = .none → unfetchedBefore s c.order = false →
    ∃ t res, exec (.sync q tag) s = .next t ∧ completed t c 0 res) ∧
  (∀ (s : State) (q : Fin 256) (tag : BitVec 16) (c : Cmd) (x : QueuePair) (p : Port), inHand s q.val tag.toNat opFence c → alone s c x p →
    ∃ t, exec (.fence q tag) s = .next t ∧ completed t c 0 0) ∧
  (∀ (s : State) (q : Fin 256) (tag : BitVec 16) (c d : Cmd), inHand s q.val tag.toNat opFence c → s.host.cmds = [c, d] → d.phase = .packing →
    d.qid = q.val → d.tag ≠ c.tag → before d.order c.order = true → s.host.resetting = [] → s.host.resetBusy = false →
    ∃ t k, exec (.fence q tag) s = .next t ∧ cmdOf t q.val tag.toNat = some k ∧ k.phase = .fenceWait ∧ changesOnly [.hostCmds] s t)

/-- REFRESH and PARTITION. Each ends at once with the status that stops it; for a refusal with 0x0310 PARTITION first stages the EODs that
are due. A REFRESH takes the locate index from the tape, with ACTION 0 the rest of the volume's fields too, then writes them to the cartridge
memory and completes once that has been read back. A PARTITION that may go on makes the map it asks for, and once its EODs are durable it
writes the header and completes when the memory has it. -/
def Obligations.RefreshAndPartitionFollowTheTape : Prop :=
  (∀ (s : State) (q : Fin 256) (tag : BitVec 16) (c : Cmd) (i : Instr), inHand s q.val tag.toNat opRefresh c →
    (specField c.entry 48 1 = 0 ∧ i = .refreshFullRebuild q tag) ∨ (specField c.entry 48 1 = 1 ∧ i = .refreshLocateIndex q tag) →
    (∀ st, c.goal = 0 → refreshStop s = some st → answers i s q.val tag.toNat st 0 s) ∧
    (c.goal = 0 → refreshStop s = none → tapeSettled s = true → ∃ t v k, exec i s = .next t ∧ t.drive.vol = some v ∧
      cmdOf t q.val tag.toNat = some k ∧ k.goal = 1 ∧ tapeSlots t = tapeSlots s ∧
      v.index = if specField c.entry 48 1 = 0 then (findVolume true (dropReads s)).index else probedIndex (tapeSlots s)) ∧
    (c.goal = 1 → exec i s = .next s) ∧
    (c.goal = 2 → answers i s q.val tag.toNat 0 0 s) ∧
    (c.goal = 3 → answers i s q.val tag.toNat 0x0311 0 s)) ∧
  (∀ (s : State) (q : Fin 256) (tag : BitVec 16) (c : Cmd), inHand s q.val tag.toNat opPartition c → c.goal = 0 →
    (∀ st, partitionStop s (askedMap c.entry) = some st →
      answers (.partition q tag) s q.val tag.toNat st 0 (if st = 0x0310 ∧ anyGroupFailed s = false then eodsDue s else s)) ∧
    (partitionStop s (askedMap c.entry) = none → ∃ t v, exec (.partition q tag) s = .next t ∧ t.drive.vol = some v ∧
      ∀ p : Fin 4, let e := (askedMap c.entry).getD p.val (false, 0, 0)
        v.parts[p].inUse = e.1 ∧ (e.1 = true → v.parts[p].firstWrap = e.2.1 ∧ v.parts[p].lastWrap = e.2.2))) ∧
  (∀ (s : State) (q : Fin 256) (tag : BitVec 16) (c : Cmd), inHand s q.val tag.toNat opPartition c →
    (c.goal = 1 → waitsOver s c = true → s.drive.vol.isSome = true → ∃ t k, exec (.partition q tag) s = .next t ∧
      cmdOf t q.val tag.toNat = some k ∧ k.goal = 2) ∧
    (c.goal = 2 → cmIdle s = true → answers (.partition q tag) s q.val tag.toNat 0 0 s) ∧
    (c.goal = 2 → cmIdle s = false → exec (.partition q tag) s = .next s))

/-! ## Cipher -/

/-- CRYPT. Without a key of the right use it is refused with 0x0305, of an unknown handle with 0x0306, and nothing else changes; a whole
counter-mode encryption writes the enciphered text to its output range, uses one invocation of the generation, and returns its length;
without a path it waits. An idle handle closes, one that a command names stays. -/
def Obligations.CryptRunsUnderItsKey : Prop :=
  (∀ (s : State) (q : Fin 256) (tag : BitVec 16) (input param : Bytes) (c : Cmd), inHand s q.val tag.toNat opCrypt c →
    (cryptReady s c = false → exec (.crypt q tag input param) s = .next s) ∧
    (cryptReady s c = true → cryptSeg c ≤ 1 → ctxOf s (cryptHandle c) = none → curGen s (slotField c.entry) = none →
      answers (.crypt q tag input param) s q.val tag.toNat 0x0305 0 s) ∧
    (cryptReady s c = true → 2 ≤ cryptSeg c → ctxOf s (cryptHandle c) = none →
      answers (.crypt q tag input param) s q.val tag.toNat 0x0306 0 s)) ∧
  (∀ (s : State) (q : Fin 256) (tag : BitVec 16) (input param : Bytes) (c : Cmd) (x : QueuePair) (p : Port) (g : Gen),
    inHand s q.val tag.toNat opCrypt c → qpOf s q.val = some x → queuePath s x = some p → s.cupola.inService ≠ 0 →
    cryptMode c = 2 → cryptSeg c = 0 → cryptDir c = false → slotField c.entry < 64 → curGen s (slotField c.entry) = some g → useCrypt g = true →
    g.used < g.limit → c.writes = [] → c.sent = 0 →
    let text := (fit (lengthField c.entry) input).drop (cryptAad c)
    let out := ctrCrypt g.key ((fit 32 param).take 16) text
    ∃ u g', answers (.crypt q tag input param) s q.val tag.toNat 0 out.length u ∧ (out ≠ [] → .data p (dp1 c.entry) out ∈ u.out) ∧
      curGen u (slotField c.entry) = some g' ∧ g'.used = g.used + 1 ∧ g'.num = g.num ∧ g'.key = g.key) ∧
  (∀ (s : State) (h : Fin 256), live s = true → handleNamed s h.val = false → ∃ t, exec (.cryptHandleTimeout h) s = .next t ∧
    ctxOf t h.val = none ∧ (∀ j, j ≠ h.val → ctxOf t j = ctxOf s j)) ∧
  (∀ (s : State) (h : Fin 256), handleNamed s h.val = true → exec (.cryptHandleTimeout h) s = .next s)

/-! ## Writing and reading objects -/

/-- WRITE and WRITE_MARK. Each ends with the status that stops it; a WRITE that is taken goes on packing at its LON, with one item for each
block of 1 MiB of its records; one mark is packed at once: the partition's logical end is one higher, and the command completes with
RESULT 1. -/
def Obligations.WritesEnterTheStream : Prop :=
  (∀ (s : State) (q : Fin 256) (tag : BitVec 16) (ls : List Nat) (data : Bytes) (c : Cmd), inHand s q.val tag.toNat opWrite c →
    (hasPath s q.val = false → exec (.write q tag ls data) s = .next s) ∧
    (hasPath s q.val = true → lengthsOk c (recordLengths c ls) = false → answers (.write q tag ls data) s q.val tag.toNat 0x0101 0 s)) ∧
  (∀ (s : State) (q : Fin 256) (tag : BitVec 16) (ls : List Nat) (data : Bytes) (c : Cmd) (x : QueuePair) (p : Port),
    inHand s q.val tag.toNat opWrite c → alone s c x p → lengthsOk c (recordLengths c ls) = true → s.drive.vol = none → memoryRefuses s = false →
    ∃ t, exec (.write q tag ls data) s = .next t ∧ completed t c 0x0411 0) ∧
  (∀ (s : State) (q : Fin 256) (tag : BitVec 16) (ls : List Nat) (data : Bytes) (c : Cmd) (x : QueuePair) (p : Port) (sel : CipherSel),
    inHand s q.val tag.toNat opWrite c → alone s c x p → lengthsOk c (recordLengths c ls) = true → memoryRefuses s = false →
    writeStop s c (recordLengths c ls).sum = none → writeSel s (slotField c.entry) (groupFloor s (partField c.entry)) = .ok sel →
    roomLacks s sel (reserveFor (((recordLengths c ls).flatMap blockLengths).map rawFrameLength)) = false → s.wr.stalled = false →
    lonField c.entry = logicalEndOf s (partField c.entry) → reading s = false → s.cz.finished = [] → s.cz.source = [] →
    ∃ t k, exec (.write q tag ls data) s = .next t ∧ cmdOf t q.val tag.toNat = some k ∧ k.phase = .packing ∧ k.goal = countField c.entry ∧
      k.lon = lonField c.entry ∧ k.count = 0 ∧ logicalEndOf t (partField c.entry) = logicalEndOf s (partField c.entry) ∧
      t.cz.nextOrder = s.cz.nextOrder + ((recordLengths c ls).map fun n => max 1 ((n + 1048575) / 1048576)).sum) ∧
  (∀ (s : State) (q : Fin 256) (tag : BitVec 16) (c : Cmd) (x : QueuePair) (p : Port), inHand s q.val tag.toNat opWriteMark c → alone s c x p →
    s.drive.vol = none → memoryRefuses s = false → ∃ t, exec (.writeMark q tag) s = .next t ∧ completed t c 0x0411 0) ∧
  (∀ (s : State) (q : Fin 256) (tag : BitVec 16) (c : Cmd) (x : QueuePair) (p : Port) (sel : CipherSel), inHand s q.val tag.toNat opWriteMark c →
    alone s c x p → memoryRefuses s = false → writeStop s c 0 = none →
    writeSel s (slotField c.entry) (groupFloor s (partField c.entry)) = .ok sel → roomLacks s sel 1 = false → durableFlag c.entry = false →
    c.met = [] → countField c.entry = 1 → lonField c.entry = logicalEndOf s (partField c.entry) → reading s = false → s.cz.finished = [] → s.cz.source = [] →
    (∀ e ∈ s.cz.engines.toList, e = []) →
    ∃ t st, exec (.writeMark q tag) s = .next t ∧ completed t c st 1 ∧ (st = 0 ∨ st = 0x0402) ∧
      logicalEndOf t (partField c.entry) = lonField c.entry + 1)

/-- READ, VERIFY and SPACE. At the logical end a READ or VERIFY completes with 0x0401 and passes nothing. A record that is decoded and
decompressed is transferred whole by a READ, checked by a VERIFY and passed by a SPACE; the position is one object on (one back for a
backward SPACE), and the status tells whether a data set needed level 4 or above. -/
def Obligations.ReadsPassOneObjectAtATime : Prop :=
  (∀ (s : State) (q : Fin 256) (tag : BitVec 16) (c : Cmd) (x : QueuePair) (p : Port) (v : Volume) (i : Instr),
    (i = .read q tag ∧ inHand s q.val tag.toNat opRead c) ∨ (i = .verify q tag ∧ inHand s q.val tag.toNat opVerify c) → alone s c x p →
    s.drive.vol = some v → (partAt s (partField c.entry)).inUse = true → c.met = [] → 0 < countField c.entry → c.count = 0 →
    logicalEndOf s (partField c.entry) ≤ c.lon →
    ∃ t w, exec i s = .next t ∧ completed t c 0x0401 0 ∧ t.drive.vol = some w ∧ w.posPart = partField c.entry ∧ w.posLon = c.lon) ∧
  (∀ (s : State) (q : Fin 256) (tag : BitVec 16) (c : Cmd) (x : QueuePair) (p : Port) (v : Volume) (i : Instr) (o : Obj),
    (i = .read q tag ∧ inHand s q.val tag.toNat opRead c ∧ o.length ≤ lengthField c.entry) ∨
      (i = .verify q tag ∧ inHand s q.val tag.toNat opVerify c ∧ noDecrypt c = false) → alone s c x p →
    s.drive.vol = some v → (partAt s (partField c.entry)).inUse = true → c.met = [] → c.writes = [] → c.sent = 0 → countField c.entry = 1 →
    c.count = 0 → c.used = 0 → c.inRec = 0 → c.lon < logicalEndOf s (partField c.entry) → findObj s c c.lon = .object o → o.mark = false →
    (∀ b ∈ s.rd.badBlocks, ¬ (b.1 = partField c.entry ∧ b.2.1 = c.lon)) →
    (readyBytes s (partField c.entry) c.lon o.blocks.length).length = o.blocks.length →
    ∃ t w, exec i s = .next t ∧ completed t c (if 4 ≤ o.level then 0x0001 else 0) 1 ∧ t.drive.vol = some w ∧
      w.posPart = partField c.entry ∧ w.posLon = c.lon + 1 ∧
      (let bs := (readyBytes s (partField c.entry) c.lon o.blocks.length).flatten
       i = .read q tag → ∀ a n, c.segs = [(a, n)] → bs.length ≤ n → bs ≠ [] → .data p a bs ∈ t.out)) ∧
  (∀ (s : State) (q : Fin 256) (tag : BitVec 16) (c : Cmd) (x : QueuePair) (p : Port) (v : Volume), inHand s q.val tag.toNat opSpace c →
    alone s c x p → s.drive.vol = some v → (partAt s (partField c.entry)).inUse = true → c.met = [] → c.count = 0 → c.used = 0 →
    specField c.entry 48 1 = 0 →
    (countField c.entry = 0 → ∃ t w, exec (.space q tag) s = .next t ∧ completed t c 0 0 ∧ t.drive.vol = some w ∧ w.posLon = c.lon) ∧
    (countField c.entry = 1 → c.lon < logicalEndOf s (partField c.entry) → ∀ o, findObj s c c.lon = .object o → o.mark = false →
      ∃ t w, exec (.space q tag) s = .next t ∧ completed t c (if 4 ≤ o.level then 0x0001 else 0) 1 ∧ t.drive.vol = some w ∧
        w.posLon = c.lon + 1) ∧
    (countField c.entry = 2 ^ 64 - 1 → 0 < c.lon → ∀ o, findObj s c (c.lon - 1) = .object o → o.mark = false →
      ∃ t w, exec (.space q tag) s = .next t ∧ completed t c (if 4 ≤ o.level then 0x0001 else 0) 1 ∧ t.drive.vol = some w ∧
        w.posLon = c.lon - 1))


/-! ## The write path -/

/-- From the engines to encoded rows. A finished block leaves its engine, and a raw one is counted; the stall follows the two levels of
staging, and what is let go is packed; the oldest closed payload is sealed under its partition's next number; the oldest sealed one gets its rows; a dome whose data
sets are encoded gets its two parity sets, once. With nothing to do each leaves the state as it was. -/
def Obligations.PayloadsAreSealedEncodedAndProtected : Prop :=
  (∀ (e : Fin 4) (s : State) (it : StreamItem) (rest : List StreamItem), live s = true → getAt s.cz.engines e.val [] = it :: rest →
    s.cz.source = [] → ∃ t, exec (.compressionBlockDone e) s = .next t ∧ (getAt t.cz.engines e.val []).length = rest.length ∧
      t.cz.cntRaw = (if zstdIsRaw (it.run.getD (it.effort, false)).1 (it.run.getD (it.effort, false)).2 it.data then inc s.cz.cntRaw else s.cz.cntRaw) ∧
      isPending t (92 + e.val)) ∧
  (∀ (e : Fin 4) (s : State), getAt s.cz.engines e.val [] = [] → exec (.compressionBlockDone e) s = .next s) ∧
  (∀ s : State, live s = true → ∃ u, exec .stagingStallRelease s = .next (pack u) ∧ changesOnly [.wrStalled, .wrStallAt, .wvnStallTicks] s u ∧
    (20 * gib ≤ backlog s + unreleased s + 256 * mib → u.wr.stalled = true) ∧
    (backlog s + unreleased s + 256 * mib < 20 * gib - 64 * mib → u.wr.stalled = false) ∧
    (20 * gib - 64 * mib ≤ backlog s + unreleased s + 256 * mib → backlog s + unreleased s + 256 * mib < 20 * gib → u = s)) ∧
  (∀ (s : State) (d : DataSet), live s = true → oldestAt s .closed = some d → stagedSet s d.id = some d →
    d.sel.cipher = 0 ∨ genOf s d.sel.slot d.sel.gen ≠ none → ∃ t y, exec .cupolaInvocation s = .next t ∧ stagedSet t d.id = some y ∧
      y.stage = .sealed ∧ y.n = some (mkN d.part (partAt s d.part).nextN) ∧ y.stream = d.stream ∧ t.wr.commits = s.wr.commits) ∧
  (∀ s : State, oldestAt s .closed = none → exec .cupolaInvocation s = .next s) ∧
  (∀ (s : State) (d : DataSet), live s = true → oldestAt s .sealed = some d → stagedSet s d.id = some d →
    ∃ t y, exec .eccEncode s = .next t ∧ stagedSet t d.id = some y ∧ y.stage = .encoded ∧ y.n = d.n ∧ y.payload = d.payload) ∧
  (∀ s : State, oldestAt s .sealed = none → exec .eccEncode s = .next s) ∧
  (∀ (g : Nat) (m : Fin 8) (s : State) (last : Nat), live s = true → closingPos s g = some last → domeEncoded s g m.val last = true →
    (g, m.val) ∉ s.wr.domesReady ++ s.wr.domesReleased → ∃ t a b, exec (.domeParityCompute g m) s = .next t ∧ t.wr.sets = s.wr.sets ++ [a, b] ∧
      a.n = some (512 * g + 496 + m.val) ∧ b.n = some (512 * g + 504 + m.val) ∧ a.kind = .parity ∧ b.kind = .parity ∧ a.stage = .sealed ∧
      b.stage = .sealed ∧ t.wr.domesReady = s.wr.domesReady ++ [(g, m.val)]) ∧
  (∀ (g : Nat) (m : Fin 8) (s : State), closingPos s g = none ∨ (g, m.val) ∈ s.wr.domesReady ++ s.wr.domesReleased →
    exec (.domeParityCompute g m) s = .next s)

/-- Slots. A commit point whose decision is a data set's first copy commits it to the slot in hand and goes on to the next slot; while writing
is inhibited the slot is left unwritten; behind the last slot the wrap ends. A verify result takes its commit away: a copy that passes
leaves no rewrite behind, one that fails is to be rewritten. A turnaround follows a wrap that has been written and verified, or read. -/
def Obligations.SlotsAreCommittedThenVerified : Prop :=
  (∀ s : State, committing s = false → exec .slotCommit s = .next s) ∧
  (∀ s : State, live s = true → committing s = true → slotsPerWrap ≤ s.wr.slot → ∃ t, exec .slotCommit s = .next t ∧ t.wr.wrapEnding = true ∧
    t.wr.slot = s.wr.slot ∧ t.wr.commits = s.wr.commits) ∧
  (∀ s : State, live s = true → committing s = true → s.wr.slot < slotsPerWrap → anyGroupFailed s = false → training s = false →
    writeFree s = false → ∃ t, exec .slotCommit s = .next t ∧ t.wr.slot = s.wr.slot + 1 ∧ t.wr.commits = s.wr.commits ∧ t.wr.sets = s.wr.sets ∧
      t.drive = s.drive) ∧
  (∀ (s : State) (d : DataSet), live s = true → committing s = true → s.wr.slot < slotsPerWrap → anyGroupFailed s = false → training s = false →
    writeFree s = true → memoryRefuses s = false → s.wr.tokens = true → s.wr.skipLeft = 0 →
    slotUse (pruneRewrites (advanceTo (⌈commitPoint s⌉.toNat) s)) = .first d →
    ∃ t c, exec .slotCommit s = .next t ∧ c ∈ t.wr.commits ∧ c.slot = s.wr.slot ∧ c.id = d.id ∧ c.rewritten = false ∧ t.wr.slot = s.wr.slot + 1 ∧
      t.power.time = max s.power.time (⌈commitPoint s⌉.toNat)) ∧
  (∀ (s : State) (slot : Nat), (∀ c ∈ s.wr.commits, c.slot ≠ slot) → exec (.verifyResult slot) s = .next s) ∧
  (∀ (s : State) (slot : Nat) (c : Commit) (d : DataSet), live s = true → (s.wr.commits.find? fun c => c.slot == slot) = some c → c.affected = false →
    stagedSet s c.id = some d → d.stage ≠ .passed → d.id < s.wr.nextId →
    let s1 := (s.onWr fun w => { w with commits := w.commits.filter fun x => x.slot != slot }).onTiles fun k =>
      { k with verifies := k.verifies.filter fun x => x.slot != slot }
    let m := moduleOf s.wr.wrap
    let v := verifyOf s slot
    (verifyPasses (countDead m v (deadRun c.cfg2) s1) m c.cfg v = true → ∃ t, exec (.verifyResult slot) s = .next t ∧
      (∀ x ∈ t.wr.commits, x.slot ≠ slot) ∧ d.id ∉ t.wr.rewrites ∧ (∀ y ∈ t.wr.sets, y.id = d.id → y.stage = .passed)) ∧
    (verifyPasses (countDead m v (deadRun c.cfg2) s1) m c.cfg v = false → ∃ t, exec (.verifyResult slot) s = .next t ∧
      (∀ x ∈ t.wr.commits, x.slot ≠ slot) ∧ d.id ∈ t.wr.rewrites)) ∧
  (∀ s : State, live s = true → s.wvn.run = .writing → s.wvn.state = .stream → slotsPerWrap ≤ s.wr.slot → s.wr.wrapEnding = false →
    ∃ t, exec .wrapEnd s = .next t ∧ t.wr.wrapEnding = true ∧ changesOnly [.wrWrapEnding, .tilesWfifo, .tilesWfifoAt, .hlkGroups, .out] s t) ∧
  (∀ s : State, s.wr.slot < slotsPerWrap → exec .wrapEnd s = .next s) ∧
  (∀ s : State, live s = true → s.wvn.run = .writing → s.wvn.state = .stream → s.wr.wrapEnding = true → s.wr.commits = [] →
    wrapFollows s s.wr.part s.wr.wrap = true → ∃ t, exec .turnEntry s = .next t ∧ t.wvn.state = .turn ∧ t.wvn.frozen = true ∧
      t.wvn.cntTurn = inc s.wvn.cntTurn ∧ t.wr.wrap = s.wr.wrap + 1 ∧ t.wr.slot = 0 ∧ t.wr.wrapEnding = false) ∧
  (∀ s : State, live s = true → s.wvn.run = .reading → s.wvn.state = .stream → slotsPerWrap ≤ s.rd.slot → wrapFollows s s.rd.part s.rd.wrap = true →
    ∃ t, exec .turnEntry s = .next t ∧ t.wvn.state = .turn ∧ t.wvn.cntTurn = inc s.wvn.cntTurn ∧ t.rd.wrap = s.rd.wrap + 1 ∧ t.rd.slot = 0) ∧
  (∀ s : State, s.wvn.run = .none ∨ s.wvn.run = .retry → exec .turnEntry s = .next s)

/-- The write inhibit and the link to the cartridge memory. An inhibit source stops the tokens and is counted when it is the first; ALARM and
POWER ban the resume; tokens flow again exactly when every source has cleared, PES_GOOD is met and nothing bans it. A busy reader is
polled again, a write that is answered in order is in the memory and the next request goes out, anything else repeats the request three
times and then fails the access; the field goes off after HLTA once the link is idle. -/
def Obligations.InhibitsAndTheMemoryLinkHoldTheirRules : Prop :=
  (∀ (src : InhibitSource) (s : State), live s = true → s.wr.sources.getLsbD (sourceBit src) = false → ∃ t, exec (.writeInhibit src) s = .next t ∧
    t.wr.sources.getLsbD (sourceBit src) = true ∧ (∀ i, i ≠ sourceBit src → t.wr.sources.getLsbD i = s.wr.sources.getLsbD i) ∧
    t.wr.inhibited = true ∧ (src = .alarm ∨ src = .power → t.wr.noResume = true) ∧
    (s.wr.sources = 0 → t.wr.tokens = false ∧ t.ecc.cntInhibit = inc s.ecc.cntInhibit) ∧
    (s.wr.sources ≠ 0 → changesOnly [.wrSources, .wrInhibited, .wrNoResume] s t)) ∧
  (∀ (src : InhibitSource) (s : State), s.wr.sources.getLsbD (sourceBit src) = true → exec (.writeInhibit src) s = .next s) ∧
  (∀ s : State, live s = true → mayResume s = true → ∃ t, exec .writeResume s = .next t ∧ t.wr.inhibited = false ∧ t.wr.tokens = true ∧
    t.wr.holdUntil = none ∧ t.power.time = max s.power.time (s.wr.holdUntil.getD 0) ∧ s.wr.slot ≤ t.wr.slot) ∧
  (∀ s : State, mayResume s = false → exec .writeResume s = .next s) ∧
  (∀ s : State, mayResume s = true ↔ s.wr.inhibited = true ∧ s.wr.sources = 0 ∧ s.wr.noResume = false ∧ pesGoodNeed s ≤ s.wr.pesGood) ∧
  (∀ (bs : Bytes) (r : CmReq) (rest : List CmReq) (s : State), live s = true → s.drive.link.queue = r :: rest →
    (field bs 0 1 = 0 → exec (.cmResponse bs) s =
      .next (settle (kickWrites false { s with drive := { s.drive with link := { s.drive.link with busy := true } } }))) ∧
    (r.job ≠ .halt → field bs 0 1 ≠ 0 → ¬ (field bs 0 1 = 1 ∧ cmFrameOk bs = true) → s.drive.link.tries < 3 →
      ∃ u, exec (.cmResponse bs) s = .next (settle (kickWrites false u)) ∧ u.drive.link.queue = r :: rest ∧
        u.drive.link.tries = s.drive.link.tries + 1 ∧ u.out = s.out ++ [.cmFrame r.frame, .cmFrame cmPoll] ∧
        changesOnly [.driveLink, .out] s u) ∧
    (r.job ≠ .halt → field bs 0 1 ≠ 0 → ¬ (field bs 0 1 = 1 ∧ cmFrameOk bs = true) → 3 ≤ s.drive.link.tries →
      exec (.cmResponse bs) s = .next (settle (kickWrites false (cmFail s)))) ∧
    (∀ (a : Nat) (w : Bytes) (k : Cartridge), r.job = .write a w → field bs 0 1 = 1 → cmFrameOk bs = true → slice bs 2 (field bs 1 1) = [0] →
      s.drive.cart = some k → Memory.wf k.cm → ∃ u k', exec (.cmResponse bs) s = .next (settle (kickWrites false u)) ∧ u.drive.cart = some k' ∧
        Memory.readBytes k'.cm a w.length = w ∧ (∀ x, x < a ∨ a + w.length ≤ x → Memory.read k'.cm x = Memory.read k.cm x) ∧
        (∀ r2 rest2, rest = r2 :: rest2 → doneMark r2 = none → u.drive.link.queue = rest ∧
          u.out = s.out ++ [.cmFrame r2.frame, .cmFrame cmPoll]))) ∧
  (∀ s : State, live s = true → s.drive.link.busy = true → ∃ t, exec .cmPollRetry s = .next t ∧ t.drive.link.busy = false ∧
    t.out = s.out ++ [.cmFrame cmPoll] ∧ t.power.time = s.power.time + 5000 ∧ changesOnly [.driveLink, .powerTime, .out] s t) ∧
  (∀ s : State, live s = true → s.drive.link.field = true → cmIdle s = true → ∃ t, exec .cmFieldOffTimeout s = .next t ∧
    t.drive.link.field = false ∧ t.drive.link.queue = [cmReq 100 [0x50, 0x00] .halt, ⟨cmFrame 1 [0], .plain⟩] ∧
    t.power.time = max s.power.time (s.drive.link.usedAt + 10000000) ∧ changesOnly [.driveLink, .powerTime, .out] s t) ∧
  (∀ s : State, (s.drive.link.busy = false → exec .cmPollRetry s = .next s) ∧
    (s.drive.link.field = false ∨ cmIdle s = false → exec .cmFieldOffTimeout s = .next s))

/-! ## Weathervane -/

/-- Voltage and margin. The voltage of a falling speed follows once the tape is within 1 %; a read-back within 5 mV acknowledges the target;
without it the write is repeated three times, then it has failed, is counted and raises source 111, and r is held; a failed write is tried
again. A low margin raises the offset by 10 mV up to 60 mV. -/
def Obligations.TheVoltageIsWrittenAndAcknowledged : Prop :=
  (∀ (s : State) (mv : Nat), live s = true → s.wvn.vPending = some mv → (speedNear s = true → ∃ t, exec .speedReached s = .next t ∧
    t.wvn.vPending = none ∧ t.power.avsTarget = some mv ∧ t.power.avsTries = 1 ∧ t.out = s.out ++ [.avsWrite mv] ∧
    changesOnly [.wvnVPending, .powerAvsTarget, .powerAvsTries, .powerAvsFailed, .out] s t) ∧
    (speedNear s = false → exec .speedReached s = .next s)) ∧
  (∀ s : State, s.wvn.vPending = none → exec .speedReached s = .next s) ∧
  (∀ (s : State) (mv a : Nat), live s = true → s.power.avsTarget = some a →
    (mv ≤ a + 5 → a ≤ mv + 5 → s.wvn.rPending = none → ∃ t, exec (.avsReadback mv) s = .next t ∧ t.power.vop = a ∧ t.power.vout = mv ∧
      t.power.avsTarget = none ∧ t.power.avsFailed = false ∧
      t.power.avsHold = false ∧ changesOnly [.powerVop, .powerVout, .powerAvsTarget, .powerAvsTries, .powerAvsFailed, .powerAvsHold] s t) ∧
    (mv ≤ a + 5 → a ≤ mv + 5 → ∀ r, s.wvn.rPending = some r → ∃ t, exec (.avsReadback mv) s = .next t ∧ t.power.vop = a ∧
      (bandVoltage s (targetBand s r) ≤ a → t.wvn.r = r ∧ t.wvn.rPending = none ∧ .speedSet r ∈ t.out)) ∧
    (a + 5 < mv ∨ mv + 5 < a → ∃ t, exec (.avsReadback mv) s = .next t ∧ t.power.vout = mv ∧ changesOnly [.powerVout] s t)) ∧
  (∀ (s : State) (a : Nat), live s = true → s.power.avsTarget = some a →
    (s.power.avsFailed = false → s.power.avsTries ≤ 3 → ∃ t, exec .avsAckTimeout s = .next t ∧ t.power.avsTries = s.power.avsTries + 1 ∧
      t.power.avsHold = true ∧ t.out = s.out ++ [.avsWrite a] ∧ changesOnly [.powerAvsTries, .powerAvsHold, .out] s t) ∧
    (s.power.avsFailed = false → 3 < s.power.avsTries → ∃ t, exec .avsAckTimeout s = .next t ∧ t.power.avsFailed = true ∧
      t.power.avsHold = true ∧ t.power.cntAvsFail = inc s.power.cntAvsFail ∧ isPending t 111 ∧ t.wvn.r = s.wvn.r) ∧
    (s.power.avsFailed = true → exec .avsAckTimeout s = .next s ∧ ∃ t, exec .avsRetryPeriod s = .next t ∧ t.out = s.out ++ [.avsWrite a] ∧
      changesOnly [.out] s t)) ∧
  (∀ s : State, s.power.avsTarget = none → exec .avsAckTimeout s = .next s ∧ exec .avsRetryPeriod s = .next s) ∧
  (∀ (k : Nat) (s : State), live s = true → k < 80 → s.wvn.marginOfs < 60 → ∃ t, exec (.marginSample k) s = .next t ∧
    t.wvn.marginOfs = min 60 (s.wvn.marginOfs + 10) ∧ t.wvn.marginMs = 0) ∧
  (∀ (k : Nat) (s : State), live s = true → k < 80 → 60 ≤ s.wvn.marginOfs → ∃ t, exec (.marginSample k) s = .next t ∧
    t.wvn.marginOfs = s.wvn.marginOfs ∧ t.wvn.capM = min s.wvn.capM (bandOfR s.wvn.r - 1)) ∧
  (∀ (k : Nat) (s : State), live s = true → 80 ≤ k → k ≤ 150 → ∃ t, exec (.marginSample k) s = .next t ∧ t.wvn.marginMs = 0 ∧
    t.wvn.marginOfs = s.wvn.marginOfs ∧ t.wvn.capM = s.wvn.capM)

/-- Runs. An update stands on the next whole millisecond and counts a stall; a run stops only when its fill lets it; it is stopped once the
tape stands after its backhitch; it starts again after BH_MAX_WAIT with data waiting; 60 s without work end it; a RESTART streams on at
speed; a read run that has reached the EOD ends and keeps its read-ahead. -/
def Obligations.RunsStopAndGoOnAsTheTableSays : Prop :=
  (∀ s : State, live s = true → ∃ t, exec .wvnUpdate s = .next t ∧ t.power.time = max s.power.time ((s.power.time / 100000 + 1) * 100000) ∧
    t.wvn.cntStall = (if s.wr.stalled then inc s.wvn.cntStall else s.wvn.cntStall) ∧ t.wvn.moved = 0 ∧ t.keep = s.keep ∧ t.host.cmds = s.host.cmds) ∧
  (∀ s : State, live s = true → s.wvn.state = .stream → bhDwell s ≤ s.wvn.dwellMs → mayStop s = true → ∃ t, exec .bhDwellExpiry s = .next t ∧
    t.wvn.state = .stopping ∧ (reading s = true → t.rd.active = false)) ∧
  (∀ s : State, s.wvn.state ≠ .stream ∨ s.wvn.dwellMs < bhDwell s ∨ mayStop s = false → exec .bhDwellExpiry s = .next s) ∧
  (∀ s : State, live s = true → s.wvn.state = .stopping → s.stp.mode = .still → s.stp.program.running = false → s.wvn.run = .writing →
    256 * backlog s < bhStart s * (20 * gib) → ∃ t, exec .backhitchStopped s = .next t ∧ t.wvn.state = .stopped ∧ t.wvn.r = 0 ∧
      t.wvn.cntBh = inc s.wvn.cntBh ∧ t.wvn.stoppedAt = s.power.time) ∧
  (∀ s : State, s.wvn.state ≠ .stopping → exec .backhitchStopped s = .next s) ∧
  (∀ s : State, live s = true → s.wvn.state = .stopped → s.wvn.run = .writing → 0 < backlog s → programAllowed s 2 = true →
    ∃ t, exec .bhMaxWaitExpiry s = .next t ∧ t.wvn.state = .restart ∧ t.wvn.rCmd = 1024 ∧
      t.power.time = max s.power.time (s.wvn.stoppedAt + bhMaxWait s * 100000)) ∧
  (∀ s : State, s.wvn.state ≠ .stopped ∨ s.wvn.run ≠ .writing ∨ backlog s = 0 → exec .bhMaxWaitExpiry s = .next s) ∧
  (∀ s : State, live s = true → s.wvn.state = .stopped → noWork s = true → ∃ t, exec .stoppedIdleTimeout s = .next t ∧ t.wvn.state = .idle ∧
    t.wvn.run = .none ∧ t.wvn.r = 0 ∧ t.rd.active = false ∧ t.rd.sets = s.rd.sets) ∧
  (∀ s : State, s.wvn.state ≠ .stopped ∨ noWork s = false → exec .stoppedIdleTimeout s = .next s) ∧
  (∀ s : State, live s = true → s.wvn.state = .restart → s.stp.mode = .track → speedNear s = true → pesGoodNeed s ≤ s.wr.pesGood →
    (reading s = true → retryNext s = none) →
    ∃ t, exec .restartResume s = .next t ∧ t.wvn.state = .stream ∧ t.wvn.dwellMs = 0 ∧ t.wvn.frozen = false ∧ (reading s = true → t.rd.active = true) ∧
      (reading s = false → t.wr.noFirst = false ∧ t.wr.anchor = none ∧ t.wr.slot = s.wr.resumeAt)) ∧
  (∀ s : State, s.wvn.state ≠ .restart ∨ speedNear s = false ∨ s.wr.pesGood < pesGoodNeed s → exec .restartResume s = .next s) ∧
  (∀ s : State, live s = true → s.wvn.run = .reading → s.rd.ended = true → ∃ t, exec .readAhead s = .next t ∧ t.wvn.run = .none ∧ t.wvn.state = .idle ∧
    t.rd.active = false ∧ t.rd.sets = s.rd.sets) ∧
  (∀ s : State, s.wvn.run ≠ .reading → retryNext s = none → exec .readAhead s = .next s)


/-! ## The read channels and the read path -/

/-- A read channel, window by window. A sample packet reaches its channel alone and counts the sample index on; one that does not come is
counted and read as 266 zeros; the sync window takes the mark found, or goes wide, or to a lost frame; a frame's end hands it to the
assembler and goes to the next slot; replay, realignment and prediction work on their own channel. What a channel is not in the state to
take changes nothing. -/
def Obligations.ReadChannelsWorkWindowByWindow : Prop :=
  (∀ (g lane : Fin 8) (ty : BitVec 4) (fl : BitVec 36) (crc : BitVec 24) (pay : List (BitVec 64)) (s : State),
    let p : HlPacket := ⟨g, lane, crc ++ fl ++ ty, pay⟩
    let c := chanNo g (Fin.ofNat 128 (bits fl.toNat 0 7))
    let k := chanOf_ s c
    let sidx := bits fl.toNat 8 24
    (live s = true → samplePacketOk p = false → exec (.samplePacket g lane ty fl crc pay) s = .next (discardPacket g lane.val s)) ∧
    (samplePacketOk p = true → (hlGroup s g).state ≠ .up ∨ (hlGroup s g).rxLive.getLsbD lane.val = false ∨ k.state = .idle ∨
      (tilesOut s).getLsbD c = true → exec (.samplePacket g lane ty fl crc pay) s = .next s) ∧
    (live s = true → samplePacketOk p = true → (hlGroup s g).state = .up → (hlGroup s g).rxLive.getLsbD lane.val = true →
      k.state ≠ .idle → (tilesOut s).getLsbD c = false → k.vs = [] ∨ k.nextSidx = sidx → ∃ t, exec (.samplePacket g lane ty fl crc pay) s = .next t ∧
        (chanOf_ t c).nextSidx = (sidx + 266) % 2 ^ 24 ∧ (chanOf_ t c).vs.length = min 12288 (k.vs.length + 266) ∧
        ∀ d, d ≠ c → chanOf_ t d = chanOf_ s d)) ∧
  (∀ (g : Fin 8) (ch : Fin 128) (s : State), live s = true → ∃ t, exec (.samplePacketLost g ch) s = .next t ∧
    (hlGroup t g).cntLost = inc (hlGroup s g).cntLost ∧ (∀ d, d ≠ chanNo g ch → chanOf_ t d = chanOf_ s d) ∧
    ((chanOf_ s (chanNo g ch)).state = .idle → changesOnly [.hlkGroups] s t) ∧
    ((chanOf_ s (chanNo g ch)).state ≠ .idle →
      (chanOf_ t (chanNo g ch)).nextSidx = ((chanOf_ s (chanNo g ch)).nextSidx + 266) % 2 ^ 24)) ∧
  (∀ (k : Chan) (mark : List Bool) (limit lo hi p : Nat), seekMark k mark limit lo hi = some (some p) → lo ≤ p ∧ p ≤ hi ∧
    ∃ d, d ≤ limit ∧ markErrors mark ((List.range mark.length).map fun i => llrAt k (p + i)) = some d) ∧
  (∀ (c : Fin 1024) (s : State), live s = true → let k := chanOf_ s c
    ∃ t, exec (.syncWindow c) s = .next t ∧ changesOnly [.tilesChans] s t ∧ (∀ d, d ≠ c.val → chanOf_ t d = chanOf_ s d) ∧
    (k.state = .seekSync → ∀ r, seekMark k syncBits (syncLimit s c) (max k.lockFrom (syncExpected k - 48)) (syncExpected k + 48) = some r →
      (r = none → (chanOf_ t c).state = .wideResync ∧ (chanOf_ t c).syncMissed = true) ∧
      (∀ p, r = some p → (chanOf_ t c).syncAt = some p ∧ (chanOf_ t c).frameAt = some (p - 96) ∧
        ((chanOf_ t c).state = .blockA ∨ (chanOf_ t c).state = .seekResync))) ∧
    (k.state = .seekResync → ∀ f r, k.frameAt = some f → seekMark k resyncBits (resyncLimit s c) (f + 4545) (f + 4561) = some r →
      (chanOf_ t c).state = .blockB ∧ (chanOf_ t c).blockB = (match r with | some q => q + 24 | none => f + 4577)) ∧
    (k.state = .wideResync → ∀ r, seekMark k resyncBits (resyncLimit s c) (syncExpected k + 4409) (syncExpected k + 4505) = some r →
      (∀ q, r = some q → (chanOf_ t c).state = .blockB ∧ (chanOf_ t c).blockB = q + 24 ∧ (chanOf_ t c).replayA = true) ∧
      (r = none → k.counter < syncExpected k + 8976 → (chanOf_ t c).state = .lostFrame))) ∧
  (∀ (c : Fin 1024) (s : State), (chanOf_ s c).replayA = false ∨ (chanOf_ s c).frameAt = none ∨ engineFree s c = false → exec (.blockAReplay c) s = .next s) ∧
  (∀ (c : Fin 1024) (s : State) (f : Nat), live s = true → engineFree s c = true → (chanOf_ s c).replayA = true → (chanOf_ s c).frameAt = some f →
    ∃ t, exec (.blockAReplay c) s = .next t ∧ (chanOf_ t c).replayA = false ∧ (chanOf_ t c).counter = (chanOf_ s c).counter ∧
      changesOnly [.tilesChans] s t ∧ ∀ d, d ≠ c.val → chanOf_ t d = chanOf_ s d) ∧
  (∀ (c : Fin 1024) (s : State) (f : Nat), (chanOf_ s c).frameAt = some f →
    ((chanOf_ s c).state ≠ .blockB ∨ (chanOf_ s c).counter < f + 9002 → exec (.frameEnd c) s = .next s) ∧
    (live s = true → (chanOf_ s c).state = .blockB → f + 9002 ≤ (chanOf_ s c).counter → ∃ t, exec (.frameEnd c) s = .next t ∧
      (chanOf_ s c).slot < (chanOf_ t c).slot ∧ (chanOf_ t c).frameAt = none ∧ (chanOf_ t c).state ≠ .blockB ∧
      (slotTaken s (chanOf_ s c).slot = true → deskewDone s (chanOf_ s c).slot = false → ∃ a ∈ t.tiles.asm, a.slot = (chanOf_ s c).slot ∧ ∃ x ∈ a.frames, x.chan = c.val))) ∧
  (∀ (c : Fin 1024) (s : State), realignEn s c = false → exec (.realignment c) s = .next s) ∧
  (∀ (c : Fin 1024) (s : State), live s = true → realignEn s c = true →
    ∃ t, exec (.realignment c) s = .next t ∧ changesOnly [.tilesAsm] s t ∧
      (∀ a ∈ s.tiles.asm, settledSeq a.frames = none → a ∈ t.tiles.asm) ∧
      (∀ a ∈ s.tiles.asm, ∀ seq, settledSeq a.frames = some seq → ∃ b ∈ t.tiles.asm, b.slot = a.slot ∧
        b.frames.map (·.chan) = a.frames.map (·.chan) ∧ (∀ f ∈ a.frames, f.chan ≠ c.val → f ∈ b.frames) ∧
        ∀ f ∈ b.frames, f.chan = c.val → f.tried = false → realignDue (headerFits s seq seq c) f = false ∧ f ∈ a.frames)) ∧
  (∀ (c : Fin 1024) (s : State), (chanOf_ s c).lostSlot = none ∨ engineFree s c = false → exec (.siblingPrediction c) s = .next s) ∧
  (∀ (c : Fin 1024) (s : State) (slot : Nat), live s = true → engineFree s c = true → (chanOf_ s c).lostSlot = some slot → ∃ t, exec (.siblingPrediction c) s = .next t ∧
    changesOnly [.tilesChans, .tilesAsm] s t ∧ (chanOf_ t c).lostSlot = none ∧
    (slotTaken s slot = true → deskewDone s slot = false → (∀ a ∈ s.tiles.asm, a.slot = slot → ∀ f ∈ a.frames, f.chan ≠ c.val) → ∃ a ∈ t.tiles.asm, a.slot = slot ∧
      ∃ f ∈ a.frames, f.chan = c.val ∧ f.missed = true ∧
        ((syncedAt s (siblingsOf s c) slot).length < 3 ∨ siblingEn s c = false → f.found = false)))

/-- A slot behind the deskew, and what follows levels 1 to 3. While writing, its rows are graded and kept for the verify result; while
reading, a slot without a valid header is passed over, and a slot whose rows decode puts its data set into read-ahead. Dome recovery counts what it
rebuilds; the next retry attempt follows while the data set has not decoded; decryption, decompression and commit take the oldest item
that is ready, and count a tag or a frame that fails. -/
def Obligations.TheReadPathTakesDecodedSetsOn : Prop :=
  (∀ (slot : Nat) (s : State), deskewDone s slot = true → exec (.deskewComplete slot) s = .next s) ∧
  (∀ (slot : Nat) (s : State), live s = true → deskewDone s slot = false → s.wvn.run = .none → ∃ t, exec (.deskewComplete slot) s = .next t ∧
    t.tiles.asm = s.tiles.asm.filter (fun a => a.slot != slot) ∧ deskewDone t slot = true ∧
    (∀ c, (chanOf_ t c).lostSlot ≠ some slot) ∧ changesOnly [.tilesAsm, .tilesDeskewed, .tilesChans] s t) ∧
  (∀ (slot q n : Nat) (s : State) (a : SlotAsm) (c : Commit) (d : DataSet), live s = true → deskewDone s slot = false → s.wvn.run = .writing →
    (s.tiles.asm.find? fun a => a.slot == slot) = some a → (s.wr.commits.find? fun c => c.slot == slot) = some c → stagedSet s c.id = some d →
    d.n = some n → slotSeq (a.frames ++ abandoned s slot) = some q →
    emptySlot s (fun c => headerFits s q n c) (a.frames ++ abandoned s slot) = false →
    ∃ t, exec (.deskewComplete slot) s = .next t ∧ changesOnly [.tilesAsm, .tilesDeskewed, .tilesChans, .tilesVerifies] s t ∧
      ∃ v ∈ t.tiles.verifies, v.slot = slot ∧ v.grades.length = 1024) ∧
  (∀ (slot : Nat) (s : State), live s = true → deskewDone s slot = false → s.wvn.run = .reading ∨ s.wvn.run = .retry →
    (∀ a ∈ s.tiles.asm, a.slot = slot → slotSeq a.frames = none) → ∃ t, exec (.deskewComplete slot) s = .next t ∧
      t.rd.slot = max s.rd.slot (slot + 1) ∧ changesOnly [.tilesAsm, .tilesDeskewed, .tilesChans, .rdSlot] s t) ∧
  (∀ (slot seq level : Nat) (frames : List FrameRec) (out : List (List Bool)) (s : State), s.rd.retry = none →
    let n := fullN s slot seq
    (decodeSlot s n (inRowOrder n (chanRows s (decodeCfg (regsOf s n)) (eraseMap s s.tiles.module) (fun c => headerFits s seq n c) frames))).out = some (level, out) →
    ownN n (rowsPayload out) = some n → takesSet s n = true → ∃ r ∈ (readSlot slot seq frames s).rd.sets,
      r.n = n ∧ r.slot = slot ∧ r.level = level ∧ r.payload = rowsPayload out ∧ r.plain = none) ∧
  (∀ (g : Nat) (d : Fin 8) (s : State), domeWaiting s g d = [] → exec (.domeRecovery g d) s = .next s) ∧
  (∀ (g : Nat) (d : Fin 8) (s : State), live s = true → domeWaiting s g d ≠ [] →
    let lost := (domeMembers s g d).filterMap fun m => if m.2.isNone then some m.1 else none
    ∃ t, exec (.domeRecovery g d) s = .next t ∧ (2 < lost.length → t.ecc.cntDome = s.ecc.cntDome) ∧
      (∀ a, lost = [a] → (failedSet s (memberN g d a)).isSome = true → t.ecc.cntDome = inc s.ecc.cntDome)) ∧
  (∀ s : State, s.rd.retry = none ∨ s.wvn.run ≠ .retry → exec .retryAttemptDone s = .next s) ∧
  (∀ (s : State) (n k : Nat) (f : FailedSet), live s = true → s.wvn.run = .retry → s.rd.retry = some (n, k) → failedSet s n = some f →
    k + 1 < s.rd.menu.length → ∃ t, exec .retryAttemptDone s = .next t ∧ t.rd.retry = some (n, k + 1) ∧
      failedSet t n = some { f with attempts := k + 1 } ∧ t.wvn.run = .retry ∧ t.rd.sets = s.rd.sets) ∧
  (∀ s : State, s.cupola.inService = 0 ∨ decryptNext s = none → exec .decryptInvocation s = .next s) ∧
  (∀ (s : State) (r : RaSet) (k : Option (Nat × Gen)), live s = true → s.cupola.inService ≠ 0 → decryptNext s = some (r, k) →
    ∃ t, exec .decryptInvocation s = .next t ∧
      t.cupola.cntTagFail = (if (openedUser s r.payload k).isSome then s.cupola.cntTagFail else inc s.cupola.cntTagFail) ∧
      (∀ user, openedUser s r.payload k = some user → (∀ c ∈ s.host.cmds, isReading c = false) →
        t.rd.sets = mapIf (fun y => y.n == r.n) (fun y => { y with plain := some user, keySlot := k.map Prod.fst }) s.rd.sets)) ∧
  (∀ (e : Fin 4) (s : State), getAt s.cz.decomp e [] = [] → exec (.decompressionBlockDone e) s = .next s) ∧
  (∀ (e : Fin 4) (s : State) (it : DecompItem) (rest : List DecompItem), live s = true → getAt s.cz.decomp e [] = it :: rest →
    ∃ t, exec (.decompressionBlockDone e) s = .next t ∧
      t.cz.cntErr = (if (zstdDecode it.length it.frame).isSome then s.cz.cntErr else inc s.cz.cntErr) ∧
      ((∀ c ∈ s.host.cmds, isReading c = false) → getAt t.cz.decomp e [] = rest ∧ ∀ b, zstdDecode it.length it.frame = some b →
        t.rd.packets = s.rd.packets ++ [⟨it.part, it.lon, it.block, b, it.deps, false⟩])) ∧
  (∀ s : State, (∀ k ∈ s.rd.packets, k.committed = true ∨ tagsPassed s k = false) → exec .hostPacketCommit s = .next s) ∧
  (∀ (s : State) (k : HostPacket), live s = true → (s.rd.packets.find? fun k => !k.committed) = some k → tagsPassed s k = true →
    (∀ c ∈ s.host.cmds, isReading c = false) → ∃ t, exec .hostPacketCommit s = .next t ∧ changesOnly [.rdPackets] s t ∧
      ∀ x ∈ s.rd.packets, x = k → { x with committed := true } ∈ t.rd.packets)


/-! ## The head link -/

/-- Training. DOWN leads to CDR when the group is powered, enabled and not refused; CDR to BLOCK; two lanes in block lock to IDENT; a
TRAIN on every locked lane to CONFIG, and the confirming STATUS to UP. BLOCK and IDENT fail with record 0x0012 and go to DOWN, and an
identity that is refused is not retried. In any other state each event leaves its group as it was. -/
def Obligations.GroupsTrainFromDownToUp : Prop :=
  (∀ (g : Fin 8) (s : State), ∀ c ∈ [Instr.groupTrainStart g, .downRetryTimeout g],
    let may := (hlGroup s g).state = .down ∧ halvesOn s g = true ∧ s.hlk.groupEn.getLsbD g = true ∧ (hlGroup s g).refused = false
    (¬ may → exec c s = .next s) ∧
    (live s = true → may → ∃ t, exec c s = .next t ∧ (hlGroup t g).state = .cdr ∧ (hlGroup t g).rxLive = 0 ∧ (hlGroup t g).txLive = 3 ∧
      (hlGroup t g).cntTrain = inc (hlGroup s g).cntTrain ∧ ∀ x, x ≠ g.val → hlGroup t x = hlGroup s x)) ∧
  (∀ (g : Fin 8) (s : State), ((hlGroup s g).state ≠ .cdr → exec (.cdrTimeout g) s = .next s) ∧
    (live s = true → (hlGroup s g).state = .cdr → ∃ t, exec (.cdrTimeout g) s = .next t ∧ (hlGroup t g).state = .block ∧
      ∀ x, x ≠ g.val → hlGroup t x = hlGroup s x)) ∧
  (∀ (g : Fin 8) (hs : Vector (List (BitVec 2)) 8) (s : State),
    let lanes := lanesOf hs gainsLock
    ((hlGroup s g).state ≠ .block → (hlGroup s g).state ≠ .ident → exec (.blockLockGained g hs) s = .next s) ∧
    (live s = true → (hlGroup s g).state = .block ∨ (hlGroup s g).state = .ident → ∃ t, exec (.blockLockGained g hs) s = .next t ∧
      (hlGroup t g).lock = (hlGroup s g).lock ||| lanes ∧ ((hlGroup t g).state = .ident ↔ (hlGroup s g).state = .ident ∨
        2 ≤ popcount ((hlGroup s g).lock ||| lanes)) ∧ ∀ x, x ≠ g.val → hlGroup t x = hlGroup s x)) ∧
  (∀ (hs : Vector (List (BitVec 2)) 8) (j : Fin 8), (lanesOf hs gainsLock).getLsbD j.val = true ↔
    64 ≤ hs[j].length ∧ ∀ h ∈ hs[j].drop (hs[j].length - 64), h = 1 ∨ h = 2) ∧
  (∀ (g : Fin 8) (s : State), ((hlGroup s g).state ≠ .block → exec (.blockTimeout g) s = .next s) ∧
    (live s = true → (hlGroup s g).state = .block → ∃ t, exec (.blockTimeout g) s = .next t ∧ (hlGroup t g).state = .down ∧
      (hlGroup t g).refused = (hlGroup s g).refused ∧ madeRecord 0x0012 (le 1 g.val ++ le 1 2 ++ le 1 0) s t)) ∧
  (∀ (g : Fin 8) (s : State), ((hlGroup s g).state ≠ .ident → exec (.identTimeout g) s = .next s) ∧
    (live s = true → (hlGroup s g).state = .ident → ∃ t, exec (.identTimeout g) s = .next t ∧ (hlGroup t g).state = .down ∧
      (hlGroup t g).refused = true ∧ madeRecord 0x0012 (le 1 g.val ++ le 1 3 ++ le 1 4) s t)) ∧
  (∀ (g lane : Fin 8) (h p : BitVec 64) (s : State), live s = true →
    (trainOk h p = false → ∃ t, exec (.trainPacket g lane h p) s = .next t ∧ (hlGroup t g).cntCrc = inc (hlGroup s g).cntCrc) ∧
    (trainOk h p = true → (hlGroup s g).state ≠ .ident ∨ (hlGroup s g).lock.getLsbD lane = false →
      exec (.trainPacket g lane h p) s = .next s) ∧
    (trainOk h p = true → (hlGroup s g).state = .ident → (hlGroup s g).lock.getLsbD lane = true →
      (∀ r, identReason g h.toNat p.toNat = some r → ∃ t, exec (.trainPacket g lane h p) s = .next t ∧ (hlGroup t g).state = .down ∧
        (hlGroup t g).refused = true ∧ madeRecord 0x0012 (le 1 g.val ++ le 1 3 ++ le 1 r) s t) ∧
      (identReason g h.toNat p.toNat = none → ∃ t, exec (.trainPacket g lane h p) s = .next t ∧
        getAt (hlGroup t g).laneNo lane 0 = bits h.toNat 4 3 ∧ (hlGroup t g).vendor.toNat = bits p.toNat 0 16 ∧
        ((hlGroup s g).lock &&& ~~~ setBit (hlGroup s g).trained lane true ≠ 0 → (hlGroup t g).state = .ident ∧ changesOnly [.hlkGroups] s t) ∧
        ((hlGroup s g).lock &&& ~~~ setBit (hlGroup s g).trained lane true = 0 → (hlGroup t g).state = .config ∧
          (hlGroup t g).rxLive = (hlGroup s g).lock ∧ (hlGroup t g).awaits = some (hlGroup t g).cseq)))) ∧
  (∀ (g lane : Fin 8) (h p : BitVec 64) (s : State), live s = true →
    (statusOk h p = false → ∃ t, exec (.statusPacket ⟨g, lane⟩ h p) s = .next t ∧ (hlGroup t g).cntCrc = inc (hlGroup s g).cntCrc) ∧
    (statusOk h p = true → (hlGroup s g).rxLive.getLsbD lane.val = false → exec (.statusPacket ⟨g, lane⟩ h p) s = .next s)) ∧
  (∀ (g lane : Fin 8) (h p : BitVec 64) (s : State), live s = true → (hlGroup s g).rxLive.getLsbD lane.val = true →
    (statusOk h p = true → (hlGroup s g).state = .config → ∃ t, exec (.statusPacket ⟨g, lane⟩ h p) s = .next t ∧
      ((hlGroup t g).state = .up ↔ confirms (hlGroup s g) (bits h.toNat 4 4) = true) ∧
      ((hlGroup t g).state = .up → (hlGroup t g).awaits = none ∧ (hlGroup t g).rxLive = (hlGroup s g).rxLive)) ∧
    (statusOk h p = true → (hlGroup s g).state = .up → bits p.toNat 8 2 = 3 → bits p.toNat 12 8 = 0 →
      ∃ t, exec (.statusPacket ⟨g, lane⟩ h p) s = .next t ∧ (hlGroup t g).sidx = bits h.toNat 12 24 ∧ (hlGroup t g).state = .up ∧
        (hlGroup t g).rxLive = (hlGroup s g).rxLive ∧ (hlGroup t g).txLive = (hlGroup s g).txLive ∧
        (hlGroup t g).awaits = if confirms (hlGroup s g) (bits h.toNat 4 4) = true then none else (hlGroup s g).awaits) ∧
    (statusOk h p = true → (hlGroup s g).state = .up → ∀ j < 2, (bits p.toNat 8 2).testBit j = false →
      ∃ t, exec (.statusPacket ⟨g, lane⟩ h p) s = .next t ∧ (hlGroup t g).txLive.getLsbD j = false))

/-- Lanes, tokens and enables. A discarded packet is counted, and ERR_LIMIT of them within one millisecond lose the lane. A lost inbound
lane leaves its group's live lanes and is recorded; a lost outbound lane raises HLK_TX until the LANE_MAP that follows is confirmed, and
the last one leaves the group failed. A lane lost while its group
trains is no longer in block lock. Tokens go to every live outbound lane of every group in UP while writing is permitted, and only then. RETRAIN and
GROUP_EN act on the groups they name, at once or, with a cartridge mounted, at its UNMOUNT. -/
def Obligations.LanesTokensAndEnables : Prop :=
  (∀ (g lane : Fin 8) (s : State), live s = true →
    let n := (if (hlGroup s g).errMs = s.power.time / msTicks then getAt (hlGroup s g).laneErrs lane 0 else 0) + 1
    ∃ t, exec (.discardedPacket g lane) s = .next t ∧ (hlGroup t g).cntCrc = inc (hlGroup s g).cntCrc ∧
      (n < errLimit s → (hlGroup t g).rxLive = (hlGroup s g).rxLive ∧ changesOnly [.hlkGroups] s t) ∧
      (errLimit s ≤ n → (hlGroup t g).rxLive = setBit (hlGroup s g).rxLive lane false)) ∧
  (∀ (g lane : Fin 8) (s : State),
    ((hlGroup s g).rxLive.getLsbD lane = false → (hlGroup s g).state ≠ .block → (hlGroup s g).state ≠ .ident →
      exec (.inboundLaneLost g lane) s = .next s) ∧
    (live s = true → (hlGroup s g).rxLive.getLsbD lane = false → (hlGroup s g).state = .block ∨ (hlGroup s g).state = .ident →
      ∃ t, exec (.inboundLaneLost g lane) s = .next t ∧ (hlGroup t g).lock = setBit (hlGroup s g).lock lane false ∧
        (hlGroup t g).rxLive = (hlGroup s g).rxLive ∧ changesOnly [.hlkGroups] s t) ∧
    (live s = true → (hlGroup s g).rxLive.getLsbD lane = true → ∃ t, exec (.inboundLaneLost g lane) s = .next t ∧
      (hlGroup t g).rxLive = setBit (hlGroup s g).rxLive lane false ∧ (hlGroup t g).txLive = (hlGroup s g).txLive ∧
      (FaultRow.hlInLane, 8 * g.val + lane.val) ∈ t.lantern.outOfService ∧ (∀ x, x ≠ g.val → hlGroup t x = hlGroup s x))) ∧
  (∀ (g : Fin 8) (lane : Fin 2) (s : State), ((hlGroup s g).txLive.getLsbD lane = false → exec (.outboundLaneLost g lane) s = .next s) ∧
    (live s = true → (hlGroup s g).txLive.getLsbD lane = true → ∃ t, exec (.outboundLaneLost g lane) s = .next t ∧
      (hlGroup t g).txLive = setBit (hlGroup s g).txLive lane false ∧ (hlGroup t g).rxLive = (hlGroup s g).rxLive ∧
      (FaultRow.hlOutLane, 2 * g.val + lane.val) ∈ t.lantern.outOfService ∧
      ((hlGroup t g).txLive ≠ 0 → (hlGroup t g).awaits = some (hlGroup t g).cseq ∧ t.wr.sources.getLsbD (sourceBit .hlkTx) = true) ∧
      ((hlGroup t g).txLive = 0 → (hlGroup t g).awaits = none ∧
        ((hlGroup s g).state = .up → groupFailed t g = true)) ∧ (∀ x, x ≠ g.val → (hlGroup t x).state = (hlGroup s x).state ∧
        (hlGroup t x).rxLive = (hlGroup s x).rxLive ∧ (hlGroup t x).txLive = (hlGroup s x).txLive))) ∧
  (∀ s : State, live s = true → ∃ t, exec .tokenPeriod s = .next t ∧ changesOnly [.hlkGroups, .out] s t ∧
    ∀ (g : Fin 8), (hlGroup t g).state = (hlGroup s g).state ∧ ∀ j < 2, getAt (hlGroup t g).tseq j 0 =
      if s.wr.tokens = true ∧ s.wr.sources = 0 ∧ (hlGroup s g).state = .up ∧ (hlGroup s g).txLive.getLsbD j = true
      then getAt (hlGroup s g).tseq j 0 + 1 else getAt (hlGroup s g).tseq j 0) ∧
  (∀ (mask : BitVec 8) (s : State), live s = true → s.drive.vol ≠ none →
    (∃ t, exec (.retrain mask) s = .next t ∧ t.hlk.retrainNext = s.hlk.retrainNext ||| mask ∧ changesOnly [.hlkRetrainNext] s t) ∧
    (∃ t, exec (.groupEn mask) s = .next t ∧ t.hlk.groupEnNext = some mask ∧ changesOnly [.hlkGroupEnNext] s t)) ∧
  (∀ (mask : BitVec 8) (s : State), live s = true → s.drive.vol = none → ∃ t, exec (.retrain mask) s = .next t ∧ ∀ (g : Fin 8),
    (mask.getLsbD g = false → hlGroup t g = hlGroup s g) ∧
    (mask.getLsbD g = true → (hlGroup t g).refused = false ∧ (hlGroup t g).state =
      if halvesOn s g = true ∧ s.hlk.groupEn.getLsbD g = true then .cdr else .down)) ∧
  (∀ (mask : BitVec 8) (s : State), live s = true → s.drive.vol = none → ∃ t, exec (.groupEn mask) s = .next t ∧ t.hlk.groupEn = mask ∧
    ∀ (g : Fin 8), (mask.getLsbD g = false → (hlGroup t g).state = .down) ∧ (mask.getLsbD g = true → hlGroup t g = hlGroup s g))


/-! ## Steeple -/

/-- Samples, feedback and stops. A servo packet gives each reader its mark or counts the frame as missing; feedback lost in MOVE or TRACK
enters FB_HOLD, 8 ms there begin a controlled stop, and its end leaves STILL; two seconds on one band raise FEEDBACK; an encoder's edges
count up and down and both lines at once lose it; index pulses check the count and four clean ones bring the encoder back; without a
usable reader the loops run on encoder speed. -/
def Obligations.SamplesFeedbackAndStops : Prop :=
  (∀ (ps : List HlPacket) (obs : Vector (Option ServoObs) 4) (s : State), live s = true →
    exec (.servoPacket ⟨ps, obs⟩) s =
      .next (servoSample obs (forEach (ps.filter fun p => !servoPacketOk p) (fun p => discardPacket p.group p.lane.val) s))) ∧
  (∀ (ps : List HlPacket) (obs : Vector (Option ServoObs) 4) (s : State), live s = true → (∀ p ∈ ps, servoPacketOk p = true) →
    ∃ t, exec (.servoPacket ⟨ps, obs⟩) s = .next t ∧ ∀ i : Fin 4,
    (∀ o, (obs[i]).filter (sampleValid (plantOf s .srvAmin) s.stp.readers[i].tM) = some o → t.stp.readers[i].y = (servoMark o).y ∧
      t.stp.readers[i].tM = some (servoMark o).tM ∧ t.stp.readers[i].bad = 0) ∧
    ((obs[i]).filter (sampleValid (plantOf s .srvAmin) s.stp.readers[i].tM) = none → t.stp.readers[i].tM = none ∧
      t.stp.readers[i].bad = s.stp.readers[i].bad + 1)) ∧
  (∀ s : State, live s = true → ∃ t, exec .feedbackLost s = .next t ∧ t.wr.sources.getLsbD (sourceBit .feedback) = true ∧
    (s.stp.mode = .move ∨ s.stp.mode = .track → t.stp.mode = .fbHold ∧ t.stp.heldMode = s.stp.mode ∧ t.stp.holdFrom = s.power.time ∧
      t.stp.cntHold = inc s.stp.cntHold) ∧
    (s.stp.mode ≠ .move → s.stp.mode ≠ .track → t.stp = s.stp)) ∧
  (∀ s : State, (s.stp.mode ≠ .fbHold → exec .fbHoldTimeout s = .next s) ∧
    (live s = true → s.stp.mode = .fbHold → ∃ t, exec .fbHoldTimeout s = .next t ∧ t.stp.mode = .fbStop ∧ t.stp.stopping = some (aStop s) ∧
      t.stp.vSet = 0 ∧ t.stp.program.running = false ∧ t.stp.cntStop = inc s.stp.cntStop ∧
      t.power.time = max s.power.time (s.stp.holdFrom + 8 * msTicks) ∧
      (t.stp.brakeUntil = s.stp.brakeUntil ∨ ∀ i : Fin 2, s.stp.reels[i].ok = false))) ∧
  (∀ s : State, s.stp.stopping = none ∨ (s.stp.brakeUntil = none ∧ tapeStopped s = false) → exec .controlledStopDone s = .next s) ∧
  (∀ s : State, live s = true → s.stp.stopping ≠ none → s.stp.brakeUntil ≠ none ∨ tapeStopped s = true →
    ∃ t, exec .controlledStopDone s = .next t ∧ t.stp.stopping = none ∧ t.stp.brakeUntil = none ∧ t.stp.latLaw = 0 ∧ t.stp.reelLaw = 4 ∧
      (t.stp.mode = .still ∨ t.stp.mode = .move) ∧
      ∀ b, s.stp.brakeUntil = some b → t.pins.motEn = 0 ∧ t.stp.v = 0 ∧ t.power.time = max s.power.time b) ∧
  (∀ s : State, (s.stp.oneBand = none → exec .oneBandTimeout s = .next s) ∧
    (live s = true → ∀ b, s.stp.oneBand = some b → ∃ t, exec .oneBandTimeout s = .next t ∧
      t.wr.sources.getLsbD (sourceBit .feedback) = true ∧ t.power.time = max s.power.time (b + 2000 * msTicks) ∧ t.stp = s.stp)) ∧
  (∀ (i : Fin 2) (a b : Bool) (s : State),
    let r := s.stp.reels[i]
    (r.a = a → r.b = b → exec (.encoderEdge i a b) s = .next s) ∧
    (live s = true → r.a ≠ a → r.b ≠ b → ∃ t, exec (.encoderEdge i a b) s = .next t ∧ t.stp.reels[i].ok = false ∧ t.stp.reels[i].a = a ∧
      t.stp.reels[i].b = b ∧ t.stp.reels[i].cps = 0) ∧
    (live s = true → (r.a = a ↔ r.b ≠ b) → ∃ t, exec (.encoderEdge i a b) s = .next t ∧ t.stp.reels[i].a = a ∧ t.stp.reels[i].b = b ∧
      t.stp.reels[i].edgeAt = s.power.time ∧ t.stp.reels[i].count = r.count + quadrature r a b ∧
      (quadrature r a b = 1 ∨ quadrature r a b = -1))) ∧
  (∀ (i : Fin 2) (s : State), live s = true →
    let r := s.stp.reels[i]
    let miss : Rat := (r.count.natAbs : Rat) - plantOf s .encCpr
    ∃ t, exec (.encoderIndexPulse i) s = .next t ∧ t.stp.reels[i].indexed = true ∧ t.stp.reels[i].count = 0 ∧ t.stp.reels[i].travel = 0 ∧
      (t.stp.reels[i].ok = true ↔ if r.indexed then -4 ≤ miss ∧ miss ≤ 4 ∧ (r.ok = true ∨ (servoAgrees s r = true ∧ 3 ≤ r.cleanRevs)) else r.ok = true) ∧
      ∀ j : Fin 2, j ≠ i → t.stp.reels[j] = s.stp.reels[j]) ∧
  (∀ s : State,
    (driving s = false ∨ (usableReaders s ≠ [] ∧ s.stp.mode ≠ .fbHold ∧ s.stp.mode ≠ .fbStop) → exec .reelLoopTick s = .next s) ∧
    (live s = true → driving s = true → usableReaders s = [] ∨ s.stp.mode = .fbHold ∨ s.stp.mode = .fbStop → ∃ t, exec .reelLoopTick s = .next t ∧
      t.stp.v = encoderSpeed { s with stp := { s.stp with reels := s.stp.reels.map fun r => if reelStill s r then { r with cps := 0 } else r } } ∧
      t.stp.lposValid = false ∧ t.stp.mode = s.stp.mode ∧ (s.stp.brakeUntil = none → s.out.length + 2 ≤ t.out.length)))

/-- The sensors, the motion link, the heartbeat and the pair. A shock on any axis raises ACCEL; three dead samples, or an identity
that is not ACC_ID, fail the accelerometer; a reading sets temperature and humidity and ten bad ones make the sensor absent; a good response gives its measurement and
the third bad one in a row, or FAULT, is a motor fault; every enabled stage hears a frame each millisecond; a fault is cleared into OFF
once nothing has moved for a second; a
heartbeat missing for 2 s stops what moves; ST1 takes over when ST0 fails, with the tokens flowing on. -/
def Obligations.SensorsLinkAndPair : Prop :=
  (∀ (x y z : BitVec 16) (s : State),
    let wrong := s.stp.accIdWait = true ∧ x.toNat % 256 ≠ plantNat s .accId % 256
    let dead := (x = 0 ∧ y = 0 ∧ z = 0) ∨ (x = 0xFFFF ∧ y = 0xFFFF ∧ z = 0xFFFF)
    (s.stp.accFailed = true → exec (.accSample x y z) s = .next s) ∧
    (live s = true → s.stp.accFailed = false → wrong → ∃ t, exec (.accSample x y z) s = .next t ∧ t.stp.accFailed = true) ∧
    (live s = true → s.stp.accFailed = false → ¬ wrong → dead → ∃ t, exec (.accSample x y z) s = .next t ∧ t.stp.accBad = s.stp.accBad + 1 ∧
      (t.stp.accFailed = true ↔ 2 ≤ s.stp.accBad) ∧ (s.stp.accBad < 2 → changesOnly [.stpAccBad, .stpAccIdWait, .out] s t)) ∧
    (live s = true → s.stp.accFailed = false → ¬ wrong → ¬ dead → ∃ t, exec (.accSample x y z) s = .next t ∧ t.stp.accBad = 0 ∧
      t.stp.acc = #v[accMg s x, accMg s y, accMg s z] ∧ (t.wr.sources.getLsbD (sourceBit .accel) = true ↔
        accThreshold s < absRat (accMg s x) ∨ accThreshold s < absRat (accMg s y) ∨ accThreshold s < absRat (accMg s z)))) ∧
  (∀ (ack : Bool) (bs : Bytes) (s : State),
    let t0 := sensorValue s bs (plantNat s .snsTOfs)
    let h0 := sensorValue s bs (plantNat s .snsHOfs)
    (s.stp.sensorAbsent = true → exec (.sensorReading ack bs) s = .next s) ∧
    (live s = true → s.stp.sensorAbsent = false → ack = true → bs.length = plantNat s .snsLen → ∀ x y, t0 = some x → h0 = some y →
      ∃ t, exec (.sensorReading ack bs) s = .next t ∧ t.stp.temp = some (plantOf s .snsTA + plantOf s .snsTB * (x : Rat)) ∧
        t.stp.hum = some (plantOf s .snsHA + plantOf s .snsHB * (y : Rat)) ∧ t.stp.sensorBad = 0 ∧
        changesOnly [.stpTemp, .stpHum, .stpSensorBad, .out] s t) ∧
    (live s = true → s.stp.sensorAbsent = false → ack = false ∨ bs.length ≠ plantNat s .snsLen ∨ t0 = none ∨ h0 = none →
      ∃ t, exec (.sensorReading ack bs) s = .next t ∧ t.stp.sensorBad = s.stp.sensorBad + 1 ∧
        (t.stp.sensorAbsent = true ↔ 9 ≤ s.stp.sensorBad) ∧ (9 ≤ s.stp.sensorBad → t.stp.temp = none ∧ t.stp.hum = none))) ∧
  (∀ (i : Fin 5) (f : BitVec 32) (s : State), live s = true →
    let k := s.stp.stages[i]
    let good := responseOk i f
    (good = true → f.getLsbD 27 = false → f.getLsbD 24 = true → ∃ t, exec (.motionLinkResponse i f) s = .next t ∧
      t.stp.stages[i].meas = signed 16 (bits f.toNat 8 16) ∧ t.stp.stages[i].nacks = 0 ∧ changesOnly [.stpStages] s t) ∧
    (good = false ∨ (f.getLsbD 27 = false ∧ f.getLsbD 24 = false) → k.nacks < 2 → ∃ t, exec (.motionLinkResponse i f) s = .next t ∧
      t.stp.stages[i].nacks = k.nacks + 1 ∧
      t.stp.stages[i].again = (if good = true then k.again ++ (answered k).toList else k.again) ∧ changesOnly [.stpStages] s t) ∧
    ((good = true ∧ f.getLsbD 27 = true) ∨ ((good = false ∨ f.getLsbD 24 = false) ∧ 2 ≤ k.nacks) →
      ∃ t, exec (.motionLinkResponse i f) s = .next t ∧ t.wr.sources.getLsbD (sourceBit .motFault) = true ∧
        (i.val < 2 → t.pins.motEn = 0 ∧ (s.stp.mode ≠ .off → t.stp.mode = .fault)) ∧
        (2 ≤ i.val → t.pins.motEn = setBit s.pins.motEn i false ∧ t.stp.stopping = some (aStop s) ∧ t.stp.cntStop = inc s.stp.cntStop))) ∧
  (∀ s : State, live s = true → ∃ t, exec .motionLinkKeepalive s = .next t ∧ changesOnly [.stpStages, .stpCntLinkErr, .out] s t ∧ ∀ i : Fin 5,
    if s.pins.motEn.getLsbD i = true ∧ s.stp.stages[i].sentAt + msTicks ≤ s.power.time then t.stp.stages[i].sentAt = s.power.time
    else t.stp.stages[i] = s.stp.stages[i]) ∧
  (∀ s : State, live s = true → ∃ t, exec .faultClear s = .next t ∧ t.pins.motFaultN = true ∧
    (s.stp.mode ≠ .fault → t.wr.sources.getLsbD (sourceBit .motFault) = false ∧ t.stp = s.stp) ∧
    (s.stp.mode = .fault → stillForSecond s = false → changesOnly [.pinsMotFaultN] s t) ∧
    (s.stp.mode = .fault → stillForSecond s = true → t.stp.mode = .off ∧ t.stp.offByFault = true ∧ t.pins.motEn = 0 ∧
      t.wr.sources.getLsbD (sourceBit .motFault) = false)) ∧
  (∀ s : State, live s = true → ∃ t, exec .steepleHeartbeat s = .next t ∧ t.stp.beatAt = s.power.time ∧ t.stp.beatLost = false ∧
    (s.stp.beatLost = false ∨ s.stp.mode ≠ .still → changesOnly [.stpBeatAt, .stpBeatLost] s t)) ∧
  (∀ s : State, live s = true → ∃ t, exec .steepleHeartbeatTimeout s = .next t ∧ t.stp.beatLost = true ∧
    t.power.time = max s.power.time (s.stp.beatAt + 2000 * msTicks) ∧ t.stp.mode = s.stp.mode ∧
    (s.stp.mode = .move ∨ s.stp.mode = .track → t.stp.stopping = some (aStop s) ∧ t.stp.vSet = 0 ∧ t.stp.program.running = false ∧
      t.stp.cntStop = inc s.stp.cntStop) ∧
    (s.stp.mode ≠ .move → s.stp.mode ≠ .track → changesOnly [.powerTime, .stpBeatLost] s t)) ∧
  (∀ s : State, live s = true → (∀ i, outOf s .steeple i = false) →
    (∀ c ∈ [TakeoverCause.selfCheck, .lateOutput, .powerLoss], ∃ t, exec (.st1Takeover c) s = .next t ∧ t.stp.st1 = true ∧
      t.stp.standbyOk = false ∧ t.stp.cntTakeover = (if s.stp.st1 then s.stp.cntTakeover else inc s.stp.cntTakeover) ∧ t.wr = s.wr ∧
      outOf t .steeple 0 = true) ∧
    (∃ t, exec (.st1Takeover .standbySelfCheck) s = .next t ∧ t.stp.st1 = s.stp.st1 ∧ t.stp.standbyOk = false ∧ t.wr = s.wr ∧
      outOf t .steeple 1 = true) ∧
    (s.stp.standbyOk = false → exec (.st1Takeover .outputsDiffer) s = .next s) ∧
    (s.stp.standbyOk = true → ∃ t, exec (.st1Takeover .outputsDiffer) s = .next t ∧ t.stp.st1 = s.stp.st1 ∧ t.wr = s.wr ∧
      ((s.stp.resyncAt = none ∨ ∃ r, s.stp.resyncAt = some r ∧ r + 1000 * msTicks ≤ s.power.time) →
        t.stp.resyncAt = some s.power.time ∧ t.stp.standbyOk = true) ∧
      (∀ r, s.stp.resyncAt = some r → s.power.time < r + 1000 * msTicks → t.stp.standbyOk = false ∧ outOf t .steeple 1 = true)))

/-- Motion programs. A program starts in the modes its role allows, waits when Steeple recovers feedback, and is refused otherwise. Each
step acts only when it is in hand and the program is not paused; it does what Table 07-10 says and goes on, waits for its condition, or
faults with its code. A wait that times out is fault 1. -/
def Obligations.ProgramsRunStepByStep : Prop :=
  (∀ (g : Fin 64) (p0 p1 p2 p3 : BitVec 32) (s : State), live s = true → ∃ t, exec (.programStart g p0 p1 p2 p3) s = .next t ∧
    (programAllowed s g = true → t.stp.mode = .move ∧ t.stp.program.prog = g ∧ t.stp.program.step = 0 ∧ t.stp.program.running = true ∧
      t.stp.program.fault = 0 ∧ t.stp.program.params = #v[p0, p1, p2, p3]) ∧
    (programAllowed s g = false → isPending t (if s.stp.st1 then 102 else 100) ∧ t.stp.mode = s.stp.mode ∧
      t.stp.program = if s.stp.mode = .fbHold ∨ s.stp.mode = .fbStop then
        { s.stp.program with queued := some (g, p0.toNat, p1.toNat, p2.toNat, p3.toNat) } else s.stp.program)) ∧
  (∀ (s : State), ∀ c ∈ [(0, Instr.progEnd), (1, .progSpeed), (2, .progWaitSpeed), (3, .progGotoLpos), (4, .progWaitLpos), (5, .progLateral),
      (6, .progWaitLat), (7, .progTilt), (8, .progLaw), (9, .progTension), (10, .progDelay), (11, .progBranch), (12, .progEnable),
      (13, .progEvent), (14, .progChain), (15, .progStop)],
    (s.stp.mode ≠ .move ∨ ∀ a b, stepInHand s ≠ some (c.1, a, b)) → exec c.2 s = .next s) ∧
  (∀ (a b : Nat) (s : State), inStep s 0 a b → ∃ t, exec .progEnd s = .next t ∧
    (a = 0 → tapeStopped s = true → t.stp.stopping = none ∧ (t.stp.mode = .still ∨ t.stp.mode = .move)) ∧
    (a = 1 → speedNear s = true → s.stp.latLaw = 0 → t.stp.mode = .track ∧ t.stp.program.running = false ∧
      (s.stp.stopping = none → t.stp.vSet = weathervaneSpeed s)) ∧
    (a = 2 → tapeStopped s = true → t.stp.mode = .off ∧ t.pins.motEn = 0) ∧ (3 ≤ a → faultsWith 2 s t) ∧
    ((a = 0 ∨ a = 2) ∧ tapeStopped s = false ∨ a = 1 ∧ (speedNear s = false ∨ s.stp.latLaw ≠ 0) → faultsWith 5 s t)) ∧
  (∀ (a b : Nat) (s : State), inStep s 1 a b →
    let v : Rat := if stepSrc s = 5 then weathervaneSpeed (turnRatio s) else (signed 32 a : Rat) / 1000000
    ∃ t, exec .progSpeed s = .next t ∧ (absRat v ≤ 8 → (b : Rat) ≤ plantOf s .aMax → stepGoesOn s t ∧
      (s.stp.program.step < 31 → s.stp.stopping = none → t.stp.vSet = v ∧ t.stp.vAcc = (b : Rat) / 1000)) ∧
    (8 < absRat v ∨ plantOf s .aMax < (b : Rat) → faultsWith 2 s t)) ∧
  (∀ (a b : Nat) (s : State), inStep s 2 a b → ∃ t, exec .progWaitSpeed s = .next t ∧ (s.stp.speedOk = true → stepGoesOn s t) ∧
    (s.stp.speedOk = false → stepWaits (some (s.power.time + b * msTicks)) s t)) ∧
  (∀ (a b : Nat) (s : State), inStep s 3 a b → ∃ t, exec .progGotoLpos s = .next t ∧ (8000 < b ∨ 2 ^ 24 ≤ a → faultsWith 2 s t) ∧
    (b ≤ 8000 → a < 2 ^ 24 → s.stp.program.waiting = false → stepWaits none s t ∧ t.stp.reelLaw = 5 ∧
      (s.stp.stopping = none → t.stp.vSet = (b : Rat) / 1000)) ∧
    (b ≤ 8000 → a < 2 ^ 24 → s.stp.program.waiting = true → (standsAt a s = true → stepGoesOn s t ∧ t.stp.reelLaw = 4 ∧ t.stp.vSet = 0) ∧
      (standsAt a s = false → t = s))) ∧
  (∀ (a b : Nat) (s : State), inStep s 4 a b → ∃ t, exec .progWaitLpos s = .next t ∧ (2 ^ 24 ≤ a → faultsWith 2 s t) ∧
    (a < 2 ^ 24 → passedLpos a s = true → stepGoesOn s t) ∧
    (a < 2 ^ 24 → passedLpos a s = false → stepWaits (some (s.power.time + b * msTicks)) s t)) ∧
  (∀ (a b : Nat) (s : State), inStep s 5 a b → ∃ t, exec .progLateral s = .next t ∧
    (64 ≤ a ∨ wrapInMap s (bits a 0 5) = false → faultsWith 2 s t) ∧
    (a < 64 → wrapInMap s (bits a 0 5) = true → stepGoesOn s t ∧ t.stp.latWrap = bits a 0 5 ∧ t.stp.latRead = a.testBit 5 ∧
      t.stp.latOfs = signed 16 b)) ∧
  (∀ (a b : Nat) (s : State), inStep s 6 a b → ∃ t, exec .progWaitLat s = .next t ∧
    (s.stp.program.waiting = true → 8 ≤ s.stp.program.met → stepGoesOn s t) ∧
    (s.stp.program.waiting = false ∨ s.stp.program.met < 8 → stepWaits (some (s.power.time + a * msTicks)) s t)) ∧
  (∀ (a b : Nat) (s : State), inStep s 7 a b → ∃ t, exec .progTilt s = .next t ∧ (b = 0 → stepGoesOn s t ∧ t.stp.tiltFixed = none) ∧
    (b = 1 → (signed 32 a).natAbs ≤ 25000 → stepGoesOn s t ∧ t.stp.tiltFixed = some ((signed 32 a : Rat) / 10000)) ∧
    (b = 1 ∧ 25000 < (signed 32 a).natAbs ∨ 2 ≤ b → faultsWith 2 s t)) ∧
  (∀ (a b : Nat) (s : State), inStep s 8 a b →
    let loop := bits a 0 2
    let law := bits a 2 4
    ∃ t, exec .progLaw s = .next t ∧ (a < 64 → loop = 0 → law ≤ 2 → stepGoesOn s t ∧ t.stp.latLaw = law) ∧
      (a < 64 → loop = 1 → law = 3 → stepGoesOn s t) ∧ (a < 64 → loop = 2 → law = 4 ∨ law = 5 → stepGoesOn s t ∧ t.stp.reelLaw = law) ∧
      (64 ≤ a ∨ loop = 0 ∧ 2 < law ∨ loop = 1 ∧ law ≠ 3 ∨ loop = 2 ∧ law ≠ 4 ∧ law ≠ 5 ∨ loop = 3 → faultsWith 2 s t)) ∧
  (∀ (a b : Nat) (s : State), inStep s 9 a b → ∃ t, exec .progTension s = .next t ∧
    (plantOf s .fMin ≤ a → (a : Rat) ≤ plantOf s .fMax → stepGoesOn s t ∧ t.stp.fGoal = some ((a : Rat), (b : Rat))) ∧
    ((a : Rat) < plantOf s .fMin ∨ plantOf s .fMax < (a : Rat) → faultsWith 2 s t)) ∧
  (∀ (a b : Nat) (s : State), inStep s 10 a b → ∃ t, exec .progDelay s = .next t ∧
    (s.stp.program.waiting = false → stepWaits (some (s.power.time + a * usTicks)) s t ∧ t.power.time = s.power.time) ∧
    (s.stp.program.waiting = true → stepGoesOn s t ∧ t.power.time = max s.power.time (s.stp.program.due.getD 0))) ∧
  (∀ (a b : Nat) (s : State), inStep s 11 a b → ∃ t, exec .progBranch s = .next t ∧ (branchOn s b = none ∨ 32 ≤ a → faultsWith 2 s t) ∧
    (a < 32 → branchOn s b = some true → t.stp.program = { s.stp.program with step := a, waiting := false, due := none, met := 0 }) ∧
    (a < 32 → branchOn s b = some false → stepGoesOn s t)) ∧
  (∀ (a b : Nat) (s : State), inStep s 12 a b → ∃ t, exec .progEnable s = .next t ∧ (32 ≤ a → faultsWith 2 s t) ∧
    (a < 32 → stepGoesOn s t ∧ t.pins.motEn.toNat = a)) ∧
  (∀ (a b : Nat) (s : State), inStep s 13 a b → ∃ t, exec .progEvent s = .next t ∧ stepGoesOn s t ∧
    isPending t (if s.stp.st1 then 102 else 100)) ∧
  (∀ (a b : Nat) (s : State), inStep s 14 a b → ∃ t, exec .progChain s = .next t ∧ (a < 8 ∨ 63 < a → faultsWith 2 s t) ∧
    (8 ≤ a → a ≤ 63 → programEmpty s a = true → faultsWith 3 s t) ∧
    (8 ≤ a → a ≤ 63 → programEmpty s a = false →
      t.stp.program = { s.stp.program with prog := a, step := 0, waiting := false, due := none, met := 0 })) ∧
  (∀ (a b : Nat) (s : State), inStep s 15 a b → ∃ t, exec .progStop s = .next t ∧ (plantOf s .aMax < (a : Rat) → faultsWith 2 s t) ∧
    ((a : Rat) ≤ plantOf s .aMax → s.stp.program.waiting = false → stepWaits none s t ∧ t.stp.vSet = 0 ∧ t.stp.vAcc = (a : Rat) / 1000) ∧
    ((a : Rat) ≤ plantOf s .aMax → s.stp.program.waiting = true → (tapeStopped s = true → stepGoesOn s t) ∧
      (tapeStopped s = false → t = s))) ∧
  (∀ (op a b d : Nat) (s : State), stepInHand s = some (op, a, b) → s.stp.program.due = some d →
    (live s = true → s.stp.mode = .move → s.stp.program.waiting = true → op = 2 ∨ op = 4 ∨ op = 6 → ∃ t, exec .waitTimeout s = .next t ∧
      faultsWith 1 s t ∧ t.power.time = max s.power.time d) ∧
    ((op ≠ 2 ∧ op ≠ 4 ∧ op ≠ 6) ∨ s.stp.program.waiting = false ∨ s.stp.mode ≠ .move → exec .waitTimeout s = .next s))


/-! ## Belfry and the hardware queues -/

/-- Belfry. A request sets its source's pending bit and no other; a core is offered the eligible source of the lowest priority number,
ties to the lowest source, above what it already runs; a claim takes the offer, or the spurious number when it was withdrawn; an EOI pops
the source it names, and any other is a stack fault; masks are taken as written. After each of them every core's offer is fresh. -/
def Obligations.SourcesAreRequestedClaimedAndEnded : Prop :=
  (∀ (n : Fin 480) (s : State), (475 ≤ n.val → exec (.sourceRequest n) s = .next s) ∧
    (n.val < 475 → ∃ t, exec (.sourceRequest n) s = .next t ∧ isPending t n ∧ offersFresh t ∧ changesOnly requestFields s t ∧
      ∀ m, m ≠ n.val → srcOf t m = srcOf s m)) ∧
  (∀ (c k : Fin 4) (s : State), ∃ t, exec (.coreTimerExpiry c k) s = .next t ∧ isPending t (448 + 4 * c.val + k.val) ∧ offersFresh t ∧
    changesOnly requestFields s t) ∧
  (∀ (c : Fin 4) (l : Fin 2) (s : State), ∃ t, exec (.interCoreSignal c l) s = .next t ∧ isPending t (464 + 2 * c.val + l.val) ∧
    offersFresh t ∧ t.blf.cores[c].missed = 0) ∧
  (∀ (b : Belfry) (c : Fin 4) (n : Nat), choice b c = some n → n < 480 ∧ eligible b c n = true ∧
    (getAt b.sources n {}).prio.val < runPri b.cores[c] ∧ ∀ m < 480, eligible b c m = true →
      (getAt b.sources n {}).prio < (getAt b.sources m {}).prio ∨ ((getAt b.sources n {}).prio = (getAt b.sources m {}).prio ∧ n ≤ m)) ∧
  (∀ (c : Fin 4) (n : Nat) (s : State), s.blf.cores[c].offer = some n → n < 480 → ∃ t, exec (.claim c) s = .next t ∧
    (srcOf t n).pending = false ∧ (srcOf t n).active = some c ∧ (srcOf t n).prio = (srcOf s n).prio ∧
    t.blf.cores[c].stack = (n, (srcOf s n).prio.val) :: s.blf.cores[c].stack ∧ t.blf.cores[c].claimed = n ∧ offersFresh t ∧
    (112 ≤ n → n < 128 → t.blf.latched.getLsbD (n - 112) = false) ∧ ∀ m, m ≠ n → srcOf t m = srcOf s m) ∧
  (∀ (c : Fin 4) (s : State), s.blf.cores[c].offer = none → (s.blf.cores[c].withdrawn = false → exec (.claim c) s = .next s) ∧
    (s.blf.cores[c].withdrawn = true → ∃ t, exec (.claim c) s = .next t ∧ t.blf.cores[c].claimed = 511 ∧
      t.blf.cores[c].stack = s.blf.cores[c].stack ∧ t.blf.cntSpurious = inc s.blf.cntSpurious ∧
      changesOnly [.blfCores, .blfCoreOffers, .blfCntSpurious, .out] s t)) ∧
  (∀ (c : Fin 4) (n : Fin 480) (p : Nat) (rest : List (Nat × Nat)) (s : State), s.blf.cores[c].stack = (n.val, p) :: rest →
    ∃ t, exec (.eoi c n false) s = .next t ∧ t.blf.cores[c].stack = rest ∧ (srcOf t n).active = none ∧ (srcOf t n).pending = (srcOf s n).pending ∧
      offersFresh t ∧ t.blf.cntStackFault = s.blf.cntStackFault) ∧
  (∀ (c : Fin 4) (n : Fin 480) (bad : Bool) (s : State), spareLeft s .controlCore c → bad = true ∨ s.blf.cores[c].stack.head?.map (·.1) ≠ some n.val →
    ∃ t, exec (.eoi c n bad) s = .next t ∧ t.blf.cntStackFault = inc s.blf.cntStackFault ∧ isPending t 472 ∧ (srcOf t 472).prio = 0 ∧
      t.blf.coreOk.getLsbD c = false ∧ t.blf.cores[c].stack = [] ∧ madeRecord 0x00D0 (le 1 2 ++ le 1 c) s t) ∧
  (∀ (n : Fin 480) (p : Fin 16) (r : Fin 5) (en : BitVec 4) (s : State), ∃ t, exec (.belfryMaskWrite n p r en) s = .next t ∧
    srcOf t n = { srcOf s n with prio := p, route := r, en := en } ∧ offersFresh t ∧ ∀ m, m ≠ n.val → srcOf t m = srcOf s m) ∧
  (∀ (k : Fin 2) (s : State), ∃ t, exec (.belfryCopyMismatch k) s = .next t ∧ t.blf.copyOk = setBit s.blf.copyOk k false ∧ isPending t 473 ∧
    t.blf.cntParity = inc s.blf.cntParity ∧ (∀ m, isPending s m → isPending t m) ∧ madeRecord 0x00D0 (le 1 3 ++ le 1 k) s t) ∧
  (∀ (c : Fin 4) (s : State), (s.blf.coreOk.getLsbD c = false → exec (.coreHeartbeatMissed c) s = .next s) ∧
    (s.blf.coreOk.getLsbD c = true → s.blf.cores[c].missed < 4 → ∃ t, exec (.coreHeartbeatMissed c) s = .next t ∧
      t.blf.cores[c].missed = s.blf.cores[c].missed + 1 ∧ changesOnly [.blfCores] s t) ∧
    (s.blf.coreOk.getLsbD c = true → 4 ≤ s.blf.cores[c].missed → spareLeft s .controlCore c →
      ∃ t, exec (.coreHeartbeatMissed c) s = .next t ∧ t.blf.coreOk.getLsbD c = false ∧ outOf t .controlCore c = true))

/-- When a core leaves service, Belfry re-routes every source routed to that core to the lowest-numbered core in service, keeping each
source's priority; sources that were active on it return to pending, and its stack is cleared. Source 472, which a stack fault itself sets up, and 109, which a Lantern
trigger raises, stand apart. -/
def Obligations.ALostCoreHandsItsSourcesOver : Prop :=
  ∀ (c : Fin 4) (i : Instr) (s : State), spareLeft s .controlCore c →
    (live s = true ∧ i = .instanceFault .controlCore c) ∨ (s.blf.coreOk.getLsbD c = true ∧ 4 ≤ s.blf.cores[c].missed ∧ i = .coreHeartbeatMissed c) ∨
      (∃ n, i = .eoi c n true) →
    ∃ t, exec i s = .next t ∧ t.blf.coreOk = setBit s.blf.coreOk c false ∧ t.blf.cores[c].stack = [] ∧ offersFresh t ∧ ∀ n : Fin 480,
      (n.val ≠ 472 → (srcOf t n).prio = (srcOf s n).prio) ∧ (srcOf t n).en = (srcOf s n).en ∧
      (n.val ≠ 472 → (srcOf s n).route.val ≠ c.val → (srcOf t n).route = (srcOf s n).route) ∧
      (n.val ≠ 472 → (srcOf s n).route.val = c.val → ∀ h : Fin 4, t.blf.coreOk.getLsbD h = true → (∀ k < h, t.blf.coreOk.getLsbD k = false) →
        (srcOf t n).route.val = h.val) ∧
      ((srcOf s n).active = some c → (srcOf t n).active = none ∧ (srcOf t n).pending = true) ∧
      ((srcOf s n).active ≠ some c → (srcOf t n).active = (srcOf s n).active ∧
        (n.val ≠ 472 → n.val ≠ 109 → (srcOf t n).pending = (srcOf s n).pending))

/-- The hardware queues. A single-item packet commits, a longer one is open until its LAST; an item out of sequence counts and one with bad
parity is poisoned; the reader takes the oldest packet of the lowest PRI, its parity checked again, the idle item from an empty queue, or waits until one comes (R345); a stale tail
rewinds its writer; flush empties the queue and drain holds new packets until it is empty. -/
def Obligations.ItemsPassTheHardwareQueues : Prop :=
  (∀ (q : Fin 64) (w : Fin 4) (it : HqItem) (s : State), (∃ x ∈ (hwq s q).held, x.1 = w) → exec (.hqItemWrite q w it) s = .next s) ∧
  (∀ (q : Fin 64) (w : Fin 4) (it : HqItem) (s : State), (∀ x ∈ (hwq s q).held, x.1 ≠ w) → (hwq s q).waiting = false →
    ∃ t, exec (.hqItemWrite q w it) s = .next t ∧ (∀ k, k ≠ q.val → hwq t k = hwq s k) ∧ (hwq t q).reading = (hwq s q).reading ∧
      (hqParityOk it = true → t.hq.cntParity = s.hq.cntParity) ∧
      (hqParityOk it = false → t.hq.cntParity = inc s.hq.cntParity ∧ isPending t 474) ∧
      (it.type = 0 → (hwq t q).packets = (hwq s q).packets ∧ hqOccupancy (hwq t q) = hqOccupancy (hwq s q)) ∧
      (it.type ≠ 0 → it.first = true → hqOpen (hwq s q) w = none → hqAdmits (hwq s q) w = false →
        (hwq t q).held = (hwq s q).held ++ [(w, hqStored it)] ∧ (hwq t q).packets = (hwq s q).packets) ∧
      (it.type ≠ 0 → it.first = true → hqOpen (hwq s q) w = none → hqAdmits (hwq s q) w = true →
        (it.last = true → (hwq t q).packets = (hwq s q).packets ++ [[hqStored it]]) ∧
        (it.last = false → (hwq t q).packets = (hwq s q).packets ∧ hqOpen (hwq t q) w = some ⟨w, [hqStored it], s.power.time⟩)) ∧
      (it.type ≠ 0 → it.first = false → ∀ o, hqOpen (hwq s q) w = some o → o.items.length < (hwq s q).maxPacket →
        (it.last = true → (hwq t q).packets = (hwq s q).packets ++ [o.items ++ [hqStored it]]) ∧
        (it.last = false → hqOpen (hwq t q) w = some ⟨w, o.items ++ [hqStored it], s.power.time⟩)) ∧
      (it.type ≠ 0 → it.first = false → hqOpen (hwq s q) w = none →
        (hwq t q).errSeq = if (hwq s q).skip.getLsbD w then (hwq s q).errSeq else min 65535 ((hwq s q).errSeq + 1)) ∧
      (it.type ≠ 0 → it.first = true → hqOpen (hwq s q) w ≠ none → (hwq t q).errSeq = min 65535 ((hwq s q).errSeq + 1))) ∧
  (∀ (ps : List (List HqItem)) (i : Nat), hqNext ps = some i → i < ps.length ∧ (∀ p ∈ ps, hqPri (ps.getD i []) ≤ hqPri p) ∧
    ∀ j < i, hqPri (ps.getD i []) ≠ hqPri (ps.getD j [])) ∧
  (∀ (q : Fin 64) (s : State), (hwq s q).truncated = false → (hwq s q).reading = none → hqNext (hwq s q).packets = none →
    (∃ t, exec (.hqItemRead q true) s = .next t ∧ (hwq t q).waiting = true ∧ changesOnly [.hqQueues] s t) ∧
    (∃ t, exec (.hqItemRead q false) s = .next t ∧ t.out = s.out ++ [.hqItem q hqIdle] ∧ changesOnly [.out] s t)) ∧
  (∀ (q : Fin 64) (blocking : Bool) (i : Nat) (it : HqItem) (rest : List HqItem) (s : State), (hwq s q).truncated = false →
    (hwq s q).reading = none → hqNext (hwq s q).packets = some i → (hwq s q).packets.getD i [] = it :: rest →
    let bad := it.poison || !hqParityOk it
    ∃ t, exec (.hqItemRead q blocking) s = .next t ∧ .hqItem q { it with poison := bad } ∈ t.out ∧ (hwq t q).waiting = false ∧
      (hwq t q).reading = (if rest = [] then none else some (rest, bad)) ∧ ((hwq s q).held = [] →
        (hwq t q).packets = (hwq s q).packets.eraseIdx i) ∧
      (hwq t q).errPoison = if bad then min 65535 ((hwq s q).errPoison + 1) else (hwq s q).errPoison) ∧
  (∀ (q : Fin 64) (blocking bad : Bool) (it : HqItem) (rest : List HqItem) (s : State), (hwq s q).truncated = false →
    (hwq s q).reading = some (it :: rest, bad) →
    let now := it.poison || bad || !hqParityOk it
    ∃ t, exec (.hqItemRead q blocking) s = .next t ∧ .hqItem q { it with poison := now } ∈ t.out ∧
      (hwq t q).reading = (if rest = [] then none else some (rest, now)) ∧ (now = true → isPending t 474 ∧ isPending t (384 + q.val))) ∧
  (∀ (q : Fin 64) (w : Fin 4) (s : State),
    (hqOpen (hwq s q) w = none ∨ (hwq s q).staleTail = 0 → exec (.hqStaleTail q w) s = .next s) ∧
    (∀ o, hqOpen (hwq s q) w = some o → (hwq s q).staleTail ≠ 0 → ∃ t, exec (.hqStaleTail q w) s = .next t ∧
      t.hq.cntStale = inc s.hq.cntStale ∧ (hwq t q).errSeq = min 65535 ((hwq s q).errSeq + 1) ∧ isPending t 474 ∧
      t.power.time = max s.power.time (o.at_ + usTicks * (hwq s q).staleTail) ∧
      ((hwq s q).held = [] → hqOpen (hwq t q) w = none ∧ (hwq t q).skip.getLsbD w = true))) ∧
  (∀ (q : Fin 64) (s : State), ∃ t, exec (.hqFlush q) s = .next t ∧ t.hq.cntFlush = inc s.hq.cntFlush ∧
    ((hwq s q).held = [] → (hwq t q).packets = [] ∧ (hwq t q).opens = [] ∧ (hwq t q).reading = none ∧ (hwq t q).skip = 0xF ∧
      (hwq t q).truncated = ((hwq s q).truncated || (hwq s q).reading.isSome))) ∧
  (∀ (q : Fin 64) (s : State), ∃ t, exec (.hqDrain q) s = .next t ∧ hwq t q = { hwq s q with draining := true } ∧ changesOnly [.hqQueues] s t) ∧
  (∀ (q : Fin 64) (s : State), ((hwq s q).draining = false ∨ hqOccupancy (hwq s q) ≠ 0 → exec (.hqDrainDone q) s = .next s) ∧
    ((hwq s q).draining = true → hqOccupancy (hwq s q) = 0 → ∃ t, exec (.hqDrainDone q) s = .next t ∧ (hwq t q).draining = false)) ∧
  (∀ (q : Fin 64) (w : Fin 4) (it : HqItem) (s : State), (hwq s q).waiting = true → (hwq s q).truncated = false → (hwq s q).reading = none →
    (hwq s q).packets = [] → (hwq s q).opens = [] → (hwq s q).held = [] → hqAdmits (hwq s q) w = true → it.type ≠ 0 → it.first = true →
    it.last = true → ∃ t, exec (.hqItemWrite q w it) s = .next t ∧ .hqItem q (hqStored it) ∈ t.out ∧ (hwq t q).packets = [] ∧
      (hwq t q).waiting = false) ∧
  (hqIdle.type = 0 ∧ hqIdle.data = 0 ∧ hqParityOk hqIdle = true ∧ hqIdle.poison = false ∧ hqIdle.first = true ∧ hqIdle.last = true)


/-! ## Instances -/

/-- Instances. A fault takes its instance out of service once, with record 0x0010, its domain's fault bit and its block's own change; an
instance that is out already gives nothing more; with no spare left the part resets with cause 3. The rows that name a unit of their own
do the same to theirs. -/
def Obligations.FaultsTakeInstancesOut : Prop :=
  (∀ (row : FaultRow) (k i : Nat) (s : State), (row, k) ∈ [(FaultRow.tile, 64), (.hlPhyHalf, 16), (.eccCluster, 8), (.cupolaCore, 4), (.czEngine, 4), (.hostPort, 2),
      (.controlCore, 4), (.fabricPlane, 2), (.keepCopy, 2), (.bufferStack, 2)] → i < k → outOf s row i = true → exec (.instanceFault row i) s = .next s) ∧
  (∀ (row : FaultRow) (k i d : Nat) (s : State), live s = true → (row, k) ∈ [(FaultRow.tile, 64), (.eccCluster, 8), (.cupolaCore, 4),
      (.czEngine, 4), (.bufferStack, 2), (.controlCore, 4), (.fabricPlane, 2), (.keepCopy, 2)] → i < k → rowDomain row i = some d → spareLeft s row i →
    ∃ t, exec (.instanceFault row i) s = .next t ∧ outOf t row i = true ∧ t.power.domFault.getLsbD d = true ∧
      t.lantern.outOfService = s.lantern.outOfService ++ [(row, i)] ∧
      madeRecord 0x0010 (le 1 (rowNo row) ++ le 1 i ++ le 2 (Config.detectorCode row) ++ le 8 s.wr.slot) s t ∧
      (row = .tile → t.tiles.inService = setBit s.tiles.inService i false ∧ isPending t i) ∧
      (row = .eccCluster → t.ecc.inService = setBit s.ecc.inService i false ∧ isPending t (80 + i)) ∧
      (row = .cupolaCore → t.cupola.inService = setBit s.cupola.inService i false ∧ t.cupola.cntCorErr = inc s.cupola.cntCorErr ∧
        isPending t (88 + i)) ∧
      (row = .czEngine → t.cz.inService = setBit s.cz.inService i false ∧ isPending t (92 + i)) ∧
      (row = .bufferStack → t.wr.stackOk = setBit s.wr.stackOk i false ∧ (∀ r ∈ t.rd.sets, r.stack.val ≠ i) ∧ isPending t (96 + i)) ∧
      (row = .keepCopy → t.keep.copyOk = setBit s.keep.copyOk i false ∧ t.keep.slots = s.keep.slots ∧ isPending t (104 + i)) ∧
      (row = .fabricPlane → isPending t (106 + i))) ∧
  (∀ (row : FaultRow) (k i : Nat) (s : State), live s = true → (row, k) ∈ [(FaultRow.bufferStack, 2), (.controlCore, 4), (.fabricPlane, 2),
      (.keepCopy, 2)] → i < k →
    outOf s row i = false → noSpare s row = true → ∃ t, exec (.instanceFault row i) s = .next t ∧ partResetOf s t ∧
      madeRecord 0x0002 (le 1 3) s t) ∧
  (∀ (i : Fin 4) (s : State), exec (.compressionEngineFault i) s = exec (.instanceFault .czEngine i) s) ∧
  (∀ (i : Fin 4) (s : State), exec (.cupolaCoreError i) s = exec (.instanceFault .cupolaCore i) s) ∧
  (∀ (i : Fin 2) (s : State), exec (.keepCopyMismatch i) s = exec (.instanceFault .keepCopy i) s) ∧
  (∀ (i : Fin 2) (s : State), exec (.stackLoss i) s = exec (.instanceFault .bufferStack i) s) ∧
  (∀ (m c : Nat) (s : State), live s = true → m < 2 → c < 1024 → ∃ t, exec (.instanceFault .headElement (1024 * m + c)) s = .next t ∧
    (if m = 0 then t.ecc.dead0 = setBit s.ecc.dead0 c true ∧ t.ecc.dead1 = s.ecc.dead1
      else t.ecc.dead1 = setBit s.ecc.dead1 c true ∧ t.ecc.dead0 = s.ecc.dead0) ∧ ((deadOf s m).getLsbD c = true → t = s)) ∧
  (∀ (g lane : Fin 8) (s : State), exec (.instanceFault .hlInLane (8 * g.val + lane.val)) s = exec (.inboundLaneLost g lane) s) ∧
  (∀ (g : Fin 8) (lane : Fin 2) (s : State), exec (.instanceFault .hlOutLane (2 * g.val + lane.val)) s = exec (.outboundLaneLost g lane) s) ∧
  (∀ (i : Fin 4) (s : State), live s = true → ∃ t, exec (.instanceFault .servoReader i) s = .next t ∧ t.stp.readers[i].usable = false ∧
    t.stp.readers[i].good = 0 ∧ t.stp.cntDrop = inc s.stp.cntDrop ∧ outOf t .servoReader i = true) ∧
  (∀ (i : Fin 2) (s : State), live s = true → ∃ t, exec (.instanceFault .encoder i) s = .next t ∧ t.stp.reels[i].ok = false ∧
    t.stp.cntDrop = (if s.stp.reels[i].ok then inc s.stp.cntDrop else s.stp.cntDrop)) ∧
  (∀ (d : Nat) (s : State), live s = true → d < 18 → outOf s .dramDie d = false → (∀ e, outOf s .dramDie e = true → e / 9 ≠ d / 9) →
    ∃ t, exec (.instanceFault .dramDie d) s = .next t ∧ outOf t .dramDie d = true ∧ t.wr = s.wr ∧ t.rd = s.rd) ∧
  (∀ (d e : Nat) (s : State), live s = true → d < 18 → outOf s .dramDie d = false → outOf s .dramDie e = true → e / 9 = d / 9 →
    spareLeft s .bufferStack (d / 9) → ∃ t, exec (.instanceFault .dramDie d) s = .next t ∧ t.wr.stackOk = setBit s.wr.stackOk (d / 9) false)


/-! ## Registers -/

/-- Register accesses. A read answers the register's value, through the port's own latch for a _HI word; a _LO word loads that latch; a
read clears the counters at its offset. A write gives an RW field its value and leaves every other field, and a write to the broadcast
window reaches all 64 tiles. An access that is not served is counted: zeros for a read, nothing for a write. -/
def Obligations.RegistersReadWriteAndCount : Prop :=
  (∀ (p : Port) (off : Nat) (s : State), exec (.loWordRead p off) s = exec (.rcRead p off) s) ∧
  (∀ (p : Port) (off : Nat) (s : State), live s = true → off % 4 = 0 → ∃ t, exec (.rcRead p off) s = .next t ∧
    t.out = s.out ++ [.regData p off (w32 (readValue p s off))] ∧ changesOnly counterFields s t ∧
    (loWords.contains off = true → assoc (portOf t p).hiLatch (off + 4) 0#32 = w32 (regValue p s (off + 4)) ∧
      portOf t (otherPort p) = portOf s (otherPort p))) ∧
  (∀ (p : Port) (s : State), live s = true →
    (∃ t, exec (.rcRead p 0x60010) s = .next t ∧ t.ecc.cntL3 = 0 ∧ .regData p 0x60010 (w32 s.ecc.cntL3) ∈ t.out) ∧
    (∃ t, exec (.rcRead p 0x00030) s = .next t ∧ t.host.cntBadAcc = 0 ∧ .regData p 0x00030 (w32 s.host.cntBadAcc) ∈ t.out) ∧
    (∀ g : Fin 8, ∃ t, exec (.rcRead p (0x7010C + 0x20 * g.val)) s = .next t ∧ (hlGroup t g).cntCrc = 0 ∧
      (hlGroup t g).cntLost = (hlGroup s g).cntLost) ∧
    (∃ t, exec (.loWordRead p 0x50124) s = .next t ∧ assoc (portOf t p).hiLatch 0x50128 0#32 = w32 (s.power.time / 2 ^ 32))) ∧
  (∀ (p : Port) (off size : Nat) (w : Bool) (s : State),
    (servedAccess off size = true → exec (.badAccess p off size w) s = .next s) ∧
    (live s = true → servedAccess off size = false → ∃ t, exec (.badAccess p off size w) s = .next t ∧
      t.host.cntBadAcc = inc s.host.cntBadAcc ∧ changesOnly [.hostCntBadAcc, .out] s t ∧
      t.out = if w then s.out else s.out ++ [.regData p off 0])) ∧
  (∀ (v : Word) (s : State), live s = true → ∃ t, exec (.lanTrigArm v) s = .next t ∧ t.lantern.trigCode = bits v.toNat 0 16 ∧
    t.lantern.trigPost = bits v.toNat 16 8 ∧ (v.getLsbD 24 = true → t.lantern.armed = true ∧ t.lantern.fired = false) ∧
    (v.getLsbD 24 = false → t.lantern.armed = s.lantern.armed ∧ t.lantern.fired = s.lantern.fired)) ∧
  (∀ (off : Nat) (v : Word) (s : State), live s = true →
    (off % 4 ≠ 0 → ∃ t, exec (.ctBroadcastWrite off v) s = .next t ∧ changesOnly [.hostCntBadAcc] s t ∧ t.host.cntBadAcc = inc s.host.cntBadAcc) ∧
    (off = 0x000 → ∃ t, exec (.ctBroadcastWrite off v) s = .next t ∧ changesOnly [.tilesSyncCfg] s t ∧
      ∀ i : Fin 64, t.tiles.syncCfg[i] = masked32 0x3F77 v.toNat) ∧
    (∀ k : Fin 16, off = 0x240 + 4 * k.val → ∃ t, exec (.ctBroadcastWrite off v) s = .next t ∧ changesOnly [.tilesWtrim] s t ∧
      ∀ i : Fin 1024, (t.tiles.wtrim[i]).toNat = if i.val % 16 = k.val then v.toNat % 2 ^ 16 else (s.tiles.wtrim[i]).toNat) ∧
    (∀ k : Nat, k < 16 → off = 0xF00 + 4 * k → ∃ t, exec (.ctBroadcastWrite off v) s = .next t ∧ changesOnly [.tilesRetry] s t ∧
      getAt t.tiles.retry k 0 = masked32 0x87FFFFFF v.toNat) ∧
    (off = 0xF40 → ∃ t, exec (.ctBroadcastWrite off v) s = .next t ∧ changesOnly [.tilesRetryCtl] s t ∧ t.tiles.retryCtl = masked32 0xF v.toNat)) ∧
  (∀ (p : Port) (off : Nat) (v : Word) (s : State), live s = true → off % 4 ≠ 0 → ∃ t, exec (.registerWrite p off v) s = .next t ∧
    changesOnly [.hostCntBadAcc] s t ∧ t.host.cntBadAcc = inc s.host.cntBadAcc) ∧
  (∀ (p : Port) (v : Word) (s : State), live s = true →
    (∃ t, exec (.registerWrite p 0x208 v) s = .next t ∧ changesOnly [.hostAqSize] s t ∧ regValue p t 0x208 = v.toNat) ∧
    (∃ t, exec (.registerWrite p 0x20C v) s = .next t ∧ changesOnly [.hostAqSqbLo] s t ∧ regValue p t 0x20C = v.toNat / 4096 * 4096) ∧
    (∃ t, exec (.registerWrite p 0x20004 v) s = .next t ∧ changesOnly [.stpWinh] s t ∧ t.stp.winh = masked32 0xFF7F v.toNat) ∧
    (∃ t, exec (.registerWrite p 0x50000 v) s = .next t ∧ changesOnly [.wvnNew] s t ∧ t.wvn.new.ctrl = masked32 0x3 v.toNat) ∧
    (∃ t, exec (.registerWrite p 0x60000 v) s = .next t ∧ changesOnly [.eccLdpcCfg] s t ∧ t.ecc.ldpcCfg = masked32 0x7FFFFF v.toNat) ∧
    (∃ t, exec (.registerWrite p 0x10090 v) s = .next t ∧ changesOnly [.blfSrcIdx] s t ∧ t.blf.srcIdx = masked32 0x1FF v.toNat) ∧
    (∃ t, exec (.registerWrite p 0x30000 v) s = .next t ∧ changesOnly [.cupolaCfg] s t ∧ t.cupola.cfg = masked32 0xF7 v.toNat) ∧
    (∃ t, exec (.registerWrite p 0x80008 v) s = .next t ∧ changesOnly [.lanternCfg] s t ∧ t.lantern.cfg = masked32 0xFF03 v.toNat) ∧
    (∀ off, off ∈ [0x000, 0x008, 0x030, 0x100, 0x10000, 0x10014, 0x20000, 0x20080, 0x40000, 0x40020, 0x50020, 0x50124, 0x6020C, 0x70004, 0x80000,
      0x90000, 0x100400, 0x100800, 0x304000] → exec (.registerWrite p off v) s = .next s))

/-- No register, at any offset and through either port, tells one secret from another: what a read answers is the same in two states that
differ in their secrets alone. -/
def Obligations.RegistersRevealNoKey : Prop :=
  ∀ (p : Port) (off : Nat) (s u : State), withoutSecrets s = withoutSecrets u → regValue p s off = regValue p u off ∧
    ∃ t v, exec (.rcRead p off) s = .next t ∧ exec (.rcRead p off) u = .next v ∧ t.out = v.out

/-- The time base never steps back: no command but the power-on reset leaves it lower than it was. -/
def Obligations.TimeNeverStepsBack : Prop :=
  ∀ (c : Instr) (s t : State), c ≠ .powerOnReset → exec c s = .next t → s.power.time ≤ t.power.time
end

