-- ==== Sys2Proof/Laws/Memory.lean ====
section
/-! SUPPORT. The byte stores (boot flash, cartridge memory): every operation keeps the canonical form, and what a read gives after each. -/

namespace Sys2Proof.Machine

/-! ## Where the entries of a changed store come from -/

theorem Memory.mem_remove {m : Cells} {x : Nat} {c : Host.Cell} (h : c ∈ Memory.remove m x) : c ∈ m := by
  induction m with
  | nil => exact h
  | cons e m ih =>
    obtain ⟨a, b⟩ := e
    simp only [Memory.remove] at h
    split at h
    · exact List.mem_cons_of_mem _ h
    · rcases List.mem_cons.mp h with h | h
      · exact h ▸ List.mem_cons_self
      · exact List.mem_cons_of_mem _ (ih h)

theorem Memory.mem_insert {m : Cells} {x : Nat} {v : Byte} {c : Host.Cell} (h : c ∈ Memory.insert m x v) : c = (x, v) ∨ c ∈ m := by
  induction m with
  | nil => exact .inl (List.mem_singleton.mp h)
  | cons e m ih =>
    obtain ⟨a, b⟩ := e
    simp only [Memory.insert] at h
    split at h
    · exact (List.mem_cons.mp h).imp id id
    · split at h
      · rename_i e
        subst e
        exact (List.mem_cons.mp h).imp id (List.mem_cons_of_mem _)
      · rcases List.mem_cons.mp h with h | h
        · exact .inr (h ▸ List.mem_cons_self)
        · exact (ih h).imp id (List.mem_cons_of_mem _)

/-! ## The canonical form is kept -/

theorem Memory.remove_pairwise {m : Cells} (x : Nat) (h : m.Pairwise fun a b => a.1 < b.1) :
    (Memory.remove m x).Pairwise fun a b => a.1 < b.1 := by
  induction m with
  | nil => exact h
  | cons e m ih =>
    obtain ⟨a, b⟩ := e
    obtain ⟨h1, h2⟩ := List.pairwise_cons.mp h
    simp only [Memory.remove]
    split
    · exact h2
    · exact List.pairwise_cons.mpr ⟨fun c hc => h1 c (Memory.mem_remove hc), ih h2⟩

theorem Memory.insert_pairwise {m : Cells} (x : Nat) (v : Byte) (h : m.Pairwise fun a b => a.1 < b.1) :
    (Memory.insert m x v).Pairwise fun a b => a.1 < b.1 := by
  induction m with
  | nil => exact List.pairwise_singleton _ _
  | cons e m ih =>
    obtain ⟨a, b⟩ := e
    obtain ⟨h1, h2⟩ := List.pairwise_cons.mp h
    simp only [Memory.insert]
    split
    · rename_i hx
      refine List.pairwise_cons.mpr ⟨fun c hc => ?_, h⟩
      rcases List.mem_cons.mp hc with hc | hc
      · subst hc
        exact hx
      · exact Nat.lt_trans hx (h1 c hc)
    · split
      · exact List.pairwise_cons.mpr ⟨fun c hc => h1 c hc, h2⟩
      · refine List.pairwise_cons.mpr ⟨fun c hc => ?_, ih h2⟩
        rcases Memory.mem_insert hc with hc | hc
        · subst hc
          show a < x
          omega
        · exact h1 c hc

theorem Memory.wf_write {m : Cells} (x : Nat) (v : Byte) (h : Memory.wf m) : Memory.wf (Memory.write m x v) := by
  unfold Memory.write
  split
  · exact ⟨Memory.remove_pairwise x h.1, fun c hc => h.2 c (Memory.mem_remove hc)⟩
  · rename_i hv
    refine ⟨Memory.insert_pairwise x v h.1, fun c hc => ?_⟩
    rcases Memory.mem_insert hc with hc | hc
    · exact hc ▸ hv
    · exact h.2 c hc

theorem Memory.wf_writeBytes {m : Cells} (x : Nat) (bs : Bytes) (h : Memory.wf m) : Memory.wf (Memory.writeBytes m x bs) := by
  induction bs generalizing m x with
  | nil => exact h
  | cons b bs ih => exact ih (x + 1) (Memory.wf_write x b h)

theorem Memory.wf_erase {m : Cells} (x n : Nat) (h : Memory.wf m) : Memory.wf (Memory.erase m x n) :=
  ⟨h.1.filter _, fun c hc => h.2 c (List.mem_filter.mp hc).1⟩

/-! ## What a read gives -/

theorem Memory.read_of_lt {m : Cells} {x : Nat} (h : ∀ c ∈ m, x < c.1) : Memory.read m x = emptyByte := by
  induction m with
  | nil => rfl
  | cons e m ih =>
    obtain ⟨a, b⟩ := e
    have h1 : x < a := h (a, b) List.mem_cons_self
    simp only [Memory.read]
    rw [if_neg (by omega)]
    exact ih fun c hc => h c (List.mem_cons_of_mem _ hc)

theorem Memory.read_remove_same {m : Cells} (x : Nat) (h : m.Pairwise fun a b => a.1 < b.1) :
    Memory.read (Memory.remove m x) x = emptyByte := by
  induction m with
  | nil => rfl
  | cons e m ih =>
    obtain ⟨a, b⟩ := e
    obtain ⟨h1, h2⟩ := List.pairwise_cons.mp h
    simp only [Memory.remove]
    split
    · rename_i hx
      exact Memory.read_of_lt fun c hc => hx ▸ h1 c hc
    · rename_i hx
      simp only [Memory.read, if_neg hx]
      exact ih h2

theorem Memory.read_remove_other {m : Cells} {x y : Nat} (h : y ≠ x) : Memory.read (Memory.remove m x) y = Memory.read m y := by
  induction m with
  | nil => rfl
  | cons e m ih =>
    obtain ⟨a, b⟩ := e
    simp only [Memory.remove]
    split
    · rename_i hx
      simp only [Memory.read, if_neg (show ¬a = y by omega)]
    · simp only [Memory.read, ih]

theorem Memory.read_insert_same {m : Cells} (x : Nat) (v : Byte) : Memory.read (Memory.insert m x v) x = v := by
  induction m with
  | nil => simp [Memory.insert, Memory.read]
  | cons e m ih =>
    obtain ⟨a, b⟩ := e
    simp only [Memory.insert]
    split
    · simp [Memory.read]
    · split
      · rename_i hx
        simp [Memory.read, hx]
      · rename_i hx
        simp only [Memory.read, if_neg hx]
        exact ih

theorem Memory.read_insert_other {m : Cells} {x y : Nat} (v : Byte) (h : y ≠ x) : Memory.read (Memory.insert m x v) y = Memory.read m y := by
  induction m with
  | nil => simp [Memory.insert, Memory.read, Ne.symm h]
  | cons e m ih =>
    obtain ⟨a, b⟩ := e
    simp only [Memory.insert]
    split
    · simp only [Memory.read, if_neg (Ne.symm h)]
    · split
      · rename_i hx
        simp only [Memory.read, hx, if_neg (Ne.symm h)]
      · simp only [Memory.read, ih]

/-- A byte written is what is read there. -/
theorem Memory.read_write_same {m : Cells} (x : Nat) (v : Byte) (h : Memory.wf m) : Memory.read (Memory.write m x v) x = v := by
  unfold Memory.write
  split
  · rename_i hv
    exact (Memory.read_remove_same x h.1).trans hv.symm
  · exact Memory.read_insert_same x v

/-- A write leaves every other address alone. -/
theorem Memory.read_write_other {m : Cells} {x y : Nat} (v : Byte) (h : y ≠ x) : Memory.read (Memory.write m x v) y = Memory.read m y := by
  unfold Memory.write
  split
  · exact Memory.read_remove_other h
  · exact Memory.read_insert_other v h

/-- A string written leaves every address outside it alone. -/
theorem Memory.read_writeBytes_other {m : Cells} {x y : Nat} (bs : Bytes) (h : y < x ∨ x + bs.length ≤ y) :
    Memory.read (Memory.writeBytes m x bs) y = Memory.read m y := by
  induction bs generalizing m x with
  | nil => rfl
  | cons b bs ih =>
    simp only [List.length_cons] at h
    exact (ih (m := Memory.write m x b) (x := x + 1) (by omega)).trans (Memory.read_write_other b (by omega))

theorem Memory.wf_canon (m : Cells) : Memory.wf (Memory.canon m) := by
  induction m with
  | nil => exact ⟨List.Pairwise.nil, fun _ h => absurd h List.not_mem_nil⟩
  | cons c m ih => exact Memory.wf_write _ _ ih

/-- The reset contents of a store are in canonical form. -/
theorem Memory.wf_nil : Memory.wf [] := ⟨List.Pairwise.nil, fun _ h => absurd h List.not_mem_nil⟩

end Sys2Proof.Machine
end

