-- ==== Sys2Proof/Laws/Kept.lean ====
section
/-! SUPPORT. What every operation of the model keeps: the waiting commands, what the fuses hold, the canonical form of the boot flash
and of the cartridge memory, and every field outside a mask. One lemma per operation, in the form that composes: from a state that is
kept to the operation's result. Bit k of a mask stands for the field of Safety.Field with index k. -/

set_option linter.unusedVariables false

namespace Sys2Proof.Machine

/-- The boot part after an operation has the same fused identity, and its flash is in canonical form if it was before. -/
structure BootKept (b c : Boot) : Prop where
  serial : c.serial = b.serial
  secret : c.deviceSecret = b.deviceSecret
  roots : c.rootHashes = b.rootHashes
  endorsement : c.endorsement = b.endorsement
  flash : Memory.wf b.flash → Memory.wf c.flash

/-- The cartridge memory, if a cartridge is in, is in canonical form. -/
def cartWf (d : Drive) : Prop := ∀ c, d.cart = some c → Memory.wf c.cm

/-- The fields of a mask are among those of another. -/
theorem Mask.sub {a b m : Nat} (h : b ||| m = m) (k : a ||| b = b) : a ||| m = m := by
  rw [← h, ← Nat.lor_assoc, k]

/-- A field of a mask is a field of any wider mask. -/
theorem Mask.bit {a m : Nat} (h : a ||| m = m) {i : Nat} (k : a.testBit i = true) : m.testBit i = true := by
  rw [← h, Nat.testBit_lor, k, Bool.true_or]

/-- Outside the mask the two have the same fields. -/
structure PinsAgree (m : Nat) (a b : Pins) : Prop where
  presenceN : m.testBit 0 = true ∨ b.presenceN = a.presenceN
  cartPresentN : m.testBit 1 = true ∨ b.cartPresentN = a.cartPresentN
  shockN : m.testBit 2 = true ∨ b.shockN = a.shockN
  motFaultN : m.testBit 3 = true ∨ b.motFaultN = a.motFaultN
  pwrGood : m.testBit 4 = true ∨ b.pwrGood = a.pwrGood
  sysResetN : m.testBit 5 = true ∨ b.sysResetN = a.sysResetN
  testEn : m.testBit 6 = true ∨ b.testEn = a.testEn
  gpio : m.testBit 7 = true ∨ b.gpio = a.gpio
  straps : m.testBit 8 = true ∨ b.straps = a.straps
  alarmAsserted : m.testBit 9 = true ∨ b.alarmAsserted = a.alarmAsserted
  motEn : m.testBit 10 = true ∨ b.motEn = a.motEn

theorem PinsAgree.refl (m : Nat) (a : Pins) : PinsAgree m a a := by
  constructor <;> exact .inr rfl

theorem PinsAgree.trans {m : Nat} {a b c : Pins} (h : PinsAgree m a b) (k : PinsAgree m b c) : PinsAgree m a c where
  presenceN := h.presenceN.elim .inl fun x => k.presenceN.imp_right fun y => y.trans x
  cartPresentN := h.cartPresentN.elim .inl fun x => k.cartPresentN.imp_right fun y => y.trans x
  shockN := h.shockN.elim .inl fun x => k.shockN.imp_right fun y => y.trans x
  motFaultN := h.motFaultN.elim .inl fun x => k.motFaultN.imp_right fun y => y.trans x
  pwrGood := h.pwrGood.elim .inl fun x => k.pwrGood.imp_right fun y => y.trans x
  sysResetN := h.sysResetN.elim .inl fun x => k.sysResetN.imp_right fun y => y.trans x
  testEn := h.testEn.elim .inl fun x => k.testEn.imp_right fun y => y.trans x
  gpio := h.gpio.elim .inl fun x => k.gpio.imp_right fun y => y.trans x
  straps := h.straps.elim .inl fun x => k.straps.imp_right fun y => y.trans x
  alarmAsserted := h.alarmAsserted.elim .inl fun x => k.alarmAsserted.imp_right fun y => y.trans x
  motEn := h.motEn.elim .inl fun x => k.motEn.imp_right fun y => y.trans x

/-- Outside the mask the two have the same fields. -/
structure BootAgree (m : Nat) (a b : Boot) : Prop where
  phase : m.testBit 11 = true ∨ b.phase = a.phase
  preferred : m.testBit 12 = true ∨ b.preferred = a.preferred
  fails : m.testBit 13 = true ∨ b.fails = a.fails
  slotA : m.testBit 14 = true ∨ b.slotA = a.slotA
  slotB : m.testBit 15 = true ∨ b.slotB = a.slotB
  cause : m.testBit 16 = true ∨ b.cause = a.cause
  bootCount : m.testBit 17 = true ∨ b.bootCount = a.bootCount
  confirmed : m.testBit 18 = true ∨ b.confirmed = a.confirmed
  straps : m.testBit 19 = true ∨ b.straps = a.straps
  slot : m.testBit 20 = true ∨ b.slot = a.slot
  version : m.testBit 21 = true ∨ b.version = a.version
  ready : m.testBit 22 = true ∨ b.ready = a.ready
  watchdog : m.testBit 23 = true ∨ b.watchdog = a.watchdog
  epoch : m.testBit 24 = true ∨ b.epoch = a.epoch
  minVersion : m.testBit 25 = true ∨ b.minVersion = a.minVersion
  serial : m.testBit 26 = true ∨ b.serial = a.serial
  rootHashes : m.testBit 27 = true ∨ b.rootHashes = a.rootHashes
  rootsRevoked : m.testBit 28 = true ∨ b.rootsRevoked = a.rootsRevoked
  deviceSecret : m.testBit 29 = true ∨ b.deviceSecret = a.deviceSecret
  endorsement : m.testBit 30 = true ∨ b.endorsement = a.endorsement
  flash : m.testBit 31 = true ∨ b.flash = a.flash
  staged : m.testBit 32 = true ∨ b.staged = a.staged
  stagedOk : m.testBit 33 = true ∨ b.stagedOk = a.stagedOk
  stagedPermit : m.testBit 34 = true ∨ b.stagedPermit = a.stagedPermit
  activation : m.testBit 35 = true ∨ b.activation = a.activation
  fromPs4 : m.testBit 36 = true ∨ b.fromPs4 = a.fromPs4
  keepFault : m.testBit 37 = true ∨ b.keepFault = a.keepFault

theorem BootAgree.refl (m : Nat) (a : Boot) : BootAgree m a a := by
  constructor <;> exact .inr rfl

theorem BootAgree.trans {m : Nat} {a b c : Boot} (h : BootAgree m a b) (k : BootAgree m b c) : BootAgree m a c where
  phase := h.phase.elim .inl fun x => k.phase.imp_right fun y => y.trans x
  preferred := h.preferred.elim .inl fun x => k.preferred.imp_right fun y => y.trans x
  fails := h.fails.elim .inl fun x => k.fails.imp_right fun y => y.trans x
  slotA := h.slotA.elim .inl fun x => k.slotA.imp_right fun y => y.trans x
  slotB := h.slotB.elim .inl fun x => k.slotB.imp_right fun y => y.trans x
  cause := h.cause.elim .inl fun x => k.cause.imp_right fun y => y.trans x
  bootCount := h.bootCount.elim .inl fun x => k.bootCount.imp_right fun y => y.trans x
  confirmed := h.confirmed.elim .inl fun x => k.confirmed.imp_right fun y => y.trans x
  straps := h.straps.elim .inl fun x => k.straps.imp_right fun y => y.trans x
  slot := h.slot.elim .inl fun x => k.slot.imp_right fun y => y.trans x
  version := h.version.elim .inl fun x => k.version.imp_right fun y => y.trans x
  ready := h.ready.elim .inl fun x => k.ready.imp_right fun y => y.trans x
  watchdog := h.watchdog.elim .inl fun x => k.watchdog.imp_right fun y => y.trans x
  epoch := h.epoch.elim .inl fun x => k.epoch.imp_right fun y => y.trans x
  minVersion := h.minVersion.elim .inl fun x => k.minVersion.imp_right fun y => y.trans x
  serial := h.serial.elim .inl fun x => k.serial.imp_right fun y => y.trans x
  rootHashes := h.rootHashes.elim .inl fun x => k.rootHashes.imp_right fun y => y.trans x
  rootsRevoked := h.rootsRevoked.elim .inl fun x => k.rootsRevoked.imp_right fun y => y.trans x
  deviceSecret := h.deviceSecret.elim .inl fun x => k.deviceSecret.imp_right fun y => y.trans x
  endorsement := h.endorsement.elim .inl fun x => k.endorsement.imp_right fun y => y.trans x
  flash := h.flash.elim .inl fun x => k.flash.imp_right fun y => y.trans x
  staged := h.staged.elim .inl fun x => k.staged.imp_right fun y => y.trans x
  stagedOk := h.stagedOk.elim .inl fun x => k.stagedOk.imp_right fun y => y.trans x
  stagedPermit := h.stagedPermit.elim .inl fun x => k.stagedPermit.imp_right fun y => y.trans x
  activation := h.activation.elim .inl fun x => k.activation.imp_right fun y => y.trans x
  fromPs4 := h.fromPs4.elim .inl fun x => k.fromPs4.imp_right fun y => y.trans x
  keepFault := h.keepFault.elim .inl fun x => k.keepFault.imp_right fun y => y.trans x

/-- Outside the mask the two have the same fields. -/
structure TrustAgree (m : Nat) (a b : Trust) : Prop where
  press : m.testBit 38 = true ∨ b.press = a.press
  sealOk : m.testBit 39 = true ∨ b.sealOk = a.sealOk
  sealBroken : m.testBit 40 = true ∨ b.sealBroken = a.sealBroken
  lfsr : m.testBit 41 = true ∨ b.lfsr = a.lfsr
  mismatches : m.testBit 42 = true ∨ b.mismatches = a.mismatches
  debug : m.testBit 43 = true ∨ b.debug = a.debug
  permit : m.testBit 44 = true ∨ b.permit = a.permit
  cause : m.testBit 45 = true ∨ b.cause = a.cause
  lifetime : m.testBit 46 = true ∨ b.lifetime = a.lifetime
  tableKey : m.testBit 47 = true ∨ b.tableKey = a.tableKey
  signers : m.testBit 48 = true ∨ b.signers = a.signers
  tables : m.testBit 49 = true ∨ b.tables = a.tables
  steepleNext : m.testBit 50 = true ∨ b.steepleNext = a.steepleNext
  headNext : m.testBit 51 = true ∨ b.headNext = a.headNext
  subsystem : m.testBit 52 = true ∨ b.subsystem = a.subsystem

theorem TrustAgree.refl (m : Nat) (a : Trust) : TrustAgree m a a := by
  constructor <;> exact .inr rfl

theorem TrustAgree.trans {m : Nat} {a b c : Trust} (h : TrustAgree m a b) (k : TrustAgree m b c) : TrustAgree m a c where
  press := h.press.elim .inl fun x => k.press.imp_right fun y => y.trans x
  sealOk := h.sealOk.elim .inl fun x => k.sealOk.imp_right fun y => y.trans x
  sealBroken := h.sealBroken.elim .inl fun x => k.sealBroken.imp_right fun y => y.trans x
  lfsr := h.lfsr.elim .inl fun x => k.lfsr.imp_right fun y => y.trans x
  mismatches := h.mismatches.elim .inl fun x => k.mismatches.imp_right fun y => y.trans x
  debug := Or.elim h.debug .inl fun x => Or.imp_right (fun y => y.trans x) k.debug
  permit := h.permit.elim .inl fun x => k.permit.imp_right fun y => y.trans x
  cause := h.cause.elim .inl fun x => k.cause.imp_right fun y => y.trans x
  lifetime := h.lifetime.elim .inl fun x => k.lifetime.imp_right fun y => y.trans x
  tableKey := h.tableKey.elim .inl fun x => k.tableKey.imp_right fun y => y.trans x
  signers := h.signers.elim .inl fun x => k.signers.imp_right fun y => y.trans x
  tables := h.tables.elim .inl fun x => k.tables.imp_right fun y => y.trans x
  steepleNext := h.steepleNext.elim .inl fun x => k.steepleNext.imp_right fun y => y.trans x
  headNext := h.headNext.elim .inl fun x => k.headNext.imp_right fun y => y.trans x
  subsystem := h.subsystem.elim .inl fun x => k.subsystem.imp_right fun y => y.trans x

/-- Outside the mask the two have the same fields. -/
structure PowerAgree (m : Nat) (a b : Power) : Prop where
  time : m.testBit 53 = true ∨ b.time = a.time
  frac : m.testBit 54 = true ∨ b.frac = a.frac
  refA : m.testBit 55 = true ∨ b.refA = a.refA
  refB : m.testBit 56 = true ∨ b.refB = a.refB
  src : m.testBit 57 = true ∨ b.src = a.src
  lifeBase : m.testBit 58 = true ∨ b.lifeBase = a.lifeBase
  lifeAt : m.testBit 59 = true ∨ b.lifeAt = a.lifeAt
  lifeMram : m.testBit 60 = true ∨ b.lifeMram = a.lifeMram
  pstate : m.testBit 61 = true ∨ b.pstate = a.pstate
  entering : m.testBit 62 = true ∨ b.entering = a.entering
  ps4Due : m.testBit 63 = true ∨ b.ps4Due = a.ps4Due
  domOn : m.testBit 64 = true ∨ b.domOn = a.domOn
  domFault : m.testBit 65 = true ∨ b.domFault = a.domFault
  rails : m.testBit 66 = true ∨ b.rails = a.rails
  vop : m.testBit 67 = true ∨ b.vop = a.vop
  vout : m.testBit 68 = true ∨ b.vout = a.vout
  avsTarget : m.testBit 69 = true ∨ b.avsTarget = a.avsTarget
  avsTries : m.testBit 70 = true ∨ b.avsTries = a.avsTries
  avsHold : m.testBit 71 = true ∨ b.avsHold = a.avsHold
  avsFailed : m.testBit 72 = true ∨ b.avsFailed = a.avsFailed
  cntAvsFail : m.testBit 73 = true ∨ b.cntAvsFail = a.cntAvsFail
  cntHoldover : m.testBit 74 = true ∨ b.cntHoldover = a.cntHoldover
  junction : m.testBit 75 = true ∨ b.junction = a.junction
  hotMs : m.testBit 76 = true ∨ b.hotMs = a.hotMs
  coolMs : m.testBit 77 = true ∨ b.coolMs = a.coolMs

theorem PowerAgree.refl (m : Nat) (a : Power) : PowerAgree m a a := by
  constructor <;> exact .inr rfl

theorem PowerAgree.trans {m : Nat} {a b c : Power} (h : PowerAgree m a b) (k : PowerAgree m b c) : PowerAgree m a c where
  time := h.time.elim .inl fun x => k.time.imp_right fun y => y.trans x
  frac := h.frac.elim .inl fun x => k.frac.imp_right fun y => y.trans x
  refA := h.refA.elim .inl fun x => k.refA.imp_right fun y => y.trans x
  refB := h.refB.elim .inl fun x => k.refB.imp_right fun y => y.trans x
  src := h.src.elim .inl fun x => k.src.imp_right fun y => y.trans x
  lifeBase := h.lifeBase.elim .inl fun x => k.lifeBase.imp_right fun y => y.trans x
  lifeAt := h.lifeAt.elim .inl fun x => k.lifeAt.imp_right fun y => y.trans x
  lifeMram := h.lifeMram.elim .inl fun x => k.lifeMram.imp_right fun y => y.trans x
  pstate := h.pstate.elim .inl fun x => k.pstate.imp_right fun y => y.trans x
  entering := h.entering.elim .inl fun x => k.entering.imp_right fun y => y.trans x
  ps4Due := h.ps4Due.elim .inl fun x => k.ps4Due.imp_right fun y => y.trans x
  domOn := h.domOn.elim .inl fun x => k.domOn.imp_right fun y => y.trans x
  domFault := h.domFault.elim .inl fun x => k.domFault.imp_right fun y => y.trans x
  rails := h.rails.elim .inl fun x => k.rails.imp_right fun y => y.trans x
  vop := h.vop.elim .inl fun x => k.vop.imp_right fun y => y.trans x
  vout := h.vout.elim .inl fun x => k.vout.imp_right fun y => y.trans x
  avsTarget := h.avsTarget.elim .inl fun x => k.avsTarget.imp_right fun y => y.trans x
  avsTries := h.avsTries.elim .inl fun x => k.avsTries.imp_right fun y => y.trans x
  avsHold := h.avsHold.elim .inl fun x => k.avsHold.imp_right fun y => y.trans x
  avsFailed := h.avsFailed.elim .inl fun x => k.avsFailed.imp_right fun y => y.trans x
  cntAvsFail := h.cntAvsFail.elim .inl fun x => k.cntAvsFail.imp_right fun y => y.trans x
  cntHoldover := h.cntHoldover.elim .inl fun x => k.cntHoldover.imp_right fun y => y.trans x
  junction := h.junction.elim .inl fun x => k.junction.imp_right fun y => y.trans x
  hotMs := h.hotMs.elim .inl fun x => k.hotMs.imp_right fun y => y.trans x
  coolMs := h.coolMs.elim .inl fun x => k.coolMs.imp_right fun y => y.trans x

/-- Outside the mask the two have the same fields. -/
structure LanternAgree (m : Nat) (a b : Lantern) : Prop where
  pinnedRecs : m.testBit 78 = true ∨ b.pinnedRecs = a.pinnedRecs
  ring : m.testBit 79 = true ∨ b.ring = a.ring
  rseq : m.testBit 80 = true ∨ b.rseq = a.rseq
  cfg : m.testBit 81 = true ∨ b.cfg = a.cfg
  trigCode : m.testBit 82 = true ∨ b.trigCode = a.trigCode
  trigPost : m.testBit 83 = true ∨ b.trigPost = a.trigPost
  armed : m.testBit 84 = true ∨ b.armed = a.armed
  fired : m.testBit 85 = true ∨ b.fired = a.fired
  postLeft : m.testBit 86 = true ∨ b.postLeft = a.postLeft
  pinFull : m.testBit 87 = true ∨ b.pinFull = a.pinFull
  second : m.testBit 88 = true ∨ b.second = a.second
  rate : m.testBit 89 = true ∨ b.rate = a.rate
  suppressed : m.testBit 90 = true ∨ b.suppressed = a.suppressed
  outOfService : m.testBit 91 = true ∨ b.outOfService = a.outOfService
  cntSuppr : m.testBit 92 = true ∨ b.cntSuppr = a.cntSuppr
  cntTorn : m.testBit 93 = true ∨ b.cntTorn = a.cntTorn
  events : m.testBit 94 = true ∨ b.events = a.events
  keptOutcomes : m.testBit 95 = true ∨ b.keptOutcomes = a.keptOutcomes
  report : m.testBit 96 = true ∨ b.report = a.report

theorem LanternAgree.refl (m : Nat) (a : Lantern) : LanternAgree m a a := by
  constructor <;> exact .inr rfl

theorem LanternAgree.trans {m : Nat} {a b c : Lantern} (h : LanternAgree m a b) (k : LanternAgree m b c) : LanternAgree m a c where
  pinnedRecs := h.pinnedRecs.elim .inl fun x => k.pinnedRecs.imp_right fun y => y.trans x
  ring := h.ring.elim .inl fun x => k.ring.imp_right fun y => y.trans x
  rseq := h.rseq.elim .inl fun x => k.rseq.imp_right fun y => y.trans x
  cfg := h.cfg.elim .inl fun x => k.cfg.imp_right fun y => y.trans x
  trigCode := h.trigCode.elim .inl fun x => k.trigCode.imp_right fun y => y.trans x
  trigPost := h.trigPost.elim .inl fun x => k.trigPost.imp_right fun y => y.trans x
  armed := h.armed.elim .inl fun x => k.armed.imp_right fun y => y.trans x
  fired := h.fired.elim .inl fun x => k.fired.imp_right fun y => y.trans x
  postLeft := h.postLeft.elim .inl fun x => k.postLeft.imp_right fun y => y.trans x
  pinFull := h.pinFull.elim .inl fun x => k.pinFull.imp_right fun y => y.trans x
  second := h.second.elim .inl fun x => k.second.imp_right fun y => y.trans x
  rate := h.rate.elim .inl fun x => k.rate.imp_right fun y => y.trans x
  suppressed := h.suppressed.elim .inl fun x => k.suppressed.imp_right fun y => y.trans x
  outOfService := h.outOfService.elim .inl fun x => k.outOfService.imp_right fun y => y.trans x
  cntSuppr := h.cntSuppr.elim .inl fun x => k.cntSuppr.imp_right fun y => y.trans x
  cntTorn := h.cntTorn.elim .inl fun x => k.cntTorn.imp_right fun y => y.trans x
  events := h.events.elim .inl fun x => k.events.imp_right fun y => y.trans x
  keptOutcomes := h.keptOutcomes.elim .inl fun x => k.keptOutcomes.imp_right fun y => y.trans x
  report := h.report.elim .inl fun x => k.report.imp_right fun y => y.trans x

/-- Outside the mask the two have the same fields. -/
structure HostAgree (m : Nat) (a b : HostIf) : Prop where
  portA : m.testBit 97 = true ∨ { b.portA with pba := 0 } = { a.portA with pba := 0 }
  portB : m.testBit 98 = true ∨ { b.portB with pba := 0 } = { a.portB with pba := 0 }
  pba : m.testBit 99 = true ∨ (b.portA.pba, b.portB.pba) = (a.portA.pba, a.portB.pba)
  enable : m.testBit 100 = true ∨ b.enable = a.enable
  cfgErr : m.testBit 101 = true ∨ b.cfgErr = a.cfgErr
  resetBusy : m.testBit 102 = true ∨ b.resetBusy = a.resetBusy
  aqSize : m.testBit 103 = true ∨ b.aqSize = a.aqSize
  aqSqbLo : m.testBit 104 = true ∨ b.aqSqbLo = a.aqSqbLo
  aqSqbHi : m.testBit 105 = true ∨ b.aqSqbHi = a.aqSqbHi
  aqCqbLo : m.testBit 106 = true ∨ b.aqCqbLo = a.aqCqbLo
  aqCqbHi : m.testBit 107 = true ∨ b.aqCqbHi = a.aqCqbHi
  qps : m.testBit 108 = true ∨ b.qps = a.qps
  nextOrder : m.testBit 109 = true ∨ b.nextOrder = a.nextOrder
  lastFetched : m.testBit 110 = true ∨ b.lastFetched = a.lastFetched
  cmds : m.testBit 111 = true ∨ b.cmds = a.cmds
  resetting : m.testBit 112 = true ∨ b.resetting = a.resetting
  holdForSwitch : m.testBit 113 = true ∨ b.holdForSwitch = a.holdForSwitch
  resetAfterSwitch : m.testBit 114 = true ∨ b.resetAfterSwitch = a.resetAfterSwitch
  groups : m.testBit 115 = true ∨ b.groups = a.groups
  floor : m.testBit 116 = true ∨ b.floor = a.floor
  cntFailover : m.testBit 117 = true ∨ b.cntFailover = a.cntFailover
  cntDbErr : m.testBit 118 = true ∨ b.cntDbErr = a.cntDbErr
  cntRepost : m.testBit 119 = true ∨ b.cntRepost = a.cntRepost
  cntBadAcc : m.testBit 120 = true ∨ b.cntBadAcc = a.cntBadAcc

theorem HostAgree.refl (m : Nat) (a : HostIf) : HostAgree m a a := by
  constructor <;> exact .inr rfl

theorem HostAgree.trans {m : Nat} {a b c : HostIf} (h : HostAgree m a b) (k : HostAgree m b c) : HostAgree m a c where
  portA := h.portA.elim .inl fun x => k.portA.imp_right fun y => y.trans x
  portB := h.portB.elim .inl fun x => k.portB.imp_right fun y => y.trans x
  pba := h.pba.elim .inl fun x => k.pba.imp_right fun y => y.trans x
  enable := h.enable.elim .inl fun x => k.enable.imp_right fun y => y.trans x
  cfgErr := h.cfgErr.elim .inl fun x => k.cfgErr.imp_right fun y => y.trans x
  resetBusy := h.resetBusy.elim .inl fun x => k.resetBusy.imp_right fun y => y.trans x
  aqSize := h.aqSize.elim .inl fun x => k.aqSize.imp_right fun y => y.trans x
  aqSqbLo := h.aqSqbLo.elim .inl fun x => k.aqSqbLo.imp_right fun y => y.trans x
  aqSqbHi := h.aqSqbHi.elim .inl fun x => k.aqSqbHi.imp_right fun y => y.trans x
  aqCqbLo := h.aqCqbLo.elim .inl fun x => k.aqCqbLo.imp_right fun y => y.trans x
  aqCqbHi := h.aqCqbHi.elim .inl fun x => k.aqCqbHi.imp_right fun y => y.trans x
  qps := h.qps.elim .inl fun x => k.qps.imp_right fun y => y.trans x
  nextOrder := h.nextOrder.elim .inl fun x => k.nextOrder.imp_right fun y => y.trans x
  lastFetched := h.lastFetched.elim .inl fun x => k.lastFetched.imp_right fun y => y.trans x
  cmds := h.cmds.elim .inl fun x => k.cmds.imp_right fun y => y.trans x
  resetting := h.resetting.elim .inl fun x => k.resetting.imp_right fun y => y.trans x
  holdForSwitch := h.holdForSwitch.elim .inl fun x => k.holdForSwitch.imp_right fun y => y.trans x
  resetAfterSwitch := h.resetAfterSwitch.elim .inl fun x => k.resetAfterSwitch.imp_right fun y => y.trans x
  groups := h.groups.elim .inl fun x => k.groups.imp_right fun y => y.trans x
  floor := h.floor.elim .inl fun x => k.floor.imp_right fun y => y.trans x
  cntFailover := h.cntFailover.elim .inl fun x => k.cntFailover.imp_right fun y => y.trans x
  cntDbErr := h.cntDbErr.elim .inl fun x => k.cntDbErr.imp_right fun y => y.trans x
  cntRepost := h.cntRepost.elim .inl fun x => k.cntRepost.imp_right fun y => y.trans x
  cntBadAcc := h.cntBadAcc.elim .inl fun x => k.cntBadAcc.imp_right fun y => y.trans x

/-- Outside the mask the two have the same fields. -/
structure KeepAgree (m : Nat) (a b : Keep) : Prop where
  slots : m.testBit 121 = true ∨ b.slots = a.slots
  transport : m.testBit 122 = true ∨ b.transport = a.transport
  loadSeq : m.testBit 123 = true ∨ b.loadSeq = a.loadSeq
  copyOk : m.testBit 124 = true ∨ b.copyOk = a.copyOk
  erased : m.testBit 125 = true ∨ b.erased = a.erased
  ctxKek : m.testBit 126 = true ∨ b.ctxKek = a.ctxKek
  spillSerial : m.testBit 127 = true ∨ b.spillSerial = a.spillSerial
  spillLatest : m.testBit 128 = true ∨ b.spillLatest = a.spillLatest
  cntLoadFail : m.testBit 129 = true ∨ b.cntLoadFail = a.cntLoadFail

theorem KeepAgree.refl (m : Nat) (a : Keep) : KeepAgree m a a := by
  constructor <;> exact .inr rfl

theorem KeepAgree.trans {m : Nat} {a b c : Keep} (h : KeepAgree m a b) (k : KeepAgree m b c) : KeepAgree m a c where
  slots := h.slots.elim .inl fun x => k.slots.imp_right fun y => y.trans x
  transport := h.transport.elim .inl fun x => k.transport.imp_right fun y => y.trans x
  loadSeq := h.loadSeq.elim .inl fun x => k.loadSeq.imp_right fun y => y.trans x
  copyOk := h.copyOk.elim .inl fun x => k.copyOk.imp_right fun y => y.trans x
  erased := h.erased.elim .inl fun x => k.erased.imp_right fun y => y.trans x
  ctxKek := h.ctxKek.elim .inl fun x => k.ctxKek.imp_right fun y => y.trans x
  spillSerial := h.spillSerial.elim .inl fun x => k.spillSerial.imp_right fun y => y.trans x
  spillLatest := h.spillLatest.elim .inl fun x => k.spillLatest.imp_right fun y => y.trans x
  cntLoadFail := h.cntLoadFail.elim .inl fun x => k.cntLoadFail.imp_right fun y => y.trans x

/-- Outside the mask the two have the same fields. -/
structure CupolaAgree (m : Nat) (a b : Cupola) : Prop where
  cfg : m.testBit 130 = true ∨ b.cfg = a.cfg
  inService : m.testBit 131 = true ∨ b.inService = a.inService
  nonce : m.testBit 132 = true ∨ b.nonce = a.nonce
  ctxs : m.testBit 133 = true ∨ b.ctxs = a.ctxs
  spilled : m.testBit 134 = true ∨ b.spilled = a.spilled
  cntInv : m.testBit 135 = true ∨ b.cntInv = a.cntInv
  cntTagFail : m.testBit 136 = true ∨ b.cntTagFail = a.cntTagFail
  cntWithdraw : m.testBit 137 = true ∨ b.cntWithdraw = a.cntWithdraw
  cntCorErr : m.testBit 138 = true ∨ b.cntCorErr = a.cntCorErr
  cntReplay : m.testBit 139 = true ∨ b.cntReplay = a.cntReplay

theorem CupolaAgree.refl (m : Nat) (a : Cupola) : CupolaAgree m a a := by
  constructor <;> exact .inr rfl

theorem CupolaAgree.trans {m : Nat} {a b c : Cupola} (h : CupolaAgree m a b) (k : CupolaAgree m b c) : CupolaAgree m a c where
  cfg := h.cfg.elim .inl fun x => k.cfg.imp_right fun y => y.trans x
  inService := h.inService.elim .inl fun x => k.inService.imp_right fun y => y.trans x
  nonce := h.nonce.elim .inl fun x => k.nonce.imp_right fun y => y.trans x
  ctxs := h.ctxs.elim .inl fun x => k.ctxs.imp_right fun y => y.trans x
  spilled := h.spilled.elim .inl fun x => k.spilled.imp_right fun y => y.trans x
  cntInv := h.cntInv.elim .inl fun x => k.cntInv.imp_right fun y => y.trans x
  cntTagFail := h.cntTagFail.elim .inl fun x => k.cntTagFail.imp_right fun y => y.trans x
  cntWithdraw := h.cntWithdraw.elim .inl fun x => k.cntWithdraw.imp_right fun y => y.trans x
  cntCorErr := h.cntCorErr.elim .inl fun x => k.cntCorErr.imp_right fun y => y.trans x
  cntReplay := h.cntReplay.elim .inl fun x => k.cntReplay.imp_right fun y => y.trans x

/-- Outside the mask the two have the same fields. -/
structure CzAgree (m : Nat) (a b : Compress) : Prop where
  cfg : m.testBit 140 = true ∨ b.cfg = a.cfg
  inService : m.testBit 141 = true ∨ b.inService = a.inService
  engines : m.testBit 142 = true ∨ b.engines = a.engines
  finished : m.testBit 143 = true ∨ b.finished = a.finished
  source : m.testBit 144 = true ∨ b.source = a.source
  nextOrder : m.testBit 145 = true ∨ b.nextOrder = a.nextOrder
  decomp : m.testBit 146 = true ∨ b.decomp = a.decomp
  bytesIn : m.testBit 147 = true ∨ b.bytesIn = a.bytesIn
  bytesOut : m.testBit 148 = true ∨ b.bytesOut = a.bytesOut
  cntRaw : m.testBit 149 = true ∨ b.cntRaw = a.cntRaw
  cntErr : m.testBit 150 = true ∨ b.cntErr = a.cntErr

theorem CzAgree.refl (m : Nat) (a : Compress) : CzAgree m a a := by
  constructor <;> exact .inr rfl

theorem CzAgree.trans {m : Nat} {a b c : Compress} (h : CzAgree m a b) (k : CzAgree m b c) : CzAgree m a c where
  cfg := h.cfg.elim .inl fun x => k.cfg.imp_right fun y => y.trans x
  inService := h.inService.elim .inl fun x => k.inService.imp_right fun y => y.trans x
  engines := h.engines.elim .inl fun x => k.engines.imp_right fun y => y.trans x
  finished := h.finished.elim .inl fun x => k.finished.imp_right fun y => y.trans x
  source := h.source.elim .inl fun x => k.source.imp_right fun y => y.trans x
  nextOrder := h.nextOrder.elim .inl fun x => k.nextOrder.imp_right fun y => y.trans x
  decomp := h.decomp.elim .inl fun x => k.decomp.imp_right fun y => y.trans x
  bytesIn := h.bytesIn.elim .inl fun x => k.bytesIn.imp_right fun y => y.trans x
  bytesOut := h.bytesOut.elim .inl fun x => k.bytesOut.imp_right fun y => y.trans x
  cntRaw := h.cntRaw.elim .inl fun x => k.cntRaw.imp_right fun y => y.trans x
  cntErr := h.cntErr.elim .inl fun x => k.cntErr.imp_right fun y => y.trans x

/-- Outside the mask the two have the same fields. -/
structure DriveAgree (m : Nat) (a b : Drive) : Prop where
  cart : m.testBit 151 = true ∨ b.cart = a.cart
  vol : m.testBit 152 = true ∨ b.vol = a.vol
  link : m.testBit 153 = true ∨ b.link = a.link

theorem DriveAgree.refl (m : Nat) (a : Drive) : DriveAgree m a a := by
  constructor <;> exact .inr rfl

theorem DriveAgree.trans {m : Nat} {a b c : Drive} (h : DriveAgree m a b) (k : DriveAgree m b c) : DriveAgree m a c where
  cart := h.cart.elim .inl fun x => k.cart.imp_right fun y => y.trans x
  vol := h.vol.elim .inl fun x => k.vol.imp_right fun y => y.trans x
  link := h.link.elim .inl fun x => k.link.imp_right fun y => y.trans x

/-- Outside the mask the two have the same fields. -/
structure WrAgree (m : Nat) (a b : WritePath) : Prop where
  sets : m.testBit 154 = true ∨ b.sets = a.sets
  nextId : m.testBit 155 = true ∨ b.nextId = a.nextId
  stackOk : m.testBit 156 = true ∨ b.stackOk = a.stackOk
  stalled : m.testBit 157 = true ∨ b.stalled = a.stalled
  stallAt : m.testBit 158 = true ∨ b.stallAt = a.stallAt
  domesReady : m.testBit 159 = true ∨ b.domesReady = a.domesReady
  domesReleased : m.testBit 160 = true ∨ b.domesReleased = a.domesReleased
  closed : m.testBit 161 = true ∨ b.closed = a.closed
  absent : m.testBit 162 = true ∨ b.absent = a.absent
  wrap : m.testBit 163 = true ∨ b.wrap = a.wrap
  slot : m.testBit 164 = true ∨ b.slot = a.slot
  resumeAt : m.testBit 165 = true ∨ b.resumeAt = a.resumeAt
  part : m.testBit 166 = true ∨ b.part = a.part
  commits : m.testBit 167 = true ∨ b.commits = a.commits
  anchor : m.testBit 168 = true ∨ b.anchor = a.anchor
  rewrites : m.testBit 169 = true ∨ b.rewrites = a.rewrites
  skipLeft : m.testBit 170 = true ∨ b.skipLeft = a.skipLeft
  history : m.testBit 171 = true ∨ b.history = a.history
  tokens : m.testBit 172 = true ∨ b.tokens = a.tokens
  inhibited : m.testBit 173 = true ∨ b.inhibited = a.inhibited
  sources : m.testBit 174 = true ∨ b.sources = a.sources
  pesGood : m.testBit 175 = true ∨ b.pesGood = a.pesGood
  holdUntil : m.testBit 176 = true ∨ b.holdUntil = a.holdUntil
  noResume : m.testBit 177 = true ∨ b.noResume = a.noResume
  requeued : m.testBit 178 = true ∨ b.requeued = a.requeued
  wrapEnding : m.testBit 179 = true ∨ b.wrapEnding = a.wrapEnding
  noFirst : m.testBit 180 = true ∨ b.noFirst = a.noFirst

theorem WrAgree.refl (m : Nat) (a : WritePath) : WrAgree m a a := by
  constructor <;> exact .inr rfl

theorem WrAgree.trans {m : Nat} {a b c : WritePath} (h : WrAgree m a b) (k : WrAgree m b c) : WrAgree m a c where
  sets := h.sets.elim .inl fun x => k.sets.imp_right fun y => y.trans x
  nextId := h.nextId.elim .inl fun x => k.nextId.imp_right fun y => y.trans x
  stackOk := h.stackOk.elim .inl fun x => k.stackOk.imp_right fun y => y.trans x
  stalled := h.stalled.elim .inl fun x => k.stalled.imp_right fun y => y.trans x
  stallAt := h.stallAt.elim .inl fun x => k.stallAt.imp_right fun y => y.trans x
  domesReady := h.domesReady.elim .inl fun x => k.domesReady.imp_right fun y => y.trans x
  domesReleased := h.domesReleased.elim .inl fun x => k.domesReleased.imp_right fun y => y.trans x
  closed := h.closed.elim .inl fun x => k.closed.imp_right fun y => y.trans x
  absent := h.absent.elim .inl fun x => k.absent.imp_right fun y => y.trans x
  wrap := h.wrap.elim .inl fun x => k.wrap.imp_right fun y => y.trans x
  slot := h.slot.elim .inl fun x => k.slot.imp_right fun y => y.trans x
  resumeAt := h.resumeAt.elim .inl fun x => k.resumeAt.imp_right fun y => y.trans x
  part := h.part.elim .inl fun x => k.part.imp_right fun y => y.trans x
  commits := h.commits.elim .inl fun x => k.commits.imp_right fun y => y.trans x
  anchor := h.anchor.elim .inl fun x => k.anchor.imp_right fun y => y.trans x
  rewrites := h.rewrites.elim .inl fun x => k.rewrites.imp_right fun y => y.trans x
  skipLeft := h.skipLeft.elim .inl fun x => k.skipLeft.imp_right fun y => y.trans x
  history := h.history.elim .inl fun x => k.history.imp_right fun y => y.trans x
  tokens := h.tokens.elim .inl fun x => k.tokens.imp_right fun y => y.trans x
  inhibited := h.inhibited.elim .inl fun x => k.inhibited.imp_right fun y => y.trans x
  sources := h.sources.elim .inl fun x => k.sources.imp_right fun y => y.trans x
  pesGood := h.pesGood.elim .inl fun x => k.pesGood.imp_right fun y => y.trans x
  holdUntil := h.holdUntil.elim .inl fun x => k.holdUntil.imp_right fun y => y.trans x
  noResume := h.noResume.elim .inl fun x => k.noResume.imp_right fun y => y.trans x
  requeued := h.requeued.elim .inl fun x => k.requeued.imp_right fun y => y.trans x
  wrapEnding := h.wrapEnding.elim .inl fun x => k.wrapEnding.imp_right fun y => y.trans x
  noFirst := h.noFirst.elim .inl fun x => k.noFirst.imp_right fun y => y.trans x

/-- Outside the mask the two have the same fields. -/
structure WvnAgree (m : Nat) (a b : Wvn) : Prop where
  new : m.testBit 181 = true ∨ b.new = a.new
  ctrl : m.testBit 182 = true ∨ b.ctrl = a.ctrl
  fixed : m.testBit 183 = true ∨ b.fixed = a.fixed
  setpt : m.testBit 184 = true ∨ b.setpt = a.setpt
  gain : m.testBit 185 = true ∨ b.gain = a.gain
  rate : m.testBit 186 = true ∨ b.rate = a.rate
  bh : m.testBit 187 = true ∨ b.bh = a.bh
  bh2 : m.testBit 188 = true ∨ b.bh2 = a.bh2
  vtable : m.testBit 189 = true ∨ b.vtable = a.vtable
  state : m.testBit 190 = true ∨ b.state = a.state
  run : m.testBit 191 = true ∨ b.run = a.run
  r : m.testBit 192 = true ∨ b.r = a.r
  startDue : m.testBit 193 = true ∨ b.startDue = a.startDue
  rPending : m.testBit 194 = true ∨ b.rPending = a.rPending
  vPending : m.testBit 195 = true ∨ b.vPending = a.vPending
  rCmd : m.testBit 196 = true ∨ b.rCmd = a.rCmd
  h : m.testBit 197 = true ∨ b.h = a.h
  rho : m.testBit 198 = true ∨ b.rho = a.rho
  integ : m.testBit 199 = true ∨ b.integ = a.integ
  frozen : m.testBit 200 = true ∨ b.frozen = a.frozen
  slewRest : m.testBit 201 = true ∨ b.slewRest = a.slewRest
  stallTicks : m.testBit 202 = true ∨ b.stallTicks = a.stallTicks
  moved : m.testBit 203 = true ∨ b.moved = a.moved
  dwellMs : m.testBit 204 = true ∨ b.dwellMs = a.dwellMs
  stoppedAt : m.testBit 205 = true ∨ b.stoppedAt = a.stoppedAt
  refused : m.testBit 206 = true ∨ b.refused = a.refused
  capV : m.testBit 207 = true ∨ b.capV = a.capV
  capM : m.testBit 208 = true ∨ b.capM = a.capM
  capT : m.testBit 209 = true ∨ b.capT = a.capT
  band : m.testBit 210 = true ∨ b.band = a.band
  marginOfs : m.testBit 211 = true ∨ b.marginOfs = a.marginOfs
  marginMs : m.testBit 212 = true ∨ b.marginMs = a.marginMs
  turns : m.testBit 213 = true ∨ b.turns = a.turns
  updates : m.testBit 214 = true ∨ b.updates = a.updates
  cntBh : m.testBit 215 = true ∨ b.cntBh = a.cntBh
  cntTurn : m.testBit 216 = true ∨ b.cntTurn = a.cntTurn
  cntStall : m.testBit 217 = true ∨ b.cntStall = a.cntStall

theorem WvnAgree.refl (m : Nat) (a : Wvn) : WvnAgree m a a := by
  constructor <;> exact .inr rfl

theorem WvnAgree.trans {m : Nat} {a b c : Wvn} (h : WvnAgree m a b) (k : WvnAgree m b c) : WvnAgree m a c where
  new := h.new.elim .inl fun x => k.new.imp_right fun y => y.trans x
  ctrl := h.ctrl.elim .inl fun x => k.ctrl.imp_right fun y => y.trans x
  fixed := h.fixed.elim .inl fun x => k.fixed.imp_right fun y => y.trans x
  setpt := h.setpt.elim .inl fun x => k.setpt.imp_right fun y => y.trans x
  gain := h.gain.elim .inl fun x => k.gain.imp_right fun y => y.trans x
  rate := h.rate.elim .inl fun x => k.rate.imp_right fun y => y.trans x
  bh := h.bh.elim .inl fun x => k.bh.imp_right fun y => y.trans x
  bh2 := h.bh2.elim .inl fun x => k.bh2.imp_right fun y => y.trans x
  vtable := h.vtable.elim .inl fun x => k.vtable.imp_right fun y => y.trans x
  state := h.state.elim .inl fun x => k.state.imp_right fun y => y.trans x
  run := h.run.elim .inl fun x => k.run.imp_right fun y => y.trans x
  r := h.r.elim .inl fun x => k.r.imp_right fun y => y.trans x
  startDue := h.startDue.elim .inl fun x => k.startDue.imp_right fun y => y.trans x
  rPending := h.rPending.elim .inl fun x => k.rPending.imp_right fun y => y.trans x
  vPending := h.vPending.elim .inl fun x => k.vPending.imp_right fun y => y.trans x
  rCmd := h.rCmd.elim .inl fun x => k.rCmd.imp_right fun y => y.trans x
  h := h.h.elim .inl fun x => k.h.imp_right fun y => y.trans x
  rho := h.rho.elim .inl fun x => k.rho.imp_right fun y => y.trans x
  integ := h.integ.elim .inl fun x => k.integ.imp_right fun y => y.trans x
  frozen := h.frozen.elim .inl fun x => k.frozen.imp_right fun y => y.trans x
  slewRest := h.slewRest.elim .inl fun x => k.slewRest.imp_right fun y => y.trans x
  stallTicks := h.stallTicks.elim .inl fun x => k.stallTicks.imp_right fun y => y.trans x
  moved := h.moved.elim .inl fun x => k.moved.imp_right fun y => y.trans x
  dwellMs := h.dwellMs.elim .inl fun x => k.dwellMs.imp_right fun y => y.trans x
  stoppedAt := h.stoppedAt.elim .inl fun x => k.stoppedAt.imp_right fun y => y.trans x
  refused := h.refused.elim .inl fun x => k.refused.imp_right fun y => y.trans x
  capV := h.capV.elim .inl fun x => k.capV.imp_right fun y => y.trans x
  capM := h.capM.elim .inl fun x => k.capM.imp_right fun y => y.trans x
  capT := h.capT.elim .inl fun x => k.capT.imp_right fun y => y.trans x
  band := h.band.elim .inl fun x => k.band.imp_right fun y => y.trans x
  marginOfs := h.marginOfs.elim .inl fun x => k.marginOfs.imp_right fun y => y.trans x
  marginMs := h.marginMs.elim .inl fun x => k.marginMs.imp_right fun y => y.trans x
  turns := h.turns.elim .inl fun x => k.turns.imp_right fun y => y.trans x
  updates := h.updates.elim .inl fun x => k.updates.imp_right fun y => y.trans x
  cntBh := h.cntBh.elim .inl fun x => k.cntBh.imp_right fun y => y.trans x
  cntTurn := h.cntTurn.elim .inl fun x => k.cntTurn.imp_right fun y => y.trans x
  cntStall := h.cntStall.elim .inl fun x => k.cntStall.imp_right fun y => y.trans x

/-- Outside the mask the two have the same fields. -/
structure EccAgree (m : Nat) (a b : Ecc) : Prop where
  ldpcCfg : m.testBit 218 = true ∨ b.ldpcCfg = a.ldpcCfg
  rsCfg : m.testBit 219 = true ∨ b.rsCfg = a.rsCfg
  escCfg : m.testBit 220 = true ∨ b.escCfg = a.escCfg
  vfyCfg : m.testBit 221 = true ∨ b.vfyCfg = a.vfyCfg
  vfyCfg2 : m.testBit 222 = true ∨ b.vfyCfg2 = a.vfyCfg2
  winhCfg : m.testBit 223 = true ∨ b.winhCfg = a.winhCfg
  dead0 : m.testBit 224 = true ∨ b.dead0 = a.dead0
  deadHead : m.testBit 225 = true ∨ b.deadHead = a.deadHead
  dead1 : m.testBit 226 = true ∨ b.dead1 = a.dead1
  run0 : m.testBit 227 = true ∨ b.run0 = a.run0
  run1 : m.testBit 228 = true ∨ b.run1 = a.run1
  inService : m.testBit 229 = true ∨ b.inService = a.inService
  cntL3 : m.testBit 230 = true ∨ b.cntL3 = a.cntL3
  cntDome : m.testBit 231 = true ∨ b.cntDome = a.cntDome
  cntUnrec : m.testBit 232 = true ∨ b.cntUnrec = a.cntUnrec
  cntRewrite : m.testBit 233 = true ∨ b.cntRewrite = a.cntRewrite
  cntInhibit : m.testBit 234 = true ∨ b.cntInhibit = a.cntInhibit
  cntSkip : m.testBit 235 = true ∨ b.cntSkip = a.cntSkip

theorem EccAgree.refl (m : Nat) (a : Ecc) : EccAgree m a a := by
  constructor <;> exact .inr rfl

theorem EccAgree.trans {m : Nat} {a b c : Ecc} (h : EccAgree m a b) (k : EccAgree m b c) : EccAgree m a c where
  ldpcCfg := h.ldpcCfg.elim .inl fun x => k.ldpcCfg.imp_right fun y => y.trans x
  rsCfg := h.rsCfg.elim .inl fun x => k.rsCfg.imp_right fun y => y.trans x
  escCfg := h.escCfg.elim .inl fun x => k.escCfg.imp_right fun y => y.trans x
  vfyCfg := h.vfyCfg.elim .inl fun x => k.vfyCfg.imp_right fun y => y.trans x
  vfyCfg2 := h.vfyCfg2.elim .inl fun x => k.vfyCfg2.imp_right fun y => y.trans x
  winhCfg := h.winhCfg.elim .inl fun x => k.winhCfg.imp_right fun y => y.trans x
  dead0 := h.dead0.elim .inl fun x => k.dead0.imp_right fun y => y.trans x
  deadHead := h.deadHead.elim .inl fun x => k.deadHead.imp_right fun y => y.trans x
  dead1 := h.dead1.elim .inl fun x => k.dead1.imp_right fun y => y.trans x
  run0 := h.run0.elim .inl fun x => k.run0.imp_right fun y => y.trans x
  run1 := h.run1.elim .inl fun x => k.run1.imp_right fun y => y.trans x
  inService := h.inService.elim .inl fun x => k.inService.imp_right fun y => y.trans x
  cntL3 := h.cntL3.elim .inl fun x => k.cntL3.imp_right fun y => y.trans x
  cntDome := h.cntDome.elim .inl fun x => k.cntDome.imp_right fun y => y.trans x
  cntUnrec := h.cntUnrec.elim .inl fun x => k.cntUnrec.imp_right fun y => y.trans x
  cntRewrite := h.cntRewrite.elim .inl fun x => k.cntRewrite.imp_right fun y => y.trans x
  cntInhibit := h.cntInhibit.elim .inl fun x => k.cntInhibit.imp_right fun y => y.trans x
  cntSkip := h.cntSkip.elim .inl fun x => k.cntSkip.imp_right fun y => y.trans x

/-- Outside the mask the two have the same fields. -/
structure TilesAgree (m : Nat) (a b : Tiles) : Prop where
  chans : m.testBit 236 = true ∨ b.chans = a.chans
  syncCfg : m.testBit 237 = true ∨ b.syncCfg = a.syncCfg
  tapIdx : m.testBit 238 = true ∨ b.tapIdx = a.tapIdx
  wtrim : m.testBit 239 = true ∨ b.wtrim = a.wtrim
  wdly : m.testBit 240 = true ∨ b.wdly = a.wdly
  retry : m.testBit 241 = true ∨ b.retry = a.retry
  retryCtl : m.testBit 242 = true ∨ b.retryCtl = a.retryCtl
  wfifo : m.testBit 243 = true ∨ b.wfifo = a.wfifo
  wfifoAt : m.testBit 244 = true ∨ b.wfifoAt = a.wfifoAt
  inService : m.testBit 245 = true ∨ b.inService = a.inService
  module : m.testBit 246 = true ∨ b.module = a.module
  savedTaps : m.testBit 247 = true ∨ b.savedTaps = a.savedTaps
  tapsHead : m.testBit 248 = true ∨ b.tapsHead = a.tapsHead
  mountTaps : m.testBit 249 = true ∨ b.mountTaps = a.mountTaps
  modulesUsed : m.testBit 250 = true ∨ b.modulesUsed = a.modulesUsed
  nNom : m.testBit 251 = true ∨ b.nNom = a.nNom
  deskewed : m.testBit 252 = true ∨ b.deskewed = a.deskewed
  arrivals : m.testBit 253 = true ∨ b.arrivals = a.arrivals
  asm : m.testBit 254 = true ∨ b.asm = a.asm
  verifies : m.testBit 255 = true ∨ b.verifies = a.verifies

theorem TilesAgree.refl (m : Nat) (a : Tiles) : TilesAgree m a a := by
  constructor <;> exact .inr rfl

theorem TilesAgree.trans {m : Nat} {a b c : Tiles} (h : TilesAgree m a b) (k : TilesAgree m b c) : TilesAgree m a c where
  chans := h.chans.elim .inl fun x => k.chans.imp_right fun y => y.trans x
  syncCfg := h.syncCfg.elim .inl fun x => k.syncCfg.imp_right fun y => y.trans x
  tapIdx := h.tapIdx.elim .inl fun x => k.tapIdx.imp_right fun y => y.trans x
  wtrim := h.wtrim.elim .inl fun x => k.wtrim.imp_right fun y => y.trans x
  wdly := h.wdly.elim .inl fun x => k.wdly.imp_right fun y => y.trans x
  retry := h.retry.elim .inl fun x => k.retry.imp_right fun y => y.trans x
  retryCtl := h.retryCtl.elim .inl fun x => k.retryCtl.imp_right fun y => y.trans x
  wfifo := h.wfifo.elim .inl fun x => k.wfifo.imp_right fun y => y.trans x
  wfifoAt := h.wfifoAt.elim .inl fun x => k.wfifoAt.imp_right fun y => y.trans x
  inService := h.inService.elim .inl fun x => k.inService.imp_right fun y => y.trans x
  module := h.module.elim .inl fun x => k.module.imp_right fun y => y.trans x
  savedTaps := h.savedTaps.elim .inl fun x => k.savedTaps.imp_right fun y => y.trans x
  tapsHead := h.tapsHead.elim .inl fun x => k.tapsHead.imp_right fun y => y.trans x
  mountTaps := h.mountTaps.elim .inl fun x => k.mountTaps.imp_right fun y => y.trans x
  modulesUsed := h.modulesUsed.elim .inl fun x => k.modulesUsed.imp_right fun y => y.trans x
  nNom := h.nNom.elim .inl fun x => k.nNom.imp_right fun y => y.trans x
  deskewed := h.deskewed.elim .inl fun x => k.deskewed.imp_right fun y => y.trans x
  arrivals := h.arrivals.elim .inl fun x => k.arrivals.imp_right fun y => y.trans x
  asm := h.asm.elim .inl fun x => k.asm.imp_right fun y => y.trans x
  verifies := h.verifies.elim .inl fun x => k.verifies.imp_right fun y => y.trans x

/-- Outside the mask the two have the same fields. -/
structure RdAgree (m : Nat) (a b : ReadPath) : Prop where
  sets : m.testBit 256 = true ∨ b.sets = a.sets
  failed : m.testBit 257 = true ∨ b.failed = a.failed
  holes : m.testBit 258 = true ∨ b.holes = a.holes
  packets : m.testBit 259 = true ∨ b.packets = a.packets
  badBlocks : m.testBit 260 = true ∨ b.badBlocks = a.badBlocks
  part : m.testBit 261 = true ∨ b.part = a.part
  wrap : m.testBit 262 = true ∨ b.wrap = a.wrap
  slot : m.testBit 263 = true ∨ b.slot = a.slot
  covers : m.testBit 264 = true ∨ b.covers = a.covers
  active : m.testBit 265 = true ∨ b.active = a.active
  ended : m.testBit 266 = true ∨ b.ended = a.ended
  expected : m.testBit 267 = true ∨ b.expected = a.expected
  sure : m.testBit 268 = true ∨ b.sure = a.sure
  accepted : m.testBit 269 = true ∨ b.accepted = a.accepted
  retry : m.testBit 270 = true ∨ b.retry = a.retry
  menu : m.testBit 271 = true ∨ b.menu = a.menu
  resume : m.testBit 272 = true ∨ b.resume = a.resume
  nextStack : m.testBit 273 = true ∨ b.nextStack = a.nextStack
  copySlot : m.testBit 274 = true ∨ b.copySlot = a.copySlot

theorem RdAgree.refl (m : Nat) (a : ReadPath) : RdAgree m a a := by
  constructor <;> exact .inr rfl

theorem RdAgree.trans {m : Nat} {a b c : ReadPath} (h : RdAgree m a b) (k : RdAgree m b c) : RdAgree m a c where
  sets := h.sets.elim .inl fun x => k.sets.imp_right fun y => y.trans x
  failed := h.failed.elim .inl fun x => k.failed.imp_right fun y => y.trans x
  holes := h.holes.elim .inl fun x => k.holes.imp_right fun y => y.trans x
  packets := h.packets.elim .inl fun x => k.packets.imp_right fun y => y.trans x
  badBlocks := h.badBlocks.elim .inl fun x => k.badBlocks.imp_right fun y => y.trans x
  part := h.part.elim .inl fun x => k.part.imp_right fun y => y.trans x
  wrap := h.wrap.elim .inl fun x => k.wrap.imp_right fun y => y.trans x
  slot := h.slot.elim .inl fun x => k.slot.imp_right fun y => y.trans x
  covers := h.covers.elim .inl fun x => k.covers.imp_right fun y => y.trans x
  active := h.active.elim .inl fun x => k.active.imp_right fun y => y.trans x
  ended := h.ended.elim .inl fun x => k.ended.imp_right fun y => y.trans x
  expected := h.expected.elim .inl fun x => k.expected.imp_right fun y => y.trans x
  sure := h.sure.elim .inl fun x => k.sure.imp_right fun y => y.trans x
  accepted := h.accepted.elim .inl fun x => k.accepted.imp_right fun y => y.trans x
  retry := h.retry.elim .inl fun x => k.retry.imp_right fun y => y.trans x
  menu := h.menu.elim .inl fun x => k.menu.imp_right fun y => y.trans x
  resume := h.resume.elim .inl fun x => k.resume.imp_right fun y => y.trans x
  nextStack := h.nextStack.elim .inl fun x => k.nextStack.imp_right fun y => y.trans x
  copySlot := h.copySlot.elim .inl fun x => k.copySlot.imp_right fun y => y.trans x

/-- Outside the mask the two have the same fields. -/
structure StpAgree (m : Nat) (a b : Steeple) : Prop where
  mode : m.testBit 275 = true ∨ b.mode = a.mode
  st1 : m.testBit 276 = true ∨ b.st1 = a.st1
  standbyOk : m.testBit 277 = true ∨ b.standbyOk = a.standbyOk
  band : m.testBit 278 = true ∨ b.band = a.band
  winTu : m.testBit 279 = true ∨ b.winTu = a.winTu
  winSup : m.testBit 280 = true ∨ b.winSup = a.winSup
  readers : m.testBit 281 = true ∨ b.readers = a.readers
  tapeIds : m.testBit 282 = true ∨ b.tapeIds = a.tapeIds
  reels : m.testBit 283 = true ∨ b.reels = a.reels
  speedOk : m.testBit 284 = true ∨ b.speedOk = a.speedOk
  speedFrames : m.testBit 285 = true ∨ b.speedFrames = a.speedFrames
  oneBand : m.testBit 286 = true ∨ b.oneBand = a.oneBand
  bySrv : m.testBit 287 = true ∨ b.bySrv = a.bySrv
  rcOn : m.testBit 288 = true ∨ b.rcOn = a.rcOn
  winh : m.testBit 289 = true ∨ b.winh = a.winh
  coefIdx : m.testBit 290 = true ∨ b.coefIdx = a.coefIdx
  v : m.testBit 291 = true ∨ b.v = a.v
  accel : m.testBit 292 = true ∨ b.accel = a.accel
  wvnSpeed : m.testBit 293 = true ∨ b.wvnSpeed = a.wvnSpeed
  vSet : m.testBit 294 = true ∨ b.vSet = a.vSet
  vRef : m.testBit 295 = true ∨ b.vRef = a.vRef
  vAcc : m.testBit 296 = true ∨ b.vAcc = a.vAcc
  lpos : m.testBit 297 = true ∨ b.lpos = a.lpos
  frame : m.testBit 298 = true ∨ b.frame = a.frame
  posRest : m.testBit 299 = true ∨ b.posRest = a.posRest
  lposValid : m.testBit 300 = true ∨ b.lposValid = a.lposValid
  errL : m.testBit 301 = true ∨ b.errL = a.errL
  errU : m.testBit 302 = true ∨ b.errU = a.errU
  theta : m.testBit 303 = true ∨ b.theta = a.theta
  thetaHist : m.testBit 304 = true ∨ b.thetaHist = a.thetaHist
  thetaCal : m.testBit 305 = true ∨ b.thetaCal = a.thetaCal
  thetaHead : m.testBit 306 = true ∨ b.thetaHead = a.thetaHead
  theta0 : m.testBit 307 = true ∨ b.theta0 = a.theta0
  tiltFixed : m.testBit 308 = true ∨ b.tiltFixed = a.tiltFixed
  tiltOut : m.testBit 309 = true ∨ b.tiltOut = a.tiltOut
  laws : m.testBit 310 = true ∨ b.laws = a.laws
  estErr : m.testBit 311 = true ∨ b.estErr = a.estErr
  estRate : m.testBit 312 = true ∨ b.estRate = a.estRate
  bandGap : m.testBit 313 = true ∨ b.bandGap = a.bandGap
  eventCode : m.testBit 314 = true ∨ b.eventCode = a.eventCode
  accIdWait : m.testBit 315 = true ∨ b.accIdWait = a.accIdWait
  latLaw : m.testBit 316 = true ∨ b.latLaw = a.latLaw
  reelLaw : m.testBit 317 = true ∨ b.reelLaw = a.reelLaw
  latWrap : m.testBit 318 = true ∨ b.latWrap = a.latWrap
  latRead : m.testBit 319 = true ∨ b.latRead = a.latRead
  latOfs : m.testBit 320 = true ∨ b.latOfs = a.latOfs
  retryOfs : m.testBit 321 = true ∨ b.retryOfs = a.retryOfs
  vcm : m.testBit 322 = true ∨ b.vcm = a.vcm
  stepper : m.testBit 323 = true ∨ b.stepper = a.stepper
  vcmSum : m.testBit 324 = true ∨ b.vcmSum = a.vcmSum
  vcmN : m.testBit 325 = true ∨ b.vcmN = a.vcmN
  vcmTicks : m.testBit 326 = true ∨ b.vcmTicks = a.vcmTicks
  seekRest : m.testBit 327 = true ∨ b.seekRest = a.seekRest
  fEst : m.testBit 328 = true ∨ b.fEst = a.fEst
  fSet : m.testBit 329 = true ∨ b.fSet = a.fSet
  fGoal : m.testBit 330 = true ∨ b.fGoal = a.fGoal
  rc : m.testBit 331 = true ∨ b.rc = a.rc
  rcBin : m.testBit 332 = true ∨ b.rcBin = a.rcBin
  stages : m.testBit 333 = true ∨ b.stages = a.stages
  program : m.testBit 334 = true ∨ b.program = a.program
  stopping : m.testBit 335 = true ∨ b.stopping = a.stopping
  heldMode : m.testBit 336 = true ∨ b.heldMode = a.heldMode
  holdFrom : m.testBit 337 = true ∨ b.holdFrom = a.holdFrom
  holdGood : m.testBit 338 = true ∨ b.holdGood = a.holdGood
  brakeUntil : m.testBit 339 = true ∨ b.brakeUntil = a.brakeUntil
  beatAt : m.testBit 340 = true ∨ b.beatAt = a.beatAt
  beatLost : m.testBit 341 = true ∨ b.beatLost = a.beatLost
  acc : m.testBit 342 = true ∨ b.acc = a.acc
  accBad : m.testBit 343 = true ∨ b.accBad = a.accBad
  accFailed : m.testBit 344 = true ∨ b.accFailed = a.accFailed
  temp : m.testBit 345 = true ∨ b.temp = a.temp
  hum : m.testBit 346 = true ∨ b.hum = a.hum
  sensorBad : m.testBit 347 = true ∨ b.sensorBad = a.sensorBad
  sensorAbsent : m.testBit 348 = true ∨ b.sensorAbsent = a.sensorAbsent
  resyncAt : m.testBit 349 = true ∨ b.resyncAt = a.resyncAt
  offByFault : m.testBit 350 = true ∨ b.offByFault = a.offByFault
  cntHold : m.testBit 351 = true ∨ b.cntHold = a.cntHold
  cntStop : m.testBit 352 = true ∨ b.cntStop = a.cntStop
  cntHandover : m.testBit 353 = true ∨ b.cntHandover = a.cntHandover
  cntDrop : m.testBit 354 = true ∨ b.cntDrop = a.cntDrop
  cntLinkErr : m.testBit 355 = true ∨ b.cntLinkErr = a.cntLinkErr
  cntTakeover : m.testBit 356 = true ∨ b.cntTakeover = a.cntTakeover

theorem StpAgree.refl (m : Nat) (a : Steeple) : StpAgree m a a := by
  constructor <;> exact .inr rfl

theorem StpAgree.trans {m : Nat} {a b c : Steeple} (h : StpAgree m a b) (k : StpAgree m b c) : StpAgree m a c where
  mode := h.mode.elim .inl fun x => k.mode.imp_right fun y => y.trans x
  st1 := h.st1.elim .inl fun x => k.st1.imp_right fun y => y.trans x
  standbyOk := h.standbyOk.elim .inl fun x => k.standbyOk.imp_right fun y => y.trans x
  band := h.band.elim .inl fun x => k.band.imp_right fun y => y.trans x
  winTu := h.winTu.elim .inl fun x => k.winTu.imp_right fun y => y.trans x
  winSup := h.winSup.elim .inl fun x => k.winSup.imp_right fun y => y.trans x
  readers := h.readers.elim .inl fun x => k.readers.imp_right fun y => y.trans x
  tapeIds := h.tapeIds.elim .inl fun x => k.tapeIds.imp_right fun y => y.trans x
  reels := h.reels.elim .inl fun x => k.reels.imp_right fun y => y.trans x
  speedOk := h.speedOk.elim .inl fun x => k.speedOk.imp_right fun y => y.trans x
  speedFrames := h.speedFrames.elim .inl fun x => k.speedFrames.imp_right fun y => y.trans x
  oneBand := h.oneBand.elim .inl fun x => k.oneBand.imp_right fun y => y.trans x
  bySrv := h.bySrv.elim .inl fun x => k.bySrv.imp_right fun y => y.trans x
  rcOn := h.rcOn.elim .inl fun x => k.rcOn.imp_right fun y => y.trans x
  winh := h.winh.elim .inl fun x => k.winh.imp_right fun y => y.trans x
  coefIdx := h.coefIdx.elim .inl fun x => k.coefIdx.imp_right fun y => y.trans x
  v := h.v.elim .inl fun x => k.v.imp_right fun y => y.trans x
  accel := h.accel.elim .inl fun x => k.accel.imp_right fun y => y.trans x
  wvnSpeed := h.wvnSpeed.elim .inl fun x => k.wvnSpeed.imp_right fun y => y.trans x
  vSet := h.vSet.elim .inl fun x => k.vSet.imp_right fun y => y.trans x
  vRef := h.vRef.elim .inl fun x => k.vRef.imp_right fun y => y.trans x
  vAcc := h.vAcc.elim .inl fun x => k.vAcc.imp_right fun y => y.trans x
  lpos := h.lpos.elim .inl fun x => k.lpos.imp_right fun y => y.trans x
  frame := h.frame.elim .inl fun x => k.frame.imp_right fun y => y.trans x
  posRest := h.posRest.elim .inl fun x => k.posRest.imp_right fun y => y.trans x
  lposValid := h.lposValid.elim .inl fun x => k.lposValid.imp_right fun y => y.trans x
  errL := h.errL.elim .inl fun x => k.errL.imp_right fun y => y.trans x
  errU := h.errU.elim .inl fun x => k.errU.imp_right fun y => y.trans x
  theta := h.theta.elim .inl fun x => k.theta.imp_right fun y => y.trans x
  thetaHist := h.thetaHist.elim .inl fun x => k.thetaHist.imp_right fun y => y.trans x
  thetaCal := h.thetaCal.elim .inl fun x => k.thetaCal.imp_right fun y => y.trans x
  thetaHead := h.thetaHead.elim .inl fun x => k.thetaHead.imp_right fun y => y.trans x
  theta0 := h.theta0.elim .inl fun x => k.theta0.imp_right fun y => y.trans x
  tiltFixed := h.tiltFixed.elim .inl fun x => k.tiltFixed.imp_right fun y => y.trans x
  tiltOut := h.tiltOut.elim .inl fun x => k.tiltOut.imp_right fun y => y.trans x
  laws := h.laws.elim .inl fun x => k.laws.imp_right fun y => y.trans x
  estErr := h.estErr.elim .inl fun x => k.estErr.imp_right fun y => y.trans x
  estRate := h.estRate.elim .inl fun x => k.estRate.imp_right fun y => y.trans x
  bandGap := h.bandGap.elim .inl fun x => k.bandGap.imp_right fun y => y.trans x
  eventCode := h.eventCode.elim .inl fun x => k.eventCode.imp_right fun y => y.trans x
  accIdWait := h.accIdWait.elim .inl fun x => k.accIdWait.imp_right fun y => y.trans x
  latLaw := h.latLaw.elim .inl fun x => k.latLaw.imp_right fun y => y.trans x
  reelLaw := h.reelLaw.elim .inl fun x => k.reelLaw.imp_right fun y => y.trans x
  latWrap := h.latWrap.elim .inl fun x => k.latWrap.imp_right fun y => y.trans x
  latRead := h.latRead.elim .inl fun x => k.latRead.imp_right fun y => y.trans x
  latOfs := h.latOfs.elim .inl fun x => k.latOfs.imp_right fun y => y.trans x
  retryOfs := h.retryOfs.elim .inl fun x => k.retryOfs.imp_right fun y => y.trans x
  vcm := h.vcm.elim .inl fun x => k.vcm.imp_right fun y => y.trans x
  stepper := h.stepper.elim .inl fun x => k.stepper.imp_right fun y => y.trans x
  vcmSum := h.vcmSum.elim .inl fun x => k.vcmSum.imp_right fun y => y.trans x
  vcmN := h.vcmN.elim .inl fun x => k.vcmN.imp_right fun y => y.trans x
  vcmTicks := h.vcmTicks.elim .inl fun x => k.vcmTicks.imp_right fun y => y.trans x
  seekRest := h.seekRest.elim .inl fun x => k.seekRest.imp_right fun y => y.trans x
  fEst := h.fEst.elim .inl fun x => k.fEst.imp_right fun y => y.trans x
  fSet := h.fSet.elim .inl fun x => k.fSet.imp_right fun y => y.trans x
  fGoal := h.fGoal.elim .inl fun x => k.fGoal.imp_right fun y => y.trans x
  rc := h.rc.elim .inl fun x => k.rc.imp_right fun y => y.trans x
  rcBin := h.rcBin.elim .inl fun x => k.rcBin.imp_right fun y => y.trans x
  stages := h.stages.elim .inl fun x => k.stages.imp_right fun y => y.trans x
  program := h.program.elim .inl fun x => k.program.imp_right fun y => y.trans x
  stopping := h.stopping.elim .inl fun x => k.stopping.imp_right fun y => y.trans x
  heldMode := h.heldMode.elim .inl fun x => k.heldMode.imp_right fun y => y.trans x
  holdFrom := h.holdFrom.elim .inl fun x => k.holdFrom.imp_right fun y => y.trans x
  holdGood := h.holdGood.elim .inl fun x => k.holdGood.imp_right fun y => y.trans x
  brakeUntil := h.brakeUntil.elim .inl fun x => k.brakeUntil.imp_right fun y => y.trans x
  beatAt := h.beatAt.elim .inl fun x => k.beatAt.imp_right fun y => y.trans x
  beatLost := h.beatLost.elim .inl fun x => k.beatLost.imp_right fun y => y.trans x
  acc := h.acc.elim .inl fun x => k.acc.imp_right fun y => y.trans x
  accBad := h.accBad.elim .inl fun x => k.accBad.imp_right fun y => y.trans x
  accFailed := h.accFailed.elim .inl fun x => k.accFailed.imp_right fun y => y.trans x
  temp := h.temp.elim .inl fun x => k.temp.imp_right fun y => y.trans x
  hum := h.hum.elim .inl fun x => k.hum.imp_right fun y => y.trans x
  sensorBad := h.sensorBad.elim .inl fun x => k.sensorBad.imp_right fun y => y.trans x
  sensorAbsent := h.sensorAbsent.elim .inl fun x => k.sensorAbsent.imp_right fun y => y.trans x
  resyncAt := h.resyncAt.elim .inl fun x => k.resyncAt.imp_right fun y => y.trans x
  offByFault := h.offByFault.elim .inl fun x => k.offByFault.imp_right fun y => y.trans x
  cntHold := h.cntHold.elim .inl fun x => k.cntHold.imp_right fun y => y.trans x
  cntStop := h.cntStop.elim .inl fun x => k.cntStop.imp_right fun y => y.trans x
  cntHandover := h.cntHandover.elim .inl fun x => k.cntHandover.imp_right fun y => y.trans x
  cntDrop := h.cntDrop.elim .inl fun x => k.cntDrop.imp_right fun y => y.trans x
  cntLinkErr := h.cntLinkErr.elim .inl fun x => k.cntLinkErr.imp_right fun y => y.trans x
  cntTakeover := h.cntTakeover.elim .inl fun x => k.cntTakeover.imp_right fun y => y.trans x

/-- Outside the mask the two have the same fields. -/
structure HlkAgree (m : Nat) (a b : HeadLink) : Prop where
  groups : m.testBit 357 = true ∨ b.groups = a.groups
  groupEn : m.testBit 358 = true ∨ b.groupEn = a.groupEn
  groupEnNext : m.testBit 359 = true ∨ b.groupEnNext = a.groupEnNext
  retrainNext : m.testBit 360 = true ∨ b.retrainNext = a.retrainNext
  cfg : m.testBit 361 = true ∨ b.cfg = a.cfg
  adc : m.testBit 362 = true ∨ b.adc = a.adc
  wclk : m.testBit 363 = true ∨ b.wclk = a.wclk

theorem HlkAgree.refl (m : Nat) (a : HeadLink) : HlkAgree m a a := by
  constructor <;> exact .inr rfl

theorem HlkAgree.trans {m : Nat} {a b c : HeadLink} (h : HlkAgree m a b) (k : HlkAgree m b c) : HlkAgree m a c where
  groups := h.groups.elim .inl fun x => k.groups.imp_right fun y => y.trans x
  groupEn := h.groupEn.elim .inl fun x => k.groupEn.imp_right fun y => y.trans x
  groupEnNext := h.groupEnNext.elim .inl fun x => k.groupEnNext.imp_right fun y => y.trans x
  retrainNext := h.retrainNext.elim .inl fun x => k.retrainNext.imp_right fun y => y.trans x
  cfg := h.cfg.elim .inl fun x => k.cfg.imp_right fun y => y.trans x
  adc := h.adc.elim .inl fun x => k.adc.imp_right fun y => y.trans x
  wclk := h.wclk.elim .inl fun x => k.wclk.imp_right fun y => y.trans x

/-- Outside the mask the two have the same fields. -/
structure BlfAgree (m : Nat) (a b : Belfry) : Prop where
  sources : m.testBit 364 = true ∨ (b.sources.map fun q => { q with pending := false }) = (a.sources.map fun q => { q with pending := false })
  requests : m.testBit 365 = true ∨ (b.sources.map fun q => q.pending) = (a.sources.map fun q => q.pending)
  cores : m.testBit 366 = true ∨ (b.cores.map fun k => { k with offer := none, withdrawn := false }) = (a.cores.map fun k => { k with offer := none, withdrawn := false })
  coreOffers : m.testBit 367 = true ∨ (b.cores.map fun k => (k.offer, k.withdrawn)) = (a.cores.map fun k => (k.offer, k.withdrawn))
  coreOk : m.testBit 368 = true ∨ b.coreOk = a.coreOk
  copyOk : m.testBit 369 = true ∨ b.copyOk = a.copyOk
  vecBase : m.testBit 370 = true ∨ b.vecBase = a.vecBase
  srcIdx : m.testBit 371 = true ∨ b.srcIdx = a.srcIdx
  latched : m.testBit 372 = true ∨ b.latched = a.latched
  wakeEn : m.testBit 373 = true ∨ b.wakeEn = a.wakeEn
  cntSpurious : m.testBit 374 = true ∨ b.cntSpurious = a.cntSpurious
  cntStackFault : m.testBit 375 = true ∨ b.cntStackFault = a.cntStackFault
  cntParity : m.testBit 376 = true ∨ b.cntParity = a.cntParity
  cntMsix : m.testBit 377 = true ∨ b.cntMsix = a.cntMsix
  cntFlush : m.testBit 378 = true ∨ b.cntFlush = a.cntFlush

theorem BlfAgree.refl (m : Nat) (a : Belfry) : BlfAgree m a a := by
  constructor <;> exact .inr rfl

theorem BlfAgree.trans {m : Nat} {a b c : Belfry} (h : BlfAgree m a b) (k : BlfAgree m b c) : BlfAgree m a c where
  sources := h.sources.elim .inl fun x => k.sources.imp_right fun y => y.trans x
  requests := h.requests.elim .inl fun x => k.requests.imp_right fun y => y.trans x
  cores := h.cores.elim .inl fun x => k.cores.imp_right fun y => y.trans x
  coreOffers := h.coreOffers.elim .inl fun x => k.coreOffers.imp_right fun y => y.trans x
  coreOk := h.coreOk.elim .inl fun x => k.coreOk.imp_right fun y => y.trans x
  copyOk := h.copyOk.elim .inl fun x => k.copyOk.imp_right fun y => y.trans x
  vecBase := h.vecBase.elim .inl fun x => k.vecBase.imp_right fun y => y.trans x
  srcIdx := h.srcIdx.elim .inl fun x => k.srcIdx.imp_right fun y => y.trans x
  latched := h.latched.elim .inl fun x => k.latched.imp_right fun y => y.trans x
  wakeEn := h.wakeEn.elim .inl fun x => k.wakeEn.imp_right fun y => y.trans x
  cntSpurious := h.cntSpurious.elim .inl fun x => k.cntSpurious.imp_right fun y => y.trans x
  cntStackFault := h.cntStackFault.elim .inl fun x => k.cntStackFault.imp_right fun y => y.trans x
  cntParity := h.cntParity.elim .inl fun x => k.cntParity.imp_right fun y => y.trans x
  cntMsix := h.cntMsix.elim .inl fun x => k.cntMsix.imp_right fun y => y.trans x
  cntFlush := h.cntFlush.elim .inl fun x => k.cntFlush.imp_right fun y => y.trans x

/-- Outside the mask the two have the same fields. -/
structure HqAgree (m : Nat) (a b : HwQueues) : Prop where
  queues : m.testBit 379 = true ∨ b.queues = a.queues
  cntParity : m.testBit 380 = true ∨ b.cntParity = a.cntParity
  cntStale : m.testBit 381 = true ∨ b.cntStale = a.cntStale
  cntFlush : m.testBit 382 = true ∨ b.cntFlush = a.cntFlush

theorem HqAgree.refl (m : Nat) (a : HwQueues) : HqAgree m a a := by
  constructor <;> exact .inr rfl

theorem HqAgree.trans {m : Nat} {a b c : HwQueues} (h : HqAgree m a b) (k : HqAgree m b c) : HqAgree m a c where
  queues := h.queues.elim .inl fun x => k.queues.imp_right fun y => y.trans x
  cntParity := h.cntParity.elim .inl fun x => k.cntParity.imp_right fun y => y.trans x
  cntStale := h.cntStale.elim .inl fun x => k.cntStale.imp_right fun y => y.trans x
  cntFlush := h.cntFlush.elim .inl fun x => k.cntFlush.imp_right fun y => y.trans x

/-- What a command leaves as it was: the commands still waiting, the fused identity, canonical form, and every field outside the mask. -/
structure Kept (m : Nat) (s t : State) : Prop where
  pending : t.pending = s.pending
  bootKept : BootKept s.boot t.boot
  cart : cartWf s.drive → cartWf t.drive
  pins : PinsAgree m s.pins t.pins
  boot : BootAgree m s.boot t.boot
  trust : TrustAgree m s.trust t.trust
  power : PowerAgree m s.power t.power
  lantern : LanternAgree m s.lantern t.lantern
  host : HostAgree m s.host t.host
  keep : KeepAgree m s.keep t.keep
  cupola : CupolaAgree m s.cupola t.cupola
  cz : CzAgree m s.cz t.cz
  drive : DriveAgree m s.drive t.drive
  wr : WrAgree m s.wr t.wr
  wvn : WvnAgree m s.wvn t.wvn
  ecc : EccAgree m s.ecc t.ecc
  tiles : TilesAgree m s.tiles t.tiles
  rd : RdAgree m s.rd t.rd
  stp : StpAgree m s.stp t.stp
  hlk : HlkAgree m s.hlk t.hlk
  blf : BlfAgree m s.blf t.blf
  hq : HqAgree m s.hq t.hq
  out : m.testBit 383 = true ∨ t.out = s.out
  fresh : m.testBit 384 = true ∨ t.fresh = s.fresh

theorem BootKept.refl (b : Boot) : BootKept b b := ⟨rfl, rfl, rfl, rfl, id⟩

theorem BootKept.trans {a b c : Boot} (h : BootKept a b) (k : BootKept b c) : BootKept a c :=
  ⟨k.1.trans h.1, k.2.trans h.2, k.3.trans h.3, k.4.trans h.4, fun x => k.5 (h.5 x)⟩

theorem BootKept.of_eq {b c : Boot} (h1 : c.serial = b.serial) (h2 : c.deviceSecret = b.deviceSecret) (h3 : c.rootHashes = b.rootHashes)
    (h4 : c.endorsement = b.endorsement) (h5 : c.flash = b.flash) : BootKept b c := ⟨h1, h2, h3, h4, fun x => h5 ▸ x⟩

theorem Kept.refl (m : Nat) (s : State) : Kept m s s :=
  ⟨rfl, BootKept.refl _, id, PinsAgree.refl _ _, BootAgree.refl _ _, TrustAgree.refl _ _, PowerAgree.refl _ _, LanternAgree.refl _ _, HostAgree.refl _ _, KeepAgree.refl _ _, CupolaAgree.refl _ _, CzAgree.refl _ _, DriveAgree.refl _ _, WrAgree.refl _ _, WvnAgree.refl _ _, EccAgree.refl _ _, TilesAgree.refl _ _, RdAgree.refl _ _, StpAgree.refl _ _, HlkAgree.refl _ _, BlfAgree.refl _ _, HqAgree.refl _ _, .inr rfl, .inr rfl⟩

theorem Kept.trans {m : Nat} {s t u : State} (h : Kept m s t) (k : Kept m t u) : Kept m s u where
  pending := k.pending.trans h.pending
  bootKept := h.bootKept.trans k.bootKept
  cart := fun x => k.cart (h.cart x)
  pins := h.pins.trans k.pins
  boot := h.boot.trans k.boot
  trust := h.trust.trans k.trust
  power := h.power.trans k.power
  lantern := h.lantern.trans k.lantern
  host := h.host.trans k.host
  keep := h.keep.trans k.keep
  cupola := h.cupola.trans k.cupola
  cz := h.cz.trans k.cz
  drive := h.drive.trans k.drive
  wr := h.wr.trans k.wr
  wvn := h.wvn.trans k.wvn
  ecc := h.ecc.trans k.ecc
  tiles := h.tiles.trans k.tiles
  rd := h.rd.trans k.rd
  stp := h.stp.trans k.stp
  hlk := h.hlk.trans k.hlk
  blf := h.blf.trans k.blf
  hq := h.hq.trans k.hq
  out := h.out.elim .inl fun x => k.out.imp_right fun y => y.trans x
  fresh := h.fresh.elim .inl fun x => k.fresh.imp_right fun y => y.trans x

theorem onPins_kept {m : Nat} {s0 s : State} (f : Pins → Pins) (hf : ∀ x, PinsAgree m x (f x)) (h : Kept m s0 s) :
    Kept m s0 (s.onPins f) :=
  h.trans ⟨rfl, BootKept.refl _, id, hf _, BootAgree.refl _ _, TrustAgree.refl _ _, PowerAgree.refl _ _, LanternAgree.refl _ _, HostAgree.refl _ _, KeepAgree.refl _ _, CupolaAgree.refl _ _, CzAgree.refl _ _, DriveAgree.refl _ _, WrAgree.refl _ _, WvnAgree.refl _ _, EccAgree.refl _ _, TilesAgree.refl _ _, RdAgree.refl _ _, StpAgree.refl _ _, HlkAgree.refl _ _, BlfAgree.refl _ _, HqAgree.refl _ _, .inr rfl, .inr rfl⟩

theorem onBoot_kept {m : Nat} {s0 s : State} (f : Boot → Boot) (hb : ∀ b, BootKept b (f b)) (hf : ∀ x, BootAgree m x (f x)) (h : Kept m s0 s) :
    Kept m s0 (s.onBoot f) :=
  h.trans ⟨rfl, hb _, id, PinsAgree.refl _ _, hf _, TrustAgree.refl _ _, PowerAgree.refl _ _, LanternAgree.refl _ _, HostAgree.refl _ _, KeepAgree.refl _ _, CupolaAgree.refl _ _, CzAgree.refl _ _, DriveAgree.refl _ _, WrAgree.refl _ _, WvnAgree.refl _ _, EccAgree.refl _ _, TilesAgree.refl _ _, RdAgree.refl _ _, StpAgree.refl _ _, HlkAgree.refl _ _, BlfAgree.refl _ _, HqAgree.refl _ _, .inr rfl, .inr rfl⟩

theorem onTrust_kept {m : Nat} {s0 s : State} (f : Trust → Trust) (hf : ∀ x, TrustAgree m x (f x)) (h : Kept m s0 s) :
    Kept m s0 (s.onTrust f) :=
  h.trans ⟨rfl, BootKept.refl _, id, PinsAgree.refl _ _, BootAgree.refl _ _, hf _, PowerAgree.refl _ _, LanternAgree.refl _ _, HostAgree.refl _ _, KeepAgree.refl _ _, CupolaAgree.refl _ _, CzAgree.refl _ _, DriveAgree.refl _ _, WrAgree.refl _ _, WvnAgree.refl _ _, EccAgree.refl _ _, TilesAgree.refl _ _, RdAgree.refl _ _, StpAgree.refl _ _, HlkAgree.refl _ _, BlfAgree.refl _ _, HqAgree.refl _ _, .inr rfl, .inr rfl⟩

theorem onPower_kept {m : Nat} {s0 s : State} (f : Power → Power) (hf : ∀ x, PowerAgree m x (f x)) (h : Kept m s0 s) :
    Kept m s0 (s.onPower f) :=
  h.trans ⟨rfl, BootKept.refl _, id, PinsAgree.refl _ _, BootAgree.refl _ _, TrustAgree.refl _ _, hf _, LanternAgree.refl _ _, HostAgree.refl _ _, KeepAgree.refl _ _, CupolaAgree.refl _ _, CzAgree.refl _ _, DriveAgree.refl _ _, WrAgree.refl _ _, WvnAgree.refl _ _, EccAgree.refl _ _, TilesAgree.refl _ _, RdAgree.refl _ _, StpAgree.refl _ _, HlkAgree.refl _ _, BlfAgree.refl _ _, HqAgree.refl _ _, .inr rfl, .inr rfl⟩

theorem onLantern_kept {m : Nat} {s0 s : State} (f : Lantern → Lantern) (hf : ∀ x, LanternAgree m x (f x)) (h : Kept m s0 s) :
    Kept m s0 (s.onLantern f) :=
  h.trans ⟨rfl, BootKept.refl _, id, PinsAgree.refl _ _, BootAgree.refl _ _, TrustAgree.refl _ _, PowerAgree.refl _ _, hf _, HostAgree.refl _ _, KeepAgree.refl _ _, CupolaAgree.refl _ _, CzAgree.refl _ _, DriveAgree.refl _ _, WrAgree.refl _ _, WvnAgree.refl _ _, EccAgree.refl _ _, TilesAgree.refl _ _, RdAgree.refl _ _, StpAgree.refl _ _, HlkAgree.refl _ _, BlfAgree.refl _ _, HqAgree.refl _ _, .inr rfl, .inr rfl⟩

theorem onHost_kept {m : Nat} {s0 s : State} (f : HostIf → HostIf) (hf : ∀ x, HostAgree m x (f x)) (h : Kept m s0 s) :
    Kept m s0 (s.onHost f) :=
  h.trans ⟨rfl, BootKept.refl _, id, PinsAgree.refl _ _, BootAgree.refl _ _, TrustAgree.refl _ _, PowerAgree.refl _ _, LanternAgree.refl _ _, hf _, KeepAgree.refl _ _, CupolaAgree.refl _ _, CzAgree.refl _ _, DriveAgree.refl _ _, WrAgree.refl _ _, WvnAgree.refl _ _, EccAgree.refl _ _, TilesAgree.refl _ _, RdAgree.refl _ _, StpAgree.refl _ _, HlkAgree.refl _ _, BlfAgree.refl _ _, HqAgree.refl _ _, .inr rfl, .inr rfl⟩

theorem onKeep_kept {m : Nat} {s0 s : State} (f : Keep → Keep) (hf : ∀ x, KeepAgree m x (f x)) (h : Kept m s0 s) :
    Kept m s0 (s.onKeep f) :=
  h.trans ⟨rfl, BootKept.refl _, id, PinsAgree.refl _ _, BootAgree.refl _ _, TrustAgree.refl _ _, PowerAgree.refl _ _, LanternAgree.refl _ _, HostAgree.refl _ _, hf _, CupolaAgree.refl _ _, CzAgree.refl _ _, DriveAgree.refl _ _, WrAgree.refl _ _, WvnAgree.refl _ _, EccAgree.refl _ _, TilesAgree.refl _ _, RdAgree.refl _ _, StpAgree.refl _ _, HlkAgree.refl _ _, BlfAgree.refl _ _, HqAgree.refl _ _, .inr rfl, .inr rfl⟩

theorem onCupola_kept {m : Nat} {s0 s : State} (f : Cupola → Cupola) (hf : ∀ x, CupolaAgree m x (f x)) (h : Kept m s0 s) :
    Kept m s0 (s.onCupola f) :=
  h.trans ⟨rfl, BootKept.refl _, id, PinsAgree.refl _ _, BootAgree.refl _ _, TrustAgree.refl _ _, PowerAgree.refl _ _, LanternAgree.refl _ _, HostAgree.refl _ _, KeepAgree.refl _ _, hf _, CzAgree.refl _ _, DriveAgree.refl _ _, WrAgree.refl _ _, WvnAgree.refl _ _, EccAgree.refl _ _, TilesAgree.refl _ _, RdAgree.refl _ _, StpAgree.refl _ _, HlkAgree.refl _ _, BlfAgree.refl _ _, HqAgree.refl _ _, .inr rfl, .inr rfl⟩

theorem onCz_kept {m : Nat} {s0 s : State} (f : Compress → Compress) (hf : ∀ x, CzAgree m x (f x)) (h : Kept m s0 s) :
    Kept m s0 (s.onCz f) :=
  h.trans ⟨rfl, BootKept.refl _, id, PinsAgree.refl _ _, BootAgree.refl _ _, TrustAgree.refl _ _, PowerAgree.refl _ _, LanternAgree.refl _ _, HostAgree.refl _ _, KeepAgree.refl _ _, CupolaAgree.refl _ _, hf _, DriveAgree.refl _ _, WrAgree.refl _ _, WvnAgree.refl _ _, EccAgree.refl _ _, TilesAgree.refl _ _, RdAgree.refl _ _, StpAgree.refl _ _, HlkAgree.refl _ _, BlfAgree.refl _ _, HqAgree.refl _ _, .inr rfl, .inr rfl⟩

theorem onDrive_kept {m : Nat} {s0 s : State} (f : Drive → Drive) (hc : ∀ d, cartWf d → cartWf (f d)) (hf : ∀ x, DriveAgree m x (f x)) (h : Kept m s0 s) :
    Kept m s0 (s.onDrive f) :=
  h.trans ⟨rfl, BootKept.refl _, hc _, PinsAgree.refl _ _, BootAgree.refl _ _, TrustAgree.refl _ _, PowerAgree.refl _ _, LanternAgree.refl _ _, HostAgree.refl _ _, KeepAgree.refl _ _, CupolaAgree.refl _ _, CzAgree.refl _ _, hf _, WrAgree.refl _ _, WvnAgree.refl _ _, EccAgree.refl _ _, TilesAgree.refl _ _, RdAgree.refl _ _, StpAgree.refl _ _, HlkAgree.refl _ _, BlfAgree.refl _ _, HqAgree.refl _ _, .inr rfl, .inr rfl⟩

theorem onWr_kept {m : Nat} {s0 s : State} (f : WritePath → WritePath) (hf : ∀ x, WrAgree m x (f x)) (h : Kept m s0 s) :
    Kept m s0 (s.onWr f) :=
  h.trans ⟨rfl, BootKept.refl _, id, PinsAgree.refl _ _, BootAgree.refl _ _, TrustAgree.refl _ _, PowerAgree.refl _ _, LanternAgree.refl _ _, HostAgree.refl _ _, KeepAgree.refl _ _, CupolaAgree.refl _ _, CzAgree.refl _ _, DriveAgree.refl _ _, hf _, WvnAgree.refl _ _, EccAgree.refl _ _, TilesAgree.refl _ _, RdAgree.refl _ _, StpAgree.refl _ _, HlkAgree.refl _ _, BlfAgree.refl _ _, HqAgree.refl _ _, .inr rfl, .inr rfl⟩

theorem onWvn_kept {m : Nat} {s0 s : State} (f : Wvn → Wvn) (hf : ∀ x, WvnAgree m x (f x)) (h : Kept m s0 s) :
    Kept m s0 (s.onWvn f) :=
  h.trans ⟨rfl, BootKept.refl _, id, PinsAgree.refl _ _, BootAgree.refl _ _, TrustAgree.refl _ _, PowerAgree.refl _ _, LanternAgree.refl _ _, HostAgree.refl _ _, KeepAgree.refl _ _, CupolaAgree.refl _ _, CzAgree.refl _ _, DriveAgree.refl _ _, WrAgree.refl _ _, hf _, EccAgree.refl _ _, TilesAgree.refl _ _, RdAgree.refl _ _, StpAgree.refl _ _, HlkAgree.refl _ _, BlfAgree.refl _ _, HqAgree.refl _ _, .inr rfl, .inr rfl⟩

theorem onEcc_kept {m : Nat} {s0 s : State} (f : Ecc → Ecc) (hf : ∀ x, EccAgree m x (f x)) (h : Kept m s0 s) :
    Kept m s0 (s.onEcc f) :=
  h.trans ⟨rfl, BootKept.refl _, id, PinsAgree.refl _ _, BootAgree.refl _ _, TrustAgree.refl _ _, PowerAgree.refl _ _, LanternAgree.refl _ _, HostAgree.refl _ _, KeepAgree.refl _ _, CupolaAgree.refl _ _, CzAgree.refl _ _, DriveAgree.refl _ _, WrAgree.refl _ _, WvnAgree.refl _ _, hf _, TilesAgree.refl _ _, RdAgree.refl _ _, StpAgree.refl _ _, HlkAgree.refl _ _, BlfAgree.refl _ _, HqAgree.refl _ _, .inr rfl, .inr rfl⟩

theorem onTiles_kept {m : Nat} {s0 s : State} (f : Tiles → Tiles) (hf : ∀ x, TilesAgree m x (f x)) (h : Kept m s0 s) :
    Kept m s0 (s.onTiles f) :=
  h.trans ⟨rfl, BootKept.refl _, id, PinsAgree.refl _ _, BootAgree.refl _ _, TrustAgree.refl _ _, PowerAgree.refl _ _, LanternAgree.refl _ _, HostAgree.refl _ _, KeepAgree.refl _ _, CupolaAgree.refl _ _, CzAgree.refl _ _, DriveAgree.refl _ _, WrAgree.refl _ _, WvnAgree.refl _ _, EccAgree.refl _ _, hf _, RdAgree.refl _ _, StpAgree.refl _ _, HlkAgree.refl _ _, BlfAgree.refl _ _, HqAgree.refl _ _, .inr rfl, .inr rfl⟩

theorem onRd_kept {m : Nat} {s0 s : State} (f : ReadPath → ReadPath) (hf : ∀ x, RdAgree m x (f x)) (h : Kept m s0 s) :
    Kept m s0 (s.onRd f) :=
  h.trans ⟨rfl, BootKept.refl _, id, PinsAgree.refl _ _, BootAgree.refl _ _, TrustAgree.refl _ _, PowerAgree.refl _ _, LanternAgree.refl _ _, HostAgree.refl _ _, KeepAgree.refl _ _, CupolaAgree.refl _ _, CzAgree.refl _ _, DriveAgree.refl _ _, WrAgree.refl _ _, WvnAgree.refl _ _, EccAgree.refl _ _, TilesAgree.refl _ _, hf _, StpAgree.refl _ _, HlkAgree.refl _ _, BlfAgree.refl _ _, HqAgree.refl _ _, .inr rfl, .inr rfl⟩

theorem onStp_kept {m : Nat} {s0 s : State} (f : Steeple → Steeple) (hf : ∀ x, StpAgree m x (f x)) (h : Kept m s0 s) :
    Kept m s0 (s.onStp f) :=
  h.trans ⟨rfl, BootKept.refl _, id, PinsAgree.refl _ _, BootAgree.refl _ _, TrustAgree.refl _ _, PowerAgree.refl _ _, LanternAgree.refl _ _, HostAgree.refl _ _, KeepAgree.refl _ _, CupolaAgree.refl _ _, CzAgree.refl _ _, DriveAgree.refl _ _, WrAgree.refl _ _, WvnAgree.refl _ _, EccAgree.refl _ _, TilesAgree.refl _ _, RdAgree.refl _ _, hf _, HlkAgree.refl _ _, BlfAgree.refl _ _, HqAgree.refl _ _, .inr rfl, .inr rfl⟩

theorem onHlk_kept {m : Nat} {s0 s : State} (f : HeadLink → HeadLink) (hf : ∀ x, HlkAgree m x (f x)) (h : Kept m s0 s) :
    Kept m s0 (s.onHlk f) :=
  h.trans ⟨rfl, BootKept.refl _, id, PinsAgree.refl _ _, BootAgree.refl _ _, TrustAgree.refl _ _, PowerAgree.refl _ _, LanternAgree.refl _ _, HostAgree.refl _ _, KeepAgree.refl _ _, CupolaAgree.refl _ _, CzAgree.refl _ _, DriveAgree.refl _ _, WrAgree.refl _ _, WvnAgree.refl _ _, EccAgree.refl _ _, TilesAgree.refl _ _, RdAgree.refl _ _, StpAgree.refl _ _, hf _, BlfAgree.refl _ _, HqAgree.refl _ _, .inr rfl, .inr rfl⟩

theorem onBlf_kept {m : Nat} {s0 s : State} (f : Belfry → Belfry) (hf : ∀ x, BlfAgree m x (f x)) (h : Kept m s0 s) :
    Kept m s0 (s.onBlf f) :=
  h.trans ⟨rfl, BootKept.refl _, id, PinsAgree.refl _ _, BootAgree.refl _ _, TrustAgree.refl _ _, PowerAgree.refl _ _, LanternAgree.refl _ _, HostAgree.refl _ _, KeepAgree.refl _ _, CupolaAgree.refl _ _, CzAgree.refl _ _, DriveAgree.refl _ _, WrAgree.refl _ _, WvnAgree.refl _ _, EccAgree.refl _ _, TilesAgree.refl _ _, RdAgree.refl _ _, StpAgree.refl _ _, HlkAgree.refl _ _, hf _, HqAgree.refl _ _, .inr rfl, .inr rfl⟩

theorem onHq_kept {m : Nat} {s0 s : State} (f : HwQueues → HwQueues) (hf : ∀ x, HqAgree m x (f x)) (h : Kept m s0 s) :
    Kept m s0 (s.onHq f) :=
  h.trans ⟨rfl, BootKept.refl _, id, PinsAgree.refl _ _, BootAgree.refl _ _, TrustAgree.refl _ _, PowerAgree.refl _ _, LanternAgree.refl _ _, HostAgree.refl _ _, KeepAgree.refl _ _, CupolaAgree.refl _ _, CzAgree.refl _ _, DriveAgree.refl _ _, WrAgree.refl _ _, WvnAgree.refl _ _, EccAgree.refl _ _, TilesAgree.refl _ _, RdAgree.refl _ _, StpAgree.refl _ _, HlkAgree.refl _ _, BlfAgree.refl _ _, hf _, .inr rfl, .inr rfl⟩

theorem cartWf_map (f : Cartridge → Cartridge) (hf : ∀ c, Memory.wf c.cm → Memory.wf (f c).cm) (d : Drive) (vol : Option Volume) (link : CmLink)
    (h : cartWf d) : cartWf { cart := d.cart.map f, vol := vol, link := link } := by
  intro c hc
  obtain ⟨e, he, rfl⟩ := Option.map_eq_some_iff.mp hc
  exact hf e (h e he)

theorem forEach_kept {m : Nat} {s0 s : State} {α : Type} (l : List α) (f : α → State → State) (hf : ∀ x t, Kept m s0 t → Kept m s0 (f x t))
    (h : Kept m s0 s) : Kept m s0 (forEach l f s) := by
  unfold forEach
  induction l generalizing s with
  | nil => exact h
  | cons x l ih => exact ih (hf x s h)

theorem foldl_kept {m : Nat} {s0 s : State} {α : Type} (l : List α) (f : State → α → State) (hf : ∀ t x, Kept m s0 t → Kept m s0 (f t x))
    (h : Kept m s0 s) : Kept m s0 (l.foldl f s) := by
  induction l generalizing s with
  | nil => exact h
  | cons x l ih => exact ih (hf s x h)

theorem goLive_kept {m : Nat} {s t : State} {f : State → State} (hf : ∀ u, Kept m s u → Kept m s (f u)) (h : goLive f s = .next t) :
    Kept m s t := by
  unfold goLive at h
  injection h with h
  subst h
  split
  · exact hf _ (Kept.refl m s)
  · exact Kept.refl m s

theorem go_kept {m : Nat} {s t : State} {f : State → State} (hf : ∀ u, Kept m s u → Kept m s (f u)) (h : go f s = .next t) : Kept m s t := by
  unfold go at h
  injection h with h
  subst h
  exact hf _ (Kept.refl m s)

theorem Kept.setOut {m : Nat} {s0 s : State} (o : List Out) (hm : 0x800000000000000000000000000000000000000000000000000000000000000000000000000000000000000000000000 ||| m = m) (h : Kept m s0 s) : Kept m s0 { s with out := o } :=
  h.trans ⟨rfl, BootKept.refl _, id, PinsAgree.refl _ _, BootAgree.refl _ _, TrustAgree.refl _ _, PowerAgree.refl _ _, LanternAgree.refl _ _, HostAgree.refl _ _, KeepAgree.refl _ _, CupolaAgree.refl _ _, CzAgree.refl _ _, DriveAgree.refl _ _, WrAgree.refl _ _, WvnAgree.refl _ _, EccAgree.refl _ _, TilesAgree.refl _ _, RdAgree.refl _ _, StpAgree.refl _ _, HlkAgree.refl _ _, BlfAgree.refl _ _, HqAgree.refl _ _, .inl (Mask.bit hm rfl), .inr rfl⟩

theorem Kept.setFresh {m : Nat} {s0 s : State} (n : Nat) (hm : 0x1000000000000000000000000000000000000000000000000000000000000000000000000000000000000000000000000 ||| m = m) (h : Kept m s0 s) : Kept m s0 { s with fresh := n } :=
  h.trans ⟨rfl, BootKept.refl _, id, PinsAgree.refl _ _, BootAgree.refl _ _, TrustAgree.refl _ _, PowerAgree.refl _ _, LanternAgree.refl _ _, HostAgree.refl _ _, KeepAgree.refl _ _, CupolaAgree.refl _ _, CzAgree.refl _ _, DriveAgree.refl _ _, WrAgree.refl _ _, WvnAgree.refl _ _, EccAgree.refl _ _, TilesAgree.refl _ _, RdAgree.refl _ _, StpAgree.refl _ _, HlkAgree.refl _ _, BlfAgree.refl _ _, HqAgree.refl _ _, .inr rfl, .inl (Mask.bit hm rfl)⟩

/-- A field outside the mask is the same. -/
theorem Mask.out {m i : Nat} {p : Prop} (o : m.testBit i = true ∨ p) (h : m.testBit i = false) : p := o.resolve_left (by rw [h]; exact Bool.false_ne_true)

theorem map_set_same {α β : Type} {n : Nat} (v : Vector α n) (i : Nat) (hi : i < n) (x : α) (g : α → β) (h : g x = g v[i]) :
    (v.set i x).map g = v.map g := by
  ext j hj
  simp only [Vector.getElem_map, Vector.getElem_set]
  split
  · subst_vars; exact h
  · rfl

theorem map_updAt_same {α β : Type} {n : Nat} (v : Vector α n) (i : Nat) (f : α → α) (g : α → β) (h : ∀ x, g (f x) = g x) :
    (updAt v i f).map g = v.map g := by
  unfold updAt
  split
  · exact map_set_same _ _ _ _ _ (h _)
  · rfl

theorem lanPut_agree {m : Nat} (r : LanRec) (b : Bool) (l : Lantern) (hm : 0x81C0000000000000000000 ||| m = m) : LanternAgree m l (lanPut r b l) := by
  unfold lanPut ringPut
  dsimp only
  split
  · unfold pinPut; dsimp only; split <;> (constructor <;> first | exact .inl (Mask.bit hm rfl) | exact .inr (by with_reducible rfl))
  · split
    · unfold pinPut; dsimp only; split <;> (constructor <;> first | exact .inl (Mask.bit hm rfl) | exact .inr (by with_reducible rfl))
    · (constructor <;> first | exact .inl (Mask.bit hm rfl) | exact .inr (by with_reducible rfl))

end Sys2Proof.Machine
end

