-- ==== Sys2Proof/Laws/KeptShared.lean ====
section
/-! SUPPORT. What the operations and commands of Ops, Queue, CartMem, Keys, Link, Inhibit, TileOps, SteepleOps, WvnOps keep (see Laws/Kept.lean). -/

set_option linter.unusedTactic false
set_option linter.unreachableTactic false
set_option linter.unusedVariables false

namespace Sys2Proof.Machine

/-! ## Machine/Ops.lean -/

theorem emit_kept {msk : Nat} {s0 : State} (o : Out) {s : State}
    (hm : 0x800000000000000000000000000000000000000000000000000000000000000000000000000000000000000000000000 ||| msk = msk) (hk : Kept msk s0 s) : Kept msk s0 (emit o s) :=
  hk.setOut _ hm

theorem emits_kept {msk : Nat} {s0 : State} (os : List Out) {s : State}
    (hm : 0x800000000000000000000000000000000000000000000000000000000000000000000000000000000000000000000000 ||| msk = msk) (hk : Kept msk s0 s) : Kept msk s0 (emits os s) :=
  hk.setOut _ hm

theorem when_kept {msk : Nat} {s0 : State} (b : Bool) (f : State → State) {s : State} (hf : ∀  t, Kept msk s0 t → Kept msk s0 (f  t))
    (hk : Kept msk s0 s) : Kept msk s0 (when b f s) := by
  unfold when
  try dsimp only
  repeat' first
    | with_reducible assumption | with_reducible apply hf | split | (intro)

theorem draw_kept {msk : Nat} {s0 s : State}
    (hm : 0x1000000000000000000000000000000000000000000000000000000000000000000000000000000000000000000000000 ||| msk = msk) (hk : Kept msk s0 s) : Kept msk s0 (draw s) :=
  hk.setFresh _ hm

theorem advanceTo_kept {msk : Nat} {s0 : State} (t : Nat) {s : State} (hm : 0x20000000000000 ||| msk = msk) (hk : Kept msk s0 s) : Kept msk s0
    (advanceTo t s) := by
  unfold advanceTo
  try dsimp only
  repeat' first
    | with_reducible assumption | with_reducible apply onPower_kept | split | (intro)
    | (constructor <;> first | exact .inl (Mask.bit hm rfl) | exact .inr (by with_reducible rfl))

theorem idleTick_kept {msk : Nat} {s0 : State} {s : State} (hm : 0x60000000000000 ||| msk = msk) (hk : Kept msk s0 s) : Kept msk s0 (idleTick s) := by
  unfold idleTick
  try dsimp only
  repeat' first
    | with_reducible assumption | exact Mask.sub hm rfl | with_reducible apply advanceTo_kept | with_reducible apply onPower_kept | split
    | (intro) | (constructor <;> first | exact .inl (Mask.bit hm rfl) | exact .inr (by with_reducible rfl))

theorem needDomains_kept {msk : Nat} {s0 : State} (lo n : Nat) {s : State} (hm : 0x10000000000000000 ||| msk = msk)
    (hk : Kept msk s0 s) : Kept msk s0 (needDomains lo n s) := by
  unfold needDomains
  try dsimp only
  repeat' first
    | with_reducible assumption | with_reducible apply onPower_kept | split | (intro)
    | (constructor <;> first | exact .inl (Mask.bit hm rfl) | exact .inr (by with_reducible rfl))

theorem onPba_kept {msk : Nat} {s0 : State} (p : Port) (b : PortState → BitVec 257) {s : State} (hm : 0x8000000000000000000000000 ||| msk = msk)
    (hk : Kept msk s0 s) :
    Kept msk s0 (onPort p (fun q => { q with pba := b q }) s) := by
  unfold onPort
  split <;>
  · refine onHost_kept _ ?_ hk
    intro x
    (constructor <;> first | exact .inl (Mask.bit hm rfl) | exact .inr (by with_reducible rfl))

theorem onPort_kept {msk : Nat} {s0 : State} (p : Port) (f : PortState → PortState) {s : State} (hm : 0xE000000000000000000000000 ||| msk = msk)
    (hk : Kept msk s0 s) :
    Kept msk s0 (onPort p f s) := by
  unfold onPort
  split <;>
  · refine onHost_kept _ ?_ hk
    intro x
    (constructor <;> first | exact .inl (Mask.bit hm rfl) | exact .inr (by with_reducible rfl))

theorem msix_kept {msk : Nat} {s0 : State} (p : Port) (v : Nat) {s : State}
    (hm : 0x820000000000000000000000000000000000000000000000000000000000000000000008000000000000000000000000 ||| msk = msk) (hk : Kept msk s0 s) : Kept msk s0 (msix p v s) := by
  unfold msix
  split
  · refine emit_kept _ (Mask.sub hm rfl) (onBlf_kept _ ?_ hk)
    intro x
    (constructor <;> first | exact .inl (Mask.bit hm rfl) | exact .inr (by with_reducible rfl))
  · unfold onPort
    split <;>
    · refine onHost_kept _ ?_ hk
      intro x
      (constructor <;> first | exact .inl (Mask.bit hm rfl) | exact .inr (by with_reducible rfl))

theorem vector256_kept {msk : Nat} {s0 : State} {s : State}
    (hm : 0x820000000000000000000000000000000000000000000000000000000000000000000008000000000000000000000000 ||| msk = msk) (hk : Kept msk s0 s) : Kept msk s0 (vector256 s) := by
  unfold vector256
  try dsimp only
  repeat' first
    | with_reducible assumption | exact Mask.sub hm rfl | with_reducible apply forEach_kept | with_reducible apply msix_kept | split | (intro)

theorem deviceEvent_kept {msk : Nat} {s0 : State} (code : Nat) (data : Bytes) {s : State}
    (hm : 0x820000000000000000000000000000000000000000000000000000000000000000000008400000000000000000000000 ||| msk = msk) (hk : Kept msk s0 s) : Kept msk s0 (deviceEvent code data s) := by
  unfold deviceEvent
  try dsimp only
  repeat' first
    | with_reducible assumption | exact Mask.sub hm rfl | with_reducible apply vector256_kept | with_reducible apply onLantern_kept | split
    | (intro) | (constructor <;> first | exact .inl (Mask.bit hm rfl) | exact .inr (by with_reducible rfl))

theorem offers_kept {msk : Nat} {s0 s : State}
    (hm : 0x800080000000000000000000000000000000000000000000000000000000000000000000000000000000000000000000 ||| msk = msk) (hk : Kept msk s0 s) : Kept msk s0 (offers s) := by
  unfold offers
  refine forEach_kept _ _ ?_ hk
  intro c t ht
  dsimp only
  split
  · exact ht
  · have h1 : ∀ (new : Option Nat) (w : Bool), Kept msk s0 (t.onBlf fun b => { b with cores := b.cores.set c { b.cores[c] with offer := new, withdrawn := w } }) := by
      intro new w
      refine onBlf_kept _ ?_ ht
      intro x
      constructor <;> first | exact .inl (Mask.bit hm rfl) | exact .inr (by with_reducible rfl) | exact .inr (map_set_same _ _ _ _ _ rfl)
    split
    · exact emit_kept _ (Mask.sub hm rfl) (h1 _ _)
    · exact h1 _ _

theorem raise_kept {msk : Nat} {s0 : State} (n : Nat) {s : State}
    (hm : 0x8000A0000000000000000000000000000000000000000000000000000000000000000000000000000000000000000000 ||| msk = msk) (hk : Kept msk s0 s) : Kept msk s0 (raise n s) := by
  unfold raise
  split
  · exact hk
  · refine offers_kept (Mask.sub hm rfl) (onBlf_kept _ ?_ hk)
    intro x
    constructor <;> first | exact .inl (Mask.bit hm rfl) | exact .inr (by with_reducible rfl) | exact .inr (map_updAt_same _ _ _ _ fun _ => rfl)

theorem lanEvent_kept {msk : Nat} {s0 : State} (code cls : Nat) (data : Bytes) {s : State}
    (hm : 0x820000000000000000000000000000000000000000000000000000000000000000000008400000000000000000000000 ||| msk = msk) (hk : Kept msk s0 s) : Kept msk s0 (lanEvent code cls data s) := by
  unfold lanEvent
  try dsimp only
  repeat' first
    | with_reducible assumption | exact Mask.sub hm rfl | with_reducible apply deviceEvent_kept | split | (intro)

theorem lanFire_kept {msk : Nat} {s0 : State} (code : Nat) {s : State}
    (hm : 0x8200A000000000000000000000000000000000000000000000000000000000000000000840F1C0000000000000000000 ||| msk = msk) (hk : Kept msk s0 s) : Kept msk s0 (lanFire code s) := by
  unfold lanFire
  dsimp only
  refine raise_kept _ (Mask.sub hm rfl) (lanEvent_kept _ _ _ (Mask.sub hm rfl) (onLantern_kept _ ?_ hk))
  intro x
  refine (lanPut_agree (m := msk) (lanRec s 0x0091 2 0 (le 2 code)) true x (Mask.sub hm rfl)).trans ?_
  (constructor <;> first | exact .inl (Mask.bit hm rfl) | exact .inr (by with_reducible rfl))

theorem lanWrite_kept {msk : Nat} {s0 : State} (code cls sup : Nat) (data : Bytes) {s : State}
    (hm : 0x8200A000000000000000000000000000000000000000000000000000000000000000000840F1C0000000000000000000 ||| msk = msk) (hk : Kept msk s0 s) :
    Kept msk s0 (lanWrite code cls sup data s) := by
  have h1 : Kept msk s0 (s.onLantern fun l =>
      { lanPut (lanRec s code cls sup data) ((s.lantern.armed && decide (s.lantern.trigCode = code)) || decide (0 < s.lantern.postLeft)) l with postLeft := l.postLeft - 1 }) := by
    refine onLantern_kept _ ?_ hk
    intro x
    refine (lanPut_agree (m := msk) (lanRec s code cls sup data) ((s.lantern.armed && decide (s.lantern.trigCode = code)) || decide (0 < s.lantern.postLeft)) x (Mask.sub hm rfl)).trans ?_
    (constructor <;> first | exact .inl (Mask.bit hm rfl) | exact .inr (by with_reducible rfl))
  unfold lanWrite
  dsimp only
  split
  · exact lanFire_kept _ (Mask.sub hm rfl) (lanEvent_kept _ _ _ (Mask.sub hm rfl) h1)
  · exact lanEvent_kept _ _ _ (Mask.sub hm rfl) h1

theorem lantern_kept {msk : Nat} {s0 : State} (code : Nat) (data : Bytes) {s : State}
    (hm : 0x8200A000000000000000000000000000000000000000000000000000000000000000000857F1C0000000000000000000 ||| msk = msk) (hk : Kept msk s0 s) : Kept msk s0 (lantern code data s) := by
  unfold lantern
  try dsimp only
  repeat' first
    | with_reducible assumption | exact Mask.sub hm rfl | with_reducible apply lanWrite_kept | with_reducible apply onLantern_kept
    | (intro x; dsimp only; split <;> (constructor <;> first | exact .inl (Mask.bit hm rfl) | exact .inr (by with_reducible rfl))) | split
    | (intro) | (constructor <;> first | exact .inl (Mask.bit hm rfl) | exact .inr (by with_reducible rfl))

/-! ## Machine/Queue.lean -/

theorem onQp_kept {msk : Nat} {s0 : State} (q : Nat) (f : QueuePair → QueuePair) {s : State} (hm : 0x1000000000000000000000000000 ||| msk = msk)
    (hk : Kept msk s0 s) : Kept msk s0 (onQp q f s) := by
  unfold onQp
  try dsimp only
  repeat' first
    | with_reducible assumption | with_reducible apply onHost_kept | split | (intro)
    | (constructor <;> first | exact .inl (Mask.bit hm rfl) | exact .inr (by with_reducible rfl))

theorem onCmd_kept {msk : Nat} {s0 : State} (q tag : Nat) (f : Cmd → Cmd) {s : State} (hm : 0x8000000000000000000000000000 ||| msk = msk)
    (hk : Kept msk s0 s) : Kept msk s0 (onCmd q tag f s) := by
  unfold onCmd
  try dsimp only
  repeat' first
    | with_reducible assumption | with_reducible apply onHost_kept | split | (intro)
    | (constructor <;> first | exact .inl (Mask.bit hm rfl) | exact .inr (by with_reducible rfl))

theorem emitWrites_kept {msk : Nat} {s0 : State} (p : Port) (ws : List (Nat × Bytes)) {s : State}
    (hm : 0x800000000000000000000000000000000000000000000000000000000000000000000000000000000000000000000000 ||| msk = msk) (hk : Kept msk s0 s) : Kept msk s0 (emitWrites p ws s) := by
  unfold emitWrites
  try dsimp only
  repeat' first
    | with_reducible assumption | exact Mask.sub hm rfl | with_reducible apply emits_kept | split | (intro)

theorem sendWrites_kept {msk : Nat} {s0 : State} (q tag : Nat) {s : State}
    (hm : 0x800000000000000000000000000000000000000000000000000000000000000000008000000000000000000000000000 ||| msk = msk) (hk : Kept msk s0 s) : Kept msk s0 (sendWrites q tag s) := by
  unfold sendWrites
  try dsimp only
  repeat' first
    | with_reducible assumption | exact Mask.sub hm rfl | with_reducible apply emitWrites_kept | with_reducible apply onCmd_kept | split | (intro)

theorem hostWrites_kept {msk : Nat} {s0 : State} (q tag : Nat) (ws : List (Nat × Bytes)) {s : State}
    (hm : 0x800000000000000000000000000000000000000000000000000000000000000000008000000000000000000000000000 ||| msk = msk) (hk : Kept msk s0 s) : Kept msk s0 (hostWrites q tag ws s) := by
  unfold hostWrites
  try dsimp only
  repeat' first
    | with_reducible assumption | exact Mask.sub hm rfl | with_reducible apply sendWrites_kept | with_reducible apply onCmd_kept | split | (intro)

theorem writeBuffer_kept {msk : Nat} {s0 : State} (q tag off : Nat) (bs : Bytes) {s : State}
    (hm : 0x800000000000000000000000000000000000000000000000000000000000000000008000000000000000000000000000 ||| msk = msk) (hk : Kept msk s0 s) : Kept msk s0 (writeBuffer q tag off bs s) := by
  unfold writeBuffer
  try dsimp only
  repeat' first
    | with_reducible assumption | exact Mask.sub hm rfl | with_reducible apply hostWrites_kept | split | (intro)

theorem zeroOut_kept {msk : Nat} {s0 : State} (q tag : Nat) {s : State}
    (hm : 0x800000000000000000000000000000000000000000000000000000000000000000008000000000000000000000000000 ||| msk = msk) (hk : Kept msk s0 s) : Kept msk s0 (zeroOut q tag s) := by
  unfold zeroOut
  try dsimp only
  repeat' first
    | with_reducible assumption | exact Mask.sub hm rfl | with_reducible apply sendWrites_kept | with_reducible apply onCmd_kept | split | (intro)

theorem deliver_kept {msk : Nat} {s0 : State} (g : Nat) {s : State}
    (hm : 0x820000000000000000000000000000000000000000000000000000000000000000080008000000000000000000000000 ||| msk = msk) (hk : Kept msk s0 s) : Kept msk s0 (deliver g s) := by
  unfold deliver
  try dsimp only
  repeat' first
    | with_reducible assumption | exact Mask.sub hm rfl | with_reducible apply forEach_kept | with_reducible apply msix_kept
    | with_reducible apply onHost_kept | split | (intro)
    | (constructor <;> first | exact .inl (Mask.bit hm rfl) | exact .inr (by with_reducible rfl))

theorem flushGroup_kept {msk : Nat} {s0 : State} (g : Nat) {s : State}
    (hm : 0x860000000000000000000000000000000000000000000000000000000000000000080008000000000000000000000000 ||| msk = msk) (hk : Kept msk s0 s) : Kept msk s0 (flushGroup g s) := by
  unfold flushGroup
  try dsimp only
  repeat' first
    | with_reducible assumption | exact Mask.sub hm rfl | with_reducible apply deliver_kept | with_reducible apply onBlf_kept | split | (intro)
    | (constructor <;> first | exact .inl (Mask.bit hm rfl) | exact .inr (by with_reducible rfl))

theorem flushGroups_kept {msk : Nat} {s0 : State} {s : State}
    (hm : 0x860000000000000000000000000000000000000000000000000000000000000000080008000000000000000000000000 ||| msk = msk) (hk : Kept msk s0 s) : Kept msk s0 (flushGroups s) := by
  unfold flushGroups
  try dsimp only
  repeat' first
    | with_reducible assumption | exact Mask.sub hm rfl | with_reducible apply forEach_kept | with_reducible apply flushGroup_kept | split
    | (intro)

theorem moderate_kept {msk : Nat} {s0 : State} (g v : Nat) (p : Port) {s : State}
    (hm : 0x820000000000000000000000000000000000000000000000000000000000000000080008000000000000000000000000 ||| msk = msk) (hk : Kept msk s0 s) : Kept msk s0 (moderate g v p s) := by
  unfold moderate
  try dsimp only
  repeat' first
    | with_reducible assumption | exact Mask.sub hm rfl | with_reducible apply deliver_kept | with_reducible apply msix_kept
    | with_reducible apply onHost_kept | split | (intro)
    | (constructor <;> first | exact .inl (Mask.bit hm rfl) | exact .inr (by with_reducible rfl))

theorem writeEntry_kept {msk : Nat} {s0 : State} (q : Nat) (x : QueuePair) (p : Port) (c : Completion) {s : State}
    (hm : 0x800000000000000000000000000000000000000000000000000000000000000000001000000000000000000000000000 ||| msk = msk) (hk : Kept msk s0 s) : Kept msk s0 (writeEntry q x p c s) := by
  unfold writeEntry
  try dsimp only
  repeat' first
    | with_reducible assumption | exact Mask.sub hm rfl | with_reducible apply emitWrites_kept | with_reducible apply onQp_kept
    | with_reducible apply emit_kept | split | (intro)

theorem heldMark_kept {msk : Nat} {s0 : State} (x : QueuePair) {s : State}
    (hm : 0x800000000000000000000000000000000000000000000000000000000000000000000008000000000000000000000000 ||| msk = msk) (hk : Kept msk s0 s) : Kept msk s0 (heldMark x s) := by
  unfold heldMark
  try dsimp only
  repeat' first
    | with_reducible assumption | exact Mask.sub hm rfl | with_reducible apply onPba_kept | with_reducible apply emit_kept | split | (intro)

theorem postComp_kept {msk : Nat} {s0 : State} (q : Nat) (c : Completion) {s : State}
    (hm : 0x860000000000000000000000000000000000000000000000000000000000000000081008000000000000000000000000 ||| msk = msk) (hk : Kept msk s0 s) : Kept msk s0 (postComp q c s) := by
  unfold postComp
  try dsimp only
  repeat' first
    | with_reducible assumption | exact Mask.sub hm rfl | with_reducible apply heldMark_kept | with_reducible apply writeEntry_kept
    | with_reducible apply moderate_kept | with_reducible apply flushGroups_kept | with_reducible apply onQp_kept | with_reducible apply msix_kept
    | split | (intro)

theorem flushHeld_kept {msk : Nat} {s0 : State} (q : Nat) {s : State}
    (hm : 0x860000000000000000000000000000000000000000000000000000000000000000081008000000000000000000000000 ||| msk = msk) (hk : Kept msk s0 s) : Kept msk s0 (flushHeld q s) := by
  unfold flushHeld
  try dsimp only
  repeat' first
    | with_reducible assumption | exact Mask.sub hm rfl | with_reducible apply forEach_kept | with_reducible apply postComp_kept
    | with_reducible apply onQp_kept | split | (intro)

theorem tidyOne_kept {msk : Nat} {s0 : State} (q tag : Nat) {s : State}
    (hm : 0x860000000000000000000000000000000000000000000000000000000000000000089008000000000000000000000000 ||| msk = msk) (hk : Kept msk s0 s) : Kept msk s0 (tidyOne q tag s) := by
  unfold tidyOne
  try dsimp only
  repeat' first
    | with_reducible assumption | exact Mask.sub hm rfl | with_reducible apply postComp_kept | with_reducible apply onHost_kept | split | (intro)
    | (constructor <;> first | exact .inl (Mask.bit hm rfl) | exact .inr (by with_reducible rfl))

theorem acceptTail_kept {msk : Nat} {s0 : State} (q tail : Nat) {s : State} (hm : 0x3000000000000000000000000000 ||| msk = msk)
    (hk : Kept msk s0 s) : Kept msk s0 (acceptTail q tail s) := by
  unfold acceptTail
  try dsimp only
  repeat' first
    | with_reducible assumption | exact Mask.sub hm rfl | with_reducible apply onQp_kept | with_reducible apply onHost_kept | split | (intro)
    | (constructor <;> first | exact .inl (Mask.bit hm rfl) | exact .inr (by with_reducible rfl))

theorem repath_kept {msk : Nat} {s0 : State} (q : Nat) {s : State} (hm : 0x1000000000000000000000000000 ||| msk = msk)
    (hk : Kept msk s0 s) : Kept msk s0 (repath q s) := by
  unfold repath
  try dsimp only
  repeat' first
    | with_reducible assumption | exact Mask.sub hm rfl | with_reducible apply onQp_kept | split | (intro)

theorem sweepReset_kept {msk : Nat} {s0 : State} (q st : Nat) {s : State} (hm : 0x1000800000000000000000000000 ||| msk = msk)
    (hk : Kept msk s0 s) : Kept msk s0 (sweepReset q st s) := by
  unfold sweepReset
  try dsimp only
  repeat' first
    | with_reducible assumption | exact Mask.sub hm rfl | with_reducible apply onQp_kept | with_reducible apply onLantern_kept | split | (intro)
    | (constructor <;> first | exact .inl (Mask.bit hm rfl) | exact .inr (by with_reducible rfl))

theorem endWaiters_kept {msk : Nat} {s0 : State} (op q : Nat) {s : State}
    (hm : 0x860000000000000000000000000000000000000000000000000000000000000000089008000000000000000000000000 ||| msk = msk) (hk : Kept msk s0 s) : Kept msk s0 (endWaiters op q s) := by
  unfold endWaiters
  try dsimp only
  repeat' first
    | with_reducible assumption | exact Mask.sub hm rfl | with_reducible apply forEach_kept | with_reducible apply postComp_kept
    | with_reducible apply onHost_kept | split | (intro)
    | (constructor <;> first | exact .inl (Mask.bit hm rfl) | exact .inr (by with_reducible rfl))

theorem endReset_kept {msk : Nat} {s0 : State} (q st : Nat) {s : State}
    (hm : 0x86000000000000000000000000000000000000000000000000000000000000000009B008000000000000000000000000 ||| msk = msk) (hk : Kept msk s0 s) : Kept msk s0 (endReset q st s) := by
  unfold endReset
  try dsimp only
  repeat' first
    | with_reducible assumption | exact Mask.sub hm rfl | with_reducible apply endWaiters_kept | with_reducible apply acceptTail_kept
    | with_reducible apply onQp_kept | with_reducible apply onHost_kept | split | (intro)
    | (constructor <;> first | exact .inl (Mask.bit hm rfl) | exact .inr (by with_reducible rfl))

theorem endFunctionReset_kept {msk : Nat} {s0 : State} {s : State}
    (hm : 0x860000000000000000000000000000000000000000000000000000000000000000089058000000000000000000000000 ||| msk = msk) (hk : Kept msk s0 s) : Kept msk s0 (endFunctionReset s) := by
  unfold endFunctionReset
  try dsimp only
  repeat' first
    | with_reducible assumption | exact Mask.sub hm rfl | with_reducible apply flushGroups_kept | with_reducible apply onHost_kept | split
    | (intro) | (constructor <;> first | exact .inl (Mask.bit hm rfl) | exact .inr (by with_reducible rfl))

theorem resetsPass_kept {msk : Nat} {s0 : State} {s : State}
    (hm : 0x86000000000000000000000000000000000000000000000000000000000000000009B058800000000000000000000000 ||| msk = msk) (hk : Kept msk s0 s) : Kept msk s0 (resetsPass s) := by
  unfold resetsPass
  try dsimp only
  repeat' first
    | with_reducible assumption | exact Mask.sub hm rfl | with_reducible apply forEach_kept | with_reducible apply endFunctionReset_kept
    | with_reducible apply endReset_kept | with_reducible apply sweepReset_kept | split | (intro)

theorem tidy_kept {msk : Nat} {s0 : State} {s : State}
    (hm : 0x86000000000000000000000000000000000000000000000000000000000000000009B058800000000000000000000000 ||| msk = msk) (hk : Kept msk s0 s) : Kept msk s0 (tidy s) := by
  unfold tidy
  try dsimp only
  repeat' first
    | with_reducible assumption | exact Mask.sub hm rfl | with_reducible apply forEach_kept | with_reducible apply resetsPass_kept
    | with_reducible apply tidyOne_kept | split | (intro)

theorem finish_kept {msk : Nat} {s0 : State} (q tag status result : Nat) (objs : Option (Nat × Nat)) {s : State}
    (hm : 0x86000000000000000000000000000000000000000000000000000000000000000009B058800000000000000000000000 ||| msk = msk) (hk : Kept msk s0 s) : Kept msk s0 (finish q tag status result objs s) := by
  unfold finish
  try dsimp only
  repeat' first
    | with_reducible assumption | exact Mask.sub hm rfl | with_reducible apply tidy_kept | with_reducible apply onCmd_kept | split | (intro)

theorem reply_kept {msk : Nat} {s0 : State} (q tag status result : Nat) {s : State}
    (hm : 0x86000000000000000000000000000000000000000000000000000000000000000009B058800000000000000000000000 ||| msk = msk) (hk : Kept msk s0 s) : Kept msk s0 (reply q tag status result s) := by
  unfold reply
  try dsimp only
  repeat' first
    | with_reducible assumption | exact Mask.sub hm rfl | with_reducible apply finish_kept | split | (intro)

theorem meetOutcome_kept {msk : Nat} {s0 : State} (q tag status : Nat) {s : State} (hm : 0x8000000000000000000000000000 ||| msk = msk)
    (hk : Kept msk s0 s) : Kept msk s0 (meetOutcome q tag status s) := by
  unfold meetOutcome
  try dsimp only
  repeat' first
    | with_reducible assumption | exact Mask.sub hm rfl | with_reducible apply onCmd_kept | split | (intro)

/-! ## Machine/CartMem.lean -/

theorem onLink_kept {msk : Nat} {s0 : State} (f : CmLink → CmLink) {s : State} (hm : 0x200000000000000000000000000000000000000 ||| msk = msk)
    (hk : Kept msk s0 s) : Kept msk s0 (onLink f s) := by
  unfold onLink
  try dsimp only
  repeat' first
    | with_reducible assumption | with_reducible apply onDrive_kept | exact fun _ => id | exact fun d hd => cartWf_map _ (fun _ => id) d _ _ hd
    | exact fun d hd => cartWf_map _ (fun _ => Memory.wf_writeBytes _ _) d _ _ hd | (intro _ _ _ hc; cases hc; done) | split | (intro)
    | (constructor <;> first | exact .inl (Mask.bit hm rfl) | exact .inr (by with_reducible rfl))

theorem cmIssue_kept {msk : Nat} {s0 : State} {s : State}
    (hm : 0x800000000000000000000000000000000000000000000000000000000200000000000000000000000000000000000000 ||| msk = msk) (hk : Kept msk s0 s) : Kept msk s0 (cmIssue s) := by
  unfold cmIssue
  try dsimp only
  repeat' first
    | with_reducible assumption | exact Mask.sub hm rfl | with_reducible apply onLink_kept | with_reducible apply emits_kept | split | (intro)

theorem cmQueue_kept {msk : Nat} {s0 : State} (rs : List CmReq) {s : State}
    (hm : 0x800000000000000000000000000000000000000000000000000000000200000000000000000000000000000000000000 ||| msk = msk) (hk : Kept msk s0 s) : Kept msk s0 (cmQueue rs s) := by
  unfold cmQueue
  try dsimp only
  repeat' first
    | with_reducible assumption | exact Mask.sub hm rfl | with_reducible apply cmIssue_kept | with_reducible apply onLink_kept | split | (intro)

theorem cmGroup_kept {msk : Nat} {s0 : State} (rs : List CmReq) (m : CmMark) {s : State}
    (hm : 0x800000000000000000000000000000000000000000000000000000000200000000000000000000000000000000000000 ||| msk = msk) (hk : Kept msk s0 s) : Kept msk s0 (cmGroup rs m s) := by
  unfold cmGroup
  try dsimp only
  repeat' first
    | with_reducible assumption | exact Mask.sub hm rfl | with_reducible apply cmQueue_kept | with_reducible apply onLink_kept | split | (intro)

theorem cmClose_kept {msk : Nat} {s0 : State} {s : State}
    (hm : 0x800000000000000000000000000000000000000000000000000000000200000000000000000000000000000000000000 ||| msk = msk) (hk : Kept msk s0 s) : Kept msk s0 (cmClose s) := by
  unfold cmClose
  try dsimp only
  repeat' first
    | with_reducible assumption | exact Mask.sub hm rfl | with_reducible apply cmQueue_kept | with_reducible apply onLink_kept | split | (intro)

theorem setCmInfo_kept {msk : Nat} {s0 : State} (kib set : Nat) {s : State} (hm : 0x80000000000000000000000000000000000000 ||| msk = msk)
    (hk : Kept msk s0 s) : Kept msk s0 (setCmInfo kib set s) := by
  unfold setCmInfo
  refine onDrive_kept _ (fun d hd => cartWf_map (fun c => { c with cmKiB := kib, cmSet := set }) (fun _ => id) d d.vol d.link hd) ?_ hk
  intro x
  (constructor <;> first | exact .inl (Mask.bit hm rfl) | exact .inr (by with_reducible rfl))

theorem storeCm_kept {msk : Nat} {s0 : State} (a : Nat) (bs : Bytes) {s : State} (hm : 0x80000000000000000000000000000000000000 ||| msk = msk)
    (hk : Kept msk s0 s) : Kept msk s0 (storeCm a bs s) := by
  unfold storeCm
  try dsimp only
  repeat' first
    | with_reducible assumption | with_reducible apply onDrive_kept | exact fun _ => id | exact fun d hd => cartWf_map _ (fun _ => id) d _ _ hd
    | exact fun d hd => cartWf_map _ (fun _ => Memory.wf_writeBytes _ _) d _ _ hd | (intro _ _ _ hc; cases hc; done) | split | (intro)
    | (constructor <;> first | exact .inl (Mask.bit hm rfl) | exact .inr (by with_reducible rfl))

theorem onVol_kept {msk : Nat} {s0 : State} (f : Volume → Volume) {s : State} (hm : 0x100000000000000000000000000000000000000 ||| msk = msk)
    (hk : Kept msk s0 s) : Kept msk s0 (onVol f s) := by
  unfold onVol
  try dsimp only
  repeat' first
    | with_reducible assumption | with_reducible apply onDrive_kept | exact fun _ => id | exact fun d hd => cartWf_map _ (fun _ => id) d _ _ hd
    | exact fun d hd => cartWf_map _ (fun _ => Memory.wf_writeBytes _ _) d _ _ hd | (intro _ _ _ hc; cases hc; done) | split | (intro)
    | (constructor <;> first | exact .inl (Mask.bit hm rfl) | exact .inr (by with_reducible rfl))

theorem onPart_kept {msk : Nat} {s0 : State} (p : Nat) (f : Part → Part) {s : State} (hm : 0x100000000000000000000000000000000000000 ||| msk = msk)
    (hk : Kept msk s0 s) : Kept msk s0 (onPart p f s) := by
  unfold onPart
  try dsimp only
  repeat' first
    | with_reducible assumption | exact Mask.sub hm rfl | with_reducible apply onVol_kept | split | (intro)

theorem writeHeader_kept {msk : Nat} {s0 : State} (dirty : Bool) {s : State}
    (hm : 0x800000000000000000000000000000000000000000000000000000000300000000000000000000000000000000000000 ||| msk = msk) (hk : Kept msk s0 s) : Kept msk s0 (writeHeader dirty s) := by
  unfold writeHeader
  try dsimp only
  repeat' first
    | with_reducible assumption | exact Mask.sub hm rfl | with_reducible apply onVol_kept | with_reducible apply cmGroup_kept | split | (intro)

theorem writeWraps_kept {msk : Nat} {s0 : State} {s : State}
    (hm : 0x800000000000000000000000000000000000000000000000000000000200000000000000000000000000000000000000 ||| msk = msk) (hk : Kept msk s0 s) : Kept msk s0 (writeWraps s) := by
  unfold writeWraps
  try dsimp only
  repeat' first
    | with_reducible assumption | exact Mask.sub hm rfl | with_reducible apply cmGroup_kept | split | (intro)

theorem writeIndex_kept {msk : Nat} {s0 : State} (w part : Nat) {s : State}
    (hm : 0x800000000000000000000000000000000000000000000000000000000200000000000000000000000000000000000000 ||| msk = msk) (hk : Kept msk s0 s) : Kept msk s0 (writeIndex w part s) := by
  unfold writeIndex
  try dsimp only
  repeat' first
    | with_reducible assumption | exact Mask.sub hm rfl | with_reducible apply cmGroup_kept | split | (intro)

theorem writeUsage_kept {msk : Nat} {s0 : State} {s : State}
    (hm : 0x1800000000000000000000000000000000000000000000000000000000200000000000000000000000000000000000000 ||| msk = msk) (hk : Kept msk s0 s) : Kept msk s0 (writeUsage s) := by
  unfold writeUsage
  try dsimp only
  repeat' first
    | with_reducible assumption | exact Mask.sub hm rfl | with_reducible apply cmGroup_kept | with_reducible apply draw_kept | split | (intro)

theorem onWrap_kept {msk : Nat} {s0 : State} (w : Nat) (f : Nat × Nat × Nat × Nat × Nat × Nat → Nat × Nat × Nat × Nat × Nat × Nat) {s : State}
    (hm : 0x100000000000000000000000000000000000000 ||| msk = msk) (hk : Kept msk s0 s) : Kept msk s0 (onWrap w f s) := by
  unfold onWrap
  try dsimp only
  repeat' first
    | with_reducible assumption | exact Mask.sub hm rfl | with_reducible apply onVol_kept | split | (intro)

theorem clearIndex_kept {msk : Nat} {s0 : State} (w slot : Nat) {s : State} (hm : 0x100000000000000000000000000000000000000 ||| msk = msk)
    (hk : Kept msk s0 s) : Kept msk s0 (clearIndex w slot s) := by
  unfold clearIndex
  try dsimp only
  repeat' first
    | with_reducible assumption | exact Mask.sub hm rfl | with_reducible apply onVol_kept | split | (intro)

theorem noteIndex_kept {msk : Nat} {s0 : State} (w slot n lon : Nat) {s : State} (hm : 0x100000000000000000000000000000000000000 ||| msk = msk)
    (hk : Kept msk s0 s) : Kept msk s0 (noteIndex w slot n lon s) := by
  unfold noteIndex
  try dsimp only
  repeat' first
    | with_reducible assumption | exact Mask.sub hm rfl | with_reducible apply onVol_kept | split | (intro)

theorem openSession_kept {msk : Nat} {s0 : State} {s : State}
    (hm : 0x1800000000000000000000000000000000000000000000000000000000300000000000000000000000000000000000000 ||| msk = msk) (hk : Kept msk s0 s) : Kept msk s0 (openSession s) := by
  unfold openSession
  try dsimp only
  repeat' first
    | with_reducible assumption | exact Mask.sub hm rfl | with_reducible apply writeHeader_kept | with_reducible apply onVol_kept
    | with_reducible apply draw_kept | split | (intro)

theorem retryMemory_kept {msk : Nat} {s0 : State} {s : State}
    (hm : 0x1800000000000000000000000000000000000000000000000000000000300000000000000000000000000000000000000 ||| msk = msk) (hk : Kept msk s0 s) : Kept msk s0 (retryMemory s) := by
  unfold retryMemory
  try dsimp only
  repeat' first
    | with_reducible assumption | exact Mask.sub hm rfl | with_reducible apply openSession_kept | split | (intro)

theorem payOwed_kept {msk : Nat} {s0 : State} {s : State}
    (hm : 0x1800000000000000000000000000000000000000000000000000000000300000000000000000000000000000000000000 ||| msk = msk) (hk : Kept msk s0 s) : Kept msk s0 (payOwed s) := by
  unfold payOwed
  try dsimp only
  repeat' first
    | with_reducible assumption | exact Mask.sub hm rfl | with_reducible apply forEach_kept | with_reducible apply writeUsage_kept
    | with_reducible apply writeIndex_kept | with_reducible apply writeWraps_kept | with_reducible apply writeHeader_kept
    | with_reducible apply onLink_kept | split | (intro)

theorem openWrap_kept {msk : Nat} {s0 : State} (w slot part n lon : Nat) {s : State}
    (hm : 0x1800000000000000000000000000000000000000000000000000000000300000000000000000000000000000000000000 ||| msk = msk) (hk : Kept msk s0 s) : Kept msk s0 (openWrap w slot part n lon s) := by
  unfold openWrap
  try dsimp only
  repeat' first
    | with_reducible assumption | exact Mask.sub hm rfl | with_reducible apply payOwed_kept | with_reducible apply clearIndex_kept
    | with_reducible apply onWrap_kept | with_reducible apply writeWraps_kept | with_reducible apply writeHeader_kept
    | with_reducible apply onWr_kept | split | (intro)
    | (constructor <;> first | exact .inl (Mask.bit hm rfl) | exact .inr (by with_reducible rfl))

theorem closeWrap_kept {msk : Nat} {s0 : State} (w part lastSlot : Nat) {s : State}
    (hm : 0x1800000000000000000000000000000000000000000000000000000000300000000000000000000000000000000000000 ||| msk = msk) (hk : Kept msk s0 s) : Kept msk s0 (closeWrap w part lastSlot s) := by
  unfold closeWrap
  try dsimp only
  repeat' first
    | with_reducible assumption | exact Mask.sub hm rfl | with_reducible apply payOwed_kept | with_reducible apply onWrap_kept
    | with_reducible apply writeIndex_kept | with_reducible apply writeWraps_kept | with_reducible apply onWr_kept | split | (intro)
    | (constructor <;> first | exact .inl (Mask.bit hm rfl) | exact .inr (by with_reducible rfl))

theorem closeSession_kept {msk : Nat} {s0 : State} {s : State}
    (hm : 0x1800000000000000000000000000000000000000000000000000000000300000000000000000000000000000000000000 ||| msk = msk) (hk : Kept msk s0 s) : Kept msk s0 (closeSession s) := by
  unfold closeSession
  try dsimp only
  repeat' first
    | with_reducible assumption | exact Mask.sub hm rfl | with_reducible apply forEach_kept | with_reducible apply payOwed_kept
    | with_reducible apply onWrap_kept | with_reducible apply writeIndex_kept | with_reducible apply writeWraps_kept
    | with_reducible apply writeHeader_kept | with_reducible apply onWr_kept | split | (intro)
    | (constructor <;> first | exact .inl (Mask.bit hm rfl) | exact .inr (by with_reducible rfl))

theorem cmDone_kept {msk : Nat} {s0 : State} (ok : Bool) (m : CmMark) {s : State}
    (hm : 0x800000000000000000000000000000000000000000000000000000000300000000008000000000000000000000000000 ||| msk = msk) (hk : Kept msk s0 s) : Kept msk s0 (cmDone ok m s) := by
  unfold cmDone
  try dsimp only
  repeat' first
    | with_reducible assumption | exact Mask.sub hm rfl | with_reducible apply writeHeader_kept | with_reducible apply onVol_kept
    | with_reducible apply onLink_kept | with_reducible apply onCmd_kept | split | (intro)

theorem cmGoOn_kept {msk : Nat} {s0 : State} (rest : List CmReq) {s : State}
    (hm : 0x800000000000000000000000000000000000000000000000000000000300000000008000000000000000000000000000 ||| msk = msk) (hk : Kept msk s0 s) : Kept msk s0 (cmGoOn rest s) := by
  unfold cmGoOn
  try dsimp only
  repeat' first
    | with_reducible assumption | exact Mask.sub hm rfl | with_reducible apply forEach_kept | with_reducible apply cmDone_kept
    | with_reducible apply cmIssue_kept | with_reducible apply onLink_kept | split | (intro)

theorem cmNext_kept {msk : Nat} {s0 : State} (first : List CmReq) {s : State}
    (hm : 0x800000000000000000000000000000000000000000000000000000000300000000008000000000000000000000000000 ||| msk = msk) (hk : Kept msk s0 s) : Kept msk s0 (cmNext first s) := by
  unfold cmNext
  try dsimp only
  repeat' first
    | with_reducible assumption | exact Mask.sub hm rfl | with_reducible apply cmGoOn_kept | split | (intro)

theorem cmFail_kept {msk : Nat} {s0 : State} {s : State}
    (hm : 0x800000000000000000000000000000000000000000000000000000000300000000008000000000000000000000000000 ||| msk = msk) (hk : Kept msk s0 s) : Kept msk s0 (cmFail s) := by
  unfold cmFail
  try dsimp only
  repeat' first
    | with_reducible assumption | exact Mask.sub hm rfl | with_reducible apply cmGoOn_kept | with_reducible apply onLink_kept | split | (intro)

theorem cmRetry_kept {msk : Nat} {s0 : State} {s : State}
    (hm : 0x800000000000000000000000000000000000000000000000000000000300000000008000000000000000000000000000 ||| msk = msk) (hk : Kept msk s0 s) : Kept msk s0 (cmRetry s) := by
  unfold cmRetry
  try dsimp only
  repeat' first
    | with_reducible assumption | exact Mask.sub hm rfl | with_reducible apply cmFail_kept | with_reducible apply onLink_kept
    | with_reducible apply emits_kept | split | (intro)

theorem cmAccept_kept {msk : Nat} {s0 : State} (job : CmJob) (reply : Bytes) {s : State}
    (hm : 0x86000000000000000000000000000000000000000000000000000000038000000009B058800000000000000000000000 ||| msk = msk) (hk : Kept msk s0 s) : Kept msk s0 (cmAccept job reply s) := by
  unfold cmAccept
  try dsimp only
  repeat' first
    | with_reducible assumption | exact Mask.sub hm rfl | with_reducible apply cmRetry_kept | with_reducible apply cmFail_kept
    | with_reducible apply cmNext_kept | with_reducible apply storeCm_kept | with_reducible apply setCmInfo_kept
    | with_reducible apply onLink_kept | with_reducible apply reply_kept | split | (intro)

theorem cmTake_kept {msk : Nat} {s0 : State} (bytes : Bytes) {s : State}
    (hm : 0x86000000000000000000000000000000000000000000000000000000038000000009B058800000000000000000000000 ||| msk = msk) (hk : Kept msk s0 s) : Kept msk s0 (cmTake bytes s) := by
  unfold cmTake
  try dsimp only
  repeat' first
    | with_reducible assumption | exact Mask.sub hm rfl | with_reducible apply cmAccept_kept | with_reducible apply cmRetry_kept
    | with_reducible apply cmNext_kept | with_reducible apply onLink_kept | split | (intro)

/-! ## Machine/Keys.lean -/

theorem onSlot_kept {msk : Nat} {s0 : State} (i : Nat) (f : KeySlot → KeySlot) {s : State} (hm : 0x2000000000000000000000000000000 ||| msk = msk)
    (hk : Kept msk s0 s) : Kept msk s0 (onSlot i f s) := by
  unfold onSlot
  try dsimp only
  repeat' first
    | with_reducible assumption | with_reducible apply onKeep_kept | split | (intro)
    | (constructor <;> first | exact .inl (Mask.bit hm rfl) | exact .inr (by with_reducible rfl))

theorem onGen_kept {msk : Nat} {s0 : State} (i num : Nat) (f : Gen → Gen) {s : State} (hm : 0x2000000000000000000000000000000 ||| msk = msk)
    (hk : Kept msk s0 s) : Kept msk s0 (onGen i num f s) := by
  unfold onGen
  try dsimp only
  repeat' first
    | with_reducible assumption | exact Mask.sub hm rfl | with_reducible apply onSlot_kept | split | (intro)

theorem bindGen_kept {msk : Nat} {s0 : State} (i num : Nat) {s : State} (hm : 0x2000000000000000000000000000000 ||| msk = msk)
    (hk : Kept msk s0 s) : Kept msk s0 (bindGen i num s) := by
  unfold bindGen
  try dsimp only
  repeat' first
    | with_reducible assumption | exact Mask.sub hm rfl | with_reducible apply onGen_kept | split | (intro)

theorem dropShadow_kept {msk : Nat} {s0 : State} (i : Nat) {s : State} (hm : 0x2000000000000000000000000000000 ||| msk = msk)
    (hk : Kept msk s0 s) : Kept msk s0 (dropShadow i s) := by
  unfold dropShadow
  try dsimp only
  repeat' first
    | with_reducible assumption | exact Mask.sub hm rfl | with_reducible apply onSlot_kept | split | (intro)

theorem unbindGen_kept {msk : Nat} {s0 : State} (i num reserved : Nat) {s : State} (hm : 0x2000000000000000000000000000000 ||| msk = msk)
    (hk : Kept msk s0 s) : Kept msk s0 (unbindGen i num reserved s) := by
  unfold unbindGen
  try dsimp only
  repeat' first
    | with_reducible assumption | exact Mask.sub hm rfl | with_reducible apply dropShadow_kept | with_reducible apply onGen_kept | split | (intro)

theorem useGen_kept {msk : Nat} {s0 : State} (i num : Nat) (fromReserve : Bool) {s : State} (hm : 0x2000000000000000000000000000000 ||| msk = msk)
    (hk : Kept msk s0 s) : Kept msk s0 (useGen i num fromReserve s) := by
  unfold useGen
  try dsimp only
  repeat' first
    | with_reducible assumption | exact Mask.sub hm rfl | with_reducible apply onGen_kept | split | (intro)

theorem countInv_kept {msk : Nat} {s0 : State} {s : State} (hm : 0x8000000000000000000000000000000000 ||| msk = msk)
    (hk : Kept msk s0 s) : Kept msk s0 (countInv s) := by
  unfold countInv
  try dsimp only
  repeat' first
    | with_reducible assumption | with_reducible apply onCupola_kept | split | (intro)
    | (constructor <;> first | exact .inl (Mask.bit hm rfl) | exact .inr (by with_reducible rfl))

theorem holdDerived_kept {msk : Nat} {s0 : State} (i num cipher : Nat) {s : State} (hm : 0x2000000000000000000000000000000 ||| msk = msk)
    (hk : Kept msk s0 s) : Kept msk s0 (holdDerived i num cipher s) := by
  unfold holdDerived
  try dsimp only
  repeat' first
    | with_reducible assumption | exact Mask.sub hm rfl | with_reducible apply onGen_kept | split | (intro)

theorem discardPlain_kept {msk : Nat} {s0 : State} (i : Nat) {s : State}
    (hm : 0xD0000000000000000000000000000000000000000000000000000000000000000 ||| msk = msk) (hk : Kept msk s0 s) : Kept msk s0 (discardPlain i s) := by
  unfold discardPlain
  try dsimp only
  repeat' first
    | with_reducible assumption | with_reducible apply onRd_kept | split | (intro)
    | (constructor <;> first | exact .inl (Mask.bit hm rfl) | exact .inr (by with_reducible rfl))

theorem installGen_kept {msk : Nat} {s0 : State} (i : Nat) (g : Gen) {s : State}
    (hm : 0xD0000000000000000000000000000000002000000000000000000000000000000 ||| msk = msk) (hk : Kept msk s0 s) : Kept msk s0 (installGen i g s) := by
  unfold installGen
  try dsimp only
  repeat' first
    | with_reducible assumption | exact Mask.sub hm rfl | with_reducible apply discardPlain_kept | with_reducible apply onSlot_kept | split
    | (intro)

theorem dropCtx_kept {msk : Nat} {s0 : State} (h : Nat) {s : State} (hm : 0x6100000000000000000000000000000000 ||| msk = msk)
    (hk : Kept msk s0 s) : Kept msk s0 (dropCtx h s) := by
  unfold dropCtx
  try dsimp only
  repeat' first
    | with_reducible assumption | with_reducible apply onKeep_kept | with_reducible apply onCupola_kept | split | (intro)
    | (constructor <;> first | exact .inl (Mask.bit hm rfl) | exact .inr (by with_reducible rfl))

theorem spill_kept {msk : Nat} {s0 : State} {s : State} (hm : 0x6180000000000000000000000000000000 ||| msk = msk) (hk : Kept msk s0 s) : Kept msk s0
    (spill s) := by
  unfold spill
  try dsimp only
  repeat' first
    | with_reducible assumption | with_reducible apply onKeep_kept | with_reducible apply onCupola_kept | split | (intro)
    | (constructor <;> first | exact .inl (Mask.bit hm rfl) | exact .inr (by with_reducible rfl))

theorem putCtx_kept {msk : Nat} {s0 : State} (x : CryptCtx) {s : State} (hm : 0x6180000000000000000000000000000000 ||| msk = msk)
    (hk : Kept msk s0 s) : Kept msk s0 (putCtx x s) := by
  unfold putCtx
  try dsimp only
  repeat' first
    | with_reducible assumption | exact Mask.sub hm rfl | with_reducible apply spill_kept | with_reducible apply dropCtx_kept
    | with_reducible apply onCupola_kept | split | (intro)
    | (constructor <;> first | exact .inl (Mask.bit hm rfl) | exact .inr (by with_reducible rfl))

theorem closeHandle_kept {msk : Nat} {s0 : State} (h : Nat) {s : State}
    (hm : 0x800000000000000000000000000000000000000000000000000000000000006100000000000000000000000000000000 ||| msk = msk) (hk : Kept msk s0 s) : Kept msk s0 (closeHandle h s) := by
  unfold closeHandle
  try dsimp only
  repeat' first
    | with_reducible assumption | exact Mask.sub hm rfl | with_reducible apply dropCtx_kept | with_reducible apply emitWrites_kept | split
    | (intro)

theorem closeQueueHandles_kept {msk : Nat} {s0 : State} (q : Nat) {s : State}
    (hm : 0x800000000000000000000000000000000000000000000000000000000000006100000000000000000000000000000000 ||| msk = msk) (hk : Kept msk s0 s) : Kept msk s0 (closeQueueHandles q s) := by
  unfold closeQueueHandles
  try dsimp only
  repeat' first
    | with_reducible assumption | exact Mask.sub hm rfl | with_reducible apply forEach_kept | with_reducible apply closeHandle_kept | split
    | (intro)

theorem closeSlotHandles_kept {msk : Nat} {s0 : State} (i : Nat) {s : State}
    (hm : 0x800000000000000000000000000000000000000000000000000000000000006100000000000000000000000000000000 ||| msk = msk) (hk : Kept msk s0 s) : Kept msk s0 (closeSlotHandles i s) := by
  unfold closeSlotHandles
  try dsimp only
  repeat' first
    | with_reducible assumption | exact Mask.sub hm rfl | with_reducible apply forEach_kept | with_reducible apply closeHandle_kept | split
    | (intro)

/-! ## Machine/Link.lean -/

theorem onGroup_kept {msk : Nat} {s0 : State} (g : Nat) (f : Group → Group) {s : State}
    (hm : 0x200000000000000000000000000000000000000000000000000000000000000000000000000000000000000000 ||| msk = msk) (hk : Kept msk s0 s) : Kept msk s0 (onGroup g f s) := by
  unfold onGroup
  try dsimp only
  repeat' first
    | with_reducible assumption | with_reducible apply onHlk_kept | split | (intro)
    | (constructor <;> first | exact .inl (Mask.bit hm rfl) | exact .inr (by with_reducible rfl))

theorem hlSend_kept {msk : Nat} {s0 : State} (g : Fin 8) (lane type fields : Nat) (payload : List (BitVec 64)) {s : State}
    (hm : 0x800000200000000000000000000000000000000000000000000000000000000000000000000000000000000000000000 ||| msk = msk) (hk : Kept msk s0 s) : Kept msk s0 (hlSend g lane type fields payload s) := by
  unfold hlSend
  try dsimp only
  repeat' first
    | with_reducible assumption | exact Mask.sub hm rfl | with_reducible apply onGroup_kept | with_reducible apply emit_kept | split | (intro)

theorem hlCommand_kept {msk : Nat} {s0 : State} (g : Fin 8) (cmd apply : Nat) (payload : Nat) {s : State}
    (hm : 0x800000200000000000000000000000000000000000000000000000000000000000000000000000000000000000000000 ||| msk = msk) (hk : Kept msk s0 s) : Kept msk s0 (hlCommand g cmd apply payload s) := by
  unfold hlCommand
  try dsimp only
  repeat' first
    | with_reducible assumption | exact Mask.sub hm rfl | with_reducible apply hlSend_kept | with_reducible apply onGroup_kept | split | (intro)

theorem permitToken_kept {msk : Nat} {s0 : State} (g : Fin 8) {s : State}
    (hm : 0x800000200000000000000000000000000000000000000000000000000000000000000000000000000000000000000000 ||| msk = msk) (hk : Kept msk s0 s) : Kept msk s0 (permitToken g s) := by
  unfold permitToken
  try dsimp only
  repeat' first
    | with_reducible assumption | exact Mask.sub hm rfl | with_reducible apply forEach_kept | with_reducible apply hlSend_kept
    | with_reducible apply onGroup_kept | split | (intro)

theorem haltToken_kept {msk : Nat} {s0 : State} (g : Fin 8) {s : State}
    (hm : 0x800000200000000000000000000000000000000000000000000000000000000000000000000000000000000000000000 ||| msk = msk) (hk : Kept msk s0 s) : Kept msk s0 (haltToken g s) := by
  unfold haltToken
  try dsimp only
  repeat' first
    | with_reducible assumption | exact Mask.sub hm rfl | with_reducible apply forEach_kept | with_reducible apply hlSend_kept | split | (intro)

/-! ## Machine/Inhibit.lean -/

theorem onSet_kept {msk : Nat} {s0 : State} (id : Nat) (f : DataSet → DataSet) {s : State}
    (hm : 0x400000000000000000000000000000000000000 ||| msk = msk) (hk : Kept msk s0 s) : Kept msk s0 (onSet id f s) := by
  unfold onSet
  try dsimp only
  repeat' first
    | with_reducible assumption | with_reducible apply onWr_kept | split | (intro)
    | (constructor <;> first | exact .inl (Mask.bit hm rfl) | exact .inr (by with_reducible rfl))

theorem needRewrite_kept {msk : Nat} {s0 : State} (id : Nat) {s : State} (hm : 0x2000000000000000000000000000000000000000000 ||| msk = msk)
    (hk : Kept msk s0 s) : Kept msk s0 (needRewrite id s) := by
  unfold needRewrite
  try dsimp only
  repeat' first
    | with_reducible assumption | with_reducible apply onWr_kept | split | (intro)
    | (constructor <;> first | exact .inl (Mask.bit hm rfl) | exact .inr (by with_reducible rfl))

theorem onTape_kept {msk : Nat} {s0 : State} (f : List TapeSlot → List TapeSlot) {s : State}
    (hm : 0x80000000000000000000000000000000000000 ||| msk = msk) (h : Kept msk s0 s) : Kept msk s0 (onTape f s) := by
  unfold onTape
  refine onDrive_kept _ (fun d hd => cartWf_map (fun c => { c with slots := f c.slots }) (fun _ => id) d d.vol d.link hd) ?_ h
  intro x
  (constructor <;> first | exact .inl (Mask.bit hm rfl) | exact .inr (by with_reducible rfl))

theorem lostAfterRelease_kept {msk : Nat} {s0 : State} (c : Commit) {s : State}
    (hm : 0x8200A000000000000000000000000000000000000000000000000000000000000000000957F1C0000000000000000000 ||| msk = msk) (hk : Kept msk s0 s) : Kept msk s0 (lostAfterRelease c s) := by
  unfold lostAfterRelease
  try dsimp only
  repeat' first
    | with_reducible assumption | exact Mask.sub hm rfl | with_reducible apply lantern_kept | with_reducible apply onLantern_kept | split
    | (intro) | (constructor <;> first | exact .inl (Mask.bit hm rfl) | exact .inr (by with_reducible rfl))

theorem hitCommit_kept {msk : Nat} {s0 : State} (c : Commit) {s : State}
    (hm : 0x8200A000000000000000000000000000000000000000000000000200000000000000000957F1C0000000000000000000 ||| msk = msk) (hk : Kept msk s0 s) : Kept msk s0 (hitCommit c s) := by
  unfold hitCommit
  try dsimp only
  repeat' first
    | with_reducible assumption | exact Mask.sub hm rfl | with_reducible apply lostAfterRelease_kept | with_reducible apply needRewrite_kept
    | split | (intro)

theorem cutCommits_kept {msk : Nat} {s0 : State} {s : State}
    (hm : 0x8200A000000000000000000000000000001802000000000000040AA0048000000000000957F1C0000000000000000000 ||| msk = msk) (hk : Kept msk s0 s) : Kept msk s0 (cutCommits s) := by
  unfold cutCommits
  try dsimp only
  repeat' first
    | with_reducible assumption | exact Mask.sub hm rfl | with_reducible apply forEach_kept | with_reducible apply hitCommit_kept
    | with_reducible apply onTape_kept | with_reducible apply onSet_kept | with_reducible apply onWr_kept | with_reducible apply onEcc_kept
    | with_reducible apply onTiles_kept | split | (intro)
    | (constructor <;> first | exact .inl (Mask.bit hm rfl) | exact .inr (by with_reducible rfl))

theorem stopTokens_kept {msk : Nat} {s0 : State} {s : State}
    (hm : 0x8200A020000000000000000000000000001802000000000000041AA0048000000000000957F1C0000000000000000000 ||| msk = msk) (hk : Kept msk s0 s) : Kept msk s0 (stopTokens s) := by
  unfold stopTokens
  try dsimp only
  repeat' first
    | with_reducible assumption | exact Mask.sub hm rfl | with_reducible apply forEach_kept | with_reducible apply cutCommits_kept
    | with_reducible apply haltToken_kept | with_reducible apply onWr_kept | split | (intro)
    | (constructor <;> first | exact .inl (Mask.bit hm rfl) | exact .inr (by with_reducible rfl))

theorem inhibitOn_kept {msk : Nat} {s0 : State} (src : InhibitSource) {s : State}
    (hm : 0x8200A020000000000000000000000000001806000000000000067AA0048000000000000957F1C0000000000000000000 ||| msk = msk) (hk : Kept msk s0 s) : Kept msk s0 (inhibitOn src s) := by
  unfold inhibitOn
  try dsimp only
  repeat' first
    | with_reducible assumption | exact Mask.sub hm rfl | with_reducible apply stopTokens_kept | with_reducible apply lantern_kept
    | with_reducible apply onWr_kept | with_reducible apply onEcc_kept | split | (intro)
    | (constructor <;> first | exact .inl (Mask.bit hm rfl) | exact .inr (by with_reducible rfl))

theorem inhibitOff_kept {msk : Nat} {s0 : State} (src : InhibitSource) {s : State}
    (hm : 0x140000000000000000000000000000000000000000000 ||| msk = msk) (hk : Kept msk s0 s) : Kept msk s0 (inhibitOff src s) := by
  unfold inhibitOff
  try dsimp only
  repeat' first
    | with_reducible assumption | with_reducible apply onWr_kept | split | (intro)
    | (constructor <;> first | exact .inl (Mask.bit hm rfl) | exact .inr (by with_reducible rfl))

theorem inhibitIf_kept {msk : Nat} {s0 : State} (src : InhibitSource) (b : Bool) {s : State}
    (hm : 0x8200A020000000000000000000000000001806000000000000077AA0048000000000000957F1C0000000000000000000 ||| msk = msk) (hk : Kept msk s0 s) : Kept msk s0 (inhibitIf src b s) := by
  unfold inhibitIf
  try dsimp only
  repeat' first
    | with_reducible assumption | exact Mask.sub hm rfl | with_reducible apply inhibitOff_kept | with_reducible apply inhibitOn_kept | split
    | (intro)

theorem resumeTokens_kept {msk : Nat} {s0 : State} {s : State}
    (hm : 0x800000200000000000000000000000000000000000000000000130100000000000000000000000000000000000000000 ||| msk = msk) (hk : Kept msk s0 s) : Kept msk s0 (resumeTokens s) := by
  unfold resumeTokens
  try dsimp only
  repeat' first
    | with_reducible assumption | exact Mask.sub hm rfl | with_reducible apply forEach_kept | with_reducible apply permitToken_kept
    | with_reducible apply onWr_kept | split | (intro)
    | (constructor <;> first | exact .inl (Mask.bit hm rfl) | exact .inr (by with_reducible rfl))

/-! ## Machine/TileOps.lean -/

theorem onChan_kept {msk : Nat} {s0 : State} (c : Nat) (f : Chan → Chan) {s : State}
    (hm : 0x100000000000000000000000000000000000000000000000000000000000 ||| msk = msk) (hk : Kept msk s0 s) : Kept msk s0 (onChan c f s) := by
  unfold onChan
  try dsimp only
  repeat' first
    | with_reducible assumption | with_reducible apply onTiles_kept | split | (intro)
    | (constructor <;> first | exact .inl (Mask.bit hm rfl) | exact .inr (by with_reducible rfl))

theorem onChans_kept {msk : Nat} {s0 : State} (f : Nat → Chan → Chan) {s : State}
    (hm : 0x100000000000000000000000000000000000000000000000000000000000 ||| msk = msk) (hk : Kept msk s0 s) : Kept msk s0 (onChans f s) := by
  unfold onChans
  try dsimp only
  repeat' first
    | with_reducible assumption | with_reducible apply onTiles_kept | split | (intro)
    | (constructor <;> first | exact .inl (Mask.bit hm rfl) | exact .inr (by with_reducible rfl))

theorem startSlots_kept {msk : Nat} {s0 : State} {s : State} (hm : 0xF400000000000000000000000000000000000000000000000000000000000000 ||| msk = msk)
    (hk : Kept msk s0 s) : Kept msk s0 (startSlots s) := by
  unfold startSlots
  try dsimp only
  repeat' first
    | with_reducible assumption | with_reducible apply onTiles_kept | split | (intro)
    | (constructor <;> first | exact .inl (Mask.bit hm rfl) | exact .inr (by with_reducible rfl))

theorem startChans_kept {msk : Nat} {s0 : State} {s : State} (hm : 0xF400100000000000000000000000000000000000000000000000000000000000 ||| msk = msk)
    (hk : Kept msk s0 s) : Kept msk s0 (startChans s) := by
  unfold startChans
  try dsimp only
  repeat' first
    | with_reducible assumption | exact Mask.sub hm rfl | with_reducible apply startSlots_kept | with_reducible apply onChans_kept | split
    | (intro)

theorem passChans_kept {msk : Nat} {s0 : State} {s : State} (hm : 0xF400100000000000000000000000000000000000000000000000000000000000 ||| msk = msk)
    (hk : Kept msk s0 s) : Kept msk s0 (passChans s) := by
  unfold passChans
  try dsimp only
  repeat' first
    | with_reducible assumption | exact Mask.sub hm rfl | with_reducible apply startSlots_kept | with_reducible apply onChans_kept | split
    | (intro)

theorem keepValues_kept {msk : Nat} {s0 : State} {s : State} (hm : 0x100000000000000000000000000000000000000000000000000000000000 ||| msk = msk)
    (hk : Kept msk s0 s) : Kept msk s0 (keepValues s) := by
  unfold keepValues
  try dsimp only
  repeat' first
    | with_reducible assumption | exact Mask.sub hm rfl | with_reducible apply onChans_kept | split | (intro)

theorem frozenValues_kept {msk : Nat} {s0 : State} {s : State} (hm : 0x100000000000000000000000000000000000000000000000000000000000 ||| msk = msk)
    (hk : Kept msk s0 s) : Kept msk s0 (frozenValues s) := by
  unfold frozenValues
  try dsimp only
  repeat' first
    | with_reducible assumption | exact Mask.sub hm rfl | with_reducible apply onChans_kept | split | (intro)

theorem useModule_kept {msk : Nat} {s0 : State} (m : Nat) {s : State}
    (hm : 0x800000200000000000000000000000000240100000000000000000000000000000000000000000000000000000000000 ||| msk = msk) (hk : Kept msk s0 s) : Kept msk s0 (useModule m s) := by
  unfold useModule
  try dsimp only
  repeat' first
    | with_reducible assumption | exact Mask.sub hm rfl | with_reducible apply forEach_kept | with_reducible apply onChans_kept
    | with_reducible apply hlCommand_kept | with_reducible apply onTiles_kept | split | (intro)
    | (constructor <;> first | exact .inl (Mask.bit hm rfl) | exact .inr (by with_reducible rfl))

theorem idleChans_kept {msk : Nat} {s0 : State} {s : State} (hm : 0x100000000000000000000000000000000000000000000000000000000000 ||| msk = msk)
    (hk : Kept msk s0 s) : Kept msk s0 (idleChans s) := by
  unfold idleChans
  try dsimp only
  repeat' first
    | with_reducible assumption | exact Mask.sub hm rfl | with_reducible apply onChans_kept | split | (intro)

theorem saveTaps_kept {msk : Nat} {s0 : State} {s : State} (hm : 0x780000000000000000000000000000000000000000000000000000000000000 ||| msk = msk)
    (hk : Kept msk s0 s) : Kept msk s0 (saveTaps s) := by
  unfold saveTaps
  try dsimp only
  repeat' first
    | with_reducible assumption | with_reducible apply onTiles_kept | split | (intro)
    | (constructor <;> first | exact .inl (Mask.bit hm rfl) | exact .inr (by with_reducible rfl))

theorem anchorRange_kept {msk : Nat} {s0 : State} (a b : Nat) {s : State}
    (hm : 0x100000000000000000000000000000000000000000000000000000000000 ||| msk = msk) (hk : Kept msk s0 s) : Kept msk s0 (anchorRange a b s) := by
  unfold anchorRange
  try dsimp only
  repeat' first
    | with_reducible assumption | exact Mask.sub hm rfl | with_reducible apply onChans_kept | split | (intro)

/-! ## Machine/SteepleOps.lean -/

theorem stpEvent_kept {msk : Nat} {s0 : State} {s : State}
    (hm : 0x8000A0000000000000000000000000000000000000000000000000000000000000000000000000000000000000000000 ||| msk = msk) (hk : Kept msk s0 s) : Kept msk s0 (stpEvent s) := by
  unfold stpEvent
  try dsimp only
  repeat' first
    | with_reducible assumption | exact Mask.sub hm rfl | with_reducible apply raise_kept | split | (intro)

theorem stpFaultSource_kept {msk : Nat} {s0 : State} {s : State}
    (hm : 0x8000A0000000000000000000000000000000000000000000000000000000000000000000000000000000000000000000 ||| msk = msk) (hk : Kept msk s0 s) : Kept msk s0 (stpFaultSource s) := by
  unfold stpFaultSource
  try dsimp only
  repeat' first
    | with_reducible assumption | exact Mask.sub hm rfl | with_reducible apply raise_kept | split | (intro)

theorem stpRecord_kept {msk : Nat} {s0 : State} (kind : Nat) {s : State}
    (hm : 0x8200A000000000000000000000000000000000000000000000000000000000000000000857F1C0000000000000000000 ||| msk = msk) (hk : Kept msk s0 s) : Kept msk s0 (stpRecord kind s) := by
  unfold stpRecord
  try dsimp only
  repeat' first
    | with_reducible assumption | exact Mask.sub hm rfl | with_reducible apply lantern_kept | split | (intro)

theorem driveFrame_kept {msk : Nat} {s0 : State} (i : Nat) (f : BitVec 32) {s : State}
    (hm : 0x800000000000200000000000000000000000000000000000000000000000000000000000000000000000000000000000 ||| msk = msk) (hk : Kept msk s0 s) : Kept msk s0 (driveFrame i f s) := by
  unfold driveFrame
  try dsimp only
  repeat' first
    | with_reducible assumption | exact Mask.sub hm rfl | with_reducible apply emit_kept | with_reducible apply onStp_kept | split | (intro)
    | (constructor <;> first | exact .inl (Mask.bit hm rfl) | exact .inr (by with_reducible rfl))

theorem sendMotion_kept {msk : Nat} {s0 : State} (i cmd : Nat) (value : Int) {s : State}
    (hm : 0x800000080000200000000000000000000000000000000000000000000000000000000000000000000000000000000000 ||| msk = msk) (hk : Kept msk s0 s) : Kept msk s0 (sendMotion i cmd value s) := by
  unfold sendMotion
  try dsimp only
  repeat' first
    | with_reducible assumption | exact Mask.sub hm rfl | with_reducible apply forEach_kept | with_reducible apply driveFrame_kept
    | with_reducible apply onStp_kept | split | (intro)
    | (constructor <;> first | exact .inl (Mask.bit hm rfl) | exact .inr (by with_reducible rfl))

theorem setEnables_kept {msk : Nat} {s0 : State} (m : BitVec 5) {s : State} (hm : 0x400 ||| msk = msk) (hk : Kept msk s0 s) : Kept msk s0
    (setEnables m s) := by
  unfold setEnables
  try dsimp only
  repeat' first
    | with_reducible assumption | with_reducible apply onPins_kept | split | (intro)
    | (constructor <;> first | exact .inl (Mask.bit hm rfl) | exact .inr (by with_reducible rfl))

theorem setLaw_kept {msk : Nat} {s0 : State} (l : Nat) (st : LawState) {s : State}
    (hm : 0x400000000000000000000000000000000000000000000000000000000000000000000000000000 ||| msk = msk) (hk : Kept msk s0 s) : Kept msk s0 (setLaw l st s) := by
  unfold setLaw
  try dsimp only
  repeat' first
    | with_reducible assumption | with_reducible apply onStp_kept | split | (intro)
    | (constructor <;> first | exact .inl (Mask.bit hm rfl) | exact .inr (by with_reducible rfl))

theorem handOverFrom_kept {msk : Nat} {s0 : State} (uPrev dOut : Rat) (lin : Nat) (e ff rc t : Rat) {s : State}
    (hm : 0x8200A022000000000040014030000000001806000004020D00067AA0048000000000000957F1C1600000000000000000 ||| msk = msk) (hk : Kept msk s0 s) : Kept msk s0 (handOverFrom uPrev dOut lin e ff rc t s) := by
  unfold handOverFrom
  try dsimp only
  repeat' first
    | with_reducible assumption | exact Mask.sub hm rfl | with_reducible apply setLaw_kept | with_reducible apply inhibitOn_kept
    | with_reducible apply onStp_kept | split | (intro)
    | (constructor <;> first | exact .inl (Mask.bit hm rfl) | exact .inr (by with_reducible rfl))

theorem handOver_kept {msk : Nat} {s0 : State} (lout lin : Nat) (e ff rc t : Rat) {s : State}
    (hm : 0x8200A022000000000040014030000000001806000004020D00067AA0048000000000000957F1C1600000000000000000 ||| msk = msk) (hk : Kept msk s0 s) : Kept msk s0 (handOver lout lin e ff rc t s) := by
  unfold handOver
  try dsimp only
  repeat' first
    | with_reducible assumption | exact Mask.sub hm rfl | with_reducible apply handOverFrom_kept | split | (intro)

theorem putSpeed_kept {msk : Nat} {s0 : State} (v a : Rat) {s : State}
    (hm : 0x140300000000000000000000000000000000000000000000000000000000000000000000000 ||| msk = msk) (hk : Kept msk s0 s) : Kept msk s0 (putSpeed v a s) := by
  unfold putSpeed
  try dsimp only
  repeat' first
    | with_reducible assumption | with_reducible apply onStp_kept | split | (intro)
    | (constructor <;> first | exact .inl (Mask.bit hm rfl) | exact .inr (by with_reducible rfl))

theorem setSpeed_kept {msk : Nat} {s0 : State} (v a : Rat) {s : State}
    (hm : 0x140300000000000000000000000000000000000000000000000000000000000000000000000 ||| msk = msk) (hk : Kept msk s0 s) : Kept msk s0 (setSpeed v a s) := by
  unfold setSpeed
  try dsimp only
  repeat' first
    | with_reducible assumption | exact Mask.sub hm rfl | with_reducible apply putSpeed_kept | split | (intro)

theorem setMode_kept {msk : Nat} {s0 : State} (m : SteepleMode) {s : State}
    (hm : 0x800000000000000000000000000000000000000000000000000000000000000000000 ||| msk = msk) (hk : Kept msk s0 s) : Kept msk s0 (setMode m s) := by
  unfold setMode
  try dsimp only
  repeat' first
    | with_reducible assumption | with_reducible apply onStp_kept | split | (intro)
    | (constructor <;> first | exact .inl (Mask.bit hm rfl) | exact .inr (by with_reducible rfl))

theorem installSteeple_kept {msk : Nat} {s0 : State} {s : State}
    (hm : 0x80000020000000000000000000000000000000000000000000000000000000000000006000000000000 ||| msk = msk) (hk : Kept msk s0 s) : Kept msk s0 (installSteeple s) := by
  unfold installSteeple
  try dsimp only
  repeat' first
    | with_reducible assumption | with_reducible apply onTrust_kept | with_reducible apply onStp_kept | split | (intro)
    | (constructor <;> first | exact .inl (Mask.bit hm rfl) | exact .inr (by with_reducible rfl))

theorem enterOff_kept {msk : Nat} {s0 : State} (byFault : Bool) {s : State}
    (hm : 0x4008C800020210C8820800000000000000000000000000000000000000000000000000000006000000000400 ||| msk = msk) (hk : Kept msk s0 s) : Kept msk s0 (enterOff byFault s) := by
  unfold enterOff
  try dsimp only
  repeat' first
    | with_reducible assumption | exact Mask.sub hm rfl | with_reducible apply installSteeple_kept | with_reducible apply setEnables_kept
    | with_reducible apply onStp_kept | split | (intro)
    | (constructor <;> first | exact .inl (Mask.bit hm rfl) | exact .inr (by with_reducible rfl))

theorem controlledStop_kept {msk : Nat} {s0 : State} (a : Rat) {s : State}
    (hm : 0x8200A001000080000000014030000000000000000000000000000000000000000000000857F1C0000000000000000000 ||| msk = msk) (hk : Kept msk s0 s) : Kept msk s0 (controlledStop a s) := by
  unfold controlledStop
  try dsimp only
  repeat' first
    | with_reducible assumption | exact Mask.sub hm rfl | with_reducible apply putSpeed_kept | with_reducible apply stpRecord_kept
    | with_reducible apply onStp_kept | split | (intro)
    | (constructor <;> first | exact .inl (Mask.bit hm rfl) | exact .inr (by with_reducible rfl))

theorem programFault_kept {msk : Nat} {s0 : State} (code : Nat) {s : State}
    (hm : 0x8200A0010000C0000000014030000000000000000000000000000000000000000000000857F1C0000000000000000000 ||| msk = msk) (hk : Kept msk s0 s) : Kept msk s0 (programFault code s) := by
  unfold programFault
  try dsimp only
  repeat' first
    | with_reducible assumption | exact Mask.sub hm rfl | with_reducible apply controlledStop_kept | with_reducible apply stpRecord_kept
    | with_reducible apply stpFaultSource_kept | with_reducible apply onStp_kept | split | (intro)
    | (constructor <;> first | exact .inl (Mask.bit hm rfl) | exact .inr (by with_reducible rfl))

theorem enterFault_kept {msk : Nat} {s0 : State} {s : State}
    (hm : 0xC000000000C0000800000000000000000000000000000000000000000000000000000000000000000400 ||| msk = msk) (hk : Kept msk s0 s) : Kept msk s0 (enterFault s) := by
  unfold enterFault
  try dsimp only
  repeat' first
    | with_reducible assumption | exact Mask.sub hm rfl | with_reducible apply setEnables_kept | with_reducible apply onStp_kept | split | (intro)
    | (constructor <;> first | exact .inl (Mask.bit hm rfl) | exact .inr (by with_reducible rfl))

theorem motorFault_kept {msk : Nat} {s0 : State} (stage : Option Nat) {s : State}
    (hm : 0x8200A0210000C000000001C030080000001806000000040000067AA06C8000000000000957F1C0000000000000000400 ||| msk = msk) (hk : Kept msk s0 s) : Kept msk s0 (motorFault stage s) := by
  unfold motorFault
  try dsimp only
  repeat' first
    | with_reducible assumption | exact Mask.sub hm rfl | with_reducible apply enterFault_kept | with_reducible apply controlledStop_kept
    | with_reducible apply setEnables_kept | with_reducible apply stpRecord_kept | with_reducible apply stpFaultSource_kept
    | with_reducible apply inhibitOn_kept | with_reducible apply onStp_kept | split | (intro)
    | (constructor <;> first | exact .inl (Mask.bit hm rfl) | exact .inr (by with_reducible rfl))

theorem rcFeed_kept {msk : Nat} {s0 : State} (loop : Nat) (x : Rat) {s : State}
    (hm : 0x180000000000000000000000000000000000000000000000000000000000000000000000000000000000 ||| msk = msk) (hk : Kept msk s0 s) : Kept msk s0 (rcFeed loop x s) := by
  unfold rcFeed
  try dsimp only
  repeat' first
    | with_reducible assumption | with_reducible apply onStp_kept | split | (intro)
    | (constructor <;> first | exact .inl (Mask.bit hm rfl) | exact .inr (by with_reducible rfl))

theorem speedHandOver_kept {msk : Nat} {s0 : State} {s : State}
    (hm : 0x8200A022000000000040014030000000001806000004020D00067AA0048000000000000957F1C1600000000000000000 ||| msk = msk) (hk : Kept msk s0 s) : Kept msk s0 (speedHandOver s) := by
  unfold speedHandOver
  try dsimp only
  repeat' first
    | with_reducible assumption | exact Mask.sub hm rfl | with_reducible apply handOver_kept | split | (intro)

theorem speedBy_kept {msk : Nat} {s0 : State} (servo : Bool) {s : State}
    (hm : 0x8200A0220000000000400140B0000000001806000004020D00067AA0048000000000000957F1C1600000000000000000 ||| msk = msk) (hk : Kept msk s0 s) : Kept msk s0 (speedBy servo s) := by
  unfold speedBy
  try dsimp only
  repeat' first
    | with_reducible assumption | exact Mask.sub hm rfl | with_reducible apply speedHandOver_kept | with_reducible apply onStp_kept | split
    | (intro) | (constructor <;> first | exact .inl (Mask.bit hm rfl) | exact .inr (by with_reducible rfl))

theorem enterHold_kept {msk : Nat} {s0 : State} {s : State}
    (hm : 0x8200A0228007000000400140B0080000001806000004020D00067AA0048000000000000957F1C1600000000000000000 ||| msk = msk) (hk : Kept msk s0 s) : Kept msk s0 (enterHold s) := by
  unfold enterHold
  try dsimp only
  repeat' first
    | with_reducible assumption | exact Mask.sub hm rfl | with_reducible apply speedBy_kept | with_reducible apply stpRecord_kept
    | with_reducible apply inhibitOn_kept | with_reducible apply onStp_kept | split | (intro)
    | (constructor <;> first | exact .inl (Mask.bit hm rfl) | exact .inr (by with_reducible rfl))

theorem desaturate_kept {msk : Nat} {s0 : State} (u t : Rat) {s : State}
    (hm : 0x7000000000000000000000000000000000000000000000000000000000000000000000000000000000 ||| msk = msk) (hk : Kept msk s0 s) : Kept msk s0 (desaturate u t s).2 := by
  unfold desaturate
  try dsimp only
  repeat' first
    | with_reducible assumption | with_reducible apply onStp_kept | split | dsimp only | (intro)
    | (constructor <;> first | exact .inl (Mask.bit hm rfl) | exact .inr (by with_reducible rfl))

theorem lateralLoop_kept {msk : Nat} {s0 : State} {u : State}
    (hm : 0x80000008000038FC03C00000000000000000000000000000000000000000000000000000000000000000000000000000 ||| msk = msk) (hk : Kept msk s0 u) : Kept msk s0 (lateralLoop u).1 := by
  unfold lateralLoop
  try dsimp only
  repeat' first
    | with_reducible assumption | exact Mask.sub hm rfl | with_reducible apply desaturate_kept | with_reducible apply rcFeed_kept
    | with_reducible apply setLaw_kept | with_reducible apply sendMotion_kept | with_reducible apply onStp_kept | split | dsimp only | (intro)
    | (constructor <;> first | exact .inl (Mask.bit hm rfl) | exact .inr (by with_reducible rfl))

theorem stepperFrame_kept {msk : Nat} {s0 : State} (k : Int) {s : State}
    (hm : 0x800000080000200000000000000000000000000000000000000000000000000000000000000000000000000000000000 ||| msk = msk) (hk : Kept msk s0 s) : Kept msk s0 (stepperFrame k s) := by
  unfold stepperFrame
  try dsimp only
  repeat' first
    | with_reducible assumption | exact Mask.sub hm rfl | with_reducible apply sendMotion_kept | split | (intro)

theorem writeDelays_kept {msk : Nat} {s0 : State} {s : State} (hm : 0x1000000000000000000000000000000000000000000000000000000000000 ||| msk = msk)
    (hk : Kept msk s0 s) : Kept msk s0 (writeDelays s) := by
  unfold writeDelays
  try dsimp only
  repeat' first
    | with_reducible assumption | with_reducible apply onTiles_kept | split | (intro)
    | (constructor <;> first | exact .inl (Mask.bit hm rfl) | exact .inr (by with_reducible rfl))

theorem tiltLoop_kept {msk : Nat} {s0 : State} {s : State}
    (hm : 0x800000080000200000600000000000000001000000000000000000000000000000000000000000000000000000000000 ||| msk = msk) (hk : Kept msk s0 s) : Kept msk s0 (tiltLoop s) := by
  unfold tiltLoop
  try dsimp only
  repeat' first
    | with_reducible assumption | exact Mask.sub hm rfl | with_reducible apply writeDelays_kept | with_reducible apply setLaw_kept
    | with_reducible apply sendMotion_kept | with_reducible apply onStp_kept | split | (intro)
    | (constructor <;> first | exact .inl (Mask.bit hm rfl) | exact .inr (by with_reducible rfl))

theorem reelLoop_kept {msk : Nat} {s0 : State} (posErr : Rat) {s : State}
    (hm : 0x8000000800003B0000400080098000000000000000000000000000000000000000000000000000000000000000000000 ||| msk = msk) (hk : Kept msk s0 s) : Kept msk s0 (reelLoop posErr s) := by
  unfold reelLoop
  try dsimp only
  repeat' first
    | with_reducible assumption | exact Mask.sub hm rfl | with_reducible apply rcFeed_kept | with_reducible apply setLaw_kept
    | with_reducible apply sendMotion_kept | with_reducible apply onStp_kept | split | (intro)
    | (constructor <;> first | exact .inl (Mask.bit hm rfl) | exact .inr (by with_reducible rfl))

theorem nextStep_kept {msk : Nat} {s0 : State} {s : State}
    (hm : 0x8200A0010000C0000000014030000000000000000000000000000000000000000000000857F1C0000000000000000000 ||| msk = msk) (hk : Kept msk s0 s) : Kept msk s0 (nextStep s) := by
  unfold nextStep
  try dsimp only
  repeat' first
    | with_reducible assumption | exact Mask.sub hm rfl | with_reducible apply programFault_kept | with_reducible apply onStp_kept | split
    | (intro) | (constructor <;> first | exact .inl (Mask.bit hm rfl) | exact .inr (by with_reducible rfl))

theorem beginWait_kept {msk : Nat} {s0 : State} (timeout : Option Nat) {s : State}
    (hm : 0x400000000000000000000000000000000000000000000000000000000000000000000000000000000000 ||| msk = msk) (hk : Kept msk s0 s) : Kept msk s0 (beginWait timeout s) := by
  unfold beginWait
  try dsimp only
  repeat' first
    | with_reducible assumption | with_reducible apply onStp_kept | split | (intro)
    | (constructor <;> first | exact .inl (Mask.bit hm rfl) | exact .inr (by with_reducible rfl))

theorem accStart_kept {msk : Nat} {s0 : State} {s : State}
    (hm : 0x800000000000000008000000000000000000000000000000000000000000000000000000000000000000000000000000 ||| msk = msk) (hk : Kept msk s0 s) : Kept msk s0 (accStart s) := by
  unfold accStart
  try dsimp only
  repeat' first
    | with_reducible assumption | exact Mask.sub hm rfl | with_reducible apply emits_kept | with_reducible apply onStp_kept | split | (intro)
    | (constructor <;> first | exact .inl (Mask.bit hm rfl) | exact .inr (by with_reducible rfl))

theorem threadFresh_kept {msk : Nat} {s0 : State} {s : State}
    (hm : 0x8000000059801800080A0000000000000000000000000000000000000000000000000000000000000000000000000000 ||| msk = msk) (hk : Kept msk s0 s) : Kept msk s0 (threadFresh s) := by
  unfold threadFresh
  try dsimp only
  repeat' first
    | with_reducible assumption | exact Mask.sub hm rfl | with_reducible apply accStart_kept | with_reducible apply onStp_kept | split | (intro)
    | (constructor <;> first | exact .inl (Mask.bit hm rfl) | exact .inr (by with_reducible rfl))

theorem startProgram_kept {msk : Nat} {s0 : State} (prog p0 p1 p2 p3 : Nat) {s : State}
    (hm : 0x8000A00059805800080A0000000800000000000000000000000000000000000000000000000000000000000000000000 ||| msk = msk) (hk : Kept msk s0 s) : Kept msk s0 (startProgram prog p0 p1 p2 p3 s) := by
  unfold startProgram
  try dsimp only
  repeat' first
    | with_reducible assumption | exact Mask.sub hm rfl | with_reducible apply threadFresh_kept | with_reducible apply stpEvent_kept
    | with_reducible apply onStp_kept | split | (intro)
    | (constructor <;> first | exact .inl (Mask.bit hm rfl) | exact .inr (by with_reducible rfl))

theorem startQueued_kept {msk : Nat} {s0 : State} {s : State}
    (hm : 0x8000A00059805800080A0000000800000000000000000000000000000000000000000000000000000000000000000000 ||| msk = msk) (hk : Kept msk s0 s) : Kept msk s0 (startQueued s) := by
  unfold startQueued
  try dsimp only
  repeat' first
    | with_reducible assumption | exact Mask.sub hm rfl | with_reducible apply startProgram_kept | split | (intro)

/-! ## Machine/WvnOps.lean -/

theorem setStall_kept {msk : Nat} {s0 : State} (b : Bool) {s : State} (hm : 0x400000000006000000000000000000000000000000000000000 ||| msk = msk)
    (hk : Kept msk s0 s) : Kept msk s0 (setStall b s) := by
  unfold setStall
  try dsimp only
  repeat' first
    | with_reducible assumption | with_reducible apply onWr_kept | with_reducible apply onWvn_kept | split | (intro)
    | (constructor <;> first | exact .inl (Mask.bit hm rfl) | exact .inr (by with_reducible rfl))

theorem updateStall_kept {msk : Nat} {s0 : State} {s : State} (hm : 0x400000000006000000000000000000000000000000000000000 ||| msk = msk)
    (hk : Kept msk s0 s) : Kept msk s0 (updateStall s) := by
  unfold updateStall
  try dsimp only
  repeat' first
    | with_reducible assumption | exact Mask.sub hm rfl | with_reducible apply setStall_kept | split | (intro)

theorem wvnRecord_kept {msk : Nat} {s0 : State} (kind : Nat) {s : State}
    (hm : 0x8200A000000000000000000000000000000000000000000000000000000000000000000857F1C0000000000000000000 ||| msk = msk) (hk : Kept msk s0 s) : Kept msk s0 (wvnRecord kind s) := by
  unfold wvnRecord
  try dsimp only
  repeat' first
    | with_reducible assumption | exact Mask.sub hm rfl | with_reducible apply lantern_kept | split | (intro)

theorem voltageCap_kept {msk : Nat} {s0 : State} {s : State}
    (hm : 0x8200A000000000000000000000000000000000000000800000000000000000000000000857F1C0000000000000000000 ||| msk = msk) (hk : Kept msk s0 s) : Kept msk s0 (voltageCap s) := by
  unfold voltageCap
  try dsimp only
  repeat' first
    | with_reducible assumption | exact Mask.sub hm rfl | with_reducible apply wvnRecord_kept | with_reducible apply onWvn_kept | split | (intro)
    | (constructor <;> first | exact .inl (Mask.bit hm rfl) | exact .inr (by with_reducible rfl))

theorem avsWrite_kept {msk : Nat} {s0 : State} (mv : Nat) {s : State}
    (hm : 0x800000000000000000000000000000000000000000000000000000000000000000000000000001600000000000000000 ||| msk = msk) (hk : Kept msk s0 s) : Kept msk s0 (avsWrite mv s) := by
  unfold avsWrite
  try dsimp only
  repeat' first
    | with_reducible assumption | exact Mask.sub hm rfl | with_reducible apply emit_kept | with_reducible apply onPower_kept | split | (intro)
    | (constructor <;> first | exact .inl (Mask.bit hm rfl) | exact .inr (by with_reducible rfl))

theorem applySpeed_kept {msk : Nat} {s0 : State} (r : Nat) {s : State}
    (hm : 0x800000000000000000000140300000000000000000000005000000000000000000000000000000000000000000000000 ||| msk = msk) (hk : Kept msk s0 s) : Kept msk s0 (applySpeed r s) := by
  unfold applySpeed
  try dsimp only
  repeat' first
    | with_reducible assumption | exact Mask.sub hm rfl | with_reducible apply setSpeed_kept | with_reducible apply emit_kept
    | with_reducible apply onWvn_kept | split | (intro)
    | (constructor <;> first | exact .inl (Mask.bit hm rfl) | exact .inr (by with_reducible rfl))

theorem askRatio_kept {msk : Nat} {s0 : State} (r : Nat) {s : State}
    (hm : 0x80000000000000000000014030000000000000000004000D000000000000000000000000000001600000000000000000 ||| msk = msk) (hk : Kept msk s0 s) : Kept msk s0 (askRatio r s) := by
  unfold askRatio
  try dsimp only
  repeat' first
    | with_reducible assumption | exact Mask.sub hm rfl | with_reducible apply applySpeed_kept | with_reducible apply avsWrite_kept
    | with_reducible apply onWvn_kept | split | (intro)
    | (constructor <;> first | exact .inl (Mask.bit hm rfl) | exact .inr (by with_reducible rfl))

theorem clampNow_kept {msk : Nat} {s0 : State} {s : State}
    (hm : 0x80000000000000000000014030000000000000000004011D000000000000000000000000000001600000000000000000 ||| msk = msk) (hk : Kept msk s0 s) : Kept msk s0 (clampNow s) := by
  unfold clampNow
  try dsimp only
  repeat' first
    | with_reducible assumption | exact Mask.sub hm rfl | with_reducible apply askRatio_kept | with_reducible apply onWvn_kept
    | with_reducible apply onStp_kept | split | (intro)
    | (constructor <;> first | exact .inl (Mask.bit hm rfl) | exact .inr (by with_reducible rfl))

theorem setWvn_kept {msk : Nat} {s0 : State} (st : WvnState) {s : State}
    (hm : 0x8000A0000000000000000000000000000000000000000000400000000000000000000000000000000000000000000000 ||| msk = msk) (hk : Kept msk s0 s) : Kept msk s0 (setWvn st s) := by
  unfold setWvn
  try dsimp only
  repeat' first
    | with_reducible assumption | exact Mask.sub hm rfl | with_reducible apply raise_kept | with_reducible apply onWvn_kept | split | (intro)
    | (constructor <;> first | exact .inl (Mask.bit hm rfl) | exact .inr (by with_reducible rfl))

theorem startTape_kept {msk : Nat} {s0 : State} (r lpos : Nat) {s : State}
    (hm : 0x8000A00059805800080A0000000800000000000000004002000000000000000000000000000000000000000000000000 ||| msk = msk) (hk : Kept msk s0 s) : Kept msk s0 (startTape r lpos s) := by
  unfold startTape
  try dsimp only
  repeat' first
    | with_reducible assumption | exact Mask.sub hm rfl | with_reducible apply startProgram_kept | with_reducible apply stpEvent_kept
    | with_reducible apply onWvn_kept | split | (intro)
    | (constructor <;> first | exact .inl (Mask.bit hm rfl) | exact .inr (by with_reducible rfl))

theorem beginRun_kept {msk : Nat} {s0 : State} (k : RunKind) (wrap slot : Nat) {s : State}
    (hm : 0x8000A02059805800C80A014030080000F64010000004511FC00000000000000000000000000001610000000000000000 ||| msk = msk) (hk : Kept msk s0 s) : Kept msk s0 (beginRun k wrap slot s) := by
  unfold beginRun
  try dsimp only
  repeat' first
    | with_reducible assumption | exact Mask.sub hm rfl | with_reducible apply startTape_kept | with_reducible apply setWvn_kept
    | with_reducible apply askRatio_kept | with_reducible apply useModule_kept | with_reducible apply startChans_kept
    | with_reducible apply needDomains_kept | with_reducible apply onWvn_kept | with_reducible apply onStp_kept | split | (intro)
    | (constructor <;> first | exact .inl (Mask.bit hm rfl) | exact .inr (by with_reducible rfl))

theorem endRun_kept {msk : Nat} {s0 : State} {s : State}
    (hm : 0x8000A00059805800080A0000000800000000100000005007C00000000000000000000000000000000000000000000000 ||| msk = msk) (hk : Kept msk s0 s) : Kept msk s0 (endRun s) := by
  unfold endRun
  try dsimp only
  repeat' first
    | with_reducible assumption | exact Mask.sub hm rfl | with_reducible apply setWvn_kept | with_reducible apply startProgram_kept
    | with_reducible apply idleChans_kept | with_reducible apply onWvn_kept | split | (intro)
    | (constructor <;> first | exact .inl (Mask.bit hm rfl) | exact .inr (by with_reducible rfl))

theorem startBackhitch_kept {msk : Nat} {s0 : State} {s : State}
    (hm : 0x8000A00059805800080A0000000800000000000000000000000000000000000000000000000000000000000000000000 ||| msk = msk) (hk : Kept msk s0 s) : Kept msk s0 (startBackhitch s) := by
  unfold startBackhitch
  try dsimp only
  repeat' first
    | with_reducible assumption | exact Mask.sub hm rfl | with_reducible apply startProgram_kept | split | (intro)

theorem restart_kept {msk : Nat} {s0 : State} {s : State}
    (hm : 0x8000A00059805800080A014030080000000000000004401FC00000000000000000000000000001600000000000000000 ||| msk = msk) (hk : Kept msk s0 s) : Kept msk s0 (restart s) := by
  unfold restart
  try dsimp only
  repeat' first
    | with_reducible assumption | exact Mask.sub hm rfl | with_reducible apply startTape_kept | with_reducible apply setWvn_kept
    | with_reducible apply askRatio_kept | with_reducible apply onWvn_kept | split | (intro)
    | (constructor <;> first | exact .inl (Mask.bit hm rfl) | exact .inr (by with_reducible rfl))

theorem restartIfAsked_kept {msk : Nat} {s0 : State} (tapeNeeded : Bool) {s : State}
    (hm : 0x8000A00059805800080A014030080000000000000004401FC00000000000000000000000000001600000000000000000 ||| msk = msk) (hk : Kept msk s0 s) : Kept msk s0 (restartIfAsked tapeNeeded s) := by
  unfold restartIfAsked
  try dsimp only
  repeat' first
    | with_reducible assumption | exact Mask.sub hm rfl | with_reducible apply restart_kept | split | (intro)

end Sys2Proof.Machine
end

