-- ==== Sys2Proof/Laws/KeptTape.lean ====
section
/-! SUPPORT. What the operations and commands of Staging, ResetOps, WriteOps, AbortOps, Manifest, PowerOps, HostQueues keep (see Laws/Kept.lean). -/

set_option linter.unusedTactic false
set_option linter.unreachableTactic false
set_option linter.unusedVariables false

namespace Sys2Proof.Machine

/-! ## Machine/Staging.lean -/

theorem stage_kept {msk : Nat} {s0 : State} (d : DataSet) {s : State} (hm : 0x400000000006C00000000000000000000000000000000000000 ||| msk = msk)
    (hk : Kept msk s0 s) : Kept msk s0 (stage d s) := by
  unfold stage
  try dsimp only
  repeat' first
    | with_reducible assumption | exact Mask.sub hm rfl | with_reducible apply updateStall_kept | with_reducible apply onWr_kept | split | (intro)
    | (constructor <;> first | exact .inl (Mask.bit hm rfl) | exact .inr (by with_reducible rfl))

theorem closePayload_kept {msk : Nat} {s0 : State} (p : Nat) {s : State} (hm : 0x400000000000000000000000000000000000000 ||| msk = msk)
    (hk : Kept msk s0 s) : Kept msk s0 (closePayload p s) := by
  unfold closePayload
  try dsimp only
  repeat' first
    | with_reducible assumption | exact Mask.sub hm rfl | with_reducible apply stage_kept | with_reducible apply onWr_kept | split | (intro)
    | (constructor <;> first | exact .inl (Mask.bit hm rfl) | exact .inr (by with_reducible rfl))

theorem holdKey_kept {msk : Nat} {s0 : State} (sel : CipherSel) {s : State} (hm : 0x2000000000000000000000000000000 ||| msk = msk)
    (hk : Kept msk s0 s) : Kept msk s0 (holdKey sel s) := by
  unfold holdKey
  try dsimp only
  repeat' first
    | with_reducible assumption | exact Mask.sub hm rfl | with_reducible apply bindGen_kept | split | (intro)

theorem openPayload_kept {msk : Nat} {s0 : State} (p : Nat) (sel : CipherSel) (firstLon : Nat) {s : State}
    (hm : 0x400000000006C00000002000000000000000000000000000000 ||| msk = msk) (hk : Kept msk s0 s) : Kept msk s0 (openPayload p sel firstLon s) := by
  unfold openPayload
  try dsimp only
  repeat' first
    | with_reducible assumption | exact Mask.sub hm rfl | with_reducible apply holdKey_kept | with_reducible apply stage_kept | split | (intro)

theorem payloadFor_kept {msk : Nat} {s0 : State} (p : Nat) (sel : CipherSel) (firstLon n : Nat) {s : State}
    (hm : 0x400000000006C00000002000000000000000000000000000000 ||| msk = msk) (hk : Kept msk s0 s) : Kept msk s0 (payloadFor p sel firstLon n s) := by
  unfold payloadFor
  try dsimp only
  repeat' first
    | with_reducible assumption | exact Mask.sub hm rfl | with_reducible apply openPayload_kept | with_reducible apply closePayload_kept | split
    | (intro)

theorem spillBytes_kept {msk : Nat} {s0 : State} (p : Nat) (sel : CipherSel) (lon fuel : Nat) (bs : Bytes) {s : State}
    (hm : 0x400000000006C00000002000000000000000000000000000000 ||| msk = msk) (hk : Kept msk s0 s) :
    Kept msk s0 (spillBytes p sel lon fuel bs s) := by
  induction fuel generalizing bs s with
  | zero => exact hk
  | succ fuel ih =>
    unfold spillBytes
    split
    · exact hk
    · exact ih _ (onWr_kept _ (by intro x; (constructor <;> first | exact .inl (Mask.bit hm rfl) | exact .inr (by with_reducible rfl))) (openPayload_kept _ _ _ (Mask.sub hm rfl) (closePayload_kept _ (Mask.sub hm rfl) hk)))

theorem closeIfFull_kept {msk : Nat} {s0 : State} (p : Nat) {s : State} (hm : 0x400000000000000000000000000000000000000 ||| msk = msk)
    (hk : Kept msk s0 s) : Kept msk s0 (closeIfFull p s) := by
  unfold closeIfFull
  try dsimp only
  repeat' first
    | with_reducible assumption | exact Mask.sub hm rfl | with_reducible apply closePayload_kept | split | (intro)

theorem placeItem_kept {msk : Nat} {s0 : State} (it : StreamItem) {s : State}
    (hm : 0xC00000000006D18000002008000000000000000000000000000 ||| msk = msk) (hk : Kept msk s0 s) : Kept msk s0 (placeItem it s) := by
  unfold placeItem
  try dsimp only
  repeat' first
    | with_reducible assumption | exact Mask.sub hm rfl | with_reducible apply closeIfFull_kept | with_reducible apply spillBytes_kept
    | with_reducible apply payloadFor_kept | with_reducible apply onSet_kept | with_reducible apply onPart_kept | with_reducible apply onCmd_kept
    | with_reducible apply onCz_kept | with_reducible apply onWvn_kept | split | (intro)
    | (constructor <;> first | exact .inl (Mask.bit hm rfl) | exact .inr (by with_reducible rfl))

theorem stageEod_kept {msk : Nat} {s0 : State} (p lon : Nat) {s : State} (hm : 0x400000000006D00000000000000000000000000000000000000 ||| msk = msk)
    (hk : Kept msk s0 s) : Kept msk s0 (stageEod p lon s) := by
  unfold stageEod
  try dsimp only
  repeat' first
    | with_reducible assumption | exact Mask.sub hm rfl | with_reducible apply closePayload_kept | with_reducible apply stage_kept
    | with_reducible apply onPart_kept | split | (intro)

theorem sealInvocation_kept {msk : Nat} {s0 : State} (slot gen : Nat) {s : State} (hm : 0x2008000000000000000000000000000 ||| msk = msk)
    (hk : Kept msk s0 s) : Kept msk s0 (sealInvocation slot gen s) := by
  unfold sealInvocation
  try dsimp only
  repeat' first
    | with_reducible assumption | exact Mask.sub hm rfl | with_reducible apply useGen_kept | with_reducible apply onCmd_kept | split | (intro)

theorem sealed_kept {msk : Nat} {s0 : State} (d : DataSet) (n floor : Nat) (payload : Bytes) {s : State}
    (hm : 0x20500000000000000000000000000000000000000 ||| msk = msk) (hk : Kept msk s0 s) : Kept msk s0 (sealed d n floor payload s) := by
  unfold sealed
  try dsimp only
  repeat' first
    | with_reducible assumption | exact Mask.sub hm rfl | with_reducible apply stage_kept | with_reducible apply onSet_kept
    | with_reducible apply onPart_kept | with_reducible apply onWr_kept | split | (intro)
    | (constructor <;> first | exact .inl (Mask.bit hm rfl) | exact .inr (by with_reducible rfl))

theorem sealSet_kept {msk : Nat} {s0 : State} (d : DataSet) {s : State} (hm : 0x20500008002008000000000000000000000000000 ||| msk = msk)
    (hk : Kept msk s0 s) : Kept msk s0 (sealSet d s) := by
  unfold sealSet
  try dsimp only
  repeat' first
    | with_reducible assumption | exact Mask.sub hm rfl | with_reducible apply sealed_kept | with_reducible apply sealInvocation_kept
    | with_reducible apply holdDerived_kept | with_reducible apply countInv_kept | with_reducible apply unbindGen_kept | split | (intro)

theorem makeParity_kept {msk : Nat} {s0 : State} (g dome last : Nat) {s : State}
    (hm : 0x40000000000EC00000000000000000000000000000000000000 ||| msk = msk) (hk : Kept msk s0 s) : Kept msk s0 (makeParity g dome last s) := by
  unfold makeParity
  try dsimp only
  repeat' first
    | with_reducible assumption | exact Mask.sub hm rfl | with_reducible apply stage_kept | with_reducible apply onWr_kept | split | (intro)
    | (constructor <;> first | exact .inl (Mask.bit hm rfl) | exact .inr (by with_reducible rfl))

theorem releaseKeys_kept {msk : Nat} {s0 : State} (c : Cmd) {s : State} (hm : 0x2008000000000000000000000000000 ||| msk = msk)
    (hk : Kept msk s0 s) : Kept msk s0 (releaseKeys c s) := by
  unfold releaseKeys
  try dsimp only
  repeat' first
    | with_reducible assumption | exact Mask.sub hm rfl | with_reducible apply forEach_kept | with_reducible apply unbindGen_kept
    | with_reducible apply onCmd_kept | split | (intro)

theorem finishCmd_kept {msk : Nat} {s0 : State} (q tag st res : Nat) (objs : Option (Nat × Nat)) {s : State}
    (hm : 0x86000000000000000000000000000000000000000000000000000000000000000209B058800000000000000000000000 ||| msk = msk) (hk : Kept msk s0 s) : Kept msk s0 (finishCmd q tag st res objs s) := by
  unfold finishCmd
  try dsimp only
  repeat' first
    | with_reducible assumption | exact Mask.sub hm rfl | with_reducible apply releaseKeys_kept | with_reducible apply finish_kept | split
    | (intro)

theorem endWrite_kept {msk : Nat} {s0 : State} (c : Cmd) (st packed : Nat) {s : State}
    (hm : 0x860000000000000000000000000000000000000000000400000000006D0000000209B058800000000000000000000000 ||| msk = msk) (hk : Kept msk s0 s) : Kept msk s0 (endWrite c st packed s) := by
  unfold endWrite
  try dsimp only
  repeat' first
    | with_reducible assumption | exact Mask.sub hm rfl | with_reducible apply finishCmd_kept | with_reducible apply hostWrites_kept | split
    | (intro)

theorem openSync_kept {msk : Nat} {s0 : State} (c : Cmd) {s : State}
    (hm : 0x860000000000000000000000000000000000000000000400000000006D0000000209B058800000000000000000000000 ||| msk = msk) (hk : Kept msk s0 s) : Kept msk s0 (openSync c s) := by
  unfold openSync
  try dsimp only
  repeat' first
    | with_reducible assumption | exact Mask.sub hm rfl | with_reducible apply forEach_kept | with_reducible apply finishCmd_kept
    | with_reducible apply stageEod_kept | with_reducible apply onCmd_kept | split | (intro)

theorem settleOne_kept {msk : Nat} {s0 : State} (c : Cmd) {s : State}
    (hm : 0x860000000000000000000000000000000000000000000400000000006D0000000209B058800000000000000000000000 ||| msk = msk) (hk : Kept msk s0 s) : Kept msk s0 (settleOne c s) := by
  unfold settleOne
  try dsimp only
  repeat' first
    | with_reducible assumption | exact Mask.sub hm rfl | with_reducible apply openSync_kept | with_reducible apply endWrite_kept
    | with_reducible apply finishCmd_kept | split | (intro)

theorem settle_kept {msk : Nat} {s0 : State} {s : State}
    (hm : 0x860000000000000000000000000000000000000000000400000000006D0000000209B058800000000000000000000000 ||| msk = msk) (hk : Kept msk s0 s) : Kept msk s0 (settle s) := by
  unfold settle
  try dsimp only
  repeat' first
    | with_reducible assumption | exact Mask.sub hm rfl | with_reducible apply forEach_kept | with_reducible apply settleOne_kept
    | with_reducible apply tidy_kept | split | (intro)

theorem packed_kept {msk : Nat} {s0 : State} (c : Cmd) {s : State}
    (hm : 0x860000000000000000000000000000000000000000000400000000006D0000000209B058800000000000000000000000 ||| msk = msk) (hk : Kept msk s0 s) : Kept msk s0 (packed c s) := by
  unfold packed
  try dsimp only
  repeat' first
    | with_reducible assumption | exact Mask.sub hm rfl | with_reducible apply endWrite_kept | with_reducible apply stageEod_kept
    | with_reducible apply onCmd_kept | split | (intro)

theorem endGroup_kept {msk : Nat} {s0 : State} (p : Nat) (endOrder : Nat × Nat) {s : State}
    (hm : 0x400000000006D00000000008000000000000000000000000000 ||| msk = msk) (hk : Kept msk s0 s) : Kept msk s0 (endGroup p endOrder s) := by
  unfold endGroup
  try dsimp only
  repeat' first
    | with_reducible assumption | exact Mask.sub hm rfl | with_reducible apply forEach_kept | with_reducible apply stageEod_kept
    | with_reducible apply onPart_kept | with_reducible apply onCmd_kept | with_reducible apply foldl_kept | split | (intro)

theorem packItem_kept {msk : Nat} {s0 : State} (it : StreamItem) {s : State}
    (hm : 0x860000000000000000000000000000000000000000000C00000000006D1880000209B058800000000000000000000000 ||| msk = msk) (hk : Kept msk s0 s) : Kept msk s0 (packItem it s) := by
  unfold packItem
  try dsimp only
  repeat' first
    | with_reducible assumption | exact Mask.sub hm rfl | with_reducible apply endGroup_kept | with_reducible apply packed_kept
    | with_reducible apply placeItem_kept | with_reducible apply onCz_kept | split | (intro)
    | (constructor <;> first | exact .inl (Mask.bit hm rfl) | exact .inr (by with_reducible rfl))

theorem packReady_kept {msk : Nat} {s0 : State} (fuel : Nat) {s : State}
    (hm : 0x860000000000000000000000000000000000000000000C00000000006D1880000209B058800000000000000000000000 ||| msk = msk) (hk : Kept msk s0 s) : Kept msk s0 (packReady fuel s) := by
  induction fuel generalizing s with
  | zero => exact hk
  | succ fuel ih =>
    unfold packReady
    split
    · exact ih (packItem_kept _ (Mask.sub hm rfl) hk)
    · exact hk

theorem startEngine_kept {msk : Nat} {s0 : State} (i : Nat) {s : State} (hm : 0x400000000000000000000000000000000000 ||| msk = msk)
    (hk : Kept msk s0 s) : Kept msk s0 (startEngine i s) := by
  unfold startEngine
  try dsimp only
  repeat' first
    | with_reducible assumption | with_reducible apply onCz_kept | split | (intro)
    | (constructor <;> first | exact .inl (Mask.bit hm rfl) | exact .inr (by with_reducible rfl))

theorem toEngine_kept {msk : Nat} {s0 : State} (it : StreamItem) {s : State} (hm : 0x400000000000000000010000000000000000 ||| msk = msk)
    (hk : Kept msk s0 s) : Kept msk s0 (toEngine it s) := by
  unfold toEngine
  try dsimp only
  repeat' first
    | with_reducible assumption | exact Mask.sub hm rfl | with_reducible apply startEngine_kept | with_reducible apply needDomains_kept
    | with_reducible apply onCz_kept | split | (intro)
    | (constructor <;> first | exact .inl (Mask.bit hm rfl) | exact .inr (by with_reducible rfl))

theorem feed_kept {msk : Nat} {s0 : State} (fuel : Nat) {s : State} (hm : 0x1C00000000000000000010000000000000000 ||| msk = msk)
    (hk : Kept msk s0 s) : Kept msk s0 (feed fuel s) := by
  induction fuel generalizing s with
  | zero => exact hk
  | succ fuel ih =>
    unfold feed
    split
    · rename_i it _
      have h1 := onCz_kept (fun c => { c with source := c.source.filter fun x => x.order != it.order }) (by intro x; (constructor <;> first | exact .inl (Mask.bit hm rfl) | exact .inr (by with_reducible rfl))) hk
      refine ih ?_
      split
      · exact onCz_kept _ (by intro x; (constructor <;> first | exact .inl (Mask.bit hm rfl) | exact .inr (by with_reducible rfl))) h1
      · exact toEngine_kept _ (Mask.sub hm rfl) h1
    · exact hk

theorem pack_kept {msk : Nat} {s0 : State} {s : State}
    (hm : 0x860000000000000000000000000000000000000000000C00000000006D19C0000209B058800000010000000000000000 ||| msk = msk) (hk : Kept msk s0 s) : Kept msk s0 (pack s) := by
  unfold pack
  try dsimp only
  repeat' first
    | with_reducible assumption | exact Mask.sub hm rfl | with_reducible apply feed_kept | with_reducible apply packReady_kept
    | with_reducible apply settle_kept | split | (intro)

theorem releaseDome_kept {msk : Nat} {s0 : State} (g dome : Nat) {s : State}
    (hm : 0x40000000001E400000000000000000000000000000000000000 ||| msk = msk) (hk : Kept msk s0 s) : Kept msk s0 (releaseDome g dome s) := by
  unfold releaseDome
  try dsimp only
  repeat' first
    | with_reducible assumption | exact Mask.sub hm rfl | with_reducible apply updateStall_kept | with_reducible apply onWr_kept | split | (intro)
    | (constructor <;> first | exact .inl (Mask.bit hm rfl) | exact .inr (by with_reducible rfl))

theorem releaseDomes_kept {msk : Nat} {s0 : State} {s : State} (hm : 0x40000000001E400000000000000000000000000000000000000 ||| msk = msk)
    (hk : Kept msk s0 s) : Kept msk s0 (releaseDomes s) := by
  unfold releaseDomes
  try dsimp only
  repeat' first
    | with_reducible assumption | exact Mask.sub hm rfl | with_reducible apply forEach_kept | with_reducible apply releaseDome_kept | split
    | (intro)

theorem dropItems_kept {msk : Nat} {s0 : State} (keep : StreamItem → Bool) {s : State} (hm : 0x1C00000000000000000000000000000000000 ||| msk = msk)
    (hk : Kept msk s0 s) : Kept msk s0 (dropItems keep s) := by
  unfold dropItems
  try dsimp only
  repeat' first
    | with_reducible assumption | with_reducible apply onCz_kept | split | (intro)
    | (constructor <;> first | exact .inl (Mask.bit hm rfl) | exact .inr (by with_reducible rfl))

theorem discardSets_kept {msk : Nat} {s0 : State} (p id : Nat) {s : State}
    (hm : 0x40000040286E500000002000000000000000000000000000000 ||| msk = msk) (hk : Kept msk s0 s) : Kept msk s0 (discardSets p id s) := by
  unfold discardSets
  try dsimp only
  repeat' first
    | with_reducible assumption | exact Mask.sub hm rfl | with_reducible apply forEach_kept | with_reducible apply stage_kept
    | with_reducible apply updateStall_kept | with_reducible apply unbindGen_kept | with_reducible apply onPart_kept
    | with_reducible apply onWr_kept | split | (intro)
    | (constructor <;> first | exact .inl (Mask.bit hm rfl) | exact .inr (by with_reducible rfl))

theorem reportLoss_kept {msk : Nat} {s0 : State} (p id cause n : Nat) (lost : Nat × Nat) {s : State}
    (hm : 0x8600A000000000000000000000000000000000000000000000000000000000000209B059D7F1C0000000000000000000 ||| msk = msk) (hk : Kept msk s0 s) : Kept msk s0 (reportLoss p id cause n lost s) := by
  unfold reportLoss
  try dsimp only
  repeat' first
    | with_reducible assumption | exact Mask.sub hm rfl | with_reducible apply forEach_kept | with_reducible apply finishCmd_kept
    | with_reducible apply lantern_kept | with_reducible apply onLantern_kept | split | (intro)
    | (constructor <;> first | exact .inl (Mask.bit hm rfl) | exact .inr (by with_reducible rfl))

theorem endWritesPast_kept {msk : Nat} {s0 : State} (p stop st : Nat) {s : State}
    (hm : 0x860000000000000000000000000000000000000000000400000000006D0000000209B058800000000000000000000000 ||| msk = msk) (hk : Kept msk s0 s) : Kept msk s0 (endWritesPast p stop st s) := by
  unfold endWritesPast
  try dsimp only
  repeat' first
    | with_reducible assumption | exact Mask.sub hm rfl | with_reducible apply forEach_kept | with_reducible apply endWrite_kept | split | (intro)

theorem cutPartition_kept {msk : Nat} {s0 : State} (p id st : Nat) {s : State}
    (hm : 0x86000000000000000000000000000000000000000000040000040286ED01C0000209B058800000000000000000000000 ||| msk = msk) (hk : Kept msk s0 s) : Kept msk s0 (cutPartition p id st s) := by
  unfold cutPartition
  try dsimp only
  repeat' first
    | with_reducible assumption | exact Mask.sub hm rfl | with_reducible apply endWritesPast_kept | with_reducible apply discardSets_kept
    | with_reducible apply dropItems_kept | with_reducible apply stageEod_kept | with_reducible apply onPart_kept | split | (intro)

theorem partitionFull_kept {msk : Nat} {s0 : State} (p id : Nat) {s : State}
    (hm : 0x8600A000000000000000000000000000000000000000040000040286ED01C0000209B059D7F1C0000000000000000000 ||| msk = msk) (hk : Kept msk s0 s) : Kept msk s0 (partitionFull p id s) := by
  unfold partitionFull
  try dsimp only
  repeat' first
    | with_reducible assumption | exact Mask.sub hm rfl | with_reducible apply forEach_kept | with_reducible apply cutPartition_kept
    | with_reducible apply reportLoss_kept | with_reducible apply endWrite_kept | with_reducible apply onPart_kept | split | (intro)

theorem truncateAt_kept {msk : Nat} {s0 : State} (p lon : Nat) {s : State}
    (hm : 0x400000000006D00000000000000000000000000000000000000 ||| msk = msk) (hk : Kept msk s0 s) : Kept msk s0 (truncateAt p lon s) := by
  unfold truncateAt
  try dsimp only
  repeat' first
    | with_reducible assumption | exact Mask.sub hm rfl | with_reducible apply stageEod_kept | with_reducible apply onPart_kept | split | (intro)

theorem abandonGroup_kept {msk : Nat} {s0 : State} (p st : Nat) {s : State}
    (hm : 0x860000000000000000000000000000000000000000000400000000006D01C0000209B058800000000000000000000000 ||| msk = msk) (hk : Kept msk s0 s) : Kept msk s0 (abandonGroup p st s) := by
  unfold abandonGroup
  try dsimp only
  repeat' first
    | with_reducible assumption | exact Mask.sub hm rfl | with_reducible apply forEach_kept | with_reducible apply truncateAt_kept
    | with_reducible apply dropItems_kept | with_reducible apply endGroup_kept | with_reducible apply endWrite_kept | split | (intro)

theorem abandonGroupsOf_kept {msk : Nat} {s0 : State} (q st : Nat) {s : State}
    (hm : 0x860000000000000000000000000000000000000000000400000000006D01C0000209B058800000000000000000000000 ||| msk = msk) (hk : Kept msk s0 s) : Kept msk s0 (abandonGroupsOf q st s) := by
  unfold abandonGroupsOf
  try dsimp only
  repeat' first
    | with_reducible assumption | exact Mask.sub hm rfl | with_reducible apply forEach_kept | with_reducible apply abandonGroup_kept | split
    | (intro)

theorem withdrawTape_kept {msk : Nat} {s0 : State} (slot : Nat) {s : State}
    (hm : 0x86000000000000000000000000000000000000000000040000040286ED01C0000209B058800000000000000000000000 ||| msk = msk) (hk : Kept msk s0 s) : Kept msk s0 (withdrawTape slot s) := by
  unfold withdrawTape
  try dsimp only
  repeat' first
    | with_reducible assumption | exact Mask.sub hm rfl | with_reducible apply forEach_kept | with_reducible apply cutPartition_kept
    | with_reducible apply dropItems_kept | with_reducible apply endWrite_kept | with_reducible apply stage_kept | split | (intro)

/-! ## Machine/ResetOps.lean -/

theorem endZeroed_kept {msk : Nat} {s0 : State} (c : Cmd) (st : Nat) {s : State}
    (hm : 0x86000000000000000000000000000000000000000000000000000000000000000209B058800000000000000000000000 ||| msk = msk) (hk : Kept msk s0 s) : Kept msk s0 (endZeroed c st s) := by
  unfold endZeroed
  try dsimp only
  repeat' first
    | with_reducible assumption | exact Mask.sub hm rfl | with_reducible apply finishCmd_kept | with_reducible apply zeroOut_kept | split
    | (intro)

theorem discardReadAhead_kept {msk : Nat} {s0 : State} {s : State}
    (hm : 0x7F1F0000000000000000000000000000000000000000000000000000000000000000 ||| msk = msk) (hk : Kept msk s0 s) : Kept msk s0 (discardReadAhead s) := by
  unfold discardReadAhead
  try dsimp only
  repeat' first
    | with_reducible assumption | with_reducible apply onRd_kept | split | (intro)
    | (constructor <;> first | exact .inl (Mask.bit hm rfl) | exact .inr (by with_reducible rfl))

theorem withdrawSlot_kept {msk : Nat} {s0 : State} (slot : Nat) {s : State}
    (hm : 0x8600000000000000000000000000000D000000000000040000040286ED01C2610209B058800000000000000000000000 ||| msk = msk) (hk : Kept msk s0 s) : Kept msk s0 (withdrawSlot slot s) := by
  unfold withdrawSlot
  try dsimp only
  repeat' first
    | with_reducible assumption | exact Mask.sub hm rfl | with_reducible apply forEach_kept | with_reducible apply endZeroed_kept
    | with_reducible apply withdrawTape_kept | with_reducible apply settle_kept | with_reducible apply closeSlotHandles_kept
    | with_reducible apply discardPlain_kept | with_reducible apply onCupola_kept | split | (intro)
    | (constructor <;> first | exact .inl (Mask.bit hm rfl) | exact .inr (by with_reducible rfl))

theorem zeroizeSlot_kept {msk : Nat} {s0 : State} (slot : Nat) {s : State} (hm : 0x2000000000000000000000000000000 ||| msk = msk)
    (hk : Kept msk s0 s) : Kept msk s0 (zeroizeSlot slot s) := by
  unfold zeroizeSlot
  try dsimp only
  repeat' first
    | with_reducible assumption | exact Mask.sub hm rfl | with_reducible apply onSlot_kept | split | (intro)

theorem eraseSlots_kept {msk : Nat} {s0 : State} {s : State}
    (hm : 0x8600000000000000000000000000000D000000000000040000040286ED01C2610209B058800000000000000000000000 ||| msk = msk) (hk : Kept msk s0 s) : Kept msk s0 (eraseSlots s) := by
  unfold eraseSlots
  try dsimp only
  repeat' first
    | with_reducible assumption | exact Mask.sub hm rfl | with_reducible apply forEach_kept | with_reducible apply zeroizeSlot_kept
    | with_reducible apply withdrawSlot_kept | with_reducible apply reply_kept | split | (intro)

theorem eraseKeys_kept {msk : Nat} {s0 : State} {s : State}
    (hm : 0x86000000000000000000000000007F1F000000000000040000040286ED01C2714609B058800000000000000000000000 ||| msk = msk) (hk : Kept msk s0 s) : Kept msk s0 (eraseKeys s) := by
  unfold eraseKeys
  try dsimp only
  repeat' first
    | with_reducible assumption | exact Mask.sub hm rfl | with_reducible apply eraseSlots_kept | with_reducible apply discardReadAhead_kept
    | with_reducible apply onKeep_kept | with_reducible apply onCupola_kept | split | (intro)
    | (constructor <;> first | exact .inl (Mask.bit hm rfl) | exact .inr (by with_reducible rfl))

theorem takeAlarm_kept {msk : Nat} {s0 : State} (cause : Fin 5) {s : State}
    (hm : 0x8600A020000000000000000000007F1F001806000000040000067AA6ED81C2716609B059D7F1C0000000600000000200 ||| msk = msk) (hk : Kept msk s0 s) : Kept msk s0 (takeAlarm cause s) := by
  unfold takeAlarm
  try dsimp only
  repeat' first
    | with_reducible assumption | exact Mask.sub hm rfl | with_reducible apply forEach_kept | with_reducible apply eraseKeys_kept
    | with_reducible apply inhibitOn_kept | with_reducible apply reply_kept | with_reducible apply lantern_kept | with_reducible apply raise_kept
    | with_reducible apply onPins_kept | with_reducible apply onTrust_kept | with_reducible apply onKeep_kept | split | (intro)
    | (constructor <;> first | exact .inl (Mask.bit hm rfl) | exact .inr (by with_reducible rfl))

theorem afterPartReset_kept {msk : Nat} {s0 s : State}
    (hm : 0x7FCFFFFFFFFFFFFFFFF9FFFFFFFFFFFFFE7FFFFAFFFFFFFFFFFFFFFFFF7FFFFFF7EFFFFE0800377BE01E3C1F00C70E00 ||| msk = msk) (hk : Kept msk s0 s) : Kept msk s0 (afterPartReset s) := by
  refine hk.trans ?_
  unfold afterPartReset latchedBelfry
  refine ⟨rfl, BootKept.of_eq rfl rfl rfl rfl rfl, id, ?_, ?_, ?_, ?_, ?_, ?_, ?_, ?_, ?_, ?_, ?_, ?_, ?_, ?_, ?_, ?_, ?_, ?_, ?_, .inr rfl, .inr rfl⟩ <;> (constructor <;> first | exact .inl (Mask.bit hm rfl) | exact .inr (by with_reducible rfl))

theorem partReset_kept {msk : Nat} {s0 : State} (cause : Nat) {s : State}
    (hm : 0xFFCFFFFFFFFFFFFFFFF9FFFFFFFFFFFFFE7FFFFAFFFFFFFFFFFFFFFFFFFFFFFFF7EFFFFF5FF1F77BE01E3C1F00C70E00 ||| msk = msk) (hk : Kept msk s0 s) : Kept msk s0 (partReset cause s) := by
  unfold partReset
  try dsimp only
  repeat' first
    | with_reducible assumption | exact Mask.sub hm rfl | with_reducible apply afterPartReset_kept | with_reducible apply stopTokens_kept
    | with_reducible apply lantern_kept | split | (intro)

theorem afterPowerOn_kept {msk : Nat} {s0 s : State}
    (hm : 0x7FFFFFFFFFFFFFFFFFF9FFFFFFFFFFFFFE7FFFFAFFFFFFFFFFFFFFFFFF7FFFFFF7EFFFFE3F7E37FFEE7E3FDF00C70E00 ||| msk = msk) (hk : Kept msk s0 s) : Kept msk s0 (afterPowerOn s) := by
  refine hk.trans ?_
  unfold afterPowerOn afterPartReset
  refine ⟨rfl, BootKept.of_eq rfl rfl rfl rfl rfl, id, ?_, ?_, ?_, ?_, ?_, ?_, ?_, ?_, ?_, ?_, ?_, ?_, ?_, ?_, ?_, ?_, ?_, ?_, ?_, .inr rfl, .inr rfl⟩ <;> (constructor <;> first | exact .inl (Mask.bit hm rfl) | exact .inr (by with_reducible rfl))

theorem noteOut_kept {msk : Nat} {s0 : State} (row : FaultRow) (i : Nat) {s : State}
    (hm : 0x8200A00000000000000000000000000000000000000000000000000000000000000000085FF1C0030000000000000000 ||| msk = msk) (hk : Kept msk s0 s) : Kept msk s0 (noteOut row i s) := by
  unfold noteOut
  try dsimp only
  repeat' first
    | with_reducible assumption | exact Mask.sub hm rfl | with_reducible apply lantern_kept | with_reducible apply onPower_kept
    | with_reducible apply onLantern_kept | split | (intro)
    | (constructor <;> first | exact .inl (Mask.bit hm rfl) | exact .inr (by with_reducible rfl))

theorem noteBack_kept {msk : Nat} {s0 : State} (row : FaultRow) (i : Nat) {s : State}
    (hm : 0x8200A00000000000000000000000000000000000000000000000000000000000000000085FF1C0000000000000000000 ||| msk = msk) (hk : Kept msk s0 s) : Kept msk s0 (noteBack row i s) := by
  unfold noteBack
  try dsimp only
  repeat' first
    | with_reducible assumption | exact Mask.sub hm rfl | with_reducible apply lantern_kept | with_reducible apply onLantern_kept | split
    | (intro) | (constructor <;> first | exact .inl (Mask.bit hm rfl) | exact .inr (by with_reducible rfl))

theorem loseStack_kept {msk : Nat} {s0 : State} (i : Fin 2) {s : State}
    (hm : 0x8200A00000000000000000000002000D000000000000000000000000140000000000000857F1C0000000000000000000 ||| msk = msk) (hk : Kept msk s0 s) : Kept msk s0 (loseStack i s) := by
  unfold loseStack
  try dsimp only
  repeat' first
    | with_reducible assumption | exact Mask.sub hm rfl | with_reducible apply wvnRecord_kept | with_reducible apply raise_kept
    | with_reducible apply onWr_kept | with_reducible apply onRd_kept | split | (intro)
    | (constructor <;> first | exact .inl (Mask.bit hm rfl) | exact .inr (by with_reducible rfl))

theorem toDecomp_kept {msk : Nat} {s0 : State} (it : DecompItem) {s : State} (hm : 0x4000000000000000000010000000000000000 ||| msk = msk)
    (hk : Kept msk s0 s) : Kept msk s0 (toDecomp it s) := by
  unfold toDecomp
  try dsimp only
  repeat' first
    | with_reducible assumption | exact Mask.sub hm rfl | with_reducible apply needDomains_kept | with_reducible apply onCz_kept | split | (intro)
    | (constructor <;> first | exact .inl (Mask.bit hm rfl) | exact .inr (by with_reducible rfl))

theorem loseEngine_kept {msk : Nat} {s0 : State} (i : Nat) {s : State}
    (hm : 0x8000A0000000000000000000000000000000000000000000000000000005600000000000000000010000000000000000 ||| msk = msk) (hk : Kept msk s0 s) : Kept msk s0 (loseEngine i s) := by
  unfold loseEngine
  try dsimp only
  repeat' first
    | with_reducible assumption | exact Mask.sub hm rfl | with_reducible apply forEach_kept | with_reducible apply toDecomp_kept
    | with_reducible apply raise_kept | with_reducible apply onCz_kept | split | (intro)
    | (constructor <;> first | exact .inl (Mask.bit hm rfl) | exact .inr (by with_reducible rfl))

theorem loseCore_kept {msk : Nat} {s0 : State} (c : Fin 4) {s : State}
    (hm : 0x8001F0000000000000000000000000000000000000000000000000000000000000000000000000000000000000000000 ||| msk = msk) (hk : Kept msk s0 s) : Kept msk s0 (loseCore c s) := by
  unfold loseCore
  try dsimp only
  repeat' first
    | with_reducible assumption | exact Mask.sub hm rfl | with_reducible apply offers_kept | with_reducible apply onBlf_kept | split | (intro)
    | (constructor <;> first | exact .inl (Mask.bit hm rfl) | exact .inr (by with_reducible rfl))

theorem loseCipherCore_kept {msk : Nat} {s0 : State} (i : Nat) {s : State}
    (hm : 0x8000A000000000000000014030000000000000000004011D000000000000040800000000000001600000000000000000 ||| msk = msk) (hk : Kept msk s0 s) : Kept msk s0 (loseCipherCore i s) := by
  unfold loseCipherCore
  try dsimp only
  repeat' first
    | with_reducible assumption | exact Mask.sub hm rfl | with_reducible apply clampNow_kept | with_reducible apply raise_kept
    | with_reducible apply onCupola_kept | split | (intro)
    | (constructor <;> first | exact .inl (Mask.bit hm rfl) | exact .inr (by with_reducible rfl))

theorem rewriteInFlight_kept {msk : Nat} {s0 : State} {s : State}
    (hm : 0x8200A000000000000000000000000000000000000000000000000280000000000000000957F1C0000000000000000000 ||| msk = msk) (hk : Kept msk s0 s) : Kept msk s0 (rewriteInFlight s) := by
  unfold rewriteInFlight
  try dsimp only
  repeat' first
    | with_reducible assumption | exact Mask.sub hm rfl | with_reducible apply forEach_kept | with_reducible apply hitCommit_kept
    | with_reducible apply onWr_kept | split | (intro)
    | (constructor <;> first | exact .inl (Mask.bit hm rfl) | exact .inr (by with_reducible rfl))

theorem loseBlock_kept {msk : Nat} {s0 : State} (row : FaultRow) (i : Nat) {s : State}
    (hm : 0x8201F00000000000000001403002000D002000200004011D00000280140564081000000957F1C1610000000000000000 ||| msk = msk) (hk : Kept msk s0 s) : Kept msk s0 (loseBlock row i s) := by
  unfold loseBlock
  try dsimp only
  repeat' first
    | with_reducible assumption | exact Mask.sub hm rfl | with_reducible apply rewriteInFlight_kept | with_reducible apply loseCipherCore_kept
    | with_reducible apply loseCore_kept | with_reducible apply loseEngine_kept | with_reducible apply loseStack_kept
    | with_reducible apply clampNow_kept | with_reducible apply raise_kept | with_reducible apply onKeep_kept | with_reducible apply onEcc_kept
    | with_reducible apply onTiles_kept | split | (intro)
    | (constructor <;> first | exact .inl (Mask.bit hm rfl) | exact .inr (by with_reducible rfl))

theorem takeOut_kept {msk : Nat} {s0 : State} (row : FaultRow) (i : Nat) {s : State}
    (hm : 0xFFCFFFFFFFFFFFFFFFF9FFFFFFFFFFFFFE7FFFFAFFFFFFFFFFFFFFFFFFFFFFFFF7EFFFFF5FF1F77BE01E3C3F00C70E00 ||| msk = msk) (hk : Kept msk s0 s) : Kept msk s0 (takeOut row i s) := by
  unfold takeOut
  try dsimp only
  repeat' first
    | with_reducible assumption | exact Mask.sub hm rfl | with_reducible apply loseBlock_kept | with_reducible apply noteOut_kept
    | with_reducible apply partReset_kept | with_reducible apply onBoot_kept | exact fun _ => BootKept.of_eq rfl rfl rfl rfl rfl | split | (intro)
    | (constructor <;> first | exact .inl (Mask.bit hm rfl) | exact .inr (by with_reducible rfl))

theorem engineFault_kept {msk : Nat} {s0 : State} (e : Nat) {s : State}
    (hm : 0xFFCFFFFFFFFFFFFFFFF9FFFFFFFFFFFFFE7FFFFAFFFFFFFFFFFFFFFFFFFFFFFFF7EFFFFFDFF1F77BE01E3C3F00C70E00 ||| msk = msk) (hk : Kept msk s0 s) : Kept msk s0 (engineFault e s) := by
  unfold engineFault
  try dsimp only
  repeat' first
    | with_reducible assumption | exact Mask.sub hm rfl | with_reducible apply takeOut_kept | with_reducible apply pack_kept | split | (intro)

/-! ## Machine/WriteOps.lean -/

theorem declareDead_kept {msk : Nat} {s0 : State} (m c : Nat) {s : State}
    (hm : 0x8200A000000000000000000000000000000000050000000000000000000000000000000857F1C0000000000000000000 ||| msk = msk) (hk : Kept msk s0 s) : Kept msk s0 (declareDead m c s) := by
  unfold declareDead
  try dsimp only
  repeat' first
    | with_reducible assumption | exact Mask.sub hm rfl | with_reducible apply lantern_kept | with_reducible apply raise_kept
    | with_reducible apply onEcc_kept
    | (intro x; dsimp only; split <;> (constructor <;> first | exact .inl (Mask.bit hm rfl) | exact .inr (by with_reducible rfl))) | split
    | (intro) | (constructor <;> first | exact .inl (Mask.bit hm rfl) | exact .inr (by with_reducible rfl))

theorem writePacket_kept {msk : Nat} {s0 : State} (c at_ : Nat) (last : Bool) (bs : List Bool) {s : State}
    (hm : 0x800000200000000000000000000000000000000000000000000000000000000000000000000000000000000000000000 ||| msk = msk) (hk : Kept msk s0 s) : Kept msk s0 (writePacket c at_ last bs s) := by
  unfold writePacket
  try dsimp only
  repeat' first
    | with_reducible assumption | exact Mask.sub hm rfl | with_reducible apply hlSend_kept | split | (intro)

theorem drainChannel_kept {msk : Nat} {s0 : State} (c fuel : Nat) {s : State}
    (hm : 0x800000200000000000000000000000000018000000000000000000000000000000000000000000000000000000000000 ||| msk = msk) (hk : Kept msk s0 s) : Kept msk s0 (drainChannel c fuel s) := by
  induction fuel generalizing s with
  | zero => exact hk
  | succ fuel ih =>
    unfold drainChannel
    dsimp only
    split
    · exact hk
    · exact ih (onTiles_kept _ (by intro x; (constructor <;> first | exact .inl (Mask.bit hm rfl) | exact .inr (by with_reducible rfl))) (writePacket_kept _ _ _ _ (Mask.sub hm rfl) hk))

theorem pushChannel_kept {msk : Nat} {s0 : State} (c at_ : Nat) (bs : List Bool) {s : State}
    (hm : 0x800000200000000000000000000000000018000000000000000000000000000000000000000000000000000000000000 ||| msk = msk) (hk : Kept msk s0 s) : Kept msk s0 (pushChannel c at_ bs s) := by
  unfold pushChannel
  try dsimp only
  repeat' first
    | with_reducible assumption | exact Mask.sub hm rfl | with_reducible apply drainChannel_kept | with_reducible apply onTiles_kept | split
    | (intro) | (constructor <;> first | exact .inl (Mask.bit hm rfl) | exact .inr (by with_reducible rfl))

theorem flushChannels_kept {msk : Nat} {s0 : State} {s : State}
    (hm : 0x800000200000000000000000000000000008000000000000000000000000000000000000000000000000000000000000 ||| msk = msk) (hk : Kept msk s0 s) : Kept msk s0 (flushChannels s) := by
  unfold flushChannels
  try dsimp only
  repeat' first
    | with_reducible assumption | exact Mask.sub hm rfl | with_reducible apply forEach_kept | with_reducible apply writePacket_kept
    | with_reducible apply onTiles_kept | split | (intro)
    | (constructor <;> first | exact .inl (Mask.bit hm rfl) | exact .inr (by with_reducible rfl))

theorem writeFrames_kept {msk : Nat} {s0 : State} (slot n : Nat) (rewritten : Bool) (payload : Bytes) {s : State}
    (hm : 0x800000200000000000000000000000000018000000000000000000000000000000000000000000000000000000000000 ||| msk = msk) (hk : Kept msk s0 s) : Kept msk s0 (writeFrames slot n rewritten payload s) := by
  unfold writeFrames
  try dsimp only
  repeat' first
    | with_reducible assumption | exact Mask.sub hm rfl | with_reducible apply forEach_kept | with_reducible apply pushChannel_kept | split
    | (intro)

theorem writeTail_kept {msk : Nat} {s0 : State} {s : State}
    (hm : 0x800000200000000000000000000000000018000000000000000000000000000000000000000000000000000000000000 ||| msk = msk) (hk : Kept msk s0 s) : Kept msk s0 (writeTail s) := by
  unfold writeTail
  try dsimp only
  repeat' first
    | with_reducible assumption | exact Mask.sub hm rfl | with_reducible apply forEach_kept | with_reducible apply flushChannels_kept
    | with_reducible apply pushChannel_kept | with_reducible apply emit_kept | split | (intro)

theorem writeNothing_kept {msk : Nat} {s0 : State} {s : State}
    (hm : 0x800000200000000000000000000000000018000000000000000000000000000000000000000000000000000000000000 ||| msk = msk) (hk : Kept msk s0 s) : Kept msk s0 (writeNothing s) := by
  unfold writeNothing
  try dsimp only
  repeat' first
    | with_reducible assumption | exact Mask.sub hm rfl | with_reducible apply forEach_kept | with_reducible apply flushChannels_kept
    | with_reducible apply pushChannel_kept | split | (intro)

theorem enterWrap_kept {msk : Nat} {s0 : State} (d : DataSet) {s : State}
    (hm : 0x1800000000000000000000000000000000000000000000000001805780700000000000000000000000000000000000000 ||| msk = msk) (hk : Kept msk s0 s) : Kept msk s0 (enterWrap d s) := by
  unfold enterWrap
  try dsimp only
  repeat' first
    | with_reducible assumption | exact Mask.sub hm rfl | with_reducible apply openWrap_kept | with_reducible apply onPart_kept
    | with_reducible apply onWr_kept | split | (intro)
    | (constructor <;> first | exact .inl (Mask.bit hm rfl) | exact .inr (by with_reducible rfl))

theorem kickWrites_kept {msk : Nat} {s0 : State} (retry : Bool) {s : State}
    (hm : 0x18000A02059805800C80A014030080000F64010000004511FC01805780700000000000000000001610000000000000000 ||| msk = msk) (hk : Kept msk s0 s) : Kept msk s0 (kickWrites retry s) := by
  unfold kickWrites
  try dsimp only
  repeat' first
    | with_reducible assumption | exact Mask.sub hm rfl | with_reducible apply enterWrap_kept | with_reducible apply beginRun_kept
    | with_reducible apply openSession_kept | split | (intro)

theorem pruneRewrites_kept {msk : Nat} {s0 : State} {s : State} (hm : 0x2000000000000000000000000000000000000000000 ||| msk = msk)
    (hk : Kept msk s0 s) : Kept msk s0 (pruneRewrites s) := by
  unfold pruneRewrites
  try dsimp only
  repeat' first
    | with_reducible assumption | exact Mask.sub hm rfl | with_reducible apply stage_kept | with_reducible apply onWr_kept | split | (intro)
    | (constructor <;> first | exact .inl (Mask.bit hm rfl) | exact .inr (by with_reducible rfl))

theorem passSlot_kept {msk : Nat} {s0 : State} (point : Rat) {s : State} (hm : 0x1100000000000000000000000000000000000000000 ||| msk = msk)
    (hk : Kept msk s0 s) : Kept msk s0 (passSlot point s) := by
  unfold passSlot
  try dsimp only
  repeat' first
    | with_reducible assumption | with_reducible apply onWr_kept | split | (intro)
    | (constructor <;> first | exact .inl (Mask.bit hm rfl) | exact .inr (by with_reducible rfl))

theorem leaveSlot_kept {msk : Nat} {s0 : State} (point : Rat) {s : State}
    (hm : 0x800000200000000000000000000000000018000000000000000001100000000000000000000000000000000000000000 ||| msk = msk) (hk : Kept msk s0 s) : Kept msk s0 (leaveSlot point s) := by
  unfold leaveSlot
  try dsimp only
  repeat' first
    | with_reducible assumption | exact Mask.sub hm rfl | with_reducible apply passSlot_kept | with_reducible apply writeNothing_kept | split
    | (intro)

theorem leaveSkip_kept {msk : Nat} {s0 : State} (point : Rat) {s : State}
    (hm : 0x800000200000000000000000000000000018000000000000000005300000000000000000000000000000000000000000 ||| msk = msk) (hk : Kept msk s0 s) : Kept msk s0 (leaveSkip point s) := by
  unfold leaveSkip
  try dsimp only
  repeat' first
    | with_reducible assumption | exact Mask.sub hm rfl | with_reducible apply leaveSlot_kept | with_reducible apply onWr_kept | split | (intro)
    | (constructor <;> first | exact .inl (Mask.bit hm rfl) | exact .inr (by with_reducible rfl))

theorem landCopy_kept {msk : Nat} {s0 : State} (n slot : Nat) (rewritten : Bool) (payload : Bytes) {s : State}
    (hm : 0x1000000000000000000000000000000000000000000000000000000000080000000000000000000000000000000000000 ||| msk = msk) (hk : Kept msk s0 s) : Kept msk s0 (landCopy n slot rewritten payload s) := by
  unfold landCopy
  try dsimp only
  repeat' first
    | with_reducible assumption | exact Mask.sub hm rfl | with_reducible apply onTape_kept | with_reducible apply draw_kept | split | (intro)

theorem noteCommit_kept {msk : Nat} {s0 : State} (d : DataSet) (n slot : Nat) (rewritten : Bool) {s : State}
    (hm : 0x100000000000000000000000000000000000000 ||| msk = msk) (hk : Kept msk s0 s) : Kept msk s0 (noteCommit d n slot rewritten s) := by
  unfold noteCommit
  try dsimp only
  repeat' first
    | with_reducible assumption | exact Mask.sub hm rfl | with_reducible apply noteIndex_kept | with_reducible apply onPart_kept
    | with_reducible apply onVol_kept | split | (intro)

theorem commitSet_kept {msk : Nat} {s0 : State} (d : DataSet) (rewritten : Bool) (point : Rat) {s : State}
    (hm : 0x180000020000000000000000000000000001802000000000000040BB00580000000000000000000000000000000000000 ||| msk = msk) (hk : Kept msk s0 s) : Kept msk s0 (commitSet d rewritten point s) := by
  unfold commitSet
  try dsimp only
  repeat' first
    | with_reducible assumption | exact Mask.sub hm rfl | with_reducible apply noteCommit_kept | with_reducible apply landCopy_kept
    | with_reducible apply passSlot_kept | with_reducible apply writeFrames_kept | with_reducible apply stage_kept
    | with_reducible apply onSet_kept | with_reducible apply onWr_kept | with_reducible apply onEcc_kept | split | (intro)
    | (constructor <;> first | exact .inl (Mask.bit hm rfl) | exact .inr (by with_reducible rfl))

theorem commitId_kept {msk : Nat} {s0 : State} (id : Nat) (point : Rat) {s : State}
    (hm : 0x180000020000000000000000000000000001802000000000000040BB00580000000000000000000000000000000000000 ||| msk = msk) (hk : Kept msk s0 s) : Kept msk s0 (commitId id point s) := by
  unfold commitId
  try dsimp only
  repeat' first
    | with_reducible assumption | exact Mask.sub hm rfl | with_reducible apply commitSet_kept | split | (intro)

theorem commitFiller_kept {msk : Nat} {s0 : State} (point : Rat) {s : State}
    (hm : 0x180000020000000000000000000000000001802000000040000040BB26D80008002008000000000000000000000000000 ||| msk = msk) (hk : Kept msk s0 s) : Kept msk s0 (commitFiller point s) := by
  unfold commitFiller
  try dsimp only
  repeat' first
    | with_reducible assumption | exact Mask.sub hm rfl | with_reducible apply commitId_kept | with_reducible apply sealSet_kept
    | with_reducible apply stage_kept | split | (intro)

theorem useSlot_kept {msk : Nat} {s0 : State} (point : Rat) {s : State}
    (hm : 0x18600A020000000000000000000000000001802000000040000140BB6ED81C0800209B059D7F1C0000000000000000000 ||| msk = msk) (hk : Kept msk s0 s) : Kept msk s0 (useSlot point s) := by
  unfold useSlot
  try dsimp only
  repeat' first
    | with_reducible assumption | exact Mask.sub hm rfl | with_reducible apply commitFiller_kept | with_reducible apply commitSet_kept
    | with_reducible apply leaveSlot_kept | with_reducible apply partitionFull_kept | with_reducible apply settle_kept
    | with_reducible apply onWr_kept | split | (intro)
    | (constructor <;> first | exact .inl (Mask.bit hm rfl) | exact .inr (by with_reducible rfl))

theorem backhitchIfDone_kept {msk : Nat} {s0 : State} {s : State}
    (hm : 0x8000A00059805800080A0000000800000000000000000000000000000000000000000000000000000000000000000000 ||| msk = msk) (hk : Kept msk s0 s) : Kept msk s0 (backhitchIfDone s) := by
  unfold backhitchIfDone
  try dsimp only
  repeat' first
    | with_reducible assumption | exact Mask.sub hm rfl | with_reducible apply startBackhitch_kept | split | (intro)

theorem partitionOut_kept {msk : Nat} {s0 : State} (p : Nat) {s : State}
    (hm : 0x8600A00059805800080A0000000800000000100000005407C00C0286ED01C0000209B059D7F1C0000000000000000000 ||| msk = msk) (hk : Kept msk s0 s) : Kept msk s0 (partitionOut p s) := by
  unfold partitionOut
  try dsimp only
  repeat' first
    | with_reducible assumption | exact Mask.sub hm rfl | with_reducible apply partitionFull_kept | with_reducible apply stage_kept
    | with_reducible apply endRun_kept | with_reducible apply onWr_kept | split | (intro)
    | (constructor <;> first | exact .inl (Mask.bit hm rfl) | exact .inr (by with_reducible rfl))

theorem afterVerify_kept {msk : Nat} {s0 : State} {s : State}
    (hm : 0x18600A02059805800C80A014030080000F640100000045D1FC0180579EF19C0000209B058800001610000000000000000 ||| msk = msk) (hk : Kept msk s0 s) : Kept msk s0 (afterVerify s) := by
  unfold afterVerify
  try dsimp only
  repeat' first
    | with_reducible assumption | exact Mask.sub hm rfl | with_reducible apply backhitchIfDone_kept | with_reducible apply kickWrites_kept
    | with_reducible apply releaseDomes_kept | with_reducible apply pack_kept | with_reducible apply endRun_kept | split | (intro)

theorem countDead_kept {msk : Nat} {s0 : State} (m : Nat) (v : VerifyRec) (limit : Nat) {s : State}
    (hm : 0x8200A0000000000000000000000000000000001D0000000000000000000000000000000857F1C0000000000000000000 ||| msk = msk) (hk : Kept msk s0 s) : Kept msk s0 (countDead m v limit s) := by
  unfold countDead
  try dsimp only
  repeat' first
    | with_reducible assumption | exact Mask.sub hm rfl | with_reducible apply forEach_kept | with_reducible apply declareDead_kept
    | with_reducible apply onEcc_kept
    | (intro x; dsimp only; split <;> (constructor <;> first | exact .inl (Mask.bit hm rfl) | exact .inr (by with_reducible rfl))) | split
    | (intro) | (constructor <;> first | exact .inl (Mask.bit hm rfl) | exact .inr (by with_reducible rfl))

theorem copyPassed_kept {msk : Nat} {s0 : State} (d : DataSet) (c : Commit) {s : State}
    (hm : 0x2000580000000000000000000000000000000000000 ||| msk = msk) (hk : Kept msk s0 s) : Kept msk s0 (copyPassed d c s) := by
  unfold copyPassed
  try dsimp only
  repeat' first
    | with_reducible assumption | exact Mask.sub hm rfl | with_reducible apply stage_kept | with_reducible apply onTape_kept
    | with_reducible apply onSet_kept | with_reducible apply onPart_kept | with_reducible apply onWr_kept | split | (intro)
    | (constructor <;> first | exact .inl (Mask.bit hm rfl) | exact .inr (by with_reducible rfl))

theorem countSkip_kept {msk : Nat} {s0 : State} (d : DataSet) (c : Commit) {s : State}
    (hm : 0x800000200000000000000000000000000018080000000000000804000400000000000000000000000000000000000000 ||| msk = msk) (hk : Kept msk s0 s) : Kept msk s0 (countSkip d c s) := by
  unfold countSkip
  try dsimp only
  repeat' first
    | with_reducible assumption | exact Mask.sub hm rfl | with_reducible apply writeTail_kept | with_reducible apply onSet_kept
    | with_reducible apply onWr_kept | with_reducible apply onEcc_kept | split | (intro)
    | (constructor <;> first | exact .inl (Mask.bit hm rfl) | exact .inr (by with_reducible rfl))

theorem copyFailed_kept {msk : Nat} {s0 : State} (d : DataSet) (c : Commit) {s : State}
    (hm : 0x800000200000000000000000000000000018080000000000000806000400000000000000000000000000000000000000 ||| msk = msk) (hk : Kept msk s0 s) : Kept msk s0 (copyFailed d c s) := by
  unfold copyFailed
  try dsimp only
  repeat' first
    | with_reducible assumption | exact Mask.sub hm rfl | with_reducible apply countSkip_kept | with_reducible apply needRewrite_kept
    | with_reducible apply onSet_kept | split | (intro)

theorem takeVerify_kept {msk : Nat} {s0 : State} (slot : Nat) {s : State}
    (hm : 0x18600A02059805800C80A014030080000F658181D00045D1FC01807F9EF99C0000209B058D7F1C1610000000000000000 ||| msk = msk) (hk : Kept msk s0 s) : Kept msk s0 (takeVerify slot s) := by
  unfold takeVerify
  try dsimp only
  repeat' first
    | with_reducible assumption | exact Mask.sub hm rfl | with_reducible apply copyFailed_kept | with_reducible apply copyPassed_kept
    | with_reducible apply countDead_kept | with_reducible apply afterVerify_kept | with_reducible apply stage_kept
    | with_reducible apply onWr_kept | with_reducible apply onTiles_kept | split | (intro)
    | (constructor <;> first | exact .inl (Mask.bit hm rfl) | exact .inr (by with_reducible rfl))

/-! ## Machine/AbortOps.lean -/

theorem cutWrite_kept {msk : Nat} {s0 : State} (c : Cmd) (st : Nat) (path : Bool) {s : State}
    (hm : 0x860000000000000000000000000000000000000000000400000000006D01C0000209B058800000000000000000000000 ||| msk = msk) (hk : Kept msk s0 s) : Kept msk s0 (cutWrite c st path s) := by
  unfold cutWrite
  try dsimp only
  repeat' first
    | with_reducible assumption | exact Mask.sub hm rfl | with_reducible apply truncateAt_kept | with_reducible apply dropItems_kept
    | with_reducible apply endWrite_kept | with_reducible apply onCmd_kept | split | (intro)

theorem abortCmd_kept {msk : Nat} {s0 : State} (st : Nat) (path : Bool) (c : Cmd) {s : State}
    (hm : 0x860000000000000000000000000000000000000000000400000000006D01C0000209B058800000000000000000000000 ||| msk = msk) (hk : Kept msk s0 s) : Kept msk s0 (abortCmd st path c s) := by
  unfold abortCmd
  try dsimp only
  repeat' first
    | with_reducible assumption | exact Mask.sub hm rfl | with_reducible apply cutWrite_kept | with_reducible apply endWrite_kept
    | with_reducible apply finishCmd_kept | with_reducible apply reply_kept | split | (intro)

theorem abortQueue_kept {msk : Nat} {s0 : State} (q st : Nat) {s : State}
    (hm : 0x860000000000000000000000000000000000000000000400000000006D01C0610209B058800000000000000000000000 ||| msk = msk) (hk : Kept msk s0 s) : Kept msk s0 (abortQueue q st s) := by
  unfold abortQueue
  try dsimp only
  repeat' first
    | with_reducible assumption | exact Mask.sub hm rfl | with_reducible apply forEach_kept | with_reducible apply abortCmd_kept
    | with_reducible apply abandonGroupsOf_kept | with_reducible apply settle_kept | with_reducible apply closeQueueHandles_kept
    | with_reducible apply onHost_kept | split | (intro)
    | (constructor <;> first | exact .inl (Mask.bit hm rfl) | exact .inr (by with_reducible rfl))

theorem dropReads_kept {msk : Nat} {s0 : State} {s : State}
    (hm : 0x8000A00059805800080A000000087F1F0000100000005007C00000000000000000000000000000000000000000000000 ||| msk = msk) (hk : Kept msk s0 s) : Kept msk s0 (dropReads s) := by
  unfold dropReads
  try dsimp only
  repeat' first
    | with_reducible assumption | exact Mask.sub hm rfl | with_reducible apply discardReadAhead_kept | with_reducible apply endRun_kept | split
    | (intro)

theorem functionReset_kept {msk : Nat} {s0 : State} (p : Port) {s : State}
    (hm : 0x8600A00059805800080A000000087F1F0000100000005407C00000006D01C061020DB058800000000000000800000000 ||| msk = msk) (hk : Kept msk s0 s) : Kept msk s0 (functionReset p s) := by
  unfold functionReset
  try dsimp only
  repeat' first
    | with_reducible assumption | exact Mask.sub hm rfl | with_reducible apply forEach_kept | with_reducible apply dropReads_kept
    | with_reducible apply abortQueue_kept | with_reducible apply reply_kept | with_reducible apply tidy_kept | with_reducible apply repath_kept
    | with_reducible apply onBoot_kept | with_reducible apply onHost_kept | exact fun _ => BootKept.of_eq rfl rfl rfl rfl rfl | split | (intro)
    | (constructor <;> first | exact .inl (Mask.bit hm rfl) | exact .inr (by with_reducible rfl))

theorem portFresh_kept {msk : Nat} {s0 : State} (p : Port) {s : State} (hm : 0xE000000000000000000000000 ||| msk = msk)
    (hk : Kept msk s0 s) : Kept msk s0 (portFresh p s) := by
  unfold portFresh
  try dsimp only
  repeat' first
    | with_reducible assumption | exact Mask.sub hm rfl | with_reducible apply onPort_kept | split | (intro)

theorem replayCmd_kept {msk : Nat} {s0 : State} (p : Port) (c : Cmd) {s : State}
    (hm : 0x800000000000000000000000000000000000000000000000000000000000000000008000000000000000000000000000 ||| msk = msk) (hk : Kept msk s0 s) : Kept msk s0 (replayCmd p c s) := by
  unfold replayCmd
  try dsimp only
  repeat' first
    | with_reducible assumption | exact Mask.sub hm rfl | with_reducible apply emitWrites_kept | with_reducible apply onCmd_kept | split | (intro)

theorem repost_kept {msk : Nat} {s0 : State} (q : Nat) (x : QueuePair) (p : Port) {s : State}
    (hm : 0x800000000000000000000000000000000000000000000000000000000000000000800000000000000000000000000000 ||| msk = msk) (hk : Kept msk s0 s) : Kept msk s0 (repost q x p s) := by
  unfold repost
  try dsimp only
  repeat' first
    | with_reducible assumption | exact Mask.sub hm rfl | with_reducible apply forEach_kept | with_reducible apply emitWrites_kept
    | with_reducible apply emit_kept | with_reducible apply onHost_kept | split | (intro)
    | (constructor <;> first | exact .inl (Mask.bit hm rfl) | exact .inr (by with_reducible rfl))

theorem resumeQueue_kept {msk : Nat} {s0 : State} (q : Nat) {s : State}
    (hm : 0x860000000000000000000000000000000000000000000000000000000000000000889008000000000000000000000000 ||| msk = msk) (hk : Kept msk s0 s) : Kept msk s0 (resumeQueue q s) := by
  unfold resumeQueue
  try dsimp only
  repeat' first
    | with_reducible assumption | exact Mask.sub hm rfl | with_reducible apply forEach_kept | with_reducible apply repost_kept
    | with_reducible apply replayCmd_kept | with_reducible apply flushHeld_kept | with_reducible apply msix_kept | split | (intro)

theorem breakCrypt_kept {msk : Nat} {s0 : State} (c : Cmd) {s : State}
    (hm : 0x86000000000000000000000000000000000000000000000000000000000000610209B058800000000000000000000000 ||| msk = msk) (hk : Kept msk s0 s) : Kept msk s0 (breakCrypt c s) := by
  unfold breakCrypt
  try dsimp only
  repeat' first
    | with_reducible assumption | exact Mask.sub hm rfl | with_reducible apply finishCmd_kept | with_reducible apply closeHandle_kept | split
    | (intro)

theorem failOver_kept {msk : Nat} {s0 : State} (q : Nat) {s : State}
    (hm : 0x8600A0000000000000000000000000000000000000000000000000000000006102A9B058D7F1C0000000000000000000 ||| msk = msk) (hk : Kept msk s0 s) : Kept msk s0 (failOver q s) := by
  unfold failOver
  try dsimp only
  repeat' first
    | with_reducible assumption | exact Mask.sub hm rfl | with_reducible apply forEach_kept | with_reducible apply breakCrypt_kept
    | with_reducible apply resumeQueue_kept | with_reducible apply onQp_kept | with_reducible apply lantern_kept | with_reducible apply msix_kept
    | with_reducible apply onHost_kept | split | (intro)
    | (constructor <;> first | exact .inl (Mask.bit hm rfl) | exact .inr (by with_reducible rfl))

theorem declareLost_kept {msk : Nat} {s0 : State} (p : Port) {s : State}
    (hm : 0x8600A0000000000000000000000000000000000000000000000000000000006102A9B058D7F1C0000000000000000000 ||| msk = msk) (hk : Kept msk s0 s) : Kept msk s0 (declareLost p s) := by
  unfold declareLost
  try dsimp only
  repeat' first
    | with_reducible assumption | exact Mask.sub hm rfl | with_reducible apply forEach_kept | with_reducible apply failOver_kept
    | with_reducible apply tidy_kept | with_reducible apply lantern_kept | with_reducible apply raise_kept | split | (intro)

theorem losePort_kept {msk : Nat} {s0 : State} (p : Port) {s : State}
    (hm : 0x8600A0000000000000000000000000000000000000000000000000000000006102A9B05ED7F1C0000000000000000000 ||| msk = msk) (hk : Kept msk s0 s) : Kept msk s0 (losePort p s) := by
  unfold losePort
  try dsimp only
  repeat' first
    | with_reducible assumption | exact Mask.sub hm rfl | with_reducible apply declareLost_kept | with_reducible apply onPort_kept | split
    | (intro)

theorem sendPending_kept {msk : Nat} {s0 : State} (p : Port) {s : State}
    (hm : 0x820000000000000000000000000000000000000000000000000000000000000000000008000000000000000000000000 ||| msk = msk) (hk : Kept msk s0 s) : Kept msk s0 (sendPending p s) := by
  unfold sendPending
  try dsimp only
  repeat' first
    | with_reducible assumption | exact Mask.sub hm rfl | with_reducible apply forEach_kept | with_reducible apply msix_kept
    | with_reducible apply onPba_kept | split | (intro)

theorem returnD0_kept {msk : Nat} {s0 : State} (p : Port) {s : State}
    (hm : 0x86000000000000000000000000000000000000000000000000000000000000000009B058800000000000000000000000 ||| msk = msk) (hk : Kept msk s0 s) : Kept msk s0 (returnD0 p s) := by
  unfold returnD0
  try dsimp only
  repeat' first
    | with_reducible assumption | exact Mask.sub hm rfl | with_reducible apply forEach_kept | with_reducible apply sendPending_kept
    | with_reducible apply tidy_kept | with_reducible apply flushHeld_kept | with_reducible apply sendWrites_kept | split | (intro)

theorem regainPort_kept {msk : Nat} {s0 : State} (p : Port) {s : State}
    (hm : 0x86000000000000000000000000000000000000000000000000000000000000000089B058800000000000000000000000 ||| msk = msk) (hk : Kept msk s0 s) : Kept msk s0 (regainPort p s) := by
  unfold regainPort
  try dsimp only
  repeat' first
    | with_reducible assumption | exact Mask.sub hm rfl | with_reducible apply forEach_kept | with_reducible apply sendPending_kept
    | with_reducible apply resumeQueue_kept | with_reducible apply tidy_kept | with_reducible apply repath_kept | split | (intro)

/-! ## Machine/Manifest.lean -/

theorem setSlotCode_kept {msk : Nat} {s0 : State} (p : Port) (code : Nat) {s : State} (hm : 0xC000 ||| msk = msk) (hk : Kept msk s0 s) : Kept msk s0
    (setSlotCode p code s) := by
  unfold setSlotCode
  try dsimp only
  repeat' first
    | with_reducible assumption | with_reducible apply onBoot_kept | exact fun _ => BootKept.of_eq rfl rfl rfl rfl rfl
    | (intro x; dsimp only; split <;> (constructor <;> first | exact .inl (Mask.bit hm rfl) | exact .inr (by with_reducible rfl))) | split
    | (intro) | (constructor <;> first | exact .inl (Mask.bit hm rfl) | exact .inr (by with_reducible rfl))

theorem putTable_kept {msk : Nat} {s0 : State} (t : Nat) (m content : Bytes) {s : State} (hm : 0x12000000000000 ||| msk = msk)
    (hk : Kept msk s0 s) : Kept msk s0 (putTable t m content s) := by
  unfold putTable
  try dsimp only
  repeat' first
    | with_reducible assumption | with_reducible apply onTrust_kept | split | (intro)
    | (constructor <;> first | exact .inl (Mask.bit hm rfl) | exact .inr (by with_reducible rfl))

theorem headAtStart_kept {msk : Nat} {s0 : State} (m content : Bytes) {s : State}
    (hm : 0x700000000000000000000000000000000000000000000000000000000 ||| msk = msk) (hk : Kept msk s0 s) : Kept msk s0 (headAtStart m content s) := by
  unfold headAtStart
  try dsimp only
  repeat' first
    | with_reducible assumption | with_reducible apply onEcc_kept | split | (intro)
    | (constructor <;> first | exact .inl (Mask.bit hm rfl) | exact .inr (by with_reducible rfl))

theorem checkTable_kept {msk : Nat} {s0 : State} (reads : Bool) (t : Nat) {s : State}
    (hm : 0x8200A000000000000000000000000000000000070000000000000000000000000000000857F1C0000012000000000000 ||| msk = msk) (hk : Kept msk s0 s) : Kept msk s0 (checkTable reads t s) := by
  unfold checkTable
  try dsimp only
  repeat' first
    | with_reducible assumption | exact Mask.sub hm rfl | with_reducible apply headAtStart_kept | with_reducible apply putTable_kept
    | with_reducible apply lantern_kept | exact fun _ => ⟨rfl, rfl, rfl, rfl, Memory.wf_writeBytes _ _⟩
    | exact fun _ => ⟨rfl, rfl, rfl, rfl, Memory.wf_erase _ _⟩
    | exact fun _ => ⟨rfl, rfl, rfl, rfl, fun h => Memory.wf_writeBytes _ _ (Memory.wf_erase _ _ h)⟩ | split | (intro)

theorem powerDomains_kept {msk : Nat} {s0 : State} {s : State} (hm : 0x12000000000000000 ||| msk = msk) (hk : Kept msk s0 s) : Kept msk s0
    (powerDomains s) := by
  unfold powerDomains
  try dsimp only
  repeat' first
    | with_reducible assumption | with_reducible apply onPower_kept | split | (intro)
    | (constructor <;> first | exact .inl (Mask.bit hm rfl) | exact .inr (by with_reducible rfl))

theorem bringPorts_kept {msk : Nat} {s0 : State} {s : State} (hm : 0xE000000000000000000000000 ||| msk = msk) (hk : Kept msk s0 s) : Kept msk s0
    (bringPorts s) := by
  unfold bringPorts
  try dsimp only
  repeat' first
    | with_reducible assumption | exact Mask.sub hm rfl | with_reducible apply onPort_kept | split | (intro)

theorem enterFallback_kept {msk : Nat} {s0 : State} (cause : Nat) {s : State}
    (hm : 0x8200A000000000000000000000000000000000000000000000000000000000000000000E57F1C0012000000000410800 ||| msk = msk) (hk : Kept msk s0 s) : Kept msk s0 (enterFallback cause s) := by
  unfold enterFallback
  try dsimp only
  repeat' first
    | with_reducible assumption | exact Mask.sub hm rfl | with_reducible apply bringPorts_kept | with_reducible apply powerDomains_kept
    | with_reducible apply lantern_kept | with_reducible apply onBoot_kept | exact fun _ => BootKept.of_eq rfl rfl rfl rfl rfl | split | (intro)
    | (constructor <;> first | exact .inl (Mask.bit hm rfl) | exact .inr (by with_reducible rfl))

theorem drawKeys_kept {msk : Nat} {s0 s : State}
    (hm : 0x10000000000000000000000000000000000000000000000000000000000000011C4000000000000000000000000000000 ||| msk = msk) (hk : Kept msk s0 s) : Kept msk s0 (drawKeys s) := by
  unfold drawKeys
  refine Kept.setFresh _ (Mask.sub hm rfl) (onCupola_kept _ ?_ (onKeep_kept _ ?_ hk)) <;>
  · intro x
    (constructor <;> first | exact .inl (Mask.bit hm rfl) | exact .inr (by with_reducible rfl))

theorem startSeal_kept {msk : Nat} {s0 : State} {s : State}
    (hm : 0x1000000000000000000000000000000000000000000000000000000000000000000000000000000000000068000000000 ||| msk = msk) (hk : Kept msk s0 s) : Kept msk s0 (startSeal s) := by
  unfold startSeal
  try dsimp only
  repeat' first
    | with_reducible assumption | exact Mask.sub hm rfl | with_reducible apply draw_kept | with_reducible apply onTrust_kept | split | (intro)
    | (constructor <;> first | exact .inl (Mask.bit hm rfl) | exact .inr (by with_reducible rfl))

theorem handOverTo_kept {msk : Nat} {s0 : State} (p : Port) {s : State}
    (hm : 0x10000000000000000000000000000000000000000000000000000000000000011C400000E000000012000000000B1E800 ||| msk = msk) (hk : Kept msk s0 s) : Kept msk s0 (handOverTo p s) := by
  unfold handOverTo
  try dsimp only
  repeat' first
    | with_reducible assumption | exact Mask.sub hm rfl | with_reducible apply drawKeys_kept | with_reducible apply bringPorts_kept
    | with_reducible apply powerDomains_kept | with_reducible apply setSlotCode_kept | with_reducible apply onBoot_kept
    | exact fun _ => BootKept.of_eq rfl rfl rfl rfl rfl | split | (intro)
    | (constructor <;> first | exact .inl (Mask.bit hm rfl) | exact .inr (by with_reducible rfl))

theorem trySlots_kept {msk : Nat} {s0 : State} (reads : Port → Bool) (ps : List Port) {s : State}
    (hm : 0x18200A00000000000000000000000000000000000000000000000000000000011C400000E57F1C0012000000000F1E800 ||| msk = msk) (hk : Kept msk s0 s) : Kept msk s0 (trySlots reads ps s) := by
  induction ps generalizing s with
  | nil => exact enterFallback_kept _ (Mask.sub hm rfl) hk
  | cons p ps ih =>
    unfold trySlots
    dsimp only
    split
    · exact handOverTo_kept _ (Mask.sub hm rfl) hk
    · exact ih (setSlotCode_kept _ _ (Mask.sub hm rfl) hk)

theorem startSeen_kept {msk : Nat} {s0 : State} (o : StartObs) {s : State} (hm : 0xE000000000000002000000000 ||| msk = msk)
    (hk : Kept msk s0 s) : Kept msk s0 (startSeen o s) := by
  unfold startSeen
  try dsimp only
  repeat' first
    | with_reducible assumption | exact Mask.sub hm rfl | with_reducible apply onPort_kept | with_reducible apply onBoot_kept
    | exact fun _ => BootKept.of_eq rfl rfl rfl rfl rfl | split | (intro)
    | (constructor <;> first | exact .inl (Mask.bit hm rfl) | exact .inr (by with_reducible rfl))

theorem chooseImage_kept {msk : Nat} {s0 : State} (o : StartObs) {u : State}
    (hm : 0x18200A00000000000000000000000000000000007000000000000000000000011C400000E57F1C0012012002000F1E800 ||| msk = msk) (hk : Kept msk s0 u) : Kept msk s0 (chooseImage o u) := by
  unfold chooseImage
  try dsimp only
  repeat' first
    | with_reducible assumption | exact Mask.sub hm rfl | with_reducible apply forEach_kept | with_reducible apply startSeen_kept
    | with_reducible apply trySlots_kept | with_reducible apply enterFallback_kept | with_reducible apply checkTable_kept
    | exact fun _ => ⟨rfl, rfl, rfl, rfl, Memory.wf_writeBytes _ _⟩ | exact fun _ => ⟨rfl, rfl, rfl, rfl, Memory.wf_erase _ _⟩
    | exact fun _ => ⟨rfl, rfl, rfl, rfl, fun h => Memory.wf_writeBytes _ _ (Memory.wf_erase _ _ h)⟩ | split | (intro)

/-! ## Machine/PowerOps.lean -/

theorem powerState_kept {msk : Nat} {s0 : State} (ps : Fin 5) {s : State} (hm : 0x16000000000000000 ||| msk = msk)
    (hk : Kept msk s0 s) : Kept msk s0 (powerState ps s) := by
  unfold powerState
  try dsimp only
  repeat' first
    | with_reducible assumption | with_reducible apply onPower_kept | split | (intro)
    | (constructor <;> first | exact .inl (Mask.bit hm rfl) | exact .inr (by with_reducible rfl))

theorem groupsOff_kept {msk : Nat} {s0 : State} {s : State}
    (hm : 0x200000000000000000000000000000000000000000000000000000000000000000000000000000000000000000 ||| msk = msk) (hk : Kept msk s0 s) : Kept msk s0 (groupsOff s) := by
  unfold groupsOff
  try dsimp only
  repeat' first
    | with_reducible assumption | with_reducible apply onHlk_kept | split | (intro)
    | (constructor <;> first | exact .inl (Mask.bit hm rfl) | exact .inr (by with_reducible rfl))

theorem enterPs_kept {msk : Nat} {s0 : State} (ps : Fin 5) {s : State}
    (hm : 0x20000000000000000000007F1F0000000000000000000000000000000000000000000000016000000000000000 ||| msk = msk) (hk : Kept msk s0 s) : Kept msk s0 (enterPs ps s) := by
  unfold enterPs
  try dsimp only
  repeat' first
    | with_reducible assumption | exact Mask.sub hm rfl | with_reducible apply groupsOff_kept | with_reducible apply powerState_kept
    | with_reducible apply discardReadAhead_kept | split | (intro)

theorem leavePs_kept {msk : Nat} {s0 : State} {s : State} (hm : 0x16000000000000000 ||| msk = msk) (hk : Kept msk s0 s) : Kept msk s0
    (leavePs s) := by
  unfold leavePs
  try dsimp only
  repeat' first
    | with_reducible assumption | exact Mask.sub hm rfl | with_reducible apply powerState_kept | split | (intro)

theorem rail_kept {msk : Nat} {s0 : State} (turnOn : Bool) (i : Nat) {s : State}
    (hm : 0x800000000000000000000000000000000000000000000000000000000000000000000000000000040000000000000000 ||| msk = msk) (hk : Kept msk s0 s) : Kept msk s0 (rail turnOn i s) := by
  unfold rail
  try dsimp only
  repeat' first
    | with_reducible assumption | exact Mask.sub hm rfl | with_reducible apply emit_kept | with_reducible apply onPower_kept | split | (intro)
    | (constructor <;> first | exact .inl (Mask.bit hm rfl) | exact .inr (by with_reducible rfl))

theorem railOff_kept {msk : Nat} {s0 : State} (acks : BitVec 7) (i : Nat) {s : State}
    (hm : 0x800000000000000000000000000000000000000000000000000000000000000000000000000000040000000000000000 ||| msk = msk) (hk : Kept msk s0 s) : Kept msk s0 (railOff acks i s) := by
  unfold railOff
  try dsimp only
  repeat' first
    | with_reducible assumption | exact Mask.sub hm rfl | with_reducible apply rail_kept | with_reducible apply emit_kept | split | (intro)

theorem enterPs4_kept {msk : Nat} {s0 : State} (acks : BitVec 7) {s : State}
    (hm : 0xFFCFFFFFFFFFFFFFFFF9FFFFFFFFFFFFFE7FFFFAFFFFFFFFFFFFFFFFFFFFFFFFF7EFFFFF5FF1F77FE01E3C1F00C70E00 ||| msk = msk) (hk : Kept msk s0 s) : Kept msk s0 (enterPs4 acks s) := by
  unfold enterPs4
  dsimp only
  refine forEach_kept _ _ (fun x t ht => railOff_kept _ _ (Mask.sub hm rfl) ht) ?_
  have h := afterPartReset_kept (Mask.sub hm rfl) (stopTokens_kept (Mask.sub hm rfl) hk)
  refine h.trans ?_
  generalize afterPartReset (stopTokens s) = t
  refine ⟨rfl, BootKept.of_eq rfl rfl rfl rfl rfl, id, ?_, ?_, TrustAgree.refl _ _, ?_, LanternAgree.refl _ _, HostAgree.refl _ _, KeepAgree.refl _ _, CupolaAgree.refl _ _, CzAgree.refl _ _, DriveAgree.refl _ _, WrAgree.refl _ _, WvnAgree.refl _ _, EccAgree.refl _ _, TilesAgree.refl _ _, RdAgree.refl _ _, StpAgree.refl _ _, HlkAgree.refl _ _, BlfAgree.refl _ _, HqAgree.refl _ _, .inr rfl, .inr rfl⟩ <;> (constructor <;> first | exact .inl (Mask.bit hm rfl) | exact .inr (by with_reducible rfl))

theorem leaveState_kept {msk : Nat} {s0 : State} {s : State}
    (hm : 0x800000000000000000000000000000000000000000000000000000000000000000000000000000056000000000000000 ||| msk = msk) (hk : Kept msk s0 s) : Kept msk s0 (leaveState s) := by
  unfold leaveState
  try dsimp only
  repeat' first
    | with_reducible assumption | exact Mask.sub hm rfl | with_reducible apply forEach_kept | with_reducible apply rail_kept
    | with_reducible apply leavePs_kept | with_reducible apply onPower_kept | split | (intro)
    | (constructor <;> first | exact .inl (Mask.bit hm rfl) | exact .inr (by with_reducible rfl))

theorem execDomainIdleGate_kept {msk : Nat} (d : Fin 111) {s t : State} (hm : 0x10000000000000000 ||| msk = msk)
    (h : execDomainIdleGate d s = .next t) : Kept msk s t := by
  unfold execDomainIdleGate at h
  refine goLive_kept (fun u hk => ?_) h
  try dsimp only
  repeat' first
    | with_reducible assumption | with_reducible apply onPower_kept | split | (intro)
    | (constructor <;> first | exact .inl (Mask.bit hm rfl) | exact .inr (by with_reducible rfl))

theorem execPs4Commit_kept {msk : Nat} {s t : State}
    (hm : 0x1FFCFFFFFFFFFFFFFFFF9FFFFFFFFFFFFFE7FFFFAFFFFFFFFFFFFFFFFFFFFFFFFF7EFFFFF5FF1F77FE03E3C1F00C70E00 ||| msk = msk) (h : execPs4Commit s = .next t) : Kept msk s t := by
  unfold execPs4Commit at h
  refine goLive_kept (fun u hk => ?_) h
  try dsimp only
  repeat' first
    | with_reducible assumption | exact Mask.sub hm rfl | with_reducible apply enterPs4_kept | with_reducible apply advanceTo_kept
    | with_reducible apply draw_kept | split
    | (intro)

theorem execPowerStateExit_kept {msk : Nat} (cause : WakeCause) {s t : State}
    (hm : 0x800000000000000000000000000000000000000000000000000000000000000000000000000000056000000000000000 ||| msk = msk) (h : execPowerStateExit cause s = .next t) : Kept msk s t := by
  unfold execPowerStateExit at h
  refine go_kept (fun u hk => ?_) h
  try dsimp only
  repeat' first
    | with_reducible assumption | exact Mask.sub hm rfl | with_reducible apply leaveState_kept | split | (intro)

/-! ## Machine/HostQueues.lean -/

theorem enableAdmin_kept {msk : Nat} {s0 : State} (p : Port) {s : State} (hm : 0x1030000000000000000000000000 ||| msk = msk)
    (hk : Kept msk s0 s) : Kept msk s0 (enableAdmin p s) := by
  unfold enableAdmin
  try dsimp only
  repeat' first
    | with_reducible assumption | with_reducible apply onHost_kept | split | (intro)
    | (constructor <;> first | exact .inl (Mask.bit hm rfl) | exact .inr (by with_reducible rfl))

theorem badDoorbell_kept {msk : Nat} {s0 : State} (p : Port) {s : State}
    (hm : 0x8200A0000000000000000000000000000000000000000000000000000000000000400008400000016000000000000000 ||| msk = msk) (hk : Kept msk s0 s) : Kept msk s0 (badDoorbell p s) := by
  unfold badDoorbell
  try dsimp only
  repeat' first
    | with_reducible assumption | exact Mask.sub hm rfl | with_reducible apply leavePs_kept | with_reducible apply raise_kept
    | with_reducible apply deviceEvent_kept | with_reducible apply onHost_kept | split | (intro)
    | (constructor <;> first | exact .inl (Mask.bit hm rfl) | exact .inr (by with_reducible rfl))

theorem tailDoorbell_kept {msk : Nat} {s0 : State} (p : Port) (q tail : Nat) {s : State}
    (hm : 0x8200A0000000000000000000000000000000000000000000000000000000000000403008400000016000000000000000 ||| msk = msk) (hk : Kept msk s0 s) : Kept msk s0 (tailDoorbell p q tail s) := by
  unfold tailDoorbell
  try dsimp only
  repeat' first
    | with_reducible assumption | exact Mask.sub hm rfl | with_reducible apply badDoorbell_kept | with_reducible apply leavePs_kept
    | with_reducible apply acceptTail_kept | with_reducible apply onQp_kept | with_reducible apply raise_kept | split | (intro)

theorem headDoorbell_kept {msk : Nat} {s0 : State} (p : Port) (q head : Nat) {s : State}
    (hm : 0x8600A000000000000000000000000000000000000000000000000000000000000049B058C00000016000000000000000 ||| msk = msk) (hk : Kept msk s0 s) : Kept msk s0 (headDoorbell p q head s) := by
  unfold headDoorbell
  try dsimp only
  repeat' first
    | with_reducible assumption | exact Mask.sub hm rfl | with_reducible apply badDoorbell_kept | with_reducible apply leavePs_kept
    | with_reducible apply tidy_kept | with_reducible apply flushHeld_kept | with_reducible apply onQp_kept | split | (intro)

theorem negotiated_kept {msk : Nat} {s0 : State} (e : Bytes) {s : State} (hm : 0x1000000000000000000000000000 ||| msk = msk)
    (hk : Kept msk s0 s) : Kept msk s0 (negotiated e s) := by
  unfold negotiated
  try dsimp only
  repeat' first
    | with_reducible assumption | exact Mask.sub hm rfl | with_reducible apply onQp_kept | split | (intro)

theorem endFetched_kept {msk : Nat} {s0 : State} (c : Cmd) (st : Nat) {s : State}
    (hm : 0x860000000000000000000000000000000000000000000000000000000000000000081008000000000000000000000000 ||| msk = msk) (hk : Kept msk s0 s) : Kept msk s0 (endFetched c st s) := by
  unfold endFetched
  try dsimp only
  repeat' first
    | with_reducible assumption | exact Mask.sub hm rfl | with_reducible apply postComp_kept | with_reducible apply flushGroups_kept | split
    | (intro)

theorem fetchOne_kept {msk : Nat} {s0 : State} (q : Nat) (e0 : Bytes) {s : State}
    (hm : 0x860000000000000000000000000000000000000000000000000000000000000000089008000000000000000000000000 ||| msk = msk) (hk : Kept msk s0 s) : Kept msk s0 (fetchOne q e0 s) := by
  unfold fetchOne
  try dsimp only
  repeat' first
    | with_reducible assumption | exact Mask.sub hm rfl | with_reducible apply endFetched_kept | with_reducible apply negotiated_kept
    | with_reducible apply onQp_kept | with_reducible apply onHost_kept | split | (intro)
    | (constructor <;> first | exact .inl (Mask.bit hm rfl) | exact .inr (by with_reducible rfl))

theorem fetchRound_kept {msk : Nat} {s0 : State} (entries : List Bytes) {s : State}
    (hm : 0x86000000000000000000000000000000000000000000000000000000000000000009F058800000000000000000000000 ||| msk = msk) (hk : Kept msk s0 s) : Kept msk s0 (fetchRound entries s) := by
  unfold fetchRound
  try dsimp only
  repeat' first
    | with_reducible assumption | exact Mask.sub hm rfl | with_reducible apply forEach_kept | with_reducible apply fetchOne_kept
    | with_reducible apply tidy_kept | with_reducible apply onHost_kept | split | (intro)
    | (constructor <;> first | exact .inl (Mask.bit hm rfl) | exact .inr (by with_reducible rfl))

theorem startCmd_kept {msk : Nat} {s0 : State} (c : Cmd) (sgl : List Bytes) {s : State}
    (hm : 0x86000000000000000000000000000000000000000000000000000000000000000009B058800000000000000000000000 ||| msk = msk) (hk : Kept msk s0 s) : Kept msk s0 (startCmd c sgl s) := by
  unfold startCmd
  try dsimp only
  repeat' first
    | with_reducible assumption | exact Mask.sub hm rfl | with_reducible apply reply_kept | with_reducible apply onCmd_kept | split | (intro)

theorem setMask_kept {msk : Nat} {s0 : State} (p : Port) (vector : Option (Fin 257)) (m : Bool) {s : State}
    (hm : 0xE000000000000000000000000 ||| msk = msk) (hk : Kept msk s0 s) : Kept msk s0 (setMask p vector m s) := by
  unfold setMask
  try dsimp only
  repeat' first
    | with_reducible assumption | exact Mask.sub hm rfl | with_reducible apply msix_kept | with_reducible apply onPort_kept | split | (intro)

theorem moveQueues_kept {msk : Nat} {s0 : State} (p : Port) {s : State}
    (hm : 0x86000000000000000000000000000000000000000000000000000000000000000009B058800000000000000000000000 ||| msk = msk) (hk : Kept msk s0 s) : Kept msk s0 (moveQueues p s) := by
  unfold moveQueues
  try dsimp only
  repeat' first
    | with_reducible assumption | exact Mask.sub hm rfl | with_reducible apply forEach_kept | with_reducible apply tidy_kept
    | with_reducible apply repath_kept | with_reducible apply flushHeld_kept | with_reducible apply sendWrites_kept | split | (intro)

theorem execAdminEnable_kept {msk : Nat} (p : Port) {s t : State} (hm : 0x1030000000000000000000000000 ||| msk = msk)
    (h : execAdminEnable p s = .next t) : Kept msk s t := by
  unfold execAdminEnable at h
  refine goLive_kept (fun u hk => ?_) h
  try dsimp only
  repeat' first
    | with_reducible assumption | exact Mask.sub hm rfl | with_reducible apply enableAdmin_kept | split | (intro)

theorem execFuncReset_kept {msk : Nat} (p : Port) {s t : State}
    (hm : 0x8600A00059805800080A000000087F1F0000100000005407C00000006D01C061020DB058800000000000000800000000 ||| msk = msk) (h : execFuncReset p s = .next t) : Kept msk s t := by
  unfold execFuncReset at h
  refine goLive_kept (fun u hk => ?_) h
  try dsimp only
  repeat' first
    | with_reducible assumption | exact Mask.sub hm rfl | with_reducible apply functionReset_kept | split | (intro)

theorem execSqTailDoorbell_kept {msk : Nat} (p : Port) (q : Fin 256) (tail : BitVec 16) {s t : State}
    (hm : 0x8200A0000000000000000000000000000000000000000000000000000000000000403008400000016000000000000000 ||| msk = msk) (h : execSqTailDoorbell p q tail s = .next t) : Kept msk s t := by
  unfold execSqTailDoorbell at h
  refine goLive_kept (fun u hk => ?_) h
  try dsimp only
  repeat' first
    | with_reducible assumption | exact Mask.sub hm rfl | with_reducible apply tailDoorbell_kept | split | (intro)

theorem execCqHeadDoorbell_kept {msk : Nat} (p : Port) (q : Fin 256) (head : BitVec 16) {s t : State}
    (hm : 0x8600A000000000000000000000000000000000000000000000000000000000000049B058C00000016000000000000000 ||| msk = msk) (h : execCqHeadDoorbell p q head s = .next t) : Kept msk s t := by
  unfold execCqHeadDoorbell at h
  refine goLive_kept (fun u hk => ?_) h
  try dsimp only
  repeat' first
    | with_reducible assumption | exact Mask.sub hm rfl | with_reducible apply headDoorbell_kept | split | (intro)

theorem execSqFetch_kept {msk : Nat} (entries : List Bytes) {s t : State}
    (hm : 0x86000000000000000000000000000000000000000000000000000000000000000009F058800000000000000000000000 ||| msk = msk) (h : execSqFetch entries s = .next t) : Kept msk s t := by
  unfold execSqFetch at h
  refine goLive_kept (fun u hk => ?_) h
  try dsimp only
  repeat' first
    | with_reducible assumption | exact Mask.sub hm rfl | with_reducible apply fetchRound_kept | split | (intro)

theorem execCommandStart_kept {msk : Nat} (sgl : List Bytes) {s t : State}
    (hm : 0x86000000000000000000000000000000000000000000000000000000000000000009B058800000000000000000000000 ||| msk = msk) (h : execCommandStart sgl s = .next t) : Kept msk s t := by
  unfold execCommandStart at h
  refine goLive_kept (fun u hk => ?_) h
  try dsimp only
  repeat' first
    | with_reducible assumption | exact Mask.sub hm rfl | with_reducible apply startCmd_kept | split | (intro)

theorem execHoldoffExpiry_kept {msk : Nat} (g : Fin 32) {s t : State}
    (hm : 0x820000000000000000000000000000000000000000000000000000000000000000080008000000000020000000000000 ||| msk = msk) (h : execHoldoffExpiry g s = .next t) : Kept msk s t := by
  unfold execHoldoffExpiry at h
  refine goLive_kept (fun u hk => ?_) h
  try dsimp only
  repeat' first
    | with_reducible assumption | exact Mask.sub hm rfl | with_reducible apply deliver_kept | with_reducible apply advanceTo_kept | split
    | (intro)

theorem execStaleExpiry_kept {msk : Nat} (g : Fin 32) {s t : State}
    (hm : 0x820000000000000000000000000000000000000000000000000000000000000000080008000000000020000000000000 ||| msk = msk) (h : execStaleExpiry g s = .next t) : Kept msk s t := by
  unfold execStaleExpiry at h
  refine goLive_kept (fun u hk => ?_) h
  try dsimp only
  repeat' first
    | with_reducible assumption | exact Mask.sub hm rfl | with_reducible apply deliver_kept | with_reducible apply advanceTo_kept | split
    | (intro)

theorem execMsixMaskWrite_kept {msk : Nat} (p : Port) (vector : Option (Fin 257)) (masked : Bool) {s t : State}
    (hm : 0x82000000000000000000000000000000000000000000000000000000000000000000000E000000000000000000000000 ||| msk = msk) (h : execMsixMaskWrite p vector masked s = .next t) : Kept msk s t := by
  unfold execMsixMaskWrite at h
  refine goLive_kept (fun u hk => ?_) h
  try dsimp only
  repeat' first
    | with_reducible assumption | exact Mask.sub hm rfl | with_reducible apply setMask_kept | with_reducible apply sendPending_kept | split
    | (intro)

theorem execPortLoss_kept {msk : Nat} (p : Port) {s t : State}
    (hm : 0x8600A0000000000000000000000000000000000000000000000000000000006102A9B05ED7F1C0000000000000000000 ||| msk = msk) (h : execPortLoss p s = .next t) : Kept msk s t := by
  unfold execPortLoss at h
  refine goLive_kept (fun u hk => ?_) h
  try dsimp only
  repeat' first
    | with_reducible assumption | exact Mask.sub hm rfl | with_reducible apply losePort_kept | split | (intro)

theorem execPathRestored_kept {msk : Nat} (l : PortLink) {s t : State}
    (hm : 0x86000000000000000000000000000000000000000000000000000000000000000089B05E800000000000000000000000 ||| msk = msk) (h : execPathRestored l s = .next t) : Kept msk s t := by
  unfold execPathRestored at h
  refine goLive_kept (fun u hk => ?_) h
  try dsimp only
  repeat' first
    | with_reducible assumption | exact Mask.sub hm rfl | with_reducible apply regainPort_kept | with_reducible apply onPort_kept | split
    | (intro)

theorem execFunctionD3hot_kept {msk : Nat} (p : Port) (bmeCleared : Bool) {s t : State}
    (hm : 0x8600A0000000000000000000000000000000000000000000000000000000006102A9B05ED7F1C0000000000000000000 ||| msk = msk) (h : execFunctionD3hot p bmeCleared s = .next t) : Kept msk s t := by
  unfold execFunctionD3hot at h
  refine goLive_kept (fun u hk => ?_) h
  try dsimp only
  repeat' first
    | with_reducible assumption | exact Mask.sub hm rfl | with_reducible apply moveQueues_kept | with_reducible apply declareLost_kept
    | with_reducible apply onPort_kept | split | (intro)

theorem execFunctionD0Return_kept {msk : Nat} (p : Port) {s t : State}
    (hm : 0x8600A0000000000000000000000000000000000000000000000000000000006102A9B05ED7F1C0000000000000000000 ||| msk = msk) (h : execFunctionD0Return p s = .next t) : Kept msk s t := by
  unfold execFunctionD0Return at h
  refine goLive_kept (fun u hk => ?_) h
  try dsimp only
  repeat' first
    | with_reducible assumption | exact Mask.sub hm rfl | with_reducible apply forEach_kept | with_reducible apply returnD0_kept
    | with_reducible apply failOver_kept | with_reducible apply onPort_kept | split | (intro)

end Sys2Proof.Machine
end

