-- ==== Sys2Proof/Laws/KeptHost.lean ====
section
/-! SUPPORT. What the operations and commands of Admin, Belfry, Tables, HeadLink, Channels, KeyCmds, WritePath, Crypt keep (see Laws/Kept.lean). -/

set_option linter.unusedTactic false
set_option linter.unreachableTactic false
set_option linter.unusedVariables false

namespace Sys2Proof.Machine

/-! ## Machine/Admin.lean -/

theorem adminRun_kept {msk : Nat} {s0 : State} (tag : BitVec 16) (op : Nat) (f : Cmd → State → State) {s : State}
    (hf : ∀ x0 t, Kept msk s0 t → Kept msk s0 (f x0 t)) (hk : Kept msk s0 s) : Kept msk s0 (adminRun tag op f s) := by
  unfold adminRun
  try dsimp only
  repeat' first
    | with_reducible assumption | with_reducible apply hf | split | (intro)

theorem adminSub_kept {msk : Nat} {s0 : State} (tag : BitVec 16) (op sub : Nat) (f : Cmd → State → State) {s : State}
    (hf : ∀ x0 t, Kept msk s0 t → Kept msk s0 (f x0 t)) (hk : Kept msk s0 s) : Kept msk s0 (adminSub tag op sub f s) := by
  unfold adminSub
  try dsimp only
  repeat' first
    | with_reducible assumption | with_reducible apply hf | exact Mask.sub hm rfl | with_reducible apply adminRun_kept | split | (intro)

theorem adminDone_kept {msk : Nat} {s0 : State} (c : Cmd) (st res : Nat) {s : State}
    (hm : 0x86000000000000000000000000000000000000000000000000000000000000000009B058800000000000000000000000 ||| msk = msk) (hk : Kept msk s0 s) : Kept msk s0 (adminDone c st res s) := by
  unfold adminDone
  try dsimp only
  repeat' first
    | with_reducible assumption | exact Mask.sub hm rfl | with_reducible apply reply_kept | split | (intro)

theorem createQueue_kept {msk : Nat} {s0 : State} (c : Cmd) {s : State}
    (hm : 0x86000000000000000000000000000000000000000000000000000000000000000009B058800000000000000000000000 ||| msk = msk) (hk : Kept msk s0 s) : Kept msk s0 (createQueue c s) := by
  unfold createQueue
  try dsimp only
  repeat' first
    | with_reducible assumption | exact Mask.sub hm rfl | with_reducible apply adminDone_kept | with_reducible apply repath_kept
    | with_reducible apply onHost_kept | split | (intro)
    | (constructor <;> first | exact .inl (Mask.bit hm rfl) | exact .inr (by with_reducible rfl))

theorem resetNamed_kept {msk : Nat} {s0 : State} (st : Nat) (c : Cmd) {s : State}
    (hm : 0x860000000000000000000000000000000000000000000400000000006D01C0610209B058800000000000000000000000 ||| msk = msk) (hk : Kept msk s0 s) : Kept msk s0 (resetNamed st c s) := by
  unfold resetNamed
  try dsimp only
  repeat' first
    | with_reducible assumption | exact Mask.sub hm rfl | with_reducible apply adminDone_kept | with_reducible apply abortQueue_kept
    | with_reducible apply onCmd_kept | split | (intro)

theorem setFloor_kept {msk : Nat} {s0 : State} (c : Cmd) {s : State}
    (hm : 0x8600A000000000000000000000000000000000000000000000000000000000000019B058D7F1C0000000000000000000 ||| msk = msk) (hk : Kept msk s0 s) : Kept msk s0 (setFloor c s) := by
  unfold setFloor
  try dsimp only
  repeat' first
    | with_reducible assumption | exact Mask.sub hm rfl | with_reducible apply adminDone_kept | with_reducible apply lantern_kept
    | with_reducible apply onHost_kept | split | (intro)
    | (constructor <;> first | exact .inl (Mask.bit hm rfl) | exact .inr (by with_reducible rfl))

theorem movePort_kept {msk : Nat} {s0 : State} (c : Cmd) {s : State}
    (hm : 0x86000000000000000000000000000000000000000000000000000000000000000009B058800000000000000000000000 ||| msk = msk) (hk : Kept msk s0 s) : Kept msk s0 (movePort c s) := by
  unfold movePort
  try dsimp only
  repeat' first
    | with_reducible assumption | exact Mask.sub hm rfl | with_reducible apply adminDone_kept | with_reducible apply flushHeld_kept
    | with_reducible apply onQp_kept | split | (intro)

theorem setModeration_kept {msk : Nat} {s0 : State} (c : Cmd) {s : State}
    (hm : 0x86000000000000000000000000000000000000000000000000000000000000000009B058800000000000000000000000 ||| msk = msk) (hk : Kept msk s0 s) : Kept msk s0 (setModeration c s) := by
  unfold setModeration
  try dsimp only
  repeat' first
    | with_reducible assumption | exact Mask.sub hm rfl | with_reducible apply adminDone_kept | with_reducible apply flushGroup_kept
    | with_reducible apply onHost_kept | split | (intro)
    | (constructor <;> first | exact .inl (Mask.bit hm rfl) | exact .inr (by with_reducible rfl))

theorem setArea_kept {msk : Nat} {s0 : State} (data : Bytes) (c : Cmd) {s : State}
    (hm : 0x86000000000000000000000000000000000000000000000000000000020000000009B058800000000000000000000000 ||| msk = msk) (hk : Kept msk s0 s) : Kept msk s0 (setArea data c s) := by
  unfold setArea
  try dsimp only
  repeat' first
    | with_reducible assumption | exact Mask.sub hm rfl | with_reducible apply adminDone_kept | with_reducible apply cmGroup_kept
    | with_reducible apply onCmd_kept | split | (intro)

theorem clearDead_kept {msk : Nat} {s0 : State} (c : Cmd) {s : State}
    (hm : 0x8600A000000000000000000000000000000000050000000000000000000000000009B058D7F1C0000000000000000000 ||| msk = msk) (hk : Kept msk s0 s) : Kept msk s0 (clearDead c s) := by
  unfold clearDead
  try dsimp only
  repeat' first
    | with_reducible assumption | exact Mask.sub hm rfl | with_reducible apply adminDone_kept | with_reducible apply lantern_kept
    | with_reducible apply onEcc_kept
    | (intro x; dsimp only; split <;> (constructor <;> first | exact .inl (Mask.bit hm rfl) | exact .inr (by with_reducible rfl))) | split
    | (intro) | (constructor <;> first | exact .inl (Mask.bit hm rfl) | exact .inr (by with_reducible rfl))

theorem entryLog_kept {msk : Nat} {s0 : State} (c : Cmd) (n : Nat) (entries : List Bytes) (remove : Nat × Nat → Lantern → Lantern) {s : State}
    (hr : ∀ w x, LanternAgree msk x (remove w x)) (hm : 0x86000000000000000000000000000000000000000000000000000000000000000009B058800000000000000000000000 ||| msk = msk) (hk : Kept msk s0 s) : Kept msk s0 (entryLog c n entries remove s) := by
  unfold entryLog
  dsimp only
  refine adminDone_kept _ _ _ (Mask.sub hm rfl) ?_
  split
  · exact onLantern_kept _ (hr _) (writeBuffer_kept _ _ _ _ (Mask.sub hm rfl) hk)
  · exact writeBuffer_kept _ _ _ _ (Mask.sub hm rfl) hk

theorem byteLog_kept {msk : Nat} {s0 : State} (c : Cmd) (bs : Bytes) {s : State}
    (hm : 0x86000000000000000000000000000000000000000000000000000000000000000009B058800000000000000000000000 ||| msk = msk) (hk : Kept msk s0 s) : Kept msk s0 (byteLog c bs s) := by
  unfold byteLog
  try dsimp only
  repeat' first
    | with_reducible assumption | exact Mask.sub hm rfl | with_reducible apply adminDone_kept | with_reducible apply writeBuffer_kept | split
    | (intro)

theorem areaLog_kept {msk : Nat} {s0 : State} (c : Cmd) {s : State}
    (hm : 0x86000000000000000000000000000000000000000000000000000000020000000009B058800000000000000000000000 ||| msk = msk) (hk : Kept msk s0 s) : Kept msk s0 (areaLog c s) := by
  unfold areaLog
  try dsimp only
  repeat' first
    | with_reducible assumption | exact Mask.sub hm rfl | with_reducible apply byteLog_kept | with_reducible apply adminDone_kept
    | with_reducible apply cmGroup_kept | with_reducible apply onCmd_kept | split | (intro)

theorem readLog_kept {msk : Nat} {s0 : State} (c : Cmd) {s : State}
    (hm : 0x86000000000000000000000000000000000000000000000000000000020000000009B059C00000000000000000000000 ||| msk = msk) (hk : Kept msk s0 s) : Kept msk s0 (readLog c s) := by
  unfold readLog
  try dsimp only
  repeat' first
    | with_reducible assumption | exact Mask.sub hm rfl | with_reducible apply areaLog_kept | with_reducible apply byteLog_kept
    | with_reducible apply entryLog_kept | with_reducible apply lantern_kept | (intro w x; dsimp only; done)
    | (constructor <;> first | exact .inl (Mask.bit hm rfl) | exact .inr (by with_reducible rfl)) | split | (intro)

theorem changePower_kept {msk : Nat} {s0 : State} (c : Cmd) {s : State}
    (hm : 0x86000020000000000000000000007F1F000000000000000000000000000000000009B05880000001E000000000000000 ||| msk = msk) (hk : Kept msk s0 s) : Kept msk s0 (changePower c s) := by
  unfold changePower
  try dsimp only
  repeat' first
    | with_reducible assumption | exact Mask.sub hm rfl | with_reducible apply adminDone_kept | with_reducible apply enterPs_kept
    | with_reducible apply flushGroups_kept | with_reducible apply onPower_kept | split | (intro)
    | (constructor <;> first | exact .inl (Mask.bit hm rfl) | exact .inr (by with_reducible rfl))

theorem execIdentify_kept {msk : Nat} (tag : BitVec 16) {s t : State}
    (hm : 0x86000000000000000000000000000000000000000000000000000000000000000009B058800000000000000000000000 ||| msk = msk) (h : execIdentify tag s = .next t) : Kept msk s t := by
  unfold execIdentify at h
  refine goLive_kept (fun u hk => ?_) h
  try dsimp only
  repeat' first
    | with_reducible assumption | exact Mask.sub hm rfl | with_reducible apply adminDone_kept | with_reducible apply adminRun_kept
    | with_reducible apply writeBuffer_kept | split | (intro)

theorem execNegotiate_kept {msk : Nat} (tag : BitVec 16) {s t : State}
    (hm : 0x86000000000000000000000000000000000000000000000000000000000000000009B058800000000000000000000000 ||| msk = msk) (h : execNegotiate tag s = .next t) : Kept msk s t := by
  unfold execNegotiate at h
  refine goLive_kept (fun u hk => ?_) h
  try dsimp only
  repeat' first
    | with_reducible assumption | exact Mask.sub hm rfl | with_reducible apply adminDone_kept | with_reducible apply adminRun_kept | split
    | (intro)

theorem execCreateQp_kept {msk : Nat} (tag : BitVec 16) {s t : State}
    (hm : 0x86000000000000000000000000000000000000000000000000000000000000000009B058800000000000000000000000 ||| msk = msk) (h : execCreateQp tag s = .next t) : Kept msk s t := by
  unfold execCreateQp at h
  refine goLive_kept (fun u hk => ?_) h
  try dsimp only
  repeat' first
    | with_reducible assumption | exact Mask.sub hm rfl | with_reducible apply createQueue_kept | with_reducible apply adminRun_kept | split
    | (intro)

theorem execDeleteQp_kept {msk : Nat} (tag : BitVec 16) {s t : State}
    (hm : 0x860000000000000000000000000000000000000000000400000000006D01C0610209B058800000000000000000000000 ||| msk = msk) (h : execDeleteQp tag s = .next t) : Kept msk s t := by
  unfold execDeleteQp at h
  refine goLive_kept (fun u hk => ?_) h
  try dsimp only
  repeat' first
    | with_reducible assumption | exact Mask.sub hm rfl | with_reducible apply resetNamed_kept | with_reducible apply adminRun_kept | split
    | (intro)

theorem execQueueReset_kept {msk : Nat} (tag : BitVec 16) {s t : State}
    (hm : 0x860000000000000000000000000000000000000000000400000000006D01C0610209B058800000000000000000000000 ||| msk = msk) (h : execQueueReset tag s = .next t) : Kept msk s t := by
  unfold execQueueReset at h
  refine goLive_kept (fun u hk => ?_) h
  try dsimp only
  repeat' first
    | with_reducible assumption | exact Mask.sub hm rfl | with_reducible apply resetNamed_kept | with_reducible apply adminRun_kept | split
    | (intro)

theorem execFormatFloor_kept {msk : Nat} (tag : BitVec 16) {s t : State}
    (hm : 0x8600A000000000000000000000000000000000000000000000000000000000000019B058D7F1C0000000000000000000 ||| msk = msk) (h : execFormatFloor tag s = .next t) : Kept msk s t := by
  unfold execFormatFloor at h
  refine goLive_kept (fun u hk => ?_) h
  try dsimp only
  repeat' first
    | with_reducible assumption | exact Mask.sub hm rfl | with_reducible apply setFloor_kept | with_reducible apply adminSub_kept | split
    | (intro)

theorem execWake_kept {msk : Nat} (tag : BitVec 16) {s t : State}
    (hm : 0x86000000000000000000000000000000000000000000000000000000000000000009B05E800000000000000000000000 ||| msk = msk) (h : execWake tag s = .next t) : Kept msk s t := by
  unfold execWake at h
  refine goLive_kept (fun u hk => ?_) h
  try dsimp only
  repeat' first
    | with_reducible assumption | exact Mask.sub hm rfl | with_reducible apply adminDone_kept | with_reducible apply adminSub_kept
    | with_reducible apply onPort_kept | split | (intro)

theorem execQueuePort_kept {msk : Nat} (tag : BitVec 16) {s t : State}
    (hm : 0x86000000000000000000000000000000000000000000000000000000000000000009B058800000000000000000000000 ||| msk = msk) (h : execQueuePort tag s = .next t) : Kept msk s t := by
  unfold execQueuePort at h
  refine goLive_kept (fun u hk => ?_) h
  try dsimp only
  repeat' first
    | with_reducible assumption | exact Mask.sub hm rfl | with_reducible apply movePort_kept | with_reducible apply adminSub_kept | split
    | (intro)

theorem execModeration_kept {msk : Nat} (tag : BitVec 16) {s t : State}
    (hm : 0x86000000000000000000000000000000000000000000000000000000000000000009B058800000000000000000000000 ||| msk = msk) (h : execModeration tag s = .next t) : Kept msk s t := by
  unfold execModeration at h
  refine goLive_kept (fun u hk => ?_) h
  try dsimp only
  repeat' first
    | with_reducible assumption | exact Mask.sub hm rfl | with_reducible apply setModeration_kept | with_reducible apply adminSub_kept | split
    | (intro)

theorem execCmArea_kept {msk : Nat} (tag : BitVec 16) (data : Bytes) {s t : State}
    (hm : 0x86000000000000000000000000000000000000000000000000000000020000000009B058800000000000000000000000 ||| msk = msk) (h : execCmArea tag data s = .next t) : Kept msk s t := by
  unfold execCmArea at h
  refine goLive_kept (fun u hk => ?_) h
  try dsimp only
  repeat' first
    | with_reducible assumption | exact Mask.sub hm rfl | with_reducible apply setArea_kept | with_reducible apply adminSub_kept | split | (intro)

theorem execDeadClear_kept {msk : Nat} (tag : BitVec 16) {s t : State}
    (hm : 0x8600A000000000000000000000000000000000050000000000000000000000000009B058D7F1C0000000000000000000 ||| msk = msk) (h : execDeadClear tag s = .next t) : Kept msk s t := by
  unfold execDeadClear at h
  refine goLive_kept (fun u hk => ?_) h
  try dsimp only
  repeat' first
    | with_reducible assumption | exact Mask.sub hm rfl | with_reducible apply clearDead_kept | with_reducible apply adminSub_kept | split
    | (intro)

theorem execGetFeature_kept {msk : Nat} (tag : BitVec 16) {s t : State}
    (hm : 0x86000000000000000000000000000000000000000000000000000000000000000009B058800000000000000000000000 ||| msk = msk) (h : execGetFeature tag s = .next t) : Kept msk s t := by
  unfold execGetFeature at h
  refine goLive_kept (fun u hk => ?_) h
  try dsimp only
  repeat' first
    | with_reducible assumption | exact Mask.sub hm rfl | with_reducible apply adminDone_kept | with_reducible apply adminRun_kept | split
    | (intro)

theorem execGetLog_kept {msk : Nat} (tag : BitVec 16) {s t : State}
    (hm : 0x86000000000000000000000000000000000000000000000000000000020000000009B059C00000000000000000000000 ||| msk = msk) (h : execGetLog tag s = .next t) : Kept msk s t := by
  unfold execGetLog at h
  refine goLive_kept (fun u hk => ?_) h
  try dsimp only
  repeat' first
    | with_reducible assumption | exact Mask.sub hm rfl | with_reducible apply readLog_kept | with_reducible apply adminRun_kept | split | (intro)

theorem execHealth_kept {msk : Nat}  {s t : State}
    (hm : 0x800000000000000000000000000000000000000000000000000000000000000000000000000000000000000000000000 ||| msk = msk) (h : execHealth  s = .next t) : Kept msk s t := by
  unfold execHealth at h
  refine go_kept (fun u hk => ?_) h
  try dsimp only
  repeat' first
    | with_reducible assumption | exact Mask.sub hm rfl | with_reducible apply emit_kept | split | (intro)

theorem execLanternRead_kept {msk : Nat} (rseq : BitVec 32) {s t : State}
    (hm : 0x800000000000000000000000000000000000000000000000000000000000000000000000000000000000000000000000 ||| msk = msk) (h : execLanternRead rseq s = .next t) : Kept msk s t := by
  unfold execLanternRead at h
  refine go_kept (fun u hk => ?_) h
  try dsimp only
  repeat' first
    | with_reducible assumption | exact Mask.sub hm rfl | with_reducible apply lantern_kept | with_reducible apply emit_kept | split | (intro)

theorem execPowerState_kept {msk : Nat} (tag : BitVec 16) {s t : State}
    (hm : 0x86000020000000000000000000007F1F000000000000000000000000000000000009B05880000001E000000000000000 ||| msk = msk) (h : execPowerState tag s = .next t) : Kept msk s t := by
  unfold execPowerState at h
  refine goLive_kept (fun u hk => ?_) h
  try dsimp only
  repeat' first
    | with_reducible assumption | exact Mask.sub hm rfl | with_reducible apply changePower_kept | with_reducible apply adminRun_kept | split
    | (intro)

/-! ## Machine/Belfry.lean -/

theorem claimSource_kept {msk : Nat} {s0 : State} (core : Fin 4) (n : Nat) {s : State}
    (hm : 0x8010F0000000000000000000000000000000000000000000000000000000000000000000000000000000000000000000 ||| msk = msk) (hk : Kept msk s0 s) :
    Kept msk s0 (claimSource core n s) := by
  unfold claimSource
  refine offers_kept (Mask.sub hm rfl) (onBlf_kept _ ?_ hk)
  intro x
  unfold clearLatch
  dsimp only
  split <;> (constructor <;> first | exact .inl (Mask.bit hm rfl) | exact .inr (by with_reducible rfl))

theorem claimSpurious_kept {msk : Nat} {s0 : State} (core : Fin 4) {s : State}
    (hm : 0x8040C0000000000000000000000000000000000000000000000000000000000000000000000000000000000000000000 ||| msk = msk) (hk : Kept msk s0 s) : Kept msk s0 (claimSpurious core s) := by
  unfold claimSpurious
  try dsimp only
  repeat' first
    | with_reducible assumption | exact Mask.sub hm rfl | with_reducible apply emit_kept | with_reducible apply onBlf_kept | split | (intro)
    | (constructor <;> first | exact .inl (Mask.bit hm rfl) | exact .inr (by with_reducible rfl))

theorem stackFault_kept {msk : Nat} {s0 : State} (core : Fin 4) {s : State}
    (hm : 0xFFCFFFFFFFFFFFFFFFF9FFFFFFFFFFFFFE7FFFFAFFFFFFFFFFFFFFFFFFFFFFFFF7EFFFFF5FF1F77BE01E3C3F00C70E00 ||| msk = msk) (hk : Kept msk s0 s) : Kept msk s0 (stackFault core s) := by
  unfold stackFault
  try dsimp only
  repeat' first
    | with_reducible assumption | exact Mask.sub hm rfl | with_reducible apply takeOut_kept | with_reducible apply lantern_kept
    | with_reducible apply raise_kept | with_reducible apply onBlf_kept | split | (intro)
    | (constructor <;> first | exact .inl (Mask.bit hm rfl) | exact .inr (by with_reducible rfl))

theorem endOfInterrupt_kept {msk : Nat} {s0 : State} (core : Fin 4) (source : Nat) (parityError : Bool) {s : State}
    (hm : 0xFFCFFFFFFFFFFFFFFFF9FFFFFFFFFFFFFE7FFFFAFFFFFFFFFFFFFFFFFFFFFFFFF7EFFFFF5FF1F77BE01E3C3F00C70E00 ||| msk = msk) (hk : Kept msk s0 s) : Kept msk s0 (endOfInterrupt core source parityError s) := by
  unfold endOfInterrupt
  try dsimp only
  repeat' first
    | with_reducible assumption | exact Mask.sub hm rfl | with_reducible apply stackFault_kept | with_reducible apply offers_kept
    | with_reducible apply onBlf_kept | split | (intro)
    | (constructor <;> first | exact .inl (Mask.bit hm rfl) | exact .inr (by with_reducible rfl))

theorem execSourceRequest_kept {msk : Nat} (n : Fin 480) {s t : State}
    (hm : 0x8000A0000000000000000000000000000000000000000000000000000000000000000000000000000000000000000000 ||| msk = msk) (h : execSourceRequest n s = .next t) : Kept msk s t := by
  unfold execSourceRequest at h
  refine go_kept (fun u hk => ?_) h
  try dsimp only
  repeat' first
    | with_reducible assumption | exact Mask.sub hm rfl | with_reducible apply raise_kept | split | (intro)

theorem execClaim_kept {msk : Nat} (core : Fin 4) {s t : State}
    (hm : 0x8050F0000000000000000000000000000000000000000000000000000000000000000000000000000000000000000000 ||| msk = msk) (h : execClaim core s = .next t) : Kept msk s t := by
  unfold execClaim at h
  split at h
  · injection h with h
    exact h ▸ claimSource_kept _ _ (Mask.sub hm rfl) (Kept.refl _ s)
  · split at h <;> injection h with h
    · exact h ▸ claimSpurious_kept _ (Mask.sub hm rfl) (Kept.refl _ s)
    · exact h ▸ Kept.refl _ s

theorem execEoi_kept {msk : Nat} (core : Fin 4) (source : Fin 480) (parityError : Bool) {s t : State}
    (hm : 0xFFCFFFFFFFFFFFFFFFF9FFFFFFFFFFFFFE7FFFFAFFFFFFFFFFFFFFFFFFFFFFFFF7EFFFFF5FF1F77BE01E3C3F00C70E00 ||| msk = msk) (h : execEoi core source parityError s = .next t) : Kept msk s t := by
  unfold execEoi at h
  refine go_kept (fun u hk => ?_) h
  try dsimp only
  repeat' first
    | with_reducible assumption | exact Mask.sub hm rfl | with_reducible apply endOfInterrupt_kept | split | (intro)

theorem execBelfryMaskWrite_kept {msk : Nat} (source : Fin 480) (priority : Fin 16) (route : Fin 5) (en : BitVec 4) {s t : State}
    (hm : 0x8000B0000000000000000000000000000000000000000000000000000000000000000000000000000000000000000000 ||| msk = msk) (h : execBelfryMaskWrite source priority route en s = .next t) : Kept msk s t := by
  unfold execBelfryMaskWrite at h
  refine go_kept (fun u hk => ?_) h
  try dsimp only
  repeat' first
    | with_reducible assumption | exact Mask.sub hm rfl | with_reducible apply offers_kept | with_reducible apply onBlf_kept | split | (intro)
    | (constructor <;> first | exact .inl (Mask.bit hm rfl) | exact .inr (by with_reducible rfl))

theorem execCoreTimerExpiry_kept {msk : Nat} (core : Fin 4) (timer : Fin 4) {s t : State}
    (hm : 0x8000A0000000000000000000000000000000000000000000000000000000000000000000000000000000000000000000 ||| msk = msk) (h : execCoreTimerExpiry core timer s = .next t) : Kept msk s t := by
  unfold execCoreTimerExpiry at h
  refine go_kept (fun u hk => ?_) h
  try dsimp only
  repeat' first
    | with_reducible assumption | exact Mask.sub hm rfl | with_reducible apply raise_kept | split | (intro)

theorem execInterCoreSignal_kept {msk : Nat} (core : Fin 4) (line : Fin 2) {s t : State}
    (hm : 0x8000E0000000000000000000000000000000000000000000000000000000000000000000000000000000000000000000 ||| msk = msk) (h : execInterCoreSignal core line s = .next t) : Kept msk s t := by
  unfold execInterCoreSignal at h
  refine go_kept (fun u hk => ?_) h
  try dsimp only
  repeat' first
    | with_reducible assumption | exact Mask.sub hm rfl | with_reducible apply raise_kept | with_reducible apply onBlf_kept | split | (intro)
    | (constructor <;> first | exact .inl (Mask.bit hm rfl) | exact .inr (by with_reducible rfl))

theorem execBelfryCopyMismatch_kept {msk : Nat} (failed : Fin 2) {s t : State}
    (hm : 0x8302A000000000000000000000000000000000000000000000000000000000000000000857F1C0000000000000000000 ||| msk = msk) (h : execBelfryCopyMismatch failed s = .next t) : Kept msk s t := by
  unfold execBelfryCopyMismatch at h
  refine go_kept (fun u hk => ?_) h
  try dsimp only
  repeat' first
    | with_reducible assumption | exact Mask.sub hm rfl | with_reducible apply lantern_kept | with_reducible apply raise_kept
    | with_reducible apply onBlf_kept | split | (intro)
    | (constructor <;> first | exact .inl (Mask.bit hm rfl) | exact .inr (by with_reducible rfl))

theorem execCoreHeartbeatMissed_kept {msk : Nat} (core : Fin 4) {s t : State}
    (hm : 0xFFCFFFFFFFFFFFFFFFF9FFFFFFFFFFFFFE7FFFFAFFFFFFFFFFFFFFFFFFFFFFFFF7EFFFFF5FF1F77BE01E3C3F00C70E00 ||| msk = msk) (h : execCoreHeartbeatMissed core s = .next t) : Kept msk s t := by
  unfold execCoreHeartbeatMissed at h
  refine go_kept (fun u hk => ?_) h
  try dsimp only
  repeat' first
    | with_reducible assumption | exact Mask.sub hm rfl | with_reducible apply takeOut_kept | with_reducible apply onBlf_kept | split | (intro)
    | (constructor <;> first | exact .inl (Mask.bit hm rfl) | exact .inr (by with_reducible rfl))

/-! ## Machine/Tables.lean -/

theorem tableInForce_kept {msk : Nat} {s0 : State} (t : Nat) (m content : Bytes) {s : State} (hm : 0x2000000000000 ||| msk = msk)
    (hk : Kept msk s0 s) : Kept msk s0 (tableInForce t m content s) := by
  unfold tableInForce
  try dsimp only
  repeat' first
    | with_reducible assumption | with_reducible apply onTrust_kept | split | (intro)
    | (constructor <;> first | exact .inl (Mask.bit hm rfl) | exact .inr (by with_reducible rfl))

theorem takeTable_kept {msk : Nat} {s0 : State} (t : Nat) (m content : Bytes) {s : State}
    (hm : 0x8000002000000000000008000000000000000000000000000000000000000000000000E000000000000 ||| msk = msk) (hk : Kept msk s0 s) : Kept msk s0 (takeTable t m content s) := by
  unfold takeTable
  try dsimp only
  repeat' first
    | with_reducible assumption | exact Mask.sub hm rfl | with_reducible apply tableInForce_kept | with_reducible apply installSteeple_kept
    | with_reducible apply onTrust_kept | with_reducible apply onTiles_kept | split | (intro)
    | (constructor <;> first | exact .inl (Mask.bit hm rfl) | exact .inr (by with_reducible rfl))

/-! ## Machine/HeadLink.lean -/

theorem updateShed_kept {msk : Nat} {s0 : State} (g : Fin 8) {s : State}
    (hm : 0x800000200000000000000000000000000000100000000000000000000000000000000000000000000000000000000000 ||| msk = msk) (hk : Kept msk s0 s) : Kept msk s0 (updateShed g s) := by
  unfold updateShed
  try dsimp only
  repeat' first
    | with_reducible assumption | exact Mask.sub hm rfl | with_reducible apply anchorRange_kept | with_reducible apply hlCommand_kept
    | with_reducible apply onGroup_kept | split | (intro)

theorem commandRates_kept {msk : Nat} {s0 : State} (g : Fin 8) (adc wclk : Rat) {s : State}
    (hm : 0x800000200000000000000000000000000000000000000000000000000000000000000000000000000000000000000000 ||| msk = msk) (hk : Kept msk s0 s) : Kept msk s0 (commandRates g adc wclk s) := by
  unfold commandRates
  try dsimp only
  repeat' first
    | with_reducible assumption | exact Mask.sub hm rfl | with_reducible apply hlCommand_kept | with_reducible apply onGroup_kept | split
    | (intro)

theorem linkFrame_kept {msk : Nat} {s0 : State} {s : State}
    (hm : 0x80000C200000000000000000000000000800100000000000000000000000000000000000000000000000000000000000 ||| msk = msk) (hk : Kept msk s0 s) : Kept msk s0 (linkFrame s) := by
  unfold linkFrame
  try dsimp only
  repeat' first
    | with_reducible assumption | exact Mask.sub hm rfl | with_reducible apply forEach_kept | with_reducible apply commandRates_kept
    | with_reducible apply updateShed_kept | with_reducible apply onTiles_kept | with_reducible apply onHlk_kept | split | (intro)
    | (constructor <;> first | exact .inl (Mask.bit hm rfl) | exact .inr (by with_reducible rfl))

theorem groupEdge_kept {msk : Nat} {s0 : State} (g : Nat) {s : State}
    (hm : 0x8000A0000000000000000000000000000000000000000000000000000000000000000000000000000000000000000000 ||| msk = msk) (hk : Kept msk s0 s) : Kept msk s0 (groupEdge g s) := by
  unfold groupEdge
  try dsimp only
  repeat' first
    | with_reducible assumption | exact Mask.sub hm rfl | with_reducible apply raise_kept | split | (intro)

theorem enterCdr_kept {msk : Nat} {s0 : State} (g : Fin 8) {s : State}
    (hm : 0x8000A0200000000000000000000000000000000000000000000000000000000000000000000000000000000000000000 ||| msk = msk) (hk : Kept msk s0 s) : Kept msk s0 (enterCdr g s) := by
  unfold enterCdr
  try dsimp only
  repeat' first
    | with_reducible assumption | exact Mask.sub hm rfl | with_reducible apply groupEdge_kept | with_reducible apply onGroup_kept
    | with_reducible apply emits_kept | split | (intro)

theorem enterDown_kept {msk : Nat} {s0 : State} (g : Fin 8) {s : State}
    (hm : 0x8000A0200000000000000000000000000000000000000000000000000000000000000000000000000000000000000000 ||| msk = msk) (hk : Kept msk s0 s) : Kept msk s0 (enterDown g s) := by
  unfold enterDown
  try dsimp only
  repeat' first
    | with_reducible assumption | exact Mask.sub hm rfl | with_reducible apply groupEdge_kept | with_reducible apply onGroup_kept
    | with_reducible apply emits_kept | split | (intro)

theorem trainFrom_kept {msk : Nat} {s0 : State} (g : Fin 8) {s : State}
    (hm : 0x8000A0200000000000000000000000000000000000000000000000000000000000000000000000000000000000000000 ||| msk = msk) (hk : Kept msk s0 s) : Kept msk s0 (trainFrom g s) := by
  unfold trainFrom
  try dsimp only
  repeat' first
    | with_reducible assumption | exact Mask.sub hm rfl | with_reducible apply enterCdr_kept | split | (intro)

theorem sendIdle_kept {msk : Nat} {s0 : State} (g : Fin 8) {s : State}
    (hm : 0x800000200000000000000000000000000000000000000000000000000000000000000000000000000000000000000000 ||| msk = msk) (hk : Kept msk s0 s) : Kept msk s0 (sendIdle g s) := by
  unfold sendIdle
  try dsimp only
  repeat' first
    | with_reducible assumption | exact Mask.sub hm rfl | with_reducible apply hlSend_kept | split | (intro)

theorem sendTrain_kept {msk : Nat} {s0 : State} (g : Fin 8) {s : State}
    (hm : 0x800000200000000000000000000000000000000000000000000000000000000000000000000000000000000000000000 ||| msk = msk) (hk : Kept msk s0 s) : Kept msk s0 (sendTrain g s) := by
  unfold sendTrain
  try dsimp only
  repeat' first
    | with_reducible assumption | exact Mask.sub hm rfl | with_reducible apply hlSend_kept | with_reducible apply onGroup_kept | split | (intro)

theorem trainFailed_kept {msk : Nat} {s0 : State} (g : Fin 8) (at_ reason : Nat) {s : State}
    (hm : 0x8200A020000000000000000000000000000000000000000000000000000000000000000857F1C0000000000000000000 ||| msk = msk) (hk : Kept msk s0 s) : Kept msk s0 (trainFailed g at_ reason s) := by
  unfold trainFailed
  try dsimp only
  repeat' first
    | with_reducible assumption | exact Mask.sub hm rfl | with_reducible apply enterDown_kept | with_reducible apply lantern_kept | split
    | (intro)

theorem identFailed_kept {msk : Nat} {s0 : State} (g : Fin 8) (reason : Nat) {s : State}
    (hm : 0x8200A020000000000000000000000000000000000000000000000000000000000000000857F1C0000000000000000000 ||| msk = msk) (hk : Kept msk s0 s) : Kept msk s0 (identFailed g reason s) := by
  unfold identFailed
  try dsimp only
  repeat' first
    | with_reducible assumption | exact Mask.sub hm rfl | with_reducible apply trainFailed_kept | with_reducible apply onGroup_kept | split
    | (intro)

theorem dropBand_kept {msk : Nat} {s0 : State} (g : Nat) {s : State}
    (hm : 0x20000000000000000000000000000000000000000000000000000000000000000000000 ||| msk = msk) (hk : Kept msk s0 s) : Kept msk s0 (dropBand g s) := by
  unfold dropBand
  try dsimp only
  repeat' first
    | with_reducible assumption | with_reducible apply onStp_kept | split | (intro)
    | (constructor <;> first | exact .inl (Mask.bit hm rfl) | exact .inr (by with_reducible rfl))

theorem loseRx_kept {msk : Nat} {s0 : State} (g : Fin 8) (lane : Nat) {u : State}
    (hm : 0x8200A020000000000000014032000000000010000004011D0000000000000000000000085FF1C1630000000000000000 ||| msk = msk) (hk : Kept msk s0 u) : Kept msk s0 (loseRx g lane u) := by
  unfold loseRx
  try dsimp only
  repeat' first
    | with_reducible assumption | exact Mask.sub hm rfl | with_reducible apply dropBand_kept | with_reducible apply groupEdge_kept
    | with_reducible apply updateShed_kept | with_reducible apply noteOut_kept | with_reducible apply clampNow_kept
    | with_reducible apply hlCommand_kept | with_reducible apply onGroup_kept | split | (intro)

theorem clearTx_kept {msk : Nat} {s0 : State} {s : State} (hm : 0x140000000000000000000000000000000000000000000 ||| msk = msk)
    (hk : Kept msk s0 s) : Kept msk s0 (clearTx s) := by
  unfold clearTx
  try dsimp only
  repeat' first
    | with_reducible assumption | exact Mask.sub hm rfl | with_reducible apply inhibitOff_kept | split | (intro)

theorem loseTx_kept {msk : Nat} {s0 : State} (g : Fin 8) (lane : Nat) {s : State}
    (hm : 0x8200A020000000000000000002000000001806000000000000077AA004800000000000095FF1C0030000000000000000 ||| msk = msk) (hk : Kept msk s0 s) : Kept msk s0 (loseTx g lane s) := by
  unfold loseTx
  try dsimp only
  repeat' first
    | with_reducible assumption | exact Mask.sub hm rfl | with_reducible apply clearTx_kept | with_reducible apply dropBand_kept
    | with_reducible apply groupEdge_kept | with_reducible apply noteOut_kept | with_reducible apply inhibitOn_kept
    | with_reducible apply hlCommand_kept | with_reducible apply onGroup_kept | split | (intro)

theorem discardPacket_kept {msk : Nat} {s0 : State} (g : Fin 8) (lane : Nat) {s : State}
    (hm : 0x8200A020000000000000014032000000000010000004011D0000000000000000000000085FF1C1630000000000000000 ||| msk = msk) (hk : Kept msk s0 s) : Kept msk s0 (discardPacket g lane s) := by
  unfold discardPacket
  try dsimp only
  repeat' first
    | with_reducible assumption | exact Mask.sub hm rfl | with_reducible apply loseRx_kept | with_reducible apply onGroup_kept | split | (intro)

theorem enterConfig_kept {msk : Nat} {s0 : State} (g : Fin 8) {s : State}
    (hm : 0x8200A02000000000000000000000000000000000000000000000000000000000000000085FF1C0030000000000000000 ||| msk = msk) (hk : Kept msk s0 s) : Kept msk s0 (enterConfig g s) := by
  unfold enterConfig
  try dsimp only
  repeat' first
    | with_reducible assumption | exact Mask.sub hm rfl | with_reducible apply forEach_kept | with_reducible apply groupEdge_kept
    | with_reducible apply commandRates_kept | with_reducible apply noteOut_kept | with_reducible apply hlCommand_kept
    | with_reducible apply onGroup_kept | split | (intro)

theorem takeTrain_kept {msk : Nat} {s0 : State} (g : Fin 8) (lane : Nat) (h p : Nat) {s : State}
    (hm : 0x8200A02000000000000000000000000000000000000000000000000000000000000000085FF1C0030000000000000000 ||| msk = msk) (hk : Kept msk s0 s) : Kept msk s0 (takeTrain g lane h p s) := by
  unfold takeTrain
  try dsimp only
  repeat' first
    | with_reducible assumption | exact Mask.sub hm rfl | with_reducible apply enterConfig_kept | with_reducible apply identFailed_kept
    | with_reducible apply onGroup_kept | split | (intro)

theorem enterUp_kept {msk : Nat} {s0 : State} (g : Fin 8) {s : State}
    (hm : 0x18200A02059805800C80A014030080000F64010000004511FC018057807000000000000085FF1C1610000000000000000 ||| msk = msk) (hk : Kept msk s0 s) : Kept msk s0 (enterUp g s) := by
  unfold enterUp
  try dsimp only
  repeat' first
    | with_reducible assumption | exact Mask.sub hm rfl | with_reducible apply forEach_kept | with_reducible apply groupEdge_kept
    | with_reducible apply updateShed_kept | with_reducible apply kickWrites_kept | with_reducible apply noteBack_kept
    | with_reducible apply clampNow_kept | with_reducible apply anchorRange_kept | with_reducible apply onGroup_kept | split | (intro)

theorem countTx_kept {msk : Nat} {s0 : State} (g : Fin 8) (n : Nat) {s : State}
    (hm : 0x18200A020000000000000000002000000001806000000000000077AA004800000000000095FF1C0030000000000000000 ||| msk = msk) (hk : Kept msk s0 s) : Kept msk s0 (countTx g n s) := by
  unfold countTx
  try dsimp only
  repeat' first
    | with_reducible assumption | exact Mask.sub hm rfl | with_reducible apply loseTx_kept | with_reducible apply onGroup_kept
    | with_reducible apply draw_kept | split | (intro)

theorem takeStatus_kept {msk : Nat} {s0 : State} (g : Fin 8) (h p : Nat) {s : State}
    (hm : 0x18200A02059805800C80A014032080000F65816000004511FC01F7FF807800000000000095FF1C1630000000000000000 ||| msk = msk) (hk : Kept msk s0 s) : Kept msk s0 (takeStatus g h p s) := by
  unfold takeStatus
  try dsimp only
  repeat' first
    | with_reducible assumption | exact Mask.sub hm rfl | with_reducible apply forEach_kept | with_reducible apply countTx_kept
    | with_reducible apply enterUp_kept | with_reducible apply loseTx_kept | with_reducible apply clearTx_kept
    | with_reducible apply groupEdge_kept | with_reducible apply onGroup_kept | split | (intro)

theorem fillLanes_kept {msk : Nat} {s0 : State} (g : Fin 8) {s : State}
    (hm : 0x800000200000000000000000000000000000000000000000000000000000000000000000000000000000000000000000 ||| msk = msk) (hk : Kept msk s0 s) : Kept msk s0 (fillLanes g s) := by
  unfold fillLanes
  try dsimp only
  repeat' first
    | with_reducible assumption | exact Mask.sub hm rfl | with_reducible apply sendTrain_kept | with_reducible apply sendIdle_kept | split
    | (intro)

theorem retrainNow_kept {msk : Nat} {s0 : State} (mask : BitVec 8) {s : State}
    (hm : 0x8000A0200000000000000000000000000000000000000000000000000000000000000000000000000000000000000000 ||| msk = msk) (hk : Kept msk s0 s) : Kept msk s0 (retrainNow mask s) := by
  unfold retrainNow
  try dsimp only
  repeat' first
    | with_reducible assumption | exact Mask.sub hm rfl | with_reducible apply forEach_kept | with_reducible apply trainFrom_kept
    | with_reducible apply enterDown_kept | with_reducible apply onGroup_kept | split | (intro)

theorem enableNow_kept {msk : Nat} {s0 : State} (mask : BitVec 8) {s : State}
    (hm : 0x8000A0600000000000000000000000000000000000000000000000000000000000000000000000000000000000000000 ||| msk = msk) (hk : Kept msk s0 s) : Kept msk s0 (enableNow mask s) := by
  unfold enableNow
  try dsimp only
  repeat' first
    | with_reducible assumption | exact Mask.sub hm rfl | with_reducible apply forEach_kept | with_reducible apply enterDown_kept
    | with_reducible apply onHlk_kept | split | (intro)
    | (constructor <;> first | exact .inl (Mask.bit hm rfl) | exact .inr (by with_reducible rfl))

theorem writeRetrain_kept {msk : Nat} {s0 : State} (mask : BitVec 8) {s : State}
    (hm : 0x8000A1200000000000000000000000000000000000000000000000000000000000000000000000000000000000000000 ||| msk = msk) (hk : Kept msk s0 s) : Kept msk s0 (writeRetrain mask s) := by
  unfold writeRetrain
  try dsimp only
  repeat' first
    | with_reducible assumption | exact Mask.sub hm rfl | with_reducible apply retrainNow_kept | with_reducible apply onHlk_kept | split | (intro)
    | (constructor <;> first | exact .inl (Mask.bit hm rfl) | exact .inr (by with_reducible rfl))

theorem writeGroupEn_kept {msk : Nat} {s0 : State} (mask : BitVec 8) {s : State}
    (hm : 0x8000A0E00000000000000000000000000000000000000000000000000000000000000000000000000000000000000000 ||| msk = msk) (hk : Kept msk s0 s) : Kept msk s0 (writeGroupEn mask s) := by
  unfold writeGroupEn
  try dsimp only
  repeat' first
    | with_reducible assumption | exact Mask.sub hm rfl | with_reducible apply enableNow_kept | with_reducible apply onHlk_kept | split | (intro)
    | (constructor <;> first | exact .inl (Mask.bit hm rfl) | exact .inr (by with_reducible rfl))

theorem linkAtUnmount_kept {msk : Nat} {s0 : State} {s : State}
    (hm : 0x8000A1E00000000000000000000000000000000000000000000000000000000000000000000000000000000000000000 ||| msk = msk) (hk : Kept msk s0 s) : Kept msk s0 (linkAtUnmount s) := by
  unfold linkAtUnmount
  try dsimp only
  repeat' first
    | with_reducible assumption | exact Mask.sub hm rfl | with_reducible apply enableNow_kept | with_reducible apply retrainNow_kept
    | with_reducible apply onHlk_kept | with_reducible apply foldl_kept | split | (intro)
    | (constructor <;> first | exact .inl (Mask.bit hm rfl) | exact .inr (by with_reducible rfl))

theorem execGroupTrainStart_kept {msk : Nat} (g : Fin 8) {s t : State}
    (hm : 0x8000A0200000000000000000000000000000000000000000000000000000000000000000000000000000000000000000 ||| msk = msk) (h : execGroupTrainStart g s = .next t) : Kept msk s t := by
  unfold execGroupTrainStart at h
  refine goLive_kept (fun u hk => ?_) h
  try dsimp only
  repeat' first
    | with_reducible assumption | exact Mask.sub hm rfl | with_reducible apply trainFrom_kept | split | (intro)

theorem execCdrTimeout_kept {msk : Nat} (g : Fin 8) {s t : State}
    (hm : 0x8000A0200000000000000000000000000000000000000000000000000000000000000000000000000000000000000000 ||| msk = msk) (h : execCdrTimeout g s = .next t) : Kept msk s t := by
  unfold execCdrTimeout at h
  refine goLive_kept (fun u hk => ?_) h
  try dsimp only
  repeat' first
    | with_reducible assumption | exact Mask.sub hm rfl | with_reducible apply sendIdle_kept | with_reducible apply groupEdge_kept
    | with_reducible apply onGroup_kept | split | (intro)

theorem execBlockLockGained_kept {msk : Nat} (g : Fin 8) (headers : Vector (List (BitVec 2)) 8) {s t : State}
    (hm : 0x8000A0200000000000000000000000000000000000000000000000000000000000000000000000000000000000000000 ||| msk = msk) (h : execBlockLockGained g headers s = .next t) : Kept msk s t := by
  unfold execBlockLockGained at h
  refine goLive_kept (fun u hk => ?_) h
  try dsimp only
  repeat' first
    | with_reducible assumption | exact Mask.sub hm rfl | with_reducible apply sendTrain_kept | with_reducible apply groupEdge_kept
    | with_reducible apply onGroup_kept | split | (intro)

theorem execBlockTimeout_kept {msk : Nat} (g : Fin 8) {s t : State}
    (hm : 0x8200A020000000000000000000000000000000000000000000000000000000000000000857F1C0000000000000000000 ||| msk = msk) (h : execBlockTimeout g s = .next t) : Kept msk s t := by
  unfold execBlockTimeout at h
  refine goLive_kept (fun u hk => ?_) h
  try dsimp only
  repeat' first
    | with_reducible assumption | exact Mask.sub hm rfl | with_reducible apply trainFailed_kept | split | (intro)

theorem execIdentTimeout_kept {msk : Nat} (g : Fin 8) {s t : State}
    (hm : 0x8200A020000000000000000000000000000000000000000000000000000000000000000857F1C0000000000000000000 ||| msk = msk) (h : execIdentTimeout g s = .next t) : Kept msk s t := by
  unfold execIdentTimeout at h
  refine goLive_kept (fun u hk => ?_) h
  try dsimp only
  repeat' first
    | with_reducible assumption | exact Mask.sub hm rfl | with_reducible apply identFailed_kept | split | (intro)

theorem execDownRetryTimeout_kept {msk : Nat} (g : Fin 8) {s t : State}
    (hm : 0x8000A0200000000000000000000000000000000000000000000000000000000000000000000000000000000000000000 ||| msk = msk) (h : execDownRetryTimeout g s = .next t) : Kept msk s t := by
  unfold execDownRetryTimeout at h
  refine goLive_kept (fun u hk => ?_) h
  try dsimp only
  repeat' first
    | with_reducible assumption | exact Mask.sub hm rfl | with_reducible apply trainFrom_kept | split | (intro)

theorem execDiscardedPacket_kept {msk : Nat} (g : Fin 8) (lane : Fin 8) {s t : State}
    (hm : 0x8200A020000000000000014032000000000010000004011D0000000000000000000000085FF1C1630000000000000000 ||| msk = msk) (h : execDiscardedPacket g lane s = .next t) : Kept msk s t := by
  unfold execDiscardedPacket at h
  refine goLive_kept (fun u hk => ?_) h
  try dsimp only
  repeat' first
    | with_reducible assumption | exact Mask.sub hm rfl | with_reducible apply discardPacket_kept | split | (intro)

theorem execInboundLaneLost_kept {msk : Nat} (g : Fin 8) (lane : Fin 8) {s t : State}
    (hm : 0x8200A020000000000000014032000000000010000004011D0000000000000000000000085FF1C1630000000000000000 ||| msk = msk) (h : execInboundLaneLost g lane s = .next t) : Kept msk s t := by
  unfold execInboundLaneLost at h
  refine goLive_kept (fun u hk => ?_) h
  try dsimp only
  repeat' first
    | with_reducible assumption | exact Mask.sub hm rfl | with_reducible apply loseRx_kept | split | (intro)

theorem execOutboundLaneLost_kept {msk : Nat} (g : Fin 8) (lane : Fin 2) {s t : State}
    (hm : 0x8200A020000000000000000002000000001806000000000000077AA004800000000000095FF1C0030000000000000000 ||| msk = msk) (h : execOutboundLaneLost g lane s = .next t) : Kept msk s t := by
  unfold execOutboundLaneLost at h
  refine goLive_kept (fun u hk => ?_) h
  try dsimp only
  repeat' first
    | with_reducible assumption | exact Mask.sub hm rfl | with_reducible apply loseTx_kept | split | (intro)

theorem execTrainPacket_kept {msk : Nat} (g : Fin 8) (lane : Fin 8) (header payload : BitVec 64) {s t : State}
    (hm : 0x8200A020000000000000014032000000000010000004011D0000000000000000000000085FF1C1630000000000000000 ||| msk = msk) (h : execTrainPacket g lane header payload s = .next t) : Kept msk s t := by
  unfold execTrainPacket at h
  refine goLive_kept (fun u hk => ?_) h
  try dsimp only
  repeat' first
    | with_reducible assumption | exact Mask.sub hm rfl | with_reducible apply takeTrain_kept | with_reducible apply discardPacket_kept | split
    | (intro)

theorem execStatusPacket_kept {msk : Nat} (l : HlLane) (header payload : BitVec 64) {s t : State}
    (hm : 0x18200A02059805800C80A014032080000F65816000004511FC01F7FF807800000000000095FF1C1630000000000000000 ||| msk = msk) (h : execStatusPacket l header payload s = .next t) : Kept msk s t := by
  unfold execStatusPacket at h
  refine goLive_kept (fun u hk => ?_) h
  try dsimp only
  repeat' first
    | with_reducible assumption | exact Mask.sub hm rfl | with_reducible apply takeStatus_kept | with_reducible apply discardPacket_kept | split
    | (intro)

theorem execTokenPeriod_kept {msk : Nat}  {s t : State}
    (hm : 0x800000200000000000000000000000000000000000000000000000000000000000000000000000000000000000000000 ||| msk = msk) (h : execTokenPeriod  s = .next t) : Kept msk s t := by
  unfold execTokenPeriod at h
  refine goLive_kept (fun u hk => ?_) h
  try dsimp only
  repeat' first
    | with_reducible assumption | exact Mask.sub hm rfl | with_reducible apply forEach_kept | with_reducible apply fillLanes_kept
    | with_reducible apply permitToken_kept | split | (intro)

theorem execRetrain_kept {msk : Nat} (mask : BitVec 8) {s t : State}
    (hm : 0x8000A1200000000000000000000000000000000000000000000000000000000000000000000000000000000000000000 ||| msk = msk) (h : execRetrain mask s = .next t) : Kept msk s t := by
  unfold execRetrain at h
  refine goLive_kept (fun u hk => ?_) h
  try dsimp only
  repeat' first
    | with_reducible assumption | exact Mask.sub hm rfl | with_reducible apply writeRetrain_kept | split | (intro)

theorem execGroupEn_kept {msk : Nat} (mask : BitVec 8) {s t : State}
    (hm : 0x8000A0E00000000000000000000000000000000000000000000000000000000000000000000000000000000000000000 ||| msk = msk) (h : execGroupEn mask s = .next t) : Kept msk s t := by
  unfold execGroupEn at h
  refine goLive_kept (fun u hk => ?_) h
  try dsimp only
  repeat' first
    | with_reducible assumption | exact Mask.sub hm rfl | with_reducible apply writeGroupEn_kept | split | (intro)

/-! ## Machine/Channels.lean -/

theorem siblingWedge_kept {msk : Nat} {s0 : State} (c : Nat) {s : State}
    (hm : 0x100000000000000000000000000000000000000000000000000000000000 ||| msk = msk) (hk : Kept msk s0 s) : Kept msk s0 (siblingWedge c s) := by
  unfold siblingWedge
  try dsimp only
  repeat' first
    | with_reducible assumption | exact Mask.sub hm rfl | with_reducible apply onChan_kept | split | (intro)

theorem judgeWedge_kept {msk : Nat} {s0 : State} {s : State}
    (hm : 0x8200A020000000000006000000000000001806000000000000077AA0048000000000000957F1C0000000000000000000 ||| msk = msk) (hk : Kept msk s0 s) : Kept msk s0 (judgeWedge s) := by
  unfold judgeWedge
  try dsimp only
  repeat' first
    | with_reducible assumption | exact Mask.sub hm rfl | with_reducible apply inhibitIf_kept | with_reducible apply onStp_kept | split | (intro)
    | (constructor <;> first | exact .inl (Mask.bit hm rfl) | exact .inr (by with_reducible rfl))

theorem wedgeArrival_kept {msk : Nat} {s0 : State} (c : Nat) (at_ : Rat) {s : State}
    (hm : 0x8200A020000000000006000000000000201806000000000000077AA0048000000000000957F1C0000000000000000000 ||| msk = msk) (hk : Kept msk s0 s) : Kept msk s0 (wedgeArrival c at_ s) := by
  unfold wedgeArrival
  try dsimp only
  repeat' first
    | with_reducible assumption | exact Mask.sub hm rfl | with_reducible apply judgeWedge_kept | with_reducible apply onTiles_kept | split
    | (intro) | (constructor <;> first | exact .inl (Mask.bit hm rfl) | exact .inr (by with_reducible rfl))

theorem feedChannel_kept {msk : Nat} {s0 : State} (c : Nat) (lost : Bool) (xs : List Int) {s : State}
    (hm : 0x8200A020000000000006000000000000201816000000000000077AA0048000000000000957F1C0000000000000000000 ||| msk = msk) (hk : Kept msk s0 s) : Kept msk s0 (feedChannel c lost xs s) := by
  unfold feedChannel
  try dsimp only
  repeat' first
    | with_reducible assumption | exact Mask.sub hm rfl | with_reducible apply wedgeArrival_kept | with_reducible apply siblingWedge_kept
    | with_reducible apply onChan_kept | split | (intro)

theorem samplePacket_kept {msk : Nat} {s0 : State} (g : Fin 8) (ch : Fin 128) (sidx : Nat) (samples : List Int) {s : State}
    (hm : 0x8200A020000000000006000000000000201816000000000000077AA0048000000000000957F1C0000000000000000000 ||| msk = msk) (hk : Kept msk s0 s) : Kept msk s0 (samplePacket g ch sidx samples s) := by
  unfold samplePacket
  try dsimp only
  repeat' first
    | with_reducible assumption | exact Mask.sub hm rfl | with_reducible apply feedChannel_kept | with_reducible apply onChan_kept | split
    | (intro)

theorem samplePacketLost_kept {msk : Nat} {s0 : State} (g : Fin 8) (ch : Fin 128) {s : State}
    (hm : 0x8200A020000000000006000000000000201816000000000000077AA0048000000000000957F1C0000000000000000000 ||| msk = msk) (hk : Kept msk s0 s) : Kept msk s0 (samplePacketLost g ch s) := by
  unfold samplePacketLost
  try dsimp only
  repeat' first
    | with_reducible assumption | exact Mask.sub hm rfl | with_reducible apply feedChannel_kept | with_reducible apply onGroup_kept | split
    | (intro)

theorem toAssembler_kept {msk : Nat} {s0 : State} (slot : Nat) (f : FrameRec) {s : State}
    (hm : 0x4000000000000000000000000000000000000000000000000000000000000000 ||| msk = msk) (hk : Kept msk s0 s) : Kept msk s0 (toAssembler slot f s) := by
  unfold toAssembler
  try dsimp only
  repeat' first
    | with_reducible assumption | with_reducible apply onTiles_kept | split | (intro)
    | (constructor <;> first | exact .inl (Mask.bit hm rfl) | exact .inr (by with_reducible rfl))

theorem replayBlockA_kept {msk : Nat} {s0 : State} (c : Nat) {s : State}
    (hm : 0x100000000000000000000000000000000000000000000000000000000000 ||| msk = msk) (hk : Kept msk s0 s) : Kept msk s0 (replayBlockA c s) := by
  unfold replayBlockA
  try dsimp only
  repeat' first
    | with_reducible assumption | exact Mask.sub hm rfl | with_reducible apply onChan_kept | split | (intro)

theorem frameEnds_kept {msk : Nat} {s0 : State} (c : Nat) {s : State}
    (hm : 0x4000100000000000000000000000000000000000000000000000000000000000 ||| msk = msk) (hk : Kept msk s0 s) : Kept msk s0 (frameEnds c s) := by
  unfold frameEnds
  try dsimp only
  repeat' first
    | with_reducible assumption | exact Mask.sub hm rfl | with_reducible apply replayBlockA_kept | with_reducible apply toAssembler_kept
    | with_reducible apply onChan_kept | split | (intro)

theorem realignment_kept {msk : Nat} {s0 : State} (c : Nat) {s : State}
    (hm : 0x4000000000000000000000000000000000000000000000000000000000000000 ||| msk = msk) (hk : Kept msk s0 s) : Kept msk s0 (realignment c s) := by
  unfold realignment
  try dsimp only
  repeat' first
    | with_reducible assumption | with_reducible apply onTiles_kept | split | (intro)
    | (constructor <;> first | exact .inl (Mask.bit hm rfl) | exact .inr (by with_reducible rfl))

theorem siblingPrediction_kept {msk : Nat} {s0 : State} (c : Nat) {s : State}
    (hm : 0x4000100000000000000000000000000000000000000000000000000000000000 ||| msk = msk) (hk : Kept msk s0 s) : Kept msk s0 (siblingPrediction c s) := by
  unfold siblingPrediction
  try dsimp only
  repeat' first
    | with_reducible assumption | exact Mask.sub hm rfl | with_reducible apply toAssembler_kept | with_reducible apply onChan_kept | split
    | (intro)

theorem execSamplePacket_kept {msk : Nat} (g lane : Fin 8) (type : BitVec 4) (fields : BitVec 36) (crc : BitVec 24) (payload : List (BitVec 64)) {s t : State}
    (hm : 0x8200A020000000000006014032000000201816000004011D00077AA004800000000000095FF1C1630000000000000000 ||| msk = msk) (h : execSamplePacket g lane type fields crc payload s = .next t) : Kept msk s t := by
  unfold execSamplePacket at h
  refine goLive_kept (fun u hk => ?_) h
  try dsimp only
  repeat' first
    | with_reducible assumption | exact Mask.sub hm rfl | with_reducible apply samplePacket_kept | with_reducible apply discardPacket_kept | split
    | (intro)

theorem execSamplePacketLost_kept {msk : Nat} (g : Fin 8) (ch : Fin 128) {s t : State}
    (hm : 0x8200A020000000000006000000000000201816000000000000077AA0048000000000000957F1C0000000000000000000 ||| msk = msk) (h : execSamplePacketLost g ch s = .next t) : Kept msk s t := by
  unfold execSamplePacketLost at h
  refine goLive_kept (fun u hk => ?_) h
  try dsimp only
  repeat' first
    | with_reducible assumption | exact Mask.sub hm rfl | with_reducible apply samplePacketLost_kept | split | (intro)

theorem execSyncWindow_kept {msk : Nat} (c : Fin 1024) {s t : State}
    (hm : 0x100000000000000000000000000000000000000000000000000000000000 ||| msk = msk) (h : execSyncWindow c s = .next t) : Kept msk s t := by
  unfold execSyncWindow at h
  refine goLive_kept (fun u hk => ?_) h
  try dsimp only
  repeat' first
    | with_reducible assumption | exact Mask.sub hm rfl | with_reducible apply onChan_kept | split | (intro)

theorem execBlockAReplay_kept {msk : Nat} (c : Fin 1024) {s t : State}
    (hm : 0x100000000000000000000000000000000000000000000000000000000000 ||| msk = msk) (h : execBlockAReplay c s = .next t) : Kept msk s t := by
  unfold execBlockAReplay at h
  refine goLive_kept (fun u hk => ?_) h
  try dsimp only
  repeat' first
    | with_reducible assumption | exact Mask.sub hm rfl | with_reducible apply replayBlockA_kept | split | (intro)

theorem execFrameEnd_kept {msk : Nat} (c : Fin 1024) {s t : State}
    (hm : 0x4000100000000000000000000000000000000000000000000000000000000000 ||| msk = msk) (h : execFrameEnd c s = .next t) : Kept msk s t := by
  unfold execFrameEnd at h
  refine goLive_kept (fun u hk => ?_) h
  try dsimp only
  repeat' first
    | with_reducible assumption | exact Mask.sub hm rfl | with_reducible apply frameEnds_kept | split | (intro)

theorem execRealignment_kept {msk : Nat} (c : Fin 1024) {s t : State}
    (hm : 0x4000000000000000000000000000000000000000000000000000000000000000 ||| msk = msk) (h : execRealignment c s = .next t) : Kept msk s t := by
  unfold execRealignment at h
  refine goLive_kept (fun u hk => ?_) h
  try dsimp only
  repeat' first
    | with_reducible assumption | exact Mask.sub hm rfl | with_reducible apply realignment_kept | split | (intro)

theorem execSiblingPrediction_kept {msk : Nat} (c : Fin 1024) {s t : State}
    (hm : 0x4000100000000000000000000000000000000000000000000000000000000000 ||| msk = msk) (h : execSiblingPrediction c s = .next t) : Kept msk s t := by
  unfold execSiblingPrediction at h
  refine goLive_kept (fun u hk => ?_) h
  try dsimp only
  repeat' first
    | with_reducible assumption | exact Mask.sub hm rfl | with_reducible apply siblingPrediction_kept | split | (intro)

/-! ## Machine/KeyCmds.lean -/

theorem rejectLoad_kept {msk : Nat} {s0 : State} (c : Cmd) {s : State}
    (hm : 0x86000000000000000000000000000000000000000000000000000000000000020009B058800000000000000000000000 ||| msk = msk) (hk : Kept msk s0 s) : Kept msk s0 (rejectLoad c s) := by
  unfold rejectLoad
  try dsimp only
  repeat' first
    | with_reducible assumption | exact Mask.sub hm rfl | with_reducible apply adminDone_kept | with_reducible apply onKeep_kept | split | (intro)
    | (constructor <;> first | exact .inl (Mask.bit hm rfl) | exact .inr (by with_reducible rfl))

theorem loadKey_kept {msk : Nat} {s0 : State} (block : Bytes) (c : Cmd) {s : State}
    (hm : 0x8600000000000000000000000000000D000000000000000000000000000000020A09B058800000000000000000000000 ||| msk = msk) (hk : Kept msk s0 s) : Kept msk s0 (loadKey block c s) := by
  unfold loadKey
  try dsimp only
  repeat' first
    | with_reducible assumption | exact Mask.sub hm rfl | with_reducible apply rejectLoad_kept | with_reducible apply adminDone_kept
    | with_reducible apply installGen_kept | with_reducible apply onKeep_kept | split | (intro)
    | (constructor <;> first | exact .inl (Mask.bit hm rfl) | exact .inr (by with_reducible rfl))

theorem eraseKey_kept {msk : Nat} {s0 : State} (c : Cmd) {s : State}
    (hm : 0x8600000000000000000000000000000D000000000000040000040286ED01C2610209B058800000000000000000000000 ||| msk = msk) (hk : Kept msk s0 s) : Kept msk s0 (eraseKey c s) := by
  unfold eraseKey
  try dsimp only
  repeat' first
    | with_reducible assumption | exact Mask.sub hm rfl | with_reducible apply adminDone_kept | with_reducible apply withdrawSlot_kept
    | with_reducible apply onSlot_kept | split | (intro)

theorem withdrawDone_kept {msk : Nat} {s0 : State} (i : Nat) {s : State}
    (hm : 0x86000000000000000000000000000000000000000000000000000000000000000209B058800000000000000000000000 ||| msk = msk) (hk : Kept msk s0 s) : Kept msk s0 (withdrawDone i s) := by
  unfold withdrawDone
  try dsimp only
  repeat' first
    | with_reducible assumption | exact Mask.sub hm rfl | with_reducible apply forEach_kept | with_reducible apply zeroizeSlot_kept
    | with_reducible apply reply_kept | split | (intro)

theorem queryKeys_kept {msk : Nat} {s0 : State} (c : Cmd) {s : State}
    (hm : 0x86000000000000000000000000000000000000000000000000000000000000000009B058800000000000000000000000 ||| msk = msk) (hk : Kept msk s0 s) : Kept msk s0 (queryKeys c s) := by
  unfold queryKeys
  try dsimp only
  repeat' first
    | with_reducible assumption | exact Mask.sub hm rfl | with_reducible apply adminDone_kept | with_reducible apply writeBuffer_kept | split
    | (intro)

theorem execKeyLoad_kept {msk : Nat} (tag : BitVec 16) (block : Bytes) {s t : State}
    (hm : 0x8600000000000000000000000000000D000000000000000000000000000000020A09B058800000000000000000000000 ||| msk = msk) (h : execKeyLoad tag block s = .next t) : Kept msk s t := by
  unfold execKeyLoad at h
  refine goLive_kept (fun u hk => ?_) h
  try dsimp only
  repeat' first
    | with_reducible assumption | exact Mask.sub hm rfl | with_reducible apply loadKey_kept | with_reducible apply adminRun_kept | split | (intro)

theorem execKeyErase_kept {msk : Nat} (tag : BitVec 16) {s t : State}
    (hm : 0x8600000000000000000000000000000D000000000000040000040286ED01C2610209B058800000000000000000000000 ||| msk = msk) (h : execKeyErase tag s = .next t) : Kept msk s t := by
  unfold execKeyErase at h
  refine goLive_kept (fun u hk => ?_) h
  try dsimp only
  repeat' first
    | with_reducible assumption | exact Mask.sub hm rfl | with_reducible apply eraseKey_kept | with_reducible apply adminRun_kept | split
    | (intro)

theorem execKeyWithdrawDone_kept {msk : Nat} (slot : Fin 64) {s t : State}
    (hm : 0x86000000000000000000000000000000000000000000000000000000000000000209B058800000000000000000000000 ||| msk = msk) (h : execKeyWithdrawDone slot s = .next t) : Kept msk s t := by
  unfold execKeyWithdrawDone at h
  refine goLive_kept (fun u hk => ?_) h
  try dsimp only
  repeat' first
    | with_reducible assumption | exact Mask.sub hm rfl | with_reducible apply withdrawDone_kept | split | (intro)

theorem execKeyQuery_kept {msk : Nat} (tag : BitVec 16) {s t : State}
    (hm : 0x86000000000000000000000000000000000000000000000000000000000000000009B058800000000000000000000000 ||| msk = msk) (h : execKeyQuery tag s = .next t) : Kept msk s t := by
  unfold execKeyQuery at h
  refine goLive_kept (fun u hk => ?_) h
  try dsimp only
  repeat' first
    | with_reducible assumption | exact Mask.sub hm rfl | with_reducible apply queryKeys_kept | with_reducible apply adminRun_kept | split
    | (intro)

/-! ## Machine/WritePath.lean -/

theorem blockDone_kept {msk : Nat} {s0 : State} (e : Nat) {s : State}
    (hm : 0x8600A0000000000000000000000000000000000000000C00000000006D39C0000209B058800000010000000000000000 ||| msk = msk) (hk : Kept msk s0 s) : Kept msk s0 (blockDone e s) := by
  unfold blockDone
  try dsimp only
  repeat' first
    | with_reducible assumption | exact Mask.sub hm rfl | with_reducible apply pack_kept | with_reducible apply startEngine_kept
    | with_reducible apply raise_kept | with_reducible apply onCz_kept | split | (intro)
    | (constructor <;> first | exact .inl (Mask.bit hm rfl) | exact .inr (by with_reducible rfl))

theorem commitSlot_kept {msk : Nat} {s0 : State} {s : State}
    (hm : 0x18600A02059805800C80A014030080000F658120000045D1FC01C1FFFEF99C0800209B059D7F1C1610020000000000000 ||| msk = msk) (hk : Kept msk s0 s) : Kept msk s0 (commitSlot s) := by
  unfold commitSlot
  try dsimp only
  repeat' first
    | with_reducible assumption | exact Mask.sub hm rfl | with_reducible apply forEach_kept | with_reducible apply afterVerify_kept
    | with_reducible apply useSlot_kept | with_reducible apply leaveSkip_kept | with_reducible apply leaveSlot_kept
    | with_reducible apply pruneRewrites_kept | with_reducible apply writeTail_kept | with_reducible apply endRun_kept
    | with_reducible apply permitToken_kept | with_reducible apply advanceTo_kept | with_reducible apply onWr_kept | split | (intro)
    | (constructor <;> first | exact .inl (Mask.bit hm rfl) | exact .inr (by with_reducible rfl))

theorem enterTurn_kept {msk : Nat} {s0 : State} (w : Nat) {s : State}
    (hm : 0x8000A02059805800080A0000000800000240100001000100400001000000000000000000000000000000000000000000 ||| msk = msk) (hk : Kept msk s0 s) : Kept msk s0 (enterTurn w s) := by
  unfold enterTurn
  try dsimp only
  repeat' first
    | with_reducible assumption | exact Mask.sub hm rfl | with_reducible apply setWvn_kept | with_reducible apply startProgram_kept
    | with_reducible apply useModule_kept | with_reducible apply onWr_kept | with_reducible apply onWvn_kept | split | (intro)
    | (constructor <;> first | exact .inl (Mask.bit hm rfl) | exact .inr (by with_reducible rfl))

theorem turnWriting_kept {msk : Nat} {s0 : State} {s : State}
    (hm : 0x18600A02059805800080A0000000800000240100001005507C01C07BEEF01C0000209B059D7F1C0000000000000000000 ||| msk = msk) (hk : Kept msk s0 s) : Kept msk s0 (turnWriting s) := by
  unfold turnWriting
  try dsimp only
  repeat' first
    | with_reducible assumption | exact Mask.sub hm rfl | with_reducible apply enterTurn_kept | with_reducible apply partitionOut_kept
    | with_reducible apply closeWrap_kept | with_reducible apply openWrap_kept | with_reducible apply onPart_kept | with_reducible apply onWr_kept
    | split | (intro) | (constructor <;> first | exact .inl (Mask.bit hm rfl) | exact .inr (by with_reducible rfl))

theorem turnReading_kept {msk : Nat} {s0 : State} {s : State}
    (hm : 0x8000A02059805800080A000000080EC00240100001005107C00001000000000000000000000000000000000000000000 ||| msk = msk) (hk : Kept msk s0 s) : Kept msk s0 (turnReading s) := by
  unfold turnReading
  try dsimp only
  repeat' first
    | with_reducible assumption | exact Mask.sub hm rfl | with_reducible apply enterTurn_kept | with_reducible apply endRun_kept
    | with_reducible apply onRd_kept | split | (intro)
    | (constructor <;> first | exact .inl (Mask.bit hm rfl) | exact .inr (by with_reducible rfl))

theorem execCompressionBlockDone_kept {msk : Nat} (e : Fin 4) {s t : State}
    (hm : 0x8600A0000000000000000000000000000000000000000C00000000006D39C0000209B058800000010000000000000000 ||| msk = msk) (h : execCompressionBlockDone e s = .next t) : Kept msk s t := by
  unfold execCompressionBlockDone at h
  refine goLive_kept (fun u hk => ?_) h
  try dsimp only
  repeat' first
    | with_reducible assumption | exact Mask.sub hm rfl | with_reducible apply blockDone_kept | split | (intro)

theorem execCompressionEngineFault_kept {msk : Nat} (e : Fin 4) {s t : State}
    (hm : 0xFFCFFFFFFFFFFFFFFFF9FFFFFFFFFFFFFE7FFFFAFFFFFFFFFFFFFFFFFFFFFFFFF7EFFFFFDFF1F77BE01E3C3F00C70E00 ||| msk = msk) (h : execCompressionEngineFault e s = .next t) : Kept msk s t := by
  unfold execCompressionEngineFault at h
  refine goLive_kept (fun u hk => ?_) h
  try dsimp only
  repeat' first
    | with_reducible assumption | exact Mask.sub hm rfl | with_reducible apply engineFault_kept | split | (intro)

theorem execStagingStallRelease_kept {msk : Nat}  {s t : State}
    (hm : 0x860000000000000000000000000000000000000000000C00000000006D19C0000209B058800000010000000000000000 ||| msk = msk) (h : execStagingStallRelease  s = .next t) : Kept msk s t := by
  unfold execStagingStallRelease at h
  refine goLive_kept (fun u hk => ?_) h
  try dsimp only
  repeat' first
    | with_reducible assumption | exact Mask.sub hm rfl | with_reducible apply pack_kept | with_reducible apply updateStall_kept | split | (intro)

theorem execCupolaInvocation_kept {msk : Nat}  {s t : State}
    (hm : 0x8000A0000000000000000000000000000000000000000000000000020500008002008000000000010000000000000000 ||| msk = msk) (h : execCupolaInvocation  s = .next t) : Kept msk s t := by
  unfold execCupolaInvocation at h
  refine goLive_kept (fun u hk => ?_) h
  try dsimp only
  repeat' first
    | with_reducible assumption | exact Mask.sub hm rfl | with_reducible apply sealSet_kept | with_reducible apply raise_kept
    | with_reducible apply needDomains_kept | split | (intro)

theorem execCupolaCoreError_kept {msk : Nat} (core : Fin 4) {s t : State}
    (hm : 0xFFCFFFFFFFFFFFFFFFF9FFFFFFFFFFFFFE7FFFFAFFFFFFFFFFFFFFFFFFFFFFFFF7EFFFFF5FF1F77BE01E3C3F00C70E00 ||| msk = msk) (h : execCupolaCoreError core s = .next t) : Kept msk s t := by
  unfold execCupolaCoreError at h
  refine goLive_kept (fun u hk => ?_) h
  try dsimp only
  repeat' first
    | with_reducible assumption | exact Mask.sub hm rfl | with_reducible apply takeOut_kept | split | (intro)

theorem execKeepCopyMismatch_kept {msk : Nat} (failed : Fin 2) {s t : State}
    (hm : 0xFFCFFFFFFFFFFFFFFFF9FFFFFFFFFFFFFE7FFFFAFFFFFFFFFFFFFFFFFFFFFFFFF7EFFFFF5FF1F77BE01E3C3F00C70E00 ||| msk = msk) (h : execKeepCopyMismatch failed s = .next t) : Kept msk s t := by
  unfold execKeepCopyMismatch at h
  refine goLive_kept (fun u hk => ?_) h
  try dsimp only
  repeat' first
    | with_reducible assumption | exact Mask.sub hm rfl | with_reducible apply takeOut_kept | split | (intro)

theorem execEccEncode_kept {msk : Nat}  {s t : State}
    (hm : 0x18000A02059805800C80A014030080000F64010000004511FC01805780700000000000000000001610000000000000000 ||| msk = msk) (h : execEccEncode  s = .next t) : Kept msk s t := by
  unfold execEccEncode at h
  refine goLive_kept (fun u hk => ?_) h
  try dsimp only
  repeat' first
    | with_reducible assumption | exact Mask.sub hm rfl | with_reducible apply kickWrites_kept | with_reducible apply sealed_kept
    | with_reducible apply stage_kept | with_reducible apply onSet_kept | with_reducible apply needDomains_kept | split | (intro)

theorem execDomeParityCompute_kept {msk : Nat} (group : Nat) (dome : Fin 8) {s t : State}
    (hm : 0x40000000000EC00000000000000000000000000000000000000 ||| msk = msk) (h : execDomeParityCompute group dome s = .next t) : Kept msk s t := by
  unfold execDomeParityCompute at h
  refine goLive_kept (fun u hk => ?_) h
  try dsimp only
  repeat' first
    | with_reducible assumption | exact Mask.sub hm rfl | with_reducible apply makeParity_kept | split | (intro)

theorem execSlotCommit_kept {msk : Nat}  {s t : State}
    (hm : 0x18600A02059805800C80A014030080000F658120000045D1FC01C1FFFEF99C0800209B059D7F1C1610020000000000000 ||| msk = msk) (h : execSlotCommit  s = .next t) : Kept msk s t := by
  unfold execSlotCommit at h
  refine goLive_kept (fun u hk => ?_) h
  try dsimp only
  repeat' first
    | with_reducible assumption | exact Mask.sub hm rfl | with_reducible apply commitSlot_kept | split | (intro)

theorem execVerifyResult_kept {msk : Nat} (slot : Nat) {s t : State}
    (hm : 0x18600A02059805800C80A014030080000F658181D00045D1FC01807F9EF99C0000209B058D7F1C1610000000000000000 ||| msk = msk) (h : execVerifyResult slot s = .next t) : Kept msk s t := by
  unfold execVerifyResult at h
  refine goLive_kept (fun u hk => ?_) h
  try dsimp only
  repeat' first
    | with_reducible assumption | exact Mask.sub hm rfl | with_reducible apply takeVerify_kept | split | (intro)

theorem execWrapEnd_kept {msk : Nat}  {s t : State}
    (hm : 0x800000200000000000000000000000000018000000000000000800000000000000000000000000000000000000000000 ||| msk = msk) (h : execWrapEnd  s = .next t) : Kept msk s t := by
  unfold execWrapEnd at h
  refine goLive_kept (fun u hk => ?_) h
  try dsimp only
  repeat' first
    | with_reducible assumption | exact Mask.sub hm rfl | with_reducible apply writeTail_kept | with_reducible apply onWr_kept | split | (intro)
    | (constructor <;> first | exact .inl (Mask.bit hm rfl) | exact .inr (by with_reducible rfl))

theorem execTurnEntry_kept {msk : Nat}  {s t : State}
    (hm : 0x18600A02059805800080A000000080EC00240100001005507C01C07BEEF01C0000209B059D7F1C0000000000000000000 ||| msk = msk) (h : execTurnEntry  s = .next t) : Kept msk s t := by
  unfold execTurnEntry at h
  refine goLive_kept (fun u hk => ?_) h
  try dsimp only
  repeat' first
    | with_reducible assumption | exact Mask.sub hm rfl | with_reducible apply turnReading_kept | with_reducible apply turnWriting_kept | split
    | (intro)

theorem execWriteInhibit_kept {msk : Nat} (src : InhibitSource) {s t : State}
    (hm : 0x8200A020000000000000000000000000001806000000000000067AA0048000000000000957F1C0000000000000000000 ||| msk = msk) (h : execWriteInhibit src s = .next t) : Kept msk s t := by
  unfold execWriteInhibit at h
  refine goLive_kept (fun u hk => ?_) h
  try dsimp only
  repeat' first
    | with_reducible assumption | exact Mask.sub hm rfl | with_reducible apply inhibitOn_kept | split | (intro)

theorem execWriteResume_kept {msk : Nat}  {s t : State}
    (hm : 0x800000200000000000000000000000000000000000000000000130100000000000000000000000000020000000000000 ||| msk = msk) (h : execWriteResume  s = .next t) : Kept msk s t := by
  unfold execWriteResume at h
  refine goLive_kept (fun u hk => ?_) h
  try dsimp only
  repeat' first
    | with_reducible assumption | exact Mask.sub hm rfl | with_reducible apply resumeTokens_kept | with_reducible apply advanceTo_kept | split
    | (intro)

theorem execStackLoss_kept {msk : Nat} (stack : Fin 2) {s t : State}
    (hm : 0xFFCFFFFFFFFFFFFFFFF9FFFFFFFFFFFFFE7FFFFAFFFFFFFFFFFFFFFFFFFFFFFFF7EFFFFF5FF1F77BE01E3C3F00C70E00 ||| msk = msk) (h : execStackLoss stack s = .next t) : Kept msk s t := by
  unfold execStackLoss at h
  refine goLive_kept (fun u hk => ?_) h
  try dsimp only
  repeat' first
    | with_reducible assumption | exact Mask.sub hm rfl | with_reducible apply takeOut_kept | split | (intro)

theorem execCmResponse_kept {msk : Nat} (bytes : Bytes) {s t : State}
    (hm : 0x18600A02059805800C80A014030080000F64010000004551FC01805786F8000000209B058800001610000000000000000 ||| msk = msk) (h : execCmResponse bytes s = .next t) : Kept msk s t := by
  unfold execCmResponse at h
  refine goLive_kept (fun u hk => ?_) h
  try dsimp only
  repeat' first
    | with_reducible assumption | exact Mask.sub hm rfl | with_reducible apply kickWrites_kept | with_reducible apply settle_kept
    | with_reducible apply cmTake_kept | split | (intro)

theorem execCmPollRetry_kept {msk : Nat}  {s t : State}
    (hm : 0x800000000000000000000000000000000000000000000000000000000200000000000000000000000020000000000000 ||| msk = msk) (h : execCmPollRetry  s = .next t) : Kept msk s t := by
  unfold execCmPollRetry at h
  refine goLive_kept (fun u hk => ?_) h
  try dsimp only
  repeat' first
    | with_reducible assumption | exact Mask.sub hm rfl | with_reducible apply onLink_kept | with_reducible apply advanceTo_kept
    | with_reducible apply emit_kept | split | (intro)

theorem execCmFieldOffTimeout_kept {msk : Nat}  {s t : State}
    (hm : 0x800000000000000000000000000000000000000000000000000000000200000000000000000000000020000000000000 ||| msk = msk) (h : execCmFieldOffTimeout  s = .next t) : Kept msk s t := by
  unfold execCmFieldOffTimeout at h
  refine goLive_kept (fun u hk => ?_) h
  try dsimp only
  repeat' first
    | with_reducible assumption | exact Mask.sub hm rfl | with_reducible apply cmClose_kept | with_reducible apply advanceTo_kept | split
    | (intro)

/-! ## Machine/Crypt.lean -/

theorem cryptRefused_kept {msk : Nat} {s0 : State} (c : Cmd) (st : Nat) {s : State}
    (hm : 0x86000000000000000000000000000000000000000000000000000000000000610009B058800000000000000000000000 ||| msk = msk) (hk : Kept msk s0 s) : Kept msk s0 (cryptRefused c st s) := by
  unfold cryptRefused
  try dsimp only
  repeat' first
    | with_reducible assumption | exact Mask.sub hm rfl | with_reducible apply closeHandle_kept | with_reducible apply reply_kept | split
    | (intro)

theorem cryptLast_kept {msk : Nat} {s0 : State} (c : Cmd) (key : Bytes) (x : CryptCtx) (out text param : Bytes) {s : State}
    (hm : 0x86000000000000000000000000000000000000000000000000000000000001610209B058800000000000000000000000 ||| msk = msk) (hk : Kept msk s0 s) : Kept msk s0 (cryptLast c key x out text param s) := by
  unfold cryptLast
  try dsimp only
  repeat' first
    | with_reducible assumption | exact Mask.sub hm rfl | with_reducible apply finishCmd_kept | with_reducible apply closeHandle_kept
    | with_reducible apply dropCtx_kept | with_reducible apply reply_kept | with_reducible apply zeroOut_kept
    | with_reducible apply hostWrites_kept | with_reducible apply onCupola_kept | split | (intro)
    | (constructor <;> first | exact .inl (Mask.bit hm rfl) | exact .inr (by with_reducible rfl))

theorem cryptKeep_kept {msk : Nat} {s0 : State} (c : Cmd) (x : CryptCtx) (out : Bytes) {s : State}
    (hm : 0x86000000000000000000000000000000000000000000000000000000000000618009B058800000000000000000000000 ||| msk = msk) (hk : Kept msk s0 s) : Kept msk s0 (cryptKeep c x out s) := by
  unfold cryptKeep
  try dsimp only
  repeat' first
    | with_reducible assumption | exact Mask.sub hm rfl | with_reducible apply closeHandle_kept | with_reducible apply putCtx_kept
    | with_reducible apply reply_kept | with_reducible apply zeroOut_kept | split | (intro)

theorem cryptRun_kept {msk : Nat} {s0 : State} (c : Cmd) (key : Bytes) (x : CryptCtx) (input param : Bytes) {s : State}
    (hm : 0x86000000000000000000000000000000000000000000000000000000000001E18209B058800000010000000000000000 ||| msk = msk) (hk : Kept msk s0 s) : Kept msk s0 (cryptRun c key x input param s) := by
  unfold cryptRun
  try dsimp only
  repeat' first
    | with_reducible assumption | exact Mask.sub hm rfl | with_reducible apply cryptKeep_kept | with_reducible apply cryptLast_kept
    | with_reducible apply countInv_kept | with_reducible apply hostWrites_kept | with_reducible apply needDomains_kept | split | (intro)

theorem cryptBegin_kept {msk : Nat} {s0 : State} (c : Cmd) (input param : Bytes) {s : State}
    (hm : 0x86000000000000000000000000000000000000000000000000000000000001E18209B058800000010000000000000000 ||| msk = msk) (hk : Kept msk s0 s) : Kept msk s0 (cryptBegin c input param s) := by
  unfold cryptBegin
  try dsimp only
  repeat' first
    | with_reducible assumption | exact Mask.sub hm rfl | with_reducible apply cryptRun_kept | with_reducible apply cryptRefused_kept
    | with_reducible apply useGen_kept | split | (intro)

theorem rejectSpill_kept {msk : Nat} {s0 : State} (c : Cmd) (reason : Nat) {s : State}
    (hm : 0x8600A000000000000000000000000000000000000000000000000000000008610009B058D7F1C0000000000000000000 ||| msk = msk) (hk : Kept msk s0 s) : Kept msk s0 (rejectSpill c reason s) := by
  unfold rejectSpill
  try dsimp only
  repeat' first
    | with_reducible assumption | exact Mask.sub hm rfl | with_reducible apply cryptRefused_kept | with_reducible apply lantern_kept
    | with_reducible apply onCupola_kept | split | (intro)
    | (constructor <;> first | exact .inl (Mask.bit hm rfl) | exact .inr (by with_reducible rfl))

theorem cryptContinue_kept {msk : Nat} {s0 : State} (c : Cmd) (input param : Bytes) {s : State}
    (hm : 0x8600A000000000000000000000000000000000000000000000000000000009E18209B058D7F1C0010000000000000000 ||| msk = msk) (hk : Kept msk s0 s) : Kept msk s0 (cryptContinue c input param s) := by
  unfold cryptContinue
  try dsimp only
  repeat' first
    | with_reducible assumption | exact Mask.sub hm rfl | with_reducible apply rejectSpill_kept | with_reducible apply cryptRun_kept
    | with_reducible apply cryptRefused_kept | split | (intro)

theorem cryptCmd_kept {msk : Nat} {s0 : State} (c : Cmd) (input param : Bytes) {s : State}
    (hm : 0x8600A000000000000000000000000000000000000000000000000000000009E18209B058D7F1C0010000000000000000 ||| msk = msk) (hk : Kept msk s0 s) : Kept msk s0 (cryptCmd c input param s) := by
  unfold cryptCmd
  try dsimp only
  repeat' first
    | with_reducible assumption | exact Mask.sub hm rfl | with_reducible apply cryptContinue_kept | with_reducible apply cryptBegin_kept | split
    | (intro)

theorem execCrypt_kept {msk : Nat} (q : Fin 256) (tag : BitVec 16) (input param : Bytes) {s t : State}
    (hm : 0x8600A000000000000000000000000000000000000000000000000000000009E18209B058D7F1C0010000000000000000 ||| msk = msk) (h : execCrypt q tag input param s = .next t) : Kept msk s t := by
  unfold execCrypt at h
  refine goLive_kept (fun u hk => ?_) h
  try dsimp only
  repeat' first
    | with_reducible assumption | exact Mask.sub hm rfl | with_reducible apply cryptCmd_kept | split | (intro)

theorem execCryptHandleTimeout_kept {msk : Nat} (h : Fin 256) {s t : State}
    (hm : 0x800000000000000000000000000000000000000000000000000000000000006100000000000000000000000000000000 ||| msk = msk) (h : execCryptHandleTimeout h s = .next t) : Kept msk s t := by
  unfold execCryptHandleTimeout at h
  refine goLive_kept (fun u hk => ?_) h
  try dsimp only
  repeat' first
    | with_reducible assumption | exact Mask.sub hm rfl | with_reducible apply closeHandle_kept | split | (intro)

end Sys2Proof.Machine
end

