-- ==== Sys2Proof/Laws/KeptChannels.lean ====
section
/-! SUPPORT. What the operations and commands of RetryOps, Weathervane, Serve, Deskew, Pins, ServoOps, Servo keep (see Laws/Kept.lean). -/

set_option linter.unusedTactic false
set_option linter.unreachableTactic false
set_option linter.unusedVariables false

namespace Sys2Proof.Machine

/-! ## Machine/RetryOps.lean -/

theorem onFailed_kept {msk : Nat} {s0 : State} (n : Nat) (f : FailedSet → FailedSet) {s : State}
    (hm : 0x20000000000000000000000000000000000000000000000000000000000000000 ||| msk = msk) (hk : Kept msk s0 s) : Kept msk s0 (onFailed n f s) := by
  unfold onFailed
  try dsimp only
  repeat' first
    | with_reducible assumption | with_reducible apply onRd_kept | split | (intro)
    | (constructor <;> first | exact .inl (Mask.bit hm rfl) | exact .inr (by with_reducible rfl))

theorem giveUp_kept {msk : Nat} {s0 : State} (n : Nat) {s : State}
    (hm : 0x20000010000000000000000000000000000000000000000000000000000000000 ||| msk = msk) (hk : Kept msk s0 s) : Kept msk s0 (giveUp n s) := by
  unfold giveUp
  try dsimp only
  repeat' first
    | with_reducible assumption | exact Mask.sub hm rfl | with_reducible apply onFailed_kept | with_reducible apply onEcc_kept | split | (intro)
    | (constructor <;> first | exact .inl (Mask.bit hm rfl) | exact .inr (by with_reducible rfl))

theorem startPass_kept {msk : Nat} {s0 : State} (f : FailedSet) (k : Nat) {s : State}
    (hm : 0x8000A02059805802C80A0140300840C0F64010000004000D800000000000000000000000000001600000000000000000 ||| msk = msk) (hk : Kept msk s0 s) : Kept msk s0 (startPass f k s) := by
  unfold startPass
  try dsimp only
  repeat' first
    | with_reducible assumption | exact Mask.sub hm rfl | with_reducible apply askRatio_kept | with_reducible apply startProgram_kept
    | with_reducible apply useModule_kept | with_reducible apply frozenValues_kept | with_reducible apply passChans_kept
    | with_reducible apply onWvn_kept | with_reducible apply onRd_kept | with_reducible apply onStp_kept | with_reducible apply foldl_kept | split
    | (intro) | (constructor <;> first | exact .inl (Mask.bit hm rfl) | exact .inr (by with_reducible rfl))

theorem startRetry_kept {msk : Nat} {s0 : State} {s : State}
    (hm : 0x8000A02059805802C80A01403008C0C0F64010000004000D800000000000000000000000000001600000000000000000 ||| msk = msk) (hk : Kept msk s0 s) : Kept msk s0 (startRetry s) := by
  unfold startRetry
  try dsimp only
  repeat' first
    | with_reducible assumption | exact Mask.sub hm rfl | with_reducible apply startPass_kept | with_reducible apply keepValues_kept
    | with_reducible apply onRd_kept | split | (intro)
    | (constructor <;> first | exact .inl (Mask.bit hm rfl) | exact .inr (by with_reducible rfl))

theorem stoppedForRetry_kept {msk : Nat} {s0 : State} {s : State}
    (hm : 0x8000A02059805802C80A01403009C0C0F64010000004000D800000000000000000000000000001600000000000000000 ||| msk = msk) (hk : Kept msk s0 s) : Kept msk s0 (stoppedForRetry s) := by
  unfold stoppedForRetry
  try dsimp only
  repeat' first
    | with_reducible assumption | exact Mask.sub hm rfl | with_reducible apply startRetry_kept | with_reducible apply onRd_kept | split | (intro)
    | (constructor <;> first | exact .inl (Mask.bit hm rfl) | exact .inr (by with_reducible rfl))

theorem retryFromIdle_kept {msk : Nat} {s0 : State} {s : State}
    (hm : 0x8000A02059805802C80A01403009C0C0F64010000004000DC00000000000000000000000000001600000000000000000 ||| msk = msk) (hk : Kept msk s0 s) : Kept msk s0 (retryFromIdle s) := by
  unfold retryFromIdle
  try dsimp only
  repeat' first
    | with_reducible assumption | exact Mask.sub hm rfl | with_reducible apply stoppedForRetry_kept | with_reducible apply setWvn_kept
    | with_reducible apply onWvn_kept | split | (intro)
    | (constructor <;> first | exact .inl (Mask.bit hm rfl) | exact .inr (by with_reducible rfl))

theorem endRetry_kept {msk : Nat} {s0 : State} {s : State}
    (hm : 0x8000002000000002000000000000C0C0F640100000000000000000000000000000000000000000000000000000000000 ||| msk = msk) (hk : Kept msk s0 s) : Kept msk s0 (endRetry s) := by
  unfold endRetry
  try dsimp only
  repeat' first
    | with_reducible assumption | exact Mask.sub hm rfl | with_reducible apply useModule_kept | with_reducible apply passChans_kept
    | with_reducible apply onRd_kept | with_reducible apply onStp_kept | split | (intro)
    | (constructor <;> first | exact .inl (Mask.bit hm rfl) | exact .inr (by with_reducible rfl))

/-! ## Machine/Weathervane.lean -/

theorem refreshVoltage_kept {msk : Nat} {s0 : State} {s : State}
    (hm : 0x800000000000000000000000000000000000000000000000000000000000000000000000000001600000000000000000 ||| msk = msk) (hk : Kept msk s0 s) : Kept msk s0 (refreshVoltage s) := by
  unfold refreshVoltage
  try dsimp only
  repeat' first
    | with_reducible assumption | exact Mask.sub hm rfl | with_reducible apply avsWrite_kept | split | (intro)

theorem readback_kept {msk : Nat} {s0 : State} (mv : Nat) {s : State}
    (hm : 0x8000A00059805800080A014030080000000000000004400F000000000000000000000000000001F80000000000000000 ||| msk = msk) (hk : Kept msk s0 s) : Kept msk s0 (readback mv s) := by
  unfold readback
  try dsimp only
  repeat' first
    | with_reducible assumption | exact Mask.sub hm rfl | with_reducible apply startTape_kept | with_reducible apply askRatio_kept
    | with_reducible apply onPower_kept | with_reducible apply onWvn_kept | split | (intro)
    | (constructor <;> first | exact .inl (Mask.bit hm rfl) | exact .inr (by with_reducible rfl))

theorem marginLow_kept {msk : Nat} {s0 : State} {s : State}
    (hm : 0x8200A000000000000000000000000000000000000019000000000000000000000000000857F1C0000000000000000000 ||| msk = msk) (hk : Kept msk s0 s) : Kept msk s0 (marginLow s) := by
  unfold marginLow
  try dsimp only
  repeat' first
    | with_reducible assumption | exact Mask.sub hm rfl | with_reducible apply wvnRecord_kept | with_reducible apply onWvn_kept | split | (intro)
    | (constructor <;> first | exact .inl (Mask.bit hm rfl) | exact .inr (by with_reducible rfl))

theorem marginHigh_kept {msk : Nat} {s0 : State} {s : State} (hm : 0x190000000000000000000000000000000000000000000000000000 ||| msk = msk)
    (hk : Kept msk s0 s) : Kept msk s0 (marginHigh s) := by
  unfold marginHigh
  try dsimp only
  repeat' first
    | with_reducible assumption | with_reducible apply onWvn_kept | split | (intro)
    | (constructor <;> first | exact .inl (Mask.bit hm rfl) | exact .inr (by with_reducible rfl))

theorem marginStep_kept {msk : Nat} {s0 : State} (permille : Nat) {s : State}
    (hm : 0x8200A000000000000000000000000000000000000019800000000000000000000000000857F1C0000000000000000000 ||| msk = msk) (hk : Kept msk s0 s) : Kept msk s0 (marginStep permille s) := by
  unfold marginStep
  try dsimp only
  repeat' first
    | with_reducible assumption | exact Mask.sub hm rfl | with_reducible apply marginHigh_kept | with_reducible apply marginLow_kept
    | with_reducible apply voltageCap_kept | with_reducible apply onWvn_kept | split | (intro)
    | (constructor <;> first | exact .inl (Mask.bit hm rfl) | exact .inr (by with_reducible rfl))

theorem updateH_kept {msk : Nat} {s0 : State} {s : State} (hm : 0xC60000000004000000000000000000000000000000000000000 ||| msk = msk)
    (hk : Kept msk s0 s) : Kept msk s0 (updateH s) := by
  unfold updateH
  try dsimp only
  repeat' first
    | with_reducible assumption | with_reducible apply onWr_kept | with_reducible apply onWvn_kept | split | (intro)
    | (constructor <;> first | exact .inl (Mask.bit hm rfl) | exact .inr (by with_reducible rfl))

theorem command_kept {msk : Nat} {s0 : State} {s : State} (hm : 0x190000000000000000000000000000000000000000000000000 ||| msk = msk)
    (hk : Kept msk s0 s) : Kept msk s0 (command s) := by
  unfold command
  try dsimp only
  repeat' first
    | with_reducible assumption | with_reducible apply onWvn_kept | split | (intro)
    | (constructor <;> first | exact .inl (Mask.bit hm rfl) | exact .inr (by with_reducible rfl))

theorem slew_kept {msk : Nat} {s0 : State} {s : State}
    (hm : 0x80000000000000000000014030000000000000000004020D000000000000000000000000000001600000000000000000 ||| msk = msk) (hk : Kept msk s0 s) : Kept msk s0 (slew s) := by
  unfold slew
  try dsimp only
  repeat' first
    | with_reducible assumption | exact Mask.sub hm rfl | with_reducible apply askRatio_kept | with_reducible apply onWvn_kept | split | (intro)
    | (constructor <;> first | exact .inl (Mask.bit hm rfl) | exact .inr (by with_reducible rfl))

theorem watchTurns_kept {msk : Nat} {s0 : State} {s : State}
    (hm : 0x8200A000000000000000000000000000000000000060000000000000000000000000000857F1C0000000000000000000 ||| msk = msk) (hk : Kept msk s0 s) : Kept msk s0 (watchTurns s) := by
  unfold watchTurns
  try dsimp only
  repeat' first
    | with_reducible assumption | exact Mask.sub hm rfl | with_reducible apply wvnRecord_kept | with_reducible apply onWvn_kept | split | (intro)
    | (constructor <;> first | exact .inl (Mask.bit hm rfl) | exact .inr (by with_reducible rfl))

theorem countDwell_kept {msk : Nat} {s0 : State} {s : State} (hm : 0x1000000000000000000000000000000000000000000000000000 ||| msk = msk)
    (hk : Kept msk s0 s) : Kept msk s0 (countDwell s) := by
  unfold countDwell
  try dsimp only
  repeat' first
    | with_reducible assumption | with_reducible apply onWvn_kept | split | (intro)
    | (constructor <;> first | exact .inl (Mask.bit hm rfl) | exact .inr (by with_reducible rfl))

theorem takeConfig_kept {msk : Nat} {s0 : State} {s : State} (hm : 0x3FC000000000000000000000000000000000000000000000 ||| msk = msk)
    (hk : Kept msk s0 s) : Kept msk s0 (takeConfig s) := by
  unfold takeConfig
  try dsimp only
  repeat' first
    | with_reducible assumption | with_reducible apply onWvn_kept | split | (intro)
    | (constructor <;> first | exact .inl (Mask.bit hm rfl) | exact .inr (by with_reducible rfl))

theorem weathervaneUpdate_kept {msk : Nat} {s0 : State} {s : State}
    (hm : 0x18200A02059805800C80A014030080000F64010000264DFFFFFD80578670000000000000857F1C1610020000000000000 ||| msk = msk) (hk : Kept msk s0 s) : Kept msk s0 (weathervaneUpdate s) := by
  unfold weathervaneUpdate
  try dsimp only
  repeat' first
    | with_reducible assumption | exact Mask.sub hm rfl | with_reducible apply takeConfig_kept | with_reducible apply countDwell_kept
    | with_reducible apply watchTurns_kept | with_reducible apply slew_kept | with_reducible apply command_kept
    | with_reducible apply updateH_kept | with_reducible apply refreshVoltage_kept | with_reducible apply kickWrites_kept
    | with_reducible apply restartIfAsked_kept | with_reducible apply voltageCap_kept | with_reducible apply updateStall_kept
    | with_reducible apply advanceTo_kept | with_reducible apply onWvn_kept | split | (intro)
    | (constructor <;> first | exact .inl (Mask.bit hm rfl) | exact .inr (by with_reducible rfl))

theorem enterStopping_kept {msk : Nat} {s0 : State} {s : State}
    (hm : 0x8000A00059805800080A0000000802000000000000000000400000000000000000000000000000000000000000000000 ||| msk = msk) (hk : Kept msk s0 s) : Kept msk s0 (enterStopping s) := by
  unfold enterStopping
  try dsimp only
  repeat' first
    | with_reducible assumption | exact Mask.sub hm rfl | with_reducible apply backhitchIfDone_kept | with_reducible apply startBackhitch_kept
    | with_reducible apply setWvn_kept | with_reducible apply onRd_kept | split | (intro)
    | (constructor <;> first | exact .inl (Mask.bit hm rfl) | exact .inr (by with_reducible rfl))

theorem enterStopped_kept {msk : Nat} {s0 : State} {s : State}
    (hm : 0x8000A0000000000000000000000000000000000000802001400000000000000000000000000000000000000000000000 ||| msk = msk) (hk : Kept msk s0 s) : Kept msk s0 (enterStopped s) := by
  unfold enterStopped
  try dsimp only
  repeat' first
    | with_reducible assumption | exact Mask.sub hm rfl | with_reducible apply setWvn_kept | with_reducible apply onWvn_kept | split | (intro)
    | (constructor <;> first | exact .inl (Mask.bit hm rfl) | exact .inr (by with_reducible rfl))

theorem resumeRuns_kept {msk : Nat} {s0 : State} {s : State}
    (hm : 0x8000A02059805800C80A014030080000F64010000004511FC00000000000000000000000000001610000000000000000 ||| msk = msk) (hk : Kept msk s0 s) : Kept msk s0 (resumeRuns s) := by
  unfold resumeRuns
  try dsimp only
  repeat' first
    | with_reducible assumption | exact Mask.sub hm rfl | with_reducible apply restart_kept | with_reducible apply beginRun_kept
    | with_reducible apply onWvn_kept | split | (intro)
    | (constructor <;> first | exact .inl (Mask.bit hm rfl) | exact .inr (by with_reducible rfl))

theorem execSpeedReached_kept {msk : Nat}  {s t : State}
    (hm : 0x800000000000000000000000000000000000000000000008000000000000000000000000000001600000000000000000 ||| msk = msk) (h : execSpeedReached  s = .next t) : Kept msk s t := by
  unfold execSpeedReached at h
  refine goLive_kept (fun u hk => ?_) h
  try dsimp only
  repeat' first
    | with_reducible assumption | exact Mask.sub hm rfl | with_reducible apply avsWrite_kept | with_reducible apply onWvn_kept | split | (intro)
    | (constructor <;> first | exact .inl (Mask.bit hm rfl) | exact .inr (by with_reducible rfl))

theorem execAvsReadback_kept {msk : Nat} (mv : Nat) {s t : State}
    (hm : 0x8000A00059805800080A014030080000000000000004400F000000000000000000000000000001F80000000000000000 ||| msk = msk) (h : execAvsReadback mv s = .next t) : Kept msk s t := by
  unfold execAvsReadback at h
  refine goLive_kept (fun u hk => ?_) h
  try dsimp only
  repeat' first
    | with_reducible assumption | exact Mask.sub hm rfl | with_reducible apply readback_kept | split | (intro)

theorem execAvsAckTimeout_kept {msk : Nat}  {s t : State}
    (hm : 0x8000A0000000000000000000000000000000000000000000000000000000000000000000000003C00000000000000000 ||| msk = msk) (h : execAvsAckTimeout  s = .next t) : Kept msk s t := by
  unfold execAvsAckTimeout at h
  refine goLive_kept (fun u hk => ?_) h
  try dsimp only
  repeat' first
    | with_reducible assumption | exact Mask.sub hm rfl | with_reducible apply avsWrite_kept | with_reducible apply raise_kept
    | with_reducible apply emit_kept | with_reducible apply onPower_kept | split | (intro)
    | (constructor <;> first | exact .inl (Mask.bit hm rfl) | exact .inr (by with_reducible rfl))

theorem execAvsRetryPeriod_kept {msk : Nat}  {s t : State}
    (hm : 0x800000000000000000000000000000000000000000000000000000000000000000000000000000000000000000000000 ||| msk = msk) (h : execAvsRetryPeriod  s = .next t) : Kept msk s t := by
  unfold execAvsRetryPeriod at h
  refine goLive_kept (fun u hk => ?_) h
  try dsimp only
  repeat' first
    | with_reducible assumption | exact Mask.sub hm rfl | with_reducible apply avsWrite_kept | with_reducible apply emit_kept | split | (intro)

theorem execMarginSample_kept {msk : Nat} (permille : Nat) {s t : State}
    (hm : 0x8200A000000000000000000000000000000000000019800000000000000000000000000857F1C0000000000000000000 ||| msk = msk) (h : execMarginSample permille s = .next t) : Kept msk s t := by
  unfold execMarginSample at h
  refine goLive_kept (fun u hk => ?_) h
  try dsimp only
  repeat' first
    | with_reducible assumption | exact Mask.sub hm rfl | with_reducible apply marginStep_kept | split | (intro)

theorem execWvnUpdate_kept {msk : Nat}  {s t : State}
    (hm : 0x18200A02059805800C80A014030080000F64010000264DFFFFFD80578670000000000000857F1C1610020000000000000 ||| msk = msk) (h : execWvnUpdate  s = .next t) : Kept msk s t := by
  unfold execWvnUpdate at h
  refine goLive_kept (fun u hk => ?_) h
  try dsimp only
  repeat' first
    | with_reducible assumption | exact Mask.sub hm rfl | with_reducible apply weathervaneUpdate_kept | split | (intro)

theorem execBhDwellExpiry_kept {msk : Nat}  {s t : State}
    (hm : 0x8000A00059805800080A0000000802000000000000000000400000000000000000000000000000000000000000000000 ||| msk = msk) (h : execBhDwellExpiry  s = .next t) : Kept msk s t := by
  unfold execBhDwellExpiry at h
  refine goLive_kept (fun u hk => ?_) h
  try dsimp only
  repeat' first
    | with_reducible assumption | exact Mask.sub hm rfl | with_reducible apply enterStopping_kept | split | (intro)

theorem execBackhitchStopped_kept {msk : Nat}  {s t : State}
    (hm : 0x8000A02059805802C80A01403009C0C0F64010000084601FC00000000000000000000000000001600000000000000000 ||| msk = msk) (h : execBackhitchStopped  s = .next t) : Kept msk s t := by
  unfold execBackhitchStopped at h
  refine goLive_kept (fun u hk => ?_) h
  try dsimp only
  repeat' first
    | with_reducible assumption | exact Mask.sub hm rfl | with_reducible apply enterStopped_kept | with_reducible apply stoppedForRetry_kept
    | with_reducible apply backhitchIfDone_kept | with_reducible apply restartIfAsked_kept | split | (intro)

theorem execBhMaxWaitExpiry_kept {msk : Nat}  {s t : State}
    (hm : 0x8000A00059805800080A014030080000000000000004401FC00000000000000000000000000001600020000000000000 ||| msk = msk) (h : execBhMaxWaitExpiry  s = .next t) : Kept msk s t := by
  unfold execBhMaxWaitExpiry at h
  refine goLive_kept (fun u hk => ?_) h
  try dsimp only
  repeat' first
    | with_reducible assumption | exact Mask.sub hm rfl | with_reducible apply restart_kept | with_reducible apply advanceTo_kept | split
    | (intro)

theorem execStoppedIdleTimeout_kept {msk : Nat}  {s t : State}
    (hm : 0x8000A00059805800080A0000000802000000100000005007C00000000000000000000000000000000020000000000000 ||| msk = msk) (h : execStoppedIdleTimeout  s = .next t) : Kept msk s t := by
  unfold execStoppedIdleTimeout at h
  refine goLive_kept (fun u hk => ?_) h
  try dsimp only
  repeat' first
    | with_reducible assumption | exact Mask.sub hm rfl | with_reducible apply endRun_kept | with_reducible apply advanceTo_kept
    | with_reducible apply onRd_kept | split | (intro)
    | (constructor <;> first | exact .inl (Mask.bit hm rfl) | exact .inr (by with_reducible rfl))

theorem execRestartResume_kept {msk : Nat}  {s t : State}
    (hm : 0x8000A00059805800080A0000000802000000000000001100401001100000000000000000000000000000000000000000 ||| msk = msk) (h : execRestartResume  s = .next t) : Kept msk s t := by
  unfold execRestartResume at h
  refine goLive_kept (fun u hk => ?_) h
  try dsimp only
  repeat' first
    | with_reducible assumption | exact Mask.sub hm rfl | with_reducible apply enterStopping_kept | with_reducible apply restart_kept
    | with_reducible apply setWvn_kept | with_reducible apply onWr_kept | with_reducible apply onWvn_kept | with_reducible apply onRd_kept | split
    | (intro) | (constructor <;> first | exact .inl (Mask.bit hm rfl) | exact .inr (by with_reducible rfl))

/-! ## Machine/Serve.lean -/

theorem startReadRun_kept {msk : Nat} {s0 : State} (p x : Nat) {s : State}
    (hm : 0x8000A02059805800C80A014030087FFFF64010000004511FC00000000000000000000000000001610000000000000000 ||| msk = msk) (hk : Kept msk s0 s) : Kept msk s0 (startReadRun p x s) := by
  unfold startReadRun
  try dsimp only
  repeat' first
    | with_reducible assumption | exact Mask.sub hm rfl | with_reducible apply discardReadAhead_kept | with_reducible apply beginRun_kept
    | with_reducible apply onRd_kept | split | (intro)
    | (constructor <;> first | exact .inl (Mask.bit hm rfl) | exact .inr (by with_reducible rfl))

theorem endWrites_kept {msk : Nat} {s0 : State} {s : State}
    (hm : 0x18000A02059805800C80A014030080000F64010000004551FC01805786F00000000000000000001610000000000000000 ||| msk = msk) (hk : Kept msk s0 s) : Kept msk s0 (endWrites s) := by
  unfold endWrites
  try dsimp only
  repeat' first
    | with_reducible assumption | exact Mask.sub hm rfl | with_reducible apply forEach_kept | with_reducible apply kickWrites_kept
    | with_reducible apply stageEod_kept | with_reducible apply restartIfAsked_kept | with_reducible apply endRun_kept | split | (intro)

theorem readFor_kept {msk : Nat} {s0 : State} (p x : Nat) {s : State}
    (hm : 0x8000A02059805800C80A014030087FFFF64010000004511FC00000000000000000000000000001610000000000000000 ||| msk = msk) (hk : Kept msk s0 s) : Kept msk s0 (readFor p x s) := by
  unfold readFor
  try dsimp only
  repeat' first
    | with_reducible assumption | exact Mask.sub hm rfl | with_reducible apply startReadRun_kept | with_reducible apply beginRun_kept
    | with_reducible apply onRd_kept | split | (intro)
    | (constructor <;> first | exact .inl (Mask.bit hm rfl) | exact .inr (by with_reducible rfl))

theorem needTape_kept {msk : Nat} {s0 : State} (c : Cmd) (x : Nat) {s : State}
    (hm : 0x18000A02059805800C80A014030087FFFF64010000004551FC01805786F00000000000000000001610000000000000000 ||| msk = msk) (hk : Kept msk s0 s) : Kept msk s0 (needTape c x s) := by
  unfold needTape
  try dsimp only
  repeat' first
    | with_reducible assumption | exact Mask.sub hm rfl | with_reducible apply readFor_kept | with_reducible apply endWrites_kept
    | with_reducible apply startReadRun_kept | with_reducible apply dropReads_kept | with_reducible apply restartIfAsked_kept
    | with_reducible apply endRun_kept | split | (intro)

theorem endRead_kept {msk : Nat} {s0 : State} (c : Cmd) (st : Nat) {s : State}
    (hm : 0x86000000000000000000000000000000000000000000000000000000010000000209B058800000000000000000000000 ||| msk = msk) (hk : Kept msk s0 s) : Kept msk s0 (endRead c st s) := by
  unfold endRead
  try dsimp only
  repeat' first
    | with_reducible assumption | exact Mask.sub hm rfl | with_reducible apply endZeroed_kept | with_reducible apply finishCmd_kept
    | with_reducible apply onVol_kept | split | (intro)

theorem zeroRecord_kept {msk : Nat} {s0 : State} (c : Cmd) {s : State}
    (hm : 0x800000000000000000000000000000000000000000000000000000000000000000008000000000000000000000000000 ||| msk = msk) (hk : Kept msk s0 s) : Kept msk s0 (zeroRecord c s) := by
  unfold zeroRecord
  try dsimp only
  repeat' first
    | with_reducible assumption | exact Mask.sub hm rfl | with_reducible apply writeBuffer_kept | with_reducible apply onCmd_kept | split
    | (intro)

theorem endAt_kept {msk : Nat} {s0 : State} (c : Cmd) (st : Nat) {s : State}
    (hm : 0x86000000000000000000000000000000000000000000000000000000010000000209B058800000000000000000000000 ||| msk = msk) (hk : Kept msk s0 s) : Kept msk s0 (endAt c st s) := by
  unfold endAt
  try dsimp only
  repeat' first
    | with_reducible assumption | exact Mask.sub hm rfl | with_reducible apply zeroRecord_kept | with_reducible apply endRead_kept | split
    | (intro)

theorem listEntry_kept {msk : Nat} {s0 : State} (c : Cmd) (x len kind : Nat) (group : Bool) {s : State}
    (hm : 0x800000000000000000000000000000000000000000000000000000000000000000008000000000000000000000000000 ||| msk = msk) (hk : Kept msk s0 s) : Kept msk s0 (listEntry c x len kind group s) := by
  unfold listEntry
  try dsimp only
  repeat' first
    | with_reducible assumption | exact Mask.sub hm rfl | with_reducible apply hostWrites_kept | split | (intro)

theorem useSets_kept {msk : Nat} {s0 : State} (o : Obj) {s : State}
    (hm : 0x10000000000000000000000000000000000000000000000000000000000000000 ||| msk = msk) (hk : Kept msk s0 s) : Kept msk s0 (useSets o s) := by
  unfold useSets
  try dsimp only
  repeat' first
    | with_reducible assumption | with_reducible apply onRd_kept | split | (intro)
    | (constructor <;> first | exact .inl (Mask.bit hm rfl) | exact .inr (by with_reducible rfl))

theorem leaveReadAhead_kept {msk : Nat} {s0 : State} (c : Cmd) (o : Obj) {s : State}
    (hm : 0x8000A00059805800080A000000087F1F0000100000005007C00000000000000000000000000000000000000000000000 ||| msk = msk) (hk : Kept msk s0 s) : Kept msk s0 (leaveReadAhead c o s) := by
  unfold leaveReadAhead
  try dsimp only
  repeat' first
    | with_reducible assumption | exact Mask.sub hm rfl | with_reducible apply dropReads_kept | split | (intro)

theorem passObj_kept {msk : Nat} {s0 : State} (c : Cmd) (x next : Nat) (o : Obj) {s : State}
    (hm : 0x18000A00059805800080A000000087F1F0000100000005007C00000000000000000008000000000000000000000000000 ||| msk = msk) (hk : Kept msk s0 s) : Kept msk s0 (passObj c x next o s) := by
  unfold passObj
  try dsimp only
  repeat' first
    | with_reducible assumption | exact Mask.sub hm rfl | with_reducible apply leaveReadAhead_kept | with_reducible apply useSets_kept
    | with_reducible apply listEntry_kept | with_reducible apply onCmd_kept | with_reducible apply draw_kept | with_reducible apply onRd_kept
    | split | (intro) | (constructor <;> first | exact .inl (Mask.bit hm rfl) | exact .inr (by with_reducible rfl))

theorem submitBlocks_kept {msk : Nat} {s0 : State} (p x : Nat) (o : Obj) {s : State}
    (hm : 0x10000000000000800000000000004000000000000000000010000000000000000 ||| msk = msk) (hk : Kept msk s0 s) : Kept msk s0 (submitBlocks p x o s) := by
  unfold submitBlocks
  try dsimp only
  repeat' first
    | with_reducible assumption | exact Mask.sub hm rfl | with_reducible apply forEach_kept | with_reducible apply useSets_kept
    | with_reducible apply toDecomp_kept | with_reducible apply onWvn_kept | split | (intro)
    | (constructor <;> first | exact .inl (Mask.bit hm rfl) | exact .inr (by with_reducible rfl))

theorem serveRecord_kept {msk : Nat} {s0 : State} (c : Cmd) (x : Nat) (o : Obj) {s : State}
    (hm : 0x18600A00059805800080A000000087F1F0000100000005807C0000000010400000209B058800000010000000000000000 ||| msk = msk) (hk : Kept msk s0 s) : Kept msk s0 (serveRecord c x o s).1 := by
  unfold serveRecord
  try dsimp only
  repeat' first
    | with_reducible assumption | exact Mask.sub hm rfl | with_reducible apply submitBlocks_kept | with_reducible apply passObj_kept
    | with_reducible apply listEntry_kept | with_reducible apply endAt_kept | with_reducible apply endRead_kept
    | with_reducible apply writeBuffer_kept | with_reducible apply onCmd_kept | split | dsimp only | (intro)

theorem serveRead_kept {msk : Nat} {s0 : State} (c : Cmd) {s : State}
    (hm : 0x18600A02059805800C80A014030087FFFF640100000045D1FC01805786F0400000209B058800001610000000000000000 ||| msk = msk) (hk : Kept msk s0 s) : Kept msk s0 (serveRead c s).1 := by
  unfold serveRead
  try dsimp only
  repeat' first
    | with_reducible assumption | exact Mask.sub hm rfl | with_reducible apply serveRecord_kept | with_reducible apply passObj_kept
    | with_reducible apply endAt_kept | with_reducible apply endRead_kept | with_reducible apply needTape_kept | split | dsimp only | (intro)

theorem spacePass_kept {msk : Nat} {s0 : State} (c : Cmd) (x next : Nat) (o : Obj) {s : State}
    (hm : 0x18600A00059805800080A000000087F1F0000100000005007C0000000010000000209B058800000000000000000000000 ||| msk = msk) (hk : Kept msk s0 s) : Kept msk s0 (spacePass c x next o s).1 := by
  unfold spacePass
  try dsimp only
  repeat' first
    | with_reducible assumption | exact Mask.sub hm rfl | with_reducible apply passObj_kept | with_reducible apply endRead_kept
    | with_reducible apply onCmd_kept | split | dsimp only | (intro)

theorem serveSpace_kept {msk : Nat} {s0 : State} (c : Cmd) {s : State}
    (hm : 0x18600A02059805800C80A014030087FFFF64010000004551FC01805786F0000000209B058800001610000000000000000 ||| msk = msk) (hk : Kept msk s0 s) : Kept msk s0 (serveSpace c s).1 := by
  unfold serveSpace
  try dsimp only
  repeat' first
    | with_reducible assumption | exact Mask.sub hm rfl | with_reducible apply spacePass_kept | with_reducible apply endRead_kept
    | with_reducible apply needTape_kept | with_reducible apply onCmd_kept | split | dsimp only | (intro)

theorem serveRounds_kept {msk : Nat} {s0 : State} (q tag k : Nat) {s : State}
    (hm : 0x18600A02059805800C80A014030087FFFF640100000045D1FC01805786F0400000209B058800001610000000000000000 ||| msk = msk) (hk : Kept msk s0 s) : Kept msk s0 (serveRounds q tag k s) := by
  induction k generalizing s with
  | zero => exact hk
  | succ k ih =>
    unfold serveRounds
    dsimp only
    split
    · exact hk
    · split
      · exact hk
      · split
        · split
          · exact ih (serveSpace_kept _ (Mask.sub hm rfl) hk)
          · exact serveSpace_kept _ (Mask.sub hm rfl) hk
        · split
          · exact ih (serveRead_kept _ (Mask.sub hm rfl) hk)
          · exact serveRead_kept _ (Mask.sub hm rfl) hk

theorem dropConsumed_kept {msk : Nat} {s0 : State} {s : State}
    (hm : 0x1050000000000000000000000000000000000000000000000000000000000000000 ||| msk = msk) (hk : Kept msk s0 s) : Kept msk s0 (dropConsumed s) := by
  unfold dropConsumed
  try dsimp only
  repeat' first
    | with_reducible assumption | with_reducible apply onRd_kept | with_reducible apply foldl_kept | split | (intro)
    | (constructor <;> first | exact .inl (Mask.bit hm rfl) | exact .inr (by with_reducible rfl))

theorem serveCmd_kept {msk : Nat} {s0 : State} (q tag : Nat) {s : State}
    (hm : 0x18600A02059805800C80A014030087FFFF640100000045D1FC01805786F0400000209B058800001610000000000000000 ||| msk = msk) (hk : Kept msk s0 s) : Kept msk s0 (serveCmd q tag s) := by
  unfold serveCmd
  try dsimp only
  repeat' first
    | with_reducible assumption | exact Mask.sub hm rfl | with_reducible apply dropConsumed_kept | with_reducible apply serveRounds_kept
    | with_reducible apply endRead_kept | split | (intro)

theorem wakePending_kept {msk : Nat} {s0 : State} {s : State}
    (hm : 0x8000A02059805802C80A01403009C0C0F64010000004401FC00000000000000000000000000001600000000000000000 ||| msk = msk) (hk : Kept msk s0 s) : Kept msk s0 (wakePending s) := by
  unfold wakePending
  try dsimp only
  repeat' first
    | with_reducible assumption | exact Mask.sub hm rfl | with_reducible apply retryFromIdle_kept | with_reducible apply restartIfAsked_kept
    | split | (intro)

theorem serveAll_kept {msk : Nat} {s0 : State} {s : State}
    (hm : 0x18600A02059805802C80A01403009FFFFF640100000045D1FC01805786F0400000209B058800001610000000000000000 ||| msk = msk) (hk : Kept msk s0 s) : Kept msk s0 (serveAll s) := by
  unfold serveAll
  try dsimp only
  repeat' first
    | with_reducible assumption | exact Mask.sub hm rfl | with_reducible apply forEach_kept | with_reducible apply wakePending_kept
    | with_reducible apply serveCmd_kept | split | (intro)

theorem readAhead_kept {msk : Nat} {s0 : State} {s : State}
    (hm : 0x8000A02059805802C80A01403009C2C0F64010000004500FC00000000000000000000000000001600000000000000000 ||| msk = msk) (hk : Kept msk s0 s) : Kept msk s0 (readAhead s) := by
  unfold readAhead
  try dsimp only
  repeat' first
    | with_reducible assumption | exact Mask.sub hm rfl | with_reducible apply enterStopping_kept | with_reducible apply retryFromIdle_kept
    | with_reducible apply endRun_kept | with_reducible apply onRd_kept | split | (intro)
    | (constructor <;> first | exact .inl (Mask.bit hm rfl) | exact .inr (by with_reducible rfl))

theorem execRead_kept {msk : Nat} (q : Fin 256) (tag : BitVec 16) {s t : State}
    (hm : 0x18600A02059805800C80A014030087FFFF640100000045D1FC01805786F0400000209B058800001610000000000000000 ||| msk = msk) (h : execRead q tag s = .next t) : Kept msk s t := by
  unfold execRead at h
  refine goLive_kept (fun u hk => ?_) h
  try dsimp only
  repeat' first
    | with_reducible assumption | exact Mask.sub hm rfl | with_reducible apply serveCmd_kept | split | (intro)

theorem execVerify_kept {msk : Nat} (q : Fin 256) (tag : BitVec 16) {s t : State}
    (hm : 0x18600A02059805800C80A014030087FFFF640100000045D1FC01805786F0400000209B058800001610000000000000000 ||| msk = msk) (h : execVerify q tag s = .next t) : Kept msk s t := by
  unfold execVerify at h
  refine goLive_kept (fun u hk => ?_) h
  try dsimp only
  repeat' first
    | with_reducible assumption | exact Mask.sub hm rfl | with_reducible apply serveCmd_kept | split | (intro)

theorem execSpace_kept {msk : Nat} (q : Fin 256) (tag : BitVec 16) {s t : State}
    (hm : 0x18600A02059805800C80A014030087FFFF640100000045D1FC01805786F0400000209B058800001610000000000000000 ||| msk = msk) (h : execSpace q tag s = .next t) : Kept msk s t := by
  unfold execSpace at h
  refine goLive_kept (fun u hk => ?_) h
  try dsimp only
  repeat' first
    | with_reducible assumption | exact Mask.sub hm rfl | with_reducible apply serveCmd_kept | split | (intro)

theorem execReadAhead_kept {msk : Nat}  {s t : State}
    (hm : 0x8000A02059805802C80A01403009C2C0F64010000004500FC00000000000000000000000000001600000000000000000 ||| msk = msk) (h : execReadAhead  s = .next t) : Kept msk s t := by
  unfold execReadAhead at h
  refine goLive_kept (fun u hk => ?_) h
  try dsimp only
  repeat' first
    | with_reducible assumption | exact Mask.sub hm rfl | with_reducible apply readAhead_kept | split | (intro)

/-! ## Machine/Deskew.lean -/

theorem countStats_kept {msk : Nat} {s0 : State} (rows : List ChanRow) (frames : List FrameRec) (weak miscorr : Nat → Bool) {s : State}
    (hm : 0x100000000000000000000000000000000000000000000000000000000000 ||| msk = msk) (hk : Kept msk s0 s) : Kept msk s0 (countStats rows frames weak miscorr s) := by
  unfold countStats
  try dsimp only
  repeat' first
    | with_reducible assumption | exact Mask.sub hm rfl | with_reducible apply onChans_kept | split | (intro)

theorem verifySlot_kept {msk : Nat} {s0 : State} (c : Commit) (n : Nat) (frames : List FrameRec) {s : State}
    (hm : 0x8000100000000000000000000000000000000000000000000000000000000000 ||| msk = msk) (hk : Kept msk s0 s) : Kept msk s0 (verifySlot c n frames s) := by
  unfold verifySlot
  try dsimp only
  repeat' first
    | with_reducible assumption | exact Mask.sub hm rfl | with_reducible apply countStats_kept | with_reducible apply onTiles_kept | split
    | (intro) | (constructor <;> first | exact .inl (Mask.bit hm rfl) | exact .inr (by with_reducible rfl))

theorem renumber_kept {msk : Nat} {s0 : State} (delta : Int) {s : State}
    (hm : 0x20030000000000000000000000000000000000000000000000000000000000000000 ||| msk = msk) (hk : Kept msk s0 s) : Kept msk s0 (renumber delta s) := by
  unfold renumber
  try dsimp only
  repeat' first
    | with_reducible assumption | with_reducible apply onRd_kept | split | (intro)
    | (constructor <;> first | exact .inl (Mask.bit hm rfl) | exact .inr (by with_reducible rfl))

theorem placeSet_kept {msk : Nat} {s0 : State} (n wrap slot level : Nat) (regs : DecodeRegs) (payload : Bytes) {s : State}
    (hm : 0x200070000000000000000000000000000000000000000000000000000000000000000 ||| msk = msk) (hk : Kept msk s0 s) : Kept msk s0 (placeSet n wrap slot level regs payload s) := by
  unfold placeSet
  try dsimp only
  repeat' first
    | with_reducible assumption | with_reducible apply onRd_kept | split | (intro)
    | (constructor <;> first | exact .inl (Mask.bit hm rfl) | exact .inr (by with_reducible rfl))

theorem escalate_kept {msk : Nat} {s0 : State} (n : Nat) {s : State}
    (hm : 0x8000A02059805802C80A01403009C2C2F64011000004000DC00000000000000000000000000001600000000000000000 ||| msk = msk) (hk : Kept msk s0 s) : Kept msk s0 (escalate n s) := by
  unfold escalate
  try dsimp only
  repeat' first
    | with_reducible assumption | exact Mask.sub hm rfl | with_reducible apply enterStopping_kept | with_reducible apply retryFromIdle_kept
    | with_reducible apply giveUp_kept | with_reducible apply onFailed_kept | split | (intro)

theorem keepFailed_kept {msk : Nat} {s0 : State} (n slot : Nat) (rows : List RowIn) {s : State}
    (hm : 0x20000000000000000000000000000000000000000000000000000000000000000 ||| msk = msk) (hk : Kept msk s0 s) : Kept msk s0 (keepFailed n slot rows s) := by
  unfold keepFailed
  try dsimp only
  repeat' first
    | with_reducible assumption | exact Mask.sub hm rfl | with_reducible apply onFailed_kept | with_reducible apply onRd_kept | split | (intro)
    | (constructor <;> first | exact .inl (Mask.bit hm rfl) | exact .inr (by with_reducible rfl))

theorem noteAccepted_kept {msk : Nat} {s0 : State} (n : Nat) {s : State}
    (hm : 0x20000000000000000000000000000000000000000000000000000000000000000000 ||| msk = msk) (hk : Kept msk s0 s) : Kept msk s0 (noteAccepted n s) := by
  unfold noteAccepted
  try dsimp only
  repeat' first
    | with_reducible assumption | with_reducible apply onRd_kept | split | (intro)
    | (constructor <;> first | exact .inl (Mask.bit hm rfl) | exact .inr (by with_reducible rfl))

theorem acceptSet_kept {msk : Nat} {s0 : State} (n est slot level : Nat) (payload : Bytes) {s : State}
    (hm : 0x23C070000004000000000000000000000000000000000000000000000000000000000 ||| msk = msk) (hk : Kept msk s0 s) : Kept msk s0 (acceptSet n est slot level payload s) := by
  unfold acceptSet
  try dsimp only
  repeat' first
    | with_reducible assumption | exact Mask.sub hm rfl | with_reducible apply noteAccepted_kept | with_reducible apply placeSet_kept
    | with_reducible apply renumber_kept | with_reducible apply onEcc_kept | with_reducible apply onRd_kept | split | (intro)
    | (constructor <;> first | exact .inl (Mask.bit hm rfl) | exact .inr (by with_reducible rfl))

theorem readSlot_kept {msk : Nat} {s0 : State} (slot seq : Nat) (frames : List FrameRec) {s : State}
    (hm : 0x8000A02059805802C80A0140300BFEC7F64011400004000DC00000000000000000000000000001600000000000000000 ||| msk = msk) (hk : Kept msk s0 s) : Kept msk s0 (readSlot slot seq frames s) := by
  unfold readSlot
  try dsimp only
  repeat' first
    | with_reducible assumption | exact Mask.sub hm rfl | with_reducible apply acceptSet_kept | with_reducible apply noteAccepted_kept
    | with_reducible apply keepFailed_kept | with_reducible apply escalate_kept | with_reducible apply countStats_kept | split | (intro)

theorem abandon_kept {msk : Nat} {s0 : State} (slot : Nat) {s : State}
    (hm : 0x100000000000000000000000000000000000000000000000000000000000 ||| msk = msk) (hk : Kept msk s0 s) : Kept msk s0 (abandon slot s) := by
  unfold abandon
  try dsimp only
  repeat' first
    | with_reducible assumption | exact Mask.sub hm rfl | with_reducible apply onChans_kept | split | (intro)

theorem deskewComplete_kept {msk : Nat} {s0 : State} (slot : Nat) {s : State}
    (hm : 0x18600A02059805802C80A0140300FFFFFF640114000045D1FC01805786F0400000209B058800001610000000000000000 ||| msk = msk) (hk : Kept msk s0 s) : Kept msk s0 (deskewComplete slot s) := by
  unfold deskewComplete
  try dsimp only
  repeat' first
    | with_reducible assumption | exact Mask.sub hm rfl | with_reducible apply abandon_kept | with_reducible apply readSlot_kept
    | with_reducible apply verifySlot_kept | with_reducible apply serveAll_kept | with_reducible apply onTiles_kept
    | with_reducible apply onRd_kept | split | (intro)
    | (constructor <;> first | exact .inl (Mask.bit hm rfl) | exact .inr (by with_reducible rfl))

theorem execDeskewComplete_kept {msk : Nat} (slot : Nat) {s t : State}
    (hm : 0x18600A02059805802C80A0140300FFFFFF640114000045D1FC01805786F0400000209B058800001610000000000000000 ||| msk = msk) (h : execDeskewComplete slot s = .next t) : Kept msk s t := by
  unfold execDeskewComplete at h
  refine goLive_kept (fun u hk => ?_) h
  try dsimp only
  repeat' first
    | with_reducible assumption | exact Mask.sub hm rfl | with_reducible apply deskewComplete_kept | split | (intro)

/-! ## Machine/Pins.lean -/

theorem latch_kept {msk : Nat} {s0 : State} (i : Nat) {s : State}
    (hm : 0x8010A0000000000000000000000000000000000000000000000000000000000000000000000000000000000000000000 ||| msk = msk) (hk : Kept msk s0 s) : Kept msk s0 (latch i s) := by
  unfold latch
  try dsimp only
  repeat' first
    | with_reducible assumption | exact Mask.sub hm rfl | with_reducible apply raise_kept | with_reducible apply onBlf_kept | split | (intro)
    | (constructor <;> first | exact .inl (Mask.bit hm rfl) | exact .inr (by with_reducible rfl))

theorem alarmSeen_kept {msk : Nat} {s0 : State} (cause : Fin 5) {s : State}
    (hm : 0x8610A020000000000000000000007F1F001806000000040000067AA6ED81C2716609B059D7F1C0000000600000000200 ||| msk = msk) (hk : Kept msk s0 s) : Kept msk s0 (alarmSeen cause s) := by
  unfold alarmSeen
  try dsimp only
  repeat' first
    | with_reducible assumption | exact Mask.sub hm rfl | with_reducible apply latch_kept | with_reducible apply takeAlarm_kept | split | (intro)

theorem sealOpens_kept {msk : Nat} {s0 : State} (latchNo : Nat) {s : State}
    (hm : 0x8610A020000000000000000000007F1F001806000000040000067AA6ED81C2716609B059D7F1C000000061C000000200 ||| msk = msk) (hk : Kept msk s0 s) : Kept msk s0 (sealOpens latchNo s) := by
  unfold sealOpens
  try dsimp only
  repeat' first
    | with_reducible assumption | exact Mask.sub hm rfl | with_reducible apply alarmSeen_kept | with_reducible apply latch_kept
    | with_reducible apply onTrust_kept | split | (intro)
    | (constructor <;> first | exact .inl (Mask.bit hm rfl) | exact .inr (by with_reducible rfl))

theorem sealTick_kept {msk : Nat} {s0 : State} (sealB readback : Bool) {s : State}
    (hm : 0x8610A02059805800080A014030087F1F001806000004440F00067AA6ED81C2716609B059D7F1C1F8000067C000000200 ||| msk = msk) (hk : Kept msk s0 s) : Kept msk s0 (sealTick sealB readback s) := by
  unfold sealTick
  try dsimp only
  repeat' first
    | with_reducible assumption | exact Mask.sub hm rfl | with_reducible apply sealOpens_kept | with_reducible apply readback_kept
    | with_reducible apply emit_kept | with_reducible apply onTrust_kept | split | (intro)
    | (constructor <;> first | exact .inl (Mask.bit hm rfl) | exact .inr (by with_reducible rfl))

theorem thermal_kept {msk : Nat} {s0 : State} (v : Vector Int 16) {s : State}
    (hm : 0x8610A020000000000000000000007F1F001806000000840000067AA6ED81C2716609B059D7F1F8000000600000000200 ||| msk = msk) (hk : Kept msk s0 s) : Kept msk s0 (thermal v s) := by
  unfold thermal
  try dsimp only
  repeat' first
    | with_reducible assumption | exact Mask.sub hm rfl | with_reducible apply alarmSeen_kept | with_reducible apply voltageCap_kept
    | with_reducible apply onPower_kept | split | (intro)
    | (constructor <;> first | exact .inl (Mask.bit hm rfl) | exact .inr (by with_reducible rfl))

theorem capStep_kept {msk : Nat} {s0 : State} {s : State}
    (hm : 0x8200A000000000000000000000000000000000000002000000000000000000000000000857F1F0000000000000000000 ||| msk = msk) (hk : Kept msk s0 s) : Kept msk s0 (capStep s) := by
  unfold capStep
  try dsimp only
  repeat' first
    | with_reducible assumption | exact Mask.sub hm rfl | with_reducible apply wvnRecord_kept | with_reducible apply onPower_kept
    | with_reducible apply onWvn_kept | split | (intro)
    | (constructor <;> first | exact .inl (Mask.bit hm rfl) | exact .inr (by with_reducible rfl))

theorem setSource_kept {msk : Nat} {s0 : State} (t : TimeSource) {s : State} (hm : 0x4000200000000000000 ||| msk = msk)
    (hk : Kept msk s0 s) : Kept msk s0 (setSource t s) := by
  unfold setSource
  try dsimp only
  repeat' first
    | with_reducible assumption | with_reducible apply onPower_kept | split | (intro)
    | (constructor <;> first | exact .inl (Mask.bit hm rfl) | exact .inr (by with_reducible rfl))

theorem execWakeLatch_kept {msk : Nat} (i : Fin 16) (ns : Nat) {s t : State}
    (hm : 0x8010A0000000000000000000000000000000000000000000000000000000000000000000000000000000000000000000 ||| msk = msk) (h : execWakeLatch i ns s = .next t) : Kept msk s t := by
  unfold execWakeLatch at h
  refine go_kept (fun u hk => ?_) h
  try dsimp only
  repeat' first
    | with_reducible assumption | exact Mask.sub hm rfl | with_reducible apply latch_kept | split | (intro)

theorem execPresencePress_kept {msk : Nat}  {s t : State}
    (hm : 0x8010A0000000000000000000000000000000000000000000000000000000000000000000000000000000014000000000 ||| msk = msk) (h : execPresencePress  s = .next t) : Kept msk s t := by
  unfold execPresencePress at h
  refine go_kept (fun u hk => ?_) h
  try dsimp only
  repeat' first
    | with_reducible assumption | exact Mask.sub hm rfl | with_reducible apply latch_kept | with_reducible apply onTrust_kept | split | (intro)
    | (constructor <;> first | exact .inl (Mask.bit hm rfl) | exact .inr (by with_reducible rfl))

theorem execPresenceWindowExpiry_kept {msk : Nat}  {s t : State} (hm : 0x20004000000000 ||| msk = msk)
    (h : execPresenceWindowExpiry  s = .next t) : Kept msk s t := by
  unfold execPresenceWindowExpiry at h
  refine go_kept (fun u hk => ?_) h
  try dsimp only
  repeat' first
    | with_reducible assumption | exact Mask.sub hm rfl | with_reducible apply advanceTo_kept | with_reducible apply onTrust_kept | split
    | (intro) | (constructor <;> first | exact .inl (Mask.bit hm rfl) | exact .inr (by with_reducible rfl))

theorem execAlarm_kept {msk : Nat} (cause : Fin 5) {s t : State}
    (hm : 0x8610A020000000000000000000007F1F001806000000040000067AA6ED81C2716609B059D7F1C000000061C000000200 ||| msk = msk) (h : execAlarm cause s = .next t) : Kept msk s t := by
  unfold execAlarm at h
  refine go_kept (fun u hk => ?_) h
  try dsimp only
  repeat' first
    | with_reducible assumption | exact Mask.sub hm rfl | with_reducible apply sealOpens_kept | with_reducible apply alarmSeen_kept | split
    | (intro)

theorem execSealLfsrTick_kept {msk : Nat} (sealB readback : Bool) {s t : State}
    (hm : 0x8610A02059805800080A014030087F1F001806000004440F00067AA6ED81C2716609B059D7F1C1F8000067C000000200 ||| msk = msk) (h : execSealLfsrTick sealB readback s = .next t) : Kept msk s t := by
  unfold execSealLfsrTick at h
  refine go_kept (fun u hk => ?_) h
  try dsimp only
  repeat' first
    | with_reducible assumption | exact Mask.sub hm rfl | with_reducible apply sealTick_kept | with_reducible apply readback_kept | split
    | (intro)

theorem execShockNAssert_kept {msk : Nat} (ns : Nat) {s t : State}
    (hm : 0x8210A020000000000000000000000000001806000000000000067AA0048000000000000957F1C0000000000000000004 ||| msk = msk) (h : execShockNAssert ns s = .next t) : Kept msk s t := by
  unfold execShockNAssert at h
  refine go_kept (fun u hk => ?_) h
  try dsimp only
  repeat' first
    | with_reducible assumption | exact Mask.sub hm rfl | with_reducible apply latch_kept | with_reducible apply inhibitOn_kept
    | with_reducible apply onPins_kept | split | (intro)
    | (constructor <;> first | exact .inl (Mask.bit hm rfl) | exact .inr (by with_reducible rfl))

theorem execShockNClear_kept {msk : Nat}  {s t : State} (hm : 0x140000000000000000000000000000000000000000004 ||| msk = msk)
    (h : execShockNClear  s = .next t) : Kept msk s t := by
  unfold execShockNClear at h
  refine go_kept (fun u hk => ?_) h
  try dsimp only
  repeat' first
    | with_reducible assumption | exact Mask.sub hm rfl | with_reducible apply inhibitOff_kept | with_reducible apply onPins_kept | split
    | (intro) | (constructor <;> first | exact .inl (Mask.bit hm rfl) | exact .inr (by with_reducible rfl))

theorem execShockHoldExpiry_kept {msk : Nat}  {s t : State} (hm : 0x100000000000000000000000000000020000000000000 ||| msk = msk)
    (h : execShockHoldExpiry  s = .next t) : Kept msk s t := by
  unfold execShockHoldExpiry at h
  refine goLive_kept (fun u hk => ?_) h
  try dsimp only
  repeat' first
    | with_reducible assumption | exact Mask.sub hm rfl | with_reducible apply advanceTo_kept | with_reducible apply onWr_kept | split | (intro)
    | (constructor <;> first | exact .inl (Mask.bit hm rfl) | exact .inr (by with_reducible rfl))

theorem execThermalSample_kept {msk : Nat} (milliC : Vector Int 16) {s t : State}
    (hm : 0x8610A020000000000000000000007F1F001806000000840000067AA6ED81C2716609B059D7F1F8000000600000000200 ||| msk = msk) (h : execThermalSample milliC s = .next t) : Kept msk s t := by
  unfold execThermalSample at h
  refine goLive_kept (fun u hk => ?_) h
  try dsimp only
  repeat' first
    | with_reducible assumption | exact Mask.sub hm rfl | with_reducible apply thermal_kept | split | (intro)

theorem execThermalCapStep_kept {msk : Nat}  {s t : State}
    (hm : 0x8200A000000000000000000000000000000000000002000000000000000000000000000857F1F0000000000000000000 ||| msk = msk) (h : execThermalCapStep  s = .next t) : Kept msk s t := by
  unfold execThermalCapStep at h
  refine goLive_kept (fun u hk => ?_) h
  try dsimp only
  repeat' first
    | with_reducible assumption | exact Mask.sub hm rfl | with_reducible apply capStep_kept | split | (intro)

theorem execTimeBaseSwitch_kept {msk : Nat} (aPresent bPresent : Bool) {s t : State} (hm : 0x4000380000000000000 ||| msk = msk)
    (h : execTimeBaseSwitch aPresent bPresent s = .next t) : Kept msk s t := by
  unfold execTimeBaseSwitch at h
  refine go_kept (fun u hk => ?_) h
  try dsimp only
  repeat' first
    | with_reducible assumption | exact Mask.sub hm rfl | with_reducible apply setSource_kept | with_reducible apply onPower_kept | split
    | (intro) | (constructor <;> first | exact .inl (Mask.bit hm rfl) | exact .inr (by with_reducible rfl))

theorem execHoldoverReturn_kept {msk : Nat} (src : TimeSource) {s t : State} (hm : 0x4000380000000000000 ||| msk = msk)
    (h : execHoldoverReturn src s = .next t) : Kept msk s t := by
  unfold execHoldoverReturn at h
  refine go_kept (fun u hk => ?_) h
  try dsimp only
  repeat' first
    | with_reducible assumption | exact Mask.sub hm rfl | with_reducible apply setSource_kept | with_reducible apply onPower_kept | split
    | (intro) | (constructor <;> first | exact .inl (Mask.bit hm rfl) | exact .inr (by with_reducible rfl))

theorem execLifetimeCheckpoint_kept {msk : Nat}  {s t : State} (hm : 0x1000000000000000 ||| msk = msk)
    (h : execLifetimeCheckpoint  s = .next t) : Kept msk s t := by
  unfold execLifetimeCheckpoint at h
  refine go_kept (fun u hk => ?_) h
  try dsimp only
  repeat' first
    | with_reducible assumption | with_reducible apply onPower_kept | split | (intro)
    | (constructor <;> first | exact .inl (Mask.bit hm rfl) | exact .inr (by with_reducible rfl))

/-! ## Machine/ServoOps.lean -/

theorem noteTapeId_kept {msk : Nat} {s0 : State} (r : Reader) {s : State}
    (hm : 0x40000000000000000000000000000000000000000000000000000000000000000000000 ||| msk = msk) (hk : Kept msk s0 s) : Kept msk s0 (noteTapeId r s) := by
  unfold noteTapeId
  try dsimp only
  repeat' first
    | with_reducible assumption | with_reducible apply onStp_kept | split | (intro)
    | (constructor <;> first | exact .inl (Mask.bit hm rfl) | exact .inr (by with_reducible rfl))

theorem dropReader_kept {msk : Nat} {s0 : State} (i : Nat) {s : State}
    (hm : 0x8200A00400000000000000000200000000000000000000000000000000000000000000085FF1C0030000000000000000 ||| msk = msk) (hk : Kept msk s0 s) : Kept msk s0 (dropReader i s) := by
  unfold dropReader
  try dsimp only
  repeat' first
    | with_reducible assumption | exact Mask.sub hm rfl | with_reducible apply noteOut_kept | with_reducible apply onStp_kept | split | (intro)
    | (constructor <;> first | exact .inl (Mask.bit hm rfl) | exact .inr (by with_reducible rfl))

theorem dropReaders_kept {msk : Nat} {s0 : State} {s : State}
    (hm : 0x8200A00400000000000000000200000000000000000000000000000000000000000000085FF1C0030000000000000000 ||| msk = msk) (hk : Kept msk s0 s) : Kept msk s0 (dropReaders s) := by
  unfold dropReaders
  try dsimp only
  repeat' first
    | with_reducible assumption | exact Mask.sub hm rfl | with_reducible apply forEach_kept | with_reducible apply dropReader_kept | split
    | (intro)

theorem readmitReaders_kept {msk : Nat} {s0 : State} {s : State}
    (hm : 0x8200A00000000000000000000200000000000000000000000000000000000000000000085FF1C0000000000000000000 ||| msk = msk) (hk : Kept msk s0 s) : Kept msk s0 (readmitReaders s) := by
  unfold readmitReaders
  try dsimp only
  repeat' first
    | with_reducible assumption | exact Mask.sub hm rfl | with_reducible apply forEach_kept | with_reducible apply noteBack_kept
    | with_reducible apply onStp_kept | split | (intro)
    | (constructor <;> first | exact .inl (Mask.bit hm rfl) | exact .inr (by with_reducible rfl))

theorem takeSpeed_kept {msk : Nat} {s0 : State} (frame : Bool) (v : Rat) {s : State}
    (hm : 0x18300000000000000000000000000000000000000000000000000000000000000000000000 ||| msk = msk) (hk : Kept msk s0 s) : Kept msk s0 (takeSpeed frame v s) := by
  unfold takeSpeed
  try dsimp only
  repeat' first
    | with_reducible assumption | with_reducible apply onStp_kept | split | (intro)
    | (constructor <;> first | exact .inl (Mask.bit hm rfl) | exact .inr (by with_reducible rfl))

theorem takeBand_kept {msk : Nat} {s0 : State} {s : State}
    (hm : 0x4000000000000000000000000000000000000000000000000000000000000000000000 ||| msk = msk) (hk : Kept msk s0 s) : Kept msk s0 (takeBand s) := by
  unfold takeBand
  try dsimp only
  repeat' first
    | with_reducible assumption | with_reducible apply onStp_kept | split | (intro)
    | (constructor <;> first | exact .inl (Mask.bit hm rfl) | exact .inr (by with_reducible rfl))

theorem speedSource_kept {msk : Nat} {s0 : State} {s : State}
    (hm : 0x8200A020000000000000000000000000001806000000000000077AA0048000000000000957F1C0000000000000000000 ||| msk = msk) (hk : Kept msk s0 s) : Kept msk s0 (speedSource s) := by
  unfold speedSource
  try dsimp only
  repeat' first
    | with_reducible assumption | exact Mask.sub hm rfl | with_reducible apply inhibitIf_kept | split | (intro)

theorem movePosition_kept {msk : Nat} {s0 : State} (n : Int) {s : State}
    (hm : 0x600000000000000000000000000000000000000000000000000000000000000000000000000 ||| msk = msk) (hk : Kept msk s0 s) : Kept msk s0 (movePosition n s) := by
  unfold movePosition
  try dsimp only
  repeat' first
    | with_reducible assumption | with_reducible apply onStp_kept | split | (intro)
    | (constructor <;> first | exact .inl (Mask.bit hm rfl) | exact .inr (by with_reducible rfl))

theorem takePosition_kept {msk : Nat} {s0 : State} {s : State}
    (hm : 0x1E00000000000000000000000000000000000000000000000000000000000000000000000000 ||| msk = msk) (hk : Kept msk s0 s) : Kept msk s0 (takePosition s) := by
  unfold takePosition
  try dsimp only
  repeat' first
    | with_reducible assumption | exact Mask.sub hm rfl | with_reducible apply movePosition_kept | with_reducible apply onStp_kept | split
    | (intro) | (constructor <;> first | exact .inl (Mask.bit hm rfl) | exact .inr (by with_reducible rfl))

theorem takeTilt_kept {msk : Nat} {s0 : State} {s : State}
    (hm : 0x18000000000000000000000000000000000000000000000000000000000000000000000000000 ||| msk = msk) (hk : Kept msk s0 s) : Kept msk s0 (takeTilt s) := by
  unfold takeTilt
  try dsimp only
  repeat' first
    | with_reducible assumption | with_reducible apply onStp_kept | split
    | (intro x; dsimp only; (constructor <;> first | exact .inl (Mask.bit hm rfl) | exact .inr (by with_reducible rfl))) | (intro)
    | (constructor <;> first | exact .inl (Mask.bit hm rfl) | exact .inr (by with_reducible rfl))

theorem takeErrors_kept {msk : Nat} {s0 : State} {s : State}
    (hm : 0x8200A02000000000000060000000000000180600000000000007FAA0048000000000000957F1C0000000000000000000 ||| msk = msk) (hk : Kept msk s0 s) : Kept msk s0 (takeErrors s) := by
  unfold takeErrors
  try dsimp only
  repeat' first
    | with_reducible assumption | exact Mask.sub hm rfl | with_reducible apply inhibitIf_kept | with_reducible apply onWr_kept
    | with_reducible apply onStp_kept | split | (intro)
    | (constructor <;> first | exact .inl (Mask.bit hm rfl) | exact .inr (by with_reducible rfl))

theorem takeBands_kept {msk : Nat} {s0 : State} {s : State}
    (hm : 0x400000000000000000000000000140000000000000000000000000000000000000000000 ||| msk = msk) (hk : Kept msk s0 s) : Kept msk s0 (takeBands s) := by
  unfold takeBands
  try dsimp only
  repeat' first
    | with_reducible assumption | exact Mask.sub hm rfl | with_reducible apply inhibitOff_kept | with_reducible apply onStp_kept | split | (intro)
    | (constructor <;> first | exact .inl (Mask.bit hm rfl) | exact .inr (by with_reducible rfl))

theorem brake_kept {msk : Nat} {s0 : State} {s : State}
    (hm : 0x800000080008200000000000000000000000000000000000000000000000000000000000000000000000000000000000 ||| msk = msk) (hk : Kept msk s0 s) : Kept msk s0 (brake s) := by
  unfold brake
  try dsimp only
  repeat' first
    | with_reducible assumption | exact Mask.sub hm rfl | with_reducible apply sendMotion_kept | with_reducible apply onStp_kept | split | (intro)
    | (constructor <;> first | exact .inl (Mask.bit hm rfl) | exact .inr (by with_reducible rfl))

theorem brakeIfBlind_kept {msk : Nat} {s0 : State} {s : State}
    (hm : 0x800000080008200000000000000000000000000000000000000000000000000000000000000000000000000000000000 ||| msk = msk) (hk : Kept msk s0 s) : Kept msk s0 (brakeIfBlind s) := by
  unfold brakeIfBlind
  try dsimp only
  repeat' first
    | with_reducible assumption | exact Mask.sub hm rfl | with_reducible apply brake_kept | split | (intro)

theorem dropEncoder_kept {msk : Nat} {s0 : State} (i : Nat) {s : State}
    (hm : 0x8200A00400000000000000000800000000000000000000000000000000000000000000085FF1C0030000000000000000 ||| msk = msk) (hk : Kept msk s0 s) : Kept msk s0 (dropEncoder i s) := by
  unfold dropEncoder
  try dsimp only
  repeat' first
    | with_reducible assumption | exact Mask.sub hm rfl | with_reducible apply noteOut_kept | with_reducible apply onStp_kept | split | (intro)
    | (constructor <;> first | exact .inl (Mask.bit hm rfl) | exact .inr (by with_reducible rfl))

theorem loseEncoder_kept {msk : Nat} {s0 : State} (i : Nat) {s : State}
    (hm : 0x8200A00C00082000000000000800000000000000000000000000000000000000000000085FF1C0030000000000000000 ||| msk = msk) (hk : Kept msk s0 s) : Kept msk s0 (loseEncoder i s) := by
  unfold loseEncoder
  try dsimp only
  repeat' first
    | with_reducible assumption | exact Mask.sub hm rfl | with_reducible apply dropEncoder_kept | with_reducible apply brakeIfBlind_kept | split
    | (intro)

theorem reelTravel_kept {msk : Nat} {s0 : State} {s : State}
    (hm : 0x8200A00C00082000000000000800000000000000000000000000000000000000000000085FF1C0030000000000000000 ||| msk = msk) (hk : Kept msk s0 s) : Kept msk s0 (reelTravel s) := by
  unfold reelTravel
  try dsimp only
  repeat' first
    | with_reducible assumption | exact Mask.sub hm rfl | with_reducible apply forEach_kept | with_reducible apply loseEncoder_kept
    | with_reducible apply onStp_kept | split | (intro)
    | (constructor <;> first | exact .inl (Mask.bit hm rfl) | exact .inr (by with_reducible rfl))

theorem leaveHold_kept {msk : Nat} {s0 : State} {s : State}
    (hm : 0x8200A02259845800C84A0140B0080000F65816000004531FC0077AA0048000000000000957F1C1610000000000000000 ||| msk = msk) (hk : Kept msk s0 s) : Kept msk s0 (leaveHold s) := by
  unfold leaveHold
  try dsimp only
  repeat' first
    | with_reducible assumption | exact Mask.sub hm rfl | with_reducible apply resumeRuns_kept | with_reducible apply startQueued_kept
    | with_reducible apply speedBy_kept | with_reducible apply handOver_kept | with_reducible apply inhibitOff_kept
    | with_reducible apply onStp_kept | split | (intro)
    | (constructor <;> first | exact .inl (Mask.bit hm rfl) | exact .inr (by with_reducible rfl))

theorem holdSample_kept {msk : Nat} {s0 : State} {s : State}
    (hm : 0x8200A02259845800C84A0140B0080000F65816000004531FC0077AA0048000000000000957F1C1610000000000000000 ||| msk = msk) (hk : Kept msk s0 s) : Kept msk s0 (holdSample s) := by
  unfold holdSample
  try dsimp only
  repeat' first
    | with_reducible assumption | exact Mask.sub hm rfl | with_reducible apply leaveHold_kept | with_reducible apply onStp_kept | split | (intro)
    | (constructor <;> first | exact .inl (Mask.bit hm rfl) | exact .inr (by with_reducible rfl))

theorem parkRun_kept {msk : Nat} {s0 : State} {s : State}
    (hm : 0x8200A0200000000000000000000040C00018020000004007C0041BA0048000000000000957F1C0000000000000000000 ||| msk = msk) (hk : Kept msk s0 s) : Kept msk s0 (parkRun s) := by
  unfold parkRun
  try dsimp only
  repeat' first
    | with_reducible assumption | exact Mask.sub hm rfl | with_reducible apply forEach_kept | with_reducible apply restart_kept
    | with_reducible apply setWvn_kept | with_reducible apply stopTokens_kept | with_reducible apply hitCommit_kept
    | with_reducible apply onWr_kept | with_reducible apply onWvn_kept | with_reducible apply onRd_kept | split | (intro)
    | (constructor <;> first | exact .inl (Mask.bit hm rfl) | exact .inr (by with_reducible rfl))

theorem enterStill_kept {msk : Nat} {s0 : State} {s : State}
    (hm : 0x8200A0220008C000304001C030080000001806000004020D00067AA0048000000000000957F1C1600000000000000000 ||| msk = msk) (hk : Kept msk s0 s) : Kept msk s0 (enterStill s) := by
  unfold enterStill
  try dsimp only
  repeat' first
    | with_reducible assumption | exact Mask.sub hm rfl | with_reducible apply handOver_kept | with_reducible apply onStp_kept | split | (intro)
    | (constructor <;> first | exact .inl (Mask.bit hm rfl) | exact .inr (by with_reducible rfl))

theorem stillAgain_kept {msk : Nat} {s0 : State} {s : State}
    (hm : 0x18000A02059805800C80A014030080000F64010000004511FC01805780700000000000000000001610000000000000000 ||| msk = msk) (hk : Kept msk s0 s) : Kept msk s0 (stillAgain s) := by
  unfold stillAgain
  try dsimp only
  repeat' first
    | with_reducible assumption | exact Mask.sub hm rfl | with_reducible apply resumeRuns_kept | with_reducible apply kickWrites_kept
    | with_reducible apply startQueued_kept | split | (intro)

/-! ## Machine/Servo.lean -/

theorem tapeLost_kept {msk : Nat} {s0 : State} {s : State}
    (hm : 0x18600A02059805802C80A01403009FFFFF658120000045D1FC01C1FF86F8400000209B059D7F1C1610000000000000000 ||| msk = msk) (hk : Kept msk s0 s) : Kept msk s0 (tapeLost s) := by
  unfold tapeLost
  try dsimp only
  repeat' first
    | with_reducible assumption | exact Mask.sub hm rfl | with_reducible apply forEach_kept | with_reducible apply parkRun_kept
    | with_reducible apply serveAll_kept | with_reducible apply settle_kept | with_reducible apply endWrite_kept
    | with_reducible apply finishCmd_kept | split | (intro)

theorem countSettled_kept {msk : Nat} {s0 : State} {s : State}
    (hm : 0x400000000000000000000000000000000000000000000000000000000000000000000000000000000000 ||| msk = msk) (hk : Kept msk s0 s) : Kept msk s0 (countSettled s) := by
  unfold countSettled
  try dsimp only
  repeat' first
    | with_reducible assumption | with_reducible apply onStp_kept | split | (intro)
    | (constructor <;> first | exact .inl (Mask.bit hm rfl) | exact .inr (by with_reducible rfl))

theorem runLoops_kept {msk : Nat} {s0 : State} {s : State}
    (hm : 0x8000000800003BFC03E00081098000000001000000000000000140000000000000000000000000000000000000000000 ||| msk = msk) (hk : Kept msk s0 s) : Kept msk s0 (runLoops s) := by
  unfold runLoops
  try dsimp only
  repeat' first
    | with_reducible assumption | exact Mask.sub hm rfl | with_reducible apply reelLoop_kept | with_reducible apply tiltLoop_kept
    | with_reducible apply stepperFrame_kept | with_reducible apply lateralLoop_kept | with_reducible apply inhibitOff_kept
    | with_reducible apply onStp_kept | split | (intro)
    | (constructor <;> first | exact .inl (Mask.bit hm rfl) | exact .inr (by with_reducible rfl))

theorem feedbackBack_kept {msk : Nat} {s0 : State} {s : State} (hm : 0x140000000000000000000000000000000000000000000 ||| msk = msk)
    (hk : Kept msk s0 s) : Kept msk s0 (feedbackBack s) := by
  unfold feedbackBack
  try dsimp only
  repeat' first
    | with_reducible assumption | exact Mask.sub hm rfl | with_reducible apply inhibitOff_kept | split | (intro)

theorem servoSample_kept {msk : Nat} {s0 : State} (obs : Vector (Option ServoObs) 4) {s : State}
    (hm : 0x8200AC2ED98F7BFCCBEBFFD9FFC80000FE5916000004531FC007FAA004800000000000095FF1C1630000000000000000 ||| msk = msk) (hk : Kept msk s0 s) : Kept msk s0 (servoSample obs s) := by
  unfold servoSample
  try dsimp only
  repeat' first
    | with_reducible assumption | exact Mask.sub hm rfl | with_reducible apply forEach_kept | with_reducible apply feedbackBack_kept
    | with_reducible apply runLoops_kept | with_reducible apply countSettled_kept | with_reducible apply holdSample_kept
    | with_reducible apply reelTravel_kept | with_reducible apply takeBands_kept | with_reducible apply takeErrors_kept
    | with_reducible apply takeTilt_kept | with_reducible apply takePosition_kept | with_reducible apply speedSource_kept
    | with_reducible apply takeBand_kept | with_reducible apply takeSpeed_kept | with_reducible apply readmitReaders_kept
    | with_reducible apply dropReaders_kept | with_reducible apply noteTapeId_kept | with_reducible apply linkFrame_kept
    | with_reducible apply enterHold_kept | with_reducible apply speedBy_kept | with_reducible apply onStp_kept | split | (intro)
    | (constructor <;> first | exact .inl (Mask.bit hm rfl) | exact .inr (by with_reducible rfl))

theorem holdTimeout_kept {msk : Nat} {s0 : State} {s : State}
    (hm : 0x8200A0090008E0000000014030080000000000000000000000000000000000000000000857F1C0000020000000000000 ||| msk = msk) (hk : Kept msk s0 s) : Kept msk s0 (holdTimeout s) := by
  unfold holdTimeout
  try dsimp only
  repeat' first
    | with_reducible assumption | exact Mask.sub hm rfl | with_reducible apply brakeIfBlind_kept | with_reducible apply controlledStop_kept
    | with_reducible apply setMode_kept | with_reducible apply advanceTo_kept | with_reducible apply onStp_kept | split | (intro)
    | (constructor <;> first | exact .inl (Mask.bit hm rfl) | exact .inr (by with_reducible rfl))

theorem stopDone_kept {msk : Nat} {s0 : State} {s : State}
    (hm : 0x18200A0225988D800F84A01C0300840C0F65816000004531FC01E7FF8078000000000000957F1C1610000000000000000 ||| msk = msk) (hk : Kept msk s0 s) : Kept msk s0 (stopDone s) := by
  unfold stopDone
  try dsimp only
  repeat' first
    | with_reducible assumption | exact Mask.sub hm rfl | with_reducible apply stillAgain_kept | with_reducible apply enterStill_kept
    | with_reducible apply parkRun_kept | with_reducible apply stpEvent_kept | split | (intro)

theorem stopEnds_kept {msk : Nat} {s0 : State} {s : State}
    (hm : 0x18200A0225988D800F84A01C8300840C0F65816000004531FC01E7FF8078000000000000957F1C1610020000000000400 ||| msk = msk) (hk : Kept msk s0 s) : Kept msk s0 (stopEnds s) := by
  unfold stopEnds
  try dsimp only
  repeat' first
    | with_reducible assumption | exact Mask.sub hm rfl | with_reducible apply stopDone_kept | with_reducible apply setEnables_kept
    | with_reducible apply advanceTo_kept | with_reducible apply onStp_kept | split | (intro)
    | (constructor <;> first | exact .inl (Mask.bit hm rfl) | exact .inr (by with_reducible rfl))

theorem onReel_kept {msk : Nat} {s0 : State} (i : Nat) (f : Reel → Reel) {s : State}
    (hm : 0x80000000000000000000000000000000000000000000000000000000000000000000000 ||| msk = msk) (hk : Kept msk s0 s) : Kept msk s0 (onReel i f s) := by
  unfold onReel
  try dsimp only
  repeat' first
    | with_reducible assumption | with_reducible apply onStp_kept | split | (intro)
    | (constructor <;> first | exact .inl (Mask.bit hm rfl) | exact .inr (by with_reducible rfl))

theorem readersTravel_kept {msk : Nat} {s0 : State} (reel : Nat) {s : State}
    (hm : 0x8200A0268007000000400140B2080000001806000004020D00067AA004800000000000095FF1C1630000000000000000 ||| msk = msk) (hk : Kept msk s0 s) : Kept msk s0 (readersTravel reel s) := by
  unfold readersTravel
  try dsimp only
  repeat' first
    | with_reducible assumption | exact Mask.sub hm rfl | with_reducible apply dropReaders_kept | with_reducible apply enterHold_kept
    | with_reducible apply onStp_kept | split | (intro)
    | (constructor <;> first | exact .inl (Mask.bit hm rfl) | exact .inr (by with_reducible rfl))

theorem countEdge_kept {msk : Nat} {s0 : State} (i : Nat) (a b : Bool) {s : State}
    (hm : 0x8200A0268007000000400140BA080000001806000004020D00067AA004800000000000095FF1C1630000000000000000 ||| msk = msk) (hk : Kept msk s0 s) : Kept msk s0 (countEdge i a b s) := by
  unfold countEdge
  try dsimp only
  repeat' first
    | with_reducible assumption | exact Mask.sub hm rfl | with_reducible apply readersTravel_kept | with_reducible apply onReel_kept | split
    | (intro)

theorem encoderEdge_kept {msk : Nat} {s0 : State} (i : Nat) (a b : Bool) {s : State}
    (hm : 0x8200A02E800F200000400140BA080000001806000004020D00067AA004800000000000095FF1C1630000000000000000 ||| msk = msk) (hk : Kept msk s0 s) : Kept msk s0 (encoderEdge i a b s) := by
  unfold encoderEdge
  try dsimp only
  repeat' first
    | with_reducible assumption | exact Mask.sub hm rfl | with_reducible apply countEdge_kept | with_reducible apply onReel_kept
    | with_reducible apply loseEncoder_kept | split | (intro)

theorem indexPulse_kept {msk : Nat} {s0 : State} (i : Nat) {s : State}
    (hm : 0x8200A00C00082000000000000800000000000000000000000000000000000000000000085FF1C0030000000000000000 ||| msk = msk) (hk : Kept msk s0 s) : Kept msk s0 (indexPulse i s) := by
  unfold indexPulse
  try dsimp only
  repeat' first
    | with_reducible assumption | exact Mask.sub hm rfl | with_reducible apply onReel_kept | with_reducible apply loseEncoder_kept
    | with_reducible apply noteBack_kept | split | (intro)

theorem encoderPosition_kept {msk : Nat} {s0 : State} (v : Rat) {s : State}
    (hm : 0x1E00000000000000000000000000000000000000000000000000000000000000000000000000 ||| msk = msk) (hk : Kept msk s0 s) : Kept msk s0 (encoderPosition v s) := by
  unfold encoderPosition
  try dsimp only
  repeat' first
    | with_reducible assumption | exact Mask.sub hm rfl | with_reducible apply movePosition_kept | with_reducible apply onStp_kept | split
    | (intro) | (constructor <;> first | exact .inl (Mask.bit hm rfl) | exact .inr (by with_reducible rfl))

theorem reelTick_kept {msk : Nat} {s0 : State} {s : State}
    (hm : 0x8200A02A00003BFC03C01FD8B9C00000001806000004020D00077AA0048000000000000957F1C1600000000000000000 ||| msk = msk) (hk : Kept msk s0 s) : Kept msk s0 (reelTick s) := by
  unfold reelTick
  try dsimp only
  repeat' first
    | with_reducible assumption | exact Mask.sub hm rfl | with_reducible apply encoderPosition_kept | with_reducible apply speedSource_kept
    | with_reducible apply takeBand_kept | with_reducible apply takeSpeed_kept | with_reducible apply reelLoop_kept
    | with_reducible apply stepperFrame_kept | with_reducible apply lateralLoop_kept | with_reducible apply speedBy_kept
    | with_reducible apply inhibitOff_kept | with_reducible apply onStp_kept | split | (intro)
    | (constructor <;> first | exact .inl (Mask.bit hm rfl) | exact .inr (by with_reducible rfl))

theorem failAcc_kept {msk : Nat} {s0 : State} {s : State}
    (hm : 0x8200A000010000000000000000000000000000000000000000014000000000000000000857F1C0000000000000000000 ||| msk = msk) (hk : Kept msk s0 s) : Kept msk s0 (failAcc s) := by
  unfold failAcc
  try dsimp only
  repeat' first
    | with_reducible assumption | exact Mask.sub hm rfl | with_reducible apply stpRecord_kept | with_reducible apply inhibitOff_kept
    | with_reducible apply onStp_kept | split | (intro)
    | (constructor <;> first | exact .inl (Mask.bit hm rfl) | exact .inr (by with_reducible rfl))

theorem accSample_kept {msk : Nat} {s0 : State} (x y z : BitVec 16) {u : State}
    (hm : 0x8200A02001C000000800000000000000001806000000000000077AA0048000000000000957F1C0000000000000000000 ||| msk = msk) (hk : Kept msk s0 u) : Kept msk s0 (accSample x y z u) := by
  unfold accSample
  try dsimp only
  repeat' first
    | with_reducible assumption | exact Mask.sub hm rfl | with_reducible apply failAcc_kept | with_reducible apply inhibitIf_kept
    | with_reducible apply emit_kept | with_reducible apply onStp_kept | split | (intro)
    | (constructor <;> first | exact .inl (Mask.bit hm rfl) | exact .inr (by with_reducible rfl))

theorem sensorAsk_kept {msk : Nat} {s0 : State} {s : State}
    (hm : 0x800000000000000000000000000000000000000000000000000000000000000000000000000000000000000000000000 ||| msk = msk) (hk : Kept msk s0 s) : Kept msk s0 (sensorAsk s) := by
  unfold sensorAsk
  try dsimp only
  repeat' first
    | with_reducible assumption | exact Mask.sub hm rfl | with_reducible apply emits_kept | split | (intro)

theorem sensorReading_kept {msk : Nat} {s0 : State} (ack : Bool) (bs : Bytes) {u : State}
    (hm : 0x8200A0001E0000000008000000000000000000000000000000000000000000000000000857F1C0000000000000000000 ||| msk = msk) (hk : Kept msk s0 u) : Kept msk s0 (sensorReading ack bs u) := by
  unfold sensorReading
  try dsimp only
  repeat' first
    | with_reducible assumption | exact Mask.sub hm rfl | with_reducible apply sensorAsk_kept | with_reducible apply stpRecord_kept
    | with_reducible apply onStp_kept | split | (intro)
    | (constructor <;> first | exact .inl (Mask.bit hm rfl) | exact .inr (by with_reducible rfl))

theorem badResponse_kept {msk : Nat} {s0 : State} (stage : Nat) (again : Option (BitVec 32)) {s : State}
    (hm : 0x18600A0215980F802C80A01C03009FFFFF658160000045D1FC01E7FF86F8400000209B059D7F1C1610000000000000400 ||| msk = msk) (hk : Kept msk s0 s) : Kept msk s0 (badResponse stage again s) := by
  unfold badResponse
  try dsimp only
  repeat' first
    | with_reducible assumption | exact Mask.sub hm rfl | with_reducible apply tapeLost_kept | with_reducible apply stage_kept
    | with_reducible apply motorFault_kept | with_reducible apply onStp_kept | split | (intro)
    | (constructor <;> first | exact .inl (Mask.bit hm rfl) | exact .inr (by with_reducible rfl))

theorem motionResponse_kept {msk : Nat} {s0 : State} (stage : Nat) (f : BitVec 32) {u : State}
    (hm : 0x18600A0215980F802C80A01C03009FFFFF658160000045D1FC01E7FF86F8400000209B059D7F1C1610000000000000400 ||| msk = msk) (hk : Kept msk s0 u) : Kept msk s0 (motionResponse stage f u) := by
  unfold motionResponse
  try dsimp only
  repeat' first
    | with_reducible assumption | exact Mask.sub hm rfl | with_reducible apply badResponse_kept | with_reducible apply tapeLost_kept
    | with_reducible apply stage_kept | with_reducible apply motorFault_kept | with_reducible apply onStp_kept | split | (intro)
    | (constructor <;> first | exact .inl (Mask.bit hm rfl) | exact .inr (by with_reducible rfl))

theorem keepalive_kept {msk : Nat} {s0 : State} {s : State}
    (hm : 0x800000080000200000000000000000000000000000000000000000000000000000000000000000000000000000000000 ||| msk = msk) (hk : Kept msk s0 s) : Kept msk s0 (keepalive s) := by
  unfold keepalive
  try dsimp only
  repeat' first
    | with_reducible assumption | exact Mask.sub hm rfl | with_reducible apply forEach_kept | with_reducible apply sendMotion_kept | split
    | (intro)

theorem faultClear_kept {msk : Nat} {s0 : State} {s : State}
    (hm : 0x800000084008E8000A0210C8820800000000000000000000000140000000000000000000000000000006000000000408 ||| msk = msk) (hk : Kept msk s0 s) : Kept msk s0 (faultClear s) := by
  unfold faultClear
  try dsimp only
  repeat' first
    | with_reducible assumption | exact Mask.sub hm rfl | with_reducible apply forEach_kept | with_reducible apply accStart_kept
    | with_reducible apply enterOff_kept | with_reducible apply sendMotion_kept | with_reducible apply inhibitOff_kept
    | with_reducible apply onPins_kept | split | (intro)
    | (constructor <;> first | exact .inl (Mask.bit hm rfl) | exact .inr (by with_reducible rfl))

theorem heartbeat_kept {msk : Nat} {s0 : State} {s : State}
    (hm : 0x18000A02059B05800C80A014030080000F64010000004511FC01805780700000000000000000001610000000000000000 ||| msk = msk) (hk : Kept msk s0 s) : Kept msk s0 (heartbeat s) := by
  unfold heartbeat
  try dsimp only
  repeat' first
    | with_reducible assumption | exact Mask.sub hm rfl | with_reducible apply stillAgain_kept | with_reducible apply onStp_kept | split | (intro)
    | (constructor <;> first | exact .inl (Mask.bit hm rfl) | exact .inr (by with_reducible rfl))

theorem heartbeatTimeout_kept {msk : Nat} {s0 : State} {s : State}
    (hm : 0x8200A0010020C0000000014030000000000000000000000000000000000000000000000857F1C0000020000000000000 ||| msk = msk) (hk : Kept msk s0 s) : Kept msk s0 (heartbeatTimeout s) := by
  unfold heartbeatTimeout
  try dsimp only
  repeat' first
    | with_reducible assumption | exact Mask.sub hm rfl | with_reducible apply controlledStop_kept | with_reducible apply advanceTo_kept
    | with_reducible apply onStp_kept | split | (intro)
    | (constructor <;> first | exact .inl (Mask.bit hm rfl) | exact .inr (by with_reducible rfl))

theorem loseSteeple_kept {msk : Nat} {s0 : State} (i : Nat) {s : State}
    (hm : 0xFFCFFFFFFFFFFFFFFFF9FFFFFFFFFFFFFE7FFFFAFFFFFFFFFFFFFFFFFFFFFFFFF7EFFFFF5FF1F77BE01E3C3F00C70E00 ||| msk = msk) (hk : Kept msk s0 s) : Kept msk s0 (loseSteeple i s) := by
  unfold loseSteeple
  try dsimp only
  repeat' first
    | with_reducible assumption | exact Mask.sub hm rfl | with_reducible apply takeOut_kept | with_reducible apply onStp_kept | split | (intro)
    | (constructor <;> first | exact .inl (Mask.bit hm rfl) | exact .inr (by with_reducible rfl))

theorem pairEvent_kept {msk : Nat} {s0 : State} (cause : TakeoverCause) {s : State}
    (hm : 0xFFCFFFFFFFFFFFFFFFF9FFFFFFFFFFFFFE7FFFFAFFFFFFFFFFFFFFFFFFFFFFFFF7EFFFFF5FF1F77BE01E3C3F00C70E00 ||| msk = msk) (hk : Kept msk s0 s) : Kept msk s0 (pairEvent cause s) := by
  unfold pairEvent
  try dsimp only
  repeat' first
    | with_reducible assumption | exact Mask.sub hm rfl | with_reducible apply loseSteeple_kept | with_reducible apply stpRecord_kept
    | with_reducible apply onStp_kept | split | (intro)
    | (constructor <;> first | exact .inl (Mask.bit hm rfl) | exact .inr (by with_reducible rfl))

theorem execMotFaultNAssert_kept {msk : Nat}  {s t : State}
    (hm : 0x18610A0215980D802C80A01C03009FFFFF658160000045D1FC01E7FF86F8400000209B059D7F1C1610000000000000408 ||| msk = msk) (h : execMotFaultNAssert  s = .next t) : Kept msk s t := by
  unfold execMotFaultNAssert at h
  refine go_kept (fun u hk => ?_) h
  try dsimp only
  repeat' first
    | with_reducible assumption | exact Mask.sub hm rfl | with_reducible apply tapeLost_kept | with_reducible apply latch_kept
    | with_reducible apply motorFault_kept | with_reducible apply onPins_kept | split | (intro)
    | (constructor <;> first | exact .inl (Mask.bit hm rfl) | exact .inr (by with_reducible rfl))

theorem execServoPacket_kept {msk : Nat} (frame : ServoFrame) {s t : State}
    (hm : 0x8200AC2ED98F7BFCCBEBFFD9FFC80000FE5916000004531FC007FAA004800000000000095FF1C1630000000000000000 ||| msk = msk) (h : execServoPacket frame s = .next t) : Kept msk s t := by
  unfold execServoPacket at h
  refine goLive_kept (fun u hk => ?_) h
  try dsimp only
  repeat' first
    | with_reducible assumption | exact Mask.sub hm rfl | with_reducible apply forEach_kept | with_reducible apply servoSample_kept
    | with_reducible apply discardPacket_kept | split | (intro)

theorem execFeedbackLost_kept {msk : Nat}  {s t : State}
    (hm : 0x8200A0228007000000400140B0080000001806000004020D00067AA0048000000000000957F1C1600000000000000000 ||| msk = msk) (h : execFeedbackLost  s = .next t) : Kept msk s t := by
  unfold execFeedbackLost at h
  refine goLive_kept (fun u hk => ?_) h
  try dsimp only
  repeat' first
    | with_reducible assumption | exact Mask.sub hm rfl | with_reducible apply enterHold_kept | split | (intro)

theorem execFbHoldTimeout_kept {msk : Nat}  {s t : State}
    (hm : 0x8200A0090008E0000000014030080000000000000000000000000000000000000000000857F1C0000020000000000000 ||| msk = msk) (h : execFbHoldTimeout  s = .next t) : Kept msk s t := by
  unfold execFbHoldTimeout at h
  refine goLive_kept (fun u hk => ?_) h
  try dsimp only
  repeat' first
    | with_reducible assumption | exact Mask.sub hm rfl | with_reducible apply holdTimeout_kept | split | (intro)

theorem execControlledStopDone_kept {msk : Nat}  {s t : State}
    (hm : 0x18200A0225988D800F84A01C8300840C0F65816000004531FC01E7FF8078000000000000957F1C1610020000000000400 ||| msk = msk) (h : execControlledStopDone  s = .next t) : Kept msk s t := by
  unfold execControlledStopDone at h
  refine goLive_kept (fun u hk => ?_) h
  try dsimp only
  repeat' first
    | with_reducible assumption | exact Mask.sub hm rfl | with_reducible apply stopEnds_kept | split | (intro)

theorem execOneBandTimeout_kept {msk : Nat}  {s t : State}
    (hm : 0x8200A020000000000000000000000000001806000000000000067AA0048000000000000957F1C0000020000000000000 ||| msk = msk) (h : execOneBandTimeout  s = .next t) : Kept msk s t := by
  unfold execOneBandTimeout at h
  refine goLive_kept (fun u hk => ?_) h
  try dsimp only
  repeat' first
    | with_reducible assumption | exact Mask.sub hm rfl | with_reducible apply inhibitOn_kept | with_reducible apply advanceTo_kept | split
    | (intro)

theorem execEncoderEdge_kept {msk : Nat} (reel : Fin 2) (a b : Bool) {s t : State}
    (hm : 0x8200A02E800F200000400140BA080000001806000004020D00067AA004800000000000095FF1C1630000000000000000 ||| msk = msk) (h : execEncoderEdge reel a b s = .next t) : Kept msk s t := by
  unfold execEncoderEdge at h
  refine goLive_kept (fun u hk => ?_) h
  try dsimp only
  repeat' first
    | with_reducible assumption | exact Mask.sub hm rfl | with_reducible apply encoderEdge_kept | split | (intro)

theorem execEncoderIndexPulse_kept {msk : Nat} (reel : Fin 2) {s t : State}
    (hm : 0x8200A00C00082000000000000800000000000000000000000000000000000000000000085FF1C0030000000000000000 ||| msk = msk) (h : execEncoderIndexPulse reel s = .next t) : Kept msk s t := by
  unfold execEncoderIndexPulse at h
  refine goLive_kept (fun u hk => ?_) h
  try dsimp only
  repeat' first
    | with_reducible assumption | exact Mask.sub hm rfl | with_reducible apply indexPulse_kept | split | (intro)

theorem execReelLoopTick_kept {msk : Nat}  {s t : State}
    (hm : 0x8200A02A00003BFC03C01FD8B9C00000001806000004020D00077AA0048000000000000957F1C1600000000000000000 ||| msk = msk) (h : execReelLoopTick  s = .next t) : Kept msk s t := by
  unfold execReelLoopTick at h
  refine goLive_kept (fun u hk => ?_) h
  try dsimp only
  repeat' first
    | with_reducible assumption | exact Mask.sub hm rfl | with_reducible apply reelTick_kept | split | (intro)

theorem execAccSample_kept {msk : Nat} (x y z : BitVec 16) {s t : State}
    (hm : 0x8200A02001C000000800000000000000001806000000000000077AA0048000000000000957F1C0000000000000000000 ||| msk = msk) (h : execAccSample x y z s = .next t) : Kept msk s t := by
  unfold execAccSample at h
  refine goLive_kept (fun u hk => ?_) h
  try dsimp only
  repeat' first
    | with_reducible assumption | exact Mask.sub hm rfl | with_reducible apply accSample_kept | split | (intro)

theorem execSensorReading_kept {msk : Nat} (ack : Bool) (bytes : Bytes) {s t : State}
    (hm : 0x8200A0001E0000000008000000000000000000000000000000000000000000000000000857F1C0000000000000000000 ||| msk = msk) (h : execSensorReading ack bytes s = .next t) : Kept msk s t := by
  unfold execSensorReading at h
  refine goLive_kept (fun u hk => ?_) h
  try dsimp only
  repeat' first
    | with_reducible assumption | exact Mask.sub hm rfl | with_reducible apply sensorReading_kept | split | (intro)

theorem execMotionLinkResponse_kept {msk : Nat} (stage : Fin 5) (frame : BitVec 32) {s t : State}
    (hm : 0x18600A0215980F802C80A01C03009FFFFF658160000045D1FC01E7FF86F8400000209B059D7F1C1610000000000000400 ||| msk = msk) (h : execMotionLinkResponse stage frame s = .next t) : Kept msk s t := by
  unfold execMotionLinkResponse at h
  refine goLive_kept (fun u hk => ?_) h
  try dsimp only
  repeat' first
    | with_reducible assumption | exact Mask.sub hm rfl | with_reducible apply motionResponse_kept | split | (intro)

theorem execMotionLinkKeepalive_kept {msk : Nat}  {s t : State}
    (hm : 0x800000080000200000000000000000000000000000000000000000000000000000000000000000000000000000000000 ||| msk = msk) (h : execMotionLinkKeepalive  s = .next t) : Kept msk s t := by
  unfold execMotionLinkKeepalive at h
  refine goLive_kept (fun u hk => ?_) h
  try dsimp only
  repeat' first
    | with_reducible assumption | exact Mask.sub hm rfl | with_reducible apply keepalive_kept | split | (intro)

theorem execFaultClear_kept {msk : Nat}  {s t : State}
    (hm : 0x800000084008E8000A0210C8820800000000000000000000000140000000000000000000000000000006000000000408 ||| msk = msk) (h : execFaultClear  s = .next t) : Kept msk s t := by
  unfold execFaultClear at h
  refine goLive_kept (fun u hk => ?_) h
  try dsimp only
  repeat' first
    | with_reducible assumption | exact Mask.sub hm rfl | with_reducible apply faultClear_kept | split | (intro)

theorem execSteepleHeartbeat_kept {msk : Nat}  {s t : State}
    (hm : 0x18000A02059B05800C80A014030080000F64010000004511FC01805780700000000000000000001610000000000000000 ||| msk = msk) (h : execSteepleHeartbeat  s = .next t) : Kept msk s t := by
  unfold execSteepleHeartbeat at h
  refine goLive_kept (fun u hk => ?_) h
  try dsimp only
  repeat' first
    | with_reducible assumption | exact Mask.sub hm rfl | with_reducible apply heartbeat_kept | split | (intro)

theorem execSteepleHeartbeatTimeout_kept {msk : Nat}  {s t : State}
    (hm : 0x8200A0010020C0000000014030000000000000000000000000000000000000000000000857F1C0000020000000000000 ||| msk = msk) (h : execSteepleHeartbeatTimeout  s = .next t) : Kept msk s t := by
  unfold execSteepleHeartbeatTimeout at h
  refine goLive_kept (fun u hk => ?_) h
  try dsimp only
  repeat' first
    | with_reducible assumption | exact Mask.sub hm rfl | with_reducible apply heartbeatTimeout_kept | split | (intro)

theorem execSt1Takeover_kept {msk : Nat} (cause : TakeoverCause) {s t : State}
    (hm : 0xFFCFFFFFFFFFFFFFFFF9FFFFFFFFFFFFFE7FFFFAFFFFFFFFFFFFFFFFFFFFFFFFF7EFFFFF5FF1F77BE01E3C3F00C70E00 ||| msk = msk) (h : execSt1Takeover cause s = .next t) : Kept msk s t := by
  unfold execSt1Takeover at h
  refine goLive_kept (fun u hk => ?_) h
  try dsimp only
  repeat' first
    | with_reducible assumption | exact Mask.sub hm rfl | with_reducible apply pairEvent_kept | split | (intro)

end Sys2Proof.Machine
end

