-- ==== Sys2Proof/Laws/KeptServo.lean ====
section
/-! SUPPORT. What the operations and commands of Faults, Firmware, HwQueues, Programs, ReadRows, Registers, Resets, TrustCmds keep (see Laws/Kept.lean). -/

set_option linter.unusedTactic false
set_option linter.unreachableTactic false
set_option linter.unusedVariables false

namespace Sys2Proof.Machine

/-! ## Machine/Faults.lean -/

theorem losePhyHalf_kept {msk : Nat} {s0 : State} (i : Nat) {s : State}
    (hm : 0x8200A020000000000000014032000000001816000004011D00077AA004800000000000095FF1C1630000000000000000 ||| msk = msk) (hk : Kept msk s0 s) : Kept msk s0 (losePhyHalf i s) := by
  unfold losePhyHalf
  try dsimp only
  repeat' first
    | with_reducible assumption | exact Mask.sub hm rfl | with_reducible apply forEach_kept | with_reducible apply loseTx_kept
    | with_reducible apply loseRx_kept | with_reducible apply noteOut_kept | split | (intro)

theorem loseDie_kept {msk : Nat} {s0 : State} (i : Nat) {s : State}
    (hm : 0xFFCFFFFFFFFFFFFFFFF9FFFFFFFFFFFFFE7FFFFAFFFFFFFFFFFFFFFFFFFFFFFFF7EFFFFF5FF1F77BE01E3C3F00C70E00 ||| msk = msk) (hk : Kept msk s0 s) : Kept msk s0 (loseDie i s) := by
  unfold loseDie
  try dsimp only
  repeat' first
    | with_reducible assumption | exact Mask.sub hm rfl | with_reducible apply takeOut_kept | with_reducible apply noteOut_kept | split | (intro)

theorem losePortInstance_kept {msk : Nat} {s0 : State} (i : Nat) {s : State}
    (hm : 0x8600A0000000000000000000000000000000000000000000000000000000006102A9B05EDFF1C0030000000000000000 ||| msk = msk) (hk : Kept msk s0 s) : Kept msk s0 (losePortInstance i s) := by
  unfold losePortInstance
  try dsimp only
  repeat' first
    | with_reducible assumption | exact Mask.sub hm rfl | with_reducible apply losePort_kept | with_reducible apply noteOut_kept | split | (intro)

theorem instanceFault_kept {msk : Nat} {s0 : State} (row : FaultRow) (inst : Nat) {s : State}
    (hm : 0xFFCFFFFFFFFFFFFFFFF9FFFFFFFFFFFFFE7FFFFFFFFFFFFFFFFFFFFFFFFFFFFFF7EFFFFFDFF1F77BE01E3C3F00C70E00 ||| msk = msk) (hk : Kept msk s0 s) : Kept msk s0 (instanceFault row inst s) := by
  unfold instanceFault
  try dsimp only
  repeat' first
    | with_reducible assumption | exact Mask.sub hm rfl | with_reducible apply losePortInstance_kept | with_reducible apply loseDie_kept
    | with_reducible apply losePhyHalf_kept | with_reducible apply loseSteeple_kept | with_reducible apply loseEncoder_kept
    | with_reducible apply dropReader_kept | with_reducible apply loseTx_kept | with_reducible apply loseRx_kept
    | with_reducible apply declareDead_kept | with_reducible apply engineFault_kept | with_reducible apply takeOut_kept | split | (intro)

theorem execInstanceFault_kept {msk : Nat} (row : FaultRow) (inst : Nat) {s t : State}
    (hm : 0xFFCFFFFFFFFFFFFFFFF9FFFFFFFFFFFFFE7FFFFFFFFFFFFFFFFFFFFFFFFFFFFFF7EFFFFFDFF1F77BE01E3C3F00C70E00 ||| msk = msk) (h : execInstanceFault row inst s = .next t) : Kept msk s t := by
  unfold execInstanceFault at h
  refine goLive_kept (fun u hk => ?_) h
  try dsimp only
  repeat' first
    | with_reducible assumption | exact Mask.sub hm rfl | with_reducible apply instanceFault_kept | split | (intro)

/-! ## Machine/Firmware.lean -/

theorem endActivate_kept {msk : Nat} {s0 : State} (st : Nat) {s : State}
    (hm : 0x86000000000000000000000000000000000000000000000000000000000000000009B058800000000000000000000000 ||| msk = msk) (hk : Kept msk s0 s) : Kept msk s0 (endActivate st s) := by
  unfold endActivate
  try dsimp only
  repeat' first
    | with_reducible assumption | exact Mask.sub hm rfl | with_reducible apply reply_kept | split | (intro)

theorem eraseSpare_kept {msk : Nat} {s0 s : State}
    (hm : 0x8600000000000000000000000000000000000000000000000000000000000000000BB058800000000000000F80000000 ||| msk = msk) (hk : Kept msk s0 s) : Kept msk s0 (eraseSpare s) := by
  unfold eraseSpare
  refine (endActivate_kept 0x0603 (Mask.sub hm rfl) hk).trans ?_
  generalize endActivate 0x0603 s = s1
  refine ⟨rfl, ⟨rfl, rfl, rfl, rfl, Memory.wf_erase _ _⟩, id, PinsAgree.refl _ _, ?_, TrustAgree.refl _ _, PowerAgree.refl _ _, LanternAgree.refl _ _, ?_, KeepAgree.refl _ _, CupolaAgree.refl _ _, CzAgree.refl _ _, DriveAgree.refl _ _, WrAgree.refl _ _, WvnAgree.refl _ _, EccAgree.refl _ _, TilesAgree.refl _ _, RdAgree.refl _ _, StpAgree.refl _ _, HlkAgree.refl _ _, BlfAgree.refl _ _, HqAgree.refl _ _, .inr rfl, .inr rfl⟩ <;> (constructor <;> first | exact .inl (Mask.bit hm rfl) | exact .inr (by with_reducible rfl))

theorem finishStage_kept {msk : Nat} {s0 : State} (c : Cmd) {s : State}
    (hm : 0x86000000000000000000000000000000000000000000000000000000000000000009B058800000000000100680000000 ||| msk = msk) (hk : Kept msk s0 s) : Kept msk s0 (finishStage c s) := by
  unfold finishStage
  try dsimp only
  repeat' first
    | with_reducible assumption | exact Mask.sub hm rfl | with_reducible apply adminDone_kept | with_reducible apply onBoot_kept
    | with_reducible apply onTrust_kept | exact fun _ => BootKept.of_eq rfl rfl rfl rfl rfl
    | exact fun _ => ⟨rfl, rfl, rfl, rfl, Memory.wf_writeBytes _ _⟩ | exact fun _ => ⟨rfl, rfl, rfl, rfl, Memory.wf_erase _ _⟩
    | exact fun _ => ⟨rfl, rfl, rfl, rfl, fun h => Memory.wf_writeBytes _ _ (Memory.wf_erase _ _ h)⟩ | split | (intro)
    | (constructor <;> first | exact .inl (Mask.bit hm rfl) | exact .inr (by with_reducible rfl))

theorem stageChunk_kept {msk : Nat} {s0 : State} (data : Bytes) (flashOk : Bool) (c : Cmd) {s : State}
    (hm : 0x8600000000000000000000000000000000000000000000000000000000000000000BB058800000000000100F80000000 ||| msk = msk) (hk : Kept msk s0 s) : Kept msk s0 (stageChunk data flashOk c s) := by
  unfold stageChunk
  try dsimp only
  repeat' first
    | with_reducible assumption | exact Mask.sub hm rfl | with_reducible apply finishStage_kept | with_reducible apply eraseSpare_kept
    | with_reducible apply adminDone_kept | with_reducible apply onBoot_kept | with_reducible apply onTrust_kept
    | exact fun _ => BootKept.of_eq rfl rfl rfl rfl rfl | exact fun _ => ⟨rfl, rfl, rfl, rfl, Memory.wf_writeBytes _ _⟩
    | exact fun _ => ⟨rfl, rfl, rfl, rfl, Memory.wf_erase _ _⟩
    | exact fun _ => ⟨rfl, rfl, rfl, rfl, fun h => Memory.wf_writeBytes _ _ (Memory.wf_erase _ _ h)⟩ | split | (intro)
    | (constructor <;> first | exact .inl (Mask.bit hm rfl) | exact .inr (by with_reducible rfl))

theorem releaseHold_kept {msk : Nat} {s0 : State} {s : State}
    (hm : 0x18600A02059805800C80A014030087F1FF64010000004551FC01805786F01C061020FB058800001610000000800000000 ||| msk = msk) (hk : Kept msk s0 s) : Kept msk s0 (releaseHold s) := by
  unfold releaseHold
  try dsimp only
  repeat' first
    | with_reducible assumption | exact Mask.sub hm rfl | with_reducible apply functionReset_kept | with_reducible apply kickWrites_kept
    | with_reducible apply restartIfAsked_kept | with_reducible apply onHost_kept | split | (intro)
    | (constructor <;> first | exact .inl (Mask.bit hm rfl) | exact .inr (by with_reducible rfl))

theorem handOverSwitch_kept {msk : Nat} {s0 : State} (mode : Nat) {s : State}
    (hm : 0x8200E000000000000000000000000000000000000000000000000000000000000000000857F1C0000000000F02B4F000 ||| msk = msk) (hk : Kept msk s0 s) : Kept msk s0 (handOverSwitch mode s) := by
  unfold handOverSwitch
  try dsimp only
  repeat' first
    | with_reducible assumption | exact Mask.sub hm rfl | with_reducible apply setSlotCode_kept | with_reducible apply lantern_kept
    | with_reducible apply onBoot_kept | with_reducible apply onBlf_kept | exact fun _ => BootKept.of_eq rfl rfl rfl rfl rfl | split | (intro)
    | (constructor <;> first | exact .inl (Mask.bit hm rfl) | exact .inr (by with_reducible rfl))

theorem cancelSwitch_kept {msk : Nat} {s0 : State} (reason : Option Nat) {s : State}
    (hm : 0x8600A000000000000000000000000000000000000000000000000000000000000009B058D7F1C0000000000A00000000 ||| msk = msk) (hk : Kept msk s0 s) : Kept msk s0 (cancelSwitch reason s) := by
  unfold cancelSwitch
  try dsimp only
  repeat' first
    | with_reducible assumption | exact Mask.sub hm rfl | with_reducible apply endActivate_kept | with_reducible apply lantern_kept
    | with_reducible apply onBoot_kept | exact fun _ => BootKept.of_eq rfl rfl rfl rfl rfl | split | (intro)
    | (constructor <;> first | exact .inl (Mask.bit hm rfl) | exact .inr (by with_reducible rfl))

theorem switchCores_kept {msk : Nat} {s0 : State} {s : State}
    (hm : 0x18600E02059805800C80A014030087F1FF64010000004551FC01805786F01C061020FB058D7F1C1610000000F02B4F000 ||| msk = msk) (hk : Kept msk s0 s) : Kept msk s0 (switchCores s) := by
  unfold switchCores
  try dsimp only
  repeat' first
    | with_reducible assumption | exact Mask.sub hm rfl | with_reducible apply cancelSwitch_kept | with_reducible apply handOverSwitch_kept
    | with_reducible apply releaseHold_kept | with_reducible apply endActivate_kept | with_reducible apply onBoot_kept
    | exact fun _ => BootKept.of_eq rfl rfl rfl rfl rfl | split | (intro)
    | (constructor <;> first | exact .inl (Mask.bit hm rfl) | exact .inr (by with_reducible rfl))

theorem activateFallback_kept {msk : Nat} {s0 : State} (c : Cmd) {s : State}
    (hm : 0xFFCFFFFFFFFFFFFFFFF9FFFFFFFFFFFFFE7FFFFAFFFFFFFFFFFFFFFFFFFFFFFFF7EFFFFFDFF1F77BE01E3C1F00C73E00 ||| msk = msk) (hk : Kept msk s0 s) : Kept msk s0 (activateFallback c s) := by
  unfold activateFallback
  try dsimp only
  repeat' first
    | with_reducible assumption | exact Mask.sub hm rfl | with_reducible apply adminDone_kept | with_reducible apply partReset_kept
    | with_reducible apply onBoot_kept | exact fun _ => BootKept.of_eq rfl rfl rfl rfl rfl | split | (intro)
    | (constructor <;> first | exact .inl (Mask.bit hm rfl) | exact .inr (by with_reducible rfl))

theorem stopForSwitch_kept {msk : Nat} {s0 : State} {s : State}
    (hm : 0x8000A00059805800080A0000000802000000000000000000401000000000000000000000000000000000000000000000 ||| msk = msk) (hk : Kept msk s0 s) : Kept msk s0 (stopForSwitch s) := by
  unfold stopForSwitch
  try dsimp only
  repeat' first
    | with_reducible assumption | exact Mask.sub hm rfl | with_reducible apply enterStopping_kept | with_reducible apply onWr_kept | split
    | (intro) | (constructor <;> first | exact .inl (Mask.bit hm rfl) | exact .inr (by with_reducible rfl))

theorem beginActivation_kept {msk : Nat} {s0 : State} (mode : Nat) (c : Cmd) {s : State}
    (hm : 0x8600A00059805800080A00000008020000000000000000004010000000000000000BB058800000000000000800000000 ||| msk = msk) (hk : Kept msk s0 s) : Kept msk s0 (beginActivation mode c s) := by
  unfold beginActivation
  try dsimp only
  repeat' first
    | with_reducible assumption | exact Mask.sub hm rfl | with_reducible apply stopForSwitch_kept | with_reducible apply endActivate_kept
    | with_reducible apply adminDone_kept | with_reducible apply onCmd_kept | with_reducible apply onBoot_kept | with_reducible apply onHost_kept
    | exact fun _ => BootKept.of_eq rfl rfl rfl rfl rfl | split | (intro)
    | (constructor <;> first | exact .inl (Mask.bit hm rfl) | exact .inr (by with_reducible rfl))

theorem activate_kept {msk : Nat} {s0 : State} (c : Cmd) {s : State}
    (hm : 0xFFCFFFFFFFFFFFFFFFFBFFFFFFFFFFFFFE7FFFFAFFFFFFFFFFFFFFFFFFFFFFFFF7EFFFFFDFF1F77BE01E3C1F00C73E00 ||| msk = msk) (hk : Kept msk s0 s) : Kept msk s0 (activate c s) := by
  unfold activate
  try dsimp only
  repeat' first
    | with_reducible assumption | exact Mask.sub hm rfl | with_reducible apply beginActivation_kept | with_reducible apply activateFallback_kept
    | with_reducible apply adminDone_kept | split | (intro)

theorem activationTimeout_kept {msk : Nat} {s0 : State} (mode : Nat) {s : State}
    (hm : 0x18600A02059805800C80A014030087F1FF64010000004551FC01805786F01C061020FB058800001610020000800000000 ||| msk = msk) (hk : Kept msk s0 s) : Kept msk s0 (activationTimeout mode s) := by
  unfold activationTimeout
  try dsimp only
  repeat' first
    | with_reducible assumption | exact Mask.sub hm rfl | with_reducible apply releaseHold_kept | with_reducible apply reply_kept
    | with_reducible apply advanceTo_kept | with_reducible apply onBoot_kept | exact fun _ => BootKept.of_eq rfl rfl rfl rfl rfl | split | (intro)
    | (constructor <;> first | exact .inl (Mask.bit hm rfl) | exact .inr (by with_reducible rfl))

theorem execFwStage_kept {msk : Nat} (tag : BitVec 16) (data : Bytes) (flashOk : Bool) {s t : State}
    (hm : 0x8600000000000000000000000000000000000000000000000000000000000000000BB058800000000000100F80000000 ||| msk = msk) (h : execFwStage tag data flashOk s = .next t) : Kept msk s t := by
  unfold execFwStage at h
  refine goLive_kept (fun u hk => ?_) h
  try dsimp only
  repeat' first
    | with_reducible assumption | exact Mask.sub hm rfl | with_reducible apply stageChunk_kept | with_reducible apply adminRun_kept | split
    | (intro)

theorem execActivationSwitch_kept {msk : Nat}  {s t : State}
    (hm : 0x18600E02059805800C80A014030087F1FF64010000004551FC01805786F01C061020FB058D7F1C1610000000F02B4F000 ||| msk = msk) (h : execActivationSwitch  s = .next t) : Kept msk s t := by
  unfold execActivationSwitch at h
  refine goLive_kept (fun u hk => ?_) h
  try dsimp only
  repeat' first
    | with_reducible assumption | exact Mask.sub hm rfl | with_reducible apply switchCores_kept | split | (intro)

theorem execBarrierCoreTimeout_kept {msk : Nat} (core : Fin 4) {s t : State}
    (hm : 0x1FFCFFFFFFFFFFFFFFFFBFFFFFFFFFFFFFE7FFFFAFFFFFFFFFFFFFFFFFFFFFFFFF7EFFFFFDFF1F77BE01E3C3F02F7FE00 ||| msk = msk) (h : execBarrierCoreTimeout core s = .next t) : Kept msk s t := by
  unfold execBarrierCoreTimeout at h
  refine goLive_kept (fun u hk => ?_) h
  try dsimp only
  repeat' first
    | with_reducible assumption | exact Mask.sub hm rfl | with_reducible apply switchCores_kept | with_reducible apply takeOut_kept | split
    | (intro)

theorem execFwActivate_kept {msk : Nat} (tag : BitVec 16) {s t : State}
    (hm : 0xFFCFFFFFFFFFFFFFFFFBFFFFFFFFFFFFFE7FFFFAFFFFFFFFFFFFFFFFFFFFFFFFF7EFFFFFDFF1F77BE01E3C1F00C73E00 ||| msk = msk) (h : execFwActivate tag s = .next t) : Kept msk s t := by
  unfold execFwActivate at h
  refine goLive_kept (fun u hk => ?_) h
  try dsimp only
  repeat' first
    | with_reducible assumption | exact Mask.sub hm rfl | with_reducible apply activate_kept | with_reducible apply adminRun_kept | split
    | (intro)

theorem execActivationIdleTimeout_kept {msk : Nat}  {s t : State}
    (hm : 0x18600A02059805800C80A014030087F1FF64010000004551FC01805786F01C061020FB058800001610020000800000000 ||| msk = msk) (h : execActivationIdleTimeout  s = .next t) : Kept msk s t := by
  unfold execActivationIdleTimeout at h
  refine goLive_kept (fun u hk => ?_) h
  try dsimp only
  repeat' first
    | with_reducible assumption | exact Mask.sub hm rfl | with_reducible apply activationTimeout_kept | split | (intro)

theorem execActivationStillTimeout_kept {msk : Nat}  {s t : State}
    (hm : 0x18600A02059805800C80A014030087F1FF64010000004551FC01805786F01C061020FB058800001610020000800000000 ||| msk = msk) (h : execActivationStillTimeout  s = .next t) : Kept msk s t := by
  unfold execActivationStillTimeout at h
  refine goLive_kept (fun u hk => ?_) h
  try dsimp only
  repeat' first
    | with_reducible assumption | exact Mask.sub hm rfl | with_reducible apply activationTimeout_kept | split | (intro)

/-! ## Machine/HwQueues.lean -/

theorem onHwq_kept {msk : Nat} {s0 : State} (q : Nat) (f : HwQueue → HwQueue) {s : State}
    (hm : 0x80000000000000000000000000000000000000000000000000000000000000000000000000000000000000000000000 ||| msk = msk) (hk : Kept msk s0 s) : Kept msk s0 (onHwq q f s) := by
  unfold onHwq
  try dsimp only
  repeat' first
    | with_reducible assumption | with_reducible apply onHq_kept | split | (intro)
    | (constructor <;> first | exact .inl (Mask.bit hm rfl) | exact .inr (by with_reducible rfl))

theorem hqRaise_kept {msk : Nat} {s0 : State} (q : Nat) {s : State}
    (hm : 0x8000A0000000000000000000000000000000000000000000000000000000000000000000000000000000000000000000 ||| msk = msk) (hk : Kept msk s0 s) : Kept msk s0 (hqRaise q s) := by
  unfold hqRaise
  try dsimp only
  repeat' first
    | with_reducible assumption | exact Mask.sub hm rfl | with_reducible apply raise_kept | split | (intro)

theorem hqSeqError_kept {msk : Nat} {s0 : State} (q : Nat) {s : State}
    (hm : 0x8800A0000000000000000000000000000000000000000000000000000000000000000000000000000000000000000000 ||| msk = msk) (hk : Kept msk s0 s) : Kept msk s0 (hqSeqError q s) := by
  unfold hqSeqError
  try dsimp only
  repeat' first
    | with_reducible assumption | exact Mask.sub hm rfl | with_reducible apply hqRaise_kept | with_reducible apply onHwq_kept | split | (intro)

theorem hqTake_kept {msk : Nat} {s0 : State} (q : Nat) (w : Fin 4) (it : HqItem) {s : State}
    (hm : 0x8800A0000000000000000000000000000000000000000000000000000000000000000000000000000000000000000000 ||| msk = msk) (hk : Kept msk s0 s) : Kept msk s0 (hqTake q w it s) := by
  unfold hqTake
  try dsimp only
  repeat' first
    | with_reducible assumption | exact Mask.sub hm rfl | with_reducible apply hqRaise_kept | with_reducible apply onHwq_kept | split | (intro)

theorem hqFirst_kept {msk : Nat} {s0 : State} (q : Nat) (w : Fin 4) (it : HqItem) {s : State}
    (hm : 0x8800A0000000000000000000000000000000000000000000000000000000000000000000000000000000000000000000 ||| msk = msk) (hk : Kept msk s0 s) : Kept msk s0 (hqFirst q w it s) := by
  unfold hqFirst
  try dsimp only
  repeat' first
    | with_reducible assumption | exact Mask.sub hm rfl | with_reducible apply hqTake_kept | with_reducible apply onHwq_kept | split | (intro)

theorem hqAdmit_kept {msk : Nat} {s0 : State} (q : Nat) {s : State}
    (hm : 0x8800A0000000000000000000000000000000000000000000000000000000000000000000000000000000000000000000 ||| msk = msk) (hk : Kept msk s0 s) : Kept msk s0 (hqAdmit q s) := by
  unfold hqAdmit
  try dsimp only
  repeat' first
    | with_reducible assumption | exact Mask.sub hm rfl | with_reducible apply forEach_kept | with_reducible apply hqTake_kept
    | with_reducible apply onHwq_kept | split | (intro)

theorem hqDeliver_kept {msk : Nat} {s0 : State} (q : Nat) (it : HqItem) (poisoned : Bool) (rest : List HqItem) {s : State}
    (hm : 0x9A00A000000000000000000000000000000000000000000000000000000000000000000857F1C0000000000000000000 ||| msk = msk) (hk : Kept msk s0 s) : Kept msk s0 (hqDeliver q it poisoned rest s) := by
  unfold hqDeliver
  try dsimp only
  repeat' first
    | with_reducible assumption | exact Mask.sub hm rfl | with_reducible apply hqRaise_kept | with_reducible apply onHwq_kept
    | with_reducible apply lantern_kept | with_reducible apply raise_kept | with_reducible apply emit_kept | with_reducible apply onHq_kept
    | split | (intro) | (constructor <;> first | exact .inl (Mask.bit hm rfl) | exact .inr (by with_reducible rfl))

theorem hqRead_kept {msk : Nat} {s0 : State} (q : Nat) (blocking : Bool) {s : State}
    (hm : 0x9A00A000000000000000000000000000000000000000000000000000000000000000000857F1C0000000000000000000 ||| msk = msk) (hk : Kept msk s0 s) : Kept msk s0 (hqRead q blocking s) := by
  unfold hqRead
  try dsimp only
  repeat' first
    | with_reducible assumption | exact Mask.sub hm rfl | with_reducible apply hqDeliver_kept | with_reducible apply hqAdmit_kept
    | with_reducible apply onHwq_kept | with_reducible apply emit_kept | split | (intro)

theorem hqWake_kept {msk : Nat} {s0 : State} (q : Nat) {s : State}
    (hm : 0x9A00A000000000000000000000000000000000000000000000000000000000000000000857F1C0000000000000000000 ||| msk = msk) (hk : Kept msk s0 s) : Kept msk s0 (hqWake q s) := by
  unfold hqWake
  try dsimp only
  repeat' first
    | with_reducible assumption | exact Mask.sub hm rfl | with_reducible apply hqRead_kept | split | (intro)

theorem hqAlive_kept {msk : Nat} {s0 : State} (q : Nat) (w : Fin 4) {s : State}
    (hm : 0x80000000000000000000000000000000000000000000000000000000000000000000000000000000000000000000000 ||| msk = msk) (hk : Kept msk s0 s) : Kept msk s0 (hqAlive q w s) := by
  unfold hqAlive
  try dsimp only
  repeat' first
    | with_reducible assumption | exact Mask.sub hm rfl | with_reducible apply onHwq_kept | split | (intro)

theorem hqWrite_kept {msk : Nat} {s0 : State} (q : Nat) (w : Fin 4) (item : HqItem) {s : State}
    (hm : 0x9800A0000000000000000000000000000000000000000000000000000000000000000000000000000000000000000000 ||| msk = msk) (hk : Kept msk s0 s) : Kept msk s0 (hqWrite q w item s) := by
  unfold hqWrite
  try dsimp only
  repeat' first
    | with_reducible assumption | exact Mask.sub hm rfl | with_reducible apply hqAlive_kept | with_reducible apply hqAdmit_kept
    | with_reducible apply hqFirst_kept | with_reducible apply hqTake_kept | with_reducible apply hqSeqError_kept
    | with_reducible apply onHwq_kept | with_reducible apply raise_kept | with_reducible apply onHq_kept | split | (intro)
    | (constructor <;> first | exact .inl (Mask.bit hm rfl) | exact .inr (by with_reducible rfl))

theorem execHqItemWrite_kept {msk : Nat} (q : Fin 64) (writer : Fin 4) (item : HqItem) {s t : State}
    (hm : 0x9A00A000000000000000000000000000000000000000000000000000000000000000000857F1C0000000000000000000 ||| msk = msk) (h : execHqItemWrite q writer item s = .next t) : Kept msk s t := by
  unfold execHqItemWrite at h
  refine go_kept (fun u hk => ?_) h
  try dsimp only
  repeat' first
    | with_reducible assumption | exact Mask.sub hm rfl | with_reducible apply hqWrite_kept | with_reducible apply hqWake_kept | split | (intro)

theorem execHqItemRead_kept {msk : Nat} (q : Fin 64) (blocking : Bool) {s t : State}
    (hm : 0x9A00A000000000000000000000000000000000000000000000000000000000000000000857F1C0000000000000000000 ||| msk = msk) (h : execHqItemRead q blocking s = .next t) : Kept msk s t := by
  unfold execHqItemRead at h
  refine go_kept (fun u hk => ?_) h
  try dsimp only
  repeat' first
    | with_reducible assumption | exact Mask.sub hm rfl | with_reducible apply hqRead_kept | split | (intro)

theorem execHqStaleTail_kept {msk : Nat} (q : Fin 64) (writer : Fin 4) {s t : State}
    (hm : 0xBA00A000000000000000000000000000000000000000000000000000000000000000000857F1C0000020000000000000 ||| msk = msk) (h : execHqStaleTail q writer s = .next t) : Kept msk s t := by
  unfold execHqStaleTail at h
  refine go_kept (fun u hk => ?_) h
  try dsimp only
  repeat' first
    | with_reducible assumption | exact Mask.sub hm rfl | with_reducible apply hqWake_kept | with_reducible apply hqAdmit_kept
    | with_reducible apply hqSeqError_kept | with_reducible apply onHwq_kept | with_reducible apply lantern_kept | with_reducible apply raise_kept
    | with_reducible apply advanceTo_kept | with_reducible apply onHq_kept | split | (intro)
    | (constructor <;> first | exact .inl (Mask.bit hm rfl) | exact .inr (by with_reducible rfl))

theorem execHqFlush_kept {msk : Nat} (q : Fin 64) {s t : State}
    (hm : 0xDA00A000000000000000000000000000000000000000000000000000000000000000000857F1C0000000000000000000 ||| msk = msk) (h : execHqFlush q s = .next t) : Kept msk s t := by
  unfold execHqFlush at h
  refine go_kept (fun u hk => ?_) h
  try dsimp only
  repeat' first
    | with_reducible assumption | exact Mask.sub hm rfl | with_reducible apply hqWake_kept | with_reducible apply hqAdmit_kept
    | with_reducible apply onHwq_kept | with_reducible apply onHq_kept | split | (intro)
    | (constructor <;> first | exact .inl (Mask.bit hm rfl) | exact .inr (by with_reducible rfl))

theorem execHqDrain_kept {msk : Nat} (q : Fin 64) {s t : State}
    (hm : 0x80000000000000000000000000000000000000000000000000000000000000000000000000000000000000000000000 ||| msk = msk) (h : execHqDrain q s = .next t) : Kept msk s t := by
  unfold execHqDrain at h
  refine go_kept (fun u hk => ?_) h
  try dsimp only
  repeat' first
    | with_reducible assumption | exact Mask.sub hm rfl | with_reducible apply onHwq_kept | split | (intro)

theorem execHqDrainDone_kept {msk : Nat} (q : Fin 64) {s t : State}
    (hm : 0x9A00A000000000000000000000000000000000000000000000000000000000000000000857F1C0000000000000000000 ||| msk = msk) (h : execHqDrainDone q s = .next t) : Kept msk s t := by
  unfold execHqDrainDone at h
  refine go_kept (fun u hk => ?_) h
  try dsimp only
  repeat' first
    | with_reducible assumption | exact Mask.sub hm rfl | with_reducible apply hqWake_kept | with_reducible apply hqAdmit_kept
    | with_reducible apply onHwq_kept | split | (intro)

/-! ## Machine/Programs.lean -/

theorem runStep_kept {msk : Nat} {s0 : State} (op : Nat) (f : Nat → Nat → State → State) {s : State} (hf : ∀ x0 x1 t, Kept msk s0 t → Kept msk s0
    (f x0 x1 t)) (hk : Kept msk s0 s) : Kept msk s0 (runStep op f s) := by
  unfold runStep
  try dsimp only
  repeat' first
    | with_reducible assumption | with_reducible apply hf | split | (intro)

theorem waitStep_kept {msk : Nat} {s0 : State} (timeout : Option Nat) (done : State → Bool) {s : State}
    (hm : 0x8200A0010000C0000000014030000000000000000000000000000000000000000000000857F1C0000000000000000000 ||| msk = msk) (hk : Kept msk s0 s) : Kept msk s0 (waitStep timeout done s) := by
  unfold waitStep
  try dsimp only
  repeat' first
    | with_reducible assumption | exact Mask.sub hm rfl | with_reducible apply beginWait_kept | with_reducible apply nextStep_kept | split
    | (intro)

theorem endProgram_kept {msk : Nat} {s0 : State} {s : State}
    (hm : 0x400000000000000000000000000000000000000000000000000000000000000000000000000000000000 ||| msk = msk) (hk : Kept msk s0 s) : Kept msk s0 (endProgram s) := by
  unfold endProgram
  try dsimp only
  repeat' first
    | with_reducible assumption | with_reducible apply onStp_kept | split | (intro)
    | (constructor <;> first | exact .inl (Mask.bit hm rfl) | exact .inr (by with_reducible rfl))

theorem lateRecord_kept {msk : Nat} {s0 : State} (role limitMs : Nat) {s : State}
    (hm : 0x8200A000000000000000000000000000000000000000000000000000000000000000000857F1C0000000000000000000 ||| msk = msk) (hk : Kept msk s0 s) : Kept msk s0 (lateRecord role limitMs s) := by
  unfold lateRecord
  try dsimp only
  repeat' first
    | with_reducible assumption | exact Mask.sub hm rfl | with_reducible apply stpRecord_kept | split | (intro)

theorem endTrack_kept {msk : Nat} {s0 : State} {s : State}
    (hm : 0x8200A000000040000000016030080000000000000000010040000000000000000000000857F1C0000000000000000000 ||| msk = msk) (hk : Kept msk s0 s) : Kept msk s0 (endTrack s) := by
  unfold endTrack
  try dsimp only
  repeat' first
    | with_reducible assumption | exact Mask.sub hm rfl | with_reducible apply lateRecord_kept | with_reducible apply endProgram_kept
    | with_reducible apply setWvn_kept | with_reducible apply setMode_kept | with_reducible apply setSpeed_kept | with_reducible apply onWvn_kept
    | with_reducible apply onStp_kept | split | (intro)
    | (constructor <;> first | exact .inl (Mask.bit hm rfl) | exact .inr (by with_reducible rfl))

theorem stepEnd_kept {msk : Nat} {s0 : State} (a : Nat) {s : State}
    (hm : 0x18200A0235988D800FA4A11E8B2080000F65816000004531FC01F7FF8078000000000000957F1C1610006000000000400 ||| msk = msk) (hk : Kept msk s0 s) : Kept msk s0 (stepEnd a s) := by
  unfold stepEnd
  try dsimp only
  repeat' first
    | with_reducible assumption | exact Mask.sub hm rfl | with_reducible apply endTrack_kept | with_reducible apply lateRecord_kept
    | with_reducible apply stillAgain_kept | with_reducible apply enterStill_kept | with_reducible apply programFault_kept
    | with_reducible apply enterOff_kept | with_reducible apply inhibitOff_kept | split | (intro)

theorem turnRatio_kept {msk : Nat} {s0 : State} {s : State}
    (hm : 0x80000000000000000000014030000000000000000004001D000000000000000000000000000001600000000000000000 ||| msk = msk) (hk : Kept msk s0 s) : Kept msk s0 (turnRatio s) := by
  unfold turnRatio
  try dsimp only
  repeat' first
    | with_reducible assumption | exact Mask.sub hm rfl | with_reducible apply askRatio_kept | with_reducible apply onWvn_kept | split | (intro)
    | (constructor <;> first | exact .inl (Mask.bit hm rfl) | exact .inr (by with_reducible rfl))

theorem stepSpeed_kept {msk : Nat} {s0 : State} (a b : Nat) {u : State}
    (hm : 0x8200A0010000C0000000016030000000000000000004001D00000000000000000000000857F1C1600000000000000000 ||| msk = msk) (hk : Kept msk s0 u) : Kept msk s0 (stepSpeed a b u) := by
  unfold stepSpeed
  try dsimp only
  repeat' first
    | with_reducible assumption | exact Mask.sub hm rfl | with_reducible apply turnRatio_kept | with_reducible apply nextStep_kept
    | with_reducible apply programFault_kept | with_reducible apply setSpeed_kept | with_reducible apply onStp_kept | split | (intro)
    | (constructor <;> first | exact .inl (Mask.bit hm rfl) | exact .inr (by with_reducible rfl))

theorem enterPosition_kept {msk : Nat} {s0 : State} (v posErr : Rat) {s : State}
    (hm : 0x8200A022000000002040014030000000001806000004020D00067AA0048000000000000957F1C1600000000000000000 ||| msk = msk) (hk : Kept msk s0 s) : Kept msk s0 (enterPosition v posErr s) := by
  unfold enterPosition
  try dsimp only
  repeat' first
    | with_reducible assumption | exact Mask.sub hm rfl | with_reducible apply handOverFrom_kept | with_reducible apply onStp_kept | split
    | (intro) | (constructor <;> first | exact .inl (Mask.bit hm rfl) | exact .inr (by with_reducible rfl))

theorem stepGoto_kept {msk : Nat} {s0 : State} (a b : Nat) {s : State}
    (hm : 0x8200A0230000C000204001C030000000001806000004020D00067AA0048000000000000957F1C1600000000000000000 ||| msk = msk) (hk : Kept msk s0 s) : Kept msk s0 (stepGoto a b s) := by
  unfold stepGoto
  try dsimp only
  repeat' first
    | with_reducible assumption | exact Mask.sub hm rfl | with_reducible apply enterPosition_kept | with_reducible apply beginWait_kept
    | with_reducible apply nextStep_kept | with_reducible apply programFault_kept | with_reducible apply onStp_kept | split | (intro)
    | (constructor <;> first | exact .inl (Mask.bit hm rfl) | exact .inr (by with_reducible rfl))

theorem stepLateral_kept {msk : Nat} {s0 : State} (a b : Nat) {s : State}
    (hm : 0x8200A0230000C001D240014030000000001806000004020D00067AA0048000000000000957F1C1600000000000000000 ||| msk = msk) (hk : Kept msk s0 s) : Kept msk s0 (stepLateral a b s) := by
  unfold stepLateral
  try dsimp only
  repeat' first
    | with_reducible assumption | exact Mask.sub hm rfl | with_reducible apply nextStep_kept | with_reducible apply programFault_kept
    | with_reducible apply handOver_kept | with_reducible apply onStp_kept | split | (intro)
    | (constructor <;> first | exact .inl (Mask.bit hm rfl) | exact .inr (by with_reducible rfl))

theorem stepTilt_kept {msk : Nat} {s0 : State} (a b : Nat) {s : State}
    (hm : 0x8200A0010000C0000010014030000000000000000000000000000000000000000000000857F1C0000000000000000000 ||| msk = msk) (hk : Kept msk s0 s) : Kept msk s0 (stepTilt a b s) := by
  unfold stepTilt
  try dsimp only
  repeat' first
    | with_reducible assumption | exact Mask.sub hm rfl | with_reducible apply nextStep_kept | with_reducible apply programFault_kept
    | with_reducible apply onStp_kept | split | (intro)
    | (constructor <;> first | exact .inl (Mask.bit hm rfl) | exact .inr (by with_reducible rfl))

theorem stepLaw_kept {msk : Nat} {s0 : State} (a : Nat) {s : State}
    (hm : 0x8200A0230000C0003040014030000000001806000004020D00067AA0048000000000000957F1C1600000000000000000 ||| msk = msk) (hk : Kept msk s0 s) : Kept msk s0 (stepLaw a s) := by
  unfold stepLaw
  try dsimp only
  repeat' first
    | with_reducible assumption | exact Mask.sub hm rfl | with_reducible apply enterPosition_kept | with_reducible apply nextStep_kept
    | with_reducible apply programFault_kept | with_reducible apply handOver_kept | with_reducible apply onStp_kept | split | (intro)
    | (constructor <;> first | exact .inl (Mask.bit hm rfl) | exact .inr (by with_reducible rfl))

theorem stepTension_kept {msk : Nat} {s0 : State} (a b : Nat) {s : State}
    (hm : 0x8200A0010000C4000000014030000000000000000000000000000000000000000000000857F1C0000000000000000000 ||| msk = msk) (hk : Kept msk s0 s) : Kept msk s0 (stepTension a b s) := by
  unfold stepTension
  try dsimp only
  repeat' first
    | with_reducible assumption | exact Mask.sub hm rfl | with_reducible apply nextStep_kept | with_reducible apply programFault_kept
    | with_reducible apply onStp_kept | split | (intro)
    | (constructor <;> first | exact .inl (Mask.bit hm rfl) | exact .inr (by with_reducible rfl))

theorem stepDelay_kept {msk : Nat} {s0 : State} (a : Nat) {s : State}
    (hm : 0x8200A0010000C0000000014030000000000000000000000000000000000000000000000857F1C0000020000000000000 ||| msk = msk) (hk : Kept msk s0 s) : Kept msk s0 (stepDelay a s) := by
  unfold stepDelay
  try dsimp only
  repeat' first
    | with_reducible assumption | exact Mask.sub hm rfl | with_reducible apply beginWait_kept | with_reducible apply nextStep_kept
    | with_reducible apply advanceTo_kept | split | (intro)

theorem stepBranch_kept {msk : Nat} {s0 : State} (a b : Nat) {s : State}
    (hm : 0x8200A0010000C0000000014030000000000000000000000000000000000000000000000857F1C0000000000000000000 ||| msk = msk) (hk : Kept msk s0 s) : Kept msk s0 (stepBranch a b s) := by
  unfold stepBranch
  try dsimp only
  repeat' first
    | with_reducible assumption | exact Mask.sub hm rfl | with_reducible apply nextStep_kept | with_reducible apply programFault_kept
    | with_reducible apply onStp_kept | split | (intro)
    | (constructor <;> first | exact .inl (Mask.bit hm rfl) | exact .inr (by with_reducible rfl))

theorem stepEnable_kept {msk : Nat} {s0 : State} (a : Nat) {s : State}
    (hm : 0x8200A0010000C0000000014030000000000000000000000000000000000000000000000857F1C0000000000000000400 ||| msk = msk) (hk : Kept msk s0 s) : Kept msk s0 (stepEnable a s) := by
  unfold stepEnable
  try dsimp only
  repeat' first
    | with_reducible assumption | exact Mask.sub hm rfl | with_reducible apply nextStep_kept | with_reducible apply programFault_kept
    | with_reducible apply setEnables_kept | split | (intro)

theorem stepChain_kept {msk : Nat} {s0 : State} (a : Nat) {s : State}
    (hm : 0x8200A0010000C0000000014030000000000000000000000000000000000000000000000857F1C0000000000000000000 ||| msk = msk) (hk : Kept msk s0 s) : Kept msk s0 (stepChain a s) := by
  unfold stepChain
  try dsimp only
  repeat' first
    | with_reducible assumption | exact Mask.sub hm rfl | with_reducible apply programFault_kept | with_reducible apply onStp_kept | split
    | (intro) | (constructor <;> first | exact .inl (Mask.bit hm rfl) | exact .inr (by with_reducible rfl))

theorem stepStop_kept {msk : Nat} {s0 : State} (a : Nat) {s : State}
    (hm : 0x8200A0010000C0000000014030000000000000000000000000000000000000000000000857F1C0000000000000000000 ||| msk = msk) (hk : Kept msk s0 s) : Kept msk s0 (stepStop a s) := by
  unfold stepStop
  try dsimp only
  repeat' first
    | with_reducible assumption | exact Mask.sub hm rfl | with_reducible apply beginWait_kept | with_reducible apply nextStep_kept
    | with_reducible apply programFault_kept | with_reducible apply setSpeed_kept | split | (intro)

theorem waitTimeout_kept {msk : Nat} {s0 : State} {s : State}
    (hm : 0x8200A0010000C0000000014030000000000000000000000000000000000000000000000857F1C0000020000000000000 ||| msk = msk) (hk : Kept msk s0 s) : Kept msk s0 (waitTimeout s) := by
  unfold waitTimeout
  try dsimp only
  repeat' first
    | with_reducible assumption | exact Mask.sub hm rfl | with_reducible apply programFault_kept | with_reducible apply advanceTo_kept | split
    | (intro)

theorem execProgramStart_kept {msk : Nat} (prog : Fin 64) (p0 p1 p2 p3 : BitVec 32) {s t : State}
    (hm : 0x8000A00059805800080A0000000800000000000000000000000000000000000000000000000000000000000000000000 ||| msk = msk) (h : execProgramStart prog p0 p1 p2 p3 s = .next t) : Kept msk s t := by
  unfold execProgramStart at h
  refine goLive_kept (fun u hk => ?_) h
  try dsimp only
  repeat' first
    | with_reducible assumption | exact Mask.sub hm rfl | with_reducible apply startProgram_kept | split | (intro)

theorem execProgEnd_kept {msk : Nat}  {s t : State}
    (hm : 0x18200A0235988D800FA4A11E8B2080000F65816000004531FC01F7FF8078000000000000957F1C1610006000000000400 ||| msk = msk) (h : execProgEnd  s = .next t) : Kept msk s t := by
  unfold execProgEnd at h
  refine goLive_kept (fun u hk => ?_) h
  try dsimp only
  repeat' first
    | with_reducible assumption | exact Mask.sub hm rfl | with_reducible apply stepEnd_kept | with_reducible apply runStep_kept | split | (intro)

theorem execProgSpeed_kept {msk : Nat}  {s t : State}
    (hm : 0x8200A0010000C0000000016030000000000000000004001D00000000000000000000000857F1C1600000000000000000 ||| msk = msk) (h : execProgSpeed  s = .next t) : Kept msk s t := by
  unfold execProgSpeed at h
  refine goLive_kept (fun u hk => ?_) h
  try dsimp only
  repeat' first
    | with_reducible assumption | exact Mask.sub hm rfl | with_reducible apply stepSpeed_kept | with_reducible apply runStep_kept | split
    | (intro)

theorem execProgWaitSpeed_kept {msk : Nat}  {s t : State}
    (hm : 0x8200A0010000C0000000014030000000000000000000000000000000000000000000000857F1C0000000000000000000 ||| msk = msk) (h : execProgWaitSpeed  s = .next t) : Kept msk s t := by
  unfold execProgWaitSpeed at h
  refine goLive_kept (fun u hk => ?_) h
  try dsimp only
  repeat' first
    | with_reducible assumption | exact Mask.sub hm rfl | with_reducible apply waitStep_kept | with_reducible apply runStep_kept | split | (intro)

theorem execProgGotoLpos_kept {msk : Nat}  {s t : State}
    (hm : 0x8200A0230000C000204001C030000000001806000004020D00067AA0048000000000000957F1C1600000000000000000 ||| msk = msk) (h : execProgGotoLpos  s = .next t) : Kept msk s t := by
  unfold execProgGotoLpos at h
  refine goLive_kept (fun u hk => ?_) h
  try dsimp only
  repeat' first
    | with_reducible assumption | exact Mask.sub hm rfl | with_reducible apply stepGoto_kept | with_reducible apply runStep_kept | split | (intro)

theorem execProgWaitLpos_kept {msk : Nat}  {s t : State}
    (hm : 0x8200A0010000C0000000014030000000000000000000000000000000000000000000000857F1C0000000000000000000 ||| msk = msk) (h : execProgWaitLpos  s = .next t) : Kept msk s t := by
  unfold execProgWaitLpos at h
  refine goLive_kept (fun u hk => ?_) h
  try dsimp only
  repeat' first
    | with_reducible assumption | exact Mask.sub hm rfl | with_reducible apply waitStep_kept | with_reducible apply runStep_kept
    | with_reducible apply programFault_kept | split | (intro)

theorem execProgLateral_kept {msk : Nat}  {s t : State}
    (hm : 0x8200A0230000C001D240014030000000001806000004020D00067AA0048000000000000957F1C1600000000000000000 ||| msk = msk) (h : execProgLateral  s = .next t) : Kept msk s t := by
  unfold execProgLateral at h
  refine goLive_kept (fun u hk => ?_) h
  try dsimp only
  repeat' first
    | with_reducible assumption | exact Mask.sub hm rfl | with_reducible apply stepLateral_kept | with_reducible apply runStep_kept | split
    | (intro)

theorem execProgWaitLat_kept {msk : Nat}  {s t : State}
    (hm : 0x8200A0010000C0000000014030000000000000000000000000000000000000000000000857F1C0000000000000000000 ||| msk = msk) (h : execProgWaitLat  s = .next t) : Kept msk s t := by
  unfold execProgWaitLat at h
  refine goLive_kept (fun u hk => ?_) h
  try dsimp only
  repeat' first
    | with_reducible assumption | exact Mask.sub hm rfl | with_reducible apply waitStep_kept | with_reducible apply runStep_kept | split | (intro)

theorem execProgTilt_kept {msk : Nat}  {s t : State}
    (hm : 0x8200A0010000C0000010014030000000000000000000000000000000000000000000000857F1C0000000000000000000 ||| msk = msk) (h : execProgTilt  s = .next t) : Kept msk s t := by
  unfold execProgTilt at h
  refine goLive_kept (fun u hk => ?_) h
  try dsimp only
  repeat' first
    | with_reducible assumption | exact Mask.sub hm rfl | with_reducible apply stepTilt_kept | with_reducible apply runStep_kept | split | (intro)

theorem execProgLaw_kept {msk : Nat}  {s t : State}
    (hm : 0x8200A0230000C0003040014030000000001806000004020D00067AA0048000000000000957F1C1600000000000000000 ||| msk = msk) (h : execProgLaw  s = .next t) : Kept msk s t := by
  unfold execProgLaw at h
  refine goLive_kept (fun u hk => ?_) h
  try dsimp only
  repeat' first
    | with_reducible assumption | exact Mask.sub hm rfl | with_reducible apply stepLaw_kept | with_reducible apply runStep_kept | split | (intro)

theorem execProgTension_kept {msk : Nat}  {s t : State}
    (hm : 0x8200A0010000C4000000014030000000000000000000000000000000000000000000000857F1C0000000000000000000 ||| msk = msk) (h : execProgTension  s = .next t) : Kept msk s t := by
  unfold execProgTension at h
  refine goLive_kept (fun u hk => ?_) h
  try dsimp only
  repeat' first
    | with_reducible assumption | exact Mask.sub hm rfl | with_reducible apply stepTension_kept | with_reducible apply runStep_kept | split
    | (intro)

theorem execProgDelay_kept {msk : Nat}  {s t : State}
    (hm : 0x8200A0010000C0000000014030000000000000000000000000000000000000000000000857F1C0000020000000000000 ||| msk = msk) (h : execProgDelay  s = .next t) : Kept msk s t := by
  unfold execProgDelay at h
  refine goLive_kept (fun u hk => ?_) h
  try dsimp only
  repeat' first
    | with_reducible assumption | exact Mask.sub hm rfl | with_reducible apply stepDelay_kept | with_reducible apply runStep_kept | split
    | (intro)

theorem execProgBranch_kept {msk : Nat}  {s t : State}
    (hm : 0x8200A0010000C0000000014030000000000000000000000000000000000000000000000857F1C0000000000000000000 ||| msk = msk) (h : execProgBranch  s = .next t) : Kept msk s t := by
  unfold execProgBranch at h
  refine goLive_kept (fun u hk => ?_) h
  try dsimp only
  repeat' first
    | with_reducible assumption | exact Mask.sub hm rfl | with_reducible apply stepBranch_kept | with_reducible apply runStep_kept | split
    | (intro)

theorem execProgEnable_kept {msk : Nat}  {s t : State}
    (hm : 0x8200A0010000C0000000014030000000000000000000000000000000000000000000000857F1C0000000000000000400 ||| msk = msk) (h : execProgEnable  s = .next t) : Kept msk s t := by
  unfold execProgEnable at h
  refine goLive_kept (fun u hk => ?_) h
  try dsimp only
  repeat' first
    | with_reducible assumption | exact Mask.sub hm rfl | with_reducible apply stepEnable_kept | with_reducible apply runStep_kept | split
    | (intro)

theorem execProgEvent_kept {msk : Nat}  {s t : State}
    (hm : 0x8200A0010000C0000400014030000000000000000000000000000000000000000000000857F1C0000000000000000000 ||| msk = msk) (h : execProgEvent  s = .next t) : Kept msk s t := by
  unfold execProgEvent at h
  refine goLive_kept (fun u hk => ?_) h
  try dsimp only
  repeat' first
    | with_reducible assumption | exact Mask.sub hm rfl | with_reducible apply runStep_kept | with_reducible apply nextStep_kept
    | with_reducible apply stpEvent_kept | with_reducible apply onStp_kept | split | (intro)
    | (constructor <;> first | exact .inl (Mask.bit hm rfl) | exact .inr (by with_reducible rfl))

theorem execProgChain_kept {msk : Nat}  {s t : State}
    (hm : 0x8200A0010000C0000000014030000000000000000000000000000000000000000000000857F1C0000000000000000000 ||| msk = msk) (h : execProgChain  s = .next t) : Kept msk s t := by
  unfold execProgChain at h
  refine goLive_kept (fun u hk => ?_) h
  try dsimp only
  repeat' first
    | with_reducible assumption | exact Mask.sub hm rfl | with_reducible apply stepChain_kept | with_reducible apply runStep_kept | split
    | (intro)

theorem execProgStop_kept {msk : Nat}  {s t : State}
    (hm : 0x8200A0010000C0000000014030000000000000000000000000000000000000000000000857F1C0000000000000000000 ||| msk = msk) (h : execProgStop  s = .next t) : Kept msk s t := by
  unfold execProgStop at h
  refine goLive_kept (fun u hk => ?_) h
  try dsimp only
  repeat' first
    | with_reducible assumption | exact Mask.sub hm rfl | with_reducible apply stepStop_kept | with_reducible apply runStep_kept | split | (intro)

theorem execWaitTimeout_kept {msk : Nat}  {s t : State}
    (hm : 0x8200A0010000C0000000014030000000000000000000000000000000000000000000000857F1C0000020000000000000 ||| msk = msk) (h : execWaitTimeout  s = .next t) : Kept msk s t := by
  unfold execWaitTimeout at h
  refine goLive_kept (fun u hk => ?_) h
  try dsimp only
  repeat' first
    | with_reducible assumption | exact Mask.sub hm rfl | with_reducible apply waitTimeout_kept | split | (intro)

/-! ## Machine/ReadRows.lean -/

theorem placeRebuilt_kept {msk : Nat} {s0 : State} (n : Nat) (payload : Bytes) {s : State}
    (hm : 0x200070000008000000000000000000000000000000000000000000000000000000000 ||| msk = msk) (hk : Kept msk s0 s) : Kept msk s0 (placeRebuilt n payload s) := by
  unfold placeRebuilt
  try dsimp only
  repeat' first
    | with_reducible assumption | exact Mask.sub hm rfl | with_reducible apply placeSet_kept | with_reducible apply onEcc_kept | split | (intro)
    | (constructor <;> first | exact .inl (Mask.bit hm rfl) | exact .inr (by with_reducible rfl))

theorem domeRecovery_kept {msk : Nat} {s0 : State} (g dome : Nat) {s : State}
    (hm : 0x18600A02059805802C80A0140300BFFFFF640118000045D1FC01805786F0400000209B058800001610000000000000000 ||| msk = msk) (hk : Kept msk s0 s) : Kept msk s0 (domeRecovery g dome s) := by
  unfold domeRecovery
  try dsimp only
  repeat' first
    | with_reducible assumption | exact Mask.sub hm rfl | with_reducible apply forEach_kept | with_reducible apply placeRebuilt_kept
    | with_reducible apply escalate_kept | with_reducible apply serveAll_kept | with_reducible apply onFailed_kept | split | (intro)

theorem afterRetry_kept {msk : Nat} {s0 : State} {s : State}
    (hm : 0x8000A02059805802C80A01403008C0C0F64010000004501FC00000000000000000000000000001600000000000000000 ||| msk = msk) (hk : Kept msk s0 s) : Kept msk s0 (afterRetry s) := by
  unfold afterRetry
  try dsimp only
  repeat' first
    | with_reducible assumption | exact Mask.sub hm rfl | with_reducible apply endRetry_kept | with_reducible apply startRetry_kept
    | with_reducible apply restart_kept | with_reducible apply endRun_kept | split | (intro)

theorem retryDone_kept {msk : Nat} {s0 : State} {s : State}
    (hm : 0x18600A02059805802C80A01403009FFFFF640110000045D1FC01805786F0400000209B058800001610000000000000000 ||| msk = msk) (hk : Kept msk s0 s) : Kept msk s0 (retryDone s) := by
  unfold retryDone
  try dsimp only
  repeat' first
    | with_reducible assumption | exact Mask.sub hm rfl | with_reducible apply afterRetry_kept | with_reducible apply serveAll_kept
    | with_reducible apply startPass_kept | with_reducible apply giveUp_kept | with_reducible apply onFailed_kept
    | with_reducible apply onTiles_kept | split | (intro)
    | (constructor <;> first | exact .inl (Mask.bit hm rfl) | exact .inr (by with_reducible rfl))

theorem tagFails_kept {msk : Nat} {s0 : State} (r : RaSet) {s : State}
    (hm : 0x8200A02059805802C80A01403009C2C3F64011000004000DC0000000000001000000000857F1C1600000000000000000 ||| msk = msk) (hk : Kept msk s0 s) : Kept msk s0 (tagFails r s) := by
  unfold tagFails
  try dsimp only
  repeat' first
    | with_reducible assumption | exact Mask.sub hm rfl | with_reducible apply escalate_kept | with_reducible apply lantern_kept
    | with_reducible apply onCupola_kept | with_reducible apply onRd_kept | split | (intro)
    | (constructor <;> first | exact .inl (Mask.bit hm rfl) | exact .inr (by with_reducible rfl))

theorem decryptOne_kept {msk : Nat} {s0 : State} {s : State}
    (hm : 0x18600A02059805802C80A01403009FFFFF640110000045D1FC01805786F0401800209B058D7F1C1610000000000000000 ||| msk = msk) (hk : Kept msk s0 s) : Kept msk s0 (decryptOne s) := by
  unfold decryptOne
  try dsimp only
  repeat' first
    | with_reducible assumption | exact Mask.sub hm rfl | with_reducible apply tagFails_kept | with_reducible apply serveAll_kept
    | with_reducible apply holdDerived_kept | with_reducible apply countInv_kept | with_reducible apply needDomains_kept
    | with_reducible apply onRd_kept | split | (intro)
    | (constructor <;> first | exact .inl (Mask.bit hm rfl) | exact .inr (by with_reducible rfl))

theorem decompressed_kept {msk : Nat} {s0 : State} (it : DecompItem) {s : State}
    (hm : 0x8200A000000000000000000000000018000000000000000000000000004000000000000857F1C0000000000000000000 ||| msk = msk) (hk : Kept msk s0 s) : Kept msk s0 (decompressed it s) := by
  unfold decompressed
  try dsimp only
  repeat' first
    | with_reducible assumption | exact Mask.sub hm rfl | with_reducible apply lantern_kept | with_reducible apply onCz_kept
    | with_reducible apply onRd_kept | split | (intro)
    | (constructor <;> first | exact .inl (Mask.bit hm rfl) | exact .inr (by with_reducible rfl))

theorem blockDecompressed_kept {msk : Nat} {s0 : State} (e : Nat) {s : State}
    (hm : 0x18600A02059805802C80A01403009FFFFF640100000045D1FC01805786F4400000209B058D7F1C1610000000000000000 ||| msk = msk) (hk : Kept msk s0 s) : Kept msk s0 (blockDecompressed e s) := by
  unfold blockDecompressed
  try dsimp only
  repeat' first
    | with_reducible assumption | exact Mask.sub hm rfl | with_reducible apply decompressed_kept | with_reducible apply serveAll_kept
    | with_reducible apply onCz_kept | split | (intro)
    | (constructor <;> first | exact .inl (Mask.bit hm rfl) | exact .inr (by with_reducible rfl))

theorem packetCommit_kept {msk : Nat} {s0 : State} {s : State}
    (hm : 0x18600A02059805802C80A01403009FFFFF640100000045D1FC01805786F0400000209B058800001610000000000000000 ||| msk = msk) (hk : Kept msk s0 s) : Kept msk s0 (packetCommit s) := by
  unfold packetCommit
  try dsimp only
  repeat' first
    | with_reducible assumption | exact Mask.sub hm rfl | with_reducible apply serveAll_kept | with_reducible apply onRd_kept | split | (intro)
    | (constructor <;> first | exact .inl (Mask.bit hm rfl) | exact .inr (by with_reducible rfl))

theorem execDomeRecovery_kept {msk : Nat} (group : Nat) (dome : Fin 8) {s t : State}
    (hm : 0x18600A02059805802C80A0140300BFFFFF640118000045D1FC01805786F0400000209B058800001610000000000000000 ||| msk = msk) (h : execDomeRecovery group dome s = .next t) : Kept msk s t := by
  unfold execDomeRecovery at h
  refine goLive_kept (fun u hk => ?_) h
  try dsimp only
  repeat' first
    | with_reducible assumption | exact Mask.sub hm rfl | with_reducible apply domeRecovery_kept | split | (intro)

theorem execRetryAttemptDone_kept {msk : Nat}  {s t : State}
    (hm : 0x18600A02059805802C80A01403009FFFFF640110000045D1FC01805786F0400000209B058800001610000000000000000 ||| msk = msk) (h : execRetryAttemptDone  s = .next t) : Kept msk s t := by
  unfold execRetryAttemptDone at h
  refine goLive_kept (fun u hk => ?_) h
  try dsimp only
  repeat' first
    | with_reducible assumption | exact Mask.sub hm rfl | with_reducible apply retryDone_kept | split | (intro)

theorem execDecryptInvocation_kept {msk : Nat}  {s t : State}
    (hm : 0x18600A02059805802C80A01403009FFFFF640110000045D1FC01805786F0401800209B058D7F1C1610000000000000000 ||| msk = msk) (h : execDecryptInvocation  s = .next t) : Kept msk s t := by
  unfold execDecryptInvocation at h
  refine goLive_kept (fun u hk => ?_) h
  try dsimp only
  repeat' first
    | with_reducible assumption | exact Mask.sub hm rfl | with_reducible apply decryptOne_kept | split | (intro)

theorem execDecompressionBlockDone_kept {msk : Nat} (e : Fin 4) {s t : State}
    (hm : 0x18600A02059805802C80A01403009FFFFF640100000045D1FC01805786F4400000209B058D7F1C1610000000000000000 ||| msk = msk) (h : execDecompressionBlockDone e s = .next t) : Kept msk s t := by
  unfold execDecompressionBlockDone at h
  refine goLive_kept (fun u hk => ?_) h
  try dsimp only
  repeat' first
    | with_reducible assumption | exact Mask.sub hm rfl | with_reducible apply blockDecompressed_kept | split | (intro)

theorem execHostPacketCommit_kept {msk : Nat}  {s t : State}
    (hm : 0x18600A02059805802C80A01403009FFFFF640100000045D1FC01805786F0400000209B058800001610000000000000000 ||| msk = msk) (h : execHostPacketCommit  s = .next t) : Kept msk s t := by
  unfold execHostPacketCommit at h
  refine goLive_kept (fun u hk => ?_) h
  try dsimp only
  repeat' first
    | with_reducible assumption | exact Mask.sub hm rfl | with_reducible apply packetCommit_kept | split | (intro)

/-! ## Machine/Registers.lean -/

theorem clearTile_kept {msk : Nat} {s0 : State} (t o : Nat) {s : State}
    (hm : 0x100000000000000000000000000000000000000000000000000000000000 ||| msk = msk) (hk : Kept msk s0 s) : Kept msk s0 (clearTile t o s) := by
  unfold clearTile
  try dsimp only
  repeat' first
    | with_reducible assumption | with_reducible apply onTiles_kept | split | (intro)
    | (constructor <;> first | exact .inl (Mask.bit hm rfl) | exact .inr (by with_reducible rfl))

theorem clearRc_kept {msk : Nat} {s0 : State} (off : Nat) {s : State}
    (hm : 0x7FC0003F80000000000000000000000000001FC0038000000000000000600F0201E00000300006000000000000000000 ||| msk = msk) (hk : Kept msk s0 s) : Kept msk s0 (clearRc off s) := by
  unfold clearRc
  try dsimp only
  repeat' first
    | with_reducible assumption | exact Mask.sub hm rfl | with_reducible apply clearTile_kept | with_reducible apply onHwq_kept
    | with_reducible apply onPower_kept | with_reducible apply onLantern_kept | with_reducible apply onHost_kept
    | with_reducible apply onKeep_kept | with_reducible apply onCupola_kept | with_reducible apply onCz_kept | with_reducible apply onWvn_kept
    | with_reducible apply onEcc_kept | with_reducible apply onStp_kept | with_reducible apply onHlk_kept | with_reducible apply onBlf_kept
    | with_reducible apply onHq_kept | split | (intro)
    | (constructor <;> first | exact .inl (Mask.bit hm rfl) | exact .inr (by with_reducible rfl))

theorem latchHi_kept {msk : Nat} {s0 : State} (p : Port) (off value : Nat) {s : State} (hm : 0xE000000000000000000000000 ||| msk = msk)
    (hk : Kept msk s0 s) : Kept msk s0 (latchHi p off value s) := by
  unfold latchHi
  try dsimp only
  repeat' first
    | with_reducible assumption | exact Mask.sub hm rfl | with_reducible apply onPort_kept | split | (intro)

theorem countBad_kept {msk : Nat} {s0 : State} {s : State} (hm : 0x1000000000000000000000000000000 ||| msk = msk) (hk : Kept msk s0 s) : Kept msk s0
    (countBad s) := by
  unfold countBad
  try dsimp only
  repeat' first
    | with_reducible assumption | with_reducible apply onHost_kept | split | (intro)
    | (constructor <;> first | exact .inl (Mask.bit hm rfl) | exact .inr (by with_reducible rfl))

theorem badRead_kept {msk : Nat} {s0 : State} (p : Port) (off : Nat) {s : State}
    (hm : 0x800000000000000000000000000000000000000000000000000000000000000001000000000000000000000000000000 ||| msk = msk) (hk : Kept msk s0 s) : Kept msk s0 (badRead p off s) := by
  unfold badRead
  try dsimp only
  repeat' first
    | with_reducible assumption | exact Mask.sub hm rfl | with_reducible apply countBad_kept | with_reducible apply emit_kept | split | (intro)

theorem readReg_kept {msk : Nat} {s0 : State} (p : Port) (off : Nat) {s : State}
    (hm : 0xFFC0003F80000000000000000000000000001FC0038000000000000000600F0201E0000E300006000000000000000000 ||| msk = msk) (hk : Kept msk s0 s) : Kept msk s0 (readReg p off s) := by
  unfold readReg
  try dsimp only
  repeat' first
    | with_reducible assumption | exact Mask.sub hm rfl | with_reducible apply latchHi_kept | with_reducible apply clearRc_kept
    | with_reducible apply emit_kept | split | (intro)

theorem readAt_kept {msk : Nat} {s0 : State} (p : Port) (off : Nat) {s : State}
    (hm : 0xFFC0003F80000000000000000000000000001FC0038000000000000000600F0201E0000E300006000000000000000000 ||| msk = msk) (hk : Kept msk s0 s) : Kept msk s0 (readAt p off s) := by
  unfold readAt
  try dsimp only
  repeat' first
    | with_reducible assumption | exact Mask.sub hm rfl | with_reducible apply readReg_kept | with_reducible apply badRead_kept | split | (intro)

theorem writeQctl_kept {msk : Nat} {s0 : State} (p : Port) (v : Nat) {s : State}
    (hm : 0x8600A00059805800080A000000087F1F0000100000005407C00000006D01C061020DB078800000000000000800000000 ||| msk = msk) (hk : Kept msk s0 s) : Kept msk s0 (writeQctl p v s) := by
  unfold writeQctl
  try dsimp only
  repeat' first
    | with_reducible assumption | exact Mask.sub hm rfl | with_reducible apply enableAdmin_kept | with_reducible apply functionReset_kept
    | with_reducible apply onHost_kept | split | (intro)
    | (constructor <;> first | exact .inl (Mask.bit hm rfl) | exact .inr (by with_reducible rfl))

theorem writeTrigger_kept {msk : Nat} {s0 : State} (v : Nat) {s : State} (hm : 0x3C00000000000000000000 ||| msk = msk)
    (hk : Kept msk s0 s) : Kept msk s0 (writeTrigger v s) := by
  unfold writeTrigger
  try dsimp only
  repeat' first
    | with_reducible assumption | with_reducible apply onLantern_kept | split | (intro)
    | (constructor <;> first | exact .inl (Mask.bit hm rfl) | exact .inr (by with_reducible rfl))

theorem writeTile_kept {msk : Nat} {s0 : State} (t o v : Nat) {s : State}
    (hm : 0xE00000000000000000000000000000000000000000000000000000000000 ||| msk = msk) (hk : Kept msk s0 s) : Kept msk s0 (writeTile t o v s) := by
  unfold writeTile
  try dsimp only
  repeat' first
    | with_reducible assumption | with_reducible apply onTiles_kept | split | (intro)
    | (constructor <;> first | exact .inl (Mask.bit hm rfl) | exact .inr (by with_reducible rfl))

theorem writeBroadcast_kept {msk : Nat} {s0 : State} (o v : Nat) {s : State}
    (hm : 0x6E00000000000000000000000000000000000000000000000000000000000 ||| msk = msk) (hk : Kept msk s0 s) : Kept msk s0 (writeBroadcast o v s) := by
  unfold writeBroadcast
  try dsimp only
  repeat' first
    | with_reducible assumption | exact Mask.sub hm rfl | with_reducible apply forEach_kept | with_reducible apply writeTile_kept
    | with_reducible apply onTiles_kept | split | (intro)
    | (constructor <;> first | exact .inl (Mask.bit hm rfl) | exact .inr (by with_reducible rfl))

theorem writeMsix_kept {msk : Nat} {s0 : State} (p : Port) (off v : Nat) {s : State}
    (hm : 0x82000000000000000000000000000000000000000000000000000000000000000000000E000000000000000000000000 ||| msk = msk) (hk : Kept msk s0 s) : Kept msk s0 (writeMsix p off v s) := by
  unfold writeMsix
  try dsimp only
  repeat' first
    | with_reducible assumption | exact Mask.sub hm rfl | with_reducible apply sendPending_kept | with_reducible apply msix_kept
    | with_reducible apply onPort_kept | split | (intro)

theorem onWvnCfg_kept {msk : Nat} {s0 : State} (f : WvnCfg → WvnCfg) {s : State}
    (hm : 0x2000000000000000000000000000000000000000000000 ||| msk = msk) (hk : Kept msk s0 s) : Kept msk s0 (onWvnCfg f s) := by
  unfold onWvnCfg
  try dsimp only
  repeat' first
    | with_reducible assumption | with_reducible apply onWvn_kept | split | (intro)
    | (constructor <;> first | exact .inl (Mask.bit hm rfl) | exact .inr (by with_reducible rfl))

theorem writeBlock_kept {msk : Nat} {s0 : State} (p : Port) (off v : Nat) {s : State}
    (hm : 0x8608A3E059805800080A000600087F1F00001000FC005407C02000006D01D065020DBFF8803E00000000000800000000 ||| msk = msk) (hk : Kept msk s0 s) : Kept msk s0 (writeBlock p off v s) := by
  unfold writeBlock
  try dsimp only
  repeat' first
    | with_reducible assumption | exact Mask.sub hm rfl | with_reducible apply onWvnCfg_kept | with_reducible apply writeTrigger_kept
    | with_reducible apply writeQctl_kept | with_reducible apply writeGroupEn_kept | with_reducible apply writeRetrain_kept
    | with_reducible apply onLantern_kept | with_reducible apply onHost_kept | with_reducible apply onCupola_kept | with_reducible apply onCz_kept
    | with_reducible apply onWvn_kept | with_reducible apply onEcc_kept | with_reducible apply onStp_kept | with_reducible apply onHlk_kept
    | with_reducible apply onBlf_kept | split | (intro)
    | (constructor <;> first | exact .inl (Mask.bit hm rfl) | exact .inr (by with_reducible rfl))

theorem writeReg_kept {msk : Nat} {s0 : State} (p : Port) (off v : Nat) {s : State}
    (hm : 0x8608A3E059805800080A000600087F1F0006F000FC005407C02000006D01D065024DBFFEC03E00016000000800000000 ||| msk = msk) (hk : Kept msk s0 s) : Kept msk s0 (writeReg p off v s) := by
  unfold writeReg
  try dsimp only
  repeat' first
    | with_reducible assumption | exact Mask.sub hm rfl | with_reducible apply writeBlock_kept | with_reducible apply writeMsix_kept
    | with_reducible apply writeBroadcast_kept | with_reducible apply writeTile_kept | with_reducible apply headDoorbell_kept
    | with_reducible apply tailDoorbell_kept | split | (intro)

theorem writeAt_kept {msk : Nat} {s0 : State} (p : Port) (off v : Nat) {s : State}
    (hm : 0x8608A3E059805800080A000600087F1F0006F000FC005407C02000006D01D065034DBFFEC03E00016000000800000000 ||| msk = msk) (hk : Kept msk s0 s) : Kept msk s0 (writeAt p off v s) := by
  unfold writeAt
  try dsimp only
  repeat' first
    | with_reducible assumption | exact Mask.sub hm rfl | with_reducible apply writeReg_kept | with_reducible apply countBad_kept | split
    | (intro)

theorem execLanTrigArm_kept {msk : Nat} (value : Word) {s t : State} (hm : 0x3C00000000000000000000 ||| msk = msk)
    (h : execLanTrigArm value s = .next t) : Kept msk s t := by
  unfold execLanTrigArm at h
  refine goLive_kept (fun u hk => ?_) h
  try dsimp only
  repeat' first
    | with_reducible assumption | exact Mask.sub hm rfl | with_reducible apply writeTrigger_kept | split | (intro)

theorem execCtBroadcastWrite_kept {msk : Nat} (offset : Nat) (value : Word) {s t : State}
    (hm : 0x6E00000000000000000000000000001000000000000000000000000000000 ||| msk = msk) (h : execCtBroadcastWrite offset value s = .next t) : Kept msk s t := by
  unfold execCtBroadcastWrite at h
  refine goLive_kept (fun u hk => ?_) h
  try dsimp only
  repeat' first
    | with_reducible assumption | exact Mask.sub hm rfl | with_reducible apply writeBroadcast_kept | with_reducible apply countBad_kept | split
    | (intro)

theorem execRcRead_kept {msk : Nat} (p : Port) (offset : Nat) {s t : State}
    (hm : 0xFFC0003F80000000000000000000000000001FC0038000000000000000600F0201E0000E300006000000000000000000 ||| msk = msk) (h : execRcRead p offset s = .next t) : Kept msk s t := by
  unfold execRcRead at h
  refine goLive_kept (fun u hk => ?_) h
  try dsimp only
  repeat' first
    | with_reducible assumption | exact Mask.sub hm rfl | with_reducible apply readAt_kept | split | (intro)

theorem execLoWordRead_kept {msk : Nat} (p : Port) (offset : Nat) {s t : State}
    (hm : 0xFFC0003F80000000000000000000000000001FC0038000000000000000600F0201E0000E300006000000000000000000 ||| msk = msk) (h : execLoWordRead p offset s = .next t) : Kept msk s t := by
  unfold execLoWordRead at h
  refine goLive_kept (fun u hk => ?_) h
  try dsimp only
  repeat' first
    | with_reducible assumption | exact Mask.sub hm rfl | with_reducible apply readAt_kept | split | (intro)

theorem execBadAccess_kept {msk : Nat} (p : Port) (offset size : Nat) (isWrite : Bool) {s t : State}
    (hm : 0x800000000000000000000000000000000000000000000000000000000000000001000000000000000000000000000000 ||| msk = msk) (h : execBadAccess p offset size isWrite s = .next t) : Kept msk s t := by
  unfold execBadAccess at h
  refine goLive_kept (fun u hk => ?_) h
  try dsimp only
  repeat' first
    | with_reducible assumption | exact Mask.sub hm rfl | with_reducible apply badRead_kept | with_reducible apply countBad_kept | split | (intro)

theorem execRegisterWrite_kept {msk : Nat} (p : Port) (offset : Nat) (value : Word) {s t : State}
    (hm : 0x8608A3E059805800080A000600087F1F0006F000FC005407C02000006D01D065034DBFFEC03E00016000000800000000 ||| msk = msk) (h : execRegisterWrite p offset value s = .next t) : Kept msk s t := by
  unfold execRegisterWrite at h
  refine goLive_kept (fun u hk => ?_) h
  try dsimp only
  repeat' first
    | with_reducible assumption | exact Mask.sub hm rfl | with_reducible apply writeAt_kept | split | (intro)

/-! ## Machine/Resets.lean -/

theorem afterPulse_kept {msk : Nat} {s0 : State} (ns : Nat) {s : State}
    (hm : 0x1000000000000000000000000000000000000000000000000000000000000000000000000000000000000000000000000 ||| msk = msk) (hk : Kept msk s0 s) : Kept msk s0 (afterPulse ns s) := by
  unfold afterPulse
  try dsimp only
  repeat' first
    | with_reducible assumption | exact Mask.sub hm rfl | with_reducible apply draw_kept | split | (intro)

theorem fallReset_kept {msk : Nat} {s0 : State} (cause : Nat) {s : State}
    (hm : 0xFFCFFFFFFFFFFFFFFFF9FFFFFFFFFFFFFE7FFFFAFFFFFFFFFFFFFFFFFFFFFFFFF7EFFFFF5FF1F77BE01E3C1F00C70E00 ||| msk = msk) (hk : Kept msk s0 s) : Kept msk s0 (fallReset cause s) := by
  unfold fallReset
  try dsimp only
  repeat' first
    | with_reducible assumption | exact Mask.sub hm rfl | with_reducible apply partReset_kept | split | (intro)

theorem powerFall_kept {msk : Nat} {s0 : State} {s : State}
    (hm : 0xFFCFFFFFFFFFFFFFFFF9FFFFFFFFFFFFFE7FFFFAFFFFFFFFFFFFFFFFFFFFFFFFF7EFFFFF5FF1F77BE01E3C1F00C70E00 ||| msk = msk) (hk : Kept msk s0 s) : Kept msk s0 (powerFall s) := by
  unfold powerFall
  try dsimp only
  repeat' first
    | with_reducible assumption | exact Mask.sub hm rfl | with_reducible apply fallReset_kept | with_reducible apply inhibitOn_kept
    | with_reducible apply lantern_kept | split | (intro)

theorem countTorn_kept {msk : Nat} {s0 : State} {s : State} (hm : 0x2000C0000000000000000000 ||| msk = msk) (hk : Kept msk s0 s) : Kept msk s0
    (countTorn s) := by
  unfold countTorn
  try dsimp only
  repeat' first
    | with_reducible assumption | with_reducible apply onLantern_kept | split | (intro)
    | (constructor <;> first | exact .inl (Mask.bit hm rfl) | exact .inr (by with_reducible rfl))

theorem bootChain_kept {msk : Nat} {s0 : State} (o : StartObs) {u : State}
    (hm : 0x18200A00000000000000000000000000000000007000000000000000000000011C400000E77F1C161201206A000F9E900 ||| msk = msk) (hk : Kept msk s0 u) : Kept msk s0 (bootChain o u) := by
  unfold bootChain
  try dsimp only
  repeat' first
    | with_reducible assumption | exact Mask.sub hm rfl | with_reducible apply countTorn_kept | with_reducible apply chooseImage_kept
    | with_reducible apply startSeal_kept | with_reducible apply avsWrite_kept | with_reducible apply onPins_kept
    | with_reducible apply onBoot_kept | exact fun _ => BootKept.of_eq rfl rfl rfl rfl rfl | split | (intro)
    | (constructor <;> first | exact .inl (Mask.bit hm rfl) | exact .inr (by with_reducible rfl))

theorem antiRollback_kept {msk : Nat} {s0 : State} (fuseWriteOk : Bool) {s : State}
    (hm : 0x8200A000000000000000000000000000000000000000000000000000000000000000000857F1C0000000000003000000 ||| msk = msk) (hk : Kept msk s0 s) : Kept msk s0 (antiRollback fuseWriteOk s) := by
  unfold antiRollback
  try dsimp only
  repeat' first
    | with_reducible assumption | exact Mask.sub hm rfl | with_reducible apply lantern_kept | with_reducible apply onBoot_kept
    | exact fun _ => BootKept.of_eq rfl rfl rfl rfl rfl | split | (intro)
    | (constructor <;> first | exact .inl (Mask.bit hm rfl) | exact .inr (by with_reducible rfl))

theorem confirmStart_kept {msk : Nat} {s0 : State} (fuseWriteOk : Bool) {s : State}
    (hm : 0x8200A000000000000000000000000000000000000000000000000000000000000000000857F1C0000000001003C4F000 ||| msk = msk) (hk : Kept msk s0 s) : Kept msk s0 (confirmStart fuseWriteOk s) := by
  unfold confirmStart
  try dsimp only
  repeat' first
    | with_reducible assumption | exact Mask.sub hm rfl | with_reducible apply antiRollback_kept | with_reducible apply setSlotCode_kept
    | with_reducible apply lantern_kept | with_reducible apply onBoot_kept | exact fun _ => BootKept.of_eq rfl rfl rfl rfl rfl | split | (intro)
    | (constructor <;> first | exact .inl (Mask.bit hm rfl) | exact .inr (by with_reducible rfl))

theorem resetPort_kept {msk : Nat} {s0 : State} (p : Port) {s : State}
    (hm : 0x8600A00059805800080A000000087F1F0000100000005407C00000006D01C061020DB05E800000000000000800000000 ||| msk = msk) (hk : Kept msk s0 s) : Kept msk s0 (resetPort p s) := by
  unfold resetPort
  try dsimp only
  repeat' first
    | with_reducible assumption | exact Mask.sub hm rfl | with_reducible apply portFresh_kept | with_reducible apply functionReset_kept
    | with_reducible apply onPort_kept | split | (intro)

theorem execPowerOnReset_kept {msk : Nat}  {s t : State}
    (hm : 0x7FFFFFFFFFFFFFFFFFF9FFFFFFFFFFFFFE7FFFFAFFFFFFFFFFFFFFFFFF7FFFFFF7EFFFFE3F7E37FFEE7E3FDF00C70E00 ||| msk = msk) (h : execPowerOnReset  s = .next t) : Kept msk s t := by
  unfold execPowerOnReset at h
  refine go_kept (fun u hk => ?_) h
  try dsimp only
  repeat' first
    | with_reducible assumption | exact Mask.sub hm rfl | with_reducible apply afterPowerOn_kept | split | (intro)

theorem execPwrGoodFall_kept {msk : Nat} (ns : Nat) {s t : State}
    (hm : 0x1FFCFFFFFFFFFFFFFFFF9FFFFFFFFFFFFFE7FFFFAFFFFFFFFFFFFFFFFFFFFFFFFF7EFFFFF5FF1F77BE01E3C1F00C70E00 ||| msk = msk) (h : execPwrGoodFall ns s = .next t) : Kept msk s t := by
  unfold execPwrGoodFall at h
  refine go_kept (fun u hk => ?_) h
  try dsimp only
  repeat' first
    | with_reducible assumption | exact Mask.sub hm rfl | with_reducible apply powerFall_kept | with_reducible apply afterPulse_kept | split
    | (intro)

theorem execSysResetNLow_kept {msk : Nat} (ns : Nat) {s t : State}
    (hm : 0x1FFCFFFFFFFFFFFFFFFF9FFFFFFFFFFFFFE7FFFFAFFFFFFFFFFFFFFFFFFFFFFFFF7EFFFFF5FF1F77BE01E3C1F00C70E00 ||| msk = msk) (h : execSysResetNLow ns s = .next t) : Kept msk s t := by
  unfold execSysResetNLow at h
  refine go_kept (fun u hk => ?_) h
  try dsimp only
  repeat' first
    | with_reducible assumption | exact Mask.sub hm rfl | with_reducible apply fallReset_kept | with_reducible apply afterPulse_kept | split
    | (intro)

theorem execStartUp_kept {msk : Nat} (o : StartObs) {s t : State}
    (hm : 0x18200A00000000000000000000000000000000007000000000000000000000011C400000E77F1C161201206A000F9E900 ||| msk = msk) (h : execStartUp o s = .next t) : Kept msk s t := by
  unfold execStartUp at h
  refine go_kept (fun u hk => ?_) h
  try dsimp only
  repeat' first
    | with_reducible assumption | exact Mask.sub hm rfl | with_reducible apply bootChain_kept | split | (intro)

theorem execStartConfirm_kept {msk : Nat} (fuseWriteOk : Bool) {s t : State}
    (hm : 0x8200A000000000000000000000000000000000000000000000000000000000000000000857F1C0000000001003C4F000 ||| msk = msk) (h : execStartConfirm fuseWriteOk s = .next t) : Kept msk s t := by
  unfold execStartConfirm at h
  refine go_kept (fun u hk => ?_) h
  try dsimp only
  repeat' first
    | with_reducible assumption | exact Mask.sub hm rfl | with_reducible apply confirmStart_kept | split | (intro)

theorem execWatchdogExpiry_kept {msk : Nat}  {s t : State}
    (hm : 0xFFCFFFFFFFFFFFFFFFF9FFFFFFFFFFFFFE7FFFFAFFFFFFFFFFFFFFFFFFFFFFFFF7EFFFFF5FF1F77BE03E3C1F00C70E00 ||| msk = msk) (h : execWatchdogExpiry  s = .next t) : Kept msk s t := by
  unfold execWatchdogExpiry at h
  refine go_kept (fun u hk => ?_) h
  try dsimp only
  repeat' first
    | with_reducible assumption | exact Mask.sub hm rfl | with_reducible apply partReset_kept | with_reducible apply advanceTo_kept | split
    | (intro)

theorem execPortReset_kept {msk : Nat} (p : Port) (ns : Nat) {s t : State}
    (hm : 0x18600A00059805800080A000000087F1F0000100000005407C00000006D01C061020DB05E800000000000000800000000 ||| msk = msk) (h : execPortReset p ns s = .next t) : Kept msk s t := by
  unfold execPortReset at h
  refine goLive_kept (fun u hk => ?_) h
  try dsimp only
  repeat' first
    | with_reducible assumption | exact Mask.sub hm rfl | with_reducible apply resetPort_kept | with_reducible apply afterPulse_kept | split
    | (intro)

theorem execFlr_kept {msk : Nat} (p : Port) {s t : State}
    (hm : 0x8600A00059805800080A000000087F1F0000100000005407C00000006D01C061020DB05E800000000000000800000000 ||| msk = msk) (h : execFlr p s = .next t) : Kept msk s t := by
  unfold execFlr at h
  refine goLive_kept (fun u hk => ?_) h
  try dsimp only
  repeat' first
    | with_reducible assumption | exact Mask.sub hm rfl | with_reducible apply portFresh_kept | with_reducible apply functionReset_kept | split
    | (intro)

theorem execTestEnHigh_kept {msk : Nat}  {s t : State}
    (hm : 0xFFCFFFFFFFFFFFFFFFF9FFFFFFFFFFFFFE7FFFFAFFFFFFFFFFFFFFFFFFFFFFFFF7EFFFFF5FF1F77BE01E3C1F00C70E40 ||| msk = msk) (h : execTestEnHigh  s = .next t) : Kept msk s t := by
  unfold execTestEnHigh at h
  refine go_kept (fun u hk => ?_) h
  try dsimp only
  repeat' first
    | with_reducible assumption | exact Mask.sub hm rfl | with_reducible apply fallReset_kept | with_reducible apply onPins_kept | split | (intro)
    | (constructor <;> first | exact .inl (Mask.bit hm rfl) | exact .inr (by with_reducible rfl))

theorem execStrapChange_kept {msk : Nat} (now : BitVec 4) {s t : State}
    (hm : 0x8200A000000000000000000000000000000000000000000000000000000000000000000857F1C0000000000000000100 ||| msk = msk) (h : execStrapChange now s = .next t) : Kept msk s t := by
  unfold execStrapChange at h
  refine go_kept (fun u hk => ?_) h
  try dsimp only
  repeat' first
    | with_reducible assumption | exact Mask.sub hm rfl | with_reducible apply lantern_kept | with_reducible apply onPins_kept | split | (intro)
    | (constructor <;> first | exact .inl (Mask.bit hm rfl) | exact .inr (by with_reducible rfl))

/-! ## Machine/TrustCmds.lean -/

theorem privileged_kept {msk : Nat} {s0 : State} (f : Cmd → State → State) (c : Cmd) {s : State} (hf : ∀ x0 t, Kept msk s0 t → Kept msk s0 (f x0 t))
    (hm : 0x86000000000000000000000000000000000000000000000000000000000000000009B058800000000000000000000000 ||| msk = msk) (hk : Kept msk s0 s) : Kept msk s0 (privileged f c s) := by
  unfold privileged
  try dsimp only
  repeat' first
    | with_reducible assumption | with_reducible apply hf | exact Mask.sub hm rfl | with_reducible apply adminDone_kept | split | (intro)

theorem unlockDebug_kept {msk : Nat} {s0 : State} (c : Cmd) {s : State}
    (hm : 0x8600A020000000000000000000007F1F001806000000040000067AA6ED81C2714609B059D7F1C0000000080000000000 ||| msk = msk) (hk : Kept msk s0 s) : Kept msk s0 (unlockDebug c s) := by
  unfold unlockDebug
  try dsimp only
  repeat' first
    | with_reducible assumption | exact Mask.sub hm rfl | with_reducible apply privileged_kept | with_reducible apply adminDone_kept
    | with_reducible apply eraseKeys_kept | with_reducible apply inhibitOn_kept | with_reducible apply lantern_kept
    | with_reducible apply emit_kept | with_reducible apply onTrust_kept | split | (intro)
    | (constructor <;> first | exact .inl (Mask.bit hm rfl) | exact .inr (by with_reducible rfl))

theorem clearLantern_kept {msk : Nat} {s0 : State} (c : Cmd) {s : State}
    (hm : 0x8600A000000000000000000000000000000000000000000000000000000000000009B058D7F1C0000000000000000000 ||| msk = msk) (hk : Kept msk s0 s) : Kept msk s0 (clearLantern c s) := by
  unfold clearLantern
  try dsimp only
  repeat' first
    | with_reducible assumption | exact Mask.sub hm rfl | with_reducible apply adminDone_kept | with_reducible apply lantern_kept
    | with_reducible apply onLantern_kept | split | (intro)
    | (constructor <;> first | exact .inl (Mask.bit hm rfl) | exact .inr (by with_reducible rfl))

theorem registerKeys_kept {msk : Nat} {s0 : State} (block : Bytes) (c : Cmd) {s : State}
    (hm : 0x86000000000000000000000000000000000000000000000000000000000000000009B05880000000001F800000000000 ||| msk = msk) (hk : Kept msk s0 s) : Kept msk s0 (registerKeys block c s) := by
  unfold registerKeys
  try dsimp only
  repeat' first
    | with_reducible assumption | exact Mask.sub hm rfl | with_reducible apply adminDone_kept | with_reducible apply onTrust_kept | split
    | (intro) | (constructor <;> first | exact .inl (Mask.bit hm rfl) | exact .inr (by with_reducible rfl))

theorem redrawTransport_kept {msk : Nat} {s0 s : State}
    (hm : 0x1000000000000000000000000000000000000000000000000000000000000000004000000000000000000000000000000 ||| msk = msk) (hk : Kept msk s0 s) : Kept msk s0 (redrawTransport s) := by
  unfold redrawTransport
  split
  · refine onKeep_kept _ ?_ hk
    intro x
    (constructor <;> first | exact .inl (Mask.bit hm rfl) | exact .inr (by with_reducible rfl))
  · refine Kept.setFresh _ (Mask.sub hm rfl) (onKeep_kept _ ?_ hk)
    intro x
    (constructor <;> first | exact .inl (Mask.bit hm rfl) | exact .inr (by with_reducible rfl))

theorem zeroizeAll_kept {msk : Nat} {s0 : State} (c : Cmd) {s : State}
    (hm : 0x18600A00000000000000000000000000D000000000000040000040286ED01C2610609B058D7F1C0000000000000000000 ||| msk = msk) (hk : Kept msk s0 s) : Kept msk s0 (zeroizeAll c s) := by
  unfold zeroizeAll
  try dsimp only
  repeat' first
    | with_reducible assumption | exact Mask.sub hm rfl | with_reducible apply redrawTransport_kept | with_reducible apply adminDone_kept
    | with_reducible apply eraseSlots_kept | with_reducible apply lantern_kept | split | (intro)

theorem flashTable_kept {msk : Nat} {s0 : State} (t : Nat) (data : Bytes) {s : State} (hm : 0x80000000 ||| msk = msk)
    (hk : Kept msk s0 s) : Kept msk s0 (flashTable t data s) := by
  unfold flashTable
  try dsimp only
  repeat' first
    | with_reducible assumption | with_reducible apply onBoot_kept | exact fun _ => BootKept.of_eq rfl rfl rfl rfl rfl
    | exact fun _ => ⟨rfl, rfl, rfl, rfl, Memory.wf_writeBytes _ _⟩ | exact fun _ => ⟨rfl, rfl, rfl, rfl, Memory.wf_erase _ _⟩
    | exact fun _ => ⟨rfl, rfl, rfl, rfl, fun h => Memory.wf_writeBytes _ _ (Memory.wf_erase _ _ h)⟩ | split | (intro)
    | (constructor <;> first | exact .inl (Mask.bit hm rfl) | exact .inr (by with_reducible rfl))

theorem loadTable_kept {msk : Nat} {s0 : State} (data : Bytes) (flashOk : Bool) (c : Cmd) {s : State}
    (hm : 0x8600A000000008000002000000000000008000000000000000000000000000000009B058D7F1C000000E000080000000 ||| msk = msk) (hk : Kept msk s0 s) : Kept msk s0 (loadTable data flashOk c s) := by
  unfold loadTable
  try dsimp only
  repeat' first
    | with_reducible assumption | exact Mask.sub hm rfl | with_reducible apply flashTable_kept | with_reducible apply takeTable_kept
    | with_reducible apply adminDone_kept | with_reducible apply lantern_kept | exact fun _ => ⟨rfl, rfl, rfl, rfl, Memory.wf_writeBytes _ _⟩
    | exact fun _ => ⟨rfl, rfl, rfl, rfl, Memory.wf_erase _ _⟩
    | exact fun _ => ⟨rfl, rfl, rfl, rfl, fun h => Memory.wf_writeBytes _ _ (Memory.wf_erase _ _ h)⟩ | split | (intro)

theorem execAttest_kept {msk : Nat} (tag : BitVec 16) (nonce : Bytes) {s t : State}
    (hm : 0x86000000000000000000000000000000000000000000000000000000000000000009B058800000000000000000000000 ||| msk = msk) (h : execAttest tag nonce s = .next t) : Kept msk s t := by
  unfold execAttest at h
  refine goLive_kept (fun u hk => ?_) h
  try dsimp only
  repeat' first
    | with_reducible assumption | exact Mask.sub hm rfl | with_reducible apply adminDone_kept | with_reducible apply adminRun_kept
    | with_reducible apply writeBuffer_kept | split | (intro)

theorem execDebugUnlock_kept {msk : Nat} (tag : BitVec 16) {s t : State}
    (hm : 0x8600A020000000000000000000007F1F001806000000040000067AA6ED81C2714609B059D7F1C0000000080000000000 ||| msk = msk) (h : execDebugUnlock tag s = .next t) : Kept msk s t := by
  unfold execDebugUnlock at h
  refine goLive_kept (fun u hk => ?_) h
  try dsimp only
  repeat' first
    | with_reducible assumption | exact Mask.sub hm rfl | with_reducible apply unlockDebug_kept | with_reducible apply adminSub_kept | split
    | (intro)

theorem execLanternClear_kept {msk : Nat} (tag : BitVec 16) {s t : State}
    (hm : 0x8600A000000000000000000000000000000000000000000000000000000000000009B058D7F1C0000000000000000000 ||| msk = msk) (h : execLanternClear tag s = .next t) : Kept msk s t := by
  unfold execLanternClear at h
  refine goLive_kept (fun u hk => ?_) h
  try dsimp only
  repeat' first
    | with_reducible assumption | exact Mask.sub hm rfl | with_reducible apply clearLantern_kept | with_reducible apply privileged_kept
    | with_reducible apply adminSub_kept | split | (intro)

theorem execRegisterIntegratorKeys_kept {msk : Nat} (tag : BitVec 16) (block : Bytes) {s t : State}
    (hm : 0x86000000000000000000000000000000000000000000000000000000000000000009B05880000000001F800000000000 ||| msk = msk) (h : execRegisterIntegratorKeys tag block s = .next t) : Kept msk s t := by
  unfold execRegisterIntegratorKeys at h
  refine goLive_kept (fun u hk => ?_) h
  try dsimp only
  repeat' first
    | with_reducible assumption | exact Mask.sub hm rfl | with_reducible apply registerKeys_kept | with_reducible apply privileged_kept
    | with_reducible apply adminSub_kept | split | (intro)

theorem execZeroizeAllKeys_kept {msk : Nat} (tag : BitVec 16) {s t : State}
    (hm : 0x18600A00000000000000000000000000D000000000000040000040286ED01C2610609B058D7F1C0000000000000000000 ||| msk = msk) (h : execZeroizeAllKeys tag s = .next t) : Kept msk s t := by
  unfold execZeroizeAllKeys at h
  refine goLive_kept (fun u hk => ?_) h
  try dsimp only
  repeat' first
    | with_reducible assumption | exact Mask.sub hm rfl | with_reducible apply zeroizeAll_kept | with_reducible apply privileged_kept
    | with_reducible apply adminSub_kept | split | (intro)

theorem execArmDowngradePermit_kept {msk : Nat} (tag : BitVec 16) {s t : State}
    (hm : 0x86000000000000000000000000000000000000000000000000000000000000000009B058800000000000100000000000 ||| msk = msk) (h : execArmDowngradePermit tag s = .next t) : Kept msk s t := by
  unfold execArmDowngradePermit at h
  refine goLive_kept (fun u hk => ?_) h
  try dsimp only
  repeat' first
    | with_reducible assumption | exact Mask.sub hm rfl | with_reducible apply privileged_kept | with_reducible apply adminDone_kept
    | with_reducible apply adminSub_kept | with_reducible apply onTrust_kept | split | (intro)
    | (constructor <;> first | exact .inl (Mask.bit hm rfl) | exact .inr (by with_reducible rfl))

theorem execDowngradePermitExpiry_kept {msk : Nat}  {s t : State} (hm : 0x20100000000000 ||| msk = msk)
    (h : execDowngradePermitExpiry  s = .next t) : Kept msk s t := by
  unfold execDowngradePermitExpiry at h
  refine goLive_kept (fun u hk => ?_) h
  try dsimp only
  repeat' first
    | with_reducible assumption | exact Mask.sub hm rfl | with_reducible apply advanceTo_kept | with_reducible apply onTrust_kept | split
    | (intro) | (constructor <;> first | exact .inl (Mask.bit hm rfl) | exact .inr (by with_reducible rfl))

theorem execResetFailedStartCounter_kept {msk : Nat} (tag : BitVec 16) {s t : State}
    (hm : 0x86000000000000000000000000000000000000000000000000000000000000000009B058800000000000000000002000 ||| msk = msk) (h : execResetFailedStartCounter tag s = .next t) : Kept msk s t := by
  unfold execResetFailedStartCounter at h
  refine goLive_kept (fun u hk => ?_) h
  try dsimp only
  repeat' first
    | with_reducible assumption | exact Mask.sub hm rfl | with_reducible apply privileged_kept | with_reducible apply adminDone_kept
    | with_reducible apply adminSub_kept | with_reducible apply onBoot_kept | exact fun _ => BootKept.of_eq rfl rfl rfl rfl rfl | split | (intro)
    | (constructor <;> first | exact .inl (Mask.bit hm rfl) | exact .inr (by with_reducible rfl))

theorem execClearFails_kept {msk : Nat}  {s t : State} (hm : 0x2000 ||| msk = msk) (h : execClearFails  s = .next t) : Kept msk s t := by
  unfold execClearFails at h
  refine goLive_kept (fun u hk => ?_) h
  try dsimp only
  repeat' first
    | with_reducible assumption | with_reducible apply onBoot_kept | exact fun _ => BootKept.of_eq rfl rfl rfl rfl rfl | split | (intro)
    | (constructor <;> first | exact .inl (Mask.bit hm rfl) | exact .inr (by with_reducible rfl))

theorem execTableLoad_kept {msk : Nat} (tag : BitVec 16) (data : Bytes) (flashOk : Bool) {s t : State}
    (hm : 0x8600A000000008000002000000000000008000000000000000000000000000000009B058D7F1C000000E000080000000 ||| msk = msk) (h : execTableLoad tag data flashOk s = .next t) : Kept msk s t := by
  unfold execTableLoad at h
  refine goLive_kept (fun u hk => ?_) h
  try dsimp only
  repeat' first
    | with_reducible assumption | exact Mask.sub hm rfl | with_reducible apply loadTable_kept | with_reducible apply adminRun_kept | split
    | (intro)

end Sys2Proof.Machine
end

