-- ==== Sys2Proof/Laws/KeptCommands.lean ====
section
/-! SUPPORT. What the operations and commands of MountOps, Volume, Writes keep (see Laws/Kept.lean). -/

set_option linter.unusedTactic false
set_option linter.unreachableTactic false
set_option linter.unusedVariables false

namespace Sys2Proof.Machine

/-! ## Machine/MountOps.lean -/

theorem recoverPart_kept {msk : Nat} {s0 : State} (f : Found0) (p : Nat) {s : State}
    (hm : 0x400000000006D00000000000001000000000000000000000000 ||| msk = msk) (hk : Kept msk s0 s) : Kept msk s0 (recoverPart f p s) := by
  unfold recoverPart
  try dsimp only
  repeat' first
    | with_reducible assumption | exact Mask.sub hm rfl | with_reducible apply stageEod_kept | with_reducible apply onPart_kept
    | with_reducible apply onVol_kept | with_reducible apply onLantern_kept | split | (intro)
    | (constructor <;> first | exact .inl (Mask.bit hm rfl) | exact .inr (by with_reducible rfl))

theorem freshWrites_kept {msk : Nat} {s0 : State} {s : State} (hm : 0x1C07878400000000000000000000000000000000000000 ||| msk = msk)
    (hk : Kept msk s0 s) : Kept msk s0 (freshWrites s) := by
  unfold freshWrites
  try dsimp only
  repeat' first
    | with_reducible assumption | with_reducible apply onWr_kept | split | (intro)
    | (constructor <;> first | exact .inl (Mask.bit hm rfl) | exact .inr (by with_reducible rfl))

theorem loadHead_kept {msk : Nat} {s0 : State} {s : State} (hm : 0x600801F0000000000000000000000000000000000000000000A000000000000 ||| msk = msk)
    (hk : Kept msk s0 s) : Kept msk s0 (loadHead s) := by
  unfold loadHead
  try dsimp only
  repeat' first
    | with_reducible assumption | with_reducible apply onTrust_kept | with_reducible apply onEcc_kept | with_reducible apply onTiles_kept | split
    | (intro) | (constructor <;> first | exact .inl (Mask.bit hm rfl) | exact .inr (by with_reducible rfl))

theorem writeRebuilt_kept {msk : Nat} {s0 : State} (f : Found0) {s : State}
    (hm : 0x800000000000000000000000000000000000000000000000000000000300000000000000000000000000000000000000 ||| msk = msk) (hk : Kept msk s0 s) : Kept msk s0 (writeRebuilt f s) := by
  unfold writeRebuilt
  try dsimp only
  repeat' first
    | with_reducible assumption | exact Mask.sub hm rfl | with_reducible apply forEach_kept | with_reducible apply writeIndex_kept
    | with_reducible apply writeWraps_kept | with_reducible apply onVol_kept | with_reducible apply cmGroup_kept | split | (intro)

theorem countMount_kept {msk : Nat} {s0 : State} (f : Found0) {s : State}
    (hm : 0x800000000000000000000000000000000000000000000000000000000300000000000000000000000000000000000000 ||| msk = msk) (hk : Kept msk s0 s) : Kept msk s0 (countMount f s) := by
  unfold countMount
  try dsimp only
  repeat' first
    | with_reducible assumption | exact Mask.sub hm rfl | with_reducible apply writeRebuilt_kept | with_reducible apply writeHeader_kept
    | with_reducible apply onVol_kept | split | (intro)

theorem bringVolume_kept {msk : Nat} {s0 : State} (ro : Bool) {s : State}
    (hm : 0x18200A00059805800080A000000087F1F0600901F00005407C01C0787EF0000100000000957F1C000000A000000000000 ||| msk = msk) (hk : Kept msk s0 s) : Kept msk s0 (bringVolume ro s) := by
  unfold bringVolume
  try dsimp only
  repeat' first
    | with_reducible assumption | exact Mask.sub hm rfl | with_reducible apply forEach_kept | with_reducible apply countMount_kept
    | with_reducible apply loadHead_kept | with_reducible apply freshWrites_kept | with_reducible apply recoverPart_kept
    | with_reducible apply dropReads_kept | with_reducible apply lantern_kept | with_reducible apply draw_kept | with_reducible apply when_kept
    | with_reducible apply onCupola_kept | with_reducible apply onDrive_kept | exact fun _ => id
    | exact fun d hd => cartWf_map _ (fun _ => id) d _ _ hd | exact fun d hd => cartWf_map _ (fun _ => Memory.wf_writeBytes _ _) d _ _ hd
    | (intro _ _ _ hc; cases hc; done) | split | (intro)
    | (constructor <;> first | exact .inl (Mask.bit hm rfl) | exact .inr (by with_reducible rfl))

/-! ## Machine/Volume.lean -/

theorem dropDerived_kept {msk : Nat} {s0 : State} {s : State} (hm : 0x2000000000000000000000000000000 ||| msk = msk)
    (hk : Kept msk s0 s) : Kept msk s0 (dropDerived s) := by
  unfold dropDerived
  try dsimp only
  repeat' first
    | with_reducible assumption | with_reducible apply onKeep_kept | split | (intro)
    | (constructor <;> first | exact .inl (Mask.bit hm rfl) | exact .inr (by with_reducible rfl))

theorem loseStaged_kept {msk : Nat} {s0 : State} {s : State}
    (hm : 0x820000000000000000000000000000000000000000000400001C0787E401C00002000008400000000000000000000000 ||| msk = msk) (hk : Kept msk s0 s) : Kept msk s0 (loseStaged s) := by
  unfold loseStaged
  try dsimp only
  repeat' first
    | with_reducible assumption | exact Mask.sub hm rfl | with_reducible apply forEach_kept | with_reducible apply freshWrites_kept
    | with_reducible apply dropItems_kept | with_reducible apply stage_kept | with_reducible apply updateStall_kept
    | with_reducible apply unbindGen_kept | with_reducible apply deviceEvent_kept | split | (intro)

theorem volumeGone_kept {msk : Nat} {s0 : State} {s : State}
    (hm : 0x8000A1E059805800080A000000087F1F0000100000005007C01C07878500000002000000000000000000000000000000 ||| msk = msk) (hk : Kept msk s0 s) : Kept msk s0 (volumeGone s) := by
  unfold volumeGone
  try dsimp only
  repeat' first
    | with_reducible assumption | exact Mask.sub hm rfl | with_reducible apply dropDerived_kept | with_reducible apply freshWrites_kept
    | with_reducible apply linkAtUnmount_kept | with_reducible apply dropReads_kept | with_reducible apply endRun_kept
    | with_reducible apply onDrive_kept | exact fun _ => id | exact fun d hd => cartWf_map _ (fun _ => id) d _ _ hd
    | exact fun d hd => cartWf_map _ (fun _ => Memory.wf_writeBytes _ _) d _ _ hd | (intro _ _ _ hc; cases hc; done) | split | (intro)
    | (constructor <;> first | exact .inl (Mask.bit hm rfl) | exact .inr (by with_reducible rfl))

theorem endVolumeLost_kept {msk : Nat} {s0 : State} (c : Cmd) {s : State}
    (hm : 0x860000000000000000000000000000000000000000000400000000006D0000000209B058800000000000000000000000 ||| msk = msk) (hk : Kept msk s0 s) : Kept msk s0 (endVolumeLost c s) := by
  unfold endVolumeLost
  try dsimp only
  repeat' first
    | with_reducible assumption | exact Mask.sub hm rfl | with_reducible apply zeroRecord_kept | with_reducible apply endWrite_kept
    | with_reducible apply finishCmd_kept | split | (intro)

theorem cartRemoved_kept {msk : Nat} {s0 : State} {s : State}
    (hm : 0x8610A1E059805800080A000000087F1F0000100000005407C01C0787EF81C0000209B058C00000000000000000000002 ||| msk = msk) (hk : Kept msk s0 s) : Kept msk s0 (cartRemoved s) := by
  unfold cartRemoved
  try dsimp only
  repeat' first
    | with_reducible assumption | exact Mask.sub hm rfl | with_reducible apply forEach_kept | with_reducible apply endVolumeLost_kept
    | with_reducible apply volumeGone_kept | with_reducible apply loseStaged_kept | with_reducible apply latch_kept
    | with_reducible apply tidy_kept | with_reducible apply onPins_kept | with_reducible apply onDrive_kept | exact fun _ => id
    | exact fun d hd => cartWf_map _ (fun _ => id) d _ _ hd | exact fun d hd => cartWf_map _ (fun _ => Memory.wf_writeBytes _ _) d _ _ hd
    | (intro _ _ _ hc; cases hc; done) | split | (intro)
    | (constructor <;> first | exact .inl (Mask.bit hm rfl) | exact .inr (by with_reducible rfl))

theorem writeTape_kept {msk : Nat} {s0 : State} {s : State}
    (hm : 0x18000A02059805800C80A014030080200F64010000004511FC01805780700000000000000000001610000000000000000 ||| msk = msk) (hk : Kept msk s0 s) : Kept msk s0 (writeTape s) := by
  unfold writeTape
  try dsimp only
  repeat' first
    | with_reducible assumption | exact Mask.sub hm rfl | with_reducible apply kickWrites_kept | with_reducible apply restartIfAsked_kept
    | with_reducible apply endRun_kept | with_reducible apply retryMemory_kept | with_reducible apply onRd_kept | split | (intro)
    | (constructor <;> first | exact .inl (Mask.bit hm rfl) | exact .inr (by with_reducible rfl))

theorem mountRefused_kept {msk : Nat} {s0 : State} (c : Cmd) (st : Nat) {s : State}
    (hm : 0x8600A00059805800080A000000080000000000000000000000000000020000000009B058800000000000000000000000 ||| msk = msk) (hk : Kept msk s0 s) : Kept msk s0 (mountRefused c st s) := by
  unfold mountRefused
  try dsimp only
  repeat' first
    | with_reducible assumption | exact Mask.sub hm rfl | with_reducible apply startProgram_kept | with_reducible apply cmClose_kept
    | with_reducible apply reply_kept | split | (intro)

theorem mountEnd_kept {msk : Nat} {s0 : State} (c : Cmd) (st : Nat) {s : State}
    (hm : 0x86000000000000000000000000000000000000000000000000000000000000000009B058800000000000000000000000 ||| msk = msk) (hk : Kept msk s0 s) : Kept msk s0 (mountEnd c st s) := by
  unfold mountEnd
  try dsimp only
  repeat' first
    | with_reducible assumption | exact Mask.sub hm rfl | with_reducible apply reply_kept | with_reducible apply onCmd_kept | split | (intro)

theorem mountRecovered_kept {msk : Nat} {s0 : State} (c : Cmd) {s : State}
    (hm : 0x18600A1E059805800C80A014030087F1FF64010000004511FC01C07FF870000000209B058800001610000000000000000 ||| msk = msk) (hk : Kept msk s0 s) : Kept msk s0 (mountRecovered c s) := by
  unfold mountRecovered
  try dsimp only
  repeat' first
    | with_reducible assumption | exact Mask.sub hm rfl | with_reducible apply mountEnd_kept | with_reducible apply writeTape_kept
    | with_reducible apply volumeGone_kept | with_reducible apply endRun_kept | with_reducible apply closeSession_kept
    | with_reducible apply reply_kept | split | (intro)

theorem mountLoaded_kept {msk : Nat} {s0 : State} (c : Cmd) {s : State}
    (hm : 0x18600A00059805800080A000000087F1F0600901F00005407C01C0787EF0000100009B059D7F1C000000A000000000000 ||| msk = msk) (hk : Kept msk s0 s) : Kept msk s0 (mountLoaded c s) := by
  unfold mountLoaded
  try dsimp only
  repeat' first
    | with_reducible assumption | exact Mask.sub hm rfl | with_reducible apply mountEnd_kept | with_reducible apply mountRefused_kept
    | with_reducible apply bringVolume_kept | with_reducible apply writeUsage_kept | with_reducible apply onCmd_kept | split | (intro)

theorem mountThreaded_kept {msk : Nat} {s0 : State} (c : Cmd) {s : State}
    (hm : 0x18600A00059805800080A000000087F1F0600901F00005407C01C0787EF0000100009B059D7F1C000000A000000000000 ||| msk = msk) (hk : Kept msk s0 s) : Kept msk s0 (mountThreaded c s) := by
  unfold mountThreaded
  try dsimp only
  repeat' first
    | with_reducible assumption | exact Mask.sub hm rfl | with_reducible apply mountLoaded_kept | with_reducible apply mountRefused_kept
    | with_reducible apply command_kept | with_reducible apply cmGroup_kept | with_reducible apply onCmd_kept | split | (intro)

theorem mountStep_kept {msk : Nat} {s0 : State} (c : Cmd) {s : State}
    (hm : 0x18600A1E059805800C80A014030087F1FF640901F0004551FC01C07FFEF0000100209B059D7F1C161000A000000000000 ||| msk = msk) (hk : Kept msk s0 s) : Kept msk s0 (mountStep c s) := by
  unfold mountStep
  try dsimp only
  repeat' first
    | with_reducible assumption | exact Mask.sub hm rfl | with_reducible apply mountThreaded_kept | with_reducible apply mountRecovered_kept
    | with_reducible apply mountEnd_kept | with_reducible apply startProgram_kept | with_reducible apply reply_kept
    | with_reducible apply onCmd_kept | split | (intro)

theorem unmountBegin_kept {msk : Nat} {s0 : State} (c : Cmd) {s : State}
    (hm : 0x18600A02059805800C80A014030080200F64010000004551FC01805786F01C0000209B058800001610000000000000000 ||| msk = msk) (hk : Kept msk s0 s) : Kept msk s0 (unmountBegin c s) := by
  unfold unmountBegin
  try dsimp only
  repeat' first
    | with_reducible assumption | exact Mask.sub hm rfl | with_reducible apply forEach_kept | with_reducible apply writeTape_kept
    | with_reducible apply abandonGroup_kept | with_reducible apply stageEod_kept | with_reducible apply onCmd_kept | split | (intro)

theorem discardHeld_kept {msk : Nat} {s0 : State} {s : State}
    (hm : 0x8600A000000000000000000000000000000000000000040000040286ED01C0000209B059D7F1C0000000000000000000 ||| msk = msk) (hk : Kept msk s0 s) : Kept msk s0 (discardHeld s) := by
  unfold discardHeld
  try dsimp only
  repeat' first
    | with_reducible assumption | exact Mask.sub hm rfl | with_reducible apply forEach_kept | with_reducible apply endWritesPast_kept
    | with_reducible apply reportLoss_kept | with_reducible apply discardSets_kept | with_reducible apply dropItems_kept
    | with_reducible apply onWr_kept | split | (intro)
    | (constructor <;> first | exact .inl (Mask.bit hm rfl) | exact .inr (by with_reducible rfl))

theorem unmountDone_kept {msk : Nat} {s0 : State} (c : Cmd) {s : State}
    (hm : 0x8600A1E059805800080A000000087F1F0000100000005007C01C0787870000000209B058800000000000000000000000 ||| msk = msk) (hk : Kept msk s0 s) : Kept msk s0 (unmountDone c s) := by
  unfold unmountDone
  try dsimp only
  repeat' first
    | with_reducible assumption | exact Mask.sub hm rfl | with_reducible apply volumeGone_kept | with_reducible apply cmClose_kept
    | with_reducible apply reply_kept | split | (intro)

theorem unmountClose_kept {msk : Nat} {s0 : State} (c : Cmd) {s : State}
    (hm : 0x18000A00059805800080A000000087F1F0780100000005007C00000000300000002008000000000000000000000000000 ||| msk = msk) (hk : Kept msk s0 s) : Kept msk s0 (unmountClose c s) := by
  unfold unmountClose
  try dsimp only
  repeat' first
    | with_reducible assumption | exact Mask.sub hm rfl | with_reducible apply dropDerived_kept | with_reducible apply dropReads_kept
    | with_reducible apply endRun_kept | with_reducible apply startProgram_kept | with_reducible apply saveTaps_kept
    | with_reducible apply closeSession_kept | with_reducible apply onCmd_kept | split | (intro)

theorem unmountStep_kept {msk : Nat} {s0 : State} (c : Cmd) {s : State}
    (hm : 0x18600A1E059805800C80A014030087F1FF7C010000004551FC01C07FFEF01C0000209B059D7F1C1610000000000000000 ||| msk = msk) (hk : Kept msk s0 s) : Kept msk s0 (unmountStep c s) := by
  unfold unmountStep
  try dsimp only
  repeat' first
    | with_reducible assumption | exact Mask.sub hm rfl | with_reducible apply unmountClose_kept | with_reducible apply unmountDone_kept
    | with_reducible apply discardHeld_kept | with_reducible apply unmountBegin_kept | with_reducible apply writeTape_kept
    | with_reducible apply loseStaged_kept | with_reducible apply restartIfAsked_kept | with_reducible apply startProgram_kept
    | with_reducible apply saveTaps_kept | with_reducible apply reply_kept | split | (intro)

theorem setPosition_kept {msk : Nat} {s0 : State} (p lon : Nat) {s : State} (hm : 0x100000000000000000000000000000000000000 ||| msk = msk)
    (hk : Kept msk s0 s) : Kept msk s0 (setPosition p lon s) := by
  unfold setPosition
  try dsimp only
  repeat' first
    | with_reducible assumption | exact Mask.sub hm rfl | with_reducible apply onVol_kept | split | (intro)

theorem locate_kept {msk : Nat} {s0 : State} (c : Cmd) {s : State}
    (hm : 0x18600A02059805800C80A014030087FFFF64010000004551FC01805786F0000000009B058800001610000000000000000 ||| msk = msk) (hk : Kept msk s0 s) : Kept msk s0 (locate c s) := by
  unfold locate
  try dsimp only
  repeat' first
    | with_reducible assumption | exact Mask.sub hm rfl | with_reducible apply setPosition_kept | with_reducible apply needTape_kept
    | with_reducible apply dropReads_kept | with_reducible apply discardReadAhead_kept | with_reducible apply reply_kept | split | (intro)

theorem readPosition_kept {msk : Nat} {s0 : State} (c : Cmd) {s : State}
    (hm : 0x86000000000000000000000000000000000000000000000000000000000000000009B058800000000000000000000000 ||| msk = msk) (hk : Kept msk s0 s) : Kept msk s0 (readPosition c s) := by
  unfold readPosition
  try dsimp only
  repeat' first
    | with_reducible assumption | exact Mask.sub hm rfl | with_reducible apply reply_kept | with_reducible apply hostWrites_kept | split | (intro)

theorem syncBegin_kept {msk : Nat} {s0 : State} (c : Cmd) {s : State}
    (hm : 0x18600A02059805800C80A014030080200F64010000004551FC01805786F0000000209B058800001610000000000000000 ||| msk = msk) (hk : Kept msk s0 s) : Kept msk s0 (syncBegin c s) := by
  unfold syncBegin
  try dsimp only
  repeat' first
    | with_reducible assumption | exact Mask.sub hm rfl | with_reducible apply writeTape_kept | with_reducible apply settle_kept
    | with_reducible apply reply_kept | with_reducible apply onCmd_kept | split | (intro)

theorem discardFrom_kept {msk : Nat} {s0 : State} (p x : Nat) {s : State}
    (hm : 0x8000A00059805800080A00000008031F0000100000005007C00000000000000000000000000000000000000000000000 ||| msk = msk) (hk : Kept msk s0 s) : Kept msk s0 (discardFrom p x s) := by
  unfold discardFrom
  try dsimp only
  repeat' first
    | with_reducible assumption | exact Mask.sub hm rfl | with_reducible apply endRun_kept | with_reducible apply onRd_kept | split | (intro)
    | (constructor <;> first | exact .inl (Mask.bit hm rfl) | exact .inr (by with_reducible rfl))

theorem rewind_kept {msk : Nat} {s0 : State} (p x : Nat) {s : State}
    (hm : 0x8000A00059805800080A0000000800000000100000005007C00000000100000000000000000000000000000000000000 ||| msk = msk) (hk : Kept msk s0 s) : Kept msk s0 (rewind p x s) := by
  unfold rewind
  try dsimp only
  repeat' first
    | with_reducible assumption | exact Mask.sub hm rfl | with_reducible apply endRun_kept | with_reducible apply onPart_kept | split | (intro)

theorem takeBack_kept {msk : Nat} {s0 : State} (p x : Nat) {s : State}
    (hm : 0x8000A00059805800080A00000008031F0000100000005407C00000006D00000000000000000000000000000000000000 ||| msk = msk) (hk : Kept msk s0 s) : Kept msk s0 (takeBack p x s) := by
  unfold takeBack
  try dsimp only
  repeat' first
    | with_reducible assumption | exact Mask.sub hm rfl | with_reducible apply rewind_kept | with_reducible apply discardFrom_kept
    | with_reducible apply truncateAt_kept | with_reducible apply onPart_kept | split | (intro)

theorem truncate_kept {msk : Nat} {s0 : State} (c : Cmd) {s : State}
    (hm : 0x18600A02059805800C80A01403008031FF64010000004551FC01805786F0000000209B058800001610000000000000000 ||| msk = msk) (hk : Kept msk s0 s) : Kept msk s0 (truncate c s) := by
  unfold truncate
  try dsimp only
  repeat' first
    | with_reducible assumption | exact Mask.sub hm rfl | with_reducible apply takeBack_kept | with_reducible apply writeTape_kept
    | with_reducible apply settle_kept | with_reducible apply reply_kept | with_reducible apply onCmd_kept | split | (intro)

theorem clearTape_kept {msk : Nat} {s0 : State} {s : State}
    (hm : 0x18000A02059805800C80A014030080000F64010000004551FC01805786F00000000000000000001610000000000000000 ||| msk = msk) (hk : Kept msk s0 s) : Kept msk s0 (clearTape s) := by
  unfold clearTape
  try dsimp only
  repeat' first
    | with_reducible assumption | exact Mask.sub hm rfl | with_reducible apply endWrites_kept | with_reducible apply endRun_kept | split | (intro)

theorem refreshAll_kept {msk : Nat} {s0 : State} {s : State} (hm : 0x100000000000000000000000000000000000000 ||| msk = msk)
    (hk : Kept msk s0 s) : Kept msk s0 (refreshAll s) := by
  unfold refreshAll
  try dsimp only
  repeat' first
    | with_reducible assumption | exact Mask.sub hm rfl | with_reducible apply onVol_kept | split | (intro)

theorem refreshIndex_kept {msk : Nat} {s0 : State} {s : State} (hm : 0x100000000000000000000000000000000000000 ||| msk = msk)
    (hk : Kept msk s0 s) : Kept msk s0 (refreshIndex s) := by
  unfold refreshIndex
  try dsimp only
  repeat' first
    | with_reducible assumption | exact Mask.sub hm rfl | with_reducible apply onVol_kept | split | (intro)

theorem refreshStep_kept {msk : Nat} {s0 : State} (c : Cmd) (whole : Bool) {s : State}
    (hm : 0x18600A02059805800C80A014030087F1FF64010000004551FC01805786F0000000009B058800001610000000000000000 ||| msk = msk) (hk : Kept msk s0 s) : Kept msk s0 (refreshStep c whole s) := by
  unfold refreshStep
  try dsimp only
  repeat' first
    | with_reducible assumption | exact Mask.sub hm rfl | with_reducible apply refreshIndex_kept | with_reducible apply refreshAll_kept
    | with_reducible apply clearTape_kept | with_reducible apply command_kept | with_reducible apply dropReads_kept
    | with_reducible apply cmGroup_kept | with_reducible apply reply_kept | with_reducible apply onCmd_kept | split | (intro)

theorem applyMap_kept {msk : Nat} {s0 : State} (m : List (Bool × Nat × Nat)) {s : State}
    (hm : 0x8000A00059805800080A0000000800000000100000005407C00000006D00000000000000000000000000000000000000 ||| msk = msk) (hk : Kept msk s0 s) : Kept msk s0 (applyMap m s) := by
  unfold applyMap
  try dsimp only
  repeat' first
    | with_reducible assumption | exact Mask.sub hm rfl | with_reducible apply forEach_kept | with_reducible apply stageEod_kept
    | with_reducible apply endRun_kept | with_reducible apply onVol_kept | split | (intro)

theorem partitionDone_kept {msk : Nat} {s0 : State} (c : Cmd) {s : State}
    (hm : 0x86000000000000000000000000000000000000000000000000000000030000000009B058800000000000000000000000 ||| msk = msk) (hk : Kept msk s0 s) : Kept msk s0 (partitionDone c s) := by
  unfold partitionDone
  try dsimp only
  repeat' first
    | with_reducible assumption | exact Mask.sub hm rfl | with_reducible apply writeWraps_kept | with_reducible apply writeHeader_kept
    | with_reducible apply reply_kept | with_reducible apply onCmd_kept | split | (intro)

theorem eodsDue_kept {msk : Nat} {s0 : State} {s : State} (hm : 0x400000000006D00000000000000000000000000000000000000 ||| msk = msk)
    (hk : Kept msk s0 s) : Kept msk s0 (eodsDue s) := by
  unfold eodsDue
  try dsimp only
  repeat' first
    | with_reducible assumption | exact Mask.sub hm rfl | with_reducible apply forEach_kept | with_reducible apply stageEod_kept | split | (intro)

theorem partitionStep_kept {msk : Nat} {s0 : State} (c : Cmd) {s : State}
    (hm : 0x18600A02059805800C80A014030087F1FF64010000004551FC01805786F0000000009B058800001610000000000000000 ||| msk = msk) (hk : Kept msk s0 s) : Kept msk s0 (partitionStep c s) := by
  unfold partitionStep
  try dsimp only
  repeat' first
    | with_reducible assumption | exact Mask.sub hm rfl | with_reducible apply eodsDue_kept | with_reducible apply partitionDone_kept
    | with_reducible apply applyMap_kept | with_reducible apply writeTape_kept | with_reducible apply discardReadAhead_kept
    | with_reducible apply reply_kept | with_reducible apply onCmd_kept | split | (intro)

theorem execCartRemoved_kept {msk : Nat}  {s t : State}
    (hm : 0x8610A1E059805800080A000000087F1F0000100000005407C01C0787EF81C0000209B058C00000000000000000000002 ||| msk = msk) (h : execCartRemoved  s = .next t) : Kept msk s t := by
  unfold execCartRemoved at h
  refine go_kept (fun u hk => ?_) h
  try dsimp only
  repeat' first
    | with_reducible assumption | exact Mask.sub hm rfl | with_reducible apply cartRemoved_kept | split | (intro)

theorem execCartInserted_kept {msk : Nat} (c : Cartridge) {s t : State}
    (hm : 0x8010A0000000000000000000040000000000000000000000000000000280000000000000000000000000000000000002 ||| msk = msk) (h : execCartInserted c s = .next t) : Kept msk s t := by
  unfold execCartInserted at h
  refine go_kept (fun u hk => ?_) h
  try dsimp only
  repeat' first
    | with_reducible assumption | exact Mask.sub hm rfl | with_reducible apply latch_kept | with_reducible apply onPins_kept
    | with_reducible apply onDrive_kept | with_reducible apply onStp_kept | (intro _ _ _ hc; cases hc; exact Memory.wf_canon _)
    | exact fun _ => id | exact fun d hd => cartWf_map _ (fun _ => id) d _ _ hd
    | exact fun d hd => cartWf_map _ (fun _ => Memory.wf_writeBytes _ _) d _ _ hd | (intro _ _ _ hc; cases hc; done) | split | (intro)
    | (constructor <;> first | exact .inl (Mask.bit hm rfl) | exact .inr (by with_reducible rfl))

theorem execMount_kept {msk : Nat} (q : Fin 256) (tag : BitVec 16) {s t : State}
    (hm : 0x18600A1E059805800C80A014030087F1FF640901F0004551FC01C07FFEF0000100209B059D7F1C161000A000000000000 ||| msk = msk) (h : execMount q tag s = .next t) : Kept msk s t := by
  unfold execMount at h
  refine goLive_kept (fun u hk => ?_) h
  try dsimp only
  repeat' first
    | with_reducible assumption | exact Mask.sub hm rfl | with_reducible apply mountStep_kept | split | (intro)

theorem execUnmount_kept {msk : Nat} (q : Fin 256) (tag : BitVec 16) {s t : State}
    (hm : 0x18600A1E059805800C80A014030087F1FF7C010000004551FC01C07FFEF01C0000209B059D7F1C1610000000000000000 ||| msk = msk) (h : execUnmount q tag s = .next t) : Kept msk s t := by
  unfold execUnmount at h
  refine goLive_kept (fun u hk => ?_) h
  try dsimp only
  repeat' first
    | with_reducible assumption | exact Mask.sub hm rfl | with_reducible apply unmountStep_kept | split | (intro)

theorem execLocate_kept {msk : Nat} (q : Fin 256) (tag : BitVec 16) {s t : State}
    (hm : 0x18600A02059805800C80A014030087FFFF64010000004551FC01805786F0000000009B058800001610000000000000000 ||| msk = msk) (h : execLocate q tag s = .next t) : Kept msk s t := by
  unfold execLocate at h
  refine goLive_kept (fun u hk => ?_) h
  try dsimp only
  repeat' first
    | with_reducible assumption | exact Mask.sub hm rfl | with_reducible apply locate_kept | split | (intro)

theorem execReadPosition_kept {msk : Nat} (q : Fin 256) (tag : BitVec 16) {s t : State}
    (hm : 0x86000000000000000000000000000000000000000000000000000000000000000009B058800000000000000000000000 ||| msk = msk) (h : execReadPosition q tag s = .next t) : Kept msk s t := by
  unfold execReadPosition at h
  refine goLive_kept (fun u hk => ?_) h
  try dsimp only
  repeat' first
    | with_reducible assumption | exact Mask.sub hm rfl | with_reducible apply readPosition_kept | split | (intro)

theorem execSync_kept {msk : Nat} (q : Fin 256) (tag : BitVec 16) {s t : State}
    (hm : 0x18600A02059805800C80A014030080200F64010000004551FC01805786F0000000209B058800001610000000000000000 ||| msk = msk) (h : execSync q tag s = .next t) : Kept msk s t := by
  unfold execSync at h
  refine goLive_kept (fun u hk => ?_) h
  try dsimp only
  repeat' first
    | with_reducible assumption | exact Mask.sub hm rfl | with_reducible apply syncBegin_kept | split | (intro)

theorem execFence_kept {msk : Nat} (q : Fin 256) (tag : BitVec 16) {s t : State}
    (hm : 0x86000000000000000000000000000000000000000000000000000000000000000009B058800000000000000000000000 ||| msk = msk) (h : execFence q tag s = .next t) : Kept msk s t := by
  unfold execFence at h
  refine goLive_kept (fun u hk => ?_) h
  try dsimp only
  repeat' first
    | with_reducible assumption | exact Mask.sub hm rfl | with_reducible apply tidy_kept | with_reducible apply onCmd_kept | split | (intro)

theorem execTruncate_kept {msk : Nat} (q : Fin 256) (tag : BitVec 16) {s t : State}
    (hm : 0x18600A02059805800C80A01403008031FF64010000004551FC01805786F0000000209B058800001610000000000000000 ||| msk = msk) (h : execTruncate q tag s = .next t) : Kept msk s t := by
  unfold execTruncate at h
  refine goLive_kept (fun u hk => ?_) h
  try dsimp only
  repeat' first
    | with_reducible assumption | exact Mask.sub hm rfl | with_reducible apply truncate_kept | split | (intro)

theorem execRefreshFullRebuild_kept {msk : Nat} (q : Fin 256) (tag : BitVec 16) {s t : State}
    (hm : 0x18600A02059805800C80A014030087F1FF64010000004551FC01805786F0000000009B058800001610000000000000000 ||| msk = msk) (h : execRefreshFullRebuild q tag s = .next t) : Kept msk s t := by
  unfold execRefreshFullRebuild at h
  refine goLive_kept (fun u hk => ?_) h
  try dsimp only
  repeat' first
    | with_reducible assumption | exact Mask.sub hm rfl | with_reducible apply refreshStep_kept | split | (intro)

theorem execRefreshLocateIndex_kept {msk : Nat} (q : Fin 256) (tag : BitVec 16) {s t : State}
    (hm : 0x18600A02059805800C80A014030087F1FF64010000004551FC01805786F0000000009B058800001610000000000000000 ||| msk = msk) (h : execRefreshLocateIndex q tag s = .next t) : Kept msk s t := by
  unfold execRefreshLocateIndex at h
  refine goLive_kept (fun u hk => ?_) h
  try dsimp only
  repeat' first
    | with_reducible assumption | exact Mask.sub hm rfl | with_reducible apply refreshStep_kept | split | (intro)

theorem execPartition_kept {msk : Nat} (q : Fin 256) (tag : BitVec 16) {s t : State}
    (hm : 0x18600A02059805800C80A014030087F1FF64010000004551FC01805786F0000000009B058800001610000000000000000 ||| msk = msk) (h : execPartition q tag s = .next t) : Kept msk s t := by
  unfold execPartition at h
  refine goLive_kept (fun u hk => ?_) h
  try dsimp only
  repeat' first
    | with_reducible assumption | exact Mask.sub hm rfl | with_reducible apply partitionStep_kept | split | (intro)

/-! ## Machine/Writes.lean -/

theorem handItem_kept {msk : Nat} {s0 : State} (it : StreamItem) {s : State} (hm : 0x3000000000000000000000000000000000000 ||| msk = msk)
    (hk : Kept msk s0 s) : Kept msk s0 (handItem it s) := by
  unfold handItem
  try dsimp only
  repeat' first
    | with_reducible assumption | with_reducible apply onCz_kept | split | (intro)
    | (constructor <;> first | exact .inl (Mask.bit hm rfl) | exact .inr (by with_reducible rfl))

theorem joinGroup_kept {msk : Nat} {s0 : State} (c : Cmd) (bytes : Nat) {s : State} (hm : 0x100000000000000000000000000000000000000 ||| msk = msk)
    (hk : Kept msk s0 s) : Kept msk s0 (joinGroup c bytes s) := by
  unfold joinGroup
  try dsimp only
  repeat' first
    | with_reducible assumption | exact Mask.sub hm rfl | with_reducible apply onPart_kept | split | (intro)

theorem bindWrite_kept {msk : Nat} {s0 : State} (c : Cmd) (sel : CipherSel) (n : Nat) {s : State}
    (hm : 0x2008000000000000000000000000000 ||| msk = msk) (hk : Kept msk s0 s) : Kept msk s0 (bindWrite c sel n s) := by
  unfold bindWrite
  try dsimp only
  repeat' first
    | with_reducible assumption | exact Mask.sub hm rfl | with_reducible apply bindGen_kept | with_reducible apply onGen_kept
    | with_reducible apply onCmd_kept | split | (intro)

theorem takeWrite_kept {msk : Nat} {s0 : State} (c : Cmd) (sel : CipherSel) (reserve bytes : Nat) (items : List StreamItem) {s : State}
    (hm : 0x8600A00059805800080A00000008031F0000100000005C07C00000006D1BC0000209B058800000010000000000000000 ||| msk = msk) (hk : Kept msk s0 s) : Kept msk s0 (takeWrite c sel reserve bytes items s) := by
  unfold takeWrite
  try dsimp only
  repeat' first
    | with_reducible assumption | exact Mask.sub hm rfl | with_reducible apply forEach_kept | with_reducible apply bindWrite_kept
    | with_reducible apply joinGroup_kept | with_reducible apply handItem_kept | with_reducible apply takeBack_kept
    | with_reducible apply discardFrom_kept | with_reducible apply pack_kept | with_reducible apply onCmd_kept
    | with_reducible apply needDomains_kept | split | (intro)

theorem refuseWrite_kept {msk : Nat} {s0 : State} (c : Cmd) (st : Nat) {s : State}
    (hm : 0x860000000000000000000000000000000000000000000400000000006D0000000209B058800000000000000000000000 ||| msk = msk) (hk : Kept msk s0 s) : Kept msk s0 (refuseWrite c st s) := by
  unfold refuseWrite
  try dsimp only
  repeat' first
    | with_reducible assumption | exact Mask.sub hm rfl | with_reducible apply finishCmd_kept | with_reducible apply stageEod_kept | split
    | (intro)

theorem admitWrite_kept {msk : Nat} {s0 : State} (c : Cmd) (bytes reserve : Nat) (items : CipherSel → List StreamItem) {s : State}
    (hm : 0x8600A00059805800080A00000008031F0000100000005C07C00000006D1BC0000209B058800000010000000000000000 ||| msk = msk) (hk : Kept msk s0 s) : Kept msk s0 (admitWrite c bytes reserve items s) := by
  unfold admitWrite
  try dsimp only
  repeat' first
    | with_reducible assumption | exact Mask.sub hm rfl | with_reducible apply refuseWrite_kept | with_reducible apply takeWrite_kept | split
    | (intro)

theorem admitTried_kept {msk : Nat} {s0 : State} (c : Cmd) (bytes reserve : Nat) (items : CipherSel → List StreamItem) {s : State}
    (hm : 0x18600A00059805800080A00000008031F0000100000005C07C00000006F1BC0000209B058800000010000000000000000 ||| msk = msk) (hk : Kept msk s0 s) : Kept msk s0 (admitTried c bytes reserve items s) := by
  unfold admitTried
  try dsimp only
  repeat' first
    | with_reducible assumption | exact Mask.sub hm rfl | with_reducible apply admitWrite_kept | with_reducible apply retryMemory_kept
    | with_reducible apply onCmd_kept | split | (intro)

theorem writeCmd_kept {msk : Nat} {s0 : State} (c : Cmd) (lengths : List Nat) (data : Bytes) {s : State}
    (hm : 0x18600A00059805800080A00000008031F0000100000005C07C00000006F1BC0000209B058800000010000000000000000 ||| msk = msk) (hk : Kept msk s0 s) : Kept msk s0 (writeCmd c lengths data s) := by
  unfold writeCmd
  try dsimp only
  repeat' first
    | with_reducible assumption | exact Mask.sub hm rfl | with_reducible apply admitTried_kept | with_reducible apply reply_kept | split | (intro)

theorem writeMark_kept {msk : Nat} {s0 : State} (c : Cmd) {s : State}
    (hm : 0x18600A00059805800080A00000008031F0000100000005C07C00000006F1BC0000209B058800000010000000000000000 ||| msk = msk) (hk : Kept msk s0 s) : Kept msk s0 (writeMark c s) := by
  unfold writeMark
  try dsimp only
  repeat' first
    | with_reducible assumption | exact Mask.sub hm rfl | with_reducible apply admitTried_kept | split | (intro)

theorem execWrite_kept {msk : Nat} (q : Fin 256) (tag : BitVec 16) (lengths : List Nat) (data : Bytes) {s t : State}
    (hm : 0x18600A00059805800080A00000008031F0000100000005C07C00000006F1BC0000209B058800000010000000000000000 ||| msk = msk) (h : execWrite q tag lengths data s = .next t) : Kept msk s t := by
  unfold execWrite at h
  refine goLive_kept (fun u hk => ?_) h
  try dsimp only
  repeat' first
    | with_reducible assumption | exact Mask.sub hm rfl | with_reducible apply writeCmd_kept | split | (intro)

theorem execWriteMark_kept {msk : Nat} (q : Fin 256) (tag : BitVec 16) {s t : State}
    (hm : 0x18600A00059805800080A00000008031F0000100000005C07C00000006F1BC0000209B058800000010000000000000000 ||| msk = msk) (h : execWriteMark q tag s = .next t) : Kept msk s t := by
  unfold execWriteMark at h
  refine goLive_kept (fun u hk => ?_) h
  try dsimp only
  repeat' first
    | with_reducible assumption | exact Mask.sub hm rfl | with_reducible apply writeMark_kept | split | (intro)

end Sys2Proof.Machine
end

