-- ==== Sys2Proof/Laws/Frames.lean ====
section
/-! SUPPORT. From a mask to the named fields: what is kept outside a mask is the same outside a list of fields with that mask. -/

namespace Sys2Proof.Machine

/-- The mask of a list of fields: bit k for the field with index k. -/
def fieldMask : List Field → Nat
  | [] => 0
  | f :: l => 2 ^ f.ctorIdx ||| fieldMask l

theorem Field.ctorIdx_inj {f g : Field} (h : f.ctorIdx = g.ctorIdx) : f = g := by
  rw [← Field.ofNat_ctorIdx f, ← Field.ofNat_ctorIdx g, h]

theorem fieldMask_mem {l : List Field} {f : Field} (h : (fieldMask l).testBit f.ctorIdx = true) : f ∈ l := by
  induction l with
  | nil => simp [fieldMask] at h
  | cons g l ih =>
    rw [fieldMask, Nat.testBit_lor, Bool.or_eq_true] at h
    rcases h with h | h
    · rw [Nat.testBit_two_pow] at h
      exact List.mem_cons.mpr (.inl (Field.ctorIdx_inj (f := g) (by simpa using h)).symm)
    · exact List.mem_cons_of_mem _ (ih h)

/-- A field whose bit is not in the mask is the same before and after. -/
theorem Kept.same {m : Nat} {s t : State} (h : Kept m s t) (f : Field) (hf : m.testBit f.ctorIdx = false) : f.same s t := by
  have key : ∀ {i : Nat} {p : Prop}, (m.testBit i = true ∨ p) → m.testBit i = false → p := fun o n => o.resolve_left (by simp [n])
  cases f with
  | pinsPresenceN => exact key h.pins.presenceN hf
  | pinsCartPresentN => exact key h.pins.cartPresentN hf
  | pinsShockN => exact key h.pins.shockN hf
  | pinsMotFaultN => exact key h.pins.motFaultN hf
  | pinsPwrGood => exact key h.pins.pwrGood hf
  | pinsSysResetN => exact key h.pins.sysResetN hf
  | pinsTestEn => exact key h.pins.testEn hf
  | pinsGpio => exact key h.pins.gpio hf
  | pinsStraps => exact key h.pins.straps hf
  | pinsAlarmAsserted => exact key h.pins.alarmAsserted hf
  | pinsMotEn => exact key h.pins.motEn hf
  | bootPhase => exact key h.boot.phase hf
  | bootPreferred => exact key h.boot.preferred hf
  | bootFails => exact key h.boot.fails hf
  | bootSlotA => exact key h.boot.slotA hf
  | bootSlotB => exact key h.boot.slotB hf
  | bootCause => exact key h.boot.cause hf
  | bootBootCount => exact key h.boot.bootCount hf
  | bootConfirmed => exact key h.boot.confirmed hf
  | bootStraps => exact key h.boot.straps hf
  | bootSlot => exact key h.boot.slot hf
  | bootVersion => exact key h.boot.version hf
  | bootReady => exact key h.boot.ready hf
  | bootWatchdog => exact key h.boot.watchdog hf
  | bootEpoch => exact key h.boot.epoch hf
  | bootMinVersion => exact key h.boot.minVersion hf
  | bootSerial => exact key h.boot.serial hf
  | bootRootHashes => exact key h.boot.rootHashes hf
  | bootRootsRevoked => exact key h.boot.rootsRevoked hf
  | bootDeviceSecret => exact key h.boot.deviceSecret hf
  | bootEndorsement => exact key h.boot.endorsement hf
  | bootFlash => exact key h.boot.flash hf
  | bootStaged => exact key h.boot.staged hf
  | bootStagedOk => exact key h.boot.stagedOk hf
  | bootStagedPermit => exact key h.boot.stagedPermit hf
  | bootActivation => exact key h.boot.activation hf
  | bootFromPs4 => exact key h.boot.fromPs4 hf
  | bootKeepFault => exact key h.boot.keepFault hf
  | trustPress => exact key h.trust.press hf
  | trustSealOk => exact key h.trust.sealOk hf
  | trustSealBroken => exact key h.trust.sealBroken hf
  | trustLfsr => exact key h.trust.lfsr hf
  | trustMismatches => exact key h.trust.mismatches hf
  | trustDebug => exact key h.trust.debug hf
  | trustPermit => exact key h.trust.permit hf
  | trustCause => exact key h.trust.cause hf
  | trustLifetime => exact key h.trust.lifetime hf
  | trustTableKey => exact key h.trust.tableKey hf
  | trustSigners => exact key h.trust.signers hf
  | trustTables => exact key h.trust.tables hf
  | trustSteepleNext => exact key h.trust.steepleNext hf
  | trustHeadNext => exact key h.trust.headNext hf
  | trustSubsystem => exact key h.trust.subsystem hf
  | powerTime => exact key h.power.time hf
  | powerFrac => exact key h.power.frac hf
  | powerRefA => exact key h.power.refA hf
  | powerRefB => exact key h.power.refB hf
  | powerSrc => exact key h.power.src hf
  | powerLifeBase => exact key h.power.lifeBase hf
  | powerLifeAt => exact key h.power.lifeAt hf
  | powerLifeMram => exact key h.power.lifeMram hf
  | powerPstate => exact key h.power.pstate hf
  | powerEntering => exact key h.power.entering hf
  | powerPs4Due => exact key h.power.ps4Due hf
  | powerDomOn => exact key h.power.domOn hf
  | powerDomFault => exact key h.power.domFault hf
  | powerRails => exact key h.power.rails hf
  | powerVop => exact key h.power.vop hf
  | powerVout => exact key h.power.vout hf
  | powerAvsTarget => exact key h.power.avsTarget hf
  | powerAvsTries => exact key h.power.avsTries hf
  | powerAvsHold => exact key h.power.avsHold hf
  | powerAvsFailed => exact key h.power.avsFailed hf
  | powerCntAvsFail => exact key h.power.cntAvsFail hf
  | powerCntHoldover => exact key h.power.cntHoldover hf
  | powerJunction => exact key h.power.junction hf
  | powerHotMs => exact key h.power.hotMs hf
  | powerCoolMs => exact key h.power.coolMs hf
  | lanternPinnedRecs => exact key h.lantern.pinnedRecs hf
  | lanternRing => exact key h.lantern.ring hf
  | lanternRseq => exact key h.lantern.rseq hf
  | lanternCfg => exact key h.lantern.cfg hf
  | lanternTrigCode => exact key h.lantern.trigCode hf
  | lanternTrigPost => exact key h.lantern.trigPost hf
  | lanternArmed => exact key h.lantern.armed hf
  | lanternFired => exact key h.lantern.fired hf
  | lanternPostLeft => exact key h.lantern.postLeft hf
  | lanternPinFull => exact key h.lantern.pinFull hf
  | lanternSecond => exact key h.lantern.second hf
  | lanternRate => exact key h.lantern.rate hf
  | lanternSuppressed => exact key h.lantern.suppressed hf
  | lanternOutOfService => exact key h.lantern.outOfService hf
  | lanternCntSuppr => exact key h.lantern.cntSuppr hf
  | lanternCntTorn => exact key h.lantern.cntTorn hf
  | lanternEvents => exact key h.lantern.events hf
  | lanternKeptOutcomes => exact key h.lantern.keptOutcomes hf
  | lanternReport => exact key h.lantern.report hf
  | hostPortA => exact key h.host.portA hf
  | hostPortB => exact key h.host.portB hf
  | hostPba => exact key h.host.pba hf
  | hostEnable => exact key h.host.enable hf
  | hostCfgErr => exact key h.host.cfgErr hf
  | hostResetBusy => exact key h.host.resetBusy hf
  | hostAqSize => exact key h.host.aqSize hf
  | hostAqSqbLo => exact key h.host.aqSqbLo hf
  | hostAqSqbHi => exact key h.host.aqSqbHi hf
  | hostAqCqbLo => exact key h.host.aqCqbLo hf
  | hostAqCqbHi => exact key h.host.aqCqbHi hf
  | hostQps => exact key h.host.qps hf
  | hostNextOrder => exact key h.host.nextOrder hf
  | hostLastFetched => exact key h.host.lastFetched hf
  | hostCmds => exact key h.host.cmds hf
  | hostResetting => exact key h.host.resetting hf
  | hostHoldForSwitch => exact key h.host.holdForSwitch hf
  | hostResetAfterSwitch => exact key h.host.resetAfterSwitch hf
  | hostGroups => exact key h.host.groups hf
  | hostFloor => exact key h.host.floor hf
  | hostCntFailover => exact key h.host.cntFailover hf
  | hostCntDbErr => exact key h.host.cntDbErr hf
  | hostCntRepost => exact key h.host.cntRepost hf
  | hostCntBadAcc => exact key h.host.cntBadAcc hf
  | keepSlots => exact key h.keep.slots hf
  | keepTransport => exact key h.keep.transport hf
  | keepLoadSeq => exact key h.keep.loadSeq hf
  | keepCopyOk => exact key h.keep.copyOk hf
  | keepErased => exact key h.keep.erased hf
  | keepCtxKek => exact key h.keep.ctxKek hf
  | keepSpillSerial => exact key h.keep.spillSerial hf
  | keepSpillLatest => exact key h.keep.spillLatest hf
  | keepCntLoadFail => exact key h.keep.cntLoadFail hf
  | cupolaCfg => exact key h.cupola.cfg hf
  | cupolaInService => exact key h.cupola.inService hf
  | cupolaNonce => exact key h.cupola.nonce hf
  | cupolaCtxs => exact key h.cupola.ctxs hf
  | cupolaSpilled => exact key h.cupola.spilled hf
  | cupolaCntInv => exact key h.cupola.cntInv hf
  | cupolaCntTagFail => exact key h.cupola.cntTagFail hf
  | cupolaCntWithdraw => exact key h.cupola.cntWithdraw hf
  | cupolaCntCorErr => exact key h.cupola.cntCorErr hf
  | cupolaCntReplay => exact key h.cupola.cntReplay hf
  | czCfg => exact key h.cz.cfg hf
  | czInService => exact key h.cz.inService hf
  | czEngines => exact key h.cz.engines hf
  | czFinished => exact key h.cz.finished hf
  | czSource => exact key h.cz.source hf
  | czNextOrder => exact key h.cz.nextOrder hf
  | czDecomp => exact key h.cz.decomp hf
  | czBytesIn => exact key h.cz.bytesIn hf
  | czBytesOut => exact key h.cz.bytesOut hf
  | czCntRaw => exact key h.cz.cntRaw hf
  | czCntErr => exact key h.cz.cntErr hf
  | driveCart => exact key h.drive.cart hf
  | driveVol => exact key h.drive.vol hf
  | driveLink => exact key h.drive.link hf
  | wrSets => exact key h.wr.sets hf
  | wrNextId => exact key h.wr.nextId hf
  | wrStackOk => exact key h.wr.stackOk hf
  | wrStalled => exact key h.wr.stalled hf
  | wrStallAt => exact key h.wr.stallAt hf
  | wrDomesReady => exact key h.wr.domesReady hf
  | wrDomesReleased => exact key h.wr.domesReleased hf
  | wrClosed => exact key h.wr.closed hf
  | wrAbsent => exact key h.wr.absent hf
  | wrWrap => exact key h.wr.wrap hf
  | wrSlot => exact key h.wr.slot hf
  | wrResumeAt => exact key h.wr.resumeAt hf
  | wrPart => exact key h.wr.part hf
  | wrCommits => exact key h.wr.commits hf
  | wrAnchor => exact key h.wr.anchor hf
  | wrRewrites => exact key h.wr.rewrites hf
  | wrSkipLeft => exact key h.wr.skipLeft hf
  | wrHistory => exact key h.wr.history hf
  | wrTokens => exact key h.wr.tokens hf
  | wrInhibited => exact key h.wr.inhibited hf
  | wrSources => exact key h.wr.sources hf
  | wrPesGood => exact key h.wr.pesGood hf
  | wrHoldUntil => exact key h.wr.holdUntil hf
  | wrNoResume => exact key h.wr.noResume hf
  | wrRequeued => exact key h.wr.requeued hf
  | wrWrapEnding => exact key h.wr.wrapEnding hf
  | wrNoFirst => exact key h.wr.noFirst hf
  | wvnNew => exact key h.wvn.new hf
  | wvnCtrl => exact key h.wvn.ctrl hf
  | wvnFixed => exact key h.wvn.fixed hf
  | wvnSetpt => exact key h.wvn.setpt hf
  | wvnGain => exact key h.wvn.gain hf
  | wvnRate => exact key h.wvn.rate hf
  | wvnBh => exact key h.wvn.bh hf
  | wvnBh2 => exact key h.wvn.bh2 hf
  | wvnVtable => exact key h.wvn.vtable hf
  | wvnState => exact key h.wvn.state hf
  | wvnRun => exact key h.wvn.run hf
  | wvnR => exact key h.wvn.r hf
  | wvnStartDue => exact key h.wvn.startDue hf
  | wvnRPending => exact key h.wvn.rPending hf
  | wvnVPending => exact key h.wvn.vPending hf
  | wvnRCmd => exact key h.wvn.rCmd hf
  | wvnH => exact key h.wvn.h hf
  | wvnRho => exact key h.wvn.rho hf
  | wvnInteg => exact key h.wvn.integ hf
  | wvnFrozen => exact key h.wvn.frozen hf
  | wvnSlewRest => exact key h.wvn.slewRest hf
  | wvnStallTicks => exact key h.wvn.stallTicks hf
  | wvnMoved => exact key h.wvn.moved hf
  | wvnDwellMs => exact key h.wvn.dwellMs hf
  | wvnStoppedAt => exact key h.wvn.stoppedAt hf
  | wvnRefused => exact key h.wvn.refused hf
  | wvnCapV => exact key h.wvn.capV hf
  | wvnCapM => exact key h.wvn.capM hf
  | wvnCapT => exact key h.wvn.capT hf
  | wvnBand => exact key h.wvn.band hf
  | wvnMarginOfs => exact key h.wvn.marginOfs hf
  | wvnMarginMs => exact key h.wvn.marginMs hf
  | wvnTurns => exact key h.wvn.turns hf
  | wvnUpdates => exact key h.wvn.updates hf
  | wvnCntBh => exact key h.wvn.cntBh hf
  | wvnCntTurn => exact key h.wvn.cntTurn hf
  | wvnCntStall => exact key h.wvn.cntStall hf
  | eccLdpcCfg => exact key h.ecc.ldpcCfg hf
  | eccRsCfg => exact key h.ecc.rsCfg hf
  | eccEscCfg => exact key h.ecc.escCfg hf
  | eccVfyCfg => exact key h.ecc.vfyCfg hf
  | eccVfyCfg2 => exact key h.ecc.vfyCfg2 hf
  | eccWinhCfg => exact key h.ecc.winhCfg hf
  | eccDead0 => exact key h.ecc.dead0 hf
  | eccDeadHead => exact key h.ecc.deadHead hf
  | eccDead1 => exact key h.ecc.dead1 hf
  | eccRun0 => exact key h.ecc.run0 hf
  | eccRun1 => exact key h.ecc.run1 hf
  | eccInService => exact key h.ecc.inService hf
  | eccCntL3 => exact key h.ecc.cntL3 hf
  | eccCntDome => exact key h.ecc.cntDome hf
  | eccCntUnrec => exact key h.ecc.cntUnrec hf
  | eccCntRewrite => exact key h.ecc.cntRewrite hf
  | eccCntInhibit => exact key h.ecc.cntInhibit hf
  | eccCntSkip => exact key h.ecc.cntSkip hf
  | tilesChans => exact key h.tiles.chans hf
  | tilesSyncCfg => exact key h.tiles.syncCfg hf
  | tilesTapIdx => exact key h.tiles.tapIdx hf
  | tilesWtrim => exact key h.tiles.wtrim hf
  | tilesWdly => exact key h.tiles.wdly hf
  | tilesRetry => exact key h.tiles.retry hf
  | tilesRetryCtl => exact key h.tiles.retryCtl hf
  | tilesWfifo => exact key h.tiles.wfifo hf
  | tilesWfifoAt => exact key h.tiles.wfifoAt hf
  | tilesInService => exact key h.tiles.inService hf
  | tilesModule => exact key h.tiles.module hf
  | tilesSavedTaps => exact key h.tiles.savedTaps hf
  | tilesTapsHead => exact key h.tiles.tapsHead hf
  | tilesMountTaps => exact key h.tiles.mountTaps hf
  | tilesModulesUsed => exact key h.tiles.modulesUsed hf
  | tilesNNom => exact key h.tiles.nNom hf
  | tilesDeskewed => exact key h.tiles.deskewed hf
  | tilesArrivals => exact key h.tiles.arrivals hf
  | tilesAsm => exact key h.tiles.asm hf
  | tilesVerifies => exact key h.tiles.verifies hf
  | rdSets => exact key h.rd.sets hf
  | rdFailed => exact key h.rd.failed hf
  | rdHoles => exact key h.rd.holes hf
  | rdPackets => exact key h.rd.packets hf
  | rdBadBlocks => exact key h.rd.badBlocks hf
  | rdPart => exact key h.rd.part hf
  | rdWrap => exact key h.rd.wrap hf
  | rdSlot => exact key h.rd.slot hf
  | rdCovers => exact key h.rd.covers hf
  | rdActive => exact key h.rd.active hf
  | rdEnded => exact key h.rd.ended hf
  | rdExpected => exact key h.rd.expected hf
  | rdSure => exact key h.rd.sure hf
  | rdAccepted => exact key h.rd.accepted hf
  | rdRetry => exact key h.rd.retry hf
  | rdMenu => exact key h.rd.menu hf
  | rdResume => exact key h.rd.resume hf
  | rdNextStack => exact key h.rd.nextStack hf
  | rdCopySlot => exact key h.rd.copySlot hf
  | stpMode => exact key h.stp.mode hf
  | stpSt1 => exact key h.stp.st1 hf
  | stpStandbyOk => exact key h.stp.standbyOk hf
  | stpBand => exact key h.stp.band hf
  | stpWinTu => exact key h.stp.winTu hf
  | stpWinSup => exact key h.stp.winSup hf
  | stpReaders => exact key h.stp.readers hf
  | stpTapeIds => exact key h.stp.tapeIds hf
  | stpReels => exact key h.stp.reels hf
  | stpSpeedOk => exact key h.stp.speedOk hf
  | stpSpeedFrames => exact key h.stp.speedFrames hf
  | stpOneBand => exact key h.stp.oneBand hf
  | stpBySrv => exact key h.stp.bySrv hf
  | stpRcOn => exact key h.stp.rcOn hf
  | stpWinh => exact key h.stp.winh hf
  | stpCoefIdx => exact key h.stp.coefIdx hf
  | stpV => exact key h.stp.v hf
  | stpAccel => exact key h.stp.accel hf
  | stpWvnSpeed => exact key h.stp.wvnSpeed hf
  | stpVSet => exact key h.stp.vSet hf
  | stpVRef => exact key h.stp.vRef hf
  | stpVAcc => exact key h.stp.vAcc hf
  | stpLpos => exact key h.stp.lpos hf
  | stpFrame => exact key h.stp.frame hf
  | stpPosRest => exact key h.stp.posRest hf
  | stpLposValid => exact key h.stp.lposValid hf
  | stpErrL => exact key h.stp.errL hf
  | stpErrU => exact key h.stp.errU hf
  | stpTheta => exact key h.stp.theta hf
  | stpThetaHist => exact key h.stp.thetaHist hf
  | stpThetaCal => exact key h.stp.thetaCal hf
  | stpThetaHead => exact key h.stp.thetaHead hf
  | stpTheta0 => exact key h.stp.theta0 hf
  | stpTiltFixed => exact key h.stp.tiltFixed hf
  | stpTiltOut => exact key h.stp.tiltOut hf
  | stpLaws => exact key h.stp.laws hf
  | stpEstErr => exact key h.stp.estErr hf
  | stpEstRate => exact key h.stp.estRate hf
  | stpBandGap => exact key h.stp.bandGap hf
  | stpEventCode => exact key h.stp.eventCode hf
  | stpAccIdWait => exact key h.stp.accIdWait hf
  | stpLatLaw => exact key h.stp.latLaw hf
  | stpReelLaw => exact key h.stp.reelLaw hf
  | stpLatWrap => exact key h.stp.latWrap hf
  | stpLatRead => exact key h.stp.latRead hf
  | stpLatOfs => exact key h.stp.latOfs hf
  | stpRetryOfs => exact key h.stp.retryOfs hf
  | stpVcm => exact key h.stp.vcm hf
  | stpStepper => exact key h.stp.stepper hf
  | stpVcmSum => exact key h.stp.vcmSum hf
  | stpVcmN => exact key h.stp.vcmN hf
  | stpVcmTicks => exact key h.stp.vcmTicks hf
  | stpSeekRest => exact key h.stp.seekRest hf
  | stpFEst => exact key h.stp.fEst hf
  | stpFSet => exact key h.stp.fSet hf
  | stpFGoal => exact key h.stp.fGoal hf
  | stpRc => exact key h.stp.rc hf
  | stpRcBin => exact key h.stp.rcBin hf
  | stpStages => exact key h.stp.stages hf
  | stpProgram => exact key h.stp.program hf
  | stpStopping => exact key h.stp.stopping hf
  | stpHeldMode => exact key h.stp.heldMode hf
  | stpHoldFrom => exact key h.stp.holdFrom hf
  | stpHoldGood => exact key h.stp.holdGood hf
  | stpBrakeUntil => exact key h.stp.brakeUntil hf
  | stpBeatAt => exact key h.stp.beatAt hf
  | stpBeatLost => exact key h.stp.beatLost hf
  | stpAcc => exact key h.stp.acc hf
  | stpAccBad => exact key h.stp.accBad hf
  | stpAccFailed => exact key h.stp.accFailed hf
  | stpTemp => exact key h.stp.temp hf
  | stpHum => exact key h.stp.hum hf
  | stpSensorBad => exact key h.stp.sensorBad hf
  | stpSensorAbsent => exact key h.stp.sensorAbsent hf
  | stpResyncAt => exact key h.stp.resyncAt hf
  | stpOffByFault => exact key h.stp.offByFault hf
  | stpCntHold => exact key h.stp.cntHold hf
  | stpCntStop => exact key h.stp.cntStop hf
  | stpCntHandover => exact key h.stp.cntHandover hf
  | stpCntDrop => exact key h.stp.cntDrop hf
  | stpCntLinkErr => exact key h.stp.cntLinkErr hf
  | stpCntTakeover => exact key h.stp.cntTakeover hf
  | hlkGroups => exact key h.hlk.groups hf
  | hlkGroupEn => exact key h.hlk.groupEn hf
  | hlkGroupEnNext => exact key h.hlk.groupEnNext hf
  | hlkRetrainNext => exact key h.hlk.retrainNext hf
  | hlkCfg => exact key h.hlk.cfg hf
  | hlkAdc => exact key h.hlk.adc hf
  | hlkWclk => exact key h.hlk.wclk hf
  | blfSources => exact key h.blf.sources hf
  | blfRequests => exact key h.blf.requests hf
  | blfCores => exact key h.blf.cores hf
  | blfCoreOffers => exact key h.blf.coreOffers hf
  | blfCoreOk => exact key h.blf.coreOk hf
  | blfCopyOk => exact key h.blf.copyOk hf
  | blfVecBase => exact key h.blf.vecBase hf
  | blfSrcIdx => exact key h.blf.srcIdx hf
  | blfLatched => exact key h.blf.latched hf
  | blfWakeEn => exact key h.blf.wakeEn hf
  | blfCntSpurious => exact key h.blf.cntSpurious hf
  | blfCntStackFault => exact key h.blf.cntStackFault hf
  | blfCntParity => exact key h.blf.cntParity hf
  | blfCntMsix => exact key h.blf.cntMsix hf
  | blfCntFlush => exact key h.blf.cntFlush hf
  | hqQueues => exact key h.hq.queues hf
  | hqCntParity => exact key h.hq.cntParity hf
  | hqCntStale => exact key h.hq.cntStale hf
  | hqCntFlush => exact key h.hq.cntFlush hf
  | out => exact key h.out hf
  | fresh => exact key h.fresh hf

/-- What is kept outside the mask of a list changes nothing but the fields of the list. -/
theorem Kept.changesOnly {l : List Field} {s t : State} (h : Kept (fieldMask l) s t) : changesOnly l s t :=
  ⟨h.pending, fun f hf => h.same f (Bool.eq_false_iff.mpr fun hb => hf (fieldMask_mem hb))⟩

end Sys2Proof.Machine
end

