-- ==== Sys2Proof/Laws/State.lean ====
section
/-! SUPPORT. One lemma per update of a part of the state and per field: what the update leaves and what it writes. -/

namespace Sys2Proof.Machine

@[simp] theorem State.onPins_pins (f : Pins → Pins) (s : State) : (s.onPins f).pins = f s.pins := rfl
@[simp] theorem State.onPins_boot (f : Pins → Pins) (s : State) : (s.onPins f).boot = s.boot := rfl
@[simp] theorem State.onPins_trust (f : Pins → Pins) (s : State) : (s.onPins f).trust = s.trust := rfl
@[simp] theorem State.onPins_power (f : Pins → Pins) (s : State) : (s.onPins f).power = s.power := rfl
@[simp] theorem State.onPins_lantern (f : Pins → Pins) (s : State) : (s.onPins f).lantern = s.lantern := rfl
@[simp] theorem State.onPins_host (f : Pins → Pins) (s : State) : (s.onPins f).host = s.host := rfl
@[simp] theorem State.onPins_keep (f : Pins → Pins) (s : State) : (s.onPins f).keep = s.keep := rfl
@[simp] theorem State.onPins_cupola (f : Pins → Pins) (s : State) : (s.onPins f).cupola = s.cupola := rfl
@[simp] theorem State.onPins_cz (f : Pins → Pins) (s : State) : (s.onPins f).cz = s.cz := rfl
@[simp] theorem State.onPins_drive (f : Pins → Pins) (s : State) : (s.onPins f).drive = s.drive := rfl
@[simp] theorem State.onPins_wr (f : Pins → Pins) (s : State) : (s.onPins f).wr = s.wr := rfl
@[simp] theorem State.onPins_wvn (f : Pins → Pins) (s : State) : (s.onPins f).wvn = s.wvn := rfl
@[simp] theorem State.onPins_ecc (f : Pins → Pins) (s : State) : (s.onPins f).ecc = s.ecc := rfl
@[simp] theorem State.onPins_tiles (f : Pins → Pins) (s : State) : (s.onPins f).tiles = s.tiles := rfl
@[simp] theorem State.onPins_rd (f : Pins → Pins) (s : State) : (s.onPins f).rd = s.rd := rfl
@[simp] theorem State.onPins_stp (f : Pins → Pins) (s : State) : (s.onPins f).stp = s.stp := rfl
@[simp] theorem State.onPins_hlk (f : Pins → Pins) (s : State) : (s.onPins f).hlk = s.hlk := rfl
@[simp] theorem State.onPins_blf (f : Pins → Pins) (s : State) : (s.onPins f).blf = s.blf := rfl
@[simp] theorem State.onPins_hq (f : Pins → Pins) (s : State) : (s.onPins f).hq = s.hq := rfl
@[simp] theorem State.onPins_out (f : Pins → Pins) (s : State) : (s.onPins f).out = s.out := rfl
@[simp] theorem State.onPins_fresh (f : Pins → Pins) (s : State) : (s.onPins f).fresh = s.fresh := rfl
@[simp] theorem State.onPins_pending (f : Pins → Pins) (s : State) : (s.onPins f).pending = s.pending := rfl
@[simp] theorem State.onBoot_pins (f : Boot → Boot) (s : State) : (s.onBoot f).pins = s.pins := rfl
@[simp] theorem State.onBoot_boot (f : Boot → Boot) (s : State) : (s.onBoot f).boot = f s.boot := rfl
@[simp] theorem State.onBoot_trust (f : Boot → Boot) (s : State) : (s.onBoot f).trust = s.trust := rfl
@[simp] theorem State.onBoot_power (f : Boot → Boot) (s : State) : (s.onBoot f).power = s.power := rfl
@[simp] theorem State.onBoot_lantern (f : Boot → Boot) (s : State) : (s.onBoot f).lantern = s.lantern := rfl
@[simp] theorem State.onBoot_host (f : Boot → Boot) (s : State) : (s.onBoot f).host = s.host := rfl
@[simp] theorem State.onBoot_keep (f : Boot → Boot) (s : State) : (s.onBoot f).keep = s.keep := rfl
@[simp] theorem State.onBoot_cupola (f : Boot → Boot) (s : State) : (s.onBoot f).cupola = s.cupola := rfl
@[simp] theorem State.onBoot_cz (f : Boot → Boot) (s : State) : (s.onBoot f).cz = s.cz := rfl
@[simp] theorem State.onBoot_drive (f : Boot → Boot) (s : State) : (s.onBoot f).drive = s.drive := rfl
@[simp] theorem State.onBoot_wr (f : Boot → Boot) (s : State) : (s.onBoot f).wr = s.wr := rfl
@[simp] theorem State.onBoot_wvn (f : Boot → Boot) (s : State) : (s.onBoot f).wvn = s.wvn := rfl
@[simp] theorem State.onBoot_ecc (f : Boot → Boot) (s : State) : (s.onBoot f).ecc = s.ecc := rfl
@[simp] theorem State.onBoot_tiles (f : Boot → Boot) (s : State) : (s.onBoot f).tiles = s.tiles := rfl
@[simp] theorem State.onBoot_rd (f : Boot → Boot) (s : State) : (s.onBoot f).rd = s.rd := rfl
@[simp] theorem State.onBoot_stp (f : Boot → Boot) (s : State) : (s.onBoot f).stp = s.stp := rfl
@[simp] theorem State.onBoot_hlk (f : Boot → Boot) (s : State) : (s.onBoot f).hlk = s.hlk := rfl
@[simp] theorem State.onBoot_blf (f : Boot → Boot) (s : State) : (s.onBoot f).blf = s.blf := rfl
@[simp] theorem State.onBoot_hq (f : Boot → Boot) (s : State) : (s.onBoot f).hq = s.hq := rfl
@[simp] theorem State.onBoot_out (f : Boot → Boot) (s : State) : (s.onBoot f).out = s.out := rfl
@[simp] theorem State.onBoot_fresh (f : Boot → Boot) (s : State) : (s.onBoot f).fresh = s.fresh := rfl
@[simp] theorem State.onBoot_pending (f : Boot → Boot) (s : State) : (s.onBoot f).pending = s.pending := rfl
@[simp] theorem State.onTrust_pins (f : Trust → Trust) (s : State) : (s.onTrust f).pins = s.pins := rfl
@[simp] theorem State.onTrust_boot (f : Trust → Trust) (s : State) : (s.onTrust f).boot = s.boot := rfl
@[simp] theorem State.onTrust_trust (f : Trust → Trust) (s : State) : (s.onTrust f).trust = f s.trust := rfl
@[simp] theorem State.onTrust_power (f : Trust → Trust) (s : State) : (s.onTrust f).power = s.power := rfl
@[simp] theorem State.onTrust_lantern (f : Trust → Trust) (s : State) : (s.onTrust f).lantern = s.lantern := rfl
@[simp] theorem State.onTrust_host (f : Trust → Trust) (s : State) : (s.onTrust f).host = s.host := rfl
@[simp] theorem State.onTrust_keep (f : Trust → Trust) (s : State) : (s.onTrust f).keep = s.keep := rfl
@[simp] theorem State.onTrust_cupola (f : Trust → Trust) (s : State) : (s.onTrust f).cupola = s.cupola := rfl
@[simp] theorem State.onTrust_cz (f : Trust → Trust) (s : State) : (s.onTrust f).cz = s.cz := rfl
@[simp] theorem State.onTrust_drive (f : Trust → Trust) (s : State) : (s.onTrust f).drive = s.drive := rfl
@[simp] theorem State.onTrust_wr (f : Trust → Trust) (s : State) : (s.onTrust f).wr = s.wr := rfl
@[simp] theorem State.onTrust_wvn (f : Trust → Trust) (s : State) : (s.onTrust f).wvn = s.wvn := rfl
@[simp] theorem State.onTrust_ecc (f : Trust → Trust) (s : State) : (s.onTrust f).ecc = s.ecc := rfl
@[simp] theorem State.onTrust_tiles (f : Trust → Trust) (s : State) : (s.onTrust f).tiles = s.tiles := rfl
@[simp] theorem State.onTrust_rd (f : Trust → Trust) (s : State) : (s.onTrust f).rd = s.rd := rfl
@[simp] theorem State.onTrust_stp (f : Trust → Trust) (s : State) : (s.onTrust f).stp = s.stp := rfl
@[simp] theorem State.onTrust_hlk (f : Trust → Trust) (s : State) : (s.onTrust f).hlk = s.hlk := rfl
@[simp] theorem State.onTrust_blf (f : Trust → Trust) (s : State) : (s.onTrust f).blf = s.blf := rfl
@[simp] theorem State.onTrust_hq (f : Trust → Trust) (s : State) : (s.onTrust f).hq = s.hq := rfl
@[simp] theorem State.onTrust_out (f : Trust → Trust) (s : State) : (s.onTrust f).out = s.out := rfl
@[simp] theorem State.onTrust_fresh (f : Trust → Trust) (s : State) : (s.onTrust f).fresh = s.fresh := rfl
@[simp] theorem State.onTrust_pending (f : Trust → Trust) (s : State) : (s.onTrust f).pending = s.pending := rfl
@[simp] theorem State.onPower_pins (f : Power → Power) (s : State) : (s.onPower f).pins = s.pins := rfl
@[simp] theorem State.onPower_boot (f : Power → Power) (s : State) : (s.onPower f).boot = s.boot := rfl
@[simp] theorem State.onPower_trust (f : Power → Power) (s : State) : (s.onPower f).trust = s.trust := rfl
@[simp] theorem State.onPower_power (f : Power → Power) (s : State) : (s.onPower f).power = f s.power := rfl
@[simp] theorem State.onPower_lantern (f : Power → Power) (s : State) : (s.onPower f).lantern = s.lantern := rfl
@[simp] theorem State.onPower_host (f : Power → Power) (s : State) : (s.onPower f).host = s.host := rfl
@[simp] theorem State.onPower_keep (f : Power → Power) (s : State) : (s.onPower f).keep = s.keep := rfl
@[simp] theorem State.onPower_cupola (f : Power → Power) (s : State) : (s.onPower f).cupola = s.cupola := rfl
@[simp] theorem State.onPower_cz (f : Power → Power) (s : State) : (s.onPower f).cz = s.cz := rfl
@[simp] theorem State.onPower_drive (f : Power → Power) (s : State) : (s.onPower f).drive = s.drive := rfl
@[simp] theorem State.onPower_wr (f : Power → Power) (s : State) : (s.onPower f).wr = s.wr := rfl
@[simp] theorem State.onPower_wvn (f : Power → Power) (s : State) : (s.onPower f).wvn = s.wvn := rfl
@[simp] theorem State.onPower_ecc (f : Power → Power) (s : State) : (s.onPower f).ecc = s.ecc := rfl
@[simp] theorem State.onPower_tiles (f : Power → Power) (s : State) : (s.onPower f).tiles = s.tiles := rfl
@[simp] theorem State.onPower_rd (f : Power → Power) (s : State) : (s.onPower f).rd = s.rd := rfl
@[simp] theorem State.onPower_stp (f : Power → Power) (s : State) : (s.onPower f).stp = s.stp := rfl
@[simp] theorem State.onPower_hlk (f : Power → Power) (s : State) : (s.onPower f).hlk = s.hlk := rfl
@[simp] theorem State.onPower_blf (f : Power → Power) (s : State) : (s.onPower f).blf = s.blf := rfl
@[simp] theorem State.onPower_hq (f : Power → Power) (s : State) : (s.onPower f).hq = s.hq := rfl
@[simp] theorem State.onPower_out (f : Power → Power) (s : State) : (s.onPower f).out = s.out := rfl
@[simp] theorem State.onPower_fresh (f : Power → Power) (s : State) : (s.onPower f).fresh = s.fresh := rfl
@[simp] theorem State.onPower_pending (f : Power → Power) (s : State) : (s.onPower f).pending = s.pending := rfl
@[simp] theorem State.onLantern_pins (f : Lantern → Lantern) (s : State) : (s.onLantern f).pins = s.pins := rfl
@[simp] theorem State.onLantern_boot (f : Lantern → Lantern) (s : State) : (s.onLantern f).boot = s.boot := rfl
@[simp] theorem State.onLantern_trust (f : Lantern → Lantern) (s : State) : (s.onLantern f).trust = s.trust := rfl
@[simp] theorem State.onLantern_power (f : Lantern → Lantern) (s : State) : (s.onLantern f).power = s.power := rfl
@[simp] theorem State.onLantern_lantern (f : Lantern → Lantern) (s : State) : (s.onLantern f).lantern = f s.lantern := rfl
@[simp] theorem State.onLantern_host (f : Lantern → Lantern) (s : State) : (s.onLantern f).host = s.host := rfl
@[simp] theorem State.onLantern_keep (f : Lantern → Lantern) (s : State) : (s.onLantern f).keep = s.keep := rfl
@[simp] theorem State.onLantern_cupola (f : Lantern → Lantern) (s : State) : (s.onLantern f).cupola = s.cupola := rfl
@[simp] theorem State.onLantern_cz (f : Lantern → Lantern) (s : State) : (s.onLantern f).cz = s.cz := rfl
@[simp] theorem State.onLantern_drive (f : Lantern → Lantern) (s : State) : (s.onLantern f).drive = s.drive := rfl
@[simp] theorem State.onLantern_wr (f : Lantern → Lantern) (s : State) : (s.onLantern f).wr = s.wr := rfl
@[simp] theorem State.onLantern_wvn (f : Lantern → Lantern) (s : State) : (s.onLantern f).wvn = s.wvn := rfl
@[simp] theorem State.onLantern_ecc (f : Lantern → Lantern) (s : State) : (s.onLantern f).ecc = s.ecc := rfl
@[simp] theorem State.onLantern_tiles (f : Lantern → Lantern) (s : State) : (s.onLantern f).tiles = s.tiles := rfl
@[simp] theorem State.onLantern_rd (f : Lantern → Lantern) (s : State) : (s.onLantern f).rd = s.rd := rfl
@[simp] theorem State.onLantern_stp (f : Lantern → Lantern) (s : State) : (s.onLantern f).stp = s.stp := rfl
@[simp] theorem State.onLantern_hlk (f : Lantern → Lantern) (s : State) : (s.onLantern f).hlk = s.hlk := rfl
@[simp] theorem State.onLantern_blf (f : Lantern → Lantern) (s : State) : (s.onLantern f).blf = s.blf := rfl
@[simp] theorem State.onLantern_hq (f : Lantern → Lantern) (s : State) : (s.onLantern f).hq = s.hq := rfl
@[simp] theorem State.onLantern_out (f : Lantern → Lantern) (s : State) : (s.onLantern f).out = s.out := rfl
@[simp] theorem State.onLantern_fresh (f : Lantern → Lantern) (s : State) : (s.onLantern f).fresh = s.fresh := rfl
@[simp] theorem State.onLantern_pending (f : Lantern → Lantern) (s : State) : (s.onLantern f).pending = s.pending := rfl
@[simp] theorem State.onHost_pins (f : HostIf → HostIf) (s : State) : (s.onHost f).pins = s.pins := rfl
@[simp] theorem State.onHost_boot (f : HostIf → HostIf) (s : State) : (s.onHost f).boot = s.boot := rfl
@[simp] theorem State.onHost_trust (f : HostIf → HostIf) (s : State) : (s.onHost f).trust = s.trust := rfl
@[simp] theorem State.onHost_power (f : HostIf → HostIf) (s : State) : (s.onHost f).power = s.power := rfl
@[simp] theorem State.onHost_lantern (f : HostIf → HostIf) (s : State) : (s.onHost f).lantern = s.lantern := rfl
@[simp] theorem State.onHost_host (f : HostIf → HostIf) (s : State) : (s.onHost f).host = f s.host := rfl
@[simp] theorem State.onHost_keep (f : HostIf → HostIf) (s : State) : (s.onHost f).keep = s.keep := rfl
@[simp] theorem State.onHost_cupola (f : HostIf → HostIf) (s : State) : (s.onHost f).cupola = s.cupola := rfl
@[simp] theorem State.onHost_cz (f : HostIf → HostIf) (s : State) : (s.onHost f).cz = s.cz := rfl
@[simp] theorem State.onHost_drive (f : HostIf → HostIf) (s : State) : (s.onHost f).drive = s.drive := rfl
@[simp] theorem State.onHost_wr (f : HostIf → HostIf) (s : State) : (s.onHost f).wr = s.wr := rfl
@[simp] theorem State.onHost_wvn (f : HostIf → HostIf) (s : State) : (s.onHost f).wvn = s.wvn := rfl
@[simp] theorem State.onHost_ecc (f : HostIf → HostIf) (s : State) : (s.onHost f).ecc = s.ecc := rfl
@[simp] theorem State.onHost_tiles (f : HostIf → HostIf) (s : State) : (s.onHost f).tiles = s.tiles := rfl
@[simp] theorem State.onHost_rd (f : HostIf → HostIf) (s : State) : (s.onHost f).rd = s.rd := rfl
@[simp] theorem State.onHost_stp (f : HostIf → HostIf) (s : State) : (s.onHost f).stp = s.stp := rfl
@[simp] theorem State.onHost_hlk (f : HostIf → HostIf) (s : State) : (s.onHost f).hlk = s.hlk := rfl
@[simp] theorem State.onHost_blf (f : HostIf → HostIf) (s : State) : (s.onHost f).blf = s.blf := rfl
@[simp] theorem State.onHost_hq (f : HostIf → HostIf) (s : State) : (s.onHost f).hq = s.hq := rfl
@[simp] theorem State.onHost_out (f : HostIf → HostIf) (s : State) : (s.onHost f).out = s.out := rfl
@[simp] theorem State.onHost_fresh (f : HostIf → HostIf) (s : State) : (s.onHost f).fresh = s.fresh := rfl
@[simp] theorem State.onHost_pending (f : HostIf → HostIf) (s : State) : (s.onHost f).pending = s.pending := rfl
@[simp] theorem State.onKeep_pins (f : Keep → Keep) (s : State) : (s.onKeep f).pins = s.pins := rfl
@[simp] theorem State.onKeep_boot (f : Keep → Keep) (s : State) : (s.onKeep f).boot = s.boot := rfl
@[simp] theorem State.onKeep_trust (f : Keep → Keep) (s : State) : (s.onKeep f).trust = s.trust := rfl
@[simp] theorem State.onKeep_power (f : Keep → Keep) (s : State) : (s.onKeep f).power = s.power := rfl
@[simp] theorem State.onKeep_lantern (f : Keep → Keep) (s : State) : (s.onKeep f).lantern = s.lantern := rfl
@[simp] theorem State.onKeep_host (f : Keep → Keep) (s : State) : (s.onKeep f).host = s.host := rfl
@[simp] theorem State.onKeep_keep (f : Keep → Keep) (s : State) : (s.onKeep f).keep = f s.keep := rfl
@[simp] theorem State.onKeep_cupola (f : Keep → Keep) (s : State) : (s.onKeep f).cupola = s.cupola := rfl
@[simp] theorem State.onKeep_cz (f : Keep → Keep) (s : State) : (s.onKeep f).cz = s.cz := rfl
@[simp] theorem State.onKeep_drive (f : Keep → Keep) (s : State) : (s.onKeep f).drive = s.drive := rfl
@[simp] theorem State.onKeep_wr (f : Keep → Keep) (s : State) : (s.onKeep f).wr = s.wr := rfl
@[simp] theorem State.onKeep_wvn (f : Keep → Keep) (s : State) : (s.onKeep f).wvn = s.wvn := rfl
@[simp] theorem State.onKeep_ecc (f : Keep → Keep) (s : State) : (s.onKeep f).ecc = s.ecc := rfl
@[simp] theorem State.onKeep_tiles (f : Keep → Keep) (s : State) : (s.onKeep f).tiles = s.tiles := rfl
@[simp] theorem State.onKeep_rd (f : Keep → Keep) (s : State) : (s.onKeep f).rd = s.rd := rfl
@[simp] theorem State.onKeep_stp (f : Keep → Keep) (s : State) : (s.onKeep f).stp = s.stp := rfl
@[simp] theorem State.onKeep_hlk (f : Keep → Keep) (s : State) : (s.onKeep f).hlk = s.hlk := rfl
@[simp] theorem State.onKeep_blf (f : Keep → Keep) (s : State) : (s.onKeep f).blf = s.blf := rfl
@[simp] theorem State.onKeep_hq (f : Keep → Keep) (s : State) : (s.onKeep f).hq = s.hq := rfl
@[simp] theorem State.onKeep_out (f : Keep → Keep) (s : State) : (s.onKeep f).out = s.out := rfl
@[simp] theorem State.onKeep_fresh (f : Keep → Keep) (s : State) : (s.onKeep f).fresh = s.fresh := rfl
@[simp] theorem State.onKeep_pending (f : Keep → Keep) (s : State) : (s.onKeep f).pending = s.pending := rfl
@[simp] theorem State.onCupola_pins (f : Cupola → Cupola) (s : State) : (s.onCupola f).pins = s.pins := rfl
@[simp] theorem State.onCupola_boot (f : Cupola → Cupola) (s : State) : (s.onCupola f).boot = s.boot := rfl
@[simp] theorem State.onCupola_trust (f : Cupola → Cupola) (s : State) : (s.onCupola f).trust = s.trust := rfl
@[simp] theorem State.onCupola_power (f : Cupola → Cupola) (s : State) : (s.onCupola f).power = s.power := rfl
@[simp] theorem State.onCupola_lantern (f : Cupola → Cupola) (s : State) : (s.onCupola f).lantern = s.lantern := rfl
@[simp] theorem State.onCupola_host (f : Cupola → Cupola) (s : State) : (s.onCupola f).host = s.host := rfl
@[simp] theorem State.onCupola_keep (f : Cupola → Cupola) (s : State) : (s.onCupola f).keep = s.keep := rfl
@[simp] theorem State.onCupola_cupola (f : Cupola → Cupola) (s : State) : (s.onCupola f).cupola = f s.cupola := rfl
@[simp] theorem State.onCupola_cz (f : Cupola → Cupola) (s : State) : (s.onCupola f).cz = s.cz := rfl
@[simp] theorem State.onCupola_drive (f : Cupola → Cupola) (s : State) : (s.onCupola f).drive = s.drive := rfl
@[simp] theorem State.onCupola_wr (f : Cupola → Cupola) (s : State) : (s.onCupola f).wr = s.wr := rfl
@[simp] theorem State.onCupola_wvn (f : Cupola → Cupola) (s : State) : (s.onCupola f).wvn = s.wvn := rfl
@[simp] theorem State.onCupola_ecc (f : Cupola → Cupola) (s : State) : (s.onCupola f).ecc = s.ecc := rfl
@[simp] theorem State.onCupola_tiles (f : Cupola → Cupola) (s : State) : (s.onCupola f).tiles = s.tiles := rfl
@[simp] theorem State.onCupola_rd (f : Cupola → Cupola) (s : State) : (s.onCupola f).rd = s.rd := rfl
@[simp] theorem State.onCupola_stp (f : Cupola → Cupola) (s : State) : (s.onCupola f).stp = s.stp := rfl
@[simp] theorem State.onCupola_hlk (f : Cupola → Cupola) (s : State) : (s.onCupola f).hlk = s.hlk := rfl
@[simp] theorem State.onCupola_blf (f : Cupola → Cupola) (s : State) : (s.onCupola f).blf = s.blf := rfl
@[simp] theorem State.onCupola_hq (f : Cupola → Cupola) (s : State) : (s.onCupola f).hq = s.hq := rfl
@[simp] theorem State.onCupola_out (f : Cupola → Cupola) (s : State) : (s.onCupola f).out = s.out := rfl
@[simp] theorem State.onCupola_fresh (f : Cupola → Cupola) (s : State) : (s.onCupola f).fresh = s.fresh := rfl
@[simp] theorem State.onCupola_pending (f : Cupola → Cupola) (s : State) : (s.onCupola f).pending = s.pending := rfl
@[simp] theorem State.onCz_pins (f : Compress → Compress) (s : State) : (s.onCz f).pins = s.pins := rfl
@[simp] theorem State.onCz_boot (f : Compress → Compress) (s : State) : (s.onCz f).boot = s.boot := rfl
@[simp] theorem State.onCz_trust (f : Compress → Compress) (s : State) : (s.onCz f).trust = s.trust := rfl
@[simp] theorem State.onCz_power (f : Compress → Compress) (s : State) : (s.onCz f).power = s.power := rfl
@[simp] theorem State.onCz_lantern (f : Compress → Compress) (s : State) : (s.onCz f).lantern = s.lantern := rfl
@[simp] theorem State.onCz_host (f : Compress → Compress) (s : State) : (s.onCz f).host = s.host := rfl
@[simp] theorem State.onCz_keep (f : Compress → Compress) (s : State) : (s.onCz f).keep = s.keep := rfl
@[simp] theorem State.onCz_cupola (f : Compress → Compress) (s : State) : (s.onCz f).cupola = s.cupola := rfl
@[simp] theorem State.onCz_cz (f : Compress → Compress) (s : State) : (s.onCz f).cz = f s.cz := rfl
@[simp] theorem State.onCz_drive (f : Compress → Compress) (s : State) : (s.onCz f).drive = s.drive := rfl
@[simp] theorem State.onCz_wr (f : Compress → Compress) (s : State) : (s.onCz f).wr = s.wr := rfl
@[simp] theorem State.onCz_wvn (f : Compress → Compress) (s : State) : (s.onCz f).wvn = s.wvn := rfl
@[simp] theorem State.onCz_ecc (f : Compress → Compress) (s : State) : (s.onCz f).ecc = s.ecc := rfl
@[simp] theorem State.onCz_tiles (f : Compress → Compress) (s : State) : (s.onCz f).tiles = s.tiles := rfl
@[simp] theorem State.onCz_rd (f : Compress → Compress) (s : State) : (s.onCz f).rd = s.rd := rfl
@[simp] theorem State.onCz_stp (f : Compress → Compress) (s : State) : (s.onCz f).stp = s.stp := rfl
@[simp] theorem State.onCz_hlk (f : Compress → Compress) (s : State) : (s.onCz f).hlk = s.hlk := rfl
@[simp] theorem State.onCz_blf (f : Compress → Compress) (s : State) : (s.onCz f).blf = s.blf := rfl
@[simp] theorem State.onCz_hq (f : Compress → Compress) (s : State) : (s.onCz f).hq = s.hq := rfl
@[simp] theorem State.onCz_out (f : Compress → Compress) (s : State) : (s.onCz f).out = s.out := rfl
@[simp] theorem State.onCz_fresh (f : Compress → Compress) (s : State) : (s.onCz f).fresh = s.fresh := rfl
@[simp] theorem State.onCz_pending (f : Compress → Compress) (s : State) : (s.onCz f).pending = s.pending := rfl
@[simp] theorem State.onDrive_pins (f : Drive → Drive) (s : State) : (s.onDrive f).pins = s.pins := rfl
@[simp] theorem State.onDrive_boot (f : Drive → Drive) (s : State) : (s.onDrive f).boot = s.boot := rfl
@[simp] theorem State.onDrive_trust (f : Drive → Drive) (s : State) : (s.onDrive f).trust = s.trust := rfl
@[simp] theorem State.onDrive_power (f : Drive → Drive) (s : State) : (s.onDrive f).power = s.power := rfl
@[simp] theorem State.onDrive_lantern (f : Drive → Drive) (s : State) : (s.onDrive f).lantern = s.lantern := rfl
@[simp] theorem State.onDrive_host (f : Drive → Drive) (s : State) : (s.onDrive f).host = s.host := rfl
@[simp] theorem State.onDrive_keep (f : Drive → Drive) (s : State) : (s.onDrive f).keep = s.keep := rfl
@[simp] theorem State.onDrive_cupola (f : Drive → Drive) (s : State) : (s.onDrive f).cupola = s.cupola := rfl
@[simp] theorem State.onDrive_cz (f : Drive → Drive) (s : State) : (s.onDrive f).cz = s.cz := rfl
@[simp] theorem State.onDrive_drive (f : Drive → Drive) (s : State) : (s.onDrive f).drive = f s.drive := rfl
@[simp] theorem State.onDrive_wr (f : Drive → Drive) (s : State) : (s.onDrive f).wr = s.wr := rfl
@[simp] theorem State.onDrive_wvn (f : Drive → Drive) (s : State) : (s.onDrive f).wvn = s.wvn := rfl
@[simp] theorem State.onDrive_ecc (f : Drive → Drive) (s : State) : (s.onDrive f).ecc = s.ecc := rfl
@[simp] theorem State.onDrive_tiles (f : Drive → Drive) (s : State) : (s.onDrive f).tiles = s.tiles := rfl
@[simp] theorem State.onDrive_rd (f : Drive → Drive) (s : State) : (s.onDrive f).rd = s.rd := rfl
@[simp] theorem State.onDrive_stp (f : Drive → Drive) (s : State) : (s.onDrive f).stp = s.stp := rfl
@[simp] theorem State.onDrive_hlk (f : Drive → Drive) (s : State) : (s.onDrive f).hlk = s.hlk := rfl
@[simp] theorem State.onDrive_blf (f : Drive → Drive) (s : State) : (s.onDrive f).blf = s.blf := rfl
@[simp] theorem State.onDrive_hq (f : Drive → Drive) (s : State) : (s.onDrive f).hq = s.hq := rfl
@[simp] theorem State.onDrive_out (f : Drive → Drive) (s : State) : (s.onDrive f).out = s.out := rfl
@[simp] theorem State.onDrive_fresh (f : Drive → Drive) (s : State) : (s.onDrive f).fresh = s.fresh := rfl
@[simp] theorem State.onDrive_pending (f : Drive → Drive) (s : State) : (s.onDrive f).pending = s.pending := rfl
@[simp] theorem State.onWr_pins (f : WritePath → WritePath) (s : State) : (s.onWr f).pins = s.pins := rfl
@[simp] theorem State.onWr_boot (f : WritePath → WritePath) (s : State) : (s.onWr f).boot = s.boot := rfl
@[simp] theorem State.onWr_trust (f : WritePath → WritePath) (s : State) : (s.onWr f).trust = s.trust := rfl
@[simp] theorem State.onWr_power (f : WritePath → WritePath) (s : State) : (s.onWr f).power = s.power := rfl
@[simp] theorem State.onWr_lantern (f : WritePath → WritePath) (s : State) : (s.onWr f).lantern = s.lantern := rfl
@[simp] theorem State.onWr_host (f : WritePath → WritePath) (s : State) : (s.onWr f).host = s.host := rfl
@[simp] theorem State.onWr_keep (f : WritePath → WritePath) (s : State) : (s.onWr f).keep = s.keep := rfl
@[simp] theorem State.onWr_cupola (f : WritePath → WritePath) (s : State) : (s.onWr f).cupola = s.cupola := rfl
@[simp] theorem State.onWr_cz (f : WritePath → WritePath) (s : State) : (s.onWr f).cz = s.cz := rfl
@[simp] theorem State.onWr_drive (f : WritePath → WritePath) (s : State) : (s.onWr f).drive = s.drive := rfl
@[simp] theorem State.onWr_wr (f : WritePath → WritePath) (s : State) : (s.onWr f).wr = f s.wr := rfl
@[simp] theorem State.onWr_wvn (f : WritePath → WritePath) (s : State) : (s.onWr f).wvn = s.wvn := rfl
@[simp] theorem State.onWr_ecc (f : WritePath → WritePath) (s : State) : (s.onWr f).ecc = s.ecc := rfl
@[simp] theorem State.onWr_tiles (f : WritePath → WritePath) (s : State) : (s.onWr f).tiles = s.tiles := rfl
@[simp] theorem State.onWr_rd (f : WritePath → WritePath) (s : State) : (s.onWr f).rd = s.rd := rfl
@[simp] theorem State.onWr_stp (f : WritePath → WritePath) (s : State) : (s.onWr f).stp = s.stp := rfl
@[simp] theorem State.onWr_hlk (f : WritePath → WritePath) (s : State) : (s.onWr f).hlk = s.hlk := rfl
@[simp] theorem State.onWr_blf (f : WritePath → WritePath) (s : State) : (s.onWr f).blf = s.blf := rfl
@[simp] theorem State.onWr_hq (f : WritePath → WritePath) (s : State) : (s.onWr f).hq = s.hq := rfl
@[simp] theorem State.onWr_out (f : WritePath → WritePath) (s : State) : (s.onWr f).out = s.out := rfl
@[simp] theorem State.onWr_fresh (f : WritePath → WritePath) (s : State) : (s.onWr f).fresh = s.fresh := rfl
@[simp] theorem State.onWr_pending (f : WritePath → WritePath) (s : State) : (s.onWr f).pending = s.pending := rfl
@[simp] theorem State.onWvn_pins (f : Wvn → Wvn) (s : State) : (s.onWvn f).pins = s.pins := rfl
@[simp] theorem State.onWvn_boot (f : Wvn → Wvn) (s : State) : (s.onWvn f).boot = s.boot := rfl
@[simp] theorem State.onWvn_trust (f : Wvn → Wvn) (s : State) : (s.onWvn f).trust = s.trust := rfl
@[simp] theorem State.onWvn_power (f : Wvn → Wvn) (s : State) : (s.onWvn f).power = s.power := rfl
@[simp] theorem State.onWvn_lantern (f : Wvn → Wvn) (s : State) : (s.onWvn f).lantern = s.lantern := rfl
@[simp] theorem State.onWvn_host (f : Wvn → Wvn) (s : State) : (s.onWvn f).host = s.host := rfl
@[simp] theorem State.onWvn_keep (f : Wvn → Wvn) (s : State) : (s.onWvn f).keep = s.keep := rfl
@[simp] theorem State.onWvn_cupola (f : Wvn → Wvn) (s : State) : (s.onWvn f).cupola = s.cupola := rfl
@[simp] theorem State.onWvn_cz (f : Wvn → Wvn) (s : State) : (s.onWvn f).cz = s.cz := rfl
@[simp] theorem State.onWvn_drive (f : Wvn → Wvn) (s : State) : (s.onWvn f).drive = s.drive := rfl
@[simp] theorem State.onWvn_wr (f : Wvn → Wvn) (s : State) : (s.onWvn f).wr = s.wr := rfl
@[simp] theorem State.onWvn_wvn (f : Wvn → Wvn) (s : State) : (s.onWvn f).wvn = f s.wvn := rfl
@[simp] theorem State.onWvn_ecc (f : Wvn → Wvn) (s : State) : (s.onWvn f).ecc = s.ecc := rfl
@[simp] theorem State.onWvn_tiles (f : Wvn → Wvn) (s : State) : (s.onWvn f).tiles = s.tiles := rfl
@[simp] theorem State.onWvn_rd (f : Wvn → Wvn) (s : State) : (s.onWvn f).rd = s.rd := rfl
@[simp] theorem State.onWvn_stp (f : Wvn → Wvn) (s : State) : (s.onWvn f).stp = s.stp := rfl
@[simp] theorem State.onWvn_hlk (f : Wvn → Wvn) (s : State) : (s.onWvn f).hlk = s.hlk := rfl
@[simp] theorem State.onWvn_blf (f : Wvn → Wvn) (s : State) : (s.onWvn f).blf = s.blf := rfl
@[simp] theorem State.onWvn_hq (f : Wvn → Wvn) (s : State) : (s.onWvn f).hq = s.hq := rfl
@[simp] theorem State.onWvn_out (f : Wvn → Wvn) (s : State) : (s.onWvn f).out = s.out := rfl
@[simp] theorem State.onWvn_fresh (f : Wvn → Wvn) (s : State) : (s.onWvn f).fresh = s.fresh := rfl
@[simp] theorem State.onWvn_pending (f : Wvn → Wvn) (s : State) : (s.onWvn f).pending = s.pending := rfl
@[simp] theorem State.onEcc_pins (f : Ecc → Ecc) (s : State) : (s.onEcc f).pins = s.pins := rfl
@[simp] theorem State.onEcc_boot (f : Ecc → Ecc) (s : State) : (s.onEcc f).boot = s.boot := rfl
@[simp] theorem State.onEcc_trust (f : Ecc → Ecc) (s : State) : (s.onEcc f).trust = s.trust := rfl
@[simp] theorem State.onEcc_power (f : Ecc → Ecc) (s : State) : (s.onEcc f).power = s.power := rfl
@[simp] theorem State.onEcc_lantern (f : Ecc → Ecc) (s : State) : (s.onEcc f).lantern = s.lantern := rfl
@[simp] theorem State.onEcc_host (f : Ecc → Ecc) (s : State) : (s.onEcc f).host = s.host := rfl
@[simp] theorem State.onEcc_keep (f : Ecc → Ecc) (s : State) : (s.onEcc f).keep = s.keep := rfl
@[simp] theorem State.onEcc_cupola (f : Ecc → Ecc) (s : State) : (s.onEcc f).cupola = s.cupola := rfl
@[simp] theorem State.onEcc_cz (f : Ecc → Ecc) (s : State) : (s.onEcc f).cz = s.cz := rfl
@[simp] theorem State.onEcc_drive (f : Ecc → Ecc) (s : State) : (s.onEcc f).drive = s.drive := rfl
@[simp] theorem State.onEcc_wr (f : Ecc → Ecc) (s : State) : (s.onEcc f).wr = s.wr := rfl
@[simp] theorem State.onEcc_wvn (f : Ecc → Ecc) (s : State) : (s.onEcc f).wvn = s.wvn := rfl
@[simp] theorem State.onEcc_ecc (f : Ecc → Ecc) (s : State) : (s.onEcc f).ecc = f s.ecc := rfl
@[simp] theorem State.onEcc_tiles (f : Ecc → Ecc) (s : State) : (s.onEcc f).tiles = s.tiles := rfl
@[simp] theorem State.onEcc_rd (f : Ecc → Ecc) (s : State) : (s.onEcc f).rd = s.rd := rfl
@[simp] theorem State.onEcc_stp (f : Ecc → Ecc) (s : State) : (s.onEcc f).stp = s.stp := rfl
@[simp] theorem State.onEcc_hlk (f : Ecc → Ecc) (s : State) : (s.onEcc f).hlk = s.hlk := rfl
@[simp] theorem State.onEcc_blf (f : Ecc → Ecc) (s : State) : (s.onEcc f).blf = s.blf := rfl
@[simp] theorem State.onEcc_hq (f : Ecc → Ecc) (s : State) : (s.onEcc f).hq = s.hq := rfl
@[simp] theorem State.onEcc_out (f : Ecc → Ecc) (s : State) : (s.onEcc f).out = s.out := rfl
@[simp] theorem State.onEcc_fresh (f : Ecc → Ecc) (s : State) : (s.onEcc f).fresh = s.fresh := rfl
@[simp] theorem State.onEcc_pending (f : Ecc → Ecc) (s : State) : (s.onEcc f).pending = s.pending := rfl
@[simp] theorem State.onTiles_pins (f : Tiles → Tiles) (s : State) : (s.onTiles f).pins = s.pins := rfl
@[simp] theorem State.onTiles_boot (f : Tiles → Tiles) (s : State) : (s.onTiles f).boot = s.boot := rfl
@[simp] theorem State.onTiles_trust (f : Tiles → Tiles) (s : State) : (s.onTiles f).trust = s.trust := rfl
@[simp] theorem State.onTiles_power (f : Tiles → Tiles) (s : State) : (s.onTiles f).power = s.power := rfl
@[simp] theorem State.onTiles_lantern (f : Tiles → Tiles) (s : State) : (s.onTiles f).lantern = s.lantern := rfl
@[simp] theorem State.onTiles_host (f : Tiles → Tiles) (s : State) : (s.onTiles f).host = s.host := rfl
@[simp] theorem State.onTiles_keep (f : Tiles → Tiles) (s : State) : (s.onTiles f).keep = s.keep := rfl
@[simp] theorem State.onTiles_cupola (f : Tiles → Tiles) (s : State) : (s.onTiles f).cupola = s.cupola := rfl
@[simp] theorem State.onTiles_cz (f : Tiles → Tiles) (s : State) : (s.onTiles f).cz = s.cz := rfl
@[simp] theorem State.onTiles_drive (f : Tiles → Tiles) (s : State) : (s.onTiles f).drive = s.drive := rfl
@[simp] theorem State.onTiles_wr (f : Tiles → Tiles) (s : State) : (s.onTiles f).wr = s.wr := rfl
@[simp] theorem State.onTiles_wvn (f : Tiles → Tiles) (s : State) : (s.onTiles f).wvn = s.wvn := rfl
@[simp] theorem State.onTiles_ecc (f : Tiles → Tiles) (s : State) : (s.onTiles f).ecc = s.ecc := rfl
@[simp] theorem State.onTiles_tiles (f : Tiles → Tiles) (s : State) : (s.onTiles f).tiles = f s.tiles := rfl
@[simp] theorem State.onTiles_rd (f : Tiles → Tiles) (s : State) : (s.onTiles f).rd = s.rd := rfl
@[simp] theorem State.onTiles_stp (f : Tiles → Tiles) (s : State) : (s.onTiles f).stp = s.stp := rfl
@[simp] theorem State.onTiles_hlk (f : Tiles → Tiles) (s : State) : (s.onTiles f).hlk = s.hlk := rfl
@[simp] theorem State.onTiles_blf (f : Tiles → Tiles) (s : State) : (s.onTiles f).blf = s.blf := rfl
@[simp] theorem State.onTiles_hq (f : Tiles → Tiles) (s : State) : (s.onTiles f).hq = s.hq := rfl
@[simp] theorem State.onTiles_out (f : Tiles → Tiles) (s : State) : (s.onTiles f).out = s.out := rfl
@[simp] theorem State.onTiles_fresh (f : Tiles → Tiles) (s : State) : (s.onTiles f).fresh = s.fresh := rfl
@[simp] theorem State.onTiles_pending (f : Tiles → Tiles) (s : State) : (s.onTiles f).pending = s.pending := rfl
@[simp] theorem State.onRd_pins (f : ReadPath → ReadPath) (s : State) : (s.onRd f).pins = s.pins := rfl
@[simp] theorem State.onRd_boot (f : ReadPath → ReadPath) (s : State) : (s.onRd f).boot = s.boot := rfl
@[simp] theorem State.onRd_trust (f : ReadPath → ReadPath) (s : State) : (s.onRd f).trust = s.trust := rfl
@[simp] theorem State.onRd_power (f : ReadPath → ReadPath) (s : State) : (s.onRd f).power = s.power := rfl
@[simp] theorem State.onRd_lantern (f : ReadPath → ReadPath) (s : State) : (s.onRd f).lantern = s.lantern := rfl
@[simp] theorem State.onRd_host (f : ReadPath → ReadPath) (s : State) : (s.onRd f).host = s.host := rfl
@[simp] theorem State.onRd_keep (f : ReadPath → ReadPath) (s : State) : (s.onRd f).keep = s.keep := rfl
@[simp] theorem State.onRd_cupola (f : ReadPath → ReadPath) (s : State) : (s.onRd f).cupola = s.cupola := rfl
@[simp] theorem State.onRd_cz (f : ReadPath → ReadPath) (s : State) : (s.onRd f).cz = s.cz := rfl
@[simp] theorem State.onRd_drive (f : ReadPath → ReadPath) (s : State) : (s.onRd f).drive = s.drive := rfl
@[simp] theorem State.onRd_wr (f : ReadPath → ReadPath) (s : State) : (s.onRd f).wr = s.wr := rfl
@[simp] theorem State.onRd_wvn (f : ReadPath → ReadPath) (s : State) : (s.onRd f).wvn = s.wvn := rfl
@[simp] theorem State.onRd_ecc (f : ReadPath → ReadPath) (s : State) : (s.onRd f).ecc = s.ecc := rfl
@[simp] theorem State.onRd_tiles (f : ReadPath → ReadPath) (s : State) : (s.onRd f).tiles = s.tiles := rfl
@[simp] theorem State.onRd_rd (f : ReadPath → ReadPath) (s : State) : (s.onRd f).rd = f s.rd := rfl
@[simp] theorem State.onRd_stp (f : ReadPath → ReadPath) (s : State) : (s.onRd f).stp = s.stp := rfl
@[simp] theorem State.onRd_hlk (f : ReadPath → ReadPath) (s : State) : (s.onRd f).hlk = s.hlk := rfl
@[simp] theorem State.onRd_blf (f : ReadPath → ReadPath) (s : State) : (s.onRd f).blf = s.blf := rfl
@[simp] theorem State.onRd_hq (f : ReadPath → ReadPath) (s : State) : (s.onRd f).hq = s.hq := rfl
@[simp] theorem State.onRd_out (f : ReadPath → ReadPath) (s : State) : (s.onRd f).out = s.out := rfl
@[simp] theorem State.onRd_fresh (f : ReadPath → ReadPath) (s : State) : (s.onRd f).fresh = s.fresh := rfl
@[simp] theorem State.onRd_pending (f : ReadPath → ReadPath) (s : State) : (s.onRd f).pending = s.pending := rfl
@[simp] theorem State.onStp_pins (f : Steeple → Steeple) (s : State) : (s.onStp f).pins = s.pins := rfl
@[simp] theorem State.onStp_boot (f : Steeple → Steeple) (s : State) : (s.onStp f).boot = s.boot := rfl
@[simp] theorem State.onStp_trust (f : Steeple → Steeple) (s : State) : (s.onStp f).trust = s.trust := rfl
@[simp] theorem State.onStp_power (f : Steeple → Steeple) (s : State) : (s.onStp f).power = s.power := rfl
@[simp] theorem State.onStp_lantern (f : Steeple → Steeple) (s : State) : (s.onStp f).lantern = s.lantern := rfl
@[simp] theorem State.onStp_host (f : Steeple → Steeple) (s : State) : (s.onStp f).host = s.host := rfl
@[simp] theorem State.onStp_keep (f : Steeple → Steeple) (s : State) : (s.onStp f).keep = s.keep := rfl
@[simp] theorem State.onStp_cupola (f : Steeple → Steeple) (s : State) : (s.onStp f).cupola = s.cupola := rfl
@[simp] theorem State.onStp_cz (f : Steeple → Steeple) (s : State) : (s.onStp f).cz = s.cz := rfl
@[simp] theorem State.onStp_drive (f : Steeple → Steeple) (s : State) : (s.onStp f).drive = s.drive := rfl
@[simp] theorem State.onStp_wr (f : Steeple → Steeple) (s : State) : (s.onStp f).wr = s.wr := rfl
@[simp] theorem State.onStp_wvn (f : Steeple → Steeple) (s : State) : (s.onStp f).wvn = s.wvn := rfl
@[simp] theorem State.onStp_ecc (f : Steeple → Steeple) (s : State) : (s.onStp f).ecc = s.ecc := rfl
@[simp] theorem State.onStp_tiles (f : Steeple → Steeple) (s : State) : (s.onStp f).tiles = s.tiles := rfl
@[simp] theorem State.onStp_rd (f : Steeple → Steeple) (s : State) : (s.onStp f).rd = s.rd := rfl
@[simp] theorem State.onStp_stp (f : Steeple → Steeple) (s : State) : (s.onStp f).stp = f s.stp := rfl
@[simp] theorem State.onStp_hlk (f : Steeple → Steeple) (s : State) : (s.onStp f).hlk = s.hlk := rfl
@[simp] theorem State.onStp_blf (f : Steeple → Steeple) (s : State) : (s.onStp f).blf = s.blf := rfl
@[simp] theorem State.onStp_hq (f : Steeple → Steeple) (s : State) : (s.onStp f).hq = s.hq := rfl
@[simp] theorem State.onStp_out (f : Steeple → Steeple) (s : State) : (s.onStp f).out = s.out := rfl
@[simp] theorem State.onStp_fresh (f : Steeple → Steeple) (s : State) : (s.onStp f).fresh = s.fresh := rfl
@[simp] theorem State.onStp_pending (f : Steeple → Steeple) (s : State) : (s.onStp f).pending = s.pending := rfl
@[simp] theorem State.onHlk_pins (f : HeadLink → HeadLink) (s : State) : (s.onHlk f).pins = s.pins := rfl
@[simp] theorem State.onHlk_boot (f : HeadLink → HeadLink) (s : State) : (s.onHlk f).boot = s.boot := rfl
@[simp] theorem State.onHlk_trust (f : HeadLink → HeadLink) (s : State) : (s.onHlk f).trust = s.trust := rfl
@[simp] theorem State.onHlk_power (f : HeadLink → HeadLink) (s : State) : (s.onHlk f).power = s.power := rfl
@[simp] theorem State.onHlk_lantern (f : HeadLink → HeadLink) (s : State) : (s.onHlk f).lantern = s.lantern := rfl
@[simp] theorem State.onHlk_host (f : HeadLink → HeadLink) (s : State) : (s.onHlk f).host = s.host := rfl
@[simp] theorem State.onHlk_keep (f : HeadLink → HeadLink) (s : State) : (s.onHlk f).keep = s.keep := rfl
@[simp] theorem State.onHlk_cupola (f : HeadLink → HeadLink) (s : State) : (s.onHlk f).cupola = s.cupola := rfl
@[simp] theorem State.onHlk_cz (f : HeadLink → HeadLink) (s : State) : (s.onHlk f).cz = s.cz := rfl
@[simp] theorem State.onHlk_drive (f : HeadLink → HeadLink) (s : State) : (s.onHlk f).drive = s.drive := rfl
@[simp] theorem State.onHlk_wr (f : HeadLink → HeadLink) (s : State) : (s.onHlk f).wr = s.wr := rfl
@[simp] theorem State.onHlk_wvn (f : HeadLink → HeadLink) (s : State) : (s.onHlk f).wvn = s.wvn := rfl
@[simp] theorem State.onHlk_ecc (f : HeadLink → HeadLink) (s : State) : (s.onHlk f).ecc = s.ecc := rfl
@[simp] theorem State.onHlk_tiles (f : HeadLink → HeadLink) (s : State) : (s.onHlk f).tiles = s.tiles := rfl
@[simp] theorem State.onHlk_rd (f : HeadLink → HeadLink) (s : State) : (s.onHlk f).rd = s.rd := rfl
@[simp] theorem State.onHlk_stp (f : HeadLink → HeadLink) (s : State) : (s.onHlk f).stp = s.stp := rfl
@[simp] theorem State.onHlk_hlk (f : HeadLink → HeadLink) (s : State) : (s.onHlk f).hlk = f s.hlk := rfl
@[simp] theorem State.onHlk_blf (f : HeadLink → HeadLink) (s : State) : (s.onHlk f).blf = s.blf := rfl
@[simp] theorem State.onHlk_hq (f : HeadLink → HeadLink) (s : State) : (s.onHlk f).hq = s.hq := rfl
@[simp] theorem State.onHlk_out (f : HeadLink → HeadLink) (s : State) : (s.onHlk f).out = s.out := rfl
@[simp] theorem State.onHlk_fresh (f : HeadLink → HeadLink) (s : State) : (s.onHlk f).fresh = s.fresh := rfl
@[simp] theorem State.onHlk_pending (f : HeadLink → HeadLink) (s : State) : (s.onHlk f).pending = s.pending := rfl
@[simp] theorem State.onBlf_pins (f : Belfry → Belfry) (s : State) : (s.onBlf f).pins = s.pins := rfl
@[simp] theorem State.onBlf_boot (f : Belfry → Belfry) (s : State) : (s.onBlf f).boot = s.boot := rfl
@[simp] theorem State.onBlf_trust (f : Belfry → Belfry) (s : State) : (s.onBlf f).trust = s.trust := rfl
@[simp] theorem State.onBlf_power (f : Belfry → Belfry) (s : State) : (s.onBlf f).power = s.power := rfl
@[simp] theorem State.onBlf_lantern (f : Belfry → Belfry) (s : State) : (s.onBlf f).lantern = s.lantern := rfl
@[simp] theorem State.onBlf_host (f : Belfry → Belfry) (s : State) : (s.onBlf f).host = s.host := rfl
@[simp] theorem State.onBlf_keep (f : Belfry → Belfry) (s : State) : (s.onBlf f).keep = s.keep := rfl
@[simp] theorem State.onBlf_cupola (f : Belfry → Belfry) (s : State) : (s.onBlf f).cupola = s.cupola := rfl
@[simp] theorem State.onBlf_cz (f : Belfry → Belfry) (s : State) : (s.onBlf f).cz = s.cz := rfl
@[simp] theorem State.onBlf_drive (f : Belfry → Belfry) (s : State) : (s.onBlf f).drive = s.drive := rfl
@[simp] theorem State.onBlf_wr (f : Belfry → Belfry) (s : State) : (s.onBlf f).wr = s.wr := rfl
@[simp] theorem State.onBlf_wvn (f : Belfry → Belfry) (s : State) : (s.onBlf f).wvn = s.wvn := rfl
@[simp] theorem State.onBlf_ecc (f : Belfry → Belfry) (s : State) : (s.onBlf f).ecc = s.ecc := rfl
@[simp] theorem State.onBlf_tiles (f : Belfry → Belfry) (s : State) : (s.onBlf f).tiles = s.tiles := rfl
@[simp] theorem State.onBlf_rd (f : Belfry → Belfry) (s : State) : (s.onBlf f).rd = s.rd := rfl
@[simp] theorem State.onBlf_stp (f : Belfry → Belfry) (s : State) : (s.onBlf f).stp = s.stp := rfl
@[simp] theorem State.onBlf_hlk (f : Belfry → Belfry) (s : State) : (s.onBlf f).hlk = s.hlk := rfl
@[simp] theorem State.onBlf_blf (f : Belfry → Belfry) (s : State) : (s.onBlf f).blf = f s.blf := rfl
@[simp] theorem State.onBlf_hq (f : Belfry → Belfry) (s : State) : (s.onBlf f).hq = s.hq := rfl
@[simp] theorem State.onBlf_out (f : Belfry → Belfry) (s : State) : (s.onBlf f).out = s.out := rfl
@[simp] theorem State.onBlf_fresh (f : Belfry → Belfry) (s : State) : (s.onBlf f).fresh = s.fresh := rfl
@[simp] theorem State.onBlf_pending (f : Belfry → Belfry) (s : State) : (s.onBlf f).pending = s.pending := rfl
@[simp] theorem State.onHq_pins (f : HwQueues → HwQueues) (s : State) : (s.onHq f).pins = s.pins := rfl
@[simp] theorem State.onHq_boot (f : HwQueues → HwQueues) (s : State) : (s.onHq f).boot = s.boot := rfl
@[simp] theorem State.onHq_trust (f : HwQueues → HwQueues) (s : State) : (s.onHq f).trust = s.trust := rfl
@[simp] theorem State.onHq_power (f : HwQueues → HwQueues) (s : State) : (s.onHq f).power = s.power := rfl
@[simp] theorem State.onHq_lantern (f : HwQueues → HwQueues) (s : State) : (s.onHq f).lantern = s.lantern := rfl
@[simp] theorem State.onHq_host (f : HwQueues → HwQueues) (s : State) : (s.onHq f).host = s.host := rfl
@[simp] theorem State.onHq_keep (f : HwQueues → HwQueues) (s : State) : (s.onHq f).keep = s.keep := rfl
@[simp] theorem State.onHq_cupola (f : HwQueues → HwQueues) (s : State) : (s.onHq f).cupola = s.cupola := rfl
@[simp] theorem State.onHq_cz (f : HwQueues → HwQueues) (s : State) : (s.onHq f).cz = s.cz := rfl
@[simp] theorem State.onHq_drive (f : HwQueues → HwQueues) (s : State) : (s.onHq f).drive = s.drive := rfl
@[simp] theorem State.onHq_wr (f : HwQueues → HwQueues) (s : State) : (s.onHq f).wr = s.wr := rfl
@[simp] theorem State.onHq_wvn (f : HwQueues → HwQueues) (s : State) : (s.onHq f).wvn = s.wvn := rfl
@[simp] theorem State.onHq_ecc (f : HwQueues → HwQueues) (s : State) : (s.onHq f).ecc = s.ecc := rfl
@[simp] theorem State.onHq_tiles (f : HwQueues → HwQueues) (s : State) : (s.onHq f).tiles = s.tiles := rfl
@[simp] theorem State.onHq_rd (f : HwQueues → HwQueues) (s : State) : (s.onHq f).rd = s.rd := rfl
@[simp] theorem State.onHq_stp (f : HwQueues → HwQueues) (s : State) : (s.onHq f).stp = s.stp := rfl
@[simp] theorem State.onHq_hlk (f : HwQueues → HwQueues) (s : State) : (s.onHq f).hlk = s.hlk := rfl
@[simp] theorem State.onHq_blf (f : HwQueues → HwQueues) (s : State) : (s.onHq f).blf = s.blf := rfl
@[simp] theorem State.onHq_hq (f : HwQueues → HwQueues) (s : State) : (s.onHq f).hq = f s.hq := rfl
@[simp] theorem State.onHq_out (f : HwQueues → HwQueues) (s : State) : (s.onHq f).out = s.out := rfl
@[simp] theorem State.onHq_fresh (f : HwQueues → HwQueues) (s : State) : (s.onHq f).fresh = s.fresh := rfl
@[simp] theorem State.onHq_pending (f : HwQueues → HwQueues) (s : State) : (s.onHq f).pending = s.pending := rfl

end Sys2Proof.Machine
end

