-- ==== Sys2Proof/Machine/Package.lean ====
section
/-! DEFINITION. The package: the rails of Table 16-1, the ball map (R425 to R431, Table 18-4), and the state of each group of balls (R432,
Table 18-6). -/

namespace Sys2Proof.Machine

/-! ## Rails (Table 16-1) -/

/-- The rails of Table 16-1. -/
inductive Rail where
  | core
  | sram
  | phy
  | phyH
  | io
  | aon
  | qBuf
  | ppBuf
  deriving DecidableEq, Repr

/-- Nominal voltage in mV; VDD_CORE is set over AVSBus from 600 to 850 (Table 16-1). -/
def railNominal : Rail → Nat
  | .core => 600
  | .sram | .phy | .aon => 750
  | .phyH => 1200
  | .io | .ppBuf => 1800
  | .qBuf => 1100

/-- Steady-state tolerance in percent (Table 16-1). -/
def railTolerance : Rail → Nat
  | .core => 2
  | .io | .ppBuf => 5
  | .sram | .phy | .phyH | .aon | .qBuf => 3

/-- PMBus address of the rail's regulator; VDD_AON has none (Table 16-1). -/
def railAddress : Rail → Option Nat
  | .core => some 0x40
  | .sram => some 0x41
  | .phy => some 0x42
  | .phyH => some 0x43
  | .io => some 0x44
  | .qBuf => some 0x45
  | .ppBuf => some 0x46
  | .aon => none

/-! ## The ball map (R425 to R431) -/

/-- What a ball carries. -/
inductive Ball where
  | power (r : Rail)
  | vss
  /-- PCIe pair q of R428 and its leg, true for _DP -/
  | pcie (q : Nat) (dp : Bool)
  /-- head-link pair p of R429 and its leg, true for _DP -/
  | headLink (p : Nat) (dp : Bool)
  /-- a CMOS or analog ball of Table 18-4 -/
  | signal (name : String)
  deriving DecidableEq, Repr

/-- The names of the rows, index 1 first (R425). -/
def rowNames : List String :=
  ["A", "B", "C", "D", "E", "F", "G", "H", "J", "K", "L", "M", "N", "P", "T", "U", "V", "W", "Y", "AA", "AB", "AC", "AD", "AE", "AF", "AG",
   "AH", "AJ", "AK", "AL", "AM", "AN", "AP", "AT", "AU", "AV", "AW", "AY", "BA", "BB", "BC", "BD", "BE", "BF", "BG"]

/-- Columns 1 and 2 of rows K to AM (Table 18-4). -/
def westBank : List (String × String) :=
  [("PEA_PERST_N", "GPIO2"), ("PEB_PERST_N", "GPIO3"), ("SYS_RESET_N", "GPIO4"), ("PWR_GOOD", "GPIO5"), ("ALARM_N", "GPIO6"),
   ("PRESENCE_N", "GPIO7"), ("SEAL_A", "TCK"), ("SEAL_B", "TMS"), ("CART_PRESENT_N", "TDI"), ("SHOCK_N", "TDO"), ("MOT_FAULT_N", "TRST_N")] ++
  [("SMB_SCL", "UART_TX"), ("SMB_SDA", "UART_RX"), ("SMB_ALERT_N", "LED0"), ("PMB_SCL", "LED1"), ("PMB_SDA", "LED2"), ("PMB_ALERT_N", "LED3"),
   ("STRAP3", "PEA_CLKREQ_N"), ("XTAL_IN", "PEB_CLKREQ_N"), ("XTAL_OUT", "THERM_DP"), ("GPIO0", "THERM_DN"), ("GPIO1", "PHY_RCAL")]

/-- Columns 44 and 45 of rows K to AM (Table 18-4). -/
def eastBank : List (String × String) :=
  [("XSPI_CLK", "MOT_SCK"), ("XSPI_CS_N", "MOT_CS_N"), ("XSPI_DQS", "MOT_SDO"), ("XSPI_RESET_N", "MOT_SDI"), ("XSPI_DQ0", "MOT_EN0"),
   ("XSPI_DQ1", "MOT_EN1"), ("XSPI_DQ2", "MOT_EN2"), ("XSPI_DQ3", "MOT_EN3"), ("XSPI_DQ4", "MOT_EN4"), ("XSPI_DQ5", "ENC0_A"),
   ("XSPI_DQ6", "ENC0_B")] ++
  [("XSPI_DQ7", "ENC0_I"), ("CM_SCK", "ENC1_A"), ("CM_CS_N", "ENC1_B"), ("CM_MOSI", "ENC1_I"), ("CM_MISO", "ACC_SCK"), ("STRAP0", "ACC_CS_N"),
   ("STRAP1", "ACC_MOSI"), ("AVS_CLK", "ACC_MISO"), ("AVS_MDATA", "SNS_SCL"), ("AVS_SDATA", "SNS_SDA"), ("TEST_EN", "STRAP2")]

/-- A ball of a differential row: slot k carries its pair on columns 3k + 2 and 3k + 3, the rest is VSS (R427). The row is the r-th of its
kind, and n pairs are numbered along the rows, 14 to a row. -/
def pairBall (n r c : Nat) (f : Nat → Bool → Ball) : Ball :=
  let k := (c - 2) / 3
  let q := 14 * r + k
  if 2 ≤ c ∧ k ≤ 13 ∧ (c - 2) % 3 ≠ 2 ∧ q < n then f q ((c - 2) % 3 == 0) else .vss

/-- A power ball of the core region, columns 4 to 42 of rows K to AM (R431). -/
def coreBall (i c : Nat) : Ball :=
  if (i + c) % 2 = 0 then .vss
  else if c ≤ 8 ∨ 38 ≤ c then .power .qBuf
  else if c = 9 ∨ c = 37 then .power .ppBuf
  else if c ≤ 12 ∨ 34 ≤ c then .power .sram
  else .power .core

/-- A ball of rows K to AM (R430, R431). -/
def middleBall (i c : Nat) : Ball :=
  let west := westBank.getD (i - 10) ("", "")
  let east := eastBank.getD (i - 10) ("", "")
  if c = 1 then .signal west.1
  else if c = 2 then .signal west.2
  else if c = 3 then (if i ≤ 13 then .power .aon else if i % 2 = 0 then .power .io else .vss)
  else if c ≤ 42 then coreBall i c
  else if c = 43 then (if i % 2 = 0 then .power .io else .vss)
  else if c = 44 then .signal east.1
  else .signal east.2

/-- What the ball of row index i and column c carries, both from 1 to 45 (R426 to R431). -/
def ballAt (i c : Nat) : Ball :=
  match i with
  | 2 => pairBall 50 0 c .pcie
  | 4 => pairBall 50 1 c .pcie
  | 6 => pairBall 50 2 c .pcie
  | 8 => pairBall 50 3 c .pcie
  | 33 => pairBall 88 0 c .headLink
  | 35 => pairBall 88 1 c .headLink
  | 37 => pairBall 88 2 c .headLink
  | 39 => pairBall 88 3 c .headLink
  | 41 => pairBall 88 4 c .headLink
  | 43 => pairBall 88 5 c .headLink
  | 45 => pairBall 88 6 c .headLink
  | 9 | 32 => if c ≤ 30 then .power .phy else .power .phyH
  | _ => if 10 ≤ i ∧ i ≤ 31 then middleBall i c else .vss

/-- Every ball of the array. -/
def allBalls : List Ball := (List.range 45).flatMap fun i => (List.range 45).map fun c => ballAt (i + 1) (c + 1)

/-- The name of a PCIe pair (R428). -/
def pciePair (q : Nat) : String :=
  if q < 16 then "PEA_TX" ++ toString q
  else if q < 32 then "PEA_RX" ++ toString (q - 16)
  else if q = 32 then "PEA_REFCLK"
  else if q < 41 then "PEB_TX" ++ toString (q - 33)
  else if q < 49 then "PEB_RX" ++ toString (q - 41)
  else "PEB_REFCLK"

/-- The name of a head-link pair (R429). -/
def headLinkPair (p : Nat) : String :=
  let j := p % 11
  "HL" ++ toString (p / 11) ++
    (if j < 8 then "_RX" ++ toString j else if j < 10 then "_TX" ++ toString (j - 8) else "_REFCLK")

/-! ## Pin states (R432) -/

/-- The groups of Table 18-6; an outbound lane by its group of the head link, a motor enable by its number. -/
inductive PinGroup where
  | pcieLanes
  | headLinkOut (g : Fin 8)
  | headLinkIn
  | motEn (i : Fin 5)
  | ioOutputs
  | aonInputs
  | openDrain
  | sealA
  | crystal
  deriving DecidableEq, Repr

/-- What a group of balls does. -/
inductive PinState where
  | highZ
  | electricalIdle
  | terminated
  | inUse
  | high
  | active
  | released
  | driven
  | running
  deriving DecidableEq, Repr

/-- The columns of Table 18-6 that a powered part can be in, and the running part. -/
inductive PinColumn where
  | partReset
  | startUp
  | fallback
  | ps4
  | scan
  | run
  deriving DecidableEq, Repr

/-- The column that a state of the part stands in (R432). -/
def pinColumn (s : State) : PinColumn :=
  if s.power.pstate = 4 then .ps4
  else match s.boot.phase with
    | .held => .partReset
    | .scan => .scan
    | .fallback => .fallback
    | .normal => if s.boot.ready then .run else .startUp

/-- The state of a group of balls (Table 18-6). -/
def pinState (s : State) (g : PinGroup) : PinState :=
  match g, pinColumn s with
  | .pcieLanes, .partReset | .pcieLanes, .ps4 | .pcieLanes, .scan => .electricalIdle
  | .pcieLanes, .startUp | .pcieLanes, .fallback | .pcieLanes, .run => .inUse
  | .headLinkOut _, .partReset | .headLinkOut _, .fallback | .headLinkOut _, .scan => .electricalIdle
  | .headLinkOut _, .ps4 => .highZ
  | .headLinkOut k, .startUp | .headLinkOut k, .run => if s.hlk.groups[k].state = .down then .electricalIdle else .inUse
  | .headLinkIn, .partReset | .headLinkIn, .scan => .terminated
  | .headLinkIn, .ps4 => .highZ
  | .headLinkIn, .startUp | .headLinkIn, .fallback | .headLinkIn, .run => .inUse
  | .motEn i, .startUp | .motEn i, .run => if s.pins.motEn.getLsbD i.val then .high else .highZ
  | .motEn _, .partReset | .motEn _, .fallback | .motEn _, .ps4 | .motEn _, .scan => .highZ
  | .ioOutputs, .partReset | .ioOutputs, .ps4 | .ioOutputs, .scan => .highZ
  | .ioOutputs, .startUp | .ioOutputs, .fallback | .ioOutputs, .run => .driven
  | .aonInputs, _ => .active
  | .openDrain, .partReset => if s.pins.alarmAsserted then .driven else .released
  | .openDrain, .startUp | .openDrain, .fallback | .openDrain, .ps4 | .openDrain, .scan | .openDrain, .run => .driven
  | .sealA, _ => .driven
  | .crystal, _ => .running

end Sys2Proof.Machine
end

