-- ==== Sys2Proof/WellFormed.lean ====
section
/-! DEFINITION. Which commands carry operands of the shape that the rules give them: packet, item and record lengths, sample and
tail ranges, and the canonical form of a cartridge's memory. -/

namespace Sys2Proof

/-- A cartridge memory of 32, 64 or 128 KiB, listed in canonical form, with five tape-ID records (R31, R58, R64). -/
def Cartridge.wf (c : Cartridge) : Bool :=
  decide (c.cm.Pairwise fun x y => x.1 < y.1) && c.cm.all (fun x => decide (x.1 < 1024 * c.cmKiB) && x.2 != 0xFF) &&
  decide (c.tapeIds.length = 5) && c.tapeIds.all (fun r => decide (r.length = 32)) &&
  c.slots.all fun t => decide (t.wrap < 20 ∧ t.slot < 7181571 ∧ t.payload.length = 921600)

/-- The operands of a command have the lengths and ranges of the rules that define what they are. -/
def Instr.wf : Instr → Bool
  | .startUp o => decide (o.strapReads.length = 15)
  | .cartInserted c => c.wf
  | .sqFetch es => decide (1 ≤ es.length ∧ es.length ≤ 8) && es.all fun e => decide (e.length = 64)
  | .commandStart sgl => sgl.all fun e => decide (e.length = 16)
  | .cmArea _ d => decide (d.length ≤ 1024)
  | .samplePacket _ _ _ _ _ payload => decide (payload.length = 25)
  | .wvnUpdate => true
  | .verifyResult slot => decide (slot < 7181571)
  | .badAccess _ off size _ => decide (off < 2 ^ 22) && !(decide (size = 4 ∧ off % 4 = 0) || decide (size = 8 ∧ off % 8 = 0))
  | .rcRead _ off => decide (off % 4 = 0 ∧ off < 2 ^ 22)
  | .loWordRead _ off => decide (off % 4 = 0 ∧ off < 2 ^ 22)
  | .registerWrite _ off _ => decide (off % 4 = 0 ∧ off < 2 ^ 22)
  | .ctBroadcastWrite off _ => decide (off % 4 = 0 ∧ off < 2 ^ 12)
  | _ => true

end Sys2Proof
end

