-- ==== Sys2Proof/Tests/Slice0.lean ====
section
/-! SUPPORT. The author's own tests: an ill-formed term for each check of well-formedness; for each statement with hypotheses a state and
operands that meet them, clause by clause and at the ends of their ranges; and single steps whose expected outcome is taken from the
numbered rules. What rests on an opaque function of Config cannot be evaluated and has no
witness here: a KEY_LOAD that is accepted, a slot or a table whose signatures hold, a set-point inside the limits of a Steeple table, a
cipher core's next decryption; nor have a slot that decodes and the first copy that a commit point chooses, which are too long to evaluate. -/

namespace Sys2Proof.Tests
open Sys2Proof Sys2Proof.Machine

set_option maxRecDepth 40000
set_option Elab.async false

/-! ## The small states of the tests -/

/-- A submission entry: its opcode, its tag, and fields at their bytes. -/
def ent (op tag : Nat) (fs : List (Nat × Bytes)) : Bytes :=
  fs.foldl (fun e f => e.take f.1 ++ f.2 ++ e.drop (f.1 + f.2.length)) (le 1 op ++ zeros 1 ++ le 2 tag ++ zeros 60)

/-- A started command of queue q under tag 7. -/
def cmdIn (q op : Nat) (fs : List (Nat × Bytes)) : Cmd :=
  { qid := q, tag := 7, order := (0, 0), entry := ent op 7 fs, phase := .started, segs := [], writes := [], sent := 0, count := 0, used := 0,
    inRec := 0, lon := 0, goal := 0, keys := [], reserved := 0, met := [], waits := [], after := [] }

/-- A queue pair of eight entries on port A. -/
def qpIn (q : Nat) : QueuePair :=
  { qid := q, sqSize := 8, cqSize := 8, sqBase := 4096, cqBase := 8192, vector := 1, group := 0, strict := false, pref := .a, active := .a,
    multipath := false, version := 0x12, sqTail := 0, sqNext := 0, exposed := [], cqTail := 0, cqHead := 0, phase := true, seq := 0,
    posted := [], heldComps := [], heldTail := none }

/-- The part runs its firmware. -/
def up : State := State.reset.onBoot fun b => { b with phase := .normal }

/-- It runs and has one command in hand, in a queue with a path. -/
def withCmd (c : Cmd) (s : State) : State :=
  s.onHost fun h => { h with
    cmds := [c], qps := [qpIn c.qid], portA := { h.portA with linkUp := true, bme := true, mse := true } }

/-- A partition of objects 0 to n − 1 on wraps 0 to 19. -/
def partOfN (n : Nat) : Part :=
  { noPart with inUse := true, lastWrap := 19, highN := noN, logicalEnd := n, endLon := n }

/-- A volume of one partition with n objects. -/
def volOf (n : Nat) : Volume :=
  { readOnly := false, recovered := false, rebuilt := false, blank := false, mountCount := 1, lastRevision := 0x12, generation := 1,
    volumeId := zeros 16, dirty := false, floor := 0x10, dirtyTries := 0, foundBlank := false, tapeId := zeros 16, serial := zeros 16,
    parts := #v[partOfN n, noPart, noPart, noPart], wraps := [], index := [], posPart := 0, posLon := 0, cmRefused := false }

/-- A cartridge is mounted that holds n objects. -/
def mounted (n : Nat) (s : State) : State := s.onDrive fun d => { d with vol := some (volOf n) }

/-- A record of three bytes at LON 0. -/
def recEntry : RecEntry := ⟨0, false, true, true, false, false, 3, 3, 0⟩

/-- A data set that holds it, not encrypted. -/
def recSet : DataSet :=
  { id := 0, part := 0, kind := .user, n := none, stage := .assembling, sel := { cipher := 0, slot := 255, gen := 0 }, firstLon := 0,
    lead := 0, stream := [1, 2, 3], entries := [recEntry], closes := false, payload := [], fails := 0, skips := 0, inStacks := 3 }

/-- It is staged. -/
def staged (s : State) : State := s.onWr fun w => { w with sets := [recSet] }

/-- Its bytes have been decompressed and committed. -/
def committed (s : State) : State :=
  s.onRd fun r => { r with packets := [{ part := 0, lon := 0, block := 0, bytes := [65, 66, 67], deps := [], committed := true }] }

/-- The state after a command, or the state itself where it stops. -/
def nxt (i : Instr) (s : State) : State := match exec i s with | .next t => t | _ => s

/-- Head-link group 0 is this one. -/
def grp0 (k : Group) (s : State) : State := s.onHlk fun h => { h with groups := putAt h.groups 0 k }

/-- A group in UP with every lane. -/
def upGroup : Group := { ({} : Group) with state := .up, rxLive := 0xFF, txLive := 3, lock := 0xFF }

/-- What the ROM meets at a start with nothing wrong. -/
def goodObs : StartObs :=
  { strapReads := List.replicate 15 0x2, slotAReads := true, slotBReads := true, flashReads := true, selfTestOk := true, mramOk := true,
    keepOk := true, fuseWriteOk := true, portA := ⟨2, 4⟩, portB := ⟨2, 4⟩, tornRecord := false }

/-- Ports as they stand behind power-on, with every input at rest. -/
def held : State := State.reset.onPins fun p => { p with sysResetN := true, pwrGood := true, testEn := false }

/-- A command of this opcode is in hand. -/
def hand (s : State) (c : Cmd) : Bool := live s && decide (startedCmd s c.qid c.tag (opcodeOf c.entry) = some c)

/-- What a queue's newest completion says: status and result. -/
def lastDone (s : State) (q : Nat) : Option (Nat × Nat) :=
  (qpOf s q).bind fun x => x.posted.getLast?.map fun p => (p.comp.status, p.comp.result)

/-! ## Well-formed operands -/

theorem test_wf_startUp : Instr.wf (.startUp goodObs) = true ∧
    Instr.wf (.startUp { goodObs with strapReads := List.replicate 14 0 }) = false := by decide +kernel

/-- A blank cartridge. -/
def cart0 : Cartridge := { cm := [], cmKiB := 64, cmSet := 1, tapeIds := List.replicate 5 (zeros 32), slots := [] }

theorem test_wf_cartInserted : Instr.wf (.cartInserted cart0) = true ∧ Instr.wf (.cartInserted { cart0 with cm := [(5, 1), (4, 1)] }) = false ∧
    Instr.wf (.cartInserted { cart0 with cm := [(65536, 1)] }) = false ∧ Instr.wf (.cartInserted { cart0 with cm := [(4, 0xFF)] }) = false ∧
    Instr.wf (.cartInserted { cart0 with tapeIds := [] }) = false ∧ Instr.wf (.cartInserted { cart0 with tapeIds := List.replicate 5 [] }) = false ∧
    Instr.wf (.cartInserted { cart0 with slots := [⟨20, 0, 0, false, true, true, []⟩] }) = false := by decide +kernel

theorem test_wf_sqFetch : Instr.wf (.sqFetch [zeros 64]) = true ∧ Instr.wf (.sqFetch []) = false ∧
    Instr.wf (.sqFetch (List.replicate 9 (zeros 64))) = false ∧ Instr.wf (.sqFetch [zeros 63]) = false := by decide +kernel

theorem test_wf_commandStart : Instr.wf (.commandStart [zeros 16]) = true ∧ Instr.wf (.commandStart [zeros 15]) = false := by decide +kernel

theorem test_wf_cmArea : Instr.wf (.cmArea 0 (zeros 1024)) = true ∧ Instr.wf (.cmArea 0 (zeros 1025)) = false := by decide +kernel

theorem test_wf_samplePacket : Instr.wf (.samplePacket 0 0 0 0 0 (List.replicate 25 0)) = true ∧
    Instr.wf (.samplePacket 0 0 0 0 0 (List.replicate 24 0)) = false := by decide +kernel

theorem test_wf_verifyResult : Instr.wf (.verifyResult 7181570) = true ∧ Instr.wf (.verifyResult 7181571) = false := by decide +kernel

theorem test_wf_badAccess : Instr.wf (.badAccess .a 2 4 true) = true ∧ Instr.wf (.badAccess .a 4 4 true) = false ∧
    Instr.wf (.badAccess .a 8 8 true) = false ∧ Instr.wf (.badAccess .a (2 ^ 22) 1 true) = false := by decide +kernel

theorem test_wf_registers : Instr.wf (.rcRead .a 4) = true ∧ Instr.wf (.rcRead .a 2) = false ∧ Instr.wf (.loWordRead .a (2 ^ 22)) = false ∧
    Instr.wf (.registerWrite .a 6 0) = false ∧ Instr.wf (.ctBroadcastWrite 4096 0) = false ∧ Instr.wf (.ctBroadcastWrite 4092 0) = true := by decide +kernel

/-! ## What meets the hypotheses: the block, resets and start-up -/

theorem test_hyp_EmptyQueueCountsOneTick : (State.reset.pending = [] ∧ State.reset.power.src ≠ .holdover) ∧
    (up.onPower fun p => { p with src := .holdover }).power.src = .holdover := by decide +kernel

/-- A READ, VERIFY or SPACE of one object in hand. -/
def readCmd (op : Nat) : Cmd := { cmdIn 1 op [(5, [255]), (16, le 8 1), (24, le 8 65536), (40, le 8 4096)] with segs := [(65536, 4096)] }

/-- Its object is staged, and its bytes are ready. -/
def readState (op : Nat) : State := committed (staged (mounted 1 (withCmd (readCmd op) up)))

/-- The object it finds. -/
def readObj : Obj := { noObj with blocks := [(recEntry, [1, 2, 3])] }

/-- The one command is in hand and alone, its queue's path is port A. -/
def aloneIn (s : State) (c : Cmd) (op : Nat) : Bool :=
  live s && decide (startedCmd s c.qid c.tag op = some c) && decide (s.host.cmds = [c]) && decide (s.host.resetting = []) && !s.host.resetBusy &&
  (s.host.qps.all fun y => decide (y.heldComps = [])) && decide (qpOf s c.qid = some (qpIn c.qid)) &&
  decide (queuePath s (qpIn c.qid) = some .a) && cqRoom (qpIn c.qid)

/-- What the read clauses ask beyond that. -/
def readMet (op : Nat) : Bool :=
  let s := readState op
  let c := readCmd op
  aloneIn s c op && decide (s.drive.vol = some (volOf 1)) && (partAt s (partField c.entry)).inUse && decide (c.met = []) && decide (c.writes = []) &&
  decide (countField c.entry = 1) && decide (c.lon < logicalEndOf s (partField c.entry)) && decide (findObj s c c.lon = .object readObj) &&
  !readObj.mark && decide (readObj.length ≤ lengthField c.entry) && !noDecrypt c && s.rd.badBlocks.isEmpty && decide (specField c.entry 48 1 = 0) &&
  decide ((readyBytes s (partField c.entry) c.lon readObj.blocks.length).length = readObj.blocks.length)

theorem test_hyp_EveryCommandAnswersNext : (live up = true ∧ up.power.pstate ≠ 4) ∧
    (readMet opRead = true ∧ readMet opVerify = true ∧ readMet opSpace = true) ∧
    (let s := grp0 upGroup (up.onWr fun w => { w with tokens := true })
     live s = true ∧ (hlGroup s 0).rxLive.getLsbD 7 = true ∧ (hlGroup s 0).txLive.getLsbD 1 = true ∧ s.wr.tokens = true ∧ s.wr.sources = 0 ∧
     (hlGroup s 0).state = .up ∧ s.drive.vol = none) := by decide +kernel

theorem test_hyp_QueueIsFirstInFirstOut :
    (match step { up with pending := [.health, .clearFails] } with | .next t => decide (t.pending = [.clearFails]) | _ => false) = true := by decide +kernel

theorem test_hyp_ByteStoresStayCanonical : Memory.wf up.boot.flash ∧ Memory.wf cart0.cm ∧
    (match step up with | .next _ => true | _ => false) = true := by decide +kernel

theorem test_hyp_ResetsLeaveWhatTheirDomainKeeps :
    (1000 ≤ 1000 ∧ (up.boot.phase ≠ .held ∨ up.power.pstate = 4)) ∧ (held.boot.phase = .held ∧ held.power.pstate ≠ 4) ∧
    ((up.onPower fun p => { p with pstate := 4 }).power.pstate = 4) ∧ (100 < 101 ∧ 999 < 1000) ∧
    (up.onBoot fun b => { b with watchdog := some (7, 2) }).boot.watchdog = some (7, 2) ∧ up.boot.watchdog = none ∧
    (up.power.pstate ≠ 4 ∧ up.boot.phase ≠ .held) := by decide +kernel

theorem test_hyp_StartUpAndConfirmation :
    (held.boot.phase = .held ∧ held.pins.sysResetN = true ∧ held.pins.pwrGood = true ∧ held.pins.testEn = false ∧ held.power.pstate ≠ 4) ∧
    (majorityStraps (List.replicate 15 0x1)).getLsbD 0 = true ∧ (majorityStraps goodObs.strapReads).getLsbD 0 = false ∧
    (majorityStraps goodObs.strapReads).getLsbD 3 = false ∧ (goodObs.selfTestOk = true ∧ goodObs.fuseWriteOk = true ∧ goodObs.keepOk = true ∧
      goodObs.mramOk = true ∧ goodObs.flashReads = true ∧ held.boot.keepFault = false) ∧
    (held.boot.fails < 3 ∧ held.boot.fromPs4 = false ∧ 3 ≤ (held.onBoot fun b => { b with fails := 3 }).boot.fails) ∧
    (up.boot.phase = .normal ∧ up.boot.confirmed = false) ∧ up.boot.epoch ≤ manEpoch (slotManifest up up.boot.slot) := by decide +kernel

/-! ## Steps: resets and start-up -/

theorem test_startUp_selfTest : (nxt (.startUp { goodObs with selfTestOk := false }) held).boot.phase = .fallback ∧
    (nxt (.startUp { goodObs with selfTestOk := false }) held).boot.cause = 4 := by decide +kernel

theorem test_startUp_scan : (nxt (.startUp { goodObs with strapReads := List.replicate 15 0x1 }) held).boot.phase = .scan := by decide +kernel

theorem test_sysReset_short : (nxt (.sysResetNLow 100) up).boot.phase = .normal ∧ (nxt (.sysResetNLow 1000) up).boot.phase = .held := by decide +kernel

theorem test_powerFall : (nxt (.pwrGoodFall 1000) up).boot.phase = .held ∧
    ((nxt (.pwrGoodFall 1000) up).lantern.ring.map (·.code)).getLast? = some 0x0002 := by decide +kernel

/-! ## Steps: reading -/

theorem test_read : (nxt (.read 1 7) (readState opRead)).host.cmds = [] ∧
    ((nxt (.read 1 7) (readState opRead)).host.qps.map fun x => x.posted.map fun p => (p.comp.status, p.comp.result)) = [[(0, 1)]] := by decide +kernel

theorem test_read_data : Out.data .a 65536 [65, 66, 67] ∈ (nxt (.read 1 7) (readState opRead)).out := by decide +kernel

theorem test_verify : ((nxt (.verify 1 7) (readState opVerify)).host.qps.map fun x => x.posted.map fun p => (p.comp.status, p.comp.result)) =
    [[(0, 1)]] ∧ (nxt (.verify 1 7) (readState opVerify)).out.all (fun o => match o with | .data _ _ _ => false | _ => true) = true := by decide +kernel

theorem test_space : ((nxt (.space 1 7) (readState opSpace)).host.qps.map fun x => x.posted.map fun p => (p.comp.status, p.comp.result)) =
    [[(0, 1)]] ∧ ((nxt (.space 1 7) (readState opSpace)).drive.vol.map (·.posLon)) = some 1 := by decide +kernel


/-! ## The queue model -/

/-- The part runs with these queue pairs and no command; port A is a path. -/
def withQps (xs : List QueuePair) (s : State) : State :=
  s.onHost fun h => { h with qps := xs, portA := { h.portA with linkUp := true, bme := true, mse := true } }

/-- Queue sizes for the admin queue: 2 and 4,096. -/
def aqSized : State := up.onHost fun h => { h with aqSize := BitVec.ofNat 32 (2 + 4096 * 2 ^ 16) }

/-- A reset of the function is in progress. -/
def resetting (s : State) : State := s.onHost fun h => { h with resetBusy := true }

theorem test_hyp_AdminQueueStartsAsConfigured :
    (live aqSized = true ∧ aqSized.host.resetBusy = false ∧ qpOf aqSized 0 = none ∧ aqSizesOk aqSized.host = true) ∧
    (live up = true ∧ up.host.resetBusy = false ∧ qpOf up 0 = none ∧ aqSizesOk up.host = false) ∧
    (qpOf (withQps [qpIn 0] up) 0).isSome = true ∧ (live (resetting up) = true ∧ (resetting up).host.resetBusy = true) := by decide +kernel

theorem test_adminEnable : (nxt (.adminEnable .a) aqSized).host.qps.map (fun x => (x.qid, x.sqSize, x.cqSize)) = [(0, 2, 4096)] ∧
    (nxt (.adminEnable .a) up).host.cfgErr = true := by decide +kernel

theorem test_hyp_FunctionResetEndsEveryQueue : (live (resetting up) = true ∧ (resetting up).host.resetBusy = true) ∧
    (let s := withQps [qpIn 0] up
     live s = true ∧ s.host.resetBusy = false ∧ s.host.holdForSwitch = false ∧ s.host.cmds = [] ∧ s.host.resetting = [] ∧ s.drive.vol = none ∧
     ∀ x ∈ s.host.qps, x.exposed = [] ∧ x.heldComps = []) ∧ 1000 ≤ 1000 := by decide +kernel

theorem test_funcReset : (nxt (.funcReset .a) (withQps [qpIn 0] up)).host.qps = [] := by decide +kernel

/-- A queue pair with one entry posted in its CQ. -/
def postedQp : QueuePair :=
  { qpIn 1 with cqTail := 1, posted := [⟨0, 0x8000, ⟨7, 0, 0, none, false, (0, 0), [], [], 0⟩⟩] }

theorem test_hyp_DoorbellsMoveTheirQueues :
    (let s := withQps [qpIn 1] up
     live s = true ∧ qpOf s 1 = some (qpIn 1) ∧ (7 : BitVec 16).toNat < (qpIn 1).sqSize ∧ (s.host.resetting.any fun e => e.1 == 1) = false) ∧
    (let s := withQps [postedQp] up
     live s = true ∧ qpOf s 1 = some postedQp ∧ (1 : BitVec 16).toNat < postedQp.cqSize ∧ consumes postedQp 1 ≤ cqUsed postedQp ∧
     postedQp.heldComps = [] ∧ s.host.cmds = [] ∧ s.host.resetting = [] ∧ s.host.resetBusy = false) ∧
    ((qpIn 1).sqSize ≤ (8 : BitVec 16).toNat ∧ cqUsed postedQp < consumes postedQp 2 ∧ qpOf up 1 = none) := by decide +kernel

theorem test_cqHead : ((nxt (.cqHeadDoorbell .a 1 1) (withQps [postedQp] up)).host.qps.map (fun x => (x.cqHead, x.posted.length))) = [(1, 0)] := by
  decide +kernel

/-- A queue pair with one entry exposed. -/
def exposedQp : QueuePair := { qpIn 1 with sqTail := 1, exposed := [5] }

theorem test_hyp_FetchAndStartTakeTheQueueInTurn :
    (let s := withQps [exposedQp] up
     (live s = true ∧ s.host.holdForSwitch = false ∧ s.power.pstate = 0 ∧ s.host.cmds = [] ∧ s.host.resetting = [] ∧ s.host.resetBusy = false ∧
      fetchTurn s = some exposedQp ∧ qpOf s 1 = some exposedQp ∧ exposedQp.exposed = [5] ∧ exposedQp.heldComps = [] ∧ cqRoom exposedQp = true ∧
      queuePath s exposedQp = some .a) ∧
     entryCheck 1 0x12 (s.boot.phase == .fallback) false (fit 64 (ent opFence 7 [])) = none ∧ opcodeOf (fit 64 (ent opFence 7 [])) ≠ opNegotiate ∧
     entryCheck 1 0x12 (s.boot.phase == .fallback) false (fit 64 (ent 0xFF 7 [])) = some 0x0102) ∧
    (let c : Cmd := { cmdIn 1 opFence [] with phase := .fetched }
     let s := withCmd c up
     live s = true ∧ nextStart s = some c ∧ bufferOf c.entry [] = some [] ∧ resolveLon s c.entry = some 0) ∧
    nextStart up = none ∧ ((up.onPower fun p => { p with pstate := 1 }).power.pstate ≠ 0) ∧
    (up.onHost fun h => { h with holdForSwitch := true }).host.holdForSwitch = true := by decide +kernel

theorem test_sqFetch : ((nxt (.sqFetch [ent opFence 7 []]) (withQps [exposedQp] up)).host.cmds.map fun c => (c.qid, c.tag)) = [(1, 7)] ∧
    lastDone (nxt (.sqFetch [ent 0xFF 7 []]) (withQps [exposedQp] up)) 1 = some (0x0102, 0) := by decide +kernel

theorem test_commandStart : ((nxt (.commandStart []) (withCmd { cmdIn 1 opFence [] with phase := .fetched } up)).host.cmds.map (·.phase)) =
    [.started] := by decide +kernel

theorem test_hyp_CompletionIsOneEntryAfterItsData :
    let c := cmdIn 1 opFence []
    let s := withCmd c up
    s.host.cmds = [c] ∧ isDone c = false ∧ qpOf s 1 = some (qpIn 1) ∧ (∀ y ∈ s.host.qps, y.heldComps = []) ∧ queuePath s (qpIn 1) = some .a ∧
    cqRoom (qpIn 1) = true ∧ s.host.resetting = [] ∧ s.host.resetBusy = false := by decide +kernel

/-- Group 0 of the host holds one message for vector 3 of port A. -/
def holdingGroups : State :=
  (withQps [qpIn 1] up).onHost fun h => { h with
    groups := putAt h.groups 0 { ({} : HostGroup) with holdoff := 10, agg := 4, stale := 5, count := 1, held := [(3, .a)], openAt := some 4,
                                                       staleAt := some 4 },
    portA := { h.portA with msix := putAt h.portA.msix 3 0 } }

theorem test_hyp_ModerationDeliversTheGroupOnce :
    (live holdingGroups = true ∧ holdingGroups.host.groups[0].openAt = some 4 ∧ holdingGroups.host.groups[0].staleAt = some 4 ∧
     ∀ x ∈ holdingGroups.host.groups[0].held, isPath holdingGroups x.2 = true ∧ masked (portOf holdingGroups x.2) x.1 = false) ∧
    (let s := holdingGroups.onHost fun h => { h with portA := { h.portA with pba := 1 } }
     isPath s .a = true ∧ (portOf s .a).fnMask = false ∧ (portOf s .a).pba.getLsbD 0 = true) := by decide +kernel

theorem test_holdoff : (nxt (.holdoffExpiry 0) holdingGroups).out = [.msix .a 3] ∧ (nxt (.holdoffExpiry 0) holdingGroups).power.time = 1004 := by
  decide +kernel

theorem test_hyp_PortEventsMoveTheirPort :
    (let s := withQps [] up
     live s = true ∧ (portOf s .a).linkUp = true ∧ s.host.qps = [] ∧ s.host.cmds = []) ∧
    (isPath up .a = false ∧ outOf up .hostPort 0 = false ∧ up.host.qps = [] ∧ up.host.cmds = []) := by decide +kernel

theorem test_pathRestored : (portOf (nxt (.pathRestored ⟨.a, ⟨1, 3⟩⟩) up) .a).width = 8 ∧ (portOf (nxt (.pathRestored ⟨.a, ⟨1, 3⟩⟩) up) .a).rate = 5 := by
  decide +kernel


/-! ## Admin commands, keys and presence -/

/-- The part runs, and this admin command is in hand. -/
def admin (op : Nat) (fs : List (Nat × Bytes)) : State := withCmd (cmdIn 0 op fs) up

theorem test_hyp_RowsOutOfPlaceChangeNothing : live held = false ∧ actsHeld .wvnUpdate = false ∧ startedCmd up 0 7 opIdentify = none ∧
    cmdOf up 1 7 = none := by decide +kernel

theorem test_hyp_QueriesReturnTheirBytes :
    hand (admin opIdentify []) (cmdIn 0 opIdentify []) = true ∧ hand (admin opNegotiate [(48, [0x11])]) (cmdIn 0 opNegotiate [(48, [0x11])]) = true ∧
    (let c := cmdIn 0 opGetFeature [(48, [1])]
     hand (withCmd c up) c = true ∧ specField c.entry 48 1 = 1) ∧
    (let c := cmdIn 0 opGetFeature [(48, [3]), (49, [9])]
     hand (withCmd c up) c = true ∧ specField c.entry 48 1 = 3 ∧ qpOf (withCmd c up) (specField c.entry 49 1) = none) ∧
    (let c := cmdIn 0 opGetFeature [(48, [4]), (49, [31])]
     hand (withCmd c up) c = true ∧ specField c.entry 48 1 = 4) ∧
    (let c := cmdIn 0 opKeyQuery [(5, [63])]
     hand (withCmd c up) c = true ∧ slotField c.entry < 64) ∧
    hand (admin opAttest []) (cmdIn 0 opAttest []) = true := by decide +kernel

theorem test_negotiate : lastDone (nxt (.negotiate 7) (admin opNegotiate [(48, [0x11])])) 0 = some (0, 0x11) ∧
    lastDone (nxt (.negotiate 7) (admin opNegotiate [(48, [0x20])])) 0 = some (0, 0x12) := by decide +kernel

theorem test_getFeature : lastDone (nxt (.getFeature 7) (admin opGetFeature [(48, [1])])) 0 = some (0, 0x11) := by decide +kernel

/-- A CREATE_QP of queue 2 with sizes 2 and 2. -/
def createCmd (base : Nat) : Cmd := cmdIn 0 opCreateQp [(48, [2, 3, 1]), (52, le 2 1), (54, le 2 1), (24, le 8 base), (32, le 8 8192)]

/-- A QUEUE_RESET or a DELETE_QP of the idle queue 1. -/
def endQp (op : Nat) : State := (withCmd (cmdIn 0 op [(48, [1])]) up).onHost fun h => { h with qps := [qpIn 0, qpIn 1] }

theorem test_hyp_QueuePairsAreMadeAndEnded :
    (hand (withCmd (createCmd 4096) up) (createCmd 4096) = true ∧ qpRules (withCmd (createCmd 4096) up) (describedQp 0x12 (createCmd 4096).entry) = true ∧
     qpRules (withCmd (createCmd 4097) up) (describedQp 0x12 (createCmd 4097).entry) = false) ∧
    (∀ op ∈ [opQueueReset, opDeleteQp], let c := cmdIn 0 op [(48, [0])]
     hand (withCmd c up) c = true ∧ specField c.entry 48 1 = 0) ∧
    (∀ op ∈ [opQueueReset, opDeleteQp], let c := cmdIn 0 op [(48, [1])]
     hand (endQp op) c = true ∧ (endQp op).host.cmds = [c] ∧ specField c.entry 48 1 ≠ 0 ∧ qpOf (endQp op) 1 = some (qpIn 1) ∧
     (qpIn 1).exposed = [] ∧ (qpIn 1).heldComps = [] ∧ (qpIn 1).heldTail = none ∧ (endQp op).drive.vol = none ∧ (endQp op).host.resetting = [] ∧
     (endQp op).host.resetBusy = false ∧ (endQp op).cupola.ctxs = []) := by decide +kernel

theorem test_createQp : ((nxt (.createQp 7) (withCmd (createCmd 4096) up)).host.qps.map (·.qid)) = [0, 2] ∧
    lastDone (nxt (.createQp 7) (withCmd (createCmd 4097) up)) 0 = some (0x0101, 0) := by decide +kernel

theorem test_deleteQp : (qpOf (nxt (.deleteQp 7) (endQp opDeleteQp)) 1).isNone = true := by decide +kernel

/-- A SET_FEATURE of a feature, SEL and VALUE. -/
def setFeature (fid sel v : Nat) : Cmd := cmdIn 0 opSetFeature [(48, le 1 fid), (49, le 1 sel), (52, le 4 v), (56, le 2 9)]

theorem test_hyp_FeaturesStoreTheirValues :
    (∀ f ∈ [1, 2, 3, 4, 6], hand (withCmd (setFeature f 0 0x10) up) (setFeature f 0 0x10) = true ∧
      specField (setFeature f 0 0x10).entry 48 1 = f) ∧ specField (setFeature 4 31 0).entry 49 1 < 32 ∧
    (let s := (withCmd (setFeature 3 0 0) up).onHost fun h => { h with qps := [{ qpIn 0 with multipath := true }] }
     qpOf s 0 = some { qpIn 0 with multipath := true } ∧ isPath s (portOfBit 0) = true) ∧ (qpIn 0).multipath = false ∧
    (specField (setFeature 6 0 (2 ^ 31)).entry 52 4).testBit 31 = true ∧ (specField (setFeature 6 1 5).entry 52 4).testBit 31 = false := by
  decide +kernel

theorem test_formatFloor : (nxt (.formatFloor 7) (withCmd (setFeature 1 0 0x10) up)).host.floor = 0x10 := by decide +kernel

theorem test_wake : (nxt (.wake 7) (withCmd (setFeature 2 1 1) up)).host.portB.wakeEn = true := by decide +kernel

theorem test_hyp_TheIntegratorAreaIsWrittenAlone :
    let c := setFeature 5 0 0
    (hand (withCmd c up) c = true ∧ specField c.entry 48 1 = 5 ∧ (withCmd c up).drive.vol = none) ∧
    ((mounted 1 (withCmd c up)).drive.vol.isSome = true ∧ c.goal = 0 ∧ hand (withCmd { c with goal := 2 } up) { c with goal := 2 } = true ∧
     hand (withCmd { c with goal := 3 } up) { c with goal := 3 } = true) ∧ (zeros 1024).length = 1024 ∧
    (⟨cmFrame 2 (cmTransceive 200 []), .write 0 []⟩ : CmReq).job = .write 0 [] := by decide +kernel

theorem test_cmArea : lastDone (nxt (.cmArea 7 []) (withCmd (setFeature 5 0 0) up)) 0 = some (0x0411, 0) := by decide +kernel

/-- A GET_LOG of the device events with room for one entry. -/
def logCmd (consume : Nat) : Cmd := cmdIn 0 opGetLog [(48, [1]), (49, le 1 consume), (40, le 8 16)]

theorem test_hyp_LogEntriesAreConsumedAsRead : hand (withCmd (logCmd 1) up) (logCmd 1) = true ∧ specField (logCmd 1).entry 48 1 = 1 ∧
    specField (logCmd 1).entry 56 8 = 0 ∧ (specField (logCmd 1).entry 49 1).testBit 0 = true ∧ (specField (logCmd 0).entry 49 1).testBit 0 = false := by
  decide +kernel

/-- Key slot 5 stands in a state. -/
def slotIn (st : SlotState) (s : State) : State := onSlot 5 (fun k => { k with state := st }) s

/-- A key command on slot 5. -/
def keyCmd (op : Nat) : Cmd := cmdIn 0 op [(5, [5])]

theorem test_hyp_KeySlotsChangeAsTheTableSays :
    (∀ op ∈ [opKeyLoad, opKeyErase], hand (withCmd (keyCmd op) up) (keyCmd op) = true ∧ slotField (keyCmd op).entry = 5) ∧
    (∀ st ∈ [SlotState.empty, .live, .shadowed, .withdraw], (keySlot (slotIn st up) 5).state = st) ∧
    loadedGen (keyCmd opKeyLoad) [] (up.onTrust fun t => { t with debug := true }) = none ∧ live (slotIn .withdraw up) = true := by decide +kernel

theorem test_keyErase_empty : lastDone (nxt (.keyErase 7) (withCmd (keyCmd opKeyErase) up)) 0 = some (0, 0) := by decide +kernel

theorem test_keyLoad_busy : lastDone (nxt (.keyLoad 7 []) (withCmd (keyCmd opKeyLoad) (slotIn .shadowed up))) 0 = some (0x0307, 0) := by
  decide +kernel

/-- A PRESENCE_OP of this number. -/
def presenceCmd (n : Nat) : Cmd := cmdIn 0 opPresence [(48, le 1 n)]

/-- Presence is shown, the seal is intact and STRAP[1] is set. -/
def present (s : State) : State :=
  (s.onTrust fun t => { t with press := some 0, sealOk := true, sealBroken := false }).onBoot fun b => { b with straps := 2 }

theorem test_hyp_PresenceOpensAndGates :
    (∀ n ∈ [1, 2, 3, 4, 5, 6], hand (withCmd (presenceCmd n) up) (presenceCmd n) = true ∧ specField (presenceCmd n).entry 48 1 = n) ∧
    presenceOk up = false ∧ up.boot.straps.getLsbD 1 = false ∧ presenceOk (present up) = true ∧ (present up).boot.straps.getLsbD 1 = true ∧
    live (present up) = true ∧ (up.lantern.armed = false ∧ up.lantern.postLeft = 0) ∧ keyBlockOk (fit 17872 []) = false ∧
    (present up).trust.press = some 0 ∧ (up.onTrust fun t => { t with permit := some 9 }).trust.permit = some 9 := by decide +kernel

theorem test_presence : lastDone (nxt (.resetFailedStartCounter 7) (withCmd (presenceCmd 6) up)) 0 = some (0x0500, 0) ∧
    (nxt (.resetFailedStartCounter 7) (withCmd (presenceCmd 6) (present (up.onBoot fun b => { b with fails := 2 })))).boot.fails = 0 := by
  decide +kernel

theorem test_window : (nxt .presenceWindowExpiry (present up)).power.time = 12000000000 ∧
    (nxt .presenceWindowExpiry (present up)).trust.press = none := by decide +kernel


/-! ## Time base, latches, pins, temperature -/

/-- The block in power state 4, its rails down. -/
def ps4 (s : State) : State := s.onPower fun p => { p with pstate := 4, rails := 0 }

theorem test_hyp_TimeBaseGoesOver : (up.onPower fun p => { p with src := .holdover }).power.src = .holdover ∧ TimeSource.portA ≠ .holdover ∧
    (up.onPower fun p => { p with src := .portB }).power.src ≠ .holdover := by decide +kernel

theorem test_timeBase : (nxt (.timeBaseSwitch false false) (up.onPower fun p => { p with src := .portA })).power.cntHoldover = 1 ∧
    (nxt (.timeBaseSwitch true true) up).power.src = .portA := by decide +kernel

/-- One mismatch has been seen on the seal loop, which still counts as closed. -/
def oneMiss : State := up.onTrust fun t => { t with mismatches := 1, sealOk := true }

theorem test_hyp_LatchesSealAndAlarms : (live up = true ∧ up.power.pstate ≠ 4) ∧ (ps4 up).power.pstate = 4 ∧
    (let bit := (lfsrStep oneMiss.trust.lfsr).getLsbD 0
     (!bit) ≠ bit ∧ 1 ≤ oneMiss.trust.mismatches ∧ oneMiss.trust.sealOk = true ∧ up.trust.mismatches = 0) ∧
    (live held = false ∧ held.power.pstate ≠ 4) ∧ lfsrStep 1 = lfsrStep 1 ∧ (1 : BitVec 16) ≠ 0 := by decide +kernel

theorem test_wakeLatch : (nxt (.wakeLatch 5 99) State.reset).blf.latched = 0 ∧ (nxt (.wakeLatch 5 100) State.reset).blf.latched = 0x20 := by
  decide +kernel

theorem test_sealLfsrTick : let bit := (lfsrStep up.trust.lfsr).getLsbD 0
    (nxt (.sealLfsrTick (!bit) bit) up).trust.mismatches = 1 ∧ (nxt (.sealLfsrTick bit bit) oneMiss).trust.mismatches = 0 := by decide +kernel

/-- Shock inhibits writing; tokens were standing. -/
def shocked : State := up.onWr fun w => { w with sources := 2, inhibited := true }

theorem test_hyp_PinsActOnTheirLatchesAndInhibits : (live up = true ∧ (0x1 : BitVec 4) ≠ up.boot.straps) ∧
    (up.wr.sources = 0 ∧ (up.onWr fun w => { w with tokens := true }).wr.tokens = true ∧ up.wr.sources.getLsbD 1 = false) ∧
    shocked.wr.sources.getLsbD 1 = true ∧ (up.onWr fun w => { w with holdUntil := some 5 }).wr.holdUntil = some 5 ∧ up.wr.holdUntil = none ∧
    live held = false := by decide +kernel

theorem test_shockHold : ((nxt .shockNClear shocked).wr.sources, (nxt .shockHoldExpiry (nxt .shockNClear shocked)).wr.holdUntil) = (0, none) := by
  decide +kernel

theorem test_hyp_CartridgesComeAndGo : up.drive.cart = none ∧
    (up.onDrive fun d => { d with cart := some cart0 }).drive.cart = some cart0 := by decide +kernel

theorem test_hyp_TemperatureDrivesTheThermalCap : (live up = true ∧ up.power.pstate ≠ 4) ∧
    (let s := up.onPower fun p => { p with hotMs := 1000 }
     1000 ≤ s.power.hotMs ∧ s.wvn.capT = 16 ∧ (s.onWvn fun w => { w with capT := 15 }).wvn.capT < 16) ∧
    (let s := (up.onPower fun p => { p with coolMs := 10000 }).onWvn fun w => { w with capT := 15 }
     s.power.hotMs < 1000 ∧ 10000 ≤ s.power.coolMs ∧ s.wvn.capT < 16) ∧
    (up.power.hotMs < 1000 ∧ up.power.coolMs < 10000) := by decide +kernel

theorem test_thermalSample : (nxt (.thermalSample (Vector.replicate 16 102999)) up).power.hotMs = 0 ∧
    (nxt (.thermalSample (Vector.replicate 16 103000)) up).power.hotMs = 1 := by decide +kernel

theorem test_thermalCapStep : (nxt .thermalCapStep ((up.onPower fun p => { p with hotMs := 1000 }).onWvn fun w => { w with r := 4096 })).wvn.capT = 14 ∧
    (nxt .thermalCapStep (up.onPower fun p => { p with hotMs := 999 })).wvn.capT = 16 := by decide +kernel

/-! ## Power states -/

/-- A POWER_STATE command for this target. -/
def powerCmd (n : Nat) : Cmd := cmdIn 0 opPowerState [(48, le 1 n)]

theorem test_hyp_PowerStatesSwitchTheirDomains :
    (∀ n ∈ [0, 2, 3, 4], let s := withCmd (powerCmd n) up
     hand s (powerCmd n) = true ∧ specField (powerCmd n).entry 48 1 = n ∧ s.drive.vol = none ∧ s.wr.sets = [] ∧ outCount s .aon = 0) ∧
    powerRefusal (mounted 1 up) 2 = some 2 ∧ (up.onPower fun p => { p with ps4Due := some 1 }).power.ps4Due = some 1 ∧ up.power.ps4Due = none ∧
    (wakes (ps4 up) (.perst .a) = true ∧ wakes (up.onPower fun p => { p with pstate := 2 }) .doorbell = true ∧ wakes up .doorbell = false) ∧
    (let s := (ps4 up).onBlf fun b => { b with latched := 2 }
     s.power.pstate = 4 ∧ s.blf.latched.getLsbD 1 = true ∧ wakes s (.latch 1) = true) ∧
    (live up = true ∧ gated up.power.pstate 63 = true ∧ domainIdle up 63 = true ∧ gated up.power.pstate 64 = false) ∧
    domainIdle (up.onWvn fun w => { w with run := .writing }) 0 = false := by decide +kernel

theorem test_powerState : lastDone (nxt (.powerState 7) (withCmd (powerCmd 2) (mounted 1 up))) 0 = some (0x0220, 2) ∧
    (nxt (.powerState 7) (withCmd (powerCmd 2) up)).power.pstate = 2 := by decide +kernel

theorem test_ps4Commit : (enterPs4 0x5F up).power.rails = 0x20 ∧ (enterPs4 0x5F up).power.pstate = 4 ∧
    (nxt (.powerStateExit (.perst .b)) (ps4 up)).power.rails = 0x7F := by decide +kernel

theorem test_domainIdleGate : let s := up.onPower fun p => { p with domOn := 2 ^ 111 - 1 }
    (nxt (.domainIdleGate 3) s).power.domOn.getLsbD 3 = false ∧ (nxt (.domainIdleGate 64) s).power.domOn.getLsbD 64 = true := by decide +kernel

/-! ## Firmware and tables -/

/-- An FW_STAGE of four bytes at an offset. -/
def stageCmd (ofs : Nat) : Cmd := cmdIn 0 opFwStage [(52, le 4 ofs), (40, le 8 4)]

/-- An FW_ACTIVATE in a mode. -/
def activateCmd (mode : Nat) : Cmd := cmdIn 0 opFwActivate [(48, le 1 mode), (52, le 4 5)]

/-- A verified image stands staged. -/
def fwReady (s : State) : State := s.onBoot fun b => { b with stagedOk := true }

/-- An activation is pending. -/
def pendingAct (mode : Nat) (w : Option (BitVec 16)) : State := up.onBoot fun b => { b with activation := some (mode, w) }

theorem test_hyp_FirmwareIsStagedThenActivated :
    (let s := withCmd (stageCmd 0) up
     hand s (stageCmd 0) = true ∧ s.boot.activation = none ∧ Memory.wf s.boot.flash ∧ specField (stageCmd 0).entry 52 4 = 0 ∧
     0 + lengthField (stageCmd 0).entry ≤ fwSlotLen ∧ (specField (stageCmd 0).entry 49 1).testBit 0 = false) ∧
    (hand (withCmd (stageCmd 8) up) (stageCmd 8) = true ∧ specField (stageCmd 8).entry 52 4 ≠ up.boot.staged) ∧
    (∀ m ∈ [0, 1], let s := withCmd (activateCmd m) up
     hand s (activateCmd m) = true ∧ s.boot.stagedOk = false ∧ (fwReady s).boot.stagedOk = true ∧ s.boot.phase = .normal ∧ s.boot.activation = none ∧
     specField (activateCmd m).entry 48 1 = m ∧ s.drive.vol = none ∧ (mounted 1 s).drive.vol ≠ none) := by decide +kernel

theorem test_fwStage : (nxt (.fwStage 7 [1, 2, 3, 4] true) (withCmd (stageCmd 0) up)).boot.staged = 4 ∧
    lastDone (nxt (.fwStage 7 [1, 2, 3, 4] true) (withCmd (stageCmd 8) up)) 0 = some (0x0101, 0) := by decide +kernel

theorem test_fwActivate_nothing : lastDone (nxt (.fwActivate 7) (withCmd (activateCmd 0) up)) 0 = some (0x0603, 0) := by decide +kernel

theorem test_hyp_TheCoresSwitchTogether :
    (let s := pendingAct 0 none
     s.boot.phase = .normal ∧ switchReady s 0 = true ∧ switchReady (mounted 1 s) 0 = false ∧ s.host.resetAfterSwitch = none ∧
     checkSlot (s.onBoot fun b => { b with minVersion := permitFloor s }) (spareSlot s) true true ≠ 1) ∧
    (∀ m ∈ [1, 2], live (pendingAct m (some 7)) = true ∧ (pendingAct m (some 7)).boot.activation = some (m, some 7)) ∧ up.boot.activation = none ∧
    (let s := (pendingAct 0 none).onBlf fun b => { b with coreOk := 0xF }
     s.blf.coreOk.getLsbD 3 = true ∧ outOf s .controlCore 3 = false ∧ outCount s .controlCore < 3) := by decide +kernel

theorem test_idleTimeout : (nxt .activationIdleTimeout (pendingAct 1 (some 7))).boot.activation = some (0, none) ∧
    (nxt .activationStillTimeout (pendingAct 2 (some 7))).boot.activation = some (0, none) := by decide +kernel

/-- A TABLE_LOAD of a type, 64 bytes long. -/
def tableCmd (ty : Nat) : Cmd := cmdIn 0 opTableLoad [(48, le 1 ty), (40, le 8 64)]

theorem test_hyp_TablesTakeEffectAsTheirTypeAsks : hand (withCmd (tableCmd 1) up) (tableCmd 1) = true ∧
    tableRefusal (withCmd (tableCmd 1) up) 1 (fit (lengthField (tableCmd 1).entry) []) = some 2 := by decide +kernel

/-! ## The volume -/

/-- Every head-link group is up. -/
def allUp (s : State) : State := s.onHlk fun h => { h with groups := Vector.replicate 8 upGroup, groupEn := 0xFF }

/-- A cartridge whose manufacturer's page is sound, and a Steeple table with programs. -/
def goodCart : Cartridge :=
  let page := zeros 16 ++ le 2 0x0E01 ++ zeros 234
  { cart0 with cm := (page ++ le 4 (crc32Bytes page)).mapIdx fun i b => (i, b) }

/-- Five tape-ID records of one tape. -/
def fiveIds : List Bytes := (List.range 5).map fun k =>
  let r := zeros 16 ++ le 1 k ++ [1] ++ zeros 10
  r ++ be 4 (crc32 (byteBits r))

/-- The drive holds the cartridge, Steeple has its table, and is in this mode. -/
def loadable (m : SteepleMode) (s : State) : State :=
  ((((allUp s).onDrive fun d => { d with cart := some { goodCart with tapeIds := fiveIds } }).onPins fun p => { p with cartPresentN := false }).onTrust
    fun t => { t with tables := putAt t.tables 1 (some ([], List.replicate 16384 1)) }).onStp fun p => { p with mode := m }

/-- A MOUNT at a point of its course. -/
def mountCmd (goal : Nat) : Cmd := { cmdIn 1 opMount [] with goal := goal }

/-- STRAP[2] is set. -/
def strap2 (s : State) : State := s.onBoot fun b => { b with straps := 4 }

theorem test_hyp_MountsBringAVolumeIntoForce :
    (∀ g ∈ [0, 1, 2, 3, 6], hand (withCmd (mountCmd g) up) (mountCmd g) = true) ∧
    (up.drive.vol = none ∧ up.drive.cart = none ∧ (mounted 1 up).drive.vol.isSome = true) ∧
    (let s := loadable .fault up
     s.drive.vol = none ∧ s.drive.cart.isSome = true ∧ s.pins.cartPresentN = false ∧ s.stp.mode = .fault) ∧
    (mountCheckFirst (loadable .off up) = none ∧ (loadable .off up).stp.mode = .off ∧ programAllowed (loadable .off up) 0 = true) ∧
    (mountCheckFirst (loadable .still up) = none ∧ (loadable .still up).stp.mode = .still ∧ up.stp.program.fault = 0 ∧ cmIdle up = true) ∧
    (let c := cmdIn 1 opUnmount []
     hand (withCmd c up) c = true ∧ hand (withCmd { c with goal := 2 } up) { c with goal := 2 } = true ∧ up.stp.mode = .off) := by decide +kernel

theorem test_hyp_mountChecks : mountCheckLast (strap2 (loadable .still up)) = none ∧ mountCheckLast (loadable .still up) = some 0x0413 := by
  decide +kernel

theorem test_mount : lastDone (nxt (.mount 1 7) (withCmd (mountCmd 0) up)) 1 = some (0x0412, 0) ∧
    (nxt (.mount 1 7) (withCmd (mountCmd 0) (loadable .off up))).stp.program.running = true := by decide +kernel

/-- A LOCATE, TRUNCATE or READ_POSITION of LON x. -/
def lonCmd (op x : Nat) : Cmd := cmdIn 1 op [(5, [255]), (8, le 8 x)]

theorem test_hyp_PositionCommandsDoAsTheySay :
    (∀ x ∈ [0, 1, 2], let c := lonCmd opLocate x
     let s := staged (mounted 1 (withCmd c up))
     hand s c = true ∧ s.drive.vol = some (volOf 1) ∧ (partAt s (partField c.entry)).inUse = true ∧ lonField c.entry = x) ∧
    logicalEndOf (staged (mounted 1 up)) 0 = 1 ∧ locateObj (staged (mounted 1 up)) 0 0 = .object readObj ∧
    (partAt (mounted 1 up) 1).inUse = false ∧ inReadAhead up readObj = false ∧ inReadAhead up { readObj with deps := [] } = false ∧
    (let c := lonCmd opReadPosition 0
     hand (mounted 1 (withCmd c up)) c = true) ∧
    (∀ x ∈ [0, 2], let c := lonCmd opTruncate x
     let s := mounted 1 (withCmd c up)
     hand s c = true ∧ (partAt s (partField c.entry)).inUse = true ∧ writable s = true ∧ durableFlag c.entry = false) ∧
    writable (up.onDrive fun d => { d with vol := some { volOf 1 with readOnly := true } }) = false := by decide +kernel

theorem test_locate : lastDone (nxt (.locate 1 7) (mounted 1 (withCmd (lonCmd opLocate 2) up))) 1 = some (0x0401, 1) ∧
    lastDone (nxt (.locate 1 7) (mounted 1 (withCmd (lonCmd opLocate 1) up))) 1 = some (0, 1) := by decide +kernel

theorem test_truncate : lastDone (nxt (.truncate 1 7) (mounted 3 (withCmd (lonCmd opTruncate 1) up))) 1 = some (0, 2) := by decide +kernel

theorem test_readPosition : lastDone (nxt (.readPosition 1 7) (withCmd (lonCmd opReadPosition 0) up)) 1 = some (0x0411, 0) ∧
    lastDone (nxt (.readPosition 1 7) (mounted 1 (withCmd (lonCmd opReadPosition 0) up))) 1 = some (0, 0) := by decide +kernel

/-- An earlier command of queue 1, not done yet. -/
def earlierCmd : Cmd := { cmdIn 1 opWrite [] with tag := 6, phase := .packing }

/-- A FENCE behind it. -/
def fenceCmd : Cmd := { cmdIn 1 opFence [] with order := (0, 1) }

theorem test_hyp_SyncAndFenceCompleteWhenNothingWaits :
    (∀ op ∈ [opSync, opFence], let c := cmdIn 1 op []
     aloneIn (withCmd c up) c op = true ∧ c.waits = [] ∧ (mounted 1 (withCmd c up)).drive.vol.isSome = true ∧ (withCmd c up).wr.sets = [] ∧
     (withCmd c up).wvn.run = .none ∧ unfetchedBefore (withCmd c up) c.order = false ∧ up.drive.vol = none) ∧
    (let s := (withCmd fenceCmd up).onHost fun h => { h with cmds := [fenceCmd, earlierCmd] }
     hand s fenceCmd = true ∧ earlierCmd.phase = .packing ∧ earlierCmd.qid = 1 ∧ earlierCmd.tag ≠ fenceCmd.tag ∧
     before earlierCmd.order fenceCmd.order = true ∧ s.host.resetting = [] ∧ s.host.resetBusy = false) := by decide +kernel

theorem test_fence : lastDone (nxt (.fence 1 7) (withCmd fenceCmd up)) 1 = some (0, 0) ∧
    ((nxt (.fence 1 7) ((withCmd fenceCmd up).onHost fun h => { h with cmds := [fenceCmd, earlierCmd] })).host.cmds.map (·.phase)) =
      [.fenceWait, .packing] := by decide +kernel

theorem test_sync : (nxt (.sync 1 7) (mounted 1 (withCmd (cmdIn 1 opSync []) up))).host.cmds = [] := by decide +kernel

/-- A REFRESH of this ACTION at a point of its course. -/
def refreshCmd (action goal : Nat) : Cmd := { cmdIn 1 opRefresh [(48, le 1 action)] with goal := goal }

/-- A PARTITION of one partition over wraps 0 to 19, at a point of its course. -/
def partCmd (goal : Nat) : Cmd :=
  { cmdIn 1 opPartition [(48, [0, 19, 255, 255, 255, 255, 255, 255])] with goal := goal, waits := [(0, 0, false)] }

theorem test_hyp_RefreshAndPartitionFollowTheTape :
    (∀ g ∈ [0, 1, 2, 3], ∀ a ∈ [0, 1], hand (withCmd (refreshCmd a g) up) (refreshCmd a g) = true ∧
      specField (refreshCmd a g).entry 48 1 = a) ∧ refreshStop up = some 0x0411 ∧ refreshStop (mounted 1 up) = none ∧
    tapeSettled (mounted 1 up) = true ∧
    (∀ g ∈ [0, 1, 2], hand (withCmd (partCmd g) up) (partCmd g) = true) ∧ partitionStop up (askedMap (partCmd 0).entry) = some 0x0411 ∧
    partitionStop (allUp (mounted 0 up)) (askedMap (partCmd 0).entry) = none ∧
    waitsOver (withCmd (partCmd 1) (mounted 0 up)) (partCmd 1) = true ∧ (mounted 0 up).drive.vol.isSome = true ∧ cmIdle up = true ∧
    (let s := up.onDrive fun d => { d with link := { d.link with queue := [⟨[], .done .usage⟩] } }
     cmIdle s = false) := by decide +kernel

theorem test_refresh : lastDone (nxt (.refreshLocateIndex 1 7) (withCmd (refreshCmd 1 0) up)) 1 = some (0x0411, 0) ∧
    lastDone (nxt (.refreshFullRebuild 1 7) (mounted 1 (withCmd (refreshCmd 0 2) up))) 1 = some (0, 0) := by decide +kernel

/-! ## Cipher -/

/-- A whole counter-mode encryption under slot 5, or another segment. -/
def cryptCmdIn (seg : Nat) : Cmd := cmdIn 1 opCrypt [(5, [5]), (40, le 8 16), (48, [2, BitVec.ofNat 8 (2 * seg), 0, 9])]

/-- A generation that may encrypt, with room. -/
def cryptGen : Gen := { num := 1, key := zeros 32, keyId := zeros 16, use := 2, limit := 9, base := 0, used := 0, bound := 0, reserved := 0, derived := none }

/-- It is the current one of slot 5. -/
def withGen (s : State) : State := onSlot 5 (fun k => { k with state := .live, cur := some cryptGen }) s

theorem test_hyp_CryptRunsUnderItsKey :
    (∀ g ∈ [0, 1, 2, 3], let c := cryptCmdIn g
     let s := withCmd c up
     hand s c = true ∧ cryptReady s c = true ∧ cryptReady (s.onHost fun h => { h with qps := [] }) c = false ∧ cryptSeg c = g ∧
     ctxOf s (cryptHandle c) = none ∧ curGen s (slotField c.entry) = none) ∧
    (let c := cryptCmdIn 0
     let s := withGen (withCmd c up)
     hand s c = true ∧ qpOf s 1 = some (qpIn 1) ∧ queuePath s (qpIn 1) = some .a ∧ s.cupola.inService ≠ 0 ∧ cryptMode c = 2 ∧ cryptSeg c = 0 ∧
     cryptDir c = false ∧ slotField c.entry < 64 ∧ curGen s (slotField c.entry) = some cryptGen ∧ useCrypt cryptGen = true ∧
     cryptGen.used < cryptGen.limit ∧ c.writes = [] ∧ c.sent = 0) ∧
    handleNamed up 255 = false ∧ handleNamed (withCmd (cryptCmdIn 2) up) 9 = true := by decide +kernel

theorem test_crypt : lastDone (nxt (.crypt 1 7 [] []) (withCmd (cryptCmdIn 0) up)) 1 = some (0x0305, 0) ∧
    lastDone (nxt (.crypt 1 7 [] []) (withCmd (cryptCmdIn 3) up)) 1 = some (0x0306, 0) := by decide +kernel

/-! ## Writing and reading objects -/

/-- A WRITE or WRITE_MARK of one object at the logical end. -/
def writeCmdIn (op n : Nat) : Cmd := cmdIn 1 op [(5, [255]), (8, le 8 1), (16, le 8 n), (24, le 8 65536), (40, le 8 3)]

theorem test_hyp_WritesEnterTheStream :
    (∀ op ∈ [opWrite, opWriteMark], let c := writeCmdIn op 1
     let s := allUp (mounted 1 (withCmd c up))
     aloneIn s c op = true ∧ (withCmd c up).drive.vol = none ∧ memoryRefuses s = false ∧ writeStop s c 3 = none ∧
     (writeSel s (slotField c.entry) (groupFloor s (partField c.entry))).toOption = some ⟨0, 255, 0⟩ ∧ roomLacks s ⟨0, 255, 0⟩ 1 = false ∧
     s.wr.stalled = false ∧ lonField c.entry = logicalEndOf s (partField c.entry) ∧ reading s = false ∧ s.cz.finished = [] ∧ s.cz.source = [] ∧
     c.met = [] ∧ countField c.entry = 1 ∧ durableFlag c.entry = false ∧ (∀ e ∈ s.cz.engines.toList, e = [])) ∧
    (let c := writeCmdIn opWrite 1
     lengthsOk c (recordLengths c []) = true ∧ (recordLengths c []).sum = 3 ∧ hasPath up 1 = false) ∧
    (let c := writeCmdIn opWrite 2
     hand (withCmd c up) c = true ∧ hasPath (withCmd c up) 1 = true ∧ lengthsOk c (recordLengths c [1, 1]) = false) := by decide +kernel

theorem test_writeMark : lastDone (nxt (.writeMark 1 7) (withCmd (writeCmdIn opWriteMark 1) up)) 1 = some (0x0411, 0) := by decide +kernel

theorem test_write : let t := nxt (.write 1 7 [] [1, 2, 3]) (allUp (mounted 1 (withCmd (writeCmdIn opWrite 1) up)))
    (t.host.cmds.map fun k => (k.phase, k.lon, k.goal)) = [(.packing, 1, 1)] ∧ t.cz.nextOrder = 1 := by decide +kernel

theorem test_hyp_ReadsPassOneObjectAtATime :
    (∀ op ∈ [opRead, opVerify], let s := mounted 0 (withCmd (readCmd op) up)
     aloneIn s (readCmd op) op = true ∧ s.drive.vol = some (volOf 0) ∧ (partAt s 0).inUse = true ∧ logicalEndOf s 0 ≤ (readCmd op).lon ∧
     0 < countField (readCmd op).entry ∧ (readCmd op).met = [] ∧ (readCmd op).count = 0) ∧
    (readMet opRead = true ∧ readMet opVerify = true ∧ readMet opSpace = true ∧ (readState opRead).rd.badBlocks = [] ∧
     (readCmd opRead).sent = 0 ∧ (readCmd opRead).used = 0 ∧ (readCmd opRead).inRec = 0) ∧
    (∀ n ∈ [0, 2 ^ 64 - 1], let c := { cmdIn 1 opSpace [(5, [255]), (16, le 8 n)] with lon := 1 }
     let s := staged (mounted 1 (withCmd c up))
     aloneIn s c opSpace = true ∧ s.drive.vol = some (volOf 1) ∧ (partAt s (partField c.entry)).inUse = true ∧ c.met = [] ∧ c.used = 0 ∧
     specField c.entry 48 1 = 0 ∧ countField c.entry = n ∧ 0 < c.lon ∧ findObj s c (c.lon - 1) = .object readObj ∧ readObj.mark = false) := by
  decide +kernel

theorem test_read_end : lastDone (nxt (.read 1 7) (mounted 0 (withCmd (readCmd opRead) up))) 1 = some (0x0401, 0) ∧
    lastDone (nxt (.verify 1 7) (mounted 0 (withCmd (readCmd opVerify) up))) 1 = some (0x0401, 0) := by decide +kernel

/-! ## The write path -/

/-- A data set of partition 0 at a stage, numbered n. -/
def setAt (st : DsStage) (n : Option Nat) : DataSet := { recSet with stage := st, n := n }

/-- These sets are staged. -/
def withSets (l : List DataSet) (s : State) : State := s.onWr fun w => { w with sets := l, nextId := 9 }

/-- A block of three bytes, in an engine. -/
def blockItem : StreamItem :=
  { order := 0, part := 0, qid := 1, tag := 7, sel := ⟨0, 255, 0⟩, mark := false, first := true, last := true, group := false, groupEnd := false,
    effort := 1, run := none, data := [1, 2, 3], length := 3 }

theorem test_hyp_PayloadsAreSealedEncodedAndProtected :
    (let s := up.onCz fun c => { c with engines := putAt c.engines 3 [blockItem] }
     live s = true ∧ getAt s.cz.engines 3 [] = [blockItem] ∧ s.cz.source = [] ∧ getAt s.cz.engines 0 [] = []) ∧
    backlog up + unreleased up + 256 * mib < 20 * gib - 64 * mib ∧
    (let d := setAt .closed none
     let s := withSets [d] (mounted 1 up)
     live s = true ∧ oldestAt s .closed = some d ∧ stagedSet s d.id = some d ∧ d.sel.cipher = 0 ∧ oldestAt s .sealed = none) ∧
    (let d := setAt .sealed (some 0)
     let s := withSets [d] up
     live s = true ∧ oldestAt s .sealed = some d ∧ stagedSet s d.id = some d ∧ oldestAt s .closed = none) ∧
    (let s := (withSets [setAt .encoded (some 512)] up).onWr fun w => { w with closed := [(1, 0)] }
     live s = true ∧ closingPos s 1 = some 0 ∧ domeEncoded s 1 0 0 = true ∧ domeEncoded s 1 7 0 = true ∧ (1, 0) ∉ s.wr.domesReady ++ s.wr.domesReleased ∧
     closingPos s 0 = none) := by decide +kernel

theorem test_eccEncode_nothing : (nxt .eccEncode up).wr.sets = [] ∧ (nxt .cupolaInvocation up).wr.sets = [] := by decide +kernel

/-- A write run streams on wrap 3 at this slot, every group up. -/
def writingAt (slot : Nat) (s : State) : State :=
  (((allUp s).onWvn fun w => { w with run := .writing, state := .stream }).onStp fun p => { p with mode := .track, speedOk := true }).onWr
    fun w => { w with slot := slot, wrap := 3, tokens := true }

/-- A read run streams on wrap 3 at this slot. -/
def readingAt (slot : Nat) (s : State) : State :=
  (s.onWvn fun w => { w with run := .reading, state := .stream }).onRd fun r => { r with slot := slot, wrap := 3 }

/-- A first copy of set 0 stands at slot 5, not verified yet. -/
def oneCommit : Commit := { slot := 5, id := 0, rewritten := false, point := 0, affected := false, cfg := 0, cfg2 := 0 }

/-- Its verify has these grades in every channel. -/
def verifying (grade : Nat) (s : State) : State :=
  ((withSets [setAt .committed (some 0)] s).onWr fun w => { w with commits := [oneCommit] }).onTiles fun k =>
    { k with verifies := [⟨5, List.replicate 1024 grade, false⟩] }

theorem test_hyp_SlotsAreCommittedThenVerified :
    committing up = false ∧ (live (writingAt slotsPerWrap up) = true ∧ committing (writingAt slotsPerWrap up) = true) ∧
    (let s := writingAt (slotsPerWrap - 1) (up.onWr fun w => { w with sources := 2 })
     live s = true ∧ committing s = true ∧ s.wr.slot < slotsPerWrap ∧ anyGroupFailed s = false ∧ training s = false ∧ writeFree s = false) ∧
    (let d := setAt .encoded (some 0)
     let s := (writingAt 0 (withSets [d] (mounted 1 up))).onWr fun w => { w with requeued := [0] }
     live s = true ∧ committing s = true ∧ s.wr.slot < slotsPerWrap ∧ anyGroupFailed s = false ∧ training s = false ∧ writeFree s = true ∧
     memoryRefuses s = false ∧ s.wr.tokens = true ∧ s.wr.skipLeft = 0) ∧
    (let s := verifying 2 up
     live s = true ∧ (s.wr.commits.find? fun c => c.slot == 5) = some oneCommit ∧ oneCommit.affected = false ∧
     stagedSet s oneCommit.id = some (setAt .committed (some 0)) ∧ (setAt .committed (some 0)).stage ≠ .passed ∧ 0 < s.wr.nextId) ∧
    (∀ c ∈ up.wr.commits, c.slot ≠ 5) ∧
    ((writingAt slotsPerWrap up).wvn.run = .writing ∧ (writingAt slotsPerWrap up).wvn.state = .stream ∧ (writingAt slotsPerWrap up).wr.wrapEnding = false ∧
     up.wr.slot < slotsPerWrap) ∧
    (let s := (writingAt 0 (mounted 1 up)).onWr fun w => { w with wrapEnding := true }
     s.wvn.run = .writing ∧ s.wvn.state = .stream ∧ s.wr.wrapEnding = true ∧ s.wr.commits = [] ∧ wrapFollows s s.wr.part s.wr.wrap = true) ∧
    (let s := readingAt slotsPerWrap (mounted 1 up)
     live s = true ∧ s.wvn.run = .reading ∧ s.wvn.state = .stream ∧ slotsPerWrap ≤ s.rd.slot ∧ wrapFollows s s.rd.part s.rd.wrap = true) ∧
    up.wvn.run = .none := by decide +kernel

theorem test_slotCommit_idle : (nxt .slotCommit up).wr.slot = 0 ∧
    (nxt .wrapEnd (writingAt (slotsPerWrap - 1) up)).wr.wrapEnding = false := by decide +kernel

/-- A cartridge-memory request waits for its answer. -/
def cmWaits (r : CmReq) (tries : Nat) (s : State) : State :=
  s.onDrive fun d => { d with link := { d.link with queue := [r], tries := tries, field := true }, cart := some cart0 }

/-- A CM_WRITE of four bytes at 0x80 and the link's answer to it. -/
def cmWrite4 : CmReq := ⟨cmFrame 2 [], .write 128 [9, 8, 7, 6]⟩
def cmOkAnswer : Bytes := let b : Bytes := [1, 1, 0]; b ++ [BitVec.ofNat 8 (crc8 (byteBits b))]

theorem test_hyp_InhibitsAndTheMemoryLinkHoldTheirRules :
    (live up = true ∧ up.wr.sources.getLsbD (sourceBit .alarm) = false ∧ up.wr.sources = 0 ∧ shocked.wr.sources ≠ 0 ∧
     (shocked.wr.sources.getLsbD (sourceBit .shock) = true ∨ shocked.wr.sources.getLsbD (sourceBit .shock) = false)) ∧
    (let s := up.onWr fun w => { w with inhibited := true, pesGood := 8 }
     live s = true ∧ mayResume s = true ∧ mayResume up = false ∧ mayResume (s.onWr fun w => { w with pesGood := 7 }) = false) ∧
    (let s := cmWaits cmWrite4 2 up
     live s = true ∧ s.drive.link.queue = cmWrite4 :: [] ∧ field ([0] : Bytes) 0 1 = 0 ∧ cmWrite4.job ≠ .halt ∧ field ([2] : Bytes) 0 1 ≠ 0 ∧
     cmFrameOk [2] = false ∧ s.drive.link.tries < 3 ∧ 3 ≤ (cmWaits cmWrite4 3 up).drive.link.tries ∧ s.drive.cart = some cart0 ∧ Memory.wf cart0.cm) ∧
    (field cmOkAnswer 0 1 = 1 ∧ cmFrameOk cmOkAnswer = true ∧ slice cmOkAnswer 2 (field cmOkAnswer 1 1) = [0] ∧ doneMark cmWrite4 = none) ∧
    (let s := up.onDrive fun d => { d with link := { d.link with busy := true, field := true } }
     live s = true ∧ s.drive.link.busy = true ∧ s.drive.link.field = true ∧ cmIdle s = true) ∧ up.drive.link.busy = false ∧ up.drive.link.field = false := by
  decide +kernel

theorem test_writeInhibit : (nxt (.writeInhibit .power) up).wr.noResume = true ∧ (nxt (.writeInhibit .shock) up).wr.noResume = false := by decide +kernel

theorem test_writeResume : (nxt .writeResume (up.onWr fun w => { w with inhibited := true, pesGood := 8 })).wr.tokens = true ∧
    (nxt .writeResume (up.onWr fun w => { w with inhibited := true, pesGood := 7 })).wr.inhibited = true := by decide +kernel

/-! ## Weathervane -/

/-- An AVS write of 700 mV waits for its acknowledgement, written this many times. -/
def avsWaits (tries : Nat) (failed : Bool) : State :=
  up.onPower fun p => { p with avsTarget := some 700, avsTries := tries, avsFailed := failed }

theorem test_hyp_TheVoltageIsWrittenAndAcknowledged :
    (let s := up.onWvn fun w => { w with vPending := some 700 }
     live s = true ∧ s.wvn.vPending = some 700 ∧ speedNear s = true ∧ speedNear (s.onStp fun p => { p with v := 1, vSet := 2 }) = false) ∧
    up.wvn.vPending = none ∧ up.power.avsTarget = none ∧
    (live (avsWaits 1 false) = true ∧ (avsWaits 1 false).power.avsTarget = some 700 ∧ 705 ≤ 700 + 5 ∧ 700 ≤ 695 + 5 ∧ 700 + 5 < 706 ∧
     (avsWaits 1 false).wvn.rPending = none ∧
     ((avsWaits 1 false).onWvn fun w => { w with rPending := some 1024 }).wvn.rPending = some 1024) ∧
    ((avsWaits 3 false).power.avsTries ≤ 3 ∧ 3 < (avsWaits 4 false).power.avsTries ∧ (avsWaits 4 true).power.avsFailed = true) ∧
    (79 < 80 ∧ up.wvn.marginOfs < 60 ∧ 60 ≤ (up.onWvn fun w => { w with marginOfs := 60 }).wvn.marginOfs ∧ 80 ≤ 150) := by decide +kernel

theorem test_avsReadback : (nxt (.avsReadback 705) (avsWaits 1 false)).power.vop = 700 ∧
    (nxt (.avsReadback 706) (avsWaits 1 false)).power.avsTarget = some 700 := by decide +kernel

theorem test_avsAckTimeout : (nxt .avsAckTimeout (avsWaits 3 false)).power.avsTries = 4 ∧ (nxt .avsAckTimeout (avsWaits 3 false)).power.avsHold = true := by
  decide +kernel

theorem test_marginSample : (nxt (.marginSample 79) up).wvn.marginOfs = up.wvn.marginOfs + 10 ∧ (nxt (.marginSample 80) up).wvn.marginOfs = up.wvn.marginOfs := by
  decide +kernel

/-- A run in a state of Weathervane, Steeple in this mode with its table, moving at its set-point. -/
def runIn (r : RunKind) (st : WvnState) (m : SteepleMode) : State :=
  ((loadable m up).onWvn fun w => { w with run := r, state := st }).onWr fun w => { w with pesGood := 8 }

theorem test_hyp_RunsStopAndGoOnAsTheTableSays :
    (let s := (runIn .writing .stream .track).onWvn fun w => { w with dwellMs := 70000 }
     live s = true ∧ s.wvn.state = .stream ∧ bhDwell s ≤ s.wvn.dwellMs ∧ mayStop s = true ∧ (runIn .writing .stream .track).wvn.dwellMs < bhDwell s) ∧
    (let s := runIn .writing .stopping .still
     live s = true ∧ s.wvn.state = .stopping ∧ s.stp.mode = .still ∧ s.stp.program.running = false ∧ 256 * backlog s < bhStart s * (20 * gib)) ∧
    (let s := withSets [setAt .encoded (some 0)] (runIn .writing .stopped .still)
     live s = true ∧ s.wvn.state = .stopped ∧ s.wvn.run = .writing ∧ 0 < backlog s ∧ programAllowed s 2 = true) ∧
    (backlog (runIn .writing .stopped .still) = 0 ∧ noWork (runIn .writing .stopped .still) = true ∧ noWork (runIn .retry .stopped .still) = false) ∧
    (let s := runIn .reading .restart .track
     live s = true ∧ s.wvn.state = .restart ∧ s.stp.mode = .track ∧ speedNear s = true ∧ pesGoodNeed s ≤ s.wr.pesGood ∧ retryNext s = none ∧
     reading s = true ∧ reading (runIn .writing .restart .track) = false) ∧
    ((runIn .reading .stream .track).onRd fun r => { r with ended := true }).rd.ended = true ∧ (runIn .writing .stream .track).wvn.run ≠ .reading := by
  decide +kernel

theorem test_restart_waits : (nxt .restartResume ((runIn .writing .restart .track).onWr fun w => { w with pesGood := 7 })).wvn.state = .restart := by
  decide +kernel

/-! ## The read channels and the read path -/

/-- A packet of 25 blocks of zeros on lane 0 of group 0 for channel 3, with this sample index. -/
def samplesOf (sidx : Nat) : HlPacket :=
  { group := 0, lane := 0, header := hlHeader 1 (3 + 2 ^ 8 * sidx) (List.replicate 25 0), payload := List.replicate 25 0 }

/-- Channel c is this one. -/
def chanIs (c : Nat) (k : Chan) (s : State) : State := s.onTiles fun t => { t with chans := putAt t.chans c k }

theorem test_hyp_samples :
    (let p := samplesOf 0
     let fl := p.header.extractLsb' 4 36
     let s := grp0 upGroup (chanIs 3 { ({} : Chan) with state := .seekSync } up)
     samplePacketOk p = true ∧ p.header.extractLsb' 40 24 ++ fl ++ p.header.extractLsb' 0 4 = p.header ∧ chanNo p.group (Fin.ofNat 128 (bits fl.toNat 0 7)) = 3 ∧ (hlGroup s 0).state = .up ∧
     (hlGroup s 0).rxLive.getLsbD 0 = true ∧ (chanOf_ s 3).state ≠ .idle ∧ (tilesOut s).getLsbD 3 = false ∧ (chanOf_ s 3).vs = [] ∧
     bits fl.toNat 8 24 = 0 ∧ (hlGroup up 0).state ≠ .up) ∧
    samplePacketOk { samplesOf 0 with header := 1 } = false ∧ samplePacketOk { samplesOf 0 with payload := [] } = false := by decide +kernel

/-- A channel in a state of its search with a frame begun at 96. -/
def chanIn (st : RcState) : Chan := { ({} : Chan) with state := st, frameAt := some 96, counter := 9098, anchored := true }

theorem test_hyp_ReadChannelsWorkWindowByWindow :
    (∀ st ∈ [RcState.seekSync, .seekResync, .wideResync, .blockB], let s := chanIs 5 (chanIn st) up
     live s = true ∧ (chanOf_ s 5).state = st ∧ (chanOf_ s 5).frameAt = some 96) ∧
    (96 + 9002 ≤ (chanIn .blockB).counter ∧ ({ chanIn .blockB with counter := 9097 } : Chan).counter < 96 + 9002) ∧
    (let s := chanIs 5 { chanIn .blockB with replayA := true } up
     engineFree s 5 = true ∧ (chanOf_ s 5).replayA = true ∧ (chanOf_ s 5).frameAt = some 96 ∧ (chanOf_ up 5).replayA = false) ∧
    (let s := chanIs 5 { chanIn .blockB with lostSlot := some 2 } up
     engineFree s 5 = true ∧ (chanOf_ s 5).lostSlot = some 2 ∧ slotTaken s 2 = true ∧ deskewDone s 2 = false ∧ s.tiles.asm = [] ∧ (chanOf_ up 5).lostSlot = none) ∧
    (realignEn up 5 = true ∧ realignEn (up.onTiles fun t => { t with syncCfg := Vector.replicate 64 0 }) 5 = false) := by decide +kernel

theorem test_hyp_seekMark :
    let k : Chan := { ({} : Chan) with counter := 200, llrs := List.replicate 200 0 }
    seekMark k syncBits 8 10 20 = some none ∧ seekMark k syncBits 8 190 200 = none := by decide +kernel

/-- A frame of channel c whose header bits were all erased. -/
def blankFrame (c : Nat) : FrameRec :=
  { chan := c, found := true, start := 0, raw := [], valid := true, seq := 0, type := 0, tried := true, shifted := false, missed := false,
    replayed := false, predicted := false, slips := 0, defBits := 0 }

/-- 64 frames of slot 5 have come, whose headers the fill accepts. -/
def fullSlot : SlotAsm := ⟨5, (List.range 64).map blankFrame⟩

/-- A failed data set of dome 1, at this many attempts, in a retry. -/
def failing (attempts : Nat) (s : State) : State :=
  (s.onWvn fun w => { w with run := .retry }).onRd fun r => { r with
    retry := some (1, attempts), menu := [0, 0],
    failed := [{ part := 0, n := 1, wrap := 0, slots := [0], rows := [], attempts := attempts, retried := false, domes := 0, unrecoverable := false,
                 tagFailed := false, regs := regsOf s 0 }] }

/-- Decompression has a frame in hand; a packet waits to be committed. -/
def packed0 : HostPacket := { part := 0, lon := 0, block := 0, bytes := [65], deps := [], committed := false }

theorem test_hyp_TheReadPathTakesDecodedSetsOn :
    (deskewDone (up.onTiles fun t => { t with deskewed := some 5 }) 5 = true ∧ deskewDone up 5 = false ∧ up.wvn.run = .none) ∧
    (let s := ((writingAt 9 (verifying 2 up)).onTiles fun t => { t with asm := [fullSlot] })
     live s = true ∧ s.wvn.run = .writing ∧ (s.tiles.asm.find? fun a => a.slot == 5) = some fullSlot ∧
     (s.wr.commits.find? fun c => c.slot == 5) = some oneCommit ∧ stagedSet s oneCommit.id = some (setAt .committed (some 0)) ∧
     slotSeq fullSlot.frames = some 0) ∧
    ((readingAt 5 up).wvn.run = .reading ∧ up.tiles.asm = []) ∧ domeWaiting up 0 1 = [] ∧
    (let s := failing 0 up
     live s = true ∧ s.wvn.run = .retry ∧ s.rd.retry = some (1, 0) ∧ failedSet s 1 = s.rd.failed.head? ∧ s.rd.failed.length = 1 ∧ 0 + 1 < s.rd.menu.length) ∧
    (domeWaiting ((failing 0 up).onRd fun r => { r with failed := r.failed.map fun f => { f with retried := true } }) 0 1).length ≤ 1 ∧
    (up.rd.retry = none ∧ decryptNext up = none ∧ getAt up.cz.decomp 3 [] = [] ∧ up.rd.packets = []) ∧
    (let it : DecompItem := { part := 0, lon := 0, block := 0, last := true, frame := [], length := 0, deps := [] }
     getAt (up.onCz fun c => { c with decomp := putAt c.decomp 3 [it] }).cz.decomp 3 [] = [it]) ∧
    (let s := up.onRd fun r => { r with packets := [packed0] }
     live s = true ∧ (s.rd.packets.find? fun k => !k.committed) = some packed0 ∧ tagsPassed s packed0 = true ∧ s.host.cmds = []) := by decide +kernel

theorem test_hyp_slotFull : emptySlot up (fun c => headerFits up 0 0 c) fullSlot.frames = false := by decide +kernel

theorem test_hostPacketCommit : (nxt .hostPacketCommit (up.onRd fun r => { r with packets := [packed0] })).rd.packets.map (·.committed) = [true] := by
  decide +kernel

theorem test_deskew_idle : (nxt (.deskewComplete 5) up).tiles.deskewed = some 5 := by decide +kernel

/-! ## The head link -/

/-- A group in a state of its training with two lanes in block lock. -/
def training0 (st : TrainState) : Group := { ({} : Group) with state := st, lock := 3, rxLive := 0, txLive := 3 }

/-- It is powered, and every group is enabled. -/
def powered (k : Group) : State :=
  (grp0 k up).onPower (fun p => { p with domOn := 2 ^ 111 - 1 }) |>.onHlk fun h => { h with groupEn := 0xFF }

/-- A TRAIN packet of lane 2 with an identity, and a STATUS packet. -/
def trainP (ident : Nat) : BitVec 64 := BitVec.ofNat 64 (7 + ident * 2 ^ 32 + 2 ^ 40)
def trainH (ident : Nat) : BitVec 64 := hlHeader 4 (2 + 2 ^ 8) [trainP ident]
def statusP (live : Nat) : BitVec 64 := BitVec.ofNat 64 (live * 2 ^ 8)
def statusH (live cseq : Nat) : BitVec 64 := hlHeader 3 (cseq + 2 ^ 8 * 77) [statusP live]

theorem test_hyp_GroupsTrainFromDownToUp :
    (let s := powered (training0 .down)
     live s = true ∧ (hlGroup s 0).state = .down ∧ halvesOn s 0 = true ∧ s.hlk.groupEn.getLsbD 0 = true ∧ (hlGroup s 0).refused = false ∧
     (hlGroup (powered { training0 .down with refused := true }) 0).refused = true) ∧
    (∀ st ∈ [TrainState.cdr, .block, .ident, .config, .up], (hlGroup (powered (training0 st)) 0).state = st) ∧
    (lanesOf (Vector.replicate 8 (List.replicate 64 1)) gainsLock = 0xFF ∧ lanesOf (Vector.replicate 8 (List.replicate 63 1)) gainsLock = 0 ∧
     lanesOf (Vector.replicate 8 (3 :: List.replicate 63 1)) gainsLock = 0) ∧
    (trainOk (trainH 128) (trainP 128) = true ∧ trainOk 4 (trainP 128) = false ∧ identReason 0 (trainH 128).toNat (trainP 128).toNat = none ∧
     identReason 0 (trainH 127).toNat (trainP 127).toNat = some 2) ∧
    (let s := powered (training0 .ident)
     (hlGroup s 0).lock.getLsbD 0 = true ∧ (hlGroup s 0).lock &&& ~~~ setBit (hlGroup s 0).trained 0 true ≠ 0 ∧
     (hlGroup s 0).lock &&& ~~~ setBit ({ training0 .ident with trained := 2 } : Group).trained 0 true = 0) ∧
    (statusOk (statusH 3 5) (statusP 3) = true ∧ statusOk 3 (statusP 3) = false ∧ bits (statusP 3).toNat 8 2 = 3 ∧ bits (statusP 3).toNat 12 8 = 0 ∧
     (bits (statusP 1).toNat 8 2).testBit 1 = false ∧ statusOk (statusH 1 5) (statusP 1) = true) ∧
    (let k := { upGroup with awaits := some 5, cseq := 5 }
     (hlGroup (powered k) 0).state = .up ∧ (hlGroup (powered k) 0).rxLive.getLsbD 7 = true ∧ confirms k 5 = true ∧ confirms k 4 = false) := by
  decide +kernel

theorem test_groupTrainStart_refused : (hlGroup (nxt (.groupTrainStart 0) (powered { training0 .down with refused := true })) 0).state = .down ∧
    (hlGroup (nxt (.cdrTimeout 0) (powered upGroup)) 0).state = .up := by decide +kernel

theorem test_trainPacket_away : (hlGroup (nxt (.trainPacket 0 2 (trainH 128) (trainP 128)) (powered (training0 .ident))) 0).trained = 0 := by decide +kernel

theorem test_hyp_LanesTokensAndEnables :
    (let s := powered upGroup
     let n := (if (hlGroup s 0).errMs = s.power.time / msTicks then getAt (hlGroup s 0).laneErrs 7 0 else 0) + 1
     live s = true ∧ n < errLimit s ∧ (hlGroup s 0).rxLive.getLsbD 7 = true ∧ (hlGroup s 0).txLive.getLsbD 1 = true) ∧
    (let s := (powered upGroup).onHlk fun h => { h with cfg := 1 }
     errLimit s ≤ 1) ∧
    ((hlGroup (powered (training0 .block)) 0).rxLive.getLsbD 0 = false ∧ (hlGroup (powered (training0 .block)) 0).state = .block ∧
     (hlGroup (powered (training0 .cdr)) 0).state ≠ .ident ∧ (hlGroup (powered { upGroup with txLive := 1 }) 0).txLive.getLsbD 1 = false) ∧
    ((mounted 1 up).drive.vol ≠ none ∧ up.drive.vol = none ∧ (0x01 : BitVec 8).getLsbD 0 = true ∧ (0x01 : BitVec 8).getLsbD 7 = false) := by decide +kernel

theorem test_inboundLaneLost_block : (hlGroup (nxt (.inboundLaneLost 0 1) (powered (training0 .block))) 0).lock = 1 := by decide +kernel

theorem test_retrain : (nxt (.retrain 5) (mounted 1 up)).hlk.retrainNext = 5 ∧ (nxt (.groupEn 5) (mounted 1 up)).hlk.groupEnNext = some 5 := by decide +kernel

/-! ## Steeple -/

/-- Steeple is in a mode. -/
def inMode (m : SteepleMode) : State := up.onStp fun p => { p with mode := m }

/-- A controlled stop runs. -/
def inStop (brake : Option Nat) : State := (inMode .fbStop).onStp fun p => { p with stopping := some 1, brakeUntil := brake }

/-- A SERVO packet of zeros on lane 0 of group 0. -/
def servoP : HlPacket := { group := 0, lane := 0, header := hlHeader 2 0 (List.replicate 4 0), payload := List.replicate 4 0 }

/-- Stripes that pass at 0.5 m/s (in 1/64 of a sample period) are not asked for here: none came. -/
def noStripes : ServoObs := { p := [], n := [], p' := [], n' := [], amp := 0 }

theorem test_hyp_SamplesFeedbackAndStops :
    (live up = true ∧ servoPacketOk servoP = true ∧ servoPacketOk { servoP with group := 3 } = false) ∧
    (some noStripes).filter (sampleValid (plantOf up .srvAmin) none) = none ∧
    (∀ m ∈ [SteepleMode.move, .track, .fbHold, .off], (inMode m).stp.mode = m) ∧
    (up.stp.stopping = none ∧ (inStop none).stp.stopping ≠ none ∧ tapeStopped (inStop none) = true ∧ (inStop (some 4)).stp.brakeUntil = some 4 ∧
     tapeStopped ((inStop none).onStp fun p => { p with v := 1 }) = false) ∧
    (up.stp.oneBand = none ∧ (up.onStp fun p => { p with oneBand := some 3 }).stp.oneBand = some 3) ∧
    ((up.stp.reels[0]).a = false ∧ (up.stp.reels[0]).b = false ∧ true ≠ false) ∧
    (driving up = false ∧ driving (inMode .track) = true ∧ usableReaders (inMode .track) = [] ∧ (inMode .fbHold).stp.mode = .fbHold) := by decide +kernel

theorem test_encoderEdge : (nxt (.encoderEdge 0 true false) up).stp.reels[0].count.natAbs = 1 ∧
    (nxt (.encoderEdge 0 true true) (up.onStp fun p => { p with reels := p.reels.map fun r => { r with ok := true } })).stp.reels[0].ok = false := by
  decide +kernel

theorem test_indexPulse : (nxt (.encoderIndexPulse 1) up).stp.reels[1].indexed = true := by decide +kernel

/-- A response of a stage: STATUS bits, measurement. -/
def respOf (stage status meas : Nat) : BitVec 32 :=
  let w := stage * 2 ^ 20 + status * 2 ^ 16 + meas
  BitVec.ofNat 32 (w * 256 + crc8 (bitsMsb 24 w))

theorem test_hyp_SensorsLinkAndPair :
    (live up = true ∧ up.stp.accFailed = false ∧ (up.onStp fun p => { p with accFailed := true }).stp.accFailed = true ∧
     ¬ (up.stp.accIdWait = true ∧ (0 : BitVec 8).toNat ≠ plantNat up .accId % 256)) ∧
    (let s := up.onStp fun p => { p with accIdWait := true }
     s.stp.accIdWait = true ∧ (1 : BitVec 8).toNat ≠ plantNat s .accId % 256) ∧
    ((0 : BitVec 16) = 0 ∧ (1 : BitVec 16) ≠ 0 ∧ 2 ≤ (up.onStp fun p => { p with accBad := 2 }).stp.accBad ∧ up.stp.accBad < 2) ∧
    (up.stp.sensorAbsent = false ∧ ([] : Bytes).length = plantNat up .snsLen ∧ ([0] : Bytes).length ≠ plantNat up .snsLen ∧
     sensorValue up [] (plantNat up .snsTOfs) = none ∧ sensorValue up [1, 2] (plantNat up .snsTOfs) = some 258 ∧
     9 ≤ (up.onStp fun p => { p with sensorBad := 9 }).stp.sensorBad) ∧
    (responseOk 2 (respOf 2 1 5) = true ∧ (respOf 2 1 5).getLsbD 27 = false ∧ (respOf 2 1 5).getLsbD 24 = true ∧ responseOk 1 (respOf 2 1 5) = false ∧
     (respOf 2 8 5).getLsbD 27 = true ∧ (up.stp.stages[2]).nacks < 2 ∧
     2 ≤ ((up.onStp fun p => { p with stages := p.stages.map fun k => { k with nacks := 2 } }).stp.stages[2]).nacks) ∧
    (up.stp.mode ≠ .fault ∧ (inMode .fault).stp.mode = .fault ∧ stillForSecond (inMode .fault) = false ∧
     stillForSecond ((inMode .fault).onPower fun p => { p with time := 100000000 }) = true) ∧
    (up.stp.beatLost = false ∧ (inMode .move).stp.mode = .move) ∧
    (up.lantern.outOfService = [] ∧ up.stp.resyncAt = none ∧ (up.onStp fun p => { p with standbyOk := false }).stp.standbyOk = false ∧
     (let s := up.onStp fun p => { p with standbyOk := true, resyncAt := some 0 }
      s.stp.standbyOk = true ∧ s.stp.resyncAt = some 0 ∧ s.power.time < 0 + 1000 * msTicks)) := by decide +kernel

theorem test_accSample : (nxt (.accSample 0 0 0) (up.onStp fun p => { p with accBad := 2 })).stp.accFailed = true ∧
    (nxt (.accSample 0 0 0) (up.onStp fun p => { p with accBad := 1 })).stp.accFailed = false := by decide +kernel

theorem test_heartbeat : (nxt .steepleHeartbeatTimeout up).stp.beatLost = true ∧ (nxt .steepleHeartbeatTimeout up).power.time = 200000000 ∧
    (nxt .steepleHeartbeat (up.onStp fun p => { p with beatLost := true })).stp.beatLost = false := by decide +kernel

/-! ## Programs -/

/-- Program 8 of the table is one step: its opcode, A and B; Steeple runs it in MOVE. -/
def inProg (op a b : Nat) (waiting : Bool) : State :=
  let t := List.replicate (0x2200 + 8 * 32 * 8) 0 ++ le 8 (op * 2 ^ 58 + b * 2 ^ 32 + a)
  (up.onTrust fun x => { x with tables := putAt x.tables 1 (some ([], t)) }).onStp fun p => { p with
    mode := .move, program := { p.program with prog := 8, role := 8, step := 0, running := true, waiting := waiting, due := some 500 } }

/-- The step in hand in MOVE. -/
def handStep (s : State) : Option (Nat × Nat × Nat) := if live s && decide (s.stp.mode = .move) then stepInHand s else none

theorem test_hyp_ProgramsRunStepByStep :
    (programAllowed (loadable .off up) 0 = true ∧ programAllowed up 0 = false) ∧
    (tapeStopped (inProg 0 0 0 false) = true ∧ speedNear (inProg 0 1 0 false) = true ∧ (inProg 0 1 0 false).stp.latLaw = 0 ∧
     tapeStopped ((inProg 0 0 0 false).onStp fun p => { p with v := 1, vSet := 2 }) = false ∧
     speedNear ((inProg 0 1 0 false).onStp fun p => { p with v := 1, vSet := 2 }) = false) ∧
    ((8 : Rat) < absRat ((signed 32 8000001 : Rat) / 1000000) ∧ absRat ((signed 32 8000000 : Rat) / 1000000) ≤ 8 ∧ (inProg 1 0 0 false).stp.stopping = none) ∧
    ((inProg 2 0 0 false).stp.speedOk = false ∧ ((inProg 2 0 0 false).onStp fun p => { p with speedOk := true }).stp.speedOk = true) ∧
    (8000 < 8001 ∧ 2 ^ 24 - 1 < 2 ^ 24 ∧ (inProg 3 5 8000 true).stp.program.waiting = true ∧ (inProg 3 5 8000 false).stp.program.waiting = false) ∧
    (wrapInMap up 19 = true ∧ wrapInMap up 20 = false ∧ 63 < 64) ∧ (up.stp.program.met < 8 ∧ (25000 : Nat) ≤ 25000) ∧
    (branchOn up 0 = some true ∧ branchOn up 4 = some false ∧ branchOn up 6 = none) ∧
    (programEmpty (inProg 14 9 0 false) 9 = true ∧ programEmpty (inProg 14 8 0 false) 8 = false) ∧
    ((inProg 2 0 0 true).stp.program.due = some 500 ∧ handStep (inProg 2 0 0 true) = some (2, 0, 0)) := by decide +kernel

theorem test_hyp_inStep : (∀ op ∈ List.range 8, handStep (inProg op (64 - op) 1 false) = some (op, 64 - op, 1)) := by decide +kernel

theorem test_hyp_inStep_high : (∀ op ∈ [8, 9, 10, 11, 12, 13, 14, 15], handStep (inProg op op 1 false) = some (op, op, 1)) := by decide +kernel

theorem test_hyp_positions : standsAt 0 (inProg 3 0 0 true) = true ∧ standsAt 5000 (inProg 3 5000 0 true) = false ∧
    passedLpos 0 (inProg 4 0 0 false) = true ∧ passedLpos 5000 (inProg 4 5000 0 false) = false := by decide +kernel

theorem test_progBranch : (nxt .progBranch (inProg 11 31 0 false)).stp.program.step = 31 ∧
    (nxt .progBranch (inProg 11 31 4 false)).stp.program.step = 1 := by decide +kernel

theorem test_progWaitSpeed : (nxt .progWaitSpeed (inProg 2 0 7 false)).stp.program.due = some 700000 := by decide +kernel

theorem test_progChain : (nxt .progChain (inProg 14 8 0 false)).stp.program.step = 0 ∧ (nxt .progChain (inProg 14 8 0 false)).stp.program.prog = 8 := by
  decide +kernel

/-! ## Belfry and the hardware queues -/

/-- Core 0 runs source 5 at priority 3 and is offered source 7. -/
def belfry0 (s : State) : State :=
  s.onBlf fun b => { b with cores := putAt b.cores 0 { ({} : Core) with stack := [(5, 3)], offer := some 7 } }

theorem test_hyp_SourcesAreRequestedClaimedAndEnded :
    (475 ≤ 479 ∧ 474 < 475) ∧
    (let s := up.onBlf fun b => { b with sources := putAt b.sources 7 { pending := true, active := none, prio := 2, route := 0, en := 1 } }
     choice s.blf 0 = some 7 ∧ eligible s.blf 0 7 = true) ∧
    ((belfry0 up).blf.cores[0].offer = some 7 ∧ (belfry0 up).blf.cores[0].stack = [(5, 3)] ∧ (belfry0 up).blf.cores[0].stack.head?.map (·.1) ≠ some 6) ∧
    (up.blf.cores[0].offer = none ∧ up.blf.cores[0].withdrawn = false ∧
     (up.onBlf fun b => { b with cores := putAt b.cores 0 { ({} : Core) with withdrawn := true } }).blf.cores[0].withdrawn = true) ∧
    (outOf up .controlCore 0 = false ∧ noSpare up .controlCore = false) ∧
    (up.blf.coreOk.getLsbD 3 = true ∧ up.blf.cores[3].missed < 4 ∧
     4 ≤ (up.onBlf fun b => { b with cores := b.cores.map fun c => { c with missed := 4 } }).blf.cores[3].missed ∧
     (up.onBlf fun b => { b with coreOk := 7 }).blf.coreOk.getLsbD 3 = false) := by decide +kernel

theorem test_claim_withdrawn :
    (nxt (.claim 0) (up.onBlf fun b => { b with cores := putAt b.cores 0 { ({} : Core) with withdrawn := true } })).blf.cores[0].claimed = 511 := by
  decide +kernel

theorem test_hyp_ALostCoreHandsItsSourcesOver : outOf up .controlCore 2 = false ∧ noSpare up .controlCore = false ∧ live up = true ∧
    (let s := up.onBlf fun b => { b with cores := b.cores.map fun c => { c with missed := 4 } }
     s.blf.coreOk.getLsbD 2 = true ∧ 4 ≤ s.blf.cores[2].missed) := by decide +kernel

/-- An item with good parity: first and last of its packet or neither, of this priority. -/
def hqItem (first last : Bool) (pri : Fin 4) : HqItem :=
  let it : HqItem := { type := 1, data := 5, parity := 0, poison := false, pri := pri, first := first, last := last }
  { it with parity := hqParity (hqWord it) }

/-- Hardware queue 0 is this one. -/
def queueIs (k : HwQueue) (s : State) : State := s.onHq fun h => { h with queues := putAt h.queues 0 k }

theorem test_hyp_ItemsPassTheHardwareQueues :
    (let s := queueIs { ({} : HwQueue) with held := [(2, hqItem true true 0)] } up
     (∃ x ∈ (hwq s 0).held, x.1 = 2) ∧ (∀ x ∈ (hwq s 0).held, x.1 ≠ 1) ∧ (hwq s 0).waiting = false) ∧
    (hqParityOk (hqItem true true 0) = true ∧ hqParityOk { hqItem true true 0 with data := 4 } = false ∧ (hqItem true true 0).type ≠ 0 ∧ hqIdle.type = 0 ∧
     hqOpen (hwq up 0) 3 = none ∧ hqAdmits (hwq up 0) 3 = true ∧ hqAdmits { ({} : HwQueue) with draining := true } 3 = false) ∧
    (let o : OpenPacket := ⟨1, [hqItem true false 0], 0⟩
     let k : HwQueue := { ({} : HwQueue) with maxPacket := 2, opens := [o], staleTail := 4 }
     hqOpen k 1 = some o ∧ o.items.length < k.maxPacket ∧ k.staleTail ≠ 0 ∧ hqOpen k 1 ≠ none ∧ hqOccupancy k = 1) ∧
    hqNext [[hqItem true true 2], [hqItem true true 1], [hqItem true true 1]] = some 1 ∧ hqNext (hwq up 0).packets = none ∧
    (let k : HwQueue := { ({} : HwQueue) with packets := [[hqItem true false 0, hqItem false true 0]] }
     k.truncated = false ∧ k.reading = none ∧ hqNext k.packets = some 0 ∧ k.packets.getD 0 [] = [hqItem true false 0, hqItem false true 0]) ∧
    (let k : HwQueue := { ({} : HwQueue) with reading := some ([hqItem false true 0], true) }
     k.reading = some (hqItem false true 0 :: [], true) ∧ k.truncated = false) ∧
    ((hwq up 0).draining = false ∧ ({ ({} : HwQueue) with draining := true } : HwQueue).draining = true ∧ hqOccupancy (hwq up 0) = 0) ∧
    (let s := queueIs { ({} : HwQueue) with waiting := true } up
     (hwq s 0).waiting = true ∧ (hwq s 0).reading = none ∧ (hwq s 0).packets = [] ∧ (hwq s 0).opens = [] ∧ (hwq s 0).held = [] ∧
     hqAdmits (hwq s 0) 0 = true) := by decide +kernel

theorem test_hqItemWrite : (hwq (nxt (.hqItemWrite 0 1 (hqItem true true 0)) up) 0).packets = [[hqItem true true 0]] := by decide +kernel

theorem test_hqItemRead : (nxt (.hqItemRead 0 false) up).out = [.hqItem 0 hqIdle] ∧ (hwq (nxt (.hqItemRead 0 true) up) 0).waiting = true := by decide +kernel

theorem test_hqDrain : (hwq (nxt (.hqDrain 0) up) 0).draining = true ∧
    (hwq (nxt (.hqDrainDone 0) (queueIs { ({} : HwQueue) with draining := true } up)) 0).draining = false := by decide +kernel

/-! ## Instances -/

theorem test_hyp_FaultsTakeInstancesOut :
    (outOf up .tile 63 = false ∧ noSpare up .tile = false ∧ rowDomain .tile 63 = some 63 ∧ live up = true) ∧
    (let s := up.onLantern fun l => { l with outOfService := [(.bufferStack, 1), (.tile, 0)] }
     outOf s .tile 0 = true ∧ outOf s .bufferStack 0 = false ∧ noSpare s .bufferStack = true) ∧
    (outOf up .dramDie 17 = false ∧ (∀ e ∈ List.range 18, outOf up .dramDie e = false)) ∧
    (let s := up.onLantern fun l => { l with outOfService := [(.dramDie, 9)] }
     outOf s .dramDie 17 = false ∧ outOf s .dramDie 9 = true ∧ 9 / 9 = 17 / 9 ∧ outOf s .bufferStack 1 = false ∧ noSpare s .bufferStack = false) := by
  decide +kernel

/-! ## Registers and balls -/

theorem test_hyp_RegistersReadWriteAndCount : live up = true ∧ 0x50124 % 4 = 0 ∧ loWords.contains 0x50124 = true ∧ 2 % 4 ≠ 0 ∧
    servedAccess 0x30 4 = true ∧ servedAccess 0x32 4 = false ∧ (2 ^ 24 : Nat) < 2 ^ 25 := by decide +kernel

/-- The part with this device secret. -/
def keyed (k : Bytes) : State := up.onBoot fun b => { b with deviceSecret := k }

theorem test_hyp_RegistersRevealNoKey : withoutSecrets (keyed [1]) = withoutSecrets (keyed [2]) := rfl

theorem test_registerWrite : (nxt (.registerWrite .a 0x208 0x00200020) up).host.aqSize = 0x00200020 ∧
    (nxt (.registerWrite .a 0x30 5) up).host.cntBadAcc = 0 := by decide +kernel

theorem test_rcRead : (nxt (.rcRead .a 0x30) (up.onHost fun h => { h with cntBadAcc := 9 })).host.cntBadAcc = 0 ∧
    (nxt (.rcRead .a 0x30) (up.onHost fun h => { h with cntBadAcc := 9 })).out = [.regData .a 0x30 9] := by decide +kernel

theorem test_badAccess : (nxt (.badAccess .b 2 4 true) up).host.cntBadAcc = 1 ∧ (nxt (.badAccess .b 4 4 true) up).host.cntBadAcc = 0 := by decide +kernel

theorem test_hyp_TimeNeverStepsBack : Instr.lifetimeCheckpoint ≠ .powerOnReset ∧
    exec .lifetimeCheckpoint up = .next (nxt .lifetimeCheckpoint up) := ⟨by decide, rfl⟩

/-! ## The package -/

/-- How many balls of the map a rail has. -/
def railBalls (r : Rail) : Nat := allBalls.countP fun b => match b with | .power q => decide (q = r) | _ => false

theorem test_railBalls : [Rail.core, .sram, .qBuf, .ppBuf, .phy, .phyH, .io, .aon].map railBalls = [231, 66, 110, 22, 60, 30, 20, 4] := by decide +kernel

theorem test_vssBalls : (allBalls.countP fun b => match b with | .vss => true | _ => false) = 1118 := by decide +kernel

theorem test_hyp_EachCommandChangesOnlyItsFields : exec .clearFails up = .next (nxt .clearFails up) := rfl

theorem test_hyp_FusedIdentityNeverChanges : exec .lifetimeCheckpoint held = .next (nxt .lifetimeCheckpoint held) := rfl

end Sys2Proof.Tests
end

section
/-! PROOF. The AVSBus write and its acknowledgement, and the margin offset (R20, R126, R404). -/

namespace Sys2Proof.Machine

/-! ## Commands that the part takes only while it is live -/

theorem goLive_of_live {s : State} (f : State → State) (h : live s = true) : goLive f s = .next (f s) := by
  rw [goLive, if_pos h]

/-- A command whose effect leaves this state alone does so whether the part is live or not. -/
theorem goLive_of_fixed {f : State → State} {s : State} (h : f s = s) : goLive f s = .next s := by
  rw [goLive, h, ite_self]

/-! ## A Belfry request

The lemmas on outputs stand in the form that composes: what was put out before is among the outputs afterwards. -/

/-- What each round of a loop keeps, the loop keeps. -/
theorem forEach_preserves {α : Type} {P : State → Prop} (l : List α) {f : α → State → State} (hf : ∀ x t, P t → P (f x t)) {s : State}
    (h : P s) : P (forEach l f s) := by
  unfold forEach
  induction l generalizing s with
  | nil => exact h
  | cons x l ih => exact ih (hf x s h)

@[simp] theorem offers_sources (s : State) : (offers s).blf.sources = s.blf.sources := by
  refine forEach_preserves (P := fun t => t.blf.sources = s.blf.sources) _ (fun c t ht => ?_) rfl
  dsimp only
  split
  · exact ht
  · split <;> exact ht

theorem mem_out_offers {o : Out} {s : State} (h : o ∈ s.out) : o ∈ (offers s).out := by
  refine forEach_preserves (P := fun t => o ∈ t.out) _ (fun c t ht => ?_) h
  dsimp only
  split
  · exact ht
  · split
    · exact List.mem_append_left _ ht
    · exact ht

theorem raise_isPending (s : State) {n : Nat} (h : n < 475) : isPending (raise n s) n := by
  have hn : n < 480 := by omega
  simp [isPending, raise, reservedSource, Nat.not_le.mpr h, getAt, updAt, hn]

theorem mem_out_raise {o : Out} (n : Nat) {s : State} (h : o ∈ s.out) : o ∈ (raise n s).out := by
  unfold raise
  split
  · exact h
  · exact mem_out_offers h

theorem raise_changesOnly (n : Nat) (s : State) : changesOnly requestFields s (raise n s) :=
  (raise_kept n (by decide +kernel) (Kept.refl (fieldMask requestFields) s)).changesOnly

/-! ## A start of the tape -/

theorem mem_out_startProgram {o : Out} (prog p0 p1 p2 p3 : Nat) {s : State} (h : o ∈ s.out) :
    o ∈ (startProgram prog p0 p1 p2 p3 s).out := by
  unfold startProgram
  split
  · dsimp only
    split
    · exact List.mem_append_left _ h
    · exact h
  · split <;> exact mem_out_raise _ h

theorem mem_out_startTape {o : Out} (r lpos : Nat) {s : State} (h : o ∈ s.out) : o ∈ (startTape r lpos s).out := by
  unfold startTape
  dsimp only
  split
  · split
    · exact h
    · exact mem_out_startProgram _ _ _ _ _ h
  · exact mem_out_raise _ h

/-- What a start of the tape that waited for its voltage changes (R129, R445). -/
def dueStartFields : List Field := programFields ++ [.wvnStartDue, .wvnRefused]

theorem startTape_changesOnly (r lpos : Nat) (s : State) : changesOnly dueStartFields s (startTape r lpos s) :=
  (startTape_kept r lpos (by decide +kernel) (Kept.refl (fieldMask dueStartFields) s)).changesOnly

/-- Go on with a start of the tape that waited for the voltage of its ratio (R20, R129). -/
def startIfDue (r : Nat) (s : State) : State :=
  match s.wvn.startDue with
  | some lpos => startTape r lpos s
  | none => s

theorem startIfDue_changesOnly (r : Nat) (s : State) : changesOnly dueStartFields s (startIfDue r s) := by
  unfold startIfDue
  split
  · exact startTape_changesOnly _ _ _
  · exact (Kept.refl _ s).changesOnly

theorem mem_out_startIfDue {o : Out} (r : Nat) {s : State} (h : o ∈ s.out) : o ∈ (startIfDue r s).out := by
  unfold startIfDue
  split
  · exact mem_out_startTape _ _ h
  · exact h

/-! ## A ratio comes into force -/

@[simp] theorem setSpeed_wvn (v a : Rat) (s : State) : (setSpeed v a s).wvn = s.wvn := by
  unfold setSpeed; split <;> rfl

@[simp] theorem setSpeed_out (v a : Rat) (s : State) : (setSpeed v a s).out = s.out := by
  unfold setSpeed; split <;> rfl

theorem applySpeed_wvn_out (r : Nat) (s : State) :
    (applySpeed r s).wvn = { s.wvn with r := r, rPending := none } ∧ (applySpeed r s).out = s.out ++ [.speedSet r] := by
  unfold applySpeed
  dsimp only
  split
  · simp [emit]
  · split <;> simp [emit]
  · simp [emit]

theorem askRatio_changesOnly (r : Nat) (s : State) : changesOnly ratioFields s (askRatio r s) :=
  (askRatio_kept r (by decide +kernel) (Kept.refl (fieldMask ratioFields) s)).changesOnly

/-- A ratio whose voltage is held goes into force at once (R20). -/
theorem askRatio_of_voltage_held {r : Nat} {s : State} (h : bandVoltage s (targetBand s r) ≤ heldVoltage s) :
    (askRatio r s).wvn.r = r ∧ (askRatio r s).wvn.rPending = none ∧ .speedSet r ∈ (askRatio r s).out := by
  unfold askRatio
  dsimp only
  rw [if_neg (Nat.not_lt.mpr h), (applySpeed_wvn_out _ _).1, (applySpeed_wvn_out _ _).2]
  exact ⟨rfl, rfl, by simp⟩

/-! ## The voltage is written -/

/-- The voltage that waited for a falling speed is written (R20). -/
def writePending (mv : Nat) (s : State) : State := avsWrite mv (s.onWvn fun w => { w with vPending := none })

theorem writePending_changesOnly (mv : Nat) (s : State) :
    changesOnly [.wvnVPending, .powerAvsTarget, .powerAvsTries, .powerAvsFailed, .out] s (writePending mv s) := by
  refine Kept.changesOnly (avsWrite_kept mv (by decide +kernel) (onWvn_kept _ (fun w => ?_) (Kept.refl _ s)))
  exact { WvnAgree.refl _ w with vPending := .inl (by decide +kernel) }

/-- A write that was not acknowledged goes out once more (R404). -/
def writeAgain (a : Nat) (s : State) : State :=
  emit (.avsWrite a) (s.onPower fun p => { p with avsTries := p.avsTries + 1, avsHold := true })

theorem writeAgain_changesOnly (a : Nat) (s : State) : changesOnly [.powerAvsTries, .powerAvsHold, .out] s (writeAgain a s) := by
  refine Kept.changesOnly (emit_kept _ (by decide +kernel) (onPower_kept _ (fun p => ?_) (Kept.refl _ s)))
  exact { PowerAgree.refl _ p with avsTries := .inl (by decide +kernel), avsHold := .inl (by decide +kernel) }

theorem emit_changesOnly (o : Out) (s : State) : changesOnly [.out] s (emit o s) :=
  (emit_kept o (by decide +kernel) (Kept.refl (fieldMask [.out]) s)).changesOnly

/-- The write counted as failed, and r held (R126, R404). -/
def markFailed (s : State) : State :=
  s.onPower fun p => { p with avsFailed := true, avsHold := true, cntAvsFail := inc p.cntAvsFail }

/-- The write has failed, and source 111 tells the cores (R404). -/
def writeFails (s : State) : State := raise 111 (markFailed s)

theorem writeFails_counts_and_holds (s : State) : (writeFails s).power.avsFailed = true ∧ (writeFails s).power.avsHold = true ∧
    (writeFails s).power.cntAvsFail = inc s.power.cntAvsFail ∧ (writeFails s).wvn.r = s.wvn.r := by
  obtain ⟨-, h⟩ := raise_changesOnly 111 (markFailed s)
  exact ⟨h .powerAvsFailed (by decide), h .powerAvsHold (by decide), h .powerCntAvsFail (by decide), h .wvnR (by decide)⟩

section
variable {s : State} {mv : Nat}

theorem exec_speedReached_near (hl : live s = true) (hv : s.wvn.vPending = some mv) (hn : speedNear s = true) :
    exec .speedReached s = .next (writePending mv s) := by
  change execSpeedReached s = _
  rw [execSpeedReached, goLive_of_live _ hl]
  simp only [hv, hn, if_true, writePending]

theorem exec_speedReached_far (hv : s.wvn.vPending = some mv) (hn : speedNear s = false) : exec .speedReached s = .next s := by
  change execSpeedReached s = _
  exact goLive_of_fixed (by simp only [hv, hn, Bool.false_eq_true, if_false])

theorem exec_speedReached_idle (hv : s.wvn.vPending = none) : exec .speedReached s = .next s := by
  change execSpeedReached s = _
  exact goLive_of_fixed (by simp only [hv])

end

section
variable {s : State} {a : Nat}

theorem exec_avsAckTimeout_again (hl : live s = true) (ha : s.power.avsTarget = some a) (hf : s.power.avsFailed = false)
    (ht : s.power.avsTries ≤ 3) : exec .avsAckTimeout s = .next (writeAgain a s) := by
  change execAvsAckTimeout s = _
  rw [execAvsAckTimeout, goLive_of_live _ hl]
  simp only [ha, hf, ht, Bool.false_eq_true, if_false, if_true, writeAgain]

theorem exec_avsAckTimeout_fails (hl : live s = true) (ha : s.power.avsTarget = some a) (hf : s.power.avsFailed = false)
    (ht : 3 < s.power.avsTries) : exec .avsAckTimeout s = .next (writeFails s) := by
  change execAvsAckTimeout s = _
  rw [execAvsAckTimeout, goLive_of_live _ hl]
  simp only [ha, hf, Nat.not_le.mpr ht, Bool.false_eq_true, if_false, writeFails, markFailed]

theorem exec_avsAckTimeout_failed (ha : s.power.avsTarget = some a) (hf : s.power.avsFailed = true) :
    exec .avsAckTimeout s = .next s := by
  change execAvsAckTimeout s = _
  exact goLive_of_fixed (by simp only [ha, hf, if_true])

theorem exec_avsAckTimeout_idle (ha : s.power.avsTarget = none) : exec .avsAckTimeout s = .next s := by
  change execAvsAckTimeout s = _
  exact goLive_of_fixed (by simp only [ha])

theorem exec_avsRetryPeriod_failed (hl : live s = true) (ha : s.power.avsTarget = some a) (hf : s.power.avsFailed = true) :
    exec .avsRetryPeriod s = .next (emit (.avsWrite a) s) := by
  change execAvsRetryPeriod s = _
  rw [execAvsRetryPeriod, goLive_of_live _ hl]
  simp only [ha, hf, if_true]

theorem exec_avsRetryPeriod_idle (ha : s.power.avsTarget = none) : exec .avsRetryPeriod s = .next s := by
  change execAvsRetryPeriod s = _
  exact goLive_of_fixed (by simp only [ha])

end

/-! ## The voltage is read back -/

/-- The state with this voltage read back. -/
def withVout (mv : Nat) (s : State) : State := s.onPower fun p => { p with vout := mv }

theorem withVout_kept {m : Nat} {s0 s : State} (mv : Nat) (hm : fieldMask [.powerVout] ||| m = m) (h : Kept m s0 s) :
    Kept m s0 (withVout mv s) :=
  onPower_kept _ (fun p => { PowerAgree.refl m p with vout := .inl (Mask.bit hm (by decide +kernel)) }) h

/-- The state once a read-back of mv has acknowledged the target a (R404). -/
def withAck (a mv : Nat) (s : State) : State :=
  (withVout mv s).onPower fun p => { p with vop := a, avsTarget := none, avsTries := 0, avsFailed := false, avsHold := false }

theorem withVout_changesOnly (mv : Nat) (s : State) : changesOnly [.powerVout] s (withVout mv s) :=
  (withVout_kept mv (Nat.or_self _) (Kept.refl _ s)).changesOnly

theorem withAck_changesOnly (a mv : Nat) (s : State) :
    changesOnly [.powerVop, .powerVout, .powerAvsTarget, .powerAvsTries, .powerAvsFailed, .powerAvsHold] s (withAck a mv s) := by
  refine Kept.changesOnly (onPower_kept _ (fun p => ?_) (withVout_kept mv (by decide +kernel) (Kept.refl _ s)))
  exact { PowerAgree.refl _ p with
    vop := .inl (by decide +kernel), avsTarget := .inl (by decide +kernel), avsTries := .inl (by decide +kernel),
    avsFailed := .inl (by decide +kernel), avsHold := .inl (by decide +kernel) }

/-- The state once the voltage a is acknowledged and the ratio that waited for it is taken up (R20). -/
def ratioTaken (a mv : Nat) (s : State) : State := (withAck a mv s).onWvn fun w => { w with rPending := none }

/-- The state once that ratio has been asked for again. -/
def withRise (a mv r : Nat) (s : State) : State := startIfDue r (askRatio r (ratioTaken a mv s))

theorem withRise_vop (a mv r : Nat) (s : State) : (withRise a mv r s).power.vop = a := by
  obtain ⟨-, hask⟩ := askRatio_changesOnly r (ratioTaken a mv s)
  obtain ⟨-, hstart⟩ := startIfDue_changesOnly r (askRatio r (ratioTaken a mv s))
  exact (hstart .powerVop (by decide)).trans (hask .powerVop (by decide))

/-- The ratio is in force when the voltage acknowledged is enough for it (R20). -/
theorem withRise_in_force {a r : Nat} {s : State} (mv : Nat) (h : bandVoltage s (targetBand s r) ≤ a) :
    (withRise a mv r s).wvn.r = r ∧ (withRise a mv r s).wvn.rPending = none ∧ .speedSet r ∈ (withRise a mv r s).out := by
  obtain ⟨-, hstart⟩ := startIfDue_changesOnly r (askRatio r (ratioTaken a mv s))
  obtain ⟨hr, hp, ho⟩ := askRatio_of_voltage_held (r := r) (s := ratioTaken a mv s) h
  exact ⟨(hstart .wvnR (by decide)).trans hr, (hstart .wvnRPending (by decide)).trans hp,
    mem_out_startIfDue r ho⟩

section
variable {s : State} {a mv : Nat} (hl : live s = true) (ha : s.power.avsTarget = some a)
include hl ha

theorem exec_avsReadback_off (h : a + 5 < mv ∨ mv + 5 < a) : exec (.avsReadback mv) s = .next (withVout mv s) := by
  have hw : within5 mv a = false := by rw [within5, decide_eq_false_iff_not]; omega
  exact (goLive_of_live _ hl).trans (by simp only [readback, ha, hw, Bool.false_eq_true, if_false, withVout])

theorem exec_avsReadback_ack (h1 : mv ≤ a + 5) (h2 : a ≤ mv + 5) (hr : s.wvn.rPending = none) :
    exec (.avsReadback mv) s = .next (withAck a mv s) := by
  have hw : within5 mv a = true := decide_eq_true ⟨h1, h2⟩
  exact (goLive_of_live _ hl).trans (by simp only [readback, ha, hw, hr, if_true, withAck, withVout])

theorem exec_avsReadback_rise (h1 : mv ≤ a + 5) (h2 : a ≤ mv + 5) {r : Nat} (hr : s.wvn.rPending = some r) :
    exec (.avsReadback mv) s = .next (withRise a mv r s) := by
  have hw : within5 mv a = true := decide_eq_true ⟨h1, h2⟩
  refine (goLive_of_live _ hl).trans ?_
  simp only [readback, ha, hw, hr, if_true, withRise, startIfDue, ratioTaken, withAck, withVout] <;> rfl

end

/-! ## The margin -/

theorem wvnRecord_changesOnly (kind : Nat) (s : State) : changesOnly recordFields s (wvnRecord kind s) :=
  (wvnRecord_kept kind (by decide +kernel) (Kept.refl (fieldMask recordFields) s)).changesOnly

theorem voltageCap_changesOnly (s : State) : changesOnly (recordFields ++ [.wvnCapV]) s (voltageCap s) :=
  (voltageCap_kept (by decide +kernel) (Kept.refl (fieldMask (recordFields ++ [.wvnCapV])) s)).changesOnly

/-- Choosing the voltage cap leaves the margin's own offset, count and cap alone. -/
theorem voltageCap_margin (s : State) : (voltageCap s).wvn.marginOfs = s.wvn.marginOfs ∧ (voltageCap s).wvn.marginMs = s.wvn.marginMs ∧
    (voltageCap s).wvn.capM = s.wvn.capM := by
  obtain ⟨-, h⟩ := voltageCap_changesOnly s
  exact ⟨h .wvnMarginOfs (by decide), h .wvnMarginMs (by decide), h .wvnCapM (by decide)⟩

theorem marginLow_below_top {s : State} (h : s.wvn.marginOfs < 60) :
    (marginLow s).wvn.marginOfs = min 60 (s.wvn.marginOfs + 10) ∧ (marginLow s).wvn.marginMs = 0 := by
  rw [marginLow, if_pos h]
  exact ⟨rfl, rfl⟩

theorem marginLow_at_top {s : State} (h : 60 ≤ s.wvn.marginOfs) :
    (marginLow s).wvn.marginOfs = s.wvn.marginOfs ∧ (marginLow s).wvn.capM = min s.wvn.capM (bandOfR s.wvn.r - 1) := by
  rw [marginLow, if_neg (Nat.not_lt.mpr h)]
  dsimp only
  split
  · obtain ⟨-, hrec⟩ := wvnRecord_changesOnly 0
      (s.onWvn fun w => { w with marginMs := 0, capM := min w.capM (bandOfR s.wvn.r - 1) })
    exact ⟨hrec .wvnMarginOfs (by decide), hrec .wvnCapM (by decide)⟩
  · exact ⟨rfl, rfl⟩

section
variable {s : State} {k : Nat} (hl : live s = true)
include hl

theorem exec_marginSample_low (hk : k < 80) : exec (.marginSample k) s = .next (voltageCap (marginLow s)) :=
  (goLive_of_live _ hl).trans (by simp only [marginStep, hk, if_true])

theorem exec_marginSample_mid (h1 : 80 ≤ k) (h2 : k ≤ 150) :
    exec (.marginSample k) s = .next (voltageCap (s.onWvn fun w => { w with marginMs := 0 })) :=
  (goLive_of_live _ hl).trans (by simp only [marginStep, Nat.not_lt.mpr h1, Nat.not_lt.mpr h2, if_false])

end

/-! ## The obligation -/

/-- Settles O45: each clause is the equation of its command in that case and the frame of the state it answers. -/
theorem theVoltageIsWrittenAndAcknowledged : Obligations.TheVoltageIsWrittenAndAcknowledged := by
  unfold Obligations.TheVoltageIsWrittenAndAcknowledged
  refine ⟨fun s mv hl hv => ⟨fun hn => ?_, exec_speedReached_far hv⟩, fun s => exec_speedReached_idle, fun s mv a hl ha => ⟨?_, ?_, ?_⟩,
    fun s a hl ha => ⟨?_, ?_, ?_⟩, fun s ha => ⟨exec_avsAckTimeout_idle ha, exec_avsRetryPeriod_idle ha⟩, ?_, ?_, ?_⟩
  · exact ⟨_, exec_speedReached_near hl hv hn, rfl, rfl, rfl, rfl, writePending_changesOnly mv s⟩
  · intro h1 h2 hr
    exact ⟨_, exec_avsReadback_ack hl ha h1 h2 hr, rfl, rfl, rfl, rfl, rfl, withAck_changesOnly a mv s⟩
  · intro h1 h2 r hr
    exact ⟨_, exec_avsReadback_rise hl ha h1 h2 hr, withRise_vop a mv r s, withRise_in_force mv⟩
  · intro h
    exact ⟨_, exec_avsReadback_off hl ha h, rfl, withVout_changesOnly mv s⟩
  · intro hf ht
    exact ⟨_, exec_avsAckTimeout_again hl ha hf ht, rfl, rfl, rfl, writeAgain_changesOnly a s⟩
  · intro hf ht
    obtain ⟨hfail, hhold, hcnt, hr⟩ := writeFails_counts_and_holds s
    exact ⟨_, exec_avsAckTimeout_fails hl ha hf ht, hfail, hhold, hcnt, raise_isPending _ (by decide), hr⟩
  · intro hf
    exact ⟨exec_avsAckTimeout_failed ha hf, _, exec_avsRetryPeriod_failed hl ha hf, rfl, emit_changesOnly _ s⟩
  · intro k s hl hk hofs
    obtain ⟨hlow, hms⟩ := marginLow_below_top hofs
    obtain ⟨hvo, hvm, -⟩ := voltageCap_margin (marginLow s)
    exact ⟨_, exec_marginSample_low hl hk, hvo.trans hlow, hvm.trans hms⟩
  · intro k s hl hk hofs
    obtain ⟨hlow, hcap⟩ := marginLow_at_top hofs
    obtain ⟨hvo, -, hvc⟩ := voltageCap_margin (marginLow s)
    exact ⟨_, exec_marginSample_low hl hk, hvo.trans hlow, hvc.trans hcap⟩
  · intro k s hl h1 h2
    obtain ⟨hvo, hvm, hvc⟩ := voltageCap_margin (s.onWvn fun w => { w with marginMs := 0 })
    exact ⟨_, exec_marginSample_mid hl h1 h2, hvm, hvo, hvc⟩

end Sys2Proof.Machine
end

section
/-! PROOF. A command of queue 0 in hand, a group of accesses behind what the link has to do, the pieces of a write to the cartridge
memory, and the writing of the integrator area (R58, R63, R64). -/

namespace Sys2Proof.Machine

/-! ## A command in hand -/

section
variable {s : State} {q tag op : Nat} {c : Cmd}

theorem cmdOf_qid_tag (h : cmdOf s q tag = some c) : c.qid = q ∧ c.tag = tag := by
  simpa using List.find?_some h

theorem cmdOf_of_startedCmd (h : startedCmd s q tag op = some c) : cmdOf s q tag = some c := by
  unfold startedCmd at h
  split at h
  next d hd =>
    obtain ⟨-, hdc⟩ := Option.ite_none_right_eq_some.mp h
    exact hd.trans hdc
  next => cases h

end

/-- The first element of a list that a change of its like applies to is found again, changed. -/
theorem find?_mapIf {α : Type} {p : α → Bool} {f : α → α} (hp : ∀ x, p (f x) = p x) (l : List α) :
    (mapIf p f l).find? p = (l.find? p).map f := by
  induction l with
  | nil => rfl
  | cons x l ih =>
    by_cases hx : p x = true
    · simp [mapIf, hx, hp]
    · simpa [mapIf, hx] using ih

theorem cmdOf_onCmd {q tag : Nat} {f : Cmd → Cmd} (hf : ∀ c, (f c).qid = c.qid ∧ (f c).tag = c.tag) (s : State) :
    cmdOf (onCmd q tag f s) q tag = (cmdOf s q tag).map f :=
  find?_mapIf (fun c => by rw [(hf c).1, (hf c).2]) s.host.cmds

theorem adminRun_of_inHand {s : State} {tag : BitVec 16} {op : Nat} {c : Cmd} (f : Cmd → State → State)
    (h : inHand s 0 tag.toNat op c) : adminRun tag op f s = f c s := by
  simp only [adminRun, h.2]

theorem adminSub_of_inHand {s : State} {tag : BitVec 16} {op sub : Nat} {c : Cmd} (f : Cmd → State → State)
    (h : inHand s 0 tag.toNat op c) (hsub : specField c.entry 48 1 = sub) : adminSub tag op sub f s = f c s :=
  (adminRun_of_inHand _ h).trans (if_pos hsub)

/-! ## A group of accesses over the link -/

@[simp] theorem onLink_link (f : CmLink → CmLink) (s : State) : (onLink f s).drive.link = f s.drive.link := rfl

theorem cmIssue_queue (s : State) : (cmIssue s).drive.link.queue = s.drive.link.queue := by
  unfold cmIssue
  split <;> rfl

theorem cmQueue_queue (rs : List CmReq) (s : State) : (cmQueue rs s).drive.link.queue = s.drive.link.queue ++ rs := by
  unfold cmQueue
  dsimp only
  split
  · exact cmIssue_queue _
  · rfl

/-- A group stands behind what the link already has to do (R63). -/
theorem cmGroup_queue (rs : List CmReq) (m : CmMark) (s : State) :
    (cmGroup rs m s).drive.link.queue = s.drive.link.queue ++ cmOpening s ++ rs ++ [⟨[], .done m⟩] := by
  simp only [cmGroup, onLink_link, cmQueue_queue, List.append_assoc]

theorem cmGroup_changesOnly (rs : List CmReq) (m : CmMark) (s : State) : changesOnly [.driveLink, .out] s (cmGroup rs m s) :=
  (cmGroup_kept rs m (by decide +kernel) (Kept.refl (fieldMask [.driveLink, .out]) s)).changesOnly

/-! ## The pieces of a write (R64) -/

@[simp] theorem length_slice (bs : Bytes) (off n : Nat) : (slice bs off n).length = n := by
  simp only [slice, zeros, List.length_append, List.length_take, List.length_drop, List.length_replicate]
  omega

theorem fit_of_length_le {n : Nat} {bs : Bytes} (h : bs.length ≤ n) : fit n bs = bs ++ zeros (n - bs.length) := by
  simp only [fit, slice, List.drop_zero, List.take_of_length_le h]

/-- A part of bytes with zeros behind them is what the bytes hold there, with zeros past their end. -/
theorem take_drop_append_zeros (bs : Bytes) {k off n : Nat} (h : off + n ≤ bs.length + k) :
    ((bs ++ zeros k).drop off).take n = slice bs off n := by
  simp only [slice, zeros, List.drop_append, List.take_append, List.drop_replicate, List.take_replicate, List.length_take,
    List.length_drop]
  congr 2
  omega

/-- A request of a write is the CM_WRITE of one of its pieces of 16 bytes, or the read that compares that piece. -/
theorem job_of_mem_cmWrites {addr : Nat} {bs : Bytes} {r : CmReq} (h : r ∈ cmWrites addr bs) :
    ∃ i < (bs.length + 15) / 16,
      r.job = .write (addr + 16 * i) (slice bs (16 * i) 16) ∨ r.job = .check (addr + 16 * i) (slice bs (16 * i) 16) := by
  simp only [cmWrites, List.mem_flatMap, List.mem_range, List.mem_cons, List.not_mem_nil, or_false] at h
  obtain ⟨i, hi, hr⟩ := h
  have hi : i < (bs.length + 15) / 16 := by rwa [fit, length_slice, Nat.mul_div_cancel_left _ (by decide)] at hi
  rw [fit_of_length_le (by omega), take_drop_append_zeros bs (by omega)] at hr
  exact ⟨i, hi, hr.imp (congrArg CmReq.job) (congrArg CmReq.job)⟩

/-! ## CM_AREA (Table 12-5) -/

/-- The state in which the command waits for the end of its group: goal 1. -/
def areaWaits (c : Cmd) (s : State) : State := onCmd c.qid c.tag (fun d => { d with goal := 1 }) s

theorem cmdOf_areaWaits {c : Cmd} {s : State} (h : cmdOf s c.qid c.tag = some c) :
    cmdOf (areaWaits c s) c.qid c.tag = some { c with goal := 1 } := by
  refine (cmdOf_onCmd ?_ s).trans (congrArg (Option.map _) h)
  exact fun _ => ⟨rfl, rfl⟩

/-- The state once the write of the integrator area is with the link. -/
def areaAsked (data : Bytes) (c : Cmd) (s : State) : State :=
  cmGroup (cmWrites cmArea (fit 1024 data)) (.command c.qid c.tag) (areaWaits c s)

theorem areaAsked_changesOnly (data : Bytes) (c : Cmd) (s : State) :
    changesOnly [.hostCmds, .driveLink, .out] s (areaAsked data c s) :=
  Kept.changesOnly (cmGroup_kept _ _ (by decide +kernel) (onCmd_kept _ _ _ (by decide +kernel) (Kept.refl _ s)))

theorem areaAsked_queue (data : Bytes) (c : Cmd) (s : State) : (areaAsked data c s).drive.link.queue =
    s.drive.link.queue ++ cmOpening s ++ cmWrites cmArea (fit 1024 data) ++ [⟨[], .done (.command c.qid c.tag)⟩] :=
  cmGroup_queue _ _ _

theorem areaAsked_goal {q tag : Nat} {c : Cmd} {s : State} (data : Bytes) (h : cmdOf s q tag = some c) :
    (cmdOf (areaAsked data c s) q tag).map (·.goal) = some 1 := by
  obtain ⟨rfl, rfl⟩ := cmdOf_qid_tag h
  obtain ⟨-, hgroup⟩ := cmGroup_changesOnly (cmWrites cmArea (fit 1024 data)) (.command c.qid c.tag) (areaWaits c s)
  have hcmds : (areaAsked data c s).host.cmds = (areaWaits c s).host.cmds := hgroup .hostCmds (by decide)
  rw [cmdOf, hcmds, ← cmdOf, cmdOf_areaWaits h]
  rfl

section
variable {s : State} {data : Bytes} {c : Cmd}

theorem setArea_of_unmounted (hv : s.drive.vol = none) : setArea data c s = reply c.qid c.tag 0x0411 0 s := by
  simp only [setArea, hv, Option.isNone_none, if_true, adminDone]

variable (hv : s.drive.vol.isSome = true)
include hv

theorem setArea_first (hg : c.goal = 0) : setArea data c s = areaAsked data c s := by
  simp only [setArea, Option.isNone_eq_false_iff.mpr hv, hg, Bool.false_eq_true, if_false, areaAsked, areaWaits]

theorem setArea_written (hg : c.goal = 2) : setArea data c s = reply c.qid c.tag 0 0 s := by
  simp only [setArea, Option.isNone_eq_false_iff.mpr hv, hg, Bool.false_eq_true, if_false, adminDone]

theorem setArea_failed (hg : 3 ≤ c.goal) : setArea data c s = reply c.qid c.tag 0x0311 0 s := by
  obtain ⟨n, hn⟩ : ∃ n, c.goal = n + 3 := ⟨c.goal - 3, by omega⟩
  simp only [setArea, Option.isNone_eq_false_iff.mpr hv, hn, Bool.false_eq_true, if_false, adminDone]

end

theorem exec_cmArea {s : State} {tag : BitVec 16} {c : Cmd} (data : Bytes) (h : inHand s 0 tag.toNat opSetFeature c)
    (hsub : specField c.entry 48 1 = 5) : exec (.cmArea tag data) s = .next (setArea data c s) := by
  change execCmArea tag data s = _
  rw [execCmArea, goLive_of_live _ h.1, adminSub_of_inHand _ h hsub]

/-- Settles O22: the four answers are the cases of `setArea`, and each request of the group is one of a piece inside the area. -/
theorem theIntegratorAreaIsWrittenAlone : Obligations.TheIntegratorAreaIsWrittenAlone := by
  unfold Obligations.TheIntegratorAreaIsWrittenAlone
  refine ⟨fun s tag data c h hsub => ?_, fun bs r hlen hr => ?_⟩
  · have hexec := exec_cmArea data h hsub
    have hcmd := cmdOf_of_startedCmd h.2
    obtain ⟨hq, ht⟩ := cmdOf_qid_tag hcmd
    have hgoal := areaAsked_goal data hcmd
    have hqueue := areaAsked_queue data c s
    obtain ⟨hpending, hkeep⟩ := areaAsked_changesOnly data c s
    rw [hq, ht] at hqueue
    refine ⟨fun hv => ?_, fun hv hg => ⟨areaAsked data c s, ?_, hqueue, hkeep .driveCart (by decide), hgoal, hpending, hkeep⟩,
      fun hv hg => ?_, fun hv hg => ?_⟩
    · rw [answers, hexec, setArea_of_unmounted hv, hq, ht]
    · rw [hexec, setArea_first hv hg]
    · rw [answers, hexec, setArea_written hv hg, hq, ht]
    · rw [answers, hexec, setArea_failed hv hg, hq, ht]
  · obtain ⟨i, hi, hjob⟩ := job_of_mem_cmWrites hr
    refine ⟨cmArea + 16 * i, Nat.le_add_right _ _, by omega, ?_⟩
    rwa [Nat.add_sub_cancel_left]

end Sys2Proof.Machine
end

section
/-! PROOF. Bits of a word, the dead channels, and a copy whose verify fails (R82, R96, R99, R102). -/

namespace Sys2Proof.Machine

/-! ## One bit of a word -/

theorem getLsbD_setBit_true {n : Nat} (w : BitVec n) (i j : Nat) :
    (setBit w i true).getLsbD j = (w.getLsbD j || decide (j < n ∧ i = j)) := by
  simp only [setBit, if_true, BitVec.getLsbD_or, BitVec.getLsbD_ofNat, Nat.testBit_two_pow, Bool.decide_and]

/-! ## Channels declared dead (R102) -/

/-- A record and a request leave the dead channels of both modules alone. -/
theorem deadOf_raise_lantern (n code m : Nat) (data : Bytes) (s : State) : deadOf (raise n (lantern code data s)) m = deadOf s m := by
  have hkept := raise_kept n (by decide +kernel) (lantern_kept code data (Nat.or_self _) (Kept.refl _ s))
  have h0 : (raise n (lantern code data s)).ecc.dead0 = s.ecc.dead0 := hkept.same .eccDead0 (by decide +kernel)
  have h1 : (raise n (lantern code data s)).ecc.dead1 = s.ecc.dead1 := hkept.same .eccDead1 (by decide +kernel)
  rw [deadOf, deadOf, h0, h1]

theorem deadOf_declareDead (m c : Nat) (s : State) : deadOf (declareDead m c s) m = setBit (deadOf s m) c true := by
  unfold declareDead
  rw [deadOf_raise_lantern]
  unfold deadOf
  split <;> simp_all

/-- Every channel of a list is dead once it has been declared so, and none comes back. -/
theorem getLsbD_deadOf_forEach_declareDead {m c : Nat} (l : List Nat) {s : State} (hc : c < 1024)
    (h : c ∈ l ∨ (deadOf s m).getLsbD c = true) : (deadOf (forEach l (declareDead m) s) m).getLsbD c = true := by
  unfold forEach
  induction l generalizing s with
  | nil => simpa using h
  | cons x l ih =>
    refine ih ?_
    rw [deadOf_declareDead, getLsbD_setBit_true]
    rcases h with h | h
    · rcases List.mem_cons.mp h with rfl | h
      · simp [hc]
      · exact .inl h
    · simp [h]

/-- A channel whose frame has failed as often as the limit allows is dead for the module from then on. -/
theorem getLsbD_deadOf_countDead {m c limit : Nat} {v : VerifyRec} {s : State} (hc : c < 1024) (hshed : shedChannel s c = false)
    (hgrade : v.grades.getD c 0 = 0)
    (hlimit : limit ≤ getAt (if m = 0 then s.ecc.run0 else s.ecc.run1) c 0 + 1) :
    (deadOf (countDead m v limit s) m).getLsbD c = true := by
  unfold countDead
  refine getLsbD_deadOf_forEach_declareDead _ hc ?_
  by_cases hd : (deadOf s m).getLsbD c = true
  · refine .inr ?_
    unfold deadOf at hd ⊢
    split <;> simp_all
  · refine .inl ?_
    simp only [List.mem_filter, List.mem_range, hc, true_and, hshed, Bool.not_false, Bool.and_true, Bool.and_eq_true, Bool.not_eq_true',
      decide_eq_true_eq]
    refine ⟨?_, by simpa using hd⟩
    simp only [runsAfter, getAt, hc, dif_pos, Vector.getElem_ofFn, hshed, hgrade, Bool.false_eq_true, if_false, if_true] at hlimit ⊢
    exact hlimit

/-! ## The end of a verify (R96, R99) -/

/-- Releasing domes and packing leave the commits and the rewrites as they are. -/
theorem pack_releaseDomes_wr (s : State) : (pack (releaseDomes s)).wr.commits = s.wr.commits ∧
    (pack (releaseDomes s)).wr.rewrites = s.wr.rewrites := by
  have hrel := releaseDomes_kept (Nat.or_self _) (Kept.refl _ s)
  have hpack := pack_kept (Nat.or_self _) (Kept.refl _ (releaseDomes s))
  exact ⟨(hpack.same .wrCommits (by decide +kernel)).trans (hrel.same .wrCommits (by decide +kernel)),
    (hpack.same .wrRewrites (by decide +kernel)).trans (hrel.same .wrRewrites (by decide +kernel))⟩

/-- While a copy waits for its verify or for its rewrite, the end of a verify releases domes and packs, and no more. -/
theorem afterVerify_of_unverified {s : State} (h : allVerified s = false) : afterVerify s = pack (releaseDomes s) := by
  obtain ⟨hc, hr⟩ := pack_releaseDomes_wr s
  have hall : allVerified (pack (releaseDomes s)) = false := by rw [allVerified, hc, hr, ← allVerified, h]
  have hback : backhitchIfDone (pack (releaseDomes s)) = pack (releaseDomes s) := by
    rw [backhitchIfDone, hall, if_neg (by simp)]
  unfold afterVerify
  simp only [hback, otherPartition, hall, Bool.false_and, Bool.false_eq_true, and_false, if_false]

/-- A rewrite that is due stays due at the end of a verify. -/
theorem mem_rewrites_afterVerify {s : State} {id : Nat} (h : id ∈ s.wr.rewrites) : id ∈ (afterVerify s).wr.rewrites := by
  have hall : allVerified s = false := by
    rw [allVerified, Bool.and_eq_false_iff]
    exact .inr (by simpa using List.ne_nil_of_mem h)
  rwa [afterVerify_of_unverified hall, (pack_releaseDomes_wr s).2]

theorem mem_rewrites_needRewrite (id : Nat) (s : State) : id ∈ (needRewrite id s).wr.rewrites := by
  unfold needRewrite
  split
  next h => exact List.contains_iff_mem.mp h
  next => exact List.mem_append_right _ (List.mem_singleton_self id)

theorem mem_rewrites_copyFailed (d : DataSet) (c : Commit) (s : State) : d.id ∈ (copyFailed d c s).wr.rewrites := by
  unfold copyFailed
  dsimp only
  split
  · have h := (countSkip_kept d c (Nat.or_self _) (Kept.refl _ (needRewrite d.id s))).same .wrRewrites (by decide +kernel)
    exact h ▸ mem_rewrites_needRewrite d.id s
  · exact mem_rewrites_needRewrite d.id s

/-- The state once the result of a slot has been taken: its commit and what verify found of it are gone. -/
def resultTaken (slot : Nat) (s : State) : State :=
  (s.onWr fun w => { w with commits := w.commits.filter fun x => x.slot != slot }).onTiles fun k =>
    { k with verifies := k.verifies.filter fun x => x.slot != slot }

/-- A copy that fails under the erase map in force when it was verified is to be rewritten, whatever the result declares dead (R82, R99). -/
theorem mem_rewrites_takeVerify {s : State} {slot : Nat} {c : Commit} {d : DataSet}
    (hc : (s.wr.commits.find? fun c => c.slot == slot) = some c) (ha : c.affected = false) (hd : stagedSet s c.id = some d)
    (hp : d.stage ≠ .passed)
    (hv : verifyPasses (resultTaken slot s) (moduleOf s.wr.wrap) c.cfg (verifyOf s slot) = false) :
    d.id ∈ (takeVerify slot s).wr.rewrites := by
  have hcopy := mem_rewrites_afterVerify (mem_rewrites_copyFailed d c
    (countDead (moduleOf s.wr.wrap) (verifyOf s slot) (deadRun c.cfg2) (resultTaken slot s)))
  have hset : stagedSet (resultTaken slot s) c.id = some d := hd
  simp only [resultTaken] at hset hv hcopy
  simpa only [takeVerify, hc, ha, hset, hp, hv, Bool.false_eq_true, if_false] using hcopy

/-! ## A copy that fails, and would pass under the map that its own result makes -/

/-- A first copy of data set 0 stands at slot 5, under settings of 0: no frame may fail, and one failure declares a channel dead. -/
def missedCopy : Commit := { slot := 5, id := 0, rewritten := false, point := 0, affected := false, cfg := 0, cfg2 := 0 }

/-- The data set of that copy. -/
def missedSet : DataSet := { freshSet State.reset 0 .user ⟨0, 0xFF, 0⟩ 0 with n := some 0, stage := .committed }

/-- What verify found of that copy: channel 0 failed, and every other channel passed. -/
def missedVerify : VerifyRec := ⟨5, 0 :: List.replicate 1023 2, false⟩

/-- The part runs, and the copy waits for the outcome of its verify. -/
def missedState : State :=
  ((State.reset.onBoot fun b => { b with phase := .normal }).onWr fun w => { w with
    sets := [missedSet], nextId := 1, commits := [missedCopy] }).onTiles fun k => { k with verifies := [missedVerify] }

theorem getD_missedVerify {c : Nat} (h0 : c ≠ 0) (hc : c < 1024) : missedVerify.grades.getD c 0 = 2 := by
  obtain ⟨k, rfl⟩ := Nat.exists_eq_succ_of_ne_zero h0
  rw [missedVerify, List.getD_cons_succ, List.getD_replicate _ (by omega)]

/-- In the map in force channel 0 counts, and no failure is allowed. -/
theorem missedState_fails : verifyPasses (resultTaken 5 missedState) 0 missedCopy.cfg missedVerify = false := by
  have hcount : 0 < counted (resultTaken 5 missedState) 0 missedVerify (· == 0) :=
    List.countP_pos_iff.mpr ⟨0, List.mem_range.mpr (by decide), by decide +kernel⟩
  have hlimit : failFrames missedCopy.cfg = 0 := by decide
  rw [verifyPasses, hlimit, decide_eq_false (Nat.not_le.mpr hcount)]
  rfl

/-- Once the result has declared channel 0 dead, no channel that counts has failed or is weak. -/
theorem missedState_passes_later :
    verifyPasses (countDead 0 missedVerify (deadRun missedCopy.cfg2) (resultTaken 5 missedState)) 0 missedCopy.cfg missedVerify = true := by
  have hdead : (deadOf (countDead 0 missedVerify (deadRun missedCopy.cfg2) (resultTaken 5 missedState)) 0).getLsbD 0 = true :=
    getLsbD_deadOf_countDead (by decide) (by decide +kernel) rfl (by decide +kernel)
  have hcount : ∀ grade : Nat → Bool, grade 2 = false →
      counted (countDead 0 missedVerify (deadRun missedCopy.cfg2) (resultTaken 5 missedState)) 0 missedVerify grade = 0 := by
    intro grade hgrade
    refine List.countP_eq_zero.mpr fun c hc => ?_
    rcases Nat.eq_zero_or_pos c with rfl | hpos
    · simp [eraseMap, hdead]
    · rw [getD_missedVerify hpos.ne' (List.mem_range.mp hc), hgrade, Bool.and_false]
      exact Bool.false_ne_true
  have hfailed := hcount (· == 0) rfl
  have hweak := hcount (· ≤ 1) rfl
  rw [verifyPasses, hfailed, hweak, decide_eq_true (Nat.zero_le _), decide_eq_true (Nat.zero_le _)]
  rfl

/-- Refutes O43: the clause of VERIFY_RESULT asks whether the copy passes under the map that its own failures have changed, where the model
takes the map in force when the copy was verified (R82). Here the copy fails on channel 0 alone, which the same result declares dead. -/
theorem not_slotsAreCommittedThenVerified : ¬ Obligations.SlotsAreCommittedThenVerified := by
  unfold Obligations.SlotsAreCommittedThenVerified
  rintro ⟨-, -, -, -, -, hverify, -⟩
  have hfind : (missedState.wr.commits.find? fun c => c.slot == 5) = some missedCopy := by decide
  have hset : stagedSet missedState missedCopy.id = some missedSet := by decide
  obtain ⟨hpass, -⟩ := hverify missedState 5 missedCopy missedSet rfl hfind rfl hset (by decide) (by decide)
  obtain ⟨t, ht, -, hout, -⟩ := hpass missedState_passes_later
  have htake : t = takeVerify 5 missedState := by
    injection ht.symm.trans (goLive_of_live _ rfl)
  exact hout (htake ▸ mem_rewrites_takeVerify hfind rfl hset (by decide) missedState_fails)

end Sys2Proof.Machine
end

section
/-! PROOF. The write inhibit (R105, R106), and the requests of the cartridge-memory link (R63, R64). -/

namespace Sys2Proof.Machine

/-! ## An inhibit source becomes active (R105) -/

theorem stopTokens_tokens (s : State) : (stopTokens s).wr.tokens = false := by
  unfold stopTokens
  split
  · have hcut := cutCommits_kept (Nat.or_self _) (Kept.refl _ (s.onWr fun w => { w with tokens := false }))
    have hhalt := forEach_kept (upGroups s) haltToken (fun g t => haltToken_kept g (Nat.or_self _))
      (Kept.refl _ (cutCommits (s.onWr fun w => { w with tokens := false })))
    exact (hhalt.same .wrTokens (by decide +kernel)).trans (hcut.same .wrTokens (by decide +kernel))
  next h => exact Bool.eq_false_iff.mpr h

/-- The state with a source set, and with its ban on the resume (R105, R106). -/
def sourceSet (src : InhibitSource) (s : State) : State :=
  s.onWr fun w => { w with
    sources := setBit w.sources (sourceBit src) true, inhibited := true, noResume := w.noResume || src == .alarm || src == .power }

theorem sourceSet_changesOnly (src : InhibitSource) (s : State) :
    changesOnly [.wrSources, .wrInhibited, .wrNoResume] s (sourceSet src s) := by
  refine Kept.changesOnly (onWr_kept _ (fun w => ?_) (Kept.refl _ s))
  exact { WrAgree.refl _ w with
    sources := .inl (by decide +kernel), inhibited := .inl (by decide +kernel), noResume := .inl (by decide +kernel) }

theorem sourceSet_sources (src : InhibitSource) (s : State) (i : Nat) :
    (sourceSet src s).wr.sources.getLsbD i = (s.wr.sources.getLsbD i || decide (i = sourceBit src)) := by
  have hlt : sourceBit src < 11 := by cases src <;> decide
  simp only [sourceSet, State.onWr_wr, getLsbD_setBit_true]
  by_cases h : i = sourceBit src
  · simp [h, hlt]
  · simp [h, Ne.symm h]

/-- The first source: the tokens stop, and the entry is counted and recorded (R105, R107). -/
def firstSource (src : InhibitSource) (s : State) : State :=
  lantern 0x0030 (le 2 (sourceSet src s).wr.sources.toNat ++ le 6 (nInHand s))
    (stopTokens ((sourceSet src s).onEcc fun e => { e with cntInhibit := inc e.cntInhibit }))

/-- The stop of the tokens and the record leave the sources, the ban and the count as they were set. -/
theorem firstSource_marks (src : InhibitSource) (s : State) :
    (firstSource src s).wr.sources = (sourceSet src s).wr.sources ∧ (firstSource src s).wr.inhibited = true ∧
    (firstSource src s).wr.noResume = (sourceSet src s).wr.noResume ∧ (firstSource src s).wr.tokens = false ∧
    (firstSource src s).ecc.cntInhibit = inc s.ecc.cntInhibit := by
  have hstop := stopTokens_kept (Nat.or_self _) (Kept.refl _ ((sourceSet src s).onEcc fun e => { e with cntInhibit := inc e.cntInhibit }))
  have hlan := lantern_kept 0x0030 (le 2 (sourceSet src s).wr.sources.toNat ++ le 6 (nInHand s)) (Nat.or_self _)
    (Kept.refl _ (stopTokens ((sourceSet src s).onEcc fun e => { e with cntInhibit := inc e.cntInhibit })))
  exact ⟨(hlan.same .wrSources (by decide +kernel)).trans (hstop.same .wrSources (by decide +kernel)),
    (hlan.same .wrInhibited (by decide +kernel)).trans (hstop.same .wrInhibited (by decide +kernel)),
    (hlan.same .wrNoResume (by decide +kernel)).trans (hstop.same .wrNoResume (by decide +kernel)),
    (hlan.same .wrTokens (by decide +kernel)).trans (stopTokens_tokens _),
    (hlan.same .eccCntInhibit (by decide +kernel)).trans (hstop.same .eccCntInhibit (by decide +kernel))⟩

section
variable {src : InhibitSource} {s : State}

theorem exec_writeInhibit_active (h : s.wr.sources.getLsbD (sourceBit src) = true) : exec (.writeInhibit src) s = .next s :=
  goLive_of_fixed (by rw [inhibitOn, if_pos h])

theorem exec_writeInhibit_first (hl : live s = true) (hs : s.wr.sources = 0) :
    exec (.writeInhibit src) s = .next (firstSource src s) := by
  have h : s.wr.sources.getLsbD (sourceBit src) = false := by simp [hs]
  refine (goLive_of_live _ hl).trans (congrArg _ ?_)
  simp only [inhibitOn, h, decide_eq_true hs, Bool.false_eq_true, if_false, if_true, firstSource, sourceSet]

theorem exec_writeInhibit_further (hl : live s = true) (h : s.wr.sources.getLsbD (sourceBit src) = false) (hs : s.wr.sources ≠ 0) :
    exec (.writeInhibit src) s = .next (sourceSet src s) := by
  refine (goLive_of_live _ hl).trans (congrArg _ ?_)
  simp only [inhibitOn, h, hs, Bool.false_eq_true, if_false, decide_false, sourceSet]

end

/-! ## Tokens flow again (R106) -/

theorem mayResume_iff (s : State) : mayResume s = true ↔
    s.wr.inhibited = true ∧ s.wr.sources = 0 ∧ s.wr.noResume = false ∧ pesGoodNeed s ≤ s.wr.pesGood := by
  simp only [mayResume, Bool.and_eq_true, Bool.not_eq_true', decide_eq_true_eq, and_assoc]

theorem slot_le_nextCommitSlot (s : State) : s.wr.slot ≤ nextCommitSlot s := by
  unfold nextCommitSlot
  split
  · exact Nat.le_refl _
  · exact Nat.le_max_left _ _

/-- Tokens flow, nothing inhibits writing, and the slot in hand is the next commit slot; the time base is left alone. -/
theorem resumeTokens_marks (s : State) : (resumeTokens s).wr.inhibited = false ∧ (resumeTokens s).wr.tokens = true ∧
    (resumeTokens s).wr.holdUntil = none ∧ (resumeTokens s).wr.slot = nextCommitSlot s ∧
    (resumeTokens s).power.time = s.power.time := by
  unfold resumeTokens
  dsimp only
  have hpermit := fun (l : List (Fin 8)) (u : State) =>
    forEach_kept l permitToken (fun g t => permitToken_kept g (Nat.or_self _)) (Kept.refl _ u)
  exact ⟨(hpermit _ _).same .wrInhibited (by decide +kernel), (hpermit _ _).same .wrTokens (by decide +kernel),
    (hpermit _ _).same .wrHoldUntil (by decide +kernel), (hpermit _ _).same .wrSlot (by decide +kernel),
    (hpermit _ _).same .powerTime (by decide +kernel)⟩

theorem exec_writeResume {s : State} (hl : live s = true) (h : mayResume s = true) :
    exec .writeResume s = .next (resumeTokens (advanceTo (s.wr.holdUntil.getD 0) s)) :=
  (goLive_of_live _ hl).trans (by rw [if_pos h])

theorem exec_writeResume_not {s : State} (h : mayResume s = false) : exec .writeResume s = .next s :=
  goLive_of_fixed (by simp only [h, Bool.false_eq_true, if_false])

/-! ## What the cartridge memory holds after a write (R64) -/

/-- A string written is what is read there. -/
theorem Memory.readBytes_writeBytes (bs : Bytes) {m : Cells} (x : Nat) (h : Memory.wf m) :
    Memory.readBytes (Memory.writeBytes m x bs) x bs.length = bs := by
  induction bs generalizing m x with
  | nil => rfl
  | cons b bs ih =>
    have hb : Memory.read (Memory.writeBytes (Memory.write m x b) (x + 1) bs) x = b :=
      (Memory.read_writeBytes_other bs (by omega)).trans (Memory.read_write_same x b h)
    have hbs := ih (x + 1) (Memory.wf_write x b h)
    simp only [Memory.readBytes] at hbs
    simp only [Memory.readBytes, Memory.writeBytes, List.length_cons, List.range_succ_eq_map, List.map_cons, List.map_map, Nat.add_zero, hb]
    refine congrArg (b :: ·) (Eq.trans ?_ hbs)
    exact List.map_congr_left fun i _ => by simp only [Function.comp_apply, Nat.succ_eq_add_one, Nat.add_assoc, Nat.add_comm i 1]

/-! ## The request in hand is answered (R63) -/

/-- The request in hand is sent once more (R63). -/
def requestRepeated (r : CmReq) (s : State) : State :=
  emits [.cmFrame r.frame, .cmFrame cmPoll] (onLink (fun l => { l with tries := l.tries + 1, busy := false, usedAt := s.power.time }) s)

theorem requestRepeated_changesOnly (r : CmReq) (s : State) : changesOnly [.driveLink, .out] s (requestRepeated r s) :=
  (emits_kept _ (by decide +kernel) (onLink_kept _ (by decide +kernel) (Kept.refl (fieldMask [.driveLink, .out]) s))).changesOnly

section
variable {s : State} {bs : Bytes} {r : CmReq} {rest : List CmReq} (hq : s.drive.link.queue = r :: rest)
include hq

theorem cmTake_busy (h : field bs 0 1 = 0) : cmTake bs s = onLink (fun l => { l with busy := true }) s := by
  simp only [cmTake, hq, h, if_true]

theorem cmTake_done (h : field bs 0 1 = 1) (hok : cmFrameOk bs = true) :
    cmTake bs s = cmAccept r.job (slice bs 2 (field bs 1 1)) s := by
  simp only [cmTake, hq, h, hok, Nat.one_ne_zero, and_self, if_false, if_true]

theorem cmTake_error (hj : r.job ≠ .halt) (h0 : field bs 0 1 ≠ 0) (hbad : ¬(field bs 0 1 = 1 ∧ cmFrameOk bs = true)) :
    cmTake bs s = cmRetry s := by
  simp only [cmTake, hq, h0, hbad, hj, if_false]

theorem cmRetry_repeats (ht : s.drive.link.tries < 3) : cmRetry s = requestRepeated r s := by
  simp only [cmRetry, hq, ht, if_true, requestRepeated]

theorem cmRetry_fails (ht : 3 ≤ s.drive.link.tries) : cmRetry s = cmFail s := by
  simp only [cmRetry, hq, Nat.not_lt.mpr ht, if_false]

/-- A CM_WRITE that is acknowledged is in the memory, and the requests behind it go on (R64). -/
theorem cmAccept_write (a : Nat) (w : Bytes) : cmAccept (.write a w) [0] s = cmGoOn rest (storeCm a w s) := by
  have hs : (storeCm a w s).drive.link.queue.drop 1 = rest := congrArg (List.drop 1) hq
  simp only [cmAccept, if_true, cmNext, hs, List.nil_append]

end

/-- What goes on with the requests left changes no byte of the memory. -/
theorem cmGoOn_cart (rest : List CmReq) (s : State) : (cmGoOn rest s).drive.cart = s.drive.cart :=
  (cmGoOn_kept rest (Nat.or_self _) (Kept.refl _ s)).same .driveCart (by decide +kernel)

@[simp] theorem onLink_out (f : CmLink → CmLink) (s : State) : (onLink f s).out = s.out := rfl

/-- A request that no group ends with goes out next. -/
theorem cmGoOn_request {r : CmReq} (rest : List CmReq) (s : State) (h : doneMark r = none) :
    (cmGoOn (r :: rest) s).drive.link.queue = r :: rest ∧
    (cmGoOn (r :: rest) s).out = s.out ++ [.cmFrame r.frame, .cmFrame cmPoll] := by
  simp [cmGoOn, h, cmIssue, emits]

theorem exec_cmResponse {s : State} (bs : Bytes) (hl : live s = true) :
    exec (.cmResponse bs) s = .next (settle (kickWrites false (cmTake bs s))) :=
  goLive_of_live (fun t => settle (kickWrites false (cmTake bs t))) hl

/-! ## The link polls again, and the field goes off (R63) -/

/-- The reader is polled again 50 µs later. -/
def polledAgain (s : State) : State :=
  emit (.cmFrame cmPoll) (advanceTo (s.power.time + 50 * usTicks) (onLink (fun l => { l with busy := false }) s))

theorem polledAgain_changesOnly (s : State) : changesOnly [.driveLink, .powerTime, .out] s (polledAgain s) :=
  Kept.changesOnly (emit_kept _ (by decide +kernel) (advanceTo_kept _ (by decide +kernel) (onLink_kept _ (by decide +kernel) (Kept.refl _ s))))

/-- The memory is halted and the field goes off, 100 ms after the last access. -/
def fieldOff (s : State) : State := cmClose (advanceTo (s.drive.link.usedAt + 100 * msTicks) s)

theorem fieldOff_changesOnly (s : State) : changesOnly [.driveLink, .powerTime, .out] s (fieldOff s) :=
  Kept.changesOnly (cmClose_kept (by decide +kernel) (advanceTo_kept _ (by decide +kernel) (Kept.refl _ s)))

theorem fieldOff_link {s : State} (hf : s.drive.link.field = true) (hidle : cmIdle s = true) :
    (fieldOff s).drive.link.field = false ∧
    (fieldOff s).drive.link.queue = [cmReq 100 [0x50, 0x00] .halt, ⟨cmFrame 1 [0], .plain⟩] := by
  have hempty : s.drive.link.queue = [] := List.isEmpty_iff.mp hidle
  have hf' : (advanceTo (s.drive.link.usedAt + 100 * msTicks) s).drive.link.field = true := hf
  have hempty' : (advanceTo (s.drive.link.usedAt + 100 * msTicks) s).drive.link.queue = [] := hempty
  simp [fieldOff, cmClose, hf', hempty', cmQueue, cmIssue, emits]

theorem fieldOff_time (s : State) : (fieldOff s).power.time = max s.power.time (s.drive.link.usedAt + 10000000) :=
  (cmClose_kept (Nat.or_self _) (Kept.refl _ _)).same .powerTime (by decide +kernel)

section
variable {s : State}

theorem exec_cmPollRetry_busy (hl : live s = true) (h : s.drive.link.busy = true) : exec .cmPollRetry s = .next (polledAgain s) :=
  (goLive_of_live _ hl).trans (by rw [if_pos h, polledAgain])

theorem exec_cmPollRetry_idle (h : s.drive.link.busy = false) : exec .cmPollRetry s = .next s :=
  goLive_of_fixed (by simp only [h, Bool.false_eq_true, if_false])

theorem exec_cmFieldOffTimeout_off (hl : live s = true) (hf : s.drive.link.field = true) (hidle : cmIdle s = true) :
    exec .cmFieldOffTimeout s = .next (fieldOff s) :=
  (goLive_of_live _ hl).trans (by simp only [hf, hidle, Bool.and_self, if_true, fieldOff])

theorem exec_cmFieldOffTimeout_stays (h : s.drive.link.field = false ∨ cmIdle s = false) : exec .cmFieldOffTimeout s = .next s :=
  goLive_of_fixed (if_neg (by rcases h with h | h <;> simp [h]))

end

/-! ## The obligation -/

/-- Settles O44: an inhibit source either is the first or joins others, and an answer over the link is one of the four that `cmTake` knows. -/
theorem inhibitsAndTheMemoryLinkHoldTheirRules : Obligations.InhibitsAndTheMemoryLinkHoldTheirRules := by
  unfold Obligations.InhibitsAndTheMemoryLinkHoldTheirRules
  refine ⟨fun src s hl h => ?_, fun src s => exec_writeInhibit_active, fun s hl h => ?_, fun s => exec_writeResume_not, mayResume_iff,
    fun bs r rest s hl hq => ⟨fun h0 => ?_, fun hj h0 hbad ht => ?_, fun hj h0 hbad ht => ?_, fun a w k hjob h1 hok hreply hk hwf => ?_⟩,
    fun s hl h => ?_, fun s hl hf hidle => ?_, fun s => ⟨exec_cmPollRetry_idle, exec_cmFieldOffTimeout_stays⟩⟩
  · have hsrc : (sourceSet src s).wr.sources.getLsbD (sourceBit src) = true := by simp [sourceSet_sources]
    have hother : ∀ i, i ≠ sourceBit src → (sourceSet src s).wr.sources.getLsbD i = s.wr.sources.getLsbD i := by
      intro i hi
      simp [sourceSet_sources, hi]
    have hban : src = .alarm ∨ src = .power → (sourceSet src s).wr.noResume = true := by
      rintro (rfl | rfl) <;> simp [sourceSet]
    by_cases hs : s.wr.sources = 0
    · obtain ⟨hsources, hinhibited, hresume, htokens, hcount⟩ := firstSource_marks src s
      refine ⟨_, exec_writeInhibit_first hl hs, hsources ▸ hsrc, hsources ▸ hother, hinhibited, hresume ▸ hban,
        fun _ => ⟨htokens, hcount⟩, absurd hs⟩
    · exact ⟨_, exec_writeInhibit_further hl h hs, hsrc, hother, rfl, hban, (absurd · hs), fun _ => sourceSet_changesOnly src s⟩
  · obtain ⟨hinhibited, htokens, hhold, hslot, htime⟩ := resumeTokens_marks (advanceTo (s.wr.holdUntil.getD 0) s)
    exact ⟨_, exec_writeResume hl h, hinhibited, htokens, hhold, htime, hslot ▸ slot_le_nextCommitSlot (advanceTo (s.wr.holdUntil.getD 0) s)⟩
  · rw [exec_cmResponse bs hl, cmTake_busy hq h0]
    rfl
  · refine ⟨requestRepeated r s, ?_, hq, rfl, rfl, requestRepeated_changesOnly r s⟩
    rw [exec_cmResponse bs hl, cmTake_error hq hj h0 hbad, cmRetry_repeats hq ht]
  · rw [exec_cmResponse bs hl, cmTake_error hq hj h0 hbad, cmRetry_fails hq ht]
  · refine ⟨cmGoOn rest (storeCm a w s), { k with cm := Memory.writeBytes k.cm a w }, ?_, ?_, Memory.readBytes_writeBytes w a hwf,
      fun x => Memory.read_writeBytes_other w, ?_⟩
    · rw [exec_cmResponse bs hl, cmTake_done hq h1 hok, hjob, hreply, cmAccept_write hq]
    · rw [cmGoOn_cart]
      simp [storeCm, hk]
    · rintro r2 rest2 rfl hnone
      exact cmGoOn_request rest2 _ hnone
  · exact ⟨_, exec_cmPollRetry_busy hl h, rfl, rfl, Nat.max_eq_right (Nat.le_add_right _ _), polledAgain_changesOnly s⟩
  · obtain ⟨hfield, hqueue⟩ := fieldOff_link hf hidle
    exact ⟨_, exec_cmFieldOffTimeout_off hl hf hidle, hfield, hqueue, fieldOff_time s, fieldOff_changesOnly s⟩

end Sys2Proof.Machine
end

section
/-! PROOF. REFRESH and PARTITION: the steps of each, and the map that a write run leaves as it is (R57, R114, R323, R324). -/

namespace Sys2Proof.Machine

/-! ## REFRESH (R114, R323) -/

theorem startedRefresh_of_inHand {s : State} {q tag action : Nat} {c : Cmd} (h : inHand s q tag opRefresh c)
    (ha : specField c.entry 48 1 = action) : startedRefresh s q tag action = some c := by
  rw [startedRefresh, h.2, Option.filter_some, if_pos (by simp [ha])]

/-- Either row of REFRESH takes a step of the command in hand; ACTION 0 takes in the whole volume. -/
theorem exec_refresh {s : State} {q : Fin 256} {tag : BitVec 16} {c : Cmd} {i : Instr} (h : inHand s q.val tag.toNat opRefresh c)
    (hi : (specField c.entry 48 1 = 0 ∧ i = .refreshFullRebuild q tag) ∨ (specField c.entry 48 1 = 1 ∧ i = .refreshLocateIndex q tag)) :
    exec i s = .next (refreshStep c (decide (specField c.entry 48 1 = 0)) s) := by
  rcases hi with ⟨ha, rfl⟩ | ⟨ha, rfl⟩
  · change execRefreshFullRebuild q tag s = _
    rw [execRefreshFullRebuild, goLive_of_live _ h.1, startedRefresh_of_inHand h ha, ha]
    rfl
  · change execRefreshLocateIndex q tag s = _
    rw [execRefreshLocateIndex, goLive_of_live _ h.1, startedRefresh_of_inHand h ha, ha]
    rfl

/-- The state with the volume's fields taken from the tape: the locate index alone, or all of them. -/
def tapeTaken (whole : Bool) (s : State) : State := (if whole then refreshAll else refreshIndex) (dropReads s)

/-- The state once the tape is read and the writing of the cartridge memory has begun: goal 1. -/
def refreshBegun (c : Cmd) (whole : Bool) (s : State) : State :=
  cmGroup (refreshWrites (tapeTaken whole s) whole) (.command c.qid c.tag)
    (onCmd c.qid c.tag (fun d => { d with goal := 1 }) (tapeTaken whole s))

section
variable {s : State} {c : Cmd} {whole : Bool}

theorem refreshStep_stops {st : Nat} (hg : c.goal = 0) (hst : refreshStop s = some st) :
    refreshStep c whole s = reply c.qid c.tag st 0 s := by
  simp [refreshStep, hg, hst]

theorem refreshStep_begins (hg : c.goal = 0) (hst : refreshStop s = none) (ht : tapeSettled s = true) :
    refreshStep c whole s = refreshBegun c whole s := by
  simp [refreshStep, hg, hst, ht, refreshBegun, tapeTaken]

theorem refreshStep_waits (hg : c.goal = 1) : refreshStep c whole s = s := by simp [refreshStep, hg]

theorem refreshStep_written (hg : c.goal = 2) : refreshStep c whole s = reply c.qid c.tag 0 0 s := by simp [refreshStep, hg]

theorem refreshStep_failed (hg : c.goal = 3) : refreshStep c whole s = reply c.qid c.tag 0x0311 0 s := by simp [refreshStep, hg]

/-- A REFRESH that nothing stops has a volume. -/
theorem vol_of_refreshStop (h : refreshStop s = none) : ∃ v, s.drive.vol = some v := by
  refine Option.isSome_iff_exists.mp (Bool.of_not_eq_false fun hn => ?_)
  rw [refreshStop, if_pos (by simpa using hn)] at h
  cases h

end

/-- Dropping the read-ahead leaves the volume, the tape and the commands as they are. -/
theorem dropReads_drive_cmds (s : State) : (dropReads s).drive.vol = s.drive.vol ∧ (dropReads s).drive.cart = s.drive.cart ∧
    (dropReads s).host.cmds = s.host.cmds := by
  have h := dropReads_kept (Nat.or_self _) (Kept.refl _ s)
  exact ⟨h.same .driveVol (by decide +kernel), h.same .driveCart (by decide +kernel), h.same .hostCmds (by decide +kernel)⟩

theorem tapeSlots_congr {s t : State} (h : t.drive.cart = s.drive.cart) : tapeSlots t = tapeSlots s := by
  rw [tapeSlots, tapeSlots, h]

/-- Taking the volume's fields from the tape leaves the tape and the commands as they are. -/
theorem tapeTaken_cart_cmds (whole : Bool) (s : State) : (tapeTaken whole s).drive.cart = s.drive.cart ∧
    (tapeTaken whole s).host.cmds = s.host.cmds := by
  obtain ⟨-, hcart, hcmds⟩ := dropReads_drive_cmds s
  cases whole
  · exact ⟨hcart, hcmds⟩
  · exact ⟨hcart, hcmds⟩

theorem tapeTaken_index (whole : Bool) {s : State} {v : Volume} (hv : s.drive.vol = some v) :
    ∃ w, (tapeTaken whole s).drive.vol = some w ∧
      w.index = if whole then (findVolume true (dropReads s)).index else probedIndex (tapeSlots s) := by
  obtain ⟨hvol, hcart, -⟩ := dropReads_drive_cmds s
  rw [hv] at hvol
  cases whole
  · refine ⟨{ v with index := probedIndex (tapeSlots (dropReads s)) }, ?_, by simp [tapeSlots_congr hcart]⟩
    simp [tapeTaken, refreshIndex, onVol, hvol]
  · simp [tapeTaken, refreshAll, onVol, hvol]

/-- A group of accesses joins the link's requests; the volume, the tape and the commands stay. -/
theorem cmGroup_drive_cmds (rs : List CmReq) (m : CmMark) (s : State) : (cmGroup rs m s).drive.vol = s.drive.vol ∧
    (cmGroup rs m s).drive.cart = s.drive.cart ∧ (cmGroup rs m s).host.cmds = s.host.cmds := by
  obtain ⟨-, h⟩ := cmGroup_changesOnly rs m s
  exact ⟨h .driveVol (by decide), h .driveCart (by decide), h .hostCmds (by decide)⟩

theorem cmdOf_congr {s t : State} (h : t.host.cmds = s.host.cmds) (q tag : Nat) : cmdOf t q tag = cmdOf s q tag := by
  rw [cmdOf, cmdOf, h]

/-- The command in hand, once its goal is set. -/
theorem cmdOf_onCmd_goal {s : State} {c : Cmd} (g : Nat) (h : cmdOf s c.qid c.tag = some c) :
    cmdOf (onCmd c.qid c.tag (fun d => { d with goal := g }) s) c.qid c.tag = some { c with goal := g } :=
  (cmdOf_onCmd (by exact fun _ => ⟨rfl, rfl⟩) s).trans (congrArg (Option.map _) h)

theorem refreshBegun_cmd (whole : Bool) {s : State} {c : Cmd} (h : cmdOf s c.qid c.tag = some c) :
    cmdOf (refreshBegun c whole s) c.qid c.tag = some { c with goal := 1 } := by
  obtain ⟨-, -, hcmds⟩ := cmGroup_drive_cmds (refreshWrites (tapeTaken whole s) whole) (.command c.qid c.tag)
    (onCmd c.qid c.tag (fun d => { d with goal := 1 }) (tapeTaken whole s))
  refine (cmdOf_congr hcmds _ _).trans (cmdOf_onCmd_goal 1 ?_)
  rw [cmdOf_congr (tapeTaken_cart_cmds whole s).2, h]

theorem refreshBegun_drive (c : Cmd) (whole : Bool) (s : State) : (refreshBegun c whole s).drive.vol = (tapeTaken whole s).drive.vol ∧
    (refreshBegun c whole s).drive.cart = s.drive.cart := by
  obtain ⟨hvol, hcart, -⟩ := cmGroup_drive_cmds (refreshWrites (tapeTaken whole s) whole) (.command c.qid c.tag)
    (onCmd c.qid c.tag (fun d => { d with goal := 1 }) (tapeTaken whole s))
  exact ⟨hvol, hcart.trans (tapeTaken_cart_cmds whole s).1⟩

/-! ## The partition map (R57) -/

/-- A partition's entry of the map: whether it is in use, and its first and last wrap. -/
def extent (q : Part) : Bool × Nat × Nat := (q.inUse, q.firstWrap, q.lastWrap)

/-- The map of the mounted volume. -/
def extents (s : State) : Option (Vector (Bool × Nat × Nat) 4) := s.drive.vol.map fun v => v.parts.map extent

theorem extents_congr {s t : State} (h : t.drive.vol = s.drive.vol) : extents t = extents s := by
  rw [extents, extents, h]

theorem extents_onVol {f : Volume → Volume} (hf : ∀ v, (f v).parts = v.parts) (s : State) : extents (onVol f s) = extents s := by
  simp only [extents, onVol, State.onDrive_drive, Option.map_map]
  exact congrArg (fun g => Option.map g s.drive.vol) (funext fun v => congrArg (Vector.map extent) (hf v))

theorem extents_onPart {f : Part → Part} (hf : ∀ q, extent (f q) = extent q) (p : Nat) (s : State) :
    extents (onPart p f s) = extents s := by
  simp only [extents, onPart, onVol, State.onDrive_drive, Option.map_map]
  exact congrArg (fun g => Option.map g s.drive.vol) (funext fun v => map_updAt_same v.parts p f extent hf)

@[simp] theorem extents_cmGroup (rs : List CmReq) (m : CmMark) (s : State) : extents (cmGroup rs m s) = extents s :=
  extents_congr (cmGroup_drive_cmds rs m s).1

@[simp] theorem extents_onCmd (q tag : Nat) (f : Cmd → Cmd) (s : State) : extents (onCmd q tag f s) = extents s := rfl

/-- The updates of the cartridge memory change no entry of the map (Table 04-6). -/
@[simp] theorem extents_writeHeader (dirty : Bool) (s : State) : extents (writeHeader dirty s) = extents s := by
  unfold writeHeader
  split
  · rfl
  · exact (extents_cmGroup _ _ _).trans (extents_onVol (by exact fun _ => rfl) s)

@[simp] theorem extents_writeWraps (s : State) : extents (writeWraps s) = extents s :=
  extents_congr ((writeWraps_kept (Nat.or_self _) (Kept.refl _ s)).same .driveVol (by decide +kernel))

@[simp] theorem extents_writeIndex (w part : Nat) (s : State) : extents (writeIndex w part s) = extents s :=
  extents_congr ((writeIndex_kept w part (Nat.or_self _) (Kept.refl _ s)).same .driveVol (by decide +kernel))

@[simp] theorem extents_writeUsage (s : State) : extents (writeUsage s) = extents s :=
  extents_congr ((writeUsage_kept (Nat.or_self _) (Kept.refl _ s)).same .driveVol (by decide +kernel))

@[simp] theorem extents_openSession (s : State) : extents (openSession s) = extents s := by
  unfold openSession
  split
  · rfl
  · split
    · rfl
    · refine (extents_writeHeader _ _).trans ((extents_onVol (by exact fun _ => rfl) _).trans ?_)
      split
      · exact extents_onVol (by exact fun _ => rfl) s
      · rfl

@[simp] theorem extents_retryMemory (s : State) : extents (retryMemory s) = extents s := by
  unfold retryMemory
  split
  · split
    · exact extents_openSession s
    · rfl
  · rfl

@[simp] theorem extents_payOwed (s : State) : extents (payOwed s) = extents s := by
  unfold payOwed
  refine forEach_preserves (P := fun t => extents t = extents s) _ (fun m t ht => ?_) rfl
  cases m with
  | header d => exact (extents_writeHeader _ t).trans ht
  | wraps => exact (extents_writeWraps t).trans ht
  | index w p => exact (extents_writeIndex w p t).trans ht
  | usage => exact (extents_writeUsage t).trans ht
  | command q tag => exact ht

/-! ## A write run leaves the map as it is -/

@[simp] theorem extents_openWrap (w slot part n lon : Nat) (s : State) : extents (openWrap w slot part n lon s) = extents s := by
  simp only [openWrap, extents_writeHeader, extents_writeWraps, extents_payOwed]
  exact (extents_onVol (by exact fun _ => rfl) _).trans (extents_onVol (by exact fun _ => rfl) s)

@[simp] theorem extents_enterWrap (d : DataSet) (s : State) : extents (enterWrap d s) = extents s := by
  simp only [enterWrap, extents_openWrap]
  exact extents_onPart (by exact fun _ => rfl) _ _

@[simp] theorem extents_kickWrites (retry : Bool) (s : State) : extents (kickWrites retry s) = extents s := by
  unfold kickWrites
  split
  · rfl
  · split
    · split
      · exact (extents_congr ((beginRun_kept _ _ _ (Nat.or_self _) (Kept.refl _ _)).same .driveVol (by decide +kernel))).trans
          (extents_enterWrap _ s)
      · exact extents_openSession s
    · rfl

@[simp] theorem extents_endRun (s : State) : extents (endRun s) = extents s :=
  extents_congr ((endRun_kept (Nat.or_self _) (Kept.refl _ s)).same .driveVol (by decide +kernel))

@[simp] theorem extents_restartIfAsked (b : Bool) (s : State) : extents (restartIfAsked b s) = extents s :=
  extents_congr ((restartIfAsked_kept b (Nat.or_self _) (Kept.refl _ s)).same .driveVol (by decide +kernel))

@[simp] theorem extents_writeTape (s : State) : extents (writeTape s) = extents s := by
  simp only [writeTape, extents_kickWrites, extents_restartIfAsked, extents_retryMemory]
  split
  · exact extents_endRun _
  · rfl

@[simp] theorem extents_stageEod (p lon : Nat) (s : State) : extents (stageEod p lon s) = extents s := by
  have hstage := fun (d : DataSet) => stage_kept d (Nat.or_self _) (Kept.refl _ (closePayload p s))
  exact (extents_onPart (by exact fun _ => rfl) p _).trans (extents_congr ((hstage _).same .driveVol (by decide +kernel)))

theorem extents_forEach_stageEod (l : List Nat) (lon : Nat) (s : State) : extents (forEach l (fun p => stageEod p lon) s) = extents s :=
  forEach_preserves (P := fun t => extents t = extents s) l (fun p t ht => (extents_stageEod p lon t).trans ht) rfl

/-! ## PARTITION (R57, R324) -/

/-- Writing the header and the wrap table of a volume brings the command to goal 2. -/
theorem partitionDone_of_vol {s : State} {v : Volume} (c : Cmd) (hv : s.drive.vol = some v) :
    partitionDone c s = onCmd c.qid c.tag (fun d => { d with goal := 2 }) (writeHeader v.dirty (writeWraps s)) := by
  simp only [partitionDone, hv]

theorem extents_partitionDone {s : State} (c : Cmd) (hv : s.drive.vol.isSome = true) : extents (partitionDone c s) = extents s := by
  obtain ⟨v, hv⟩ := Option.isSome_iff_exists.mp hv
  simp [partitionDone_of_vol c hv]

theorem partitionDone_cmd {s : State} {c : Cmd} (h : cmdOf s c.qid c.tag = some c) (hv : s.drive.vol.isSome = true) :
    cmdOf (partitionDone c s) c.qid c.tag = some { c with goal := 2 } := by
  obtain ⟨v, hv⟩ := Option.isSome_iff_exists.mp hv
  have hwraps := (writeWraps_kept (Nat.or_self _) (Kept.refl _ s)).same .hostCmds (by decide +kernel)
  have hheader := (writeHeader_kept v.dirty (Nat.or_self _) (Kept.refl _ (writeWraps s))).same .hostCmds (by decide +kernel)
  rw [partitionDone_of_vol c hv]
  exact cmdOf_onCmd_goal 2 ((cmdOf_congr (hheader.trans hwraps) _ _).trans h)

/-- The entry of the map that a PARTITION asks for. -/
def askedEntry (m : List (Bool × Nat × Nat)) (p : Nat) : Bool × Nat × Nat := m.getD p (false, 0, 0)

/-- A partition whose entry the map changes has what the map asks for; another one keeps its own. -/
theorem extents_applyMap (m : List (Bool × Nat × Nat)) {s : State} {v : Volume} (hv : s.drive.vol = some v) :
    extents (applyMap m s) =
      some (Vector.ofFn fun p : Fin 4 => if (changedParts s m).contains p.val then askedEntry m p.val else extent v.parts[p]) := by
  unfold applyMap
  dsimp only
  rw [extents_forEach_stageEod]
  have hend : (if s.wvn.run = .writing ∧ (changedParts s m).contains s.wr.part then endRun s else s).drive.vol = some v := by
    split
    · exact ((endRun_kept (Nat.or_self _) (Kept.refl _ s)).same .driveVol (by decide +kernel)).trans hv
    · exact hv
  simp only [extents, onVol, State.onDrive_drive, hend, Option.map_some, Option.some.injEq]
  refine Vector.ext fun p hp => ?_
  simp only [Vector.getElem_map, Vector.getElem_ofFn, getAt, hp, dif_pos]
  split <;> rfl

theorem partAt_of_vol {s : State} {v : Volume} (hv : s.drive.vol = some v) (p : Fin 4) : partAt s p.val = v.parts[p] := by
  simp only [partAt, hv, getAt, p.isLt, dif_pos]
  rfl

/-- An entry is as a map asks: in use or not, and with its wraps when it is. -/
def entryMeets (e x : Bool × Nat × Nat) : Prop := x.1 = e.1 ∧ (e.1 = true → x.2 = e.2)

/-- A partition whose entry a map does not change stands as the map asks. -/
theorem entryMeets_of_unchanged {m : List (Bool × Nat × Nat)} {s : State} {v : Volume} (hv : s.drive.vol = some v) {p : Fin 4}
    (h : ¬(changedParts s m).contains p.val = true) : entryMeets (askedEntry m p.val) (extent v.parts[p]) := by
  simp only [changedParts, List.contains_iff_mem, List.mem_filter, List.mem_range, p.isLt, true_and, partAt_of_vol hv] at h
  simp only [Bool.or_eq_true, Bool.and_eq_true, bne_iff_ne, not_or, not_not, not_and] at h
  obtain ⟨huse, hwraps⟩ := h
  refine ⟨huse, fun he => ?_⟩
  exact Prod.ext (hwraps he).1 (hwraps he).2

/-- Once a map is in force, every partition stands as it asks. -/
theorem applyMap_meets (m : List (Bool × Nat × Nat)) {s : State} (hv : s.drive.vol.isSome = true) :
    ∃ xs, extents (applyMap m s) = some xs ∧ ∀ p : Fin 4, entryMeets (askedEntry m p.val) xs[p] := by
  obtain ⟨v, hv⟩ := Option.isSome_iff_exists.mp hv
  refine ⟨_, extents_applyMap m hv, fun p => ?_⟩
  rw [Fin.getElem_fin, Vector.getElem_ofFn]
  split
  · exact ⟨rfl, fun _ => rfl⟩
  next h => exact entryMeets_of_unchanged hv h

/-- The state once the map of a PARTITION is in force. -/
def mapMade (c : Cmd) (s : State) : State := applyMap (askedMap c.entry) (discardReadAhead s)

/-- The partitions that a PARTITION changes and takes into use. -/
def madeParts (c : Cmd) (s : State) : List Nat :=
  (changedParts s (askedMap c.entry)).filter fun p => ((askedMap c.entry).getD p (false, 0, 0)).1

/-- What a PARTITION that may go on does: it waits for the EODs it staged, or is done with none to wait for. -/
def partitionBegun (c : Cmd) (s : State) : State :=
  if (madeParts c s).isEmpty then partitionDone c (mapMade c s)
  else writeTape (onCmd c.qid c.tag (fun d => { d with
    goal := 1, waits := (madeParts c s).map fun p => (p, (mapMade c s).wr.nextId, true) }) (mapMade c s))

theorem partitionBegun_meets (c : Cmd) {s : State} (hv : s.drive.vol.isSome = true) : ∃ v, (partitionBegun c s).drive.vol = some v ∧
    ∀ p : Fin 4, entryMeets (askedEntry (askedMap c.entry) p.val) (extent v.parts[p]) := by
  obtain ⟨xs, hxs, hmeets⟩ := applyMap_meets (askedMap c.entry) (s := discardReadAhead s) hv
  have hmade : (mapMade c s).drive.vol.isSome = true := by
    obtain ⟨w, hw, -⟩ := Option.map_eq_some_iff.mp hxs
    exact Option.isSome_iff_exists.mpr ⟨w, hw⟩
  have hext : extents (partitionBegun c s) = some xs := by
    unfold partitionBegun
    split
    · exact (extents_partitionDone c hmade).trans hxs
    · exact (extents_writeTape _).trans hxs
  obtain ⟨v, hvol, rfl⟩ := Option.map_eq_some_iff.mp hext
  refine ⟨v, hvol, fun p => ?_⟩
  have hp := hmeets p
  rwa [Fin.getElem_fin, Vector.getElem_map] at hp

section
variable {s : State} {c : Cmd}

theorem partitionStep_stops {st : Nat} (hg : c.goal = 0) (hst : partitionStop s (askedMap c.entry) = some st) :
    partitionStep c s = reply c.qid c.tag st 0 (if st = 0x0310 ∧ anyGroupFailed s = false then eodsDue s else s) := by
  simp [partitionStep, hg, hst]

theorem partitionStep_begins (hg : c.goal = 0) (hst : partitionStop s (askedMap c.entry) = none) :
    partitionStep c s = partitionBegun c s := by
  simp [partitionStep, hg, hst, partitionBegun, madeParts, mapMade]

theorem partitionStep_durable (hg : c.goal = 1) (hw : waitsOver s c = true) : partitionStep c s = partitionDone c s := by
  simp [partitionStep, hg, hw]

theorem partitionStep_written (hg : c.goal = 2) (hi : cmIdle s = true) : partitionStep c s = reply c.qid c.tag 0 0 s := by
  simp [partitionStep, hg, hi]

theorem partitionStep_waits (hg : c.goal = 2) (hi : cmIdle s = false) : partitionStep c s = s := by
  simp [partitionStep, hg, hi]

/-- A PARTITION that nothing stops has a volume. -/
theorem vol_of_partitionStop {m : List (Bool × Nat × Nat)} (h : partitionStop s m = none) : s.drive.vol.isSome = true := by
  refine Bool.of_not_eq_false fun hn => ?_
  rw [partitionStop, if_pos (by simpa using hn)] at h
  cases h

theorem exec_partition {q : Fin 256} {tag : BitVec 16} (h : inHand s q.val tag.toNat opPartition c) :
    exec (.partition q tag) s = .next (partitionStep c s) := by
  change execPartition q tag s = _
  rw [execPartition, goLive_of_live _ h.1, h.2]

end

/-! ## The obligation -/

/-- Settles O38: each clause is the equation of its step, with what the step leaves of the tape, the commands and the map. -/
theorem refreshAndPartitionFollowTheTape : Obligations.RefreshAndPartitionFollowTheTape := by
  unfold Obligations.RefreshAndPartitionFollowTheTape
  refine ⟨fun s q tag c i h hi => ?_, fun s q tag c h hg => ?_, fun s q tag c h => ?_⟩
  · have hexec := exec_refresh h hi
    have hcmd := cmdOf_of_startedCmd h.2
    obtain ⟨hq, ht⟩ := cmdOf_qid_tag hcmd
    rw [← hq, ← ht] at hcmd ⊢
    refine ⟨fun st hg hst => ?_, fun hg hst hset => ?_, fun hg => ?_, fun hg => ?_, fun hg => ?_⟩
    · rw [answers, hexec, refreshStep_stops hg hst]
    · obtain ⟨v, hv⟩ := vol_of_refreshStop hst
      obtain ⟨w, hw, hindex⟩ := tapeTaken_index (decide (specField c.entry 48 1 = 0)) hv
      obtain ⟨hvol, hcart⟩ := refreshBegun_drive c (decide (specField c.entry 48 1 = 0)) s
      refine ⟨refreshBegun c (decide (specField c.entry 48 1 = 0)) s, w, _, ?_, hvol.trans hw, refreshBegun_cmd _ hcmd, rfl,
        tapeSlots_congr hcart, by simpa only [decide_eq_true_eq] using hindex⟩
      rw [hexec, refreshStep_begins hg hst hset]
    · rw [hexec, refreshStep_waits hg]
    · rw [answers, hexec, refreshStep_written hg]
    · rw [answers, hexec, refreshStep_failed hg]
  · have hexec := exec_partition h
    obtain ⟨hq, ht⟩ := cmdOf_qid_tag (cmdOf_of_startedCmd h.2)
    refine ⟨fun st hst => ?_, fun hst => ?_⟩
    · rw [answers, hexec, partitionStep_stops hg hst, hq, ht]
    · obtain ⟨v, hv, hmeets⟩ := partitionBegun_meets c (vol_of_partitionStop hst)
      refine ⟨partitionBegun c s, v, ?_, hv, fun p => ?_⟩
      · rw [hexec, partitionStep_begins hg hst]
      · obtain ⟨huse, hwraps⟩ := hmeets p
        exact ⟨huse, fun he => Prod.ext_iff.mp (hwraps he)⟩
  · have hexec := exec_partition h
    have hcmd := cmdOf_of_startedCmd h.2
    obtain ⟨hq, ht⟩ := cmdOf_qid_tag hcmd
    rw [← hq, ← ht] at hcmd ⊢
    refine ⟨fun hg hw hv => ⟨partitionDone c s, _, ?_, partitionDone_cmd hcmd hv, rfl⟩, fun hg hidle => ?_, fun hg hidle => ?_⟩
    · rw [hexec, partitionStep_durable hg hw]
    · rw [answers, hexec, partitionStep_written hg hidle]
    · rw [hexec, partitionStep_waits hg hidle]

end Sys2Proof.Machine
end

section
/-! PROOF. The update of Weathervane, and the stops and restarts of the tape (R119, R129 to R132). -/

namespace Sys2Proof.Machine

/-! ## A change of state -/

@[simp] theorem offers_wvn (s : State) : (offers s).wvn = s.wvn := by
  refine forEach_preserves (P := fun t => t.wvn = s.wvn) _ (fun c t ht => ?_) rfl
  dsimp only
  split
  · exact ht
  · split <;> exact ht

@[simp] theorem raise_wvn (n : Nat) (s : State) : (raise n s).wvn = s.wvn := by
  unfold raise
  split
  · rfl
  · exact offers_wvn _

/-- Weathervane is in the state it changes to, and source 108 leaves the rest of it alone. -/
@[simp] theorem setWvn_wvn (st : WvnState) (s : State) : (setWvn st s).wvn = { s.wvn with state := st } := by
  unfold setWvn
  split
  next h => rw [← h]
  next => exact raise_wvn _ _

theorem setWvn_changesOnly (st : WvnState) (s : State) : changesOnly (requestFields ++ [.wvnState]) s (setWvn st s) :=
  (setWvn_kept st (by decide +kernel) (Kept.refl (fieldMask (requestFields ++ [.wvnState])) s)).changesOnly

/-! ## The update (R119) -/

/-- The Keep is the same when the mask takes in none of its fields. -/
theorem KeepAgree.eq_of_outside {m : Nat} {a b : Keep} (h : KeepAgree m a b) (hm : ∀ i < 9, m.testBit (121 + i) = false) : b = a := by
  cases a
  cases b
  simp only [Keep.mk.injEq]
  exact ⟨Mask.out h.slots (hm 0 (by decide)), Mask.out h.transport (hm 1 (by decide)), Mask.out h.loadSeq (hm 2 (by decide)),
    Mask.out h.copyOk (hm 3 (by decide)), Mask.out h.erased (hm 4 (by decide)), Mask.out h.ctxKek (hm 5 (by decide)),
    Mask.out h.spillSerial (hm 6 (by decide)), Mask.out h.spillLatest (hm 7 (by decide)), Mask.out h.cntLoadFail (hm 8 (by decide))⟩

/-- An update changes neither the Keep nor a host command. -/
theorem weathervaneUpdate_keep_cmds (s : State) : (weathervaneUpdate s).keep = s.keep ∧ (weathervaneUpdate s).host.cmds = s.host.cmds := by
  have h := weathervaneUpdate_kept (Nat.or_self _) (Kept.refl _ s)
  exact ⟨h.keep.eq_of_outside (by decide +kernel), h.same .hostCmds (by decide +kernel)⟩

/-- The next whole millisecond of the time base. -/
def nextMs (s : State) : Nat := (s.power.time / msTicks + 1) * msTicks

/-- The state at the next millisecond: the registers written taken over, a stall counted, and H brought up to date (R119, R135). -/
def updateBegun (s : State) : State :=
  let s0 := takeConfig (advanceTo (nextMs s) s)
  updateH (if s0.wr.stalled then s0.onWvn fun w => { w with cntStall := inc w.cntStall } else s0)

/-- The law, the slew and the dwell while a run streams (R120, R121, R127, R129). -/
def lawFollowed (s : State) : State :=
  if s.wvn.state = .stream then countDwell (watchTurns (slew (command s))) else s

/-- What follows H in an update: the law, the voltage, the stall, and what STOPPED and IDLE ask for. -/
def updateGoesOn (s : State) : State :=
  let s2 := lawFollowed s
  kickWrites false (restartIfAsked (tapeAwaited s2) (updateStall (refreshVoltage (voltageCap s2))))

theorem weathervaneUpdate_eq (s : State) : weathervaneUpdate s = updateGoesOn (updateBegun s) := rfl

theorem updateBegun_time_stall_moved (s : State) : (updateBegun s).power.time = max s.power.time (nextMs s) ∧
    (updateBegun s).wvn.cntStall = (if s.wr.stalled then inc s.wvn.cntStall else s.wvn.cntStall) ∧ (updateBegun s).wvn.moved = 0 := by
  have hst : (takeConfig (advanceTo (nextMs s) s)).wr.stalled = s.wr.stalled := rfl
  unfold updateBegun
  dsimp only
  rw [hst]
  cases s.wr.stalled
  · exact ⟨rfl, rfl, rfl⟩
  · exact ⟨rfl, rfl, rfl⟩

/-- What an update changes beyond H. -/
def updateFields : List Field :=
  tapeFields ++ recordFields ++
    [.wrStalled, .wrStallAt, .wvnStallTicks, .wvnInteg, .wvnSlewRest, .wvnCapV, .wvnTurns, .wvnUpdates]

theorem lawFollowed_kept (s : State) : Kept (fieldMask updateFields) s (lawFollowed s) := by
  unfold lawFollowed
  split
  · exact countDwell_kept (by decide +kernel) (watchTurns_kept (by decide +kernel) (slew_kept (by decide +kernel)
      (command_kept (by decide +kernel) (Kept.refl _ s))))
  · exact Kept.refl _ s

theorem updateGoesOn_changesOnly (s : State) : changesOnly updateFields s (updateGoesOn s) := by
  have h := updateStall_kept (by decide +kernel) (refreshVoltage_kept (by decide +kernel)
    (voltageCap_kept (by decide +kernel) (lawFollowed_kept s)))
  have h' := kickWrites_kept false (by decide +kernel) (restartIfAsked_kept (tapeAwaited (lawFollowed s)) (by decide +kernel) h)
  exact h'.changesOnly

theorem weathervaneUpdate_time_stall_moved (s : State) : (weathervaneUpdate s).power.time = max s.power.time (nextMs s) ∧
    (weathervaneUpdate s).wvn.cntStall = (if s.wr.stalled then inc s.wvn.cntStall else s.wvn.cntStall) ∧
    (weathervaneUpdate s).wvn.moved = 0 := by
  obtain ⟨-, h⟩ := updateGoesOn_changesOnly (updateBegun s)
  obtain ⟨htime, hstall, hmoved⟩ := updateBegun_time_stall_moved s
  rw [weathervaneUpdate_eq]
  exact ⟨(h .powerTime (by decide)).trans htime, (h .wvnCntStall (by decide)).trans hstall, (h .wvnMoved (by decide)).trans hmoved⟩

/-! ## STOPPING (R129) -/

theorem startBackhitch_changesOnly (s : State) : changesOnly programFields s (startBackhitch s) :=
  (startBackhitch_kept (by decide +kernel) (Kept.refl (fieldMask programFields) s)).changesOnly

theorem backhitchIfDone_changesOnly (s : State) : changesOnly programFields s (backhitchIfDone s) :=
  (backhitchIfDone_kept (by decide +kernel) (Kept.refl (fieldMask programFields) s)).changesOnly

/-- STOPPING is entered, and a read run reads no further slot (Table 05-3). -/
theorem enterStopping_stops (s : State) : (enterStopping s).wvn.state = .stopping ∧
    (reading s = true → (enterStopping s).rd.active = false) := by
  unfold enterStopping
  dsimp only
  split
  · obtain ⟨-, h⟩ := startBackhitch_changesOnly ((setWvn .stopping s).onRd fun r => { r with active := false })
    exact ⟨(h .wvnState (by decide)).trans (by simp), fun _ => h .rdActive (by decide)⟩
  next hr =>
    obtain ⟨-, h⟩ := backhitchIfDone_changesOnly (setWvn .stopping s)
    exact ⟨(h .wvnState (by decide)).trans (by simp), fun hread => absurd hread hr⟩

section
variable {s : State}

theorem exec_bhDwellExpiry_stops (hl : live s = true) (hs : s.wvn.state = .stream) (hd : bhDwell s ≤ s.wvn.dwellMs)
    (hm : mayStop s = true) : exec .bhDwellExpiry s = .next (enterStopping s) :=
  (goLive_of_live _ hl).trans (by rw [if_pos ⟨hs, hd, hm⟩])

theorem exec_bhDwellExpiry_goes_on (h : s.wvn.state ≠ .stream ∨ s.wvn.dwellMs < bhDwell s ∨ mayStop s = false) :
    exec .bhDwellExpiry s = .next s := by
  refine goLive_of_fixed (if_neg fun ⟨hs, hd, hm⟩ => ?_)
  rcases h with h | h | h
  · exact h hs
  · exact Nat.not_lt.mpr hd h
  · exact Bool.false_ne_true (h.symm.trans hm)

end

/-! ## STOPPED (R129) -/

theorem enterStopped_wvn (s : State) : (enterStopped s).wvn =
    { s.wvn with state := .stopped, cntBh := inc s.wvn.cntBh, r := 0, stoppedAt := s.power.time } :=
  setWvn_wvn _ _

theorem enterStopped_backlog (s : State) : backlog (enterStopped s) = backlog s := by
  obtain ⟨-, h⟩ := setWvn_changesOnly .stopped (s.onWvn fun w => { w with cntBh := inc w.cntBh, r := 0, stoppedAt := s.power.time })
  have hsets : (enterStopped s).wr.sets = s.wr.sets := h .wrSets (by decide)
  rw [backlog, backlog, hsets]

/-- A write run stays stopped until its backlog has reached BH_START (R129). -/
theorem restartIfAsked_below_start {s : State} (hr : s.wvn.run = .writing) (hb : 256 * backlog s < bhStart s * (20 * gib)) :
    restartIfAsked false s = s := by
  have hread : reading s = false := by simp [reading, hr]
  simp [restartIfAsked, hread, Nat.not_le.mpr hb]

section
variable {s : State}

theorem exec_backhitchStopped_stopped (hl : live s = true) (hs : s.wvn.state = .stopping) (hm : s.stp.mode = .still)
    (hp : s.stp.program.running = false) (hr : s.wvn.run = .writing) (hb : 256 * backlog s < bhStart s * (20 * gib)) :
    exec .backhitchStopped s = .next (enterStopped s) := by
  have hrun : (enterStopped s).wvn.run = .writing := by rw [enterStopped_wvn, hr]
  have hretry : stoppedForRetry (enterStopped s) = enterStopped s := if_neg fun h => by simp [hrun] at h
  have hstart : bhStart (enterStopped s) = bhStart s := by rw [bhStart, bhStart, bhStop, bhStop, enterStopped_wvn]
  refine (goLive_of_live _ hl).trans ?_
  rw [if_pos hs, if_pos ⟨hm, by simp [hp]⟩, hretry, restartIfAsked_below_start hrun (by rwa [enterStopped_backlog, hstart])]

theorem exec_backhitchStopped_elsewhere (hs : s.wvn.state ≠ .stopping) : exec .backhitchStopped s = .next s :=
  goLive_of_fixed (if_neg hs)

end

/-! ## RESTART (R129) -/

/-- The backlog has waited long enough: the time base stands at the end of the wait (R129, log 22). -/
def waited (s : State) : State := advanceTo (s.wvn.stoppedAt + bhMaxWait s * msTicks) s

/-- Steeple takes the START program: RESTART is entered and, for a write run, the ratio asked for is 0.25 (Table 05-3). -/
theorem restart_writing {s : State} (hr : s.wvn.run = .writing) (hp : programAllowed s 2 = true) :
    (restart s).wvn.state = .restart ∧ (restart s).wvn.rCmd = 1024 := by
  have hne : s.wvn.run ≠ .retry := by simp [hr]
  unfold restart
  dsimp only
  rw [if_pos hp, if_neg hne]
  obtain ⟨-, hstart⟩ := startTape_changesOnly 1024 (slotStart (resumeSlot s).1 (resumeSlot s).2).1
    (setWvn .restart (askRatio 1024 (s.onWvn fun w => { w with run := if w.run == .retry then .reading else w.run, rCmd := 1024 })))
  obtain ⟨-, hask⟩ := askRatio_changesOnly 1024
    (s.onWvn fun w => { w with run := if w.run == .retry then .reading else w.run, rCmd := 1024 })
  exact ⟨(hstart .wvnState (by decide)).trans (by simp),
    (hstart .wvnRCmd (by decide)).trans (by rw [setWvn_wvn]; exact hask .wvnRCmd (by decide))⟩

theorem restart_time (s : State) : (restart s).power.time = s.power.time :=
  (restart_kept (Nat.or_self _) (Kept.refl _ s)).same .powerTime (by decide +kernel)

section
variable {s : State}

theorem exec_bhMaxWaitExpiry_restarts (hl : live s = true) (hs : s.wvn.state = .stopped) (hr : s.wvn.run = .writing)
    (hb : 0 < backlog s) : exec .bhMaxWaitExpiry s = .next (restart (waited s)) :=
  (goLive_of_live _ hl).trans (by rw [if_pos ⟨hs, hr, hb⟩, waited])

theorem exec_bhMaxWaitExpiry_waits (h : s.wvn.state ≠ .stopped ∨ s.wvn.run ≠ .writing ∨ backlog s = 0) :
    exec .bhMaxWaitExpiry s = .next s := by
  refine goLive_of_fixed (if_neg fun ⟨hs, hr, hb⟩ => ?_)
  rcases h with h | h | h
  · exact h hs
  · exact h hr
  · exact hb.ne' h

end

/-! ## The end of a run (R129, R132) -/

/-- The run has ended and Weathervane is IDLE; read-ahead stays as it is (Table 05-3). -/
theorem endRun_ends (s : State) : (endRun s).wvn.state = .idle ∧ (endRun s).wvn.run = .none ∧ (endRun s).wvn.r = 0 ∧
    (endRun s).rd.active = s.rd.active ∧ (endRun s).rd.sets = s.rd.sets := by
  have h := endRun_kept (Nat.or_self _) (Kept.refl _ s)
  have hwvn (t : State) : (idleChans t).wvn = t.wvn := rfl
  refine ⟨?_, ?_, ?_, h.same .rdActive (by decide +kernel), h.same .rdSets (by decide +kernel)⟩
  · rw [endRun, hwvn, setWvn_wvn]
  · rw [endRun, hwvn, setWvn_wvn]; rfl
  · rw [endRun, hwvn, setWvn_wvn]; rfl

/-- The state before an idle run ends: the time base at 60 s after its stop, and reading over (R129, log 22). -/
def idled (s : State) : State := (advanceTo (s.wvn.stoppedAt + 60000 * msTicks) s).onRd fun r => { r with active := false }

/-- The state in which a read run has reached its end (R132). -/
def readToEnd (s : State) : State := s.onRd fun r => { r with active := false }

section
variable {s : State}

theorem exec_stoppedIdleTimeout_ends (hl : live s = true) (hs : s.wvn.state = .stopped) (hn : noWork s = true) :
    exec .stoppedIdleTimeout s = .next (endRun (idled s)) :=
  (goLive_of_live _ hl).trans (by rw [if_pos ⟨hs, hn⟩, idled])

theorem exec_stoppedIdleTimeout_waits (h : s.wvn.state ≠ .stopped ∨ noWork s = false) : exec .stoppedIdleTimeout s = .next s := by
  refine goLive_of_fixed (if_neg fun ⟨hs, hn⟩ => ?_)
  rcases h with h | h
  · exact h hs
  · exact Bool.false_ne_true (h.symm.trans hn)

theorem exec_readAhead_ends (hl : live s = true) (hr : s.wvn.run = .reading) (he : s.rd.ended = true) :
    exec .readAhead s = .next (endRun (readToEnd s)) :=
  (goLive_of_live _ hl).trans (by rw [readAhead, if_pos hr, if_pos he, readToEnd])

theorem exec_readAhead_idle (hr : s.wvn.run ≠ .reading) (hn : retryNext s = none) : exec .readAhead s = .next s :=
  goLive_of_fixed (by rw [readAhead, if_neg hr, retryFromIdle, if_neg (by simp [hn])])

end

/-! ## From RESTART to STREAM (R129, R130) -/

/-- The run streams: its dwell starts afresh and its integrator is free (R130). -/
def streamsOn (s : State) : State := (setWvn .stream s).onWvn fun w => { w with dwellMs := 0, frozen := false }

/-- A read run streams and reads. -/
def readsOn (s : State) : State := (streamsOn s).onRd fun r => { r with active := true }

/-- A write run streams and goes on at its resume slot. -/
def writesOn (s : State) : State := (streamsOn s).onWr fun w => { w with noFirst := false, anchor := none, slot := w.resumeAt }

theorem streamsOn_wvn (s : State) : (streamsOn s).wvn = { s.wvn with state := .stream, dwellMs := 0, frozen := false } := by
  rw [streamsOn, State.onWvn_wvn, setWvn_wvn]

theorem readsOn_retryNext (s : State) : retryNext (readsOn s) = retryNext s := by
  obtain ⟨-, h⟩ := setWvn_changesOnly .stream s
  have hfailed : (readsOn s).rd.failed = s.rd.failed := h .rdFailed (by decide)
  rw [retryNext, retryNext, hfailed]

theorem writesOn_slot (s : State) : (writesOn s).wr.slot = s.wr.resumeAt := by
  obtain ⟨-, h⟩ := setWvn_changesOnly .stream s
  exact h .wrResumeAt (by decide)

section
variable {s : State}

theorem exec_restartResume_streams (hl : live s = true) (hs : s.wvn.state = .restart) (hm : s.stp.mode = .track)
    (hn : speedNear s = true) (hp : pesGoodNeed s ≤ s.wr.pesGood) (hq : reading s = true → retryNext s = none) :
    exec .restartResume s = .next (if reading s then readsOn s else writesOn s) := by
  refine (goLive_of_live _ hl).trans ?_
  rw [if_pos ⟨hs, hm, hn, hp⟩]
  dsimp only
  split
  next hr =>
    have hnone : retryNext (readsOn s) = none := (readsOn_retryNext s).trans (hq hr)
    have hstay : ¬ (retryNext (readsOn s)).isSome = true := by simp [hnone]
    exact congrArg _ (if_neg hstay)
  next => rfl

theorem exec_restartResume_waits (h : s.wvn.state ≠ .restart ∨ speedNear s = false ∨ s.wr.pesGood < pesGoodNeed s) :
    exec .restartResume s = .next s := by
  refine goLive_of_fixed (if_neg fun ⟨hs, _, hn, hp⟩ => ?_)
  rcases h with h | h | h
  · exact h hs
  · exact Bool.false_ne_true (h.symm.trans hn)
  · exact Nat.not_lt.mpr hp h

end

/-! ## The obligation -/

/-- Settles O46: each clause is the equation of its row in that case, and what the state it answers holds. -/
theorem runsStopAndGoOnAsTheTableSays : Obligations.RunsStopAndGoOnAsTheTableSays := by
  unfold Obligations.RunsStopAndGoOnAsTheTableSays
  refine ⟨fun s hl => ?_, fun s hl hs hd hm => ⟨_, exec_bhDwellExpiry_stops hl hs hd hm, enterStopping_stops s⟩,
    fun s => exec_bhDwellExpiry_goes_on, fun s hl hs hm hp hr hb => ⟨_, exec_backhitchStopped_stopped hl hs hm hp hr hb, ?_⟩,
    fun s => exec_backhitchStopped_elsewhere, fun s hl hs hr hb hp => ?_, fun s => exec_bhMaxWaitExpiry_waits, fun s hl hs hn => ?_,
    fun s => exec_stoppedIdleTimeout_waits, fun s hl hs hm hn hp hq => ⟨_, exec_restartResume_streams hl hs hm hn hp hq, ?_⟩,
    fun s => exec_restartResume_waits, fun s hl hr he => ?_, fun s => exec_readAhead_idle⟩
  · obtain ⟨htime, hstall, hmoved⟩ := weathervaneUpdate_time_stall_moved s
    exact ⟨_, goLive_of_live _ hl, htime, hstall, hmoved, weathervaneUpdate_keep_cmds s⟩
  · rw [enterStopped_wvn]
    exact ⟨rfl, rfl, rfl, rfl⟩
  · obtain ⟨hstate, hcmd⟩ := restart_writing (s := waited s) hr hp
    exact ⟨_, exec_bhMaxWaitExpiry_restarts hl hs hr hb, hstate, hcmd, restart_time _⟩
  · obtain ⟨hstate, hrun, hr, hactive, hsets⟩ := endRun_ends (idled s)
    exact ⟨_, exec_stoppedIdleTimeout_ends hl hs hn, hstate, hrun, hr, hactive, hsets⟩
  · cases hread : reading s
    · have hwvn : (writesOn s).wvn = _ := streamsOn_wvn s
      rw [if_neg Bool.false_ne_true, hwvn]
      exact ⟨rfl, rfl, rfl, fun h => absurd h Bool.false_ne_true, fun _ => ⟨rfl, rfl, writesOn_slot s⟩⟩
    · have hwvn : (readsOn s).wvn = _ := streamsOn_wvn s
      rw [if_pos rfl, hwvn]
      exact ⟨rfl, rfl, rfl, fun _ => rfl, fun h => absurd h.symm Bool.false_ne_true⟩
  · obtain ⟨hstate, hrun, -, hactive, hsets⟩ := endRun_ends (readToEnd s)
    exact ⟨_, exec_readAhead_ends hl hr he, hrun, hstate, hactive, hsets⟩

end Sys2Proof.Machine
end

section
/-! PROOF. Dome recovery while the tape stands in STOPPED (R85, R131). -/

namespace Sys2Proof.Machine

/-! ## A failed data set whose dome can rebuild it, in STOPPED -/

/-- A parity set of dome group 0 that levels 1 to 3 have decoded. -/
def decodedParity (n : Nat) : RaSet :=
  { part := 0, n := n, wrap := 0, slot := n, stack := 0, level := 1, payload := [], plain := none, used := 0, stop := none,
    regs := regsNow State.reset, keySlot := none }

/-- Data set 0 has failed levels 1 to 3, and its turn at dome recovery has come. -/
def lostSet : FailedSet :=
  { part := 0, n := 0, wrap := 0, slots := [0], rows := [], attempts := 0, retried := false, domes := 0, unrecoverable := false,
    tagFailed := false, regs := regsNow State.reset }

/-- The part runs and stands in STOPPED. Data set 0, the only one of a dome group closed early, has failed; the parity sets of its dome, at
positions 62 and 63, are in read-ahead. -/
def stoppedState : State :=
  ((State.reset.onBoot fun b => { b with phase := .normal }).onWvn fun w => { w with state := .stopped }).onRd fun r =>
    { r with sets := [decodedParity 496, decodedParity 504], failed := [lostSet] }

/-- The positions of a dome whose members are lost. -/
theorem stoppedState_lost :
    ((domeMembers stoppedState 0 0).filterMap fun m => if m.2.isNone then some m.1 else none) = [0] := by decide +kernel

/-- In STOPPED dome recovery waits for RESTART (R131). -/
theorem domeRecovery_of_stopped {s : State} (g dome : Nat) (h : s.wvn.state = .stopped) : domeRecovery g dome s = s := if_pos (.inr h)

/-- Refutes O48: its clause of DOME_RECOVERY asks that one lost member be rebuilt and counted in every state, where in STOPPED the recovery
waits for RESTART (R131). Here the part stands in STOPPED, and dome 0 of group 0 has lost data set 0 alone. -/
theorem not_theReadPathTakesDecodedSetsOn : ¬ Obligations.TheReadPathTakesDecodedSetsOn := by
  unfold Obligations.TheReadPathTakesDecodedSetsOn
  rintro ⟨-, -, -, -, -, -, hrecovery, -⟩
  have hwaiting : domeWaiting stoppedState 0 0 ≠ [] := by decide +kernel
  have hfailed : (failedSet stoppedState (memberN 0 0 0)).isSome = true := by decide +kernel
  obtain ⟨t, ht, -, hcount⟩ := hrecovery 0 0 stoppedState rfl hwaiting
  have hstays : t = stoppedState := by
    injection ht.symm.trans (goLive_of_fixed (domeRecovery_of_stopped 0 0 rfl))
  have hcounted : t.ecc.cntDome = inc stoppedState.ecc.cntDome := hcount 0 stoppedState_lost hfailed
  rw [hstays] at hcounted
  exact absurd hcounted (by decide +kernel)

end Sys2Proof.Machine
end

section
/-! PROOF. One read channel among the others: its place in the state, the samples it keeps for a replay, and the packets that a group
counts as lost (R136, R137, R153, R211). -/

namespace Sys2Proof.Machine

/-! ## One place of a vector -/

section
variable {α : Type} {n : Nat} (v : Vector α n) (f : α → α) (d : α)

theorem getAt_updAt_same {i : Nat} (h : i < n) : getAt (updAt v i f) i d = f (getAt v i d) := by
  simp [getAt, updAt, h]

theorem getAt_updAt_other {i j : Nat} (h : j ≠ i) : getAt (updAt v i f) j d = getAt v j d := by
  unfold getAt updAt
  split
  next hj =>
    split
    · exact Vector.getElem_set_ne _ _ (Ne.symm h)
    · rfl
  next => rfl

end

/-! ## One channel of the set -/

/-- No channel but c differs between two states. -/
def sameChansBut (c : Nat) (s t : State) : Prop := ∀ d, d ≠ c → chanOf_ t d = chanOf_ s d

theorem sameChansBut.trans {c : Nat} {s t u : State} (h : sameChansBut c s t) (k : sameChansBut c t u) : sameChansBut c s u :=
  fun d hd => (k d hd).trans (h d hd)

theorem chanOf_congr {s t : State} (h : t.tiles.chans = s.tiles.chans) (c : Nat) : chanOf_ t c = chanOf_ s c := by
  rw [chanOf_, chanOf_, h]

theorem chanOf_onChan {c : Nat} (f : Chan → Chan) (s : State) (h : c < 1024) : chanOf_ (onChan c f s) c = f (chanOf_ s c) :=
  getAt_updAt_same _ _ _ h

theorem onChan_sameChansBut (c : Nat) (f : Chan → Chan) (s : State) : sameChansBut c s (onChan c f s) :=
  fun _ hd => getAt_updAt_other _ _ _ hd

theorem onChan_changesOnly (c : Nat) (f : Chan → Chan) (s : State) : changesOnly [.tilesChans] s (onChan c f s) :=
  (onChan_kept c f (by decide +kernel) (Kept.refl (fieldMask [.tilesChans]) s)).changesOnly

/-! ## What a channel keeps of its samples (R137, R211)

Whatever a channel makes of its bits, the replay buffer and the index of the next sample stay as the samples left them. -/

/-- The replay buffer of a channel, and the index of its next sample. -/
def sampleSide (k : Chan) : List Rat × Nat := (k.vs, k.nextSidx)

@[simp] theorem sampleSide_defectStep (e : ChanEnv) (k : Chan) : sampleSide (defectStep e k) = sampleSide k := by
  unfold defectStep
  lift_lets
  intros
  split
  · rfl
  · split
    · rfl
    · split <;> rfl

@[simp] theorem sampleSide_acquireStep (e : ChanEnv) (k : Chan) : sampleSide (acquireStep e k) = sampleSide k := by
  unfold acquireStep
  split
  · rfl
  · split
    · split <;> rfl
    · split
      · rfl
      · split <;> rfl

@[simp] theorem sampleSide_loopUpdate (e : ChanEnv) (k : Chan) : sampleSide (loopUpdate e k) = sampleSide k := by
  unfold loopUpdate
  lift_lets
  intro ts d0 d1 z0 z1 err tau k1 errs drops
  have hadapt : sampleSide k1 = sampleSide k := by
    dsimp only [k1]
    split <;> rfl
  split
  · rfl
  · exact hadapt

@[simp] theorem sampleSide_autoState (cfg : Word) (k : Chan) : sampleSide (autoState cfg k) = sampleSide k := by
  unfold autoState
  split
  · split
    · rfl
    · dsimp only
      split <;> rfl
  · split <;> rfl
  · split
    · split <;> rfl
    · rfl
  · split <;> rfl
  all_goals rfl

theorem sampleSide_wedgeCheck (n : Nat) (k : Chan) : sampleSide (wedgeCheck n k).1 = sampleSide k := by
  unfold wedgeCheck
  lift_lets
  intros
  split <;> rfl

theorem sampleSide_takeLlr (e : ChanEnv) (l : Int) (isDef : Bool) (n : Nat) (k : Chan) :
    sampleSide (takeLlr e l isDef n k).1 = sampleSide k := by
  unfold takeLlr
  lift_lets
  intros
  split
  · rfl
  · split
    · split
      · split <;> rfl
      · rfl
    · split
      · rw [sampleSide_autoState]
        split <;> rfl
      · split
        · exact (sampleSide_autoState _ _).trans (sampleSide_wedgeCheck _ _)
        · rfl

theorem sampleSide_emitBlock (e : ChanEnv) (k : Chan) : sampleSide (emitBlock e k).1 = sampleSide k := by
  unfold emitBlock
  split
  · rfl
  · refine List.foldlRecOn (motive := fun acc : Chan × Option Nat => sampleSide acc.1 = sampleSide k) _ _ rfl (fun acc hacc p _ => ?_)
    exact (sampleSide_takeLlr _ _ _ _ _).trans hacc

theorem sampleSide_channelBit (e : ChanEnv) (k : Chan) : sampleSide (channelBit e k).1 = sampleSide k := by
  unfold channelBit
  lift_lets
  intro t k1 k2 k3 k4 k4' k5
  have hdefect : sampleSide k3 = sampleSide k := sampleSide_defectStep e k2
  have hsnap : sampleSide k4' = sampleSide k := by
    dsimp only [k4']
    split <;> exact hdefect
  have hloop : sampleSide k5 = sampleSide k := by
    dsimp only [k5]
    split
    · exact (sampleSide_loopUpdate e k4').trans hsnap
    · exact hsnap
  split
  · rfl
  · rw [sampleSide_emitBlock, sampleSide_acquireStep, hloop]

theorem sampleSide_channelBits (e : ChanEnv) (n : Nat) (r : Chan × Option Nat) :
    sampleSide (channelBits e n r).1 = sampleSide r.1 := by
  induction n generalizing r with
  | zero => rfl
  | succ n ih =>
    unfold channelBits
    split
    · rfl
    · exact (ih _).trans (sampleSide_channelBit e r.1)

/-- What one sample does to a channel. -/
def sampleTaken (e : ChanEnv) (k : Chan) (x : Int) : Chan := (channelBits e 4 (takeSample x k, none)).1

/-- The first part of a fold over pairs, where each step takes only the first part of its pair into it. -/
theorem foldl_fst {α β γ δ : Type} {F : α × β → γ × δ → α × β} {f : α → γ → α} (h : ∀ a p, (F a p).1 = f a.1 p.1)
    (l : List (γ × δ)) (a : α × β) : (l.foldl F a).1 = (l.map Prod.fst).foldl f a.1 := by
  induction l generalizing a with
  | nil => rfl
  | cons p l ih => rw [List.foldl_cons, ih, h, List.map_cons, List.foldl_cons]

/-- The channel after a run of samples; when each came matters only for the arrival of a wedge. -/
theorem takeSamples_chan (e : ChanEnv) (xs : List Int) (k : Chan) : (takeSamples e xs k).1 = xs.foldl (sampleTaken e) k := by
  refine (foldl_fst (f := sampleTaken e) (by exact fun _ _ => rfl) _ _).trans ?_
  rw [List.map_fst_zip (by simp)]

theorem sampleSide_sampleTaken (e : ChanEnv) (k : Chan) (x : Int) :
    sampleSide (sampleTaken e k x) = sampleSide (takeSample x k) :=
  sampleSide_channelBits e 4 _

theorem nextSidx_takeSamples (e : ChanEnv) (xs : List Int) (k : Chan) : (takeSamples e xs k).1.nextSidx = k.nextSidx := by
  rw [takeSamples_chan]
  refine List.foldlRecOn (motive := fun u : Chan => u.nextSidx = k.nextSidx) _ _ rfl fun u hu x _ => ?_
  exact (congrArg Prod.snd (sampleSide_sampleTaken e u x)).trans hu

theorem length_vs_sampleTaken (e : ChanEnv) (k : Chan) (x : Int) : (sampleTaken e k x).vs.length = min 12288 (k.vs.length + 1) := by
  have hvs : (sampleTaken e k x).vs = (takeSample x k).vs := congrArg Prod.fst (sampleSide_sampleTaken e k x)
  rw [hvs]
  exact List.length_take

/-- The replay buffer grows by the samples that come, up to its 12,288 (R153). -/
theorem length_vs_takeSamples (e : ChanEnv) {xs : List Int} (k : Chan) (h : xs ≠ []) :
    (takeSamples e xs k).1.vs.length = min 12288 (k.vs.length + xs.length) := by
  rw [takeSamples_chan]
  induction xs generalizing k with
  | nil => exact absurd rfl h
  | cons x xs ih =>
    have hx := length_vs_sampleTaken e k x
    rcases xs with - | ⟨y, ys⟩
    · exact hx
    · have hxs := ih (sampleTaken e k x) (List.cons_ne_nil y ys)
      rw [List.foldl_cons, hxs, hx]
      simp only [List.length_cons]
      omega

/-! ## Samples reach a channel -/

theorem siblingWedge_sampleSide (c d : Nat) (s : State) :
    sampleSide (chanOf_ (siblingWedge c s) d) = sampleSide (chanOf_ s d) := by
  unfold siblingWedge
  lift_lets
  intro k ofs
  split
  · split
    · by_cases hd : d = c
      · subst hd
        by_cases hlt : d < 1024
        · rw [chanOf_onChan _ _ hlt]; rfl
        · simp [chanOf_, getAt, hlt]
      · rw [onChan_sameChansBut _ _ _ d hd]
    · rfl
  · rfl

theorem siblingWedge_sameChansBut (c : Nat) (s : State) : sameChansBut c s (siblingWedge c s) := by
  unfold siblingWedge
  lift_lets
  intro k ofs
  split
  · split
    · exact onChan_sameChansBut _ _ _
    · exact fun _ _ => rfl
  · exact fun _ _ => rfl

theorem chanOf_wedgeArrival (c : Nat) (at_ : Rat) (s : State) (d : Nat) : chanOf_ (wedgeArrival c at_ s) d = chanOf_ s d :=
  chanOf_congr ((wedgeArrival_kept c at_ (Nat.or_self _) (Kept.refl _ s)).same .tilesChans (by decide +kernel)) d

/-- The arrival of a wedge mark, when samples brought one, goes to the wedge in hand (R150). -/
def arrivalNoted (c : Nat) (a : Option Rat) (s : State) : State :=
  match a with
  | some t => wedgeArrival c t s
  | none => s

theorem chanOf_arrivalNoted (c : Nat) (a : Option Rat) (s : State) (d : Nat) : chanOf_ (arrivalNoted c a s) d = chanOf_ s d := by
  cases a with
  | none => rfl
  | some t => exact chanOf_wedgeArrival c t s d

/-- Channel c with a run of samples taken, and the index of the sample that follows them. -/
def samplesTaken (c : Nat) (lost : Bool) (xs : List Int) (s : State) : State :=
  let k := (takeSamples (chanEnv s c lost) xs (chanOf_ s c)).1
  onChan c (fun _ => { k with nextSidx := (k.nextSidx + xs.length) % 2 ^ 24 }) s

theorem feedChannel_eq (c : Nat) (lost : Bool) (xs : List Int) (s : State) : feedChannel c lost xs s =
    siblingWedge c (arrivalNoted c (takeSamples (chanEnv s c lost) xs (chanOf_ s c)).2 (samplesTaken c lost xs s)) :=
  rfl

theorem feedChannel_sameChansBut (c : Nat) (lost : Bool) (xs : List Int) (s : State) : sameChansBut c s (feedChannel c lost xs s) := by
  rw [feedChannel_eq]
  have htaken : sameChansBut c s (samplesTaken c lost xs s) := onChan_sameChansBut _ _ _
  exact (htaken.trans fun d _ => chanOf_arrivalNoted _ _ _ d).trans (siblingWedge_sameChansBut c _)

theorem feedChannel_sampleSide {c : Nat} (h : c < 1024) (lost : Bool) (xs : List Int) (s : State) :
    sampleSide (chanOf_ (feedChannel c lost xs s) c) =
      ((takeSamples (chanEnv s c lost) xs (chanOf_ s c)).1.vs, ((chanOf_ s c).nextSidx + xs.length) % 2 ^ 24) := by
  rw [feedChannel_eq, siblingWedge_sampleSide, chanOf_arrivalNoted, samplesTaken, chanOf_onChan _ _ h, nextSidx_takeSamples]
  rfl

theorem feedChannel_nextSidx {c : Nat} (h : c < 1024) (lost : Bool) (xs : List Int) (s : State) :
    (chanOf_ (feedChannel c lost xs s) c).nextSidx = ((chanOf_ s c).nextSidx + xs.length) % 2 ^ 24 :=
  congrArg Prod.snd (feedChannel_sampleSide h lost xs s)

theorem feedChannel_vs {c : Nat} (h : c < 1024) (lost : Bool) (xs : List Int) (s : State) :
    (chanOf_ (feedChannel c lost xs s) c).vs = (takeSamples (chanEnv s c lost) xs (chanOf_ s c)).1.vs :=
  congrArg Prod.fst (feedChannel_sampleSide h lost xs s)

/-! ## The packets that a group counts as lost (R226) -/

/-- The lost sample packets that each group has counted. -/
def lostPackets (s : State) : Vector Nat 8 := s.hlk.groups.map (·.cntLost)

theorem lostPackets_congr {s t : State} (h : t.hlk.groups = s.hlk.groups) : lostPackets t = lostPackets s := by
  rw [lostPackets, lostPackets, h]

theorem lostPackets_onGroup {f : Group → Group} (hf : ∀ k, (f k).cntLost = k.cntLost) (g : Nat) (s : State) :
    lostPackets (onGroup g f s) = lostPackets s :=
  map_updAt_same s.hlk.groups g f _ hf

theorem cntLost_of_lostPackets {s t : State} (h : lostPackets t = lostPackets s) (g : Fin 8) :
    (hlGroup t g).cntLost = (hlGroup s g).cntLost := by
  have hg := congrArg (fun v => v[g]) h
  simpa [lostPackets, hlGroup, getAt] using hg

theorem lostPackets_haltToken (g : Fin 8) (s : State) : lostPackets (haltToken g s) = lostPackets s := by
  refine forEach_preserves (P := fun t => lostPackets t = lostPackets s) _ (fun lane t ht => ?_) rfl
  exact (lostPackets_onGroup (by exact fun _ => rfl) g t).trans ht

theorem lostPackets_stopTokens (s : State) : lostPackets (stopTokens s) = lostPackets s := by
  unfold stopTokens
  split
  · have hcut : (cutCommits (s.onWr fun w => { w with tokens := false })).hlk.groups = s.hlk.groups :=
      (cutCommits_kept (Nat.or_self _) (Kept.refl _ _)).same .hlkGroups (by decide +kernel)
    refine forEach_preserves (P := fun t => lostPackets t = lostPackets s) _ (fun g t ht => ?_) (lostPackets_congr hcut)
    exact (lostPackets_haltToken g t).trans ht
  · rfl

theorem lostPackets_inhibitIf (src : InhibitSource) (b : Bool) (s : State) : lostPackets (inhibitIf src b s) = lostPackets s := by
  cases b with
  | false => exact lostPackets_congr ((inhibitOff_kept src (Nat.or_self _) (Kept.refl _ s)).same .hlkGroups (by decide +kernel))
  | true =>
    change lostPackets (inhibitOn src s) = _
    unfold inhibitOn
    lift_lets
    intro i fresh s1 s2
    split
    · rfl
    · split
      · have hlan : (lantern 0x0030 (le 2 s1.wr.sources.toNat ++ le 6 (nInHand s)) s2).hlk.groups = s2.hlk.groups :=
          (lantern_kept _ _ (Nat.or_self _) (Kept.refl _ s2)).same .hlkGroups (by decide +kernel)
        exact (lostPackets_congr hlan).trans (lostPackets_stopTokens _)
      · rfl

theorem lostPackets_wedgeArrival (c : Nat) (at_ : Rat) (s : State) : lostPackets (wedgeArrival c at_ s) = lostPackets s := by
  have hjudge : lostPackets (judgeWedge s) = lostPackets s := by
    unfold judgeWedge
    split
    · rfl
    · exact lostPackets_inhibitIf _ _ _
  unfold wedgeArrival
  split
  · exact hjudge
  · rfl

theorem lostPackets_feedChannel (c : Nat) (lost : Bool) (xs : List Int) (s : State) :
    lostPackets (feedChannel c lost xs s) = lostPackets s := by
  have hsib : ∀ t, lostPackets (siblingWedge c t) = lostPackets t := fun t =>
    lostPackets_congr ((siblingWedge_kept c (Nat.or_self _) (Kept.refl _ t)).same .hlkGroups (by decide +kernel))
  rw [feedChannel_eq, hsib]
  cases (takeSamples (chanEnv s c lost) xs (chanOf_ s c)).2 with
  | none => rfl
  | some t => exact lostPackets_wedgeArrival c t _

end Sys2Proof.Machine
end

section
/-! PROOF. The read channels, window by window: sample packets, the search for marks, replay, the end of a frame, realignment and sibling
prediction (R136, R149 to R155, R211). -/

namespace Sys2Proof.Machine

/-! ## Sample packets (R136, R209, R211) -/

theorem chanNo_lt (g : Fin 8) (ch : Fin 128) : chanNo g ch < 1024 := by
  unfold chanNo
  omega

/-- No samples are missing before those that continue a channel's own, or its first. -/
theorem missingBefore_eq_zero {k : Chan} {sidx : Nat} (h : k.vs = [] ∨ k.nextSidx = sidx) : missingBefore k sidx = 0 := by
  unfold missingBefore
  dsimp only
  rcases h with h | rfl
  · rw [if_pos (.inl h)]
  · simp

/-- The samples of a packet that continues its channel's own, or begins them, taken at index sidx. -/
def packetTaken (c sidx : Nat) (samples : List Int) (s : State) : State :=
  feedChannel c false samples (onChan c (fun k => { k with nextSidx := sidx }) (feedChannel c true [] s))

section
variable {g : Fin 8} {ch : Fin 128} {sidx : Nat} {samples : List Int} {s : State}

theorem samplePacket_refused (h : (chanOf_ s (chanNo g ch)).state = .idle ∨ (tilesOut s).getLsbD (chanNo g ch) = true) :
    samplePacket g ch sidx samples s = s :=
  if_pos h

theorem samplePacket_continues (hi : (chanOf_ s (chanNo g ch)).state ≠ .idle) (ho : (tilesOut s).getLsbD (chanNo g ch) = false)
    (hs : (chanOf_ s (chanNo g ch)).vs = [] ∨ (chanOf_ s (chanNo g ch)).nextSidx = sidx) :
    samplePacket g ch sidx samples s = packetTaken (chanNo g ch) sidx samples s := by
  have hnew : ¬((chanOf_ s (chanNo g ch)).vs ≠ [] ∧ 2 ^ 23 ≤ (sidx + 2 ^ 24 - (chanOf_ s (chanNo g ch)).nextSidx) % 2 ^ 24) := by
    rintro ⟨hvs, hpassed⟩
    rw [hs.resolve_left hvs, Nat.add_sub_cancel_left, Nat.mod_self] at hpassed
    omega
  have htaken : ¬((chanOf_ s (chanNo g ch)).state = .idle ∨ (tilesOut s).getLsbD (chanNo g ch) = true) := by simp [hi, ho]
  rw [samplePacket, if_neg htaken, if_neg hnew, missingBefore_eq_zero hs]
  rfl

end

section
variable (c sidx : Nat) (samples : List Int) (s : State)

theorem packetTaken_sameChansBut : sameChansBut c s (packetTaken c sidx samples s) :=
  ((feedChannel_sameChansBut _ _ _ _).trans (onChan_sameChansBut _ _ _)).trans (feedChannel_sameChansBut _ _ _ _)

theorem packetTaken_nextSidx (h : c < 1024) :
    (chanOf_ (packetTaken c sidx samples s) c).nextSidx = (sidx + samples.length) % 2 ^ 24 := by
  rw [packetTaken, feedChannel_nextSidx h, chanOf_onChan _ _ h]

/-- The replay buffer holds the samples of the packet behind those it held (R153). -/
theorem packetTaken_length_vs (h : c < 1024) (hs : samples ≠ []) :
    (chanOf_ (packetTaken c sidx samples s) c).vs.length = min 12288 ((chanOf_ s c).vs.length + samples.length) := by
  have hnone : (chanOf_ (feedChannel c true [] s) c).vs = (chanOf_ s c).vs := feedChannel_vs h true [] s
  rw [packetTaken, feedChannel_vs h, length_vs_takeSamples _ _ hs, chanOf_onChan _ _ h, ← hnone]

end

section
variable {g lane : Fin 8} {ty : BitVec 4} {fl : BitVec 36} {crc : BitVec 24} {pay : List (BitVec 64)} {s : State}

theorem exec_samplePacket_bad (hl : live s = true) (hp : samplePacketOk ⟨g, lane, crc ++ fl ++ ty, pay⟩ = false) :
    exec (.samplePacket g lane ty fl crc pay) s = .next (discardPacket g lane.val s) := by
  change execSamplePacket g lane ty fl crc pay s = _
  rw [execSamplePacket, goLive_of_live _ hl, hp]
  rfl

/-- A good packet on a lane in use is its channel's; on another lane it is nobody's. -/
theorem samplePacket_ok (hp : samplePacketOk ⟨g, lane, crc ++ fl ++ ty, pay⟩ = true) :
    exec (.samplePacket g lane ty fl crc pay) s = goLive (fun s =>
      if (hlGroup s g).state = .up ∧ (hlGroup s g).rxLive.getLsbD lane.val = true then
        samplePacket g (Fin.ofNat 128 (bits fl.toNat 0 7)) (bits fl.toNat 8 24) (packedSamples pay) s
      else s) s := by
  change execSamplePacket g lane ty fl crc pay s = _
  rw [execSamplePacket, hp]
  rfl

theorem exec_samplePacket_refused (hp : samplePacketOk ⟨g, lane, crc ++ fl ++ ty, pay⟩ = true)
    (h : (hlGroup s g).state ≠ .up ∨ (hlGroup s g).rxLive.getLsbD lane.val = false ∨
      (chanOf_ s (chanNo g (Fin.ofNat 128 (bits fl.toNat 0 7)))).state = .idle ∨
      (tilesOut s).getLsbD (chanNo g (Fin.ofNat 128 (bits fl.toNat 0 7))) = true) :
    exec (.samplePacket g lane ty fl crc pay) s = .next s := by
  rw [samplePacket_ok hp]
  refine goLive_of_fixed ?_
  split
  next hlane =>
    obtain ⟨hup, hrx⟩ := hlane
    rcases h with h | h | h
    · exact absurd hup h
    · exact absurd (h.symm.trans hrx) Bool.false_ne_true
    · exact samplePacket_refused h
  next => rfl

theorem exec_samplePacket_taken (hl : live s = true) (hp : samplePacketOk ⟨g, lane, crc ++ fl ++ ty, pay⟩ = true)
    (hup : (hlGroup s g).state = .up) (hrx : (hlGroup s g).rxLive.getLsbD lane.val = true) :
    exec (.samplePacket g lane ty fl crc pay) s =
      .next (samplePacket g (Fin.ofNat 128 (bits fl.toNat 0 7)) (bits fl.toNat 8 24) (packedSamples pay) s) := by
  rw [samplePacket_ok hp, goLive_of_live _ hl, if_pos ⟨hup, hrx⟩]

end

theorem length_packedSamples (pay : List (BitVec 64)) : (packedSamples pay).length = 266 := by simp [packedSamples]

/-! ## A packet that does not come (R211) -/

/-- The group has counted one more lost packet. -/
def lossCounted (g : Fin 8) (s : State) : State := onGroup g (fun k => { k with cntLost := inc k.cntLost }) s

theorem lossCounted_cntLost (g : Fin 8) (s : State) : (hlGroup (lossCounted g s) g).cntLost = inc (hlGroup s g).cntLost := by
  rw [lossCounted, hlGroup, onGroup, State.onHlk_hlk, getAt_updAt_same _ _ _ g.isLt]
  rfl

section
variable {g : Fin 8} {ch : Fin 128} {s : State}

theorem samplePacketLost_idle (h : (chanOf_ s (chanNo g ch)).state = .idle) : samplePacketLost g ch s = lossCounted g s := if_pos h

theorem samplePacketLost_taken (h : (chanOf_ s (chanNo g ch)).state ≠ .idle) :
    samplePacketLost g ch s = feedChannel (chanNo g ch) true (List.replicate 266 0) (lossCounted g s) := if_neg h

end

theorem lossCounted_changesOnly (g : Fin 8) (s : State) : changesOnly [.hlkGroups] s (lossCounted g s) :=
  (onGroup_kept g _ (by decide +kernel) (Kept.refl (fieldMask [.hlkGroups]) s)).changesOnly

section
variable (g : Fin 8) (ch : Fin 128) (s : State)

theorem samplePacketLost_cntLost : (hlGroup (samplePacketLost g ch s) g).cntLost = inc (hlGroup s g).cntLost := by
  by_cases h : (chanOf_ s (chanNo g ch)).state = .idle
  · rw [samplePacketLost_idle h, lossCounted_cntLost]
  · rw [samplePacketLost_taken h, cntLost_of_lostPackets (lostPackets_feedChannel _ _ _ _), lossCounted_cntLost]

theorem samplePacketLost_sameChansBut : sameChansBut (chanNo g ch) s (samplePacketLost g ch s) := by
  by_cases h : (chanOf_ s (chanNo g ch)).state = .idle
  · rw [samplePacketLost_idle h]
    exact fun _ _ => rfl
  · rw [samplePacketLost_taken h]
    exact feedChannel_sameChansBut _ _ _ (lossCounted g s)

end

/-- The samples of a lost packet are read as 266 zeros (R211). -/
theorem samplePacketLost_nextSidx {g : Fin 8} {ch : Fin 128} {s : State} (h : (chanOf_ s (chanNo g ch)).state ≠ .idle) :
    (chanOf_ (samplePacketLost g ch s) (chanNo g ch)).nextSidx = ((chanOf_ s (chanNo g ch)).nextSidx + 266) % 2 ^ 24 := by
  rw [samplePacketLost_taken h, feedChannel_nextSidx (chanNo_lt g ch), List.length_replicate]
  rfl

/-! ## The search for a mark (R151) -/

/-- The bits of a mark that a place misses, none where too many are erased. -/
def missesAt (k : Chan) (mark : List Bool) (p : Nat) : Option Nat := markErrors mark ((List.range mark.length).map fun i => llrAt k (p + i))

/-- A place of the mark that is near enough to it. -/
def nearMark (k : Chan) (mark : List Bool) (limit p : Nat) : Prop := ∃ d, d ≤ limit ∧ missesAt k mark p = some d

/-- Of two places of a search, the one chosen: the nearer to the mark, the earlier on a tie. -/
def nearerPlace (k : Chan) (mark : List Bool) (b : Option Nat) (q : Nat) : Option Nat :=
  match b, missesAt k mark q with
  | none, some _ => some q
  | some r, some d => if d < (missesAt k mark r).getD 99 then some q else some r
  | _, none => b

/-- A place chosen over one that is near enough is near enough. -/
theorem nearerPlace_near {k : Chan} {mark : List Bool} {limit r q : Nat} (h : nearMark k mark limit r) :
    ∃ x, nearerPlace k mark (some r) q = some x ∧ (x = r ∨ x = q) ∧ nearMark k mark limit x := by
  obtain ⟨d, hd, hr⟩ := h
  cases hq : missesAt k mark q with
  | none => exact ⟨r, by simp [nearerPlace, hq], .inl rfl, d, hd, hr⟩
  | some e =>
    by_cases hlt : e < d
    · exact ⟨q, by simp [nearerPlace, hq, hr, hlt], .inr rfl, e, by omega, hq⟩
    · exact ⟨r, by simp [nearerPlace, hq, hr, hlt], .inl rfl, d, hd, hr⟩

/-- A search that begins at a place near enough ends at one. -/
theorem foldl_nearerPlace {k : Chan} {mark : List Bool} {limit lo hi : Nat} (qs : List Nat) (hqs : ∀ q ∈ qs, lo ≤ q ∧ q ≤ hi) {r : Nat}
    (hr : lo ≤ r ∧ r ≤ hi) (hnear : nearMark k mark limit r) :
    ∃ x, qs.foldl (nearerPlace k mark) (some r) = some x ∧ (lo ≤ x ∧ x ≤ hi) ∧ nearMark k mark limit x := by
  induction qs generalizing r with
  | nil => exact ⟨r, rfl, hr, hnear⟩
  | cons q qs ih =>
    obtain ⟨hq, hrest⟩ := List.forall_mem_cons.mp hqs
    obtain ⟨x, hx, hplace, hxnear⟩ := nearerPlace_near (q := q) hnear
    have hxin : lo ≤ x ∧ x ≤ hi := by
      rcases hplace with rfl | rfl
      · exact hr
      · exact hq
    rw [List.foldl_cons, hx]
    exact ih hrest hxin hxnear

/-- The places of a search from a to b, in order. -/
def placesFrom (a b : Nat) : List Nat := (List.range (b + 1 - a)).map (a + ·)

theorem mem_placesFrom {a b p : Nat} : p ∈ placesFrom a b ↔ a ≤ p ∧ p ≤ b := by
  simp only [placesFrom, List.mem_map, List.mem_range]
  constructor
  · rintro ⟨i, hi, rfl⟩
    omega
  · rintro ⟨ha, hb⟩
    exact ⟨p - a, by omega, by omega⟩

theorem placesFrom_eq_cons {a b : Nat} (h : a ≤ b) : placesFrom a b = a :: placesFrom (a + 1) b := by
  have hlen : b + 1 - a = (b + 1 - (a + 1)) + 1 := by omega
  rw [placesFrom, hlen, List.range_succ_eq_map, List.map_cons, List.map_map, placesFrom]
  refine congrArg (a :: ·) (List.map_congr_left fun i _ => ?_)
  simp only [Function.comp_apply]
  omega

/-- All the bits of the mark at a place are in. -/
def markIn (k : Chan) (mark : List Bool) (p : Nat) : Bool := decide (p + mark.length ≤ k.counter)

/-- A place meets the limit of its window. -/
def markNear (k : Chan) (mark : List Bool) (limit p : Nat) : Bool :=
  match missesAt k mark p with
  | some d => decide (d ≤ limit)
  | none => false

theorem markNear_iff (k : Chan) (mark : List Bool) (limit p : Nat) : markNear k mark limit p = true ↔ nearMark k mark limit p := by
  unfold markNear nearMark
  cases missesAt k mark p with
  | none => simp
  | some d => simp

/-- From the first place that is near enough, the best of it and the four behind it; without one a miss, once the window is in (R151). -/
theorem seekMark_eq (k : Chan) (mark : List Bool) (limit lo hi : Nat) : seekMark k mark limit lo hi =
    match (placesFrom lo hi).find? fun p => markIn k mark p && markNear k mark limit p with
    | some p => if markIn k mark (min hi (p + 4)) then some ((placesFrom p (min hi (p + 4))).foldl (nearerPlace k mark) none) else none
    | none => if markIn k mark hi then some none else none := rfl

theorem seekMark_found {k : Chan} {mark : List Bool} {limit lo hi p : Nat} (h : seekMark k mark limit lo hi = some (some p)) :
    (lo ≤ p ∧ p ≤ hi) ∧ nearMark k mark limit p := by
  rw [seekMark_eq] at h
  split at h
  next first hfirst =>
    obtain ⟨hlo, hhi⟩ := mem_placesFrom.mp (List.mem_of_find?_eq_some hfirst)
    obtain ⟨-, hgood⟩ := Bool.and_eq_true_iff.mp (List.find?_some (p := fun p => markIn k mark p && markNear k mark limit p) hfirst)
    have hnear := (markNear_iff k mark limit first).mp hgood
    have hbegin : nearerPlace k mark none first = some first := by
      obtain ⟨d, -, hd⟩ := hnear
      simp [nearerPlace, hd]
    have hrest : ∀ q ∈ placesFrom (first + 1) (min hi (first + 4)), lo ≤ q ∧ q ≤ hi := by
      intro q hq
      obtain ⟨hq1, hq2⟩ := mem_placesFrom.mp hq
      omega
    obtain ⟨x, hx, hin, hxnear⟩ := foldl_nearerPlace _ hrest ⟨hlo, hhi⟩ hnear
    obtain ⟨-, hbest⟩ := Option.ite_none_right_eq_some.mp h
    rw [placesFrom_eq_cons (by omega), List.foldl_cons, hbegin, hx] at hbest
    cases hbest
    exact ⟨hin, hxnear⟩
  next =>
    obtain ⟨-, hnone⟩ := Option.ite_none_right_eq_some.mp h
    cases hnone

/-! ## A window is evaluated (R151, R152, Table 06-2) -/

theorem autoState_blockA (cfg : Word) {k : Chan} (h : k.state = .blockA) : (autoState cfg k).syncAt = k.syncAt ∧
    (autoState cfg k).frameAt = k.frameAt ∧ ((autoState cfg k).state = .blockA ∨ (autoState cfg k).state = .seekResync) := by
  unfold autoState
  rw [h]
  dsimp only
  split
  · split
    · exact ⟨rfl, rfl, .inr rfl⟩
    · exact ⟨rfl, rfl, .inl h⟩
  · exact ⟨rfl, rfl, .inl h⟩

theorem autoState_lostFrame (cfg : Word) {k : Chan} (h : k.state = .lostFrame) (hc : k.counter < syncExpected k + 8976) :
    autoState cfg k = k := by
  unfold autoState
  rw [h]
  exact if_neg (Nat.not_le.mpr hc)

/-- The search under a name that hides what it computes: a window evaluated on it is not searched again by the kernel. -/
theorem sealed_seekMark : ∃ search, search = seekMark := ⟨_, rfl⟩

section
variable {e : ChanEnv} {sd rd : Nat} {k : Chan}

theorem syncStep_sync_missed (hs : k.state = .seekSync)
    (hr : seekMark k syncBits sd (max k.lockFrom (syncExpected k - 48)) (syncExpected k + 48) = some none) :
    syncStep e sd rd k = { k with state := .wideResync, cfg := e.cfg, syncMissed := true } := by
  unfold syncStep
  obtain ⟨search, hsearch⟩ := sealed_seekMark
  rw [← hsearch] at hr ⊢
  simp only [hs, hr]

theorem syncStep_sync_found (hs : k.state = .seekSync) {p : Nat}
    (hr : seekMark k syncBits sd (max k.lockFrom (syncExpected k - 48)) (syncExpected k + 48) = some (some p)) :
    syncStep e sd rd k = autoState e.cfg (takeEntry e { k with state := .blockA, frameAt := some (p - 96), syncAt := some p }) := by
  unfold syncStep
  obtain ⟨search, hsearch⟩ := sealed_seekMark
  rw [← hsearch] at hr ⊢
  simp only [hs, hr]

theorem syncStep_resync_missed (hs : k.state = .seekResync) {f : Nat} (hf : k.frameAt = some f)
    (hr : seekMark k resyncBits rd (f + 4545) (f + 4561) = some none) :
    syncStep e sd rd k = { k with state := .blockB, blockB := f + 4577 } := by
  unfold syncStep
  obtain ⟨search, hsearch⟩ := sealed_seekMark
  rw [← hsearch] at hr ⊢
  simp only [hs, hf, hr]

theorem syncStep_resync_found (hs : k.state = .seekResync) {f q : Nat} (hf : k.frameAt = some f)
    (hr : seekMark k resyncBits rd (f + 4545) (f + 4561) = some (some q)) :
    syncStep e sd rd k =
      { k with state := .blockB, resyncAt := some q, blockB := q + 24, slips := k.slips + (decide (q ≠ f + 4553)).toNat } := by
  unfold syncStep
  obtain ⟨search, hsearch⟩ := sealed_seekMark
  rw [← hsearch] at hr ⊢
  simp only [hs, hf, hr]

theorem syncStep_wide_missed (hs : k.state = .wideResync)
    (hr : seekMark k resyncBits rd (syncExpected k + 4409) (syncExpected k + 4505) = some none) :
    syncStep e sd rd k = autoState e.cfg { k with state := .lostFrame } := by
  unfold syncStep
  obtain ⟨search, hsearch⟩ := sealed_seekMark
  rw [← hsearch] at hr ⊢
  simp only [hs, hr]

theorem syncStep_wide_found (hs : k.state = .wideResync) {q : Nat}
    (hr : seekMark k resyncBits rd (syncExpected k + 4409) (syncExpected k + 4505) = some (some q)) :
    syncStep e sd rd k =
      { k with state := .blockB, frameAt := some (q - 4553), resyncAt := some q, blockB := q + 24, replayA := true } := by
  unfold syncStep
  obtain ⟨search, hsearch⟩ := sealed_seekMark
  rw [← hsearch] at hr ⊢
  simp only [hs, hr]

end

/-- The window of channel c, evaluated with what the channel is told now. -/
def windowTaken (c : Fin 1024) (s : State) : State := onChan c.val (syncStep (chanEnv s c.val false) (syncLimit s c.val) (resyncLimit s c.val)) s

theorem windowTaken_chan (c : Fin 1024) (s : State) : chanOf_ (windowTaken c s) c.val =
    syncStep (chanEnv s c.val false) (syncLimit s c.val) (resyncLimit s c.val) (chanOf_ s c.val) :=
  chanOf_onChan _ _ c.isLt

/-! ## The replay engine's work on block A (R153, R156) -/

/-- The replay has put block A of the frame in hand in place. -/
def blockAReplayed (c : Nat) (llrs : Chan → List Int) (s : State) : State :=
  onChan c (fun k => { k with replayA := false, llrs := llrs k }) s

theorem blockAReplayed_chan (c : Fin 1024) (llrs : Chan → List Int) (s : State) : (chanOf_ (blockAReplayed c llrs s) c).replayA = false ∧
    (chanOf_ (blockAReplayed c llrs s) c).counter = (chanOf_ s c).counter ∧
    (chanOf_ (blockAReplayed c llrs s) c).slot = (chanOf_ s c).slot := by
  rw [blockAReplayed, chanOf_onChan _ _ c.isLt]
  exact ⟨rfl, rfl, rfl⟩

theorem replayBlockA_due {c f : Nat} {s : State} (ha : (chanOf_ s c).replayA = true) (hf : (chanOf_ s c).frameAt = some f) :
    ∃ llrs, replayBlockA c s = blockAReplayed c llrs s := by
  unfold replayBlockA
  dsimp only
  rw [ha, if_pos rfl, hf]
  exact ⟨_, rfl⟩

theorem replayBlockA_idle {c : Nat} {s : State} (h : (chanOf_ s c).replayA = false ∨ (chanOf_ s c).frameAt = none) :
    replayBlockA c s = s := by
  unfold replayBlockA
  dsimp only
  rcases h with h | h
  · rw [h, if_neg Bool.false_ne_true]
  · rw [h, ite_self]

/-- A replay changes the LLRs of its channel, and no more than that it is due. -/
theorem replayBlockA_cases (c : Nat) (s : State) : replayBlockA c s = s ∨ ∃ llrs, replayBlockA c s = blockAReplayed c llrs s := by
  cases ha : (chanOf_ s c).replayA with
  | false => exact .inl (replayBlockA_idle (.inl ha))
  | true =>
    cases hf : (chanOf_ s c).frameAt with
    | none => exact .inl (replayBlockA_idle (.inr hf))
    | some f => exact .inr (replayBlockA_due ha hf)

section
variable {c : Fin 1024} {s : State}

theorem exec_blockAReplay_waits (h : (chanOf_ s c).replayA = false ∨ (chanOf_ s c).frameAt = none ∨ engineFree s c = false) :
    exec (.blockAReplay c) s = .next s := by
  refine goLive_of_fixed ?_
  split
  next hfree =>
    rcases h with h | h | h
    · exact replayBlockA_idle (.inl h)
    · exact replayBlockA_idle (.inr h)
    · exact absurd (h.symm.trans hfree) Bool.false_ne_true
  next => rfl

theorem exec_blockAReplay_done {f : Nat} (hl : live s = true) (he : engineFree s c = true) (ha : (chanOf_ s c).replayA = true)
    (hf : (chanOf_ s c).frameAt = some f) : ∃ llrs, exec (.blockAReplay c) s = .next (blockAReplayed c.val llrs s) := by
  obtain ⟨llrs, hreplay⟩ := replayBlockA_due ha hf
  exact ⟨llrs, (goLive_of_live _ hl).trans (by rw [if_pos he, hreplay])⟩

end

/-! ## Frames at the assembler (R157, R158) -/

theorem mem_mapIf {α : Type} {p : α → Bool} {f : α → α} {l : List α} {x : α} (h : x ∈ l) (hp : p x = true) : f x ∈ mapIf p f l :=
  List.mem_map.mpr ⟨x, h, if_pos hp⟩

/-- In a slot that is taken and not complete, the assembler holds a frame of the channel: the one given, unless one had come. -/
theorem toAssembler_holds {s : State} {slot : Nat} (f : FrameRec) (ht : slotTaken s slot = true) (hd : deskewDone s slot = false) :
    ∃ a ∈ (toAssembler slot f s).tiles.asm, a.slot = slot ∧ ∃ x ∈ a.frames, x.chan = f.chan ∧
      ((∀ b ∈ s.tiles.asm, b.slot = slot → ∀ y ∈ b.frames, y.chan ≠ f.chan) → x = f) := by
  have hcond : (slotTaken s slot && !deskewDone s slot) = true := by simp [ht, hd]
  unfold toAssembler
  rw [if_pos hcond]
  dsimp only [State.onTiles_tiles]
  split
  next hany =>
    obtain ⟨b, hb, hslot⟩ := List.any_eq_true.mp hany
    refine ⟨_, mem_mapIf hb hslot, by simpa using hslot, ?_⟩
    dsimp only
    split
    next hcame =>
      obtain ⟨y, hy, hchan⟩ := List.any_eq_true.mp hcame
      have hchan : y.chan = f.chan := by simpa using hchan
      exact ⟨y, hy, hchan, fun hnone => absurd hchan (hnone b hb (by simpa using hslot) y hy)⟩
    next => exact ⟨f, List.mem_append_right _ (List.mem_singleton_self f), rfl, fun _ => rfl⟩
  next => exact ⟨⟨slot, [f]⟩, List.mem_append_right _ (List.mem_singleton_self _), rfl, f, List.mem_singleton_self f, rfl, fun _ => rfl⟩

theorem chanOf_toAssembler (slot : Nat) (f : FrameRec) (s : State) (c : Nat) : chanOf_ (toAssembler slot f s) c = chanOf_ s c :=
  chanOf_congr ((toAssembler_kept slot f (Nat.or_self _) (Kept.refl _ s)).same .tilesChans (by decide +kernel)) c

/-! ## The sync window of one channel (R151, R152, Table 06-2) -/

section
variable {c : Fin 1024} {s : State}

theorem windowTaken_sync (hs : (chanOf_ s c).state = .seekSync) {r : Option Nat}
    (hr : seekMark (chanOf_ s c) syncBits (syncLimit s c) (max (chanOf_ s c).lockFrom (syncExpected (chanOf_ s c) - 48))
      (syncExpected (chanOf_ s c) + 48) = some r) :
    (r = none → (chanOf_ (windowTaken c s) c).state = .wideResync ∧ (chanOf_ (windowTaken c s) c).syncMissed = true) ∧
    (∀ p, r = some p → (chanOf_ (windowTaken c s) c).syncAt = some p ∧ (chanOf_ (windowTaken c s) c).frameAt = some (p - 96) ∧
      ((chanOf_ (windowTaken c s) c).state = .blockA ∨ (chanOf_ (windowTaken c s) c).state = .seekResync)) := by
  rw [windowTaken_chan]
  cases r with
  | none =>
    rw [syncStep_sync_missed hs hr]
    exact ⟨fun _ => ⟨rfl, rfl⟩, fun _ => (nomatch ·)⟩
  | some q =>
    rw [syncStep_sync_found hs hr]
    refine ⟨(nomatch ·), fun p hp => ?_⟩
    cases hp
    exact autoState_blockA _ rfl

theorem windowTaken_resync (hs : (chanOf_ s c).state = .seekResync) {f : Nat} {r : Option Nat} (hf : (chanOf_ s c).frameAt = some f)
    (hr : seekMark (chanOf_ s c) resyncBits (resyncLimit s c) (f + 4545) (f + 4561) = some r) :
    (chanOf_ (windowTaken c s) c).state = .blockB ∧
      (chanOf_ (windowTaken c s) c).blockB = (r.map (· + 24)).getD (f + 4577) := by
  rw [windowTaken_chan]
  cases r with
  | none =>
    rw [syncStep_resync_missed hs hf hr]
    exact ⟨rfl, rfl⟩
  | some q =>
    rw [syncStep_resync_found hs hf hr]
    exact ⟨rfl, rfl⟩

theorem windowTaken_wide (hs : (chanOf_ s c).state = .wideResync) {r : Option Nat}
    (hr : seekMark (chanOf_ s c) resyncBits (resyncLimit s c) (syncExpected (chanOf_ s c) + 4409) (syncExpected (chanOf_ s c) + 4505) =
      some r) :
    (∀ q, r = some q → (chanOf_ (windowTaken c s) c).state = .blockB ∧ (chanOf_ (windowTaken c s) c).blockB = q + 24 ∧
      (chanOf_ (windowTaken c s) c).replayA = true) ∧
    (r = none → (chanOf_ s c).counter < syncExpected (chanOf_ s c) + 8976 → (chanOf_ (windowTaken c s) c).state = .lostFrame) := by
  rw [windowTaken_chan]
  cases r with
  | none =>
    rw [syncStep_wide_missed hs hr]
    refine ⟨fun _ => (nomatch ·), fun _ hc => ?_⟩
    rw [autoState_lostFrame]
    · rfl
    · exact hc
  | some p =>
    rw [syncStep_wide_found hs hr]
    refine ⟨fun q hq => ?_, (nomatch ·)⟩
    cases hq
    exact ⟨rfl, rfl, rfl⟩

end

/-! ## The end of a frame (R148, R152) -/

/-- A channel in TRACK goes on towards its next sync: no slot back, and no frame in hand. -/
theorem autoState_track (cfg : Word) {k : Chan} (h : k.state = .track) (hf : k.frameAt = none) :
    k.slot ≤ (autoState cfg k).slot ∧ (autoState cfg k).frameAt = none ∧ (autoState cfg k).state ≠ .blockB := by
  unfold autoState
  rw [h]
  dsimp only
  split
  · exact ⟨le_rfl, hf, RcState.noConfusion⟩
  · split
    · exact ⟨le_max_left _ _, rfl, RcState.noConfusion⟩
    · exact ⟨le_max_left _ _, hf, by simp⟩

/-- A channel whose frame is over, at its next slot. -/
def nextSlot (done : Bool) (k : Chan) : Chan :=
  { k with
    state := .track, slot := k.slot + 1, frameAt := none, syncAt := none, resyncAt := none, syncMissed := false,
    slips := if done then k.slips else 0 }

/-- Channel c with its frame given to the assembler, at its next slot. -/
def slotPassed (c : Nat) (fr : FrameRec) (s : State) : State :=
  onChan c (fun k => autoState (getAt s.tiles.syncCfg (c / 16) 0) (nextSlot (deskewDone s k.slot) k)) (toAssembler (chanOf_ s c).slot fr s)

/-- A replay before the end of the frame moves no slot. -/
theorem replayBlockA_slot (c : Fin 1024) (s : State) : (chanOf_ (replayBlockA c s) c).slot = (chanOf_ s c).slot := by
  obtain h | ⟨llrs, h⟩ := replayBlockA_cases c s
  · rw [h]
  · obtain ⟨-, -, hslot⟩ := blockAReplayed_chan c llrs s
    rw [h, hslot]

theorem slotTaken_replayBlockA (c : Nat) (s : State) (slot : Nat) : slotTaken (replayBlockA c s) slot = slotTaken s slot := by
  obtain h | ⟨llrs, h⟩ := replayBlockA_cases c s
  · rw [h]
  · rw [h]
    rfl

theorem deskewDone_replayBlockA (c : Nat) (s : State) (slot : Nat) : deskewDone (replayBlockA c s) slot = deskewDone s slot := by
  obtain h | ⟨llrs, h⟩ := replayBlockA_cases c s
  · rw [h]
  · rw [h]
    rfl

theorem frameEnds_waits {c f : Nat} {s : State} (hf : (chanOf_ s c).frameAt = some f)
    (h : (chanOf_ s c).state ≠ .blockB ∨ (chanOf_ s c).counter < f + 9002) : frameEnds c s = s := by
  unfold frameEnds
  dsimp only
  split
  next g hs hg =>
    cases hf.symm.trans hg
    exact if_pos (h.resolve_left (not_not_intro hs))
  next => rfl

theorem frameEnds_passes {c f : Nat} {s : State} (hf : (chanOf_ s c).frameAt = some f) (hs : (chanOf_ s c).state = .blockB)
    (hc : f + 9002 ≤ (chanOf_ s c).counter) : ∃ fr, fr.chan = c ∧ frameEnds c s = slotPassed c fr (replayBlockA c s) := by
  unfold frameEnds
  dsimp only
  rw [hs, hf]
  dsimp only
  rw [if_neg (Nat.not_lt.mpr hc)]
  exact ⟨_, rfl, rfl⟩

section
variable (c : Fin 1024) (fr : FrameRec) (s : State)

theorem slotPassed_chan : (chanOf_ s c).slot < (chanOf_ (slotPassed c fr s) c).slot ∧ (chanOf_ (slotPassed c fr s) c).frameAt = none ∧
    (chanOf_ (slotPassed c fr s) c).state ≠ .blockB := by
  rw [slotPassed, chanOf_onChan _ _ c.isLt, chanOf_toAssembler]
  exact autoState_track _ (k := nextSlot _ (chanOf_ s c)) rfl rfl

/-- Where the assembler takes the slot in hand, it holds a frame of the channel afterwards. -/
theorem slotPassed_holds (hchan : fr.chan = c.val) (ht : slotTaken s (chanOf_ s c).slot = true)
    (hd : deskewDone s (chanOf_ s c).slot = false) :
    ∃ a ∈ (slotPassed c fr s).tiles.asm, a.slot = (chanOf_ s c).slot ∧ ∃ x ∈ a.frames, x.chan = c.val := by
  obtain ⟨a, ha, hslot, x, hx, hxchan, -⟩ := toAssembler_holds fr ht hd
  exact ⟨a, ha, hslot, x, hx, hxchan.trans hchan⟩

end

/-! ## Realignment (R155) -/

theorem realignment_idle {c : Nat} {s : State} (h : realignEn s c = false) : realignment c s = s := by
  rw [realignment, h, if_neg Bool.false_ne_true]

theorem realignment_changesOnly (c : Nat) (s : State) : changesOnly [.tilesAsm] s (realignment c s) :=
  (realignment_kept c (by decide +kernel) (Kept.refl (fieldMask [.tilesAsm]) s)).changesOnly

theorem mem_realignment {c : Nat} {s : State} (he : realignEn s c = true) {a : SlotAsm} (ha : a ∈ s.tiles.asm) :
    realignIn s c a ∈ (realignment c s).tiles.asm := by
  rw [realignment, if_pos he]
  exact List.mem_map_of_mem ha

theorem realignFrame_chan (valid : List Int → Bool) (f : FrameRec) : (realignFrame valid f).chan = f.chan := by
  unfold realignFrame
  split
  · rfl
  · split <;> rfl

theorem realignFrame_tried (valid : List Int → Bool) (f : FrameRec) : (realignFrame valid f).tried = true := by
  unfold realignFrame
  split
  · rfl
  · split <;> rfl

theorem realignIn_unsettled {c : Nat} {s : State} {a : SlotAsm} (h : settledSeq a.frames = none) : realignIn s c a = a := by
  unfold realignIn
  rw [h]

/-- What becomes of one frame of a slot whose SEQ is settled. -/
def frameRealigned (s : State) (c seq : Nat) (f : FrameRec) : FrameRec :=
  if f.chan == c && realignDue (headerFits s seq seq c) f then realignFrame (headerFits s seq seq c) f else f

theorem realignIn_settled {c : Nat} {s : State} {a : SlotAsm} {seq : Nat} (h : settledSeq a.frames = some seq) :
    realignIn s c a = { a with frames := a.frames.map (frameRealigned s c seq) } := by
  unfold realignIn
  rw [h]
  rfl

section
variable (s : State) (c seq : Nat) (f : FrameRec)

theorem frameRealigned_chan : (frameRealigned s c seq f).chan = f.chan := by
  unfold frameRealigned
  split
  · exact realignFrame_chan _ _
  · rfl

theorem frameRealigned_other (h : f.chan ≠ c) : frameRealigned s c seq f = f := by
  simp [frameRealigned, h]

/-- A frame of the channel that is not tried afterwards is as it was, and not due. -/
theorem frameRealigned_untried (h : f.chan = c) (ht : (frameRealigned s c seq f).tried = false) :
    frameRealigned s c seq f = f ∧ realignDue (headerFits s seq seq c) f = false := by
  unfold frameRealigned at ht ⊢
  split at ht
  · exact absurd ((realignFrame_tried _ _).symm.trans ht) Bool.noConfusion
  next hdue => exact ⟨if_neg hdue, by simpa [h] using hdue⟩

end

/-! ## Sibling prediction (R154) -/

/-- The slot whose frame was lost is given to the assembler with a predicted frame, or with one that is not found. -/
def predictionGiven (c slot : Nat) (fr : FrameRec) (s : State) : State :=
  toAssembler slot fr (onChan c (fun k => { k with lostSlot := none, slips := 0 }) s)

theorem siblingPrediction_idle {c : Nat} {s : State} (h : (chanOf_ s c).lostSlot = none) : siblingPrediction c s = s := by
  unfold siblingPrediction
  dsimp only
  rw [h]

theorem siblingPrediction_given {c slot : Nat} {s : State} (h : (chanOf_ s c).lostSlot = some slot) :
    ∃ fr, siblingPrediction c s = predictionGiven c slot fr s ∧ fr.chan = c ∧ fr.missed = true ∧
      ((syncedAt s (siblingsOf s c) slot).length < 3 ∨ siblingEn s c = false → fr.found = false) := by
  unfold siblingPrediction
  dsimp only
  rw [h]
  dsimp only
  split
  next => exact ⟨_, rfl, rfl, rfl, fun _ => rfl⟩
  next m hm =>
    split
    next => exact ⟨_, rfl, rfl, rfl, fun _ => rfl⟩
    next hpredicted => exact ⟨_, rfl, rfl, rfl, fun hfew => absurd (by simpa using hfew) hpredicted⟩

theorem siblingPrediction_changesOnly (c : Nat) (s : State) : changesOnly [.tilesChans, .tilesAsm] s (siblingPrediction c s) :=
  (siblingPrediction_kept c (by decide +kernel) (Kept.refl (fieldMask [.tilesChans, .tilesAsm]) s)).changesOnly

theorem predictionGiven_lostSlot (c : Fin 1024) (slot : Nat) (fr : FrameRec) (s : State) :
    (chanOf_ (predictionGiven c slot fr s) c).lostSlot = none := by
  rw [predictionGiven, chanOf_toAssembler, chanOf_onChan _ _ c.isLt]

/-- In a slot that is taken and not complete, a channel of which no frame has come gives the one predicted. -/
theorem predictionGiven_holds {c slot : Nat} {fr : FrameRec} {s : State} (hchan : fr.chan = c) (ht : slotTaken s slot = true)
    (hd : deskewDone s slot = false) (hnone : ∀ a ∈ s.tiles.asm, a.slot = slot → ∀ f ∈ a.frames, f.chan ≠ c) :
    ∃ a ∈ (predictionGiven c slot fr s).tiles.asm, a.slot = slot ∧ fr ∈ a.frames := by
  obtain ⟨a, ha, hslot, x, hx, -, hfr⟩ :=
    toAssembler_holds (s := onChan c (fun k => { k with lostSlot := none, slips := 0 }) s) fr ht hd
  rw [hfr (hchan ▸ hnone)] at hx
  exact ⟨a, ha, hslot, hx⟩


/-! ## The obligation -/

/-- Settles O47, clause by clause from what each command makes of its channel. -/
theorem readChannelsWorkWindowByWindow : Obligations.ReadChannelsWorkWindowByWindow := by
  unfold Obligations.ReadChannelsWorkWindowByWindow
  refine ⟨?samplePacket, ?samplePacketLost, ?seekMark, ?syncWindow, ?replayWaits, ?replayDone, ?frameEnd, ?realignIdle, ?realigned,
    ?predictionIdle, ?predicted⟩
  case samplePacket =>
    intro g lane ty fl crc pay s
    refine ⟨exec_samplePacket_bad, exec_samplePacket_refused, fun hl hp hup hrx hi ho hs => ?_⟩
    refine ⟨_, exec_samplePacket_taken hl hp hup hrx, ?_⟩
    rw [samplePacket_continues hi ho hs]
    have hlen := length_packedSamples pay
    refine ⟨?_, ?_, packetTaken_sameChansBut _ _ _ s⟩
    · rw [packetTaken_nextSidx _ _ _ _ (chanNo_lt _ _), hlen]
    · rw [packetTaken_length_vs _ _ _ _ (chanNo_lt _ _) (List.ne_nil_of_length_pos (by omega)), hlen]
  case samplePacketLost =>
    intro g ch s hl
    exact ⟨_, goLive_of_live _ hl, samplePacketLost_cntLost g ch s, samplePacketLost_sameChansBut g ch s,
      fun hi => samplePacketLost_idle hi ▸ lossCounted_changesOnly g s, samplePacketLost_nextSidx⟩
  case seekMark =>
    intro k mark limit lo hi p h
    obtain ⟨⟨hlo, hhi⟩, hnear⟩ := seekMark_found h
    exact ⟨hlo, hhi, hnear⟩
  case syncWindow =>
    intro c s hl
    refine ⟨windowTaken c s, goLive_of_live _ hl, onChan_changesOnly _ _ s, onChan_sameChansBut _ _ s,
      fun hs r => windowTaken_sync hs, fun hs f r hf hr => ?_, fun hs r => windowTaken_wide hs⟩
    obtain ⟨hstate, hblock⟩ := windowTaken_resync hs hf hr
    refine ⟨hstate, hblock.trans ?_⟩
    cases r <;> rfl
  case replayWaits => exact fun c s => exec_blockAReplay_waits
  case replayDone =>
    intro c s f hl he ha hf
    obtain ⟨llrs, hexec⟩ := exec_blockAReplay_done hl he ha hf
    obtain ⟨hdone, hcounter, -⟩ := blockAReplayed_chan c llrs s
    exact ⟨_, hexec, hdone, hcounter, onChan_changesOnly _ _ s, onChan_sameChansBut _ _ s⟩
  case frameEnd =>
    intro c s f hf
    refine ⟨fun h => goLive_of_fixed (frameEnds_waits hf h), fun hl hs hc => ?_⟩
    obtain ⟨fr, hchan, hpass⟩ := frameEnds_passes hf hs hc
    refine ⟨_, goLive_of_live _ hl, ?_⟩
    rw [hpass, ← replayBlockA_slot, ← slotTaken_replayBlockA c, ← deskewDone_replayBlockA c]
    obtain ⟨hslot, hframe, hstate⟩ := slotPassed_chan c fr (replayBlockA c s)
    exact ⟨hslot, hframe, hstate, slotPassed_holds c fr _ hchan⟩
  case realignIdle => exact fun c s he => goLive_of_fixed (realignment_idle he)
  case realigned =>
    intro c s hl he
    refine ⟨_, goLive_of_live _ hl, realignment_changesOnly c s, fun a ha hseq => ?_, fun a ha seq hseq => ?_⟩
    · exact realignIn_unsettled hseq ▸ mem_realignment he ha
    · have hmem := mem_realignment he ha
      rw [realignIn_settled hseq] at hmem
      refine ⟨_, hmem, rfl, ?_, fun f hf hc => ?_, fun f hf hc ht => ?_⟩
      · simp [frameRealigned_chan]
      · exact List.mem_map.mpr ⟨f, hf, frameRealigned_other s c seq f hc⟩
      · obtain ⟨x, hx, rfl⟩ := List.mem_map.mp hf
        obtain ⟨hsame, hdue⟩ := frameRealigned_untried s c seq x ((frameRealigned_chan s c seq x).symm.trans hc) ht
        rw [hsame]
        exact ⟨hdue, hx⟩
  case predictionIdle =>
    intro c s h
    refine goLive_of_fixed ?_
    split
    next hfree => exact siblingPrediction_idle (h.resolve_right fun hbusy => Bool.false_ne_true (hbusy.symm.trans hfree))
    next => rfl
  case predicted =>
    intro c s slot hl he hlost
    obtain ⟨fr, hgiven, hchan, hmissed, hfound⟩ := siblingPrediction_given hlost
    refine ⟨_, (goLive_of_live _ hl).trans (congrArg _ (if_pos he)), siblingPrediction_changesOnly c s, ?_, fun ht hd hnone => ?_⟩
    · rw [hgiven, predictionGiven_lostSlot]
    · rw [hgiven]
      obtain ⟨a, ha, hslot, hfr⟩ := predictionGiven_holds hchan ht hd hnone
      exact ⟨a, ha, hslot, fr, hfr, hchan, hmissed, hfound⟩

end Sys2Proof.Machine
end

section
/-! PROOF. LAW names a law of its loop (R180, R186, R200). -/

namespace Sys2Proof.Machine

/-! ## A LAW step that names TENSION in the reel loop -/

/-- A Steeple table whose program 0 begins with LAW, of loop 2 and law 6: opcode 8 and A = 26. -/
def tensionTable : Bytes := zeros 0x2200 ++ le 8 (8 * 2 ^ 58 + 26)

/-- The part runs with that table in force, and Steeple runs the program in MOVE. -/
def tensionState : State :=
  ((State.reset.onBoot fun b => { b with phase := .normal }).onTrust fun k =>
    { k with tables := putAt k.tables 1 (some ([], tensionTable)) }).onStp fun p =>
    { p with mode := .move, program := { p.program with running := true } }

theorem field_zeros_append (n k : Nat) (b : Bytes) : field (zeros n ++ b) n k = field b 0 k := by
  simp [field, slice, zeros]

theorem tensionState_word : stepWord tensionState tensionState.stp.program.prog tensionState.stp.program.step = 8 * 2 ^ 58 + 26 :=
  (field_zeros_append 0x2200 8 _).trans rfl

theorem tensionState_stepInHand : stepInHand tensionState = some (8, 26, 0) := by
  simp only [stepInHand, tensionState_word]
  rfl

theorem tensionState_inStep : inStep tensionState 8 26 0 := ⟨rfl, rfl, tensionState_stepInHand⟩

/-- TENSION is always in force in the reel loop (R186): naming it changes nothing, and the program goes on. -/
theorem stepLaw_tension {a : Nat} {s : State} (ha : a < 64) (hloop : bits a 0 2 = 2) (hlaw : bits a 2 4 = 6) :
    stepLaw a s = nextStep s := by
  simp [stepLaw, hloop, hlaw, Nat.not_le.mpr ha]

/-- A step before the last leaves the program running. -/
theorem nextStep_running {s : State} (h : s.stp.program.step < 31) :
    (nextStep s).stp.program.running = s.stp.program.running := by
  rw [nextStep, if_neg (Nat.not_le.mpr h)]
  rfl

theorem runStep_of_inStep {op a b : Nat} {s : State} (f : Nat → Nat → State → State) (h : inStep s op a b) :
    runStep op f s = f a b s := by
  obtain ⟨-, hmode, hstep⟩ := h
  simp [runStep, hstep, hmode]

theorem exec_progLaw {a b : Nat} {s : State} (h : inStep s 8 a b) : exec .progLaw s = .next (stepLaw a s) := by
  change execProgLaw s = _
  rw [execProgLaw, goLive_of_live _ h.1, runStep_of_inStep _ h]

/-- Refutes O53: its clause of LAW asks for fault 2 when the reel loop is given a law other than 4 and 5, where law 6, TENSION, is the reel
loop's own (R180), and naming it is no fault. Here the first step of the program in hand is LAW with loop 2 and law 6. -/
theorem not_programsRunStepByStep : ¬ Obligations.ProgramsRunStepByStep := by
  unfold Obligations.ProgramsRunStepByStep
  rintro ⟨-, -, -, -, -, -, -, -, -, -, hlaw, -⟩
  obtain ⟨t, ht, -, -, -, hfaults⟩ := hlaw 26 0 tensionState tensionState_inStep
  obtain ⟨hended, -⟩ : faultsWith 2 tensionState t := hfaults (.inr (.inr (.inr (.inl (by decide)))))
  have hexec : exec .progLaw tensionState = .next (nextStep tensionState) := by
    rw [exec_progLaw tensionState_inStep, stepLaw_tension (by decide) (by decide) (by decide)]
  have hstep : t = nextStep tensionState := by injection ht.symm.trans hexec
  have hrunning : t.stp.program.running = true := hstep ▸ nextStep_running (by decide)
  exact Bool.false_ne_true (hended.symm.trans hrunning)

end Sys2Proof.Machine
end

section
/-! PROOF. What the shared operations leave of Steeple and of the write path, and what they do to the sources of the write inhibit (R105,
R106, R196, R376, R381). -/

namespace Sys2Proof.Machine

/-! ## A part of the state that a mask leaves out -/

/-- The mask of a list of fields, as shifts, which evaluate at any field. -/
def shiftMask : List Field → Nat
  | [] => 0
  | f :: l => (1 <<< f.ctorIdx) ||| shiftMask l

theorem fieldMask_eq_shiftMask (l : List Field) : fieldMask l = shiftMask l := by
  induction l with
  | nil => rfl
  | cons f l ih => rw [fieldMask, shiftMask, ih, Nat.one_shiftLeft]

theorem or_fieldMask {m : Nat} {l : List Field} (h : m ||| shiftMask l = shiftMask l) : m ||| fieldMask l = fieldMask l := by
  rwa [fieldMask_eq_shiftMask]

theorem testBit_fieldMask {i : Nat} {l : List Field} (h : (shiftMask l).testBit i = true) : (fieldMask l).testBit i = true := by
  rwa [fieldMask_eq_shiftMask]

/-- A mask without the n bits from a on has none of them. -/
theorem testBit_of_clear {m a n : Nat} (h : (m >>> a) % 2 ^ n = 0) {i : Nat} (hlo : a ≤ i) (hhi : i < a + n) : m.testBit i = false := by
  have hbit : ((m >>> a) % 2 ^ n).testBit (i - a) = false := by rw [h, Nat.zero_testBit]
  have hlt : i - a < n := by omega
  rwa [Nat.testBit_mod_two_pow, Nat.testBit_shiftRight, decide_eq_true hlt, Bool.true_and, Nat.add_sub_of_le hlo] at hbit

theorem StpAgree.eq_of_outside {m : Nat} {a b : Steeple} (h : StpAgree m a b) (hm : (m >>> 275) % 2 ^ 82 = 0) : b = a := by
  have hclear : ∀ i, 275 ≤ i → i < 357 → m.testBit i = false := fun i hlo hhi => testBit_of_clear hm hlo hhi
  cases h
  cases a
  cases b
  simp_all

theorem WrAgree.eq_of_outside {m : Nat} {a b : WritePath} (h : WrAgree m a b) (hm : (m >>> 154) % 2 ^ 27 = 0) : b = a := by
  have hclear : ∀ i, 154 ≤ i → i < 181 → m.testBit i = false := fun i hlo hhi => testBit_of_clear hm hlo hhi
  cases h
  cases a
  cases b
  simp_all

/-- The mask of every field but one. -/
def allBut (f : Field) : Nat :=
  0x1FFFFFFFFFFFFFFFFFFFFFFFFFFFFFFFFFFFFFFFFFFFFFFFFFFFFFFFFFFFFFFFFFFFFFFFFFFFFFFFFFFFFFFFFFFFFFFFF ^^^ (1 <<< f.ctorIdx)

/-! ## Steeple and the write path under records, requests and inhibits -/

@[simp] theorem raise_stp (n : Nat) (s : State) : (raise n s).stp = s.stp :=
  (raise_kept n (Nat.or_self _) (Kept.refl _ s)).stp.eq_of_outside rfl

@[simp] theorem lantern_stp (code : Nat) (data : Bytes) (s : State) : (lantern code data s).stp = s.stp :=
  (lantern_kept code data (Nat.or_self _) (Kept.refl _ s)).stp.eq_of_outside rfl

@[simp] theorem lantern_wr (code : Nat) (data : Bytes) (s : State) : (lantern code data s).wr = s.wr :=
  (lantern_kept code data (Nat.or_self _) (Kept.refl _ s)).wr.eq_of_outside rfl

@[simp] theorem stpRecord_stp (kind : Nat) (s : State) : (stpRecord kind s).stp = s.stp := lantern_stp _ _ _

@[simp] theorem stpRecord_wr (kind : Nat) (s : State) : (stpRecord kind s).wr = s.wr := lantern_wr _ _ _

@[simp] theorem stpEvent_stp (s : State) : (stpEvent s).stp = s.stp := raise_stp _ _

@[simp] theorem noteOut_stp (row : FaultRow) (i : Nat) (s : State) : (noteOut row i s).stp = s.stp :=
  (noteOut_kept row i (Nat.or_self _) (Kept.refl _ s)).stp.eq_of_outside rfl

@[simp] theorem noteOut_wr (row : FaultRow) (i : Nat) (s : State) : (noteOut row i s).wr = s.wr :=
  (noteOut_kept row i (Nat.or_self _) (Kept.refl _ s)).wr.eq_of_outside rfl

@[simp] theorem noteBack_stp (row : FaultRow) (i : Nat) (s : State) : (noteBack row i s).stp = s.stp :=
  (noteBack_kept row i (Nat.or_self _) (Kept.refl _ s)).stp.eq_of_outside rfl

@[simp] theorem inhibitOn_stp (src : InhibitSource) (s : State) : (inhibitOn src s).stp = s.stp :=
  (inhibitOn_kept src (Nat.or_self _) (Kept.refl _ s)).stp.eq_of_outside rfl

@[simp] theorem inhibitOff_stp (src : InhibitSource) (s : State) : (inhibitOff src s).stp = s.stp :=
  (inhibitOff_kept src (Nat.or_self _) (Kept.refl _ s)).stp.eq_of_outside rfl

@[simp] theorem inhibitIf_stp (src : InhibitSource) (b : Bool) (s : State) : (inhibitIf src b s).stp = s.stp := by
  cases b
  · exact inhibitOff_stp src s
  · exact inhibitOn_stp src s

/-! ## The sources of the write inhibit (R105, R106) -/

/-- A source becomes active, and none clears. -/
theorem inhibitOn_source (src : InhibitSource) (s : State) (i : Nat) :
    (inhibitOn src s).wr.sources.getLsbD i = (s.wr.sources.getLsbD i || decide (i = sourceBit src)) := by
  by_cases h : s.wr.sources.getLsbD (sourceBit src) = true
  · rw [inhibitOn, if_pos h]
    by_cases hi : i = sourceBit src <;> simp [hi, h]
  · have hsources : (inhibitOn src s).wr.sources = (sourceSet src s).wr.sources := by
      by_cases h0 : s.wr.sources = 0
      · have hfirst : inhibitOn src s = firstSource src s := by
          simp only [inhibitOn, h, decide_eq_true h0, Bool.false_eq_true, if_false, if_true, firstSource, sourceSet]
        rw [hfirst, (firstSource_marks src s).1]
      · simp only [inhibitOn, h, h0, Bool.false_eq_true, if_false, decide_false, sourceSet]
    rw [hsources, sourceSet_sources]

theorem inhibitOn_active (src : InhibitSource) (s : State) : (inhibitOn src s).wr.sources.getLsbD (sourceBit src) = true := by
  simp [inhibitOn_source]

theorem getLsbD_setBit_false_self {n : Nat} (w : BitVec n) (i : Nat) : (setBit w i false).getLsbD i = false := by
  simp only [setBit, Bool.false_eq_true, if_false, BitVec.getLsbD_and, BitVec.getLsbD_not, BitVec.getLsbD_ofNat, Nat.testBit_two_pow_self,
    Bool.and_true]
  cases decide (i < n) <;> simp

theorem inhibitOff_clear (src : InhibitSource) (s : State) : (inhibitOff src s).wr.sources.getLsbD (sourceBit src) = false := by
  unfold inhibitOff
  dsimp only
  split
  · exact getLsbD_setBit_false_self _ _
  next h => exact Bool.eq_false_iff.mpr h

theorem inhibitIf_source (src : InhibitSource) (b : Bool) (s : State) : (inhibitIf src b s).wr.sources.getLsbD (sourceBit src) = b := by
  cases b
  · exact inhibitOff_clear src s
  · exact inhibitOn_active src s

/-! ## The table in force, and a controlled stop -/

theorem plantOf_congr {s t : State} (h : t.trust.tables = s.trust.tables) (f : PlantField) : plantOf t f = plantOf s f := by
  simp only [plantOf, stpTable, h]

theorem aStop_congr {s t : State} (h : t.trust.tables = s.trust.tables) : aStop t = aStop s := by
  rw [aStop, aStop, plantOf_congr h]

theorem controlledStop_stp (a : Rat) (s : State) : (controlledStop a s).stp =
    { s.stp with vSet := 0, vAcc := a, speedOk := false, speedFrames := 0, stopping := some a, cntStop := inc s.stp.cntStop } :=
  stpRecord_stp _ _

/-! ## One reader, reel or stage -/

section
variable {α : Type} {n : Nat} (v : Vector α n) (f : α → α)

theorem getAt_fin (i : Fin n) (d : α) : getAt v i.val d = v[i] := by
  simp [getAt]

theorem getElem_updAt_same (i : Fin n) : (updAt v i.val f)[i] = f v[i] := by
  simp [updAt]

theorem getElem_updAt_ne {i : Nat} {j : Fin n} (h : j.val ≠ i) : (updAt v i f)[j] = v[j] := by
  unfold updAt
  split
  · exact Vector.getElem_set_ne _ _ fun hij => h hij.symm
  · rfl

end

end Sys2Proof.Machine
end

section
/-! PROOF. One frame of the servo readers: what it leaves in each of them (R175, R176, R178). -/

namespace Sys2Proof.Machine

/-! ## What a reader keeps of its last frame -/

/-- y, t_M, and the samples missed in a row (R175, R176). -/
def frameView (r : Reader) : Rat × Option Rat × Nat := (r.y, r.tM, r.bad)

/-- The same once a frame has given these stripes: the mark of a valid sample, or one sample more missed. -/
def viewAfter (amin : Rat) (o : Option ServoObs) (r : Reader) : Rat × Option Rat × Nat :=
  match o.filter (sampleValid amin r.tM) with
  | some o => ((servoMark o).y, some (servoMark o).tM, 0)
  | none => (r.y, none, r.bad + 1)

theorem frameView_readerFrame (s : State) (i : Nat) (o : Option ServoObs) (r : Reader) :
    frameView (readerFrame s i o r) = viewAfter (plantOf s .srvAmin) o r := by
  cases o with
  | none => rfl
  | some o =>
    by_cases h : sampleValid (plantOf s .srvAmin) r.tM o = true <;> simp [readerFrame, viewAfter, frameView, h, advanceReader, Option.filter]

/-- What the four readers keep. -/
def views (s : State) : Vector (Rat × Option Rat × Nat) 4 := s.stp.readers.map frameView

theorem views_congr {s t : State} (h : t.stp.readers = s.stp.readers) : views t = views s := by rw [views, views, h]

/-- A change of one reader that leaves its frame alone leaves every reader's frame alone. -/
theorem views_updAt {f : Reader → Reader} (hf : ∀ r, frameView (f r) = frameView r) {s t : State} {i : Nat}
    (h : t.stp.readers = updAt s.stp.readers i f) : views t = views s := by
  rw [views, h]
  exact map_updAt_same _ _ _ _ hf

theorem views_dropReader (i : Nat) (s : State) : views (dropReader i s) = views s := by
  have hdrop := fun t => views_updAt (f := fun r => { r with usable := false, good := 0 }) (fun _ => rfl) (s := s) (t := t) (i := i)
  unfold dropReader
  dsimp only
  split
  · exact hdrop _ rfl
  · exact hdrop _ (by rw [noteOut_stp, State.onStp_stp])

theorem views_dropReaders (s : State) : views (dropReaders s) = views s := by
  refine forEach_preserves (P := fun t => views t = views s) _ (fun i t ht => ?_) rfl
  dsimp only
  split
  · exact (views_dropReader i t).trans ht
  · exact ht

theorem views_readmitReaders (s : State) : views (readmitReaders s) = views s := by
  refine forEach_preserves (P := fun t => views t = views s) _ (fun i t ht => ?_) rfl
  dsimp only
  generalize (if countsToward s i then (getAt t.stp.readers i {}).good + 1 else 0) = n
  have hgood := fun u => views_updAt (f := fun r => { r with good := n, usable := decide (32 ≤ n) }) (fun _ => rfl) (s := t) (t := u) (i := i)
  split
  · exact (hgood _ (by rw [noteBack_stp, State.onStp_stp])).trans ht
  · exact (hgood _ rfl).trans ht

/-! ## The readers through one frame -/

/-- Each reader has taken its part of the frame. -/
def framesRead (obs : Vector (Option ServoObs) 4) (s : State) : State :=
  forEach [0, 1, 2, 3] (fun i t => t.onStp fun p => { p with readers := updAt p.readers i (readerFrame t i (getAt obs i none)) }) s

theorem views_framesRead (obs : Vector (Option ServoObs) 4) (s : State) (i : Fin 4) :
    (views (framesRead obs s))[i] = viewAfter (plantOf s .srvAmin) obs[i] s.stp.readers[i] := by
  have hplant : ∀ (t : State) (f : Steeple → Steeple), plantOf (t.onStp f) .srvAmin = plantOf t .srvAmin := fun _ _ => rfl
  fin_cases i <;> simp [views, framesRead, forEach, updAt, getAt, frameView_readerFrame, hplant]

/-- The frame has been read, and readers have been dropped and readmitted. -/
def readersSettled (obs : Vector (Option ServoObs) 4) (s : State) : State :=
  readmitReaders (dropReaders (forEach [0, 1, 2, 3] (fun i t => noteTapeId (getAt t.stp.readers i {}) t) (framesRead obs s)))

theorem views_readersSettled (obs : Vector (Option ServoObs) 4) (s : State) : views (readersSettled obs s) = views (framesRead obs s) := by
  have hid := forEach_kept [0, 1, 2, 3] (fun i t => noteTapeId (getAt t.stp.readers i {}) t) (fun _ _ => noteTapeId_kept _ (Nat.or_self _))
    (Kept.refl _ (framesRead obs s))
  rw [readersSettled, views_readmitReaders, views_dropReaders]
  exact views_congr (hid.same .stpReaders rfl)

/-- What follows in the sample: the speed, the position, the tilt, the errors, the loops and the link. -/
def sampleGoesOn (obs : Vector (Option ServoObs) 4) (before s2 : State) : State :=
  let s3 := if !(usableReaders before).isEmpty && (usableReaders s2).isEmpty then enterHold s2 else s2
  let v := sampleSpeed before s3 obs
  let s5 := speedBy v.2 (takeSpeed true v.1 s3)
  let s6 := takeBands (takeErrors (takeTilt (takePosition (speedSource s5))))
  linkFrame (takeBand (runLoops (holdSample (feedbackBack (countSettled (reelTravel s6))))))

theorem servoSample_eq (obs : Vector (Option ServoObs) 4) (s : State) : servoSample obs s = sampleGoesOn obs s (readersSettled obs s) := rfl

theorem sampleGoesOn_readers (obs : Vector (Option ServoObs) 4) (before s : State) :
    (sampleGoesOn obs before s).stp.readers = s.stp.readers := by
  have hhold : Kept (allBut .stpReaders) s (if !(usableReaders before).isEmpty && (usableReaders s).isEmpty then enterHold s else s) := by
    split
    · exact enterHold_kept rfl (Kept.refl _ s)
    · exact Kept.refl _ s
  have hspeed : ∀ {t} (v : Rat × Bool), Kept (allBut .stpReaders) s t → Kept (allBut .stpReaders) s (speedBy v.2 (takeSpeed true v.1 t)) :=
    fun v h => speedBy_kept _ rfl (takeSpeed_kept _ _ rfl h)
  have hmeasured : ∀ {t}, Kept (allBut .stpReaders) s t →
      Kept (allBut .stpReaders) s (takeBands (takeErrors (takeTilt (takePosition (speedSource t))))) := fun h =>
    takeBands_kept rfl (takeErrors_kept rfl (takeTilt_kept rfl
      (takePosition_kept rfl (speedSource_kept rfl h))))
  have hloops : ∀ {t}, Kept (allBut .stpReaders) s t →
      Kept (allBut .stpReaders) s (linkFrame (takeBand (runLoops (holdSample (feedbackBack (countSettled (reelTravel t))))))) := fun h =>
    linkFrame_kept rfl (takeBand_kept rfl (runLoops_kept rfl (holdSample_kept rfl
      (feedbackBack_kept rfl (countSettled_kept rfl (reelTravel_kept rfl h))))))
  have hsample : Kept (allBut .stpReaders) s (sampleGoesOn obs before s) := hloops (hmeasured (hspeed _ hhold))
  exact hsample.same .stpReaders rfl

/-- A frame leaves in each reader the mark of its sample, or one sample more missed. -/
theorem frameView_servoSample (obs : Vector (Option ServoObs) 4) (s : State) (i : Fin 4) :
    frameView (servoSample obs s).stp.readers[i] = viewAfter (plantOf s .srvAmin) obs[i] s.stp.readers[i] := by
  have hviews : views (servoSample obs s) = views (framesRead obs s) := by
    rw [servoSample_eq, views_congr (sampleGoesOn_readers obs s _), views_readersSettled]
  rw [← views_framesRead, ← hviews]
  simp [views]

/-! ## SERVO_PACKET -/

section
variable {ps : List HlPacket} (obs : Vector (Option ServoObs) 4) {s : State} (hl : live s = true)
include hl

theorem exec_servoPacket : exec (.servoPacket ⟨ps, obs⟩) s =
    .next (servoSample obs (forEach (ps.filter fun p => !servoPacketOk p) (fun p => discardPacket p.group p.lane.val) s)) := by
  change execServoPacket ⟨ps, obs⟩ s = _
  rw [execServoPacket, goLive_of_live _ hl]

/-- With no packet to discard the frame is one servo sample. -/
theorem exec_servoPacket_good (hok : ∀ p ∈ ps, servoPacketOk p = true) :
    exec (.servoPacket ⟨ps, obs⟩) s = .next (servoSample obs s) := by
  have hnone : (ps.filter fun p => !servoPacketOk p) = [] := by simpa using hok
  rw [exec_servoPacket obs hl, hnone]
  rfl

end

/-- The mark of a valid sample is in its reader. -/
theorem servoSample_marks {obs : Vector (Option ServoObs) 4} {s : State} {i : Fin 4} {o : ServoObs}
    (h : (obs[i]).filter (sampleValid (plantOf s .srvAmin) s.stp.readers[i].tM) = some o) :
    (servoSample obs s).stp.readers[i].y = (servoMark o).y ∧ (servoSample obs s).stp.readers[i].tM = some (servoMark o).tM ∧
    (servoSample obs s).stp.readers[i].bad = 0 := by
  have hview := frameView_servoSample obs s i
  rw [viewAfter, h] at hview
  simpa [frameView] using hview

/-- A frame without a valid sample counts as missed. -/
theorem servoSample_misses {obs : Vector (Option ServoObs) 4} {s : State} {i : Fin 4}
    (h : (obs[i]).filter (sampleValid (plantOf s .srvAmin) s.stp.readers[i].tM) = none) :
    (servoSample obs s).stp.readers[i].tM = none ∧ (servoSample obs s).stp.readers[i].bad = s.stp.readers[i].bad + 1 := by
  have hview := frameView_servoSample obs s i
  rw [viewAfter, h] at hview
  obtain ⟨-, htM, hbad⟩ : _ ∧ _ ∧ _ := by simpa [frameView] using hview
  exact ⟨htM, hbad⟩

end Sys2Proof.Machine
end

section
/-! PROOF. How a start of the tape moves Steeple's mode (R190, R199): to MOVE, and from FAULT not at all. -/

namespace Sys2Proof.Machine

/-- Steeple's mode is as before, or a program has started: that leads to MOVE, and never from FAULT. -/
def startsOnly (s t : State) : Prop := t.stp.mode = s.stp.mode ∨ (t.stp.mode = .move ∧ s.stp.mode ≠ .fault)

theorem startsOnly.refl (s : State) : startsOnly s s := .inl rfl

theorem startsOnly.trans {s t u : State} (h : startsOnly s t) (k : startsOnly t u) : startsOnly s u := by
  rcases k with hu | ⟨hu, ht⟩
  · rwa [startsOnly, hu]
  · rcases h with hs | ⟨-, hs⟩
    · exact .inr ⟨hu, hs ▸ ht⟩
    · exact .inr ⟨hu, hs⟩

/-- What leaves the mode alone starts nothing. -/
theorem startsOnly.of_kept {m : Nat} {s t : State} (h : Kept m s t) (hm : m.testBit Field.stpMode.ctorIdx = false) : startsOnly s t :=
  .inl (h.same .stpMode hm)

theorem startsOnly.ite {c : Prop} [Decidable c] {s t u : State} (h : startsOnly s t) (k : startsOnly s u) :
    startsOnly s (if c then t else u) := by
  split
  · exact h
  · exact k

theorem startsOnly.fault {s t : State} (h : startsOnly s t) (hs : s.stp.mode = .fault) : t.stp.mode = .fault :=
  h.elim (fun ht => ht.trans hs) fun ht => absurd hs ht.2

theorem startsOnly.still {s t : State} (h : startsOnly s t) (hs : s.stp.mode = .still) : t.stp.mode = .still ∨ t.stp.mode = .move :=
  h.imp (fun ht => ht.trans hs) And.left

theorem forEach_startsOnly {α : Type} (l : List α) {f : α → State → State} (hf : ∀ x t, startsOnly t (f x t)) (s : State) :
    startsOnly s (forEach l f s) :=
  forEach_preserves l (fun x t ht => ht.trans (hf x t)) (startsOnly.refl s)

/-! ## Programs and runs -/

theorem mode_ne_fault_of_programAllowed {s : State} {g : Nat} (h : programAllowed s g = true) : s.stp.mode ≠ .fault := by
  intro hm
  have hrole : roleMode s g = true := by simp_all [programAllowed]
  unfold roleMode at hrole
  split at hrole <;> simp [hm] at hrole

theorem startProgram_startsOnly (g p0 p1 p2 p3 : Nat) (s : State) : startsOnly s (startProgram g p0 p1 p2 p3 s) := by
  unfold startProgram
  split
  next h => exact .inr ⟨rfl, mode_ne_fault_of_programAllowed h⟩
  next => split <;> exact .inl (by simp)

theorem startTape_startsOnly (r lpos : Nat) (s : State) : startsOnly s (startTape r lpos s) := by
  unfold startTape
  dsimp only
  split
  · split
    · exact .inl rfl
    · exact startProgram_startsOnly 2 _ _ 0 0 ((s.onWvn fun w => { w with refused := false }).onWvn fun w => { w with startDue := none })
  · exact .inl (by simp)

theorem askRatio_startsOnly (r : Nat) (s : State) : startsOnly s (askRatio r s) :=
  .of_kept (askRatio_kept r (Nat.or_self _) (Kept.refl _ s)) rfl

theorem setWvn_startsOnly (st : WvnState) (s : State) : startsOnly s (setWvn st s) :=
  .of_kept (setWvn_kept st (Nat.or_self _) (Kept.refl _ s)) rfl

/-- The run and its wrap are noted, and its channels and its module stand ready. -/
def runReady (k : RunKind) (wrap : Nat) (s : State) : State :=
  startChans (useModule (moduleOf wrap) ((needDomains 80 8 (needDomains 0 64 (s.onWvn fun w => { w with run := k }))).onStp fun p =>
    { p with latWrap := wrap, latRead := (k != .writing) }))

theorem runReady_startsOnly (k : RunKind) (wrap : Nat) (s : State) : startsOnly s (runReady k wrap s) := by
  refine startsOnly.trans (.inl ?_) (.of_kept (startChans_kept (msk := allBut .stpMode) rfl
    (useModule_kept (moduleOf wrap) rfl (Kept.refl _ _))) rfl)
  rfl

theorem beginRun_startsOnly (k : RunKind) (wrap slot : Nat) (s : State) : startsOnly s (beginRun k wrap slot s) := by
  refine (runReady_startsOnly k wrap s).trans ?_
  change startsOnly (runReady k wrap s) (if programAllowed (runReady k wrap s) 2 then _ else _)
  split
  · refine startsOnly.trans ?_ (startTape_startsOnly _ _ _)
    refine startsOnly.trans ?_ (setWvn_startsOnly _ _)
    exact askRatio_startsOnly _ ((runReady k wrap s).onWvn _)
  · exact startTape_startsOnly _ _ _

theorem restart_startsOnly (s : State) : startsOnly s (restart s) := by
  unfold restart
  dsimp only
  split
  · refine startsOnly.trans ?_ (startTape_startsOnly _ _ _)
    refine startsOnly.trans ?_ (setWvn_startsOnly _ _)
    exact askRatio_startsOnly _ (s.onWvn _)
  · exact startTape_startsOnly _ _ _

theorem restartIfAsked_startsOnly (b : Bool) (s : State) : startsOnly s (restartIfAsked b s) :=
  .ite (.ite (restart_startsOnly s) (.refl s)) (.refl s)

theorem startQueued_startsOnly (s : State) : startsOnly s (startQueued s) := by
  unfold startQueued
  split
  · exact .ite (startProgram_startsOnly _ _ _ _ _ s) (.refl s)
  · exact .refl s

theorem resumeRuns_startsOnly (s : State) : startsOnly s (resumeRuns s) := by
  unfold resumeRuns
  split
  · split
    · split
      · exact .inl rfl
      · exact beginRun_startsOnly _ _ _ s
    · exact restart_startsOnly s
    all_goals exact .refl s
  · exact .refl s

theorem kickWrites_startsOnly (retry : Bool) (s : State) : startsOnly s (kickWrites retry s) := by
  unfold kickWrites
  split
  · exact .refl s
  next d _ =>
    have hwrap := startsOnly.of_kept (enterWrap_kept d (Nat.or_self _) (Kept.refl _ s)) rfl
    have hopen := startsOnly.of_kept (openSession_kept (Nat.or_self _) (Kept.refl _ s)) rfl
    exact .ite (.ite (hwrap.trans (beginRun_startsOnly _ _ _ _)) hopen) (.refl s)

theorem stillAgain_startsOnly (s : State) : startsOnly s (stillAgain s) :=
  (startQueued_startsOnly s).trans ((resumeRuns_startsOnly _).trans (kickWrites_startsOnly true _))

end Sys2Proof.Machine
end

section
/-! PROOF. Feedback lost, the hold and the controlled stop that follow, and a band alone (R190, R193, R194, R196). -/

namespace Sys2Proof.Machine

/-! ## The speed's source changes -/

/-- A hand-over presets the law that comes in, and a gap left to ramp raises HANDOVER (R191). -/
theorem handOverFrom_cases (uPrev dOut : Rat) (lin : Nat) (e ff rc t : Rat) (s : State) : ∃ st : LawState,
    handOverFrom uPrev dOut lin e ff rc t s = setLaw lin st s ∨
    handOverFrom uPrev dOut lin e ff rc t s =
      inhibitOn .handover ((setLaw lin st s).onStp fun p => { p with cntHandover := inc p.cntHandover }) := by
  unfold handOverFrom
  extract_lets b slew lim dIn base preset gap n old s1
  refine ⟨{ old with integ := preset, uLast := uPrev + gap, gap := gap, rampN := n, rampM := 0 }, ?_⟩
  by_cases h : n = 0
  · exact .inl (if_pos h)
  · exact .inr (if_neg h)

/-- A source of the write inhibit may become active then, and none clears. -/
theorem handOverFrom_source (uPrev dOut : Rat) (lin : Nat) (e ff rc t : Rat) {s : State} {i : Nat} (h : s.wr.sources.getLsbD i = true) :
    (handOverFrom uPrev dOut lin e ff rc t s).wr.sources.getLsbD i = true := by
  obtain ⟨st, hst | hst⟩ := handOverFrom_cases uPrev dOut lin e ff rc t s
  · rw [hst]
    exact h
  · rw [hst, inhibitOn_source]
    exact (Bool.or_eq_true ..).mpr (.inl h)

theorem speedBy_source (servo : Bool) {s : State} {i : Nat} (h : s.wr.sources.getLsbD i = true) :
    (speedBy servo s).wr.sources.getLsbD i = true := by
  have hover : (if driving s then speedHandOver s else s).wr.sources.getLsbD i = true := by
    split
    · exact handOverFrom_source _ _ _ _ _ _ _ h
    · exact h
  unfold speedBy
  split
  · exact h
  · exact hover

/-! ## FB_HOLD (R190, R193) -/

/-- FB_HOLD holds the mode it came from. -/
def held (s : State) : State :=
  (inhibitOn .feedback s).onStp fun p => { p with
    heldMode := p.mode, mode := .fbHold, holdFrom := s.power.time, holdGood := 0, cntHold := inc p.cntHold }

theorem enterHold_moving {s : State} (h : s.stp.mode = .move ∨ s.stp.mode = .track) :
    enterHold s = speedBy false (stpRecord 1 (held s)) := by
  rcases h with h | h <;> simp only [enterHold, h] <;> rfl

theorem enterHold_resting {s : State} (hmove : s.stp.mode ≠ .move) (htrack : s.stp.mode ≠ .track) : enterHold s = inhibitOn .feedback s := by
  unfold enterHold
  split
  · contradiction
  · contradiction
  · rfl

theorem enterHold_feedback (s : State) : (enterHold s).wr.sources.getLsbD (sourceBit .feedback) = true := by
  by_cases h : s.stp.mode = .move ∨ s.stp.mode = .track
  · rw [enterHold_moving h]
    exact speedBy_source _ (by rw [stpRecord_wr]; exact inhibitOn_active .feedback s)
  · obtain ⟨hmove, htrack⟩ := not_or.mp h
    rw [enterHold_resting hmove htrack]
    exact inhibitOn_active .feedback s

theorem enterHold_holds {s : State} (h : s.stp.mode = .move ∨ s.stp.mode = .track) :
    (enterHold s).stp.mode = .fbHold ∧ (enterHold s).stp.heldMode = s.stp.mode ∧ (enterHold s).stp.holdFrom = s.power.time ∧
    (enterHold s).stp.cntHold = inc s.stp.cntHold := by
  have hspeed := speedBy_kept false (Nat.or_self _) (Kept.refl _ (stpRecord 1 (held s)))
  rw [enterHold_moving h]
  refine ⟨(hspeed.same .stpMode rfl).trans ?_, (hspeed.same .stpHeldMode rfl).trans ?_,
    (hspeed.same .stpHoldFrom rfl).trans ?_, (hspeed.same .stpCntHold rfl).trans ?_⟩
  all_goals simp [held]

theorem exec_feedbackLost {s : State} (hl : live s = true) : exec .feedbackLost s = .next (enterHold s) := goLive_of_live _ hl

/-! ## FB_HOLD_TIMEOUT (R196) -/

/-- The hold is over: FB_STOP, with no program. -/
def holdOver (s : State) : State :=
  (setMode .fbStop (advanceTo (s.stp.holdFrom + 8 * msTicks) s)).onStp fun p =>
    { p with program := { p.program with running := false, waiting := false, due := none } }

theorem holdTimeout_eq {s : State} (h : s.stp.mode = .fbHold) : holdTimeout s = brakeIfBlind (controlledStop (aStop s) (holdOver s)) := by
  rw [holdTimeout, if_pos h]
  rfl

/-- The reels are braked open-loop only when no encoder is left (R196). -/
theorem brakeIfBlind_brakeUntil (s : State) :
    (brakeIfBlind s).stp.brakeUntil = s.stp.brakeUntil ∨ ∀ i : Fin 2, s.stp.reels[i].ok = false := by
  unfold brakeIfBlind
  split
  next h =>
    obtain ⟨-, -, hreels⟩ := h
    refine .inr fun i => Bool.eq_false_iff.mpr fun hok => ?_
    have hany : s.stp.reels.toList.any (·.ok) = true := List.any_eq_true.mpr ⟨s.stp.reels[i], by simp, hok⟩
    simp [hany] at hreels
  next => exact .inl rfl

/-- What braking does not touch. -/
theorem brakeIfBlind_stops (s : State) : (brakeIfBlind s).stp.mode = s.stp.mode ∧ (brakeIfBlind s).stp.stopping = s.stp.stopping ∧
    (brakeIfBlind s).stp.vSet = s.stp.vSet ∧ (brakeIfBlind s).stp.program = s.stp.program ∧ (brakeIfBlind s).stp.cntStop = s.stp.cntStop ∧
    (brakeIfBlind s).power.time = s.power.time := by
  have hbrake := brakeIfBlind_kept (Nat.or_self _) (Kept.refl _ s)
  exact ⟨hbrake.same .stpMode rfl, hbrake.same .stpStopping rfl, hbrake.same .stpVSet rfl,
    hbrake.same .stpProgram rfl, hbrake.same .stpCntStop rfl, hbrake.same .powerTime rfl⟩

theorem holdTimeout_stops {s : State} (h : s.stp.mode = .fbHold) :
    (holdTimeout s).stp.mode = .fbStop ∧ (holdTimeout s).stp.stopping = some (aStop s) ∧ (holdTimeout s).stp.vSet = 0 ∧
    (holdTimeout s).stp.program.running = false ∧ (holdTimeout s).stp.cntStop = inc s.stp.cntStop ∧
    (holdTimeout s).power.time = max s.power.time (s.stp.holdFrom + 8 * msTicks) := by
  obtain ⟨hmode, hstopping, hvSet, hprogram, hcntStop, htime⟩ := brakeIfBlind_stops (controlledStop (aStop s) (holdOver s))
  have hstop := controlledStop_kept (aStop s) (Nat.or_self _) (Kept.refl _ (holdOver s))
  rw [holdTimeout_eq h, hmode, hstopping, hvSet, hprogram, hcntStop, htime, hstop.same .powerTime rfl, controlledStop_stp]
  exact ⟨rfl, rfl, rfl, rfl, rfl, rfl⟩

theorem holdTimeout_brakeUntil {s : State} (h : s.stp.mode = .fbHold) :
    (holdTimeout s).stp.brakeUntil = s.stp.brakeUntil ∨ ∀ i : Fin 2, s.stp.reels[i].ok = false := by
  have hbrake := brakeIfBlind_brakeUntil (controlledStop (aStop s) (holdOver s))
  rw [controlledStop_stp] at hbrake
  rwa [holdTimeout_eq h]

/-! ## CONTROLLED_STOP_DONE (R190, R196) -/

theorem stopEnds_running {s : State} (h : s.stp.stopping = none ∨ (s.stp.brakeUntil = none ∧ tapeStopped s = false)) : stopEnds s = s := by
  rcases h with h | ⟨hbrake, hstopped⟩
  · simp [stopEnds, h]
  · simp [stopEnds, hbrake, hstopped]

/-- A braked reel's time is over: the enables go low, and the tape stands. -/
def brakeOver (b : Nat) (s : State) : State := setEnables 0 ((advanceTo b s).onStp fun p => { p with v := 0 })

theorem stopEnds_braked {b : Nat} {s : State} (hs : s.stp.stopping ≠ none) (hb : s.stp.brakeUntil = some b) :
    stopEnds s = stopDone (brakeOver b s) := by
  simp [stopEnds, hs, hb, brakeOver]

theorem stopEnds_stopped {s : State} (hs : s.stp.stopping ≠ none) (hb : s.stp.brakeUntil = none) (ht : tapeStopped s = true) :
    stopEnds s = stopDone s := by
  simp [stopEnds, hs, hb, ht]

/-- Steeple stands in STILL, before what waits for that starts again. -/
def stopRecorded (s : State) : State :=
  if s.stp.mode == .fbStop then stpEvent (enterStill (parkRun s)) else enterStill (parkRun s)

theorem stopDone_eq (s : State) : stopDone s = stillAgain (stopRecorded s) := rfl

theorem stopRecorded_stp (s : State) : (stopRecorded s).stp = (enterStill (parkRun s)).stp := by
  unfold stopRecorded
  split
  · exact stpEvent_stp _
  · rfl

/-- The tape at rest: Steeple stands in STILL, or what waited for that has started the tape. -/
theorem stopDone_rests (s : State) : (stopDone s).stp.stopping = none ∧ (stopDone s).stp.brakeUntil = none ∧ (stopDone s).stp.latLaw = 0 ∧
    (stopDone s).stp.reelLaw = 4 ∧ ((stopDone s).stp.mode = .still ∨ (stopDone s).stp.mode = .move) := by
  have hagain := stillAgain_kept (Nat.or_self _) (Kept.refl _ (stopRecorded s))
  rw [stopDone_eq, hagain.same .stpStopping rfl, hagain.same .stpBrakeUntil rfl,
    hagain.same .stpLatLaw rfl, hagain.same .stpReelLaw rfl, stopRecorded_stp]
  refine ⟨rfl, rfl, rfl, rfl, (stillAgain_startsOnly _).still ?_⟩
  rw [stopRecorded_stp]
  rfl

theorem stopDone_leaves (s : State) : (stopDone s).pins.motEn = s.pins.motEn ∧ (stopDone s).stp.v = s.stp.v ∧
    (stopDone s).power.time = s.power.time := by
  have hdone := stopDone_kept (Nat.or_self _) (Kept.refl _ s)
  exact ⟨hdone.same .pinsMotEn rfl, hdone.same .stpV rfl, hdone.same .powerTime rfl⟩

/-- The end of a controlled stop: at rest, and after open-loop braking with the enables low (R196). -/
theorem stopEnds_rests {s : State} (hs : s.stp.stopping ≠ none) (h : s.stp.brakeUntil ≠ none ∨ tapeStopped s = true) :
    ((stopEnds s).stp.stopping = none ∧ (stopEnds s).stp.brakeUntil = none ∧ (stopEnds s).stp.latLaw = 0 ∧
      (stopEnds s).stp.reelLaw = 4 ∧ ((stopEnds s).stp.mode = .still ∨ (stopEnds s).stp.mode = .move)) ∧
    ∀ b, s.stp.brakeUntil = some b → (stopEnds s).pins.motEn = 0 ∧ (stopEnds s).stp.v = 0 ∧ (stopEnds s).power.time = max s.power.time b := by
  cases hb : s.stp.brakeUntil with
  | some b =>
    rw [stopEnds_braked hs hb]
    refine ⟨stopDone_rests _, fun b' hb' => ?_⟩
    obtain rfl : b = b' := by injection hb'
    exact stopDone_leaves (brakeOver b s)
  | none =>
    rw [stopEnds_stopped hs hb (h.resolve_left fun hne => hne hb)]
    exact ⟨stopDone_rests s, fun b hb' => nomatch hb'⟩

/-! ## ONE_BAND_TIMEOUT (R194) -/

theorem exec_oneBandTimeout_none {s : State} (h : s.stp.oneBand = none) : exec .oneBandTimeout s = .next s := by
  change execOneBandTimeout s = _
  exact goLive_of_fixed (by simp only [h])

theorem exec_oneBandTimeout {s : State} {b : Nat} (hl : live s = true) (h : s.stp.oneBand = some b) :
    exec .oneBandTimeout s = .next (inhibitOn .feedback (advanceTo (b + 2000 * msTicks) s)) := by
  change execOneBandTimeout s = _
  rw [execOneBandTimeout, goLive_of_live _ hl, h]

theorem inhibitOn_time (src : InhibitSource) (s : State) : (inhibitOn src s).power.time = s.power.time :=
  (inhibitOn_kept src (Nat.or_self _) (Kept.refl _ s)).same .powerTime rfl

end Sys2Proof.Machine
end

section
/-! PROOF. An encoder's edges and its index pulses (R186, R193, R195). -/

namespace Sys2Proof.Machine

@[simp] theorem onReel_reels (i : Nat) (f : Reel → Reel) (s : State) : (onReel i f s).stp.reels = updAt s.stp.reels i f := rfl

/-! ## An encoder lost (R195) -/

/-- What is left of a lost encoder's reel. -/
def lostReel (r : Reel) : Reel := { r with ok := false, indexed := false, cleanRevs := 0, cps := 0, predicted := 0 }

theorem dropEncoder_reels (i : Nat) (s : State) : (dropEncoder i s).stp.reels = updAt s.stp.reels i lostReel := by
  unfold dropEncoder
  dsimp only
  split
  · rw [noteOut_stp]
    rfl
  · rfl

theorem loseEncoder_reels (i : Nat) (s : State) : (loseEncoder i s).stp.reels = updAt s.stp.reels i lostReel :=
  ((brakeIfBlind_kept (Nat.or_self _) (Kept.refl _ _)).same .stpReels rfl).trans (dropEncoder_reels i s)

/-! ## ENCODER_EDGE (R195) -/

theorem quadrature_unit (r : Reel) (a b : Bool) : quadrature r a b = 1 ∨ quadrature r a b = -1 := by
  unfold quadrature
  split <;> split <;> decide

section
variable {i : Fin 2} {a b : Bool} {s : State}

theorem encoderEdge_same (ha : s.stp.reels[i].a = a) (hb : s.stp.reels[i].b = b) : encoderEdge i a b s = s := by
  simp [encoderEdge, getAt_fin, -Fin.getElem_fin, ha, hb]

theorem encoderEdge_both (ha : s.stp.reels[i].a ≠ a) (hb : s.stp.reels[i].b ≠ b) :
    encoderEdge i a b s = loseEncoder i (onReel i (fun r => { r with a := a, b := b }) s) := by
  simp [encoderEdge, getAt_fin, -Fin.getElem_fin, ha, hb]

theorem encoderEdge_one (h : s.stp.reels[i].a = a ↔ s.stp.reels[i].b ≠ b) : encoderEdge i a b s = countEdge i a b s := by
  by_cases ha : s.stp.reels[i].a = a
  · simp [encoderEdge, getAt_fin, -Fin.getElem_fin, ha, h.mp ha]
  · simp [encoderEdge, getAt_fin, -Fin.getElem_fin, ha, not_not.mp (mt h.mpr ha)]

theorem exec_encoderEdge (hl : live s = true) : exec (.encoderEdge i a b) s = .next (encoderEdge i a b s) := goLive_of_live _ hl

end

/-- Both lines at once: the encoder is lost, and its lines are those sampled. -/
theorem edge_loses (i : Fin 2) (a b : Bool) (s : State) :
    let r := (loseEncoder i (onReel i (fun r => { r with a := a, b := b }) s)).stp.reels[i]
    r.ok = false ∧ r.a = a ∧ r.b = b ∧ r.cps = 0 := by
  rw [loseEncoder_reels, onReel_reels, getElem_updAt_same, getElem_updAt_same]
  exact ⟨rfl, rfl, rfl, rfl⟩

/-- One count: the lines, the time of the edge and the count. -/
theorem countEdge_counts (i : Fin 2) (a b : Bool) (s : State) :
    let r := (countEdge i a b s).stp.reels[i]
    r.a = a ∧ r.b = b ∧ r.edgeAt = s.power.time ∧ r.count = s.stp.reels[i].count + quadrature s.stp.reels[i] a b := by
  have htravel : ∀ t, (readersTravel i t).stp.reels = t.stp.reels := fun t =>
    (readersTravel_kept i (Nat.or_self _) (Kept.refl _ t)).same .stpReels rfl
  unfold countEdge
  dsimp only
  rw [htravel, onReel_reels, getElem_updAt_same, getAt_fin]
  exact ⟨rfl, rfl, rfl, rfl⟩

/-! ## ENCODER_INDEX_PULSE (R186, R195) -/

/-- The count between two pulses is a revolution's, within 4. -/
def revClean (s : State) (r : Reel) : Bool :=
  decide (((r.count.natAbs : Rat) - plantOf s .encCpr) ≤ 4) && decide (plantOf s .encCpr - (r.count.natAbs : Rat) ≤ 4)

theorem revClean_iff (s : State) (r : Reel) : revClean s r = true ↔
    -4 ≤ (r.count.natAbs : Rat) - plantOf s .encCpr ∧ (r.count.natAbs : Rat) - plantOf s .encCpr ≤ 4 := by
  rw [revClean, Bool.and_eq_true, decide_eq_true_iff, decide_eq_true_iff]
  constructor <;> rintro ⟨hlow, hhigh⟩ <;> constructor <;> linarith

/-- A reel whose next revolution starts, with its encoder in use or not. -/
def freshReel (n : Nat) (ok : Bool) (rad : Rat) (r : Reel) : Reel :=
  { r with indexed := true, count := 0, angle := 0, travel := 0, cleanRevs := n, ok := ok, radius := rad }

/-- What a pulse does to its reel: the first one, one after a clean revolution, one that loses the encoder, and one that finds it lost. -/
def reelPulsed (s : State) (r : Reel) : Reel → Reel :=
  if !r.indexed then freshReel 0 r.ok r.radius
  else if revClean s r && (r.ok || servoAgrees s r) then
    freshReel (r.cleanRevs + 1) (r.ok || decide (4 ≤ r.cleanRevs + 1)) (if r.ok then radiusNow s r else r.radius)
  else if r.ok then fun x => { lostReel x with indexed := true, count := 0, angle := 0, travel := 0 }
  else freshReel 0 false r.radius

theorem updAt_updAt {α : Type} {n : Nat} (v : Vector α n) (i : Fin n) (f g : α → α) :
    updAt (updAt v i.val f) i.val g = updAt v i.val fun x => g (f x) := by
  simp [updAt]

/-- Only the reel of the pulse changes. -/
theorem indexPulse_reels (i : Fin 2) (s : State) :
    (indexPulse i s).stp.reels = updAt s.stp.reels i (reelPulsed s s.stp.reels[i]) := by
  unfold indexPulse reelPulsed
  rw [getAt_fin]
  generalize s.stp.reels[i] = r
  dsimp only
  split
  · rfl
  · split
    next h =>
      have hif : revClean s r && (r.ok || servoAgrees s r) := h
      rw [if_pos hif]
      split
      · rw [noteBack_stp]
        rfl
      · rfl
    next h =>
      have hif : ¬ (revClean s r && (r.ok || servoAgrees s r)) := h
      rw [if_neg hif]
      split
      · rw [onReel_reels, loseEncoder_reels, updAt_updAt]
      · rfl

/-- A pulse starts the next revolution. -/
theorem reelPulsed_pulsed (s : State) (r : Reel) :
    (reelPulsed s r r).indexed = true ∧ (reelPulsed s r r).count = 0 ∧ (reelPulsed s r r).travel = 0 := by
  unfold reelPulsed
  split
  · exact ⟨rfl, rfl, rfl⟩
  · split
    · exact ⟨rfl, rfl, rfl⟩
    · split <;> exact ⟨rfl, rfl, rfl⟩

/-- Whether the encoder is in use after the pulse: as before its first pulse, and from then on only while the count is clean, a lost one
with the servo's agreement and at its fourth clean revolution. -/
theorem reelPulsed_ok (s : State) (r : Reel) : (reelPulsed s r r).ok = true ↔
    if r.indexed then revClean s r = true ∧ (r.ok = true ∨ (servoAgrees s r = true ∧ 3 ≤ r.cleanRevs)) else r.ok = true := by
  unfold reelPulsed
  cases hidx : r.indexed
  · simp [freshReel]
  · cases hclean : revClean s r <;> cases hok : r.ok
    · simp [freshReel]
    · simp [lostReel]
    · cases hagrees : servoAgrees s r <;> simp [freshReel]
    · simp [freshReel]

theorem exec_encoderIndexPulse {i : Fin 2} {s : State} (hl : live s = true) : exec (.encoderIndexPulse i) s = .next (indexPulse i s) :=
  goLive_of_live _ hl

end Sys2Proof.Machine
end

section
/-! PROOF. What is said on the pins and links is not taken back: the outputs of records, requests, inhibits and torques add to those before
(R105, R170, R376, R381). -/

namespace Sys2Proof.Machine

theorem out_le_of_kept {s t : State} (h : Kept (allBut .out) s t) : s.out.length ≤ t.out.length :=
  (congrArg List.length (h.same .out rfl)).ge

theorem out_le_forEach {α : Type} (l : List α) {f : α → State → State} (hf : ∀ x t, t.out.length ≤ (f x t).out.length) (s : State) :
    s.out.length ≤ (forEach l f s).out.length :=
  forEach_preserves (P := fun t => s.out.length ≤ t.out.length) l (fun x t ht => ht.trans (hf x t)) le_rfl

theorem out_le_emit (o : Out) (s : State) : s.out.length + 1 ≤ (emit o s).out.length := by
  simp [emit]

/-! ## Requests and records -/

theorem out_le_offers (s : State) : s.out.length ≤ (offers s).out.length := by
  refine out_le_forEach _ (fun c t => ?_) s
  dsimp only
  split
  · exact le_rfl
  · split
    · exact Nat.le_of_succ_le (out_le_emit _ _)
    · exact le_rfl

theorem out_le_raise (n : Nat) (s : State) : s.out.length ≤ (raise n s).out.length := by
  unfold raise
  split
  · exact le_rfl
  · exact out_le_offers (State.onBlf _ s)

theorem out_le_msix (p : Port) (v : Nat) (s : State) : s.out.length ≤ (msix p v s).out.length := by
  unfold msix
  split
  · exact Nat.le_of_succ_le (out_le_emit _ _)
  · exact out_le_of_kept (onPort_kept p _ rfl (Kept.refl _ s))

theorem out_le_lanEvent (code cls : Nat) (data : Bytes) (s : State) : s.out.length ≤ (lanEvent code cls data s).out.length := by
  unfold lanEvent
  split
  · refine out_le_forEach [Port.a, Port.b] (fun p t => ?_) (State.onLantern _ s)
    split
    · exact out_le_msix p 256 t
    · exact le_rfl
  · exact le_rfl

theorem out_le_lanWrite (code cls sup : Nat) (data : Bytes) (s : State) : s.out.length ≤ (lanWrite code cls sup data s).out.length := by
  have hfire : ∀ t, t.out.length ≤ (lanFire code t).out.length := fun t =>
    (out_le_lanEvent 0x0091 2 (le 2 code) (State.onLantern _ t)).trans (out_le_raise 109 (lanEvent _ _ _ _))
  unfold lanWrite
  lift_lets
  intro hit post s1 s2
  have hevent : s.out.length ≤ s2.out.length := out_le_lanEvent code cls data s1
  split
  · exact hevent.trans (hfire s2)
  · exact hevent

theorem out_le_lantern (code : Nat) (data : Bytes) (s : State) : s.out.length ≤ (lantern code data s).out.length := by
  unfold lantern
  dsimp only
  split
  · exact out_le_lanWrite _ _ _ _ s
  · split
    · exact le_rfl
    · split
      · exact out_le_lanWrite _ _ _ _ (State.onLantern _ (s.onLantern _))
      · exact le_rfl

/-! ## The write inhibit -/

theorem out_le_haltToken (g : Fin 8) (s : State) : s.out.length ≤ (haltToken g s).out.length := by
  refine out_le_forEach _ (fun lane t => ?_) s
  unfold hlSend
  exact (out_le_of_kept (onGroup_kept g _ rfl (Kept.refl _ t))).trans (Nat.le_of_succ_le (out_le_emit _ (onGroup _ _ t)))

theorem out_le_hitCommit (c : Commit) (s : State) : s.out.length ≤ (hitCommit c s).out.length := by
  have hlost : s.out.length ≤ (lostAfterRelease c s).out.length := by
    unfold lostAfterRelease
    split
    · exact le_rfl
    · exact out_le_lantern _ _ s
  unfold hitCommit
  split
  · split
    · exact le_rfl
    · exact out_le_of_kept (needRewrite_kept c.id rfl (Kept.refl _ s))
  · exact hlost

theorem out_le_cutCommits (s : State) : s.out.length ≤ (cutCommits s).out.length := by
  unfold cutCommits
  extract_lets late hit first s1 s2 s3
  have hencoded : s.out.length ≤ s2.out.length :=
    out_le_forEach first (fun (c : Commit) t => out_le_of_kept (onSet_kept c.id _ rfl (Kept.refl _ t)))
      (State.onEcc _ s1)
  have htape : (forEach hit hitCommit s2).out.length ≤ s3.out.length := out_le_of_kept (onTape_kept _ rfl (Kept.refl _ _))
  exact hencoded.trans ((out_le_forEach hit out_le_hitCommit s2).trans htape)

theorem out_le_stopTokens (s : State) : s.out.length ≤ (stopTokens s).out.length := by
  unfold stopTokens
  split
  · exact (out_le_cutCommits (State.onWr _ s)).trans (out_le_forEach _ out_le_haltToken _)
  · exact le_rfl

theorem out_le_inhibitOn (src : InhibitSource) (s : State) : s.out.length ≤ (inhibitOn src s).out.length := by
  unfold inhibitOn
  extract_lets i fresh s1 s2
  have hstop : s.out.length ≤ s2.out.length := out_le_stopTokens (State.onEcc _ s1)
  split
  · exact le_rfl
  · split
    · exact hstop.trans (out_le_lantern _ _ s2)
    · exact le_rfl

theorem out_le_inhibitOff (src : InhibitSource) (s : State) : s.out.length ≤ (inhibitOff src s).out.length :=
  out_le_of_kept (inhibitOff_kept src rfl (Kept.refl _ s))

theorem out_le_inhibitIf (src : InhibitSource) (b : Bool) (s : State) : s.out.length ≤ (inhibitIf src b s).out.length := by
  cases b
  · exact out_le_inhibitOff src s
  · exact out_le_inhibitOn src s

theorem out_le_handOverFrom (uPrev dOut : Rat) (lin : Nat) (e ff rc t : Rat) (s : State) :
    s.out.length ≤ (handOverFrom uPrev dOut lin e ff rc t s).out.length := by
  obtain ⟨st, hst | hst⟩ := handOverFrom_cases uPrev dOut lin e ff rc t s
  · rw [hst]
    exact le_rfl
  · rw [hst]
    exact out_le_inhibitOn .handover (State.onStp _ (setLaw lin st s))

theorem out_le_speedBy (servo : Bool) (s : State) : s.out.length ≤ (speedBy servo s).out.length := by
  unfold speedBy
  split
  · exact le_rfl
  · split
    · exact out_le_handOverFrom _ _ _ _ _ _ _ s
    · exact le_rfl

/-! ## Frames to the stages -/

theorem out_le_driveFrame (i : Nat) (f : BitVec 32) (s : State) : s.out.length + 1 ≤ (driveFrame i f s).out.length := out_le_emit _ _

theorem out_le_sendMotion (i cmd : Nat) (value : Int) (s : State) : s.out.length + 1 ≤ (sendMotion i cmd value s).out.length := by
  unfold sendMotion
  dsimp only
  refine le_trans (Nat.succ_le_succ ?_) (out_le_driveFrame _ _ _)
  exact out_le_forEach _ (fun f t => Nat.le_of_succ_le (out_le_driveFrame i f t)) (s.onStp _)

theorem out_le_stepperFrame (k : Int) (s : State) : s.out.length ≤ (stepperFrame k s).out.length := by
  unfold stepperFrame
  split
  · exact le_rfl
  · exact Nat.le_of_succ_le (out_le_sendMotion 3 2 k s)

theorem out_le_lateralLoop (s : State) : s.out.length ≤ (lateralLoop s).1.out.length := by
  have hdesat : ∀ u v t, t.out.length ≤ (desaturate u v t).2.out.length := fun u v t =>
    out_le_of_kept (desaturate_kept u v rfl (Kept.refl _ t))
  have hfeed : ∀ i x t, t.out.length ≤ (rcFeed i x t).out.length := fun i x t =>
    out_le_of_kept (rcFeed_kept i x rfl (Kept.refl _ t))
  unfold lateralLoop
  extract_lets hold est s0 e v l due k d ff r s1 s2
  split
  · exact Nat.le_of_succ_le (out_le_sendMotion 2 1 0 (State.onStp _ s0))
  · have hd : s.out.length ≤ d.2.out.length := hdesat s0.stp.vcm v s0
    have hlaw : d.2.out.length ≤ s1.out.length := hfeed 0 (lawTerms d.2 l e).x (setLaw l r.2 d.2)
    have hvcm : s1.out.length ≤ s2.out.length := (congrArg List.length (State.onStp_out _ s1)).ge
    exact (hd.trans hlaw).trans (hvcm.trans (Nat.le_of_succ_le (out_le_sendMotion 2 1 _ s2)))

/-- Each reel's stage is sent its torque. -/
theorem out_le_reelLoop (posErr : Rat) (s : State) : s.out.length + 2 ≤ (reelLoop posErr s).out.length := by
  have hfeed : ∀ i x t, t.out.length ≤ (rcFeed i x t).out.length := fun i x t =>
    out_le_of_kept (rcFeed_kept i x rfl (Kept.refl _ t))
  unfold reelLoop
  extract_lets b t fw d sup tu rT rS jT jS supReel om alphaS iS fEst fSet nr vRef aRef ev hold rv rf fMin fMax a tau hld wt ws cur s1 s2 s3 sgn
  have hlaws : s.out.length ≤ s3.out.length := by
    have hlaw5 : s2.out = s1.out := by
      simp only [s2]
      split <;> rfl
    exact (hfeed 1 _ (setLaw 4 rv.2 s)).trans (congrArg List.length hlaw5).ge
  exact (Nat.succ_le_succ (Nat.succ_le_succ hlaws)).trans
    ((Nat.succ_le_succ (out_le_sendMotion tu 1 _ s3)).trans (out_le_sendMotion sup 1 _ (sendMotion tu 1 _ s3)))

end Sys2Proof.Machine
end

section
/-! PROOF. The loops without a usable reader: REEL_LOOP_TICK (R176, R186, R193, R196). -/

namespace Sys2Proof.Machine

/-- A reel whose encoder has given no edge for 10 ms stands still. -/
def stillReels (s : State) : State :=
  { s with stp := { s.stp with reels := s.stp.reels.map fun r => if reelStill s r then { r with cps := 0 } else r } }

/-- The speed is that of the encoders. -/
def speedOnEncoders (s : State) : State := speedBy false (takeSpeed false (encoderSpeed (stillReels s)) (stillReels s))

/-- The speed and the position are. -/
def onEncoders (s : State) : State := speedSource (encoderPosition (encoderSpeed (stillReels s)) (speedOnEncoders s))

/-- The loops that then run: in FB_HOLD the lateral loop, and the reel loop unless the reels are braked open-loop. -/
def loopsOnEncoders (s : State) : State :=
  let l := if s.stp.mode = .fbHold then lateralLoop s else (s, 0)
  let t := stepperFrame l.2 (if s.stp.brakeUntil.isSome then l.1 else reelLoop (positionError l.1) l.1)
  takeBand (if ramping t then t else inhibitOff .handover t)

/-- When the tick has something to do. -/
def onEncodersOnly (s : State) : Prop := usableReaders s = [] ∨ s.stp.mode = .fbHold ∨ s.stp.mode = .fbStop

theorem reelTick_idle {s : State}
    (h : driving s = false ∨ (usableReaders s ≠ [] ∧ s.stp.mode ≠ .fbHold ∧ s.stp.mode ≠ .fbStop)) : reelTick s = s := by
  refine if_neg ?_
  rcases h with h | ⟨hreaders, hhold, hstop⟩
  · simp [h]
  · simp [hreaders, hhold, hstop]

theorem reelTick_drives {s : State} (hd : driving s = true) (h : onEncodersOnly s) : reelTick s = loopsOnEncoders (onEncoders s) :=
  if_pos ⟨hd, h.imp_left List.isEmpty_iff.mpr⟩

/-! ## The speed, the position and the mode -/

theorem onEncoders_measures (s : State) : (onEncoders s).stp.v = encoderSpeed (stillReels s) ∧ (onEncoders s).stp.lposValid = false ∧
    (onEncoders s).stp.mode = s.stp.mode ∧ (onEncoders s).stp.brakeUntil = s.stp.brakeUntil := by
  have hspeed := speedBy_kept false (Nat.or_self _) (Kept.refl _ (takeSpeed false (encoderSpeed (stillReels s)) (stillReels s)))
  have hpos := encoderPosition_kept (encoderSpeed (stillReels s)) (Nat.or_self _) (Kept.refl _ (speedOnEncoders s))
  rw [onEncoders, speedSource, inhibitIf_stp]
  exact ⟨(hpos.same .stpV rfl).trans (hspeed.same .stpV rfl), rfl, (hpos.same .stpMode rfl).trans (hspeed.same .stpMode rfl),
    (hpos.same .stpBrakeUntil rfl).trans (hspeed.same .stpBrakeUntil rfl)⟩

/-- Every field but v, L_pos's validity and the mode. -/
def allButMeasured : Nat := allBut .stpV &&& allBut .stpLposValid &&& allBut .stpMode

theorem loopsOnEncoders_kept (s : State) : Kept allButMeasured s (loopsOnEncoders s) := by
  unfold loopsOnEncoders
  extract_lets l t
  have hlateral : Kept allButMeasured s l.1 := by
    simp only [l]
    split
    · exact lateralLoop_kept rfl (Kept.refl _ s)
    · exact Kept.refl _ s
  have hloops : Kept allButMeasured s t := by
    refine stepperFrame_kept _ rfl ?_
    split
    · exact hlateral
    · exact reelLoop_kept _ rfl hlateral
  refine takeBand_kept rfl ?_
  split
  · exact hloops
  · exact inhibitOff_kept _ rfl hloops

/-- The tick leaves the mode, and takes its speed from the encoders. -/
theorem reelTick_measures {s : State} (hd : driving s = true) (h : onEncodersOnly s) :
    (reelTick s).stp.v = encoderSpeed (stillReels s) ∧ (reelTick s).stp.lposValid = false ∧ (reelTick s).stp.mode = s.stp.mode := by
  obtain ⟨hv, hpos, hmode, -⟩ := onEncoders_measures s
  have hloops := loopsOnEncoders_kept (onEncoders s)
  rw [reelTick_drives hd h]
  exact ⟨(hloops.same .stpV rfl).trans hv, (hloops.same .stpLposValid rfl).trans hpos,
    (hloops.same .stpMode rfl).trans hmode⟩

/-! ## The torques -/

theorem out_le_onEncoders (s : State) : s.out.length ≤ (onEncoders s).out.length := by
  have hspeed : s.out.length ≤ (speedOnEncoders s).out.length := out_le_speedBy false (takeSpeed false _ (stillReels s))
  have hpos := out_le_of_kept (encoderPosition_kept (encoderSpeed (stillReels s)) rfl (Kept.refl _ (speedOnEncoders s)))
  exact hspeed.trans (hpos.trans (out_le_inhibitIf .speed _ _))

/-- Unless the reels are braked open-loop, each gets its torque. -/
theorem out_le_loopsOnEncoders {s : State} (h : s.stp.brakeUntil = none) : s.out.length + 2 ≤ (loopsOnEncoders s).out.length := by
  unfold loopsOnEncoders
  extract_lets l t
  have hlateral : s.out.length ≤ l.1.out.length := by
    simp only [l]
    split
    · exact out_le_lateralLoop s
    · exact le_rfl
  have hloops : s.out.length + 2 ≤ t.out.length := by
    simp only [t, h, Option.isSome_none, Bool.false_eq_true, if_false]
    exact (Nat.add_le_add_right hlateral 2).trans ((out_le_reelLoop _ l.1).trans (out_le_stepperFrame l.2 _))
  change s.out.length + 2 ≤ (if ramping t then t else inhibitOff .handover t).out.length
  split
  · exact hloops
  · exact hloops.trans (out_le_inhibitOff .handover t)

theorem out_le_reelTick {s : State} (hd : driving s = true) (h : onEncodersOnly s) (hb : s.stp.brakeUntil = none) :
    s.out.length + 2 ≤ (reelTick s).out.length := by
  obtain ⟨-, -, -, hbrake⟩ := onEncoders_measures s
  rw [reelTick_drives hd h]
  exact (Nat.add_le_add_right (out_le_onEncoders s) 2).trans (out_le_loopsOnEncoders (hbrake.trans hb))

end Sys2Proof.Machine
end

section
/-! PROOF. Steeple's samples, feedback and stops, put together. -/

namespace Sys2Proof.Machine

/-- Settles O51, clause by clause: the servo frame's readers, feedback lost and its hold, the controlled stop, the encoders, and the tick
without a usable reader. -/
theorem samplesFeedbackAndStops : Obligations.SamplesFeedbackAndStops := by
  unfold Obligations.SamplesFeedbackAndStops
  refine ⟨?frame, ?samples, ?feedbackLost, ?holdTimeout, ?stopRuns, ?stopEnds, ?oneBand, ?edge, ?index, ?tick⟩
  case frame =>
    intro ps obs s hl
    exact exec_servoPacket obs hl
  case samples =>
    intro ps obs s hl hok
    exact ⟨_, exec_servoPacket_good obs hl hok, fun i => ⟨fun o ho => servoSample_marks ho, servoSample_misses⟩⟩
  case feedbackLost =>
    intro s hl
    refine ⟨_, exec_feedbackLost hl, enterHold_feedback s, enterHold_holds, fun hmove htrack => ?_⟩
    rw [enterHold_resting hmove htrack, inhibitOn_stp]
  case holdTimeout =>
    intro s
    refine ⟨fun h => goLive_of_fixed (if_neg h), fun hl h => ⟨_, goLive_of_live _ hl, ?_⟩⟩
    obtain ⟨hmode, hstopping, hvSet, hprogram, hcntStop, htime⟩ := holdTimeout_stops h
    exact ⟨hmode, hstopping, hvSet, hprogram, hcntStop, htime, holdTimeout_brakeUntil h⟩
  case stopRuns =>
    intro s h
    exact goLive_of_fixed (stopEnds_running h)
  case stopEnds =>
    intro s hl hs h
    obtain ⟨⟨hstopping, hbrake, hlat, hreel, hmode⟩, hbraked⟩ := stopEnds_rests hs h
    exact ⟨_, goLive_of_live _ hl, hstopping, hbrake, hlat, hreel, hmode, hbraked⟩
  case oneBand =>
    intro s
    exact ⟨exec_oneBandTimeout_none, fun hl b hb =>
      ⟨_, exec_oneBandTimeout hl hb, inhibitOn_active _ _, inhibitOn_time _ _, inhibitOn_stp _ _⟩⟩
  case edge =>
    intro i a b s
    refine ⟨fun ha hb => goLive_of_fixed (encoderEdge_same ha hb), fun hl ha hb => ⟨_, exec_encoderEdge hl, ?_⟩,
      fun hl h => ⟨_, exec_encoderEdge hl, ?_⟩⟩
    · rw [encoderEdge_both ha hb]
      exact edge_loses i a b s
    · obtain ⟨ha, hb, hat, hcount⟩ := countEdge_counts i a b s
      rw [encoderEdge_one h]
      exact ⟨ha, hb, hat, hcount, quadrature_unit _ a b⟩
  case index =>
    intro i s hl
    obtain ⟨hindexed, hcount, htravel⟩ := reelPulsed_pulsed s s.stp.reels[i]
    have hok := reelPulsed_ok s s.stp.reels[i]
    rw [revClean_iff, and_assoc] at hok
    refine ⟨_, exec_encoderIndexPulse hl, ?_⟩
    rw [indexPulse_reels, getElem_updAt_same]
    exact ⟨hindexed, hcount, htravel, hok, fun j hj => getElem_updAt_ne _ _ (Fin.val_ne_of_ne hj)⟩
  case tick =>
    intro s
    refine ⟨fun h => goLive_of_fixed (reelTick_idle h), fun hl hd h => ⟨_, goLive_of_live _ hl, ?_⟩⟩
    obtain ⟨hv, hpos, hmode⟩ := reelTick_measures hd h
    exact ⟨hv, hpos, hmode, out_le_reelTick hd h⟩

end Sys2Proof.Machine
end

section
/-! PROOF. What a tape that cannot move leaves of Steeple's mode (R445): the commands that wait for it end, and nothing starts. -/

namespace Sys2Proof.Machine

/-! ## The read run and its retries -/

theorem endRun_startsOnly (s : State) : startsOnly s (endRun s) := by
  have hidle : ∀ t, startsOnly s t → startsOnly s (idleChans (setWvn .idle (t.onWvn fun w =>
      { w with run := .none, r := 0, rPending := none, startDue := none, dwellMs := 0, refused := false }))) := fun t h =>
    h.trans ((setWvn_startsOnly .idle (t.onWvn _)).trans (.of_kept (idleChans_kept (Nat.or_self _) (Kept.refl _ _)) rfl))
  unfold endRun
  refine hidle _ ?_
  split
  · exact startProgram_startsOnly _ _ _ _ _ s
  · exact startProgram_startsOnly _ _ _ _ _ s
  · exact .refl s

theorem startPass_startsOnly (f : FailedSet) (k : Nat) (s : State) : startsOnly s (startPass f k s) := by
  unfold startPass
  lift_lets
  intro w m first last r v ofs s1 s2 s3
  have hpass : startsOnly s s2 := by
    refine (askRatio_startsOnly r (s1.onWvn fun x => { x with run := .retry })).trans (.of_kept (passChans_kept (msk := allBut .stpMode)
      rfl (useModule_kept m rfl (Kept.refl _ _))) rfl)
  have hvalues : startsOnly s2 s3 := .ite (.of_kept (frozenValues_kept (Nat.or_self _) (Kept.refl _ s2)) rfl) (.refl s2)
  exact hpass.trans (hvalues.trans (startProgram_startsOnly _ _ _ _ _ (s3.onStp _)))

theorem startRetry_startsOnly (s : State) : startsOnly s (startRetry s) := by
  unfold startRetry
  split
  · exact .refl s
  · have hkeep := startsOnly.of_kept (keepValues_kept (Nat.or_self _) (Kept.refl _ (s.onRd fun r => { r with menu := menuNow s })))
      rfl
    exact .ite (.inl rfl) (startsOnly.trans hkeep (startPass_startsOnly _ 0 _))

theorem stoppedForRetry_startsOnly (s : State) : startsOnly s (stoppedForRetry s) :=
  .ite (startRetry_startsOnly (s.onRd _)) (.refl s)

theorem retryFromIdle_startsOnly (s : State) : startsOnly s (retryFromIdle s) :=
  .ite ((setWvn_startsOnly .stopped (s.onWvn _)).trans (stoppedForRetry_startsOnly _)) (.refl s)

theorem wakePending_startsOnly (s : State) : startsOnly s (wakePending s) :=
  .ite ((restartIfAsked_startsOnly true s).trans (retryFromIdle_startsOnly _)) (.refl s)

theorem discardReadAhead_startsOnly (s : State) : startsOnly s (discardReadAhead s) :=
  .of_kept (discardReadAhead_kept (Nat.or_self _) (Kept.refl _ s)) rfl

theorem dropReads_startsOnly (s : State) : startsOnly s (dropReads s) :=
  (discardReadAhead_startsOnly s).trans (.ite (endRun_startsOnly _) (.refl _))

/-! ## Tape for a command (Table 05-3) -/

theorem endWrites_startsOnly (s : State) : startsOnly s (endWrites s) := by
  have heod : ∀ t, startsOnly t (forEach (List.range 4) (fun p t => if (partAt t p).dirty then stageEod p (eodLon t p) t else t) t) :=
    forEach_startsOnly _ fun p t => .ite (.of_kept (stageEod_kept p (eodLon t p) (Nat.or_self _) (Kept.refl _ t)) rfl) (.refl t)
  exact (heod s).trans (.ite ((restartIfAsked_startsOnly true _).trans (kickWrites_startsOnly true _)) (endRun_startsOnly _))

theorem startReadRun_startsOnly (p x : Nat) (s : State) : startsOnly s (startReadRun p x s) :=
  (discardReadAhead_startsOnly s).trans (beginRun_startsOnly .reading _ _ ((discardReadAhead s).onRd _))

theorem readFor_startsOnly (p x : Nat) (s : State) : startsOnly s (readFor p x s) := by
  unfold readFor
  split
  · exact beginRun_startsOnly .reading _ _ (s.onRd _)
  · exact startReadRun_startsOnly p x s

theorem needTape_startsOnly (c : Cmd) (x : Nat) (s : State) : startsOnly s (needTape c x s) := by
  unfold needTape
  dsimp only
  split
  · exact .ite (endWrites_startsOnly s) (readFor_startsOnly _ x s)
  · exact (endWrites_startsOnly s).trans (.ite (readFor_startsOnly _ x _) (.refl _))
  · exact .ite (.ite (restartIfAsked_startsOnly true s) ((endRun_startsOnly s).trans (readFor_startsOnly _ x _)))
      ((dropReads_startsOnly s).trans (startReadRun_startsOnly _ x _))
  · exact .refl s

/-! ## Serving a reading command -/

theorem endRead_startsOnly (c : Cmd) (st : Nat) (s : State) : startsOnly s (endRead c st s) :=
  .of_kept (endRead_kept c st (Nat.or_self _) (Kept.refl _ s)) rfl

theorem endAt_startsOnly (c : Cmd) (st : Nat) (s : State) : startsOnly s (endAt c st s) :=
  .of_kept (endAt_kept c st (Nat.or_self _) (Kept.refl _ s)) rfl

theorem onCmd_startsOnly (q tag : Nat) (f : Cmd → Cmd) (s : State) : startsOnly s (onCmd q tag f s) :=
  .of_kept (onCmd_kept q tag f (Nat.or_self _) (Kept.refl _ s)) rfl

theorem listEntry_startsOnly (c : Cmd) (x len kind : Nat) (group : Bool) (s : State) : startsOnly s (listEntry c x len kind group s) :=
  .of_kept (listEntry_kept c x len kind group (Nat.or_self _) (Kept.refl _ s)) rfl

theorem passObj_startsOnly (c : Cmd) (x next : Nat) (o : Obj) (s : State) : startsOnly s (passObj c x next o s) := by
  unfold passObj
  lift_lets
  intro s1 s2 keys
  have hdraw : startsOnly s1 s2 := .ite (.of_kept (draw_kept (Nat.or_self _) (Kept.refl _ s1)) rfl) (.refl s1)
  have hleave : startsOnly s2 (leaveReadAhead c o s2) := .ite (dropReads_startsOnly s2) (.refl s2)
  have huse := startsOnly.of_kept (useSets_kept o (Nat.or_self _) (Kept.refl _ (leaveReadAhead c o s2))) rfl
  exact (listEntry_startsOnly _ _ _ _ _ s).trans (hdraw.trans (hleave.trans (huse.trans (onCmd_startsOnly _ _ _ ((useSets o _).onRd _)))))

theorem serveRecord_startsOnly (c : Cmd) (x : Nat) (o : Obj) (s : State) : startsOnly s (serveRecord c x o s).1 := by
  unfold serveRecord
  lift_lets
  intro p toHost done new s1
  have hgiven : startsOnly s s1 := by
    refine .ite (startsOnly.trans ?_ (onCmd_startsOnly _ _ _ _)) (.refl s)
    exact .of_kept (writeBuffer_kept _ _ _ new (Nat.or_self _) (Kept.refl _ s)) rfl
  split
  · exact (listEntry_startsOnly _ _ _ _ _ s).trans (endRead_startsOnly _ _ _)
  · split
    · exact passObj_startsOnly _ _ _ _ s
    · split
      · exact endAt_startsOnly _ _ s
      · split
        · exact hgiven.trans (passObj_startsOnly _ _ _ _ _)
        · exact hgiven.trans (.of_kept (submitBlocks_kept p x o (Nat.or_self _) (Kept.refl _ s1)) rfl)

theorem serveRead_startsOnly (c : Cmd) (s : State) : startsOnly s (serveRead c s).1 := by
  unfold serveRead
  dsimp only
  split
  · exact endRead_startsOnly _ _ s
  · split
    · exact endRead_startsOnly _ _ s
    · split
      · split
        · exact endAt_startsOnly _ _ s
        · exact needTape_startsOnly _ _ s
      · exact .refl s
      · exact endAt_startsOnly _ _ s
      next o _ =>
        have hpass := passObj_startsOnly c c.lon (c.lon + 1) o s
        split
        · split
          · exact hpass
          · exact hpass.trans (endRead_startsOnly _ _ _)
        · exact serveRecord_startsOnly _ _ _ s

theorem spacePass_startsOnly (c : Cmd) (x next : Nat) (o : Obj) (s : State) : startsOnly s (spacePass c x next o s).1 := by
  have hpass := fun f => (passObj_startsOnly c x next o s).trans (onCmd_startsOnly c.qid c.tag f _)
  unfold spacePass
  dsimp only
  split
  · exact (hpass _).trans (endRead_startsOnly _ _ _)
  · exact hpass _

theorem serveSpace_startsOnly (c : Cmd) (s : State) : startsOnly s (serveSpace c s).1 := by
  unfold serveSpace
  dsimp only
  split
  · exact endRead_startsOnly _ _ s
  · split
    · exact endRead_startsOnly _ _ s
    · split
      · exact endRead_startsOnly _ _ s
      · split
        · exact (onCmd_startsOnly _ _ _ s).trans (endRead_startsOnly _ _ _)
        · split
          · split
            · exact endRead_startsOnly _ _ s
            · exact needTape_startsOnly _ _ s
          · exact .refl s
          · exact endRead_startsOnly _ _ s
          · exact spacePass_startsOnly _ _ _ _ s

theorem serveRounds_startsOnly (q tag k : Nat) (s : State) : startsOnly s (serveRounds q tag k s) := by
  induction k generalizing s with
  | zero => exact .refl s
  | succ k ih =>
    unfold serveRounds
    split
    · exact .refl s
    next c _ =>
      have hround : startsOnly s (if opcodeOf c.entry = opSpace then serveSpace c s else serveRead c s).1 := by
        split
        · exact serveSpace_startsOnly c s
        · exact serveRead_startsOnly c s
      exact .ite (.refl s) (.ite (hround.trans (ih _)) hround)

theorem serveCmd_startsOnly (q tag : Nat) (s : State) : startsOnly s (serveCmd q tag s) := by
  have hdrop : ∀ t, startsOnly t (dropConsumed t) := fun t =>
    .of_kept (dropConsumed_kept (Nat.or_self _) (Kept.refl _ t)) rfl
  unfold serveCmd
  split
  · exact .refl s
  · exact .ite (.refl s) (.ite (endRead_startsOnly _ _ s) (.ite (endRead_startsOnly _ _ s)
      ((serveRounds_startsOnly q tag _ s).trans (hdrop _))))

theorem serveAll_startsOnly (s : State) : startsOnly s (serveAll s) :=
  (forEach_startsOnly _ (fun (c : Cmd) t => serveCmd_startsOnly c.qid c.tag t) s).trans (wakePending_startsOnly _)

/-! ## The tape cannot move (R445) -/

theorem tapeLost_startsOnly (s : State) : startsOnly s (tapeLost s) := by
  have hpark := startsOnly.of_kept (parkRun_kept (Nat.or_self _) (Kept.refl _ s)) rfl
  have hfinish : ∀ (l : List Cmd) (t : State), startsOnly t (forEach l (fun c => finishCmd c.qid c.tag 0x0416 0 none) t) := fun l =>
    forEach_startsOnly l fun c t => .of_kept (finishCmd_kept c.qid c.tag 0x0416 0 none (Nat.or_self _) (Kept.refl _ t)) rfl
  have hheld : ∀ (l : List Cmd) (t : State), startsOnly t (forEach l (fun c => endWrite c 0x0416 0) t) := fun l =>
    forEach_startsOnly l fun c t => .of_kept (endWrite_kept c 0x0416 0 (Nat.or_self _) (Kept.refl _ t)) rfl
  have hsettle : ∀ t, startsOnly t (settle t) := fun t => .of_kept (settle_kept (Nat.or_self _) (Kept.refl _ t)) rfl
  exact .ite (hpark.trans ((hfinish _ _).trans ((hheld _ _).trans ((serveAll_startsOnly _).trans (hsettle _))))) (.refl s)

end Sys2Proof.Machine
end

section
/-! PROOF. The accelerometer and the sensor of temperature and humidity (R172 to R174). -/

namespace Sys2Proof.Machine

/-! ## ACC_SAMPLE (R172, R173) -/

/-- The sample has been asked for. -/
def accAsked (s : State) : State :=
  emit (.accFrame [BitVec.ofNat 8 (0xC0 + plantNat s .accReg % 64)]) (s.onStp fun p => { p with accIdWait := false })

/-- The first byte after a threading is not the identity of the part. -/
@[reducible] def accWrong (x : BitVec 16) (s : State) : Prop := s.stp.accIdWait = true ∧ x.toNat % 256 ≠ plantNat s .accId % 256

/-- A sample of a dead part: all zeros or all ones. -/
@[reducible] def accDead (x y z : BitVec 16) : Prop := (x = 0 ∧ y = 0 ∧ z = 0) ∨ (x = 0xFFFF ∧ y = 0xFFFF ∧ z = 0xFFFF)

/-- A dead sample more. -/
def accMissed (s : State) : State := (accAsked s).onStp fun p => { p with accBad := p.accBad + 1 }

theorem failAcc_stp (s : State) : (failAcc s).stp = { s.stp with accFailed := true } := by
  rw [failAcc, stpRecord_stp, inhibitOff_stp]
  rfl

section
variable {x y z : BitVec 16} {s : State}

theorem accSample_failed (h : s.stp.accFailed = true) : accSample x y z s = s := by
  simp [accSample, h]

/-- What comes of a sample while the accelerometer has not failed. -/
theorem accSample_listening (h : s.stp.accFailed = false) : accSample x y z s =
    if accWrong x s then failAcc (accAsked s)
    else if accDead x y z then
      if 3 ≤ (accMissed s).stp.accBad then failAcc (accMissed s) else accMissed s
    else inhibitIf .accel ([accMg s x, accMg s y, accMg s z].any fun a => decide (accThreshold s < absRat a))
      ((accAsked s).onStp fun p => { p with acc := #v[accMg s x, accMg s y, accMg s z], accBad := 0 }) := by
  unfold accSample
  extract_lets s0 s1 v
  have hs0 : s0 = accAsked s := if_neg (Bool.eq_false_iff.mp h)
  have hlistens : ¬ s0.stp.accFailed = true := by
    rw [hs0]
    exact Bool.eq_false_iff.mp h
  rw [if_neg hlistens]
  simp only [s1, v, hs0]
  rfl

theorem accSample_wrong (h : s.stp.accFailed = false) (hw : accWrong x s) : accSample x y z s = failAcc (accAsked s) := by
  rw [accSample_listening h, if_pos hw]

theorem accSample_dead (h : s.stp.accFailed = false) (hw : ¬ accWrong x s) (hd : accDead x y z) :
    accSample x y z s = if 3 ≤ (accMissed s).stp.accBad then failAcc (accMissed s) else accMissed s := by
  rw [accSample_listening h, if_neg hw, if_pos hd]

theorem accSample_good (h : s.stp.accFailed = false) (hw : ¬ accWrong x s) (hd : ¬ accDead x y z) :
    accSample x y z s = inhibitIf .accel ([accMg s x, accMg s y, accMg s z].any fun a => decide (accThreshold s < absRat a))
      ((accAsked s).onStp fun p => { p with acc := #v[accMg s x, accMg s y, accMg s z], accBad := 0 }) := by
  rw [accSample_listening h, if_neg hw, if_neg hd]

/-- A dead sample only counts, and the next one is asked for. -/
theorem accMissed_changesOnly (s : State) : changesOnly [.stpAccBad, .stpAccIdWait, .out] s (accMissed s) := by
  have hasked : Kept (fieldMask [.stpAccBad, .stpAccIdWait, .out]) s (accAsked s) := by
    refine emit_kept _ (or_fieldMask rfl) (onStp_kept _ (fun p => ?_) (Kept.refl _ s))
    exact { StpAgree.refl _ p with accIdWait := .inl (testBit_fieldMask rfl) }
  refine (onStp_kept _ (fun p => ?_) hasked).changesOnly
  exact { StpAgree.refl _ p with accBad := .inl (testBit_fieldMask rfl) }

/-- Three dead samples in a row, and not two, fail the accelerometer. -/
theorem accSample_dead_counts (h : s.stp.accFailed = false) (hw : ¬ accWrong x s) (hd : accDead x y z) :
    (accSample x y z s).stp.accBad = s.stp.accBad + 1 ∧ ((accSample x y z s).stp.accFailed = true ↔ 2 ≤ s.stp.accBad) ∧
    (s.stp.accBad < 2 → changesOnly [.stpAccBad, .stpAccIdWait, .out] s (accSample x y z s)) := by
  have hbad : (accMissed s).stp.accBad = s.stp.accBad + 1 := rfl
  have hfailed : (accMissed s).stp.accFailed = false := h
  rw [accSample_dead h hw hd]
  split
  next hthird =>
    rw [failAcc_stp]
    exact ⟨hbad, iff_of_true rfl (by omega), fun hlt => by omega⟩
  next hthird =>
    exact ⟨hbad, iff_of_false (Bool.eq_false_iff.mp hfailed) (by omega), fun _ => accMissed_changesOnly s⟩

/-- ACCEL follows the threshold. -/
theorem accSample_good_shock (h : s.stp.accFailed = false) (hw : ¬ accWrong x s) (hd : ¬ accDead x y z) :
    (accSample x y z s).stp.accBad = 0 ∧ (accSample x y z s).stp.acc = #v[accMg s x, accMg s y, accMg s z] ∧
    ((accSample x y z s).wr.sources.getLsbD (sourceBit .accel) = true ↔
      accThreshold s < absRat (accMg s x) ∨ accThreshold s < absRat (accMg s y) ∨ accThreshold s < absRat (accMg s z)) := by
  rw [accSample_good h hw hd, inhibitIf_stp, inhibitIf_source]
  exact ⟨rfl, rfl, by simp⟩

end

/-! ## SENSOR_READING (R174) -/

/-- The temperature, in the units of the table, that the sensor's code stands for. -/
def sensorTemp (s : State) (x : Nat) : Rat := plantOf s .snsTA + plantOf s .snsTB * (x : Rat)

/-- The humidity likewise. -/
def sensorHum (s : State) (y : Nat) : Rat := plantOf s .snsHA + plantOf s .snsHB * (y : Rat)

section
variable {ack : Bool} {bs : Bytes} {s : State}

theorem sensorReading_absent (h : s.stp.sensorAbsent = true) : sensorReading ack bs s = s := if_pos h

theorem sensorReading_good (h : s.stp.sensorAbsent = false) (hack : ack = true) (hlen : bs.length = plantNat s .snsLen) {x y : Nat}
    (hx : sensorValue s bs (plantNat s .snsTOfs) = some x) (hy : sensorValue s bs (plantNat s .snsHOfs) = some y) :
    sensorReading ack bs s = (sensorAsk s).onStp fun p =>
      { p with sensorBad := 0, temp := some (sensorTemp s x), hum := some (sensorHum s y) } := by
  have hx' : sensorValue (sensorAsk s) bs (plantNat (sensorAsk s) .snsTOfs) = some x := hx
  have hy' : sensorValue (sensorAsk s) bs (plantNat (sensorAsk s) .snsHOfs) = some y := hy
  have hall : ack = true ∧ bs.length = plantNat (sensorAsk s) .snsLen ∧ (some x).isSome = true ∧ (some y).isSome = true :=
    ⟨hack, hlen, rfl, rfl⟩
  unfold sensorReading
  rw [if_neg (by simp [h])]
  dsimp only
  rw [hx', hy', if_pos hall]
  rfl

theorem sensorReading_good_changesOnly (h : s.stp.sensorAbsent = false) (hack : ack = true) (hlen : bs.length = plantNat s .snsLen) {x y : Nat}
    (hx : sensorValue s bs (plantNat s .snsTOfs) = some x) (hy : sensorValue s bs (plantNat s .snsHOfs) = some y) :
    changesOnly [.stpTemp, .stpHum, .stpSensorBad, .out] s (sensorReading ack bs s) := by
  rw [sensorReading_good h hack hlen hx hy]
  refine (onStp_kept _ (fun p => ?_)
    (emits_kept _ (or_fieldMask rfl) (Kept.refl (fieldMask [.stpTemp, .stpHum, .stpSensorBad, .out]) s))).changesOnly
  exact { StpAgree.refl _ p with
    temp := .inl (testBit_fieldMask rfl), hum := .inl (testBit_fieldMask rfl), sensorBad := .inl (testBit_fieldMask rfl) }

/-- A reading that is not acknowledged or fails its check counts; the tenth in a row makes the sensor absent. -/
theorem sensorReading_bad (h : s.stp.sensorAbsent = false) (hbad : ack = false ∨ bs.length ≠ plantNat s .snsLen ∨
      sensorValue s bs (plantNat s .snsTOfs) = none ∨ sensorValue s bs (plantNat s .snsHOfs) = none) :
    (sensorReading ack bs s).stp.sensorBad = s.stp.sensorBad + 1 ∧
    ((sensorReading ack bs s).stp.sensorAbsent = true ↔ 9 ≤ s.stp.sensorBad) ∧
    (9 ≤ s.stp.sensorBad → (sensorReading ack bs s).stp.temp = none ∧ (sensorReading ack bs s).stp.hum = none) := by
  unfold sensorReading
  rw [if_neg (by simp [h])]
  extract_lets s0 c d s1
  have hnot : ¬ (ack = true ∧ bs.length = plantNat s0 .snsLen ∧ c.isSome = true ∧ d.isSome = true) := by
    rintro ⟨hack, hlen, hc, hd⟩
    rcases hbad with hbad | hbad | hbad | hbad
    · exact Bool.false_ne_true (hbad.symm.trans hack)
    · exact hbad hlen
    · exact Bool.false_ne_true ((congrArg Option.isSome hbad).symm.trans hc)
    · exact Bool.false_ne_true ((congrArg Option.isSome hbad).symm.trans hd)
  have hcount : s1.stp.sensorBad = s.stp.sensorBad + 1 := rfl
  have hpresent : s1.stp.sensorAbsent = false := h
  rw [if_neg hnot]
  split
  next htenth =>
    have hnine : 9 ≤ s.stp.sensorBad := by omega
    rw [stpRecord_stp]
    exact ⟨hcount, iff_of_true rfl hnine, fun _ => ⟨rfl, rfl⟩⟩
  next htenth =>
    have hnine : ¬ 9 ≤ s.stp.sensorBad := by omega
    exact ⟨hcount, iff_of_false (Bool.eq_false_iff.mp hpresent) hnine, fun hle => absurd hle hnine⟩

end

end Sys2Proof.Machine
end

section
/-! PROOF. The motion link: responses, motor faults, the status poll, and a fault cleared (R169 to R171, R190). -/

namespace Sys2Proof.Machine

/-! ## A motor fault (R171, R190) -/

/-- The fault is on record, and its source of the write inhibit active. -/
def motNoted (s : State) : State := stpRecord 3 (inhibitOn .motFault s)

/-- What noting it leaves alone. -/
theorem motNoted_kept (s : State) : (motNoted s).stp = s.stp ∧ (motNoted s).pins.motEn = s.pins.motEn ∧ aStop (motNoted s) = aStop s ∧
    (motNoted s).wr.sources.getLsbD (sourceBit .motFault) = true := by
  have hon := inhibitOn_kept .motFault (Nat.or_self _) (Kept.refl _ s)
  have hrecord := stpRecord_kept 3 (Nat.or_self _) (Kept.refl _ (inhibitOn .motFault s))
  refine ⟨(stpRecord_stp 3 _).trans (inhibitOn_stp _ s), (hrecord.same .pinsMotEn rfl).trans (hon.same .pinsMotEn rfl),
    aStop_congr ((hrecord.same .trustTables rfl).trans (hon.same .trustTables rfl)), ?_⟩
  rw [motNoted, stpRecord_wr]
  exact inhibitOn_active .motFault s

theorem enterFault_motEn (s : State) : (enterFault s).pins.motEn = 0 := by
  unfold enterFault
  split <;> rfl

theorem enterFault_wr (s : State) : (enterFault s).wr = s.wr := by
  unfold enterFault
  split <;> rfl

theorem enterFault_mode {s : State} (h : s.stp.mode ≠ .off) : (enterFault s).stp.mode = .fault := by
  rw [enterFault, if_neg h]
  rfl

section
variable {i : Nat} {s : State}

theorem motorFault_reel (h : i < 2) : motorFault (some i) s = stpFaultSource (enterFault (motNoted s)) :=
  if_neg (Nat.not_le.mpr h)

/-- The stage of the fault is disabled, and no program runs. -/
def stageOff (i : Nat) (s : State) : State :=
  (setEnables (setBit s.pins.motEn i false) s).onStp fun p => { p with program := { p.program with running := false, waiting := false, due := none } }

theorem motorFault_guide (h : 2 ≤ i) : motorFault (some i) s = controlledStop (aStop (motNoted s)) (stageOff i (motNoted s)) := if_pos h

theorem motorFault_source : (motorFault (some i) s).wr.sources.getLsbD (sourceBit .motFault) = true := by
  obtain ⟨-, -, -, hsource⟩ := motNoted_kept s
  by_cases h : i < 2
  · have hraise := stpFaultSource_kept (Nat.or_self _) (Kept.refl _ (enterFault (motNoted s)))
    rw [motorFault_reel h, hraise.same .wrSources rfl, enterFault_wr]
    exact hsource
  · rw [motorFault_guide (Nat.not_lt.mp h), controlledStop, stpRecord_wr]
    exact hsource

/-- A reel's motor fault: every stage off, and FAULT. -/
theorem motorFault_reel_stops (h : i < 2) : (motorFault (some i) s).pins.motEn = 0 ∧
    (s.stp.mode ≠ .off → (motorFault (some i) s).stp.mode = .fault) := by
  obtain ⟨hstp, -⟩ := motNoted_kept s
  have hraise := stpFaultSource_kept (Nat.or_self _) (Kept.refl _ (enterFault (motNoted s)))
  rw [motorFault_reel h, hraise.same .pinsMotEn rfl, hraise.same .stpMode rfl]
  exact ⟨enterFault_motEn _, fun hoff => enterFault_mode (by rwa [hstp])⟩

/-- Another stage's: that stage off, and a controlled stop. -/
theorem motorFault_guide_stops (h : 2 ≤ i) : (motorFault (some i) s).pins.motEn = setBit s.pins.motEn i false ∧
    (motorFault (some i) s).stp.stopping = some (aStop s) ∧ (motorFault (some i) s).stp.cntStop = inc s.stp.cntStop := by
  obtain ⟨hstp, hen, hstop, -⟩ := motNoted_kept s
  have hcontrolled := controlledStop_kept (aStop s) (Nat.or_self _) (Kept.refl _ (stageOff i (motNoted s)))
  rw [motorFault_guide h, hstop, hcontrolled.same .pinsMotEn rfl, controlledStop_stp, ← hen, ← hstp]
  exact ⟨rfl, rfl, rfl⟩

/-- The motor fault of a stage, as the commands that waited for the tape find it (R445). -/
def motorFaulted (i : Nat) (s t : State) : Prop :=
  t.wr.sources.getLsbD (sourceBit .motFault) = true ∧ (i < 2 → t.pins.motEn = 0 ∧ (s.stp.mode ≠ .off → t.stp.mode = .fault)) ∧
  (2 ≤ i → t.pins.motEn = setBit s.pins.motEn i false ∧ t.stp.stopping = some (aStop s) ∧ t.stp.cntStop = inc s.stp.cntStop)

theorem tapeLost_motorFaulted : motorFaulted i s (tapeLost (motorFault (some i) s)) := by
  have hlost := tapeLost_kept (Nat.or_self _) (Kept.refl _ (motorFault (some i) s))
  rw [motorFaulted, hlost.same .wrSources rfl, hlost.same .pinsMotEn rfl, hlost.same .stpStopping rfl, hlost.same .stpCntStop rfl]
  refine ⟨motorFault_source, fun h => ?_, motorFault_guide_stops⟩
  obtain ⟨hen, hmode⟩ := motorFault_reel_stops (s := s) h
  exact ⟨hen, fun hoff => (tapeLost_startsOnly _).fault (hmode hoff)⟩

end

/-! ## MOTION_LINK_RESPONSE (R169, R171) -/

/-- A change of one stage. -/
def onStage (i : Nat) (f : Stage → Stage) (s : State) : State := s.onStp fun p => { p with stages := updAt p.stages i f }

theorem onStage_stage (i : Fin 5) (f : Stage → Stage) (s : State) : (onStage i f s).stp.stages[i] = f s.stp.stages[i] :=
  getElem_updAt_same _ _ i

theorem onStage_kept (i : Nat) (f : Stage → Stage) {s t : State} (h : Kept (fieldMask [.stpStages]) s t) :
    Kept (fieldMask [.stpStages]) s (onStage i f t) := by
  refine onStp_kept _ (fun p => ?_) h
  exact { StpAgree.refl _ p with stages := .inl (testBit_fieldMask rfl) }

/-- What a stage was does not matter to its fault. -/
theorem motorFaulted.of_onStage {i j : Nat} {f : Stage → Stage} {s t : State} (h : motorFaulted i (onStage j f s) t) : motorFaulted i s t := h

/-- The command that a response answers is no longer awaited. -/
def stageAnswered (cmd : Option (BitVec 32)) (k : Stage) : Stage := { k with sent := if cmd.isSome then k.sent.drop 1 else k.sent }

/-- The measurement of a good response. -/
def stageMeasured (f : BitVec 32) (k : Stage) : Stage :=
  { k with meas := signed 16 (bits f.toNat 8 16), nacks := if f.getLsbD 24 then 0 else k.nacks }

/-- One response more in a row that is bad or not acknowledged. -/
def stageMissed (again : Option (BitVec 32)) (k : Stage) : Stage := { k with nacks := k.nacks + 1, again := k.again ++ again.toList }

section
variable {i : Fin 5} {s : State}

theorem badResponse_eq (again : Option (BitVec 32)) : badResponse i again s =
    if 3 ≤ s.stp.stages[i].nacks + 1 then
      tapeLost (motorFault (some i.val) (onStage i (fun k => { k with nacks := 0 }) (onStage i (stageMissed again) s)))
    else onStage i (stageMissed again) s := by
  change (if 3 ≤ (getAt (onStage i (stageMissed again) s).stp.stages i {}).nacks then _ else _) = _
  rw [getAt_fin, onStage_stage]
  rfl

theorem badResponse_early {again : Option (BitVec 32)} (h : s.stp.stages[i].nacks < 2) :
    badResponse i again s = onStage i (stageMissed again) s := by
  rw [badResponse_eq, if_neg (by omega)]

theorem badResponse_third {again : Option (BitVec 32)} (h : 2 ≤ s.stp.stages[i].nacks) : motorFaulted i s (badResponse i again s) := by
  rw [badResponse_eq, if_pos (by omega)]
  exact tapeLost_motorFaulted.of_onStage.of_onStage

variable {f : BitVec 32}

/-- The state in which the response's command is no longer awaited. -/
def responded (i : Fin 5) (s : State) : State := onStage i (stageAnswered (answered s.stp.stages[i])) s

theorem motionResponse_bad (hbad : responseOk i f = false) : motionResponse i f s = badResponse i none (responded i s) := by
  unfold motionResponse
  rw [getAt_fin]
  exact if_pos (by simp [hbad])

theorem motionResponse_fault (hok : responseOk i f = true) (hf : f.getLsbD 27 = true) :
    motionResponse i f s = tapeLost (motorFault (some i) (onStage i (stageMeasured f) (responded i s))) := by
  unfold motionResponse
  rw [getAt_fin]
  exact (if_neg (by simp [hok])).trans (if_pos hf)

theorem motionResponse_ack (hok : responseOk i f = true) (hf : f.getLsbD 27 = false) (ha : f.getLsbD 24 = true) :
    motionResponse i f s = onStage i (stageMeasured f) (responded i s) := by
  unfold motionResponse
  rw [getAt_fin]
  exact (if_neg (by simp [hok])).trans ((if_neg (Bool.eq_false_iff.mp hf)).trans (if_pos ha))

theorem motionResponse_nack (hok : responseOk i f = true) (hf : f.getLsbD 27 = false) (ha : f.getLsbD 24 = false) :
    motionResponse i f s = badResponse i (answered s.stp.stages[i]) (onStage i (stageMeasured f) (responded i s)) := by
  unfold motionResponse
  rw [getAt_fin]
  exact (if_neg (by simp [hok])).trans ((if_neg (Bool.eq_false_iff.mp hf)).trans (if_neg (Bool.eq_false_iff.mp ha)))

/-- A good and acknowledged response gives its measurement. -/
theorem motionResponse_measures (hok : responseOk i f = true) (hf : f.getLsbD 27 = false) (ha : f.getLsbD 24 = true) :
    (motionResponse i f s).stp.stages[i].meas = signed 16 (bits f.toNat 8 16) ∧ (motionResponse i f s).stp.stages[i].nacks = 0 ∧
    changesOnly [.stpStages] s (motionResponse i f s) := by
  rw [motionResponse_ack hok hf ha]
  refine ⟨?_, ?_, (onStage_kept i _ (onStage_kept i _ (Kept.refl _ s))).changesOnly⟩
  · rw [onStage_stage]
    rfl
  · rw [onStage_stage, stageMeasured, ha]
    rfl

theorem responded_nacks : (responded i s).stp.stages[i].nacks = s.stp.stages[i].nacks := by
  rw [responded, onStage_stage]
  rfl

theorem responded_again : (responded i s).stp.stages[i].again = s.stp.stages[i].again := by
  rw [responded, onStage_stage]
  rfl

/-- A measurement that is not acknowledged leaves the count of the bad responses. -/
theorem measured_nacks (ha : f.getLsbD 24 = false) :
    (onStage i (stageMeasured f) (responded i s)).stp.stages[i].nacks = s.stp.stages[i].nacks := by
  rw [onStage_stage, stageMeasured, ha]
  exact responded_nacks

/-- One bad or not acknowledged response, before the third in a row. -/
theorem motionResponse_misses (h : responseOk i f = false ∨ (f.getLsbD 27 = false ∧ f.getLsbD 24 = false))
    (hnacks : s.stp.stages[i].nacks < 2) :
    (motionResponse i f s).stp.stages[i].nacks = s.stp.stages[i].nacks + 1 ∧
    (motionResponse i f s).stp.stages[i].again =
      (if responseOk i f = true then s.stp.stages[i].again ++ (answered s.stp.stages[i]).toList else s.stp.stages[i].again) ∧
    changesOnly [.stpStages] s (motionResponse i f s) := by
  have hkept : ∀ g, Kept (fieldMask [.stpStages]) s (onStage i g (responded i s)) := fun g => onStage_kept i g (onStage_kept i _ (Kept.refl _ s))
  cases hok : responseOk i f with
  | false =>
    rw [motionResponse_bad hok, badResponse_early (responded_nacks.trans_lt hnacks), onStage_stage]
    refine ⟨congrArg (· + 1) responded_nacks, ?_, (hkept _).changesOnly⟩
    exact (List.append_nil _).trans responded_again
  | true =>
    obtain ⟨hf, ha⟩ := h.resolve_left (by simp [hok])
    rw [motionResponse_nack hok hf ha, badResponse_early ((measured_nacks ha).trans_lt hnacks), onStage_stage]
    refine ⟨congrArg (· + 1) (measured_nacks ha), ?_, (onStage_kept i _ (hkept _)).changesOnly⟩
    rw [onStage_stage]
    exact congrArg (· ++ _) responded_again

/-- FAULT, or the third bad response in a row. -/
theorem motionResponse_faults (h : (responseOk i f = true ∧ f.getLsbD 27 = true) ∨
    ((responseOk i f = false ∨ f.getLsbD 24 = false) ∧ 2 ≤ s.stp.stages[i].nacks)) : motorFaulted i s (motionResponse i f s) := by
  cases hok : responseOk i f with
  | false =>
    obtain ⟨-, hnacks⟩ := h.resolve_left (by simp [hok])
    rw [motionResponse_bad hok]
    exact (badResponse_third (hnacks.trans_eq responded_nacks.symm)).of_onStage
  | true =>
    cases hf : f.getLsbD 27 with
    | true =>
      rw [motionResponse_fault hok hf]
      exact tapeLost_motorFaulted.of_onStage.of_onStage
    | false =>
      obtain ⟨hbad, hnacks⟩ := h.resolve_left (by simp only [hf]; simp)
      have ha := hbad.resolve_left (by simp [hok])
      rw [motionResponse_nack hok hf ha]
      exact (badResponse_third (hnacks.trans_eq (measured_nacks ha).symm)).of_onStage.of_onStage

end

end Sys2Proof.Machine
end

section
/-! PROOF. The status poll of the stages, and a motor fault cleared (R170, R173, R190). -/

namespace Sys2Proof.Machine

/-! ## A frame to a stage -/

theorem driveFrame_other {i : Nat} {j : Fin 5} (h : j.val ≠ i) (f : BitVec 32) (s : State) :
    (driveFrame i f s).stp.stages[j] = s.stp.stages[j] :=
  getElem_updAt_ne _ _ h

theorem driveFrame_sentAt (i : Fin 5) (f : BitVec 32) (s : State) : (driveFrame i f s).stp.stages[i].sentAt = s.power.time :=
  congrArg Stage.sentAt (getElem_updAt_same _ _ i)

/-- A command is the stage's latest frame, after those sent again. -/
theorem sendMotion_sentAt (i : Fin 5) (cmd : Nat) (value : Int) (s : State) :
    (sendMotion i cmd value s).stp.stages[i].sentAt = s.power.time := by
  have hagain : ∀ (l : List (BitVec 32)) (t : State), (forEach l (driveFrame i) t).power.time = t.power.time := fun l t =>
    (forEach_kept l (driveFrame i) (fun f _ => driveFrame_kept i f (Nat.or_self _)) (Kept.refl _ t)).same .powerTime rfl
  unfold sendMotion
  dsimp only
  rw [driveFrame_sentAt, hagain]
  rfl

theorem sendMotion_other {i : Nat} {j : Fin 5} (h : j.val ≠ i) (cmd : Nat) (value : Int) (s : State) :
    (sendMotion i cmd value s).stp.stages[j] = s.stp.stages[j] := by
  unfold sendMotion
  extract_lets old s1
  have hagain : (forEach old (driveFrame i) s1).stp.stages[j] = s1.stp.stages[j] :=
    forEach_preserves (P := fun t => t.stp.stages[j] = s1.stp.stages[j]) old (fun f t ht => (driveFrame_other h f t).trans ht) rfl
  rw [driveFrame_other h, hagain]
  exact getElem_updAt_ne _ _ h

/-! ## MOTION_LINK_KEEPALIVE (R170) -/

/-- A stage is enabled, and has had no frame for 1 ms. -/
@[reducible] def pollDue (i : Fin 5) (s : State) : Prop := s.pins.motEn.getLsbD i = true ∧ s.stp.stages[i].sentAt + msTicks ≤ s.power.time

/-- The poll of one stage. -/
def poll (i : Nat) (s : State) : State :=
  if s.pins.motEn.getLsbD i ∧ (getAt s.stp.stages i {}).sentAt + msTicks ≤ s.power.time then sendMotion i 0 0 s else s

theorem keepalive_eq (s : State) : keepalive s = forEach [0, 1, 2, 3, 4] poll s := rfl

theorem poll_kept (i : Nat) {s t : State} (h : Kept (fieldMask [.stpStages, .stpCntLinkErr, .out]) s t) :
    Kept (fieldMask [.stpStages, .stpCntLinkErr, .out]) s (poll i t) := by
  unfold poll
  split
  · exact sendMotion_kept i 0 0 (or_fieldMask rfl) h
  · exact h

theorem keepalive_kept_only (s : State) : Kept (fieldMask [.stpStages, .stpCntLinkErr, .out]) s (keepalive s) :=
  forEach_kept _ _ (fun i _ => poll_kept i) (Kept.refl _ s)

/-- What decides whether a stage is polled, and what a poll of the others leaves. -/
def pollView (i : Fin 5) (s : State) : BitVec 5 × Nat × Stage := (s.pins.motEn, s.power.time, s.stp.stages[i])

theorem pollView_other {i : Nat} {j : Fin 5} (h : j.val ≠ i) (s : State) : pollView j (poll i s) = pollView j s := by
  unfold poll
  split
  · have hsend := sendMotion_kept i 0 0 (Nat.or_self _) (Kept.refl _ s)
    rw [pollView, sendMotion_other h, hsend.same .pinsMotEn rfl, hsend.same .powerTime rfl, pollView]
  · rfl

theorem pollView_others {j : Fin 5} (l : List Nat) (h : ∀ i ∈ l, j.val ≠ i) (s : State) : pollView j (forEach l poll s) = pollView j s := by
  induction l generalizing s with
  | nil => rfl
  | cons i l ih =>
    have hrest : ∀ k ∈ l, j.val ≠ k := fun k hk => h k (List.mem_cons_of_mem i hk)
    exact (ih hrest (poll i s)).trans (pollView_other (h i List.mem_cons_self) s)

/-- A stage is polled in its turn, between those before it and those after it. -/
theorem pollView_keepalive (i : Fin 5) (s : State) :
    ∃ t, pollView i t = pollView i s ∧ pollView i (keepalive s) = pollView i (poll i t) := by
  have hsplit : [0, 1, 2, 3, 4] = List.range i ++ i.val :: List.range' (i + 1) (4 - i) := by
    revert i
    decide
  refine ⟨forEach (List.range i) poll s, pollView_others _ (fun k hk => ?_) s, ?_⟩
  · exact (List.mem_range.mp hk).ne'
  · rw [keepalive_eq, hsplit]
    have happ : forEach (List.range i ++ i.val :: List.range' (i + 1) (4 - i)) poll s =
        forEach (List.range' (i + 1) (4 - i)) poll (poll i (forEach (List.range i) poll s)) := List.foldl_append
    rw [happ]
    refine pollView_others _ (fun k hk => ?_) _
    have hle := (List.mem_range'_1.mp hk).1
    omega

/-- Every enabled stage hears a frame each millisecond. -/
theorem keepalive_stage (i : Fin 5) (s : State) :
    if pollDue i s then (keepalive s).stp.stages[i].sentAt = s.power.time else (keepalive s).stp.stages[i] = s.stp.stages[i] := by
  obtain ⟨t, ht, hpoll⟩ := pollView_keepalive i s
  obtain ⟨hen, htime, hstage⟩ : t.pins.motEn = s.pins.motEn ∧ t.power.time = s.power.time ∧ t.stp.stages[i] = s.stp.stages[i] := by
    simpa only [pollView, Prod.mk.injEq] using ht
  have hpolled : (keepalive s).stp.stages[i] = (poll i t).stp.stages[i] := congrArg (fun v => v.2.2) hpoll
  rw [hpolled, poll, getAt_fin, hen, htime, hstage]
  by_cases h : pollDue i s
  · rw [if_pos h, if_pos h, sendMotion_sentAt, htime]
  · rw [if_neg h, if_neg h, hstage]

/-! ## FAULT_CLEAR (R173, R190) -/

/-- MOT_FAULT_N is negated. -/
def faultNegated (s : State) : State := s.onPins fun p => { p with motFaultN := true }

theorem faultClear_source {s : State} (h : s.stp.mode ≠ .fault) : faultClear s = inhibitOff .motFault (faultNegated s) := if_pos h

theorem faultClear_waits {s : State} (h : s.stp.mode = .fault) (hs : stillForSecond s = false) : faultClear s = faultNegated s :=
  (if_neg (not_not.mpr h)).trans (if_neg (Bool.eq_false_iff.mp hs))

/-- The stages have been told to clear the fault, and Steeple is in OFF. -/
def faultLeft (s : State) : State :=
  inhibitOff .motFault (enterOff true (forEach [0, 1, 2, 3, 4] (fun i => sendMotion i 3 0) (faultNegated s)))

theorem faultClear_leaves {s : State} (h : s.stp.mode = .fault) (hs : stillForSecond s = true) : faultClear s = accStart (faultLeft s) :=
  (if_neg (not_not.mpr h)).trans (if_pos hs)

theorem enterOff_off (b : Bool) (s : State) :
    (enterOff b s).stp.mode = .off ∧ (enterOff b s).stp.offByFault = b ∧ (enterOff b s).pins.motEn = 0 := by
  have hinstall := fun t => installSteeple_kept (Nat.or_self _) (Kept.refl _ t)
  exact ⟨(hinstall _).same .stpMode rfl, (hinstall _).same .stpOffByFault rfl, (hinstall _).same .pinsMotEn rfl⟩

theorem faultLeft_off (s : State) : (faultLeft s).stp.mode = .off ∧ (faultLeft s).stp.offByFault = true ∧ (faultLeft s).pins.motEn = 0 ∧
    (faultLeft s).pins.motFaultN = true ∧ (faultLeft s).wr.sources.getLsbD (sourceBit .motFault) = false := by
  have hsend := forEach_kept [0, 1, 2, 3, 4] (fun i => sendMotion i 3 0) (fun i _ => sendMotion_kept i 3 0 (Nat.or_self _))
    (Kept.refl _ (faultNegated s))
  have hleave := enterOff_kept true (Nat.or_self _) (Kept.refl _ (forEach [0, 1, 2, 3, 4] (fun i => sendMotion i 3 0) (faultNegated s)))
  have hclear := fun t => inhibitOff_kept .motFault (Nat.or_self _) (Kept.refl _ t)
  obtain ⟨hmode, hby, hen⟩ := enterOff_off true (forEach [0, 1, 2, 3, 4] (fun i => sendMotion i 3 0) (faultNegated s))
  rw [faultLeft, inhibitOff_stp, (hclear _).same .pinsMotEn rfl, (hclear _).same .pinsMotFaultN rfl]
  exact ⟨hmode, hby, hen, (hleave.same .pinsMotFaultN rfl).trans (hsend.same .pinsMotFaultN rfl), inhibitOff_clear _ _⟩

/-- In FAULT, once nothing has moved for 1 s, Steeple goes to OFF. -/
theorem faultClear_off {s : State} (h : s.stp.mode = .fault) (hs : stillForSecond s = true) :
    (faultClear s).stp.mode = .off ∧ (faultClear s).stp.offByFault = true ∧ (faultClear s).pins.motEn = 0 ∧
    (faultClear s).pins.motFaultN = true ∧ (faultClear s).wr.sources.getLsbD (sourceBit .motFault) = false := by
  have hacc := accStart_kept (Nat.or_self _) (Kept.refl _ (faultLeft s))
  rw [faultClear_leaves h hs, hacc.same .stpMode rfl, hacc.same .stpOffByFault rfl, hacc.same .pinsMotEn rfl, hacc.same .pinsMotFaultN rfl,
    hacc.same .wrSources rfl]
  exact faultLeft_off s

theorem faultNegated_changesOnly (s : State) : changesOnly [.pinsMotFaultN] s (faultNegated s) := by
  refine (onPins_kept _ (fun p => ?_) (Kept.refl _ s)).changesOnly
  exact { PinsAgree.refl _ p with motFaultN := .inl (testBit_fieldMask rfl) }

/-- MOT_FAULT_N is negated in every case. -/
theorem faultClear_negates (s : State) : (faultClear s).pins.motFaultN = true := by
  by_cases h : s.stp.mode = .fault
  · cases hs : stillForSecond s with
    | true =>
      obtain ⟨-, -, -, hnegated, -⟩ := faultClear_off h hs
      exact hnegated
    | false =>
      rw [faultClear_waits h hs]
      rfl
  · rw [faultClear_source h]
    exact (inhibitOff_kept .motFault (Nat.or_self _) (Kept.refl _ (faultNegated s))).same .pinsMotFaultN rfl

theorem faultClear_source_clears {s : State} (h : s.stp.mode ≠ .fault) :
    (faultClear s).wr.sources.getLsbD (sourceBit .motFault) = false ∧ (faultClear s).stp = s.stp := by
  rw [faultClear_source h]
  exact ⟨inhibitOff_clear _ _, inhibitOff_stp _ _⟩

end Sys2Proof.Machine
end

section
/-! PROOF. The heartbeat, and the pair ST0 and ST1 (R197, R198). -/

namespace Sys2Proof.Machine

/-! ## STEEPLE_HEARTBEAT (R198) -/

/-- A heartbeat is noted. -/
def beatNoted (s : State) : State := s.onStp fun p => { p with beatAt := s.power.time, beatLost := false }

theorem heartbeat_eq (s : State) : heartbeat s = if s.stp.beatLost ∧ s.stp.mode = .still then stillAgain (beatNoted s) else beatNoted s := rfl

theorem beatNoted_changesOnly (s : State) : changesOnly [.stpBeatAt, .stpBeatLost] s (beatNoted s) := by
  refine (onStp_kept _ (fun p => ?_) (Kept.refl _ s)).changesOnly
  exact { StpAgree.refl _ p with beatAt := .inl (testBit_fieldMask rfl), beatLost := .inl (testBit_fieldMask rfl) }

theorem heartbeat_beats (s : State) : (heartbeat s).stp.beatAt = s.power.time ∧ (heartbeat s).stp.beatLost = false := by
  have hagain := stillAgain_kept (Nat.or_self _) (Kept.refl _ (beatNoted s))
  rw [heartbeat_eq]
  split
  · exact ⟨hagain.same .stpBeatAt rfl, hagain.same .stpBeatLost rfl⟩
  · exact ⟨rfl, rfl⟩

theorem heartbeat_changesOnly {s : State} (h : s.stp.beatLost = false ∨ s.stp.mode ≠ .still) :
    changesOnly [.stpBeatAt, .stpBeatLost] s (heartbeat s) := by
  have hidle : ¬ (s.stp.beatLost = true ∧ s.stp.mode = .still) := by
    rintro ⟨hlost, hstill⟩
    exact h.elim (fun hb => Bool.false_ne_true (hb.symm.trans hlost)) fun hm => hm hstill
  rw [heartbeat_eq, if_neg hidle]
  exact beatNoted_changesOnly s

/-! ## STEEPLE_HEARTBEAT_TIMEOUT (R190, R198) -/

/-- The heartbeat is missed, 2 s after the last. -/
def beatMissed (s : State) : State := (advanceTo (s.stp.beatAt + 2000 * msTicks) s).onStp fun p => { p with beatLost := true }

theorem heartbeatTimeout_moving {s : State} (h : s.stp.mode = .move ∨ s.stp.mode = .track) :
    heartbeatTimeout s = controlledStop (aStop s) ((beatMissed s).onStp fun p =>
      { p with program := { p.program with running := false, waiting := false, due := none } }) := by
  unfold heartbeatTimeout
  dsimp only
  split
  · rfl
  · rfl
  next hmove htrack => exact absurd h (not_or.mpr ⟨hmove, htrack⟩)

theorem heartbeatTimeout_resting {s : State} (hmove : s.stp.mode ≠ .move) (htrack : s.stp.mode ≠ .track) :
    heartbeatTimeout s = beatMissed s := by
  unfold heartbeatTimeout
  dsimp only
  split
  · contradiction
  · contradiction
  · rfl

theorem beatMissed_changesOnly (s : State) : changesOnly [.powerTime, .stpBeatLost] s (beatMissed s) := by
  refine (onStp_kept _ (fun p => ?_) (advanceTo_kept _ (or_fieldMask rfl) (Kept.refl _ s))).changesOnly
  exact { StpAgree.refl _ p with beatLost := .inl (testBit_fieldMask rfl) }

/-- 2 s without a heartbeat are over, and Steeple is in its mode. -/
theorem heartbeatTimeout_misses (s : State) : (heartbeatTimeout s).stp.beatLost = true ∧
    (heartbeatTimeout s).power.time = max s.power.time (s.stp.beatAt + 2000 * msTicks) ∧ (heartbeatTimeout s).stp.mode = s.stp.mode := by
  by_cases h : s.stp.mode = .move ∨ s.stp.mode = .track
  · rw [heartbeatTimeout_moving h, (controlledStop_kept _ (Nat.or_self _) (Kept.refl _ _)).same .powerTime rfl, controlledStop_stp]
    exact ⟨rfl, rfl, rfl⟩
  · obtain ⟨hmove, htrack⟩ := not_or.mp h
    rw [heartbeatTimeout_resting hmove htrack]
    exact ⟨rfl, rfl, rfl⟩

/-- What moves stops. -/
theorem heartbeatTimeout_stops {s : State} (h : s.stp.mode = .move ∨ s.stp.mode = .track) :
    (heartbeatTimeout s).stp.stopping = some (aStop s) ∧ (heartbeatTimeout s).stp.vSet = 0 ∧
    (heartbeatTimeout s).stp.program.running = false ∧ (heartbeatTimeout s).stp.cntStop = inc s.stp.cntStop := by
  rw [heartbeatTimeout_moving h, controlledStop_stp]
  exact ⟨rfl, rfl, rfl, rfl⟩

/-! ## ST1_TAKEOVER (R197) -/

theorem noSpare_steeple {s : State} (h : ∀ i, outOf s .steeple i = false) : noSpare s .steeple = false := by
  have hnone : outCount s .steeple = 0 := by
    refine List.countP_eq_zero.mpr fun e he hrow => ?_
    have hmem : outOf s .steeple e.2 = true := List.contains_iff_mem.mpr ((eq_of_beq hrow) ▸ he)
    exact Bool.false_ne_true ((h e.2).symm.trans hmem)
  simp [noSpare, hnone]

/-- A part noted out of service is. -/
theorem outOf_noteOut (row : FaultRow) (i : Nat) (s : State) : outOf (noteOut row i s) row i = true := by
  unfold noteOut
  extract_lets s1 s2
  have hpower : s2.lantern.outOfService = s1.lantern.outOfService := by
    simp only [s2]
    split <;> rfl
  have hrecord := fun data => (lantern_kept 0x0010 data (Nat.or_self _) (Kept.refl _ s2)).same .lanternOutOfService rfl
  refine List.contains_iff_mem.mpr ?_
  rw [hrecord, hpower]
  exact List.mem_append_right _ (List.mem_singleton.mpr rfl)

/-- The pair without STi: ST1 drives if ST0 did. -/
def pairLeft (i : Nat) (s : State) : State :=
  s.onStp fun p => { p with
    standbyOk := false, st1 := p.st1 || (i == 0 && !s.stp.st1), cntTakeover := if i == 0 && !s.stp.st1 then inc p.cntTakeover else p.cntTakeover }

theorem loseSteeple_eq {i : Nat} {s : State} (h : ∀ i, outOf s .steeple i = false) :
    loseSteeple i s = noteOut .steeple i (pairLeft i s) := by
  have hout : ¬ (outOf s .steeple i = true ∨ noSpare s .steeple = true) := by simp [h, noSpare_steeple h]
  have htake : takeOut .steeple i (pairLeft i s) = noteOut .steeple i (pairLeft i s) :=
    (if_neg fun ho => hout (.inl ho)).trans (if_neg fun hn => hout (.inr hn))
  exact (if_neg hout).trans htake

/-- The tokens flow on, and STi is out of service. -/
theorem loseSteeple_leaves {i : Nat} {s : State} (h : ∀ i, outOf s .steeple i = false) :
    (loseSteeple i s).stp = (pairLeft i s).stp ∧ (loseSteeple i s).wr = s.wr ∧ outOf (loseSteeple i s) .steeple i = true := by
  rw [loseSteeple_eq h]
  exact ⟨noteOut_stp _ _ _, noteOut_wr _ _ _, outOf_noteOut _ _ _⟩

/-- ST0 lost: ST1 drives, and a takeover counts when it was ST0 that drove. -/
theorem loseSteeple_first {s : State} (h : ∀ i, outOf s .steeple i = false) : (loseSteeple 0 s).stp.st1 = true ∧
    (loseSteeple 0 s).stp.standbyOk = false ∧
    (loseSteeple 0 s).stp.cntTakeover = if s.stp.st1 then s.stp.cntTakeover else inc s.stp.cntTakeover := by
  obtain ⟨hstp, -, -⟩ := loseSteeple_leaves (i := 0) h
  rw [hstp]
  cases hst1 : s.stp.st1 <;> simp [pairLeft, hst1]

/-- ST1 lost: the one that drives is the same. -/
theorem loseSteeple_second {s : State} (h : ∀ i, outOf s .steeple i = false) : (loseSteeple 1 s).stp.st1 = s.stp.st1 ∧
    (loseSteeple 1 s).stp.standbyOk = false := by
  obtain ⟨hstp, -, -⟩ := loseSteeple_leaves (i := 1) h
  rw [hstp]
  exact ⟨Bool.or_false _, rfl⟩

/-- The standby is brought into step again. -/
def resynced (s : State) : State := stpRecord 4 (s.onStp fun p => { p with resyncAt := some s.power.time })

/-- The outputs have not differed within the second before. -/
def differFirst (s : State) : Prop := s.stp.resyncAt = none ∨ ∃ r, s.stp.resyncAt = some r ∧ r + 1000 * msTicks ≤ s.power.time

theorem not_differFirst {s : State} {r : Nat} (hr : s.stp.resyncAt = some r) (hlt : s.power.time < r + 1000 * msTicks) : ¬ differFirst s := by
  rintro (hnone | ⟨r', hr', hle⟩)
  · exact Option.some_ne_none r (hr.symm.trans hnone)
  · obtain rfl : r = r' := Option.some.inj (hr.symm.trans hr')
    exact Nat.not_lt.mpr hle hlt

/-- The outputs differ: the first time in a second the standby is brought into step. -/
theorem pairEvent_differ_first {s : State} (hok : s.stp.standbyOk = true) (h : differFirst s) : pairEvent .outputsDiffer s = resynced s := by
  rcases h with hr | ⟨r, hr, hle⟩
  · simp [pairEvent, hok, hr, resynced]
  · simp [pairEvent, hok, hr, resynced, Nat.not_lt.mpr hle]

/-- The second time it is lost. -/
theorem pairEvent_differ_again {s : State} (hok : s.stp.standbyOk = true) (h : ¬ differFirst s) :
    pairEvent .outputsDiffer s = loseSteeple 1 s := by
  obtain ⟨hsome, hlate⟩ := not_or.mp h
  obtain ⟨r, hr⟩ := Option.ne_none_iff_exists'.mp hsome
  have hlt : s.power.time < r + 1000 * msTicks := Nat.not_le.mp fun hle => hlate ⟨r, hr, hle⟩
  simp [pairEvent, hok, hr, hlt]

theorem resynced_leaves (s : State) : (resynced s).stp = { s.stp with resyncAt := some s.power.time } ∧ (resynced s).wr = s.wr :=
  ⟨stpRecord_stp _ _, stpRecord_wr _ _⟩

/-- The outputs differ, and the one that drives goes on, and so does what is written. -/
theorem pairEvent_differ_leaves {s : State} (h : ∀ i, outOf s .steeple i = false) (hok : s.stp.standbyOk = true) :
    (pairEvent .outputsDiffer s).stp.st1 = s.stp.st1 ∧ (pairEvent .outputsDiffer s).wr = s.wr ∧
    (differFirst s → (pairEvent .outputsDiffer s).stp.resyncAt = some s.power.time ∧ (pairEvent .outputsDiffer s).stp.standbyOk = true) ∧
    (¬ differFirst s → (pairEvent .outputsDiffer s).stp.standbyOk = false ∧ outOf (pairEvent .outputsDiffer s) .steeple 1 = true) := by
  by_cases hfirst : differFirst s
  · obtain ⟨hstp, hwr⟩ := resynced_leaves s
    rw [pairEvent_differ_first hok hfirst, hstp]
    exact ⟨rfl, hwr, fun _ => ⟨rfl, hok⟩, fun hn => absurd hfirst hn⟩
  · obtain ⟨hst1, hstandby⟩ := loseSteeple_second h
    obtain ⟨-, hwr, hout⟩ := loseSteeple_leaves (i := 1) h
    rw [pairEvent_differ_again hok hfirst]
    exact ⟨hst1, hwr, fun hf => absurd hf hfirst, fun _ => ⟨hstandby, hout⟩⟩

end Sys2Proof.Machine
end

section
/-! PROOF. Steeple's sensors, motion link, heartbeat and pair, put together. -/

namespace Sys2Proof.Machine

/-- Settles O52, clause by clause: the accelerometer, the sensor of temperature and humidity, the stages' responses, their polls, a fault
cleared, the heartbeat and its loss, and the takeover. -/
theorem sensorsLinkAndPair : Obligations.SensorsLinkAndPair := by
  unfold Obligations.SensorsLinkAndPair
  refine ⟨?accel, ?sensor, ?response, ?keepalive, ?faultClear, ?heartbeat, ?heartbeatTimeout, ?takeover⟩
  case accel =>
    intro x y z s
    refine ⟨fun h => goLive_of_fixed (accSample_failed h), fun hl h hw => ⟨_, goLive_of_live _ hl, ?_⟩,
      fun hl h hw hd => ⟨_, goLive_of_live _ hl, accSample_dead_counts h hw hd⟩,
      fun hl h hw hd => ⟨_, goLive_of_live _ hl, accSample_good_shock h hw hd⟩⟩
    rw [accSample_wrong h hw, failAcc_stp]
  case sensor =>
    intro ack bs s
    refine ⟨fun h => goLive_of_fixed (sensorReading_absent h), fun hl h hack hlen x y hx hy => ⟨_, goLive_of_live _ hl, ?_⟩,
      fun hl h hbad => ⟨_, goLive_of_live _ hl, sensorReading_bad h hbad⟩⟩
    have honly := sensorReading_good_changesOnly h hack hlen hx hy
    rw [sensorReading_good h hack hlen hx hy] at honly ⊢
    exact ⟨rfl, rfl, rfl, honly⟩
  case response =>
    intro i f s hl
    exact ⟨fun hok hf ha => ⟨_, goLive_of_live _ hl, motionResponse_measures hok hf ha⟩,
      fun h hn => ⟨_, goLive_of_live _ hl, motionResponse_misses h hn⟩, fun h => ⟨_, goLive_of_live _ hl, motionResponse_faults h⟩⟩
  case keepalive =>
    intro s hl
    exact ⟨_, goLive_of_live _ hl, (keepalive_kept_only s).changesOnly, fun i => keepalive_stage i s⟩
  case faultClear =>
    intro s hl
    refine ⟨_, goLive_of_live _ hl, faultClear_negates s, faultClear_source_clears, fun h hs => ?_, fun h hs => ?_⟩
    · rw [faultClear_waits h hs]
      exact faultNegated_changesOnly s
    · obtain ⟨hmode, hby, hen, -, hsource⟩ := faultClear_off h hs
      exact ⟨hmode, hby, hen, hsource⟩
  case heartbeat =>
    intro s hl
    obtain ⟨hat, hlost⟩ := heartbeat_beats s
    exact ⟨_, goLive_of_live _ hl, hat, hlost, heartbeat_changesOnly⟩
  case heartbeatTimeout =>
    intro s hl
    obtain ⟨hlost, htime, hmode⟩ := heartbeatTimeout_misses s
    refine ⟨_, goLive_of_live _ hl, hlost, htime, hmode, heartbeatTimeout_stops, fun hmove htrack => ?_⟩
    rw [heartbeatTimeout_resting hmove htrack]
    exact beatMissed_changesOnly s
  case takeover =>
    intro s hl h
    refine ⟨fun c hc => ?_, ⟨_, goLive_of_live _ hl, ?_⟩, fun hok => goLive_of_fixed ?_, fun hok => ⟨_, goLive_of_live _ hl, ?_⟩⟩
    · have hfirst : exec (.st1Takeover c) s = .next (loseSteeple 0 s) := by
        simp only [List.mem_cons, List.not_mem_nil, or_false] at hc
        rcases hc with rfl | rfl | rfl <;> exact goLive_of_live _ hl
      obtain ⟨hst1, hstandby, hcnt⟩ := loseSteeple_first h
      obtain ⟨-, hwr, hout⟩ := loseSteeple_leaves (i := 0) h
      exact ⟨_, hfirst, hst1, hstandby, hcnt, hwr, hout⟩
    · obtain ⟨hst1, hstandby⟩ := loseSteeple_second h
      obtain ⟨-, hwr, hout⟩ := loseSteeple_leaves (i := 1) h
      exact ⟨hst1, hstandby, hwr, hout⟩
    · simp [pairEvent, hok]
    · obtain ⟨hst1, hwr, hfirst, hagain⟩ := pairEvent_differ_leaves h hok
      exact ⟨hst1, hwr, hfirst, fun r hr hlt => hagain (not_differFirst hr hlt)⟩

end Sys2Proof.Machine
end

section
/-! PROOF. The groups of the head link under the shared operations: what leaves them alone, what changes one group alone, and what only
sends packets (R206, R207, R212, R216, R222). -/

namespace Sys2Proof.Machine

/-! ## One bit of a word -/

theorem getLsbD_setBit {n : Nat} (w : BitVec n) (i : Nat) (b : Bool) (j : Nat) :
    (setBit w i b).getLsbD j = if j < n ∧ i = j then b else w.getLsbD j := by
  cases b with
  | true => by_cases h : j < n ∧ i = j <;> simp [getLsbD_setBit_true, h]
  | false =>
    by_cases h : j < n ∧ i = j
    · rw [if_pos h, ← h.2, getLsbD_setBit_false_self]
    · rw [if_neg h]
      by_cases hj : j < n
      · have hij : i ≠ j := fun e => h ⟨hj, e⟩
        simp only [setBit, Bool.false_eq_true, if_false, BitVec.getLsbD_and, BitVec.getLsbD_not, BitVec.getLsbD_ofNat,
          Nat.testBit_two_pow, hij, hj, decide_true, decide_false, Bool.and_false, Bool.not_false, Bool.and_true]
      · rw [BitVec.getLsbD_of_ge _ _ (Nat.not_lt.mp hj), BitVec.getLsbD_of_ge _ _ (Nat.not_lt.mp hj)]

/-- To clear a bit that is clear changes nothing. -/
theorem setBit_false_of_clear {n : Nat} {w : BitVec n} {i : Nat} (h : w.getLsbD i = false) : setBit w i false = w := by
  refine BitVec.eq_of_getLsbD_eq fun j hj => ?_
  rw [getLsbD_setBit]
  split
  next hi => rw [← hi.2, h]
  next => rfl

/-- A bit that is clear stays so when another is cleared. -/
theorem getLsbD_setBit_false_of_clear {n : Nat} {w : BitVec n} {j : Nat} (i : Nat) (h : w.getLsbD j = false) :
    (setBit w i false).getLsbD j = false := by
  rw [getLsbD_setBit, h, ite_self]

/-! ## One group -/

@[simp] theorem hlGroup_onGroup_same (g : Fin 8) (f : Group → Group) (s : State) : hlGroup (onGroup g f s) g = f (hlGroup s g) :=
  getAt_updAt_same _ _ _ g.isLt

theorem hlGroup_onGroup_other {g x : Nat} (h : x ≠ g) (f : Group → Group) (s : State) : hlGroup (onGroup g f s) x = hlGroup s x :=
  getAt_updAt_other _ _ _ h

/-- What is kept but for other fields has the same groups. -/
theorem hlGroup_of_kept {m : Nat} {s t : State} (h : Kept m s t) (hm : m.testBit Field.hlkGroups.ctorIdx = false) (x : Nat) :
    hlGroup t x = hlGroup s x := by
  have hgroups : t.hlk.groups = s.hlk.groups := h.same .hlkGroups hm
  rw [hlGroup, hlGroup, hgroups]

section
variable (s : State) (x : Nat)

@[simp] theorem hlGroup_groupEdge (g : Nat) : hlGroup (groupEdge g s) x = hlGroup s x :=
  hlGroup_of_kept (groupEdge_kept g (Nat.or_self _) (Kept.refl _ s)) rfl x

@[simp] theorem hlGroup_emits (os : List Out) : hlGroup (emits os s) x = hlGroup s x := rfl

@[simp] theorem hlGroup_emit (o : Out) : hlGroup (emit o s) x = hlGroup s x := rfl

@[simp] theorem hlGroup_lantern (code : Nat) (data : Bytes) : hlGroup (lantern code data s) x = hlGroup s x :=
  hlGroup_of_kept (lantern_kept code data (Nat.or_self _) (Kept.refl _ s)) rfl x

@[simp] theorem hlGroup_noteOut (row : FaultRow) (i : Nat) : hlGroup (noteOut row i s) x = hlGroup s x :=
  hlGroup_of_kept (noteOut_kept row i (Nat.or_self _) (Kept.refl _ s)) rfl x

@[simp] theorem hlGroup_noteBack (row : FaultRow) (i : Nat) : hlGroup (noteBack row i s) x = hlGroup s x :=
  hlGroup_of_kept (noteBack_kept row i (Nat.or_self _) (Kept.refl _ s)) rfl x

@[simp] theorem hlGroup_dropBand (g : Nat) : hlGroup (dropBand g s) x = hlGroup s x :=
  hlGroup_of_kept (dropBand_kept g (Nat.or_self _) (Kept.refl _ s)) rfl x

@[simp] theorem hlGroup_clampNow : hlGroup (clampNow s) x = hlGroup s x :=
  hlGroup_of_kept (clampNow_kept (Nat.or_self _) (Kept.refl _ s)) rfl x

@[simp] theorem hlGroup_clearTx : hlGroup (clearTx s) x = hlGroup s x :=
  hlGroup_of_kept (clearTx_kept (Nat.or_self _) (Kept.refl _ s)) rfl x

@[simp] theorem hlGroup_anchorRange (a b : Nat) : hlGroup (anchorRange a b s) x = hlGroup s x :=
  hlGroup_of_kept (anchorRange_kept a b (Nat.or_self _) (Kept.refl _ s)) rfl x

end

/-! ## One group alone changes -/

/-- No group but g differs between two states. -/
def sameGroupsBut (g : Nat) (s t : State) : Prop := ∀ x, x ≠ g → hlGroup t x = hlGroup s x

theorem sameGroupsBut.trans {g : Nat} {s t u : State} (h : sameGroupsBut g s t) (k : sameGroupsBut g t u) : sameGroupsBut g s u :=
  fun x hx => (k x hx).trans (h x hx)

theorem onGroup_sameGroupsBut (g : Nat) (f : Group → Group) (s : State) : sameGroupsBut g s (onGroup g f s) :=
  fun _ hx => hlGroup_onGroup_other hx f s

theorem forEach_sameGroupsBut {α : Type} {g : Nat} (l : List α) {f : α → State → State} (hf : ∀ x t, sameGroupsBut g t (f x t)) (s : State) :
    sameGroupsBut g s (forEach l f s) :=
  forEach_preserves (P := sameGroupsBut g s) l (fun x t ht => ht.trans (hf x t)) fun _ _ => rfl

theorem hlSend_sameGroupsBut (g : Fin 8) (lane type fields : Nat) (payload : List (BitVec 64)) (s : State) :
    sameGroupsBut g s (hlSend g lane type fields payload s) :=
  onGroup_sameGroupsBut g _ s

theorem hlCommand_sameGroupsBut (g : Fin 8) (cmd apply payload : Nat) (s : State) : sameGroupsBut g s (hlCommand g cmd apply payload s) := by
  unfold hlCommand
  dsimp only
  split
  · exact fun _ _ => rfl
  · exact (onGroup_sameGroupsBut g _ s).trans (hlSend_sameGroupsBut g _ _ _ _ _)

/-- K of a group is taken up and the SHED sent (R222). -/
def shedSent (g : Fin 8) (s : State) : State :=
  onGroup g (fun k => { k with shed := shedNow s g }) (hlCommand g 5 (sidxIn s g applyAhead) (shedNow s g) s)

/-- The groups after a change of K, if K changes. -/
theorem hlGroup_updateShed (g : Fin 8) (s : State) :
    (∀ x, hlGroup (updateShed g s) x = hlGroup s x) ∨ ∀ x, hlGroup (updateShed g s) x = hlGroup (shedSent g s) x := by
  unfold updateShed
  dsimp only
  split
  · exact .inl fun _ => rfl
  · refine .inr fun x => ?_
    split
    · exact hlGroup_anchorRange _ _ _ _
    · rfl

theorem updateShed_sameGroupsBut (g : Fin 8) (s : State) : sameGroupsBut g s (updateShed g s) := by
  intro x hx
  rcases hlGroup_updateShed g s with h | h
  · exact h x
  · exact (h x).trans (((hlCommand_sameGroupsBut g 5 _ _ s).trans (onGroup_sameGroupsBut g _ _)) x hx)

/-! ## Packets are sent -/

/-- A group without what the packets it sends change: its scramblers, CSEQ, the moment of its last TRAIN, K, and the indices that its
clocks count from (R206, R207, R212, R213, R222). -/
def Group.unsent (k : Group) : Group :=
  { k with scr := Vector.replicate 2 0, cseq := 0, trainAt := 0, shed := 0, sidx := 0, sidxAt := 0, widx := 0, widxAt := 0 }

/-- Between two states packets alone went out on the head link. -/
def onlySent (s t : State) : Prop := ∀ x, (hlGroup t x).unsent = (hlGroup s x).unsent

theorem onlySent.refl (s : State) : onlySent s s := fun _ => rfl

theorem onlySent.trans {s t u : State} (h : onlySent s t) (k : onlySent t u) : onlySent s u := fun x => (k x).trans (h x)

theorem onlySent.of_kept {m : Nat} {s t : State} (h : Kept m s t) (hm : m.testBit Field.hlkGroups.ctorIdx = false) : onlySent s t :=
  fun x => congrArg Group.unsent (hlGroup_of_kept h hm x)

theorem onlySent.onGroup {f : Group → Group} (hf : ∀ k, (f k).unsent = k.unsent) (g : Fin 8) (s : State) : onlySent s (onGroup g f s) := by
  intro x
  by_cases hx : x = g
  · rw [hx, hlGroup_onGroup_same, hf]
  · rw [hlGroup_onGroup_other hx]

theorem forEach_onlySent {α : Type} (l : List α) {f : α → State → State} (hf : ∀ x t, onlySent t (f x t)) (s : State) :
    onlySent s (forEach l f s) :=
  forEach_preserves (P := onlySent s) l (fun x t ht => ht.trans (hf x t)) (onlySent.refl s)

theorem hlSend_onlySent (g : Fin 8) (lane type fields : Nat) (payload : List (BitVec 64)) (s : State) :
    onlySent s (hlSend g lane type fields payload s) :=
  onlySent.onGroup (by exact fun _ => rfl) g s

theorem hlCommand_onlySent (g : Fin 8) (cmd apply payload : Nat) (s : State) : onlySent s (hlCommand g cmd apply payload s) := by
  unfold hlCommand
  dsimp only
  split
  · exact onlySent.refl s
  · exact (onlySent.onGroup (by exact fun _ => rfl) g s).trans (hlSend_onlySent g _ _ _ _ _)

theorem updateShed_onlySent (g : Fin 8) (s : State) : onlySent s (updateShed g s) := by
  intro x
  rcases hlGroup_updateShed g s with h | h
  · rw [h]
  · rw [h]
    exact ((hlCommand_onlySent g 5 _ _ s).trans (onlySent.onGroup (by exact fun _ => rfl) g _)) x

theorem commandRates_onlySent (g : Fin 8) (adc wclk : Rat) (s : State) : onlySent s (commandRates g adc wclk s) :=
  ((hlCommand_onlySent g 1 _ _ s).trans (hlCommand_onlySent g 2 _ _ _)).trans (onlySent.onGroup (by exact fun _ => rfl) g _)

theorem sendIdle_onlySent (g : Fin 8) (s : State) : onlySent s (sendIdle g s) :=
  (hlSend_onlySent g 0 0 0 [] s).trans (hlSend_onlySent g 1 0 0 [] _)

theorem sendTrain_onlySent (g : Fin 8) (s : State) : onlySent s (sendTrain g s) :=
  ((hlSend_onlySent g 0 4 _ _ s).trans (hlSend_onlySent g 1 4 _ _ _)).trans (onlySent.onGroup (by exact fun _ => rfl) g _)

theorem fillLanes_onlySent (g : Fin 8) (s : State) : onlySent s (fillLanes g s) := by
  unfold fillLanes
  dsimp only
  split
  · exact sendTrain_onlySent g s
  · exact sendIdle_onlySent g s

theorem haltToken_onlySent (g : Fin 8) (s : State) : onlySent s (haltToken g s) :=
  forEach_onlySent _ (fun _ t => hlSend_onlySent g _ 9 _ [] t) s

/-! ## A write inhibit, and a write run that begins -/

theorem stopTokens_onlySent (s : State) : onlySent s (stopTokens s) := by
  unfold stopTokens
  split
  · have hcut := onlySent.of_kept (cutCommits_kept (Nat.or_self _) (Kept.refl _ (s.onWr fun w => { w with tokens := false }))) rfl
    exact hcut.trans (forEach_onlySent _ haltToken_onlySent _)
  · exact onlySent.refl s

theorem inhibitOn_onlySent (src : InhibitSource) (s : State) : onlySent s (inhibitOn src s) := by
  unfold inhibitOn
  lift_lets
  intro i fresh s1 s2
  split
  · exact onlySent.refl s
  · split
    · exact (stopTokens_onlySent (s1.onEcc fun e => { e with cntInhibit := inc e.cntInhibit })).trans fun x =>
        congrArg Group.unsent (hlGroup_lantern s2 x _ _)
    · exact onlySent.refl s

theorem useModule_onlySent (m : Nat) (s : State) : onlySent s (useModule m s) := by
  unfold useModule
  dsimp only
  split
  · exact onlySent.refl s
  · exact forEach_onlySent _ (fun g t => hlCommand_onlySent g 3 _ m t) _

theorem startChans_onlySent (s : State) : onlySent s (startChans s) := .of_kept (startChans_kept (Nat.or_self _) (Kept.refl _ s)) rfl

theorem startTape_onlySent (r lpos : Nat) (s : State) : onlySent s (startTape r lpos s) :=
  .of_kept (startTape_kept r lpos (Nat.or_self _) (Kept.refl _ s)) rfl

theorem askRatio_onlySent (r : Nat) (s : State) : onlySent s (askRatio r s) :=
  .of_kept (askRatio_kept r (Nat.or_self _) (Kept.refl _ s)) rfl

theorem setWvn_onlySent (st : WvnState) (s : State) : onlySent s (setWvn st s) :=
  .of_kept (setWvn_kept st (Nat.or_self _) (Kept.refl _ s)) rfl

theorem runReady_onlySent (k : RunKind) (wrap : Nat) (s : State) : onlySent s (runReady k wrap s) := by
  refine onlySent.trans ?_ (startChans_onlySent _)
  exact onlySent.trans (fun _ => rfl) (useModule_onlySent (moduleOf wrap) _)

theorem beginRun_onlySent (k : RunKind) (wrap slot : Nat) (s : State) : onlySent s (beginRun k wrap slot s) := by
  refine (runReady_onlySent k wrap s).trans ?_
  change onlySent (runReady k wrap s) (if programAllowed (runReady k wrap s) 2 then _ else _)
  split
  · refine onlySent.trans ?_ (startTape_onlySent _ _ _)
    refine onlySent.trans ?_ (setWvn_onlySent _ _)
    exact askRatio_onlySent _ ((runReady k wrap s).onWvn _)
  · exact startTape_onlySent _ _ _

theorem kickWrites_onlySent (retry : Bool) (s : State) : onlySent s (kickWrites retry s) := by
  unfold kickWrites
  split
  · exact onlySent.refl s
  next d _ =>
    split
    · split
      · exact (onlySent.of_kept (enterWrap_kept d (Nat.or_self _) (Kept.refl _ s)) rfl).trans (beginRun_onlySent _ _ _ _)
      · exact onlySent.of_kept (openSession_kept (Nat.or_self _) (Kept.refl _ s)) rfl
    · exact onlySent.refl s

/-! ## The groups in turn -/

section
variable {f : Fin 8 → State → State} (hf : ∀ (x : Fin 8) t, sameGroupsBut x t (f x t))
include hf

/-- A group that no round is about stays as it was. -/
theorem hlGroup_forEach_of_not_mem (l : List (Fin 8)) {g : Fin 8} (h : g ∉ l) (s : State) :
    hlGroup (forEach l f s) g = hlGroup s g := by
  unfold forEach
  induction l generalizing s with
  | nil => rfl
  | cons x l ih =>
    obtain ⟨hx, hl⟩ := not_or.mp (mt List.mem_cons.mpr h)
    exact (ih hl (f x s)).trans (hf x s g fun e => hx (Fin.ext e))

/-- A group of the list is what its own round makes of it, from a state that holds what every round keeps. -/
theorem hlGroup_forEach_of_mem {P : State → Prop} (hP : ∀ (x : Fin 8) t, P t → P (f x t)) (l : List (Fin 8)) (hl : l.Nodup)
    {g : Fin 8} (h : g ∈ l) {s : State} (hs : P s) : ∃ t, P t ∧ hlGroup t g = hlGroup s g ∧ hlGroup (forEach l f s) g = hlGroup (f g t) g := by
  induction l generalizing s with
  | nil => exact absurd h List.not_mem_nil
  | cons x l ih =>
    obtain ⟨hxl, hl⟩ := List.nodup_cons.mp hl
    rcases List.mem_cons.mp h with rfl | hg
    · exact ⟨s, hs, rfl, hlGroup_forEach_of_not_mem hf l hxl (f g s)⟩
    · obtain ⟨t, ht, hsame, heq⟩ := ih hl hg (hP x s hs)
      have hother : g.val ≠ x.val := fun e => hxl (Fin.ext e ▸ hg)
      exact ⟨t, ht, hsame.trans (hf x s g hother), heq⟩

end

theorem mem_allGroups (g : Fin 8) : g ∈ allGroups := by revert g; decide

theorem nodup_allGroups : allGroups.Nodup := by decide

end Sys2Proof.Machine
end

section
/-! PROOF. A lane is lost, and the packets that are discarded (R208, R219, R221 to R226). -/

namespace Sys2Proof.Machine

/-! ## An inbound lane (R219, R221) -/

/-- The lane is no longer in block lock, in a group that trains (R219). -/
def lockLost (g : Fin 8) (lane : Nat) (s : State) : State :=
  if (hlGroup s g).state = .block ∨ (hlGroup s g).state = .ident then
    onGroup g (fun k => { k with lock := setBit k.lock lane false, trained := setBit k.trained lane false }) s
  else s

/-- A live lane goes out of use, and the LANE_MAP is sent. -/
def rxMapped (g : Fin 8) (lane : Nat) (s : State) : State :=
  let s1 := noteOut .hlInLane (rxInst g lane) (onGroup g (fun k => { k with rxLive := setBit k.rxLive lane false }) s)
  hlCommand g 4 0 (laneMap (hlGroup s1 g)) s1

/-- A live lane is lost, with its LANE_MAP, its SHED and the new cap (R221 to R223, R225). -/
def rxDropped (g : Fin 8) (lane : Nat) (s : State) : State := clampNow (dropBand g (updateShed g (groupEdge g (rxMapped g lane s))))

section
variable (g : Fin 8) (lane : Nat) (s : State)

theorem loseRx_eq : loseRx g lane s =
    if (hlGroup (lockLost g lane s) g).rxLive.getLsbD lane then rxDropped g lane (lockLost g lane s) else lockLost g lane s := rfl

theorem lockLost_training (h : (hlGroup s g).state = .block ∨ (hlGroup s g).state = .ident) :
    lockLost g lane s = onGroup g (fun k => { k with lock := setBit k.lock lane false, trained := setBit k.trained lane false }) s := if_pos h

theorem lockLost_other (hblock : (hlGroup s g).state ≠ .block) (hident : (hlGroup s g).state ≠ .ident) : lockLost g lane s = s :=
  if_neg (not_or.mpr ⟨hblock, hident⟩)

theorem lockLost_lanes : (hlGroup (lockLost g lane s) g).rxLive = (hlGroup s g).rxLive ∧
    (hlGroup (lockLost g lane s) g).txLive = (hlGroup s g).txLive ∧ (hlGroup (lockLost g lane s) g).cntCrc = (hlGroup s g).cntCrc := by
  unfold lockLost
  split
  · simp
  · exact ⟨rfl, rfl, rfl⟩

theorem lockLost_lock (h : (hlGroup s g).state = .block ∨ (hlGroup s g).state = .ident) :
    (hlGroup (lockLost g lane s) g).lock = setBit (hlGroup s g).lock lane false := by
  rw [lockLost_training g lane s h, hlGroup_onGroup_same]

theorem lockLost_changesOnly : changesOnly [.hlkGroups] s (lockLost g lane s) := by
  unfold lockLost
  split
  · exact (onGroup_kept g _ (or_fieldMask rfl) (Kept.refl (fieldMask [.hlkGroups]) s)).changesOnly
  · exact (Kept.refl _ s).changesOnly

theorem lockLost_sameGroupsBut : sameGroupsBut g s (lockLost g lane s) := by
  unfold lockLost
  split
  · exact onGroup_sameGroupsBut g _ s
  · exact fun _ _ => rfl

/-- Of its group's fields but those that packets change, the loss of a live lane takes the lane out of rxLive. -/
theorem rxDropped_unsent : (hlGroup (rxDropped g lane s) g).unsent =
    { (hlGroup s g).unsent with rxLive := setBit (hlGroup s g).rxLive lane false } := by
  rw [rxDropped, hlGroup_clampNow, hlGroup_dropBand, updateShed_onlySent, hlGroup_groupEdge, rxMapped, hlCommand_onlySent, hlGroup_noteOut,
    hlGroup_onGroup_same]
  rfl

theorem rxDropped_sameGroupsBut : sameGroupsBut g s (rxDropped g lane s) := by
  intro x hx
  rw [rxDropped, hlGroup_clampNow, hlGroup_dropBand, updateShed_sameGroupsBut g _ x hx, hlGroup_groupEdge, rxMapped,
    hlCommand_sameGroupsBut g _ _ _ _ x hx, hlGroup_noteOut, hlGroup_onGroup_other hx]

theorem rxDropped_out : (FaultRow.hlInLane, rxInst g lane) ∈ (rxDropped g lane s).lantern.outOfService := by
  have hnoted := outOf_noteOut .hlInLane (rxInst g lane) (onGroup g (fun k => { k with rxLive := setBit k.rxLive lane false }) s)
  have hrest : Kept (allBut .lanternOutOfService)
      (noteOut .hlInLane (rxInst g lane) (onGroup g (fun k => { k with rxLive := setBit k.rxLive lane false }) s)) (rxDropped g lane s) :=
    clampNow_kept rfl (dropBand_kept g rfl (updateShed_kept g rfl (groupEdge_kept g rfl (hlCommand_kept g 4 0 _ rfl (Kept.refl _ _)))))
  have hout := hrest.same .lanternOutOfService rfl
  rw [hout]
  exact List.contains_iff_mem.mp hnoted

/-- An inbound lane that is lost is not live, and the group's other lanes and its count of discarded packets stay. -/
theorem loseRx_lanes : (hlGroup (loseRx g lane s) g).rxLive = setBit (hlGroup s g).rxLive lane false ∧
    (hlGroup (loseRx g lane s) g).txLive = (hlGroup s g).txLive ∧ (hlGroup (loseRx g lane s) g).cntCrc = (hlGroup s g).cntCrc := by
  obtain ⟨hrx, htx, hcrc⟩ := lockLost_lanes g lane s
  rw [loseRx_eq]
  split
  next =>
    have h := rxDropped_unsent g lane (lockLost g lane s)
    exact ⟨(congrArg Group.rxLive h :).trans (by rw [hrx]), (congrArg Group.txLive h :).trans htx, (congrArg Group.cntCrc h :).trans hcrc⟩
  next hlane => exact ⟨by rw [hrx, setBit_false_of_clear (Bool.eq_false_iff.mpr (hrx ▸ hlane))], htx, hcrc⟩

end

section
variable {g : Fin 8} {lane : Nat} {s : State}

theorem loseRx_dead (h : (hlGroup s g).rxLive.getLsbD lane = false) : loseRx g lane s = lockLost g lane s := by
  rw [loseRx_eq, (lockLost_lanes g lane s).1, h, if_neg Bool.false_ne_true]

theorem loseRx_live (h : (hlGroup s g).rxLive.getLsbD lane = true) : loseRx g lane s = rxDropped g lane (lockLost g lane s) := by
  rw [loseRx_eq, (lockLost_lanes g lane s).1, h, if_pos rfl]

end

/-! ## An outbound lane (R224, R225) -/

/-- A live lane goes out of use, and HLK_TX is raised (R224). -/
def txInhibited (g : Fin 8) (lane : Nat) (s : State) : State :=
  groupEdge g (inhibitOn .hlkTx (noteOut .hlOutLane (txInst g lane) (onGroup g (fun k => { k with txLive := setBit k.txLive lane false }) s)))

/-- The group's last outbound lane is lost: it waits for nothing (R225). -/
def lastTxLost (g : Fin 8) (s : State) : State := clearTx (dropBand g (onGroup g (fun k => { k with awaits := none }) s))

/-- Everything moves to the other lane, and the LANE_MAP is to be confirmed (R224). -/
def txMapped (g : Fin 8) (s : State) : State := onGroup g (fun k => { k with awaits := some k.cseq }) (hlCommand g 4 0 (laneMap (hlGroup s g)) s)

section
variable (g : Fin 8) (lane : Nat) (s : State)

theorem txInhibited_unsent : (hlGroup (txInhibited g lane s) g).unsent =
    { (hlGroup s g).unsent with txLive := setBit (hlGroup s g).txLive lane false } := by
  rw [txInhibited, hlGroup_groupEdge, inhibitOn_onlySent, hlGroup_noteOut, hlGroup_onGroup_same]
  rfl

theorem txInhibited_unsent_other {x : Nat} (hx : x ≠ g) : (hlGroup (txInhibited g lane s) x).unsent = (hlGroup s x).unsent := by
  rw [txInhibited, hlGroup_groupEdge, inhibitOn_onlySent, hlGroup_noteOut, hlGroup_onGroup_other hx]

theorem txInhibited_lanes : (hlGroup (txInhibited g lane s) g).state = (hlGroup s g).state ∧
    (hlGroup (txInhibited g lane s) g).rxLive = (hlGroup s g).rxLive ∧
    (hlGroup (txInhibited g lane s) g).txLive = setBit (hlGroup s g).txLive lane false := by
  have h := txInhibited_unsent g lane s
  exact ⟨(congrArg Group.state h :), (congrArg Group.rxLive h :), (congrArg Group.txLive h :)⟩

theorem txInhibited_out : (FaultRow.hlOutLane, txInst g lane) ∈ (txInhibited g lane s).lantern.outOfService := by
  have hnoted := outOf_noteOut .hlOutLane (txInst g lane) (onGroup g (fun k => { k with txLive := setBit k.txLive lane false }) s)
  have hrest : Kept (allBut .lanternOutOfService)
      (noteOut .hlOutLane (txInst g lane) (onGroup g (fun k => { k with txLive := setBit k.txLive lane false }) s)) (txInhibited g lane s) :=
    groupEdge_kept g rfl (inhibitOn_kept .hlkTx rfl (Kept.refl _ _))
  have hout := hrest.same .lanternOutOfService rfl
  rw [hout]
  exact List.contains_iff_mem.mp hnoted

theorem txInhibited_source : (txInhibited g lane s).wr.sources.getLsbD (sourceBit .hlkTx) = true := by
  have hsources : (txInhibited g lane s).wr.sources = _ := (groupEdge_kept g (Nat.or_self _) (Kept.refl _ _)).same .wrSources rfl
  rw [hsources]
  exact inhibitOn_active _ _

theorem txMapped_unsent : (hlGroup (txMapped g s) g).unsent =
    { (hlGroup s g).unsent with awaits := some (hlGroup (txMapped g s) g).cseq } := by
  have hmap := hlCommand_onlySent g 4 0 (laneMap (hlGroup s g)) s g
  rw [txMapped, hlGroup_onGroup_same, ← hmap]
  rfl

theorem txMapped_unsent_other {x : Nat} (hx : x ≠ g) : (hlGroup (txMapped g s) x).unsent = (hlGroup s x).unsent := by
  rw [txMapped, hlGroup_onGroup_other hx, hlCommand_onlySent]

theorem txMapped_changesOnly : changesOnly [.hlkGroups, .out] s (txMapped g s) :=
  (onGroup_kept g _ (or_fieldMask rfl) (hlCommand_kept g 4 0 _ (or_fieldMask rfl) (Kept.refl _ s))).changesOnly

theorem hlGroup_lastTxLost : hlGroup (lastTxLost g s) g = { hlGroup s g with awaits := none } := by
  rw [lastTxLost, hlGroup_clearTx, hlGroup_dropBand, hlGroup_onGroup_same]

theorem lastTxLost_sameGroupsBut : sameGroupsBut g s (lastTxLost g s) := by
  intro x hx
  rw [lastTxLost, hlGroup_clearTx, hlGroup_dropBand, hlGroup_onGroup_other hx]

end

section
variable {g : Fin 8} {lane : Nat} {s : State}

theorem loseTx_dead (h : (hlGroup s g).txLive.getLsbD lane = false) : loseTx g lane s = s := if_neg (by rw [h]; exact Bool.false_ne_true)

theorem loseTx_last (h : (hlGroup s g).txLive.getLsbD lane = true) (hlast : setBit (hlGroup s g).txLive lane false = 0) :
    loseTx g lane s = lastTxLost g (txInhibited g lane s) :=
  (if_pos h).trans (if_pos ((txInhibited_lanes g lane s).2.2.trans hlast))

theorem loseTx_moves (h : (hlGroup s g).txLive.getLsbD lane = true) (hmore : setBit (hlGroup s g).txLive lane false ≠ 0) :
    loseTx g lane s = txMapped g (txInhibited g lane s) :=
  (if_pos h).trans (if_neg fun h0 => hmore ((txInhibited_lanes g lane s).2.2.symm.trans h0))

/-- An outbound lane that is lost is not live, and its group's state and its other lanes stay. -/
theorem loseTx_lanes (g : Fin 8) (lane : Nat) (s : State) : (hlGroup (loseTx g lane s) g).state = (hlGroup s g).state ∧
    (hlGroup (loseTx g lane s) g).rxLive = (hlGroup s g).rxLive ∧
    (hlGroup (loseTx g lane s) g).txLive = setBit (hlGroup s g).txLive lane false := by
  obtain ⟨hstate, hrx, htx⟩ := txInhibited_lanes g lane s
  cases h : (hlGroup s g).txLive.getLsbD lane with
  | false => rw [loseTx_dead h, setBit_false_of_clear h]; exact ⟨rfl, rfl, rfl⟩
  | true =>
    by_cases hlast : setBit (hlGroup s g).txLive lane false = 0
    · rw [loseTx_last h hlast, hlGroup_lastTxLost]
      exact ⟨hstate, hrx, htx⟩
    · rw [loseTx_moves h hlast]
      have hmap := txMapped_unsent g (txInhibited g lane s)
      exact ⟨(congrArg Group.state hmap :).trans hstate, (congrArg Group.rxLive hmap :).trans hrx, (congrArg Group.txLive hmap :).trans htx⟩

/-- The other groups keep their state and their lanes when a group loses an outbound one. -/
theorem loseTx_others (h : (hlGroup s g).txLive.getLsbD lane = true) {x : Nat} (hx : x ≠ g) :
    (hlGroup (loseTx g lane s) x).unsent = (hlGroup s x).unsent := by
  by_cases hlast : setBit (hlGroup s g).txLive lane false = 0
  · rw [loseTx_last h hlast, lastTxLost_sameGroupsBut g _ x hx, txInhibited_unsent_other g lane s hx]
  · rw [loseTx_moves h hlast, txMapped_unsent_other g _ hx, txInhibited_unsent_other g lane s hx]

theorem loseTx_out (h : (hlGroup s g).txLive.getLsbD lane = true) :
    (FaultRow.hlOutLane, txInst g lane) ∈ (loseTx g lane s).lantern.outOfService := by
  by_cases hlast : setBit (hlGroup s g).txLive lane false = 0
  · have hkept : Kept (allBut .lanternOutOfService) (txInhibited g lane s) (lastTxLost g (txInhibited g lane s)) :=
      clearTx_kept rfl (dropBand_kept g rfl (onGroup_kept g _ rfl (Kept.refl _ _)))
    have hout := hkept.same .lanternOutOfService rfl
    rw [loseTx_last h hlast, hout]
    exact txInhibited_out g lane s
  · obtain ⟨-, hsame⟩ := txMapped_changesOnly g (txInhibited g lane s)
    have hout := hsame .lanternOutOfService (by decide)
    rw [loseTx_moves h hlast, hout]
    exact txInhibited_out g lane s

/-- With a lane left, HLK_TX stands until the LANE_MAP is confirmed (R224). -/
theorem loseTx_waits (h : (hlGroup s g).txLive.getLsbD lane = true) (hmore : setBit (hlGroup s g).txLive lane false ≠ 0) :
    (hlGroup (loseTx g lane s) g).awaits = some (hlGroup (loseTx g lane s) g).cseq ∧
    (loseTx g lane s).wr.sources.getLsbD (sourceBit .hlkTx) = true := by
  rw [loseTx_moves h hmore]
  obtain ⟨-, hsame⟩ := txMapped_changesOnly g (txInhibited g lane s)
  have hsources : (txMapped g (txInhibited g lane s)).wr.sources = _ := hsame .wrSources (by decide)
  exact ⟨(congrArg Group.awaits (txMapped_unsent g _) :), hsources ▸ txInhibited_source g lane s⟩

/-- With no lane left, a group that was in UP has failed (R225). -/
theorem loseTx_fails (h : (hlGroup s g).txLive.getLsbD lane = true) (hlast : setBit (hlGroup s g).txLive lane false = 0) :
    (hlGroup (loseTx g lane s) g).awaits = none ∧ ((hlGroup s g).state = .up → groupFailed (loseTx g lane s) g = true) := by
  obtain ⟨hstate, -, htx⟩ := loseTx_lanes g lane s
  refine ⟨by rw [loseTx_last h hlast, hlGroup_lastTxLost], fun hup => ?_⟩
  rw [groupFailed, hstate, htx, hup, hlast]
  simp

end

/-! ## Discarded packets (R208, R221) -/

/-- The errors of a lane within the millisecond in hand, with one more. -/
def laneErrors (g lane : Fin 8) (s : State) : Nat :=
  (if (hlGroup s g).errMs = s.power.time / msTicks then getAt (hlGroup s g).laneErrs lane 0 else 0) + 1

/-- A packet that is discarded is counted, for its group and for its lane. -/
def discardCounted (g lane : Fin 8) (s : State) : State :=
  onGroup g (fun k => { k with
    cntCrc := inc k.cntCrc, errMs := s.power.time / msTicks,
    laneErrs := updAt (if k.errMs = s.power.time / msTicks then k.laneErrs else Vector.replicate 8 0) lane (· + 1) }) s

section
variable (g lane : Fin 8) (s : State)

theorem discardCounted_lanes : (hlGroup (discardCounted g lane s) g).rxLive = (hlGroup s g).rxLive ∧
    (hlGroup (discardCounted g lane s) g).cntCrc = inc (hlGroup s g).cntCrc := by
  rw [discardCounted, hlGroup_onGroup_same]
  exact ⟨rfl, rfl⟩

theorem discardCounted_laneErrs : getAt (hlGroup (discardCounted g lane s) g).laneErrs lane 0 = laneErrors g lane s := by
  rw [discardCounted, hlGroup_onGroup_same, laneErrors]
  dsimp only
  rw [getAt_updAt_same _ _ _ lane.isLt]
  split
  · rfl
  · simp [getAt]

theorem discardCounted_changesOnly : changesOnly [.hlkGroups] s (discardCounted g lane s) :=
  (onGroup_kept g _ (or_fieldMask rfl) (Kept.refl (fieldMask [.hlkGroups]) s)).changesOnly

theorem discardPacket_eq : discardPacket g lane s =
    if errLimit s ≤ laneErrors g lane s then loseRx g lane (discardCounted g lane s) else discardCounted g lane s := by
  rw [← discardCounted_laneErrs]
  rfl

/-- Errors below the limit are counted, and from it on the lane is lost. -/
theorem discardPacket_limit :
    (laneErrors g lane s < errLimit s → (hlGroup (discardPacket g lane s) g).rxLive = (hlGroup s g).rxLive ∧
      changesOnly [.hlkGroups] s (discardPacket g lane s)) ∧
    (errLimit s ≤ laneErrors g lane s → (hlGroup (discardPacket g lane s) g).rxLive = setBit (hlGroup s g).rxLive lane false) := by
  obtain ⟨hrx, -⟩ := discardCounted_lanes g lane s
  rw [discardPacket_eq]
  constructor
  · intro h
    rw [if_neg (Nat.not_le.mpr h)]
    exact ⟨hrx, discardCounted_changesOnly g lane s⟩
  · intro h
    rw [if_pos h, (loseRx_lanes g lane _).1, hrx]

theorem discardPacket_counts : (hlGroup (discardPacket g lane s) g).cntCrc = inc (hlGroup s g).cntCrc := by
  rw [discardPacket_eq]
  split
  · rw [(loseRx_lanes g lane _).2.2, (discardCounted_lanes g lane s).2]
  · exact (discardCounted_lanes g lane s).2

end

end Sys2Proof.Machine
end

section
/-! PROOF. The start and the end of training, the permit tokens, RETRAIN and GROUP_EN, and the lanes of a group (R208, R216, R219, R221,
R224 to R226). -/

namespace Sys2Proof.Machine

/-! ## Into CDR and into DOWN (R219) -/

/-- A group may start to train (R219). -/
def mayTrain (g : Fin 8) (s : State) : Prop :=
  (hlGroup s g).state = .down ∧ halvesOn s g = true ∧ s.hlk.groupEn.getLsbD g = true ∧ (hlGroup s g).refused = false

section
variable (g : Fin 8) (s : State)

theorem enterCdr_begins : (hlGroup (enterCdr g s) g).state = .cdr ∧ (hlGroup (enterCdr g s) g).rxLive = 0 ∧
    (hlGroup (enterCdr g s) g).txLive = 3 ∧ (hlGroup (enterCdr g s) g).cntTrain = inc (hlGroup s g).cntTrain ∧
    (hlGroup (enterCdr g s) g).refused = false := by
  rw [enterCdr, hlGroup_groupEdge, hlGroup_emits, hlGroup_onGroup_same]
  exact ⟨rfl, rfl, rfl, rfl, rfl⟩

theorem enterCdr_sameGroupsBut : sameGroupsBut g s (enterCdr g s) := by
  intro x hx
  rw [enterCdr, hlGroup_groupEdge, hlGroup_emits, hlGroup_onGroup_other hx]

theorem enterDown_ends : (hlGroup (enterDown g s) g).state = .down ∧ (hlGroup (enterDown g s) g).refused = (hlGroup s g).refused := by
  rw [enterDown, hlGroup_groupEdge, hlGroup_emits, hlGroup_onGroup_same]
  exact ⟨rfl, rfl⟩

theorem enterDown_sameGroupsBut : sameGroupsBut g s (enterDown g s) := by
  intro x hx
  rw [enterDown, hlGroup_groupEdge, hlGroup_emits, hlGroup_onGroup_other hx]

end

section
variable {g : Fin 8} {s : State}

theorem trainFrom_of_mayTrain (h : mayTrain g s) : trainFrom g s = enterCdr g s := by
  obtain ⟨hdown, hon, hen, hrefused⟩ := h
  simp [trainFrom, hdown, hon, hen, hrefused]

theorem trainFrom_of_not_mayTrain (h : ¬ mayTrain g s) : trainFrom g s = s := by
  refine if_neg fun ⟨hdown, hon, hen, hrefused⟩ => h ⟨hdown, hon, hen, ?_⟩
  simpa using hrefused

end

theorem trainFrom_sameGroupsBut (g : Fin 8) (s : State) : sameGroupsBut g s (trainFrom g s) := by
  by_cases h : mayTrain g s
  · rw [trainFrom_of_mayTrain h]
    exact enterCdr_sameGroupsBut g s
  · rw [trainFrom_of_not_mayTrain h]
    exact fun _ _ => rfl

/-! ## RETRAIN and GROUP_EN (R226) -/

/-- A group goes to DOWN, whatever was found wrong with its identity forgotten. -/
def downAfresh (g : Fin 8) (s : State) : State := onGroup g (fun k => { k with refused := false }) (enterDown g s)

/-- A group trains again from DOWN. -/
def retrained (g : Fin 8) (s : State) : State := trainFrom g (downAfresh g s)

/-- The power of the domains and the enables of the groups, on which training depends, are those of another state. -/
def sameEnables (s t : State) : Prop := t.power.domOn = s.power.domOn ∧ t.hlk.groupEn = s.hlk.groupEn

theorem sameEnables.of_kept {s t : State} (h : Kept (fieldMask (requestFields ++ [.hlkGroups])) s t) : sameEnables s t := by
  obtain ⟨-, hsame⟩ := h.changesOnly
  exact ⟨hsame .powerDomOn (by decide), hsame .hlkGroupEn (by decide)⟩

section
variable (g : Fin 8) (s : State)

theorem downAfresh_kept {s0 s : State} (h : Kept (fieldMask (requestFields ++ [.hlkGroups])) s0 s) :
    Kept (fieldMask (requestFields ++ [.hlkGroups])) s0 (downAfresh g s) :=
  onGroup_kept g _ (or_fieldMask rfl) (enterDown_kept g (or_fieldMask rfl) h)

theorem retrained_sameEnables : sameEnables s (retrained g s) :=
  .of_kept (trainFrom_kept g (or_fieldMask rfl) (downAfresh_kept g (Kept.refl _ s)))

theorem retrained_sameGroupsBut : sameGroupsBut g s (retrained g s) :=
  ((enterDown_sameGroupsBut g s).trans (onGroup_sameGroupsBut g _ _)).trans (trainFrom_sameGroupsBut g _)

theorem downAfresh_group : (hlGroup (downAfresh g s) g).state = .down ∧ (hlGroup (downAfresh g s) g).refused = false := by
  rw [downAfresh, hlGroup_onGroup_same]
  exact ⟨(enterDown_ends g s).1, rfl⟩

theorem mayTrain_downAfresh : mayTrain g (downAfresh g s) ↔ halvesOn s g = true ∧ s.hlk.groupEn.getLsbD g = true := by
  obtain ⟨hdown, hrefused⟩ := downAfresh_group g s
  obtain ⟨hdom, hen⟩ := sameEnables.of_kept (downAfresh_kept g (Kept.refl _ s))
  simp [mayTrain, hdown, hrefused, halvesOn, hdom, hen]

theorem retrained_group : (hlGroup (retrained g s) g).refused = false ∧ (hlGroup (retrained g s) g).state =
    if halvesOn s g = true ∧ s.hlk.groupEn.getLsbD g = true then .cdr else .down := by
  obtain ⟨hdown, hrefused⟩ := downAfresh_group g s
  split
  next h =>
    obtain ⟨hcdr, -, -, -, hfresh⟩ := enterCdr_begins g (downAfresh g s)
    rw [retrained, trainFrom_of_mayTrain ((mayTrain_downAfresh g s).mpr h)]
    exact ⟨hfresh, hcdr⟩
  next h =>
    rw [retrained, trainFrom_of_not_mayTrain (mt (mayTrain_downAfresh g s).mp h)]
    exact ⟨hrefused, hdown⟩

end

section
variable (mask : BitVec 8) {g : Fin 8} (s : State)

theorem retrainNow_unnamed (h : mask.getLsbD g = false) : hlGroup (retrainNow mask s) g = hlGroup s g :=
  hlGroup_forEach_of_not_mem retrained_sameGroupsBut _ (fun hm => Bool.false_ne_true (h.symm.trans (List.mem_filter.mp hm).2)) s

theorem retrainNow_named (h : mask.getLsbD g = true) : (hlGroup (retrainNow mask s) g).refused = false ∧
    (hlGroup (retrainNow mask s) g).state = if halvesOn s g = true ∧ s.hlk.groupEn.getLsbD g = true then .cdr else .down := by
  have hkeeps : ∀ (x : Fin 8) t, sameEnables s t → sameEnables s (retrained x t) := fun x t ⟨hdom, hen⟩ =>
    ⟨(retrained_sameEnables x t).1.trans hdom, (retrained_sameEnables x t).2.trans hen⟩
  obtain ⟨t, ⟨hdom, hen⟩, -, hround⟩ := hlGroup_forEach_of_mem retrained_sameGroupsBut hkeeps
    (allGroups.filter fun (x : Fin 8) => mask.getLsbD x.val) (nodup_allGroups.filter _)
    (List.mem_filter.mpr ⟨mem_allGroups g, h⟩) (s := s) ⟨rfl, rfl⟩
  have hon : halvesOn t g = halvesOn s g := by rw [halvesOn, halvesOn, hdom]
  have hgroup := retrained_group g t
  rw [← hround, hon, hen] at hgroup
  exact hgroup

theorem enableNow_groupEn : (enableNow mask s).hlk.groupEn = mask := by
  have hkept := forEach_kept (allGroups.filter fun (x : Fin 8) => !mask.getLsbD x.val && (hlGroup s x).state != .down) enterDown
    (fun x t => enterDown_kept x (Nat.or_self _)) (Kept.refl _ (s.onHlk fun h => { h with groupEn := mask }))
  exact hkept.same .hlkGroupEn rfl

theorem enableNow_enabled (h : mask.getLsbD g = true) : hlGroup (enableNow mask s) g = hlGroup s g :=
  hlGroup_forEach_of_not_mem enterDown_sameGroupsBut _ (by simp [h]) _

theorem enableNow_disabled (h : mask.getLsbD g = false) : (hlGroup (enableNow mask s) g).state = .down := by
  by_cases hdown : (hlGroup s g).state = .down
  · have hsame : hlGroup (enableNow mask s) g = hlGroup s g := hlGroup_forEach_of_not_mem enterDown_sameGroupsBut _ (by simp [hdown]) _
    rw [hsame, hdown]
  · obtain ⟨t, -, -, hround⟩ := hlGroup_forEach_of_mem enterDown_sameGroupsBut (P := fun _ => True) (fun _ _ _ => trivial)
      (allGroups.filter fun (x : Fin 8) => !mask.getLsbD x.val && (hlGroup s x).state != .down) (nodup_allGroups.filter _) (g := g)
      (List.mem_filter.mpr ⟨mem_allGroups g, Bool.and_eq_true_iff.mpr ⟨by rw [h]; rfl, bne_iff_ne.mpr hdown⟩⟩)
      (s := s.onHlk fun h => { h with groupEn := mask }) trivial
    exact (congrArg Group.state hround).trans (enterDown_ends g t).1

end

section
variable {mask : BitVec 8} {s : State}

theorem exec_retrain_now (hl : live s = true) (hv : s.drive.vol = none) : exec (.retrain mask) s = .next (retrainNow mask s) :=
  (goLive_of_live _ hl).trans (by simp [writeRetrain, hv])

theorem exec_groupEn_now (hl : live s = true) (hv : s.drive.vol = none) : exec (.groupEn mask) s = .next (enableNow mask s) :=
  (goLive_of_live _ hl).trans (by simp [writeGroupEn, hv])

theorem exec_retrain_mounted (hl : live s = true) (hv : s.drive.vol ≠ none) :
    exec (.retrain mask) s = .next (s.onHlk fun h => { h with retrainNext := h.retrainNext ||| mask }) :=
  (goLive_of_live _ hl).trans (congrArg _ (if_pos (Option.isSome_iff_ne_none.mpr hv)))

theorem exec_groupEn_mounted (hl : live s = true) (hv : s.drive.vol ≠ none) :
    exec (.groupEn mask) s = .next (s.onHlk fun h => { h with groupEnNext := some mask }) :=
  (goLive_of_live _ hl).trans (congrArg _ (if_pos (Option.isSome_iff_ne_none.mpr hv)))

theorem retrainNoted_changesOnly : changesOnly [.hlkRetrainNext] s (s.onHlk fun h => { h with retrainNext := h.retrainNext ||| mask }) := by
  refine Kept.changesOnly (onHlk_kept _ (fun h => ?_) (Kept.refl _ s))
  exact { HlkAgree.refl _ h with retrainNext := .inl (testBit_fieldMask rfl) }

theorem groupEnNoted_changesOnly : changesOnly [.hlkGroupEnNext] s (s.onHlk fun h => { h with groupEnNext := some mask }) := by
  refine Kept.changesOnly (onHlk_kept _ (fun h => ?_) (Kept.refl _ s))
  exact { HlkAgree.refl _ h with groupEnNext := .inl (testBit_fieldMask rfl) }

end

/-! ## Permit tokens (R216) -/

/-- One permit token on an outbound lane, TSEQ counting it. -/
def tokenSent (g : Fin 8) (lane : Nat) (s : State) : State :=
  onGroup g (fun k => { k with tseq := updAt k.tseq lane (· + 1) }) (hlSend g lane 9 (getAt (hlGroup s g).tseq lane 0).toNat [] s)

theorem permitToken_eq (g : Fin 8) (s : State) : permitToken g s = forEach (txLanes (hlGroup s g)) (tokenSent g) s := rfl

theorem tokenSent_unsent (g : Fin 8) (lane : Nat) (s : State) : (hlGroup (tokenSent g lane s) g).unsent =
    { (hlGroup s g).unsent with tseq := updAt (hlGroup s g).tseq lane (· + 1) } := by
  rw [tokenSent, hlGroup_onGroup_same, hlSend, hlGroup_emit, hlGroup_onGroup_same]
  rfl

theorem tokenSent_sameGroupsBut (g : Fin 8) (lane : Nat) (s : State) : sameGroupsBut g s (tokenSent g lane s) :=
  (hlSend_sameGroupsBut g _ _ _ _ s).trans (onGroup_sameGroupsBut g _ _)

theorem tokensSent_state (g : Fin 8) (l : List Nat) (s : State) : (hlGroup (forEach l (tokenSent g) s) g).state = (hlGroup s g).state :=
  forEach_preserves (P := fun t => (hlGroup t g).state = (hlGroup s g).state) l
    (fun lane t ht => (congrArg Group.state (tokenSent_unsent g lane t) :).trans ht) rfl

/-- Of several lanes each that is named sends one token. -/
theorem tokensSent_tseq (g : Fin 8) (l : List Nat) (hl : l.Nodup) {j : Nat} (hj : j < 2) (s : State) :
    getAt (hlGroup (forEach l (tokenSent g) s) g).tseq j 0 =
      if j ∈ l then getAt (hlGroup s g).tseq j 0 + 1 else getAt (hlGroup s g).tseq j 0 := by
  unfold forEach
  induction l generalizing s with
  | nil => rfl
  | cons lane l ih =>
    obtain ⟨hnot, hl⟩ := List.nodup_cons.mp hl
    have htseq : (hlGroup (tokenSent g lane s) g).tseq = updAt (hlGroup s g).tseq lane (· + 1) :=
      (congrArg Group.tseq (tokenSent_unsent g lane s) :)
    refine (ih hl (tokenSent g lane s)).trans ?_
    rw [htseq]
    by_cases h : j = lane
    · rw [h] at hj
      simp [h, hnot, getAt_updAt_same _ _ _ hj]
    · simp [h, getAt_updAt_other _ _ _ h]

theorem mem_txLanes {k : Group} {j : Nat} (hj : j < 2) : j ∈ txLanes k ↔ k.txLive.getLsbD j = true := by
  simp [txLanes, hj]

theorem nodup_txLanes (k : Group) : (txLanes k).Nodup := List.nodup_range.filter _

/-- What a group's lanes carry in a token period: a token, TRAIN or IDLE (R207, R216, R219). -/
def tokenRound (permit : Bool) (g : Fin 8) (s : State) : State :=
  if permit && (hlGroup s g).state == .up then permitToken g s else fillLanes g s

theorem tokenRound_sameGroupsBut (permit : Bool) (g : Fin 8) (s : State) : sameGroupsBut g s (tokenRound permit g s) := by
  unfold tokenRound
  split
  · exact forEach_sameGroupsBut _ (tokenSent_sameGroupsBut g) s
  · unfold fillLanes
    dsimp only
    split
    · exact ((hlSend_sameGroupsBut g _ _ _ _ s).trans (hlSend_sameGroupsBut g _ _ _ _ _)).trans (onGroup_sameGroupsBut g _ _)
    · exact (hlSend_sameGroupsBut g _ _ _ _ s).trans (hlSend_sameGroupsBut g _ _ _ _ _)

/-- A token goes to each live outbound lane of a group in UP, while permitted, and to no other. -/
theorem tokenRound_group (permit : Bool) (g : Fin 8) (s : State) : (hlGroup (tokenRound permit g s) g).state = (hlGroup s g).state ∧
    ∀ j < 2, getAt (hlGroup (tokenRound permit g s) g).tseq j 0 =
      if permit = true ∧ (hlGroup s g).state = .up ∧ (hlGroup s g).txLive.getLsbD j = true
      then getAt (hlGroup s g).tseq j 0 + 1 else getAt (hlGroup s g).tseq j 0 := by
  unfold tokenRound
  split
  next h =>
    obtain ⟨hpermit, hup⟩ := Bool.and_eq_true_iff.mp h
    refine ⟨tokensSent_state g _ s, fun j hj => ?_⟩
    rw [permitToken_eq, tokensSent_tseq g _ (nodup_txLanes _) hj]
    simp [mem_txLanes hj, hpermit, eq_of_beq hup]
  next h =>
    have hfill := fillLanes_onlySent g s g
    have hno : ¬ (permit = true ∧ (hlGroup s g).state = .up) := fun ⟨hpermit, hup⟩ => h (by simp [hpermit, hup])
    refine ⟨(congrArg Group.state hfill :), fun j _ => ?_⟩
    rw [if_neg fun ⟨hpermit, hup, _⟩ => hno ⟨hpermit, hup⟩]
    exact (congrArg (fun k : Group => getAt k.tseq j 0) hfill :)

/-- Writing is permitted (R105, R216). -/
def writePermit (s : State) : Bool := s.wr.tokens && s.wr.sources == 0

/-- The lanes of every group past CDR are filled. -/
def tokensOut (s : State) : State := forEach (idleGroups s) (tokenRound (writePermit s)) s

theorem exec_tokenPeriod {s : State} (hl : live s = true) : exec .tokenPeriod s = .next (tokensOut s) := goLive_of_live _ hl

theorem tokensOut_changesOnly (s : State) : changesOnly [.hlkGroups, .out] s (tokensOut s) := by
  refine Kept.changesOnly (forEach_kept _ _ (fun g t ht => ?_) (Kept.refl _ s))
  unfold tokenRound
  split
  · exact permitToken_kept g (or_fieldMask rfl) ht
  · exact fillLanes_kept g (or_fieldMask rfl) ht

theorem tokensOut_group (g : Fin 8) (s : State) : (hlGroup (tokensOut s) g).state = (hlGroup s g).state ∧
    ∀ j < 2, getAt (hlGroup (tokensOut s) g).tseq j 0 =
      if writePermit s = true ∧ (hlGroup s g).state = .up ∧ (hlGroup s g).txLive.getLsbD j = true
      then getAt (hlGroup s g).tseq j 0 + 1 else getAt (hlGroup s g).tseq j 0 := by
  by_cases hg : g ∈ idleGroups s
  · obtain ⟨t, -, hbefore, hround⟩ := hlGroup_forEach_of_mem (tokenRound_sameGroupsBut (writePermit s)) (P := fun _ => True)
      (fun _ _ _ => trivial) (idleGroups s) (nodup_allGroups.filter _) hg (s := s) trivial
    have hgroup := tokenRound_group (writePermit s) g t
    rw [← hround, hbefore] at hgroup
    exact hgroup
  · have hsame : hlGroup (tokensOut s) g = hlGroup s g :=
      hlGroup_forEach_of_not_mem (tokenRound_sameGroupsBut (writePermit s)) _ hg s
    have hup : (hlGroup s g).state ≠ .up := fun hup => hg (List.mem_filter.mpr ⟨mem_allGroups g, by simp [hup]⟩)
    simp [hsame, hup]

/-! ## The obligation -/

/-- Settles O50: each clause is what its command does to the group it names and what it leaves of the others. -/
theorem lanesTokensAndEnables : Obligations.LanesTokensAndEnables := by
  unfold Obligations.LanesTokensAndEnables
  refine ⟨?discarded, ?inbound, ?outbound, ?tokens, ?mounted, ?retrain, ?enable⟩
  case discarded =>
    intro g lane s hl
    obtain ⟨hbelow, hlost⟩ := discardPacket_limit g lane s
    exact ⟨_, goLive_of_live _ hl, discardPacket_counts g lane s, hbelow, hlost⟩
  case inbound =>
    intro g lane s
    refine ⟨fun hdead hblock hident => goLive_of_fixed ((loseRx_dead hdead).trans (lockLost_other g lane s hblock hident)),
      fun hl hdead htrains => ⟨_, (goLive_of_live _ hl).trans (congrArg _ (loseRx_dead hdead)), lockLost_lock g lane s htrains,
        (lockLost_lanes g lane s).1, lockLost_changesOnly g lane s⟩, fun hl hlive => ?_⟩
    obtain ⟨hrx, htx, -⟩ := loseRx_lanes g lane s
    refine ⟨_, goLive_of_live _ hl, hrx, htx, ?_⟩
    rw [loseRx_live hlive]
    exact ⟨rxDropped_out g lane _, (lockLost_sameGroupsBut g lane s).trans (rxDropped_sameGroupsBut g lane _)⟩
  case outbound =>
    intro g lane s
    refine ⟨fun hdead => goLive_of_fixed (loseTx_dead hdead), fun hl hlive => ?_⟩
    obtain ⟨-, hrx, htx⟩ := loseTx_lanes g lane s
    refine ⟨_, goLive_of_live _ hl, htx, hrx, loseTx_out hlive, fun hmore => loseTx_waits hlive (htx ▸ hmore),
      fun hlast => loseTx_fails hlive (htx ▸ hlast), fun x hx => ?_⟩
    have hother := loseTx_others hlive hx
    exact ⟨(congrArg Group.state hother :), (congrArg Group.rxLive hother :), (congrArg Group.txLive hother :)⟩
  case tokens =>
    intro s hl
    refine ⟨_, exec_tokenPeriod hl, tokensOut_changesOnly s, fun g => ?_⟩
    obtain ⟨hstate, htseq⟩ := tokensOut_group g s
    refine ⟨hstate, fun j hj => (htseq j hj).trans ?_⟩
    simp [writePermit, and_assoc]
  case mounted =>
    intro mask s hl hv
    exact ⟨⟨_, exec_retrain_mounted hl hv, rfl, retrainNoted_changesOnly⟩, ⟨_, exec_groupEn_mounted hl hv, rfl, groupEnNoted_changesOnly⟩⟩
  case retrain =>
    intro mask s hl hv
    exact ⟨_, exec_retrain_now hl hv, fun g => ⟨retrainNow_unnamed mask s, retrainNow_named mask s⟩⟩
  case enable =>
    intro mask s hl hv
    exact ⟨_, exec_groupEn_now hl hv, enableNow_groupEn mask s, fun g => ⟨enableNow_disabled mask s, enableNow_enabled mask s⟩⟩

end Sys2Proof.Machine
end

section
/-! PROOF. A Lantern record of class 2 or 3 stands in the ring (R381, R382, R384). -/

namespace Sys2Proof.Machine

/-- A record as it is numbered when it is put into the ring. -/
def numbered (r : LanRec) (l : Lantern) : LanRec := { r with rseq := (l.rseq + 1) % 2 ^ 32 }

/-- What the ring keeps when a record comes: all but its oldest record when it is full (R382). -/
def ringKept (l : Lantern) : List LanRec := if ringMax ≤ l.ring.length then l.ring.drop 1 else l.ring

@[simp] theorem pinPut_ring (limit : Nat) (r : LanRec) (l : Lantern) : (pinPut limit r l).ring = l.ring := by
  unfold pinPut
  dsimp only
  split <;> rfl

/-- The newest record of the ring is the one put in. -/
theorem lanPut_ring (r : LanRec) (b : Bool) (l : Lantern) : (lanPut r b l).ring = ringKept l ++ [numbered r l] := by
  have hput : (ringPut (numbered r l) { l with rseq := (l.rseq + 1) % 2 ^ 32 }).ring = ringKept l ++ [numbered r l] := rfl
  unfold lanPut
  dsimp only
  split
  · exact (pinPut_ring _ _ _).trans hput
  · split
    · exact (pinPut_ring _ _ _).trans hput
    · exact hput

/-- The newest record stays when one more comes. -/
theorem newest_mem_ringKept {l : Lantern} {pre : List LanRec} {r : LanRec} (h : l.ring = pre ++ [r]) : r ∈ ringKept l := by
  unfold ringKept
  rw [h]
  split
  next hfull =>
    cases pre with
    | nil => simp at hfull
    | cons q pre => simp
  next => simp

theorem newest_mem_lanFire {s : State} {pre : List LanRec} {r : LanRec} (code : Nat) (h : s.lantern.ring = pre ++ [r]) :
    r ∈ (lanFire code s).lantern.ring := by
  have hrest := fun d t => (raise_kept 109 rfl (lanEvent_kept 0x0091 2 d rfl (Kept.refl (allBut .lanternRing) t))).same .lanternRing rfl
  unfold lanFire
  dsimp only
  rw [hrest]
  change r ∈ (lanPut _ true s.lantern).ring
  rw [lanPut_ring]
  exact List.mem_append_left _ (newest_mem_ringKept h)

theorem madeRecord_lanWrite (code cls sup : Nat) (data : Bytes) (s : State) : madeRecord code data s (lanWrite code cls sup data s) := by
  refine ⟨numbered (lanRec s code cls sup data) s.lantern, ?_, rfl, rfl, rfl⟩
  unfold lanWrite
  lift_lets
  intro hit post s1 s2
  have hevent : s2.lantern.ring = s1.lantern.ring := (lanEvent_kept code cls data (Nat.or_self _) (Kept.refl _ s1)).same .lanternRing rfl
  have hring : s2.lantern.ring = ringKept s.lantern ++ [numbered (lanRec s code cls sup data) s.lantern] :=
    hevent.trans (lanPut_ring _ _ _)
  split
  · exact newest_mem_lanFire code hring
  · rw [hring]
    exact List.mem_append_right _ (List.mem_singleton.mpr rfl)

/-- A record of class 2 or 3 is never suppressed (R383). -/
theorem madeRecord_lantern {code : Nat} (h : 2 ≤ lanClass code) (data : Bytes) (s : State) : madeRecord code data s (lantern code data s) := by
  rw [show lantern code data s = lanWrite code (lanClass code) 0 data s from if_pos h]
  exact madeRecord_lanWrite code _ 0 data s

theorem madeRecord.of_ring {code : Nat} {data : Bytes} {s t u : State} (h : madeRecord code data s t) (hring : u.lantern.ring = t.lantern.ring) :
    madeRecord code data s u := by
  obtain ⟨r, hr, hfields⟩ := h
  exact ⟨r, hring ▸ hr, hfields⟩

end Sys2Proof.Machine
end

section
/-! PROOF. The training of a group, from DOWN to UP (R206, R218 to R220, R224). -/

namespace Sys2Proof.Machine

/-! ## From CDR to IDENT (R206, R219) -/

/-- IDLE goes out, and the group is in BLOCK. -/
def blockBegun (g : Fin 8) (s : State) : State := groupEdge g (onGroup g (fun k => { k with state := .block }) (sendIdle g s))

/-- The lanes of good sync headers are in block lock, their polarity corrected. -/
def lanesLocked (g : Fin 8) (hs : Vector (List (BitVec 2)) 8) (s : State) : State :=
  onGroup g (fun k => { k with
    lock := (hlGroup s g).lock ||| lanesOf hs gainsLock
    inverted := (k.inverted &&& ~~~lanesOf hs gainsLock) ||| (lanesOf hs gainsLock &&& lanesOf hs laneInverted) }) s

/-- TRAIN goes out, and the group is in IDENT. -/
def identBegun (g : Fin 8) (s : State) : State :=
  groupEdge g (onGroup g (fun k => { k with state := .ident, trained := 0 }) (sendTrain g s))

theorem sendIdle_sameGroupsBut (g : Fin 8) (s : State) : sameGroupsBut g s (sendIdle g s) :=
  (hlSend_sameGroupsBut g 0 0 0 [] s).trans (hlSend_sameGroupsBut g 1 0 0 [] _)

theorem sendTrain_sameGroupsBut (g : Fin 8) (s : State) : sameGroupsBut g s (sendTrain g s) :=
  ((hlSend_sameGroupsBut g 0 4 _ _ s).trans (hlSend_sameGroupsBut g 1 4 _ _ _)).trans (onGroup_sameGroupsBut g _ _)

section
variable (g : Fin 8) (hs : Vector (List (BitVec 2)) 8) (s : State)

theorem blockBegun_group : (hlGroup (blockBegun g s) g).state = .block ∧ sameGroupsBut g s (blockBegun g s) := by
  refine ⟨by rw [blockBegun, hlGroup_groupEdge, hlGroup_onGroup_same], fun x hx => ?_⟩
  rw [blockBegun, hlGroup_groupEdge, hlGroup_onGroup_other hx, sendIdle_sameGroupsBut g s x hx]

theorem lanesLocked_group : (hlGroup (lanesLocked g hs s) g).state = (hlGroup s g).state ∧
    (hlGroup (lanesLocked g hs s) g).lock = (hlGroup s g).lock ||| lanesOf hs gainsLock := by
  rw [lanesLocked, hlGroup_onGroup_same]
  exact ⟨rfl, rfl⟩

theorem identBegun_group : (hlGroup (identBegun g s) g).state = .ident ∧ (hlGroup (identBegun g s) g).lock = (hlGroup s g).lock ∧
    sameGroupsBut g s (identBegun g s) := by
  have hlock := (congrArg Group.lock (sendTrain_onlySent g s g) :)
  refine ⟨?_, ?_, fun x hx => ?_⟩
  · rw [identBegun, hlGroup_groupEdge, hlGroup_onGroup_same]
  · rw [identBegun, hlGroup_groupEdge, hlGroup_onGroup_same]
    exact hlock
  · rw [identBegun, hlGroup_groupEdge, hlGroup_onGroup_other hx, sendTrain_sameGroupsBut g s x hx]

end

section
variable {g : Fin 8} {hs : Vector (List (BitVec 2)) 8} {s : State}

theorem exec_cdrTimeout_block (hl : live s = true) (h : (hlGroup s g).state = .cdr) :
    exec (.cdrTimeout g) s = .next (blockBegun g s) :=
  (goLive_of_live _ hl).trans (congrArg _ (if_pos h))

theorem exec_blockLockGained_ident (hl : live s = true) (h : (hlGroup s g).state = .ident) :
    exec (.blockLockGained g hs) s = .next (lanesLocked g hs s) := by
  change execBlockLockGained g hs s = _
  rw [execBlockLockGained, goLive_of_live _ hl]
  simp only [h, lanesLocked]

theorem exec_blockLockGained_few (hl : live s = true) (h : (hlGroup s g).state = .block)
    (hfew : ¬ 2 ≤ popcount ((hlGroup s g).lock ||| lanesOf hs gainsLock)) :
    exec (.blockLockGained g hs) s = .next (lanesLocked g hs s) := by
  change execBlockLockGained g hs s = _
  rw [execBlockLockGained, goLive_of_live _ hl]
  simp only [h, hfew, if_false, lanesLocked]

theorem exec_blockLockGained_two (hl : live s = true) (h : (hlGroup s g).state = .block)
    (htwo : 2 ≤ popcount ((hlGroup s g).lock ||| lanesOf hs gainsLock)) :
    exec (.blockLockGained g hs) s = .next (identBegun g (lanesLocked g hs s)) := by
  change execBlockLockGained g hs s = _
  rw [execBlockLockGained, goLive_of_live _ hl]
  simp only [h, htwo, if_true, lanesLocked, identBegun]

theorem exec_blockLockGained_away (hblock : (hlGroup s g).state ≠ .block) (hident : (hlGroup s g).state ≠ .ident) :
    exec (.blockLockGained g hs) s = .next s := by
  change execBlockLockGained g hs s = _
  refine goLive_of_fixed ?_
  cases h : (hlGroup s g).state with
  | block => exact absurd h hblock
  | ident => exact absurd h hident
  | down | cdr | config | up => rfl

/-- Lanes that come into block lock, in a group that trains: with two in lock it is in IDENT. -/
theorem exec_blockLockGained (hl : live s = true) (h : (hlGroup s g).state = .block ∨ (hlGroup s g).state = .ident) :
    ∃ t, exec (.blockLockGained g hs) s = .next t ∧ (hlGroup t g).lock = (hlGroup s g).lock ||| lanesOf hs gainsLock ∧
      ((hlGroup t g).state = .ident ↔ (hlGroup s g).state = .ident ∨ 2 ≤ popcount ((hlGroup s g).lock ||| lanesOf hs gainsLock)) ∧
      sameGroupsBut g s t := by
  obtain ⟨hstate, hlock⟩ := lanesLocked_group g hs s
  have hothers : sameGroupsBut g s (lanesLocked g hs s) := onGroup_sameGroupsBut g _ s
  rcases h with h | h
  · by_cases htwo : 2 ≤ popcount ((hlGroup s g).lock ||| lanesOf hs gainsLock)
    · obtain ⟨hident, hsame, hbut⟩ := identBegun_group g (lanesLocked g hs s)
      exact ⟨_, exec_blockLockGained_two hl h htwo, hsame.trans hlock, ⟨fun _ => .inr htwo, fun _ => hident⟩, hothers.trans hbut⟩
    · refine ⟨_, exec_blockLockGained_few hl h htwo, hlock, ?_, hothers⟩
      simp [hstate, h, htwo]
  · exact ⟨_, exec_blockLockGained_ident hl h, hlock, by simp [hstate, h], hothers⟩

end

/-! ## The lanes that a test picks -/

theorem getLsbD_lanesFold (p : Nat → Bool) (n : Nat) {j : Nat} (hj : j < 8) :
    ((List.range n).foldl (fun m i => setBit m i (p i)) (0 : BitVec 8)).getLsbD j = (decide (j < n) && p j) := by
  induction n with
  | zero => simp
  | succ n ih =>
    rw [List.range_succ, List.foldl_append, List.foldl_cons, List.foldl_nil, getLsbD_setBit, ih]
    by_cases h : n = j
    · simp [h, hj]
    · have hlt : j < n + 1 ↔ j < n := by omega
      simp [h, hlt]

theorem getLsbD_lanesOf (hs : Vector (List (BitVec 2)) 8) (p : List (BitVec 2) → Bool) (j : Fin 8) :
    (lanesOf hs p).getLsbD j.val = p hs[j] := by
  rw [lanesOf, getLsbD_lanesFold (fun i => p (getAt hs i [])) 8 j.isLt, decide_eq_true j.isLt, Bool.true_and, getAt_fin]

theorem gainsLock_iff (hs : List (BitVec 2)) :
    gainsLock hs = true ↔ 64 ≤ hs.length ∧ ∀ h ∈ hs.drop (hs.length - 64), h = 1 ∨ h = 2 := by
  have hvalid : ∀ h, headerValid h = true ↔ h = 1 ∨ h = 2 := by decide
  rw [gainsLock, Bool.and_eq_true, decide_eq_true_iff, List.all_eq_true]
  simp only [hvalid]

/-! ## Training fails (R219) -/

/-- A group whose training fails is in DOWN, with the record of it. -/
theorem trainFailed_ends (g : Fin 8) (at_ reason : Nat) (s : State) : (hlGroup (trainFailed g at_ reason s) g).state = .down ∧
    (hlGroup (trainFailed g at_ reason s) g).refused = (hlGroup s g).refused ∧
    madeRecord 0x0012 (le 1 g.val ++ le 1 at_ ++ le 1 reason) s (trainFailed g at_ reason s) := by
  obtain ⟨hdown, hrefused⟩ := enterDown_ends g (lantern 0x0012 (le 1 g.val ++ le 1 at_ ++ le 1 reason) s)
  rw [hlGroup_lantern] at hrefused
  refine ⟨hdown, hrefused, (madeRecord_lantern (by decide) _ s).of_ring ?_⟩
  exact (enterDown_kept g (Nat.or_self _) (Kept.refl _ _)).same .lanternRing rfl

/-- In IDENT the group is then not retried before RETRAIN. -/
theorem identFailed_ends (g : Fin 8) (reason : Nat) (s : State) : (hlGroup (identFailed g reason s) g).state = .down ∧
    (hlGroup (identFailed g reason s) g).refused = true ∧
    madeRecord 0x0012 (le 1 g.val ++ le 1 3 ++ le 1 reason) s (identFailed g reason s) := by
  obtain ⟨hdown, -, hrecord⟩ := trainFailed_ends g 3 reason s
  rw [identFailed, hlGroup_onGroup_same]
  exact ⟨hdown, rfl, hrecord.of_ring rfl⟩

/-! ## TRAIN and CONFIG (R219, R220) -/

/-- A TRAIN taken on a lane: its lane number and the front-end's identity are known (R219). -/
def trainTaken (g : Fin 8) (lane h p : Nat) (s : State) : State :=
  onGroup g (fun k => { k with
    trained := setBit k.trained lane true, laneNo := putAt k.laneNo lane (bits h 4 3), vendor := BitVec.ofNat 16 (bits p 0 16),
    part := BitVec.ofNat 16 (bits p 16 16) }) s

/-- Of its group's fields but those that packets change, CONFIG sets the state, the lanes and the command that is awaited. -/
theorem enterConfig_unsent (g : Fin 8) (s : State) : (hlGroup (enterConfig g s) g).unsent =
    { (hlGroup s g).unsent with state := .config, rxLive := (hlGroup s g).lock, awaits := some (hlGroup (enterConfig g s) g).cseq } := by
  unfold enterConfig
  lift_lets
  intro lock s1 s2 s3 s4 s5
  have hbegun : (hlGroup s1 g).unsent = { (hlGroup s g).unsent with state := .config, rxLive := lock } :=
    congrArg Group.unsent (hlGroup_onGroup_same g _ s)
  have hnoted : hlGroup s2 g = hlGroup s1 g :=
    forEach_preserves (P := fun t => hlGroup t g = hlGroup s1 g) _ (fun j t ht => (hlGroup_noteOut t g _ _).trans ht) rfl
  have hsent : onlySent s2 s5 := ((hlCommand_onlySent g 4 0 _ s2).trans (forEach_onlySent _ (fun e t => hlCommand_onlySent g 6 0 _ t) s3)).trans
    ((hlCommand_onlySent g 3 _ _ s4).trans (commandRates_onlySent g _ _ _))
  have hgroup : (hlGroup s5 g).unsent = { (hlGroup s g).unsent with state := .config, rxLive := lock } := by rw [hsent g, hnoted, hbegun]
  rw [hlGroup_groupEdge, hlGroup_onGroup_same]
  exact congrArg (fun k : Group => { k with awaits := some (hlGroup s5 g).cseq }) hgroup

section
variable {g lane : Fin 8} {h p : BitVec 64} {s : State}

theorem trainOk_eq_false_iff : trainOk h p = false ↔
    (!packetOk 4 (0x1F * 2 ^ 7 + 0xFFFFF * 2 ^ 20) h [p] || decide (2 ^ 41 ≤ p.toNat)) = true := by
  rw [trainOk, Bool.and_eq_false_iff, Bool.or_eq_true, Bool.not_eq_true', decide_eq_false_iff_not, decide_eq_true_iff, Nat.not_lt]

theorem exec_trainPacket_bad (hl : live s = true) (hp : trainOk h p = false) :
    exec (.trainPacket g lane h p) s = .next (discardPacket g lane s) := by
  change execTrainPacket g lane h p s = _
  rw [execTrainPacket, goLive_of_live _ hl, if_pos (trainOk_eq_false_iff.mp hp)]

theorem trainPacket_good (hp : trainOk h p = true) : exec (.trainPacket g lane h p) s = goLive (fun s =>
    if (hlGroup s g).state = .ident ∧ (hlGroup s g).lock.getLsbD lane = true then takeTrain g lane h.toNat p.toNat s else s) s := by
  have hgood := mt trainOk_eq_false_iff.mpr (Bool.eq_false_iff.not_left.mpr hp)
  change execTrainPacket g lane h p s = _
  simp only [execTrainPacket, if_neg hgood]

theorem exec_trainPacket_away (hp : trainOk h p = true) (haway : (hlGroup s g).state ≠ .ident ∨ (hlGroup s g).lock.getLsbD lane = false) :
    exec (.trainPacket g lane h p) s = .next s := by
  rw [trainPacket_good hp]
  refine goLive_of_fixed (if_neg fun ⟨hident, hlock⟩ => ?_)
  exact haway.elim (fun hstate => hstate hident) fun hdark => Bool.false_ne_true (hdark.symm.trans hlock)

theorem exec_trainPacket_taken (hl : live s = true) (hp : trainOk h p = true) (hident : (hlGroup s g).state = .ident)
    (hlock : (hlGroup s g).lock.getLsbD lane = true) : exec (.trainPacket g lane h p) s = .next (takeTrain g lane h.toNat p.toNat s) := by
  rw [trainPacket_good hp, goLive_of_live _ hl, if_pos ⟨hident, hlock⟩]

end

section
variable {g : Fin 8} {lane h p : Nat} {s : State}

theorem takeTrain_refused {r : Nat} (hr : identReason g h p = some r) : takeTrain g lane h p s = identFailed g r s := by
  simp only [takeTrain, hr]

theorem takeTrain_taken (hr : identReason g h p = none) : takeTrain g lane h p s =
    if (hlGroup s g).lock &&& ~~~ setBit (hlGroup s g).trained lane true = 0 then enterConfig g (trainTaken g lane h p s)
    else trainTaken g lane h p s := by
  have hgroup : hlGroup (trainTaken g lane h p s) g = _ := hlGroup_onGroup_same g _ s
  simp only [takeTrain, hr]
  change (if (hlGroup (trainTaken g lane h p s) g).lock &&& ~~~(hlGroup (trainTaken g lane h p s) g).trained = 0 then _ else _) = _
  rw [hgroup]
  rfl

theorem trainTaken_group (hlane : lane < 8) : getAt (hlGroup (trainTaken g lane h p s) g).laneNo lane 0 = bits h 4 3 ∧
    (hlGroup (trainTaken g lane h p s) g).vendor.toNat = bits p 0 16 ∧
    (hlGroup (trainTaken g lane h p s) g).state = (hlGroup s g).state ∧ (hlGroup (trainTaken g lane h p s) g).lock = (hlGroup s g).lock := by
  rw [trainTaken, hlGroup_onGroup_same]
  exact ⟨getAt_updAt_same _ _ _ hlane, by simp [bits], rfl, rfl⟩

theorem trainTaken_changesOnly (g : Fin 8) (lane h p : Nat) (s : State) : changesOnly [.hlkGroups] s (trainTaken g lane h p s) :=
  (onGroup_kept g _ (or_fieldMask rfl) (Kept.refl (fieldMask [.hlkGroups]) s)).changesOnly

/-- A TRAIN whose identity is accepted: once every locked lane has had one the group is in CONFIG. -/
theorem takeTrain_accepted (hlane : lane < 8) (hr : identReason g h p = none) :
    getAt (hlGroup (takeTrain g lane h p s) g).laneNo lane 0 = bits h 4 3 ∧
    (hlGroup (takeTrain g lane h p s) g).vendor.toNat = bits p 0 16 ∧
    ((hlGroup s g).lock &&& ~~~ setBit (hlGroup s g).trained lane true ≠ 0 →
      (hlGroup (takeTrain g lane h p s) g).state = (hlGroup s g).state ∧ changesOnly [.hlkGroups] s (takeTrain g lane h p s)) ∧
    ((hlGroup s g).lock &&& ~~~ setBit (hlGroup s g).trained lane true = 0 →
      (hlGroup (takeTrain g lane h p s) g).state = .config ∧ (hlGroup (takeTrain g lane h p s) g).rxLive = (hlGroup s g).lock ∧
      (hlGroup (takeTrain g lane h p s) g).awaits = some (hlGroup (takeTrain g lane h p s) g).cseq) := by
  obtain ⟨hno, hvendor, hstate, hlock⟩ := trainTaken_group (g := g) (h := h) (p := p) (s := s) hlane
  rw [takeTrain_taken hr]
  split
  next hall =>
    have hconfig := enterConfig_unsent g (trainTaken g lane h p s)
    refine ⟨(congrArg (fun k : Group => getAt k.laneNo lane 0) hconfig :).trans hno,
      (congrArg (fun k : Group => k.vendor.toNat) hconfig :).trans hvendor, fun hmore => absurd hall hmore, fun _ => ?_⟩
    exact ⟨(congrArg Group.state hconfig :), (congrArg Group.rxLive hconfig :).trans hlock, (congrArg Group.awaits hconfig :)⟩
  next hmore =>
    exact ⟨hno, hvendor, fun _ => ⟨hstate, trainTaken_changesOnly g lane h p s⟩, fun hall => absurd hall hmore⟩

end

/-! ## STATUS (R218, R219, R224) -/

section
variable {g lane : Fin 8} {h p : BitVec 64} {s : State}

theorem statusOk_eq_false_iff : statusOk h p = false ↔
    (!packetOk 3 (0xF * 2 ^ 8 + 0xF * 2 ^ 36) h [p] || bits p.toNat 10 2 != 0 || bits p.toNat 26 6 != 0) = true := by
  rw [← Bool.not_eq_true', statusOk, Bool.not_and, Bool.not_and]
  rfl

theorem exec_statusPacket_bad (hl : live s = true) (hp : statusOk h p = false) :
    exec (.statusPacket ⟨g, lane⟩ h p) s = .next (discardPacket g lane s) := by
  change execStatusPacket ⟨g, lane⟩ h p s = _
  rw [execStatusPacket, goLive_of_live _ hl, if_pos (statusOk_eq_false_iff.mp hp)]

theorem statusPacket_good (hp : statusOk h p = true) : exec (.statusPacket ⟨g, lane⟩ h p) s = goLive (fun s =>
    if (hlGroup s g).rxLive.getLsbD lane = true then takeStatus g h.toNat p.toNat s else s) s := by
  have hgood := mt statusOk_eq_false_iff.mpr (Bool.eq_false_iff.not_left.mpr hp)
  change execStatusPacket ⟨g, lane⟩ h p s = _
  simp only [execStatusPacket, if_neg hgood]

theorem exec_statusPacket_dead (hp : statusOk h p = true) (hdead : (hlGroup s g).rxLive.getLsbD lane = false) :
    exec (.statusPacket ⟨g, lane⟩ h p) s = .next s := by
  rw [statusPacket_good hp]
  exact goLive_of_fixed (if_neg fun hlive => Bool.false_ne_true (hdead.symm.trans hlive))

theorem exec_statusPacket_taken (hl : live s = true) (hp : statusOk h p = true) (hlive : (hlGroup s g).rxLive.getLsbD lane = true) :
    exec (.statusPacket ⟨g, lane⟩ h p) s = .next (takeStatus g h.toNat p.toNat s) := by
  rw [statusPacket_good hp, goLive_of_live _ hl, if_pos hlive]

end

/-- What a STATUS reports of its group, whatever its state: its index and its flags (R218). -/
def statusNoted (g : Fin 8) (h p : Nat) (s : State) : State :=
  let s1 := onGroup g (fun k => { k with
    sidx := bits h 12 24, sidxAt := s.power.time, cntLapse := if bits p 20 2 ≠ 0 then inc k.cntLapse else k.cntLapse }) s
  if bits p 20 6 ≠ 0 then groupEdge g s1 else s1

/-- A group in UP has had the command confirmed that it awaited (R218, R224). -/
def statusConfirmed (g : Fin 8) (c : Nat) (s : State) : State :=
  if confirms (hlGroup s g) c then clearTx (onGroup g (fun k => { k with awaits := none }) s) else s

/-- The outbound lanes of which a STATUS reports no block lock. -/
def darkLanes (p : Nat) : List Nat := (List.range 2).filter fun j => !(bits p 8 2).testBit j

section
variable (g : Fin 8) (h p : Nat) (s : State)

theorem hlGroup_statusNoted : hlGroup (statusNoted g h p s) g = { hlGroup s g with
    sidx := bits h 12 24, sidxAt := s.power.time,
    cntLapse := if bits p 20 2 ≠ 0 then inc (hlGroup s g).cntLapse else (hlGroup s g).cntLapse } := by
  unfold statusNoted
  dsimp only
  split
  · rw [hlGroup_groupEdge, hlGroup_onGroup_same]
  · rw [hlGroup_onGroup_same]

theorem statusNoted_confirms (c : Nat) : confirms (hlGroup (statusNoted g h p s) g) c = confirms (hlGroup s g) c := by
  rw [hlGroup_statusNoted]
  rfl

theorem takeStatus_config (hconfig : (hlGroup s g).state = .config) : takeStatus g h p s =
    if confirms (hlGroup s g) (bits h 4 4) then enterUp g (statusNoted g h p s) else statusNoted g h p s := by
  have hstate : (hlGroup (statusNoted g h p s) g).state = .config := by rw [hlGroup_statusNoted, ← hconfig]
  rw [← statusNoted_confirms g h p s]
  unfold takeStatus
  extract_lets s1 s2 done
  change (hlGroup s2 g).state = _ at hstate
  simp only [hstate]
  rfl

theorem takeStatus_up (hup : (hlGroup s g).state = .up) : takeStatus g h p s =
    countTx g (bits p 12 8) (forEach (darkLanes p) (loseTx g) (statusConfirmed g (bits h 4 4) (statusNoted g h p s))) := by
  have hstate : (hlGroup (statusNoted g h p s) g).state = .up := by rw [hlGroup_statusNoted, ← hup]
  unfold takeStatus
  extract_lets s1 s2 done
  change (hlGroup s2 g).state = _ at hstate
  simp only [hstate]
  rfl

theorem hlGroup_statusConfirmed (c : Nat) : hlGroup (statusConfirmed g c s) g =
    { hlGroup s g with awaits := if confirms (hlGroup s g) c = true then none else (hlGroup s g).awaits } := by
  unfold statusConfirmed
  split
  · rw [hlGroup_clearTx, hlGroup_onGroup_same]
  · rfl

/-- Of its group's fields but those that packets change, UP sets the state and what is awaited. -/
theorem enterUp_unsent : (hlGroup (enterUp g s) g).unsent = { (hlGroup s g).unsent with state := .up, awaits := none } := by
  unfold enterUp
  lift_lets
  intro s1 k s2 s3
  have hbegun : hlGroup s1 g = { hlGroup s g with state := .up, awaits := none } := hlGroup_onGroup_same g _ s
  have hin : hlGroup s2 g = hlGroup s1 g :=
    forEach_preserves (P := fun t => hlGroup t g = hlGroup s1 g) _ (fun j t ht => (hlGroup_noteBack t g _ _).trans ht) rfl
  have hout : hlGroup s3 g = hlGroup s2 g :=
    forEach_preserves (P := fun t => hlGroup t g = hlGroup s2 g) _ (fun j t ht => (hlGroup_noteBack t g _ _).trans ht) rfl
  rw [kickWrites_onlySent, hlGroup_clampNow, updateShed_onlySent, hlGroup_anchorRange, hlGroup_groupEdge, hout, hin, hbegun]
  rfl

theorem countTx_none : hlGroup (countTx g 0 s) g = { hlGroup s g with
    txErrMs := s.power.time / msTicks,
    txErrs := (if (hlGroup s g).txErrMs = s.power.time / msTicks then (hlGroup s g).txErrs else 0) + 0 } := by
  unfold countTx
  dsimp only
  rw [if_neg fun h => Nat.lt_irrefl 0 h.1, hlGroup_onGroup_same]

end

section
variable {g : Fin 8} {j : Nat} {s : State}

/-- A lane that is not live stays so when another is lost. -/
theorem loseTx_keeps_dark (h : (hlGroup s g).txLive.getLsbD j = false) (lane : Nat) : (hlGroup (loseTx g lane s) g).txLive.getLsbD j = false := by
  rw [(loseTx_lanes g lane s).2.2]
  exact getLsbD_setBit_false_of_clear lane h

/-- The outbound errors that are counted bring no lane back. -/
theorem countTx_keeps_dark (n : Nat) (h : (hlGroup s g).txLive.getLsbD j = false) : (hlGroup (countTx g n s) g).txLive.getLsbD j = false := by
  unfold countTx
  lift_lets
  intro ms s1
  have hcounted : (hlGroup s1 g).txLive.getLsbD j = false := by
    rw [show hlGroup s1 g = _ from hlGroup_onGroup_same g _ s]
    exact h
  split
  · split
    · exact loseTx_keeps_dark hcounted _
    · exact loseTx_keeps_dark (s := draw s1) hcounted _
  · exact hcounted

/-- Every lane of a list is lost, and none comes back. -/
theorem forEach_loseTx_dark (l : List Nat) (h : j ∈ l ∨ (hlGroup s g).txLive.getLsbD j = false) :
    (hlGroup (forEach l (loseTx g) s) g).txLive.getLsbD j = false := by
  unfold forEach
  induction l generalizing s with
  | nil => exact h.resolve_left List.not_mem_nil
  | cons lane l ih =>
    refine ih ?_
    rcases h with h | h
    · rcases List.mem_cons.mp h with rfl | hl
      · exact .inr (by rw [(loseTx_lanes g j s).2.2, getLsbD_setBit_false_self])
      · exact .inl hl
    · exact .inr (loseTx_keeps_dark h lane)

/-- The confirming STATUS brings the group from CONFIG to UP, and no other does (R219). -/
theorem takeStatus_config_group {h p : Nat} (hconfig : (hlGroup s g).state = .config) :
    ((hlGroup (takeStatus g h p s) g).state = .up ↔ confirms (hlGroup s g) (bits h 4 4) = true) ∧
    ((hlGroup (takeStatus g h p s) g).state = .up →
      (hlGroup (takeStatus g h p s) g).awaits = none ∧ (hlGroup (takeStatus g h p s) g).rxLive = (hlGroup s g).rxLive) := by
  have hnoted := hlGroup_statusNoted g h p s
  rw [takeStatus_config g h p s hconfig]
  split
  next hdone =>
    have hup := enterUp_unsent g (statusNoted g h p s)
    rw [hnoted] at hup
    exact ⟨⟨fun _ => hdone, fun _ => (congrArg Group.state hup :)⟩,
      fun _ => ⟨(congrArg Group.awaits hup :), (congrArg Group.rxLive hup :)⟩⟩
  next hdone =>
    have hstate : (hlGroup (statusNoted g h p s) g).state ≠ .up := by simp [hnoted, hconfig]
    exact ⟨⟨fun hup => absurd hup hstate, fun hc => absurd hc hdone⟩, fun hup => absurd hup hstate⟩

/-- A STATUS in UP that reports block lock on both lanes and no error confirms, and changes nothing else of the group's lanes. -/
theorem takeStatus_up_good {h p : Nat} (hup : (hlGroup s g).state = .up) (hboth : bits p 8 2 = 3) (hnone : bits p 12 8 = 0) :
    (hlGroup (takeStatus g h p s) g).sidx = bits h 12 24 ∧ (hlGroup (takeStatus g h p s) g).state = .up ∧
    (hlGroup (takeStatus g h p s) g).rxLive = (hlGroup s g).rxLive ∧ (hlGroup (takeStatus g h p s) g).txLive = (hlGroup s g).txLive ∧
    (hlGroup (takeStatus g h p s) g).awaits = if confirms (hlGroup s g) (bits h 4 4) = true then none else (hlGroup s g).awaits := by
  have hdark : darkLanes p = [] := by rw [darkLanes, hboth]; decide
  rw [takeStatus_up g h p s hup, hnone, hdark, countTx_none]
  change (hlGroup (statusConfirmed g _ _) g).sidx = _ ∧ (hlGroup (statusConfirmed g _ _) g).state = _ ∧
    (hlGroup (statusConfirmed g _ _) g).rxLive = _ ∧ (hlGroup (statusConfirmed g _ _) g).txLive = _ ∧
    (hlGroup (statusConfirmed g _ _) g).awaits = _
  rw [hlGroup_statusConfirmed, statusNoted_confirms, hlGroup_statusNoted]
  exact ⟨rfl, hup, rfl, rfl, rfl⟩

/-- A lane whose block lock a STATUS does not report is lost (R224). -/
theorem takeStatus_up_dark {h p : Nat} (hup : (hlGroup s g).state = .up) (hj : j < 2) (hdark : (bits p 8 2).testBit j = false) :
    (hlGroup (takeStatus g h p s) g).txLive.getLsbD j = false := by
  rw [takeStatus_up g h p s hup]
  exact countTx_keeps_dark _ (forEach_loseTx_dark _ (.inl (List.mem_filter.mpr ⟨List.mem_range.mpr hj, by simp [hdark]⟩)))

end

/-! ## The obligation -/

/-- Settles O49: the states of the training one after the other, each by what its event makes of the group. -/
theorem groupsTrainFromDownToUp : Obligations.GroupsTrainFromDownToUp := by
  unfold Obligations.GroupsTrainFromDownToUp
  refine ⟨?start, ?cdr, ?lock, fun hs j => by rw [getLsbD_lanesOf, gainsLock_iff], ?block, ?ident, ?train, ?status, ?confirm⟩
  case start =>
    intro g s c hc may
    have hexec : exec c s = goLive (trainFrom g) s := by
      simp only [List.mem_cons, List.not_mem_nil, or_false] at hc
      rcases hc with rfl | rfl <;> rfl
    refine ⟨fun hnot => hexec.trans (goLive_of_fixed (trainFrom_of_not_mayTrain hnot)), fun hl hmay => ?_⟩
    obtain ⟨hcdr, hrx, htx, hcnt, -⟩ := enterCdr_begins g s
    exact ⟨_, (hexec.trans (goLive_of_live _ hl)).trans (congrArg _ (trainFrom_of_mayTrain hmay)), hcdr, hrx, htx, hcnt,
      enterCdr_sameGroupsBut g s⟩
  case cdr =>
    intro g s
    exact ⟨fun h => goLive_of_fixed (if_neg h), fun hl h => ⟨_, exec_cdrTimeout_block hl h, blockBegun_group g s⟩⟩
  case lock =>
    intro g hs s lanes
    exact ⟨exec_blockLockGained_away, exec_blockLockGained⟩
  case block =>
    intro g s
    exact ⟨fun h => goLive_of_fixed (if_neg h),
      fun hl h => ⟨_, (goLive_of_live _ hl).trans (congrArg _ (if_pos h)), trainFailed_ends g 2 0 s⟩⟩
  case ident =>
    intro g s
    exact ⟨fun h => goLive_of_fixed (if_neg h),
      fun hl h => ⟨_, (goLive_of_live _ hl).trans (congrArg _ (if_pos h)), identFailed_ends g 4 s⟩⟩
  case train =>
    intro g lane h p s hl
    refine ⟨fun hp => ⟨_, exec_trainPacket_bad hl hp, discardPacket_counts g lane s⟩, exec_trainPacket_away, fun hp hident hlock => ?_⟩
    have hexec := exec_trainPacket_taken hl hp hident hlock
    refine ⟨fun r hr => ⟨_, hexec.trans (congrArg _ (takeTrain_refused hr)), identFailed_ends g r s⟩, fun hr => ?_⟩
    have haccepted := takeTrain_accepted (s := s) lane.isLt hr
    rw [hident] at haccepted
    exact ⟨_, hexec, haccepted⟩
  case status =>
    intro g lane h p s hl
    exact ⟨fun hp => ⟨_, exec_statusPacket_bad hl hp, discardPacket_counts g lane s⟩, exec_statusPacket_dead⟩
  case confirm =>
    intro g lane h p s hl hlive
    refine ⟨fun hp hconfig => ⟨_, exec_statusPacket_taken hl hp hlive, takeStatus_config_group hconfig⟩,
      fun hp hup hboth hnone => ⟨_, exec_statusPacket_taken hl hp hlive, takeStatus_up_good hup hboth hnone⟩,
      fun hp hup j hj hdark => ⟨_, exec_statusPacket_taken hl hp hlive, takeStatus_up_dark hup hj hdark⟩⟩

end Sys2Proof.Machine
end

section
/-! PROOF. A dome's parity sets while its dome group is still open (R17, R54). -/

namespace Sys2Proof.Machine

/-! ## The parity of a dome (R17) -/

@[simp] theorem domesReady_setStall (b : Bool) (s : State) : (setStall b s).wr.domesReady = s.wr.domesReady := by
  unfold setStall
  split <;> rfl

@[simp] theorem domesReady_updateStall (s : State) : (updateStall s).wr.domesReady = s.wr.domesReady := by
  simp only [updateStall]
  split
  case isTrue => exact domesReady_setStall true s
  case isFalse =>
    split
    case isTrue => exact domesReady_setStall false s
    case isFalse => rfl

@[simp] theorem domesReady_stage (d : DataSet) (s : State) : (stage d s).wr.domesReady = s.wr.domesReady := by
  simp [stage]

/-- A dome whose parity has been computed is ready. -/
theorem domesReady_makeParity (g dome last : Nat) (s : State) :
    (makeParity g dome last s).wr.domesReady = s.wr.domesReady ++ [(g, dome)] := by
  simp [makeParity]

/-- The parity of a dome is computed once all its data sets are encoded, whether or not its dome group has closed (R17). -/
theorem exec_domeParityCompute_of_encoded {g : Nat} {m : Fin 8} {s : State} (hl : live s = true)
    (hencoded : domeEncoded s g m.val ((closingPos s g).getD 495) = true)
    (hnew : (g, m.val) ∉ s.wr.domesReady ++ s.wr.domesReleased) :
    exec (.domeParityCompute g m) s = .next (makeParity g m.val ((closingPos s g).getD 495) s) := by
  change execDomeParityCompute g m s = _
  refine (goLive_of_live _ hl).trans (congrArg _ (if_pos ?_))
  rw [hencoded, List.contains_eq_mem, decide_eq_false hnew]
  rfl

/-- Such a computation does not leave the state as it was. -/
theorem makeParity_ne (g dome last : Nat) (s : State) : makeParity g dome last s ≠ s := fun heq => by
  simpa [heq] using domesReady_makeParity g dome last s

/-! ## A dome group under way -/

/-- A user data set of partition 0, sealed under this number and encoded. -/
def encodedSet (n : Nat) : DataSet :=
  { freshSet State.reset 0 .user ⟨0, 0xFF, 0⟩ n with id := n, n := some n, stage := .encoded, payload := zeros payloadBytes }

/-- The part runs, and dome group 0 is under way: its data sets 0 to 488, the last of dome 0, are encoded. Position 495, which will close the
group, has not been sealed. -/
def groupUnderWay : State :=
  (State.reset.onBoot fun b => { b with phase := .normal }).onWr fun w =>
    { w with sets := (List.range 489).map encodedSet, nextId := 489 }

theorem groupUnderWay_setOfN {n : Nat} (hn : n < 489) : setOfN groupUnderWay n = some (encodedSet n) := by
  change ((List.range 489).map encodedSet).find? (fun d => d.n == some n) = _
  have hfind : (List.range 489).find? ((fun d : DataSet => d.n == some n) ∘ encodedSet) = some n := by
    refine List.find?_range_eq_some.mpr ⟨?_, List.mem_range.mpr hn, fun j hj => ?_⟩
    · simp [encodedSet]
    · simp [encodedSet, hj.ne]
  rw [List.find?_map, hfind, Option.map_some]

/-- All 62 data sets of dome 0 are encoded. -/
theorem groupUnderWay_domeEncoded : domeEncoded groupUnderWay 0 0 495 = true := by
  refine List.all_eq_true.mpr fun q hq => ?_
  have hq62 : q < 62 := List.mem_range.mp hq
  rw [groupUnderWay_setOfN (by omega)]
  exact Bool.or_true _

/-! ## The obligation -/

/-- Refutes O42: its last clause asks that DOME_PARITY_COMPUTE do nothing while the dome group has not closed, where a dome's parity is
computed once the last of its 62 data sets is encoded (R17). Here the data sets of dome 0 are, the last of them number 488, and position 495,
which closes the group, is still to come (R54). -/
theorem not_payloadsAreSealedEncodedAndProtected : ¬ Obligations.PayloadsAreSealedEncodedAndProtected := by
  unfold Obligations.PayloadsAreSealedEncodedAndProtected
  rintro ⟨-, -, -, -, -, -, -, -, hidle⟩
  have hunclosed : closingPos groupUnderWay 0 = none := rfl
  have hstays : exec (.domeParityCompute 0 0) groupUnderWay = .next groupUnderWay := hidle 0 0 groupUnderWay (.inl hunclosed)
  have hcomputes : exec (.domeParityCompute 0 0) groupUnderWay = .next (makeParity 0 0 495 groupUnderWay) :=
    exec_domeParityCompute_of_encoded rfl groupUnderWay_domeEncoded (by decide)
  refine makeParity_ne 0 0 495 groupUnderWay ?_
  injection hcomputes.symm.trans hstays

end Sys2Proof.Machine
end

section
/-! PROOF. CRYPT and its handles: the context store, what a command without a key or a handle gets, and a whole counter-mode encryption
(R253, R265 to R267). -/

namespace Sys2Proof.Machine

/-! ## Open handles -/

theorem ctxOf_dropCtx_same (h : Nat) (s : State) : ctxOf (dropCtx h s) h = none := by
  change (s.cupola.ctxs.filter fun x => x.handle != h).find? (fun x => x.handle == h) = none
  simp

theorem ctxOf_dropCtx_other {h j : Nat} (hj : j ≠ h) (s : State) : ctxOf (dropCtx h s) j = ctxOf s j := by
  change (s.cupola.ctxs.filter fun x => x.handle != h).find? (fun x => x.handle == j) = s.cupola.ctxs.find? fun x => x.handle == j
  rw [List.find?_filter]
  congr 1
  funext x
  by_cases hx : x.handle = j <;> simp [hx, hj]

/-- The contexts left when an open handle closes are those of the others, whether or not zeros go out (R267). -/
theorem ctxOf_closeHandle_of_open {h : Nat} {s : State} {x : CryptCtx} (hx : ctxOf s h = some x) (j : Nat) :
    ctxOf (closeHandle h s) j = ctxOf (dropCtx h s) j := by
  simp only [closeHandle, hx]
  split
  case isTrue =>
    split
    · split <;> rfl
    · rfl
  case isFalse => rfl

theorem closeHandle_of_closed {h : Nat} {s : State} (hx : ctxOf s h = none) : closeHandle h s = s := by
  simp only [closeHandle, hx]

theorem ctxOf_closeHandle_same (h : Nat) (s : State) : ctxOf (closeHandle h s) h = none := by
  cases hx : ctxOf s h with
  | none => rw [closeHandle_of_closed hx, hx]
  | some x => rw [ctxOf_closeHandle_of_open hx, ctxOf_dropCtx_same]

theorem ctxOf_closeHandle_other {h j : Nat} (hj : j ≠ h) (s : State) : ctxOf (closeHandle h s) j = ctxOf s j := by
  cases hx : ctxOf s h with
  | none => rw [closeHandle_of_closed hx]
  | some x => rw [ctxOf_closeHandle_of_open hx, ctxOf_dropCtx_other hj]

theorem exec_cryptHandleTimeout_named {s : State} {h : Fin 256} (hn : handleNamed s h.val = true) :
    exec (.cryptHandleTimeout h) s = .next s := by
  change execCryptHandleTimeout h s = _
  rw [execCryptHandleTimeout]
  exact goLive_of_fixed (if_pos hn)

theorem exec_cryptHandleTimeout_idle {s : State} {h : Fin 256} (hl : live s = true) (hn : handleNamed s h.val = false) :
    exec (.cryptHandleTimeout h) s = .next (closeHandle h.val s) := by
  change execCryptHandleTimeout h s = _
  rw [execCryptHandleTimeout, goLive_of_live _ hl, hn]
  rfl

/-! ## Key slots (R240, R241) -/

theorem keySlot_onSlot_same {i : Nat} (hi : i < 64) (f : KeySlot → KeySlot) (s : State) : keySlot (onSlot i f s) i = f (keySlot s i) :=
  getAt_updAt_same _ _ _ hi

theorem curGen_eq_some_iff {s : State} {i : Nat} {g : Gen} :
    curGen s i = some g ↔ ((keySlot s i).state = .live ∨ (keySlot s i).state = .shadowed) ∧ (keySlot s i).cur = some g := by
  cases h : (keySlot s i).state <;> simp [curGen, h]

theorem curGen_congr {s t : State} (h : t.keep.slots = s.keep.slots) (i : Nat) : curGen t i = curGen s i := by
  simp only [curGen, keySlot, h]

/-- A generation with one more invocation assigned, none of them reserved. -/
def usedOnce (g : Gen) : Gen := { g with used := g.used + 1 }

/-- An invocation counts on the current generation of its slot (R253). -/
theorem curGen_useGen {s : State} {i : Nat} {g : Gen} (hi : i < 64) (hg : curGen s i = some g) :
    curGen (useGen i g.num false s) i = some (usedOnce g) := by
  obtain ⟨hstate, hcur⟩ := curGen_eq_some_iff.mp hg
  refine curGen_eq_some_iff.mpr ?_
  rw [useGen, onGen, keySlot_onSlot_same hi, hcur]
  refine ⟨hstate, ?_⟩
  simp [usedOnce]

/-! ## Host writes (R262) -/

/-- A command that has these writes to make too; empty ones are left out. -/
def withWrites (ws : List (Nat × Bytes)) (c : Cmd) : Cmd := { c with writes := c.writes ++ ws.filter fun w => !w.2.isEmpty }

section
variable {s : State} {q tag : Nat} (ws : List (Nat × Bytes))

theorem hostWrites_keep : (hostWrites q tag ws s).keep = s.keep := by
  unfold hostWrites sendWrites
  split
  · split <;> rfl
  · rfl

theorem cmdOf_withWrites {c : Cmd} (hc : cmdOf s q tag = some c) :
    cmdOf (onCmd q tag (withWrites ws) s) q tag = some (withWrites ws c) := by
  rw [cmdOf_onCmd (f := withWrites ws) (fun _ => ⟨rfl, rfl⟩), hc]
  rfl

theorem mem_out_sendWrites {o : Out} (h : o ∈ s.out) : o ∈ (sendWrites q tag s).out := by
  unfold sendWrites
  split
  · split
    · exact List.mem_append_left _ h
    · exact h
  · exact h

theorem mem_out_hostWrites {o : Out} (h : o ∈ s.out) : o ∈ (hostWrites q tag ws s).out :=
  mem_out_sendWrites h

theorem sendWrites_of_path {x : QueuePair} {p : Port} {c : Cmd} (hx : qpOf s q = some x) (hp : queuePath s x = some p)
    (hc : cmdOf s q tag = some c) :
    sendWrites q tag s = onCmd q tag (fun k => { k with sent := k.writes.length }) (emitWrites p (c.writes.drop c.sent) s) := by
  simp only [sendWrites, hx, hc, hp]

variable {ws}

/-- The first bytes a command writes go out at once when its queue has a path (R262). -/
theorem data_mem_out_hostWrites {x : QueuePair} {p : Port} {c : Cmd} (hx : qpOf s q = some x) (hp : queuePath s x = some p)
    (hc : cmdOf s q tag = some c) (hw : c.writes = []) (hs : c.sent = 0) {w : Nat × Bytes} (hmem : w ∈ ws) (hne : w.2 ≠ []) :
    .data p w.1 w.2 ∈ (hostWrites q tag ws s).out := by
  change _ ∈ (sendWrites q tag (onCmd q tag (withWrites ws) s)).out
  rw [sendWrites_of_path (s := onCmd q tag (withWrites ws) s) hx hp (cmdOf_withWrites ws hc)]
  refine List.mem_append_right _ (List.mem_map_of_mem (f := fun w : Nat × Bytes => Out.data p w.1 w.2) (a := w) ?_)
  simp [withWrites, hw, hs, hmem, hne]

end

/-! ## CRYPT without a key or a handle (R265, R267) -/

section
variable {s : State} {q : Fin 256} {tag : BitVec 16} {c : Cmd} (input param : Bytes)

theorem exec_crypt (h : inHand s q.val tag.toNat opCrypt c) :
    exec (.crypt q tag input param) s = .next (cryptCmd c input param s) := by
  change execCrypt q tag input param s = _
  rw [execCrypt, goLive_of_live _ h.1, h.2]

theorem cryptCmd_of_unready (hr : cryptReady s c = false) : cryptCmd c input param s = s := by
  simp [cryptCmd, hr]

theorem cryptCmd_of_begin (hr : cryptReady s c = true) (hseg : cryptSeg c ≤ 1) :
    cryptCmd c input param s = cryptBegin c (fit (lengthField c.entry) input) (fit 32 param) s := by
  simp [cryptCmd, hr, hseg]

theorem cryptCmd_of_continue (hr : cryptReady s c = true) (hseg : 2 ≤ cryptSeg c) :
    cryptCmd c input param s = cryptContinue c (fit (lengthField c.entry) input) (fit 32 param) s := by
  simp [cryptCmd, hr, Nat.not_le.mpr hseg]

/-- With no handle to close, a refusal is the status alone. -/
theorem cryptRefused_of_closed (hx : ctxOf s (cryptHandle c) = none) (st : Nat) : cryptRefused c st s = reply c.qid c.tag st 0 s := by
  simp only [cryptRefused, hx]

theorem cryptBegin_of_noKey (hg : curGen s (slotField c.entry) = none) : cryptBegin c input param s = cryptRefused c 0x0305 s := by
  simp only [cryptBegin, hg]

theorem cryptContinue_of_closed (hx : ctxOf s (cryptHandle c) = none) : cryptContinue c input param s = cryptRefused c 0x0306 s := by
  simp only [cryptContinue, hx]

end

/-! ## A whole encryption in counter mode (R266) -/

theorem cryptSegment_ctr {x : CryptCtx} (hx : x.mode = 2) (key aad text : Bytes) : cryptSegment key x aad text =
    ({ x with chain := ctrAfter x.chain (blocks16 text).length }, ctrCrypt key x.chain text) := by
  simp only [cryptSegment, hx]

/-- The last segment of an operation that is no decryption: its tag is written, and the context is gone (R265, R267). -/
theorem cryptLast_of_encryption {x : CryptCtx} (hx : x.dir = false) (c : Cmd) (key out text param : Bytes) (s : State) :
    cryptLast c key x out text param s =
      reply c.qid c.tag 0 out.length (hostWrites c.qid c.tag (tagWrite c (cryptTag key x)) (dropCtx x.handle s)) := by
  simp [cryptLast, hx]

theorem ivWrite_ctr {c : Cmd} (hmode : cryptMode c = 2) (x : CryptCtx) : ivWrite c x = [] := by
  simp [ivWrite, hmode]

theorem tagWrite_ctr {c : Cmd} (hmode : cryptMode c = 2) (tag : Bytes) : tagWrite c tag = [] := by
  simp [tagWrite, hmode]

/-- The state in which the text of a whole counter-mode encryption is with the host. -/
def ctrWritten (c : Cmd) (out : Bytes) (s : State) : State :=
  hostWrites c.qid c.tag [(dp1 c.entry, out)] (needDomains (88 + cipherCore s.cupola) 1 s)

/-- The state in which it is over: its invocation has completed, and it has no tag to write. -/
def ctrOver (c : Cmd) (out : Bytes) (s : State) : State := hostWrites c.qid c.tag [] (dropCtx 0 (countInv (ctrWritten c out s)))

section
variable {s : State} {c : Cmd} (hmode : cryptMode c = 2) (hseg : cryptSeg c = 0)
include hmode hseg

theorem cryptRun_ctr {x : CryptCtx} (hx : x.mode = 2) (hdir : x.dir = false) (hhandle : x.handle = 0) (key input param : Bytes) :
    cryptRun c key x input param s =
      let out := ctrCrypt key x.chain (input.drop (cryptAad c))
      reply c.qid c.tag 0 out.length (ctrOver c out s) := by
  simp only [cryptRun, cryptSegment_ctr hx, hseg, true_or, if_true]
  refine (cryptLast_of_encryption ?_ ..).trans ?_
  · exact hdir
  · rw [ivWrite_ctr hmode, tagWrite_ctr hmode, hhandle]
    rfl

/-- A whole counter-mode encryption under a key that may encrypt and is below its limit (R253, R265, R266). -/
theorem cryptBegin_ctr {g : Gen} (hdir : cryptDir c = false) (hg : curGen s (slotField c.entry) = some g) (huse : useCrypt g = true)
    (hroom : g.used < g.limit) (input param : Bytes) : cryptBegin c input param s =
      let out := ctrCrypt g.key (param.take 16) (input.drop (cryptAad c))
      reply c.qid c.tag 0 out.length (ctrOver c out (useGen (slotField c.entry) g.num false s)) := by
  have hlimit : ¬ g.limit < g.used + 1 := Nat.not_lt.mpr hroom
  have hchain : (freshCtx s c 0 g param).chain = param.take 16 := if_neg (by omega)
  have hrun := cryptRun_ctr (s := useGen (slotField c.entry) g.num false s) hmode hseg (x := freshCtx s c 0 g param) hmode hdir rfl
    g.key input param
  rw [hchain] at hrun
  simpa [cryptBegin, hg, hseg, hmode, hdir, huse, hlimit] using hrun

end

/-- The key slots after the encryption are those with which its run began. -/
theorem ctrOver_slots (c : Cmd) (out : Bytes) (s : State) : (ctrOver c out s).keep.slots = s.keep.slots := by
  rw [ctrOver, hostWrites_keep]
  change (ctrWritten c out s).keep.slots = _
  rw [ctrWritten, hostWrites_keep]
  rfl

/-- The enciphered text is among the writes to the host (R265). -/
theorem data_mem_out_ctrOver {s : State} {c : Cmd} {x : QueuePair} {p : Port} (hx : qpOf s c.qid = some x) (hp : queuePath s x = some p)
    (hc : cmdOf s c.qid c.tag = some c) (hw : c.writes = []) (hs : c.sent = 0) {out : Bytes} (hne : out ≠ []) :
    .data p (dp1 c.entry) out ∈ (ctrOver c out s).out := by
  refine mem_out_hostWrites _ ?_
  change _ ∈ (ctrWritten c out s).out
  exact data_mem_out_hostWrites (s := needDomains (88 + cipherCore s.cupola) 1 s) (w := (dp1 c.entry, out)) hx hp hc hw hs
    (List.mem_singleton_self _) hne

/-! ## The obligation -/

/-- Settles O39: a CRYPT answers as its key, its handle and its path stand, and a handle's time limit closes that handle alone. -/
theorem cryptRunsUnderItsKey : Obligations.CryptRunsUnderItsKey := by
  unfold Obligations.CryptRunsUnderItsKey
  refine ⟨?refused, ?counter, ?idle, fun s h => exec_cryptHandleTimeout_named⟩
  case refused =>
    intro s q tag input param c h
    have hexec := exec_crypt input param h
    obtain ⟨hq, ht⟩ := cmdOf_qid_tag (cmdOf_of_startedCmd h.2)
    refine ⟨fun hr => ?_, fun hr hseg hx hg => ?_, fun hr hseg hx => ?_⟩
    · rw [hexec, cryptCmd_of_unready _ _ hr]
    · rw [answers, hexec, cryptCmd_of_begin _ _ hr hseg, cryptBegin_of_noKey _ _ hg, cryptRefused_of_closed hx, hq, ht]
    · rw [answers, hexec, cryptCmd_of_continue _ _ hr hseg, cryptContinue_of_closed _ _ hx, cryptRefused_of_closed hx, hq, ht]
  case counter =>
    intro s q tag input param c x p g h hx hp hserve hmode hseg hdir hslot hg huse hroom hw hs text out
    have hcmd := cmdOf_of_startedCmd h.2
    obtain ⟨hq, ht⟩ := cmdOf_qid_tag hcmd
    have hready : cryptReady s c = true := by simp only [cryptReady, hq, hx, hp, Option.isSome_some, decide_eq_true hserve, Bool.and_self]
    rw [← hq] at hx
    rw [← hq, ← ht] at hcmd
    refine ⟨ctrOver c out (useGen (slotField c.entry) g.num false s), usedOnce g, ?_,
      data_mem_out_ctrOver (s := useGen (slotField c.entry) g.num false s) hx hp hcmd hw hs, ?_, rfl, rfl, rfl⟩
    · rw [answers, exec_crypt input param h, cryptCmd_of_begin _ _ hready (by omega), cryptBegin_ctr hmode hseg hdir hg huse hroom, hq, ht]
    · rw [curGen_congr (ctrOver_slots c out _), curGen_useGen hslot hg]
  case idle =>
    intro s h hl hn
    exact ⟨_, exec_cryptHandleTimeout_idle hl hn, ctxOf_closeHandle_same h.val s, fun j hj => ctxOf_closeHandle_other hj s⟩

end Sys2Proof.Machine
end

section
/-! PROOF. The key slots under KEY_LOAD, KEY_ERASE and the end of a withdrawal, KEEP_LOADSEQ under every command, and what an accepted load
leaves of the read-ahead (R133, R242, R243, R246, R260). -/

namespace Sys2Proof.Machine

/-! ## What the end of a command leaves (R279) -/

theorem reply_same {f : Field} (hf : f ∉ completionFields) (q tag st res : Nat) (s : State) : f.same s (reply q tag st res s) := by
  obtain ⟨-, hsame⟩ := (reply_kept q tag st res (by decide +kernel) (Kept.refl (fieldMask completionFields) s)).changesOnly
  exact hsame f hf

section
variable (q tag st res : Nat) (s : State)

theorem slots_reply : (reply q tag st res s).keep.slots = s.keep.slots := reply_same (f := .keepSlots) (by decide) q tag st res s

theorem loadSeq_reply : (reply q tag st res s).keep.loadSeq = s.keep.loadSeq := reply_same (f := .keepLoadSeq) (by decide) q tag st res s

theorem holes_reply : (reply q tag st res s).rd.holes = s.rd.holes := reply_same (f := .rdHoles) (by decide) q tag st res s

end

/-! ## One slot among the others -/

theorem keySlot_congr {s t : State} (h : t.keep.slots = s.keep.slots) (i : Nat) : keySlot t i = keySlot s i := by
  rw [keySlot, h, keySlot]

theorem keySlot_onSlot_other {i j : Nat} (h : j ≠ i) (f : KeySlot → KeySlot) (s : State) : keySlot (onSlot i f s) j = keySlot s j :=
  getAt_updAt_other _ _ _ h

theorem onSlot_changesOnly (i : Nat) (f : KeySlot → KeySlot) (s : State) : changesOnly [.keepSlots] s (onSlot i f s) :=
  (onSlot_kept i f (by decide +kernel) (Kept.refl (fieldMask [.keepSlots]) s)).changesOnly

/-! ## KEY_LOAD (R242, R243, R246) -/

/-- A slot that takes a load: it holds no shadow, and no erasure of it runs. -/
def takesLoad (s : State) (i : Nat) : Prop := (keySlot s i).state = .empty ∨ (keySlot s i).state = .live

/-- A slot that is busy for a load. -/
def loadBusy (s : State) (i : Nat) : Prop := (keySlot s i).state = .shadowed ∨ (keySlot s i).state = .withdraw

theorem loadBusy_or_takesLoad (s : State) (i : Nat) : loadBusy s i ∨ takesLoad s i := by
  unfold loadBusy takesLoad
  cases (keySlot s i).state <;> simp

/-- The state once a load is accepted. -/
def keyLoaded (i : Nat) (g : Gen) (s : State) : State := (installGen i g s).onKeep fun k => { k with loadSeq := k.loadSeq + 1 }

/-- The state once a load is rejected. -/
def loadRejected (s : State) : State := s.onKeep fun k => { k with cntLoadFail := inc k.cntLoadFail }

theorem loadRejected_changesOnly (s : State) : changesOnly [.keepCntLoadFail] s (loadRejected s) := by
  refine Kept.changesOnly (onKeep_kept _ (fun k => ?_) (Kept.refl _ s))
  exact { KeepAgree.refl _ k with cntLoadFail := .inl (by decide +kernel) }

section
variable {s : State} {tag : BitVec 16} {block : Bytes} {c : Cmd}

theorem exec_keyLoad (h : inHand s 0 tag.toNat opKeyLoad c) : exec (.keyLoad tag block) s = .next (loadKey (fit 1224 block) c s) := by
  change execKeyLoad tag block s = _
  rw [execKeyLoad, goLive_of_live _ h.1, adminRun_of_inHand _ h]

theorem loadKey_busy (h : loadBusy s (slotField c.entry)) : loadKey block c s = reply c.qid c.tag 0x0307 0 s := by
  rcases h with h | h <;> simp only [loadKey, h, adminDone]

section
variable (h : takesLoad s (slotField c.entry))
include h

theorem loadKey_accepted {g : Gen} (hg : loadedGen c block s = some g) :
    loadKey block c s = reply c.qid c.tag 0 g.num (keyLoaded (slotField c.entry) g s) := by
  rcases h with h | h <;> simp only [loadKey, h, hg, adminDone, keyLoaded]

theorem loadKey_rejected (hg : loadedGen c block s = none) : loadKey block c s = reply c.qid c.tag 0x0308 0 (loadRejected s) := by
  rcases h with h | h <;> simp only [loadKey, h, hg, rejectLoad, adminDone, loadRejected]

end

theorem loadSeq_le_loadKey (block : Bytes) (c : Cmd) (s : State) : s.keep.loadSeq ≤ (loadKey block c s).keep.loadSeq := by
  rcases loadBusy_or_takesLoad s (slotField c.entry) with hbusy | hfree
  · rw [loadKey_busy hbusy, loadSeq_reply]
  · cases hg : loadedGen c block s with
    | none =>
      rw [loadKey_rejected hfree hg, loadSeq_reply]
      exact Nat.le_refl _
    | some g =>
      rw [loadKey_accepted hfree hg, loadSeq_reply]
      exact Nat.le_succ _

end

theorem loadSeq_le_execKeyLoad {tag : BitVec 16} {block : Bytes} {s t : State} (h : execKeyLoad tag block s = .next t) :
    s.keep.loadSeq ≤ t.keep.loadSeq := by
  rw [execKeyLoad, goLive] at h
  injection h with h
  subst h
  split
  case isTrue =>
    rw [adminRun]
    split
    · exact loadSeq_le_loadKey _ _ _
    · exact Nat.le_refl _
  case isFalse => exact Nat.le_refl _

/-! ## KEY_ERASE and KEY_WITHDRAW_DONE (R242, R260) -/

section
variable {s : State} {tag : BitVec 16} {c : Cmd}

theorem exec_keyErase (h : inHand s 0 tag.toNat opKeyErase c) : exec (.keyErase tag) s = .next (eraseKey c s) := by
  change execKeyErase tag s = _
  rw [execKeyErase, goLive_of_live _ h.1, adminRun_of_inHand _ h]

theorem eraseKey_empty (h : (keySlot s (slotField c.entry)).state = .empty) : eraseKey c s = reply c.qid c.tag 0 0 s := by
  simp only [eraseKey, h, adminDone]

theorem eraseKey_waits (h : (keySlot s (slotField c.entry)).state = .withdraw) :
    eraseKey c s = onSlot (slotField c.entry) (fun k => { k with erasers := k.erasers ++ [c.tag] }) s := by
  simp only [eraseKey, h]

theorem eraseKey_held (h : (keySlot s (slotField c.entry)).state = .live ∨ (keySlot s (slotField c.entry)).state = .shadowed) :
    eraseKey c s = withdrawSlot (slotField c.entry)
      (onSlot (slotField c.entry) (fun k => { k with state := .withdraw, erasers := [c.tag] }) s) := by
  rcases h with h | h <;> simp only [eraseKey, h]

theorem slots_withdrawDone {i : Nat} (h : (keySlot s i).state = .withdraw) :
    (withdrawDone i s).keep.slots = (zeroizeSlot i s).keep.slots := by
  rw [withdrawDone, if_pos h]
  exact forEach_preserves (P := fun t => t.keep.slots = (zeroizeSlot i s).keep.slots) _ (fun _ _ hu => (slots_reply ..).trans hu) rfl

end

/-! ## KEEP_LOADSEQ (R246) -/

/-- Every field but KEEP_LOADSEQ. -/
def butLoadSeq : Nat := 2 ^ 385 - 1 - 2 ^ 123

theorem loadSeq_of_kept {s t : State} (h : Kept butLoadSeq s t) : t.keep.loadSeq = s.keep.loadSeq :=
  Mask.out h.keep.loadSeq (by decide +kernel)

/-- No command but KEY_LOAD moves KEEP_LOADSEQ. -/
theorem loadSeq_of_exec {i : Instr} {s t : State} (hi : ∀ tag block, i ≠ .keyLoad tag block) (h : exec i s = .next t) :
    t.keep.loadSeq = s.keep.loadSeq := by
  cases i with
  | powerOnReset => exact loadSeq_of_kept (execPowerOnReset_kept (by decide +kernel) h)
  | pwrGoodFall ns => exact loadSeq_of_kept (execPwrGoodFall_kept ns (by decide +kernel) h)
  | sysResetNLow ns => exact loadSeq_of_kept (execSysResetNLow_kept ns (by decide +kernel) h)
  | startUp o => exact loadSeq_of_kept (execStartUp_kept o (by decide +kernel) h)
  | startConfirm fuseWriteOk => exact loadSeq_of_kept (execStartConfirm_kept fuseWriteOk (by decide +kernel) h)
  | watchdogExpiry => exact loadSeq_of_kept (execWatchdogExpiry_kept (by decide +kernel) h)
  | portReset p ns => exact loadSeq_of_kept (execPortReset_kept p ns (by decide +kernel) h)
  | flr p => exact loadSeq_of_kept (execFlr_kept p (by decide +kernel) h)
  | testEnHigh => exact loadSeq_of_kept (execTestEnHigh_kept (by decide +kernel) h)
  | strapChange now => exact loadSeq_of_kept (execStrapChange_kept now (by decide +kernel) h)
  | alarm cause => exact loadSeq_of_kept (execAlarm_kept cause (by decide +kernel) h)
  | sealLfsrTick sealB readback => exact loadSeq_of_kept (execSealLfsrTick_kept sealB readback (by decide +kernel) h)
  | presencePress => exact loadSeq_of_kept (execPresencePress_kept (by decide +kernel) h)
  | presenceWindowExpiry => exact loadSeq_of_kept (execPresenceWindowExpiry_kept (by decide +kernel) h)
  | wakeLatch n ns => exact loadSeq_of_kept (execWakeLatch_kept n ns (by decide +kernel) h)
  | cartRemoved => exact loadSeq_of_kept (execCartRemoved_kept (by decide +kernel) h)
  | cartInserted c => exact loadSeq_of_kept (execCartInserted_kept c (by decide +kernel) h)
  | shockNAssert ns => exact loadSeq_of_kept (execShockNAssert_kept ns (by decide +kernel) h)
  | shockNClear => exact loadSeq_of_kept (execShockNClear_kept (by decide +kernel) h)
  | shockHoldExpiry => exact loadSeq_of_kept (execShockHoldExpiry_kept (by decide +kernel) h)
  | motFaultNAssert => exact loadSeq_of_kept (execMotFaultNAssert_kept (by decide +kernel) h)
  | thermalSample milliC => exact loadSeq_of_kept (execThermalSample_kept milliC (by decide +kernel) h)
  | thermalCapStep => exact loadSeq_of_kept (execThermalCapStep_kept (by decide +kernel) h)
  | timeBaseSwitch aPresent bPresent => exact loadSeq_of_kept (execTimeBaseSwitch_kept aPresent bPresent (by decide +kernel) h)
  | lifetimeCheckpoint => exact loadSeq_of_kept (execLifetimeCheckpoint_kept (by decide +kernel) h)
  | adminEnable p => exact loadSeq_of_kept (execAdminEnable_kept p (by decide +kernel) h)
  | funcReset p => exact loadSeq_of_kept (execFuncReset_kept p (by decide +kernel) h)
  | sqTailDoorbell p q tail => exact loadSeq_of_kept (execSqTailDoorbell_kept p q tail (by decide +kernel) h)
  | cqHeadDoorbell p q head => exact loadSeq_of_kept (execCqHeadDoorbell_kept p q head (by decide +kernel) h)
  | sqFetch entries => exact loadSeq_of_kept (execSqFetch_kept entries (by decide +kernel) h)
  | commandStart sgl => exact loadSeq_of_kept (execCommandStart_kept sgl (by decide +kernel) h)
  | holdoffExpiry g => exact loadSeq_of_kept (execHoldoffExpiry_kept g (by decide +kernel) h)
  | staleExpiry g => exact loadSeq_of_kept (execStaleExpiry_kept g (by decide +kernel) h)
  | msixMaskWrite p vector masked => exact loadSeq_of_kept (execMsixMaskWrite_kept p vector masked (by decide +kernel) h)
  | portLoss p => exact loadSeq_of_kept (execPortLoss_kept p (by decide +kernel) h)
  | pathRestored l => exact loadSeq_of_kept (execPathRestored_kept l (by decide +kernel) h)
  | functionD3hot p bmeCleared => exact loadSeq_of_kept (execFunctionD3hot_kept p bmeCleared (by decide +kernel) h)
  | functionD0Return p => exact loadSeq_of_kept (execFunctionD0Return_kept p (by decide +kernel) h)
  | identify tag => exact loadSeq_of_kept (execIdentify_kept tag (by decide +kernel) h)
  | negotiate tag => exact loadSeq_of_kept (execNegotiate_kept tag (by decide +kernel) h)
  | createQp tag => exact loadSeq_of_kept (execCreateQp_kept tag (by decide +kernel) h)
  | deleteQp tag => exact loadSeq_of_kept (execDeleteQp_kept tag (by decide +kernel) h)
  | formatFloor tag => exact loadSeq_of_kept (execFormatFloor_kept tag (by decide +kernel) h)
  | wake tag => exact loadSeq_of_kept (execWake_kept tag (by decide +kernel) h)
  | queuePort tag => exact loadSeq_of_kept (execQueuePort_kept tag (by decide +kernel) h)
  | moderation tag => exact loadSeq_of_kept (execModeration_kept tag (by decide +kernel) h)
  | cmArea tag data => exact loadSeq_of_kept (execCmArea_kept tag data (by decide +kernel) h)
  | deadClear tag => exact loadSeq_of_kept (execDeadClear_kept tag (by decide +kernel) h)
  | getFeature tag => exact loadSeq_of_kept (execGetFeature_kept tag (by decide +kernel) h)
  | getLog tag => exact loadSeq_of_kept (execGetLog_kept tag (by decide +kernel) h)
  | powerState tag => exact loadSeq_of_kept (execPowerState_kept tag (by decide +kernel) h)
  | fwStage tag data flashOk => exact loadSeq_of_kept (execFwStage_kept tag data flashOk (by decide +kernel) h)
  | fwActivate tag => exact loadSeq_of_kept (execFwActivate_kept tag (by decide +kernel) h)
  | activationIdleTimeout => exact loadSeq_of_kept (execActivationIdleTimeout_kept (by decide +kernel) h)
  | activationStillTimeout => exact loadSeq_of_kept (execActivationStillTimeout_kept (by decide +kernel) h)
  | activationSwitch => exact loadSeq_of_kept (execActivationSwitch_kept (by decide +kernel) h)
  | barrierCoreTimeout core => exact loadSeq_of_kept (execBarrierCoreTimeout_kept core (by decide +kernel) h)
  | keyLoad tag block => exact absurd rfl (hi tag block)
  | keyErase tag => exact loadSeq_of_kept (execKeyErase_kept tag (by decide +kernel) h)
  | keyWithdrawDone slot => exact loadSeq_of_kept (execKeyWithdrawDone_kept slot (by decide +kernel) h)
  | keyQuery tag => exact loadSeq_of_kept (execKeyQuery_kept tag (by decide +kernel) h)
  | attest tag nonce => exact loadSeq_of_kept (execAttest_kept tag nonce (by decide +kernel) h)
  | debugUnlock tag => exact loadSeq_of_kept (execDebugUnlock_kept tag (by decide +kernel) h)
  | lanternClear tag => exact loadSeq_of_kept (execLanternClear_kept tag (by decide +kernel) h)
  | registerIntegratorKeys tag block => exact loadSeq_of_kept (execRegisterIntegratorKeys_kept tag block (by decide +kernel) h)
  | zeroizeAllKeys tag => exact loadSeq_of_kept (execZeroizeAllKeys_kept tag (by decide +kernel) h)
  | armDowngradePermit tag => exact loadSeq_of_kept (execArmDowngradePermit_kept tag (by decide +kernel) h)
  | downgradePermitExpiry => exact loadSeq_of_kept (execDowngradePermitExpiry_kept (by decide +kernel) h)
  | resetFailedStartCounter tag => exact loadSeq_of_kept (execResetFailedStartCounter_kept tag (by decide +kernel) h)
  | clearFails => exact loadSeq_of_kept (execClearFails_kept (by decide +kernel) h)
  | health => exact loadSeq_of_kept (execHealth_kept (by decide +kernel) h)
  | lanternRead rseq => exact loadSeq_of_kept (execLanternRead_kept rseq (by decide +kernel) h)
  | queueReset tag => exact loadSeq_of_kept (execQueueReset_kept tag (by decide +kernel) h)
  | tableLoad tag data flashOk => exact loadSeq_of_kept (execTableLoad_kept tag data flashOk (by decide +kernel) h)
  | mount q tag => exact loadSeq_of_kept (execMount_kept q tag (by decide +kernel) h)
  | unmount q tag => exact loadSeq_of_kept (execUnmount_kept q tag (by decide +kernel) h)
  | locate q tag => exact loadSeq_of_kept (execLocate_kept q tag (by decide +kernel) h)
  | readPosition q tag => exact loadSeq_of_kept (execReadPosition_kept q tag (by decide +kernel) h)
  | sync q tag => exact loadSeq_of_kept (execSync_kept q tag (by decide +kernel) h)
  | fence q tag => exact loadSeq_of_kept (execFence_kept q tag (by decide +kernel) h)
  | truncate q tag => exact loadSeq_of_kept (execTruncate_kept q tag (by decide +kernel) h)
  | refreshFullRebuild q tag => exact loadSeq_of_kept (execRefreshFullRebuild_kept q tag (by decide +kernel) h)
  | refreshLocateIndex q tag => exact loadSeq_of_kept (execRefreshLocateIndex_kept q tag (by decide +kernel) h)
  | partition q tag => exact loadSeq_of_kept (execPartition_kept q tag (by decide +kernel) h)
  | crypt q tag input param => exact loadSeq_of_kept (execCrypt_kept q tag input param (by decide +kernel) h)
  | cryptHandleTimeout handle => exact loadSeq_of_kept (execCryptHandleTimeout_kept handle (by decide +kernel) h)
  | write q tag lengths data => exact loadSeq_of_kept (execWrite_kept q tag lengths data (by decide +kernel) h)
  | writeMark q tag => exact loadSeq_of_kept (execWriteMark_kept q tag (by decide +kernel) h)
  | read q tag => exact loadSeq_of_kept (execRead_kept q tag (by decide +kernel) h)
  | verify q tag => exact loadSeq_of_kept (execVerify_kept q tag (by decide +kernel) h)
  | space q tag => exact loadSeq_of_kept (execSpace_kept q tag (by decide +kernel) h)
  | compressionBlockDone e => exact loadSeq_of_kept (execCompressionBlockDone_kept e (by decide +kernel) h)
  | compressionEngineFault e => exact loadSeq_of_kept (execCompressionEngineFault_kept e (by decide +kernel) h)
  | stagingStallRelease => exact loadSeq_of_kept (execStagingStallRelease_kept (by decide +kernel) h)
  | cupolaInvocation => exact loadSeq_of_kept (execCupolaInvocation_kept (by decide +kernel) h)
  | cupolaCoreError core => exact loadSeq_of_kept (execCupolaCoreError_kept core (by decide +kernel) h)
  | keepCopyMismatch failed => exact loadSeq_of_kept (execKeepCopyMismatch_kept failed (by decide +kernel) h)
  | domeParityCompute group dome => exact loadSeq_of_kept (execDomeParityCompute_kept group dome (by decide +kernel) h)
  | slotCommit => exact loadSeq_of_kept (execSlotCommit_kept (by decide +kernel) h)
  | verifyResult slot => exact loadSeq_of_kept (execVerifyResult_kept slot (by decide +kernel) h)
  | writeInhibit src => exact loadSeq_of_kept (execWriteInhibit_kept src (by decide +kernel) h)
  | writeResume => exact loadSeq_of_kept (execWriteResume_kept (by decide +kernel) h)
  | wrapEnd => exact loadSeq_of_kept (execWrapEnd_kept (by decide +kernel) h)
  | turnEntry => exact loadSeq_of_kept (execTurnEntry_kept (by decide +kernel) h)
  | stackLoss stack => exact loadSeq_of_kept (execStackLoss_kept stack (by decide +kernel) h)
  | cmResponse bytes => exact loadSeq_of_kept (execCmResponse_kept bytes (by decide +kernel) h)
  | cmFieldOffTimeout => exact loadSeq_of_kept (execCmFieldOffTimeout_kept (by decide +kernel) h)
  | cmPollRetry => exact loadSeq_of_kept (execCmPollRetry_kept (by decide +kernel) h)
  | wvnUpdate => exact loadSeq_of_kept (execWvnUpdate_kept (by decide +kernel) h)
  | speedReached => exact loadSeq_of_kept (execSpeedReached_kept (by decide +kernel) h)
  | avsReadback mv => exact loadSeq_of_kept (execAvsReadback_kept mv (by decide +kernel) h)
  | avsAckTimeout => exact loadSeq_of_kept (execAvsAckTimeout_kept (by decide +kernel) h)
  | avsRetryPeriod => exact loadSeq_of_kept (execAvsRetryPeriod_kept (by decide +kernel) h)
  | marginSample permille => exact loadSeq_of_kept (execMarginSample_kept permille (by decide +kernel) h)
  | bhDwellExpiry => exact loadSeq_of_kept (execBhDwellExpiry_kept (by decide +kernel) h)
  | backhitchStopped => exact loadSeq_of_kept (execBackhitchStopped_kept (by decide +kernel) h)
  | bhMaxWaitExpiry => exact loadSeq_of_kept (execBhMaxWaitExpiry_kept (by decide +kernel) h)
  | stoppedIdleTimeout => exact loadSeq_of_kept (execStoppedIdleTimeout_kept (by decide +kernel) h)
  | restartResume => exact loadSeq_of_kept (execRestartResume_kept (by decide +kernel) h)
  | readAhead => exact loadSeq_of_kept (execReadAhead_kept (by decide +kernel) h)
  | samplePacket g lane type fields crc payload => exact loadSeq_of_kept (execSamplePacket_kept g lane type fields crc payload (by decide +kernel) h)
  | syncWindow c => exact loadSeq_of_kept (execSyncWindow_kept c (by decide +kernel) h)
  | frameEnd c => exact loadSeq_of_kept (execFrameEnd_kept c (by decide +kernel) h)
  | blockAReplay c => exact loadSeq_of_kept (execBlockAReplay_kept c (by decide +kernel) h)
  | siblingPrediction c => exact loadSeq_of_kept (execSiblingPrediction_kept c (by decide +kernel) h)
  | realignment c => exact loadSeq_of_kept (execRealignment_kept c (by decide +kernel) h)
  | deskewComplete slot => exact loadSeq_of_kept (execDeskewComplete_kept slot (by decide +kernel) h)
  | domeRecovery group dome => exact loadSeq_of_kept (execDomeRecovery_kept group dome (by decide +kernel) h)
  | retryAttemptDone => exact loadSeq_of_kept (execRetryAttemptDone_kept (by decide +kernel) h)
  | decryptInvocation => exact loadSeq_of_kept (execDecryptInvocation_kept (by decide +kernel) h)
  | decompressionBlockDone e => exact loadSeq_of_kept (execDecompressionBlockDone_kept e (by decide +kernel) h)
  | hostPacketCommit => exact loadSeq_of_kept (execHostPacketCommit_kept (by decide +kernel) h)
  | servoPacket frame => exact loadSeq_of_kept (execServoPacket_kept frame (by decide +kernel) h)
  | feedbackLost => exact loadSeq_of_kept (execFeedbackLost_kept (by decide +kernel) h)
  | fbHoldTimeout => exact loadSeq_of_kept (execFbHoldTimeout_kept (by decide +kernel) h)
  | controlledStopDone => exact loadSeq_of_kept (execControlledStopDone_kept (by decide +kernel) h)
  | oneBandTimeout => exact loadSeq_of_kept (execOneBandTimeout_kept (by decide +kernel) h)
  | encoderIndexPulse reel => exact loadSeq_of_kept (execEncoderIndexPulse_kept reel (by decide +kernel) h)
  | reelLoopTick => exact loadSeq_of_kept (execReelLoopTick_kept (by decide +kernel) h)
  | accSample x y z => exact loadSeq_of_kept (execAccSample_kept x y z (by decide +kernel) h)
  | sensorReading ack bytes => exact loadSeq_of_kept (execSensorReading_kept ack bytes (by decide +kernel) h)
  | motionLinkResponse stage frame => exact loadSeq_of_kept (execMotionLinkResponse_kept stage frame (by decide +kernel) h)
  | motionLinkKeepalive => exact loadSeq_of_kept (execMotionLinkKeepalive_kept (by decide +kernel) h)
  | steepleHeartbeat => exact loadSeq_of_kept (execSteepleHeartbeat_kept (by decide +kernel) h)
  | steepleHeartbeatTimeout => exact loadSeq_of_kept (execSteepleHeartbeatTimeout_kept (by decide +kernel) h)
  | st1Takeover cause => exact loadSeq_of_kept (execSt1Takeover_kept cause (by decide +kernel) h)
  | programStart prog p0 p1 p2 p3 => exact loadSeq_of_kept (execProgramStart_kept prog p0 p1 p2 p3 (by decide +kernel) h)
  | progEnd => exact loadSeq_of_kept (execProgEnd_kept (by decide +kernel) h)
  | progSpeed => exact loadSeq_of_kept (execProgSpeed_kept (by decide +kernel) h)
  | progWaitSpeed => exact loadSeq_of_kept (execProgWaitSpeed_kept (by decide +kernel) h)
  | progGotoLpos => exact loadSeq_of_kept (execProgGotoLpos_kept (by decide +kernel) h)
  | progWaitLpos => exact loadSeq_of_kept (execProgWaitLpos_kept (by decide +kernel) h)
  | progLateral => exact loadSeq_of_kept (execProgLateral_kept (by decide +kernel) h)
  | progWaitLat => exact loadSeq_of_kept (execProgWaitLat_kept (by decide +kernel) h)
  | progTilt => exact loadSeq_of_kept (execProgTilt_kept (by decide +kernel) h)
  | progLaw => exact loadSeq_of_kept (execProgLaw_kept (by decide +kernel) h)
  | progTension => exact loadSeq_of_kept (execProgTension_kept (by decide +kernel) h)
  | progDelay => exact loadSeq_of_kept (execProgDelay_kept (by decide +kernel) h)
  | progBranch => exact loadSeq_of_kept (execProgBranch_kept (by decide +kernel) h)
  | progEnable => exact loadSeq_of_kept (execProgEnable_kept (by decide +kernel) h)
  | progEvent => exact loadSeq_of_kept (execProgEvent_kept (by decide +kernel) h)
  | progChain => exact loadSeq_of_kept (execProgChain_kept (by decide +kernel) h)
  | progStop => exact loadSeq_of_kept (execProgStop_kept (by decide +kernel) h)
  | waitTimeout => exact loadSeq_of_kept (execWaitTimeout_kept (by decide +kernel) h)
  | faultClear => exact loadSeq_of_kept (execFaultClear_kept (by decide +kernel) h)
  | groupTrainStart g => exact loadSeq_of_kept (execGroupTrainStart_kept g (by decide +kernel) h)
  | cdrTimeout g => exact loadSeq_of_kept (execCdrTimeout_kept g (by decide +kernel) h)
  | blockLockGained g headers => exact loadSeq_of_kept (execBlockLockGained_kept g headers (by decide +kernel) h)
  | blockTimeout g => exact loadSeq_of_kept (execBlockTimeout_kept g (by decide +kernel) h)
  | trainPacket g lane header payload => exact loadSeq_of_kept (execTrainPacket_kept g lane header payload (by decide +kernel) h)
  | identTimeout g => exact loadSeq_of_kept (execIdentTimeout_kept g (by decide +kernel) h)
  | downRetryTimeout g => exact loadSeq_of_kept (execDownRetryTimeout_kept g (by decide +kernel) h)
  | statusPacket l header payload => exact loadSeq_of_kept (execStatusPacket_kept l header payload (by decide +kernel) h)
  | inboundLaneLost g lane => exact loadSeq_of_kept (execInboundLaneLost_kept g lane (by decide +kernel) h)
  | outboundLaneLost g lane => exact loadSeq_of_kept (execOutboundLaneLost_kept g lane (by decide +kernel) h)
  | samplePacketLost g ch => exact loadSeq_of_kept (execSamplePacketLost_kept g ch (by decide +kernel) h)
  | tokenPeriod => exact loadSeq_of_kept (execTokenPeriod_kept (by decide +kernel) h)
  | retrain mask => exact loadSeq_of_kept (execRetrain_kept mask (by decide +kernel) h)
  | groupEn mask => exact loadSeq_of_kept (execGroupEn_kept mask (by decide +kernel) h)
  | sourceRequest n => exact loadSeq_of_kept (execSourceRequest_kept n (by decide +kernel) h)
  | claim core => exact loadSeq_of_kept (execClaim_kept core (by decide +kernel) h)
  | eoi core source parityError => exact loadSeq_of_kept (execEoi_kept core source parityError (by decide +kernel) h)
  | belfryMaskWrite source priority route en => exact loadSeq_of_kept (execBelfryMaskWrite_kept source priority route en (by decide +kernel) h)
  | coreTimerExpiry core timer => exact loadSeq_of_kept (execCoreTimerExpiry_kept core timer (by decide +kernel) h)
  | interCoreSignal core line => exact loadSeq_of_kept (execInterCoreSignal_kept core line (by decide +kernel) h)
  | belfryCopyMismatch failed => exact loadSeq_of_kept (execBelfryCopyMismatch_kept failed (by decide +kernel) h)
  | coreHeartbeatMissed core => exact loadSeq_of_kept (execCoreHeartbeatMissed_kept core (by decide +kernel) h)
  | hqItemWrite q writer item => exact loadSeq_of_kept (execHqItemWrite_kept q writer item (by decide +kernel) h)
  | hqItemRead q blocking => exact loadSeq_of_kept (execHqItemRead_kept q blocking (by decide +kernel) h)
  | hqStaleTail q writer => exact loadSeq_of_kept (execHqStaleTail_kept q writer (by decide +kernel) h)
  | hqFlush q => exact loadSeq_of_kept (execHqFlush_kept q (by decide +kernel) h)
  | hqDrain q => exact loadSeq_of_kept (execHqDrain_kept q (by decide +kernel) h)
  | hqDrainDone q => exact loadSeq_of_kept (execHqDrainDone_kept q (by decide +kernel) h)
  | instanceFault row inst => exact loadSeq_of_kept (execInstanceFault_kept row inst (by decide +kernel) h)
  | domainIdleGate d => exact loadSeq_of_kept (execDomainIdleGate_kept d (by decide +kernel) h)
  | ps4Commit => exact loadSeq_of_kept (execPs4Commit_kept (by decide +kernel) h)
  | powerStateExit cause => exact loadSeq_of_kept (execPowerStateExit_kept cause (by decide +kernel) h)
  | lanTrigArm value => exact loadSeq_of_kept (execLanTrigArm_kept value (by decide +kernel) h)
  | ctBroadcastWrite offset value => exact loadSeq_of_kept (execCtBroadcastWrite_kept offset value (by decide +kernel) h)
  | rcRead p offset => exact loadSeq_of_kept (execRcRead_kept p offset (by decide +kernel) h)
  | loWordRead p offset => exact loadSeq_of_kept (execLoWordRead_kept p offset (by decide +kernel) h)
  | badAccess p offset size isWrite => exact loadSeq_of_kept (execBadAccess_kept p offset size isWrite (by decide +kernel) h)
  | registerWrite p offset value => exact loadSeq_of_kept (execRegisterWrite_kept p offset value (by decide +kernel) h)
  | encoderEdge reel a b => exact loadSeq_of_kept (execEncoderEdge_kept reel a b (by decide +kernel) h)
  | discardedPacket g lane => exact loadSeq_of_kept (execDiscardedPacket_kept g lane (by decide +kernel) h)
  | holdoverReturn src => exact loadSeq_of_kept (execHoldoverReturn_kept src (by decide +kernel) h)
  | eccEncode => exact loadSeq_of_kept (execEccEncode_kept (by decide +kernel) h)

theorem loadSeq_le_of_exec {i : Instr} {s t : State} (h : exec i s = .next t) : s.keep.loadSeq ≤ t.keep.loadSeq := by
  by_cases hi : ∃ tag block, i = .keyLoad tag block
  · obtain ⟨tag, block, rfl⟩ := hi
    exact loadSeq_le_execKeyLoad h
  · exact (loadSeq_of_exec (fun tag block hload => hi ⟨tag, block, hload⟩) h).ge

/-! ## The read-ahead after an accepted load (R133, R260) -/

/-- A data set of the read-ahead whose plaintext this key slot decrypted. -/
def plainSet (i : Nat) : RaSet :=
  { part := 0, n := 0, wrap := 0, slot := 0, stack := 0, level := 1, payload := [], plain := some [], used := 0, stop := none,
    regs := ⟨0, 0, 0⟩, keySlot := some i }

/-- That set stands in the read-ahead before the others. -/
def withPlain (i : Nat) (s : State) : State := s.onRd fun r => { r with sets := plainSet i :: r.sets }

/-- Each set discarded leaves a hole, which the tape is read again for. -/
theorem holes_discardPlain (i : Nat) (s : State) : (discardPlain i s).rd.holes =
    s.rd.holes ++ (s.rd.sets.filter fun r => r.keySlot == some i).map fun r => (r.n, r.wrap, r.slot) := rfl

theorem holes_keyLoaded_withPlain (i : Nat) (g : Gen) (s : State) :
    s.rd.holes.length < (keyLoaded i g (withPlain i s)).rd.holes.length := by
  change _ < (discardPlain i _).rd.holes.length
  rw [holes_discardPlain]
  simp [onSlot, withPlain, plainSet]

/-- Were a load accepted, the first clause of the statement would fail for a slot that has decrypted a set of the read-ahead: the hole of that
set is not among what the clause lets change. -/
theorem not_keySlotsChangeAsTheTableSays_of_accepted {s : State} {tag : BitVec 16} {block : Bytes} {c : Cmd} {g : Gen}
    (h : inHand s 0 tag.toNat opKeyLoad c) (hfree : takesLoad s (slotField c.entry)) (hslot : slotField c.entry < 64)
    (hg : loadedGen c (fit 1224 block) s = some g) : ¬ Obligations.KeySlotsChangeAsTheTableSays := by
  unfold Obligations.KeySlotsChangeAsTheTableSays
  rintro ⟨hload, -⟩
  obtain ⟨u, hanswers, -, -, -, -, -, hsame⟩ := hload (withPlain (slotField c.entry) s) tag block c g h hfree hslot hg
  have hexec := exec_keyLoad (s := withPlain (slotField c.entry) s) (block := block) h
  rw [loadKey_accepted (s := withPlain (slotField c.entry) s) hfree hg] at hexec
  have hreply : reply c.qid c.tag 0 g.num (keyLoaded (slotField c.entry) g (withPlain (slotField c.entry) s)) =
      reply 0 tag.toNat 0 g.num u := by
    injection hexec.symm.trans hanswers
  have hholes := congrArg (fun t : State => t.rd.holes) hreply
  simp only [holes_reply] at hholes
  have hu : u.rd.holes = s.rd.holes := hsame .rdHoles (by decide)
  have hmore := holes_keyLoaded_withPlain (slotField c.entry) g s
  rw [hholes, hu] at hmore
  exact Nat.lt_irrefl _ hmore

/-! ## What the statement comes to -/

/-- No KEY_LOAD is accepted by a slot that takes one. Whether that is so turns on the inverse cipher of AES-256, which the model leaves open
(log 3): every load goes through `kwpUnwrap`. -/
def noLoadAccepted : Prop :=
  ∀ (s : State) (tag : BitVec 16) (block : Bytes) (c : Cmd), inHand s 0 tag.toNat opKeyLoad c → takesLoad s (slotField c.entry) →
    slotField c.entry < 64 → loadedGen c (fit 1224 block) s = none

/-- The statement of the key slots holds exactly if no load is accepted: all of it but its first clause holds whatever the cipher is, and the
first holds only where it says nothing. -/
theorem keySlotsChangeAsTheTableSays_iff : Obligations.KeySlotsChangeAsTheTableSays ↔ noLoadAccepted := by
  refine ⟨fun hstatement s tag block c h hfree hslot => ?_, fun hnone => ?_⟩
  · exact Option.eq_none_iff_forall_not_mem.mpr fun g hg =>
      not_keySlotsChangeAsTheTableSays_of_accepted h hfree hslot hg hstatement
  unfold Obligations.KeySlotsChangeAsTheTableSays
  refine ⟨?accepted, ?load, ?erase, ?done, fun s slot hl hw => (goLive_of_live _ hl).trans (congrArg _ (if_neg hw)),
    fun i s t h => loadSeq_le_of_exec h⟩
  case accepted =>
    intro s tag block c g h hfree hslot hg
    rw [hnone s tag block c h hfree hslot] at hg
    cases hg
  case load =>
    intro s tag block c h
    obtain ⟨hq, ht⟩ := cmdOf_qid_tag (cmdOf_of_startedCmd h.2)
    refine ⟨fun hbusy => ?_, fun hfree hg => ⟨loadRejected s, ?_, rfl, rfl, loadRejected_changesOnly s⟩⟩
    · rw [answers, exec_keyLoad h, loadKey_busy hbusy, hq, ht]
    · rw [answers, exec_keyLoad h, loadKey_rejected hfree hg, hq, ht]
  case erase =>
    intro s tag c h
    obtain ⟨hq, ht⟩ := cmdOf_qid_tag (cmdOf_of_startedCmd h.2)
    refine ⟨fun hempty => ?_, fun hwaits hslot => ⟨_, (exec_keyErase h).trans (congrArg _ (eraseKey_waits hwaits)), ?_,
      onSlot_changesOnly _ _ s⟩, fun hheld => ?_⟩
    · rw [answers, exec_keyErase h, eraseKey_empty hempty, hq, ht]
    · rw [keySlot_onSlot_same hslot]
    · rw [exec_keyErase h, eraseKey_held hheld]
  case done =>
    intro s slot hl hw
    have hslots := keySlot_congr (slots_withdrawDone hw)
    have hslot : keySlot (zeroizeSlot slot.val s) slot.val = _ := keySlot_onSlot_same slot.isLt _ s
    refine ⟨withdrawDone slot.val s, goLive_of_live _ hl, ?_, ?_, ?_, fun i hi => ?_⟩
    · rw [hslots, hslot]
    · rw [hslots, hslot]
    · rw [hslots, hslot]
    · rw [hslots]
      exact keySlot_onSlot_other hi _ s

end Sys2Proof.Machine
end

section
/-! PROOF. Queue pairs, ports and messages, and the completion entry of a command that is alone (R274, R279, R280, R302). -/

namespace Sys2Proof.Machine

/-! ## Queue pairs -/

section
variable {s t : State} {q r : Nat} {x : QueuePair}

theorem qpOf_congr (h : t.host.qps = s.host.qps) (q : Nat) : qpOf t q = qpOf s q := by
  rw [qpOf, h, qpOf]

theorem qid_of_qpOf (h : qpOf s q = some x) : x.qid = q := by
  simpa using List.find?_some h

theorem qpOf_onQp {f : QueuePair → QueuePair} (s : State) (hf : ∀ y, (f y).qid = y.qid := by exact fun _ => rfl) :
    qpOf (onQp q f s) q = (qpOf s q).map f :=
  find?_mapIf (fun y => by rw [hf]) s.host.qps

theorem qpOf_onQp_other {f : QueuePair → QueuePair} (h : r ≠ q) (s : State) (hf : ∀ y, (f y).qid = y.qid := by exact fun _ => rfl) :
    qpOf (onQp q f s) r = qpOf s r := by
  change (mapIf _ _ s.host.qps).find? _ = s.host.qps.find? _
  generalize s.host.qps = l
  induction l with
  | nil => rfl
  | cons y l ih =>
    by_cases hy : y.qid = q
    · simpa [mapIf, hy, hf, h.symm] using ih
    · by_cases hr : y.qid = r
      · simp [mapIf, hr, h]
      · simpa [mapIf, hy, hr] using ih

theorem qpOf_append_other {qs : List QueuePair} (h : r ≠ x.qid) :
    (qs ++ [x]).find? (fun y => y.qid == r) = qs.find? fun y => y.qid == r := by
  simp [List.find?_append, h.symm]

end

/-! ## Ports -/

/-- The ports are as they were, but for the bits that wait in their PBA. -/
def samePorts (s t : State) : Prop := ∀ p, { portOf t p with pba := 0 } = { portOf s p with pba := 0 }

namespace samePorts
variable {s t u : State}

theorem of_changesOnly {l : List Field} (h : changesOnly l s t) (ha : .hostPortA ∉ l) (hb : .hostPortB ∉ l) : samePorts s t
  | .a => h.2 .hostPortA ha
  | .b => h.2 .hostPortB hb

theorem of_host (h : t.host = s.host) : samePorts s t
  | .a => by rw [portOf, portOf, h]
  | .b => by rw [portOf, portOf, h]

theorem trans (h : samePorts s t) (k : samePorts t u) : samePorts s u := fun p => (k p).trans (h p)

variable (h : samePorts s t) (p : Port)
include h

theorem linkUp : (portOf t p).linkUp = (portOf s p).linkUp := (congrArg PortState.linkUp (h p) :)

theorem d0 : (portOf t p).d0 = (portOf s p).d0 := (congrArg PortState.d0 (h p) :)

theorem bme : (portOf t p).bme = (portOf s p).bme := (congrArg PortState.bme (h p) :)

theorem mse : (portOf t p).mse = (portOf s p).mse := (congrArg PortState.mse (h p) :)

theorem width : (portOf t p).width = (portOf s p).width := (congrArg PortState.width (h p) :)

theorem rate : (portOf t p).rate = (portOf s p).rate := (congrArg PortState.rate (h p) :)

theorem msix : (portOf t p).msix = (portOf s p).msix := (congrArg PortState.msix (h p) :)

theorem isPath : isPath t p = isPath s p := by
  simp only [Machine.isPath, h.linkUp, h.d0, h.bme, h.mse]

theorem queuePath (x : QueuePair) : queuePath t x = queuePath s x := by
  rw [Machine.queuePath, h.isPath, Machine.queuePath]

end samePorts

@[simp] theorem portOf_onPort_same (p : Port) (f : PortState → PortState) (s : State) : portOf (onPort p f s) p = f (portOf s p) := by
  cases p <;> rfl

@[simp] theorem portOf_onPort_other (p : Port) (f : PortState → PortState) (s : State) :
    portOf (onPort p f s) (otherPort p) = portOf s (otherPort p) := by
  cases p <;> rfl

@[simp] theorem onPort_qps (p : Port) (f : PortState → PortState) (s : State) : (onPort p f s).host.qps = s.host.qps := by
  cases p <;> rfl

@[simp] theorem onPort_cmds (p : Port) (f : PortState → PortState) (s : State) : (onPort p f s).host.cmds = s.host.cmds := by
  cases p <;> rfl

@[simp] theorem onPort_out (p : Port) (f : PortState → PortState) (s : State) : (onPort p f s).out = s.out := by
  cases p <;> rfl

/-! ## Messages alone go out -/

/-- Outputs that are messages of MSI-X vectors and nothing else. -/
def messages (os : List Out) : Prop := ∀ o ∈ os, ∃ p v, o = Out.msix p v

theorem messages.append {a b : List Out} (ha : messages a) (hb : messages b) : messages (a ++ b) :=
  fun o ho => (List.mem_append.mp ho).elim (ha o) (hb o)

/-- Nothing but messages goes out from one state to the other (R302, R339). -/
def onlyMessages (s t : State) : Prop := ∃ ms, messages ms ∧ t.out = s.out ++ ms

namespace onlyMessages

theorem of_out {s t : State} (h : t.out = s.out) : onlyMessages s t :=
  ⟨[], fun _ ho => absurd ho List.not_mem_nil, by rw [h, List.append_nil]⟩

theorem trans {s t u : State} (h : onlyMessages s t) (k : onlyMessages t u) : onlyMessages s u := by
  obtain ⟨a, ha, hta⟩ := h
  obtain ⟨b, hb, hub⟩ := k
  exact ⟨a ++ b, ha.append hb, by rw [hub, hta, List.append_assoc]⟩

theorem forEach {α : Type} (l : List α) {f : α → State → State} (hf : ∀ x t, onlyMessages t (f x t)) (s : State) :
    onlyMessages s (forEach l f s) :=
  forEach_preserves (P := onlyMessages s) l (fun x t ht => ht.trans (hf x t)) (of_out rfl)

theorem msix (p : Port) (v : Nat) (s : State) : onlyMessages s (msix p v s) := by
  unfold Machine.msix
  split
  · exact ⟨[.msix p v], fun o ho => ⟨p, v, List.mem_singleton.mp ho⟩, rfl⟩
  · exact of_out (onPort_out _ _ _)

theorem deliver (g : Nat) (s : State) : onlyMessages s (deliver g s) := by
  unfold Machine.deliver
  exact forEach _ (fun (x : Nat × Port) t => msix x.2 x.1 t) _

theorem flushGroups (s : State) : onlyMessages s (flushGroups s) :=
  forEach _ (fun g t => deliver g (t.onBlf _)) s

theorem moderate (g v : Nat) (p : Port) (s : State) : onlyMessages s (moderate g v p s) := by
  unfold Machine.moderate
  dsimp only
  split
  · exact msix p v s
  · split
    · exact deliver g (s.onHost _)
    · exact of_out rfl

end onlyMessages

/-! ## The entry of a completion (R279) -/

/-- The queue pair with one entry more in its completion queue: the next slot and SEQ, and PHASE the other way behind the last slot (R274). -/
def entryAdded (x : QueuePair) (c : Completion) : QueuePair :=
  { x with
    cqTail := (x.cqTail + 1) % x.cqSize, phase := if x.cqTail + 1 = x.cqSize then !x.phase else x.phase,
    seq := (x.seq + 1) % 2 ^ 15, posted := x.posted ++ [⟨x.cqTail, x.seq + (if x.phase then 0x8000 else 0), c⟩] }

/-- What the entry's interrupt does, and what the interrupts held do before a POWER_STATE's, leaves all but these (R300, R339). -/
def messageFields : List Field := [.hostPba, .hostGroups, .blfCntMsix, .blfCntFlush, .out]

/-- Interrupts still held go out before the entry of a POWER_STATE (R300). -/
def heldOut (q : Nat) (c : Completion) (s : State) : State :=
  if opcodeOf c.entry = opPowerState ∧ q = 0 ∧ (s.host.groups.toList.any fun g => !g.held.isEmpty) then flushGroups s else s

/-- The interrupt of an entry; a POWER_STATE's own is not moderated (R300). -/
def interrupt (q : Nat) (x : QueuePair) (p : Port) (c : Completion) (s : State) : State :=
  if opcodeOf c.entry = opPowerState ∧ q = 0 then msix p x.vector s else moderate x.group x.vector p s

section
variable (q : Nat) (x : QueuePair) (p : Port) (c : Completion) (s : State)

theorem heldOut_changesOnly : changesOnly messageFields s (heldOut q c s) := by
  unfold heldOut
  split
  · exact (flushGroups_kept (by decide +kernel) (Kept.refl (fieldMask messageFields) s)).changesOnly
  · exact (Kept.refl _ s).changesOnly

theorem interrupt_changesOnly : changesOnly messageFields s (interrupt q x p c s) := by
  unfold interrupt
  split
  · exact (msix_kept _ _ (by decide +kernel) (Kept.refl (fieldMask messageFields) s)).changesOnly
  · exact (moderate_kept _ _ _ (by decide +kernel) (Kept.refl (fieldMask messageFields) s)).changesOnly

theorem heldOut_messages : onlyMessages s (heldOut q c s) := by
  unfold heldOut
  split
  · exact .flushGroups s
  · exact .of_out rfl

theorem heldOut_of_other (h : opcodeOf c.entry ≠ opPowerState ∨ q ≠ 0) : heldOut q c s = s :=
  if_neg fun ⟨hop, hq, _⟩ => h.elim (· hop) (· hq)

theorem interrupt_messages : onlyMessages s (interrupt q x p c s) := by
  unfold interrupt
  split
  · exact .msix _ _ s
  · exact .moderate _ _ _ s

end

/-- The entry with the interrupts before and after it (R279, R300). -/
def served (q : Nat) (x : QueuePair) (p : Port) (c : Completion) (s : State) : State :=
  interrupt q x p c (writeEntry q x p c (heldOut q c s))

theorem served_eq (q : Nat) (x : QueuePair) (p : Port) (c : Completion) (s : State) :
    served q x p c s =
      if opcodeOf c.entry = opPowerState ∧ q = 0 then
        msix p x.vector (writeEntry q x p c (if s.host.groups.toList.any fun g => !g.held.isEmpty then flushGroups s else s))
      else moderate x.group x.vector p (writeEntry q x p c s) := by
  unfold served interrupt heldOut
  split
  next h => simp [h]
  next h => rw [if_neg fun hall => h ⟨hall.1, hall.2.1⟩]

/-- A completion posted to a queue with a path and a free slot. -/
theorem postComp_of_room {q : Nat} {x : QueuePair} {p : Port} {s : State} (c : Completion) (hx : qpOf s q = some x) (hheld : x.heldComps = [])
    (hp : queuePath s x = some p) (hroom : cqRoom x = true) : postComp q c s = served q x p c s := by
  rw [served_eq]
  simp only [postComp, hx, hp, hheld, hroom, List.isEmpty_nil, Bool.and_self]

/-- What posting a completion changes. -/
def postFields : List Field := .hostQps :: messageFields

theorem postComp_changesOnly (q : Nat) (c : Completion) (s : State) : changesOnly postFields s (postComp q c s) :=
  (postComp_kept q c (by decide +kernel) (Kept.refl (fieldMask postFields) s)).changesOnly

theorem heldMark_qps (x : QueuePair) (s : State) : (heldMark x s).host.qps = s.host.qps := by
  unfold heldMark
  dsimp only
  split
  · split
    · exact onPort_qps _ _ s
    · exact onPort_qps _ _ s
  · rfl

theorem qpOf_of_messages {s t : State} (h : changesOnly messageFields s t) (q : Nat) : qpOf t q = qpOf s q :=
  qpOf_congr (h.2 .hostQps (by decide)) q

theorem qpOf_served_other {q r : Nat} (h : r ≠ q) (x : QueuePair) (p : Port) (c : Completion) (s : State) :
    qpOf (served q x p c s) r = qpOf s r :=
  calc qpOf (served q x p c s) r
    _ = qpOf (writeEntry q x p c (heldOut q c s)) r := qpOf_of_messages (interrupt_changesOnly ..) r
    _ = qpOf (heldOut q c s) r := by rw [writeEntry, qpOf_onQp_other h]; rfl
    _ = qpOf s r := qpOf_of_messages (heldOut_changesOnly ..) r

/-- A completion posted to one queue leaves the other queue pairs alone. -/
theorem qpOf_postComp_other {q r : Nat} (h : r ≠ q) (c : Completion) (s : State) : qpOf (postComp q c s) r = qpOf s r := by
  unfold postComp
  split
  · rfl
  next x hx =>
    split
    next p _ _ _ => rw [← served_eq, qpOf_served_other h]
    next => exact qpOf_onQp_other h s
    next => exact (qpOf_onQp_other h _).trans (qpOf_congr (heldMark_qps x s) r)

section
variable {q : Nat} {x : QueuePair} {s : State} (p : Port) (c : Completion) (hobjs : c.objs = none)
include hobjs

/-- The queue pair has the entry: it is not durable, and all its command's data went out before it (R279, R286). -/
theorem qpOf_served (hx : qpOf s q = some x) :
    qpOf (served q x p c s) q = some (entryAdded x { c with durable := false, sent := c.writes.length }) := by
  have hbefore : qpOf (heldOut q c s) q = some x := (qpOf_of_messages (heldOut_changesOnly ..) q).trans hx
  have hdur : nowDurable (heldOut q c s) c = false := by rw [nowDurable, hobjs]
  rw [served, qpOf_of_messages (interrupt_changesOnly ..), writeEntry, qpOf_onQp, hdur]
  exact congrArg (Option.map _) hbefore

/-- What goes out: messages, which only a POWER_STATE has, the rest of the data, the entry, and messages. -/
theorem out_served : ∃ pre post, messages pre ∧ messages post ∧ (opcodeOf c.entry ≠ opPowerState ∨ q ≠ 0 → pre = []) ∧
    (served q x p c s).out = s.out ++ pre ++ (c.writes.drop c.sent).map (fun w => .data p w.1 w.2) ++
      .entry p (x.cqBase + 16 * x.cqTail)
        (entryBytes q false p (x.seq + if x.phase then 0x8000 else 0) { c with durable := false, sent := c.writes.length }) :: post := by
  obtain ⟨post, hpost, hafter⟩ := interrupt_messages q x p c (writeEntry q x p c (heldOut q c s))
  have hdur : nowDurable (heldOut q c s) c = false := by rw [nowDurable, hobjs]
  have hentry : (writeEntry q x p c (heldOut q c s)).out = (heldOut q c s).out ++ (c.writes.drop c.sent).map (fun w => .data p w.1 w.2) ++
      [.entry p (x.cqBase + 16 * x.cqTail)
        (entryBytes q false p (x.seq + if x.phase then 0x8000 else 0) { c with durable := false, sent := c.writes.length })] := by
    rw [writeEntry, hdur]
    rfl
  by_cases h : opcodeOf c.entry ≠ opPowerState ∨ q ≠ 0
  · refine ⟨[], post, fun _ ho => absurd ho List.not_mem_nil, hpost, fun _ => rfl, ?_⟩
    rw [served, hafter, hentry, heldOut_of_other q c s h]
    simp
  · obtain ⟨pre, hpre, hbefore⟩ := heldOut_messages q c s
    refine ⟨pre, post, hpre, hpost, fun h' => absurd h' h, ?_⟩
    rw [served, hafter, hentry, hbefore]
    simp

end

/-! ## The commands that may complete, and the resets that may end (R285, R293) -/

theorem resetsPass_of_none {s : State} (hr : s.host.resetting = []) (hb : s.host.resetBusy = false) : resetsPass s = s := by
  simp [resetsPass, hr, hb, forEach]

theorem tidy_of_no_cmds {s : State} (hc : s.host.cmds = []) : tidy s = resetsPass s := by
  rw [tidy, hc]
  rfl

theorem tidy_idle {s : State} (hc : s.host.cmds = []) (hr : s.host.resetting = []) (hb : s.host.resetBusy = false) : tidy s = s :=
  (tidy_of_no_cmds hc).trans (resetsPass_of_none hr hb)

theorem tidy_of_one {s : State} {c : Cmd} (hc : s.host.cmds = [c]) : tidy s = resetsPass (tidyOne c.qid c.tag s) := by
  rw [tidy, hc]
  rfl

theorem before_irrefl (a : Nat × Nat) : before a a = false := by
  simp [before]

/-- The state with no command outstanding. -/
def noCmds (s : State) : State := s.onHost fun h => { h with cmds := [] }

/-- A queue pair holds no completion. -/
def noneHeld (s : State) : Prop := ∀ y ∈ s.host.qps, y.heldComps = []

section
variable {s : State} {c : Cmd} (hc : s.host.cmds = [c])
include hc

theorem cmdOf_of_one : cmdOf s c.qid c.tag = some c := by
  simp [cmdOf, hc]

theorem withoutCmd_of_one :
    (s.onHost fun h => { h with cmds := h.cmds.filter fun d => !(d.qid == c.qid && d.tag == c.tag) }) = noCmds s := by
  simp [State.onHost, noCmds, hc]

theorem cmds_onCmd_of_one (f : Cmd → Cmd) : (onCmd c.qid c.tag f s).host.cmds = [f c] := by
  simp [onCmd, mapIf, hc]

/-- The only command, once it is done, leaves for its queue (R285). -/
theorem tidyOne_done {st res : Nat} {objs : Option (Nat × Nat)} (hd : c.phase = .done st res objs) (hheld : noneHeld s) :
    tidyOne c.qid c.tag s = postComp c.qid (compOf c st res objs) (noCmds s) := by
  have hwaits : entryWaits s c = false := by
    simp only [entryWaits, hc, List.any_cons, List.any_nil, before_irrefl, Bool.false_and, Bool.false_or, List.any_eq_false]
    intro y hy
    simp [hheld y hy]
  simp only [tidyOne, cmdOf_of_one hc, hd, hwaits, Bool.false_eq_true, if_false, withoutCmd_of_one hc]

/-- A FENCE with nothing before it completes (R283). -/
theorem tidyOne_fence (hph : c.phase = .fenceWait) (hop : opcodeOf c.entry = opFence) :
    tidyOne c.qid c.tag s = postComp c.qid (compOf c 0 0 none) (noCmds s) := by
  simp only [tidyOne, cmdOf_of_one hc, hph, hop, withoutCmd_of_one hc]
  simp [hc, before_irrefl]

end

/-- The only command outstanding completes (R279, R285). -/
theorem reply_of_one {s : State} {c : Cmd} (st res : Nat) (hc : s.host.cmds = [c]) (hd : isDone c = false) (hheld : noneHeld s)
    (hr : s.host.resetting = []) (hb : s.host.resetBusy = false) :
    reply c.qid c.tag st res s = postComp c.qid (compOf c st res none) (noCmds s) := by
  have hone := cmds_onCmd_of_one hc fun d => if isDone d then d else { d with phase := .done st res none }
  simp only [hd, Bool.false_eq_true, if_false] at hone
  obtain ⟨-, hsame⟩ := postComp_changesOnly c.qid (compOf c st res none) (noCmds s)
  calc reply c.qid c.tag st res s
    _ = resetsPass (tidyOne c.qid c.tag (onCmd c.qid c.tag (fun d => if isDone d then d else { d with phase := .done st res none }) s)) :=
      tidy_of_one (c := { c with phase := .done st res none }) hone
    _ = resetsPass (postComp c.qid (compOf c st res none) (noCmds s)) := congrArg _ (tidyOne_done hone rfl hheld)
    _ = postComp c.qid (compOf c st res none) (noCmds s) :=
      resetsPass_of_none ((hsame .hostResetting (by decide)).trans hr) ((hsame .hostResetBusy (by decide)).trans hb)

theorem entryBytes_of_compOf (q : Nat) (p : Port) (sp : Nat) (c : Cmd) (st res n : Nat) :
    entryBytes q false p sp { compOf c st res none with durable := false, sent := n } =
      le 8 res ++ le 2 c.tag ++ le 1 q ++ le 1 (2 * portNo p) ++ le 2 st ++ le 2 sp := by
  simp [entryBytes, compOf]

/-- Settles O15: the completion of the only command is served by a queue with room, behind the data and between messages. -/
theorem completionIsOneEntryAfterItsData : Obligations.CompletionIsOneEntryAfterItsData := by
  unfold Obligations.CompletionIsOneEntryAfterItsData
  intro s c x p st res hc hd hx hheld hp hroom hr hb
  have hserved : reply c.qid c.tag st res s = served c.qid x p (compOf c st res none) (noCmds s) :=
    (reply_of_one st res hc hd hheld hr hb).trans (postComp_of_room (s := noCmds s) _ hx (hheld x (List.mem_of_find?_eq_some hx)) hp hroom)
  have hcmds : (reply c.qid c.tag st res s).host.cmds = [] := by
    rw [reply_of_one st res hc hd hheld hr hb]
    exact (postComp_changesOnly ..).2 .hostCmds (by decide)
  obtain ⟨pre, post, hpre, hpost, hnone, hout⟩ := out_served (q := c.qid) (x := x) (s := noCmds s) p (compOf c st res none) rfl
  refine ⟨entryAdded x { compOf c st res none with durable := false, sent := c.writes.length }, pre, post, hcmds, ?_, rfl, rfl, rfl, hpre.append hpost, hnone, ?_⟩
  · rw [hserved]
    exact qpOf_served p _ rfl hx
  · rw [hserved, hout, entryBytes_of_compOf]
    rfl

end Sys2Proof.Machine
end

section
/-! PROOF. The admin queue, the doorbells, the fetch and the start of a command (R276 to R278, R280, R282, R285, R304, R312). -/

namespace Sys2Proof.Machine

/-! ## ADMIN_ENABLE (R276) -/

section
variable {p : Port} {s : State}

theorem exec_adminEnable (hl : live s = true) : exec (.adminEnable p) s = .next (enableAdmin p s) := goLive_of_live _ hl

theorem enableAdmin_busy (hb : s.host.resetBusy = true) : enableAdmin p s = s := if_pos hb

variable (hb : s.host.resetBusy = false)
include hb

theorem enableAdmin_running (hq : (qpOf s 0).isSome) : enableAdmin p s = s.onHost fun h => { h with enable := true } := by
  simp [enableAdmin, hb, hq]

variable (hq : qpOf s 0 = none)
include hq

theorem enableAdmin_starts (hok : aqSizesOk s.host = true) :
    enableAdmin p s = s.onHost fun h => { h with enable := true, cfgErr := false, qps := adminQueue h p :: h.qps } := by
  simp [enableAdmin, hb, hq, hok]

theorem enableAdmin_refuses (hok : aqSizesOk s.host = false) :
    enableAdmin p s = s.onHost fun h => { h with enable := true, cfgErr := true } := by
  simp [enableAdmin, hb, hq, hok]

end

/-- A base of a LO and a HI register lies on a page boundary (R276). -/
theorem page_aligned (lo hi : Nat) : (lo / 4096 * 4096 + hi * 2 ^ 32) % 4096 = 0 := by omega

/-- Settles O11: each clause is the case of ADMIN_ENABLE that its hypotheses name. -/
theorem adminQueueStartsAsConfigured : Obligations.AdminQueueStartsAsConfigured := by
  unfold Obligations.AdminQueueStartsAsConfigured
  refine ⟨fun p s hl hb hq hok => ?starts, fun p s hl hb hq hok => ?refuses, fun p s hl hb hq => ?running, fun p s hl hb => ?busy⟩
  case starts =>
    refine ⟨_, adminQueue s.host p, (exec_adminEnable hl).trans (congrArg _ (enableAdmin_starts hb hq hok)), rfl, rfl, rfl, ?_, ?_, rfl, rfl,
      rfl, page_aligned _ _, page_aligned _ _, rfl, rfl, rfl, rfl, fun q hne => ?_, ?_⟩
    · simp [adminQueue, bits]
    · have hlt := s.host.aqSize.isLt
      simp only [adminQueue, bits]
      omega
    · exact List.find?_cons_of_neg (by simpa [adminQueue] using hne.symm)
    · refine Kept.changesOnly (onHost_kept _ (fun h => ?_) (Kept.refl _ s))
      exact { HostAgree.refl _ h with
        enable := .inl (by decide +kernel), cfgErr := .inl (by decide +kernel), qps := .inl (by decide +kernel) }
  case refuses =>
    refine ⟨_, (exec_adminEnable hl).trans (congrArg _ (enableAdmin_refuses hb hq hok)), rfl, rfl, ?_⟩
    refine Kept.changesOnly (onHost_kept _ (fun h => ?_) (Kept.refl _ s))
    exact { HostAgree.refl _ h with enable := .inl (by decide +kernel), cfgErr := .inl (by decide +kernel) }
  case running =>
    refine ⟨_, (exec_adminEnable hl).trans (congrArg _ (enableAdmin_running hb hq)), rfl, ?_⟩
    refine Kept.changesOnly (onHost_kept _ (fun h => ?_) (Kept.refl _ s))
    exact { HostAgree.refl _ h with enable := .inl (by decide +kernel) }
  case busy => exact (exec_adminEnable hl).trans (congrArg _ (enableAdmin_busy hb))

/-! ## Doorbells (R277, R280, R282, R298, R304) -/

@[simp] theorem leavePs_host (s : State) : (leavePs s).host = s.host := by
  unfold leavePs
  split <;> rfl

@[simp] theorem leavePs_lantern (s : State) : (leavePs s).lantern = s.lantern := by
  unfold leavePs
  split <;> rfl

theorem offers_host_lantern (s : State) : (offers s).host = s.host ∧ (offers s).lantern = s.lantern := by
  refine forEach_preserves (P := fun t => t.host = s.host ∧ t.lantern = s.lantern) _ (fun c t ht => ?_) ⟨rfl, rfl⟩
  dsimp only
  split
  · exact ht
  · split <;> exact ht

@[simp] theorem raise_host (n : Nat) (s : State) : (raise n s).host = s.host := by
  unfold raise
  split
  · rfl
  · exact (offers_host_lantern _).1

@[simp] theorem raise_lantern (n : Nat) (s : State) : (raise n s).lantern = s.lantern := by
  unfold raise
  split
  · rfl
  · exact (offers_host_lantern _).2

/-- What a device event changes besides the log of events: the vector it sends (R376). -/
theorem deviceEvent_changesOnly (code : Nat) (data : Bytes) (s : State) :
    changesOnly [.lanternEvents, .hostPba, .blfCntMsix, .out] s (deviceEvent code data s) :=
  (deviceEvent_kept code data (by decide +kernel) (Kept.refl (fieldMask [.lanternEvents, .hostPba, .blfCntMsix, .out]) s)).changesOnly

theorem deviceEvent_events (code : Nat) (data : Bytes) (s : State) :
    (deviceEvent code data s).lantern.events.length = s.lantern.events.length + 1 := by
  have hsame := fun t => (vector256_kept rfl (Kept.refl (allBut .lanternEvents) t)).same .lanternEvents rfl
  unfold deviceEvent
  rw [show (vector256 _).lantern.events = _ from hsame _]
  simp

/-- A discarded doorbell is counted and makes a device event; the queues stay (R277). -/
theorem badDoorbell_effects (p : Port) (s : State) :
    (badDoorbell p s).host.cntDbErr = inc s.host.cntDbErr ∧ (badDoorbell p s).host.qps = s.host.qps ∧
      (badDoorbell p s).host.nextOrder = s.host.nextOrder ∧
      (badDoorbell p s).lantern.events.length = s.lantern.events.length + 1 := by
  have hevent := deviceEvent_events Config.doorbellEvent [BitVec.ofNat 8 (portNo p)]
    ((leavePs s).onHost fun h => { h with cntDbErr := inc h.cntDbErr })
  obtain ⟨-, hsame⟩ := deviceEvent_changesOnly Config.doorbellEvent [BitVec.ofNat 8 (portNo p)]
    ((leavePs s).onHost fun h => { h with cntDbErr := inc h.cntDbErr })
  have hcnt := hsame .hostCntDbErr (by decide)
  have hqps := hsame .hostQps (by decide)
  have horder := hsame .hostNextOrder (by decide)
  simp only [Field.same, State.onHost_host, State.onHost_lantern, leavePs_host, leavePs_lantern] at hcnt hqps horder hevent
  simp only [badDoorbell, raise_host, raise_lantern]
  exact ⟨hcnt, hqps, horder, hevent⟩

/-- The slots behind the head are free (R277, R304). -/
def headTaken (q head : Nat) (s : State) : State :=
  onQp q (fun y => { y with cqHead := head, posted := y.posted.drop (consumes y head) }) (leavePs s)

theorem headTaken_queue {q v : Nat} {s : State} {x : QueuePair} (hx : qpOf s q = some x) :
    qpOf (headTaken q v s) q = some { x with cqHead := v, posted := x.posted.drop (consumes x v) } := by
  rw [headTaken, qpOf_onQp, qpOf_congr (congrArg HostIf.qps (leavePs_host s)), hx]
  rfl

section
variable {p : Port} {q v : Nat} {s : State}

theorem tailDoorbell_bad (h : ∀ x, qpOf s q = some x → x.sqSize ≤ v) : tailDoorbell p q v s = badDoorbell p s := by
  unfold tailDoorbell
  split
  · rfl
  next x hx => exact if_pos (h x hx)

theorem headDoorbell_bad (h : ∀ x, qpOf s q = some x → x.cqSize ≤ v ∨ cqUsed x < consumes x v) :
    headDoorbell p q v s = badDoorbell p s := by
  unfold headDoorbell
  split
  · rfl
  next x hx => exact if_pos (h x hx)

variable {x : QueuePair} (hx : qpOf s q = some x)
include hx

theorem tailDoorbell_taken (ht : v < x.sqSize) (hr : (s.host.resetting.any fun e => e.1 == q) = false) :
    tailDoorbell p q v s = acceptTail q v (raise (128 + q) (leavePs s)) := by
  simp [tailDoorbell, hx, Nat.not_le.mpr ht, hr]

/-- The entries up to the tail take the next places in the submission order (R277, R282). -/
theorem acceptTail_effects :
    (acceptTail q v s).host.nextOrder = s.host.nextOrder + (v + x.sqSize - x.sqTail) % x.sqSize ∧
      (acceptTail q v s).host.cntDbErr = s.host.cntDbErr ∧
      qpOf (acceptTail q v s) q = some { x with
        sqTail := v, exposed := x.exposed ++ (List.range ((v + x.sqSize - x.sqTail) % x.sqSize)).map fun i => s.host.nextOrder + i } := by
  simp only [acceptTail, hx]
  refine ⟨rfl, rfl, (qpOf_onQp _).trans ?_⟩
  exact congrArg (Option.map _) hx

/-- With nothing held and nothing outstanding a head frees its slots and does no more (R277, R280). -/
theorem headDoorbell_taken (hv : v < x.cqSize) (huse : consumes x v ≤ cqUsed x) (hheld : x.heldComps = []) (hc : s.host.cmds = [])
    (hr : s.host.resetting = []) (hb : s.host.resetBusy = false) :
    headDoorbell p q v s = onQp q (fun y => { y with heldComps := [] }) (headTaken q v s) := by
  have hflush : flushHeld q (headTaken q v s) = onQp q (fun y => { y with heldComps := [] }) (headTaken q v s) := by
    simp only [flushHeld, headTaken_queue hx, hheld]
    rfl
  have hgood : ¬ (x.cqSize ≤ v ∨ cqUsed x < consumes x v) := by omega
  simp only [headDoorbell, hx, if_neg hgood]
  refine (congrArg tidy hflush).trans (tidy_idle ?_ ?_ ?_)
  · simpa [headTaken, onQp] using hc
  · simpa [headTaken, onQp] using hr
  · simpa [headTaken, onQp] using hb

end

/-- Settles O13: a doorbell that its queue takes, and one that is discarded. -/
theorem doorbellsMoveTheirQueues : Obligations.DoorbellsMoveTheirQueues := by
  unfold Obligations.DoorbellsMoveTheirQueues
  refine ⟨fun p q tail s x hl hx ht hr => ?tail, fun p q head s x hl hx hv huse hheld hc hr hb => ?head, fun p q v s hl => ⟨fun h => ?_, fun h => ?_⟩⟩
  case tail =>
    have hqueue : qpOf (raise (128 + q.val) (leavePs s)) q.val = some x := by simpa [qpOf] using hx
    obtain ⟨horder, hcnt, hqp⟩ := acceptTail_effects (v := tail.toNat) hqueue
    simp only [raise_host, leavePs_host] at horder hcnt hqp
    exact ⟨_, (goLive_of_live _ hl).trans (congrArg _ (tailDoorbell_taken hx ht hr)), horder, hcnt, hqp⟩
  case head =>
    refine ⟨_, (goLive_of_live _ hl).trans (congrArg _ (headDoorbell_taken hx hv huse hheld hc hr hb)), ?_, ?_⟩
    · simp [headTaken, onQp]
    · rw [qpOf_onQp, headTaken_queue hx]
      simp [hheld]
  · obtain ⟨hcnt, hqps, horder, hevent⟩ := badDoorbell_effects p s
    exact ⟨_, (goLive_of_live _ hl).trans (congrArg _ (tailDoorbell_bad h)), hcnt, hqps, horder, hevent⟩
  · obtain ⟨hcnt, hqps, -, hevent⟩ := badDoorbell_effects p s
    exact ⟨_, (goLive_of_live _ hl).trans (congrArg _ (headDoorbell_bad h)), hcnt, hqps, hevent⟩

/-! ## SQ_FETCH (R278, R312) -/

theorem exec_sqFetch {es : List Bytes} {s : State} (hl : live s = true) : exec (.sqFetch es) s = .next (fetchRound es s) := goLive_of_live _ hl

theorem fetchRound_stopped {es : List Bytes} {s : State} (h : s.host.holdForSwitch = true ∨ s.power.pstate ≠ 0) : fetchRound es s = s :=
  if_pos h

/-- A queue whose turn it is with one exposed entry gives that entry (R278). -/
theorem fetchRound_of_one {s : State} {x : QueuePair} {o : Nat} (e : Bytes) (hexp : x.exposed = [o]) (hhold : s.host.holdForSwitch = false)
    (hps : s.power.pstate = 0) (hturn : fetchTurn s = some x) :
    fetchRound [e] s = tidy (fetchOne x.qid e (s.onHost fun h => { h with lastFetched := x.qid })) := by
  simp [fetchRound, hhold, hps, hturn, hexp, forEach]

/-- The only command stays while it waits for its start (R285). -/
theorem tidy_of_fetched {s : State} {c : Cmd} (hc : s.host.cmds = [c]) (hph : c.phase = .fetched) (hr : s.host.resetting = [])
    (hb : s.host.resetBusy = false) : tidy s = s := by
  have hstays : tidyOne c.qid c.tag s = s := by simp only [tidyOne, cmdOf_of_one hc, hph]
  rw [tidy_of_one hc, hstays, resetsPass_of_none hr hb]

/-- The queue pair with its one exposed entry fetched. -/
def fetchedFrom (x : QueuePair) : QueuePair := { x with exposed := [], sqNext := (x.sqNext + 1) % x.sqSize }

/-- The queue is the one fetched from last, and its one exposed entry has left it (R278). -/
def entryFetched (q : Nat) (s : State) : State :=
  onQp q (fun y => { y with exposed := [], sqNext := (y.sqNext + 1) % y.sqSize }) (s.onHost fun h => { h with lastFetched := q })

theorem qpOf_entryFetched {s : State} {q : Nat} {x : QueuePair} (hx : qpOf s q = some x) :
    qpOf (entryFetched q s) q = some (fetchedFrom x) := by
  rw [entryFetched, qpOf_onQp]
  exact congrArg (Option.map _) hx

theorem endFetched_changesOnly (c : Cmd) (st : Nat) (s : State) : changesOnly postFields s (endFetched c st s) :=
  (endFetched_kept c st (by decide +kernel) (Kept.refl (fieldMask postFields) s)).changesOnly

/-- The interrupts held go out before the entry of a POWER_STATE that fails its checks too (R300). -/
def flushedFor (c : Cmd) (s : State) : State := if opcodeOf c.entry = opPowerState ∧ c.qid = 0 then flushGroups s else s

theorem flushedFor_changesOnly (c : Cmd) (s : State) : changesOnly messageFields s (flushedFor c s) := by
  unfold flushedFor
  split
  · exact (flushGroups_kept (by decide +kernel) (Kept.refl (fieldMask messageFields) s)).changesOnly
  · exact (Kept.refl _ s).changesOnly

theorem flushedFor_messages (c : Cmd) (s : State) : onlyMessages s (flushedFor c s) := by
  unfold flushedFor
  split
  · exact .flushGroups s
  · exact .of_out rfl

/-- The entry of a command that fails its checks, behind messages that only a POWER_STATE has (R300, R312). -/
theorem endFetched_out {s : State} {c : Cmd} {x : QueuePair} {p : Port} (st : Nat) (hx : qpOf s c.qid = some x) (hheld : x.heldComps = [])
    (hp : queuePath s x = some p) (hroom : cqRoom x = true) (hw : c.writes = []) :
    ∃ pre post, (opcodeOf c.entry ≠ opPowerState ∨ c.qid ≠ 0 → pre = []) ∧ (endFetched c st s).out = s.out ++ pre ++
      .entry p (x.cqBase + 16 * x.cqTail) (entryBytes c.qid false p (x.seq + if x.phase then 0x8000 else 0) (compOf c st 0 none)) :: post := by
  have hflush := flushedFor_changesOnly c s
  have hpath : queuePath (flushedFor c s) x = some p :=
    ((samePorts.of_changesOnly hflush (by decide) (by decide)).queuePath x).trans hp
  have hqueue : qpOf (flushedFor c s) c.qid = some x := (qpOf_of_messages hflush c.qid).trans hx
  obtain ⟨pre2, post, -, -, hpre2, hout⟩ := out_served (q := c.qid) (x := x) (s := flushedFor c s) p (compOf c st 0 none) rfl
  have hserved : endFetched c st s = served c.qid x p (compOf c st 0 none) (flushedFor c s) := postComp_of_room _ hqueue hheld hpath hroom
  have hdata : (compOf c st 0 none).writes = [] := hw
  rw [hserved, hout, hdata]
  by_cases h : opcodeOf c.entry ≠ opPowerState ∨ c.qid ≠ 0
  · have hsame : flushedFor c s = s := if_neg fun ⟨hop, hq⟩ => h.elim (· hop) (· hq)
    exact ⟨[], post, fun _ => rfl, by rw [hpre2 h, hsame]; simp [entryBytes, compOf]⟩
  · obtain ⟨pre1, -, hbefore⟩ := flushedFor_messages c s
    exact ⟨pre1 ++ pre2, post, fun h' => absurd h' h, by rw [hbefore]; simp [entryBytes, compOf]⟩

section
variable {s : State} {x : QueuePair} {o : Nat} (e : Bytes) (hx : qpOf s x.qid = some x) (hexp : x.exposed = [o]) (hc : s.host.cmds = [])
  (hr : s.host.resetting = []) (hheld : x.heldComps = [])
include hx hexp hc hr hheld

/-- The entry is checked with no command of its tag outstanding (R312). -/
theorem fetchOne_of_one :
    fetchOne x.qid e (s.onHost fun h => { h with lastFetched := x.qid }) =
      match entryCheck x.qid x.version (s.boot.phase == .fallback) false (fit 64 e) with
      | some st => endFetched (freshCmd x.qid o (fit 64 e)) st (entryFetched x.qid s)
      | none => negotiated (fit 64 e) ((entryFetched x.qid s).onHost fun h => { h with cmds := h.cmds ++ [freshCmd x.qid o (fit 64 e)] }) := by
  have hq : qpOf (s.onHost fun h => { h with lastFetched := x.qid }) x.qid = some x := hx
  have hbusy : tagBusy (s.onHost fun h => { h with lastFetched := x.qid }) x.qid (freshCmd x.qid o (fit 64 e)).tag = false := by
    simp [tagBusy, hq, hheld, cmdOf, hc]
  simp only [fetchOne, hq, hexp, hbusy, State.onHost_host, hr, List.find?_nil]
  rfl

variable (hhold : s.host.holdForSwitch = false) (hps : s.power.pstate = 0) (hturn : fetchTurn s = some x) (hb : s.host.resetBusy = false)
include hhold hps hturn hb

/-- An entry that passes becomes a command at its place in the submission order (R278, R312). -/
theorem fetchRound_passes (hcheck : entryCheck x.qid x.version (s.boot.phase == .fallback) false (fit 64 e) = none)
    (hop : opcodeOf (fit 64 e) ≠ opNegotiate) :
    fetchRound [e] s = (entryFetched x.qid s).onHost fun h => { h with cmds := [freshCmd x.qid o (fit 64 e)] } := by
  have hone : ((entryFetched x.qid s).onHost fun h => { h with cmds := h.cmds ++ [freshCmd x.qid o (fit 64 e)] }) =
      (entryFetched x.qid s).onHost fun h => { h with cmds := [freshCmd x.qid o (fit 64 e)] } := by
    simp [State.onHost, entryFetched, onQp, hc]
  rw [fetchRound_of_one e hexp hhold hps hturn, fetchOne_of_one e hx hexp hc hr hheld, hcheck]
  simp only [negotiated, if_neg hop, hone]
  exact tidy_of_fetched (c := freshCmd x.qid o (fit 64 e)) rfl rfl hr hb

/-- An entry that fails a check completes with that check's status (R312). -/
theorem fetchRound_fails {st : Nat} (hcheck : entryCheck x.qid x.version (s.boot.phase == .fallback) false (fit 64 e) = some st) :
    fetchRound [e] s = endFetched (freshCmd x.qid o (fit 64 e)) st (entryFetched x.qid s) := by
  obtain ⟨-, hsame⟩ := endFetched_changesOnly (freshCmd x.qid o (fit 64 e)) st (entryFetched x.qid s)
  rw [fetchRound_of_one e hexp hhold hps hturn, fetchOne_of_one e hx hexp hc hr hheld, hcheck]
  exact tidy_idle ((hsame .hostCmds (by decide)).trans hc) ((hsame .hostResetting (by decide)).trans hr)
    ((hsame .hostResetBusy (by decide)).trans hb)

end

/-! ## COMMAND_START (R285, R310, R313) -/

theorem exec_commandStart_of_none {sgl : List Bytes} {s : State} (h : nextStart s = none) : exec (.commandStart sgl) s = .next s := by
  change execCommandStart sgl s = _
  rw [execCommandStart, goLive_of_fixed]
  rw [h]

theorem exec_commandStart {sgl : List Bytes} {s : State} {c : Cmd} {segs : List (Nat × Nat)} {lon : Nat} (hl : live s = true)
    (h : nextStart s = some c) (hsegs : bufferOf c.entry sgl = some segs) (hlon : resolveLon s c.entry = some lon) :
    exec (.commandStart sgl) s = .next (onCmd c.qid c.tag
      (fun k => { k with phase := .started, segs := segs, lon := lon, entry := patch k.entry 8 (le 8 lon) }) s) := by
  change execCommandStart sgl s = _
  rw [execCommandStart, goLive_of_live _ hl]
  simp only [h, startCmd, hsegs, hlon]

theorem onCmd_changesOnly (q tag : Nat) (f : Cmd → Cmd) (s : State) : changesOnly [.hostCmds] s (onCmd q tag f s) :=
  (onCmd_kept q tag f (by decide +kernel) (Kept.refl (fieldMask [.hostCmds]) s)).changesOnly

/-- Settles O14: an entry that passes, one that fails, the command that starts, and what stops a fetch and a start. -/
theorem fetchAndStartTakeTheQueueInTurn : Obligations.FetchAndStartTakeTheQueueInTurn := by
  unfold Obligations.FetchAndStartTakeTheQueueInTurn
  refine ⟨?passes, ?fails, ?starts, fun _ s _ h => exec_commandStart_of_none h, fun es s hl h => ?stopped⟩
  case passes =>
    intro e s x o hl hhold hps hc hr hb hturn hx hexp hheld hcheck hop
    have hround := fetchRound_passes e hx hexp hc hr hheld hhold hps hturn hb hcheck hop
    exact ⟨_, (exec_sqFetch hl).trans (congrArg _ hround), rfl, rfl, rfl, qpOf_entryFetched hx⟩
  case fails =>
    intro e s x o st p hl hhold hps hc hr hb hturn hx hexp hheld hroom hp hcheck
    have hround := fetchRound_fails e hx hexp hc hr hheld hhold hps hturn hb hcheck
    obtain ⟨-, hsame⟩ := endFetched_changesOnly (freshCmd x.qid o (fit 64 e)) st (entryFetched x.qid s)
    obtain ⟨pre, post, hpre, hout⟩ := endFetched_out (c := freshCmd x.qid o (fit 64 e)) st (qpOf_entryFetched hx) hheld hp hroom rfl
    exact ⟨_, pre, post, (exec_sqFetch hl).trans (congrArg _ hround), (hsame .hostCmds (by decide)).trans hc, hpre, hout⟩
  case starts =>
    intro sgl s c segs lon hl h hsegs hlon
    refine ⟨_, exec_commandStart hl h hsegs hlon, onCmd_changesOnly .., ?_⟩
    simp [onCmd, mapIf]
  case stopped => exact (exec_sqFetch hl).trans (congrArg _ (fetchRound_stopped h))

end Sys2Proof.Machine
end

section
/-! PROOF. Queue pairs made, reset and deleted, and the end of every queue at a function reset, an FLR and a port reset (R275, R293 to
R295, R351). -/

namespace Sys2Proof.Machine

/-! ## A queue begins its reset (R293) -/

/-- The queue is in reset with this status (R293). -/
def resetBegun (q st : Nat) (s : State) : State := s.onHost fun h => { h with resetting := h.resetting ++ [(q, st)] }

theorem partAt_of_unmounted {s : State} (hv : s.drive.vol = none) (p : Nat) : partAt s p = noPart := by
  simp only [partAt, hv]

/-- With no volume mounted no queue holds an atomic group open (R288). -/
theorem abandonGroupsOf_of_unmounted {s : State} (q st : Nat) (hv : s.drive.vol = none) : abandonGroupsOf q st s = s := by
  refine forEach_preserves (P := fun t => t = s) _ (fun p t ht => ?_) rfl
  rw [ht, partAt_of_unmounted hv]
  rfl

/-- A queue without a command of its own has nothing to abort but its handles (R267, R293). -/
theorem abortQueue_of_no_cmds {s : State} {q : Nat} (st : Nat) (hv : s.drive.vol = none) (hc : s.host.cmds.filter (fun c => c.qid == q) = []) :
    abortQueue q st s = settle (closeQueueHandles q (resetBegun q st s)) := by
  have hnone : (resetBegun q st s).host.cmds.filter (fun c => c.qid == q) = [] := hc
  simp only [abortQueue, abandonGroupsOf_of_unmounted q st hv]
  change settle (closeQueueHandles q (forEach (byOrder ((resetBegun q st s).host.cmds.filter fun c => c.qid == q)) _ (resetBegun q st s))) = _
  rw [hnone]
  rfl

theorem settle_of_no_cmds {s : State} (hc : s.host.cmds = []) : settle s = resetsPass s := by
  have hnone : settle s = tidy s := by
    rw [settle, hc]
    rfl
  rw [hnone, tidy_of_no_cmds hc]

/-- A command that waits for a queue's reset is neither settled nor done until the reset is over (R293, R294). -/
theorem settle_of_waiter {s : State} {c : Cmd} (hc : s.host.cmds = [c]) (hph : c.phase = .fenceWait) (hop : opcodeOf c.entry ≠ opFence) :
    settle s = resetsPass s := by
  have hsettled : settle s = tidy s := by
    have hone : (match cmdOf s c.qid c.tag with | some d => settleOne d s | none => s) = s := by
      rw [cmdOf_of_one hc]
      simp only [settleOne, hph]
    rw [settle, hc]
    exact congrArg tidy hone
  have hstays : tidyOne c.qid c.tag s = s := by
    simp only [tidyOne, cmdOf_of_one hc, hph, ne_eq, hop, not_false_eq_true, if_true]
  rw [hsettled, tidy_of_one hc, hstays]

/-! ## A function reset with nothing outstanding (R295) -/

/-- No command is outstanding, no volume is mounted, and no queue pair has an entry exposed or a completion held. -/
structure quietHost (s : State) : Prop where
  cmds : s.host.cmds = []
  vol : s.drive.vol = none
  idle : ∀ x ∈ s.host.qps, x.exposed = [] ∧ x.heldComps = []

theorem quietHost.congr {s t : State} (h : quietHost s) (hc : t.host.cmds = s.host.cmds) (hv : t.drive.vol = s.drive.vol)
    (hq : t.host.qps = s.host.qps) : quietHost t :=
  ⟨hc.trans h.cmds, hv.trans h.vol, hq ▸ h.idle⟩

theorem quietHost.onQp {s : State} {q : Nat} {f : QueuePair → QueuePair} (h : quietHost s)
    (hf : ∀ x, x.exposed = [] ∧ x.heldComps = [] → (f x).exposed = [] ∧ (f x).heldComps = []) : quietHost (onQp q f s) where
  cmds := h.cmds
  vol := h.vol
  idle := by
    intro y hy
    obtain ⟨x, hx, rfl⟩ := List.mem_map.mp hy
    split
    · exact hf x (h.idle x hx)
    · exact h.idle x hx

theorem quietHost.resetIdle {s : State} (h : quietHost s) (q : Nat) : resetIdle s q = true := by
  unfold Machine.resetIdle
  split
  · rfl
  next x hx =>
    obtain ⟨hexp, hheld⟩ := h.idle x (List.mem_of_find?_eq_some hx)
    simp [hexp, hheld, h.cmds]

theorem quietHost.sweepReset {s : State} (h : quietHost s) (q st : Nat) : quietHost (sweepReset q st s) := by
  unfold Machine.sweepReset
  split
  · exact h
  · dsimp only
    split
    · exact h
    · split
      · exact (h.onQp fun _ _ => ⟨rfl, rfl⟩).congr rfl rfl rfl
      · exact h.onQp fun _ _ => ⟨rfl, rfl⟩

theorem quietHost.repath {s : State} (h : quietHost s) (q : Nat) : quietHost (repath q s) := by
  unfold Machine.repath
  split
  · exact h
  · split
    · exact h.onQp fun _ hx => hx
    · exact h

/-- A function reset is over: every queue pair is gone and the host groups are at their reset state (R295, R338). -/
structure functionEnded (s : State) : Prop where
  qps : s.host.qps = []
  enable : s.host.enable = false
  busy : s.host.resetBusy = false
  groups : s.host.groups = Vector.replicate 32 {}

theorem qpOf_of_no_qps {s : State} (h : s.host.qps = []) (q : Nat) : qpOf s q = none := by
  simp [qpOf, h]

theorem functionEnded.sweepReset {s : State} (h : functionEnded s) (q st : Nat) : sweepReset q st s = s := by
  simp only [Machine.sweepReset, qpOf_of_no_qps h.qps]

theorem functionEnded.repath {s : State} (h : functionEnded s) (q : Nat) : repath q s = s := by
  simp only [Machine.repath, qpOf_of_no_qps h.qps]

/-- A function reset is under way or over, with no queue in reset and nothing outstanding. -/
structure resetGoes (s : State) : Prop where
  quiet : quietHost s
  resetting : s.host.resetting = []
  state : s.host.resetBusy = true ∨ functionEnded s

theorem endFunctionReset_ends {s : State} (h : quietHost s) (hr : s.host.resetting = []) :
    resetGoes (endFunctionReset s) ∧ functionEnded (endFunctionReset s) := by
  obtain ⟨-, hsame⟩ := (flushGroups_kept (by decide +kernel) (Kept.refl (fieldMask messageFields) s)).changesOnly
  unfold endFunctionReset
  generalize flushGroups s = t at hsame
  have hvol : t.drive.vol = none := (hsame .driveVol (by decide)).trans h.vol
  have hnone : t.host.resetting = [] := (hsame .hostResetting (by decide)).trans hr
  exact ⟨⟨⟨rfl, hvol, fun _ hx => absurd hx List.not_mem_nil⟩, hnone, .inr ⟨rfl, rfl, rfl, rfl⟩⟩, ⟨rfl, rfl, rfl, rfl⟩⟩

/-- Once no queue is in reset any more a function reset ends (R295). -/
theorem resetGoes.ends {s : State} (h : resetGoes s) :
    resetGoes (if s.host.resetBusy && s.host.resetting.all (fun e => e.2 != 0x0211) then endFunctionReset s else s) ∧
      functionEnded (if s.host.resetBusy && s.host.resetting.all (fun e => e.2 != 0x0211) then endFunctionReset s else s) := by
  rcases h.state with hbusy | hended
  · simp only [hbusy, h.resetting, List.all_nil, Bool.and_self, if_true]
    exact endFunctionReset_ends h.quiet h.resetting
  · simp only [hended.busy, Bool.false_and, Bool.false_eq_true, if_false]
    exact ⟨h, hended⟩

/-- One queue's part of a function reset is over (R293, R295). -/
theorem resetGoes.of_queue {s : State} {q : Nat} (hq : quietHost s) (hr : s.host.resetting = [(q, 0x0211)])
    (hs : s.host.resetBusy = true ∨ functionEnded s) : resetGoes (endReset q 0x0211 (sweepReset q 0x0211 s)) := by
  have hswept := hq.sweepReset q 0x0211
  obtain ⟨-, hsame⟩ :=
    (sweepReset_kept q 0x0211 (by decide +kernel) (Kept.refl (fieldMask [.lanternKeptOutcomes, .hostQps]) s)).changesOnly
  have hkept : (sweepReset q 0x0211 s).host.resetting = [(q, 0x0211)] := (hsame .hostResetting (by decide)).trans hr
  refine ⟨hswept.congr rfl rfl rfl, ?_, ?_⟩
  · change (sweepReset q 0x0211 s).host.resetting.filter _ = []
    simp [hkept]
  · rcases hs with hbusy | hended
    · exact .inl ((hsame .hostResetBusy (by decide)).trans hbusy)
    · rw [hended.sweepReset]
      exact .inr ⟨hended.qps, hended.enable, hended.busy, hended.groups⟩

theorem resetsPass_of_queue {s : State} {q : Nat} (hq : quietHost s) (hr : s.host.resetting = [(q, 0x0211)])
    (hs : s.host.resetBusy = true ∨ functionEnded s) : resetGoes (resetsPass s) := by
  have hidle := (hq.sweepReset q 0x0211).resetIdle q
  simp only [resetsPass, hr, forEach, List.foldl_cons, List.foldl_nil, hidle, if_true]
  exact (resetGoes.of_queue hq hr hs).ends.1

theorem resetGoes.resetsPass {s : State} (h : resetGoes s) : functionEnded (resetsPass s) := by
  have hend := h.ends.2
  simp only [Machine.resetsPass, h.resetting, forEach, List.foldl_nil] at hend ⊢
  exact hend

theorem closeQueueHandles_changesOnly (q : Nat) (s : State) : changesOnly (contextFields ++ [.out]) s (closeQueueHandles q s) :=
  (closeQueueHandles_kept q (by decide +kernel) (Kept.refl (fieldMask (contextFields ++ [.out])) s)).changesOnly

theorem resetGoes.abortQueue {s : State} (h : resetGoes s) (q : Nat) : resetGoes (abortQueue q 0x0211 s) := by
  have hcmds : s.host.cmds.filter (fun c => c.qid == q) = [] := by rw [h.quiet.cmds, List.filter_nil]
  obtain ⟨-, hsame⟩ := closeQueueHandles_changesOnly q (resetBegun q 0x0211 s)
  have hquiet : quietHost (closeQueueHandles q (resetBegun q 0x0211 s)) :=
    h.quiet.congr (hsame .hostCmds (by decide)) (hsame .driveVol (by decide)) (hsame .hostQps (by decide))
  rw [abortQueue_of_no_cmds 0x0211 h.quiet.vol hcmds, settle_of_no_cmds hquiet.cmds]
  refine resetsPass_of_queue (q := q) hquiet ?_ (h.state.imp (hsame .hostResetBusy (by decide)).trans fun hended => ?_)
  · refine (hsame .hostResetting (by decide)).trans ?_
    simp [resetBegun, h.resetting]
  · exact ⟨(hsame .hostQps (by decide)).trans hended.qps, (hsame .hostEnable (by decide)).trans hended.enable,
      (hsame .hostResetBusy (by decide)).trans hended.busy, (hsame .hostGroups (by decide)).trans hended.groups⟩

theorem resetGoes.repath {s : State} (h : resetGoes s) (q : Nat) : resetGoes (repath q s) := by
  obtain ⟨-, hsame⟩ := (repath_kept q (by decide +kernel) (Kept.refl (fieldMask [.hostQps]) s)).changesOnly
  refine ⟨h.quiet.repath q, (hsame .hostResetting (by decide)).trans h.resetting, ?_⟩
  rcases h.state with hbusy | hended
  · exact .inl ((hsame .hostResetBusy (by decide)).trans hbusy)
  · rw [hended.repath]
    exact .inr hended

theorem dropReads_changesOnly (s : State) : changesOnly (truncateFields ++ readAheadFields) s (dropReads s) :=
  (dropReads_kept (by decide +kernel) (Kept.refl (fieldMask (truncateFields ++ readAheadFields)) s)).changesOnly

/-- A function reset finds no switch awaited, nothing outstanding and no queue in reset. -/
structure resetReady (s : State) : Prop where
  hold : s.host.holdForSwitch = false
  quiet : quietHost s
  resetting : s.host.resetting = []

/-- A function reset under way, before its queues' part (R295). -/
def functionBegun (s : State) : State :=
  ((dropReads s).onHost fun h => { h with resetBusy := true }).onBoot fun b => { b with activation := b.activation.map fun a => (a.1, none) }

theorem functionBegun_goes {s : State} (h : resetReady s) : resetGoes (functionBegun s) := by
  obtain ⟨hvol, -, hcmds⟩ := dropReads_drive_cmds s
  obtain ⟨-, hsame⟩ := dropReads_changesOnly s
  exact ⟨h.quiet.congr hcmds hvol (hsame .hostQps (by decide)), (hsame .hostResetting (by decide)).trans h.resetting, .inl rfl⟩

theorem functionReset_of_ready {s : State} (p : Port) (h : resetReady s) :
    functionReset p s =
      tidy (forEach ((functionBegun s).host.qps.map (·.qid)) (fun q t => abortQueue q 0x0211 (repath q t)) (functionBegun s)) := by
  have hcmds : (dropReads s).host.cmds = [] := (dropReads_drive_cmds s).2.2.trans h.quiet.cmds
  simp only [functionReset, h.hold, Bool.false_eq_true, if_false, State.onHost_host, hcmds, List.filter_nil]
  rfl

/-- A function reset with nothing outstanding ends at once (R295). -/
theorem functionReset_ends {s : State} (p : Port) (h : resetReady s) : functionEnded (functionReset p s) := by
  have hqueues : resetGoes (forEach _ (fun q t => abortQueue q 0x0211 (repath q t)) (functionBegun s)) :=
    forEach_preserves ((functionBegun s).host.qps.map (·.qid)) (fun q t ht => (ht.repath q).abortQueue q) (functionBegun_goes h)
  rw [functionReset_of_ready p h, tidy_of_no_cmds hqueues.quiet.cmds]
  exact hqueues.resetsPass

/-- What a function reset may change. -/
def functionResetFields : List Field :=
  completionFields ++ truncateFields ++ readAheadFields ++ groupFields ++ contextFields ++ [.bootActivation, .hostResetAfterSwitch]

theorem functionReset_changesOnly (p : Port) (s : State) : changesOnly functionResetFields s (functionReset p s) :=
  (functionReset_kept p (by decide +kernel) (Kept.refl (fieldMask functionResetFields) s)).changesOnly

theorem functionReset_samePorts (p : Port) (s : State) : samePorts s (functionReset p s) :=
  .of_changesOnly (functionReset_changesOnly p s) (by decide) (by decide)

section
variable {s : State} (p : Port)

theorem exec_funcReset_busy (hb : s.host.resetBusy = true) : exec (.funcReset p) s = .next s := by
  change execFuncReset p s = _
  rw [execFuncReset, goLive_of_fixed]
  exact if_pos hb

variable (hl : live s = true)
include hl

theorem exec_funcReset (hb : s.host.resetBusy = false) : exec (.funcReset p) s = .next (functionReset p s) := by
  change execFuncReset p s = _
  rw [execFuncReset, goLive_of_live _ hl, hb]
  rfl

theorem exec_flr : exec (.flr p) s = .next (functionReset p (portFresh p s)) :=
  goLive_of_live (fun s => functionReset p (portFresh p s)) hl

/-- The port as after an FLR with its link down (R351). -/
def linkDown (p : Port) (s : State) : State := onPort p (fun q => { q with linkUp := false, width := 0, rate := 0 }) (portFresh p s)

theorem exec_portReset {ns : Nat} (hns : 1000 ≤ ns) : exec (.portReset p ns) s = .next (functionReset p (linkDown p s)) := by
  change execPortReset p ns s = _
  have hlong : ¬ (100 < ns ∧ ns < 1000) := by omega
  rw [execPortReset, goLive_of_live _ hl, pulseTaken, decide_eq_true hns, afterPulse, if_neg hlong]
  rfl

end

theorem resetReady.onPort {s : State} (h : resetReady s) (p : Port) (f : PortState → PortState) : resetReady (onPort p f s) := by
  cases p <;> exact ⟨h.hold, h.quiet.congr rfl rfl rfl, h.resetting⟩

/-- Settles O12: each of the three is a function reset with nothing outstanding. -/
theorem functionResetEndsEveryQueue : Obligations.FunctionResetEndsEveryQueue := by
  unfold Obligations.FunctionResetEndsEveryQueue
  refine ⟨fun p s _ hb => exec_funcReset_busy p hb, fun p s hl hb hhold hc hr hv hidle => ?_⟩
  have hready : resetReady s := ⟨hhold, ⟨hc, hv, hidle⟩, hr⟩
  have hfresh : resetReady (portFresh p s) := hready.onPort p _
  refine ⟨?func, ?flr, fun ns hns => ?reset⟩
  case func =>
    have hend := functionReset_ends p hready
    obtain ⟨-, hsame⟩ := functionReset_changesOnly p s
    exact ⟨_, exec_funcReset p hl hb, hend.qps, hend.enable, hend.busy, hend.groups, hsame .hostAqSize (by decide),
      hsame .keepLoadSeq (by decide)⟩
  case flr =>
    have hend := functionReset_ends p hfresh
    have hports := functionReset_samePorts p (portFresh p s)
    have hport : portOf (portFresh p s) p = _ := portOf_onPort_same p _ s
    refine ⟨_, exec_flr p hl, hend.qps, hend.enable, (hports.msix p).trans ?_, (hports.bme p).trans ?_, (hports.linkUp p).trans ?_⟩
    · rw [hport]
    · rw [hport]
    · rw [hport]
  case reset =>
    have hend := functionReset_ends p (hfresh.onPort p fun q => { q with linkUp := false, width := 0, rate := 0 })
    have hports := functionReset_samePorts p (linkDown p s)
    have hport : portOf (linkDown p s) p = _ := portOf_onPort_same p _ (portFresh p s)
    refine ⟨_, exec_portReset p hl hns, hend.qps, hend.enable, (hports.linkUp p).trans ?_, (hports.bme p).trans ?_⟩
    · rw [hport]
    · rw [hport, portFresh, portOf_onPort_same]

/-! ## CREATE_QP (R275, R303) -/

/-- A queue whose active port is no path may go to the other port, and nothing else of it changes (R303). -/
theorem qpOf_repath {s : State} {q : Nat} {x : QueuePair} (hx : qpOf s q = some x) :
    ∃ p, qpOf (repath q s) q = some { x with active := p } := by
  simp only [repath, hx]
  split
  · exact ⟨otherPort x.active, by rw [qpOf_onQp, hx]; rfl⟩
  · exact ⟨x.active, hx⟩

theorem qpOf_repath_other {q r : Nat} (h : r ≠ q) (s : State) : qpOf (repath q s) r = qpOf s r := by
  unfold repath
  split
  · rfl
  · split
    · exact qpOf_onQp_other h s
    · rfl

/-- The queue pair joins those that exist, at the port that is a path (R275, R303). -/
def queueMade (x : QueuePair) (s : State) : State := repath x.qid (s.onHost fun h => { h with qps := h.qps ++ [x] })

section
variable {s : State} {x : QueuePair}

theorem queueMade_changesOnly (x : QueuePair) (s : State) : changesOnly [.hostQps] s (queueMade x s) := by
  refine Kept.changesOnly (repath_kept _ (by decide +kernel) (onHost_kept _ (fun h => ?_) (Kept.refl _ s)))
  exact { HostAgree.refl _ h with qps := .inl (by decide +kernel) }

theorem qpOf_queueMade (h : qpRules s x = true) : ∃ p, qpOf (queueMade x s) x.qid = some { x with active := p } := by
  have hnew : qpOf s x.qid = none := by
    simp only [qpRules, Bool.and_eq_true, Option.isNone_iff_eq_none] at h
    exact h.2
  refine qpOf_repath ?_
  change (s.host.qps ++ [x]).find? _ = _
  rw [List.find?_append, show s.host.qps.find? _ = none from hnew]
  simp

theorem qpOf_queueMade_other {r : Nat} (h : r ≠ x.qid) : qpOf (queueMade x s) r = qpOf s r :=
  (qpOf_repath_other h _).trans (qpOf_append_other h)

end

section
variable {s : State} {tag : BitVec 16} {c : Cmd}

/-- A command of queue 0 in hand is named by queue 0 and its tag. -/
theorem qid_tag_of_inHand {q op : Nat} (h : inHand s q tag.toNat op c) : c.qid = q ∧ c.tag = tag.toNat :=
  cmdOf_qid_tag (cmdOf_of_startedCmd h.2)

theorem opcode_of_inHand {q op : Nat} (h : inHand s q tag.toNat op c) : opcodeOf c.entry = op := by
  obtain ⟨-, hc⟩ := h
  unfold startedCmd at hc
  split at hc
  next d _ =>
    obtain ⟨⟨-, hop⟩, hd⟩ := Option.ite_none_right_eq_some.mp hc
    rwa [Option.some.inj hd] at hop
  next => cases hc

theorem exec_createQp (h : inHand s 0 tag.toNat opCreateQp c) : exec (.createQp tag) s = .next (createQueue c s) := by
  change execCreateQp tag s = _
  rw [execCreateQp, goLive_of_live _ h.1, adminRun_of_inHand _ h]

theorem createQueue_makes (h : qpRules s (describedQp (versionOf s 0) c.entry) = true) :
    createQueue c s = reply c.qid c.tag 0 0 (queueMade (describedQp (versionOf s 0) c.entry) s) := if_pos h

theorem createQueue_refuses (h : qpRules s (describedQp (versionOf s 0) c.entry) = false) :
    createQueue c s = reply c.qid c.tag 0x0101 0 s := if_neg (by simp [h])

/-! ## QUEUE_RESET and DELETE_QP (R293, R294) -/

theorem exec_queueReset (h : inHand s 0 tag.toNat opQueueReset c) : exec (.queueReset tag) s = .next (resetNamed 0x0210 c s) := by
  change execQueueReset tag s = _
  rw [execQueueReset, goLive_of_live _ h.1, adminRun_of_inHand _ h]

theorem exec_deleteQp (h : inHand s 0 tag.toNat opDeleteQp c) : exec (.deleteQp tag) s = .next (resetNamed 0x0213 c s) := by
  change execDeleteQp tag s = _
  rw [execDeleteQp, goLive_of_live _ h.1, adminRun_of_inHand _ h]

theorem resetNamed_refuses (st : Nat) (h : specField c.entry 48 1 = 0 ∨ qpOf s (specField c.entry 48 1) = none) :
    resetNamed st c s = reply c.qid c.tag 0x0101 0 s := by
  refine if_pos (h.imp_right fun hnone => ?_)
  rw [hnone]
  rfl

end

/-- A queue that alone is in reset and is idle ends its reset (R293, R294). -/
theorem resetsPass_of_idle {s : State} {q st : Nat} (hr : s.host.resetting = [(q, st)]) (hidle : resetIdle (sweepReset q st s) q = true)
    (hb : (endReset q st (sweepReset q st s)).host.resetBusy = false) : resetsPass s = endReset q st (sweepReset q st s) := by
  simp [resetsPass, hr, forEach, hidle, hb]

/-- The command that waits for the queue's reset completes (R293, R294). -/
theorem endWaiters_of_one {s : State} {c : Cmd} {op q : Nat} (hc : s.host.cmds = [c]) (hqid : c.qid = 0) (hop : opcodeOf c.entry = op)
    (hq : specField c.entry 48 1 = q) (hph : c.phase = .fenceWait) :
    endWaiters op q s = postComp 0 (compOf c 0 0 none) (noCmds s) := by
  have hwithout := withoutCmd_of_one hc
  rw [hqid] at hwithout
  simp only [endWaiters, hc, List.filter_cons, hqid, hop, hq, hph, beq_self_eq_true, Bool.and_self, if_true, List.filter_nil, forEach,
    List.foldl_cons, List.foldl_nil]
  exact congrArg _ hwithout

/-- The queue is in reset no more. -/
def resetOver (q st : Nat) (s : State) : State := s.onHost fun h => { h with resetting := h.resetting.filter (· != (q, st)) }

/-- The queue pair is gone (R294). -/
def queueGone (q : Nat) (s : State) : State := s.onHost fun h => { h with qps := h.qps.filter fun x => x.qid != q }

theorem endReset_reset {s : State} {q : Nat} {x : QueuePair} (hx : qpOf s q = some x) (htail : x.heldTail = none) :
    endReset q 0x0210 s = endWaiters opQueueReset q (resetOver q 0x0210 s) := by
  have hnone : (qpOf (resetOver q 0x0210 s) q).bind (·.heldTail) = none := by
    rw [show qpOf (resetOver q 0x0210 s) q = some x from hx]
    exact htail
  rw [endReset, if_pos rfl]
  split
  next t ht => cases hnone.symm.trans ht
  next => rfl

theorem endReset_delete (q : Nat) (s : State) :
    endReset q 0x0213 s = endWaiters opDeleteQp q (queueGone q (resetOver q 0x0213 s)) := rfl

/-- The command stays outstanding and waits. -/
def waits (c : Cmd) (s : State) : State := onCmd c.qid c.tag (fun k => { k with phase := .fenceWait }) s

/-- The queue that a command names is in reset, and the command waits (R293). -/
def namedInReset (st : Nat) (c : Cmd) (s : State) : State := resetBegun (specField c.entry 48 1) st (waits c s)

/-- The only command outstanding is one of queue 0, and the queue pair it names is another one and idle. -/
structure idleNamed (s : State) (c : Cmd) (x : QueuePair) : Prop where
  cmds : s.host.cmds = [c]
  qid : c.qid = 0
  named : specField c.entry 48 1 ≠ 0
  queue : qpOf s (specField c.entry 48 1) = some x
  exposed : x.exposed = []
  held : x.heldComps = []
  tail : x.heldTail = none
  vol : s.drive.vol = none
  resetting : s.host.resetting = []
  busy : s.host.resetBusy = false
  ctxs : s.cupola.ctxs = []

namespace idleNamed
variable {s : State} {c : Cmd} {x : QueuePair} (h : idleNamed s c x)
include h

theorem cmds_inReset (st : Nat) : (namedInReset st c s).host.cmds = [{ c with phase := .fenceWait }] := cmds_onCmd_of_one h.cmds _

theorem resetting_inReset (st : Nat) : (namedInReset st c s).host.resetting = [(specField c.entry 48 1, st)] := by
  change s.host.resetting ++ _ = _
  rw [h.resetting, List.nil_append]

theorem resetNamed_eq (st : Nat) (hop : opcodeOf c.entry ≠ opFence) : resetNamed st c s = resetsPass (namedInReset st c s) := by
  have hgood : ¬ (specField c.entry 48 1 = 0 ∨ (qpOf s (specField c.entry 48 1)).isNone) := by simp [h.named, h.queue]
  have hnone : (waits c s).host.cmds.filter (fun d => d.qid == specField c.entry 48 1) = [] := by
    rw [waits, cmds_onCmd_of_one h.cmds]
    simp [h.qid, h.named.symm]
  have hclosed : closeQueueHandles (specField c.entry 48 1) (namedInReset st c s) = namedInReset st c s := by
    have hctxs : (namedInReset st c s).cupola.ctxs = [] := h.ctxs
    simp [closeQueueHandles, hctxs, forEach]
  calc resetNamed st c s
    _ = abortQueue (specField c.entry 48 1) st (waits c s) := if_neg hgood
    _ = settle (closeQueueHandles (specField c.entry 48 1) (namedInReset st c s)) :=
      abortQueue_of_no_cmds (s := waits c s) st h.vol hnone
    _ = resetsPass (namedInReset st c s) := by rw [hclosed, settle_of_waiter (h.cmds_inReset st) rfl hop]

/-- The sweep leaves the queue idle. -/
theorem resetIdle_swept (st : Nat) :
    resetIdle (sweepReset (specField c.entry 48 1) st (namedInReset st c s)) (specField c.entry 48 1) = true := by
  obtain ⟨-, hsame⟩ := (sweepReset_kept (specField c.entry 48 1) st (by decide +kernel)
    (Kept.refl (fieldMask [.lanternKeptOutcomes, .hostQps]) (namedInReset st c s))).changesOnly
  have hcmds := (hsame .hostCmds (by decide)).trans (h.cmds_inReset st)
  have hqueue : ∃ y, qpOf (sweepReset (specField c.entry 48 1) st (namedInReset st c s)) (specField c.entry 48 1) = some y ∧
      y.exposed = [] ∧ y.heldComps = [] := by
    have hx : qpOf (namedInReset st c s) (specField c.entry 48 1) = some x := h.queue
    simp only [sweepReset, hx]
    split
    · exact ⟨x, hx, h.exposed, h.held⟩
    · split
      · exact ⟨_, (qpOf_onQp _).trans (congrArg _ hx), rfl, rfl⟩
      · exact ⟨_, (qpOf_onQp _).trans (congrArg _ hx), rfl, rfl⟩
  obtain ⟨y, hy, hexp, hheld⟩ := hqueue
  have hother : ¬ 0 = specField c.entry 48 1 := h.named.symm
  simp [resetIdle, hy, hexp, hheld, hcmds, h.qid, hother]

/-- An idle queue is reset at once, and its command completes (R293). -/
theorem queueReset_eq (hop : opcodeOf c.entry = opQueueReset) :
    resetNamed 0x0210 c s =
      postComp 0 (compOf c 0 0 none) (noCmds (resetOver (specField c.entry 48 1) 0x0210 (namedInReset 0x0210 c s))) := by
  have hx : qpOf (namedInReset 0x0210 c s) (specField c.entry 48 1) = some x := h.queue
  have hswept : sweepReset (specField c.entry 48 1) 0x0210 (namedInReset 0x0210 c s) = namedInReset 0x0210 c s := by
    simp [sweepReset, hx]
  have hend : endReset (specField c.entry 48 1) 0x0210 (namedInReset 0x0210 c s) =
      postComp 0 (compOf c 0 0 none) (noCmds (resetOver (specField c.entry 48 1) 0x0210 (namedInReset 0x0210 c s))) :=
    (endReset_reset hx h.tail).trans
      (endWaiters_of_one (c := { c with phase := .fenceWait }) (h.cmds_inReset 0x0210) h.qid hop rfl rfl)
  rw [h.resetNamed_eq 0x0210 (by rw [hop]; decide), resetsPass_of_idle (h.resetting_inReset 0x0210) (h.resetIdle_swept 0x0210), hswept, hend]
  rw [hswept, hend]
  exact ((postComp_changesOnly ..).2 .hostResetBusy (by decide)).trans h.busy

/-- An idle queue is deleted at once, and its command completes (R294). -/
theorem deleteQp_eq (hop : opcodeOf c.entry = opDeleteQp) : ∃ t, changesOnly [.lanternKeptOutcomes, .hostQps] (namedInReset 0x0213 c s) t ∧
    resetNamed 0x0213 c s =
      postComp 0 (compOf c 0 0 none) (noCmds (queueGone (specField c.entry 48 1) (resetOver (specField c.entry 48 1) 0x0213 t))) := by
  have hswept := (sweepReset_kept (specField c.entry 48 1) 0x0213 (by decide +kernel)
    (Kept.refl (fieldMask [.lanternKeptOutcomes, .hostQps]) (namedInReset 0x0213 c s))).changesOnly
  have hidle := h.resetIdle_swept 0x0213
  refine ⟨_, hswept, ?_⟩
  obtain ⟨-, hsame⟩ := hswept
  have hcmds := (hsame .hostCmds (by decide)).trans (h.cmds_inReset 0x0213)
  have hbusy := (hsame .hostResetBusy (by decide)).trans h.busy
  have hend := endWaiters_of_one (s := queueGone (specField c.entry 48 1) (resetOver (specField c.entry 48 1) 0x0213
    (sweepReset (specField c.entry 48 1) 0x0213 (namedInReset 0x0213 c s)))) hcmds h.qid hop rfl rfl
  rw [h.resetNamed_eq 0x0213 (by rw [hop]; decide), resetsPass_of_idle (h.resetting_inReset 0x0213) hidle, endReset_delete]
  · exact hend
  · rw [endReset_delete, hend]
    exact ((postComp_changesOnly ..).2 .hostResetBusy (by decide)).trans hbusy

end idleNamed

/-- Settles O20: a pair is made or refused by the rules of Table 11-2, and an idle one is reset or deleted at once. -/
theorem queuePairsAreMadeAndEnded : Obligations.QueuePairsAreMadeAndEnded := by
  unfold Obligations.QueuePairsAreMadeAndEnded
  refine ⟨fun s tag c h => ⟨fun hrules => ?makes, fun hrules => ?refuses⟩, fun s tag c => ⟨fun h hnone => ?reset0, fun h hnone => ?delete0⟩,
    fun s tag c x hc hq hx hexp hheld htail hv hr hb hctxs => ⟨fun h => ?reset, fun h => ?delete⟩⟩
  case makes =>
    obtain ⟨hqid, htag⟩ := qid_tag_of_inHand h
    obtain ⟨p, hp⟩ := qpOf_queueMade hrules
    refine ⟨_, _, ?_, queueMade_changesOnly _ s, hp, rfl, rfl, rfl, rfl, rfl, rfl, rfl, rfl, fun q => qpOf_queueMade_other⟩
    rw [answers, exec_createQp h, createQueue_makes hrules, hqid, htag]
  case refuses =>
    obtain ⟨hqid, htag⟩ := qid_tag_of_inHand h
    rw [answers, exec_createQp h, createQueue_refuses hrules, hqid, htag]
  case reset0 =>
    obtain ⟨hqid, htag⟩ := qid_tag_of_inHand h
    rw [answers, exec_queueReset h, resetNamed_refuses _ hnone, hqid, htag]
  case delete0 =>
    obtain ⟨hqid, htag⟩ := qid_tag_of_inHand h
    rw [answers, exec_deleteQp h, resetNamed_refuses _ hnone, hqid, htag]
  case reset =>
    have hidle : idleNamed s c x := ⟨hc, (qid_tag_of_inHand h).1, hq, hx, hexp, hheld, htail, hv, hr, hb, hctxs⟩
    obtain ⟨-, hsame⟩ := postComp_changesOnly 0 (compOf c 0 0 none)
      (noCmds (resetOver (specField c.entry 48 1) 0x0210 (namedInReset 0x0210 c s)))
    refine ⟨_, (exec_queueReset h).trans (congrArg _ (hidle.queueReset_eq (opcode_of_inHand h))), hsame .hostCmds (by decide),
      (qpOf_postComp_other hq ..).trans hx, (hsame .hostResetting (by decide)).trans ?_⟩
    change (namedInReset 0x0210 c s).host.resetting.filter _ = []
    simp [hidle.resetting_inReset]
  case delete =>
    have hidle : idleNamed s c x := ⟨hc, (qid_tag_of_inHand h).1, hq, hx, hexp, hheld, htail, hv, hr, hb, hctxs⟩
    obtain ⟨t, hswept, heq⟩ := hidle.deleteQp_eq (opcode_of_inHand h)
    obtain ⟨-, hsame⟩ := postComp_changesOnly 0 (compOf c 0 0 none)
      (noCmds (queueGone (specField c.entry 48 1) (resetOver (specField c.entry 48 1) 0x0213 t)))
    refine ⟨_, (exec_deleteQp h).trans (congrArg _ heq), hsame .hostCmds (by decide),
      (qpOf_postComp_other hq ..).trans ?_, (hsame .hostResetting (by decide)).trans ?_⟩
    · exact List.find?_eq_none.mpr fun y hy => by simpa using (List.mem_filter.mp hy).2
    · change t.host.resetting.filter _ = []
      simp [(hswept.2 .hostResetting (by decide)).trans (hidle.resetting_inReset 0x0213)]

end Sys2Proof.Machine
end

section
/-! PROOF. The life of the two ports: a loss, a return, D3hot and D0 (R302, R303, R305, R308). -/

namespace Sys2Proof.Machine

/-! ## The record of a loss (R305, R381) -/

@[simp] theorem pinPut_rseq (limit : Nat) (r : LanRec) (l : Lantern) : (pinPut limit r l).rseq = l.rseq := by
  unfold pinPut
  dsimp only
  split <;> rfl

theorem lanPut_rseq (r : LanRec) (b : Bool) (l : Lantern) : (lanPut r b l).rseq = (l.rseq + 1) % 2 ^ 32 := by
  unfold lanPut
  dsimp only
  split
  · exact pinPut_rseq ..
  · split
    · exact pinPut_rseq ..
    · rfl

theorem lanEvent_rseq (code cls : Nat) (data : Bytes) (s : State) : (lanEvent code cls data s).lantern.rseq = s.lantern.rseq :=
  (lanEvent_kept code cls data rfl (Kept.refl (allBut .lanternRseq) s)).same .lanternRseq rfl

theorem lanFire_rseq (code : Nat) (s : State) : (lanFire code s).lantern.rseq = (s.lantern.rseq + 1) % 2 ^ 32 := by
  unfold lanFire
  dsimp only
  rw [raise_lantern, lanEvent_rseq]
  exact lanPut_rseq ..

/-- A record takes the next number, and record 0x0091 behind it one more (R381, R384). -/
theorem lanWrite_rseq_ne (code cls sup : Nat) (data : Bytes) (s : State) : (lanWrite code cls sup data s).lantern.rseq ≠ s.lantern.rseq := by
  unfold lanWrite
  lift_lets
  intro hit post s1 s2
  have hput : s2.lantern.rseq = (s.lantern.rseq + 1) % 2 ^ 32 := (lanEvent_rseq code cls data s1).trans (lanPut_rseq ..)
  split
  · rw [lanFire_rseq, hput]
    omega
  · rw [hput]
    omega

theorem lantern_rseq_ne {code : Nat} (h : 2 ≤ lanClass code) (data : Bytes) (s : State) :
    (lantern code data s).lantern.rseq ≠ s.lantern.rseq := by
  rw [show lantern code data s = lanWrite code (lanClass code) 0 data s from if_pos h]
  exact lanWrite_rseq_ne code _ 0 data s

/-- With no queue pair the loss of a port is its record and its request alone (R303, R305). -/
theorem declareLost_of_no_qps {s : State} (p : Port) (h : s.host.qps = []) :
    declareLost p s = tidy (raise (98 + portNo p) (lantern 0x0050 [BitVec.ofNat 8 (portNo p)] s)) := by
  simp [declareLost, h, forEach]

theorem declareLost_rseq_ne {s : State} (p : Port) (h : s.host.qps = []) : (declareLost p s).lantern.rseq ≠ s.lantern.rseq := by
  have htidy := fun t => (tidy_kept rfl (Kept.refl (allBut .lanternRseq) t)).same .lanternRseq rfl
  rw [declareLost_of_no_qps p h, show (tidy _).lantern.rseq = _ from htidy _, raise_lantern]
  exact lantern_rseq_ne (by decide) _ s

/-! ## What moves the queues leaves the ports alone -/

/-- What a port's loss or return does to queues, commands and records. -/
def portFields : List Field :=
  recordFields ++ completionFields ++ contextFields ++ [.hostCntFailover, .hostCntRepost, .keepSlots]

section
variable (p : Port) (s : State)

theorem declareLost_samePorts : samePorts s (declareLost p s) :=
  .of_changesOnly (declareLost_kept p (by decide +kernel) (Kept.refl (fieldMask portFields) s)).changesOnly (by decide) (by decide)

theorem regainPort_samePorts : samePorts s (regainPort p s) :=
  .of_changesOnly (regainPort_kept p (by decide +kernel) (Kept.refl (fieldMask portFields) s)).changesOnly (by decide) (by decide)

theorem moveQueues_samePorts : samePorts s (moveQueues p s) :=
  .of_changesOnly (moveQueues_kept p (by decide +kernel) (Kept.refl (fieldMask portFields) s)).changesOnly (by decide) (by decide)

theorem returnD0_samePorts : samePorts s (returnD0 p s) :=
  .of_changesOnly (returnD0_kept p (by decide +kernel) (Kept.refl (fieldMask portFields) s)).changesOnly (by decide) (by decide)

theorem failOvers_samePorts (qs : List Nat) : samePorts s (forEach qs failOver s) :=
  .of_changesOnly (forEach_kept qs failOver (fun q _ ht => failOver_kept q (by decide +kernel) ht)
    (Kept.refl (fieldMask portFields) s)).changesOnly (by decide) (by decide)

end

/-! ## The commands (R302, R303, Table 11-1) -/

/-- The port with its link down (R303). -/
def portDown (p : Port) (s : State) : State := onPort p (fun q => { q with linkUp := false, width := 0, rate := 0 }) s

/-- The port up at the rate and width that its link has trained to (R303, Table 11-1). -/
def portRegained (p : Port) (l : PcieLink) (s : State) : State := onPort p (fun q => portUp p { q with trains := l }) s

/-- The port's function in D0 with Bus Master Enable set (R302). -/
def portInD0 (p : Port) (s : State) : State := onPort p (fun q => { q with d0 := true, bme := true }) s

section
variable {p : Port} {s : State} (hl : live s = true)
include hl

theorem exec_portLoss (hup : (portOf s p).linkUp = true) : exec (.portLoss p) s = .next (declareLost p (portDown p s)) := by
  change execPortLoss p s = _
  rw [execPortLoss, goLive_of_live _ hl, if_pos hup]
  rfl

theorem exec_pathRestored {l : PcieLink} (hpath : isPath s p = false) (hout : outOf s .hostPort (portNo p) = false) :
    exec (.pathRestored ⟨p, l⟩) s = .next (regainPort p (portRegained p l s)) := by
  change execPathRestored ⟨p, l⟩ s = _
  rw [execPathRestored, goLive_of_live _ hl, hpath, hout]
  rfl

theorem exec_functionD3hot : exec (.functionD3hot p false) s = .next (moveQueues p (onPort p (fun q => { q with d0 := false }) s)) := by
  change execFunctionD3hot p false s = _
  rw [execFunctionD3hot, goLive_of_live _ hl]
  rfl

/-- A cleared Bus Master Enable is a loss where the port was a path (R303). -/
theorem exec_bmeCleared : ∃ t, exec (.functionD3hot p true) s = .next t ∧ samePorts (onPort p (fun q => { q with bme := false }) s) t := by
  change ∃ t, execFunctionD3hot p true s = .next t ∧ _
  rw [execFunctionD3hot, goLive_of_live _ hl, if_pos rfl]
  refine ⟨_, rfl, ?_⟩
  dsimp only
  split
  · exact declareLost_samePorts p _
  · exact .of_host rfl

theorem exec_functionD0Return : ∃ t, exec (.functionD0Return p) s = .next t ∧ samePorts (portInD0 p s) t := by
  change ∃ t, execFunctionD0Return p s = .next t ∧ _
  rw [execFunctionD0Return, goLive_of_live _ hl]
  exact ⟨_, rfl, (failOvers_samePorts _ _).trans (returnD0_samePorts p _)⟩

end

/-- Settles O17: each event sets its port, and what follows moves queues and commands only. -/
theorem portEventsMoveTheirPort : Obligations.PortEventsMoveTheirPort := by
  unfold Obligations.PortEventsMoveTheirPort
  refine ⟨fun p s hl hup hq => ?loss, fun p l s hl hpath hout _ _ => ?regained, fun p s hl _ _ => ⟨?d3hot, ?bme, ?d0⟩⟩
  case loss =>
    have hports := declareLost_samePorts p (portDown p s)
    have hport : portOf (portDown p s) p = _ := portOf_onPort_same p _ s
    have hother : portOf (portDown p s) (otherPort p) = _ := portOf_onPort_other p _ s
    have hrseq := declareLost_rseq_ne (s := portDown p s) p ((onPort_qps p _ s).trans hq)
    refine ⟨_, exec_portLoss hl hup, (hports.linkUp p).trans ?_, (hports.width p).trans ?_, (hports.linkUp _).trans ?_, ?_⟩
    · rw [hport]
    · rw [hport]
    · rw [hother]
    · cases p <;> exact hrseq.symm
  case regained =>
    have hports := regainPort_samePorts p (portRegained p l s)
    have hport : portOf (portRegained p l s) p = _ := portOf_onPort_same p _ s
    refine ⟨_, exec_pathRestored hl hpath hout, (hports.isPath p).trans ?_, (hports.width p).trans ?_, (hports.rate p).trans ?_⟩
    · rw [isPath, hport]
      rfl
    · rw [hport, portUp]
    · rw [hport, portUp]
  case d3hot =>
    have hports := moveQueues_samePorts p (onPort p (fun q => { q with d0 := false }) s)
    refine ⟨_, exec_functionD3hot hl, (hports.d0 p).trans ?_, (hports.linkUp p).trans ?_⟩
    · rw [portOf_onPort_same]
    · rw [portOf_onPort_same]
  case bme =>
    obtain ⟨t, hexec, hports⟩ := exec_bmeCleared (p := p) hl
    refine ⟨t, hexec, (hports.bme p).trans ?_, (hports.d0 p).trans ?_⟩
    · rw [portOf_onPort_same]
    · rw [portOf_onPort_same]
  case d0 =>
    obtain ⟨t, hexec, hports⟩ := exec_functionD0Return (p := p) hl
    refine ⟨t, hexec, (hports.d0 p).trans ?_, (hports.bme p).trans ?_⟩
    · rw [portInD0, portOf_onPort_same]
    · rw [portInD0, portOf_onPort_same]

end Sys2Proof.Machine
end

section
/-! PROOF. The power states: POWER_STATE, the commit of PS4, the way back to PS0, and the gating of an idle domain (R298, R300, R394, R395,
R397, R399). -/

namespace Sys2Proof.Machine

/-! ## POWER_STATE (R298, R300) -/

/-- POWER_STATE has completed, behind the interrupts that were held (R300). -/
def powerReplied (c : Cmd) (s : State) : State := reply c.qid c.tag 0 0 (flushGroups s)

theorem powerReplied_changesOnly (c : Cmd) (s : State) : changesOnly completionFields s (powerReplied c s) :=
  (reply_kept _ _ _ _ (by decide +kernel)
    (flushGroups_kept (by decide +kernel) (Kept.refl (fieldMask completionFields) s))).changesOnly

/-- PS4 is due 10 ms from now (R399). -/
def ps4Ordered (s : State) : State := s.onPower fun p => { p with entering := true, ps4Due := some (p.time + 10 * msTicks) }

theorem ps4Ordered_power (s : State) : (ps4Ordered s).power.pstate = s.power.pstate ∧ (ps4Ordered s).power.entering = true ∧
    (ps4Ordered s).power.ps4Due = some (s.power.time + 1000000) := ⟨rfl, rfl, rfl⟩

section
variable {s : State} {c : Cmd}

theorem exec_powerState {tag : BitVec 16} (h : inHand s 0 tag.toNat opPowerState c) : exec (.powerState tag) s = .next (changePower c s) := by
  change execPowerState tag s = _
  rw [execPowerState, goLive_of_live _ h.1, adminRun_of_inHand _ h]

theorem changePower_refused {r : Nat} (h : powerRefusal s (specField c.entry 48 1) = some r) :
    changePower c s = reply c.qid c.tag 0x0220 r (flushGroups s) := by
  simp only [changePower, h]
  rfl

theorem changePower_ps0 (h : specField c.entry 48 1 = 0) : changePower c s = powerReplied c s := by
  simp [changePower, h, powerRefusal, targetState, powerReplied, adminDone]

variable (hv : s.drive.vol = none)
include hv

theorem changePower_ps2 (h : specField c.entry 48 1 = 2) : changePower c s = enterPs 2 (powerReplied c s) := by
  simp [changePower, h, powerRefusal, hv, targetState, powerReplied, adminDone]

variable (hw : s.wr.sets = []) (haon : outCount s .aon = 0)
include hw haon

theorem changePower_ps3 (h : specField c.entry 48 1 = 3) : changePower c s = enterPs 3 (powerReplied c s) := by
  simp [changePower, h, powerRefusal, hv, hw, haon, targetState, powerReplied, adminDone]

theorem changePower_ps4 (h : specField c.entry 48 1 = 4) : changePower c s = ps4Ordered (powerReplied c s) := by
  simp [changePower, h, powerRefusal, hv, hw, haon, targetState, powerReplied, adminDone, ps4Ordered]

end

theorem groupsOff_down (s : State) (g : Fin 8) : (groupsOff s).hlk.groups[g].state = .down := by
  simp [groupsOff]

theorem RdAgree.eq_of_outside {m : Nat} {a b : ReadPath} (h : RdAgree m a b) (hm : (m >>> 256) % 2 ^ 19 = 0) : b = a := by
  have hclear : ∀ i, 256 ≤ i → i < 275 → m.testBit i = false := fun i hlo hhi => testBit_of_clear hm hlo hhi
  cases h
  cases a
  cases b
  simp_all

theorem powerReplied_rd (c : Cmd) (s : State) : (powerReplied c s).rd = s.rd :=
  (reply_kept _ _ _ _ (by decide +kernel)
    (flushGroups_kept (by decide +kernel) (Kept.refl (fieldMask completionFields) s))).rd.eq_of_outside (by decide +kernel)

/-- A state entered powers its domains, save those off for a fault. -/
theorem powerState_domOn_of_replied (ps : Fin 5) (c : Cmd) (s : State) :
    (powerState ps (powerReplied c s)).power.domOn = stateDomains ps &&& ~~~s.power.domFault := by
  obtain ⟨-, hsame⟩ := powerReplied_changesOnly c s
  have hfault : (powerReplied c s).power.domFault = s.power.domFault := hsame .powerDomFault (by decide)
  change stateDomains ps &&& ~~~(powerReplied c s).power.domFault = _
  rw [hfault]

/-- PS2 keeps what the read path holds. -/
theorem enterPs_two_rd (s : State) : (enterPs 2 s).rd = s.rd := rfl

/-! ## The rails (R399) -/

theorem out_forEach_rail (b : Bool) (l : List Nat) (s : State) :
    (forEach l (rail b) s).out = s.out ++ l.map fun i => .pmbus (0x40 + i) b := by
  unfold forEach
  induction l generalizing s with
  | nil => exact (List.append_nil _).symm
  | cons i l ih => rw [List.foldl_cons, ih]; simp [rail, emit]

/-- Every rail that is told has the level it is told. -/
theorem getLsbD_forEach_rail (b : Bool) {j : Nat} (hj : j < 7) (l : List Nat) (s : State) :
    (forEach l (rail b) s).power.rails.getLsbD j = if j ∈ l then b else s.power.rails.getLsbD j := by
  unfold forEach
  induction l generalizing s with
  | nil => rfl
  | cons i l ih =>
    have hrail : (rail b i s).power.rails.getLsbD j = if i = j then b else s.power.rails.getLsbD j := by
      change (setBit s.power.rails i b).getLsbD j = _
      rw [getLsbD_setBit]
      simp only [hj, true_and]
    rw [List.foldl_cons, ih, hrail]
    by_cases hmem : j ∈ l
    · simp [hmem]
    · by_cases hij : i = j
      · simp [hij]
      · simp [hmem, hij, Ne.symm hij]

/-- Of the rails told to go off those go off whose converter acknowledges. -/
theorem getLsbD_forEach_railOff (acks : BitVec 7) (j : Nat) (l : List Nat) (s : State) :
    (forEach l (railOff acks) s).power.rails.getLsbD j = (s.power.rails.getLsbD j && !(decide (j ∈ l) && acks.getLsbD j)) := by
  unfold forEach
  induction l generalizing s with
  | nil => simp
  | cons i l ih =>
    have hrail : (railOff acks i s).power.rails.getLsbD j = (s.power.rails.getLsbD j && !(decide (j = i) && acks.getLsbD j)) := by
      unfold railOff
      split
      next hack =>
        change (setBit s.power.rails i false).getLsbD j = _
        by_cases hij : j = i
        · simp [hij, hack, getLsbD_setBit_false_self]
        · simp [getLsbD_setBit, hij, Ne.symm hij]
      next hack =>
        change s.power.rails.getLsbD j = _
        by_cases hij : j = i
        · simp [hij, hack]
        · simp [hij]
    rw [List.foldl_cons, ih, hrail]
    by_cases hij : j = i
    · cases s.power.rails.getLsbD j <;> cases acks.getLsbD j <;> simp [hij]
    · simp [hij]

/-- Telling the rails to go off changes nothing but the rails. -/
theorem forEach_railOff_rest (acks : BitVec 7) (l : List Nat) (s : State) :
    (forEach l (railOff acks) s).boot = s.boot ∧ (forEach l (railOff acks) s).keep = s.keep ∧ (forEach l (railOff acks) s).wr = s.wr ∧
      { (forEach l (railOff acks) s).power with rails := 0 } = { s.power with rails := 0 } := by
  refine forEach_preserves (P := fun t => t.boot = s.boot ∧ t.keep = s.keep ∧ t.wr = s.wr ∧
    { t.power with rails := 0 } = { s.power with rails := 0 }) l (fun i t ht => ?_) ⟨rfl, rfl, rfl, rfl⟩
  unfold railOff
  split
  · exact ht
  · exact ht

/-! ## PS4_COMMIT (R399) -/

theorem stopTokens_changesOnly (s : State) : changesOnly inhibitFields s (stopTokens s) :=
  (stopTokens_kept (by decide +kernel) (Kept.refl (fieldMask inhibitFields) s)).changesOnly

/-- The part in PS4 before its rails go off (R399). -/
def ps4Entered (s : State) : State :=
  { afterPartReset (stopTokens s) with
    boot := { (afterPartReset (stopTokens s)).boot with bootCount := s.boot.bootCount, fromPs4 := true },
    pins := { (afterPartReset (stopTokens s)).pins with alarmAsserted := s.pins.alarmAsserted },
    power := { (afterPartReset (stopTokens s)).power with pstate := 4 } }

theorem enterPs4_eq (acks : BitVec 7) (s : State) : enterPs4 acks s = forEach railsOff (railOff acks) (ps4Entered s) := rfl

theorem ofNat_aon : BitVec.ofNat 111 (2 ^ 110) = domMask 110 1 := by decide +kernel

/-- PS4 keeps AON, the rails whose converter does not acknowledge, and of the Keep its load sequence (R399). -/
theorem enterPs4_effects (acks : BitVec 7) (s : State) :
    (enterPs4 acks s).power.pstate = 4 ∧
      (∀ i : Fin 7, (enterPs4 acks s).power.rails.getLsbD i.val = (s.power.rails.getLsbD i.val && !acks.getLsbD i.val)) ∧
      (enterPs4 acks s).power.domOn = domMask 110 1 ∧ (enterPs4 acks s).power.time = s.power.time ∧ (enterPs4 acks s).boot.phase = .held ∧
      (enterPs4 acks s).boot.bootCount = s.boot.bootCount ∧ (enterPs4 acks s).boot.fromPs4 = true ∧
      (enterPs4 acks s).keep = { ({} : Keep) with loadSeq := s.keep.loadSeq } ∧ (enterPs4 acks s).wr = {} := by
  obtain ⟨-, hsame⟩ := stopTokens_changesOnly s
  obtain ⟨hboot, hkeep, hwr, hpower⟩ := forEach_railOff_rest acks railsOff (ps4Entered s)
  have hpstate := congrArg Power.pstate hpower
  have hdom := congrArg Power.domOn hpower
  have htime := congrArg Power.time hpower
  rw [enterPs4_eq, hboot, hkeep, hwr]
  refine ⟨hpstate, fun i => ?rails, hdom.trans ofNat_aon, htime.trans (hsame .powerTime (by decide)), rfl, rfl, rfl, ?keep, rfl⟩
  case rails =>
    have hmem : ∀ i : Fin 7, i.val ∈ railsOff := by decide
    have hrails : (ps4Entered s).power.rails = s.power.rails := hsame .powerRails (by decide)
    rw [getLsbD_forEach_railOff, hrails, decide_eq_true (hmem i), Bool.true_and]
  case keep =>
    have hseq : (stopTokens s).keep.loadSeq = s.keep.loadSeq := hsame .keepLoadSeq (by decide)
    exact congrArg (fun n => { ({} : Keep) with loadSeq := n }) hseq

theorem exec_ps4Commit {s : State} {a : Nat} (hl : live s = true) (ha : s.power.ps4Due = some a) :
    exec .ps4Commit s = .next (enterPs4 (Config.pmbusAcks s.fresh) (advanceTo a (draw s))) := by
  change execPs4Commit s = _
  rw [execPs4Commit, goLive_of_live _ hl, ha]

theorem exec_ps4Commit_idle {s : State} (ha : s.power.ps4Due = none) : exec .ps4Commit s = .next s := by
  change execPs4Commit s = _
  rw [execPs4Commit, goLive_of_fixed]
  rw [ha]

/-! ## POWER_STATE_EXIT (R397, R399) -/

/-- The rails are on again, and AON alone is powered (R399). -/
def ps4Left (s : State) : State := (forEach railsOn (rail true) s).onPower fun p => { p with pstate := 0, domOn := domMask 110 1 }

theorem ps4Left_rails (s : State) : (ps4Left s).power.rails = 0x7F := by
  refine BitVec.eq_of_getLsbD_eq fun j hj => ?_
  have hmem : j ∈ railsOn := by
    simp only [railsOn, List.mem_cons, List.not_mem_nil, or_false]
    omega
  refine (getLsbD_forEach_rail true hj railsOn s).trans ?_
  rw [if_pos hmem]
  have hall : ∀ i : Fin 7, (0x7F : BitVec 7).getLsbD i.val = true := by decide
  exact (hall ⟨j, hj⟩).symm

theorem ps4Left_changesOnly (s : State) : changesOnly [.powerPstate, .powerRails, .powerDomOn, .out] s (ps4Left s) := by
  refine Kept.changesOnly (onPower_kept _ (fun p => ?_)
    (forEach_kept railsOn (rail true) (fun i _ ht => rail_kept true i (by decide +kernel) ht) (Kept.refl _ s)))
  exact { PowerAgree.refl _ p with pstate := .inl (by decide +kernel), domOn := .inl (by decide +kernel) }

theorem powerState_changesOnly (ps : Fin 5) (s : State) :
    changesOnly [.powerPstate, .powerDomOn, .powerEntering] s (powerState ps s) :=
  (powerState_kept ps (by decide +kernel) (Kept.refl (fieldMask [.powerPstate, .powerDomOn, .powerEntering]) s)).changesOnly

theorem wakes_ps0 {s : State} (h : s.power.pstate = 0) (c : WakeCause) : wakes s c = false := by
  unfold wakes
  rw [h]
  cases c <;> rfl

theorem wakes_latch7 (s : State) : wakes s (.latch 7) = false := by
  have hnever : latchWakes s 7 = false := by simp [latchWakes]
  unfold wakes
  generalize s.power.pstate = ps
  fin_cases ps
  · rfl
  · exact hnever
  · exact hnever
  · exact hnever
  · exact hnever

theorem wakes_latch1 {s : State} (h : s.power.pstate = 4) (hset : s.blf.latched.getLsbD 1 = true) : wakes s (.latch 1) = true := by
  have hwakes : latchWakes s 1 = true := by simp [latchWakes, hset]
  unfold wakes
  rw [h]
  exact hwakes

section
variable {s : State} {c : WakeCause}

theorem exec_powerStateExit_asleep (h : wakes s c = false) : exec (.powerStateExit c) s = .next s := by
  change execPowerStateExit c s = _
  simp [execPowerStateExit, go, h]

theorem exec_powerStateExit (h : wakes s c = true) : exec (.powerStateExit c) s = .next (leaveState s) := by
  change execPowerStateExit c s = _
  simp [execPowerStateExit, go, h]

theorem leaveState_ps4 (h : s.power.pstate = 4) : leaveState s = ps4Left s := if_pos h

theorem leaveState_of_wakes (hw : wakes s c = true) (h : s.power.pstate ≠ 4) : leaveState s = powerState 0 s := by
  have h0 : s.power.pstate ≠ 0 := fun h0 => by simp [wakes_ps0 h0 c] at hw
  rw [leaveState, if_neg h, leavePs]
  split
  next h' => exact absurd h' h0
  next h' => exact absurd h' h
  next => rfl

end

/-! ## DOMAIN_IDLE_GATE (R395) -/

/-- The domain is off (R395). -/
def domainOff (d : Nat) (s : State) : State := s.onPower fun p => { p with domOn := setBit p.domOn d false }

theorem domainOff_changesOnly (d : Nat) (s : State) : changesOnly [.powerDomOn] s (domainOff d s) := by
  refine Kept.changesOnly (onPower_kept _ (fun p => ?_) (Kept.refl _ s))
  exact { PowerAgree.refl _ p with domOn := .inl (by decide +kernel) }

theorem exec_domainIdleGate {s : State} {d : Fin 111} (hl : live s = true) (hg : gated s.power.pstate d.val = true)
    (hi : domainIdle s d.val = true) : exec (.domainIdleGate d) s = .next (domainOff d.val s) := by
  change execDomainIdleGate d s = _
  rw [execDomainIdleGate, goLive_of_live _ hl, hg, hi]
  rfl

theorem exec_domainIdleGate_stays {s : State} {d : Fin 111} (h : gated s.power.pstate d.val = false ∨ domainIdle s d.val = false) :
    exec (.domainIdleGate d) s = .next s := by
  change execDomainIdleGate d s = _
  rw [execDomainIdleGate, goLive_of_fixed]
  exact if_neg (by rcases h with h | h <;> simp [h])

/-! ## The obligation -/

/-- Settles O31: POWER_STATE by its target, the commit of PS4, the ways back, and the gating of a domain. -/
theorem powerStatesSwitchTheirDomains : Obligations.PowerStatesSwitchTheirDomains := by
  unfold Obligations.PowerStatesSwitchTheirDomains
  refine ⟨fun s tag c h => ⟨?ps0, ?refused, ?ps2, ?ps3, ?ps4⟩, fun s a hl ha => ?commit, fun s => exec_ps4Commit_idle,
    fun c s hw => ⟨fun h => ?exit4, fun h => ?exit⟩, fun c s => exec_powerStateExit_asleep,
    fun s => ⟨wakes_latch7 s, fun h c => wakes_ps0 h c, wakes_latch1⟩, fun d s hl hg hi => ?gate, fun d s => exec_domainIdleGate_stays⟩
  case ps0 =>
    intro h0
    obtain ⟨hqid, htag⟩ := qid_tag_of_inHand h
    rw [answers, exec_powerState h, changePower_ps0 h0, powerReplied, hqid, htag]
  case refused =>
    intro r hr
    obtain ⟨hqid, htag⟩ := qid_tag_of_inHand h
    rw [answers, exec_powerState h, changePower_refused hr, hqid, htag]
  case ps2 =>
    intro h2 hv
    exact ⟨_, (exec_powerState h).trans (congrArg _ (changePower_ps2 hv h2)), rfl, powerState_domOn_of_replied 2 c s,
      groupsOff_down _, (enterPs_two_rd _).trans (powerReplied_rd c s)⟩
  case ps3 =>
    intro h3 hv hw haon
    exact ⟨_, (exec_powerState h).trans (congrArg _ (changePower_ps3 hv hw haon h3)), rfl, powerState_domOn_of_replied 3 c s, rfl, rfl⟩
  case ps4 =>
    intro h4 hv hw haon
    obtain ⟨-, hsame⟩ := powerReplied_changesOnly c s
    have htime : (powerReplied c s).power.time = s.power.time := hsame .powerTime (by decide)
    have hpstate : (powerReplied c s).power.pstate = s.power.pstate := hsame .powerPstate (by decide)
    obtain ⟨hstays, hentering, hdue⟩ := ps4Ordered_power (powerReplied c s)
    exact ⟨_, (exec_powerState h).trans (congrArg _ (changePower_ps4 hv hw haon h4)), hstays.trans hpstate, hentering,
      hdue.trans (by rw [htime])⟩
  case commit =>
    refine ⟨_, exec_ps4Commit hl ha, ?_⟩
    exact enterPs4_effects _ _
  case exit4 =>
    exact ⟨_, (exec_powerStateExit hw).trans (congrArg _ (leaveState_ps4 h)), rfl, ps4Left_rails s, rfl,
      out_forEach_rail true railsOn s, ps4Left_changesOnly s⟩
  case exit =>
    refine ⟨_, (exec_powerStateExit hw).trans (congrArg _ (leaveState_of_wakes hw h)), rfl, ?_, powerState_changesOnly 0 s⟩
    exact BitVec.allOnes_and
  case gate =>
    refine ⟨_, exec_domainIdleGate hl hg hi, getLsbD_setBit_false_self _ _, fun j hj => ?_, domainOff_changesOnly d.val s⟩
    exact (getLsbD_setBit ..).trans (if_neg fun hand => hj hand.2.symm)

end Sys2Proof.Machine
end

section
/-! PROOF. SYNC and FENCE (R283, R292): what completes at once, and the FENCE that waits. -/

namespace Sys2Proof.Machine

/-! ## The command that is alone completes -/

namespace alone
variable {s t : State} {c d : Cmd} {x : QueuePair} {p : Port}

/-- A step that leaves the queue pairs, the ports and the resets alone, and one command of the same queue, leaves it alone. -/
theorem of_changesOnly {l : List Field} (h : alone s c x p) (hchanges : changesOnly l s t) (hcmds : t.host.cmds = [d]) (hqid : d.qid = c.qid)
    (hfree : ∀ f ∈ [Field.hostPortA, .hostPortB, .hostQps, .hostResetting, .hostResetBusy], f ∉ l) : alone t d x p := by
  obtain ⟨-, hresetting, hbusy, hheld, hqueue, hpath, hroom⟩ := h
  have hqps : t.host.qps = s.host.qps := hchanges.2 .hostQps (hfree _ (by decide))
  have hports : samePorts s t := .of_changesOnly hchanges (hfree _ (by decide)) (hfree _ (by decide))
  refine ⟨hcmds, (hchanges.2 .hostResetting (hfree _ (by decide))).trans hresetting, (hchanges.2 .hostResetBusy (hfree _ (by decide))).trans hbusy,
    fun y hy => hheld y (hqps ▸ hy), ?_, (hports.queuePath x).trans hpath, hroom⟩
  rw [hqid, qpOf_congr hqps, hqueue]

variable (h : alone s c x p)
include h

/-- Its completion entry is the newest of its queue (R279). -/
theorem completed_postComp (st res : Nat) : completed (postComp c.qid (compOf c st res none) (noCmds s)) c st res := by
  obtain ⟨-, -, -, hheld, hqueue, hpath, hroom⟩ := h
  refine ⟨(postComp_changesOnly ..).2 .hostCmds (by decide), entryAdded x { compOf c st res none with durable := false, sent := c.writes.length }, _,
    ?_, List.getLast?_concat, rfl, rfl, rfl⟩
  rw [postComp_of_room (s := noCmds s) _ hqueue (hheld x (List.mem_of_find?_eq_some hqueue)) hpath hroom]
  exact qpOf_served p _ rfl hqueue

theorem tidy_postComp (st res : Nat) :
    tidy (postComp c.qid (compOf c st res none) (noCmds s)) = postComp c.qid (compOf c st res none) (noCmds s) := by
  obtain ⟨-, hresetting, hbusy, -⟩ := h
  obtain ⟨-, hsame⟩ := postComp_changesOnly c.qid (compOf c st res none) (noCmds s)
  exact tidy_idle (hsame .hostCmds (by decide)) ((hsame .hostResetting (by decide)).trans hresetting) ((hsame .hostResetBusy (by decide)).trans hbusy)

theorem reply_eq (st res : Nat) (hd : isDone c = false) : reply c.qid c.tag st res s = postComp c.qid (compOf c st res none) (noCmds s) := by
  obtain ⟨hcmds, hresetting, hbusy, hheld, -⟩ := h
  exact reply_of_one st res hcmds hd hheld hresetting hbusy

/-- A FENCE with nothing before it (R283). -/
theorem tidy_fence (hph : c.phase = .fenceWait) (hop : opcodeOf c.entry = opFence) :
    tidy s = postComp c.qid (compOf c 0 0 none) (noCmds s) := by
  obtain ⟨hcmds, hresetting, hbusy, -⟩ := h
  obtain ⟨-, hsame⟩ := postComp_changesOnly c.qid (compOf c 0 0 none) (noCmds s)
  rw [tidy_of_one hcmds, tidyOne_fence hcmds hph hop]
  exact resetsPass_of_none ((hsame .hostResetting (by decide)).trans hresetting) ((hsame .hostResetBusy (by decide)).trans hbusy)

/-- A SYNC that waits for no write and finds nothing staged is done (R292). -/
theorem settle_sync (hph : c.phase = .durableWait) (hop : opcodeOf c.entry = opSync) (hwaits : c.waits = []) (hafter : c.after = [])
    (hsets : s.wr.sets = []) : settle s = postComp c.qid (compOf c 0 (syncResult s c) none) (noCmds s) := by
  have hone := cmdOf_of_one h.1
  have hparts : ((List.range 4).filter fun p => syncScope s c p &&
      s.wr.sets.any fun d => d.part == p && d.kind == .user && decide (d.id < syncBound s c p)) = [] := by
    simp [hsets]
  have hdone : isDone c = false := by simp [isDone, hph]
  have hopen : openSync c s = reply c.qid c.tag 0 (syncResult s c) s := by
    have hkeys : releaseKeys c s = s := by
      rw [releaseKeys, hop]
      rfl
    simp [openSync, hparts, forEach, finishCmd, hone, hdone, hkeys, reply]
  have hsettle : settleOne c s = reply c.qid c.tag 0 (syncResult s c) s := by
    simp [settleOne, hph, waitsOver, hwaits, hop, hafter, hopen]
  have hfold : settle s = tidy (settleOne c s) := by
    rw [settle, h.1]
    simp [byOrder, orderInsert, forEach, hone]
  rw [hfold, hsettle, h.reply_eq _ _ hdone, h.tidy_postComp]

end alone

/-! ## FENCE -/

section
variable {s : State} {q : Fin 256} {tag : BitVec 16} {c : Cmd}

theorem exec_fence (h : inHand s q.val tag.toNat opFence c) : exec (.fence q tag) s = .next (tidy (waits c s)) := by
  change execFence q tag s = _
  rw [execFence, goLive_of_live _ h.1, h.2]
  rfl

theorem exec_sync (h : inHand s q.val tag.toNat opSync c) : exec (.sync q tag) s = .next (syncBegin c s) := by
  change execSync q tag s = _
  rw [execSync, goLive_of_live _ h.1, h.2]

theorem syncBegin_unmounted (hv : s.drive.vol = none) : syncBegin c s = reply c.qid c.tag 0x0411 0 s := by
  simp [syncBegin, hv]

end

/-- The SYNC waits for what is durable, and for no write. -/
def syncWaiting (c : Cmd) : Cmd := { c with phase := .durableWait, after := [] }

/-- The state in which a lone SYNC waits for what is durable, before the tape is brought to it. -/
def syncBegun (c : Cmd) (s : State) : State := onCmd c.qid c.tag (fun d => { d with phase := .durableWait, after := [] }) s

theorem syncBegin_alone {s : State} {c : Cmd} (hc : s.host.cmds = [c]) (hv : s.drive.vol.isSome = true) (hnone : unfetchedBefore s c.order = false) :
    syncBegin c s = settle (writeTape (syncBegun c s)) := by
  have hself : inSync s c c = false := by simp [inSync, before_irrefl]
  have hvol : s.drive.vol.isNone = false := by simpa using hv
  simp [syncBegin, hvol, hnone, hc, hself, syncBegun]

theorem writeTape_changesOnly (s : State) : changesOnly (tapeFields ++ [.wvnStallTicks, .rdActive]) s (writeTape s) :=
  (writeTape_kept (by decide +kernel) (Kept.refl (fieldMask (tapeFields ++ [.wvnStallTicks, .rdActive])) s)).changesOnly

/-- With nothing staged and no reading, what the tape is brought to stages nothing. -/
theorem writeTape_sets_of_empty {s : State} (hsets : s.wr.sets = []) (hrun : s.wvn.run = .none) : (writeTape s).wr.sets = [] := by
  have hbefore : (restartIfAsked true (retryMemory s)).wr.sets = [] :=
    ((restartIfAsked_kept true rfl (retryMemory_kept rfl (Kept.refl (allBut .wrSets) s))).same .wrSets rfl).trans hsets
  have hkick : kickWrites false (restartIfAsked true (retryMemory s)) = restartIfAsked true (retryMemory s) := by
    simp [kickWrites, runHead, hbefore]
  simp [writeTape, hrun, hkick, hbefore]

/-- Two commands are outstanding; the second, a FENCE, is behind the first, which is being packed. -/
theorem tidy_fence_behind {s : State} {c d : Cmd} (hc : s.host.cmds = [c, d]) (hfence : c.phase = .fenceWait) (hpacking : d.phase = .packing)
    (hqid : d.qid = c.qid) (htag : d.tag ≠ c.tag) (hbefore : before d.order c.order = true)
    (hr : s.host.resetting = []) (hb : s.host.resetBusy = false) : tidy s = s := by
  have horder : byOrder s.host.cmds = [d, c] := by
    simp [hc, byOrder, orderInsert, hbefore]
  have hfirst : cmdOf s d.qid d.tag = some d := by
    simp [cmdOf, hc, hqid, Ne.symm htag]
  have hsecond : cmdOf s c.qid c.tag = some c := by
    simp [cmdOf, hc]
  have hstays : tidyOne d.qid d.tag s = s := by
    simp [tidyOne, hfirst, hpacking]
  have hwaits : tidyOne c.qid c.tag s = s := by
    simp [tidyOne, hsecond, hfence, hc, hqid, hbefore]
  simp [tidy, horder, forEach, hstays, hwaits, resetsPass_of_none hr hb]

/-- Settles O37: a SYNC and a FENCE alone, a SYNC without a volume, and a FENCE behind a WRITE. -/
theorem syncAndFenceCompleteWhenNothingWaits : Obligations.SyncAndFenceCompleteWhenNothingWaits := by
  unfold Obligations.SyncAndFenceCompleteWhenNothingWaits
  refine ⟨fun s q tag c h hv => ?unmounted, fun s q tag c x p h ha hwaits hv hsets hrun hnone => ?sync, fun s q tag c x p h ha => ?fence,
    fun s q tag c d h hc hpacking hdq htag hbefore hr hb => ?behind⟩
  case unmounted =>
    obtain ⟨hqid, htag⟩ := qid_tag_of_inHand h
    rw [answers, exec_sync h, syncBegin_unmounted hv, hqid, htag]
  case sync =>
    have hbegun : alone (syncBegun c s) (syncWaiting c) x p :=
      ha.of_changesOnly (onCmd_changesOnly ..) (cmds_onCmd_of_one ha.1 _) rfl (by decide)
    have htape : alone (writeTape (syncBegun c s)) (syncWaiting c) x p :=
      hbegun.of_changesOnly (writeTape_changesOnly _) (((writeTape_changesOnly _).2 .hostCmds (by decide)).trans hbegun.1) rfl (by decide)
    have hop := opcode_of_inHand h
    have hsettle := htape.settle_sync rfl hop hwaits rfl (writeTape_sets_of_empty hsets hrun)
    exact ⟨_, _, (exec_sync h).trans (congrArg _ ((syncBegin_alone ha.1 hv hnone).trans hsettle)), htape.completed_postComp _ _⟩
  case fence =>
    have hwaiting : alone (waits c s) { c with phase := .fenceWait } x p :=
      ha.of_changesOnly (onCmd_changesOnly ..) (cmds_onCmd_of_one ha.1 _) rfl (by decide)
    have hop := opcode_of_inHand h
    exact ⟨_, (exec_fence h).trans (congrArg _ (hwaiting.tidy_fence rfl hop)), hwaiting.completed_postComp 0 0⟩
  case behind =>
    obtain ⟨hqid, hctag⟩ := qid_tag_of_inHand h
    have hcmds : (waits c s).host.cmds = [{ c with phase := .fenceWait }, d] := by
      simp [waits, onCmd, mapIf, hc, htag]
    have hstays : tidy (waits c s) = waits c s :=
      tidy_fence_behind hcmds rfl hpacking (hdq.trans hqid.symm) htag hbefore hr hb
    refine ⟨waits c s, { c with phase := .fenceWait }, (exec_fence h).trans (congrArg _ hstays), ?_, rfl, onCmd_changesOnly ..⟩
    rw [cmdOf, hcmds]
    simp [hqid, hctag]

end Sys2Proof.Machine
end

section
/-! PROOF. What the queries return: IDENTIFY, NEGOTIATE, GET_FEATURE, KEY_QUERY and ATTEST (R281, R314, R316, R363). -/

namespace Sys2Proof.Machine

/-! ## Bytes at an offset (R5) -/

@[simp] theorem length_le_bytes (n x : Nat) : (le n x).length = n := by
  induction n generalizing x with
  | zero => rfl
  | succ n ih => rw [le, List.length_cons, ih]

/-- The number that n bytes of x hold. -/
theorem unle_le (n x : Nat) : unle (le n x) = x % 256 ^ n := by
  induction n generalizing x with
  | zero => exact (Nat.mod_one x).symm
  | succ n ih =>
    have hmod : x % 256 ^ (n + 1) = x % 256 + 256 * (x / 256 % 256 ^ n) := by rw [Nat.pow_succ', Nat.mod_mul]
    rw [le, unle, ih, hmod, BitVec.toNat_ofNat]

@[simp] theorem length_fit (n : Nat) (bs : Bytes) : (fit n bs).length = n := length_slice bs 0 n

theorem slice_eq_of_length_le {bs : Bytes} {off n : Nat} (h : off + n ≤ bs.length) : slice bs off n = (bs.drop off).take n := by
  have hlen : n - ((bs.drop off).take n).length = 0 := by
    simp only [List.length_take, List.length_drop]
    omega
  rw [slice, hlen]
  exact List.append_nil _

/-- Bytes of the first part of two. -/
theorem slice_append_left {a b : Bytes} {off n : Nat} (h : off + n ≤ a.length) : slice (a ++ b) off n = slice a off n := by
  have hboth : off + n ≤ (a ++ b).length := h.trans (by simp)
  rw [slice_eq_of_length_le h, slice_eq_of_length_le hboth, List.drop_append_of_le_length (by omega),
    List.take_append_of_le_length (by rw [List.length_drop]; omega)]

/-- Bytes of the second part of two. -/
theorem slice_append_right {a b : Bytes} {k : Nat} (ha : a.length = k) (off n : Nat) : slice (a ++ b) (k + off) n = slice b off n := by
  subst ha
  simp only [slice, List.drop_append, Nat.add_sub_cancel_left, List.drop_of_length_le (Nat.le_add_right a.length off), List.nil_append]

/-- Bytes of what has been cut or padded. -/
theorem slice_fit {bs : Bytes} {m off n : Nat} (h : off + n ≤ m) : slice (fit m bs) off n = slice bs off n := by
  rw [slice_eq_of_length_le (by rwa [length_fit])]
  rcases Nat.le_total bs.length m with hshort | hlong
  · rw [fit_of_length_le hshort, take_drop_append_zeros bs (by omega)]
  · rw [fit, slice_eq_of_length_le (by omega), slice_eq_of_length_le (by omega), List.drop_zero, List.drop_take, List.take_take,
      Nat.min_eq_left (by omega)]

/-- A part with others before and behind it. -/
theorem slice_middle {a b : Bytes} {k n : Nat} (ha : a.length = k) (hb : b.length = n) (rest : Bytes) : slice (a ++ (b ++ rest)) k n = b := by
  have hwhole : slice b 0 n = b := by
    rw [slice_eq_of_length_le (by omega), List.drop_zero, List.take_of_length_le hb.le]
  calc slice (a ++ (b ++ rest)) k n
    _ = slice (b ++ rest) 0 n := slice_append_right ha 0 n
    _ = slice b 0 n := slice_append_left (by omega)
    _ = b := hwhole

section
variable {s : State} {tag : BitVec 16} {c : Cmd}

/-! ## IDENTIFY and NEGOTIATE -/

theorem exec_identify (h : inHand s 0 tag.toNat opIdentify c) :
    exec (.identify tag) s = .next (reply c.qid c.tag 0 0 (writeBuffer c.qid c.tag 0 (identifyBytes s) s)) := by
  change execIdentify tag s = _
  rw [execIdentify, goLive_of_live _ h.1, adminRun_of_inHand _ h]
  rfl

theorem exec_negotiate (h : inHand s 0 tag.toNat opNegotiate c) :
    exec (.negotiate tag) s = .next (reply c.qid c.tag 0 (min 0x12 (specField c.entry 48 1)) s) := by
  change execNegotiate tag s = _
  rw [execNegotiate, goLive_of_live _ h.1, adminRun_of_inHand _ h]
  rfl

/-- The vendor and the device ID stand first (Table 12-4). -/
theorem identifyBytes_ids (s : State) : ∃ rest, identifyBytes s = fit 4096 (le 2 0xF7D5 ++ (le 2 0x1024 ++ rest)) := by
  simp only [identifyBytes, List.append_assoc]
  exact ⟨_, rfl⟩

/-! ## GET_FEATURE -/

theorem exec_getFeature {v : Nat × Nat} (h : inHand s 0 tag.toNat opGetFeature c)
    (hv : featureValue s (specField c.entry 48 1) (selOf c) = some v) :
    exec (.getFeature tag) s = .next (reply c.qid c.tag 0 (v.1 + 2 ^ 32 * v.2) s) := by
  change execGetFeature tag s = _
  rw [execGetFeature, goLive_of_live _ h.1, adminRun_of_inHand _ h, hv]
  rfl

theorem exec_getFeature_none (h : inHand s 0 tag.toNat opGetFeature c) (hv : featureValue s (specField c.entry 48 1) (selOf c) = none) :
    exec (.getFeature tag) s = .next (reply c.qid c.tag 0x0101 0 s) := by
  change execGetFeature tag s = _
  rw [execGetFeature, goLive_of_live _ h.1, adminRun_of_inHand _ h, hv]
  rfl

/-! ## KEY_QUERY -/

/-- The answer about one slot (R316). -/
def slotAnswer (s : State) (i : Nat) : Bytes := queryHeader s.keep ++ slotEntry i (keySlot s i)

theorem slotEntry_begins (i : Nat) (k : KeySlot) : ∃ rest, slotEntry i k = fit 64 (le 1 i ++ (le 1 (slotCode k.state) ++ rest)) := by
  unfold slotEntry
  split
  · exact ⟨[], by rw [List.append_nil]⟩
  · exact ⟨[], by rw [List.append_nil]⟩
  next =>
    simp only [List.append_assoc]
    exact ⟨_, rfl⟩

theorem slotCode_lt (st : SlotState) : slotCode st < 256 := by
  cases st <;> decide

@[simp] theorem length_transportPublic (k : Keep) : (transportPublic k).length = 1216 := by
  unfold transportPublic
  split
  · simp
  · exact List.length_replicate

theorem length_slotAnswer (s : State) (i : Nat) : (slotAnswer s i).length = 1344 := by
  obtain ⟨rest, hentry⟩ := slotEntry_begins i (keySlot s i)
  simp [slotAnswer, hentry, queryHeader]

/-- LOAD_SEQ stands behind the public halves of the transport keys (R316). -/
theorem field_slotAnswer_loadSeq (s : State) (i : Nat) : field (slotAnswer s i) 1216 8 = s.keep.loadSeq % 2 ^ 64 := by
  have hheader : slice (slotAnswer s i) 1216 8 = slice (transportPublic s.keep ++ (le 8 s.keep.loadSeq ++ [])) 1216 8 := by
    rw [slotAnswer, slice_append_left (by simp [queryHeader]), queryHeader, slice_fit (by decide), List.append_nil]
  rw [field, hheader, slice_middle (length_transportPublic _) (length_le_bytes _ _), unle_le]
  rfl

/-- The entry of the slot stands behind the header. -/
theorem slice_slotAnswer_entry (s : State) (i : Nat) {off n : Nat} (h : off + n ≤ 64) :
    ∃ rest, slice (slotAnswer s i) (1280 + off) n = slice (le 1 i ++ (le 1 (slotCode (keySlot s i).state) ++ rest)) off n := by
  obtain ⟨rest, hentry⟩ := slotEntry_begins i (keySlot s i)
  refine ⟨rest, ?_⟩
  rw [slotAnswer, slice_append_right (by simp [queryHeader]), hentry, slice_fit h]

theorem field_slotAnswer_slot (s : State) {i : Nat} (hi : i < 64) : field (slotAnswer s i) 1280 1 = i := by
  obtain ⟨rest, hentry⟩ := slice_slotAnswer_entry s i (off := 0) (n := 1) (by decide)
  have hfirst : slice (slotAnswer s i) 1280 1 = le 1 i := hentry.trans (slice_middle (a := []) rfl (length_le_bytes _ _) _)
  rw [field, hfirst, unle_le]
  omega

theorem field_slotAnswer_state (s : State) (i : Nat) : field (slotAnswer s i) 1281 1 = slotCode (keySlot s i).state := by
  obtain ⟨rest, hentry⟩ := slice_slotAnswer_entry s i (off := 1) (n := 1) (by decide)
  have hsecond : slice (slotAnswer s i) 1281 1 = le 1 (slotCode (keySlot s i).state) :=
    hentry.trans (slice_middle (length_le_bytes _ _) (length_le_bytes _ _) _)
  rw [field, hsecond, unle_le]
  exact Nat.mod_eq_of_lt (slotCode_lt _)

theorem exec_keyQuery (h : inHand s 0 tag.toNat opKeyQuery c) (hslot : slotField c.entry < 64) :
    exec (.keyQuery tag) s = .next (reply c.qid c.tag 0 1344 (writeBuffer c.qid c.tag 0 (slotAnswer s (slotField c.entry)) s)) := by
  have hone : (if slotField c.entry = 0xFF then List.range 64 else [slotField c.entry]) = [slotField c.entry] := if_neg (by omega)
  have hbytes : queryHeader s.keep ++ [slotField c.entry].flatMap (fun i => slotEntry i (keySlot s i)) = slotAnswer s (slotField c.entry) := by
    simp [slotAnswer]
  change execKeyQuery tag s = _
  rw [execKeyQuery, goLive_of_live _ h.1, adminRun_of_inHand _ h, queryKeys, hone, hbytes, length_slotAnswer]
  rfl

/-! ## ATTEST -/

theorem exec_attest {nonce : Bytes} (h : inHand s 0 tag.toNat opAttest c) :
    exec (.attest tag nonce) s = .next (reply c.qid c.tag 0 10496 (writeBuffer c.qid c.tag 0 (attestBytes s nonce) s)) := by
  change execAttest tag nonce s = _
  rw [execAttest, goLive_of_live _ h.1, adminRun_of_inHand _ h]
  rfl

end

/-- The attestation begins with the signed report (Table 14-6). -/
theorem slice_attestBytes (s : State) (nonce : Bytes) {off n : Nat} (h : off + n ≤ 1600) :
    slice (attestBytes s nonce) off n = slice (attestReport s nonce) off n := by
  have hlen : (attestReport s nonce).length = 1600 := length_fit _ _
  simp only [attestBytes, List.append_assoc]
  rw [slice_fit (by omega), slice_append_left (by rw [length_fit]; omega), slice_fit (by omega), slice_append_left (by omega)]

/-- What stands before the nonce in the report. -/
def attestHead (s : State) : Bytes :=
  ascii "LXAR" ++ ([1] ++ (le 1 (s.boot.phase == .fallback).toNat ++ (le 1 s.boot.epoch ++ (le 1 (portNo s.boot.slot) ++ fit 16 s.boot.serial))))

theorem length_attestHead (s : State) : (attestHead s).length = 24 := by
  simp [attestHead, ascii]

theorem attestReport_begins (s : State) (nonce : Bytes) : ∃ rest, attestReport s nonce = fit 1600 (attestHead s ++ (fit 32 nonce ++ rest)) := by
  simp only [attestReport, attestHead, List.append_assoc]
  exact ⟨_, rfl⟩

theorem slice_attestBytes_magic (s : State) (nonce : Bytes) : slice (attestBytes s nonce) 0 4 = [0x4C, 0x58, 0x41, 0x52] := by
  obtain ⟨rest, hreport⟩ := attestReport_begins s nonce
  rw [slice_attestBytes s nonce (by decide), hreport, slice_fit (by decide), attestHead, List.append_assoc]
  exact (slice_middle (a := []) (b := ascii "LXAR") rfl rfl _).trans (by decide)

theorem slice_attestBytes_nonce (s : State) (nonce : Bytes) : slice (attestBytes s nonce) 24 32 = fit 32 nonce := by
  obtain ⟨rest, hreport⟩ := attestReport_begins s nonce
  rw [slice_attestBytes s nonce (by decide), hreport, slice_fit (by decide), slice_middle (length_attestHead s) (length_fit _ _)]

/-- Settles O19: each query answers with its own bytes or value. -/
theorem queriesReturnTheirBytes : Obligations.QueriesReturnTheirBytes := by
  unfold Obligations.QueriesReturnTheirBytes
  refine ⟨fun s tag c h => ?identify, fun s tag c h => ?negotiate, fun s tag c h => ?feature, fun s tag c h hslot => ?query,
    fun s tag nonce c h => ?attest⟩
  all_goals obtain ⟨hqid, htag⟩ := qid_tag_of_inHand h
  case identify =>
    obtain ⟨rest, hids⟩ := identifyBytes_ids s
    refine ⟨?_, length_fit _ _, ?_, ?_⟩
    · rw [answers, exec_identify h, hqid, htag]
    · rw [hids, field, slice_fit (by decide)]
      exact (congrArg unle (slice_middle (a := []) rfl (length_le_bytes _ _) _)).trans rfl
    · rw [hids, field, slice_fit (by decide), slice_middle (length_le_bytes _ _) (length_le_bytes _ _)]
      rfl
  case negotiate => rw [answers, exec_negotiate h, hqid, htag]
  case feature =>
    refine ⟨fun hfid => ?_, fun hfid => ?_, fun hfid hq => ?_⟩
    · have hv : featureValue s (specField c.entry 48 1) (selOf c) = some (s.host.floor, 0) := by rw [hfid]; rfl
      rw [answers, exec_getFeature h hv, hqid, htag]
      rfl
    · have hv : featureValue s (specField c.entry 48 1) (selOf c) =
          (let g := getAt s.host.groups (selOf c) {}; some (g.holdoff + 2 ^ 16 * g.agg, g.stale)) := by rw [hfid]; rfl
      rw [answers, exec_getFeature h hv, hqid, htag]
      rfl
    · have hv : featureValue s (specField c.entry 48 1) (selOf c) = none := by
        rw [hfid]
        exact congrArg (Option.map _) hq
      rw [answers, exec_getFeature_none h hv, hqid, htag]
  case query =>
    refine ⟨slotAnswer s (slotField c.entry), ?_, length_slotAnswer _ _, field_slotAnswer_loadSeq _ _, field_slotAnswer_slot _ hslot,
      field_slotAnswer_state _ _⟩
    rw [answers, exec_keyQuery h hslot, hqid, htag]
  case attest =>
    refine ⟨attestBytes s nonce, ?_, length_fit _ _, slice_attestBytes_magic s nonce, slice_attestBytes_nonce s nonce⟩
    rw [answers, exec_attest h, hqid, htag]

end Sys2Proof.Machine
end

section
/-! PROOF. SET_FEATURE by its features (Table 12-5): FORMAT_FLOOR, WAKE, QUEUE_PORT, MODERATION and DEAD_CLEAR (R103, R302, R303, R338,
R341, R391). -/

namespace Sys2Proof.Machine

theorem lantern_changesOnly (code : Nat) (data : Bytes) (s : State) : changesOnly recordFields s (lantern code data s) :=
  (lantern_kept code data (by decide +kernel) (Kept.refl (fieldMask recordFields) s)).changesOnly

/-! ## FORMAT_FLOOR (R391) -/

/-- The floor is the value. -/
def floorStored (v : Nat) (s : State) : State := s.onHost fun h => { h with floor := v }

theorem floorStored_kept {m : Nat} {s0 s : State} (v : Nat) (hm : m.testBit Field.hostFloor.ctorIdx = true) (hk : Kept m s0 s) :
    Kept m s0 (floorStored v s) :=
  onHost_kept _ (fun h => { HostAgree.refl _ h with floor := .inl hm }) hk

/-- The floor is the value, and a change of it has its record. -/
def floorSet (v : Nat) (s : State) : State :=
  if v = s.host.floor then floorStored v s else lantern 0x00E0 (le 1 0 ++ le 1 v) (floorStored v s)

theorem floorSet_floor (v : Nat) (s : State) : (floorSet v s).host.floor = v := by
  unfold floorSet
  split
  · rfl
  · exact (lantern_changesOnly _ _ _).2 .hostFloor (by decide)

theorem floorSet_changesOnly (v : Nat) (s : State) : changesOnly ([.hostFloor] ++ recordFields) s (floorSet v s) := by
  have hstored := floorStored_kept v (by decide +kernel) (Kept.refl (fieldMask ([.hostFloor] ++ recordFields)) s)
  unfold floorSet
  split
  · exact hstored.changesOnly
  · exact (lantern_kept _ _ (by decide +kernel) hstored).changesOnly

theorem floorSet_unchanged {v : Nat} {s : State} (h : v = s.host.floor) : changesOnly [.hostFloor] s (floorSet v s) := by
  rw [floorSet, if_pos h]
  exact (floorStored_kept v (by decide +kernel) (Kept.refl _ s)).changesOnly

/-! ## WAKE (R302) -/

/-- Wake on completion of a port. -/
def wakeSet (p : Port) (v : Nat) (s : State) : State := onPort p (fun q => { q with wakeEn := decide (v = 1) }) s

theorem wakeSet_changesOnly (p : Port) (v : Nat) (s : State) : changesOnly [.hostPortA, .hostPortB] s (wakeSet p v s) := by
  refine Kept.changesOnly ?_
  unfold wakeSet onPort
  split
  · exact onHost_kept _ (fun h => { HostAgree.refl _ h with portA := .inl (by decide +kernel) }) (Kept.refl _ s)
  · exact onHost_kept _ (fun h => { HostAgree.refl _ h with portB := .inl (by decide +kernel) }) (Kept.refl _ s)

/-! ## QUEUE_PORT (R303) -/

/-- The queue pair prefers a port and is active there. -/
def portMoved (q : Nat) (p : Port) (s : State) : State := onQp q (fun y => { y with pref := p, active := p }) s

/-- A queue that holds no completion has none to write. -/
theorem flushHeld_of_none_held {s : State} {q : Nat} {x : QueuePair} (hx : qpOf s q = some x) (hheld : x.heldComps = []) :
    flushHeld q s = onQp q (fun y => { y with heldComps := [] }) s := by
  simp [flushHeld, hx, hheld, forEach]

section
variable {s : State} {c : Cmd} {x : QueuePair} (hx : qpOf s (selOf c) = some x)
include hx

theorem movePort_moves (hm : x.multipath = true) (hp : isPath s (portOfBit (valueOf c)) = true) :
    movePort c s = reply c.qid c.tag 0 0 (flushHeld (selOf c) (portMoved (selOf c) (portOfBit (valueOf c)) s)) := by
  simp [movePort, hx, hm, hp, adminDone, portMoved]

theorem movePort_refuses (h : x.multipath = false ∨ isPath s (portOfBit (valueOf c)) = false) :
    movePort c s = reply c.qid c.tag 0x0101 0 s := by
  rcases h with h | h <;> simp [movePort, hx, h, adminDone]

end

theorem qpOf_flushHeld_portMoved {s : State} {q : Nat} {x : QueuePair} (p : Port) (hx : qpOf s q = some x) (hheld : x.heldComps = []) :
    qpOf (flushHeld q (portMoved q p s)) q = some { x with pref := p, active := p } := by
  have hmoved : qpOf (portMoved q p s) q = some { x with pref := p, active := p } := by
    rw [portMoved, qpOf_onQp, hx]
    rfl
  rw [flushHeld_of_none_held hmoved hheld, qpOf_onQp, hmoved, ← hheld]
  rfl

theorem flushHeld_portMoved_changesOnly {s : State} {q : Nat} {x : QueuePair} (p : Port) (hx : qpOf s q = some x) (hheld : x.heldComps = []) :
    changesOnly [.hostQps] s (flushHeld q (portMoved q p s)) := by
  have hmoved : qpOf (portMoved q p s) q = some { x with pref := p, active := p } := by
    rw [portMoved, qpOf_onQp, hx]
    rfl
  rw [flushHeld_of_none_held hmoved hheld]
  exact (onQp_kept _ _ (by decide +kernel) (onQp_kept _ _ (by decide +kernel) (Kept.refl (fieldMask [.hostQps]) s))).changesOnly

/-! ## MODERATION (R338, R341) -/

/-- The group is flushed, and the values are its own. -/
def moderationSet (g v stale : Nat) (s : State) : State :=
  (flushGroup g s).onHost fun h => { h with groups := updAt h.groups g fun k =>
    { k with holdoff := bits v 0 16, agg := bits v 16 8, stale := stale } }

/-- A flushed group holds nothing and has counted nothing. -/
theorem groups_flushGroup (g : Nat) (s : State) : (flushGroup g s).host.groups =
    updAt s.host.groups g fun k => { k with count := 0, held := [], openAt := none, staleAt := none } := by
  unfold flushGroup deliver
  exact forEach_preserves (P := fun t => t.host.groups = _) _
    (fun (x : Nat × Port) t ht => (((msix_kept x.2 x.1 rfl (Kept.refl (allBut .hostGroups) t)).same .hostGroups rfl).trans ht :)) rfl

theorem moderationSet_group {g : Nat} (h : g < 32) (v stale : Nat) (s : State) :
    (moderationSet g v stale s).host.groups[g] =
      { s.host.groups[g] with count := 0, held := [], openAt := none, staleAt := none, holdoff := v % 2 ^ 16, agg := v / 2 ^ 16 % 2 ^ 8, stale := stale } := by
  simp [moderationSet, groups_flushGroup, updAt, h, bits]

theorem moderationSet_changesOnly (g v stale : Nat) (s : State) :
    changesOnly [.hostGroups, .hostPba, .blfCntMsix, .blfCntFlush, .out] s (moderationSet g v stale s) := by
  refine Kept.changesOnly (onHost_kept _ (fun h => ?_) (flushGroup_kept g (by decide +kernel) (Kept.refl _ s)))
  exact { HostAgree.refl _ h with groups := .inl (by decide +kernel) }

/-! ## DEAD_CLEAR (R103) -/

/-- The declarations that a value clears. -/
def deadAfter (v : Nat) (d : BitVec 1024) : BitVec 1024 := if v.testBit 31 then 0 else setBit d (v % 1024) false

/-- One declaration of a module is cleared, or all of them. -/
def declarationsCleared (m v : Nat) (s : State) : State :=
  s.onEcc fun e => if m = 0 then { e with dead0 := deadAfter v e.dead0 } else { e with dead1 := deadAfter v e.dead1 }

/-- One declaration of a module is cleared, or all of them, with the record. -/
def deadCleared (m v : Nat) (s : State) : State :=
  lantern 0x0021 (le 1 m ++ le 2 (if v.testBit 31 then 0xFFFF else v % 1024)) (declarationsCleared m v s)

theorem deadCleared_changesOnly (m v : Nat) (s : State) : changesOnly ([.eccDead0, .eccDead1] ++ recordFields) s (deadCleared m v s) := by
  refine Kept.changesOnly (lantern_kept _ _ (by decide +kernel) (onEcc_kept _ (fun e => ?_) (Kept.refl _ s)))
  split
  · exact { EccAgree.refl _ e with dead0 := .inl (by decide +kernel) }
  · exact { EccAgree.refl _ e with dead1 := .inl (by decide +kernel) }

theorem deadCleared_dead0 (m v : Nat) (s : State) :
    (deadCleared m v s).ecc.dead0 = if m = 0 then deadAfter v s.ecc.dead0 else s.ecc.dead0 := by
  refine ((lantern_changesOnly _ _ _).2 .eccDead0 (by decide)).trans ?_
  unfold declarationsCleared
  split <;> simp [*]

theorem deadCleared_dead1 (m v : Nat) (s : State) :
    (deadCleared m v s).ecc.dead1 = if m = 0 then s.ecc.dead1 else deadAfter v s.ecc.dead1 := by
  refine ((lantern_changesOnly _ _ _).2 .eccDead1 (by decide)).trans ?_
  unfold declarationsCleared
  split <;> simp [*]

/-! ## The rows -/

section
variable {s : State} {tag : BitVec 16} {c : Cmd} (h : inHand s 0 tag.toNat opSetFeature c)
include h

theorem exec_formatFloor (hsub : specField c.entry 48 1 = 1) :
    exec (.formatFloor tag) s = .next (reply c.qid c.tag 0 0 (floorSet (valueOf c) s)) := by
  change execFormatFloor tag s = _
  rw [execFormatFloor, goLive_of_live _ h.1, adminSub_of_inHand _ h hsub]
  rfl

theorem exec_wake (hsub : specField c.entry 48 1 = 2) :
    exec (.wake tag) s = .next (reply c.qid c.tag 0 0 (wakeSet (portOfBit (selOf c)) (valueOf c) s)) := by
  change execWake tag s = _
  rw [execWake, goLive_of_live _ h.1, adminSub_of_inHand _ h hsub]
  rfl

theorem exec_queuePort (hsub : specField c.entry 48 1 = 3) : exec (.queuePort tag) s = .next (movePort c s) := by
  change execQueuePort tag s = _
  rw [execQueuePort, goLive_of_live _ h.1, adminSub_of_inHand _ h hsub]

theorem exec_moderation (hsub : specField c.entry 48 1 = 4) :
    exec (.moderation tag) s = .next (reply c.qid c.tag 0 0 (moderationSet (selOf c) (valueOf c) (specField c.entry 56 2) s)) := by
  change execModeration tag s = _
  rw [execModeration, goLive_of_live _ h.1, adminSub_of_inHand _ h hsub]
  rfl

theorem exec_deadClear (hsub : specField c.entry 48 1 = 6) :
    exec (.deadClear tag) s = .next (reply c.qid c.tag 0 0 (deadCleared (selOf c) (valueOf c) s)) := by
  change execDeadClear tag s = _
  rw [execDeadClear, goLive_of_live _ h.1, adminSub_of_inHand _ h hsub]
  rfl

end

/-- Settles O21: each feature's state is the one that its row's command completes in. -/
theorem featuresStoreTheirValues : Obligations.FeaturesStoreTheirValues := by
  unfold Obligations.FeaturesStoreTheirValues
  refine ⟨fun s tag c h hsub => ?floor, fun s tag c h hsub => ?wake, fun s tag c x h hsub hx => ?port, fun s tag c h hsub hg => ?moderation,
    fun s tag c h hsub => ?dead⟩
  all_goals obtain ⟨hqid, htag⟩ := qid_tag_of_inHand h
  case floor =>
    exact ⟨floorSet (valueOf c) s, by rw [answers, exec_formatFloor h hsub, hqid, htag], floorSet_floor _ s, floorSet_changesOnly _ s,
      floorSet_unchanged⟩
  case wake =>
    exact ⟨wakeSet (portOfBit (selOf c)) (valueOf c) s, by rw [answers, exec_wake h hsub, hqid, htag],
      congrArg PortState.wakeEn (portOf_onPort_same _ _ s), portOf_onPort_other _ _ s, wakeSet_changesOnly _ _ s⟩
  case port =>
    refine ⟨fun hm hp hheld => ?_, fun hno => by rw [answers, exec_queuePort h hsub, movePort_refuses hx hno, hqid, htag]⟩
    exact ⟨flushHeld (selOf c) (portMoved (selOf c) (portOfBit (valueOf c)) s), _,
      by rw [answers, exec_queuePort h hsub, movePort_moves hx hm hp, hqid, htag], qpOf_flushHeld_portMoved _ hx hheld, rfl,
      flushHeld_portMoved_changesOnly _ hx hheld⟩
  case moderation =>
    have hgroup := moderationSet_group hg (specField c.entry 52 4) (specField c.entry 56 2) s
    exact ⟨moderationSet (selOf c) (valueOf c) (specField c.entry 56 2) s, by rw [answers, exec_moderation h hsub, hqid, htag],
      congrArg HostGroup.holdoff hgroup, congrArg HostGroup.agg hgroup, congrArg HostGroup.stale hgroup, congrArg HostGroup.held hgroup,
      congrArg HostGroup.count hgroup, moderationSet_changesOnly _ _ _ s⟩
  case dead =>
    refine ⟨deadCleared (selOf c) (valueOf c) s, by rw [answers, exec_deadClear h hsub, hqid, htag], deadCleared_changesOnly _ _ s,
      fun hall hm => ⟨?_, ?_⟩, fun hone hm => ⟨?_, ?_⟩⟩
    · exact (deadCleared_dead0 _ _ s).trans ((if_pos hm).trans (if_pos hall))
    · exact (deadCleared_dead1 _ _ s).trans (if_pos hm)
    · exact (deadCleared_dead0 _ _ s).trans (if_neg hm)
    · exact (deadCleared_dead1 _ _ s).trans ((if_neg hm).trans (if_neg (by rw [valueOf, hone]; decide)))

end Sys2Proof.Machine
end

section
/-! PROOF. GET_LOG of the device events: its window and what CONSUME takes out of the log (Table 12-6, R382). -/

namespace Sys2Proof.Machine

@[simp] theorem length_eventBytes (e : DevEvent) : (eventBytes e).length = 16 := by
  simp [eventBytes]

/-- From the start of the log, the window holds as many whole events as fit into the buffer. -/
theorem entryWindow_zero (count len : Nat) : entryWindow 16 count 0 len = (0, min count (len / 16)) := by
  simp [entryWindow]

/-- The bytes of the first n device events. -/
def firstEvents (s : State) (n : Nat) : Bytes := ((s.lantern.events.take n).map eventBytes).flatten

theorem length_firstEvents {s : State} {n : Nat} (h : n ≤ s.lantern.events.length) : (firstEvents s n).length = 16 * n := by
  simp [firstEvents, Function.comp_def, Nat.min_eq_left h, Nat.mul_comm]

/-- The first n events are in the command's buffer, and with CONSUME out of the log. -/
def eventsGiven (consume : Bool) (q tag n : Nat) (s : State) : State :=
  if consume then (writeBuffer q tag 0 (firstEvents s n) s).onLantern fun l => { l with events := dropWindow (0, n) l.events }
  else writeBuffer q tag 0 (firstEvents s n) s

section
variable (consume : Bool) (q tag n : Nat) (s : State)

theorem writeBuffer_changesOnly (off : Nat) (bs : Bytes) : changesOnly [.hostCmds, .out] s (writeBuffer q tag off bs s) :=
  (writeBuffer_kept q tag off bs (by decide +kernel) (Kept.refl (fieldMask [.hostCmds, .out]) s)).changesOnly

theorem eventsGiven_host : (eventsGiven consume q tag n s).host = (writeBuffer q tag 0 (firstEvents s n) s).host := by
  cases consume <;> rfl

theorem eventsGiven_events : (eventsGiven consume q tag n s).lantern.events = if consume then s.lantern.events.drop n else s.lantern.events := by
  have hlog : (writeBuffer q tag 0 (firstEvents s n) s).lantern.events = s.lantern.events :=
    (writeBuffer_changesOnly q tag s 0 _).2 .lanternEvents (by decide)
  cases consume <;> simp [eventsGiven, dropWindow, hlog]

theorem eventsGiven_changesOnly : changesOnly [.lanternEvents, .hostCmds, .out] s (eventsGiven consume q tag n s) := by
  have hwritten := writeBuffer_kept q tag 0 (firstEvents s n) (by decide +kernel) (Kept.refl (fieldMask [.lanternEvents, .hostCmds, .out]) s)
  refine Kept.changesOnly ?_
  unfold eventsGiven
  split
  · exact onLantern_kept _ (fun l => { LanternAgree.refl _ l with events := .inl (by decide +kernel) }) hwritten
  · exact hwritten

end

theorem exec_getLog_events {s : State} {tag : BitVec 16} {c : Cmd} (h : inHand s 0 tag.toNat opGetLog c) (hlog : specField c.entry 48 1 = 1)
    (hoff : specField c.entry 56 8 = 0) :
    let n := min s.lantern.events.length (lengthField c.entry / 16)
    exec (.getLog tag) s =
      .next (reply c.qid c.tag 0 (16 * n) (eventsGiven ((specField c.entry 49 1).testBit 0) c.qid c.tag n s)) := by
  intro n
  have hbytes : ((s.lantern.events.map eventBytes).take n).flatten = firstEvents s n := by rw [firstEvents, List.map_take]
  change execGetLog tag s = _
  rw [execGetLog, goLive_of_live _ h.1, adminRun_of_inHand _ h]
  simp only [readLog, hlog, entryLog, hoff, List.length_map, entryWindow_zero, List.drop_zero, adminDone]
  rw [hbytes, length_firstEvents (Nat.min_le_left _ _)]
  rfl

/-- Settles O23: the window of a GET_LOG from the log's start is its first events. -/
theorem logEntriesAreConsumedAsRead : Obligations.LogEntriesAreConsumedAsRead := by
  unfold Obligations.LogEntriesAreConsumedAsRead
  intro s tag c h hlog hoff n
  have hexec := exec_getLog_events h hlog hoff
  obtain ⟨hqid, htag⟩ := qid_tag_of_inHand h
  rw [hqid, htag] at hexec
  have hevents := eventsGiven_events ((specField c.entry 49 1).testBit 0) 0 tag.toNat n s
  exact ⟨_, _, hexec, rfl, length_firstEvents (Nat.min_le_left _ _), eventsGiven_host _ _ _ _ s, fun hb => hevents.trans (if_pos hb),
    fun hb => hevents.trans (if_neg (by simp [hb])), eventsGiven_changesOnly _ _ _ _ s⟩

end Sys2Proof.Machine
end

section
/-! PROOF. A cartridge comes and goes (R319, R320, R331). -/

namespace Sys2Proof.Machine

/-- A listing in canonical form reads as the listing did. -/
theorem Memory.read_canon (m : Cells) (a : Nat) : Memory.read (Memory.canon m) a = Memory.read m a := by
  induction m with
  | nil => rfl
  | cons e m ih =>
    obtain ⟨x, b⟩ := e
    by_cases h : x = a
    · subst h
      simp only [Memory.canon, Memory.read, if_true]
      exact Memory.read_write_same x b (Memory.wf_canon m)
    · simp only [Memory.canon, Memory.read, if_neg h]
      exact (Memory.read_write_other b (Ne.symm h)).trans ih

theorem getLsbD_latched_latch {i : Nat} (h : i < 16) (s : State) : (latch i s).blf.latched.getLsbD i = true := by
  have hset : (setBit s.blf.latched i true).getLsbD i = true := by simp [getLsbD_setBit_true, h]
  unfold latch
  dsimp only
  split
  · rw [(raise_changesOnly _ _).2 .blfLatched (by decide)]
    exact hset
  · exact hset

/-! ## CART_INSERTED (R331) -/

/-- CART_PRESENT_N asserts and its latch catches the edge. -/
def insertionSeen (s : State) : State := latch 3 (s.onPins fun p => { p with cartPresentN := false })

/-- The state with the cartridge in, and no tape identified yet. -/
def cartIn (c : Cartridge) (s : State) : State :=
  ((insertionSeen s).onDrive fun d => { d with cart := some { c with cm := Memory.canon c.cm }, link := {} }).onStp fun p =>
    { p with tapeIds := Vector.replicate 5 [] }

/-- What an insertion changes. -/
def insertionFields : List Field := [.pinsCartPresentN, .driveCart, .driveLink, .stpTapeIds, .blfLatched] ++ requestFields

theorem insertionSeen_kept (s : State) : Kept (fieldMask insertionFields) s (insertionSeen s) := by
  refine latch_kept 3 (by decide +kernel) (onPins_kept _ (fun p => ?_) (Kept.refl _ s))
  exact { PinsAgree.refl _ p with cartPresentN := .inl (by decide +kernel) }

theorem insertionSeen_same (s : State) : (insertionSeen s).pins.cartPresentN = false ∧ (insertionSeen s).drive.vol = s.drive.vol := by
  obtain ⟨-, hsame⟩ : changesOnly (.blfLatched :: requestFields) _ (insertionSeen s) :=
    (latch_kept 3 (by decide +kernel) (Kept.refl _ (s.onPins fun p => { p with cartPresentN := false }))).changesOnly
  exact ⟨hsame .pinsCartPresentN (by decide), hsame .driveVol (by decide)⟩

theorem cartIn_changesOnly (c : Cartridge) (s : State) : changesOnly insertionFields s (cartIn c s) := by
  refine Kept.changesOnly (onStp_kept _ (fun p => ?_) (onDrive_kept _ (fun d _ => ?_) (fun d => ?_) (insertionSeen_kept s)))
  · exact { StpAgree.refl _ p with tapeIds := .inl (by decide +kernel) }
  · rintro k ⟨⟩
    exact Memory.wf_canon c.cm
  · exact { DriveAgree.refl _ d with cart := .inl (by decide +kernel), link := .inl (by decide +kernel) }

theorem exec_cartInserted {s : State} (c : Cartridge) (h : s.drive.cart = none) : exec (.cartInserted c) s = .next (cartIn c s) := by
  change execCartInserted c s = _
  simp only [execCartInserted, go, h, Option.isSome_none, Bool.false_eq_true, if_false]
  rfl

theorem exec_cartInserted_again {s : State} {k : Cartridge} (c : Cartridge) (h : s.drive.cart = some k) :
    exec (.cartInserted c) s = .next s := by
  change execCartInserted c s = _
  simp only [execCartInserted, go, h, Option.isSome_some, if_true]

/-! ## CART_REMOVED (R320) -/

/-- CART_PRESENT_N goes and its latch catches the edge. -/
def removalSeen (s : State) : State := latch 4 (s.onPins fun p => { p with cartPresentN := true })

theorem removalSeen_pin (s : State) : (removalSeen s).pins.cartPresentN = true :=
  (latch_kept 4 rfl (Kept.refl (allBut .pinsCartPresentN) (s.onPins fun p => { p with cartPresentN := true }))).same .pinsCartPresentN rfl

theorem removalSeen_vol (s : State) : (removalSeen s).drive.vol = s.drive.vol :=
  (latch_kept 4 rfl (Kept.refl (allBut .driveVol) (s.onPins fun p => { p with cartPresentN := true }))).same .driveVol rfl

/-- With a volume mounted, the commands that need it end, what is staged is lost, and the volume goes. -/
def volumeLost (s : State) : State :=
  volumeGone (loseStaged (forEach ((byOrder s.host.cmds).filter fun c => needsVolume c && !isDone c && !unstarted c) endVolumeLost s))

theorem volumeGone_vol (s : State) : (volumeGone s).drive.vol = none := by
  unfold volumeGone
  exact (linkAtUnmount_kept rfl (Kept.refl (allBut .driveVol) _)).same .driveVol rfl

/-- The loss of a volume leaves the pin and the latches as they are. -/
theorem volumeLost_kept {m : Nat} {s0 s : State} (hm : allBut .pinsCartPresentN &&& allBut .blfLatched ||| m = m) (hk : Kept m s0 s) :
    Kept m s0 (volumeLost s) :=
  volumeGone_kept (Mask.sub hm rfl) (loseStaged_kept (Mask.sub hm rfl) (forEach_kept _ _ (fun c _ => endVolumeLost_kept c (Mask.sub hm rfl)) hk))

/-- What is left of the drive once the cartridge is out. -/
def cartOut (s : State) : State := tidy (s.onDrive fun d => { d with cart := none, link := {} })

theorem cartOut_drive (s : State) : (cartOut s).drive.cart = none ∧ (cartOut s).drive.vol = s.drive.vol := by
  obtain ⟨-, hsame⟩ : changesOnly completionFields _ (cartOut s) :=
    (tidy_kept (by decide +kernel) (Kept.refl _ (s.onDrive fun d => { d with cart := none, link := {} }))).changesOnly
  exact ⟨hsame .driveCart (by decide), hsame .driveVol (by decide)⟩

theorem cartOut_same {f : Field} (s : State) (hf : f ∉ [.driveCart, .driveLink] ++ completionFields) : f.same s (cartOut s) := by
  have hout : changesOnly ([.driveCart, .driveLink] ++ completionFields) s (cartOut s) := by
    refine Kept.changesOnly (tidy_kept (by decide +kernel) (onDrive_kept _ (fun d _ => ?_) (fun d => ?_) (Kept.refl _ s)))
    · rintro k ⟨⟩
    · exact { DriveAgree.refl _ d with cart := .inl (by decide +kernel), link := .inl (by decide +kernel) }
  exact hout.2 f hf

theorem cartRemoved_eq (s : State) : cartRemoved s = cartOut (if s.drive.vol.isSome then volumeLost (removalSeen s) else removalSeen s) := rfl

theorem cartRemoved_effects (s : State) : (cartRemoved s).drive.cart = none ∧ (cartRemoved s).drive.vol = none ∧
    (cartRemoved s).pins.cartPresentN = true ∧ (cartRemoved s).blf.latched.getLsbD 4 = true := by
  have hpin := removalSeen_pin s
  have hlatch := getLsbD_latched_latch (i := 4) (by decide) (s.onPins fun p => { p with cartPresentN := true })
  rw [cartRemoved_eq, cartOut_same (f := .pinsCartPresentN) _ (by decide), cartOut_same (f := .blfLatched) _ (by decide), (cartOut_drive _).2]
  refine ⟨(cartOut_drive _).1, ?_⟩
  split
  next =>
    have hkept := volumeLost_kept (Nat.or_self _) (Kept.refl _ (removalSeen s))
    exact ⟨volumeGone_vol _, (hkept.same .pinsCartPresentN rfl).trans hpin, by rw [hkept.same .blfLatched rfl]; exact hlatch⟩
  next h => exact ⟨(removalSeen_vol s).trans (by simpa using h), hpin, hlatch⟩

/-- Settles O29: an insertion into an empty drive, one into a full drive, and a removal. -/
theorem cartridgesComeAndGo : Obligations.CartridgesComeAndGo := by
  unfold Obligations.CartridgesComeAndGo
  refine ⟨fun c s hnone => ?_, fun c k s hin => exec_cartInserted_again c hin, fun s => ⟨cartRemoved s, rfl, cartRemoved_effects s⟩⟩
  obtain ⟨hpin, hvol⟩ := insertionSeen_same s
  exact ⟨cartIn c s, _, exec_cartInserted c hnone, rfl, rfl, Memory.wf_canon c.cm, Memory.read_canon c.cm, hvol, hpin,
    getLsbD_latched_latch (by decide) _, cartIn_changesOnly c s⟩

end Sys2Proof.Machine
end

section
/-! PROOF. LOCATE, READ_POSITION and TRUNCATE: the position of the volume, and the end of a partition (R132, R318, R322). -/

namespace Sys2Proof.Machine

/-! ## A partition of the mounted volume -/

theorem logicalEndOf_eq_partAt (s : State) (p : Nat) : logicalEndOf s p = (partAt s p).logicalEnd := by
  unfold logicalEndOf partAt
  cases s.drive.vol with
  | none => rfl
  | some v =>
    by_cases h : p < 4
    · simp [getAt, h]
    · simp [getAt, h, noPart]

theorem partAt_congr {s t : State} (h : t.drive.vol = s.drive.vol) (p : Nat) : partAt t p = partAt s p := by
  rw [partAt, h, partAt]

/-- The partition is one of a mounted volume. -/
def hasPart (s : State) (p : Nat) : Prop := s.drive.vol.isSome = true ∧ p < 4

theorem hasPart_of_inUse {s : State} {p : Nat} (h : (partAt s p).inUse = true) : hasPart s p := by
  unfold partAt at h
  cases hv : s.drive.vol with
  | none => simp [hv, noPart] at h
  | some v =>
    refine ⟨by rw [hv]; rfl, Nat.lt_of_not_le fun hp => ?_⟩
    simp [hv, getAt, Nat.not_lt.mpr hp, noPart] at h

theorem hasPart_congr {s t : State} {p : Nat} (h : t.drive.vol = s.drive.vol) (hp : hasPart s p) : hasPart t p := by
  rwa [hasPart, h]

theorem hasPart_onPart {s : State} {p : Nat} (q : Nat) (f : Part → Part) (h : hasPart s p) : hasPart (onPart q f s) p := by
  refine ⟨?_, h.2⟩
  simpa [onPart, onVol] using h.1

theorem partAt_onPart {s : State} {p : Nat} (f : Part → Part) (h : hasPart s p) : partAt (onPart p f s) p = f (partAt s p) := by
  obtain ⟨hv, hp⟩ := h
  obtain ⟨v, hv⟩ := Option.isSome_iff_exists.mp hv
  simp only [partAt, onPart, onVol, State.onDrive_drive, hv, Option.map_some]
  exact getAt_updAt_same _ _ _ hp

/-! ## LOCATE (R318) -/

/-- Setting the position touches the volume only. -/
theorem setPosition_changesOnly (p lon : Nat) (s : State) : changesOnly [.driveVol] s (setPosition p lon s) :=
  (setPosition_kept p lon (by decide +kernel) (Kept.refl (fieldMask [.driveVol]) s)).changesOnly

theorem setPosition_vol {s t : State} {v : Volume} (p lon : Nat) (hv : s.drive.vol = some v) (h : t.drive.vol = s.drive.vol) :
    (setPosition p lon t).drive.vol = some { v with posPart := p, posLon := lon } := by
  simp [setPosition, onVol, h, hv]

/-- The read-ahead stays where it holds the object, and goes otherwise (R132). -/
def readAheadKept (o : Obj) (s : State) : State := if inReadAhead s o then s else dropReads s

theorem readAheadKept_vol (o : Obj) (s : State) : (readAheadKept o s).drive.vol = s.drive.vol := by
  unfold readAheadKept
  split
  · rfl
  · exact (dropReads_drive_cmds s).1

theorem readAheadKept_sets {o : Obj} {s : State} (h : inReadAhead s o = false) : (readAheadKept o s).rd.sets = [] := by
  have hdiscarded : (discardReadAhead s).rd.sets = [] := rfl
  rw [readAheadKept, if_neg (by simp [h])]
  unfold dropReads
  dsimp only
  split
  · exact ((endRun_kept rfl (Kept.refl (allBut .rdSets) _)).same .rdSets rfl).trans hdiscarded
  · exact hdiscarded

/-- At the logical end the read-ahead stays where it reaches there. -/
def endReadAhead (p x : Nat) (s : State) : State := if covered s p x then s else discardReadAhead s

theorem endReadAhead_vol (p x : Nat) (s : State) : (endReadAhead p x s).drive.vol = s.drive.vol := by
  unfold endReadAhead
  split <;> rfl

section
variable {s : State} {q : Fin 256} {tag : BitVec 16} {c : Cmd}

theorem exec_locate (h : inHand s q.val tag.toNat opLocate c) : exec (.locate q tag) s = .next (locate c s) := by
  change execLocate q tag s = _
  rw [execLocate, goLive_of_live _ h.1, h.2]

theorem locate_unmounted (hv : s.drive.vol = none) : locate c s = reply c.qid c.tag 0x0411 0 s := by
  simp [locate, hv]

theorem locate_unused (hv : s.drive.vol.isSome = true) (hu : (partAt s (partField c.entry)).inUse = false) :
    locate c s = reply c.qid c.tag 0x0101 0 s := by
  simp [locate, Option.isNone_eq_false_iff.mpr hv, hu]

variable (hu : (partAt s (partField c.entry)).inUse = true)
include hu

theorem locate_above (hx : logicalEndOf s (partField c.entry) < lonField c.entry) :
    locate c s = reply c.qid c.tag 0x0401 (logicalEndOf s (partField c.entry))
      (setPosition (partField c.entry) (logicalEndOf s (partField c.entry)) s) := by
  simp [locate, Option.isNone_eq_false_iff.mpr (hasPart_of_inUse hu).1, hu, hx]

theorem locate_end (hx : lonField c.entry = logicalEndOf s (partField c.entry)) :
    locate c s = reply c.qid c.tag 0 (lonField c.entry)
      (setPosition (partField c.entry) (lonField c.entry) (endReadAhead (partField c.entry) (lonField c.entry) s)) := by
  simp [locate, Option.isNone_eq_false_iff.mpr (hasPart_of_inUse hu).1, hu, hx, endReadAhead]

theorem locate_object {o : Obj} (hx : lonField c.entry < logicalEndOf s (partField c.entry))
    (ho : locateObj s (partField c.entry) (lonField c.entry) = .object o) :
    locate c s = reply c.qid c.tag 0 (lonField c.entry) (setPosition (partField c.entry) (lonField c.entry) (readAheadKept o s)) := by
  simp [locate, Option.isNone_eq_false_iff.mpr (hasPart_of_inUse hu).1, hu, Nat.lt_asymm hx, Nat.ne_of_lt hx, ho, readAheadKept]

end

/-! ## READ_POSITION (R318) -/

/-- The block is in the host's memory where DP0 asks for it. -/
def positionGiven (c : Cmd) (v : Volume) (s : State) : State :=
  if dp0 c.entry = 0 then s else hostWrites c.qid c.tag [(dp0 c.entry, positionBlock v s)] s

theorem positionGiven_changesOnly (c : Cmd) (v : Volume) (s : State) : changesOnly [.hostCmds, .out] s (positionGiven c v s) := by
  refine Kept.changesOnly ?_
  unfold positionGiven
  split
  · exact Kept.refl _ s
  · exact hostWrites_kept _ _ _ (by decide +kernel) (Kept.refl _ s)

section
variable {s : State} {q : Fin 256} {tag : BitVec 16} {c : Cmd}

theorem exec_readPosition (h : inHand s q.val tag.toNat opReadPosition c) : exec (.readPosition q tag) s = .next (readPosition c s) := by
  change execReadPosition q tag s = _
  rw [execReadPosition, goLive_of_live _ h.1, h.2]

theorem readPosition_unmounted (hv : s.drive.vol = none) : readPosition c s = reply c.qid c.tag 0x0411 0 s := by
  rw [readPosition, hv]

theorem readPosition_mounted {v : Volume} (hv : s.drive.vol = some v) :
    readPosition c s = reply c.qid c.tag 0 v.posLon (positionGiven c v s) := by
  rw [readPosition, hv]
  rfl

end

/-! ## TRUNCATE (R322) -/

theorem discardFrom_vol (p x : Nat) (s : State) : (discardFrom p x s).drive.vol = s.drive.vol :=
  (discardFrom_kept p x rfl (Kept.refl (allBut .driveVol) s)).same .driveVol rfl

theorem hasPart_rewind {s : State} {p x : Nat} (h : hasPart s p) : hasPart (rewind p x s) p := by
  unfold rewind
  split
  · exact h
  · dsimp only
    split
    · exact h
    · refine hasPart_onPart _ _ ?_
      split
      · exact hasPart_congr ((endRun_kept rfl (Kept.refl (allBut .driveVol) s)).same .driveVol rfl) h
      · exact h

theorem stageEod_part {s : State} {p : Nat} (lon : Nat) (h : hasPart s p) :
    partAt (stageEod p lon s) p = { partAt s p with dirty := false, endLon := lon } := by
  have hvol : ∀ d, (stage d (closePayload p s)).drive.vol = s.drive.vol := fun d =>
    (stage_kept d rfl (Kept.refl (allBut .driveVol) (closePayload p s))).same .driveVol rfl
  rw [stageEod, partAt_onPart _ (hasPart_congr (hvol _) h), partAt_congr (hvol _)]

/-- The partition ends at the object, and is not full. -/
theorem takeBack_part {s : State} {p : Nat} (x : Nat) (h : hasPart s p) :
    (partAt (takeBack p x s) p).logicalEnd = x ∧ (partAt (takeBack p x s) p).full = false := by
  have hrewound : hasPart (rewind p x (discardFrom p x s)) p := hasPart_rewind (hasPart_congr (discardFrom_vol p x s) h)
  have hcut := fun f => hasPart_onPart p f hrewound
  unfold takeBack truncateAt
  dsimp only
  rw [stageEod_part _ (hasPart_onPart _ _ (hcut _)), partAt_onPart _ (hcut _), partAt_onPart _ hrewound]
  exact ⟨rfl, rfl⟩

section
variable {s : State} {q : Fin 256} {tag : BitVec 16} {c : Cmd}

theorem exec_truncate (h : inHand s q.val tag.toNat opTruncate c) : exec (.truncate q tag) s = .next (truncate c s) := by
  change execTruncate q tag s = _
  rw [execTruncate, goLive_of_live _ h.1, h.2]

theorem truncate_unmounted (hv : s.drive.vol = none) : truncate c s = reply c.qid c.tag 0x0411 0 s := by
  simp [truncate, hv]

variable (hu : (partAt s (partField c.entry)).inUse = true)
include hu

theorem truncate_readOnly (hw : writable s = false) : truncate c s = reply c.qid c.tag 0x0415 0 s := by
  simp [truncate, Option.isNone_eq_false_iff.mpr (hasPart_of_inUse hu).1, hu, hw]

variable (hw : writable s = true)
include hw

theorem truncate_above (hx : logicalEndOf s (partField c.entry) < lonField c.entry) : truncate c s = reply c.qid c.tag 0x0401 0 s := by
  simp [truncate, Option.isNone_eq_false_iff.mpr (hasPart_of_inUse hu).1, hu, hw, hx]

theorem truncate_takes_back (hx : lonField c.entry ≤ logicalEndOf s (partField c.entry)) (hd : durableFlag c.entry = false) :
    truncate c s = reply c.qid c.tag 0 (logicalEndOf s (partField c.entry) - lonField c.entry)
      (takeBack (partField c.entry) (lonField c.entry) s) := by
  simp [truncate, Option.isNone_eq_false_iff.mpr (hasPart_of_inUse hu).1, hu, hw, Nat.not_lt.mpr hx, hd]

end

/-- Settles O36: each clause is the case of its command that its hypotheses name. -/
theorem positionCommandsDoAsTheySay : Obligations.PositionCommandsDoAsTheySay := by
  unfold Obligations.PositionCommandsDoAsTheySay
  refine ⟨fun s q tag c h => ?locate, fun s q tag c h => ?position, fun s q tag c h => ?truncate⟩
  all_goals obtain ⟨hqid, htag⟩ := qid_tag_of_inHand h
  case locate =>
    refine ⟨fun hv => ?_, fun v hv hu => ?_, fun v hv hu => ⟨fun hx => ?_, fun hx => ?_, fun hx o ho => ?_⟩⟩
    · rw [answers, exec_locate h, locate_unmounted hv, hqid, htag]
    · rw [answers, exec_locate h, locate_unused (by rw [hv]; rfl) hu, hqid, htag]
    · exact ⟨_, by rw [answers, exec_locate h, locate_above hu hx, hqid, htag], setPosition_changesOnly _ _ s, setPosition_vol _ _ hv rfl⟩
    · exact ⟨_, by rw [answers, exec_locate h, locate_end hu hx, hqid, htag], setPosition_vol _ _ hv (endReadAhead_vol _ _ s)⟩
    · refine ⟨_, by rw [answers, exec_locate h, locate_object hu hx ho, hqid, htag], setPosition_vol _ _ hv (readAheadKept_vol o s),
        fun hin => ?_, readAheadKept_sets⟩
      rw [readAheadKept, if_pos hin]
      exact setPosition_changesOnly _ _ s
  case position =>
    refine ⟨fun hv => ?_, fun v hv => ⟨positionGiven c v s, ?_, positionGiven_changesOnly c v s, length_fit _ _⟩⟩
    · rw [answers, exec_readPosition h, readPosition_unmounted hv, hqid, htag]
    · rw [answers, exec_readPosition h, readPosition_mounted hv, hqid, htag]
  case truncate =>
    refine ⟨fun hv => ?_, fun hu hw => ?_, fun hu hw hx => ?_, fun hu hw hx hd => ⟨takeBack (partField c.entry) (lonField c.entry) s, ?_, ?_⟩⟩
    · rw [answers, exec_truncate h, truncate_unmounted hv, hqid, htag]
    · rw [answers, exec_truncate h, truncate_readOnly hu hw, hqid, htag]
    · rw [answers, exec_truncate h, truncate_above hu hw hx, hqid, htag]
    · rw [answers, exec_truncate h, truncate_takes_back hu hw hx hd, hqid, htag]
    · rw [logicalEndOf_eq_partAt]
      exact takeBack_part _ (hasPart_of_inUse hu)

end Sys2Proof.Machine
end

section
/-! PROOF. TABLE_LOAD: a table refused, one whose flash fails, and one that takes effect as its TYPE asks (R202, R317, R365). -/

namespace Sys2Proof.Machine

/-- The trust is the same when the mask takes in none of its fields. -/
theorem TrustAgree.eq_of_outside {m : Nat} {a b : Trust} (h : TrustAgree m a b) (hm : (m >>> 38) % 2 ^ 15 = 0) : b = a := by
  have hclear : ∀ i < 15, m.testBit (38 + i) = false := fun i hi => testBit_of_clear hm (Nat.le_add_right _ _) (Nat.add_lt_add_left hi _)
  cases a
  cases b
  simp only [Trust.mk.injEq]
  exact ⟨Mask.out h.press (hclear 0 (by decide)), Mask.out h.sealOk (hclear 1 (by decide)),
    Mask.out h.sealBroken (hclear 2 (by decide)), Mask.out h.lfsr (hclear 3 (by decide)),
    Mask.out h.mismatches (hclear 4 (by decide)), Mask.out h.debug (hclear 5 (by decide)),
    Mask.out h.permit (hclear 6 (by decide)), Mask.out h.cause (hclear 7 (by decide)), Mask.out h.lifetime (hclear 8 (by decide)),
    Mask.out h.tableKey (hclear 9 (by decide)), Mask.out h.signers (hclear 10 (by decide)),
    Mask.out h.tables (hclear 11 (by decide)), Mask.out h.steepleNext (hclear 12 (by decide)),
    Mask.out h.headNext (hclear 13 (by decide)), Mask.out h.subsystem (hclear 14 (by decide))⟩

@[simp] theorem lantern_trust (code : Nat) (data : Bytes) (s : State) : (lantern code data s).trust = s.trust :=
  (lantern_kept code data (Nat.or_self _) (Kept.refl _ s)).trust.eq_of_outside rfl

/-! ## An accepted table (Table 12-9) -/

/-- An accepted table is in its flash region, and its record is made (R365). -/
def tableStored (t : Nat) (data : Bytes) (s : State) : State := lantern 0x0071 (le 1 t ++ le 1 0) (flashTable t data s)

theorem tableStored_trust (t : Nat) (data : Bytes) (s : State) : (tableStored t data s).trust = s.trust := lantern_trust _ _ _

theorem tableStored_stp (t : Nat) (data : Bytes) (s : State) : (tableStored t data s).stp = s.stp := lantern_stp _ _ _

/-- The table of a TYPE is in force (Table 12-9). -/
def tableTaken (t : Nat) (data : Bytes) (s : State) : State :=
  takeTable t (data.take manifestLen) (slice data (manSeg data 0).1 (manSeg data 0).2.1) (tableStored t data s)

theorem madeRecord_tableTaken (t : Nat) (data : Bytes) (s : State) : madeRecord 0x0071 (le 1 t ++ le 1 0) s (tableTaken t data s) := by
  have hmade : madeRecord 0x0071 (le 1 t ++ le 1 0) s (tableStored t data s) := madeRecord_lantern (by decide) _ (flashTable t data s)
  exact hmade.of_ring ((takeTable_kept _ _ _ rfl (Kept.refl (allBut .lanternRing) _)).same .lanternRing rfl)

theorem readBytes_tableTaken (t : Nat) (data : Bytes) {s : State} (h : Memory.wf s.boot.flash) :
    Memory.readBytes (tableTaken t data s).boot.flash (tableBase t) data.length = data := by
  have htaken : (tableTaken t data s).boot.flash = (tableStored t data s).boot.flash :=
    (takeTable_kept _ _ _ rfl (Kept.refl (allBut .bootFlash) _)).same .bootFlash rfl
  have hstored : (tableStored t data s).boot.flash = (flashTable t data s).boot.flash :=
    (lantern_changesOnly _ _ _).2 .bootFlash (by decide)
  rw [htaken, hstored]
  exact Memory.readBytes_writeBytes data _ (Memory.wf_erase _ _ h)

section
variable (data : Bytes) (s : State)

/-- Its manifest and its content, as they come into force. -/
def tableOf : Option (Bytes × Bytes) := some (data.take manifestLen, slice data (manSeg data 0).1 (manSeg data 0).2.1)

theorem tableTaken_channel : (tableTaken 1 data s).trust.tables = putAt s.trust.tables 0 (tableOf data) ∧
    (tableTaken 1 data s).tiles.savedTaps = [] := by
  refine ⟨?_, rfl⟩
  rw [← tableStored_trust 1 data s]
  rfl

theorem tableTaken_steeple_off (h : s.stp.mode = .off) : (tableTaken 2 data s).trust.tables = putAt s.trust.tables 1 (tableOf data) ∧
    (tableTaken 2 data s).stp.thetaCal = 0 := by
  have hmode : (tableStored 2 data s).stp.mode = .off := by rw [tableStored_stp, h]
  have htaken : tableTaken 2 data s = installSteeple ((tableStored 2 data s).onTrust fun k => { k with steepleNext := tableOf data }) :=
    if_pos hmode
  rw [htaken, ← tableStored_trust 2 data s]
  exact ⟨rfl, rfl⟩

theorem tableTaken_steeple_waits (h : s.stp.mode ≠ .off) : (tableTaken 2 data s).trust.steepleNext = tableOf data ∧
    (tableTaken 2 data s).trust.tables = s.trust.tables := by
  have hmode : (tableStored 2 data s).stp.mode ≠ .off := by rwa [tableStored_stp]
  have htaken : tableTaken 2 data s = (tableStored 2 data s).onTrust fun k => { k with steepleNext := tableOf data } := if_neg hmode
  rw [htaken, ← tableStored_trust 2 data s]
  exact ⟨rfl, rfl⟩

theorem tableTaken_third : (tableTaken 3 data s).trust.tables = putAt s.trust.tables 2 (tableOf data) := by
  rw [← tableStored_trust 3 data s]
  rfl

theorem tableTaken_head : (tableTaken 4 data s).trust.headNext = tableOf data ∧ (tableTaken 4 data s).trust.tables = s.trust.tables := by
  rw [← tableStored_trust 4 data s]
  exact ⟨rfl, rfl⟩

theorem tableTaken_device : (tableTaken 5 data s).trust = s.trust := tableStored_trust 5 data s

end

/-! ## The command -/

section
variable {s : State} {tag : BitVec 16} {data : Bytes} {c : Cmd}

theorem exec_tableLoad (ok : Bool) (h : inHand s 0 tag.toNat opTableLoad c) :
    exec (.tableLoad tag data ok) s = .next (loadTable (fit (lengthField c.entry) data) ok c s) := by
  change execTableLoad tag data ok s = _
  rw [execTableLoad, goLive_of_live _ h.1, adminRun_of_inHand _ h]

theorem loadTable_refused {code : Nat} (ok : Bool) (h : tableRefusal s (specField c.entry 48 1) data = some code) :
    loadTable data ok c s = reply c.qid c.tag 0x0605 0 (lantern 0x0071 (le 1 (specField c.entry 48 1) ++ le 1 code) s) := by
  unfold loadTable
  dsimp only
  rw [h]
  rfl

theorem loadTable_flash_fails (h : tableRefusal s (specField c.entry 48 1) data = none) :
    loadTable data false c s = reply c.qid c.tag 0x0604 0 (flashTable (specField c.entry 48 1) [] s) := by
  unfold loadTable
  dsimp only
  rw [h]
  rfl

theorem loadTable_accepted (h : tableRefusal s (specField c.entry 48 1) data = none) :
    loadTable data true c s = reply c.qid c.tag 0 0 (tableTaken (specField c.entry 48 1) data s) := by
  unfold loadTable
  dsimp only
  rw [h]
  rfl

end

/-- Settles O34: a refused table, one whose flash fails, and an accepted one of each TYPE. -/
theorem tablesTakeEffectAsTheirTypeAsks : Obligations.TablesTakeEffectAsTheirTypeAsks := by
  unfold Obligations.TablesTakeEffectAsTheirTypeAsks
  intro s tag data c h ty d new
  obtain ⟨hqid, htag⟩ := qid_tag_of_inHand h
  refine ⟨fun code ok href => ?refused, fun hacc => ?fails, fun hacc hwf => ?accepted⟩
  case refused =>
    exact ⟨_, by rw [answers, exec_tableLoad ok h, loadTable_refused ok href, hqid, htag], madeRecord_lantern (by decide) _ s,
      lantern_changesOnly _ _ s⟩
  case fails =>
    exact ⟨flashTable ty [] s, by rw [answers, exec_tableLoad false h, loadTable_flash_fails hacc, hqid, htag], rfl⟩
  case accepted =>
    have hflash := readBytes_tableTaken ty d hwf
    rw [length_fit] at hflash
    refine ⟨tableTaken ty d s, by rw [answers, exec_tableLoad true h, loadTable_accepted hacc, hqid, htag], hflash,
      madeRecord_tableTaken ty d s, ?_⟩
    refine ⟨fun ht => ?_, fun ht hoff => ?_, fun ht hon => ?_, fun ht => ?_, fun ht => ?_, fun ht => ?_⟩ <;> rw [ht]
    · exact tableTaken_channel d s
    · exact tableTaken_steeple_off d s hoff
    · exact tableTaken_steeple_waits d s hon
    · exact tableTaken_third d s
    · exact tableTaken_head d s
    · exact tableTaken_device d s

end Sys2Proof.Machine
end

section
/-! PROOF. FW_STAGE and FW_ACTIVATE: a chunk in the spare slot, and an activation that is refused, acts at once, or becomes pending (R296,
R315, R361, R390). -/

namespace Sys2Proof.Machine

/-- An erased range leaves every address outside it alone. -/
theorem Memory.read_erase_other {m : Cells} {x n y : Nat} (h : y < x ∨ x + n ≤ y) : Memory.read (Memory.erase m x n) y = Memory.read m y := by
  induction m with
  | nil => rfl
  | cons e m ih =>
    obtain ⟨a, b⟩ := e
    by_cases hin : a < x ∨ x + n ≤ a
    · have hstays : Memory.erase ((a, b) :: m) x n = (a, b) :: Memory.erase m x n := by simp [Memory.erase, hin]
      rw [hstays, Memory.read, ih, Memory.read]
    · have hgoes : Memory.erase ((a, b) :: m) x n = Memory.erase m x n := by simp [Memory.erase, hin]
      rw [hgoes, ih, Memory.read, if_neg (by omega)]

/-! ## FW_STAGE (R315) -/

theorem endActivate_of_none {s : State} (st : Nat) (h : s.boot.activation = none) : endActivate st s = s := by
  rw [endActivate, h]

/-- The first chunk comes to an erased slot. -/
def slotReady (off : Nat) (s : State) : State := if off = 0 then eraseSpare s else s

/-- The address lies outside the slot that is not running. -/
def outsideSpare (s : State) (a : Nat) : Prop := a < fwSlotBase (spareSlot s) ∨ fwSlotBase (spareSlot s) + fwSlotLen ≤ a

section
variable {s : State} {off : Nat} (ha : s.boot.activation = none)
include ha

theorem slotReady_zero : (slotReady 0 s).boot = { s.boot with
    flash := Memory.erase s.boot.flash (fwSlotBase (spareSlot s)) fwSlotLen, staged := 0, stagedOk := false, stagedPermit := false, activation := none } := by
  rw [slotReady, if_pos rfl, eraseSpare, endActivate_of_none _ ha]

theorem slotReady_activation : (slotReady off s).boot.activation = none := by
  by_cases h : off = 0
  · rw [h, slotReady_zero ha]
  · rwa [slotReady, if_neg h]

theorem slotReady_staged (hoff : off = 0 ∨ off = s.boot.staged) : (slotReady off s).boot.staged = off := by
  by_cases h : off = 0
  · rw [h, slotReady_zero ha]
  · rw [slotReady, if_neg h, hoff.resolve_left h]

theorem slotReady_wf (hwf : Memory.wf s.boot.flash) : Memory.wf (slotReady off s).boot.flash := by
  by_cases h : off = 0
  · rw [h, slotReady_zero ha]
    exact Memory.wf_erase _ _ hwf
  · rwa [slotReady, if_neg h]

theorem slotReady_read {a : Nat} (hout : outsideSpare s a) : Memory.read (slotReady off s).boot.flash a = Memory.read s.boot.flash a := by
  by_cases h : off = 0
  · rw [h, slotReady_zero ha]
    exact Memory.read_erase_other hout
  · rw [slotReady, if_neg h]

end

/-- The chunk is at its offset in the slot that is not running. -/
def chunkStored (off : Nat) (data : Bytes) (s : State) : State :=
  (slotReady off s).onBoot fun b => { b with
    flash := Memory.writeBytes b.flash (fwSlotBase (spareSlot s) + off) data, staged := off + data.length, stagedOk := false }

theorem chunkStored_readBytes {s : State} {off : Nat} (data : Bytes) (ha : s.boot.activation = none) (hwf : Memory.wf s.boot.flash) :
    Memory.readBytes (chunkStored off data s).boot.flash (fwSlotBase (spareSlot s) + off) data.length = data :=
  Memory.readBytes_writeBytes data _ (slotReady_wf ha hwf)

theorem chunkStored_read {s : State} {off a : Nat} {data : Bytes} (ha : s.boot.activation = none) (hfits : off + data.length ≤ fwSlotLen)
    (hout : outsideSpare s a) : Memory.read (chunkStored off data s).boot.flash a = Memory.read s.boot.flash a := by
  have haway : a < fwSlotBase (spareSlot s) + off ∨ fwSlotBase (spareSlot s) + off + data.length ≤ a := by
    unfold outsideSpare at hout
    omega
  exact (Memory.read_writeBytes_other data haway).trans (slotReady_read ha hout)

section
variable {s : State} {tag : BitVec 16} {data : Bytes} {ok : Bool} {c : Cmd}

theorem exec_fwStage (h : inHand s 0 tag.toNat opFwStage c) : exec (.fwStage tag data ok) s = .next (stageChunk data ok c s) := by
  change execFwStage tag data ok s = _
  rw [execFwStage, goLive_of_live _ h.1, adminRun_of_inHand _ h]

theorem stageChunk_stores (ha : s.boot.activation = none) (hoff : specField c.entry 52 4 = 0 ∨ specField c.entry 52 4 = s.boot.staged)
    (hfits : specField c.entry 52 4 + lengthField c.entry ≤ fwSlotLen) (hmore : (specField c.entry 49 1).testBit 0 = false) :
    stageChunk data true c s = reply c.qid c.tag 0 (specField c.entry 52 4 + lengthField c.entry)
      (chunkStored (specField c.entry 52 4) (fit (lengthField c.entry) data) s) := by
  have hplace : ¬(specField c.entry 52 4 ≠ (slotReady (specField c.entry 52 4) s).boot.staged ∨
      fwSlotLen < specField c.entry 52 4 + lengthField c.entry) := by
    rw [slotReady_staged ha hoff]
    omega
  rw [chunkStored, length_fit]
  exact (if_neg hplace).trans ((if_neg (by decide)).trans (if_neg (by simp [hmore])))

theorem stageChunk_out_of_place (h : (specField c.entry 52 4 ≠ 0 ∧ specField c.entry 52 4 ≠ s.boot.staged) ∨
    fwSlotLen < specField c.entry 52 4 + lengthField c.entry) : stageChunk data ok c s = reply c.qid c.tag 0x0101 0 s := by
  have hplace : specField c.entry 52 4 ≠ (slotReady (specField c.entry 52 4) s).boot.staged ∨
      fwSlotLen < specField c.entry 52 4 + lengthField c.entry :=
    h.imp_left fun ⟨hfirst, hnext⟩ => by rwa [slotReady, if_neg hfirst]
  exact if_pos hplace

end

/-! ## FW_ACTIVATE (R296, R361, R390) -/

section
variable {s : State} {tag : BitVec 16} {c : Cmd}

theorem exec_fwActivate (h : inHand s 0 tag.toNat opFwActivate c) : exec (.fwActivate tag) s = .next (activate c s) := by
  change execFwActivate tag s = _
  rw [execFwActivate, goLive_of_live _ h.1, adminRun_of_inHand _ h]

theorem activate_unverified (hok : s.boot.stagedOk = false) : activate c s = reply c.qid c.tag 0x0603 0 s := by
  simp [activate, hok, adminDone]

variable (hok : s.boot.stagedOk = true)
include hok

theorem activate_lacking (hl : activationLacks s ≠ none) : activate c s = reply c.qid c.tag 0x0606 0 s := by
  simp [activate, hok, Option.isSome_iff_ne_none.mpr hl, adminDone]

variable (hl : activationLacks s = none)
include hl

theorem activate_fallback (hp : s.boot.phase = .fallback) : activate c s = activateFallback c s := by
  simp [activate, hok, hl, hp]

theorem activate_begins (hp : s.boot.phase = .normal) (ha : s.boot.activation = none) :
    activate c s = beginActivation (specField c.entry 48 1) c s := by
  simp [activate, hok, hl, hp, ha]

end

/-- A part reset holds the part; the slot that is preferred and the failed starts stay (R351). -/
theorem partReset_boot (cause : Nat) (s : State) : (partReset cause s).boot.phase = .held ∧ (partReset cause s).boot.fails = s.boot.fails ∧
    (partReset cause s).boot.preferred = s.boot.preferred := by
  have hrecord := (lantern_changesOnly 0x0002 [BitVec.ofNat 8 cause] s).2
  have hstop := (stopTokens_changesOnly (lantern 0x0002 [BitVec.ofNat 8 cause] s)).2
  exact ⟨rfl, (hstop .bootFails (by decide)).trans (hrecord .bootFails (by decide)),
    (hstop .bootPreferred (by decide)).trans (hrecord .bootPreferred (by decide))⟩

theorem activateFallback_boot (c : Cmd) (s : State) : (activateFallback c s).boot.phase = .held ∧ (activateFallback c s).boot.fails = 0 ∧
    (activateFallback c s).boot.preferred = otherPort s.boot.slot :=
  partReset_boot 2 _

/-- An activation is pending in a mode, for a command that waits for it or for none, and nothing is held (R296). -/
def activationPending (mode : Nat) (w : Option (BitVec 16)) (s : State) : State :=
  (s.onHost fun h => { h with holdForSwitch := false }).onBoot fun b => { b with activation := some (mode, w) }

theorem activationPending_kept {m : Nat} {s : State} (mode : Nat) (w : Option (BitVec 16))
    (hm : fieldMask [.bootActivation, .hostHoldForSwitch] ||| m = m) : Kept m s (activationPending mode w s) := by
  refine onBoot_kept _ (fun _ => BootKept.of_eq rfl rfl rfl rfl rfl) (fun b => ?_) (onHost_kept _ (fun h => ?_) (Kept.refl _ s))
  · exact { BootAgree.refl _ b with activation := .inl (Mask.bit hm (by decide +kernel)) }
  · exact { HostAgree.refl _ h with holdForSwitch := .inl (Mask.bit hm (by decide +kernel)) }

theorem activationPending_changesOnly (mode : Nat) (w : Option (BitVec 16)) (s : State) :
    changesOnly [.bootActivation, .hostHoldForSwitch] s (activationPending mode w s) :=
  (activationPending_kept mode w (Nat.or_self _)).changesOnly

/-- An activation is pending in mode 1, and its command keeps the tick of its timeout. -/
def idleAwaited (c : Cmd) (tag : BitVec 16) (s : State) : State :=
  onCmd c.qid c.tag (fun k => { k with goal := s.power.time + 1000 * specField c.entry 52 4 * msTicks }) (activationPending 1 (some tag) s)

theorem idleAwaited_changesOnly (c : Cmd) (tag : BitVec 16) (s : State) :
    changesOnly [.bootActivation, .hostHoldForSwitch, .hostCmds] s (idleAwaited c tag s) :=
  (onCmd_kept _ _ _ (by decide +kernel) (activationPending_kept 1 (some tag) (by decide +kernel))).changesOnly

theorem cmdOf_idleAwaited {c : Cmd} {s : State} (tag : BitVec 16) (h : cmdOf s c.qid c.tag = some c) :
    cmdOf (idleAwaited c tag s) c.qid c.tag = some { c with goal := s.power.time + 1000 * specField c.entry 52 4 * msTicks } :=
  (cmdOf_onCmd (by exact fun _ => ⟨rfl, rfl⟩) _).trans (congrArg (Option.map _) h)

section
variable {s : State} {c : Cmd} (ha : s.boot.activation = none)
include ha

theorem beginActivation_unmounted (hv : s.drive.vol = none) :
    beginActivation 0 c s = activationPending 0 (some (BitVec.ofNat 16 c.tag)) s := by
  simp [beginActivation, endActivate_of_none _ ha, hv, activationPending]

theorem beginActivation_mounted (hv : s.drive.vol ≠ none) :
    beginActivation 0 c s = reply c.qid c.tag 0x0600 0 (activationPending 0 none s) := by
  simp [beginActivation, endActivate_of_none _ ha, hv, activationPending, adminDone]

theorem beginActivation_idle : beginActivation 1 c s = idleAwaited c (BitVec.ofNat 16 c.tag) s := by
  simp [beginActivation, endActivate_of_none _ ha, activationPending, idleAwaited]

end

/-- Settles O32: a chunk that is stored, one out of place, and each way an activation goes. -/
theorem firmwareIsStagedThenActivated : Obligations.FirmwareIsStagedThenActivated := by
  unfold Obligations.FirmwareIsStagedThenActivated
  refine ⟨fun s tag data c h ha hwf hoff hfits hmore => ?stored, fun s tag data ok c h hplace => ?misplaced, fun s tag c h => ?activate⟩
  all_goals obtain ⟨hqid, htag⟩ := qid_tag_of_inHand h
  case stored =>
    have hlen := length_fit (lengthField c.entry) data
    have hread := chunkStored_readBytes (off := specField c.entry 52 4) (fit (lengthField c.entry) data) ha hwf
    rw [hlen] at hread
    refine ⟨chunkStored (specField c.entry 52 4) (fit (lengthField c.entry) data) s,
      by rw [answers, exec_fwStage h, stageChunk_stores ha hoff hfits hmore, hqid, htag], congrArg _ hlen, rfl,
      slotReady_activation ha, hread, fun a hout => chunkStored_read ha (by rwa [hlen]) hout⟩
  case misplaced => rw [answers, exec_fwStage h, stageChunk_out_of_place hplace, hqid, htag]
  case activate =>
    have hbits : BitVec.ofNat 16 c.tag = tag := by simp [htag]
    refine ⟨fun hok => ?_, fun hok hl => ?_, fun hok hl hp => ⟨_, ?_, activateFallback_boot c s⟩,
      fun hok hl hp ha hmode => ⟨fun hv => ?_, fun hv => ?_⟩, fun hok hl hp ha hmode => ?_⟩
    · rw [answers, exec_fwActivate h, activate_unverified hok, hqid, htag]
    · rw [answers, exec_fwActivate h, activate_lacking hok hl, hqid, htag]
    · rw [exec_fwActivate h, activate_fallback hok hl hp]
    · exact ⟨activationPending 0 (some tag) s,
        by rw [exec_fwActivate h, activate_begins hok hl hp ha, hmode, beginActivation_unmounted ha hv, hbits], rfl, rfl,
        activationPending_changesOnly _ _ s⟩
    · exact ⟨activationPending 0 none s,
        by rw [answers, exec_fwActivate h, activate_begins hok hl hp ha, hmode, beginActivation_mounted ha hv, hqid, htag], rfl,
        activationPending_changesOnly _ _ s⟩
    · have hcmd := cmdOf_idleAwaited tag (c := c) (s := s) (by rw [hqid, htag]; exact cmdOf_of_startedCmd h.2)
      rw [hqid, htag] at hcmd
      refine ⟨idleAwaited c tag s, _, by rw [exec_fwActivate h, activate_begins hok hl hp ha, hmode, beginActivation_idle ha, hbits], rfl, hcmd, ?_,
        idleAwaited_changesOnly c tag s⟩
      change s.power.time + 1000 * specField c.entry 52 4 * 100000 = _
      omega

end Sys2Proof.Machine
end

section
/-! PROOF. WRITE_MARK: with the staging full and a tape that cannot move a mark is refused like any write (R321, R445), so that one mark is
not always packed at once. -/

namespace Sys2Proof.Machine

/-- Queue 1, whose active port is A. -/
def markQueue : QueuePair :=
  { qid := 1, sqSize := 8, cqSize := 8, sqBase := 4096, cqBase := 8192, vector := 1, group := 0, strict := false, pref := .a, active := .a,
    multipath := false, version := 0x12, sqTail := 0, sqNext := 0, exposed := [], cqTail := 0, cqHead := 0, phase := true, seq := 0,
    posted := [], heldComps := [], heldTail := none }

/-- A WRITE_MARK of one mark at LON 0 of partition 0, without a key, under tag 7 (Table 11-4). -/
def markCmd : Cmd :=
  { qid := 1, tag := 7, order := (0, 0),
    entry := le 1 opWriteMark ++ zeros 1 ++ le 2 7 ++ zeros 1 ++ [0xFF] ++ zeros 10 ++ le 8 1 ++ zeros 40,
    phase := .started, segs := [], writes := [], sent := 0, count := 0, used := 0, inRec := 0, lon := 0, goal := 0, keys := [], reserved := 0,
    met := [], waits := [], after := [] }

/-- A writable volume of one empty partition on wraps 0 to 19. -/
def emptyVolume : Volume :=
  { readOnly := false, recovered := false, rebuilt := false, blank := false, mountCount := 1, lastRevision := 0x12, generation := 1,
    volumeId := zeros 16, dirty := false, floor := 0x10, dirtyTries := 0, foundBlank := false, tapeId := zeros 16, serial := zeros 16,
    parts := #v[{ noPart with inUse := true, lastWrap := 19, highN := noN }, noPart, noPart, noPart], wraps := [], index := [], posPart := 0,
    posLon := 0, cmRefused := false }

/-- The WRITE_MARK is in hand with the volume mounted and every head-link group up; the staging is full, and Steeple is in FAULT. -/
def stalledDead : State :=
  { State.reset with
    boot := { State.reset.boot with phase := .normal }
    host := { State.reset.host with
      cmds := [markCmd], qps := [markQueue], portA := { State.reset.host.portA with linkUp := true, bme := true, mse := true } }
    drive := { State.reset.drive with vol := some emptyVolume }
    hlk := { State.reset.hlk with
      groups := Vector.replicate 8 { ({} : Group) with state := .up, rxLive := 0xFF, txLive := 3, lock := 0xFF }, groupEn := 0xFF }
    stp := { State.reset.stp with mode := .fault }
    wr := { State.reset.wr with stalled := true } }

theorem markCmd_inHand : inHand stalledDead 1 7 opWriteMark markCmd :=
  ⟨by decide +kernel, by decide +kernel⟩

theorem markCmd_alone : alone stalledDead markCmd markQueue .a := by
  unfold alone
  decide +kernel

/-- Nothing that the checks of a write ask for is amiss. -/
theorem markCmd_unstopped : memoryRefuses stalledDead = false ∧ writeStop stalledDead markCmd 0 = none ∧
    (writeSel stalledDead (slotField markCmd.entry) (groupFloor stalledDead (partField markCmd.entry))).toOption = some ⟨0, 255, 0⟩ ∧
    roomLacks stalledDead ⟨0, 255, 0⟩ 1 = false := by decide +kernel

theorem markCmd_fields : durableFlag markCmd.entry = false ∧ markCmd.met = [] ∧ countField markCmd.entry = 1 ∧
    lonField markCmd.entry = logicalEndOf stalledDead (partField markCmd.entry) := by decide +kernel

theorem stalledDead_idle : reading stalledDead = false ∧ stalledDead.cz.finished = [] ∧ stalledDead.cz.source = [] ∧
    ∀ e ∈ stalledDead.cz.engines.toList, e = [] := by decide +kernel

/-- Status and RESULT of a queue's newest completion. -/
def newestOutcome (s : State) (q : Nat) : Option (Nat × Nat) :=
  (qpOf s q).bind fun y => y.posted.getLast?.map fun e => (e.comp.status, e.comp.result)

theorem completed.newestOutcome {t : State} {c : Cmd} {st res : Nat} (h : completed t c st res) : newestOutcome t c.qid = some (st, res) := by
  obtain ⟨-, y, e, hy, hlast, -, hst, hres⟩ := h
  simp [Machine.newestOutcome, hy, hlast, hst, hres]

/-- The state behind a step that goes on. -/
def stateOf (o : Host.Outcome State Fault Refusal) : Option State := match o with | .next t => some t | _ => none

/-- The staging is full and the tape cannot move: the mark ends with 0x0416 and RESULT 0 (R445). -/
theorem markCmd_refused : (stateOf (exec (.writeMark 1 7) stalledDead)).bind (newestOutcome · 1) = some (0x0416, 0) := by decide +kernel

theorem ok_of_toOption {ε α : Type} {r : Except ε α} {a : α} (h : r.toOption = some a) : r = .ok a := by
  cases r with
  | error e => exact absurd h nofun
  | ok b => exact congrArg Except.ok (Option.some.inj h)

/-- Refutes O40: the clause on WRITE_MARK does not ask that the staging has room. With a full staging and Steeple in FAULT the mark ends
with 0x0416 and RESULT 0, as R445 asks, and no mark is packed. -/
theorem not_writesEnterTheStream : ¬ Obligations.WritesEnterTheStream := by
  unfold Obligations.WritesEnterTheStream
  rintro ⟨-, -, -, -, hmark⟩
  obtain ⟨hmem, hstop, hsel, hroom⟩ := markCmd_unstopped
  obtain ⟨hdur, hmet, hcount, hlon⟩ := markCmd_fields
  obtain ⟨hreading, hfin, hsrc, heng⟩ := stalledDead_idle
  obtain ⟨t, st, hexec, hdone, -⟩ := hmark stalledDead 1 7 markCmd markQueue .a ⟨0, 255, 0⟩ markCmd_inHand markCmd_alone hmem hstop
    (ok_of_toOption hsel) hroom hdur hmet hcount hlon hreading hfin hsrc heng
  have hsays : (stateOf (exec (.writeMark 1 7) stalledDead)).bind (newestOutcome · 1) = some (st, 1) := by
    rw [hexec]
    exact hdone.newestOutcome
  rw [markCmd_refused] at hsays
  exact absurd (Prod.mk.inj (Option.some.inj hsays)).2 (by decide)

end Sys2Proof.Machine
end

section
/-! PROOF. READ, VERIFY and SPACE of one object: the round that passes it, and the round that ends the command (R325, R326, R327). -/

namespace Sys2Proof.Machine

/-! ## The command after its host writes -/

/-- A command as it was but for what it has sent to the host. -/
def sameButWrites (c d : Cmd) : Prop := ∃ ws n k, d = { c with writes := ws, sent := n, inRec := k }

theorem sameButWrites.refl (c : Cmd) : sameButWrites c c := ⟨_, _, _, rfl⟩

section
variable {s : State} {c : Cmd} (hc : s.host.cmds = [c])
include hc

theorem cmds_sendWrites : ∃ d, (sendWrites c.qid c.tag s).host.cmds = [d] ∧ ∃ n, d = { c with sent := n } := by
  unfold sendWrites
  split
  · split
    · exact ⟨_, cmds_onCmd_of_one (s := emitWrites _ _ s) hc _, _, rfl⟩
    · exact ⟨c, hc, _, rfl⟩
  · exact ⟨c, hc, _, rfl⟩

theorem cmds_hostWrites (ws : List (Nat × Bytes)) : ∃ d, (hostWrites c.qid c.tag ws s).host.cmds = [d] ∧ sameButWrites c d := by
  obtain ⟨d, hd, n, rfl⟩ := cmds_sendWrites (c := withWrites ws c) (cmds_onCmd_of_one hc (withWrites ws))
  exact ⟨_, hd, _, n, _, rfl⟩

theorem writeBuffer_of_one (off : Nat) (bs : Bytes) :
    writeBuffer c.qid c.tag off bs s = hostWrites c.qid c.tag (scatter c.segs off bs) s := by
  rw [writeBuffer, cmdOf_of_one hc]

end

theorem cmds_listEntry {s : State} {c d : Cmd} (hd : sameButWrites c d) (hc : s.host.cmds = [d]) (x len kind : Nat) (group : Bool) :
    ∃ e, (listEntry c x len kind group s).host.cmds = [e] ∧ sameButWrites c e := by
  obtain ⟨ws, n, k, rfl⟩ := hd
  unfold listEntry
  split
  · exact ⟨_, hc, ws, n, k, rfl⟩
  · obtain ⟨e, he, ws', n', k', rfl⟩ := cmds_hostWrites hc
      [(dp1 c.entry + 16 * c.count, le 8 x ++ le 4 len ++ le 1 kind ++ le 1 group.toNat ++ zeros 2)]
    exact ⟨_, he, ws', n', k', rfl⟩

theorem mem_out_listEntry {s : State} {a : Out} (c : Cmd) (x len kind : Nat) (group : Bool) (h : a ∈ s.out) :
    a ∈ (listEntry c x len kind group s).out := by
  unfold listEntry
  split
  · exact h
  · exact mem_out_hostWrites _ h

/-! ## The read-ahead that goes -/

theorem mem_out_setWvn {s : State} {a : Out} (st : WvnState) (h : a ∈ s.out) : a ∈ (setWvn st s).out := by
  unfold setWvn
  split
  · exact h
  · exact mem_out_raise 108 h

theorem idleChans_out (s : State) : (idleChans s).out = s.out :=
  (idleChans_kept (Nat.or_self _) (Kept.refl _ s)).same .out (by decide +kernel)

theorem mem_out_endRun {s : State} {a : Out} (h : a ∈ s.out) : a ∈ (endRun s).out := by
  unfold endRun
  dsimp only
  rw [idleChans_out]
  refine mem_out_setWvn .idle ?_
  split
  · exact mem_out_startProgram _ _ _ _ _ h
  · exact mem_out_startProgram _ _ _ _ _ h
  · exact h

theorem mem_out_dropReads {s : State} {a : Out} (h : a ∈ s.out) : a ∈ (dropReads s).out := by
  unfold dropReads
  dsimp only
  split
  · exact mem_out_endRun h
  · exact h

theorem mem_out_leaveReadAhead {s : State} {a : Out} (c : Cmd) (o : Obj) (h : a ∈ s.out) : a ∈ (leaveReadAhead c o s).out := by
  unfold leaveReadAhead
  split
  · exact mem_out_dropReads h
  · exact h

theorem leaveReadAhead_cmds (c : Cmd) (o : Obj) (s : State) : (leaveReadAhead c o s).host.cmds = s.host.cmds := by
  unfold leaveReadAhead
  split
  · exact (dropReads_drive_cmds s).2.2
  · rfl

/-! ## An object is passed (R325) -/

/-- The object's list entry is written. -/
def listed (c : Cmd) (x : Nat) (o : Obj) (s : State) : State :=
  let t := listEntry c x (if o.mark then 0 else listLength s o) (listKind s o) o.group s
  if o.opaque_ then draw t else t

/-- The object is listed, and read-ahead has given it up. -/
def objLeft (c : Cmd) (x : Nat) (o : Obj) (s : State) : State :=
  (useSets o (leaveReadAhead c o (listed c x o s))).onRd fun r => { r with
    packets := r.packets.filter fun k => !(k.part == partField c.entry && k.lon == x) }

/-- The command that has passed the object; what decrypted it is in keys. -/
def countObj (next : Nat) (o : Obj) (keys : List (Nat × Nat)) (d : Cmd) : Cmd :=
  { d with
    count := d.count + 1, lon := next, inRec := 0, used := d.used + (if opcodeOf d.entry = opRead then (if o.mark then 0 else o.length) else 0),
    met := if 4 ≤ o.level && !d.met.contains 0x0001 then d.met ++ [0x0001] else d.met,
    keys := d.keys ++ keys.filter fun k => !d.keys.contains k }

theorem passObj_eq (c : Cmd) (x next : Nat) (o : Obj) (s : State) :
    ∃ keys, passObj c x next o s = onCmd c.qid c.tag (countObj next o keys) (objLeft c x o s) :=
  ⟨if noDecrypt c then [] else o.keys.map fun k => (k, match curGen s k with | some g => g.num | none => 0), rfl⟩

theorem cmds_objLeft {s : State} {c d : Cmd} (hd : sameButWrites c d) (hc : s.host.cmds = [d]) (x : Nat) (o : Obj) :
    ∃ e, (objLeft c x o s).host.cmds = [e] ∧ sameButWrites c e := by
  obtain ⟨e, he, hsame⟩ := cmds_listEntry hd hc x (if o.mark then 0 else listLength s o) (listKind s o) o.group
  have hlisted : (listed c x o s).host.cmds = [e] := by
    unfold listed
    dsimp only
    split <;> exact he
  exact ⟨e, (leaveReadAhead_cmds c o _).trans hlisted, hsame⟩

theorem mem_out_listed {s : State} {a : Out} (c : Cmd) (x : Nat) (o : Obj) (h : a ∈ s.out) : a ∈ (listed c x o s).out := by
  have hentry := mem_out_listEntry c x (if o.mark then 0 else listLength s o) (listKind s o) o.group h
  unfold listed
  dsimp only
  split
  · simpa only [draw] using hentry
  · exact hentry

theorem mem_out_passObj {s : State} {a : Out} (c : Cmd) (x next : Nat) (o : Obj) (h : a ∈ s.out) : a ∈ (passObj c x next o s).out := by
  obtain ⟨keys, heq⟩ := passObj_eq c x next o s
  rw [heq, onCmd, State.onHost_out, objLeft, State.onRd_out, useSets, State.onRd_out]
  exact mem_out_leaveReadAhead c o (mem_out_listed c x o h)

/-- What the passing of an object changes. -/
def passFields : List Field :=
  .hostCmds :: .rdSets :: .rdFailed :: .rdHoles :: .rdPackets :: .rdBadBlocks :: .rdCovers :: .rdActive :: .rdEnded :: .rdExpected ::
    .rdSure :: .rdAccepted :: .rdRetry :: tapeFields

theorem passObj_changesOnly (c : Cmd) (x next : Nat) (o : Obj) (s : State) : changesOnly passFields s (passObj c x next o s) :=
  (passObj_kept c x next o (by decide +kernel) (Kept.refl (fieldMask passFields) s)).changesOnly

theorem passObj_vol (c : Cmd) (x next : Nat) (o : Obj) (s : State) : (passObj c x next o s).drive.vol = s.drive.vol :=
  (passObj_kept c x next o (Nat.or_self _) (Kept.refl _ s)).same .driveVol (by decide +kernel)

/-- The command e is c with one object more passed, next being its place and level the highest level that the object needed. -/
structure Passed (c : Cmd) (next level : Nat) (e : Cmd) : Prop where
  qid : e.qid = c.qid
  tag : e.tag = c.tag
  entry : e.entry = c.entry
  phase : e.phase = c.phase
  count : e.count = c.count + 1
  lon : e.lon = next
  met : e.met = if 4 ≤ level && !c.met.contains 0x0001 then c.met ++ [0x0001] else c.met

theorem passObj_passed {s : State} {c d : Cmd} {x : QueuePair} {p : Port} (ha : alone s d x p) (hd : sameButWrites c d) (y next : Nat) (o : Obj) :
    ∃ e, alone (passObj c y next o s) e x p ∧ Passed c next o.level e ∧ (opcodeOf c.entry ≠ opRead → e.used = c.used) := by
  obtain ⟨keys, heq⟩ := passObj_eq c y next o s
  obtain ⟨e, he, ws, n, k, rfl⟩ := cmds_objLeft hd ha.1 y o
  have hcmds : (passObj c y next o s).host.cmds = [countObj next o keys { c with writes := ws, sent := n, inRec := k }] := by
    rw [heq]
    exact cmds_onCmd_of_one he _
  have hqid : c.qid = d.qid := by
    obtain ⟨_, _, _, rfl⟩ := hd
    rfl
  refine ⟨_, ha.of_changesOnly (passObj_changesOnly ..) hcmds hqid (by decide), ⟨rfl, rfl, rfl, rfl, rfl, rfl, rfl⟩, fun hop => ?_⟩
  change c.used + (if opcodeOf c.entry = opRead then _ else 0) = c.used
  rw [if_neg hop, Nat.add_zero]

/-- 0x0001 tells of a level of 4 or above (R86, R327). -/
theorem Passed.prevails {c e : Cmd} {next level : Nat} (h : Passed c next level e) (hmet : c.met = []) :
    prevails (e.met ++ [0]) = if 4 ≤ level then 0x0001 else 0 := by
  rw [h.met, hmet]
  by_cases hl : 4 ≤ level
  · simp [hl, Machine.prevails, outcomeRank]
  · simp [hl, Machine.prevails, outcomeRank]

/-! ## A reading command ends (R326, R327) -/

/-- From s to t command c has completed with this status and RESULT, the position stands behind it, and nothing put out is taken back. -/
def readOver (c : Cmd) (st res lon : Nat) (s t : State) : Prop :=
  completed t c st res ∧ (∃ w, t.drive.vol = some w ∧ w.posPart = partField c.entry ∧ w.posLon = lon) ∧ ∀ a ∈ s.out, a ∈ t.out

theorem mem_out_postComp_of_alone {s : State} {c : Cmd} {x : QueuePair} {p : Port} {a : Out} (h : alone s c x p) (st res : Nat) (ha : a ∈ s.out) :
    a ∈ (postComp c.qid (compOf c st res none) (noCmds s)).out := by
  obtain ⟨-, -, -, hheld, hqueue, hpath, hroom⟩ := h
  rw [postComp_of_room (s := noCmds s) _ hqueue (hheld x (List.mem_of_find?_eq_some hqueue)) hpath hroom]
  obtain ⟨pre, post, -, -, -, hout⟩ := out_served (s := noCmds s) (q := c.qid) (x := x) p (compOf c st res none) rfl
  have hbefore : a ∈ (noCmds s).out := ha
  rw [hout]
  simp [hbefore]

theorem isReading_iff {c : Cmd} :
    isReading c = true ↔ opcodeOf c.entry = opRead ∨ opcodeOf c.entry = opVerify ∨ opcodeOf c.entry = opSpace := by
  simp [isReading, or_assoc]

theorem releaseKeys_of_reading {c : Cmd} (h : isReading c = true) (s : State) : releaseKeys c s = s := by
  refine if_neg ?_
  rcases isReading_iff.mp h with hop | hop | hop <;> rw [hop] <;> decide

/-- The command is a reading one, started, and alone, with a cartridge mounted. -/
structure Reading (s : State) (c : Cmd) (x : QueuePair) (p : Port) (v : Volume) : Prop where
  lone : alone s c x p
  reads : isReading c = true
  started : c.phase = .started
  mounted : s.drive.vol = some v

namespace Reading
variable {s : State} {c e : Cmd} {x : QueuePair} {p : Port} {v : Volume} (h : Reading s c x p v)
include h

theorem endRead_eq {st : Nat} (hz : ¬ (prevails (c.met ++ [st]) = 0x0301 ∨ prevails (c.met ++ [st]) = 0x0302)) :
    endRead c st s = reply c.qid c.tag (prevails (c.met ++ [st])) c.count (setPosition (partField c.entry) c.lon s) := by
  have hone := cmdOf_of_one h.lone.1
  have hthere : cmdOf (setPosition (partField c.entry) c.lon s) c.qid c.tag = some c := hone
  have hgoes : isDone c = false := by simp [isDone, h.started]
  have hends : finishCmd c.qid c.tag (prevails (c.met ++ [st])) c.count none (setPosition (partField c.entry) c.lon s) =
      reply c.qid c.tag (prevails (c.met ++ [st])) c.count (setPosition (partField c.entry) c.lon s) := by
    rw [finishCmd, hthere]
    simp only [hgoes, releaseKeys_of_reading h.reads]
    rfl
  rw [endRead, hone]
  exact (if_neg hz).trans hends

/-- A reading command's end: its entry, and its position. -/
theorem endRead_over {st : Nat} (hz : ¬ (prevails (c.met ++ [st]) = 0x0301 ∨ prevails (c.met ++ [st]) = 0x0302)) :
    readOver c (prevails (c.met ++ [st])) c.count c.lon s (endRead c st s) := by
  have hset : alone (setPosition (partField c.entry) c.lon s) c x p :=
    h.lone.of_changesOnly (setPosition_changesOnly ..) h.lone.1 rfl (by decide)
  have hgoes : isDone c = false := by simp [isDone, h.started]
  rw [h.endRead_eq hz, hset.reply_eq _ _ hgoes]
  refine ⟨hset.completed_postComp _ _, ⟨{ v with posPart := partField c.entry, posLon := c.lon }, ?_, rfl, rfl⟩,
    fun a ha => mem_out_postComp_of_alone hset _ _ ha⟩
  exact ((postComp_changesOnly ..).2 .driveVol (by decide)).trans (setPosition_vol (partField c.entry) c.lon h.mounted rfl)

/-- It reads on with its next object. -/
theorem passed {t : State} {next level : Nat} (ha : alone t e x p) (hp : Passed c next level e) (hv : t.drive.vol = s.drive.vol) :
    Reading t e x p v :=
  ⟨ha, by rw [isReading, hp.entry]; exact h.reads, hp.phase.trans h.started, hv.trans h.mounted⟩

end Reading

/-! ## The rounds of a command -/

/-- One round of a reading command. -/
def serveOnce (c : Cmd) (s : State) : Round := if opcodeOf c.entry = opSpace then serveSpace c s else serveRead c s

theorem serveRounds_succ {s : State} {c : Cmd} (hc : s.host.cmds = [c]) (hph : c.phase = .started) (k : Nat) :
    serveRounds c.qid c.tag (k + 1) s = if (serveOnce c s).2 then serveRounds c.qid c.tag k (serveOnce c s).1 else (serveOnce c s).1 := by
  rw [serveRounds, cmdOf_of_one hc]
  exact if_neg (by simp [hph])

theorem dropConsumed_over {c : Cmd} {st res lon : Nat} {s t : State} (h : readOver c st res lon s t) : readOver c st res lon s (dropConsumed t) := by
  obtain ⟨⟨hcmds, y, e, hqueue, hlast⟩, ⟨w, hvol, hpos⟩, hout⟩ := h
  have hkept := dropConsumed_kept (Nat.or_self _) (Kept.refl _ t)
  have hqps : (dropConsumed t).host.qps = t.host.qps := hkept.same .hostQps (by decide +kernel)
  refine ⟨⟨(hkept.same .hostCmds (by decide +kernel)).trans hcmds, y, e, (qpOf_congr hqps _).trans hqueue, hlast⟩,
    ⟨w, (hkept.same .driveVol (by decide +kernel)).trans hvol, hpos⟩, fun a ha => ?_⟩
  have hsame : (dropConsumed t).out = t.out := hkept.same .out (by decide +kernel)
  rw [hsame]
  exact hout a ha

namespace Reading
variable {s t : State} {c e : Cmd} {x : QueuePair} {p : Port} {v : Volume} (h : Reading s c x p v)
  (hu : (partAt s (partField c.entry)).inUse = true)
include h hu

theorem serveCmd_eq : serveCmd c.qid c.tag s = dropConsumed (serveRounds c.qid c.tag (roundsFor s c) s) := by
  rw [serveCmd, cmdOf_of_one h.lone.1]
  simp [h.reads, h.started, h.mounted, hu]

/-- The first round ends the command. -/
theorem serveCmd_ends {st : Nat} (hround : serveOnce c s = (endRead c st s, false))
    (hz : ¬ (prevails (c.met ++ [st]) = 0x0301 ∨ prevails (c.met ++ [st]) = 0x0302)) :
    readOver c (prevails (c.met ++ [st])) c.count c.lon s (serveCmd c.qid c.tag s) := by
  have hrounds : serveRounds c.qid c.tag (roundsFor s c) s = endRead c st s := by
    rw [roundsFor, serveRounds_succ h.lone.1 h.started, hround]
    rfl
  rw [h.serveCmd_eq hu, hrounds]
  exact dropConsumed_over (h.endRead_over hz)

/-- The first round passes an object, and the second ends the command. -/
theorem serveCmd_passes {next level : Nat} (hmet : c.met = []) (hround : serveOnce c s = (t, true)) (ha : alone t e x p)
    (hp : Passed c next level e) (hv : t.drive.vol = s.drive.vol) (hend : serveOnce e t = (endRead e 0 t, false)) :
    readOver c (if 4 ≤ level then 0x0001 else 0) (c.count + 1) next t (serveCmd c.qid c.tag s) := by
  have hnext := h.passed ha hp hv
  have hstatus := hp.prevails hmet
  have hrounds : serveRounds c.qid c.tag (roundsFor s c) s = endRead e 0 t := by
    rw [roundsFor, serveRounds_succ h.lone.1 h.started, hround]
    change serveRounds c.qid c.tag (_ + 1) t = _
    rw [← hp.qid, ← hp.tag, serveRounds_succ ha.1 hnext.started, hend]
    rfl
  have hover : readOver e (if 4 ≤ level then 0x0001 else 0) (c.count + 1) next t (endRead e 0 t) := by
    rw [← hstatus, ← hp.count, ← hp.lon]
    refine hnext.endRead_over ?_
    rw [hstatus]
    split <;> decide
  rw [h.serveCmd_eq hu, hrounds]
  refine dropConsumed_over ?_
  rwa [readOver, completed, hp.qid, hp.tag, hp.entry] at hover

end Reading

end Sys2Proof.Machine
end

section
/-! PROOF. READ, VERIFY and SPACE: what each does with the object at its place (R325, R326). -/

namespace Sys2Proof.Machine

/-! ## The first steps -/

section
variable {s : State} {q : Fin 256} {tag : BitVec 16} {c : Cmd} {x : QueuePair} {p : Port} {v : Volume}

theorem exec_read (h : inHand s q.val tag.toNat opRead c) : exec (.read q tag) s = .next (serveCmd c.qid c.tag s) := by
  change execRead q tag s = _
  rw [execRead, goLive_of_live _ h.1, h.2]

theorem exec_verify (h : inHand s q.val tag.toNat opVerify c) : exec (.verify q tag) s = .next (serveCmd c.qid c.tag s) := by
  change execVerify q tag s = _
  rw [execVerify, goLive_of_live _ h.1, h.2]

theorem exec_space (h : inHand s q.val tag.toNat opSpace c) : exec (.space q tag) s = .next (serveCmd c.qid c.tag s) := by
  change execSpace q tag s = _
  rw [execSpace, goLive_of_live _ h.1, h.2]

theorem started_of_inHand {op : Nat} (h : inHand s q.val tag.toNat op c) : c.phase = .started := by
  obtain ⟨-, hc⟩ := h
  unfold startedCmd at hc
  split at hc
  next d _ =>
    obtain ⟨⟨hph, -⟩, hdc⟩ := Option.ite_none_right_eq_some.mp hc
    rwa [← Option.some.inj hdc]
  next => exact absurd hc nofun

/-- A reading command in hand. -/
theorem Reading.of_inHand {op : Nat} (h : inHand s q.val tag.toNat op c) (hop : op = opRead ∨ op = opVerify ∨ op = opSpace)
    (ha : alone s c x p) (hv : s.drive.vol = some v) : Reading s c x p v :=
  ⟨ha, isReading_iff.mpr (by rw [opcode_of_inHand h]; exact hop), started_of_inHand h, hv⟩

end

/-! ## READ and VERIFY -/

section
variable {s : State} {c : Cmd} (hop : opcodeOf c.entry ≠ opSpace)
include hop

theorem serveOnce_enough (hcount : countField c.entry ≤ c.count) : serveOnce c s = (endRead c 0 s, false) := by
  rw [serveOnce, if_neg hop, serveRead, if_pos hcount]

theorem serveOnce_end (hcount : c.count < countField c.entry) (hlon : logicalEndOf s (partField c.entry) ≤ c.lon) :
    serveOnce c s = (endRead c 0x0401 s, false) := by
  rw [serveOnce, if_neg hop, serveRead, if_neg (by omega), if_pos hlon]

theorem serveOnce_record {o : Obj} (hcount : c.count < countField c.entry) (hlon : c.lon < logicalEndOf s (partField c.entry))
    (ho : findObj s c c.lon = .object o) (hmark : o.mark = false) : serveOnce c s = serveRecord c c.lon o s := by
  rw [serveOnce, if_neg hop, serveRead, if_neg (by omega), if_neg (by omega), ho]
  simp [hmark]

end

/-- A READ sends the bytes to the host's buffer; a VERIFY sends none. -/
def transferred (c : Cmd) (bs : Bytes) (s : State) : State :=
  if opcodeOf c.entry == opRead && !bs.isEmpty then
    onCmd c.qid c.tag (fun d => { d with inRec := d.inRec + bs.length }) (writeBuffer c.qid c.tag (c.used + c.inRec) bs s)
  else s

theorem transferred_changesOnly (c : Cmd) (bs : Bytes) (s : State) : changesOnly [.hostCmds, .out] s (transferred c bs s) := by
  unfold transferred
  split
  · exact (onCmd_kept _ _ _ (by decide +kernel) (writeBuffer_kept _ _ _ _ (by decide +kernel)
      (Kept.refl (fieldMask [.hostCmds, .out]) s))).changesOnly
  · exact (Kept.refl _ s).changesOnly

section
variable {s : State} {c : Cmd}

theorem cmds_transferred (hc : s.host.cmds = [c]) (bs : Bytes) : ∃ d, (transferred c bs s).host.cmds = [d] ∧ sameButWrites c d := by
  unfold transferred
  split
  · rw [writeBuffer_of_one hc]
    obtain ⟨d, hd, ws, n, k, rfl⟩ := cmds_hostWrites hc (scatter c.segs (c.used + c.inRec) bs)
    exact ⟨_, cmds_onCmd_of_one hd _, ws, n, _, rfl⟩
  · exact ⟨c, hc, .refl c⟩

/-- The bytes of a READ whose buffer is one piece that holds them (R313). -/
theorem data_mem_out_transferred {x : QueuePair} {p : Port} {bs : Bytes} {a n : Nat} (ha : alone s c x p) (hop : opcodeOf c.entry = opRead)
    (hw : c.writes = []) (hsent : c.sent = 0) (hused : c.used = 0) (hin : c.inRec = 0) (hsegs : c.segs = [(a, n)]) (hlen : bs.length ≤ n)
    (hne : bs ≠ []) : .data p a bs ∈ (transferred c bs s).out := by
  obtain ⟨hcmds, -, -, -, hqueue, hpath, -⟩ := ha
  have hpos : 0 < bs.length := List.length_pos_of_ne_nil hne
  have hpiece : scatter [(a, n)] 0 bs = [(a, bs)] := by
    simp [scatter, hne, Nat.pos_iff_ne_zero.mp (hpos.trans_le hlen), Nat.min_eq_right hlen]
  rw [transferred, if_pos (by simp [hop, hne]), onCmd, State.onHost_out, writeBuffer_of_one hcmds, hsegs, hused, hin, hpiece]
  exact data_mem_out_hostWrites (w := (a, bs)) hqueue hpath (cmdOf_of_one hcmds) hw hsent (List.mem_singleton_self _) hne

/-- The bytes of a record that are ready and not yet transferred. -/
def newBytes (s : State) (c : Cmd) (x : Nat) (o : Obj) : Bytes :=
  ((readyBytes s (partField c.entry) x o.blocks.length).flatten).drop c.inRec

/-- A whole record is transferred and passed (R325). -/
theorem serveRecord_whole {y : Nat} {o : Obj} (hfits : opcodeOf c.entry = opRead → c.used + o.length ≤ lengthField c.entry)
    (hplain : noDecrypt c = false) (hgood : ∀ b ∈ s.rd.badBlocks, ¬ (b.1 = partField c.entry ∧ b.2.1 = y))
    (hready : (readyBytes s (partField c.entry) y o.blocks.length).length = o.blocks.length) :
    serveRecord c y o s = (passObj c y (y + 1) o (transferred c (newBytes s c y o) s), true) := by
  have hroom : (opcodeOf c.entry == opRead && decide (lengthField c.entry < c.used + o.length)) = false := by
    simpa using hfits
  have hnone : (s.rd.badBlocks.any fun b => b.1 == partField c.entry && b.2.1 == y) = false := by
    simpa [List.any_eq_false] using hgood
  unfold serveRecord
  dsimp only
  rw [hroom, hplain, hnone, if_pos hready]
  rfl

/-- The state in which a READ or VERIFY has passed the record at its place. -/
def recordPassed (c : Cmd) (o : Obj) (s : State) : State := passObj c c.lon (c.lon + 1) o (transferred c (newBytes s c c.lon o) s)

theorem recordPassed_passed {x : QueuePair} {p : Port} (ha : alone s c x p) (o : Obj) :
    ∃ e, alone (recordPassed c o s) e x p ∧ Passed c (c.lon + 1) o.level e := by
  obtain ⟨d, hd, hsame⟩ := cmds_transferred ha.1 (newBytes s c c.lon o)
  have hqid : d.qid = c.qid := by
    obtain ⟨_, _, _, rfl⟩ := hsame
    rfl
  obtain ⟨e, hae, hpassed, -⟩ := passObj_passed (ha.of_changesOnly (transferred_changesOnly ..) hd hqid (by decide)) hsame c.lon (c.lon + 1) o
  exact ⟨e, hae, hpassed⟩

theorem recordPassed_vol (c : Cmd) (o : Obj) (s : State) : (recordPassed c o s).drive.vol = s.drive.vol :=
  (passObj_vol c c.lon (c.lon + 1) o _).trans ((transferred_changesOnly ..).2 .driveVol (by decide))

/-- A READ or VERIFY of one record that is ready (R325). -/
theorem Reading.record_passes {x : QueuePair} {p : Port} {v : Volume} (h : Reading s c x p v) (hop : opcodeOf c.entry ≠ opSpace)
    (hu : (partAt s (partField c.entry)).inUse = true) (hmet : c.met = []) (hone : countField c.entry = 1) (hcount : c.count = 0)
    (hlon : c.lon < logicalEndOf s (partField c.entry)) {o : Obj} (ho : findObj s c c.lon = .object o) (hmark : o.mark = false)
    (hfits : opcodeOf c.entry = opRead → c.used + o.length ≤ lengthField c.entry) (hplain : noDecrypt c = false)
    (hgood : ∀ b ∈ s.rd.badBlocks, ¬ (b.1 = partField c.entry ∧ b.2.1 = c.lon))
    (hready : (readyBytes s (partField c.entry) c.lon o.blocks.length).length = o.blocks.length) :
    readOver c (if 4 ≤ o.level then 0x0001 else 0) (c.count + 1) (c.lon + 1) (recordPassed c o s) (serveCmd c.qid c.tag s) := by
  obtain ⟨e, hae, hpassed⟩ := recordPassed_passed h.lone o
  have hfirst : serveOnce c s = (recordPassed c o s, true) :=
    (serveOnce_record hop (by omega) hlon ho hmark).trans (serveRecord_whole hfits hplain hgood hready)
  have hsecond : serveOnce e (recordPassed c o s) = (endRead e 0 (recordPassed c o s), false) :=
    serveOnce_enough (by rw [hpassed.entry]; exact hop) (by rw [hpassed.entry, hpassed.count, hone]; omega)
  exact h.serveCmd_passes hu hmet hfirst hae hpassed (recordPassed_vol c o s) hsecond

end

/-! ## SPACE -/

/-- The place of the object that a SPACE passes next (R325). -/
def spacePlace (c : Cmd) : Nat := if spaceBack c then c.lon - 1 else c.lon

/-- Where it stands then. -/
def spaceNext (c : Cmd) : Nat := if spaceBack c then spacePlace c else spacePlace c + 1

/-- The SPACE counts the object if it is of its unit. -/
def unitCounted (o : Obj) (d : Cmd) : Cmd := { d with used := if spaceUnit d = 1 && !o.mark then d.used else d.used + 1 }

/-- The state in which the SPACE has passed its next object. -/
def spaced (c : Cmd) (o : Obj) (s : State) : State := onCmd c.qid c.tag (unitCounted o) (passObj c (spacePlace c) (spaceNext c) o s)

section
variable {s : State} {c : Cmd} (hop : opcodeOf c.entry = opSpace) (hunit : specField c.entry 48 1 = 0)
include hop hunit

theorem serveOnce_spaced (hdone : (spaceCount c).natAbs ≤ c.used) : serveOnce c s = (endRead c 0 s, false) := by
  have henough : spaceDone c = true := by simp [spaceDone, spaceUnit, hunit, hdone]
  rw [serveOnce, if_pos hop, serveSpace]
  simp [henough]

/-- A record at the next place is passed. -/
theorem serveOnce_spaces {o : Obj} (hmore : c.used < (spaceCount c).natAbs) (hback : spaceBack c = true → 0 < c.lon)
    (hfront : spaceBack c = false → c.lon < logicalEndOf s (partField c.entry)) (ho : findObj s c (spacePlace c) = .object o)
    (hmark : o.mark = false) : serveOnce c s = (spaced c o s, true) := by
  have hundone : ¬ spaceDone c = true := by simp [spaceDone, hmore]
  have hbelow : ¬ (spaceBack c = true ∧ c.lon = 0) := fun ⟨hb, h0⟩ => absurd (hback hb) (by omega)
  have habove : ¬ ((!spaceBack c) = true ∧ logicalEndOf s (partField c.entry) ≤ c.lon) :=
    fun ⟨hf, hend⟩ => absurd (hfront (by simpa using hf)) (by omega)
  have hrecords : ¬ (spaceUnit c = 2 ∧ dp1 c.entry = 0) := by simp [spaceUnit, hunit]
  have hgoes : ¬ (o.mark = true ∧ spaceUnit c = 0) := by simp [hmark]
  have hpass : spacePass c (spacePlace c) (spaceNext c) o s = (spaced c o s, true) := by
    unfold spacePass
    dsimp only
    rw [if_neg hgoes]
    rfl
  rw [serveOnce, if_pos hop, ← hpass]
  unfold serveSpace spaceNext spacePlace
  dsimp only
  unfold spacePlace at ho
  rw [if_neg hundone, if_neg hbelow, if_neg habove, if_neg hrecords, ho]

end

section
variable {s : State} {c : Cmd} {x : QueuePair} {p : Port}

theorem spaced_passed (ha : alone s c x p) (hop : opcodeOf c.entry = opSpace) (hunit : specField c.entry 48 1 = 0) (o : Obj) :
    ∃ e, alone (spaced c o s) e x p ∧ Passed c (spaceNext c) o.level e ∧ e.used = c.used + 1 := by
  obtain ⟨e, hae, hpassed, hused⟩ := passObj_passed ha (.refl c) (spacePlace c) (spaceNext c) o
  have hcmds : (spaced c o s).host.cmds = [unitCounted o e] := by
    rw [spaced, ← hpassed.qid, ← hpassed.tag]
    exact cmds_onCmd_of_one hae.1 _
  have heunit : spaceUnit e = 0 := by rw [spaceUnit, hpassed.entry, hunit]
  refine ⟨_, hae.of_changesOnly (onCmd_changesOnly ..) hcmds rfl (by decide), { hpassed with }, ?_⟩
  simp [unitCounted, heunit, hused (by rw [hop]; decide)]

theorem spaced_vol (c : Cmd) (o : Obj) (s : State) : (spaced c o s).drive.vol = s.drive.vol :=
  passObj_vol c (spacePlace c) (spaceNext c) o s

/-- A SPACE of one record, forward or backward (R325). -/
theorem Reading.space_passes {v : Volume} (h : Reading s c x p v) (hop : opcodeOf c.entry = opSpace)
    (hu : (partAt s (partField c.entry)).inUse = true) (hmet : c.met = []) (hunit : specField c.entry 48 1 = 0) (hused : c.used = 0)
    (hone : (spaceCount c).natAbs = 1) (hback : spaceBack c = true → 0 < c.lon)
    (hfront : spaceBack c = false → c.lon < logicalEndOf s (partField c.entry)) {o : Obj} (ho : findObj s c (spacePlace c) = .object o)
    (hmark : o.mark = false) :
    ∃ t, readOver c (if 4 ≤ o.level then 0x0001 else 0) (c.count + 1) (spaceNext c) t (serveCmd c.qid c.tag s) := by
  obtain ⟨e, hae, hpassed, heused⟩ := spaced_passed h.lone hop hunit o
  have hspaced : serveOnce e (spaced c o s) = (endRead e 0 (spaced c o s), false) := by
    refine serveOnce_spaced (by rw [hpassed.entry]; exact hop) (by rw [hpassed.entry]; exact hunit) ?_
    rw [spaceCount, hpassed.entry, heused]
    exact hone.le.trans (Nat.le_add_left ..)
  have hfirst := serveOnce_spaces hop hunit (by omega) hback hfront ho hmark
  exact ⟨_, h.serveCmd_passes hu hmet hfirst hae hpassed (spaced_vol c o s) hspaced⟩

end

/-! ## The obligation -/

theorem spaceCount_one {c : Cmd} (h : countField c.entry = 1) : spaceCount c = 1 := by
  rw [spaceCount, h]
  decide

theorem spaceCount_minus_one {c : Cmd} (h : countField c.entry = 2 ^ 64 - 1) : spaceCount c = -1 := by
  rw [spaceCount, h]
  decide

/-- Settles O41: the end of the partition, one record read or verified, and one record spaced over either way. -/
theorem readsPassOneObjectAtATime : Obligations.ReadsPassOneObjectAtATime := by
  unfold Obligations.ReadsPassOneObjectAtATime
  refine ⟨fun s q tag c x p v i hi ha hv hu hmet hpos hcount hend => ?atEnd,
    fun s q tag c x p v i o hi ha hv hu hmet hw hsent hcf hcount hused hin hlon ho hmark hgood hready => ?record,
    fun s q tag c x p v h ha hv hu hmet hcount hused hunit => ?space⟩
  case atEnd =>
    obtain ⟨hexec, hreading, hop⟩ : exec i s = .next (serveCmd c.qid c.tag s) ∧ Reading s c x p v ∧ opcodeOf c.entry ≠ opSpace := by
      rcases hi with ⟨rfl, h⟩ | ⟨rfl, h⟩
      · exact ⟨exec_read h, .of_inHand h (.inl rfl) ha hv, by rw [opcode_of_inHand h]; decide⟩
      · exact ⟨exec_verify h, .of_inHand h (.inr (.inl rfl)) ha hv, by rw [opcode_of_inHand h]; decide⟩
    have hstatus : prevails (c.met ++ [0x0401]) = 0x0401 := by
      rw [hmet]
      decide
    have hover := hreading.serveCmd_ends hu (serveOnce_end hop (by omega) hend) (by rw [hstatus]; decide)
    rw [hstatus, hcount] at hover
    obtain ⟨hdone, ⟨w, hw, hpart, hplace⟩, -⟩ := hover
    exact ⟨_, w, hexec, hdone, hw, hpart, hplace⟩
  case record =>
    obtain ⟨hexec, hreading, hop, hfits, hplain⟩ : exec i s = .next (serveCmd c.qid c.tag s) ∧ Reading s c x p v ∧
        opcodeOf c.entry ≠ opSpace ∧ (opcodeOf c.entry = opRead → c.used + o.length ≤ lengthField c.entry) ∧ noDecrypt c = false := by
      rcases hi with ⟨rfl, h, hfits⟩ | ⟨rfl, h, hplain⟩
      · have hop := opcode_of_inHand h
        exact ⟨exec_read h, .of_inHand h (.inl rfl) ha hv, by rw [hop]; decide, fun _ => by omega, by rw [noDecrypt, hop]; rfl⟩
      · have hop := opcode_of_inHand h
        exact ⟨exec_verify h, .of_inHand h (.inr (.inl rfl)) ha hv, by rw [hop]; decide,
          fun hread => absurd (hop.symm.trans hread) (by decide), hplain⟩
    have hover := hreading.record_passes hop hu hmet hcf hcount hlon ho hmark hfits hplain hgood hready
    rw [hcount] at hover
    obtain ⟨hdone, ⟨w, hvw, hpart, hplace⟩, hout⟩ := hover
    refine ⟨_, w, hexec, hdone, hvw, hpart, hplace, fun hread a n hsegs hlen hne => hout _ (mem_out_passObj _ _ _ _ ?_)⟩
    have hbytes : newBytes s c c.lon o = (readyBytes s (partField c.entry) c.lon o.blocks.length).flatten := by
      rw [newBytes, hin, List.drop_zero]
    have hopr : opcodeOf c.entry = opRead := by
      subst hread
      rcases hi with ⟨-, h, -⟩ | ⟨hne, -⟩
      · exact opcode_of_inHand h
      · exact absurd hne nofun
    rw [hbytes]
    exact data_mem_out_transferred ha hopr hw hsent hused hin hsegs hlen hne
  case space =>
    have hop := opcode_of_inHand h
    have hreading : Reading s c x p v := .of_inHand h (.inr (.inr rfl)) ha hv
    refine ⟨fun hnone => ?_, fun hone hlon o ho hmark => ?_, fun hone hlon o ho hmark => ?_⟩
    · have hstatus : prevails (c.met ++ [0]) = 0 := by
        rw [hmet]
        decide
      have hzero : (spaceCount c).natAbs ≤ c.used := by
        rw [spaceCount, hnone, hused]
        decide
      have hover := hreading.serveCmd_ends hu (serveOnce_spaced hop hunit hzero) (by rw [hstatus]; decide)
      rw [hstatus, hcount] at hover
      obtain ⟨hdone, ⟨w, hw, -, hplace⟩, -⟩ := hover
      exact ⟨_, w, exec_space h, hdone, hw, hplace⟩
    · have hcountOne := spaceCount_one hone
      have hforward : spaceBack c = false := by
        rw [spaceBack, hcountOne]
        decide
      have hplaceOf : spacePlace c = c.lon := by simp [spacePlace, hforward]
      obtain ⟨t, hdone, ⟨w, hw, -, hplace⟩, -⟩ := hreading.space_passes hop hu hmet hunit hused (by rw [hcountOne]; decide)
        (fun hback => absurd (hforward.symm.trans hback) (by decide)) (fun _ => hlon) (by rwa [hplaceOf]) hmark
      rw [hcount] at hdone
      exact ⟨_, w, exec_space h, hdone, hw, hplace.trans (by simp [spaceNext, hforward, hplaceOf])⟩
    · have hcountOne := spaceCount_minus_one hone
      have hbackward : spaceBack c = true := by
        rw [spaceBack, hcountOne]
        decide
      have hplaceOf : spacePlace c = c.lon - 1 := by simp [spacePlace, hbackward]
      obtain ⟨t, hdone, ⟨w, hw, -, hplace⟩, -⟩ := hreading.space_passes hop hu hmet hunit hused (by rw [hcountOne]; decide)
        (fun _ => hlon) (fun hfront => absurd (hbackward.symm.trans hfront) (by decide)) (by rwa [hplaceOf]) hmark
      rw [hcount] at hdone
      exact ⟨_, w, exec_space h, hdone, hw, hplace.trans (by simp [spaceNext, hbackward, hplaceOf])⟩

end Sys2Proof.Machine
end

section
/-! PROOF. MOUNT and UNMOUNT (R319, R320, R366, R392): their clauses, and what the one about the read-only mount turns on. -/

namespace Sys2Proof.Machine

/-! ## Whether the volume is mounted read-only -/

/-- The mounted volume is read-only; none without a volume. -/
def mountMode (s : State) : Option Bool := s.drive.vol.map (·.readOnly)

theorem mountMode_congr {s t : State} (h : t.drive.vol = s.drive.vol) : mountMode t = mountMode s := by
  rw [mountMode, h, mountMode]

theorem mountMode_onVol {f : Volume → Volume} (hf : ∀ v, (f v).readOnly = v.readOnly) (s : State) : mountMode (onVol f s) = mountMode s := by
  simp only [mountMode, onVol, State.onDrive_drive, Option.map_map]
  exact congrArg (fun g => Option.map g s.drive.vol) (funext hf)

theorem mountMode_onPart (p : Nat) (f : Part → Part) (s : State) : mountMode (onPart p f s) = mountMode s :=
  mountMode_onVol (by exact fun _ => rfl) s

@[simp] theorem mountMode_cmGroup (rs : List CmReq) (m : CmMark) (s : State) : mountMode (cmGroup rs m s) = mountMode s :=
  mountMode_congr (cmGroup_drive_cmds rs m s).1

@[simp] theorem mountMode_writeHeader (dirty : Bool) (s : State) : mountMode (writeHeader dirty s) = mountMode s := by
  unfold writeHeader
  split
  · rfl
  · exact (mountMode_cmGroup _ _ _).trans (mountMode_onVol (by exact fun _ => rfl) s)

@[simp] theorem mountMode_writeWraps (s : State) : mountMode (writeWraps s) = mountMode s :=
  mountMode_congr ((writeWraps_kept (Nat.or_self _) (Kept.refl _ s)).same .driveVol (by decide +kernel))

@[simp] theorem mountMode_writeIndex (w part : Nat) (s : State) : mountMode (writeIndex w part s) = mountMode s :=
  mountMode_congr ((writeIndex_kept w part (Nat.or_self _) (Kept.refl _ s)).same .driveVol (by decide +kernel))

@[simp] theorem mountMode_stageEod (p lon : Nat) (s : State) : mountMode (stageEod p lon s) = mountMode s := by
  have hstage := fun (d : DataSet) => stage_kept d (Nat.or_self _) (Kept.refl _ (closePayload p s))
  exact (mountMode_onPart p _ _).trans (mountMode_congr ((hstage _).same .driveVol (by decide +kernel)))

theorem mountMode_draw (s : State) : mountMode (draw s) = mountMode s := rfl

theorem mountMode_onCupola (f : Cupola → Cupola) (s : State) : mountMode (s.onCupola f) = mountMode s := rfl

/-! ## The volume comes into force (R59, R114, R319) -/

theorem mountMode_writeRebuilt (f : Found0) (s : State) : mountMode (writeRebuilt f s) = mountMode s := by
  have hheader : ∀ v : Volume, mountMode (cmGroup (headerCopies v) (.header v.dirty) (onVol (fun v => { v with generation := 1 }) s)) =
      mountMode s := fun v => (mountMode_cmGroup ..).trans (mountMode_onVol (by exact fun _ => rfl) s)
  have hwraps : ∀ t : State, mountMode (forEach (List.range 20) (fun w => writeIndex w (wrapEntry t w).2.1) (writeWraps t)) = mountMode t :=
    fun t => forEach_preserves (P := fun u => mountMode u = mountMode t) _ (fun w u hu => (mountMode_writeIndex ..).trans hu)
      (mountMode_writeWraps t)
  have hrest : ∀ t : State, mountMode t = mountMode s →
      mountMode (if f.newWraps then forEach (List.range 20) (fun w => writeIndex w (wrapEntry t w).2.1) (writeWraps t) else t) = mountMode s := by
    intro t ht
    split
    · exact (hwraps t).trans ht
    · exact ht
  unfold writeRebuilt
  refine hrest _ ?_
  split
  · split
    · exact hheader _
    · rfl
  · rfl

theorem mountMode_countMount (f : Found0) (s : State) : mountMode (countMount f s) = mountMode s := by
  unfold countMount
  split
  · rfl
  · refine (mountMode_writeRebuilt f _).trans ?_
    split
    · exact mountMode_onVol (by exact fun _ => rfl) s
    · exact (mountMode_writeHeader _ _).trans (mountMode_onVol (by exact fun _ => rfl) s)

theorem mountMode_recoverPart (f : Found0) (p : Nat) (s : State) : mountMode (recoverPart f p s) = mountMode s := by
  unfold recoverPart
  extract_lets pt taken sets base e high place s1 s2
  have hend : mountMode s1 = mountMode s := mountMode_onPart p _ s
  have hreport : mountMode s2 = mountMode s := by
    simp only [s2]
    split <;> exact hend
  refine (mountMode_onVol (by exact fun _ => rfl) _).trans ?_
  split
  · exact (mountMode_stageEod _ _ _).trans hreport
  · exact hreport

theorem loadHead_vol (s : State) : (loadHead s).drive.vol = s.drive.vol :=
  (loadHead_kept (Nat.or_self _) (Kept.refl _ s)).same .driveVol (by decide +kernel)

theorem lantern_vol (code : Nat) (data : Bytes) (s : State) : (lantern code data s).drive.vol = s.drive.vol :=
  (lantern_kept code data (Nat.or_self _) (Kept.refl _ s)).same .driveVol (by decide +kernel)

theorem volumeFrom_readOnly (f : Found0) (ro : Bool) (s : State) : (volumeFrom f ro s).readOnly = ro := rfl

/-- A volume whose header tells of a newer format is mounted read-only, whatever the host asked for (R392). -/
theorem mountMode_bringVolume (ro : Bool) (s : State) :
    mountMode (bringVolume ro s) = some (ro || newerFormat (findVolume false s).header) := by
  unfold bringVolume
  extract_lets f s0 newer s1 s2 s3 s4
  have hvol : s1.drive.vol = some (volumeFrom f (ro || newer) s) := by
    rw [loadHead_vol, freshWrites, State.onWr_drive, (dropReads_drive_cmds _).1, State.onDrive_drive]
  have hfound : mountMode s1 = some (ro || newer) := by
    rw [mountMode, hvol, Option.map_some, volumeFrom_readOnly]
  have hdrawn : mountMode s2 = some (ro || newer) := (mountMode_draw _).trans ((mountMode_onCupola _ s1).trans hfound)
  have hcounted : mountMode s3 = some (ro || newer) := by
    simp only [s3]
    split
    · exact hdrawn
    · exact (mountMode_countMount f s2).trans hdrawn
  have hrecovered : mountMode s4 = some (ro || newer) :=
    forEach_preserves (P := fun t => mountMode t = some (ro || newer)) _ (fun p t ht => (mountMode_recoverPart f p t).trans ht) hcounted
  split
  · exact (mountMode_congr (lantern_vol ..)).trans hrecovered
  · exact hrecovered

/-! ## The steps of a MOUNT (R319) -/

/-- A command's step that leaves the volume as it is. -/
theorem mountEnd_vol (c : Cmd) (st : Nat) (s : State) : (mountEnd c st s).drive.vol = s.drive.vol :=
  (mountEnd_kept c st (Nat.or_self _) (Kept.refl _ s)).same .driveVol (by decide +kernel)

theorem writeUsage_vol (s : State) : (writeUsage s).drive.vol = s.drive.vol :=
  (writeUsage_kept (Nat.or_self _) (Kept.refl _ s)).same .driveVol (by decide +kernel)

/-- How the model mounts a volume that has passed the checks. -/
def mountsReadOnly (c : Cmd) (s : State) : Bool :=
  (specField c.entry 48 1).testBit 0 || !identityOk s || newerFormat (findVolume false s).header

section
variable {s : State} {c : Cmd}

theorem mountLoaded_refused {st : Nat} (h : mountCheckLast s = some st) : mountLoaded c s = mountRefused c st s := by
  rw [mountLoaded, h]

theorem mountMode_mountLoaded (h : mountCheckLast s = none) : mountMode (mountLoaded c s) = some (mountsReadOnly c s) := by
  unfold mountLoaded
  split
  next st hst => exact absurd (h.symm.trans hst) nofun
  extract_lets f strapped s1 s2 st
  have hbrought : mountMode s1 = some (mountsReadOnly c s) := mountMode_bringVolume _ s
  have hlogged : mountMode s2 = some (mountsReadOnly c s) := by
    simp only [s2]
    split
    · exact (mountMode_congr (writeUsage_vol s1)).trans hbrought
    · exact hbrought
  split
  · exact (mountMode_congr (mountEnd_vol ..)).trans hlogged
  · exact hlogged

/-- What a refused MOUNT leaves: the cartridge is on its way out. -/
def refusedState (s : State) : State := cmClose (startProgram 1 0 0 0 0 s)

theorem mountRefused_eq (st : Nat) : mountRefused c st s = reply c.qid c.tag st 0 (refusedState s) := rfl

theorem Drive.eq_of_parts {a b : Drive} (hcart : a.cart = b.cart) (hvol : a.vol = b.vol) (hlink : a.link = b.link) : a = b := by
  cases a
  cases b
  exact congr (congr (congrArg Drive.mk hcart) hvol) hlink

theorem startProgram_drive (g : Nat) (s : State) : (startProgram g 0 0 0 0 s).drive = s.drive :=
  have hkept := startProgram_kept g 0 0 0 0 (Nat.or_self _) (Kept.refl _ s)
  Drive.eq_of_parts (hkept.same .driveCart (by decide +kernel)) (hkept.same .driveVol (by decide +kernel))
    (hkept.same .driveLink (by decide +kernel))

theorem refusedState_vol (s : State) : (refusedState s).drive.vol = s.drive.vol :=
  ((cmClose_kept (Nat.or_self _) (Kept.refl _ (startProgram 1 0 0 0 0 s))).same .driveVol (by decide +kernel)).trans
    (congrArg Drive.vol (startProgram_drive 1 s))

theorem unmounted_of_checks (h : mountCheckFirst s = none) : s.drive.vol = none := by
  unfold mountCheckFirst at h
  split at h
  · exact absurd h nofun
  next hv => simpa using hv

theorem mountCheckFirst_mounted (hv : s.drive.vol.isSome = true) : mountCheckFirst s = some 0x0411 := if_pos hv

theorem mountCheckFirst_empty (hv : s.drive.vol = none) (hc : s.drive.cart = none) : mountCheckFirst s = some 0x0412 := by
  simp [mountCheckFirst, hv, hc]

theorem mountCheckFirst_fault (hv : s.drive.vol = none) (hc : s.drive.cart.isSome = true) (hp : s.pins.cartPresentN = false)
    (hm : s.stp.mode = .fault) : mountCheckFirst s = some 0x0416 := by
  simp [mountCheckFirst, hv, Option.isNone_eq_false_iff.mpr hc, hp, hm]

/-- The tape is off: THREAD starts. -/
theorem mountStep_off (h : mountCheckFirst s = none) (hm : s.stp.mode = .off) (h0 : c.goal = 0) (ha : programAllowed s 0 = true) :
    mountStep c s = onCmd c.qid c.tag (fun d => { d with goal := 1 }) (startProgram 0 0 0 0 0 s) := by
  simp [mountStep, h0, h, hm, ha]

variable (hg : c.goal < 5)
include hg

theorem mountStep_refused {st : Nat} (h : mountCheckFirst s = some st) : mountStep c s = reply c.qid c.tag st 0 s := by
  rw [mountStep, if_neg (by omega), if_neg (by omega), h]

theorem mountStep_still (h : mountCheckFirst s = none) (hm : s.stp.mode = .still) : mountStep c s = mountThreaded c s := by
  rw [mountStep, if_neg (by omega), if_neg (by omega), h, hm]

end

section
variable {s : State} {c : Cmd}

theorem mountThreaded_reads (h1 : c.goal = 1) (hf : s.stp.program.fault = 0) :
    mountThreaded c s = cmGroup memoryReads (.command c.qid c.tag) (onCmd c.qid c.tag (fun d => { d with goal := 4 }) s) := by
  simp [mountThreaded, h1, hf]

theorem mountThreaded_loaded (h2 : c.goal = 2) : mountThreaded c s = mountLoaded c s := by
  simp [mountThreaded, h2]

theorem mountThreaded_unread (h3 : c.goal = 3) : mountThreaded c s = mountRefused c 0x0412 s := by
  simp [mountThreaded, h3]

theorem mountStep_last (h6 : c.goal = 6) (hi : cmIdle s = true) : mountStep c s = reply c.qid c.tag c.count (mountResult s) s := by
  simp [mountStep, h6, mountEnd, hi]

theorem startProgram_running {g : Nat} (h : programAllowed s g = true) : (startProgram g 0 0 0 0 s).stp.program.running = true := by
  rw [startProgram, if_pos h]
  rfl

theorem cmdOf_startProgram (g q tag : Nat) (s : State) : cmdOf (startProgram g 0 0 0 0 s) q tag = cmdOf s q tag :=
  cmdOf_congr ((startProgram_kept g 0 0 0 0 (Nat.or_self _) (Kept.refl _ s)).same .hostCmds (by decide +kernel)) q tag

variable {q : Fin 256} {tag : BitVec 16}

theorem exec_mount (h : inHand s q.val tag.toNat opMount c) : exec (.mount q tag) s = .next (mountStep c s) := by
  change execMount q tag s = _
  rw [execMount, goLive_of_live _ h.1, h.2]

theorem exec_unmount (h : inHand s q.val tag.toNat opUnmount c) : exec (.unmount q tag) s = .next (unmountStep c s) := by
  change execUnmount q tag s = _
  rw [execUnmount, goLive_of_live _ h.1, h.2]

/-! ## UNMOUNT (R320) -/

theorem unmountStep_unmounted (hv : s.drive.vol = none) : unmountStep c s = reply c.qid c.tag 0x0411 0 s := by
  simp [unmountStep, hv]

theorem unmountStep_off (hv : s.drive.vol.isSome = true) (h2 : c.goal = 2) (hm : s.stp.mode = .off) (hi : cmIdle s = true) :
    unmountStep c s = reply c.qid c.tag 0 c.count (cmClose (volumeGone s)) := by
  simp [unmountStep, Option.isNone_eq_false_iff.mpr hv, h2, hm, hi, unmountDone]

theorem cmClose_vol (s : State) : (cmClose s).drive.vol = s.drive.vol :=
  (cmClose_kept (Nat.or_self _) (Kept.refl _ s)).same .driveVol (by decide +kernel)

end

/-! ## What the obligation turns on -/

/-- No cartridge of a newer format whose identity is accepted passes the checks of a MOUNT for writing. -/
def noNewerFormatAccepted : Prop :=
  ∀ (s : State) (q : Fin 256) (tag : BitVec 16) (c : Cmd), inHand s q.val tag.toNat opMount c → c.goal = 2 → mountCheckFirst s = none →
    s.stp.mode = .still → mountCheckLast s = none → identityOk s = true → (specField c.entry 48 1).testBit 0 = false →
    newerFormat (findVolume false s).header = false

/-- What O35, which stays unsettled, turns on: its clauses hold but for one case. R392 has a cartridge of a newer format mounted read-only, and the
clause on the read-only mount knows of READ_ONLY and of a refused identity alone, so O35 holds exactly when no such cartridge is accepted.
That rests on the verification of its signatures, which Config leaves opaque (log 3). -/
theorem mountsBringAVolumeIntoForce_iff : Obligations.MountsBringAVolumeIntoForce ↔ noNewerFormatAccepted := by
  unfold Obligations.MountsBringAVolumeIntoForce
  constructor
  · rintro ⟨hmount, -⟩ s q tag c h h2 hfirst hstill hlast hid hbit
    obtain ⟨-, -, -, -, -, hforce, -⟩ := hmount s q tag c h (by omega)
    obtain ⟨t, v, hexec, hv, hro⟩ := hforce hfirst hstill h2 hlast
    have hstep : t = mountLoaded c s := by
      have hsame := hexec.symm.trans (exec_mount h)
      rw [mountStep_still (by omega) hfirst hstill, mountThreaded_loaded h2] at hsame
      injection hsame
    have hmode := mountMode_mountLoaded (c := c) hlast
    rw [← hstep, mountMode, hv, Option.map_some, hro, hid, hbit] at hmode
    simpa [mountsReadOnly, hid, hbit] using (Option.some.inj hmode).symm
  · intro hformats
    refine ⟨fun s q tag c h hg => ?mount, fun s q tag c h h6 hi => ?last, fun s q tag c h => ?unmount⟩
    all_goals obtain ⟨hqid, htag⟩ := qid_tag_of_inHand h
    case mount =>
      have hcmd : cmdOf s c.qid c.tag = some c := by
        rw [hqid, htag]
        exact cmdOf_of_startedCmd h.2
      refine ⟨fun hv => ?_, fun hv hc => ?_, fun hv hc hp hm => ?_, fun hfirst hm h0 ha => ?_, fun hfirst hm h1 hf => ?_,
        fun hfirst hm h2 hlast => ?_, fun st hfirst hm h2 hlast => ?_, fun hfirst hm h3 => ?_⟩
      · rw [answers, exec_mount h, mountStep_refused hg (mountCheckFirst_mounted hv), hqid, htag]
      · rw [answers, exec_mount h, mountStep_refused hg (mountCheckFirst_empty hv hc), hqid, htag]
      · rw [answers, exec_mount h, mountStep_refused hg (mountCheckFirst_fault hv hc hp hm), hqid, htag]
      · refine ⟨_, { c with goal := 1 }, (exec_mount h).trans (congrArg _ (mountStep_off hfirst hm h0 ha)), ?_, rfl,
          startProgram_running ha, startProgram_drive 0 s⟩
        rw [← hqid, ← htag]
        exact cmdOf_onCmd_goal 1 ((cmdOf_startProgram ..).trans hcmd)
      · refine ⟨_, (exec_mount h).trans (congrArg _ ((mountStep_still hg hfirst hm).trans (mountThreaded_reads h1 hf))), ?_, ?_, ?_⟩
        · rw [cmGroup_queue, hqid, htag]
          rfl
        · rw [cmdOf_congr (cmGroup_drive_cmds ..).2.2, ← hqid, ← htag, cmdOf_onCmd_goal 4 hcmd]
          rfl
        · exact (cmGroup_drive_cmds ..).2.1
      · have hmode := mountMode_mountLoaded (c := c) hlast
        obtain ⟨v, hv, hro⟩ := Option.map_eq_some_iff.mp hmode
        refine ⟨_, v, (exec_mount h).trans (congrArg _ ((mountStep_still hg hfirst hm).trans (mountThreaded_loaded h2))), hv, hro.trans ?_⟩
        have hformat : identityOk s = true → (specField c.entry 48 1).testBit 0 = false → newerFormat (findVolume false s).header = false :=
          fun hid hbit => hformats s q tag c h h2 hfirst hm hlast hid hbit
        unfold mountsReadOnly
        cases hbit : (specField c.entry 48 1).testBit 0
        · cases hid : identityOk s
          · rfl
          · rw [hformat hid hbit]
            rfl
        · rfl
      · refine ⟨refusedState s, ?_, (refusedState_vol s).trans (unmounted_of_checks hfirst)⟩
        rw [answers, exec_mount h, mountStep_still hg hfirst hm, mountThreaded_loaded h2, mountLoaded_refused hlast, mountRefused_eq, hqid, htag]
      · refine ⟨refusedState s, ?_, (refusedState_vol s).trans (unmounted_of_checks hfirst)⟩
        rw [answers, exec_mount h, mountStep_still hg hfirst hm, mountThreaded_unread h3, mountRefused_eq, hqid, htag]
    case last => rw [answers, exec_mount h, mountStep_last h6 hi, hqid, htag]
    case unmount =>
      refine ⟨fun hv => ?_, fun hv h2 hm hi => ⟨cmClose (volumeGone s), ?_, (cmClose_vol _).trans (volumeGone_vol s)⟩⟩
      · rw [answers, exec_unmount h, unmountStep_unmounted hv, hqid, htag]
      · rw [answers, exec_unmount h, unmountStep_off hv h2 hm hi, hqid, htag]

end Sys2Proof.Machine
end

section
/-! PROOF. What every command and every step keep: the fields that a command does not touch, the queue of waiting commands, the byte
stores and the fused identity (R362, R405, logs 12 and 18). -/

namespace Sys2Proof.Machine

set_option Elab.async false

/-! ## Every command -/

/-- What each command keeps, from the lemma about its own meaning; the masks are compared by the kernel. -/
theorem exec_kept {i : Instr} {s t : State} (hexec : exec i s = .next t) : Kept (shiftMask (touches i)) s t := by
  cases i with
  | powerOnReset => exact execPowerOnReset_kept (by dsimp only [touches]; decide +kernel) hexec
  | pwrGoodFall ns => exact execPwrGoodFall_kept ns (by dsimp only [touches]; decide +kernel) hexec
  | sysResetNLow ns => exact execSysResetNLow_kept ns (by dsimp only [touches]; decide +kernel) hexec
  | startUp o => exact execStartUp_kept o (by dsimp only [touches]; decide +kernel) hexec
  | startConfirm fuseWriteOk => exact execStartConfirm_kept fuseWriteOk (by dsimp only [touches]; decide +kernel) hexec
  | watchdogExpiry => exact execWatchdogExpiry_kept (by dsimp only [touches]; decide +kernel) hexec
  | portReset p ns => exact execPortReset_kept p ns (by dsimp only [touches]; decide +kernel) hexec
  | flr p => exact execFlr_kept p (by dsimp only [touches]; decide +kernel) hexec
  | testEnHigh => exact execTestEnHigh_kept (by dsimp only [touches]; decide +kernel) hexec
  | strapChange now => exact execStrapChange_kept now (by dsimp only [touches]; decide +kernel) hexec
  | alarm cause => exact execAlarm_kept cause (by dsimp only [touches]; decide +kernel) hexec
  | sealLfsrTick sealB readback => exact execSealLfsrTick_kept sealB readback (by dsimp only [touches]; decide +kernel) hexec
  | presencePress => exact execPresencePress_kept (by dsimp only [touches]; decide +kernel) hexec
  | presenceWindowExpiry => exact execPresenceWindowExpiry_kept (by dsimp only [touches]; decide +kernel) hexec
  | wakeLatch n ns => exact execWakeLatch_kept n ns (by dsimp only [touches]; decide +kernel) hexec
  | cartRemoved => exact execCartRemoved_kept (by dsimp only [touches]; decide +kernel) hexec
  | cartInserted c => exact execCartInserted_kept c (by dsimp only [touches]; decide +kernel) hexec
  | shockNAssert ns => exact execShockNAssert_kept ns (by dsimp only [touches]; decide +kernel) hexec
  | shockNClear => exact execShockNClear_kept (by dsimp only [touches]; decide +kernel) hexec
  | shockHoldExpiry => exact execShockHoldExpiry_kept (by dsimp only [touches]; decide +kernel) hexec
  | motFaultNAssert => exact execMotFaultNAssert_kept (by dsimp only [touches]; decide +kernel) hexec
  | thermalSample milliC => exact execThermalSample_kept milliC (by dsimp only [touches]; decide +kernel) hexec
  | thermalCapStep => exact execThermalCapStep_kept (by dsimp only [touches]; decide +kernel) hexec
  | timeBaseSwitch aPresent bPresent => exact execTimeBaseSwitch_kept aPresent bPresent (by dsimp only [touches]; decide +kernel) hexec
  | lifetimeCheckpoint => exact execLifetimeCheckpoint_kept (by dsimp only [touches]; decide +kernel) hexec
  | adminEnable p => exact execAdminEnable_kept p (by dsimp only [touches]; decide +kernel) hexec
  | funcReset p => exact execFuncReset_kept p (by dsimp only [touches]; decide +kernel) hexec
  | sqTailDoorbell p q tail => exact execSqTailDoorbell_kept p q tail (by dsimp only [touches]; decide +kernel) hexec
  | cqHeadDoorbell p q head => exact execCqHeadDoorbell_kept p q head (by dsimp only [touches]; decide +kernel) hexec
  | sqFetch entries => exact execSqFetch_kept entries (by dsimp only [touches]; decide +kernel) hexec
  | commandStart sgl => exact execCommandStart_kept sgl (by dsimp only [touches]; decide +kernel) hexec
  | holdoffExpiry g => exact execHoldoffExpiry_kept g (by dsimp only [touches]; decide +kernel) hexec
  | staleExpiry g => exact execStaleExpiry_kept g (by dsimp only [touches]; decide +kernel) hexec
  | msixMaskWrite p vector masked => exact execMsixMaskWrite_kept p vector masked (by dsimp only [touches]; decide +kernel) hexec
  | portLoss p => exact execPortLoss_kept p (by dsimp only [touches]; decide +kernel) hexec
  | pathRestored l => exact execPathRestored_kept l (by dsimp only [touches]; decide +kernel) hexec
  | functionD3hot p bmeCleared => exact execFunctionD3hot_kept p bmeCleared (by dsimp only [touches]; decide +kernel) hexec
  | functionD0Return p => exact execFunctionD0Return_kept p (by dsimp only [touches]; decide +kernel) hexec
  | identify tag => exact execIdentify_kept tag (by dsimp only [touches]; decide +kernel) hexec
  | negotiate tag => exact execNegotiate_kept tag (by dsimp only [touches]; decide +kernel) hexec
  | createQp tag => exact execCreateQp_kept tag (by dsimp only [touches]; decide +kernel) hexec
  | deleteQp tag => exact execDeleteQp_kept tag (by dsimp only [touches]; decide +kernel) hexec
  | formatFloor tag => exact execFormatFloor_kept tag (by dsimp only [touches]; decide +kernel) hexec
  | wake tag => exact execWake_kept tag (by dsimp only [touches]; decide +kernel) hexec
  | queuePort tag => exact execQueuePort_kept tag (by dsimp only [touches]; decide +kernel) hexec
  | moderation tag => exact execModeration_kept tag (by dsimp only [touches]; decide +kernel) hexec
  | cmArea tag data => exact execCmArea_kept tag data (by dsimp only [touches]; decide +kernel) hexec
  | deadClear tag => exact execDeadClear_kept tag (by dsimp only [touches]; decide +kernel) hexec
  | getFeature tag => exact execGetFeature_kept tag (by dsimp only [touches]; decide +kernel) hexec
  | getLog tag => exact execGetLog_kept tag (by dsimp only [touches]; decide +kernel) hexec
  | powerState tag => exact execPowerState_kept tag (by dsimp only [touches]; decide +kernel) hexec
  | fwStage tag data flashOk => exact execFwStage_kept tag data flashOk (by dsimp only [touches]; decide +kernel) hexec
  | fwActivate tag => exact execFwActivate_kept tag (by dsimp only [touches]; decide +kernel) hexec
  | activationIdleTimeout => exact execActivationIdleTimeout_kept (by dsimp only [touches]; decide +kernel) hexec
  | activationStillTimeout => exact execActivationStillTimeout_kept (by dsimp only [touches]; decide +kernel) hexec
  | activationSwitch => exact execActivationSwitch_kept (by dsimp only [touches]; decide +kernel) hexec
  | barrierCoreTimeout core => exact execBarrierCoreTimeout_kept core (by dsimp only [touches]; decide +kernel) hexec
  | keyLoad tag block => exact execKeyLoad_kept tag block (by dsimp only [touches]; decide +kernel) hexec
  | keyErase tag => exact execKeyErase_kept tag (by dsimp only [touches]; decide +kernel) hexec
  | keyWithdrawDone slot => exact execKeyWithdrawDone_kept slot (by dsimp only [touches]; decide +kernel) hexec
  | keyQuery tag => exact execKeyQuery_kept tag (by dsimp only [touches]; decide +kernel) hexec
  | attest tag nonce => exact execAttest_kept tag nonce (by dsimp only [touches]; decide +kernel) hexec
  | debugUnlock tag => exact execDebugUnlock_kept tag (by dsimp only [touches]; decide +kernel) hexec
  | lanternClear tag => exact execLanternClear_kept tag (by dsimp only [touches]; decide +kernel) hexec
  | registerIntegratorKeys tag block => exact execRegisterIntegratorKeys_kept tag block (by dsimp only [touches]; decide +kernel) hexec
  | zeroizeAllKeys tag => exact execZeroizeAllKeys_kept tag (by dsimp only [touches]; decide +kernel) hexec
  | armDowngradePermit tag => exact execArmDowngradePermit_kept tag (by dsimp only [touches]; decide +kernel) hexec
  | downgradePermitExpiry => exact execDowngradePermitExpiry_kept (by dsimp only [touches]; decide +kernel) hexec
  | resetFailedStartCounter tag => exact execResetFailedStartCounter_kept tag (by dsimp only [touches]; decide +kernel) hexec
  | clearFails => exact execClearFails_kept (by dsimp only [touches]; decide +kernel) hexec
  | health => exact execHealth_kept (by dsimp only [touches]; decide +kernel) hexec
  | lanternRead rseq => exact execLanternRead_kept rseq (by dsimp only [touches]; decide +kernel) hexec
  | queueReset tag => exact execQueueReset_kept tag (by dsimp only [touches]; decide +kernel) hexec
  | tableLoad tag data flashOk => exact execTableLoad_kept tag data flashOk (by dsimp only [touches]; decide +kernel) hexec
  | mount q tag => exact execMount_kept q tag (by dsimp only [touches]; decide +kernel) hexec
  | unmount q tag => exact execUnmount_kept q tag (by dsimp only [touches]; decide +kernel) hexec
  | locate q tag => exact execLocate_kept q tag (by dsimp only [touches]; decide +kernel) hexec
  | readPosition q tag => exact execReadPosition_kept q tag (by dsimp only [touches]; decide +kernel) hexec
  | sync q tag => exact execSync_kept q tag (by dsimp only [touches]; decide +kernel) hexec
  | fence q tag => exact execFence_kept q tag (by dsimp only [touches]; decide +kernel) hexec
  | truncate q tag => exact execTruncate_kept q tag (by dsimp only [touches]; decide +kernel) hexec
  | refreshFullRebuild q tag => exact execRefreshFullRebuild_kept q tag (by dsimp only [touches]; decide +kernel) hexec
  | refreshLocateIndex q tag => exact execRefreshLocateIndex_kept q tag (by dsimp only [touches]; decide +kernel) hexec
  | partition q tag => exact execPartition_kept q tag (by dsimp only [touches]; decide +kernel) hexec
  | crypt q tag input param => exact execCrypt_kept q tag input param (by dsimp only [touches]; decide +kernel) hexec
  | cryptHandleTimeout h => exact execCryptHandleTimeout_kept h (by dsimp only [touches]; decide +kernel) hexec
  | write q tag lengths data => exact execWrite_kept q tag lengths data (by dsimp only [touches]; decide +kernel) hexec
  | writeMark q tag => exact execWriteMark_kept q tag (by dsimp only [touches]; decide +kernel) hexec
  | read q tag => exact execRead_kept q tag (by dsimp only [touches]; decide +kernel) hexec
  | verify q tag => exact execVerify_kept q tag (by dsimp only [touches]; decide +kernel) hexec
  | space q tag => exact execSpace_kept q tag (by dsimp only [touches]; decide +kernel) hexec
  | compressionBlockDone e => exact execCompressionBlockDone_kept e (by dsimp only [touches]; decide +kernel) hexec
  | compressionEngineFault e => exact execCompressionEngineFault_kept e (by dsimp only [touches]; decide +kernel) hexec
  | stagingStallRelease => exact execStagingStallRelease_kept (by dsimp only [touches]; decide +kernel) hexec
  | cupolaInvocation => exact execCupolaInvocation_kept (by dsimp only [touches]; decide +kernel) hexec
  | cupolaCoreError core => exact execCupolaCoreError_kept core (by dsimp only [touches]; decide +kernel) hexec
  | keepCopyMismatch failed => exact execKeepCopyMismatch_kept failed (by dsimp only [touches]; decide +kernel) hexec
  | domeParityCompute group dome => exact execDomeParityCompute_kept group dome (by dsimp only [touches]; decide +kernel) hexec
  | slotCommit => exact execSlotCommit_kept (by dsimp only [touches]; decide +kernel) hexec
  | verifyResult slot => exact execVerifyResult_kept slot (by dsimp only [touches]; decide +kernel) hexec
  | writeInhibit src => exact execWriteInhibit_kept src (by dsimp only [touches]; decide +kernel) hexec
  | writeResume => exact execWriteResume_kept (by dsimp only [touches]; decide +kernel) hexec
  | wrapEnd => exact execWrapEnd_kept (by dsimp only [touches]; decide +kernel) hexec
  | turnEntry => exact execTurnEntry_kept (by dsimp only [touches]; decide +kernel) hexec
  | stackLoss stack => exact execStackLoss_kept stack (by dsimp only [touches]; decide +kernel) hexec
  | cmResponse bytes => exact execCmResponse_kept bytes (by dsimp only [touches]; decide +kernel) hexec
  | cmFieldOffTimeout => exact execCmFieldOffTimeout_kept (by dsimp only [touches]; decide +kernel) hexec
  | cmPollRetry => exact execCmPollRetry_kept (by dsimp only [touches]; decide +kernel) hexec
  | wvnUpdate => exact execWvnUpdate_kept (by dsimp only [touches]; decide +kernel) hexec
  | speedReached => exact execSpeedReached_kept (by dsimp only [touches]; decide +kernel) hexec
  | avsReadback mv => exact execAvsReadback_kept mv (by dsimp only [touches]; decide +kernel) hexec
  | avsAckTimeout => exact execAvsAckTimeout_kept (by dsimp only [touches]; decide +kernel) hexec
  | avsRetryPeriod => exact execAvsRetryPeriod_kept (by dsimp only [touches]; decide +kernel) hexec
  | marginSample permille => exact execMarginSample_kept permille (by dsimp only [touches]; decide +kernel) hexec
  | bhDwellExpiry => exact execBhDwellExpiry_kept (by dsimp only [touches]; decide +kernel) hexec
  | backhitchStopped => exact execBackhitchStopped_kept (by dsimp only [touches]; decide +kernel) hexec
  | bhMaxWaitExpiry => exact execBhMaxWaitExpiry_kept (by dsimp only [touches]; decide +kernel) hexec
  | stoppedIdleTimeout => exact execStoppedIdleTimeout_kept (by dsimp only [touches]; decide +kernel) hexec
  | restartResume => exact execRestartResume_kept (by dsimp only [touches]; decide +kernel) hexec
  | readAhead => exact execReadAhead_kept (by dsimp only [touches]; decide +kernel) hexec
  | samplePacket g lane type fields crc payload =>
    exact execSamplePacket_kept g lane type fields crc payload (by dsimp only [touches]; decide +kernel) hexec
  | syncWindow c => exact execSyncWindow_kept c (by dsimp only [touches]; decide +kernel) hexec
  | frameEnd c => exact execFrameEnd_kept c (by dsimp only [touches]; decide +kernel) hexec
  | blockAReplay c => exact execBlockAReplay_kept c (by dsimp only [touches]; decide +kernel) hexec
  | siblingPrediction c => exact execSiblingPrediction_kept c (by dsimp only [touches]; decide +kernel) hexec
  | realignment c => exact execRealignment_kept c (by dsimp only [touches]; decide +kernel) hexec
  | deskewComplete slot => exact execDeskewComplete_kept slot (by dsimp only [touches]; decide +kernel) hexec
  | domeRecovery group dome => exact execDomeRecovery_kept group dome (by dsimp only [touches]; decide +kernel) hexec
  | retryAttemptDone => exact execRetryAttemptDone_kept (by dsimp only [touches]; decide +kernel) hexec
  | decryptInvocation => exact execDecryptInvocation_kept (by dsimp only [touches]; decide +kernel) hexec
  | decompressionBlockDone e => exact execDecompressionBlockDone_kept e (by dsimp only [touches]; decide +kernel) hexec
  | hostPacketCommit => exact execHostPacketCommit_kept (by dsimp only [touches]; decide +kernel) hexec
  | servoPacket frame => exact execServoPacket_kept frame (by dsimp only [touches]; decide +kernel) hexec
  | feedbackLost => exact execFeedbackLost_kept (by dsimp only [touches]; decide +kernel) hexec
  | fbHoldTimeout => exact execFbHoldTimeout_kept (by dsimp only [touches]; decide +kernel) hexec
  | controlledStopDone => exact execControlledStopDone_kept (by dsimp only [touches]; decide +kernel) hexec
  | oneBandTimeout => exact execOneBandTimeout_kept (by dsimp only [touches]; decide +kernel) hexec
  | encoderIndexPulse reel => exact execEncoderIndexPulse_kept reel (by dsimp only [touches]; decide +kernel) hexec
  | reelLoopTick => exact execReelLoopTick_kept (by dsimp only [touches]; decide +kernel) hexec
  | accSample x y z => exact execAccSample_kept x y z (by dsimp only [touches]; decide +kernel) hexec
  | sensorReading ack bytes => exact execSensorReading_kept ack bytes (by dsimp only [touches]; decide +kernel) hexec
  | motionLinkResponse stage frame => exact execMotionLinkResponse_kept stage frame (by dsimp only [touches]; decide +kernel) hexec
  | motionLinkKeepalive => exact execMotionLinkKeepalive_kept (by dsimp only [touches]; decide +kernel) hexec
  | steepleHeartbeat => exact execSteepleHeartbeat_kept (by dsimp only [touches]; decide +kernel) hexec
  | steepleHeartbeatTimeout => exact execSteepleHeartbeatTimeout_kept (by dsimp only [touches]; decide +kernel) hexec
  | st1Takeover cause => exact execSt1Takeover_kept cause (by dsimp only [touches]; decide +kernel) hexec
  | programStart prog p0 p1 p2 p3 => exact execProgramStart_kept prog p0 p1 p2 p3 (by dsimp only [touches]; decide +kernel) hexec
  | progEnd => exact execProgEnd_kept (by dsimp only [touches]; decide +kernel) hexec
  | progSpeed => exact execProgSpeed_kept (by dsimp only [touches]; decide +kernel) hexec
  | progWaitSpeed => exact execProgWaitSpeed_kept (by dsimp only [touches]; decide +kernel) hexec
  | progGotoLpos => exact execProgGotoLpos_kept (by dsimp only [touches]; decide +kernel) hexec
  | progWaitLpos => exact execProgWaitLpos_kept (by dsimp only [touches]; decide +kernel) hexec
  | progLateral => exact execProgLateral_kept (by dsimp only [touches]; decide +kernel) hexec
  | progWaitLat => exact execProgWaitLat_kept (by dsimp only [touches]; decide +kernel) hexec
  | progTilt => exact execProgTilt_kept (by dsimp only [touches]; decide +kernel) hexec
  | progLaw => exact execProgLaw_kept (by dsimp only [touches]; decide +kernel) hexec
  | progTension => exact execProgTension_kept (by dsimp only [touches]; decide +kernel) hexec
  | progDelay => exact execProgDelay_kept (by dsimp only [touches]; decide +kernel) hexec
  | progBranch => exact execProgBranch_kept (by dsimp only [touches]; decide +kernel) hexec
  | progEnable => exact execProgEnable_kept (by dsimp only [touches]; decide +kernel) hexec
  | progEvent => exact execProgEvent_kept (by dsimp only [touches]; decide +kernel) hexec
  | progChain => exact execProgChain_kept (by dsimp only [touches]; decide +kernel) hexec
  | progStop => exact execProgStop_kept (by dsimp only [touches]; decide +kernel) hexec
  | waitTimeout => exact execWaitTimeout_kept (by dsimp only [touches]; decide +kernel) hexec
  | faultClear => exact execFaultClear_kept (by dsimp only [touches]; decide +kernel) hexec
  | groupTrainStart g => exact execGroupTrainStart_kept g (by dsimp only [touches]; decide +kernel) hexec
  | cdrTimeout g => exact execCdrTimeout_kept g (by dsimp only [touches]; decide +kernel) hexec
  | blockLockGained g headers => exact execBlockLockGained_kept g headers (by dsimp only [touches]; decide +kernel) hexec
  | blockTimeout g => exact execBlockTimeout_kept g (by dsimp only [touches]; decide +kernel) hexec
  | trainPacket g lane header payload => exact execTrainPacket_kept g lane header payload (by dsimp only [touches]; decide +kernel) hexec
  | identTimeout g => exact execIdentTimeout_kept g (by dsimp only [touches]; decide +kernel) hexec
  | downRetryTimeout g => exact execDownRetryTimeout_kept g (by dsimp only [touches]; decide +kernel) hexec
  | statusPacket l header payload => exact execStatusPacket_kept l header payload (by dsimp only [touches]; decide +kernel) hexec
  | inboundLaneLost g lane => exact execInboundLaneLost_kept g lane (by dsimp only [touches]; decide +kernel) hexec
  | outboundLaneLost g lane => exact execOutboundLaneLost_kept g lane (by dsimp only [touches]; decide +kernel) hexec
  | samplePacketLost g ch => exact execSamplePacketLost_kept g ch (by dsimp only [touches]; decide +kernel) hexec
  | tokenPeriod => exact execTokenPeriod_kept (by dsimp only [touches]; decide +kernel) hexec
  | retrain mask => exact execRetrain_kept mask (by dsimp only [touches]; decide +kernel) hexec
  | groupEn mask => exact execGroupEn_kept mask (by dsimp only [touches]; decide +kernel) hexec
  | sourceRequest n => exact execSourceRequest_kept n (by dsimp only [touches]; decide +kernel) hexec
  | claim core => exact execClaim_kept core (by dsimp only [touches]; decide +kernel) hexec
  | eoi core source parityError => exact execEoi_kept core source parityError (by dsimp only [touches]; decide +kernel) hexec
  | belfryMaskWrite source priority route en =>
    exact execBelfryMaskWrite_kept source priority route en (by dsimp only [touches]; decide +kernel) hexec
  | coreTimerExpiry core timer => exact execCoreTimerExpiry_kept core timer (by dsimp only [touches]; decide +kernel) hexec
  | interCoreSignal core line => exact execInterCoreSignal_kept core line (by dsimp only [touches]; decide +kernel) hexec
  | belfryCopyMismatch failed => exact execBelfryCopyMismatch_kept failed (by dsimp only [touches]; decide +kernel) hexec
  | coreHeartbeatMissed core => exact execCoreHeartbeatMissed_kept core (by dsimp only [touches]; decide +kernel) hexec
  | hqItemWrite q writer item => exact execHqItemWrite_kept q writer item (by dsimp only [touches]; decide +kernel) hexec
  | hqItemRead q blocking => exact execHqItemRead_kept q blocking (by dsimp only [touches]; decide +kernel) hexec
  | hqStaleTail q writer => exact execHqStaleTail_kept q writer (by dsimp only [touches]; decide +kernel) hexec
  | hqFlush q => exact execHqFlush_kept q (by dsimp only [touches]; decide +kernel) hexec
  | hqDrain q => exact execHqDrain_kept q (by dsimp only [touches]; decide +kernel) hexec
  | hqDrainDone q => exact execHqDrainDone_kept q (by dsimp only [touches]; decide +kernel) hexec
  | instanceFault row inst => exact execInstanceFault_kept row inst (by dsimp only [touches]; decide +kernel) hexec
  | domainIdleGate d => exact execDomainIdleGate_kept d (by dsimp only [touches]; decide +kernel) hexec
  | ps4Commit => exact execPs4Commit_kept (by dsimp only [touches]; decide +kernel) hexec
  | powerStateExit cause => exact execPowerStateExit_kept cause (by dsimp only [touches]; decide +kernel) hexec
  | lanTrigArm value => exact execLanTrigArm_kept value (by dsimp only [touches]; decide +kernel) hexec
  | ctBroadcastWrite offset value => exact execCtBroadcastWrite_kept offset value (by dsimp only [touches]; decide +kernel) hexec
  | rcRead p offset => exact execRcRead_kept p offset (by dsimp only [touches]; decide +kernel) hexec
  | loWordRead p offset => exact execLoWordRead_kept p offset (by dsimp only [touches]; decide +kernel) hexec
  | badAccess p offset size isWrite => exact execBadAccess_kept p offset size isWrite (by dsimp only [touches]; decide +kernel) hexec
  | registerWrite p offset value => exact execRegisterWrite_kept p offset value (by dsimp only [touches]; decide +kernel) hexec
  | encoderEdge reel a b => exact execEncoderEdge_kept reel a b (by dsimp only [touches]; decide +kernel) hexec
  | discardedPacket g lane => exact execDiscardedPacket_kept g lane (by dsimp only [touches]; decide +kernel) hexec
  | holdoverReturn src => exact execHoldoverReturn_kept src (by dsimp only [touches]; decide +kernel) hexec
  | eccEncode => exact execEccEncode_kept (by dsimp only [touches]; decide +kernel) hexec

theorem changesOnly_of_kept {l : List Field} {s t : State} (h : Kept (shiftMask l) s t) : changesOnly l s t :=
  Kept.changesOnly (by rwa [fieldMask_eq_shiftMask])

/-- Settles O5: each command's own frame lemma, with the mask of the fields listed for it. -/
theorem eachCommandChangesOnlyItsFields : Obligations.EachCommandChangesOnlyItsFields :=
  fun _ _ _ hexec => changesOnly_of_kept (exec_kept hexec)

/-! ## Every step -/

/-- Settles O1, by the definition of a step on a queue that is not empty. -/
theorem stepRunsTheFrontCommand : Obligations.StepRunsTheFrontCommand := fun _ _ => rfl

theorem step_of_pending {c : Instr} {rest : List Instr} {s : State} (h : s.pending = c :: rest) :
    step s = exec c { s with pending := rest } := by
  rw [step, h]

theorem step_of_empty {s : State} (h : s.pending = []) : step s = .next (idleTick s) := by
  rw [step, h]

/-- A step is the tick of an empty queue, or the command at its front with the rest of the queue. -/
theorem step_cases {s t : State} (h : step s = .next t) :
    (s.pending = [] ∧ t = idleTick s) ∨ ∃ c rest, s.pending = c :: rest ∧ exec c { s with pending := rest } = .next t := by
  cases hp : s.pending with
  | nil =>
    rw [step_of_empty hp] at h
    injection h with h
    exact .inl ⟨rfl, h.symm⟩
  | cons c rest => exact .inr ⟨c, rest, rfl, (step_of_pending hp).symm.trans h⟩

/-- Settles O4: a command keeps the queue that it runs with. -/
theorem queueIsFirstInFirstOut : Obligations.QueueIsFirstInFirstOut := fun _ _ _ _ hp hstep =>
  (exec_kept ((step_of_pending hp).symm.trans hstep)).pending

/-- Whatever the step, the fuses are as they were and the byte stores stay canonical. -/
theorem step_keeps_boot_cart {s t : State} (h : step s = .next t) : BootKept s.boot t.boot ∧ (cartWf s.drive → cartWf t.drive) := by
  rcases step_cases h with ⟨-, rfl⟩ | ⟨c, rest, -, hexec⟩
  · have hk : Kept _ s (idleTick s) := idleTick_kept (Nat.or_self _) (Kept.refl _ s)
    exact ⟨hk.bootKept, hk.cart⟩
  · exact ⟨(exec_kept hexec).bootKept, (exec_kept hexec).cart⟩

/-- Settles O6: a step keeps the canonical form of the flash and of the memory of the cartridge that is in. -/
theorem byteStoresStayCanonical : Obligations.ByteStoresStayCanonical := by
  rintro s t ⟨hflash, hcart⟩ hstep
  obtain ⟨hboot, hdrive⟩ := step_keeps_boot_cart hstep
  exact ⟨hboot.flash hflash, hdrive hcart⟩

/-- Settles O7: right after reset the flash is empty and no cartridge is in. -/
theorem byteStoresStartCanonical : Obligations.ByteStoresStartCanonical := by
  refine ⟨⟨List.Pairwise.nil, fun c hc => ?_⟩, fun c hc => ?_⟩
  · cases hc
  · cases hc

/-- Settles O8: no operation writes a fuse that holds the identity. -/
theorem fusedIdentityNeverChanges : Obligations.FusedIdentityNeverChanges := by
  intro s t hstep
  obtain ⟨hboot, -⟩ := step_keeps_boot_cart hstep
  exact ⟨hboot.serial, hboot.secret, hboot.roots, hboot.endorsement⟩

/-! ## The tick of an empty queue (R405, log 18) -/

theorem idleTick_of_refclk {s : State} (h : s.power.src ≠ .holdover) : idleTick s = advanceTo (s.power.time + 1) s := by
  unfold idleTick
  cases hsrc : s.power.src with
  | portA => rfl
  | portB => rfl
  | holdover => exact absurd hsrc h

theorem idleTick_of_holdover {s : State} (h : s.power.src = .holdover) : idleTick s = s.onPower fun p =>
    { p with time := p.time + (p.frac + 390625) / 128, frac := (p.frac + 390625) % 128 } := by
  unfold idleTick
  rw [h]

/-- Settles O2: one tick of REFCLK, or a period of the crystal whose 128ths of a tick are carried. -/
theorem emptyQueueCountsOneTick : Obligations.EmptyQueueCountsOneTick := by
  intro s hp
  have hk : Kept (shiftMask [.powerTime, .powerFrac]) s (idleTick s) := idleTick_kept rfl (Kept.refl _ s)
  refine ⟨idleTick s, step_of_empty hp, changesOnly_of_kept hk, fun hsrc => ?_, fun hsrc => ?_⟩
  · rw [idleTick_of_refclk hsrc]
    exact ⟨max_eq_right (Nat.le_succ _), rfl⟩
  · rw [idleTick_of_holdover hsrc, State.onPower_power]
    dsimp only
    omega

end Sys2Proof.Machine
end

section
/-! PROOF. The time base never steps back (R405): a command that is the end of a timer brings it forward to the deadline that the state
holds, and nothing else moves it (log 22). -/

namespace Sys2Proof.Machine

set_option Elab.async false

/-- The time base stands no lower in the second state. -/
def timeGoesOn (s t : State) : Prop := s.power.time ≤ t.power.time

theorem timeGoesOn.of_eq {s t : State} (h : t.power.time = s.power.time) : timeGoesOn s t := h.ge

/-- Behind a deadline that the time base was brought to, everything but the time may change. -/
theorem timeGoesOn.of_kept {d : Nat} {s t : State} (h : Kept (allBut .powerTime) (advanceTo d s) t) : timeGoesOn s t :=
  (le_max_left s.power.time d).trans (Mask.out h.power.time rfl).ge

theorem timeGoesOn.advanceTo (d : Nat) (s : State) : timeGoesOn s (advanceTo d s) := .of_kept (Kept.refl _ _)

/-- A command whose frame leaves the time out leaves it as it is. -/
theorem timeGoesOn.of_touches {c : Instr} {s t : State} (hexec : exec c s = .next t) (hc : .powerTime ∉ touches c) : timeGoesOn s t :=
  .of_eq ((changesOnly_of_kept (exec_kept hexec)).2 .powerTime hc)

theorem timeGoesOn.of_go {s t u : State} (h : (.next u : Host.Outcome State Fault Refusal) = .next t) (hu : timeGoesOn s u) :
    timeGoesOn s t := by
  cases h
  exact hu

theorem timeGoesOn.of_goLive {s t u : State} (h : (.next (if live s then u else s) : Host.Outcome State Fault Refusal) = .next t)
    (hu : timeGoesOn s u) : timeGoesOn s t := by
  cases h
  split
  · exact hu
  · exact .of_eq rfl

/-! ## What the operations behind a deadline do to the time base

None of them moves it: the mask of each one's law leaves its bit out. -/

theorem time_of_kept {m : Nat} {s t : State} (h : Kept m s t) (hm : m.testBit 53 = false) : t.power.time = s.power.time :=
  Mask.out h.power.time hm

@[simp] theorem advanceTo_time (d : Nat) (s : State) : (advanceTo d s).power.time = max s.power.time d := rfl

@[simp] theorem emit_time (o : Out) (s : State) : (emit o s).power.time = s.power.time :=
  time_of_kept (emit_kept _ (Nat.or_self _) (Kept.refl _ s)) (by decide)

@[simp] theorem onLink_time (f : CmLink → CmLink) (s : State) : (onLink f s).power.time = s.power.time :=
  time_of_kept (onLink_kept _ (Nat.or_self _) (Kept.refl _ s)) (by decide)

@[simp] theorem raise_time (n : Nat) (s : State) : (raise n s).power.time = s.power.time :=
  time_of_kept (raise_kept _ (Nat.or_self _) (Kept.refl _ s)) (by decide)

@[simp] theorem lantern_time (code : Nat) (data : Bytes) (s : State) : (lantern code data s).power.time = s.power.time :=
  time_of_kept (lantern_kept _ _ (Nat.or_self _) (Kept.refl _ s)) (by decide)

@[simp] theorem draw_time (s : State) : (draw s).power.time = s.power.time := rfl

@[simp] theorem deliver_time (g : Nat) (s : State) : (deliver g s).power.time = s.power.time :=
  time_of_kept (deliver_kept _ (Nat.or_self _) (Kept.refl _ s)) (by decide)

@[simp] theorem reply_time (q tag status result : Nat) (s : State) : (reply q tag status result s).power.time = s.power.time :=
  time_of_kept (reply_kept _ _ _ _ (Nat.or_self _) (Kept.refl _ s)) (by decide)

@[simp] theorem releaseHold_time (s : State) : (releaseHold s).power.time = s.power.time :=
  time_of_kept (releaseHold_kept (Nat.or_self _) (Kept.refl _ s)) (by decide)

@[simp] theorem partReset_time (cause : Nat) (s : State) : (partReset cause s).power.time = s.power.time :=
  time_of_kept (partReset_kept _ (Nat.or_self _) (Kept.refl _ s)) (by decide)

@[simp] theorem enterPs4_time (acks : BitVec 7) (s : State) : (enterPs4 acks s).power.time = s.power.time :=
  time_of_kept (enterPs4_kept _ (Nat.or_self _) (Kept.refl _ s)) (by decide)

@[simp] theorem pruneRewrites_time (s : State) : (pruneRewrites s).power.time = s.power.time :=
  time_of_kept (pruneRewrites_kept (Nat.or_self _) (Kept.refl _ s)) (by decide)

@[simp] theorem writeTail_time (s : State) : (writeTail s).power.time = s.power.time :=
  time_of_kept (writeTail_kept (Nat.or_self _) (Kept.refl _ s)) (by decide)

@[simp] theorem endRun_time (s : State) : (endRun s).power.time = s.power.time :=
  time_of_kept (endRun_kept (Nat.or_self _) (Kept.refl _ s)) (by decide)

@[simp] theorem leaveSlot_time (point : Rat) (s : State) : (leaveSlot point s).power.time = s.power.time :=
  time_of_kept (leaveSlot_kept _ (Nat.or_self _) (Kept.refl _ s)) (by decide)

@[simp] theorem leaveSkip_time (point : Rat) (s : State) : (leaveSkip point s).power.time = s.power.time :=
  time_of_kept (leaveSkip_kept _ (Nat.or_self _) (Kept.refl _ s)) (by decide)

@[simp] theorem useSlot_time (point : Rat) (s : State) : (useSlot point s).power.time = s.power.time :=
  time_of_kept (useSlot_kept _ (Nat.or_self _) (Kept.refl _ s)) (by decide)

@[simp] theorem afterVerify_time (s : State) : (afterVerify s).power.time = s.power.time :=
  time_of_kept (afterVerify_kept (Nat.or_self _) (Kept.refl _ s)) (by decide)

@[simp] theorem resumeTokens_time (s : State) : (resumeTokens s).power.time = s.power.time :=
  time_of_kept (resumeTokens_kept (Nat.or_self _) (Kept.refl _ s)) (by decide)

@[simp] theorem cmClose_time (s : State) : (cmClose s).power.time = s.power.time :=
  time_of_kept (cmClose_kept (Nat.or_self _) (Kept.refl _ s)) (by decide)

@[simp] theorem setMode_time (m : SteepleMode) (s : State) : (setMode m s).power.time = s.power.time :=
  time_of_kept (setMode_kept _ (Nat.or_self _) (Kept.refl _ s)) (by decide)

@[simp] theorem setEnables_time (m : BitVec 5) (s : State) : (setEnables m s).power.time = s.power.time :=
  time_of_kept (setEnables_kept _ (Nat.or_self _) (Kept.refl _ s)) (by decide)

@[simp] theorem controlledStop_time (a : Rat) (s : State) : (controlledStop a s).power.time = s.power.time :=
  time_of_kept (controlledStop_kept _ (Nat.or_self _) (Kept.refl _ s)) (by decide)

@[simp] theorem brakeIfBlind_time (s : State) : (brakeIfBlind s).power.time = s.power.time :=
  time_of_kept (brakeIfBlind_kept (Nat.or_self _) (Kept.refl _ s)) (by decide)

@[simp] theorem stopDone_time (s : State) : (stopDone s).power.time = s.power.time :=
  time_of_kept (stopDone_kept (Nat.or_self _) (Kept.refl _ s)) (by decide)

@[simp] theorem nextStep_time (s : State) : (nextStep s).power.time = s.power.time :=
  time_of_kept (nextStep_kept (Nat.or_self _) (Kept.refl _ s)) (by decide)

@[simp] theorem beginWait_time (timeout : Option Nat) (s : State) : (beginWait timeout s).power.time = s.power.time :=
  time_of_kept (beginWait_kept _ (Nat.or_self _) (Kept.refl _ s)) (by decide)

@[simp] theorem programFault_time (code : Nat) (s : State) : (programFault code s).power.time = s.power.time :=
  time_of_kept (programFault_kept _ (Nat.or_self _) (Kept.refl _ s)) (by decide)

@[simp] theorem onHwq_time (q : Nat) (f : HwQueue → HwQueue) (s : State) : (onHwq q f s).power.time = s.power.time :=
  time_of_kept (onHwq_kept _ _ (Nat.or_self _) (Kept.refl _ s)) (by decide)

@[simp] theorem hqSeqError_time (q : Nat) (s : State) : (hqSeqError q s).power.time = s.power.time :=
  time_of_kept (hqSeqError_kept _ (Nat.or_self _) (Kept.refl _ s)) (by decide)

@[simp] theorem hqAdmit_time (q : Nat) (s : State) : (hqAdmit q s).power.time = s.power.time :=
  time_of_kept (hqAdmit_kept _ (Nat.or_self _) (Kept.refl _ s)) (by decide)

@[simp] theorem hqWake_time (q : Nat) (s : State) : (hqWake q s).power.time = s.power.time :=
  time_of_kept (hqWake_kept _ (Nat.or_self _) (Kept.refl _ s)) (by decide)

theorem forEach_time {α : Type} (l : List α) (f : α → State → State) (hf : ∀ x t, (f x t).power.time = t.power.time) (s : State) :
    (forEach l f s).power.time = s.power.time :=
  forEach_preserves (P := fun t => t.power.time = s.power.time) l (fun x t h => (hf x t).trans h) rfl

/-! ## The commands that end a timer -/

/-- The time base after a commit point, whichever way its slot goes. -/
theorem commitSlot_time (s : State) : (commitSlot s).power.time = max s.power.time ⌈commitPoint s⌉.toNat := by
  have htoken (t : State) : (forEach (upGroups t) permitToken (t.onWr fun w => { w with tokens := true })).power.time = t.power.time :=
    forEach_time _ permitToken (fun g u => time_of_kept (permitToken_kept g (Nat.or_self _) (Kept.refl _ u)) (by decide)) _
  unfold commitSlot
  have hs : (pruneRewrites (advanceTo ⌈commitPoint s⌉.toNat s)).power.time = max s.power.time ⌈commitPoint s⌉.toNat := pruneRewrites_time _
  dsimp only
  generalize pruneRewrites (advanceTo ⌈commitPoint s⌉.toNat s) = u at hs ⊢
  rw [← hs]
  have htokens : (if u.wr.tokens then u else forEach (upGroups u) permitToken (u.onWr fun w => { w with tokens := true })).power.time =
      u.power.time := by
    split
    · rfl
    · exact htoken u
  generalize (if u.wr.tokens then u else forEach (upGroups u) permitToken (u.onWr fun w => { w with tokens := true })) = v at htokens ⊢
  split
  · exact writeTail_time _
  split
  · split
    · exact endRun_time u
    · exact leaveSlot_time _ u
  split
  · exact leaveSlot_time _ u
  split
  · exact (leaveSkip_time _ _).trans htokens
  · exact (afterVerify_time _).trans ((useSlot_time _ _).trans htokens)

theorem timeGoesOn_commitSlot (s : State) : timeGoesOn s (commitSlot s) := by
  unfold timeGoesOn
  rw [commitSlot_time]
  exact le_max_left _ _

theorem timeGoesOn_weathervaneUpdate (s : State) : timeGoesOn s (weathervaneUpdate s) := by
  obtain ⟨htime, -, -⟩ := weathervaneUpdate_time_stall_moved s
  unfold timeGoesOn
  rw [htime]
  exact le_max_left _ _

theorem timeGoesOn_stopEnds (s : State) : timeGoesOn s (stopEnds s) := by
  unfold timeGoesOn stopEnds
  split
  · exact le_rfl
  · split
    · simp
    · split_ifs <;> simp

theorem timeGoesOn_holdTimeout (s : State) : timeGoesOn s (holdTimeout s) := by
  unfold timeGoesOn holdTimeout
  generalize s.stp.holdFrom + 8 * msTicks = due
  split_ifs <;> simp

theorem timeGoesOn_heartbeatTimeout (s : State) : timeGoesOn s (heartbeatTimeout s) := by
  unfold timeGoesOn heartbeatTimeout
  generalize s.stp.beatAt + 2000 * msTicks = due
  dsimp only
  split <;> simp

theorem timeGoesOn_activationTimeout (mode : Nat) (s : State) : timeGoesOn s (activationTimeout mode s) := by
  unfold timeGoesOn activationTimeout
  dsimp only
  split
  · split_ifs <;> simp
  · exact le_rfl

theorem timeGoesOn_runStep {op : Nat} {f : Nat → Nat → State → State} (hf : ∀ a b s, timeGoesOn s (f a b s)) (s : State) :
    timeGoesOn s (runStep op f s) := by
  unfold runStep
  split
  · split_ifs
    · exact hf _ _ s
    · exact .of_eq rfl
  · exact .of_eq rfl

theorem timeGoesOn_stepDelay (a _b : Nat) (s : State) : timeGoesOn s (stepDelay a s) := by
  unfold timeGoesOn stepDelay
  split_ifs <;> simp

theorem timeGoesOn_waitTimeout (s : State) : timeGoesOn s (waitTimeout s) := by
  unfold timeGoesOn waitTimeout
  split
  · split_ifs <;> simp
  · exact le_rfl

/-- A timer that is not running leaves the state, and one that runs brings the time base to its deadline first. -/
theorem timeGoesOn_of_timer {s : State} {o : Option Nat} {f : Nat → State} (hf : ∀ t, timeGoesOn s (f t)) :
    timeGoesOn s (match o with | some t => f t | none => s) := by
  cases o with
  | none => exact .of_eq rfl
  | some t => exact hf t

/-- Settles O60, by the case of each command that brings the time base to a deadline; the frame of every other leaves the time out. -/
theorem timeNeverStepsBack : Obligations.TimeNeverStepsBack := by
  intro c s t hc hexec
  change timeGoesOn s t
  cases c with
  | powerOnReset => exact absurd rfl hc
  | slotCommit => exact .of_goLive hexec (by dsimp only; split_ifs <;> [exact timeGoesOn_commitSlot s; exact .of_eq rfl])
  | wvnUpdate => exact .of_goLive hexec (timeGoesOn_weathervaneUpdate s)
  | fbHoldTimeout => exact .of_goLive hexec (timeGoesOn_holdTimeout s)
  | controlledStopDone => exact .of_goLive hexec (timeGoesOn_stopEnds s)
  | steepleHeartbeatTimeout => exact .of_goLive hexec (timeGoesOn_heartbeatTimeout s)
  | activationIdleTimeout => exact .of_goLive hexec (timeGoesOn_activationTimeout 1 s)
  | activationStillTimeout => exact .of_goLive hexec (timeGoesOn_activationTimeout 2 s)
  | progDelay => exact .of_goLive hexec (timeGoesOn_runStep timeGoesOn_stepDelay s)
  | waitTimeout => exact .of_goLive hexec (timeGoesOn_waitTimeout s)
  | watchdogExpiry => exact .of_go hexec (by dsimp only; split <;> simp [timeGoesOn])
  | presenceWindowExpiry => exact .of_go hexec (by dsimp only; split <;> simp [timeGoesOn])
  | shockHoldExpiry => exact .of_goLive hexec (by dsimp only; split <;> simp [timeGoesOn])
  | downgradePermitExpiry => exact .of_goLive hexec (by dsimp only; split <;> simp [timeGoesOn])
  | oneBandTimeout => exact .of_goLive hexec (by dsimp only; split <;> simp [timeGoesOn, inhibitOn_time])
  | holdoffExpiry g => exact .of_goLive hexec (by dsimp only; split <;> simp [timeGoesOn])
  | staleExpiry g => exact .of_goLive hexec (by dsimp only; split <;> simp [timeGoesOn])
  | ps4Commit => exact .of_goLive hexec (by dsimp only; split <;> simp [timeGoesOn])
  | writeResume => exact .of_goLive hexec (by dsimp only; split_ifs <;> simp [timeGoesOn])
  | cmFieldOffTimeout => exact .of_goLive hexec (by dsimp only; split_ifs <;> simp [timeGoesOn])
  | cmPollRetry => exact .of_goLive hexec (by dsimp only; split_ifs <;> simp [timeGoesOn])
  | bhMaxWaitExpiry => exact .of_goLive hexec (by dsimp only; split_ifs <;> simp [timeGoesOn, restart_time])
  | stoppedIdleTimeout => exact .of_goLive hexec (by dsimp only; split_ifs <;> simp [timeGoesOn])
  | hqStaleTail q w => exact .of_go hexec (by dsimp only; split <;> [split_ifs <;> simp [timeGoesOn]; exact .of_eq rfl])
  | _ => exact .of_touches hexec (by dsimp only [touches]; decide)

end Sys2Proof.Machine
end

section
/-! PROOF. Registers and secrets: what every offset reads is a function of the state with its secrets blanked (R417). -/

namespace Sys2Proof.Machine

set_option Elab.async false

/-! ## Reads and secrets -/

theorem keySlot_withoutSecrets (s : State) (i : Nat) : (keySlot (withoutSecrets s) i).state = (keySlot s i).state ∧
    (keySlot (withoutSecrets s) i).shadow.isSome = (keySlot s i).shadow.isSome := by
  unfold keySlot getAt
  split
  · simp [withoutSecrets]
  · exact ⟨rfl, rfl⟩

theorem keepWord_withoutSecrets (s : State) (off : Nat) : keepWord (withoutSecrets s) off = keepWord s off := by
  have hloaded : slotLoaded (withoutSecrets s) = slotLoaded s := funext fun i => by
    unfold slotLoaded
    rw [(keySlot_withoutSecrets s i).1]
  have hshadow : slotShadow (withoutSecrets s) = slotShadow s := funext fun i => (keySlot_withoutSecrets s i).2
  unfold keepWord
  rw [hloaded, hshadow]
  split <;> rfl

theorem cupWord_withoutSecrets (s : State) (off : Nat) : cupWord (withoutSecrets s) off = cupWord s off := by
  have hctxs : (withoutSecrets s).cupola.ctxs.length = s.cupola.ctxs.length := List.length_map _
  have hdie : onDie (withoutSecrets s).cupola = onDie s.cupola := congrArg (· - s.cupola.spilled.length) hctxs
  unfold cupWord
  split
  case h_4 =>
    dsimp only
    rw [hdie, hctxs]
  all_goals rfl

theorem stpWord_withoutSecrets (s : State) (off : Nat) : stpWord (withoutSecrets s) off = stpWord s off := by
  unfold stpWord
  split <;> rfl

theorem lanWord_withoutSecrets (s : State) (off : Nat) : lanWord (withoutSecrets s) off = lanWord s off := by
  unfold lanWord
  split <;> rfl

theorem blfWord_withoutSecrets (s : State) (off : Nat) : blfWord (withoutSecrets s) off = blfWord s off := by
  unfold blfWord
  dsimp only
  split_ifs
  · rfl
  · rfl
  · rfl
  · rfl
  · rfl
  · rfl
  · split <;> rfl

theorem hqRegWord_withoutSecrets (s : State) (off : Nat) : hqRegWord (withoutSecrets s) off = hqRegWord s off := by
  unfold hqRegWord
  dsimp only
  split
  · split <;> rfl
  · split <;> rfl

theorem wvnWord_withoutSecrets (s : State) (off : Nat) : wvnWord (withoutSecrets s) off = wvnWord s off := by
  unfold wvnWord
  dsimp only
  split
  · rfl
  · split <;> rfl

theorem pwrWord_withoutSecrets (s : State) (off : Nat) : pwrWord (withoutSecrets s) off = pwrWord s off := by
  have hpower : (withoutSecrets s).power = s.power := rfl
  unfold pwrWord
  rw [hpower]

theorem eccWord_withoutSecrets (s : State) (off : Nat) : eccWord (withoutSecrets s) off = eccWord s off := by
  unfold eccWord
  dsimp only
  split
  · rfl
  · split <;> rfl

theorem hlkWord_withoutSecrets (s : State) (off : Nat) : hlkWord (withoutSecrets s) off = hlkWord s off := by
  have hcap : linkCap (withoutSecrets s) = linkCap s := rfl
  have hlink : (withoutSecrets s).hlk = s.hlk := rfl
  unfold hlkWord
  rw [hcap, hlink]

theorem genWord_withoutSecrets (s : State) (off : Nat) : genWord (withoutSecrets s) off = genWord s off := rfl

theorem tileWord_withoutSecrets (s : State) (t o : Nat) : tileWord (withoutSecrets s) t o = tileWord s t o := rfl

theorem doorbellWord_withoutSecrets (s : State) (off : Nat) : doorbellWord (withoutSecrets s) off = doorbellWord s off := rfl

theorem broadcastWord_withoutSecrets (s : State) (off : Nat) : broadcastWord (withoutSecrets s) off = broadcastWord s off := rfl

theorem portOf_withoutSecrets (s : State) (p : Port) : portOf (withoutSecrets s) p = portOf s p := by
  cases p <;> rfl

/-- Block by block of Table 17-1, no register reads a secret. -/
theorem regValue_withoutSecrets (p : Port) (s : State) (off : Nat) : regValue p (withoutSecrets s) off = regValue p s off := by
  unfold regValue
  rw [keepWord_withoutSecrets, cupWord_withoutSecrets, stpWord_withoutSecrets, lanWord_withoutSecrets, blfWord_withoutSecrets,
    hqRegWord_withoutSecrets, wvnWord_withoutSecrets, pwrWord_withoutSecrets, eccWord_withoutSecrets, hlkWord_withoutSecrets,
    genWord_withoutSecrets, tileWord_withoutSecrets, doorbellWord_withoutSecrets, broadcastWord_withoutSecrets, portOf_withoutSecrets]

theorem readValue_withoutSecrets (p : Port) (s : State) (off : Nat) : readValue p (withoutSecrets s) off = readValue p s off := by
  unfold readValue
  rw [regValue_withoutSecrets, portOf_withoutSecrets]

/-! ## What a read sends -/

theorem clearRc_latched_out (off : Nat) (p : Port) (hi v : Nat) (c : Bool) (s : State) :
    (clearRc off (if c then latchHi p hi v s else s)).out = s.out := by
  have hlatch : Kept (allBut .out) s (if c then latchHi p hi v s else s) := by
    split
    · exact latchHi_kept p hi v rfl (Kept.refl _ s)
    · exact Kept.refl _ s
  exact (clearRc_kept off rfl hlatch).same .out rfl

theorem readReg_out (p : Port) (off : Nat) (s : State) : (readReg p off s).out = s.out ++ [.regData p off (w32 (readValue p s off))] := by
  unfold readReg emit
  dsimp only
  rw [clearRc_latched_out]

theorem readAt_out (p : Port) (off : Nat) (s : State) :
    (readAt p off s).out = s.out ++ [.regData p off (if off % 4 = 0 then w32 (readValue p s off) else 0)] := by
  unfold readAt
  split
  · exact readReg_out p off s
  · rfl

/-- Settles O59: both states read as their common state with the secrets blanked. -/
theorem registersRevealNoKey : Obligations.RegistersRevealNoKey := by
  intro p off s u h
  have hreg : regValue p s off = regValue p u off := by
    rw [← regValue_withoutSecrets p s, h, regValue_withoutSecrets]
  have hread : readValue p s off = readValue p u off := by
    rw [← readValue_withoutSecrets p s, h, readValue_withoutSecrets]
  have hlive : live s = live u := (congrArg live h : live (withoutSecrets s) = live (withoutSecrets u))
  have hout : s.out = u.out := (congrArg State.out h : (withoutSecrets s).out = (withoutSecrets u).out)
  refine ⟨hreg, if live s then readAt p off s else s, if live u then readAt p off u else u, rfl, rfl, ?_⟩
  rw [hlive]
  split
  · rw [readAt_out, readAt_out, hread, hout]
  · exact hout

end Sys2Proof.Machine
end

section
/-! PROOF. The clock of the time base, and the lifetime count in MRAM (R405, R406). -/

namespace Sys2Proof.Machine

set_option Elab.async false

/-! ## Sources of the time base -/

theorem changesOnly_of_exec {c : Instr} {s t : State} (h : exec c s = .next t) : changesOnly (touches c) s t :=
  changesOnly_of_kept (exec_kept h)

/-- A field that turns out to be as it was leaves the list. -/
theorem changesOnly.narrow {l l' : List Field} {s t : State} (h : changesOnly l s t) (hl : ∀ f ∈ l, f ∉ l' → f.same s t) : changesOnly l' s t := by
  obtain ⟨hpending, hsame⟩ := h
  refine ⟨hpending, fun f hf => ?_⟩
  by_cases hfl : f ∈ l
  · exact hl f hfl hf
  · exact hsame f hfl

theorem setSource_power (src : TimeSource) (s : State) : (setSource src s).power = { s.power with
    src := src, cntHoldover := if src = .holdover ∧ s.power.src ≠ .holdover then inc s.power.cntHoldover else s.power.cntHoldover } := rfl

theorem exec_holdoverReturn_of_none {src : TimeSource} {s : State} (h : s.power.src ≠ .holdover ∨ src = .holdover) :
    exec (.holdoverReturn src) s = .next s :=
  congrArg Host.Outcome.next (if_neg (by tauto))

theorem exec_holdoverReturn_of_holdover {src : TimeSource} {s : State} (h : s.power.src = .holdover) (hsrc : src ≠ .holdover) :
    exec (.holdoverReturn src) s =
      .next (setSource src (s.onPower fun p => { p with refA := p.refA || src == .portA, refB := p.refB || src == .portB })) :=
  congrArg Host.Outcome.next (if_pos ⟨h, hsrc⟩)

/-- Settles O26, by the clock that each pair of REFCLK inputs selects. -/
theorem timeBaseGoesOver : Obligations.TimeBaseGoesOver := by
  refine ⟨fun a b s => ?_, fun src s hhold hsrc => ?_, fun src s => exec_holdoverReturn_of_none, fun s => ?_⟩
  · refine ⟨_, rfl, rfl, rfl, rfl, ?_, ?_, ?_, rfl, changesOnly_of_exec (c := .timeBaseSwitch a b) rfl⟩
    · rintro rfl
      rfl
    · rintro rfl rfl
      rfl
    · rintro rfl rfl
      rfl
  · have hexec := exec_holdoverReturn_of_holdover hhold hsrc
    have hcount : (setSource src (s.onPower fun p => { p with refA := p.refA || src == .portA, refB := p.refB || src == .portB })).power.cntHoldover =
        s.power.cntHoldover := if_neg fun h => hsrc h.1
    refine ⟨_, hexec, rfl, rfl, hcount, ?_⟩
    refine (changesOnly_of_exec hexec).narrow fun f hf hout => ?_
    obtain rfl : f = .powerCntHoldover := by
      dsimp only [touches] at hf
      simp only [List.mem_cons, List.not_mem_nil, or_false] at hf hout
      tauto
    exact hcount
  · exact ⟨_, rfl, rfl, changesOnly_of_exec (c := .lifetimeCheckpoint) rfl⟩

end Sys2Proof.Machine
end

section
/-! PROOF. Register accesses: what a read answers, latches and clears, what a write changes, and what is only counted (R167, R413 to R416). -/

namespace Sys2Proof.Machine

set_option Elab.async false

/-! ## Reads -/

theorem exec_rcRead {p : Port} {off : Nat} {s : State} (hl : live s = true) : exec (.rcRead p off) s = .next (readAt p off s) :=
  goLive_of_live _ hl

theorem readAt_aligned {p : Port} {off : Nat} {s : State} (h : off % 4 = 0) : readAt p off s = readReg p off s := if_pos h

theorem portState_eq_of_pba {x y : PortState} (h : { x with pba := 0 } = { y with pba := 0 }) (hpba : x.pba = y.pba) : x = y := by
  cases x
  cases y
  simp only [PortState.mk.injEq] at h hpba ⊢
  tauto

/-- What keeps the ports and their pending bits leaves a port's state whole. -/
theorem portOf_of_kept {m : Nat} {s t : State} (h : Kept m s t) (hm : m &&& shiftMask [.hostPortA, .hostPortB, .hostPba] = 0) (q : Port) :
    portOf t q = portOf s q := by
  have hout (f : Field) (hf : (shiftMask [.hostPortA, .hostPortB, .hostPba]).testBit f.ctorIdx = true) : m.testBit f.ctorIdx = false := by
    have hbit := congrArg (·.testBit f.ctorIdx) hm
    simpa [hf] using hbit
  have hpba : (t.host.portA.pba, t.host.portB.pba) = (s.host.portA.pba, s.host.portB.pba) := h.same .hostPba (hout _ (by decide))
  rw [Prod.mk.injEq] at hpba
  obtain ⟨hpbaA, hpbaB⟩ := hpba
  cases q with
  | a => exact portState_eq_of_pba (h.same .hostPortA (hout _ (by decide))) hpbaA
  | b => exact portState_eq_of_pba (h.same .hostPortB (hout _ (by decide))) hpbaB

theorem portOf_emit (o : Out) (s : State) (q : Port) : portOf (emit o s) q = portOf s q := by
  cases q <;> rfl

theorem readReg_portOf (p q : Port) (off : Nat) (s : State) :
    portOf (readReg p off s) q = portOf (if loWords.contains off then latchHi p (off + 4) (regValue p s (off + 4)) s else s) q := by
  unfold readReg
  dsimp only
  generalize (if loWords.contains off then latchHi p (off + 4) (regValue p s (off + 4)) s else s) = u
  exact (portOf_emit _ _ q).trans (portOf_of_kept (clearRc_kept off (Nat.or_self _) (Kept.refl _ u)) rfl q)

theorem portOf_latchHi_same (p : Port) (off v : Nat) (s : State) :
    portOf (latchHi p off v s) p = { portOf s p with hiLatch := (off, w32 v) :: (portOf s p).hiLatch.filter fun e => e.1 != off } :=
  portOf_onPort_same p _ s

theorem portOf_latchHi_other (p : Port) (off v : Nat) (s : State) : portOf (latchHi p off v s) (otherPort p) = portOf s (otherPort p) :=
  portOf_onPort_other p _ s

theorem assoc_cons_same {α β : Type} [DecidableEq α] (l : List (α × β)) (k : α) (v d : β) : assoc ((k, v) :: l) k d = v := by
  simp [assoc]

theorem readReg_latches (p : Port) (off : Nat) (s : State) (h : loWords.contains off = true) :
    assoc (portOf (readReg p off s) p).hiLatch (off + 4) 0#32 = w32 (regValue p s (off + 4)) ∧
    portOf (readReg p off s) (otherPort p) = portOf s (otherPort p) := by
  rw [readReg_portOf, readReg_portOf, if_pos h, portOf_latchHi_other, portOf_latchHi_same]
  exact ⟨assoc_cons_same _ _ _ _, rfl⟩

theorem hlGroup_clearRc {k off : Nat} (g : Fin 8) (hoff : off = 0x70100 + 0x20 * g.val + k) (hk : k < 0x20) (s : State) :
    hlGroup (clearRc off s) g = clearGroupCount k (hlGroup s g) := by
  have hrange : 0x70100 ≤ off ∧ off < 0x70200 := by omega
  have hplace : (off - 0x70100) / 0x20 = g.val := by omega
  have hrest : off % 0x20 = k := by omega
  unfold clearRc
  rw [if_pos hrange, hplace, hrest]
  exact getAt_updAt_same _ _ _ g.isLt

theorem latchHi_hlk (p : Port) (off v : Nat) (s : State) : (latchHi p off v s).hlk = s.hlk := by
  cases p <;> rfl

theorem hlGroup_readReg {k off : Nat} {p : Port} (g : Fin 8) (hoff : off = 0x70100 + 0x20 * g.val + k) (hk : k < 0x20) (s : State) :
    hlGroup (readReg p off s) g = clearGroupCount k (hlGroup s g) := by
  have hlatch : hlGroup (if loWords.contains off then latchHi p (off + 4) (regValue p s (off + 4)) s else s) g = hlGroup s g := by
    split
    · rw [hlGroup, latchHi_hlk, hlGroup]
    · rfl
  rw [← hlatch, ← hlGroup_clearRc g hoff hk]
  rfl

/-! ## Writes -/

theorem exec_registerWrite {p : Port} {off : Nat} {v : Word} {s : State} (hl : live s = true) :
    exec (.registerWrite p off v) s = .next (writeAt p off v.toNat s) := goLive_of_live _ hl

theorem exec_ctBroadcastWrite {off : Nat} {v : Word} {s : State} (hl : live s = true) : exec (.ctBroadcastWrite off v) s =
    .next (if off % 4 = 0 then writeBroadcast off v.toNat s else countBad s) := congrArg Host.Outcome.next (if_pos hl)

theorem countBad_changesOnly (s : State) : changesOnly [.hostCntBadAcc] s (countBad s) :=
  (countBad_kept (or_fieldMask rfl) (Kept.refl (fieldMask [.hostCntBadAcc]) s)).changesOnly

theorem w32_word (v : Word) : w32 v.toNat = v := (BitVec.ofNat_toNat 32 v).trans (BitVec.setWidth_eq v)

/-- One field of the tiles written over and over keeps the rest. -/
theorem forEach_onTiles_changesOnly {fd : Field} {α : Type} (l : List α) (f : α → Tiles → Tiles)
    (hf : ∀ x k, TilesAgree (fieldMask [fd]) k (f x k)) (s : State) : changesOnly [fd] s (forEach l (fun x t => t.onTiles (f x)) s) :=
  (forEach_kept l _ (fun x _ h => onTiles_kept (f x) (hf x) h) (Kept.refl (fieldMask [fd]) s)).changesOnly

/-- A vector written at every place below n. -/
theorem getElem_foldl_putAt {α : Type} {m : Nat} (at_ : Nat → Nat) (x : α) (i : Fin m) (n : Nat) (v : Vector α m) :
    ((List.range n).foldl (fun w t => putAt w (at_ t) x) v)[i] = if ∃ t < n, at_ t = i.val then x else v[i] := by
  induction n with
  | zero => simp
  | succ n ih =>
    rw [List.range_succ, List.foldl_append, List.foldl_cons, List.foldl_nil]
    by_cases h : at_ n = i.val
    · rw [if_pos ⟨n, n.lt_succ_self, h⟩, putAt, h]
      exact getElem_updAt_same _ _ i
    · rw [putAt, getElem_updAt_ne _ _ (Ne.symm h), ih]
      congr 1
      simp only [eq_iff_iff]
      constructor
      · rintro ⟨t, ht, he⟩
        exact ⟨t, ht.trans n.lt_succ_self, he⟩
      · rintro ⟨t, ht, he⟩
        exact ⟨t, lt_of_le_of_ne (Nat.le_of_lt_succ ht) (fun hn => h (hn ▸ he)), he⟩

theorem onTiles_changesOnly {fd : Field} (f : Tiles → Tiles) (hf : ∀ k, TilesAgree (fieldMask [fd]) k (f k)) (s : State) :
    changesOnly [fd] s (s.onTiles f) :=
  (onTiles_kept f hf (Kept.refl (fieldMask [fd]) s)).changesOnly

theorem foldl_onTiles {α : Type} {β : Type} (get : Tiles → β) (f : α → Tiles → Tiles) (g : β → α → β) (hg : ∀ x k, get (f x k) = g (get k) x)
    (l : List α) (s : State) : get (forEach l (fun x t => t.onTiles (f x)) s).tiles = l.foldl g (get s.tiles) := by
  unfold forEach
  induction l generalizing s with
  | nil => rfl
  | cons x xs ih =>
    rw [List.foldl_cons, List.foldl_cons, ih]
    exact congrArg (xs.foldl g) (hg x s.tiles)

/-- SYNC_CFG of a tile, and a write-equalisation word of it, written (R166). -/
def syncWritten (v t : Nat) (k : Tiles) : Tiles := { k with syncCfg := putAt k.syncCfg t (masked32 0x3F77 v) }
def trimWritten (j v t : Nat) (k : Tiles) : Tiles := { k with wtrim := putAt k.wtrim (16 * t + j) (BitVec.ofNat 16 v) }

theorem writeBroadcast_sync (v : Nat) (s : State) :
    writeBroadcast 0 v s = forEach (List.range 64) (fun t u => u.onTiles (syncWritten v t)) s := rfl

theorem writeBroadcast_trim {k off : Nat} (hk : k < 16) (hoff : off = 0x240 + 4 * k) (v : Nat) (s : State) :
    writeBroadcast off v s = forEach (List.range 64) (fun t u => u.onTiles (trimWritten k v t)) s := by
  have hrange : 0x240 ≤ off ∧ off < 0x280 := by omega
  have hplace : (off - 0x240) / 4 = k := by omega
  have htile (t : Nat) (u : State) : writeTile t off v u = u.onTiles (trimWritten k v t) := by
    unfold writeTile trimWritten
    rw [if_pos hrange, hplace]
  unfold writeBroadcast
  rw [if_pos (by omega : off < 0xF00), funext₂ htile]

theorem writeBroadcast_retry {k off : Nat} (hk : k < 16) (hoff : off = 0xF00 + 4 * k) (v : Nat) (s : State) :
    writeBroadcast off v s = s.onTiles fun t => { t with retry := putAt t.retry k (masked32 0x87FFFFFF v) } := by
  have hplace : (off - 0xF00) / 4 = k := by omega
  unfold writeBroadcast
  rw [if_neg (by omega), if_pos (by omega), hplace]

theorem writeBroadcast_sync_tile (v : Nat) (s : State) (i : Fin 64) : (writeBroadcast 0 v s).tiles.syncCfg[i] = masked32 0x3F77 v := by
  rw [writeBroadcast_sync, foldl_onTiles Tiles.syncCfg (syncWritten v) (fun w t => putAt w t (masked32 0x3F77 v)) fun _ _ => rfl,
    getElem_foldl_putAt fun t => t]
  exact if_pos ⟨i.val, i.isLt, rfl⟩

theorem writeBroadcast_trim_word {k off : Nat} (hk : k < 16) (hoff : off = 0x240 + 4 * k) (v : Nat) (s : State) (i : Fin 1024) :
    ((writeBroadcast off v s).tiles.wtrim[i]).toNat = if i.val % 16 = k then v % 2 ^ 16 else (s.tiles.wtrim[i]).toNat := by
  have hplace : (∃ t < 64, 16 * t + k = i.val) ↔ i.val % 16 = k :=
    ⟨fun ⟨t, _, ht⟩ => by omega, fun h => ⟨i.val / 16, by omega, by omega⟩⟩
  rw [writeBroadcast_trim hk hoff,
    foldl_onTiles Tiles.wtrim (trimWritten k v) (fun w t => putAt w (16 * t + k) (BitVec.ofNat 16 v)) fun _ _ => rfl,
    getElem_foldl_putAt (fun t => 16 * t + k)]
  simp only [hplace]
  split
  · exact BitVec.toNat_ofNat _ _
  · rfl

theorem ctBroadcastWrite_reaches (off : Nat) (v : Word) (s : State) (hl : live s = true) :
    (off % 4 ≠ 0 → ∃ t, exec (.ctBroadcastWrite off v) s = .next t ∧ changesOnly [.hostCntBadAcc] s t ∧ t.host.cntBadAcc = inc s.host.cntBadAcc) ∧
    (off = 0x000 → ∃ t, exec (.ctBroadcastWrite off v) s = .next t ∧ changesOnly [.tilesSyncCfg] s t ∧
      ∀ i : Fin 64, t.tiles.syncCfg[i] = masked32 0x3F77 v.toNat) ∧
    (∀ k : Fin 16, off = 0x240 + 4 * k.val → ∃ t, exec (.ctBroadcastWrite off v) s = .next t ∧ changesOnly [.tilesWtrim] s t ∧
      ∀ i : Fin 1024, (t.tiles.wtrim[i]).toNat = if i.val % 16 = k.val then v.toNat % 2 ^ 16 else (s.tiles.wtrim[i]).toNat) ∧
    (∀ k : Nat, k < 16 → off = 0xF00 + 4 * k → ∃ t, exec (.ctBroadcastWrite off v) s = .next t ∧ changesOnly [.tilesRetry] s t ∧
      getAt t.tiles.retry k 0 = masked32 0x87FFFFFF v.toNat) ∧
    (off = 0xF40 → ∃ t, exec (.ctBroadcastWrite off v) s = .next t ∧ changesOnly [.tilesRetryCtl] s t ∧ t.tiles.retryCtl = masked32 0xF v.toNat) := by
  have haligned (h : off % 4 = 0) : exec (.ctBroadcastWrite off v) s = .next (writeBroadcast off v.toNat s) := by
    rw [exec_ctBroadcastWrite hl, if_pos h]
  refine ⟨fun h => ?_, fun h => ?_, fun k h => ?_, fun k hk h => ?_, fun h => ?_⟩
  · rw [exec_ctBroadcastWrite hl, if_neg h]
    exact ⟨_, rfl, countBad_changesOnly s, rfl⟩
  · subst h
    refine ⟨_, haligned rfl, ?_, writeBroadcast_sync_tile _ s⟩
    rw [writeBroadcast_sync]
    exact forEach_onTiles_changesOnly _ (syncWritten v.toNat) (fun _ k => { TilesAgree.refl _ k with syncCfg := .inl (testBit_fieldMask rfl) }) s
  · refine ⟨_, haligned (by omega), ?_, writeBroadcast_trim_word k.isLt h _ s⟩
    rw [writeBroadcast_trim k.isLt h]
    exact forEach_onTiles_changesOnly _ (trimWritten k v.toNat) (fun _ k => { TilesAgree.refl _ k with wtrim := .inl (testBit_fieldMask rfl) }) s
  · refine ⟨_, haligned (by omega), ?_⟩
    rw [writeBroadcast_retry hk h]
    refine ⟨onTiles_changesOnly _ (fun k => ?_) s, getAt_updAt_same _ _ _ hk⟩
    exact { TilesAgree.refl _ k with retry := .inl (testBit_fieldMask rfl) }
  · subst h
    refine ⟨_, haligned rfl, onTiles_changesOnly _ (fun k => ?_) s, rfl⟩
    exact { TilesAgree.refl _ k with retryCtl := .inl (testBit_fieldMask rfl) }

/-! ## Writes of single registers -/

theorem and_pages (v : Nat) (h : v < 2 ^ 32) : v &&& 0xFFFFF000 = v / 4096 * 4096 := by
  have hmask : (0xFFFFF000 : Nat) = (2 ^ 20 - 1) * 2 ^ 12 := by decide
  refine Nat.eq_of_testBit_eq fun i => ?_
  rw [hmask, Nat.testBit_and, show (4096 : Nat) = 2 ^ 12 from rfl, Nat.testBit_mul_two_pow, Nat.testBit_mul_two_pow, Nat.testBit_div_two_pow,
    Nat.testBit_two_pow_sub_one]
  by_cases hi : 12 ≤ i
  · rw [Nat.sub_add_cancel hi]
    by_cases hlt : i - 12 < 20
    · simp [hi, hlt]
    · have hv : v.testBit i = false := Nat.testBit_lt_two_pow (h.trans_le (Nat.pow_le_pow_right two_pos (by omega)))
      simp [hi, hlt, hv]
  · simp [hi]

theorem registerWrite_unaligned (p : Port) (off : Nat) (v : Word) (s : State) (hl : live s = true) (h : off % 4 ≠ 0) :
    ∃ t, exec (.registerWrite p off v) s = .next t ∧ changesOnly [.hostCntBadAcc] s t ∧ t.host.cntBadAcc = inc s.host.cntBadAcc := by
  rw [exec_registerWrite hl, writeAt, if_neg h]
  exact ⟨_, rfl, countBad_changesOnly s, rfl⟩

theorem registerWrite_aqSize (p : Port) (v : Word) (s : State) (hl : live s = true) :
    ∃ t, exec (.registerWrite p 0x208 v) s = .next t ∧ changesOnly [.hostAqSize] s t ∧ regValue p t 0x208 = v.toNat := by
  refine ⟨_, exec_registerWrite hl, (onHost_kept _ (fun h => ?_) (Kept.refl (fieldMask [.hostAqSize]) s)).changesOnly, ?_⟩
  · exact { HostAgree.refl _ h with aqSize := .inl (testBit_fieldMask rfl) }
  · change (w32 v.toNat).toNat % 2 ^ 32 = v.toNat
    rw [w32_word]
    exact Nat.mod_eq_of_lt v.isLt

theorem registerWrite_aqSqbLo (p : Port) (v : Word) (s : State) (hl : live s = true) :
    ∃ t, exec (.registerWrite p 0x20C v) s = .next t ∧ changesOnly [.hostAqSqbLo] s t ∧ regValue p t 0x20C = v.toNat / 4096 * 4096 := by
  refine ⟨_, exec_registerWrite hl, (onHost_kept _ (fun h => ?_) (Kept.refl (fieldMask [.hostAqSqbLo]) s)).changesOnly, ?_⟩
  · exact { HostAgree.refl _ h with aqSqbLo := .inl (testBit_fieldMask rfl) }
  · change (masked32 0xFFFFF000 v.toNat).toNat % 2 ^ 32 = v.toNat / 4096 * 4096
    have hlt : v.toNat / 4096 * 4096 < 2 ^ 32 := (Nat.div_mul_le_self _ _).trans_lt v.isLt
    rw [masked32, and_pages _ v.isLt, w32, BitVec.toNat_ofNat, Nat.mod_mod, Nat.mod_eq_of_lt hlt]

theorem registerWrite_winh (p : Port) (v : Word) (s : State) (hl : live s = true) :
    ∃ t, exec (.registerWrite p 0x20004 v) s = .next t ∧ changesOnly [.stpWinh] s t ∧ t.stp.winh = masked32 0xFF7F v.toNat := by
  refine ⟨_, exec_registerWrite hl, (onStp_kept _ (fun x => ?_) (Kept.refl (fieldMask [.stpWinh]) s)).changesOnly, rfl⟩
  exact { StpAgree.refl _ x with winh := .inl (testBit_fieldMask rfl) }

theorem registerWrite_wvnCtrl (p : Port) (v : Word) (s : State) (hl : live s = true) :
    ∃ t, exec (.registerWrite p 0x50000 v) s = .next t ∧ changesOnly [.wvnNew] s t ∧ t.wvn.new.ctrl = masked32 0x3 v.toNat := by
  refine ⟨_, exec_registerWrite hl, (onWvn_kept _ (fun x => ?_) (Kept.refl (fieldMask [.wvnNew]) s)).changesOnly, rfl⟩
  exact { WvnAgree.refl _ x with new := .inl (testBit_fieldMask rfl) }

theorem registerWrite_ldpcCfg (p : Port) (v : Word) (s : State) (hl : live s = true) :
    ∃ t, exec (.registerWrite p 0x60000 v) s = .next t ∧ changesOnly [.eccLdpcCfg] s t ∧ t.ecc.ldpcCfg = masked32 0x7FFFFF v.toNat := by
  refine ⟨_, exec_registerWrite hl, (onEcc_kept _ (fun x => ?_) (Kept.refl (fieldMask [.eccLdpcCfg]) s)).changesOnly, rfl⟩
  exact { EccAgree.refl _ x with ldpcCfg := .inl (testBit_fieldMask rfl) }

theorem registerWrite_srcIdx (p : Port) (v : Word) (s : State) (hl : live s = true) :
    ∃ t, exec (.registerWrite p 0x10090 v) s = .next t ∧ changesOnly [.blfSrcIdx] s t ∧ t.blf.srcIdx = masked32 0x1FF v.toNat := by
  refine ⟨_, exec_registerWrite hl, (onBlf_kept _ (fun x => ?_) (Kept.refl (fieldMask [.blfSrcIdx]) s)).changesOnly, rfl⟩
  exact { BlfAgree.refl _ x with srcIdx := .inl (testBit_fieldMask rfl) }

theorem registerWrite_cupolaCfg (p : Port) (v : Word) (s : State) (hl : live s = true) :
    ∃ t, exec (.registerWrite p 0x30000 v) s = .next t ∧ changesOnly [.cupolaCfg] s t ∧ t.cupola.cfg = masked32 0xF7 v.toNat := by
  refine ⟨_, exec_registerWrite hl, (onCupola_kept _ (fun x => ?_) (Kept.refl (fieldMask [.cupolaCfg]) s)).changesOnly, rfl⟩
  exact { CupolaAgree.refl _ x with cfg := .inl (testBit_fieldMask rfl) }

theorem registerWrite_lanternCfg (p : Port) (v : Word) (s : State) (hl : live s = true) :
    ∃ t, exec (.registerWrite p 0x80008 v) s = .next t ∧ changesOnly [.lanternCfg] s t ∧ t.lantern.cfg = masked32 0xFF03 v.toNat := by
  refine ⟨_, exec_registerWrite hl, (onLantern_kept _ (fun x => ?_) (Kept.refl (fieldMask [.lanternCfg]) s)).changesOnly, rfl⟩
  exact { LanternAgree.refl _ x with cfg := .inl (testBit_fieldMask rfl) }

/-- Registers that a write does not reach: their offsets read only (R8). -/
theorem registerWrite_readOnly (p : Port) (v : Word) (s : State) (hl : live s = true) :
    ∀ off, off ∈ [0x000, 0x008, 0x030, 0x100, 0x10000, 0x10014, 0x20000, 0x20080, 0x40000, 0x40020, 0x50020, 0x50124, 0x6020C, 0x70004, 0x80000,
      0x90000, 0x100400, 0x100800, 0x304000] → exec (.registerWrite p off v) s = .next s := by
  have hfixed (off : Nat) (h : writeAt p off v.toNat s = s) : exec (.registerWrite p off v) s = .next s := by
    rw [exec_registerWrite hl, h]
  refine fun off hoff => hfixed off ?_
  revert off
  simp only [List.forall_mem_cons]
  refine ⟨rfl, rfl, rfl, rfl, rfl, rfl, rfl, rfl, rfl, rfl, rfl, rfl, rfl, rfl, rfl, rfl, rfl, rfl, rfl, ?_⟩
  exact List.forall_mem_nil _

/-! ## The statement -/

theorem exec_badAccess_served {p : Port} {off size : Nat} {w : Bool} {s : State} (h : servedAccess off size = true) :
    exec (.badAccess p off size w) s = .next s := by
  change (.next (if live s then (if servedAccess off size then s else _) else s) : Host.Outcome State Fault Refusal) = _
  rw [if_pos h, ite_self]

theorem exec_badAccess_counts {p : Port} {off size : Nat} {w : Bool} {s : State} (hl : live s = true) (h : servedAccess off size = false) :
    exec (.badAccess p off size w) s = .next (if w then countBad s else badRead p off s) := by
  change (.next (if live s then (if servedAccess off size then s else if w then countBad s else badRead p off s) else s) :
    Host.Outcome State Fault Refusal) = _
  rw [if_pos hl, h, if_neg Bool.false_ne_true]

theorem badAccess_counts (p : Port) (off size : Nat) (w : Bool) (s : State) (hl : live s = true) (h : servedAccess off size = false) :
    ∃ t, exec (.badAccess p off size w) s = .next t ∧ t.host.cntBadAcc = inc s.host.cntBadAcc ∧
      changesOnly [.hostCntBadAcc, .out] s t ∧ t.out = if w then s.out else s.out ++ [.regData p off 0] := by
  have hexec := exec_badAccess_counts (p := p) (w := w) hl h
  refine ⟨_, hexec, ?_, changesOnly_of_exec hexec, ?_⟩
  · cases w <;> rfl
  · cases w <;> rfl

theorem exec_lanTrigArm {v : Word} {s : State} (hl : live s = true) : exec (.lanTrigArm v) s = .next (writeTrigger v.toNat s) :=
  goLive_of_live _ hl

theorem lanTrigArm_arms (v : Word) (s : State) (hl : live s = true) :
    ∃ t, exec (.lanTrigArm v) s = .next t ∧ t.lantern.trigCode = bits v.toNat 0 16 ∧
    t.lantern.trigPost = bits v.toNat 16 8 ∧ (v.getLsbD 24 = true → t.lantern.armed = true ∧ t.lantern.fired = false) ∧
    (v.getLsbD 24 = false → t.lantern.armed = s.lantern.armed ∧ t.lantern.fired = s.lantern.fired) := by
  refine ⟨_, exec_lanTrigArm hl, rfl, rfl, fun h => ?_, fun h => ?_⟩
  · have hbit : v.toNat.testBit 24 = true := h
    simp [writeTrigger, hbit]
  · have hbit : v.toNat.testBit 24 = false := h
    simp [writeTrigger, hbit]

theorem rcRead_clears (p : Port) (s : State) (hl : live s = true) :
    (∃ t, exec (.rcRead p 0x60010) s = .next t ∧ t.ecc.cntL3 = 0 ∧ .regData p 0x60010 (w32 s.ecc.cntL3) ∈ t.out) ∧
    (∃ t, exec (.rcRead p 0x00030) s = .next t ∧ t.host.cntBadAcc = 0 ∧ .regData p 0x00030 (w32 s.host.cntBadAcc) ∈ t.out) ∧
    (∀ g : Fin 8, ∃ t, exec (.rcRead p (0x7010C + 0x20 * g.val)) s = .next t ∧ (hlGroup t g).cntCrc = 0 ∧
      (hlGroup t g).cntLost = (hlGroup s g).cntLost) ∧
    (∃ t, exec (.loWordRead p 0x50124) s = .next t ∧ assoc (portOf t p).hiLatch 0x50128 0#32 = w32 (s.power.time / 2 ^ 32)) := by
  have hw (n : Nat) : w32 (n % 2 ^ 32) = w32 n := BitVec.eq_of_toNat_eq (by simp [w32])
  refine ⟨⟨_, exec_rcRead hl, rfl, ?_⟩, ⟨_, exec_rcRead hl, rfl, ?_⟩, fun g => ⟨_, exec_rcRead hl, ?_⟩, ⟨_, exec_rcRead hl, ?_⟩⟩
  · rw [readAt_out]
    exact List.mem_append_right _ (List.mem_singleton.mpr (congrArg (Out.regData p 0x60010) (hw _).symm))
  · rw [readAt_out]
    exact List.mem_append_right _ (List.mem_singleton.mpr (congrArg (Out.regData p 0x00030) (hw _).symm))
  · rw [readAt_aligned (by omega : (0x7010C + 0x20 * g.val) % 4 = 0), hlGroup_readReg (k := 0x0C) g (by omega) (by decide)]
    exact ⟨rfl, rfl⟩
  · rw [readAt_aligned rfl]
    exact (readReg_latches p 0x50124 s rfl).1.trans (hw _)

/-- Settles O58: reads by what they answer, latch and clear, writes register by register, and accesses that are not served. -/
theorem registersReadWriteAndCount : Obligations.RegistersReadWriteAndCount := by
  refine ⟨fun _ _ _ => rfl, fun p off s hl hoff => ?_, rcRead_clears, fun p off size w s => ⟨exec_badAccess_served, badAccess_counts p off size w s⟩,
    lanTrigArm_arms, ctBroadcastWrite_reaches, registerWrite_unaligned, fun p v s hl => ?_⟩
  · have hexec : exec (.rcRead p off) s = .next (readReg p off s) := by rw [exec_rcRead hl, readAt_aligned hoff]
    exact ⟨_, hexec, readReg_out p off s, changesOnly_of_exec hexec, readReg_latches p off s⟩
  · exact ⟨registerWrite_aqSize p v s hl, registerWrite_aqSqbLo p v s hl, registerWrite_winh p v s hl, registerWrite_wvnCtrl p v s hl,
      registerWrite_ldpcCfg p v s hl, registerWrite_srcIdx p v s hl, registerWrite_cupolaCfg p v s hl, registerWrite_lanternCfg p v s hl,
      registerWrite_readOnly p v s hl⟩

end Sys2Proof.Machine
end

section
/-! PROOF. Wake latches, alarms and the seal: what each leaves behind (R264, R331, R369, R371). -/

namespace Sys2Proof.Machine

set_option Elab.async false

/-! ## Requests of Belfry's sources -/

theorem getAt_vectorMap {α β : Type} {n : Nat} (v : Vector α n) (f : α → β) (i : Nat) (d : α) : getAt (v.map f) i (f d) = f (getAt v i d) := by
  unfold getAt
  split
  · exact Vector.getElem_map _ _
  · rfl

theorem isPending_congr {s t : State} (h : Field.blfRequests.same s t) (n : Nat) : isPending t n ↔ isPending s n := by
  have hmap : (t.blf.sources.map fun q => q.pending) = (s.blf.sources.map fun q => q.pending) := h
  have hn := congrArg (fun v => getAt v n false) hmap
  have hpending : (getAt t.blf.sources n {}).pending = (getAt s.blf.sources n {}).pending := by
    simpa only [← getAt_vectorMap _ (fun q : Source => q.pending) n {}] using hn
  unfold isPending
  rw [hpending]

/-- Nothing but Belfry and what is put out differs. -/
def onlyBelfry (s t : State) : Prop := t = { s with blf := t.blf, out := t.out }

theorem onlyBelfry.same {β : Type} {s t : State} (h : onlyBelfry s t) (f : State → β) (hf : f { s with blf := t.blf, out := t.out } = f s) :
    f t = f s := (congrArg f h).trans hf

theorem offers_onlyBelfry (s : State) : onlyBelfry s (offers s) := by
  refine forEach_preserves (P := onlyBelfry s) _ (fun c t ht => ?_) rfl
  dsimp only
  split
  · exact ht
  · unfold onlyBelfry at ht ⊢
    split
    · rw [ht]
      rfl
    · rw [ht]
      rfl

theorem raise_onlyBelfry (n : Nat) (s : State) : onlyBelfry s (raise n s) := by
  unfold raise
  split
  · rfl
  · exact offers_onlyBelfry _

/-! ## A latch (R331) -/

theorem latch_latched (i : Nat) (s : State) : (latch i s).blf.latched = setBit s.blf.latched i true := by
  unfold latch
  dsimp only
  split
  · exact (raise_changesOnly _ _).2 .blfLatched (by decide)
  · rfl

theorem latch_latched_other {i j : Nat} (h : j ≠ i) (s : State) : (latch i s).blf.latched.getLsbD j = s.blf.latched.getLsbD j := by
  rw [latch_latched, getLsbD_setBit_true]
  simp [h.symm]

theorem latch_latched_mono (i : Nat) {j : Nat} {s : State} (h : s.blf.latched.getLsbD j = true) : (latch i s).blf.latched.getLsbD j = true := by
  rw [latch_latched, getLsbD_setBit_true, h, Bool.true_or]

theorem latch_onlyBelfry (i : Nat) (s : State) : onlyBelfry s (latch i s) := by
  unfold latch
  dsimp only
  split
  · exact raise_onlyBelfry _ _
  · rfl

theorem latch_isPending {i : Nat} {s : State} (hi : i < 16) (hl : live s = true) (hps : s.power.pstate ≠ 4) : isPending (latch i s) (112 + i) := by
  have hon : (live s && s.power.pstate != 4) = true := by simp [hl, hps]
  unfold latch
  dsimp only
  rw [if_pos hon]
  exact raise_isPending _ (by omega)

theorem exec_wakeLatch_caught {i : Fin 16} {ns : Nat} {s : State} (h : 100 ≤ ns) : exec (.wakeLatch i ns) s = .next (latch i.val s) :=
  congrArg Host.Outcome.next (if_pos (decide_eq_true h))

theorem exec_wakeLatch_short {i : Fin 16} {ns : Nat} {s : State} (h : ns < 100) : exec (.wakeLatch i ns) s = .next s :=
  congrArg Host.Outcome.next (if_neg (by simp [caught, h]))

/-! ## Every slot empties (R242) -/

/-- A key slot that holds nothing. -/
def slotEmpty (s : State) (j : Nat) : Prop := (keySlot s j).state = .empty ∧ (keySlot s j).cur = none ∧ (keySlot s j).shadow = none

theorem slotEmpty_congr {s t : State} (h : t.keep.slots = s.keep.slots) {j : Nat} (hs : slotEmpty s j) : slotEmpty t j := by
  unfold slotEmpty
  rwa [keySlot_congr h]

theorem slotEmpty_zeroizeAll (n : Nat) (hn : n ≤ 64) (s : State) : ∀ j < n, slotEmpty (forEach (List.range n) zeroizeSlot s) j := by
  induction n with
  | zero => exact fun j hj => absurd hj j.not_lt_zero
  | succ n ih =>
    intro j hj
    have hstep : forEach (List.range (n + 1)) zeroizeSlot s = zeroizeSlot n (forEach (List.range n) zeroizeSlot s) := by
      rw [forEach, List.range_succ, List.foldl_append]
      rfl
    rw [hstep]
    by_cases hjn : j = n
    · subst hjn
      unfold slotEmpty zeroizeSlot
      rw [keySlot_onSlot_same (by omega)]
      exact ⟨rfl, rfl, rfl⟩
    · unfold slotEmpty zeroizeSlot
      rw [keySlot_onSlot_other hjn]
      exact ih (by omega) j (by omega)

theorem replies_keepSlots (tags : List Nat) (s : State) : (forEach tags (fun t => reply 0 t 0 0) s).keep.slots = s.keep.slots :=
  (forEach_kept tags _ (fun t _ h => reply_kept 0 t 0 0 (Nat.or_self _) h) (Kept.refl _ s)).same .keepSlots rfl

theorem slotEmpty_eraseSlots (s : State) (j : Nat) (hj : j < 64) : slotEmpty (eraseSlots s) j := by
  unfold eraseSlots
  exact slotEmpty_congr (replies_keepSlots _ _) (slotEmpty_zeroizeAll 64 le_rfl _ j hj)

theorem discardReadAhead_keepSlots (s : State) : (discardReadAhead s).keep.slots = s.keep.slots :=
  (discardReadAhead_kept (Nat.or_self _) (Kept.refl _ s)).same .keepSlots rfl

theorem slotEmpty_eraseKeys (s : State) (j : Nat) (hj : j < 64) : slotEmpty (eraseKeys s) j := by
  unfold eraseKeys
  refine slotEmpty_congr (s := eraseSlots s) ?_ (slotEmpty_eraseSlots s j hj)
  exact discardReadAhead_keepSlots (eraseSlots s)

/-! ## An alarm (R371) -/

/-- The cause is marked and ALARM_N asserted. -/
def alarmMarked (cause : Fin 5) (s : State) : State :=
  (s.onTrust fun t => { t with cause := setBit t.cause cause true, lifetime := min 65535 (t.lifetime + 1) }).onPins
    fun p => { p with alarmAsserted := true }

/-- Every key goes, and the Keep shows that it was erased. -/
def alarmErased (cause : Fin 5) (s : State) : State := (eraseKeys (alarmMarked cause s)).onKeep fun k => { k with erased := true }

/-- The alarm is told: its record, its source, and the end of a privileged operation in hand. -/
def alarmTold (s : State) : State :=
  let s3 := raise 110 (lantern 0x0060 (le 1 s.trust.cause.toNat) s)
  forEach ((byOrder s3.host.cmds).filter fun c => c.qid == 0 && opcodeOf c.entry == opPresence && c.phase == .started)
    (fun c => reply c.qid c.tag 0x0500 0) s3

theorem takeAlarm_eq (cause : Fin 5) (s : State) : takeAlarm cause s = alarmTold (inhibitOn .alarm (alarmErased cause s)) := rfl

/-- What the inhibit of an alarm and its telling change. -/
def alarmFollows : List Field := recordFields ++ completionFields ++ inhibitFields

theorem alarmTold_kept {m : Nat} {s0 s : State}
    (hm : 0x8600A000000000000000000000000000000000000000000000000000000000000009B058D7F1C0000000000000000000 ||| m = m)
    (h : Kept m s0 s) : Kept m s0 (alarmTold s) :=
  forEach_kept _ _ (fun _ _ h => reply_kept _ _ _ _ (Mask.sub hm rfl) h)
    (raise_kept 110 (Mask.sub hm rfl) (lantern_kept _ _ (Mask.sub hm rfl) h))

theorem alarmTold_sources (s : State) : (alarmTold s).wr.sources = s.wr.sources :=
  (alarmTold_kept (Nat.or_self _) (Kept.refl _ s)).same .wrSources rfl

theorem alarmTold_isPending (s : State) : isPending (alarmTold s) 110 := by
  unfold alarmTold
  dsimp only
  refine (isPending_congr ?_ 110).mpr (raise_isPending (lantern 0x0060 (le 1 s.trust.cause.toNat) s) (by decide))
  exact (forEach_kept _ _ (fun c t h => reply_kept _ _ _ _ (Nat.or_self _) h) (Kept.refl _ _)).same .blfRequests rfl

theorem takeAlarm_rest_changesOnly (cause : Fin 5) (s : State) : changesOnly alarmFollows (alarmErased cause s) (takeAlarm cause s) := by
  rw [takeAlarm_eq]
  exact (alarmTold_kept (or_fieldMask rfl) (inhibitOn_kept .alarm (or_fieldMask rfl) (Kept.refl _ _))).changesOnly

/-- What an alarm leaves: ALARM_N and its cause, no key, and the inhibit of its own (R264, R371). -/
theorem takeAlarm_marks (cause : Fin 5) (s : State) : (takeAlarm cause s).pins.alarmAsserted = true ∧
    (takeAlarm cause s).trust.cause.getLsbD cause.val = true ∧ (takeAlarm cause s).keep.erased = true ∧
    (takeAlarm cause s).keep.transport = none ∧ (takeAlarm cause s).keep.ctxKek = none ∧ (takeAlarm cause s).cupola.nonce = 0 ∧
    (takeAlarm cause s).cupola.ctxs = [] ∧ (∀ j, j < 64 → slotEmpty (takeAlarm cause s) j) ∧
    (takeAlarm cause s).wr.sources.getLsbD 9 = true ∧ isPending (takeAlarm cause s) 110 := by
  obtain ⟨-, hrest⟩ := takeAlarm_rest_changesOnly cause s
  have herase := eraseKeys_kept (Nat.or_self _) (Kept.refl _ (alarmMarked cause s))
  have hslots : (takeAlarm cause s).keep.slots = (eraseKeys (alarmMarked cause s)).keep.slots := hrest .keepSlots (by decide)
  refine ⟨(hrest .pinsAlarmAsserted (by decide)).trans (herase.same .pinsAlarmAsserted rfl), ?_,
    hrest .keepErased (by decide), hrest .keepTransport (by decide), hrest .keepCtxKek (by decide),
    hrest .cupolaNonce (by decide), hrest .cupolaCtxs (by decide),
    fun j hj => slotEmpty_congr hslots (slotEmpty_eraseKeys _ j hj), ?_, ?_⟩
  · rw [(hrest .trustCause (by decide)).trans (herase.same .trustCause rfl)]
    change (setBit s.trust.cause cause true).getLsbD cause.val = true
    simp [getLsbD_setBit_true]
  · rw [takeAlarm_eq, alarmTold_sources]
    exact inhibitOn_active .alarm _
  · rw [takeAlarm_eq]
    exact alarmTold_isPending _

/-- What an alarm leaves alone of the seal, the press and the latches. -/
theorem takeAlarm_keeps (cause : Fin 5) (s : State) : (takeAlarm cause s).trust.sealOk = s.trust.sealOk ∧
    (takeAlarm cause s).trust.press = s.trust.press ∧ (takeAlarm cause s).blf.latched = s.blf.latched := by
  have h := takeAlarm_kept cause (Nat.or_self _) (Kept.refl _ s)
  exact ⟨h.same .trustSealOk rfl, h.same .trustPress rfl, h.same .blfLatched rfl⟩

theorem alarmSeen_live {cause : Fin 5} {s : State} (hl : live s = true) (hps : s.power.pstate ≠ 4) : alarmSeen cause s = takeAlarm cause s := by
  rw [alarmSeen, if_neg hps, if_pos hl]

theorem alarmSeen_ps4 {cause : Fin 5} {s : State} (hps : s.power.pstate = 4) : alarmSeen cause s = if cause.val = 0 then latch 1 s else s := by
  rw [alarmSeen, if_pos hps]

/-- Whatever the power state, an alarm seen keeps the seal as it is, and no latch clears. -/
theorem alarmSeen_keeps (cause : Fin 5) (s : State) : (alarmSeen cause s).trust.sealOk = s.trust.sealOk ∧
    (alarmSeen cause s).trust.press = s.trust.press ∧
    (∀ j, s.blf.latched.getLsbD j = true → (alarmSeen cause s).blf.latched.getLsbD j = true) := by
  obtain ⟨hseal, hpress, hlatched⟩ := takeAlarm_keeps cause s
  have hlatch : (latch 1 s).trust = s.trust := (latch_onlyBelfry 1 s).same State.trust rfl
  unfold alarmSeen
  split
  · split
    · rw [hlatch]
      exact ⟨rfl, rfl, fun j => latch_latched_mono 1⟩
    · exact ⟨rfl, rfl, fun j h => h⟩
  · split
    · exact ⟨hseal, hpress, fun j h => hlatched ▸ h⟩
    · exact ⟨rfl, rfl, fun j h => h⟩

/-! ## The seal (R368, R369) -/

/-- The seal reads open, and the presence window is closed. -/
def sealBroke (s : State) : State := s.onTrust fun t => { t with sealOk := false, sealBroken := true, press := none }

theorem sealOpens_eq (n : Nat) (s : State) : sealOpens n s = alarmSeen 0 (latch n (sealBroke s)) := rfl

theorem sealOpens_marks {n : Nat} (hn : n < 16) (s : State) : (sealOpens n s).trust.sealOk = false ∧ (sealOpens n s).trust.press = none ∧
    (sealOpens n s).blf.latched.getLsbD n = true := by
  obtain ⟨hseal, hpress, hlatched⟩ := alarmSeen_keeps 0 (latch n (sealBroke s))
  have htrust : (latch n (sealBroke s)).trust = (sealBroke s).trust := (latch_onlyBelfry n (sealBroke s)).same State.trust rfl
  rw [sealOpens_eq, hseal, hpress, htrust]
  exact ⟨rfl, rfl, hlatched n (getLsbD_latched_latch hn _)⟩

theorem sealOpens_live {n : Nat} {s : State} (hl : live s = true) (hps : s.power.pstate ≠ 4) :
    sealOpens n s = takeAlarm 0 (latch n (sealBroke s)) := by
  have hlatch := latch_onlyBelfry n (sealBroke s)
  have hlive : live (latch n (sealBroke s)) = true := (hlatch.same live rfl).trans hl
  have hpower : (latch n (sealBroke s)).power.pstate = s.power.pstate := hlatch.same (fun u => u.power.pstate) rfl
  rw [sealOpens_eq, alarmSeen_live hlive (by rwa [hpower])]

theorem latch_ps4 {i : Nat} {s : State} (h : s.power.pstate = 4) :
    latch i s = s.onBlf fun b => { b with latched := setBit b.latched i true } := by
  have hoff : ¬ (live s && s.power.pstate != 4) = true := by simp [h]
  unfold latch
  exact if_neg hoff

/-- In PS4 the opening of the seal is latched, and no alarm is taken (R371). -/
theorem sealOpens_ps4_changesOnly {s : State} (h : s.power.pstate = 4) :
    changesOnly [.trustSealOk, .trustSealBroken, .trustPress, .blfLatched] s (sealOpens 1 s) := by
  have hpower : (latch 1 (sealBroke s)).power.pstate = 4 := ((latch_onlyBelfry 1 (sealBroke s)).same (fun u => u.power.pstate) rfl).trans h
  rw [sealOpens_eq, alarmSeen_ps4 hpower, if_pos (Fin.val_zero 5), latch_ps4 hpower, latch_ps4 (s := sealBroke s) h]
  refine (onBlf_kept _ (fun b => ?_) (onBlf_kept _ (fun b => ?_) (onTrust_kept _ (fun t => ?_) (Kept.refl _ s)))).changesOnly
  · exact { BlfAgree.refl _ b with latched := .inl (testBit_fieldMask rfl) }
  · exact { BlfAgree.refl _ b with latched := .inl (testBit_fieldMask rfl) }
  · exact { TrustAgree.refl _ t with
      sealOk := .inl (testBit_fieldMask rfl), sealBroken := .inl (testBit_fieldMask rfl), press := .inl (testBit_fieldMask rfl) }

theorem exec_alarm_seal (s : State) : exec (.alarm 0) s = .next (sealOpens 1 s) := rfl

theorem exec_alarm_other {k : Fin 5} (h : k ≠ 0) (s : State) : exec (.alarm k) s = .next (alarmSeen k s) :=
  congrArg Host.Outcome.next (if_neg h)

/-- An alarm while the part runs: what it marks, and for the seal what it opens. -/
theorem alarm_taken (k : Fin 5) (s : State) (hl : live s = true) (hps : s.power.pstate ≠ 4) :
    ∃ u, exec (.alarm k) s = .next (takeAlarm k u) ∧ (k = 0 → u.trust.sealOk = false ∧ u.trust.press = none ∧ u.blf.latched.getLsbD 1 = true) := by
  by_cases hk : k = 0
  · subst hk
    have htrust : (latch 1 (sealBroke s)).trust = (sealBroke s).trust := (latch_onlyBelfry 1 (sealBroke s)).same State.trust rfl
    refine ⟨latch 1 (sealBroke s), by rw [exec_alarm_seal, sealOpens_live hl hps], fun _ => ?_⟩
    rw [htrust]
    exact ⟨rfl, rfl, getLsbD_latched_latch (by decide) _⟩
  · exact ⟨s, by rw [exec_alarm_other hk, alarmSeen_live hl hps], fun h => absurd h hk⟩

/-! ## One tick of the seal loop (R369) -/

/-- SEAL_A is driven with the next bit of the sequence, and n mismatches in a row stand. -/
def sealDriven (n : Nat) (s : State) : State :=
  (emit (.sealDrive ((lfsrStep s.trust.lfsr).getLsbD 0)) (s.onTrust fun t => { t with lfsr := lfsrStep s.trust.lfsr })).onTrust fun t =>
    { t with mismatches := n }

theorem sealDriven_changesOnly (n : Nat) (s : State) : changesOnly [.trustLfsr, .trustMismatches, .out] s (sealDriven n s) := by
  refine (onTrust_kept _ (fun t => ?_) (emit_kept _ (or_fieldMask rfl) (onTrust_kept _ (fun t => ?_) (Kept.refl _ s)))).changesOnly
  · exact { TrustAgree.refl _ t with mismatches := .inl (testBit_fieldMask rfl) }
  · exact { TrustAgree.refl _ t with lfsr := .inl (testBit_fieldMask rfl) }

section
variable {x y : Bool} {s : State} (hon : live s = true ∨ s.power.pstate = 4)
include hon

theorem exec_sealLfsrTick : exec (.sealLfsrTick x y) s = .next (sealTick x y s) :=
  congrArg Host.Outcome.next (if_pos (by simpa using hon))

/-- Both samples match. -/
theorem exec_sealLfsrTick_match (hx : x = (lfsrStep s.trust.lfsr).getLsbD 0) (hy : y = (lfsrStep s.trust.lfsr).getLsbD 0) :
    exec (.sealLfsrTick x y) s = .next ((sealDriven 0 s).onTrust fun t => { t with sealOk := true }) := by
  rw [exec_sealLfsrTick hon, sealTick]
  simp [hx, hy, sealDriven]

/-- The first mismatch on SEAL_B. -/
theorem exec_sealLfsrTick_first (hx : x ≠ (lfsrStep s.trust.lfsr).getLsbD 0) (hy : y = (lfsrStep s.trust.lfsr).getLsbD 0)
    (hn : s.trust.mismatches = 0) : exec (.sealLfsrTick x y) s = .next (sealDriven 1 s) := by
  rw [exec_sealLfsrTick hon, sealTick]
  simp only [if_neg hx, hn, hy, bne_self_eq_false]
  rfl

/-- The loop is seen open while the seal read closed. -/
theorem exec_sealLfsrTick_opens (hok : s.trust.sealOk = true)
    (hopen : (x ≠ (lfsrStep s.trust.lfsr).getLsbD 0 ∧ 1 ≤ s.trust.mismatches) ∨ y ≠ (lfsrStep s.trust.lfsr).getLsbD 0) :
    ∃ n, exec (.sealLfsrTick x y) s = .next (sealOpens (if y = (lfsrStep s.trust.lfsr).getLsbD 0 then 2 else 1) (sealDriven n s)) := by
  refine ⟨if x = (lfsrStep s.trust.lfsr).getLsbD 0 then 0 else s.trust.mismatches + 1, ?_⟩
  have hseen : (decide (2 ≤ if x = (lfsrStep s.trust.lfsr).getLsbD 0 then 0 else s.trust.mismatches + 1) ||
      y != (lfsrStep s.trust.lfsr).getLsbD 0) = true := by
    rcases hopen with ⟨hx, hn⟩ | hy
    · rw [if_neg hx, decide_eq_true (Nat.succ_le_succ hn), Bool.true_or]
    · rw [bne_iff_ne.mpr hy, Bool.or_true]
  rw [exec_sealLfsrTick hon, sealTick]
  simp only [hseen, hok, Bool.and_self, if_true, sealDriven]

end

theorem exec_sealLfsrTick_off {x y : Bool} {s : State} (hl : live s = false) (hps : s.power.pstate ≠ 4) :
    exec (.sealLfsrTick x y) s = .next s :=
  congrArg Host.Outcome.next (if_neg (by simp [hl, hps]))

theorem sealTick_answers (x y : Bool) (s : State) (hon : live s = true ∨ s.power.pstate = 4) : let bit := (lfsrStep s.trust.lfsr).getLsbD 0
    (x = bit → y = bit → ∃ t, exec (.sealLfsrTick x y) s = .next t ∧ t.trust.lfsr = lfsrStep s.trust.lfsr ∧ t.trust.mismatches = 0 ∧
      t.trust.sealOk = true ∧ t.out = s.out ++ [.sealDrive bit] ∧ changesOnly [.trustLfsr, .trustMismatches, .trustSealOk, .out] s t) ∧
    (x ≠ bit → y = bit → s.trust.mismatches = 0 → ∃ t, exec (.sealLfsrTick x y) s = .next t ∧ t.trust.mismatches = 1 ∧
      t.trust.sealOk = s.trust.sealOk ∧ changesOnly [.trustLfsr, .trustMismatches, .out] s t) ∧
    (s.trust.sealOk = true → (x ≠ bit ∧ 1 ≤ s.trust.mismatches) ∨ y ≠ bit → ∃ t, exec (.sealLfsrTick x y) s = .next t ∧
      t.trust.sealOk = false ∧ t.trust.press = none ∧ t.blf.latched.getLsbD (if y = bit then 2 else 1) = true) := by
  refine ⟨fun hx hy => ?_, fun hx hy hn => ?_, fun hok hopen => ?_⟩
  · refine ⟨_, exec_sealLfsrTick_match hon hx hy, rfl, rfl, rfl, rfl, ?_⟩
    refine (onTrust_kept _ (fun t => ?_) (onTrust_kept _ (fun t => ?_) (emit_kept _ (or_fieldMask rfl)
      (onTrust_kept _ (fun t => ?_) (Kept.refl _ s))))).changesOnly
    · exact { TrustAgree.refl _ t with sealOk := .inl (testBit_fieldMask rfl) }
    · exact { TrustAgree.refl _ t with mismatches := .inl (testBit_fieldMask rfl) }
    · exact { TrustAgree.refl _ t with lfsr := .inl (testBit_fieldMask rfl) }
  · exact ⟨_, exec_sealLfsrTick_first hon hx hy hn, rfl, rfl, sealDriven_changesOnly 1 s⟩
  · obtain ⟨n, hexec⟩ := exec_sealLfsrTick_opens hon hok hopen
    exact ⟨_, hexec, sealOpens_marks (by split <;> decide) _⟩

/-! ## The sequence of the seal loop never stops (R369) -/

theorem lfsrStep_bit (v : BitVec 16) {i : Nat} (h : i < 15) : (lfsrStep v).getLsbD i = v.getLsbD (i + 1) := by
  have hne : ¬ (i < 16 ∧ 15 = i) := by omega
  rw [lfsrStep, getLsbD_setBit, if_neg hne, BitVec.getLsbD_ushiftRight, Nat.add_comm]

theorem lfsrStep_top (v : BitVec 16) :
    (lfsrStep v).getLsbD 15 = (v.getLsbD 0 != (v.getLsbD 2 != (v.getLsbD 3 != v.getLsbD 5))) := by
  rw [lfsrStep, getLsbD_setBit, if_pos ⟨by decide, rfl⟩]

/-- The bits above the lowest stand in the result, and the top bit then gives the lowest back. -/
theorem lfsrStep_injective {v w : BitVec 16} (h : lfsrStep v = lfsrStep w) : v = w := by
  have hhigh (i : Nat) (hi : i < 15) : v.getLsbD (i + 1) = w.getLsbD (i + 1) := by
    rw [← lfsrStep_bit v hi, h, lfsrStep_bit w hi]
  have hlow : v.getLsbD 0 = w.getLsbD 0 := by
    have htop := lfsrStep_top v
    rw [h, lfsrStep_top w, hhigh 1 (by decide), hhigh 2 (by decide), hhigh 4 (by decide)] at htop
    generalize (w.getLsbD (1 + 1) != (w.getLsbD (2 + 1) != w.getLsbD (4 + 1))) = b at htop
    revert htop
    cases b <;> simp [eq_comm]
  refine BitVec.eq_of_getLsbD_eq fun i hi => ?_
  cases i with
  | zero => exact hlow
  | succ i => exact hhigh i (by omega)

theorem lfsrStep_ne_zero {v : BitVec 16} (h : v ≠ 0) : lfsrStep v ≠ 0 := fun hz =>
  h (lfsrStep_injective (hz.trans (by decide)))

/-- Settles O27: latches and alarms by what each leaves, the seal by what its two samples show, and the sequence by its bits. -/
theorem latchesSealAndAlarms : Obligations.LatchesSealAndAlarms := by
  refine ⟨⟨fun i ns s h => ?_, fun i ns s => exec_wakeLatch_short, fun k s hl hps => ?_, fun k s hps hk => ?_, fun s hps => ?_,
    sealTick_answers, fun x y s => exec_sealLfsrTick_off⟩, fun v => lfsrStep_ne_zero, fun v w => lfsrStep_injective⟩
  · exact ⟨_, exec_wakeLatch_caught h, getLsbD_latched_latch i.isLt s, fun j hj => latch_latched_other hj s, latch_isPending i.isLt,
      (changesOnly_of_exec (exec_wakeLatch_caught h)).narrow fun f hf hout => absurd (by dsimp only [touches] at hf; revert f; decide) hout⟩
  · obtain ⟨u, hexec, hseal⟩ := alarm_taken k s hl hps
    obtain ⟨halarm, hcause, herased, htransport, hkek, hnonce, hctxs, hslots, hsource, hpending⟩ := takeAlarm_marks k u
    obtain ⟨hsealOk, hpress, hlatched⟩ := takeAlarm_keeps k u
    refine ⟨_, hexec, halarm, hcause, herased, htransport, hkek, hnonce, hctxs, hslots, hsource, hpending, fun hk => ?_⟩
    rw [hsealOk, hpress, hlatched]
    exact hseal hk
  · rw [exec_alarm_other hk, alarmSeen_ps4 hps, if_neg fun h : k.val = 0 => hk (Fin.ext h)]
  · obtain ⟨hseal, hpress, hlatched⟩ := sealOpens_marks (n := 1) (by decide) s
    exact ⟨_, exec_alarm_seal s, hseal, hpress, hlatched, sealOpens_ps4_changesOnly hps⟩

end Sys2Proof.Machine
end

section
/-! PROOF. Straps, SHOCK_N, MOT_FAULT_N and the temperature sensors (R105, R106, R171, R331, R367, R423, R424). -/

namespace Sys2Proof.Machine

set_option Elab.async false

/-! ## Straps (R367) -/

theorem exec_strapChange (now : BitVec 4) (s : State) : exec (.strapChange now) s = .next (if live s && now != s.boot.straps then
    lantern 0x0004 (le 1 s.boot.straps.toNat ++ le 1 now.toNat) (s.onPins fun p => { p with straps := now })
    else s.onPins fun p => { p with straps := now }) := rfl

theorem strapChange_records (now : BitVec 4) (s : State) : ∃ t, exec (.strapChange now) s = .next t ∧ t.pins.straps = now ∧
    t.boot.straps = s.boot.straps ∧
    (live s = true → now ≠ s.boot.straps → madeRecord 0x0004 (le 1 s.boot.straps.toNat ++ le 1 now.toNat) s t) ∧
    (live s = false ∨ now = s.boot.straps → changesOnly [.pinsStraps] s t) := by
  rw [exec_strapChange]
  by_cases h : (live s && now != s.boot.straps) = true
  · have hrec := lantern_kept 0x0004 (le 1 s.boot.straps.toNat ++ le 1 now.toNat) (Nat.or_self _)
      (Kept.refl _ (s.onPins fun p => { p with straps := now }))
    rw [if_pos h]
    refine ⟨_, rfl, hrec.same .pinsStraps rfl, hrec.same .bootStraps rfl,
      fun _ _ => ?_, fun hsame => ?_⟩
    · obtain ⟨r, hr, hcode, hdata, hseq⟩ := madeRecord_lantern (code := 0x0004) (by decide) (le 1 s.boot.straps.toNat ++ le 1 now.toNat)
        (s.onPins fun p => { p with straps := now })
      exact ⟨r, hr, hcode, hdata, hseq⟩
    rw [Bool.and_eq_true, bne_iff_ne] at h
    rcases hsame with hl | hnow
    · exact absurd h.1 (by simp [hl])
    · exact absurd hnow h.2
  · rw [if_neg h]
    refine ⟨_, rfl, rfl, rfl, fun hl hnow => absurd (by simp [hl, hnow]) h, fun _ => ?_⟩
    refine (onPins_kept _ (fun p => ?_) (Kept.refl _ s)).changesOnly
    exact { PinsAgree.refl _ p with straps := .inl (testBit_fieldMask rfl) }

/-! ## SHOCK_N (R105, R106) -/

theorem inhibitOn_first {src : InhibitSource} {s : State} (h : s.wr.sources = 0) : inhibitOn src s = firstSource src s := by
  have hclear : s.wr.sources.getLsbD (sourceBit src) = false := by simp [h]
  simp only [inhibitOn, hclear, decide_eq_true h, Bool.false_eq_true, if_false, if_true, firstSource, sourceSet]

theorem inhibitOn_further {src : InhibitSource} {s : State} (h : s.wr.sources.getLsbD (sourceBit src) = false) (hs : s.wr.sources ≠ 0) :
    inhibitOn src s = sourceSet src s := by
  simp only [inhibitOn, h, hs, Bool.false_eq_true, if_false, decide_false, sourceSet]

/-- A source that was not active bans writing. -/
theorem inhibitOn_inhibited {src : InhibitSource} {s : State} (h : s.wr.sources.getLsbD (sourceBit src) = false) :
    (inhibitOn src s).wr.inhibited = true := by
  by_cases hs : s.wr.sources = 0
  · obtain ⟨-, hinhibited, -⟩ := firstSource_marks src s
    rw [inhibitOn_first hs, hinhibited]
  · rw [inhibitOn_further h hs]
    rfl

/-- The first source stops the tokens. -/
theorem inhibitOn_tokens {src : InhibitSource} {s : State} (h : s.wr.sources = 0) : (inhibitOn src s).wr.tokens = false := by
  obtain ⟨-, -, -, htokens, -⟩ := firstSource_marks src s
  rw [inhibitOn_first h, htokens]

/-- SHOCK_N low, and its latch. -/
def shockSeen (s : State) : State := latch 5 (s.onPins fun p => { p with shockN := false })

theorem exec_shockNAssert {ns : Nat} {s : State} (h : 100 ≤ ns) :
    exec (.shockNAssert ns) s = .next (if live s then inhibitOn .shock (shockSeen s) else shockSeen s) :=
  congrArg Host.Outcome.next (if_pos (decide_eq_true h))

theorem shockSeen_wr (s : State) : (shockSeen s).wr = s.wr := (latch_onlyBelfry 5 _).same State.wr rfl

theorem shockNAssert_inhibits (ns : Nat) (s : State) (h : 100 ≤ ns) : ∃ t, exec (.shockNAssert ns) s = .next t ∧ t.pins.shockN = false ∧
    t.blf.latched.getLsbD 5 = true ∧ (live s = true → t.wr.sources.getLsbD 1 = true) ∧
    (live s = true → s.wr.sources.getLsbD 1 = false → t.wr.inhibited = true) ∧
    (live s = true → s.wr.sources = 0 → s.wr.tokens = true → t.wr.tokens = false) := by
  have hpin : (shockSeen s).pins.shockN = false := (latch_onlyBelfry 5 _).same (fun u => u.pins.shockN) rfl
  have hlatched : (shockSeen s).blf.latched.getLsbD 5 = true := getLsbD_latched_latch (by decide) _
  have hon := inhibitOn_kept .shock (Nat.or_self _) (Kept.refl _ (shockSeen s))
  by_cases hl : live s = true
  · refine ⟨_, (exec_shockNAssert h).trans (congrArg _ (if_pos hl)), ?_, ?_, fun _ => inhibitOn_active .shock _, fun _ hs => ?_, fun _ hs _ => ?_⟩
    · rw [hon.same .pinsShockN rfl, hpin]
    · rw [hon.same .blfLatched rfl, hlatched]
    · exact inhibitOn_inhibited (by rwa [shockSeen_wr])
    · exact inhibitOn_tokens (by rwa [shockSeen_wr])
  · exact ⟨_, (exec_shockNAssert h).trans (congrArg _ (if_neg hl)), hpin, hlatched, fun h => absurd h hl, fun h => absurd h hl, fun h => absurd h hl⟩

theorem exec_shockNAssert_short {ns : Nat} {s : State} (h : ns < 100) : exec (.shockNAssert ns) s = .next s :=
  congrArg Host.Outcome.next (if_neg (by simp [caught, h]))

theorem exec_shockNClear (s : State) : exec .shockNClear s = .next (inhibitOff .shock (s.onPins fun p => { p with shockN := true })) := rfl

theorem inhibitOff_of_clear {src : InhibitSource} {s : State} (h : s.wr.sources.getLsbD (sourceBit src) = false) : inhibitOff src s = s := by
  simp [inhibitOff, h]

theorem inhibitOff_of_set {src : InhibitSource} {s : State} (h : s.wr.sources.getLsbD (sourceBit src) = true) :
    inhibitOff src s = s.onWr fun w => { w with
      sources := setBit w.sources (sourceBit src) false,
      holdUntil := if src = .shock ∨ src = .accel then some (max (w.holdUntil.getD 0) (s.power.time + shockHold s)) else w.holdUntil } :=
  if_pos h

theorem shockNClear_holds (s : State) (h : s.wr.sources.getLsbD 1 = true) : ∃ t, exec .shockNClear s = .next t ∧ t.pins.shockN = true ∧
    t.wr.sources.getLsbD 1 = false ∧ (∀ i, i ≠ 1 → t.wr.sources.getLsbD i = s.wr.sources.getLsbD i) ∧ t.wr.inhibited = s.wr.inhibited ∧
    t.wr.holdUntil = some (max (s.wr.holdUntil.getD 0) (s.power.time + 100 * (s.ecc.winhCfg.toNat % 2 ^ 16))) ∧
    changesOnly [.pinsShockN, .wrSources, .wrHoldUntil] s t := by
  have hset := inhibitOff_of_set (src := .shock) (s := s.onPins fun p => { p with shockN := true }) h
  have hexec := (exec_shockNClear s).trans (congrArg _ hset)
  refine ⟨_, hexec, rfl, getLsbD_setBit_false_self _ _, fun i hi => ?_, rfl, ?_, changesOnly_of_exec hexec⟩
  · exact (getLsbD_setBit _ _ _ _).trans (if_neg fun h => hi h.2.symm)
  · change some (max _ (s.power.time + usTicks * (s.ecc.winhCfg.toNat / 2 ^ 0 % 2 ^ 16))) = _
    rw [pow_zero, Nat.div_one]
    rfl

theorem shockNClear_idle (s : State) (h : s.wr.sources.getLsbD 1 = false) :
    ∃ t, exec .shockNClear s = .next t ∧ t.pins.shockN = true ∧ changesOnly [.pinsShockN] s t := by
  have hclear := inhibitOff_of_clear (src := .shock) (s := s.onPins fun p => { p with shockN := true }) h
  refine ⟨_, (exec_shockNClear s).trans (congrArg _ hclear), rfl, (onPins_kept _ (fun p => ?_) (Kept.refl _ s)).changesOnly⟩
  exact { PinsAgree.refl _ p with shockN := .inl (testBit_fieldMask rfl) }

/-- The end of SHOCK_HOLD. -/
def shockHoldOver (a : Nat) (s : State) : State := (advanceTo a s).onWr fun w => { w with holdUntil := none }

theorem exec_shockHoldExpiry {s : State} {a : Nat} (hl : live s = true) (h : s.wr.holdUntil = some a) :
    exec .shockHoldExpiry s = .next (shockHoldOver a s) := by
  change execShockHoldExpiry s = _
  rw [execShockHoldExpiry, goLive_of_live _ hl, h]
  rfl

theorem exec_shockHoldExpiry_none {s : State} (h : s.wr.holdUntil = none) : exec .shockHoldExpiry s = .next s := by
  change execShockHoldExpiry s = _
  exact goLive_of_fixed (by rw [h])

/-! ## MOT_FAULT_N (R171) -/

/-- MOT_FAULT_N low, and its latch. -/
def motFaultSeen (s : State) : State := latch 6 (s.onPins fun p => { p with motFaultN := false })

theorem exec_motFaultNAssert (s : State) :
    exec .motFaultNAssert s = .next (if live s then tapeLost (motorFault none (motFaultSeen s)) else motFaultSeen s) := rfl

theorem motorFault_none (s : State) : motorFault none s = stpFaultSource (enterFault (motNoted s)) := rfl

theorem motorFault_none_stops (s : State) : (motorFault none s).pins.motEn = 0 ∧ (motorFault none s).wr.sources.getLsbD 6 = true := by
  obtain ⟨-, -, -, hsource⟩ := motNoted_kept s
  have hraise := stpFaultSource_kept (Nat.or_self _) (Kept.refl _ (enterFault (motNoted s)))
  rw [motorFault_none, hraise.same .pinsMotEn rfl, hraise.same .wrSources rfl, enterFault_wr]
  exact ⟨enterFault_motEn _, hsource⟩

theorem motFaultNAssert_stops (s : State) : ∃ t, exec .motFaultNAssert s = .next t ∧ t.pins.motFaultN = false ∧ t.blf.latched.getLsbD 6 = true ∧
    (live s = true → t.pins.motEn = 0 ∧ t.wr.sources.getLsbD 6 = true) := by
  have hpin : (motFaultSeen s).pins.motFaultN = false := (latch_onlyBelfry 6 _).same (fun u => u.pins.motFaultN) rfl
  have hlatched : (motFaultSeen s).blf.latched.getLsbD 6 = true := getLsbD_latched_latch (by decide) _
  by_cases hl : live s = true
  · have hfault := motorFault_kept none (Nat.or_self _) (Kept.refl _ (motFaultSeen s))
    have hlost := tapeLost_kept (Nat.or_self _) (Kept.refl _ (motorFault none (motFaultSeen s)))
    refine ⟨_, (exec_motFaultNAssert s).trans (congrArg _ (if_pos hl)), ?_, ?_, fun _ => ?_⟩
    · rw [hlost.same .pinsMotFaultN rfl, hfault.same .pinsMotFaultN rfl, hpin]
    · rw [hlost.same .blfLatched rfl, hfault.same .blfLatched rfl, hlatched]
    · rw [hlost.same .pinsMotEn rfl, hlost.same .wrSources rfl]
      exact motorFault_none_stops _
  · exact ⟨_, (exec_motFaultNAssert s).trans (congrArg _ (if_neg hl)), hpin, hlatched, fun h => absurd h hl⟩

/-- Settles O28: each input by its pin, its latch and, while the part runs, its inhibit. -/
theorem pinsActOnTheirLatchesAndInhibits : Obligations.PinsActOnTheirLatchesAndInhibits :=
  ⟨strapChange_records, shockNAssert_inhibits, fun _ _ => exec_shockNAssert_short, shockNClear_holds, shockNClear_idle,
    fun _ _ hl h => ⟨_, exec_shockHoldExpiry hl h, rfl, rfl, (changesOnly_of_exec (exec_shockHoldExpiry hl h)).narrow fun f hf hout => by
      dsimp only [touches] at hf
      exact absurd (by simpa [or_comm] using hf) hout⟩,
    motFaultNAssert_stops, fun _ => exec_shockHoldExpiry_none⟩

/-! ## Temperature (R423, R424) -/

/-- The highest reading is one of the readings, and none lies above it. -/
theorem foldl_max_spec (l : List Int) (a : Int) : (∀ x ∈ a :: l, x ≤ l.foldl max a) ∧ l.foldl max a ∈ a :: l := by
  induction l generalizing a with
  | nil => simp
  | cons b l ih =>
    obtain ⟨hle, hmem⟩ := ih (max a b)
    rw [List.foldl_cons]
    refine ⟨fun x hx => ?_, ?_⟩
    · rcases List.mem_cons.mp hx with rfl | hx
      · exact (le_max_left _ _).trans (hle _ List.mem_cons_self)
      · rcases List.mem_cons.mp hx with rfl | hx
        · exact (le_max_right _ _).trans (hle _ List.mem_cons_self)
        · exact hle x (List.mem_cons_of_mem _ hx)
    · rcases List.mem_cons.mp hmem with h | h
      · rw [h]
        rcases max_choice a b with hm | hm <;> simp [hm]
      · exact List.mem_cons_of_mem _ (List.mem_cons_of_mem _ h)

theorem le_highest (v : Vector Int 16) (i : Fin 16) : v[i] ≤ highest v :=
  (foldl_max_spec v.toList v[0]).1 _ (List.mem_cons_of_mem _ (Vector.mem_toList_iff.mpr (Vector.getElem_mem i.isLt)))

theorem highest_mem (v : Vector Int 16) : ∃ i : Fin 16, v[i] = highest v := by
  have hmem : highest v ∈ v := by
    rcases List.mem_cons.mp (foldl_max_spec v.toList v[0]).2 with h | h
    · exact (congrArg (· ∈ v) h).mpr (Vector.getElem_mem _)
    · exact Vector.mem_toList_iff.mp h
  obtain ⟨i, hi, h⟩ := Vector.getElem_of_mem hmem
  exact ⟨⟨i, hi⟩, h⟩

/-- The readings taken: the junction temperature, the counts, and the voltage cap of the cold offset. -/
def sampled (v : Vector Int 16) (s : State) : State :=
  voltageCap (s.onPower fun p => { p with
    junction := highest v, hotMs := if 103000 ≤ highest v then p.hotMs + 1 else 0, coolMs := if highest v < 100000 then p.coolMs + 1 else 0 })

/-- The alarm of this condition stands already. -/
def alreadyOut (s : State) : Bool :=
  decide (s.power.junction < -25000 ∨ 120000 < s.power.junction) && s.trust.cause.getLsbD 3 && s.pins.alarmAsserted && s.keep.erased

theorem exec_thermalSample {v : Vector Int 16} {s : State} (hl : live s = true) : exec (.thermalSample v) s =
    .next (if (highest v < -25000 ∨ 120000 < highest v) ∧ !alreadyOut s then alarmSeen 3 (sampled v s) else sampled v s) := by
  change execThermalSample v s = _
  rw [execThermalSample, goLive_of_live _ hl]
  rfl

theorem PinsAgree.eq_of_outside {m : Nat} {a b : Pins} (h : PinsAgree m a b) (hm : m % 2 ^ 11 = 0) : b = a := by
  have hclear : ∀ i, 0 ≤ i → i < 11 → m.testBit i = false := fun i hlo hhi => testBit_of_clear (n := 11) (by simpa using hm) hlo (by omega)
  cases h
  cases a
  cases b
  simp_all

theorem CupolaAgree.eq_of_outside {m : Nat} {a b : Cupola} (h : CupolaAgree m a b) (hm : (m >>> 130) % 2 ^ 10 = 0) : b = a := by
  have hclear : ∀ i, 130 ≤ i → i < 140 → m.testBit i = false := fun i hlo hhi => testBit_of_clear hm hlo hhi
  cases h
  cases a
  cases b
  simp_all

/-- A voltage cap chosen leaves pins, trust, Keep and Cupola alone. -/
theorem voltageCap_rest (s : State) : (voltageCap s).pins = s.pins ∧ (voltageCap s).trust = s.trust ∧ (voltageCap s).keep = s.keep ∧
    (voltageCap s).cupola = s.cupola := by
  have h := voltageCap_kept (Nat.or_self _) (Kept.refl _ s)
  exact ⟨h.pins.eq_of_outside rfl, h.trust.eq_of_outside rfl, h.keep.eq_of_outside (by decide),
    h.cupola.eq_of_outside rfl⟩

theorem sampled_rest (v : Vector Int 16) (s : State) : (sampled v s).pins = s.pins ∧ (sampled v s).trust = s.trust ∧
    (sampled v s).keep = s.keep ∧ (sampled v s).cupola = s.cupola := voltageCap_rest _

/-- The junction temperature and the two counts that a state holds. -/
def tempOf (s : State) : Int × Nat × Nat := (s.power.junction, s.power.hotMs, s.power.coolMs)

theorem tempOf_of_kept {m : Nat} {s t : State} (h : Kept m s t) (hm : m &&& shiftMask [.powerJunction, .powerHotMs, .powerCoolMs] = 0) :
    tempOf t = tempOf s := by
  have hout (f : Field) (hf : (shiftMask [.powerJunction, .powerHotMs, .powerCoolMs]).testBit f.ctorIdx = true) :
      m.testBit f.ctorIdx = false := by
    have hbit := congrArg (·.testBit f.ctorIdx) hm
    simpa [hf] using hbit
  have hjunction : t.power.junction = s.power.junction := h.same .powerJunction (hout _ (by decide))
  have hhot : t.power.hotMs = s.power.hotMs := h.same .powerHotMs (hout _ (by decide))
  have hcool : t.power.coolMs = s.power.coolMs := h.same .powerCoolMs (hout _ (by decide))
  unfold tempOf
  rw [hjunction, hhot, hcool]

theorem tempOf_sampled (v : Vector Int 16) (s : State) : tempOf (sampled v s) = (highest v,
    if 103000 ≤ highest v then s.power.hotMs + 1 else 0, if highest v < 100000 then s.power.coolMs + 1 else 0) :=
  tempOf_of_kept (voltageCap_kept (Nat.or_self _) (Kept.refl _ _)) rfl

/-- The alarm of a temperature out of range stands after the sample. -/
theorem sampled_alarm {v : Vector Int 16} {s : State} (hl : live s = true) (hps : s.power.pstate ≠ 4)
    (hout : highest v < -25000 ∨ 120000 < highest v) {t : State}
    (ht : t = if (highest v < -25000 ∨ 120000 < highest v) ∧ !alreadyOut s then alarmSeen 3 (sampled v s) else sampled v s) :
    t.pins.alarmAsserted = true ∧ t.trust.cause.getLsbD 3 = true ∧ t.keep.erased = true := by
  by_cases hnew : alreadyOut s = true
  · obtain ⟨hpins, htrust, hkeep, -⟩ := sampled_rest v s
    rw [if_neg (by simp [hnew])] at ht
    rw [ht, hpins, htrust, hkeep]
    simp only [alreadyOut, Bool.and_eq_true] at hnew
    obtain ⟨⟨⟨-, hcause⟩, halarm⟩, herased⟩ := hnew
    exact ⟨halarm, hcause, herased⟩
  · have hkept := voltageCap_kept (Nat.or_self _) (Kept.refl _ (s.onPower fun p => { p with
      junction := highest v, hotMs := if 103000 ≤ highest v then p.hotMs + 1 else 0, coolMs := if highest v < 100000 then p.coolMs + 1 else 0 }))
    have hphase : (sampled v s).boot.phase = s.boot.phase := hkept.same .bootPhase rfl
    have hpstate : (sampled v s).power.pstate = s.power.pstate := hkept.same .powerPstate rfl
    have hlive : live (sampled v s) = true := by
      unfold live at hl ⊢
      rwa [hphase]
    obtain ⟨halarm, hcause, herased, -⟩ := takeAlarm_marks 3 (sampled v s)
    rw [if_pos ⟨hout, by simp [hnew]⟩, alarmSeen_live hlive (by rwa [hpstate])] at ht
    rw [ht]
    exact ⟨halarm, hcause, herased⟩

theorem thermalSample_follows (v : Vector Int 16) (s : State) (hl : live s = true) (hps : s.power.pstate ≠ 4) :
    ∃ t, exec (.thermalSample v) s = .next t ∧
    (∀ i : Fin 16, v[i] ≤ t.power.junction) ∧ (∃ i : Fin 16, v[i] = t.power.junction) ∧
    t.power.hotMs = (if 103000 ≤ t.power.junction then s.power.hotMs + 1 else 0) ∧
    t.power.coolMs = (if t.power.junction < 100000 then s.power.coolMs + 1 else 0) ∧
    (t.power.junction < -25000 ∨ 120000 < t.power.junction → t.pins.alarmAsserted = true ∧ t.trust.cause.getLsbD 3 = true ∧ t.keep.erased = true) ∧
    (-25000 ≤ t.power.junction → t.power.junction ≤ 120000 → t.pins = s.pins ∧ t.trust = s.trust ∧ t.keep = s.keep ∧ t.cupola = s.cupola) := by
  refine ⟨_, exec_thermalSample hl, ?_⟩
  generalize ht : (if (highest v < -25000 ∨ 120000 < highest v) ∧ !alreadyOut s then alarmSeen 3 (sampled v s) else sampled v s) = t
  have htemp : tempOf t = tempOf (sampled v s) := by
    rw [← ht]
    split
    · exact tempOf_of_kept (alarmSeen_kept 3 (Nat.or_self _) (Kept.refl _ _)) rfl
    · rfl
  rw [tempOf_sampled, tempOf, Prod.mk.injEq, Prod.mk.injEq] at htemp
  obtain ⟨hjunction, hhot, hcool⟩ := htemp
  rw [hjunction, hhot, hcool]
  refine ⟨le_highest v, highest_mem v, rfl, rfl, fun hout => sampled_alarm hl hps hout ht.symm, fun hlo hhi => ?_⟩
  rw [if_neg fun h => (h.1.elim hlo.not_gt hhi.not_gt)] at ht
  rw [← ht]
  exact sampled_rest v s

/-! ## The thermal cap (R424) -/

/-- A cap taken for heat, and the count of hot milliseconds begun again. -/
def capTaken (cap : Nat) (s : State) : State := (s.onWvn fun w => { w with capT := cap }).onPower fun p => { p with hotMs := 0 }

/-- The band below the one in force. -/
def bandBelow (s : State) : Nat := if s.wvn.capT = 16 then bandOfR (max 1024 s.wvn.r) - 1 else s.wvn.capT - 1

theorem exec_thermalCapStep_hot {s : State} (hl : live s = true) (hhot : 1000 ≤ s.power.hotMs) : exec .thermalCapStep s =
    .next (if bandBelow s = s.wvn.capT then capTaken (bandBelow s) s else wvnRecord 0 (capTaken (bandBelow s) s)) := by
  change execThermalCapStep s = _
  rw [execThermalCapStep, goLive_of_live _ hl, capStep, if_pos hhot]
  rfl

theorem thermalCapStep_hot {s : State} (hl : live s = true) (hhot : 1000 ≤ s.power.hotMs) :
    ∃ t, exec .thermalCapStep s = .next t ∧ t.wvn.capT = bandBelow s ∧ t.power.hotMs = 0 := by
  have hrec := wvnRecord_kept 0 (Nat.or_self _) (Kept.refl _ (capTaken (bandBelow s) s))
  refine ⟨_, exec_thermalCapStep_hot hl hhot, ?_⟩
  split
  · exact ⟨rfl, rfl⟩
  · exact ⟨hrec.same .wvnCapT rfl, hrec.same .powerHotMs rfl⟩

theorem bandBelow_of_capped {s : State} (h : s.wvn.capT < 16) : bandBelow s = s.wvn.capT - 1 := if_neg h.ne

theorem bandBelow_of_free {s : State} (h : s.wvn.capT = 16) : bandBelow s = bandOfR (max 1024 s.wvn.r) - 1 := if_pos h

/-- The band of a speed is at most 15, so one below it is at most 14. -/
theorem bandOfR_pred_lt (r : Nat) : bandOfR r - 1 < 15 := by
  unfold bandOfR
  omega

/-- One band up again, and the count of cool milliseconds begun again. -/
def capEased (s : State) : State := (s.onWvn fun w => { w with capT := w.capT + 1 }).onPower fun p => { p with coolMs := 0 }

theorem exec_thermalCapStep_cool {s : State} (hl : live s = true) (hhot : s.power.hotMs < 1000) (hcool : 10000 ≤ s.power.coolMs)
    (hcap : s.wvn.capT < 16) : exec .thermalCapStep s = .next (capEased s) := by
  change execThermalCapStep s = _
  rw [execThermalCapStep, goLive_of_live _ hl, capStep, if_neg hhot.not_ge, if_pos ⟨hcool, hcap⟩]
  rfl

theorem capEased_changesOnly (s : State) : changesOnly [.wvnCapT, .powerCoolMs] s (capEased s) := by
  refine (onPower_kept _ (fun p => ?_) (onWvn_kept _ (fun w => ?_) (Kept.refl _ s))).changesOnly
  · exact { PowerAgree.refl _ p with coolMs := .inl (testBit_fieldMask rfl) }
  · exact { WvnAgree.refl _ w with capT := .inl (testBit_fieldMask rfl) }

theorem exec_thermalCapStep_rests {s : State} (hhot : s.power.hotMs < 1000) (h : s.power.coolMs < 10000 ∨ 16 ≤ s.wvn.capT) :
    exec .thermalCapStep s = .next s := by
  have hrest : ¬ (10000 ≤ s.power.coolMs ∧ s.wvn.capT < 16) := by omega
  exact goLive_of_fixed (by rw [capStep, if_neg hhot.not_ge, if_neg hrest])

/-- Settles O30: a sample by its highest reading, a step of the cap by the two counts. -/
theorem temperatureDrivesTheThermalCap : Obligations.TemperatureDrivesTheThermalCap := by
  refine ⟨thermalSample_follows, fun s hl hhot hcap => ?_, fun s hl hhot hcap => ?_,
    fun s hl hhot hcool hcap => ⟨_, exec_thermalCapStep_cool hl hhot hcool hcap, rfl, rfl, capEased_changesOnly s⟩,
    fun s => exec_thermalCapStep_rests⟩
  · obtain ⟨t, hexec, hband, hzero⟩ := thermalCapStep_hot hl hhot
    exact ⟨t, hexec, hband.trans (bandBelow_of_capped hcap), hzero⟩
  · obtain ⟨t, hexec, hband, hzero⟩ := thermalCapStep_hot hl hhot
    rw [bandBelow_of_free hcap] at hband
    exact ⟨t, hexec, hband, hband ▸ bandOfR_pred_lt _, hzero⟩

end Sys2Proof.Machine
end

section
/-! PROOF. What a Lantern record leaves: the records made just before it, and the requests of Belfry's sources (R329, R381, R382, R384). -/

namespace Sys2Proof.Machine

set_option Elab.async false

/-! ## A record among the latest of the ring -/

/-- A record stands in the ring with at most k behind it. -/
def amongLatest (k : Nat) (r : LanRec) (l : Lantern) : Prop := ∃ pre post, l.ring = pre ++ r :: post ∧ post.length ≤ k

theorem amongLatest.mem {k : Nat} {r : LanRec} {l : Lantern} (h : amongLatest k r l) : r ∈ l.ring := by
  obtain ⟨pre, post, hring, -⟩ := h
  rw [hring]
  exact List.mem_append_right _ List.mem_cons_self

theorem amongLatest.of_ring {k : Nat} {r : LanRec} {l m : Lantern} (h : amongLatest k r l) (hring : m.ring = l.ring) : amongLatest k r m := by
  unfold amongLatest
  rwa [hring]

/-- One record more drops none of the latest. -/
theorem amongLatest.put {k : Nat} {r : LanRec} {l : Lantern} (h : amongLatest k r l) (hk : k < 245000) (x : LanRec) (b : Bool) :
    amongLatest (k + 1) r (lanPut x b l) := by
  obtain ⟨pre, post, hring, hlen⟩ := h
  have hkept : ∃ pre', ringKept l = pre' ++ r :: post := by
    unfold ringKept
    rw [hring]
    split
    next hfull =>
      cases pre with
      | nil =>
        have hlong : 245760 ≤ (([] : List LanRec) ++ r :: post).length := hfull
        rw [List.nil_append, List.length_cons] at hlong
        omega
      | cons q pre => exact ⟨pre, rfl⟩
    next => exact ⟨pre, rfl⟩
  obtain ⟨pre', hpre⟩ := hkept
  refine ⟨pre', post ++ [numbered x l], ?_, by simpa using hlen⟩
  rw [lanPut_ring, hpre]
  simp

theorem amongLatest_lanPut (r : LanRec) (b : Bool) (l : Lantern) : amongLatest 0 (numbered r l) (lanPut r b l) :=
  ⟨ringKept l, [], lanPut_ring r b l, le_rfl⟩

theorem lanEvent_ring (code cls : Nat) (data : Bytes) (s : State) : (lanEvent code cls data s).lantern.ring = s.lantern.ring :=
  (lanEvent_kept code cls data rfl (Kept.refl (allBut .lanternRing) s)).same .lanternRing rfl

theorem amongLatest.fire {k : Nat} {r : LanRec} {s : State} (h : amongLatest k r s.lantern) (hk : k < 245000) (code : Nat) :
    amongLatest (k + 1) r (lanFire code s).lantern := by
  unfold lanFire
  refine amongLatest.of_ring (h.put hk (lanRec s 0x0091 2 0 (le 2 code)) true) ?_
  dsimp only
  rw [raise_lantern, lanEvent_ring]
  rfl

theorem amongLatest.mono {k n : Nat} {r : LanRec} {l : Lantern} (h : amongLatest k r l) (hk : k ≤ n) : amongLatest n r l := by
  obtain ⟨pre, post, hring, hlen⟩ := h
  exact ⟨pre, post, hring, hlen.trans hk⟩

/-- A record written puts one behind the latest, and one more when it fires the trigger. -/
theorem amongLatest.write {k : Nat} {r : LanRec} {s : State} (h : amongLatest k r s.lantern) (hk : k + 1 < 245000) (code cls sup : Nat)
    (data : Bytes) : amongLatest (k + 2) r (lanWrite code cls sup data s).lantern := by
  have hput := h.put (Nat.lt_of_succ_lt hk) (lanRec s code cls sup data)
    (s.lantern.armed && decide (s.lantern.trigCode = code) || decide (0 < s.lantern.postLeft))
  unfold lanWrite
  lift_lets
  intro hit post s1 s2
  have hs2 : amongLatest (k + 1) r s2.lantern := hput.of_ring (lanEvent_ring code cls data s1)
  split
  · exact hs2.fire hk code
  · exact hs2.mono (Nat.le_succ _)

theorem amongLatest_lanWrite (code cls sup : Nat) (data : Bytes) (s : State) :
    amongLatest 1 (numbered (lanRec s code cls sup data) s.lantern) (lanWrite code cls sup data s).lantern := by
  unfold lanWrite
  lift_lets
  intro hit post s1 s2
  have hs2 : amongLatest 0 (numbered (lanRec s code cls sup data) s.lantern) s2.lantern :=
    (amongLatest_lanPut (lanRec s code cls sup data) (hit || post) s.lantern).of_ring (lanEvent_ring code cls data s1)
  split
  · exact hs2.fire (by decide) code
  · exact hs2.mono (Nat.zero_le _)

theorem amongLatest.lantern {k : Nat} {r : LanRec} {s : State} (h : amongLatest k r s.lantern) (hk : k + 1 < 245000) (code : Nat) (data : Bytes) :
    amongLatest (k + 2) r (lantern code data s).lantern := by
  have hsame {t : State} (ht : t.lantern.ring = s.lantern.ring) : amongLatest (k + 2) r t.lantern := (h.of_ring ht).mono (by omega)
  unfold Machine.lantern
  lift_lets
  intro cls sec s0 n sup
  have hs0 : s0.lantern.ring = s.lantern.ring := by
    change (if s.lantern.second = sec then s.lantern else { s.lantern with second := sec, rate := [] }).ring = s.lantern.ring
    split <;> rfl
  split
  · exact h.write hk _ _ _ _
  · split
    · exact hsame rfl
    · split
      · refine amongLatest.write ?_ hk _ _ _ _
        exact h.of_ring hs0
      · exact hsame hs0

/-- A record of this code with these data bytes was made from s on, and at most k have come behind it. -/
def madeLately (k code : Nat) (data : Bytes) (s t : State) : Prop :=
  ∃ r, amongLatest k r t.lantern ∧ r.code = code ∧ r.data = fit 36 data ∧ r.rseq = (s.lantern.rseq + 1) % 2 ^ 32

section
variable {k code : Nat} {data : Bytes} {s t u : State}

theorem madeLately.madeRecord (h : madeLately k code data s t) : madeRecord code data s t := by
  obtain ⟨r, hr, hfields⟩ := h
  exact ⟨r, hr.mem, hfields⟩

theorem madeLately.of_ring (h : madeLately k code data s t) (hring : u.lantern.ring = t.lantern.ring) : madeLately k code data s u := by
  obtain ⟨r, hr, hfields⟩ := h
  exact ⟨r, hr.of_ring hring, hfields⟩

theorem madeLately.lantern (h : madeLately k code data s t) (hk : k + 1 < 245000) (c : Nat) (d : Bytes) :
    madeLately (k + 2) code data s (Machine.lantern c d t) := by
  obtain ⟨r, hr, hfields⟩ := h
  exact ⟨r, hr.lantern hk c d, hfields⟩

theorem madeLately_lantern (h : 2 ≤ lanClass code) (data : Bytes) (s : State) : madeLately 1 code data s (Machine.lantern code data s) := by
  rw [show Machine.lantern code data s = lanWrite code (lanClass code) 0 data s from if_pos h]
  exact ⟨_, amongLatest_lanWrite code _ 0 data s, rfl, rfl, rfl⟩

end

end Sys2Proof.Machine
end

section
/-! PROOF. Belfry's sources: requests, the choice of an offer, claims, ends of interrupt and masks (R329, R332, R333, R335, R337). -/

namespace Sys2Proof.Machine

set_option Elab.async false

/-! ## Offers are fresh after they are made (R332) -/

/-- Core c's offer made afresh. -/
def offerTo (c : Fin 4) (t : State) : State :=
  let new := choice t.blf c
  if new = t.blf.cores[c].offer then t
  else
    let t1 := t.onBlf fun b => { b with cores := b.cores.set c { b.cores[c] with
      offer := new, withdrawn := if new.isNone then true else false } }
    match new with
    | some n => emit (.coreOffer c (vectorOf t.blf n)) t1
    | none => t1

theorem offers_eq (s : State) : offers s = offerTo 3 (offerTo 2 (offerTo 1 (offerTo 0 s))) := rfl

/-- The offer's core, with the offer that it has now and the mark of a withdrawn one. -/
def offered (c : Fin 4) (t : State) : Core :=
  if choice t.blf c = t.blf.cores[c].offer then t.blf.cores[c]
  else { t.blf.cores[c] with offer := choice t.blf c, withdrawn := if (choice t.blf c).isNone then true else false }

theorem offerTo_blf (c : Fin 4) (t : State) : (offerTo c t).blf = { t.blf with cores := t.blf.cores.set c (offered c t) } := by
  unfold offerTo offered
  dsimp only
  split
  · simp
  · split <;> simp_all [emit]

theorem offered_offer (c : Fin 4) (t : State) : (offered c t).offer = choice t.blf c := by
  unfold offered
  split
  next h => exact h.symm
  · rfl

theorem offered_stack (c : Fin 4) (t : State) : (offered c t).stack = t.blf.cores[c].stack := by
  unfold offered
  split <;> rfl

/-- A choice depends on the sources, the cores in service and the stacks alone. -/
theorem choice_congr {a b : Belfry} (hsources : b.sources = a.sources) (hok : b.coreOk = a.coreOk)
    (hstack : ∀ c : Fin 4, b.cores[c].stack = a.cores[c].stack) (c : Fin 4) : choice b c = choice a c := by
  have helig : eligible b c = eligible a c := funext fun n => by rw [eligible, eligible, hsources]
  have hbetter : betterSource b = betterSource a := funext₂ fun o n => by
    unfold betterSource
    rw [hsources]
  have hrun : runPri b.cores[c] = runPri a.cores[c] := by rw [runPri, runPri, hstack]
  rw [choice, choice, hok, helig, hbetter, hrun, hsources]

theorem offerTo_core_same (c : Fin 4) (t : State) : (offerTo c t).blf.cores[c] = offered c t := by
  rw [offerTo_blf]
  simp

theorem offerTo_core_other {c d : Fin 4} (h : d ≠ c) (t : State) : (offerTo c t).blf.cores[d] = t.blf.cores[d] := by
  rw [offerTo_blf]
  exact Vector.getElem_set_ne c.isLt d.isLt fun hcd => h (Fin.ext hcd.symm)

theorem choice_offerTo (c d : Fin 4) (t : State) : choice (offerTo c t).blf d = choice t.blf d := by
  refine choice_congr (by rw [offerTo_blf]) (by rw [offerTo_blf]) (fun e => ?_) d
  by_cases h : e = c
  · rw [h, offerTo_core_same, offered_stack]
  · rw [offerTo_core_other h]

theorem offerTo_fresh_same (c : Fin 4) (t : State) : (offerTo c t).blf.cores[c].offer = choice (offerTo c t).blf c := by
  rw [offerTo_core_same, offered_offer, choice_offerTo]

theorem offerTo_fresh_other {c d : Fin 4} (t : State) (h : t.blf.cores[d].offer = choice t.blf d) (hd : d ≠ c) :
    (offerTo c t).blf.cores[d].offer = choice (offerTo c t).blf d := by
  rw [offerTo_core_other hd, choice_offerTo, h]

theorem offersFresh_offers (s : State) : offersFresh (offers s) := by
  have h0 := offerTo_fresh_same 0 s
  have h1 := offerTo_fresh_same 1 (offerTo 0 s)
  have h2 := offerTo_fresh_same 2 (offerTo 1 (offerTo 0 s))
  intro c
  rw [offers_eq]
  match c with
  | 0 => exact offerTo_fresh_other _ (offerTo_fresh_other _ (offerTo_fresh_other _ h0 (by decide)) (by decide)) (by decide)
  | 1 => exact offerTo_fresh_other _ (offerTo_fresh_other _ h1 (by decide)) (by decide)
  | 2 => exact offerTo_fresh_other _ h2 (by decide)
  | 3 => exact offerTo_fresh_same 3 _

/-- What stands of a core beside its offer. -/
theorem core_of_same {s t : State} (h : Field.blfCores.same s t) (c : Fin 4) : t.blf.cores[c].stack = s.blf.cores[c].stack ∧
    t.blf.cores[c].claimed = s.blf.cores[c].claimed ∧ t.blf.cores[c].missed = s.blf.cores[c].missed := by
  have hmap : (t.blf.cores.map fun k => { k with offer := none, withdrawn := false }) =
      (s.blf.cores.map fun k => { k with offer := none, withdrawn := false }) := h
  have hc := congrArg (fun v : Vector Core 4 => v[c]) hmap
  simp only [Fin.getElem_fin, Vector.getElem_map, Core.mk.injEq] at hc
  obtain ⟨hstack, hclaimed, -, -, hmissed, -⟩ := hc
  exact ⟨hstack, hclaimed, hmissed⟩

theorem offers_core (s : State) (c : Fin 4) : (offers s).blf.cores[c].stack = s.blf.cores[c].stack ∧
    (offers s).blf.cores[c].claimed = s.blf.cores[c].claimed ∧ (offers s).blf.cores[c].missed = s.blf.cores[c].missed :=
  core_of_same ((offers_kept (Nat.or_self _) (Kept.refl _ s)).same .blfCores rfl) c

/-- What stands of a source beside its request. -/
theorem source_of_same {s t : State} (h : Field.blfSources.same s t) (n : Nat) : (srcOf t n).prio = (srcOf s n).prio ∧
    (srcOf t n).en = (srcOf s n).en ∧ (srcOf t n).route = (srcOf s n).route ∧ (srcOf t n).active = (srcOf s n).active := by
  have hmap : (t.blf.sources.map fun q => { q with pending := false }) = (s.blf.sources.map fun q => { q with pending := false }) := h
  have hn := congrArg (fun v => getAt v n ({} : Source)) hmap
  have hsource : { srcOf t n with pending := false } = { srcOf s n with pending := false } :=
    (getAt_vectorMap _ (fun q : Source => { q with pending := false }) n {}).symm.trans
      (hn.trans (getAt_vectorMap _ (fun q : Source => { q with pending := false }) n {}))
  rw [Source.mk.injEq] at hsource
  obtain ⟨-, hactive, hprio, hroute, hen⟩ := hsource
  exact ⟨hprio, hen, hroute, hactive⟩

/-! ## The best eligible source (R332) -/

/-- A candidate at least as good as another: a lower priority number, or the same and no higher source number. -/
def atLeastAsGood (b : Belfry) (n m : Nat) : Prop :=
  (getAt b.sources n {}).prio < (getAt b.sources m {}).prio ∨ ((getAt b.sources n {}).prio = (getAt b.sources m {}).prio ∧ n ≤ m)

theorem atLeastAsGood.trans {b : Belfry} {n m k : Nat} (h : atLeastAsGood b n m) (hk : atLeastAsGood b m k) : atLeastAsGood b n k := by
  rcases h with h | ⟨heq, hle⟩
  · rcases hk with hk | ⟨heq', -⟩
    · exact .inl (h.trans hk)
    · exact .inl (heq' ▸ h)
  · rcases hk with hk | ⟨heq', hle'⟩
    · exact .inl (heq ▸ hk)
    · exact .inr ⟨heq.trans heq', hle.trans hle'⟩

/-- Among candidates in ascending order the fold keeps the best. -/
theorem foldl_betterSource (b : Belfry) (l : List Nat) (a n : Nat) (hsorted : (a :: l).Pairwise (· < ·))
    (h : l.foldl (betterSource b) (some a) = some n) : n ∈ a :: l ∧ ∀ m ∈ a :: l, atLeastAsGood b n m := by
  induction l generalizing a with
  | nil =>
    obtain rfl : a = n := by simpa using h
    exact ⟨List.mem_singleton_self _, fun m hm => .inr (by rw [List.mem_singleton.mp hm]; exact ⟨rfl, le_rfl⟩)⟩
  | cons x l ih =>
    obtain ⟨hax, hxl⟩ := List.pairwise_cons.mp hsorted
    have hlt : a < x := hax x List.mem_cons_self
    rw [List.foldl_cons] at h
    by_cases hbetter : (getAt b.sources x {}).prio < (getAt b.sources a {}).prio
    · rw [betterSource, if_pos hbetter] at h
      obtain ⟨hmem, hbest⟩ := ih x hxl h
      refine ⟨List.mem_cons_of_mem _ hmem, fun m hm => ?_⟩
      rcases List.mem_cons.mp hm with rfl | hm
      · exact (hbest x List.mem_cons_self).trans (.inl hbetter)
      · exact hbest m hm
    · rw [betterSource, if_neg hbetter] at h
      have hal : (a :: l).Pairwise (· < ·) :=
        List.pairwise_cons.mpr ⟨fun y hy => hax y (List.mem_cons_of_mem _ hy), (List.pairwise_cons.mp hxl).2⟩
      obtain ⟨hmem, hbest⟩ := ih a hal h
      have hax' : atLeastAsGood b a x := (lt_or_eq_of_le (not_lt.mp hbetter)).imp id fun heq => ⟨heq, hlt.le⟩
      refine ⟨?_, fun m hm => ?_⟩
      · rcases List.mem_cons.mp hmem with rfl | hmem
        · exact List.mem_cons_self
        · exact List.mem_cons_of_mem _ (List.mem_cons_of_mem _ hmem)
      · rcases List.mem_cons.mp hm with rfl | hm
        · exact hbest m List.mem_cons_self
        · rcases List.mem_cons.mp hm with rfl | hm
          · exact (hbest a List.mem_cons_self).trans hax'
          · exact hbest m (List.mem_cons_of_mem _ hm)

theorem choice_best (b : Belfry) (c : Fin 4) (n : Nat) (h : choice b c = some n) : n < 480 ∧ eligible b c n = true ∧
    (getAt b.sources n {}).prio.val < runPri b.cores[c] ∧ ∀ m < 480, eligible b c m = true → atLeastAsGood b n m := by
  have hok : b.coreOk.getLsbD c = true := by
    by_contra hno
    rw [choice, if_neg hno] at h
    cases h
  rw [choice, if_pos hok] at h
  dsimp only at h
  generalize hcand : ((List.range 480).filter fun n => eligible b c n && decide ((getAt b.sources n {}).prio.val < runPri b.cores[c])) = cand at h
  have hmem (m : Nat) : m ∈ cand ↔ m < 480 ∧ eligible b c m = true ∧ (getAt b.sources m {}).prio.val < runPri b.cores[c] := by
    simp [← hcand]
  cases cand with
  | nil => cases h
  | cons a l =>
    have hsorted : (a :: l).Pairwise (· < ·) := hcand ▸ List.pairwise_lt_range.filter _
    obtain ⟨hn, hbest⟩ := foldl_betterSource b l a n hsorted h
    obtain ⟨hlt, helig, hpri⟩ := (hmem n).mp hn
    refine ⟨hlt, helig, hpri, fun m hm hem => ?_⟩
    by_cases hrun : (getAt b.sources m {}).prio.val < runPri b.cores[c]
    · exact hbest m ((hmem m).mpr ⟨hm, hem, hrun⟩)
    · exact .inl (Fin.lt_def.mpr (hpri.trans_le (not_lt.mp hrun)))

/-! ## Requests (R329) -/

theorem srcOf_offers (s : State) (n : Nat) : srcOf (offers s) n = srcOf s n := by
  rw [srcOf, offers_sources, srcOf]

theorem raise_eq {n : Nat} (h : n < 475) (s : State) :
    raise n s = offers (s.onBlf fun b => { b with sources := updAt b.sources n fun q => { q with pending := true } }) := by
  have hserved : ¬ reservedSource n = true := by simp [reservedSource, h]
  rw [raise, if_neg hserved]

theorem raise_reserved {n : Nat} (h : 475 ≤ n) (s : State) : raise n s = s := by
  have hreserved : reservedSource n = true := decide_eq_true h
  rw [raise, if_pos hreserved]

theorem srcOf_raise_same {n : Nat} (h : n < 475) (s : State) : srcOf (raise n s) n = { srcOf s n with pending := true } := by
  rw [raise_eq h, srcOf_offers]
  exact getAt_updAt_same _ _ _ (by omega)

theorem srcOf_raise_other {n m : Nat} (h : m ≠ n) (s : State) : srcOf (raise n s) m = srcOf s m := by
  by_cases hn : n < 475
  · rw [raise_eq hn, srcOf_offers]
    exact getAt_updAt_other _ _ _ h
  · rw [raise_reserved (not_lt.mp hn)]

theorem offersFresh_raise {n : Nat} (h : n < 475) (s : State) : offersFresh (raise n s) := by
  rw [raise_eq h]
  exact offersFresh_offers _

theorem raise_pending_mono (n : Nat) {m : Nat} {s : State} (h : isPending s m) : isPending (raise n s) m := by
  by_cases hm : m = n
  · subst hm
    by_cases hn : m < 475
    · exact raise_isPending s hn
    · rwa [raise_reserved (not_lt.mp hn)]
  · exact (congrArg (fun q : Source => q.pending = true) (srcOf_raise_other hm s)).mpr h

theorem sourceRequest_requests (n : Fin 480) (s : State) : (475 ≤ n.val → exec (.sourceRequest n) s = .next s) ∧
    (n.val < 475 → ∃ t, exec (.sourceRequest n) s = .next t ∧ isPending t n ∧ offersFresh t ∧ changesOnly requestFields s t ∧
      ∀ m, m ≠ n.val → srcOf t m = srcOf s m) :=
  ⟨fun h => congrArg Host.Outcome.next (raise_reserved h s), fun h =>
    ⟨_, rfl, raise_isPending s h, offersFresh_raise h s, raise_changesOnly _ _, fun _ hm => srcOf_raise_other hm s⟩⟩

/-- What leaves both the requests and the rest of the sources alone leaves each source whole. -/
theorem srcOf_of_kept {m : Nat} {s t : State} (h : Kept m s t) (hm : m &&& shiftMask [.blfSources, .blfRequests] = 0) (n : Nat) :
    srcOf t n = srcOf s n := by
  have hout (f : Field) (hf : (shiftMask [.blfSources, .blfRequests]).testBit f.ctorIdx = true) : m.testBit f.ctorIdx = false := by
    have hbit := congrArg (·.testBit f.ctorIdx) hm
    simpa [hf] using hbit
  obtain ⟨hprio, hen, hroute, hactive⟩ := source_of_same (h.same .blfSources (hout _ (by decide))) n
  have hpending : (srcOf t n).pending = (srcOf s n).pending :=
    Bool.eq_iff_iff.mpr (isPending_congr (h.same .blfRequests (hout _ (by decide))) n)
  generalize srcOf t n = a at *
  generalize srcOf s n = b at *
  cases a
  cases b
  simp only at hprio hen hroute hactive hpending
  subst hprio hen hroute hactive hpending
  rfl

/-- A record makes no source pending but the one of a fired trigger (R384). -/
theorem srcOf_lanWrite {n : Nat} (h : n ≠ 109) (code cls sup : Nat) (data : Bytes) (s : State) :
    srcOf (lanWrite code cls sup data s) n = srcOf s n := by
  have hevent (c k : Nat) (d : Bytes) (u : State) : srcOf (lanEvent c k d u) n = srcOf u n :=
    srcOf_of_kept (lanEvent_kept c k d (Nat.or_self _) (Kept.refl _ u)) rfl n
  unfold lanWrite
  lift_lets
  intro hit post s1 s2
  have hs2 : srcOf s2 n = srcOf s n := hevent code cls data s1
  split
  · rw [lanFire, srcOf_raise_other h, hevent]
    exact hs2
  · exact hs2

theorem srcOf_lantern {n : Nat} (h : n ≠ 109) (code : Nat) (data : Bytes) (s : State) : srcOf (lantern code data s) n = srcOf s n := by
  unfold lantern
  lift_lets
  intro cls sec s0 m sup
  split
  · exact srcOf_lanWrite h _ _ _ _ _
  · split
    · rfl
    · split
      · exact srcOf_lanWrite h _ _ _ _ _
      · rfl

theorem lanWrite_pending_mono {n : Nat} (code cls sup : Nat) (data : Bytes) {s : State} (h : isPending s n) :
    isPending (lanWrite code cls sup data s) n := by
  have hevent (c k : Nat) (d : Bytes) (u : State) : isPending (lanEvent c k d u) n ↔ isPending u n :=
    isPending_congr ((lanEvent_kept c k d (Nat.or_self _) (Kept.refl _ u)).same .blfRequests rfl) n
  unfold lanWrite
  lift_lets
  intro hit post s1 s2
  have hs2 : isPending s2 n := (hevent code cls data s1).mpr h
  split
  · exact raise_pending_mono 109 ((hevent _ _ _ _).mpr hs2)
  · exact hs2

theorem lantern_pending_mono {n : Nat} (code : Nat) (data : Bytes) {s : State} (h : isPending s n) : isPending (lantern code data s) n := by
  unfold lantern
  lift_lets
  intro cls sec s0 m sup
  split
  · exact lanWrite_pending_mono _ _ _ _ h
  · split
    · exact h
    · split
      · exact lanWrite_pending_mono _ _ _ _ h
      · exact h

/-! ## Claims, ends of interrupt and masks (R333, R335) -/

theorem exec_claim_some {c : Fin 4} {n : Nat} {s : State} (h : s.blf.cores[c].offer = some n) : exec (.claim c) s = .next (claimSource c n s) := by
  change execClaim c s = _
  rw [execClaim, h]

theorem exec_claim_none {c : Fin 4} {s : State} (h : s.blf.cores[c].offer = none) :
    exec (.claim c) s = if s.blf.cores[c].withdrawn then .next (claimSpurious c s) else .next s := by
  change execClaim c s = _
  rw [execClaim, h]

/-- Belfry with a source claimed by a core. -/
def claimed (c : Fin 4) (n : Nat) (b : Belfry) : Belfry :=
  { b with
    sources := updAt b.sources n fun q => { q with pending := false, active := some c }
    cores := b.cores.set c { b.cores[c] with
      stack := (n, (getAt b.sources n {}).prio.val) :: b.cores[c].stack, claimed := n, offer := none, withdrawn := false } }

theorem claimSource_eq (c : Fin 4) (n : Nat) (s : State) : claimSource c n s = offers (s.onBlf fun b => clearLatch n (claimed c n b)) := rfl

theorem clearLatch_rest (n : Nat) (b : Belfry) : (clearLatch n b).sources = b.sources ∧ (clearLatch n b).cores = b.cores := by
  unfold clearLatch
  split <;> exact ⟨rfl, rfl⟩

theorem clearLatch_clears {n : Nat} (hlo : 112 ≤ n) (hhi : n < 128) (b : Belfry) : (clearLatch n b).latched.getLsbD (n - 112) = false := by
  rw [clearLatch, if_pos ⟨hlo, hhi⟩]
  exact getLsbD_setBit_false_self _ _

theorem claim_takes (c : Fin 4) (n : Nat) (s : State) (h : s.blf.cores[c].offer = some n) (hn : n < 480) : ∃ t, exec (.claim c) s = .next t ∧
    (srcOf t n).pending = false ∧ (srcOf t n).active = some c ∧ (srcOf t n).prio = (srcOf s n).prio ∧
    t.blf.cores[c].stack = (n, (srcOf s n).prio.val) :: s.blf.cores[c].stack ∧ t.blf.cores[c].claimed = n ∧ offersFresh t ∧
    (112 ≤ n → n < 128 → t.blf.latched.getLsbD (n - 112) = false) ∧ ∀ m, m ≠ n → srcOf t m = srcOf s m := by
  obtain ⟨hsources, hcores⟩ := clearLatch_rest n (claimed c n s.blf)
  have hsrc (m : Nat) : srcOf (claimSource c n s) m = getAt (claimed c n s.blf).sources m {} := by
    rw [claimSource_eq, srcOf_offers, srcOf]
    exact congrArg (fun v => getAt v m {}) hsources
  have hsame : srcOf (claimSource c n s) n = { srcOf s n with pending := false, active := some c } := (hsrc n).trans (getAt_updAt_same _ _ _ hn)
  have hcore : (clearLatch n (claimed c n s.blf)).cores[c] = { s.blf.cores[c] with
      stack := (n, (srcOf s n).prio.val) :: s.blf.cores[c].stack, claimed := n, offer := none, withdrawn := false } := by
    rw [hcores]
    exact Vector.getElem_set_self c.isLt
  obtain ⟨hstack, hclaimed, -⟩ := offers_core (s.onBlf fun b => clearLatch n (claimed c n b)) c
  refine ⟨_, exec_claim_some h, by rw [hsame], by rw [hsame], by rw [hsame], ?_, ?_, offersFresh_offers _, fun hlo hhi => ?_, fun m hm => ?_⟩
  · rw [claimSource_eq, hstack]
    exact congrArg Core.stack hcore
  · rw [claimSource_eq, hclaimed]
    exact congrArg Core.claimed hcore
  · rw [claimSource_eq, (offers_kept (Nat.or_self _) (Kept.refl _ _)).same .blfLatched rfl]
    exact clearLatch_clears hlo hhi _
  · exact (hsrc m).trans (getAt_updAt_other _ _ _ hm)

theorem claim_withdrawn (c : Fin 4) (s : State) (h : s.blf.cores[c].offer = none) : (s.blf.cores[c].withdrawn = false → exec (.claim c) s = .next s) ∧
    (s.blf.cores[c].withdrawn = true → ∃ t, exec (.claim c) s = .next t ∧ t.blf.cores[c].claimed = 511 ∧
      t.blf.cores[c].stack = s.blf.cores[c].stack ∧ t.blf.cntSpurious = inc s.blf.cntSpurious ∧
      changesOnly [.blfCores, .blfCoreOffers, .blfCntSpurious, .out] s t) := by
  have hcore : (claimSpurious c s).blf.cores[c] = { s.blf.cores[c] with claimed := 511, withdrawn := false } := Vector.getElem_set_self c.isLt
  refine ⟨fun hw => ?_, fun hw => ⟨claimSpurious c s, ?_, by rw [hcore], by rw [hcore], rfl, ?_⟩⟩
  · rw [exec_claim_none h, hw, if_neg Bool.false_ne_true]
  · rw [exec_claim_none h, hw, if_pos rfl]
  · refine (emit_kept _ (or_fieldMask rfl) (onBlf_kept _ (fun b => ?_) (Kept.refl _ s))).changesOnly
    exact { BlfAgree.refl _ b with
      cntSpurious := .inl (testBit_fieldMask rfl), cores := .inl (testBit_fieldMask rfl), coreOffers := .inl (testBit_fieldMask rfl) }

/-- Belfry with a source ended on a core. -/
def ended (c : Fin 4) (n : Nat) (rest : List (Nat × Nat)) (b : Belfry) : Belfry :=
  { b with
    sources := updAt b.sources n fun q => { q with active := none }
    cores := b.cores.set c { b.cores[c] with stack := rest } }

theorem endOfInterrupt_top {c : Fin 4} {n p : Nat} {rest : List (Nat × Nat)} {s : State} (h : s.blf.cores[c].stack = (n, p) :: rest) :
    endOfInterrupt c n false s = offers (s.onBlf (ended c n rest)) := by
  unfold endOfInterrupt
  rw [h]
  exact if_pos ⟨rfl, rfl⟩

theorem eoi_pops (c : Fin 4) (n : Fin 480) (p : Nat) (rest : List (Nat × Nat)) (s : State) (h : s.blf.cores[c].stack = (n.val, p) :: rest) :
    ∃ t, exec (.eoi c n false) s = .next t ∧ t.blf.cores[c].stack = rest ∧ (srcOf t n).active = none ∧ (srcOf t n).pending = (srcOf s n).pending ∧
      offersFresh t ∧ t.blf.cntStackFault = s.blf.cntStackFault := by
  have hsame : srcOf (offers (s.onBlf (ended c n rest))) n = { srcOf s n with active := none } := by
    rw [srcOf_offers]
    exact getAt_updAt_same _ _ _ n.isLt
  obtain ⟨hstack, -⟩ := offers_core (s.onBlf (ended c n rest)) c
  refine ⟨_, congrArg Host.Outcome.next (endOfInterrupt_top h), ?_, by rw [hsame], by rw [hsame], offersFresh_offers _, ?_⟩
  · rw [hstack]
    exact congrArg Core.stack (Vector.getElem_set_self c.isLt)
  · exact (offers_kept (Nat.or_self _) (Kept.refl _ _)).same .blfCntStackFault rfl

theorem belfryMaskWrite_writes (n : Fin 480) (p : Fin 16) (r : Fin 5) (en : BitVec 4) (s : State) : ∃ t, exec (.belfryMaskWrite n p r en) s = .next t ∧
    srcOf t n = { srcOf s n with prio := p, route := r, en := en } ∧ offersFresh t ∧ ∀ m, m ≠ n.val → srcOf t m = srcOf s m := by
  refine ⟨_, rfl, ?_, offersFresh_offers _, fun m hm => ?_⟩
  · rw [srcOf_offers]
    have hset : getAt (s.blf.sources.set n.val { s.blf.sources[n] with prio := p, route := r, en := en }) n.val {} =
        { s.blf.sources[n] with prio := p, route := r, en := en } := by simp [getAt]
    refine hset.trans ?_
    rw [srcOf, getAt_fin]
  · rw [srcOf_offers]
    by_cases hlt : m < 480
    · simp [srcOf, getAt, hlt, Vector.getElem_set_ne _ _ (Ne.symm hm)]
    · simp [srcOf, getAt, hlt]

/-! ## Timers, signals and copies (R337, R379) -/

theorem interCoreSignal_beats (c : Fin 4) (l : Fin 2) (s : State) : ∃ t, exec (.interCoreSignal c l) s = .next t ∧
    isPending t (464 + 2 * c.val + l.val) ∧ offersFresh t ∧ t.blf.cores[c].missed = 0 := by
  have hlt : 464 + 2 * c.val + l.val < 475 := by omega
  refine ⟨_, rfl, raise_isPending _ hlt, offersFresh_raise hlt _, ?_⟩
  obtain ⟨-, -, hmissed⟩ := core_of_same ((raise_kept (464 + 2 * c.val + l.val) (Nat.or_self _) (Kept.refl _
    (s.onBlf fun b => { b with cores := b.cores.set c { b.cores[c] with missed := 0 } }))).same .blfCores rfl) c
  rw [hmissed]
  exact congrArg Core.missed (Vector.getElem_set_self c.isLt)

theorem belfryCopyMismatch_leaves (k : Fin 2) (s : State) : ∃ t, exec (.belfryCopyMismatch k) s = .next t ∧
    t.blf.copyOk = setBit s.blf.copyOk k false ∧ isPending t 473 ∧ t.blf.cntParity = inc s.blf.cntParity ∧
    (∀ m, isPending s m → isPending t m) ∧ madeRecord 0x00D0 (le 1 3 ++ le 1 k) s t := by
  have hkept := lantern_kept 0x00D0 (le 1 3 ++ le 1 k.val) (Nat.or_self _) (Kept.refl _ (raise 473 (s.onBlf fun b => { b with
    copyOk := setBit b.copyOk k false, cntParity := inc b.cntParity })))
  have hraise := raise_kept 473 (Nat.or_self _) (Kept.refl _ (s.onBlf fun b => { b with
    copyOk := setBit b.copyOk k false, cntParity := inc b.cntParity }))
  refine ⟨_, rfl, (hkept.same .blfCopyOk rfl).trans (hraise.same .blfCopyOk rfl),
    lantern_pending_mono _ _ (raise_isPending _ (by decide)), (hkept.same .blfCntParity rfl).trans
      (hraise.same .blfCntParity rfl), fun m hm => lantern_pending_mono _ _ (raise_pending_mono 473 hm), ?_⟩
  obtain ⟨r, hmem, hcode, hdata, hseq⟩ := madeRecord_lantern (code := 0x00D0) (by decide) (le 1 3 ++ le 1 k.val) (raise 473 (s.onBlf fun b => { b with
    copyOk := setBit b.copyOk k false, cntParity := inc b.cntParity }))
  rw [raise_lantern] at hseq
  exact ⟨r, hmem, hcode, hdata, hseq⟩

/-! ## A core leaves service (R335, R336, R379) -/

/-- The lowest-numbered core in service, or any core when there is none. -/
def heirOf (ok : BitVec 4) : Fin 5 :=
  match (List.range 4).find? fun i => ok.getLsbD i with
  | some i => if h : i < 5 then ⟨i, h⟩ else 4
  | none => 4

theorem heirOf_lowest : ∀ (ok : BitVec 4) (h : Fin 4), ok.getLsbD h = true → (∀ k < h, ok.getLsbD k = false) → (heirOf ok).val = h.val := by
  decide

/-- A source as it stands when core c has left: pending again when it was active there, and routed to the heir when it was routed there. -/
def handed (c : Fin 4) (heir : Fin 5) (q : Source) : Source :=
  let q1 := if q.active = some c then { q with active := none, pending := true } else q
  if q1.route.val = c.val then { q1 with route := heir } else q1

theorem loseCore_eq (c : Fin 4) (s : State) : loseCore c s = offers (s.onBlf fun b => { b with
    coreOk := setBit s.blf.coreOk c false, cores := b.cores.set c {},
    sources := b.sources.map (handed c (heirOf (setBit s.blf.coreOk c false))) }) := rfl

theorem srcOf_loseCore (c : Fin 4) (s : State) (n : Fin 480) :
    srcOf (loseCore c s) n = handed c (heirOf (setBit s.blf.coreOk c false)) (srcOf s n) := by
  rw [loseCore_eq, srcOf_offers, srcOf, srcOf, getAt_fin, getAt_fin]
  exact Vector.getElem_map _ n.isLt

theorem loseCore_core (c : Fin 4) (s : State) : (loseCore c s).blf.coreOk = setBit s.blf.coreOk c false ∧ (loseCore c s).blf.cores[c].stack = [] := by
  rw [loseCore_eq]
  obtain ⟨hstack, -⟩ := offers_core (s.onBlf fun b => { b with
    coreOk := setBit s.blf.coreOk c false, cores := b.cores.set c {},
    sources := b.sources.map (handed c (heirOf (setBit s.blf.coreOk c false))) }) c
  rw [hstack]
  exact ⟨(offers_kept (Nat.or_self _) (Kept.refl _ _)).same .blfCoreOk rfl,
    congrArg Core.stack (Vector.getElem_set_self c.isLt)⟩

theorem handed_prio_en (c : Fin 4) (heir : Fin 5) (q : Source) : (handed c heir q).prio = q.prio ∧ (handed c heir q).en = q.en := by
  unfold handed
  dsimp only
  split <;> split <;> exact ⟨rfl, rfl⟩

theorem handed_route_same {c : Fin 4} (heir : Fin 5) {q : Source} (h : q.route.val = c.val) : (handed c heir q).route = heir := by
  by_cases ha : q.active = some c
  · simp [handed, ha, h]
  · simp [handed, ha, h]

theorem handed_route_other {c : Fin 4} (heir : Fin 5) {q : Source} (h : q.route.val ≠ c.val) : (handed c heir q).route = q.route := by
  by_cases ha : q.active = some c
  · simp [handed, ha, h]
  · simp [handed, ha, h]

theorem handed_active {c : Fin 4} (heir : Fin 5) {q : Source} (h : q.active = some c) :
    (handed c heir q).active = none ∧ (handed c heir q).pending = true := by
  unfold handed
  rw [if_pos h]
  dsimp only
  split <;> exact ⟨rfl, rfl⟩

theorem handed_inactive {c : Fin 4} (heir : Fin 5) {q : Source} (h : q.active ≠ some c) :
    (handed c heir q).active = q.active ∧ (handed c heir q).pending = q.pending := by
  unfold handed
  rw [if_neg h]
  dsimp only
  split <;> exact ⟨rfl, rfl⟩

theorem handed_pending_mono (c : Fin 4) (heir : Fin 5) {q : Source} (h : q.pending = true) : (handed c heir q).pending = true := by
  by_cases hactive : q.active = some c
  · exact (handed_active heir hactive).2
  · rw [(handed_inactive heir hactive).2, h]

/-- The core that leaves, noted as out of service. -/
def coreLost (c : Fin 4) (s : State) : State := loseCore c (noteOut .controlCore c.val s)

theorem takeOut_controlCore {c : Fin 4} {s : State} (h : spareLeft s .controlCore c) : takeOut .controlCore c.val s = coreLost c s := by
  obtain ⟨hout, hspare⟩ := h
  rw [takeOut, if_neg (by simp [hout]), if_neg (by simp [hspare])]
  exact congrArg (fun k => loseCore k (noteOut .controlCore c.val s)) (Fin.ext (Nat.mod_eq_of_lt c.isLt))

theorem spareLeft_congr {s t : State} (h : t.lantern.outOfService = s.lantern.outOfService) {row : FaultRow} {i : Nat}
    (hs : spareLeft s row i) : spareLeft t row i := by
  unfold spareLeft outOf noSpare outCount at *
  rwa [h]

/-- Noting a unit out of service leaves the settings of the sources and the cores. -/
theorem noteOut_changesOnly (row : FaultRow) (i : Nat) (s : State) :
    changesOnly (recordFields ++ [.lanternOutOfService, .powerDomOn, .powerDomFault]) s (noteOut row i s) :=
  (noteOut_kept row i (or_fieldMask rfl) (Kept.refl (fieldMask (recordFields ++ [.lanternOutOfService, .powerDomOn, .powerDomFault])) s)).changesOnly

theorem srcOf_noteOut {n : Nat} (h : n ≠ 109) (row : FaultRow) (i : Nat) (s : State) : srcOf (noteOut row i s) n = srcOf s n := by
  unfold noteOut
  rw [srcOf_lantern h]
  cases rowDomain row i <;> rfl

theorem noteOut_pending_mono {n : Nat} (row : FaultRow) (i : Nat) {s : State} (h : isPending s n) : isPending (noteOut row i s) n := by
  unfold noteOut
  refine lantern_pending_mono _ _ ?_
  cases rowDomain row i <;> exact h

/-- The sources of two states agree, but for those that a stack fault and a fired trigger set up. -/
def sourcesAgree (s u : State) : Prop := u.blf.coreOk = s.blf.coreOk ∧ ∀ n,
  (n ≠ 472 → (srcOf u n).prio = (srcOf s n).prio ∧ (srcOf u n).route = (srcOf s n).route) ∧ (srcOf u n).en = (srcOf s n).en ∧
  (srcOf u n).active = (srcOf s n).active ∧ (n ≠ 472 → n ≠ 109 → (srcOf u n).pending = (srcOf s n).pending)

theorem sourcesAgree.noteOut {s u : State} (h : sourcesAgree s u) (c : Nat) : sourcesAgree s (noteOut .controlCore c u) := by
  obtain ⟨hok, hsources⟩ := h
  obtain ⟨-, hkept⟩ := noteOut_changesOnly .controlCore c u
  refine ⟨(hkept .blfCoreOk (by decide)).trans hok, fun n => ?_⟩
  obtain ⟨hset, hen, hactive, hpending⟩ := hsources n
  obtain ⟨hprio', hen', hroute', hactive'⟩ := source_of_same (hkept .blfSources (by decide)) n
  rw [hprio', hen', hroute', hactive']
  exact ⟨hset, hen, hactive, fun h472 h109 => by rw [srcOf_noteOut h109, hpending h472 h109]⟩

/-- What a core leaves to the others (R336). -/
def handsOver (c : Fin 4) (s t : State) : Prop :=
  t.blf.coreOk = setBit s.blf.coreOk c false ∧ t.blf.cores[c].stack = [] ∧ offersFresh t ∧ ∀ n : Fin 480,
    (n.val ≠ 472 → (srcOf t n).prio = (srcOf s n).prio) ∧ (srcOf t n).en = (srcOf s n).en ∧
    (n.val ≠ 472 → (srcOf s n).route.val ≠ c.val → (srcOf t n).route = (srcOf s n).route) ∧
    (n.val ≠ 472 → (srcOf s n).route.val = c.val → ∀ h : Fin 4, t.blf.coreOk.getLsbD h = true → (∀ k < h, t.blf.coreOk.getLsbD k = false) →
      (srcOf t n).route.val = h.val) ∧
    ((srcOf s n).active = some c → (srcOf t n).active = none ∧ (srcOf t n).pending = true) ∧
    ((srcOf s n).active ≠ some c → (srcOf t n).active = (srcOf s n).active ∧
      (n.val ≠ 472 → n.val ≠ 109 → (srcOf t n).pending = (srcOf s n).pending))

theorem loseCore_handsOver {c : Fin 4} {s u : State} (h : sourcesAgree s u) : handsOver c s (loseCore c u) := by
  obtain ⟨hok, hsources⟩ := h
  obtain ⟨hok', hstack⟩ := loseCore_core c u
  refine ⟨by rw [hok', hok], hstack, offersFresh_offers _, fun n => ?_⟩
  obtain ⟨hset, hen, hactive, hpending⟩ := hsources n
  obtain ⟨hprio', hen'⟩ := handed_prio_en c (heirOf (setBit u.blf.coreOk c false)) (srcOf u n)
  rw [srcOf_loseCore, hprio', hen', hok']
  refine ⟨fun hn => (hset hn).1, hen, fun hn hroute => ?_, fun hn hroute k hk hlow => ?_, fun ha => ?_, fun ha => ?_⟩
  · rw [handed_route_other _ (by rwa [(hset hn).2]), (hset hn).2]
  · rw [handed_route_same _ (by rwa [(hset hn).2])]
    exact heirOf_lowest _ k hk hlow
  · exact handed_active _ (hactive.trans ha)
  · obtain ⟨hact, hpend⟩ := handed_inactive (heirOf (setBit u.blf.coreOk c false)) (hactive.trans_ne ha)
    rw [hact, hpend]
    exact ⟨hactive, hpending⟩

theorem coreLost_handsOver {c : Fin 4} {s u : State} (h : sourcesAgree s u) : handsOver c s (coreLost c u) := loseCore_handsOver (h.noteOut c)

/-- The stack fault as it is noted: its count, source 472 for the heir, and the record. -/
def stackFaultNoted (c : Fin 4) (s : State) : State :=
  let heir : Fin 5 := match (List.range 4).find? fun i => decide (i ≠ c.val) && s.blf.coreOk.getLsbD i with
    | some i => if h : i < 5 then ⟨i, h⟩ else 4
    | none => 4
  lantern 0x00D0 (le 1 2 ++ le 1 c) (raise 472 (s.onBlf fun b => { b with
    cntStackFault := inc b.cntStackFault, sources := updAt b.sources 472 fun q => { q with prio := 0, route := heir } }))

theorem stackFault_eq {c : Fin 4} {s : State} (h : spareLeft s .controlCore c) : stackFault c s = coreLost c (stackFaultNoted c s) := by
  refine takeOut_controlCore (spareLeft_congr (s := s) ?_ h)
  refine ((lantern_kept 0x00D0 _ (Nat.or_self _) (Kept.refl _ _)).same .lanternOutOfService rfl).trans ?_
  exact congrArg Lantern.outOfService (raise_lantern 472 _)

theorem stackFaultNoted_agree (c : Fin 4) (s : State) : sourcesAgree s (stackFaultNoted c s) := by
  unfold stackFaultNoted
  extract_lets heir
  generalize hu : (s.onBlf fun b => { b with
    cntStackFault := inc b.cntStackFault, sources := updAt b.sources 472 fun q => { q with prio := 0, route := heir } }) = u
  have hsame : srcOf u 472 = { srcOf s 472 with prio := 0, route := heir } := hu ▸ getAt_updAt_same _ _ _ (by decide)
  have hother (n : Nat) (h : n ≠ 472) : srcOf u n = srcOf s n := hu ▸ getAt_updAt_other _ _ _ h
  have hok : u.blf.coreOk = s.blf.coreOk := hu ▸ rfl
  have hlan := lantern_kept 0x00D0 (le 1 2 ++ le 1 c.val) (Nat.or_self _) (Kept.refl _ (raise 472 u))
  have hraise := raise_kept 472 (Nat.or_self _) (Kept.refl _ u)
  refine ⟨(hlan.same .blfCoreOk rfl).trans ((hraise.same .blfCoreOk rfl).trans hok), fun n => ?_⟩
  obtain ⟨hprio, hen, hroute, hactive⟩ := source_of_same (hlan.same .blfSources rfl) n
  obtain ⟨hprio', hen', hroute', hactive'⟩ := source_of_same (hraise.same .blfSources rfl) n
  rw [hprio, hen, hroute, hactive, hprio', hen', hroute', hactive']
  refine ⟨fun hn => by rw [hother n hn]; exact ⟨rfl, rfl⟩, ?_, ?_, fun hn h109 => ?_⟩
  · by_cases hn : n = 472
    · rw [hn, hsame]
    · rw [hother n hn]
  · by_cases hn : n = 472
    · rw [hn, hsame]
    · rw [hother n hn]
  · rw [srcOf_lantern h109, srcOf_raise_other hn, hother n hn]

theorem stackFaultNoted_marks (c : Fin 4) (s : State) : (stackFaultNoted c s).blf.cntStackFault = inc s.blf.cntStackFault ∧
    isPending (stackFaultNoted c s) 472 ∧ (srcOf (stackFaultNoted c s) 472).prio = 0 ∧
    madeLately 1 0x00D0 (le 1 2 ++ le 1 c) s (stackFaultNoted c s) := by
  unfold stackFaultNoted
  extract_lets heir
  generalize hu : (s.onBlf fun b => { b with
    cntStackFault := inc b.cntStackFault, sources := updAt b.sources 472 fun q => { q with prio := 0, route := heir } }) = u
  have hsame : srcOf u 472 = { srcOf s 472 with prio := 0, route := heir } := hu ▸ getAt_updAt_same _ _ _ (by decide)
  have hcount : u.blf.cntStackFault = inc s.blf.cntStackFault := hu ▸ rfl
  have hlan := lantern_kept 0x00D0 (le 1 2 ++ le 1 c.val) (Nat.or_self _) (Kept.refl _ (raise 472 u))
  have hraise := raise_kept 472 (Nat.or_self _) (Kept.refl _ u)
  refine ⟨(hlan.same .blfCntStackFault rfl).trans ((hraise.same .blfCntStackFault rfl).trans hcount),
    lantern_pending_mono _ _ (raise_isPending u (by decide)), ?_, ?_⟩
  · rw [srcOf_lantern (by decide), srcOf_raise_same (by decide), hsame]
  · obtain ⟨r, hr, hcode, hdata, hseq⟩ := madeLately_lantern (code := 0x00D0) (by decide) (le 1 2 ++ le 1 c.val) (raise 472 u)
    have hlantern : u.lantern = s.lantern := hu ▸ rfl
    rw [raise_lantern, hlantern] at hseq
    exact ⟨r, hr, hcode, hdata, hseq⟩

theorem coreLost_pending_mono (c : Fin 4) {n : Fin 480} {s : State} (h : isPending s n) : isPending (coreLost c s) n := by
  have hnoted : (srcOf (noteOut .controlCore c.val s) n).pending = true := noteOut_pending_mono .controlCore c h
  change (srcOf (loseCore c (noteOut .controlCore c.val s)) n).pending = true
  rw [srcOf_loseCore]
  exact handed_pending_mono c _ hnoted

theorem loseCore_changesOnly (c : Fin 4) (s : State) :
    changesOnly [.blfSources, .blfRequests, .blfCores, .blfCoreOffers, .blfCoreOk, .out] s (loseCore c s) :=
  (loseCore_kept c (or_fieldMask rfl) (Kept.refl (fieldMask [.blfSources, .blfRequests, .blfCores, .blfCoreOffers, .blfCoreOk, .out]) s)).changesOnly

theorem madeLately.noteOut {k code : Nat} {data : Bytes} {s t : State} (h : madeLately k code data s t) (hk : k + 1 < 245000) (row : FaultRow)
    (i : Nat) : madeLately (k + 2) code data s (noteOut row i t) := by
  unfold Machine.noteOut
  refine madeLately.lantern (h.of_ring ?_) hk _ _
  cases rowDomain row i <;> rfl

/-- What a stack fault leaves (R335, R379). -/
theorem stackFault_marks {c : Fin 4} {s : State} (h : spareLeft s .controlCore c) : (stackFault c s).blf.cntStackFault = inc s.blf.cntStackFault ∧
    isPending (stackFault c s) 472 ∧ (srcOf (stackFault c s) 472).prio = 0 ∧ madeRecord 0x00D0 (le 1 2 ++ le 1 c) s (stackFault c s) := by
  obtain ⟨hcount, hpending, hprio, hmade⟩ := stackFaultNoted_marks c s
  obtain ⟨-, hnote⟩ := noteOut_changesOnly .controlCore c.val (stackFaultNoted c s)
  obtain ⟨-, hlose⟩ := loseCore_changesOnly c (noteOut .controlCore c.val (stackFaultNoted c s))
  obtain ⟨hprio', -⟩ := handed_prio_en c (heirOf (setBit (noteOut .controlCore c.val (stackFaultNoted c s)).blf.coreOk c false))
    (srcOf (noteOut .controlCore c.val (stackFaultNoted c s)) 472)
  rw [stackFault_eq h]
  refine ⟨(hlose .blfCntStackFault (by decide)).trans ((hnote .blfCntStackFault (by decide)).trans hcount),
    coreLost_pending_mono c (n := 472) hpending, ?_, ?_⟩
  · have hsrc := srcOf_loseCore c (noteOut .controlCore c.val (stackFaultNoted c s)) 472
    change (srcOf (loseCore c (noteOut .controlCore c.val (stackFaultNoted c s))) (472 : Fin 480)).prio = 0
    rw [hsrc]
    refine hprio'.trans ?_
    rw [srcOf_noteOut (by decide), hprio]
  · exact ((hmade.noteOut (by decide) .controlCore c.val).of_ring (hlose .lanternRing (by decide))).madeRecord

theorem eoi_faults (c : Fin 4) (n : Fin 480) (bad : Bool) (s : State)
    (h : bad = true ∨ s.blf.cores[c].stack.head?.map (·.1) ≠ some n.val) : exec (.eoi c n bad) s = .next (stackFault c s) := by
  refine congrArg Host.Outcome.next ?_
  unfold endOfInterrupt
  cases hstack : s.blf.cores[c].stack with
  | nil => rfl
  | cons e rest =>
    refine if_neg fun ⟨hn, hbad⟩ => ?_
    rcases h with h | h
    · simp [h] at hbad
    · rw [hstack] at h
      exact h (congrArg some hn)

/-! ## Heartbeats (R379) -/

section
variable {c : Fin 4} {s : State}

theorem exec_coreHeartbeatMissed_out (h : s.blf.coreOk.getLsbD c = false) : exec (.coreHeartbeatMissed c) s = .next s :=
  congrArg Host.Outcome.next (if_pos (by rw [h, Bool.not_false]))

theorem exec_coreHeartbeatMissed_counts (h : s.blf.coreOk.getLsbD c = true) (hn : s.blf.cores[c].missed < 4) :
    exec (.coreHeartbeatMissed c) s = .next (s.onBlf fun b =>
      { b with cores := b.cores.set c { b.cores[c] with missed := s.blf.cores[c].missed + 1 } }) :=
  congrArg Host.Outcome.next ((if_neg (by simp [h])).trans (if_neg (by omega)))

theorem exec_coreHeartbeatMissed_fifth (h : s.blf.coreOk.getLsbD c = true) (hn : 4 ≤ s.blf.cores[c].missed) (hspare : spareLeft s .controlCore c) :
    exec (.coreHeartbeatMissed c) s = .next (coreLost c s) :=
  congrArg Host.Outcome.next ((if_neg (by simp [h])).trans ((if_pos (by omega)).trans (takeOut_controlCore hspare)))

end

theorem sourcesAgree.refl (s : State) : sourcesAgree s s :=
  ⟨rfl, fun _ => ⟨fun _ => ⟨rfl, rfl⟩, rfl, rfl, fun _ _ => rfl⟩⟩

theorem outOf_coreLost (c : Fin 4) (s : State) : outOf (coreLost c s) .controlCore c.val = true := by
  obtain ⟨-, hlose⟩ := loseCore_changesOnly c (noteOut .controlCore c.val s)
  have hnoted := outOf_noteOut .controlCore c.val s
  have hout : (coreLost c s).lantern.outOfService = (noteOut .controlCore c.val s).lantern.outOfService := hlose .lanternOutOfService (by decide)
  unfold outOf at hnoted ⊢
  rwa [hout]

theorem coreLost_coreOk (c : Fin 4) {s u : State} (h : sourcesAgree s u) : (coreLost c u).blf.coreOk.getLsbD c = false ∧
    (coreLost c u).blf.cores[c].stack = [] := by
  obtain ⟨hok, hstack, -⟩ := coreLost_handsOver (c := c) h
  rw [hok]
  exact ⟨getLsbD_setBit_false_self _ _, hstack⟩

theorem coreHeartbeatMissed_counts (c : Fin 4) (s : State) : (s.blf.coreOk.getLsbD c = false → exec (.coreHeartbeatMissed c) s = .next s) ∧
    (s.blf.coreOk.getLsbD c = true → s.blf.cores[c].missed < 4 → ∃ t, exec (.coreHeartbeatMissed c) s = .next t ∧
      t.blf.cores[c].missed = s.blf.cores[c].missed + 1 ∧ changesOnly [.blfCores] s t) ∧
    (s.blf.coreOk.getLsbD c = true → 4 ≤ s.blf.cores[c].missed → spareLeft s .controlCore c →
      ∃ t, exec (.coreHeartbeatMissed c) s = .next t ∧ t.blf.coreOk.getLsbD c = false ∧ outOf t .controlCore c = true) := by
  refine ⟨exec_coreHeartbeatMissed_out, fun h hn => ⟨_, exec_coreHeartbeatMissed_counts h hn, ?_, ?_⟩, fun h hn hspare => ?_⟩
  · exact congrArg Core.missed (Vector.getElem_set_self c.isLt)
  · refine (onBlf_kept _ (fun b => ?_) (Kept.refl _ s)).changesOnly
    exact { BlfAgree.refl _ b with cores := .inl (testBit_fieldMask rfl), coreOffers := .inr (map_set_same _ c.val c.isLt _ _ rfl) }
  · exact ⟨_, exec_coreHeartbeatMissed_fifth h hn hspare, (coreLost_coreOk c (sourcesAgree.refl s)).1, outOf_coreLost c s⟩

/-- Settles O54: requests, offers, claims, ends and masks one by one, each with the offers made afresh behind it. -/
theorem sourcesAreRequestedClaimedAndEnded : Obligations.SourcesAreRequestedClaimedAndEnded := by
  refine ⟨sourceRequest_requests, fun c k s => ?_, interCoreSignal_beats, choice_best, claim_takes, claim_withdrawn, eoi_pops,
    fun c n bad s hspare h => ?_, belfryMaskWrite_writes, belfryCopyMismatch_leaves, coreHeartbeatMissed_counts⟩
  · have hlt : 448 + 4 * c.val + k.val < 475 := by omega
    exact ⟨_, rfl, raise_isPending s hlt, offersFresh_raise hlt s, raise_changesOnly _ s⟩
  · obtain ⟨hcount, hpending, hprio, hmade⟩ := stackFault_marks hspare
    obtain ⟨hok, hstack⟩ := coreLost_coreOk c (stackFaultNoted_agree c s)
    refine ⟨_, eoi_faults c n bad s h, hcount, hpending, hprio, ?_, ?_, hmade⟩
    · rwa [stackFault_eq hspare]
    · rwa [stackFault_eq hspare]

/-- Settles O55: each of the three ways out of service leads to the same loss of the core, from sources that agree. -/
theorem aLostCoreHandsItsSourcesOver : Obligations.ALostCoreHandsItsSourcesOver := by
  rintro c i s hspare (⟨hl, rfl⟩ | ⟨hok, hn, rfl⟩ | ⟨n, rfl⟩)
  · have hexec : exec (.instanceFault .controlCore c) s = .next (coreLost c s) := by
      refine (goLive_of_live _ hl).trans (congrArg _ ?_)
      rw [← takeOut_controlCore hspare]
      exact congrArg (fun k => takeOut .controlCore k s) (Nat.mod_eq_of_lt c.isLt)
    exact ⟨_, hexec, coreLost_handsOver (sourcesAgree.refl s)⟩
  · exact ⟨_, exec_coreHeartbeatMissed_fifth hok hn hspare, coreLost_handsOver (sourcesAgree.refl s)⟩
  · have hexec := eoi_faults c n true s (.inl rfl)
    rw [stackFault_eq hspare] at hexec
    exact ⟨_, hexec, coreLost_handsOver (stackFaultNoted_agree c s)⟩

end Sys2Proof.Machine
end

section
/-! PROOF. The hardware queues: items written, read, rewound, flushed and drained (R343 to R348). -/

namespace Sys2Proof.Machine

set_option Elab.async false

/-! ## One queue among the 64 -/

theorem hwq_onHwq_same (q : Fin 64) (f : HwQueue → HwQueue) (s : State) : hwq (onHwq q f s) q = f (hwq s q) :=
  getAt_updAt_same _ _ _ q.isLt

theorem hwq_onHwq_other {q k : Nat} (h : k ≠ q) (f : HwQueue → HwQueue) (s : State) : hwq (onHwq q f s) k = hwq s k :=
  getAt_updAt_other _ _ _ h

theorem raise_hq (n : Nat) (s : State) : (raise n s).hq = s.hq := (raise_onlyBelfry n s).same State.hq rfl

theorem raise_out_mono (n : Nat) {s : State} {o : Out} (h : o ∈ s.out) : o ∈ (raise n s).out := mem_out_raise n h

theorem onHwq_changesOnly (q : Nat) (f : HwQueue → HwQueue) (s : State) : changesOnly [.hqQueues] s (onHwq q f s) :=
  (onHq_kept (fun h : HwQueues => { h with queues := updAt h.queues q f }) (fun x => { HqAgree.refl _ x with queues := .inl (testBit_fieldMask rfl) }) (Kept.refl (fieldMask [.hqQueues]) s)).changesOnly

/-- What an operation on queue q may change in the rest of the state: other queues stay, no request is lost, nothing put out is taken back. -/
structure queueStep (q : Nat) (s t : State) : Prop where
  others : ∀ k, k ≠ q → hwq t k = hwq s k
  errSeq : (hwq t q).errSeq = (hwq s q).errSeq
  draining : (hwq t q).draining = (hwq s q).draining
  cntStale : t.hq.cntStale = s.hq.cntStale
  cntFlush : t.hq.cntFlush = s.hq.cntFlush
  time : t.power.time = s.power.time
  pending : ∀ n, isPending s n → isPending t n
  out : ∀ o ∈ s.out, o ∈ t.out

/-- What accepting items changes: packets, open packets, held items and the writers to skip; the reader's side stays. -/
structure acceptStep (q : Nat) (s t : State) : Prop extends queueStep q s t where
  reading : (hwq t q).reading = (hwq s q).reading
  waiting : (hwq t q).waiting = (hwq s q).waiting
  truncated : (hwq t q).truncated = (hwq s q).truncated
  errPoison : (hwq t q).errPoison = (hwq s q).errPoison
  cntParity : t.hq.cntParity = s.hq.cntParity

theorem queueStep.refl (q : Nat) (s : State) : queueStep q s s :=
  ⟨fun _ _ => rfl, rfl, rfl, rfl, rfl, rfl, fun _ => id, fun _ => id⟩

theorem queueStep.trans {q : Nat} {s t u : State} (h : queueStep q s t) (k : queueStep q t u) : queueStep q s u where
  others n hn := (k.others n hn).trans (h.others n hn)
  errSeq := k.errSeq.trans h.errSeq
  draining := k.draining.trans h.draining
  cntStale := k.cntStale.trans h.cntStale
  cntFlush := k.cntFlush.trans h.cntFlush
  time := k.time.trans h.time
  pending n := k.pending n ∘ h.pending n
  out o := k.out o ∘ h.out o

theorem acceptStep.refl (q : Nat) (s : State) : acceptStep q s s := ⟨queueStep.refl q s, rfl, rfl, rfl, rfl, rfl⟩

theorem acceptStep.trans {q : Nat} {s t u : State} (h : acceptStep q s t) (k : acceptStep q t u) : acceptStep q s u :=
  ⟨h.toqueueStep.trans k.toqueueStep, k.reading.trans h.reading, k.waiting.trans h.waiting, k.truncated.trans h.truncated,
    k.errPoison.trans h.errPoison, k.cntParity.trans h.cntParity⟩

theorem acceptStep_raise (q n : Nat) (s : State) : acceptStep q s (raise n s) := by
  have hq := raise_hq n s
  have hw (k : Nat) : hwq (raise n s) k = hwq s k := by rw [hwq, hq, hwq]
  exact ⟨⟨fun k _ => hw k, by rw [hw], by rw [hw], by rw [hq], by rw [hq], (raise_onlyBelfry n s).same (fun u => u.power.time) rfl,
    fun _ => raise_pending_mono n, fun _ => raise_out_mono n⟩, by rw [hw], by rw [hw], by rw [hw], by rw [hw], by rw [hq]⟩

theorem acceptStep_onHwq (q : Fin 64) (f : HwQueue → HwQueue) (s : State) (hseq : (f (hwq s q)).errSeq = (hwq s q).errSeq)
    (hdrain : (f (hwq s q)).draining = (hwq s q).draining) (hread : (f (hwq s q)).reading = (hwq s q).reading)
    (hwait : (f (hwq s q)).waiting = (hwq s q).waiting) (htrunc : (f (hwq s q)).truncated = (hwq s q).truncated)
    (hpoison : (f (hwq s q)).errPoison = (hwq s q).errPoison) : acceptStep q s (onHwq q f s) := by
  have hw := hwq_onHwq_same q f s
  exact ⟨⟨fun k hk => hwq_onHwq_other hk f s, by rw [hw, hseq], by rw [hw, hdrain], rfl, rfl, rfl, fun _ => id, fun _ => id⟩,
    by rw [hw, hread], by rw [hw, hwait], by rw [hw, htrunc], by rw [hw, hpoison], rfl⟩

/-! ## Items accepted (R344) -/

theorem hqAccept_rest (w : Fin 4) (now : Nat) (it : HqItem) (k : HwQueue) : hqAccept w now it k =
    { k with packets := (hqAccept w now it k).packets, opens := (hqAccept w now it k).opens } := by
  unfold hqAccept
  dsimp only
  split <;> rfl

theorem hwq_raise (n k : Nat) (s : State) : hwq (raise n s) k = hwq s k := by
  rw [hwq, raise_hq, hwq]

theorem hwq_hqRaise (q k : Nat) (s : State) : hwq (hqRaise q s) k = hwq s k := by
  rw [hqRaise, hwq, raise_hq, hwq]

theorem hwq_hqTake (q : Fin 64) (w : Fin 4) (it : HqItem) (s : State) : hwq (hqTake q w it s) q = hqAccept w s.power.time it (hwq s q) := by
  unfold hqTake
  dsimp only
  split
  · rw [hwq_hqRaise, hwq_onHwq_same]
  · exact hwq_onHwq_same q _ s

theorem acceptStep_hqTake (q : Fin 64) (w : Fin 4) (it : HqItem) (s : State) : acceptStep q s (hqTake q w it s) := by
  have haccept : acceptStep q s (onHwq q (hqAccept w s.power.time it) s) := by
    apply acceptStep_onHwq <;> rw [hqAccept_rest]
  unfold hqTake
  dsimp only
  split
  · exact haccept.trans (acceptStep_raise q _ _)
  · exact haccept

theorem acceptStep_hqFirst (q : Fin 64) (w : Fin 4) (it : HqItem) (s : State) : acceptStep q s (hqFirst q w it s) := by
  have hskip : acceptStep q s (onHwq q (fun k => { k with skip := setBit k.skip w false }) s) :=
    acceptStep_onHwq q _ s rfl rfl rfl rfl rfl rfl
  unfold hqFirst
  dsimp only
  split
  · exact hskip.trans (acceptStep_hqTake q w it _)
  · exact hskip.trans (acceptStep_onHwq q _ _ rfl rfl rfl rfl rfl rfl)

theorem acceptStep_hqAdmit (q : Fin 64) (s : State) : acceptStep q s (hqAdmit q s) := by
  unfold hqAdmit
  refine forEach_preserves (P := acceptStep q s) _ (fun e t ht => ?_) (.refl q s)
  split
  · exact (ht.trans (acceptStep_onHwq q _ t rfl rfl rfl rfl rfl rfl)).trans (acceptStep_hqTake q _ _ _)
  · exact ht

/-- With no item held there is none to accept. -/
theorem hqAdmit_of_nil {q : Nat} {s : State} (h : (hwq s q).held = []) : hqAdmit q s = s := by
  rw [hqAdmit, h]
  rfl

/-! ## Items read (R345, R346) -/

/-- An item is poisoned as it goes to the reader. -/
def readPoisoned (it : HqItem) (before : Bool) : Bool := it.poison || before || !hqParityOk it

/-- The reader's side of a queue that has given an item. -/
def itemGiven (it : HqItem) (before : Bool) (rest : List HqItem) (k : HwQueue) : HwQueue :=
  { k with
    reading := if rest.isEmpty then none else some (rest, readPoisoned it before)
    errPoison := if readPoisoned it before then min 65535 (k.errPoison + 1) else k.errPoison }

theorem onlyMessages.mem {s t : State} (h : onlyMessages s t) {o : Out} (ho : o ∈ s.out) : o ∈ t.out := by
  obtain ⟨ms, _, hout⟩ := h
  exact hout ▸ List.mem_append_left ms ho

theorem lanEvent_messages (code cls : Nat) (data : Bytes) (s : State) : onlyMessages s (lanEvent code cls data s) := by
  unfold lanEvent
  split
  · refine onlyMessages.forEach _ (fun p t => ?_) (s.onLantern _)
    split
    · exact .msix p 256 t
    · exact .of_out rfl
  · exact .of_out rfl

theorem mem_out_lanWrite (code cls sup : Nat) (data : Bytes) {s : State} {o : Out} (h : o ∈ s.out) : o ∈ (lanWrite code cls sup data s).out := by
  unfold lanWrite
  lift_lets
  intro hit post s1 s2
  have hs2 : o ∈ s2.out := (lanEvent_messages code cls data s1).mem h
  split
  · exact raise_out_mono 109 ((lanEvent_messages _ _ _ _).mem hs2)
  · exact hs2

theorem mem_out_lantern (code : Nat) (data : Bytes) {s : State} {o : Out} (h : o ∈ s.out) : o ∈ (lantern code data s).out := by
  unfold lantern
  lift_lets
  intro cls sec s0 m sup
  split
  · exact mem_out_lanWrite _ _ _ _ h
  · split
    · exact h
    · split
      · exact mem_out_lanWrite _ _ _ _ h
      · exact h

theorem hwq_lantern (code : Nat) (data : Bytes) (s : State) (k : Nat) : hwq (lantern code data s) k = hwq s k := by
  have h := lantern_kept code data (Nat.or_self _) (Kept.refl _ s)
  have hqueues : (lantern code data s).hq.queues = s.hq.queues := h.same .hqQueues rfl
  rw [hwq, hqueues, hwq]

theorem queueStep_lantern (q code : Nat) (data : Bytes) (s : State) : queueStep q s (lantern code data s) := by
  have h := lantern_kept code data (Nat.or_self _) (Kept.refl _ s)
  exact ⟨fun k _ => hwq_lantern code data s k, by rw [hwq_lantern], by rw [hwq_lantern], h.same .hqCntStale rfl, h.same .hqCntFlush rfl,
    h.same .powerTime rfl, fun _ => lantern_pending_mono code data, fun _ => mem_out_lantern code data⟩

theorem queueStep_onHwq (q : Fin 64) (f : HwQueue → HwQueue) (s : State) (hseq : (f (hwq s q)).errSeq = (hwq s q).errSeq)
    (hdrain : (f (hwq s q)).draining = (hwq s q).draining) : queueStep q s (onHwq q f s) := by
  have hw := hwq_onHwq_same q f s
  exact ⟨fun k hk => hwq_onHwq_other hk f s, by rw [hw, hseq], by rw [hw, hdrain], rfl, rfl, rfl, fun _ => id, fun _ => id⟩

theorem queueStep_emit (q : Nat) (o : Out) (s : State) : queueStep q s (emit o s) :=
  ⟨fun _ _ => rfl, rfl, rfl, rfl, rfl, rfl, fun _ => id, fun _ h => List.mem_append_left _ h⟩

/-- The delivery before its poison is reported. -/
def itemPut (q : Nat) (it : HqItem) (before : Bool) (rest : List HqItem) (s : State) : State :=
  emit (.hqItem q { it with poison := readPoisoned it before })
    (onHwq q (fun k => { k with reading := if rest.isEmpty then none else some (rest, readPoisoned it before) })
      (if hqParityOk it then s else s.onHq fun h => { h with cntParity := inc h.cntParity }))

theorem queueStep_itemPut (q : Fin 64) (it : HqItem) (before : Bool) (rest : List HqItem) (s : State) :
    queueStep q s (itemPut q it before rest s) := by
  have hcount : queueStep q s (if hqParityOk it then s else s.onHq fun h => { h with cntParity := inc h.cntParity }) := by
    split
    · exact .refl q s
    · exact ⟨fun _ _ => rfl, rfl, rfl, rfl, rfl, rfl, fun _ => id, fun _ => id⟩
  exact (hcount.trans (queueStep_onHwq q _ _ rfl rfl)).trans (queueStep_emit _ _ _)

theorem hwq_itemPut (q : Fin 64) (it : HqItem) (before : Bool) (rest : List HqItem) (s : State) : hwq (itemPut q it before rest s) q =
    { hwq s q with reading := if rest.isEmpty then none else some (rest, readPoisoned it before) } := by
  refine (hwq_onHwq_same q _ _).trans ?_
  split <;> rfl

theorem mem_out_itemPut (q : Nat) (it : HqItem) (before : Bool) (rest : List HqItem) (s : State) :
    .hqItem q { it with poison := readPoisoned it before } ∈ (itemPut q it before rest s).out :=
  List.mem_append_right _ (List.mem_singleton.mpr rfl)

theorem hqDeliver_clean {q : Nat} {it : HqItem} {before : Bool} (rest : List HqItem) (s : State) (h : readPoisoned it before = false) :
    hqDeliver q it before rest s = itemPut q it before rest s :=
  if_neg (by rw [readPoisoned] at h; simp only [h]; decide)

theorem hqDeliver_poisoned {q : Nat} {it : HqItem} {before : Bool} (rest : List HqItem) (s : State) (h : readPoisoned it before = true) :
    hqDeliver q it before rest s = lantern 0x00D0 (le 1 0 ++ le 1 q) (raise 474 (hqRaise q
      (onHwq q (fun k => { k with errPoison := min 65535 (k.errPoison + 1) }) (itemPut q it before rest s)))) :=
  if_pos (by rw [readPoisoned] at h; exact h)

theorem queueStep_hqDeliver (q : Fin 64) (it : HqItem) (before : Bool) (rest : List HqItem) (s : State) :
    queueStep q s (hqDeliver q it before rest s) := by
  have hput := queueStep_itemPut q it before rest s
  cases h : readPoisoned it before with
  | false => exact (hqDeliver_clean rest s h).symm ▸ hput
  | true =>
    rw [hqDeliver_poisoned rest s h]
    exact (((hput.trans (queueStep_onHwq q _ _ rfl rfl)).trans (acceptStep_raise q _ _).toqueueStep).trans
      (acceptStep_raise q _ _).toqueueStep).trans (queueStep_lantern q _ _ _)

theorem hwq_hqDeliver (q : Fin 64) (it : HqItem) (before : Bool) (rest : List HqItem) (s : State) :
    hwq (hqDeliver q it before rest s) q = itemGiven it before rest (hwq s q) := by
  cases h : readPoisoned it before with
  | false =>
    rw [hqDeliver_clean rest s h, hwq_itemPut, itemGiven, h]
    rfl
  | true =>
    rw [hqDeliver_poisoned rest s h, hwq_lantern, hwq_raise, hwq_hqRaise, hwq_onHwq_same, hwq_itemPut, itemGiven, h]
    rfl

theorem mem_out_hqDeliver (q : Fin 64) (it : HqItem) (before : Bool) (rest : List HqItem) (s : State) :
    .hqItem q { it with poison := readPoisoned it before } ∈ (hqDeliver q it before rest s).out := by
  have hput := mem_out_itemPut q it before rest s
  cases h : readPoisoned it before with
  | false => exact (hqDeliver_clean rest s h).symm ▸ h ▸ hput
  | true =>
    rw [hqDeliver_poisoned rest s h]
    exact mem_out_lantern _ _ (raise_out_mono _ (raise_out_mono _ (h ▸ hput)))

theorem hqDeliver_pending {q : Fin 64} {it : HqItem} {before : Bool} (rest : List HqItem) (s : State) (h : readPoisoned it before = true) :
    isPending (hqDeliver q it before rest s) 474 ∧ isPending (hqDeliver q it before rest s) (384 + q) := by
  rw [hqDeliver_poisoned rest s h]
  exact ⟨lantern_pending_mono _ _ (raise_isPending _ (by decide)),
    lantern_pending_mono _ _ (raise_pending_mono _ (raise_isPending _ (by have := q.isLt; omega)))⟩

theorem hqRead_truncated {q : Fin 64} (blocking : Bool) {s : State} (h : (hwq s q).truncated = true) : hqRead q blocking s =
    emit (.hqItem q { hqIdle with first := false, poison := true }) (onHwq q (fun k => { k with truncated := false }) s) := by
  rw [hqRead]
  exact if_pos h

theorem hqRead_within {q : Fin 64} (blocking : Bool) {it : HqItem} {rest : List HqItem} {before : Bool} {s : State}
    (ht : (hwq s q).truncated = false) (hr : (hwq s q).reading = some (it :: rest, before)) :
    hqRead q blocking s = hqAdmit q (hqDeliver q it before rest s) := by
  simp only [hqRead, ht, hr, Bool.false_eq_true, if_false]

/-- No packet is being read. -/
def betweenPackets (k : HwQueue) : Prop := k.reading = none ∨ ∃ before, k.reading = some ([], before)

theorem hqRead_next {q : Fin 64} (blocking : Bool) {i : Nat} {it : HqItem} {rest : List HqItem} {s : State} (ht : (hwq s q).truncated = false)
    (hr : betweenPackets (hwq s q)) (hi : hqNext (hwq s q).packets = some i) (hp : (hwq s q).packets.getD i [] = it :: rest) :
    hqRead q blocking s = hqAdmit q (hqDeliver q it false rest
      (onHwq q (fun k => { k with packets := k.packets.eraseIdx i, waiting := false }) s)) := by
  obtain hr | ⟨before, hr⟩ := hr <;> simp only [hqRead, ht, hr, hi, hp, Bool.false_eq_true, if_false]

theorem hqRead_hollow {q : Fin 64} (blocking : Bool) {i : Nat} {s : State} (ht : (hwq s q).truncated = false)
    (hr : betweenPackets (hwq s q)) (hi : hqNext (hwq s q).packets = some i) (hp : (hwq s q).packets.getD i [] = []) :
    hqRead q blocking s = s := by
  obtain hr | ⟨before, hr⟩ := hr <;> simp only [hqRead, ht, hr, hi, hp, Bool.false_eq_true, if_false]

theorem hqRead_waits {q : Fin 64} {s : State} (ht : (hwq s q).truncated = false)
    (hr : betweenPackets (hwq s q)) (hi : hqNext (hwq s q).packets = none) :
    hqRead q true s = onHwq q (fun k => { k with waiting := true }) s := by
  obtain hr | ⟨before, hr⟩ := hr <;> simp only [hqRead, ht, hr, hi, Bool.false_eq_true, if_false, if_true]

theorem hqRead_idle {q : Fin 64} {s : State} (ht : (hwq s q).truncated = false)
    (hr : betweenPackets (hwq s q)) (hi : hqNext (hwq s q).packets = none) : hqRead q false s = emit (.hqItem q hqIdle) s := by
  obtain hr | ⟨before, hr⟩ := hr <;> simp only [hqRead, ht, hr, hi, Bool.false_eq_true, if_false]

/-- What a read leaves alone when no FIRST item is held: open packets and the writers to skip. -/
def writersStay (q : Nat) (s t : State) : Prop := (hwq t q).opens = (hwq s q).opens ∧ (hwq t q).skip = (hwq s q).skip ∧ (hwq t q).held = (hwq s q).held

theorem hqDeliver_admit {q : Fin 64} (it : HqItem) (before : Bool) (rest : List HqItem) {s : State} (h : (hwq s q).held = []) :
    hqAdmit q (hqDeliver q it before rest s) = hqDeliver q it before rest s :=
  hqAdmit_of_nil (by rw [hwq_hqDeliver]; exact h)

theorem writersStay_hqDeliver (q : Fin 64) (it : HqItem) (before : Bool) (rest : List HqItem) (s : State) :
    writersStay q s (hqDeliver q it before rest s) := by
  rw [writersStay, hwq_hqDeliver]
  exact ⟨rfl, rfl, rfl⟩

theorem hqRead_step (q : Fin 64) (blocking : Bool) (s : State) :
    queueStep q s (hqRead q blocking s) ∧ ((hwq s q).held = [] → writersStay q s (hqRead q blocking s)) := by
  cases ht : (hwq s q).truncated with
  | true =>
    rw [hqRead_truncated blocking ht]
    refine ⟨(queueStep_onHwq q _ s rfl rfl).trans (queueStep_emit _ _ _), fun _ => ?_⟩
    change writersStay q s (onHwq q _ s)
    rw [writersStay, hwq_onHwq_same]
    exact ⟨rfl, rfl, rfl⟩
  | false =>
    by_cases hr : betweenPackets (hwq s q)
    · cases hi : hqNext (hwq s q).packets with
      | none =>
        cases blocking with
        | true =>
          rw [hqRead_waits ht hr hi]
          refine ⟨queueStep_onHwq q _ s rfl rfl, fun _ => ?_⟩
          rw [writersStay, hwq_onHwq_same]
          exact ⟨rfl, rfl, rfl⟩
        | false =>
          rw [hqRead_idle ht hr hi]
          exact ⟨queueStep_emit _ _ _, fun _ => ⟨rfl, rfl, rfl⟩⟩
      | some i =>
        cases hp : (hwq s q).packets.getD i [] with
        | nil =>
          rw [hqRead_hollow blocking ht hr hi hp]
          exact ⟨.refl q s, fun _ => ⟨rfl, rfl, rfl⟩⟩
        | cons it rest =>
          rw [hqRead_next blocking ht hr hi hp]
          refine ⟨((queueStep_onHwq q _ s rfl rfl).trans (queueStep_hqDeliver q it false rest _)).trans (acceptStep_hqAdmit q _).toqueueStep,
            fun hheld => ?_⟩
          rw [hqDeliver_admit it false rest (by rw [hwq_onHwq_same]; exact hheld), writersStay, hwq_hqDeliver, hwq_onHwq_same]
          exact ⟨rfl, rfl, rfl⟩
    · obtain ⟨it, rest, before, hr⟩ : ∃ it rest before, (hwq s q).reading = some (it :: rest, before) := by
        rcases hread : (hwq s q).reading with _ | ⟨_ | ⟨it, rest⟩, before⟩
        · exact absurd (.inl hread) hr
        · exact absurd (.inr ⟨before, hread⟩) hr
        · exact ⟨it, rest, before, rfl⟩
      rw [hqRead_within blocking ht hr]
      refine ⟨(queueStep_hqDeliver q it before rest s).trans (acceptStep_hqAdmit q _).toqueueStep, fun hheld => ?_⟩
      rw [hqDeliver_admit it before rest hheld]
      exact writersStay_hqDeliver q it before rest s

theorem hqWake_step (q : Fin 64) (s : State) :
    queueStep q s (hqWake q s) ∧ ((hwq s q).held = [] → writersStay q s (hqWake q s)) := by
  unfold hqWake
  dsimp only
  split
  · exact hqRead_step q true s
  · exact ⟨.refl q s, fun _ => ⟨rfl, rfl, rfl⟩⟩

/-- No read waits, so none is answered. -/
theorem hqWake_of_not_waiting {q : Nat} {s : State} (h : (hwq s q).waiting = false) : hqWake q s = s := by
  rw [hqWake, h]
  rfl

theorem hqWake_of_empty {q : Nat} {s : State} (h : (hwq s q).packets = []) : hqWake q s = s := by
  rw [hqWake, h]
  exact if_neg (by simp)

/-! ## The packet read next (R345) -/

theorem hqPri_le (p : List HqItem) : hqPri p ≤ 3 := by
  cases p with
  | nil => exact le_rfl
  | cons it rest => exact Nat.le_of_lt_succ it.pri.isLt

/-- The packet read next has the lowest PRI of all and is the oldest of that PRI. -/
theorem hqNext_oldest_of_lowest {ps : List (List HqItem)} {i : Nat} (h : hqNext ps = some i) :
    i < ps.length ∧ (∀ p ∈ ps, hqPri (ps.getD i []) ≤ hqPri p) ∧ ∀ j < i, hqPri (ps.getD i []) ≠ hqPri (ps.getD j []) := by
  unfold hqNext at h
  split at h
  · next p hp =>
    obtain ⟨-, -, hlower⟩ := List.find?_range_eq_some.mp hp
    obtain ⟨hpri, hi, holder⟩ := List.find?_range_eq_some.mp h
    have hpri : hqPri (ps.getD i []) = p := beq_iff_eq.mp hpri
    refine ⟨List.mem_range.mp hi, fun k hk => ?_, fun j hj heq => ?_⟩
    · by_contra hlt
      have hnone := hlower (hqPri k) (by omega)
      simp only [Bool.not_eq_true', List.any_eq_false, beq_iff_eq] at hnone
      exact hnone k hk rfl
    · have hother := holder j hj
      rw [← heq, hpri] at hother
      simp at hother
  · exact absurd h nofun

/-! ## Items written (R344, R346) -/

/-- The state once an item's parity has been checked. -/
def itemChecked (item : HqItem) (s : State) : State :=
  if hqParityOk item then s else raise 474 (s.onHq fun h => { h with cntParity := inc h.cntParity })

theorem hqStored_frame (it : HqItem) : (hqStored it).type = it.type ∧ (hqStored it).first = it.first ∧ (hqStored it).last = it.last ∧
    (hqStored it).pri = it.pri := by
  unfold hqStored
  split <;> exact ⟨rfl, rfl, rfl, rfl⟩

/-- An item is stored with good parity. -/
theorem hqParityOk_hqStored (it : HqItem) : hqParityOk (hqStored it) = true := by
  unfold hqStored
  split
  · assumption
  · exact beq_self_eq_true _

theorem hwq_itemChecked (item : HqItem) (s : State) (k : Nat) : hwq (itemChecked item s) k = hwq s k := by
  unfold itemChecked
  split
  · rfl
  · exact hwq_raise _ _ _

theorem itemChecked_time (item : HqItem) (s : State) : (itemChecked item s).power.time = s.power.time := by
  unfold itemChecked
  split
  · rfl
  · exact (raise_onlyBelfry 474 _).same (fun u => u.power.time) rfl

theorem itemChecked_good {item : HqItem} (s : State) (h : hqParityOk item = true) : itemChecked item s = s := if_pos h

theorem itemChecked_bad {item : HqItem} (s : State) (h : hqParityOk item = false) :
    (itemChecked item s).hq.cntParity = inc s.hq.cntParity ∧ isPending (itemChecked item s) 474 := by
  rw [itemChecked, if_neg (by simp [h]), raise_hq]
  exact ⟨rfl, raise_isPending _ (by decide)⟩

/-- What a write of an item to queue q leaves alone: other queues, the reader's side, the parity count and every request made. -/
structure putStep (q : Nat) (s t : State) : Prop where
  others : ∀ k, k ≠ q → hwq t k = hwq s k
  reading : (hwq t q).reading = (hwq s q).reading
  waiting : (hwq t q).waiting = (hwq s q).waiting
  cntParity : t.hq.cntParity = s.hq.cntParity
  pending : ∀ n, isPending s n → isPending t n

theorem putStep.trans {q : Nat} {s t u : State} (h : putStep q s t) (k : putStep q t u) : putStep q s u where
  others n hn := (k.others n hn).trans (h.others n hn)
  reading := k.reading.trans h.reading
  waiting := k.waiting.trans h.waiting
  cntParity := k.cntParity.trans h.cntParity
  pending n := k.pending n ∘ h.pending n

theorem acceptStep.put {q : Nat} {s t : State} (h : acceptStep q s t) : putStep q s t :=
  ⟨h.others, h.reading, h.waiting, h.cntParity, h.pending⟩

theorem putStep_onHwq (q : Fin 64) (f : HwQueue → HwQueue) (s : State) (hread : (f (hwq s q)).reading = (hwq s q).reading)
    (hwait : (f (hwq s q)).waiting = (hwq s q).waiting) : putStep q s (onHwq q f s) :=
  ⟨fun _ hk => hwq_onHwq_other hk f s, by rw [hwq_onHwq_same, hread], by rw [hwq_onHwq_same, hwait], rfl, fun _ => id⟩

theorem hwq_hqSeqError (q : Fin 64) (s : State) : hwq (hqSeqError q s) q = { hwq s q with errSeq := min 65535 ((hwq s q).errSeq + 1) } := by
  rw [hqSeqError, hwq_hqRaise, hwq_onHwq_same]

theorem putStep_hqSeqError (q : Fin 64) (s : State) : putStep q s (hqSeqError q s) :=
  (putStep_onHwq q _ s rfl rfl).trans (acceptStep_raise q _ _).put

section
variable {q : Fin 64} {w : Fin 4} {item : HqItem} {s : State}

theorem hqWrite_idle (h : item.type = 0) : hqWrite q w item s = hqAlive q w (itemChecked item s) := by
  have htype : (hqStored item).type = 0 := (hqStored_frame item).1.trans h
  exact if_pos htype

/-- An item that is not the idle item meets the writer's open packet, if there is one. -/
theorem hqWrite_of_type (h : item.type ≠ 0) : hqWrite q w item s =
    match hqOpen (hwq s q) w, item.first with
    | some _, true => hqFirst q w (hqStored item) (hqSeqError q (onHwq q (hqRewind w false) (itemChecked item s)))
    | some o, false =>
      if (hwq s q).maxPacket ≤ o.items.length then hqAdmit q (hqSeqError q (onHwq q (hqRewind w true) (itemChecked item s)))
      else hqTake q w (hqStored item) (itemChecked item s)
    | none, true => hqFirst q w (hqStored item) (itemChecked item s)
    | none, false => if (hwq s q).skip.getLsbD w then itemChecked item s else hqSeqError q (itemChecked item s) := by
  obtain ⟨htype, hfirst, -⟩ := hqStored_frame item
  have hne : (hqStored item).type ≠ 0 := fun h0 => h (htype ▸ h0)
  refine (if_neg hne).trans ?_
  rw [← hfirst, ← hwq_itemChecked item s q]
  rfl

theorem hqWrite_again {o : OpenPacket} (h : item.type ≠ 0) (hf : item.first = true) (ho : hqOpen (hwq s q) w = some o) :
    hqWrite q w item s = hqFirst q w (hqStored item) (hqSeqError q (onHwq q (hqRewind w false) (itemChecked item s))) := by
  rw [hqWrite_of_type h, hf, ho]

theorem hqWrite_further {o : OpenPacket} (h : item.type ≠ 0) (hf : item.first = false) (ho : hqOpen (hwq s q) w = some o)
    (hroom : o.items.length < (hwq s q).maxPacket) : hqWrite q w item s = hqTake q w (hqStored item) (itemChecked item s) := by
  rw [hqWrite_of_type h, hf, ho]
  exact if_neg (Nat.not_le.mpr hroom)

theorem hqWrite_long {o : OpenPacket} (h : item.type ≠ 0) (hf : item.first = false) (ho : hqOpen (hwq s q) w = some o)
    (hroom : (hwq s q).maxPacket ≤ o.items.length) :
    hqWrite q w item s = hqAdmit q (hqSeqError q (onHwq q (hqRewind w true) (itemChecked item s))) := by
  rw [hqWrite_of_type h, hf, ho]
  exact if_pos hroom

theorem hqWrite_first (h : item.type ≠ 0) (hf : item.first = true) (ho : hqOpen (hwq s q) w = none) :
    hqWrite q w item s = hqFirst q w (hqStored item) (itemChecked item s) := by
  rw [hqWrite_of_type h, hf, ho]

theorem hqWrite_stray (h : item.type ≠ 0) (hf : item.first = false) (ho : hqOpen (hwq s q) w = none) :
    hqWrite q w item s = if (hwq s q).skip.getLsbD w then itemChecked item s else hqSeqError q (itemChecked item s) := by
  rw [hqWrite_of_type h, hf, ho]

theorem hwq_hqAlive : hwq (hqAlive q w s) q =
    { hwq s q with opens := mapIf (fun o => o.writer == w) (fun o => { o with at_ := s.power.time }) (hwq s q).opens } :=
  hwq_onHwq_same q _ s

/-- The idle item takes no space (R345). -/
theorem hqOccupancy_hqAlive : hqOccupancy (hwq (hqAlive q w s) q) = hqOccupancy (hwq s q) := by
  have hlen (os : List OpenPacket) : (mapIf (fun o => o.writer == w) (fun o => { o with at_ := s.power.time }) os).map
      (fun o => o.items.length) = os.map fun o => o.items.length := by
    rw [mapIf, List.map_map]
    exact List.map_congr_left fun o _ => by simp only [Function.comp_apply]; split <;> rfl
  rw [hwq_hqAlive]
  simp only [hqOccupancy, hlen]

/-- A write puts its item as the parity check left it. -/
theorem putStep_hqWrite : putStep q (itemChecked item s) (hqWrite q w item s) := by
  by_cases h : item.type = 0
  · rw [hqWrite_idle h]
    exact putStep_onHwq q _ _ rfl rfl
  · cases ho : hqOpen (hwq s q) w with
    | none =>
      cases hf : item.first with
      | true => exact hqWrite_first h hf ho ▸ (acceptStep_hqFirst q w _ _).put
      | false =>
        rw [hqWrite_stray h hf ho]
        split
        · exact (acceptStep.refl q _).put
        · exact putStep_hqSeqError q _
    | some o =>
      have hrewind (skip : Bool) : putStep q (itemChecked item s) (hqSeqError q (onHwq q (hqRewind w skip) (itemChecked item s))) :=
        (putStep_onHwq q _ _ rfl rfl).trans (putStep_hqSeqError q _)
      cases hf : item.first with
      | true => exact hqWrite_again h hf ho ▸ (hrewind false).trans (acceptStep_hqFirst q w _ _).put
      | false =>
        rcases Nat.lt_or_ge o.items.length (hwq s q).maxPacket with hroom | hroom
        · exact hqWrite_further h hf ho hroom ▸ (acceptStep_hqTake q w _ _).put
        · exact hqWrite_long h hf ho hroom ▸ (hrewind true).trans (acceptStep_hqAdmit q _).put

/-! ## A packet opened, continued and committed -/

/-- The items of a writer's open packet. -/
def itemsSoFar (k : HwQueue) (w : Fin 4) : List HqItem := match hqOpen k w with | some o => o.items | none => []

theorem hqOpen_filtered (k : HwQueue) (w : Fin 4) : (k.opens.filter fun o => o.writer != w).find? (fun o => o.writer == w) = none := by
  rw [List.find?_eq_none]
  intro o ho
  have := (List.mem_filter.mp ho).2
  simpa using this

theorem packets_hqAccept_last {it : HqItem} (now : Nat) (k : HwQueue) (h : it.last = true) :
    (hqAccept w now it k).packets = k.packets ++ [itemsSoFar k w ++ [it]] := by
  unfold hqAccept
  dsimp only
  rw [if_pos h]
  rfl

theorem packets_hqAccept_open {it : HqItem} (now : Nat) (k : HwQueue) (h : it.last = false) :
    (hqAccept w now it k).packets = k.packets ∧ hqOpen (hqAccept w now it k) w = some ⟨w, itemsSoFar k w ++ [it], now⟩ := by
  unfold hqAccept
  dsimp only
  rw [if_neg (by simp [h])]
  refine ⟨rfl, ?_⟩
  rw [hqOpen, List.find?_append, hqOpen_filtered]
  simp only [Option.none_or, List.find?_singleton, beq_self_eq_true, if_true]
  rfl

theorem hqFirst_admitted {it : HqItem} (h : hqAdmits (hwq s q) w = true) :
    hqFirst q w it s = hqTake q w it (onHwq q (fun k => { k with skip := setBit k.skip w false }) s) := by
  unfold hqFirst
  dsimp only
  rw [hwq_onHwq_same]
  exact if_pos h

theorem hqFirst_held {it : HqItem} (h : hqAdmits (hwq s q) w = false) :
    hwq (hqFirst q w it s) q = { hwq s q with skip := setBit (hwq s q).skip w false, held := (hwq s q).held ++ [(w, it)] } := by
  unfold hqFirst
  dsimp only
  rw [hwq_onHwq_same]
  refine (congrArg (fun u => hwq u q) (if_neg ?_)).trans ?_
  · exact fun hn => absurd (hn.symm.trans h) (by decide)
  · rw [hwq_onHwq_same, hwq_onHwq_same]

theorem hwq_hqFirst_admitted {it : HqItem} (h : hqAdmits (hwq s q) w = true) :
    hwq (hqFirst q w it s) q = hqAccept w s.power.time it { hwq s q with skip := setBit (hwq s q).skip w false } := by
  rw [hqFirst_admitted h, hwq_hqTake, hwq_onHwq_same]
  rfl

/-! ## The commands -/

theorem exec_hqItemWrite_held (h : ∃ x ∈ (hwq s q).held, x.1 = w) : exec (.hqItemWrite q w item) s = .next s :=
  congrArg Host.Outcome.next (if_pos (List.any_eq_true.mpr (by simpa using h)))

theorem exec_hqItemWrite_free (h : ∀ x ∈ (hwq s q).held, x.1 ≠ w) :
    exec (.hqItemWrite q w item) s = .next (hqWake q (hqWrite q w item s)) :=
  congrArg Host.Outcome.next (if_neg fun hany => by
    obtain ⟨x, hx, hw⟩ := List.any_eq_true.mp hany
    exact h x hx (beq_iff_eq.mp hw))

/-- With no read waiting, the write is all there is. -/
theorem exec_hqItemWrite_alone (h : ∀ x ∈ (hwq s q).held, x.1 ≠ w) (hwait : (hwq s q).waiting = false) :
    exec (.hqItemWrite q w item) s = .next (hqWrite q w item s) := by
  rw [exec_hqItemWrite_free h, hqWake_of_not_waiting (putStep_hqWrite.waiting.trans (by rw [hwq_itemChecked, hwait]))]

theorem itemsSoFar_none (h : hqOpen (hwq s q) w = none) (k : BitVec 4) : itemsSoFar { hwq s q with skip := k } w = [] := by
  change (match hqOpen (hwq s q) w with | some o => o.items | none => []) = []
  rw [h]

/-- A single item commits as a packet; the first of a longer one opens it. -/
theorem hqWrite_admitted (h : item.type ≠ 0) (hf : item.first = true) (ho : hqOpen (hwq s q) w = none) (ha : hqAdmits (hwq s q) w = true) :
    (item.last = true → (hwq (hqWrite q w item s) q).packets = (hwq s q).packets ++ [[hqStored item]]) ∧
    (item.last = false → (hwq (hqWrite q w item s) q).packets = (hwq s q).packets ∧
      hqOpen (hwq (hqWrite q w item s) q) w = some ⟨w, [hqStored item], s.power.time⟩) := by
  obtain ⟨-, -, hlast, -⟩ := hqStored_frame item
  rw [hqWrite_first h hf ho, hwq_hqFirst_admitted (by rw [hwq_itemChecked]; exact ha), hwq_itemChecked, itemChecked_time]
  have hnone := itemsSoFar_none ho (setBit (hwq s q).skip w false)
  refine ⟨fun hl => ?_, fun hl => ?_⟩
  · rw [packets_hqAccept_last _ _ (hlast.trans hl), hnone]
    rfl
  · obtain ⟨hpackets, hopen⟩ := packets_hqAccept_open (w := w) s.power.time { hwq s q with skip := setBit (hwq s q).skip w false } (hlast.trans hl)
    exact ⟨hpackets, by rw [hopen, hnone]; rfl⟩

/-- A further item joins the open packet, and the last one commits it. -/
theorem hqWrite_joined {o : OpenPacket} (h : item.type ≠ 0) (hf : item.first = false) (ho : hqOpen (hwq s q) w = some o)
    (hroom : o.items.length < (hwq s q).maxPacket) :
    (item.last = true → (hwq (hqWrite q w item s) q).packets = (hwq s q).packets ++ [o.items ++ [hqStored item]]) ∧
    (item.last = false → hqOpen (hwq (hqWrite q w item s) q) w = some ⟨w, o.items ++ [hqStored item], s.power.time⟩) := by
  obtain ⟨-, -, hlast, -⟩ := hqStored_frame item
  rw [hqWrite_further h hf ho hroom, hwq_hqTake, hwq_itemChecked, itemChecked_time]
  have hso : itemsSoFar (hwq s q) w = o.items := by rw [itemsSoFar, ho]
  rw [← hso]
  exact ⟨fun hl => packets_hqAccept_last _ _ (hlast.trans hl), fun hl => (packets_hqAccept_open _ _ (hlast.trans hl)).2⟩

theorem hqWrite_held (h : item.type ≠ 0) (hf : item.first = true) (ho : hqOpen (hwq s q) w = none) (ha : hqAdmits (hwq s q) w = false) :
    (hwq (hqWrite q w item s) q).held = (hwq s q).held ++ [(w, hqStored item)] ∧ (hwq (hqWrite q w item s) q).packets = (hwq s q).packets := by
  rw [hqWrite_first h hf ho, hqFirst_held (by rw [hwq_itemChecked]; exact ha), hwq_itemChecked]
  exact ⟨rfl, rfl⟩

theorem hqWrite_stray_errSeq (h : item.type ≠ 0) (hf : item.first = false) (ho : hqOpen (hwq s q) w = none) :
    (hwq (hqWrite q w item s) q).errSeq = if (hwq s q).skip.getLsbD w then (hwq s q).errSeq else min 65535 ((hwq s q).errSeq + 1) := by
  rw [hqWrite_stray h hf ho]
  split
  · rw [hwq_itemChecked]
  · rw [hwq_hqSeqError, hwq_itemChecked]

theorem hqWrite_again_errSeq (h : item.type ≠ 0) (hf : item.first = true) (ho : hqOpen (hwq s q) w ≠ none) :
    (hwq (hqWrite q w item s) q).errSeq = min 65535 ((hwq s q).errSeq + 1) := by
  obtain ⟨o, ho⟩ := Option.ne_none_iff_exists'.mp ho
  rw [hqWrite_again h hf ho, (acceptStep_hqFirst q w _ _).errSeq, hwq_hqSeqError, hwq_onHwq_same, hwq_itemChecked]
  rfl

/-- A read that waits gets the item of the packet that has come. -/
theorem hqWake_single (hwait : (hwq s q).waiting = true) (ht : (hwq s q).truncated = false) (hr : (hwq s q).reading = none)
    {it : HqItem} (hp : (hwq s q).packets = [[it]]) (hheld : (hwq s q).held = []) : hqWake q s = hqDeliver q it false []
      (onHwq q (fun k => { k with packets := k.packets.eraseIdx 0, waiting := false }) s) := by
  have hnext : hqNext (hwq s q).packets = some 0 := by
    have hpri : (List.range 4).find? (fun p => [[it]].any fun k => hqPri k == p) = some (hqPri [it]) :=
      List.find?_range_eq_some.mpr ⟨by simp, List.mem_range.mpr (Nat.lt_succ_of_le (hqPri_le _)), fun j hj => by simp [Nat.ne_of_gt hj]⟩
    rw [hp, hqNext, hpri]
    simp [List.range_succ]
  have hgo : ((hwq s q).waiting && !(hwq s q).packets.isEmpty) = true := by rw [hwait, hp]; rfl
  rw [hqWake]
  refine (if_pos hgo).trans ?_
  rw [hqRead_next true ht (.inl hr) hnext (by rw [hp]; rfl)]
  exact hqDeliver_admit it false [] (by rw [hwq_onHwq_same]; exact hheld)

theorem exec_hqStaleTail_none (h : hqOpen (hwq s q) w = none ∨ (hwq s q).staleTail = 0) : exec (.hqStaleTail q w) s = .next s := by
  refine congrArg Host.Outcome.next ?_
  rcases h with h | h
  · simp only [h]
  · dsimp only
    split
    · exact if_pos h
    · rfl

/-- The state once the stale tail has been rewound and reported, before held items go on. -/
def staleRewound (q : Fin 64) (w : Fin 4) (due : Nat) (s : State) : State :=
  lantern 0x00D0 (le 1 1 ++ le 1 q) (raise 474 ((hqSeqError q (onHwq q (hqRewind w true) (advanceTo due s))).onHq fun h =>
    { h with cntStale := inc h.cntStale }))

theorem exec_hqStaleTail_due {o : OpenPacket} (ho : hqOpen (hwq s q) w = some o) (h : (hwq s q).staleTail ≠ 0) :
    exec (.hqStaleTail q w) s = .next (hqWake q (hqAdmit q (staleRewound q w (o.at_ + usTicks * (hwq s q).staleTail) s))) := by
  refine congrArg Host.Outcome.next ?_
  simp only [ho]
  exact if_neg h

theorem hwq_staleRewound (due : Nat) : hwq (staleRewound q w due s) q =
    { hqRewind w true (hwq s q) with errSeq := min 65535 ((hwq s q).errSeq + 1) } := by
  rw [staleRewound, hwq_lantern, hwq_raise]
  refine (hwq_hqSeqError q _).trans ?_
  rw [hwq_onHwq_same]
  rfl

theorem staleRewound_counts (due : Nat) : (staleRewound q w due s).hq.cntStale = inc s.hq.cntStale ∧
    isPending (staleRewound q w due s) 474 ∧ (staleRewound q w due s).power.time = max s.power.time due := by
  have hl := fun t => queueStep_lantern q 0x00D0 (le 1 1 ++ le 1 q) (raise 474 t)
  refine ⟨(hl _).cntStale.trans ?_, lantern_pending_mono _ _ (raise_isPending _ (by decide)), (hl _).time.trans ?_⟩
  · rw [raise_hq]
    exact congrArg inc (acceptStep_raise q (384 + q) _).cntStale
  · refine ((acceptStep_raise q 474 _).time).trans ?_
    exact (acceptStep_raise q (384 + q) _).time

theorem hqRewind_true (k : HwQueue) : hqOpen (hqRewind w true k) w = none ∧ (hqRewind w true k).skip.getLsbD w = true := by
  refine ⟨hqOpen_filtered k w, ?_⟩
  rw [show (hqRewind w true k).skip = setBit k.skip w true from rfl, getLsbD_setBit]
  simp

/-- The state of a flush, before held items go on. -/
def flushed (q : Fin 64) (s : State) : State :=
  (onHwq q (fun k => { k with
    packets := [], opens := [], truncated := k.truncated || k.reading.isSome, reading := none, skip := 0xF }) s).onHq fun h =>
      { h with cntFlush := inc h.cntFlush }

theorem exec_hqFlush : exec (.hqFlush q) s = .next (hqWake q (hqAdmit q (flushed q s))) := rfl

theorem hwq_flushed : hwq (flushed q s) q = { hwq s q with
    packets := [], opens := [], truncated := (hwq s q).truncated || (hwq s q).reading.isSome, reading := none, skip := 0xF } :=
  hwq_onHwq_same q _ s

theorem exec_hqDrainDone_busy (h : (hwq s q).draining = false ∨ hqOccupancy (hwq s q) ≠ 0) : exec (.hqDrainDone q) s = .next s :=
  congrArg Host.Outcome.next (if_neg (by rcases h with h | h <;> simp [h]))

theorem exec_hqDrainDone_empty (hd : (hwq s q).draining = true) (ho : hqOccupancy (hwq s q) = 0) :
    exec (.hqDrainDone q) s = .next (hqWake q (hqAdmit q (onHwq q (fun k => { k with draining := false }) s))) :=
  congrArg Host.Outcome.next (if_pos (by simp [hd, ho]))

end

/-- Settles O56, by what each operation makes of its queue and by the two relations, of accepting and of any step of a queue, that say
what it leaves alone. -/
theorem itemsPassTheHardwareQueues : Obligations.ItemsPassTheHardwareQueues := by
  unfold Obligations.ItemsPassTheHardwareQueues
  refine ⟨fun q w it s h => exec_hqItemWrite_held h, fun q w it s hheld hwait => ?_, fun ps i h => hqNext_oldest_of_lowest h,
    fun q s ht hr hn => ?_, fun q blocking i it rest s ht hr hi hp => ?_, fun q blocking bad it rest s ht hr => ?_,
    fun q w s => ⟨exec_hqStaleTail_none, fun o ho hst => ?_⟩, fun q s => ?_, fun q s => ?_,
    fun q s => ⟨exec_hqDrainDone_busy, fun hd ho => ?_⟩, fun q w it s hwait ht hr hp ho hheld ha htype hf hl => ?_, by decide⟩
  · have hput : putStep q (itemChecked it s) (hqWrite q w it s) := putStep_hqWrite
    refine ⟨_, exec_hqItemWrite_alone hheld hwait, fun k hk => (hput.others k hk).trans (hwq_itemChecked it s k),
      hput.reading.trans (by rw [hwq_itemChecked]), fun hgood => hput.cntParity.trans (by rw [itemChecked_good s hgood]), fun hbad => ?_,
      fun h0 => ?_, fun hne hf ho ha => hqWrite_held hne hf ho ha, fun hne hf ho ha => hqWrite_admitted hne hf ho ha,
      fun hne hf o ho hroom => hqWrite_joined hne hf ho hroom, fun hne hf ho => hqWrite_stray_errSeq hne hf ho,
      fun hne hf ho => hqWrite_again_errSeq hne hf ho⟩
    · obtain ⟨hcount, hpend⟩ := itemChecked_bad s hbad
      exact ⟨hput.cntParity.trans hcount, hput.pending 474 hpend⟩
    · rw [hqWrite_idle h0]
      exact ⟨by rw [hwq_hqAlive, hwq_itemChecked], by rw [hqOccupancy_hqAlive, hwq_itemChecked]⟩
  · constructor
    · exact ⟨_, congrArg Host.Outcome.next (hqRead_waits ht (.inl hr) hn), by rw [hwq_onHwq_same], onHwq_changesOnly q _ s⟩
    · exact ⟨_, congrArg Host.Outcome.next (hqRead_idle ht (.inl hr) hn), rfl, emit_changesOnly _ s⟩
  · have hadmit := acceptStep_hqAdmit q (hqDeliver q it false rest
      (onHwq q (fun k => { k with packets := k.packets.eraseIdx i, waiting := false }) s))
    have hgiven : hwq (hqDeliver q it false rest (onHwq q (fun k => { k with packets := k.packets.eraseIdx i, waiting := false }) s)) q =
        itemGiven it false rest { hwq s q with packets := (hwq s q).packets.eraseIdx i, waiting := false } := by
      rw [hwq_hqDeliver, hwq_onHwq_same]
    have hbad : readPoisoned it false = (it.poison || !hqParityOk it) := by rw [readPoisoned, Bool.or_false]
    refine ⟨_, congrArg Host.Outcome.next (hqRead_next blocking ht (.inl hr) hi hp), ?_, ?_, ?_, fun hheld => ?_, ?_⟩
    · exact hbad ▸ hadmit.out _ (mem_out_hqDeliver q it false rest _)
    · rw [hadmit.waiting, hgiven]
      rfl
    · rw [hadmit.reading, hgiven, itemGiven, hbad]
      simp only [List.isEmpty_iff]
    · rw [hqDeliver_admit it false rest (by rw [hwq_onHwq_same]; exact hheld), hgiven]
      rfl
    · rw [hadmit.errPoison, hgiven, itemGiven, hbad]
  · have hadmit := acceptStep_hqAdmit q (hqDeliver q it bad rest s)
    refine ⟨_, congrArg Host.Outcome.next (hqRead_within blocking ht hr), hadmit.out _ (mem_out_hqDeliver q it bad rest s), ?_, fun hnow => ?_⟩
    · rw [hadmit.reading, hwq_hqDeliver, itemGiven, readPoisoned]
      simp only [List.isEmpty_iff]
    · obtain ⟨h474, hq⟩ := hqDeliver_pending rest s hnow
      exact ⟨hadmit.pending _ h474, hadmit.pending _ hq⟩
  · obtain ⟨hwake, hwriters⟩ := hqWake_step q (hqAdmit q (staleRewound q w (o.at_ + usTicks * (hwq s q).staleTail) s))
    have hadmit := acceptStep_hqAdmit q (staleRewound q w (o.at_ + usTicks * (hwq s q).staleTail) s)
    have hstep := hadmit.toqueueStep.trans hwake
    obtain ⟨hstale, hpend, htime⟩ := staleRewound_counts (q := q) (w := w) (s := s) (o.at_ + usTicks * (hwq s q).staleTail)
    refine ⟨_, exec_hqStaleTail_due ho hst, hstep.cntStale.trans hstale, by rw [hstep.errSeq, hwq_staleRewound], hstep.pending _ hpend,
      hstep.time.trans htime, fun hheld => ?_⟩
    have hnone : (hwq (staleRewound q w (o.at_ + usTicks * (hwq s q).staleTail) s) q).held = [] := by rw [hwq_staleRewound]; exact hheld
    rw [hqAdmit_of_nil hnone] at hwriters
    obtain ⟨hopens, hskip, -⟩ := hwriters hnone
    obtain ⟨hopen, hbit⟩ := hqRewind_true (w := w) (hwq s q)
    rw [hqAdmit_of_nil hnone, hqOpen, hopens, hskip, hwq_staleRewound]
    exact ⟨hopen, hbit⟩
  · have hstep := (acceptStep_hqAdmit q (flushed q s)).toqueueStep.trans (hqWake_step q _).1
    refine ⟨_, exec_hqFlush, hstep.cntFlush.trans rfl, fun hheld => ?_⟩
    rw [hqAdmit_of_nil (by rw [hwq_flushed]; exact hheld), hqWake_of_empty (by rw [hwq_flushed]), hwq_flushed]
    exact ⟨rfl, rfl, rfl, rfl, rfl⟩
  · exact ⟨_, rfl, hwq_onHwq_same q _ s, onHwq_changesOnly q _ s⟩
  · have hstep := (acceptStep_hqAdmit q (onHwq q (fun k => { k with draining := false }) s)).toqueueStep.trans (hqWake_step q _).1
    exact ⟨_, exec_hqDrainDone_empty hd ho, by rw [hstep.draining, hwq_onHwq_same]⟩
  · have hfree : ∀ x ∈ (hwq s q).held, x.1 ≠ w := by simp [hheld]
    obtain ⟨hpackets, -⟩ := hqWrite_admitted (q := q) (w := w) htype hf (by rw [hqOpen, ho]; rfl) ha
    have hpackets : (hwq (hqWrite q w it s) q).packets = [[hqStored it]] := by rw [hpackets hl, hp]; rfl
    have hput : putStep q (itemChecked it s) (hqWrite q w it s) := putStep_hqWrite
    have hside : (hwq (hqWrite q w it s) q).truncated = false ∧ (hwq (hqWrite q w it s) q).held = [] := by
      rw [hqWrite_first htype hf (by rw [hqOpen, ho]; rfl), hwq_hqFirst_admitted (by rw [hwq_itemChecked]; exact ha), hwq_itemChecked,
        hqAccept_rest]
      exact ⟨ht, hheld⟩
    obtain ⟨htrunc, hnone⟩ := hside
    have hwake := hqWake_single (hput.waiting.trans (by rw [hwq_itemChecked, hwait])) htrunc
      (hput.reading.trans (by rw [hwq_itemChecked, hr])) hpackets hnone
    have hclean : readPoisoned (hqStored it) false = (hqStored it).poison := by simp [readPoisoned, hqParityOk_hqStored]
    refine ⟨_, exec_hqItemWrite_free hfree, ?_⟩
    rw [hwake, hwq_hqDeliver, hwq_onHwq_same]
    refine ⟨?_, ?_, rfl⟩
    · have hout := mem_out_hqDeliver q (hqStored it) false []
        (onHwq q (fun k => { k with packets := k.packets.eraseIdx 0, waiting := false }) (hqWrite q w it s))
      rw [hclean] at hout
      exact hout
    · rw [itemGiven]
      simp only [hpackets, List.eraseIdx_cons_zero]

end Sys2Proof.Machine
end

section
/-! PROOF. A tile's fault with more commits in flight than the record ring holds (R98, R376, R382). -/

namespace Sys2Proof.Machine

set_option Elab.async false

/-! ## The newest records of the ring -/

/-- The n newest records of the ring, or all of it, are of another code. -/
def newestOther (code n : Nat) (l : Lantern) : Prop :=
  ∃ old new, l.ring = old ++ new ∧ (old = [] ∨ n ≤ new.length) ∧ ∀ r ∈ new, r.code ≠ code

/-- The ring holds no more than its capacity (R382). -/
def ringFits (l : Lantern) : Prop := l.ring.length ≤ 245760

section
variable {code n : Nat} {l m : Lantern} {s : State}

theorem newestOther_zero (code : Nat) (l : Lantern) : newestOther code 0 l :=
  ⟨l.ring, [], (List.append_nil _).symm, .inr (Nat.zero_le _), fun _ h => absurd h List.not_mem_nil⟩

theorem newestOther.of_ring (h : newestOther code n l) (hring : m.ring = l.ring) : newestOther code n m := by
  unfold newestOther
  rwa [hring]

theorem newestOther.mono {k : Nat} (h : newestOther code n l) (hk : k ≤ n) : newestOther code k l := by
  obtain ⟨old, new, hring, hlong, hnew⟩ := h
  exact ⟨old, new, hring, hlong.imp_right hk.trans, hnew⟩

/-- One record more of another code, over the oldest when the ring is full. -/
theorem newestOther.put {r : LanRec} (h : newestOther code n l) (hr : r.code ≠ code) (b : Bool) : newestOther code (n + 1) (lanPut r b l) := by
  obtain ⟨old, new, hring, hlong, hnew⟩ := h
  have hkept : ∃ old' new', ringKept l = old' ++ new' ∧ (old' = [] ∨ n ≤ new'.length) ∧ ∀ r ∈ new', r.code ≠ code := by
    unfold ringKept
    split
    · cases old with
      | nil => exact ⟨[], new.drop 1, by rw [hring]; rfl, .inl rfl, fun r hr => hnew r (List.mem_of_mem_drop hr)⟩
      | cons x old => exact ⟨old, new, by rw [hring]; rfl, hlong.elim (fun h => absurd h (List.cons_ne_nil _ _)) .inr, hnew⟩
    · exact ⟨old, new, hring, hlong, hnew⟩
  obtain ⟨old', new', hkeep, hlong', hnew'⟩ := hkept
  refine ⟨old', new' ++ [numbered r l], by rw [lanPut_ring, hkeep, List.append_assoc], hlong'.imp_right fun h => ?_, fun x hx => ?_⟩
  · rw [List.length_append, List.length_singleton]
    exact Nat.succ_le_succ h
  · rcases List.mem_append.mp hx with hx | hx
    · exact hnew' x hx
    · rw [List.mem_singleton.mp hx]
      exact hr

theorem ringFits.put (h : ringFits l) (r : LanRec) (b : Bool) : ringFits (lanPut r b l) := by
  unfold ringFits at *
  rw [lanPut_ring, ringKept]
  have hmax : ringMax = 245760 := rfl
  split <;> simp only [List.length_append, List.length_drop, List.length_singleton] <;> omega

theorem ringFits.of_ring (h : ringFits l) (hring : m.ring = l.ring) : ringFits m := by
  unfold ringFits
  rwa [hring]

theorem ringFits.write (h : ringFits s.lantern) (code cls sup : Nat) (data : Bytes) : ringFits (lanWrite code cls sup data s).lantern := by
  unfold lanWrite
  lift_lets
  intro hit post s1 s2
  have hs2 : ringFits s2.lantern := (h.put (lanRec s code cls sup data) (hit || post)).of_ring (lanEvent_ring code cls data s1)
  split
  · unfold lanFire
    refine ringFits.of_ring (hs2.put (lanRec s2 0x0091 2 0 (le 2 code)) true) ?_
    dsimp only
    rw [raise_lantern, lanEvent_ring]
    rfl
  · exact hs2

theorem newestOther.write {c : Nat} (h : newestOther code n s.lantern) (hc : c ≠ code) (htrig : code ≠ 0x0091) (cls sup : Nat) (data : Bytes) :
    newestOther code (n + 1) (lanWrite c cls sup data s).lantern := by
  have hput := fun b => h.put (r := lanRec s c cls sup data) hc b
  unfold lanWrite
  lift_lets
  intro hit post s1 s2
  have hs2 : newestOther code (n + 1) s2.lantern := (hput (hit || post)).of_ring (lanEvent_ring c cls data s1)
  split
  · unfold lanFire
    refine newestOther.of_ring ((hs2.put (r := lanRec s2 0x0091 2 0 (le 2 c)) htrig.symm true).mono (Nat.le_succ _)) ?_
    dsimp only
    rw [raise_lantern, lanEvent_ring]
    rfl
  · exact hs2

/-- When the newest records fill the ring, it holds none of that code. -/
theorem newestOther.none (h : newestOther code 245760 l) (hfits : ringFits l) : ∀ r ∈ l.ring, r.code ≠ code := by
  obtain ⟨old, new, hring, hlong, hnew⟩ := h
  have hold : old = [] := by
    rcases hlong with h | h
    · exact h
    · unfold ringFits at hfits
      rw [hring, List.length_append] at hfits
      exact List.eq_nil_of_length_eq_zero (by omega)
  rw [hring, hold]
  exact hnew

end

/-! ## Data sets in flight that were released -/

/-- A slot of the tape that holds a data set. -/
def takenSlot : TapeSlot := { wrap := 0, slot := 0, n := 0, rewritten := false, whole := true, decodes := true, payload := [] }

/-- A data set in flight to its verify, in that slot. -/
def flying : Commit := { slot := 0, id := 0, rewritten := false, point := 0, affected := false, cfg := 0, cfg2 := 0 }

/-- None of the data sets in flight is staged any more, each stands on the tape, and the last n records are not of the code 0x0010. -/
structure lostInFlight (n : Nat) (s : State) : Prop where
  sets : s.wr.sets = []
  wrap : s.wr.wrap = 0
  cart : ∃ c, s.drive.cart = some c ∧ c.slots = [takenSlot]
  fits : ringFits s.lantern
  newest : newestOther 0x0010 n s.lantern

theorem hitCommit_flying {s : State} (hsets : s.wr.sets = []) (hwrap : s.wr.wrap = 0)
    (hcart : ∃ c, s.drive.cart = some c ∧ c.slots = [takenSlot]) : hitCommit flying s =
    (lanWrite 0x0031 3 0 (le 6 0 ++ le 1 0) s).onLantern fun l => { l with report := l.report ++ [reportEntry 0 0 0 2 0] } := by
  obtain ⟨c, hcart, hslots⟩ := hcart
  have hstaged : stagedSet s flying.id = none := by rw [stagedSet, hsets]; rfl
  have htape : tapeAt s s.wr.wrap flying.slot = some takenSlot := by
    rw [tapeAt, hcart, hwrap]
    simp only [hslots]
    rfl
  rw [hitCommit, hstaged]
  simp only
  rw [lostAfterRelease, htape]
  rfl

/-- Each of them makes a record 0x0031 (R16). -/
theorem lostInFlight.hit {n : Nat} {s : State} (h : lostInFlight n s) : lostInFlight (n + 1) (hitCommit flying s) := by
  have hkept := hitCommit_kept flying (Nat.or_self _) (Kept.refl _ s)
  have heq := hitCommit_flying h.sets h.wrap h.cart
  refine ⟨(hkept.same .wrSets rfl).trans h.sets, (hkept.same .wrWrap rfl).trans h.wrap, ?_, ?_, ?_⟩
  · rw [show (hitCommit flying s).drive.cart = s.drive.cart from hkept.same .driveCart rfl]
    exact h.cart
  · rw [heq]
    exact (h.fits.write 0x0031 3 0 _).of_ring rfl
  · rw [heq]
    exact (h.newest.write (c := 0x0031) (by decide) (by decide) 3 0 _).of_ring rfl

theorem lostInFlight.hits {n : Nat} (k : Nat) {s : State} (h : lostInFlight n s) :
    lostInFlight (n + k) (forEach (List.replicate k flying) hitCommit s) := by
  induction k generalizing n s with
  | zero => exact h
  | succ k ih =>
    have hrest := ih h.hit
    rw [Nat.add_right_comm] at hrest
    exact hrest

/-- The part runs, with one data set more in flight than the record ring holds besides. -/
def crowded : State :=
  { State.reset with
    boot := { State.reset.boot with phase := .normal }
    drive := { State.reset.drive with cart := some { cm := [], cmKiB := 0, cmSet := 0, tapeIds := [], slots := [takenSlot] } }
    wr := { State.reset.wr with commits := List.replicate 245760 flying } }

/-- The fault of tile 0, noted in that state, with the data sets in flight marked as hit. -/
def crowdedNoted : State :=
  ((noteOut .tile 0 crowded).onTiles fun k => { k with inService := setBit k.inService 0 false }).onWr fun w =>
    { w with commits := w.commits.map fun c => { c with affected := true } }

theorem noteOut_crowded_commits : (noteOut .tile 0 crowded).wr.commits = List.replicate 245760 flying :=
  (noteOut_kept .tile 0 (Nat.or_self _) (Kept.refl _ crowded)).same .wrCommits rfl

theorem takeOut_tile_crowded : takeOut .tile 0 crowded = raise 0 (forEach (List.replicate 245760 flying) hitCommit crowdedNoted) := by
  have hlive : ((noteOut .tile 0 crowded).wr.commits.filter fun c => !c.affected) = List.replicate 245760 flying := by
    rw [noteOut_crowded_commits]
    exact List.filter_eq_self.mpr fun c hc => by rw [List.eq_of_mem_replicate hc]; rfl
  have hout : outOf crowded .tile 0 = false := rfl
  rw [takeOut, if_neg (by rw [hout]; decide), if_neg (by simp [noSpare]), ← hlive]
  rfl

theorem lostInFlight_crowdedNoted : lostInFlight 0 crowdedNoted := by
  have hkept := noteOut_kept .tile 0 (Nat.or_self _) (Kept.refl _ crowded)
  refine ⟨hkept.same .wrSets rfl, hkept.same .wrWrap rfl, ?_, ?_, newestOther_zero _ _⟩
  · rw [show crowdedNoted.drive.cart = crowded.drive.cart from hkept.same .driveCart rfl]
    exact ⟨_, rfl, rfl⟩
  · have hstart : ringFits crowded.lantern := Nat.zero_le _
    exact ringFits.of_ring (ringFits.write (s := (crowded.onLantern fun l => { l with outOfService := l.outOfService ++ [(FaultRow.tile, 0)] }).onPower
      fun p => { p with domOn := setBit p.domOn 0 false, domFault := setBit p.domFault 0 true }) hstart 0x0010 3 0 _) rfl

theorem exec_instanceFault_tile (i : Nat) {s : State} (hl : live s = true) :
    exec (.instanceFault .tile i) s = .next (takeOut .tile (i % 64) s) := goLive_of_live _ hl

/-- Refutes O57: a tile's fault makes record 0x0010 before the data sets in flight are gone through, and each of them that has been released
makes a record 0x0031 (R16). With as many of those in flight as the ring holds, the last of them is put over the record 0x0010. -/
theorem not_faultsTakeInstancesOut : ¬ Obligations.FaultsTakeInstancesOut := by
  unfold Obligations.FaultsTakeInstancesOut
  intro h
  obtain ⟨-, hfault, -⟩ := h
  obtain ⟨t, hexec, -, -, -, ⟨r, hr, hcode, -⟩, -⟩ := hfault .tile 64 0 0 crowded rfl (by simp) (by decide) rfl ⟨rfl, rfl⟩
  rw [exec_instanceFault_tile 0 rfl] at hexec
  have ht : takeOut .tile 0 crowded = t := Host.Outcome.next.inj hexec
  have hlost := lostInFlight_crowdedNoted.hits 245760
  rw [← ht, takeOut_tile_crowded, raise_lantern] at hr
  exact hlost.newest.none hlost.fits r hr hcode

end Sys2Proof.Machine
end

section
/-! PROOF. The moderation windows and the MSI-X masks (R302, R338 to R340). -/

namespace Sys2Proof.Machine

set_option Elab.async false

/-! ## Messages sent -/

/-- The state with these messages gone out, and their number counted. -/
def sent (ms : List Out) (k : Nat) (s : State) : State := { s with out := s.out ++ ms, blf := { s.blf with cntMsix := k } }

@[simp] theorem portOf_sent (ms : List Out) (k : Nat) (s : State) (p : Port) : portOf (sent ms k s) p = portOf s p := by
  cases p <;> rfl

theorem isPath_congr {s t : State} {p : Port} (h : portOf t p = portOf s p) : isPath t p = isPath s p := by
  rw [isPath, h, isPath]

/-- Through a path, a vector that is not masked is sent. -/
theorem msix_sent {p : Port} {v : Nat} {s : State} (hpath : isPath s p = true) (hmask : masked (portOf s p) v = false) :
    msix p v s = sent [.msix p v] (inc s.blf.cntMsix) s := by
  unfold msix
  rw [hpath, hmask]
  rfl

theorem forEach_msix_sent (l : List (Nat × Port)) {s : State} (h : ∀ x ∈ l, isPath s x.2 = true ∧ masked (portOf s x.2) x.1 = false) :
    ∃ k, forEach l (fun x t => msix x.2 x.1 t) s = sent (l.map fun x => .msix x.2 x.1) k s := by
  induction l generalizing s with
  | nil => exact ⟨s.blf.cntMsix, by rw [sent, List.map_nil, List.append_nil]; rfl⟩
  | cons x l ih =>
    obtain ⟨hpath, hmask⟩ := h x List.mem_cons_self
    have hrest : ∀ y ∈ l, isPath (sent [.msix x.2 x.1] (inc s.blf.cntMsix) s) y.2 = true ∧
        masked (portOf (sent [.msix x.2 x.1] (inc s.blf.cntMsix) s) y.2) y.1 = false := fun y hy => by
      rw [isPath_congr (portOf_sent _ _ _ _), portOf_sent]
      exact h y (List.mem_cons_of_mem _ hy)
    obtain ⟨k, hk⟩ := ih hrest
    refine ⟨k, ?_⟩
    change forEach l _ (msix x.2 x.1 s) = _
    rw [msix_sent hpath hmask, hk]
    simp [sent]

/-- A group as its delivery leaves it (R339). -/
def emptied (k : HostGroup) : HostGroup := { k with count := 0, held := [], openAt := none, staleAt := none }

theorem deliver_sends {g : Fin 32} {s : State} (h : ∀ x ∈ s.host.groups[g].held, isPath s x.2 = true ∧ masked (portOf s x.2) x.1 = false) :
    ∃ k, deliver g s = sent (s.host.groups[g].held.map fun x => .msix x.2 x.1) k (s.onHost fun h => { h with groups := updAt h.groups g emptied }) := by
  have hgrp : getAt s.host.groups g {} = s.host.groups[g] := getAt_fin _ _ _
  unfold deliver
  dsimp only
  rw [hgrp]
  refine forEach_msix_sent _ fun x hx => ?_
  have hport : portOf (s.onHost fun h => { h with groups := updAt h.groups g emptied }) x.2 = portOf s x.2 := by cases x.2 <;> rfl
  change isPath (s.onHost fun h => { h with groups := updAt h.groups g emptied }) x.2 = true ∧
    masked (portOf (s.onHost fun h => { h with groups := updAt h.groups g emptied }) x.2) x.1 = false
  rw [isPath_congr hport, hport]
  exact h x hx

/-! ## A window that closes -/

section
variable {g : Fin 32} {s : State} {at_ : Nat}

/-- A delivery once the time base has moved on: messages, an empty group, the time, and nothing else. -/
theorem deliver_after (due : Nat) (h : ∀ x ∈ s.host.groups[g].held, isPath s x.2 = true ∧ masked (portOf s x.2) x.1 = false) :
    (deliver g (advanceTo due s)).out = s.out ++ s.host.groups[g].held.map (fun x => .msix x.2 x.1) ∧
    (deliver g (advanceTo due s)).host.groups[g] = emptied s.host.groups[g] ∧
    (deliver g (advanceTo due s)).power.time = max s.power.time due ∧
    changesOnly [.powerTime, .hostGroups, .blfCntMsix, .out] s (deliver g (advanceTo due s)) := by
  have hfree : ∀ x ∈ (advanceTo due s).host.groups[g].held, isPath (advanceTo due s) x.2 = true ∧
      masked (portOf (advanceTo due s) x.2) x.1 = false := fun x hx => by
    have hport : portOf (advanceTo due s) x.2 = portOf s x.2 := by cases x.2 <;> rfl
    rw [isPath_congr hport, hport]
    exact h x hx
  obtain ⟨k, hk⟩ := deliver_sends hfree
  have hchanged : changesOnly [.powerTime, .hostGroups, .hostPba, .blfCntMsix, .out] s (deliver g (advanceTo due s)) :=
    (deliver_kept g (or_fieldMask rfl) (advanceTo_kept due (or_fieldMask rfl)
      (Kept.refl (fieldMask [.powerTime, .hostGroups, .hostPba, .blfCntMsix, .out]) s))).changesOnly
  refine ⟨by rw [hk]; rfl, ?_, by rw [hk]; rfl, hchanged.narrow fun f hf hout => ?_⟩
  · rw [hk]
    exact getElem_updAt_same _ _ g
  · obtain rfl : f = .hostPba := by
      simp only [List.mem_cons, List.not_mem_nil, or_false] at hf hout
      tauto
    rw [hk]
    rfl

theorem exec_holdoffExpiry_open (hl : live s = true) (ho : s.host.groups[g].openAt = some at_) :
    exec (.holdoffExpiry g) s = .next (deliver g (advanceTo (at_ + usTicks * s.host.groups[g].holdoff) s)) := by
  change execHoldoffExpiry g s = _
  rw [execHoldoffExpiry, goLive_of_live _ hl]
  simp only [ho]

theorem exec_staleExpiry_open (hl : live s = true) (ho : s.host.groups[g].staleAt = some at_) :
    exec (.staleExpiry g) s = .next (deliver g (advanceTo (at_ + usTicks * s.host.groups[g].stale) s)) := by
  change execStaleExpiry g s = _
  rw [execStaleExpiry, goLive_of_live _ hl]
  simp only [ho]

end

/-! ## A mask that is cleared (R340) -/

/-- What holds of every state on the way holds at the end, once the step of one element of the list has been passed. -/
theorem forEach_reaches {α : Type} {P Q : State → Prop} {f : α → State → State} (hP : ∀ x t, P t → P (f x t)) (hQ : ∀ x t, Q t → Q (f x t))
    {v : α} (hv : ∀ t, P t → Q (f v t)) {l : List α} (hl : v ∈ l) {s : State} (hs : P s) : Q (forEach l f s) := by
  induction l generalizing s with
  | nil => exact absurd hl List.not_mem_nil
  | cons x l ih =>
    rcases List.mem_cons.mp hl with rfl | hl
    · exact forEach_preserves l hQ (hv s hs)
    · exact ih hl (hP x s hs)

/-- One vector's turn when what is pending is sent (R302). -/
def sendOne (p : Port) (v : Nat) (t : State) : State :=
  if (portOf t p).pba.getLsbD v && !masked (portOf t p) v then
    msix p v (onPort p (fun q => { q with pba := setBit q.pba v false }) t)
  else t

theorem sendPending_eq (p : Port) (s : State) : sendPending p s = forEach (List.range 257) (sendOne p) s := rfl

/-- The turn of a pending vector that nothing masks sends it and clears its bit. -/
theorem sendOne_due {p : Port} {v : Nat} {t : State} (hpath : isPath t p = true) (hpend : (portOf t p).pba.getLsbD v = true)
    (hmask : masked (portOf t p) v = false) : sendOne p v t =
      sent [.msix p v] (inc t.blf.cntMsix) (onPort p (fun q => { q with pba := setBit q.pba v false }) t) := by
  have hport := portOf_onPort_same p (fun q => { q with pba := setBit q.pba v false }) t
  have hcount : (onPort p (fun q => { q with pba := setBit q.pba v false }) t).blf = t.blf := by cases p <;> rfl
  rw [sendOne, if_pos (by rw [hpend, hmask]; rfl), msix_sent, hcount]
  · rw [isPath, hport]
    exact hpath
  · rw [hport]
    exact hmask

/-- Every other turn does nothing. -/
theorem sendOne_idle {p : Port} {v : Nat} {t : State} (h : ¬((portOf t p).pba.getLsbD v = true ∧ masked (portOf t p) v = false)) :
    sendOne p v t = t :=
  if_neg fun hdue => h (by simpa using hdue)

/-- Every turn leaves the port's state but for the bits of its PBA, which it only clears, and takes nothing back. -/
theorem sendOne_port {p : Port} {t : State} (v : Nat) (hpath : isPath t p = true) :
    { portOf (sendOne p v t) p with pba := 0 } = { portOf t p with pba := 0 } ∧
    (∀ j, j ≠ v → (portOf (sendOne p v t) p).pba.getLsbD j = (portOf t p).pba.getLsbD j) ∧
    (∀ j, (portOf t p).pba.getLsbD j = false → (portOf (sendOne p v t) p).pba.getLsbD j = false) ∧
    ∀ o ∈ t.out, o ∈ (sendOne p v t).out := by
  by_cases hdue : (portOf t p).pba.getLsbD v = true ∧ masked (portOf t p) v = false
  case neg =>
    rw [sendOne_idle hdue]
    exact ⟨rfl, fun _ _ => rfl, fun _ => id, fun _ => id⟩
  case pos =>
    rw [sendOne_due hpath hdue.1 hdue.2, portOf_sent, portOf_onPort_same]
    refine ⟨rfl, fun j hj => ?_, fun j hj => ?_, fun o ho => List.mem_append_left _ (by cases p <;> exact ho)⟩
    · simp only [getLsbD_setBit]
      exact if_neg fun h => hj h.2.symm
    · simp only [getLsbD_setBit]
      split
      · rfl
      · exact hj

/-- Vector v waits to be sent, and nothing holds it. -/
structure mayGo (p : Port) (v : Nat) (t : State) : Prop where
  path : isPath t p = true
  fn : (portOf t p).fnMask = false
  mask : (getAt (portOf t p).msix v 0).getLsbD 96 = false

theorem sendOne_mayGo {p : Port} {v : Nat} (w : Nat) {t : State} (h : mayGo p v t) : mayGo p v (sendOne p w t) := by
  obtain ⟨hpath, hfn, hmask⟩ := h
  obtain ⟨hport, -⟩ := sendOne_port w hpath
  have hfield {α : Type} (f : PortState → α) (hf : ∀ q, f { q with pba := 0 } = f q) : f (portOf (sendOne p w t) p) = f (portOf t p) := by
    rw [← hf, hport, hf]
  refine ⟨?_, (hfield PortState.fnMask fun _ => rfl).trans hfn, ?_⟩
  · exact (hfield (fun q => q.linkUp && q.d0 && q.bme && q.mse) fun _ => rfl).trans hpath
  · exact (congrArg (·.getLsbD 96) (hfield (fun q => getAt q.msix v 0) fun _ => rfl)).trans hmask

/-- Vector v has been sent. -/
structure gone (p : Port) (v : Nat) (t : State) : Prop extends mayGo p v t where
  pba : (portOf t p).pba.getLsbD v = false
  out : .msix p v ∈ t.out

theorem sendOne_gone {p : Port} {v : Nat} (w : Nat) {t : State} (h : gone p v t) : gone p v (sendOne p w t) := by
  obtain ⟨-, -, hclear, hout⟩ := sendOne_port w h.path
  exact ⟨sendOne_mayGo w h.tomayGo, hclear v h.pba, hout _ h.out⟩

/-- Its own turn sends a pending vector. -/
theorem sendOne_sends {p : Port} {v : Nat} {t : State} (h : mayGo p v t) (hp : (portOf t p).pba.getLsbD v = true) :
    gone p v (sendOne p v t) := by
  have hmask : masked (portOf t p) v = false := by rw [masked, h.fn, h.mask]; rfl
  have hsent := sendOne_due h.path hp hmask
  refine ⟨sendOne_mayGo v h, ?_, ?_⟩
  · rw [hsent, portOf_sent, portOf_onPort_same]
    exact getLsbD_setBit_false_self _ _
  · rw [hsent]
    exact List.mem_append_right _ (List.mem_singleton.mpr rfl)

/-- A pending vector that may go has gone once every vector has had its turn. -/
theorem sendPending_sends {p : Port} {v : Fin 257} {t : State} (h : mayGo p v t) (hp : (portOf t p).pba.getLsbD v = true) :
    gone p v (sendPending p t) := by
  rw [sendPending_eq]
  refine forEach_reaches (P := fun u => mayGo p v u ∧ (portOf u p).pba.getLsbD v = true ∨ gone p v u) (fun w u hu => ?_)
    (fun w u => sendOne_gone w) (fun u hu => ?_) (List.mem_range.mpr v.isLt) (.inl ⟨h, hp⟩)
  · rcases hu with ⟨hgo, hpend⟩ | hgone
    · by_cases hw : v.val = w
      · exact .inr (hw ▸ sendOne_sends hgo hpend)
      · obtain ⟨-, hother, -⟩ := sendOne_port w hgo.path
        exact .inl ⟨sendOne_mayGo w hgo, (hother v hw).trans hpend⟩
    · exact .inr (sendOne_gone w hgone)
  · rcases hu with ⟨hgo, hpend⟩ | hgone
    · exact sendOne_sends hgo hpend
    · exact sendOne_gone _ hgone

theorem exec_msixMaskWrite_set {p : Port} {v : Option (Fin 257)} {s : State} (hl : live s = true) :
    exec (.msixMaskWrite p v true) s = .next (setMask p v true s) := by
  change execMsixMaskWrite p v true s = _
  rw [execMsixMaskWrite, goLive_of_live _ hl]
  rfl

theorem exec_msixMaskWrite_clear {p : Port} {v : Option (Fin 257)} {s : State} (hl : live s = true) :
    exec (.msixMaskWrite p v false) s = .next (sendPending p (setMask p v false s)) := by
  change execMsixMaskWrite p v false s = _
  rw [execMsixMaskWrite, goLive_of_live _ hl]
  rfl

theorem portOf_setMask (p : Port) (v : Fin 257) (m : Bool) (s : State) :
    portOf (setMask p (some v) m s) p = { portOf s p with msix := updAt (portOf s p).msix v fun e => setBit e 96 m } :=
  portOf_onPort_same p _ s

theorem setMask_bit (v : Fin 257) (m : Bool) (w : Vector (BitVec 128) 257) : (updAt w v.val fun e => setBit e 96 m)[v].getLsbD 96 = m := by
  rw [getElem_updAt_same, getLsbD_setBit]
  exact if_pos ⟨by decide, rfl⟩

/-- Settles O16, by the messages of a group's delivery and by the turn that each pending vector gets. -/
theorem moderationDeliversTheGroupOnce : Obligations.ModerationDeliversTheGroupOnce := by
  refine ⟨fun g s at_ hl ho h => ?_, fun g s at_ hl ho h => ?_, fun p v s hl => ⟨?_, fun hpath hfn hpend => ?_⟩⟩
  · exact ⟨_, exec_holdoffExpiry_open hl ho, deliver_after _ h⟩
  · obtain ⟨hout, hgroup, htime, -⟩ := deliver_after (at_ + usTicks * s.host.groups[g].stale) h
    exact ⟨_, exec_staleExpiry_open hl ho, hout, hgroup, htime⟩
  · refine ⟨_, exec_msixMaskWrite_set hl, by cases p <;> rfl, ?_, ?_⟩
    · rw [portOf_setMask]
      exact setMask_bit v true _
    · rw [portOf_setMask]
  · have hport := portOf_setMask p v false s
    have hgo : mayGo p v (setMask p (some v) false s) := by
      refine ⟨?_, by rw [hport]; exact hfn, ?_⟩
      · rw [isPath, hport]
        exact hpath
      · rw [hport, getAt_fin]
        exact setMask_bit v false _
    obtain ⟨⟨-, -, hmask⟩, hpba, hout⟩ := sendPending_sends hgo (by rw [hport]; exact hpend)
    rw [getAt_fin] at hmask
    exact ⟨_, exec_msixMaskWrite_clear hl, hout, hpba, hmask⟩

end Sys2Proof.Machine
end

section
/-! PROOF. Rows that find no core running, or no command of theirs started (logs 1, 2, 28). -/

namespace Sys2Proof.Machine

set_option Elab.async false

/-- Every command that is not one of those that act while the part is held is taken by a live part only. -/
theorem exec_eq_goLive {c : Instr} (h : actsHeld c = false) : ∃ f, ∀ s, exec c s = goLive f s := by
  cases c with
  | powerOnReset | pwrGoodFall | sysResetNLow | startUp | startConfirm | watchdogExpiry | testEnHigh | strapChange | alarm | sealLfsrTick
  | presencePress | presenceWindowExpiry | wakeLatch | cartRemoved | cartInserted | shockNAssert | shockNClear | motFaultNAssert
  | timeBaseSwitch | holdoverReturn | lifetimeCheckpoint | health | lanternRead | powerStateExit | sourceRequest | claim | eoi
  | belfryMaskWrite | coreTimerExpiry | interCoreSignal | belfryCopyMismatch | coreHeartbeatMissed | hqItemWrite | hqItemRead | hqStaleTail
  | hqFlush | hqDrain | hqDrainDone => exact absurd h Bool.noConfusion
  | _ => exact ⟨_, fun _ => rfl⟩

section
variable {s : State} {tag : BitVec 16}

theorem adminRun_idle (h : ∀ op, startedCmd s 0 tag.toNat op = none) (op : Nat) (f : Cmd → State → State) : adminRun tag op f s = s := by
  rw [adminRun, h op]

theorem adminSub_idle (h : ∀ op, startedCmd s 0 tag.toNat op = none) (op sub : Nat) (f : Cmd → State → State) :
    adminSub tag op sub f s = s :=
  adminRun_idle h op _

/-- A row of a queue's command finds none of it started. -/
theorem rowOf_idle {q op : Nat} (h : ∀ op, startedCmd s q tag.toNat op = none) (f : Cmd → State → State) :
    goLive (fun s => match startedCmd s q tag.toNat op with | some c => f c s | none => s) s = .next s :=
  goLive_of_fixed (by rw [h op])

theorem startedRefresh_idle {q : Nat} (h : ∀ op, startedCmd s q tag.toNat op = none) (action : Nat) :
    startedRefresh s q tag.toNat action = none := by
  rw [startedRefresh, h]
  rfl

theorem exec_fence_idle {q : Fin 256} (h : ∀ op, startedCmd s q tag.toNat op = none) : exec (.fence q tag) s = .next s := by
  change execFence q tag s = _
  rw [execFence, goLive_of_fixed (by simp only [h])]

theorem exec_refresh_idle {q : Fin 256} (h : ∀ op, startedCmd s q tag.toNat op = none) :
    exec (.refreshFullRebuild q tag) s = .next s ∧ exec (.refreshLocateIndex q tag) s = .next s := by
  have hrefresh := startedRefresh_idle h
  change execRefreshFullRebuild q tag s = _ ∧ execRefreshLocateIndex q tag s = _
  rw [execRefreshFullRebuild, execRefreshLocateIndex, goLive_of_fixed (by simp only [hrefresh]), goLive_of_fixed (by simp only [hrefresh])]
  exact ⟨rfl, rfl⟩

end

/-- Settles O18: a part that is not live takes none of these rows, and a row whose command is not started finds none to act on. -/
theorem rowsOutOfPlaceChangeNothing : Obligations.RowsOutOfPlaceChangeNothing := by
  refine ⟨fun c s hl hc => ?_, fun s tag h => ?_, fun s tag data ok h => ?_, fun s q tag h hcmd => ?_⟩
  · obtain ⟨f, hf⟩ := exec_eq_goLive hc
    rw [hf, goLive, if_neg (by simp [hl])]
  · have hrun := adminRun_idle h
    have hsub := adminSub_idle h
    simp only [List.forall_mem_cons]
    exact ⟨goLive_of_fixed (hrun _ _), goLive_of_fixed (hrun _ _), goLive_of_fixed (hrun _ _), goLive_of_fixed (hrun _ _),
      goLive_of_fixed (hsub _ _ _), goLive_of_fixed (hsub _ _ _), goLive_of_fixed (hsub _ _ _), goLive_of_fixed (hsub _ _ _),
      goLive_of_fixed (hsub _ _ _), goLive_of_fixed (hrun _ _), goLive_of_fixed (hrun _ _), goLive_of_fixed (hrun _ _),
      goLive_of_fixed (hrun _ _), goLive_of_fixed (hrun _ _), goLive_of_fixed (hrun _ _), goLive_of_fixed (hsub _ _ _),
      goLive_of_fixed (hsub _ _ _), goLive_of_fixed (hsub _ _ _), goLive_of_fixed (hsub _ _ _), goLive_of_fixed (hsub _ _ _),
      goLive_of_fixed (hrun _ _), fun _ hnil => absurd hnil List.not_mem_nil⟩
  · have hrun := adminRun_idle h
    have hsub := adminSub_idle h
    simp only [List.forall_mem_cons]
    exact ⟨goLive_of_fixed (hsub _ _ _), goLive_of_fixed (hrun _ _), goLive_of_fixed (hrun _ _), goLive_of_fixed (hrun _ _),
      goLive_of_fixed (hsub _ _ _), goLive_of_fixed (hrun _ _), fun _ hnil => absurd hnil List.not_mem_nil⟩
  · obtain ⟨hrebuild, hlocate⟩ := exec_refresh_idle h
    simp only [List.forall_mem_cons]
    exact ⟨rowOf_idle h _, rowOf_idle h _, rowOf_idle h _, rowOf_idle h _, rowOf_idle h _, exec_fence_idle h, rowOf_idle h _,
      hrebuild, hlocate, rowOf_idle h _, rowOf_idle h _, rowOf_idle h _,
      rowOf_idle h _, rowOf_idle h _, fun _ hnil => absurd hnil List.not_mem_nil⟩

end Sys2Proof.Machine
end

section
/-! PROOF. The resets of the part (R351, R356, R434, R435). -/

namespace Sys2Proof.Machine

set_option Elab.async false

/-! ## What stands through a part reset -/

/-- The fields that a part reset leaves, or counts on from. -/
def resetKept : List Field :=
  [.bootBootCount, .bootPreferred, .bootFails, .bootSlotA, .bootSlotB, .bootEpoch, .bootMinVersion, .bootSerial, .bootFlash, .hostFloor,
   .keepLoadSeq, .blfLatched, .blfWakeEn, .trustPress, .trustSealOk, .trustTableKey, .trustSigners, .trustLifetime, .powerRails,
   .powerLifeMram, .eccDead0, .eccDead1, .stpThetaCal, .tilesSavedTaps]

/-- Two states agree in what a part reset leaves. -/
def resetsAlike (s u : State) : Prop := ∀ f ∈ resetKept, f.same s u

theorem Field.same.trans {f : Field} {s t u : State} (h : f.same s t) (k : f.same t u) : f.same s u := by
  cases f <;> exact Eq.trans k h

theorem resetsAlike.refl (s : State) : resetsAlike s s := by
  intro f _
  cases f <;> exact rfl

theorem resetsAlike.trans {s t u : State} (h : resetsAlike s t) (k : resetsAlike t u) : resetsAlike s u :=
  fun f hf => Field.same.trans (h f hf) (k f hf)

/-- Where none of the fields of a list is among them, they agree. -/
theorem changesOnly.resetsAlike {l : List Field} {s t : State} (h : changesOnly l s t) (hl : ∀ f ∈ resetKept, f ∉ l) : resetsAlike s t :=
  fun f hf => h.2 f (hl f hf)

/-- The wake latches of Belfry and their enables lie in AON (R331). -/
theorem afterPartReset_latches (s : State) : (afterPartReset s).blf.coreOk = 0xF ∧ (afterPartReset s).blf.latched = s.blf.latched ∧
    (afterPartReset s).blf.wakeEn = s.blf.wakeEn := by
  have hblf : (afterPartReset s).blf = latchedBelfry s.blf := rfl
  rw [hblf]
  unfold latchedBelfry
  exact ⟨rfl, rfl, rfl⟩

theorem partResetOf_afterPartReset {s u : State} (h : resetsAlike s u) : partResetOf s (afterPartReset u) := by
  obtain ⟨hcores, hlatched, hwake⟩ := afterPartReset_latches u
  have hcount : u.boot.bootCount = s.boot.bootCount := h .bootBootCount (by decide)
  have hfloor : u.host.floor = s.host.floor := h .hostFloor (by decide)
  have hload : u.keep.loadSeq = s.keep.loadSeq := h .keepLoadSeq (by decide)
  refine ⟨rfl, congrArg (fun n => (n + 1) % 2 ^ 32) hcount, rfl, rfl, rfl, rfl, rfl, rfl, rfl,
    congrArg (fun f => { ({} : HostIf) with floor := f }) hfloor, congrArg (fun n => { ({} : Keep) with loadSeq := n }) hload,
    rfl, rfl, rfl, rfl, rfl, rfl, rfl, rfl, rfl, rfl, hcores, hlatched.trans (h .blfLatched (by decide)), hwake.trans (h .blfWakeEn (by decide)), ?_⟩
  exact ⟨h .trustPress (by decide), h .trustSealOk (by decide), h .powerRails (by decide), h .powerLifeMram (by decide),
    h .bootPreferred (by decide), h .bootFails (by decide), h .bootSlotA (by decide), h .bootSlotB (by decide), h .bootEpoch (by decide),
    h .bootMinVersion (by decide), h .bootSerial (by decide), h .bootFlash (by decide), h .trustTableKey (by decide),
    h .trustSigners (by decide), h .trustLifetime (by decide), h .eccDead0 (by decide), h .eccDead1 (by decide), h .stpThetaCal (by decide),
    h .tilesSavedTaps (by decide)⟩

/-- A part reset of any cause: the record and the stop of the tokens leave what the reset leaves. -/
theorem partResetOf_partReset (cause : Nat) {s u : State} (h : resetsAlike s u) : partResetOf s (partReset cause u) := by
  have hout : ∀ f ∈ resetKept, f ∉ inhibitFields := by decide
  have hrecord : changesOnly inhibitFields u (lantern 0x0002 [BitVec.ofNat 8 cause] u) :=
    (lantern_kept _ _ (or_fieldMask rfl) (Kept.refl (fieldMask inhibitFields) u)).changesOnly
  exact partResetOf_afterPartReset ((h.trans (hrecord.resetsAlike hout)).trans ((stopTokens_changesOnly _).resetsAlike hout))

/-! ## SYS_RESET_N, TEST_EN and the watchdog (R351, R356, R434, R435) -/

section
variable {cause ns : Nat} {s : State}

theorem fallReset_resets (u : State) (h : u.boot.phase ≠ .held ∨ u.power.pstate = 4) : fallReset cause u = partReset cause u :=
  if_neg (by tauto)

theorem fallReset_held (u : State) (hp : u.boot.phase = .held) (h4 : u.power.pstate ≠ 4) : fallReset cause u = u := if_pos ⟨hp, h4⟩

theorem pulse_long (h : 1000 ≤ ns) : afterPulse ns s = s ∧ pulseTaken s ns = true := by
  refine ⟨if_neg (by omega), ?_⟩
  rw [pulseTaken, decide_eq_true h, Bool.true_or]

theorem pulse_short (h : ns ≤ 100) : afterPulse ns s = s ∧ pulseTaken s ns = false := by
  refine ⟨if_neg (by omega), ?_⟩
  rw [pulseTaken, decide_eq_false (by omega), decide_eq_false (by omega)]
  rfl

theorem pulse_between (h : 100 < ns) (h' : ns < 1000) : afterPulse ns s = draw s ∧ pulseTaken s ns = Config.choice s.fresh := by
  refine ⟨if_pos ⟨h, h'⟩, ?_⟩
  rw [pulseTaken, decide_eq_false (by omega), decide_eq_true h]
  rfl

theorem exec_sysResetNLow (ns : Nat) (s : State) : exec (.sysResetNLow ns) s =
    .next (if pulseTaken s ns then fallReset 0 (afterPulse ns s) else afterPulse ns s) := rfl

theorem exec_sysResetNLow_long (h : 1000 ≤ ns) : exec (.sysResetNLow ns) s = .next (fallReset 0 s) := by
  obtain ⟨hafter, htaken⟩ := pulse_long (s := s) h
  rw [exec_sysResetNLow, htaken, hafter]
  rfl

theorem exec_sysResetNLow_short (h : ns ≤ 100) : exec (.sysResetNLow ns) s = .next s := by
  obtain ⟨hafter, htaken⟩ := pulse_short (s := s) h
  rw [exec_sysResetNLow, htaken, hafter]
  rfl

theorem draw_changesOnly (s : State) : changesOnly [.fresh] s (draw s) :=
  (draw_kept (or_fieldMask rfl) (Kept.refl (fieldMask [.fresh]) s)).changesOnly

/-- A pulse between the two lengths makes the reset or uses up its choice, whatever the choice is. -/
theorem exec_sysResetNLow_between (h : 100 < ns) (h' : ns < 1000) :
    ∃ t, exec (.sysResetNLow ns) s = .next t ∧ (partResetOf s t ∨ changesOnly [.fresh] s t) := by
  obtain ⟨hafter, htaken⟩ := pulse_between (s := s) h h'
  rw [exec_sysResetNLow, htaken, hafter]
  refine ⟨_, rfl, ?_⟩
  split
  · by_cases hheld : s.boot.phase = .held ∧ s.power.pstate ≠ 4
    · rw [fallReset_held (draw s) hheld.1 hheld.2]
      exact .inr (draw_changesOnly s)
    · rw [fallReset_resets (draw s) (by simpa [draw, or_iff_not_imp_left] using hheld)]
      exact .inl (partResetOf_partReset 0 ((draw_changesOnly s).resetsAlike (by decide)))
  · exact .inr (draw_changesOnly s)

theorem exec_watchdogExpiry_due {due : Nat} (h : s.boot.watchdog = some (due, cause)) :
    exec .watchdogExpiry s = .next (partReset cause (advanceTo due s)) := by
  change execWatchdogExpiry s = _
  rw [execWatchdogExpiry, go, h]

theorem exec_watchdogExpiry_none (h : s.boot.watchdog = none) : exec .watchdogExpiry s = .next s := by
  change execWatchdogExpiry s = _
  rw [execWatchdogExpiry, go, h]

theorem exec_testEnHigh (s : State) : exec .testEnHigh s = .next ((fallReset 0 s).onPins fun p => { p with testEn := true }) := rfl

end

/-! ## PWR_GOOD (R112, R351) -/

/-- The tokens stopped and the record made, before the part reset. -/
def powerLost (s : State) : State := lantern 0x0080 (openNs s) (if live s then inhibitOn .power s else s)

theorem powerLost_changesOnly (s : State) : changesOnly inhibitFields s (powerLost s) := by
  refine (lantern_kept _ _ (or_fieldMask rfl) ?_ : Kept (fieldMask inhibitFields) s _).changesOnly
  split
  · exact inhibitOn_kept _ (or_fieldMask rfl) (Kept.refl _ s)
  · exact Kept.refl _ s

theorem exec_pwrGoodFall (ns : Nat) (s : State) : exec (.pwrGoodFall ns) s =
    .next (if s.power.pstate = 4 then s else if pulseTaken s ns then fallReset 1 (powerLost (afterPulse ns s)) else afterPulse ns s) := rfl

theorem exec_pwrGoodFall_long {ns : Nat} {s : State} (h : 1000 ≤ ns) (h4 : s.power.pstate ≠ 4) :
    exec (.pwrGoodFall ns) s = .next (fallReset 1 (powerLost s)) := by
  obtain ⟨hafter, htaken⟩ := pulse_long (s := s) h
  rw [exec_pwrGoodFall, if_neg h4, htaken, hafter]
  rfl

theorem exec_pwrGoodFall_ignored {ns : Nat} {s : State} (h : ns ≤ 100 ∨ s.power.pstate = 4) : exec (.pwrGoodFall ns) s = .next s := by
  rw [exec_pwrGoodFall]
  by_cases h4 : s.power.pstate = 4
  · rw [if_pos h4]
  · obtain ⟨hafter, htaken⟩ := pulse_short (s := s) (h.resolve_right h4)
    rw [if_neg h4, htaken, hafter]
    rfl

theorem powerLost_boot {s : State} : (powerLost s).boot.phase = s.boot.phase ∧ (powerLost s).power.pstate = s.power.pstate :=
  ⟨(powerLost_changesOnly s).2 .bootPhase (by decide), (powerLost_changesOnly s).2 .powerPstate (by decide)⟩

theorem powerLost_held {s : State} (h : s.boot.phase = .held) : powerLost s = lantern 0x0080 (openNs s) s := by
  have hl : live s = false := by rw [live, h]
  rw [powerLost, if_neg (by simp [hl])]

theorem BootAgree.eq_of_outside {m : Nat} {a b : Boot} (h : BootAgree m a b) (hm : (m >>> 11) % 2 ^ 27 = 0) : b = a := by
  have hclear : ∀ i, 11 ≤ i → i < 38 → m.testBit i = false := fun i hlo hhi => testBit_of_clear hm hlo hhi
  cases h
  cases a
  cases b
  simp_all

/-- Settles O9: what a part reset leaves, once for every way to it; each input then either makes that reset or changes nothing of it. -/
theorem resetsLeaveWhatTheirDomainKeeps : Obligations.ResetsLeaveWhatTheirDomainKeeps := by
  refine ⟨⟨fun ns s hns h => ?_, fun ns s hns hp h4 => ?_, fun ns s => exec_sysResetNLow_short, fun ns s => exec_sysResetNLow_between,
    fun s due cause h => ?_, fun s => exec_watchdogExpiry_none, fun s h => ?_, fun s hp h4 => ?_⟩,
    fun ns s hns h4 hp => ?_, fun ns s hns h4 hp => ?_, fun ns s => exec_pwrGoodFall_ignored, fun s => ?_⟩
  · exact ⟨_, exec_sysResetNLow_long hns, by rw [fallReset_resets s h]; exact partResetOf_partReset 0 (.refl s),
      by rw [fallReset_resets s h, partReset_time]⟩
  · rw [exec_sysResetNLow_long hns, fallReset_held s hp h4]
  · have hadvance : resetsAlike s (advanceTo due s) :=
      (advanceTo_kept due (or_fieldMask rfl) (Kept.refl (fieldMask [.powerTime]) s)).changesOnly.resetsAlike (by decide)
    exact ⟨_, exec_watchdogExpiry_due h, partResetOf_partReset cause hadvance, by rw [partReset_time, advanceTo_time]⟩
  · refine ⟨_, exec_testEnHigh s, ?_, rfl⟩
    rw [fallReset_resets s h]
    exact partResetOf_partReset 0 (.refl s)
  · rw [exec_testEnHigh, fallReset_held s hp h4]
    rfl
  · refine ⟨_, exec_pwrGoodFall_long hns h4, ?_⟩
    obtain ⟨hphase, -⟩ := powerLost_boot (s := s)
    rw [fallReset_resets _ (.inl (hphase ▸ hp))]
    exact partResetOf_partReset 1 ((powerLost_changesOnly s).resetsAlike (by decide))
  · obtain ⟨hphase, hstate⟩ := powerLost_boot (s := s)
    refine ⟨_, exec_pwrGoodFall_long hns h4, ?_⟩
    rw [fallReset_held _ (hphase.trans hp) (hstate ▸ h4), powerLost_held hp]
    have hrecord := lantern_kept 0x0080 (openNs s) (Nat.or_self _) (Kept.refl _ s)
    exact ⟨hrecord.boot.eq_of_outside rfl, hrecord.same .hostCmds rfl, madeRecord_lantern (by decide) _ s⟩
  · exact ⟨_, rfl, rfl, rfl, rfl, rfl, rfl, rfl, rfl, rfl, rfl, rfl, rfl, rfl, rfl, rfl, rfl, rfl, rfl⟩

end Sys2Proof.Machine
end

section
/-! PROOF. Privileged operations, the presence window, the permit and the SMBus (R360, R361, R364, R368, R370, R386, R387). -/

namespace Sys2Proof.Machine

set_option Elab.async false

/-! ## PRESENCE_OP -/

section
variable {s : State} {tag : BitVec 16} {c : Cmd}

/-- What an operation does for the command in hand is the row's outcome. -/
theorem goLive_adminSub {op sub : Nat} (f : Cmd → State → State) (h : inHand s 0 tag.toNat op c) (hsub : specField c.entry 48 1 = sub) :
    goLive (adminSub tag op sub f) s = .next (f c s) := by
  rw [goLive_of_live _ h.1, adminSub_of_inHand f h hsub]

theorem privileged_refused (f : Cmd → State → State) (h : inHand s 0 tag.toNat opPresence c) (hp : presenceOk s = false) :
    privileged f c s = reply 0 tag.toNat 0x0500 0 s := by
  obtain ⟨hqid, htag⟩ := qid_tag_of_inHand h
  rw [privileged, hp, adminDone, hqid, htag]
  rfl

theorem privileged_done (f : Cmd → State → State) (hp : presenceOk s = true) : privileged f c s = f c s := if_pos hp

theorem adminDone_inHand {op : Nat} (st res : Nat) (u : State) (h : inHand s 0 tag.toNat op c) :
    adminDone c st res u = reply 0 tag.toNat st res u := by
  obtain ⟨hqid, htag⟩ := qid_tag_of_inHand h
  rw [adminDone, hqid, htag]

/-- Without presence each of the operations ends with 0x0500. -/
theorem presenceOp_refused (block : Bytes) (h : inHand s 0 tag.toNat opPresence c) (hp : presenceOk s = false) :
    (specField c.entry 48 1 = 1 → s.boot.straps.getLsbD 1 = true → answers (.debugUnlock tag) s 0 tag.toNat 0x0500 0 s) ∧
    (specField c.entry 48 1 = 2 → answers (.lanternClear tag) s 0 tag.toNat 0x0500 0 s) ∧
    (specField c.entry 48 1 = 3 → answers (.registerIntegratorKeys tag block) s 0 tag.toNat 0x0500 0 s) ∧
    (specField c.entry 48 1 = 4 → answers (.zeroizeAllKeys tag) s 0 tag.toNat 0x0500 0 s) ∧
    (specField c.entry 48 1 = 5 → answers (.armDowngradePermit tag) s 0 tag.toNat 0x0500 0 s) ∧
    (specField c.entry 48 1 = 6 → answers (.resetFailedStartCounter tag) s 0 tag.toNat 0x0500 0 s) := by
  have hrefused (f : Cmd → State → State) (sub : Nat) (hsub : specField c.entry 48 1 = sub) :
      goLive (adminSub tag opPresence sub (privileged f)) s = .next (reply 0 tag.toNat 0x0500 0 s) := by
    rw [goLive_adminSub _ h hsub, privileged_refused f h hp]
  refine ⟨fun hsub hstrap => ?_, hrefused _ 2, hrefused _ 3, hrefused _ 4, hrefused _ 5, hrefused _ 6⟩
  refine (goLive_adminSub _ h hsub).trans (congrArg _ ?_)
  rw [unlockDebug, hstrap]
  exact (if_neg (by decide)).trans (privileged_refused _ h hp)

theorem debugUnlock_strapped (h : inHand s 0 tag.toNat opPresence c) (hsub : specField c.entry 48 1 = 1)
    (hstrap : s.boot.straps.getLsbD 1 = false) : answers (.debugUnlock tag) s 0 tag.toNat 0x0101 0 s := by
  refine (goLive_adminSub _ h hsub).trans (congrArg _ ?_)
  rw [unlockDebug, hstrap, ← adminDone_inHand 0x0101 0 s h]
  rfl

end

/-- The keys erased, the unlock noted, writing inhibited and record 0x0061 made (R370). -/
def unlocked (s : State) : State :=
  emit .jtagOpen (lantern 0x0061 (le 1 1) (inhibitOn .alarm ((eraseKeys s).onTrust fun t => { t with debug := true })))

theorem unlocked_marks (s : State) : (unlocked s).trust.debug = true ∧ (unlocked s).keep.transport = none ∧ (unlocked s).keep.ctxKek = none ∧
    (unlocked s).cupola.nonce = 0 ∧ (unlocked s).cupola.ctxs = [] ∧ .jtagOpen ∈ (unlocked s).out ∧
    (unlocked s).pins.alarmAsserted = s.pins.alarmAsserted := by
  have hrest := lantern_kept 0x0061 (le 1 1) (or_fieldMask rfl)
    (inhibitOn_kept .alarm (or_fieldMask rfl) (Kept.refl (fieldMask inhibitFields) ((eraseKeys s).onTrust fun t => { t with debug := true })))
  have hchanged := hrest.changesOnly.2
  have herase : (eraseKeys s).pins.alarmAsserted = s.pins.alarmAsserted := (eraseKeys_kept (Nat.or_self _) (Kept.refl _ s)).same .pinsAlarmAsserted rfl
  have hpins : (unlocked s).pins.alarmAsserted = (eraseKeys s).pins.alarmAsserted := hchanged .pinsAlarmAsserted (by decide)
  exact ⟨hchanged .trustDebug (by decide), hchanged .keepTransport (by decide), hchanged .keepCtxKek (by decide),
    hchanged .cupolaNonce (by decide), hchanged .cupolaCtxs (by decide), List.mem_append_right _ (List.mem_singleton.mpr rfl),
    hpins.trans herase⟩

/-- Both regions of Lantern erased. -/
def lanternErased (s : State) : State := s.onLantern fun l => { l with pinnedRecs := [], ring := [], pinFull := false, fired := false }

/-- The first record after a clear is the only one (R387). -/
theorem lantern_onErased (s : State) (ha : s.lantern.armed = false) (hp : s.lantern.postLeft = 0) :
    ∃ r, (lantern 0x0090 (le 4 s.lantern.rseq) (lanternErased s)).lantern.ring = [r] ∧ r.code = 0x0090 ∧
      r.data = fit 36 (le 4 s.lantern.rseq) ∧ (lantern 0x0090 (le 4 s.lantern.rseq) (lanternErased s)).lantern.pinnedRecs.length = 1 ∧
      (lantern 0x0090 (le 4 s.lantern.rseq) (lanternErased s)).lantern.pinFull = false ∧
      (lantern 0x0090 (le 4 s.lantern.rseq) (lanternErased s)).lantern.fired = false := by
  have hwrite : lantern 0x0090 (le 4 s.lantern.rseq) (lanternErased s) = lanEvent 0x0090 3 (le 4 s.lantern.rseq)
      ((lanternErased s).onLantern fun l => { lanPut (lanRec (lanternErased s) 0x0090 3 0 (le 4 s.lantern.rseq)) false l with postLeft := l.postLeft - 1 }) := by
    have hcls : lantern 0x0090 (le 4 s.lantern.rseq) (lanternErased s) = lanWrite 0x0090 3 0 (le 4 s.lantern.rseq) (lanternErased s) := rfl
    have hhit : ((lanternErased s).lantern.armed && decide ((lanternErased s).lantern.trigCode = 0x0090)) = false := by
      rw [show (lanternErased s).lantern.armed = s.lantern.armed from rfl, ha, Bool.false_and]
    have hpost : decide (0 < (lanternErased s).lantern.postLeft) = false := by
      rw [show (lanternErased s).lantern.postLeft = s.lantern.postLeft from rfl, hp]
      rfl
    rw [hcls, lanWrite]
    simp only [hhit, hpost, Bool.or_false, Bool.false_eq_true, if_false]
  have hevent := lanEvent_kept 0x0090 3 (le 4 s.lantern.rseq) (Nat.or_self _) (Kept.refl _ ((lanternErased s).onLantern fun l =>
    { lanPut (lanRec (lanternErased s) 0x0090 3 0 (le 4 s.lantern.rseq)) false l with postLeft := l.postLeft - 1 }))
  rw [hwrite]
  refine ⟨_, hevent.same .lanternRing rfl, rfl, rfl, ?_, hevent.same .lanternPinFull rfl, hevent.same .lanternFired rfl⟩
  exact congrArg List.length (hevent.same .lanternPinnedRecs rfl)

/-- The keys of a good block, with every table out of force (R364). -/
def keysRegistered (b : Bytes) (s : State) : State := s.onTrust fun t => { t with
  tableKey := some (slice b 16 32, slice b 48 1952), signers := (List.range (field b 5 1)).map (blockSigner b),
  tables := Vector.replicate 5 none, steepleNext := none, headNext := none, subsystem := (0xF7D5, 0x1024) }

theorem keysRegistered_changesOnly (b : Bytes) (s : State) :
    changesOnly [.trustTableKey, .trustSigners, .trustTables, .trustSteepleNext, .trustHeadNext, .trustSubsystem] s (keysRegistered b s) := by
  refine (onTrust_kept _ (fun x => ?_) (Kept.refl
    (fieldMask [.trustTableKey, .trustSigners, .trustTables, .trustSteepleNext, .trustHeadNext, .trustSubsystem]) s)).changesOnly
  exact { TrustAgree.refl _ x with
    tableKey := .inl (testBit_fieldMask rfl), signers := .inl (testBit_fieldMask rfl), tables := .inl (testBit_fieldMask rfl),
    steepleNext := .inl (testBit_fieldMask rfl), headNext := .inl (testBit_fieldMask rfl), subsystem := .inl (testBit_fieldMask rfl) }

/-- Every slot and the transport keys zeroized, new transport keys drawn and record 0x0061 made (Table 12-8). -/
def allZeroized (s : State) : State := lantern 0x0061 (le 1 4) (redrawTransport (eraseSlots s))

theorem slotEmpty_allZeroized (s : State) (i : Nat) (hi : i < 64) : slotEmpty (allZeroized s) i := by
  have hdraw : (redrawTransport (eraseSlots s)).keep.slots = (eraseSlots s).keep.slots :=
    (redrawTransport_kept (Nat.or_self _) (Kept.refl _ _)).same .keepSlots rfl
  have hrecord : (allZeroized s).keep.slots = (redrawTransport (eraseSlots s)).keep.slots :=
    (lantern_kept _ _ (Nat.or_self _) (Kept.refl _ _)).same .keepSlots rfl
  exact slotEmpty_congr (hrecord.trans hdraw) (slotEmpty_eraseSlots s i hi)

/-- The permit armed until this tick. -/
def permitted (due : Nat) (s : State) : State := s.onTrust fun k => { k with permit := some due }

theorem permit_changesOnly (p : Option Nat) (s : State) : changesOnly [.trustPermit] s (s.onTrust fun k => { k with permit := p }) :=
  (onTrust_kept (fun k : Trust => { k with permit := p }) (fun x => { TrustAgree.refl _ x with permit := .inl (testBit_fieldMask rfl) }) (Kept.refl (fieldMask [.trustPermit]) s)).changesOnly

/-- The failed starts forgotten. -/
def failsCleared (s : State) : State := s.onBoot fun b => { b with fails := 0 }

theorem failsCleared_changesOnly (s : State) : changesOnly [.bootFails] s (failsCleared s) := by
  refine (onBoot_kept (fun b : Boot => { b with fails := 0 }) (fun _ => BootKept.of_eq rfl rfl rfl rfl rfl) (fun b => ?_)
    (Kept.refl (fieldMask [.bootFails]) s)).changesOnly
  exact { BootAgree.refl _ b with fails := .inl (testBit_fieldMask rfl) }

/-! ## The operations with presence -/

section
variable {s : State} {tag : BitVec 16} {c : Cmd}

/-- With presence an operation completes with 0 on the state it makes. -/
theorem goLive_privileged {sub : Nat} {f : Cmd → State → State} (u : State) (h : inHand s 0 tag.toNat opPresence c)
    (hp : presenceOk s = true) (hsub : specField c.entry 48 1 = sub) (hf : f c s = adminDone c 0 0 u) :
    goLive (adminSub tag opPresence sub (privileged f)) s = .next (reply 0 tag.toNat 0 0 u) := by
  rw [goLive_adminSub _ h hsub, privileged_done f hp, hf, adminDone_inHand 0 0 u h]

theorem debugUnlock_done (h : inHand s 0 tag.toNat opPresence c) (hp : presenceOk s = true) (hsub : specField c.entry 48 1 = 1)
    (hstrap : s.boot.straps.getLsbD 1 = true) : answers (.debugUnlock tag) s 0 tag.toNat 0 0 (unlocked s) := by
  refine (goLive_adminSub _ h hsub).trans (congrArg _ ?_)
  rw [unlockDebug, hstrap, ← adminDone_inHand 0 0 (unlocked s) h]
  exact (if_neg (by decide)).trans (privileged_done _ hp)

theorem lanternClear_done (h : inHand s 0 tag.toNat opPresence c) (hp : presenceOk s = true) (hsub : specField c.entry 48 1 = 2) :
    answers (.lanternClear tag) s 0 tag.toNat 0 0 (lantern 0x0090 (le 4 s.lantern.rseq) (lanternErased s)) :=
  goLive_privileged _ h hp hsub rfl

theorem registerKeys_done {block : Bytes} (h : inHand s 0 tag.toNat opPresence c) (hp : presenceOk s = true)
    (hsub : specField c.entry 48 1 = 3) (hb : keyBlockOk (fit 17872 block) = true) :
    answers (.registerIntegratorKeys tag block) s 0 tag.toNat 0 0 (keysRegistered (fit 17872 block) s) :=
  goLive_privileged _ h hp hsub (if_pos hb)

theorem registerKeys_bad {block : Bytes} (h : inHand s 0 tag.toNat opPresence c) (hp : presenceOk s = true)
    (hsub : specField c.entry 48 1 = 3) (hb : keyBlockOk (fit 17872 block) = false) :
    answers (.registerIntegratorKeys tag block) s 0 tag.toNat 0x0101 0 s := by
  refine (goLive_adminSub _ h hsub).trans (congrArg _ ?_)
  rw [privileged_done _ hp, ← adminDone_inHand 0x0101 0 s h]
  exact if_neg (by simp [hb])

theorem zeroizeAllKeys_done (h : inHand s 0 tag.toNat opPresence c) (hp : presenceOk s = true) (hsub : specField c.entry 48 1 = 4) :
    answers (.zeroizeAllKeys tag) s 0 tag.toNat 0 0 (allZeroized s) := goLive_privileged _ h hp hsub rfl

theorem armPermit_done (h : inHand s 0 tag.toNat opPresence c) (hp : presenceOk s = true) (hsub : specField c.entry 48 1 = 5) :
    answers (.armDowngradePermit tag) s 0 tag.toNat 0 0 (permitted (s.power.time + permitTicks) s) := goLive_privileged _ h hp hsub rfl

theorem resetFailedStarts_done (h : inHand s 0 tag.toNat opPresence c) (hp : presenceOk s = true) (hsub : specField c.entry 48 1 = 6) :
    answers (.resetFailedStartCounter tag) s 0 tag.toNat 0 0 (failsCleared s) := goLive_privileged _ h hp hsub rfl

end

/-! ## The window, the permit and the SMBus -/

section
variable {s : State} {a : Nat}

/-- The press noted, and whether the seal was open then. -/
def pressed (s : State) : State := s.onTrust fun t => { t with press := some s.power.time, sealBroken := !t.sealOk }

theorem presencePress_opens (s : State) : ∃ t, exec .presencePress s = .next t ∧ t.trust.press = some s.power.time ∧
    t.trust.sealBroken = !s.trust.sealOk ∧ t.blf.latched.getLsbD 0 = true ∧
    changesOnly ([.trustPress, .trustSealBroken, .blfLatched] ++ requestFields) s t := by
  have hlatch := latch_onlyBelfry 0 (pressed s)
  refine ⟨latch 0 (pressed s), rfl, hlatch.same (fun u => u.trust.press) rfl, hlatch.same (fun u => u.trust.sealBroken) rfl, ?_, ?_⟩
  · rw [latch_latched, getLsbD_setBit_true]
    simp
  · exact (changesOnly_of_exec (c := .presencePress) (t := latch 0 (pressed s)) rfl).narrow fun f hf hout =>
      absurd (List.mem_append.mpr (List.mem_append.mp hf).symm) hout

theorem exec_presenceWindowExpiry_open (h : s.trust.press = some a) : exec .presenceWindowExpiry s =
    .next ((advanceTo (a + 120000 * msTicks) s).onTrust fun k => { k with press := none }) := by
  change execPresenceWindowExpiry s = _
  rw [execPresenceWindowExpiry, go, h]

theorem exec_downgradePermitExpiry_armed (hl : live s = true) (h : s.trust.permit = some a) : exec .downgradePermitExpiry s =
    .next ((advanceTo a s).onTrust fun k => { k with permit := none }) := by
  change execDowngradePermitExpiry s = _
  rw [execDowngradePermitExpiry, goLive_of_live _ hl]
  simp only [h]

theorem exec_clearFails (hl : live s = true) : exec .clearFails s = .next (if presenceOk s then failsCleared s else s) := goLive_of_live _ hl

theorem length_healthBytes (s : State) : (healthBytes s).length = 16 := by
  simp [healthBytes, zeros]

end

/-- Settles O25: each operation by what it makes of the state, with presence and without. -/
theorem presenceOpensAndGates : Obligations.PresenceOpensAndGates := by
  refine ⟨⟨fun s tag block c h hp => presenceOp_refused block h hp, fun s tag c h hsub hstrap => debugUnlock_strapped h hsub hstrap,
    fun s tag block c h hp => ⟨fun hsub hstrap => ⟨_, debugUnlock_done h hp hsub hstrap, unlocked_marks s⟩, fun hsub ha hpost => ?_,
      fun hsub hb => ?_, fun hsub hb => registerKeys_bad h hp hsub hb, fun hsub => ?_, fun hsub => ?_, fun hsub => ?_⟩⟩,
    presencePress_opens, fun s a h => ?_, fun s a hl h => ?_, fun s hl hp => ?_, fun s hl hp => ?_, fun s => ?_, fun s n => ?_⟩
  · obtain ⟨r, hr⟩ := lantern_onErased s ha hpost
    exact ⟨_, r, lanternClear_done h hp hsub, hr⟩
  · refine ⟨_, registerKeys_done h hp hsub hb, rfl, rfl, ?_, keysRegistered_changesOnly _ s⟩
    exact (List.length_map _).trans List.length_range
  · exact ⟨_, zeroizeAllKeys_done h hp hsub, slotEmpty_allZeroized s⟩
  · exact ⟨_, armPermit_done h hp hsub, rfl, permit_changesOnly _ s⟩
  · exact ⟨_, resetFailedStarts_done h hp hsub, rfl, failsCleared_changesOnly s⟩
  · exact ⟨_, exec_presenceWindowExpiry_open h, rfl, rfl, changesOnly_of_exec (exec_presenceWindowExpiry_open h)⟩
  · exact ⟨_, exec_downgradePermitExpiry_armed hl h, rfl, rfl, changesOnly_of_exec (exec_downgradePermitExpiry_armed hl h)⟩
  · rw [exec_clearFails hl, hp]
    exact ⟨_, rfl, rfl, failsCleared_changesOnly s⟩
  · rw [exec_clearFails hl, hp]
    rfl
  · exact ⟨_, _, rfl, rfl, length_healthBytes s, emit_changesOnly _ s⟩
  · exact ⟨_, _, rfl, rfl, emit_changesOnly _ s⟩

end Sys2Proof.Machine
end

section
/-! PROOF. The activation switch (R296, R357, R360, R379, R389, R390). -/

namespace Sys2Proof.Machine

set_option Elab.async false

/-! ## The hold released (R296, R297) -/

/-- An activation that a function reset meets stays, though nothing waits for it any more. -/
def unawaited (a : Option (Nat × Option (BitVec 16))) : Option (Nat × Option (BitVec 16)) := a.map fun x => (x.1, none)

theorem functionReset_activation (p : Port) (s : State) : (functionReset p s).boot.activation = s.boot.activation ∨
    (functionReset p s).boot.activation = unawaited s.boot.activation := by
  unfold functionReset
  split
  · exact .inl rfl
  · extract_lets s1 qs fw s2 s3
    have hdropped : s1.boot.activation = s.boot.activation := (dropReads_kept (Nat.or_self _) (Kept.refl _ s)).same .bootActivation rfl
    have hreplied : s2.boot.activation = s1.boot.activation :=
      (forEach_kept fw _ (fun c _ => reply_kept 0 c.tag 0x0211 0 rfl) (Kept.refl (allBut .bootActivation) s1)).same .bootActivation rfl
    have haborted : (tidy (forEach qs (fun q t => abortQueue q 0x0211 (repath q t)) s3)).boot.activation = s3.boot.activation :=
      (tidy_kept rfl (forEach_kept qs _ (fun q _ h => abortQueue_kept q 0x0211 rfl (repath_kept q rfl h))
        (Kept.refl (allBut .bootActivation) s3))).same .bootActivation rfl
    refine .inr (haborted.trans ?_)
    rw [show s3.boot.activation = unawaited s2.boot.activation from rfl, hreplied, hdropped]

/-- The hold released, with no function reset behind it. -/
def released (s : State) : State :=
  kickWrites false (restartIfAsked true (s.onHost fun h => { h with holdForSwitch := false, resetAfterSwitch := none }))

theorem released_rest (s : State) : (released s).boot = s.boot ∧ (released s).keep = s.keep ∧ (released s).cupola = s.cupola ∧
    (released s).host.holdForSwitch = false := by
  have h := kickWrites_kept false (Nat.or_self _)
    (restartIfAsked_kept true rfl (Kept.refl _ (s.onHost fun h => { h with holdForSwitch := false, resetAfterSwitch := none })))
  exact ⟨h.boot.eq_of_outside rfl, h.keep.eq_of_outside (by decide), h.cupola.eq_of_outside rfl, h.same .hostHoldForSwitch rfl⟩

theorem releaseHold_eq (s : State) : releaseHold s = match s.host.resetAfterSwitch with
    | some p => functionReset p (released s)
    | none => released s := rfl

theorem releaseHold_alone {s : State} (h : s.host.resetAfterSwitch = none) : releaseHold s = released s := by
  rw [releaseHold_eq, h]

/-- Whether or not a function reset follows, the release touches no more of the boot state than who waits for the activation. -/
theorem releaseHold_boot (s : State) : ((releaseHold s).boot.activation = s.boot.activation ∨
      (releaseHold s).boot.activation = unawaited s.boot.activation) ∧
    (releaseHold s).boot.slot = s.boot.slot ∧ (releaseHold s).boot.stagedOk = s.boot.stagedOk ∧
    (releaseHold s).boot.preferred = s.boot.preferred ∧ (releaseHold s).boot.fails = s.boot.fails ∧
    (releaseHold s).host.holdForSwitch = false := by
  obtain ⟨hboot, -, -, hhold⟩ := released_rest s
  rw [releaseHold_eq]
  cases s.host.resetAfterSwitch with
  | none => exact ⟨.inl (by rw [hboot]), by rw [hboot], by rw [hboot], by rw [hboot], by rw [hboot], hhold⟩
  | some p =>
    have hreset := (functionReset_changesOnly p (released s)).2
    have hactivation := functionReset_activation p (released s)
    rw [hboot] at hactivation
    have hslot : (functionReset p (released s)).boot.slot = (released s).boot.slot := hreset .bootSlot (by decide)
    have hstaged : (functionReset p (released s)).boot.stagedOk = (released s).boot.stagedOk := hreset .bootStagedOk (by decide)
    have hpref : (functionReset p (released s)).boot.preferred = (released s).boot.preferred := hreset .bootPreferred (by decide)
    have hfails : (functionReset p (released s)).boot.fails = (released s).boot.fails := hreset .bootFails (by decide)
    have hheld : (functionReset p (released s)).host.holdForSwitch = (released s).host.holdForSwitch := hreset .hostHoldForSwitch (by decide)
    exact ⟨hactivation, by rw [hslot, hboot], by rw [hstaged, hboot], by rw [hpref, hboot], by rw [hfails, hboot], hheld.trans hhold⟩

/-! ## The barrier (R389) -/

theorem endActivate_rest (st : Nat) (s : State) : (endActivate st s).boot = s.boot ∧ (endActivate st s).keep = s.keep ∧
    (endActivate st s).cupola = s.cupola ∧ (endActivate st s).power.time = s.power.time ∧
    (endActivate st s).host.resetAfterSwitch = s.host.resetAfterSwitch := by
  have h := endActivate_kept st (Nat.or_self _) (Kept.refl _ s)
  exact ⟨h.boot.eq_of_outside rfl, h.keep.eq_of_outside (by decide), h.cupola.eq_of_outside rfl, h.same .powerTime rfl,
    h.same .hostResetAfterSwitch rfl⟩

theorem setSlotCode_boot (p : Port) (code : Nat) (s : State) : (setSlotCode p code s).boot =
    { s.boot with slotA := (setSlotCode p code s).boot.slotA, slotB := (setSlotCode p code s).boot.slotB } := by
  cases p <;> rfl

/-- The boot state that the cores leave the barrier with. -/
theorem handOverSwitch_boot (mode : Nat) (s : State) : (handOverSwitch mode s).boot.slot = otherPort s.boot.slot ∧
    (handOverSwitch mode s).boot.preferred = otherPort s.boot.slot ∧ (handOverSwitch mode s).boot.fails = 1 ∧
    (handOverSwitch mode s).boot.version = manVersion (slotManifest s (spareSlot s)) ∧
    (handOverSwitch mode s).boot.watchdog = some (s.power.time + 2000 * msTicks, 4) ∧ (handOverSwitch mode s).boot.activation = none ∧
    (handOverSwitch mode s).boot.confirmed = false ∧ (handOverSwitch mode s).boot.bootCount = s.boot.bootCount ∧
    (handOverSwitch mode s).boot.phase = s.boot.phase := by
  unfold handOverSwitch
  extract_lets p v s1
  have hlan (data : Bytes) (u : State) : (lantern 0x0070 data u).boot = u.boot :=
    (lantern_kept _ _ (Nat.or_self _) (Kept.refl _ u)).boot.eq_of_outside rfl
  have hs1 : (s1.onBlf fun b => { b with cores := b.cores.map fun k => { k with atBarrier := false } }).boot = s1.boot := rfl
  rw [hlan, hs1, show s1.boot = _ from setSlotCode_boot _ _ _]
  exact ⟨rfl, rfl, rfl, rfl, rfl, rfl, rfl, rfl, rfl⟩

theorem handOverSwitch_rest (mode : Nat) (s : State) : (handOverSwitch mode s).keep = s.keep ∧ (handOverSwitch mode s).cupola = s.cupola ∧
    (handOverSwitch mode s).host.resetAfterSwitch = s.host.resetAfterSwitch := by
  have h := handOverSwitch_kept mode (Nat.or_self _) (Kept.refl _ s)
  exact ⟨h.keep.eq_of_outside (by decide), h.cupola.eq_of_outside rfl, h.same .hostResetAfterSwitch rfl⟩

section
variable {s : State} {mode : Nat} {w : Option (BitVec 16)}

theorem live_of_normal (hp : s.boot.phase = .normal) : live s = true := by
  rw [live, hp]

theorem exec_activationSwitch (hp : s.boot.phase = .normal) : exec .activationSwitch s = .next (switchCores s) := by
  have hnormal : normalMode s = true := by rw [normalMode, hp]; rfl
  change execActivationSwitch s = _
  rw [execActivationSwitch, goLive_of_live _ (live_of_normal hp), hnormal]
  rfl

variable (ha : s.boot.activation = some (mode, w))
include ha

theorem switchCores_early (hr : switchReady s mode = false) : switchCores s = s := by
  simp only [switchCores, ha, hr, Bool.not_false, if_true]

/-- The image fails its checks: the activation is cancelled (R357). -/
theorem switchCores_failed (hr : switchReady s mode = true)
    (hc : checkSlot (s.onBoot fun b => { b with minVersion := permitFloor s }) (spareSlot s) true true ≠ 1) :
    switchCores s = releaseHold (cancelSwitch none s) := by
  simp only [switchCores, ha, hr, Bool.not_true, Bool.false_eq_true, if_false]
  exact if_pos hc

theorem switchCores_over (hr : switchReady s mode = true) (hreset : s.host.resetAfterSwitch = none) (hl : activationLacks s = none)
    (hc : checkSlot (s.onBoot fun b => { b with minVersion := permitFloor s }) (spareSlot s) true true = 1) :
    switchCores s = releaseHold (handOverSwitch mode (endActivate 0 s)) := by
  simp only [switchCores, ha, hr, hl, hreset, Bool.not_true, Bool.false_eq_true, if_false, Option.isSome_none]
  exact if_neg (not_not.mpr hc)

omit ha in
theorem cancelSwitch_boot (s : State) : (cancelSwitch none s).boot = { s.boot with activation := none, stagedOk := false } := by
  obtain ⟨hboot, -⟩ := endActivate_rest 0x0603 s
  change ({ (endActivate 0x0603 s).boot with activation := none, stagedOk := (endActivate 0x0603 s).boot.stagedOk && false } : Boot) = _
  rw [hboot, Bool.and_false]

/-- FW_ACTIVATE has completed with 0x0600 at this tick, and the activation is pending in mode 0. -/
def timedOut (g : BitVec 16) (due : Nat) (s : State) : State :=
  (reply 0 g.toNat 0x0600 0 (advanceTo due s)).onBoot fun b => { b with activation := some (0, none) }

theorem activationTimeout_eq {g : BitVec 16} (hg : w = some g) : ∃ due, activationTimeout mode s =
    if mode = 2 then releaseHold (timedOut g due s) else timedOut g due s := by
  subst hg
  simp only [activationTimeout, ha, if_true]
  exact ⟨_, rfl⟩

/-- A mode's time is up: the activation is pending in mode 0, and nothing waits for it (Table 11-8). -/
theorem activationTimeout_pending {g : BitVec 16} (hg : w = some g) : (activationTimeout mode s).boot.activation = some (0, none) ∧
    (activationTimeout mode s).boot.slot = s.boot.slot ∧ (mode = 2 → (activationTimeout mode s).host.holdForSwitch = false) := by
  obtain ⟨due, hout⟩ := activationTimeout_eq ha hg
  have hslot : (timedOut g due s).boot.slot = s.boot.slot :=
    (reply_kept 0 g.toNat 0x0600 0 rfl (advanceTo_kept due rfl (Kept.refl (allBut .bootSlot) s))).same .bootSlot rfl
  rw [hout]
  split
  · obtain ⟨hactivation, hslot', -, -, -, hhold⟩ := releaseHold_boot (timedOut g due s)
    exact ⟨hactivation.elim id id, hslot'.trans hslot, fun _ => hhold⟩
  · next hm => exact ⟨rfl, hslot, fun h => absurd h hm⟩

omit ha in
theorem activationTimeout_idle (h : s.boot.activation = none) (m : Nat) : activationTimeout m s = s := by
  rw [activationTimeout, h]

omit ha in
theorem switchCores_idle (h : s.boot.activation = none) : switchCores s = s := by
  rw [switchCores, h]

omit ha in
theorem exec_barrierCoreTimeout_idle (h : s.boot.activation = none) (core : Fin 4) : exec (.barrierCoreTimeout core) s = .next s := by
  change execBarrierCoreTimeout core s = _
  rw [execBarrierCoreTimeout, goLive_of_fixed (by simp only [h])]

omit ha in
theorem exec_activationSwitch_idle (h : s.boot.activation = none) : exec .activationSwitch s = .next s := by
  change execActivationSwitch s = _
  rw [execActivationSwitch, goLive_of_fixed]
  rw [switchCores_idle h, ite_self]

/-- A core that does not come to the barrier is lost, and the others go on without it. -/
theorem exec_barrierCoreTimeout_lost {core : Fin 4} (hp : s.boot.phase = .normal) (hr : switchReady s mode = true)
    (hok : s.blf.coreOk.getLsbD core = true) (hspare : spareLeft s .controlCore core) :
    exec (.barrierCoreTimeout core) s = .next (if normalMode (coreLost core s) then switchCores (coreLost core s) else coreLost core s) := by
  have hgo : (normalMode s && switchReady s mode && s.blf.coreOk.getLsbD core) = true := by rw [normalMode, hp, hr, hok]; rfl
  change execBarrierCoreTimeout core s = _
  rw [execBarrierCoreTimeout, goLive_of_live _ (live_of_normal hp)]
  simp only [ha, hgo, if_true, takeOut_controlCore hspare]

end

theorem coreLost_others (c : Fin 4) (s : State) : (coreLost c s).blf.coreOk = setBit s.blf.coreOk c false :=
  (coreLost_handsOver (sourcesAgree.refl s)).1

/-- A core that times out is out of service, and no other (R379, R389). -/
theorem barrierCoreTimeout_out {s : State} {mode : Nat} {w : Option (BitVec 16)} {core : Fin 4} (hp : s.boot.phase = .normal)
    (ha : s.boot.activation = some (mode, w)) (hr : switchReady s mode = true) (hok : s.blf.coreOk.getLsbD core = true)
    (hspare : spareLeft s .controlCore core) : ∃ t, exec (.barrierCoreTimeout core) s = .next t ∧ t.blf.coreOk = setBit s.blf.coreOk core false := by
  refine ⟨_, exec_barrierCoreTimeout_lost ha hp hr hok hspare, ?_⟩
  have hswitch : (switchCores (coreLost core s)).blf.coreOk = (coreLost core s).blf.coreOk :=
    (switchCores_kept (Nat.or_self _) (Kept.refl _ _)).same .blfCoreOk rfl
  split
  · rw [hswitch, coreLost_others]
  · exact coreLost_others core s

/-- Settles O33: the switch by its three ways through the barrier, the timeouts by the activation they leave pending. -/
theorem theCoresSwitchTogether : Obligations.TheCoresSwitchTogether := by
  refine ⟨fun s mode w hp ha => ⟨fun hr => ?_, fun hr hreset hl hc => ?_, fun hr hc => ?_⟩, fun s g hl => ⟨fun ha => ?_, fun ha => ?_⟩,
    fun s ha => ?_, fun s mode w core hp ha hr hok hout hcount => ?_⟩
  · rw [exec_activationSwitch hp, switchCores_early ha hr]
  · refine ⟨_, exec_activationSwitch hp, ?_⟩
    obtain ⟨hboot, hkeep, hcupola, htime, hreset'⟩ := endActivate_rest 0 s
    obtain ⟨hkeep', hcupola', hreset''⟩ := handOverSwitch_rest mode (endActivate 0 s)
    obtain ⟨hslot, hpref, hfails, hversion, hdog, hactivation, hconfirmed, hcount, hphase⟩ := handOverSwitch_boot mode (endActivate 0 s)
    obtain ⟨rboot, rkeep, rcupola, rhold⟩ := released_rest (handOverSwitch mode (endActivate 0 s))
    have hman : slotManifest (endActivate 0 s) (spareSlot (endActivate 0 s)) = slotManifest s (spareSlot s) := by
      simp only [slotManifest, spareSlot, flashFrom, hboot]
    rw [switchCores_over ha hr hreset hl hc, releaseHold_alone (hreset''.trans (hreset'.trans hreset)), rboot, rkeep, rcupola]
    rw [hboot] at hslot hpref hcount hphase
    rw [hman] at hversion
    rw [htime] at hdog
    exact ⟨hslot, hpref, hfails, hversion, hdog, hactivation, hconfirmed, hcount, hphase.trans hp, hkeep'.trans hkeep, hcupola'.trans hcupola, rhold⟩
  · refine ⟨_, exec_activationSwitch hp, ?_⟩
    obtain ⟨hactivation, hslot, hstaged, hpref, hfails, -⟩ := releaseHold_boot (cancelSwitch none s)
    rw [switchCores_failed ha hr hc, hslot, hstaged, hpref, hfails]
    rw [cancelSwitch_boot] at hactivation ⊢
    exact ⟨rfl, hactivation.elim id id, rfl, rfl, rfl⟩
  · obtain ⟨hactivation, hslot, -⟩ := activationTimeout_pending ha rfl
    exact ⟨_, goLive_of_live (activationTimeout 1) hl, hactivation, hslot⟩
  · obtain ⟨hactivation, hslot, hhold⟩ := activationTimeout_pending ha rfl
    exact ⟨_, goLive_of_live (activationTimeout 2) hl, hactivation, hhold rfl, hslot⟩
  · exact ⟨goLive_of_fixed (activationTimeout_idle ha 1), goLive_of_fixed (activationTimeout_idle ha 2), exec_activationSwitch_idle ha,
      exec_barrierCoreTimeout_idle ha⟩
  · have hspare : spareLeft s .controlCore core := ⟨hout, decide_eq_false (by omega)⟩
    obtain ⟨t, hexec, ht⟩ := barrierCoreTimeout_out hp ha hr hok hspare
    refine ⟨t, hexec, ?_, fun j hj => ?_⟩
    · rw [ht]
      exact getLsbD_setBit_false_self _ _
    · rw [ht, getLsbD_setBit]
      exact if_neg fun h => hj h.2.symm

end Sys2Proof.Machine
end

section
/-! PROOF. Start-up and its confirmation (R355 to R359, R361, R367, R433). -/

namespace Sys2Proof.Machine

set_option Elab.async false

/-! ## The start of an image and of the fallback program -/

theorem lantern_boot (code : Nat) (data : Bytes) (s : State) : (lantern code data s).boot = s.boot :=
  (lantern_kept code data (Nat.or_self _) (Kept.refl _ s)).boot.eq_of_outside rfl

theorem bringPorts_boot (s : State) : (bringPorts s).boot = s.boot := rfl

theorem powerDomains_boot (s : State) : (powerDomains s).boot = s.boot ∧ (powerDomains s).power.time = s.power.time := ⟨rfl, rfl⟩

theorem enterFallback_boot (cause : Nat) (s : State) :
    (enterFallback cause s).boot = { s.boot with phase := .fallback, cause := cause, ready := true } := by
  unfold enterFallback
  rw [lantern_boot, bringPorts_boot]
  rfl

theorem handOverTo_boot (p : Port) (s : State) : (handOverTo p s).boot.phase = .normal ∧ (handOverTo p s).boot.slot = p ∧
    (handOverTo p s).boot.fails = (if s.boot.fromPs4 then s.boot.fails else min 3 (s.boot.fails + 1)) ∧
    (handOverTo p s).boot.watchdog = some (s.power.time + 2000 * msTicks, 2) := by
  unfold handOverTo
  extract_lets m s1
  have hboot : (drawKeys (bringPorts (powerDomains s1))).boot = s1.boot := rfl
  rw [hboot, show s1.boot = _ from setSlotCode_boot _ _ _]
  exact ⟨rfl, rfl, rfl, rfl⟩

/-- A slot's checks rest on the flash, the serial number, the roots and the two floors alone (R354). -/
theorem checkSlot_congr {s t : State} (hflash : t.boot.flash = s.boot.flash) (hserial : t.boot.serial = s.boot.serial)
    (hepoch : t.boot.epoch = s.boot.epoch) (hmin : t.boot.minVersion = s.boot.minVersion) (hroots : t.boot.rootHashes = s.boot.rootHashes)
    (hrevoked : t.boot.rootsRevoked = s.boot.rootsRevoked) (p : Port) (reads atStart : Bool) :
    checkSlot t p reads atStart = checkSlot s p reads atStart := by
  have hread : flashFrom t (fwSlotBase p) = flashFrom s (fwSlotBase p) := by
    funext off n
    rw [flashFrom, hflash, flashFrom]
  simp only [checkSlot, checkManifest, manKeyOk, hread, hserial, hepoch, hmin, hroots, hrevoked]
  rfl

/-! ## The straps sampled (R367, R433) -/

/-- The seal drive runs, the straps are read and the core voltage is set; what comes then is the choice of an image. -/
def strapsRead (o : StartObs) (s : State) : State :=
  let s0 := if o.tornRecord then countTorn s else s
  let s1 := (startSeal s0).onBoot fun b => { b with straps := majorityStraps o.strapReads }
  avsWrite (600 + min 30 (2 * ((25000 - s0.power.junction).toNat / 1000))) (s1.onPins fun p => { p with straps := majorityStraps o.strapReads })

theorem bootChain_eq (o : StartObs) (s : State) : bootChain o s =
    if (majorityStraps o.strapReads).getLsbD 0 then (strapsRead o s).onBoot fun b => { b with phase := .scan } else chooseImage o (strapsRead o s) := rfl

theorem strapsRead_boot (o : StartObs) (s : State) : (strapsRead o s).boot = { s.boot with straps := majorityStraps o.strapReads } ∧
    (strapsRead o s).power.time = s.power.time := by
  have htorn : (if o.tornRecord then countTorn s else s).boot = s.boot ∧ (if o.tornRecord then countTorn s else s).power.time = s.power.time := by
    split
    · have h := countTorn_kept (Nat.or_self _) (Kept.refl _ s)
      exact ⟨h.boot.eq_of_outside rfl, h.same .powerTime rfl⟩
    · exact ⟨rfl, rfl⟩
  obtain ⟨hboot, htime⟩ := htorn
  refine ⟨?_, htime⟩
  rw [← hboot]
  rfl

theorem exec_startUp {o : StartObs} {s : State} (hp : s.boot.phase = .held) (hr : s.pins.sysResetN = true) (hg : s.pins.pwrGood = true)
    (ht : s.pins.testEn = false) (h4 : s.power.pstate ≠ 4) : exec (.startUp o) s = .next (bootChain o s) :=
  congrArg Host.Outcome.next (if_pos ⟨hp, hr, hg, by simp [ht], h4⟩)

/-! ## The choice of an image (R355, Table 14-9) -/

/-- The slot that FAILS selects, and whether a slot reads without a flash error. -/
def firstSlot (b : Boot) : Port := if b.fails % 2 = 0 then b.preferred else otherPort b.preferred
def readsAt (o : StartObs) : Port → Bool
  | .a => o.slotAReads
  | .b => o.slotBReads

theorem startSeen_boot (o : StartObs) (s : State) : (startSeen o s).boot = { s.boot with keepFault := false } ∧
    (startSeen o s).power.time = s.power.time := ⟨rfl, rfl⟩

section
variable {o : StartObs} {u : State}

theorem chooseImage_selfTest (h : o.selfTestOk = false ∨ o.fuseWriteOk = false) : chooseImage o u = enterFallback 4 (startSeen o u) :=
  if_pos (by rcases h with h | h <;> simp [h])

theorem chooseImage_keep (ht : o.selfTestOk = true) (hf : o.fuseWriteOk = true) (h : o.keepOk = false ∨ u.boot.keepFault = true) :
    chooseImage o u = enterFallback 7 (startSeen o u) :=
  (if_neg (by simp [ht, hf])).trans (if_pos (by rcases h with h | h <;> simp [h]))

/-- Nothing leads straight to fallback but, perhaps, the number of failed starts. -/
structure startsWell (o : StartObs) (u : State) : Prop where
  selfTest : o.selfTestOk = true
  fuse : o.fuseWriteOk = true
  keep : o.keepOk = true
  keepFault : u.boot.keepFault = false
  mram : o.mramOk = true
  flash : o.flashReads = true
  strap : u.boot.straps.getLsbD 3 = false

/-- What a start does once it may try the slots. -/
def slotsTried (o : StartObs) (u : State) : State :=
  trySlots (fun p => match p with | .a => o.slotAReads | .b => o.slotBReads) [firstSlot u.boot, otherPort (firstSlot u.boot)] (startSeen o u)

theorem chooseImage_well (h : startsWell o u) : chooseImage o u =
    if 3 ≤ u.boot.fails then enterFallback 1 (startSeen o u)
    else if (slotsTried o u).boot.phase = .normal then forEach [1, 2, 3, 4, 5] (checkTable o.flashReads) (slotsTried o u) else slotsTried o u := by
  obtain ⟨ht, hf, hk, hkf, hm, hfl, hs⟩ := h
  refine (if_neg (by simp [ht, hf])).trans ((if_neg (by simp [hk, hkf])).trans ((if_neg (by simp [hm])).trans
    ((if_neg (by simp [hfl])).trans ((if_neg ?_).trans rfl))))
  rw [(startSeen_boot o u).1]
  exact Bool.eq_false_iff.mp hs

theorem Kept.ite {m : Nat} {s a b : State} {p : Prop} [Decidable p] (ha : Kept m s a) (hb : Kept m s b) : Kept m s (if p then a else b) := by
  split
  · exact ha
  · exact hb

/-- What is kept of a Keep fault ends at the start, whatever image it chooses (R239). -/
theorem chooseImage_keepFault (o : StartObs) (u : State) : (chooseImage o u).boot.keepFault = false := by
  have hfall (cause : Nat) : Kept (allBut .bootKeepFault) (startSeen o u) (enterFallback cause (startSeen o u)) :=
    enterFallback_kept cause rfl (Kept.refl _ _)
  have htried (reads : Port → Bool) (ps : List Port) : Kept (allBut .bootKeepFault) (startSeen o u) (trySlots reads ps (startSeen o u)) :=
    trySlots_kept reads ps rfl (Kept.refl _ _)
  have hkept : Kept (allBut .bootKeepFault) (startSeen o u) (chooseImage o u) := by
    exact (hfall 4).ite ((hfall 7).ite ((hfall 5).ite ((hfall 3).ite ((hfall 6).ite ((hfall 1).ite
      (Kept.ite (forEach_kept _ _ (fun t _ h => checkTable_kept _ t rfl h) (htried _ _)) (htried _ _)))))))
  exact hkept.same .bootKeepFault rfl

theorem slotsTried_first (hc : checkSlot (startSeen o u) (firstSlot u.boot) (readsAt o (firstSlot u.boot)) true = 1) :
    slotsTried o u = handOverTo (firstSlot u.boot) (startSeen o u) := by
  refine if_pos ?_
  rw [← hc]
  cases firstSlot u.boot <;> rfl

/-- The tables that are checked once an image has been chosen leave the boot state alone. -/
theorem tablesChecked_boot (reads : Bool) (s : State) : (forEach [1, 2, 3, 4, 5] (checkTable reads) s).boot = s.boot :=
  (forEach_kept [1, 2, 3, 4, 5] _ (fun t _ h => checkTable_kept reads t (Nat.or_self _) h) (Kept.refl _ s)).boot.eq_of_outside rfl

theorem chooseImage_first (h : startsWell o u) (hn : u.boot.fails < 3)
    (hc : checkSlot (startSeen o u) (firstSlot u.boot) (readsAt o (firstSlot u.boot)) true = 1) :
    (chooseImage o u).boot = (handOverTo (firstSlot u.boot) (startSeen o u)).boot := by
  obtain ⟨hphase, -⟩ := handOverTo_boot (firstSlot u.boot) (startSeen o u)
  rw [chooseImage_well h, if_neg (Nat.not_le.mpr hn), slotsTried_first hc, if_pos hphase, tablesChecked_boot]

end

/-- Where a start that reads STRAP[0] as 0 leads (R355, Table 14-9). -/
theorem chooseImage_leads (o : StartObs) (s : State) : ((o.selfTestOk = false ∨ o.fuseWriteOk = false) →
      (chooseImage o (strapsRead o s)).boot.phase = .fallback ∧ (chooseImage o (strapsRead o s)).boot.cause = 4) ∧
    (o.selfTestOk = true → o.fuseWriteOk = true → (o.keepOk = false ∨ s.boot.keepFault = true) →
      (chooseImage o (strapsRead o s)).boot.phase = .fallback ∧ (chooseImage o (strapsRead o s)).boot.cause = 7) ∧
    (startsWell o (strapsRead o s) → 3 ≤ s.boot.fails →
      (chooseImage o (strapsRead o s)).boot.phase = .fallback ∧ (chooseImage o (strapsRead o s)).boot.cause = 1) ∧
    (startsWell o (strapsRead o s) → s.boot.fails < 3 → s.boot.fromPs4 = false →
      checkSlot s (firstSlot s.boot) (readsAt o (firstSlot s.boot)) true = 1 →
      (chooseImage o (strapsRead o s)).boot.phase = .normal ∧ (chooseImage o (strapsRead o s)).boot.slot = firstSlot s.boot ∧
      (chooseImage o (strapsRead o s)).boot.fails = s.boot.fails + 1 ∧
      (chooseImage o (strapsRead o s)).boot.watchdog = some (s.power.time + 2000 * msTicks, 2)) := by
  obtain ⟨hboot, htime⟩ := strapsRead_boot o s
  obtain ⟨hseen, hseenTime⟩ := startSeen_boot o (strapsRead o s)
  have hfallback (cause : Nat) : (enterFallback cause (startSeen o (strapsRead o s))).boot.phase = .fallback ∧
      (enterFallback cause (startSeen o (strapsRead o s))).boot.cause = cause := by
    rw [enterFallback_boot]
    exact ⟨rfl, rfl⟩
  refine ⟨fun h => ?_, fun ht hf hk => ?_, fun hwell hn => ?_, fun hwell hn hps hc => ?_⟩
  · rw [chooseImage_selfTest h]
    exact hfallback 4
  · rw [chooseImage_keep ht hf (by rwa [hboot])]
    exact hfallback 7
  · rw [chooseImage_well hwell, if_pos (by rwa [hboot])]
    exact hfallback 1
  · have hfirst : firstSlot (strapsRead o s).boot = firstSlot s.boot := by rw [hboot]; rfl
    have hcheck : checkSlot (startSeen o (strapsRead o s)) (firstSlot (strapsRead o s).boot)
        (readsAt o (firstSlot (strapsRead o s).boot)) true = 1 := by
      rw [hfirst, checkSlot_congr (s := s)]
      · exact hc
      all_goals rw [hseen, hboot]
    obtain ⟨hphase, hslot, hfails, hdog⟩ := handOverTo_boot (firstSlot s.boot) (startSeen o (strapsRead o s))
    rw [chooseImage_first hwell (by rwa [hboot]) hcheck, hfirst]
    refine ⟨hphase, hslot, hfails.trans ?_, hdog.trans ?_⟩
    · rw [hseen, hboot]
      simp only [hps, Bool.false_eq_true, if_false]
      omega
    · rw [hseenTime, htime]

/-! ## START_CONFIRM (R356, R359) -/

/-- The start is confirmed, before the updates against rollback. -/
def startConfirmed (s : State) : State := setSlotCode s.boot.slot 1 (s.onBoot fun b => { b with
  fails := 0, preferred := b.slot, confirmed := true, ready := true, watchdog := none, fromPs4 := false })

theorem confirmStart_eq (ok : Bool) (s : State) : confirmStart ok s =
    lantern 0x0001 (versionBytes s.boot.version ++ le 1 (portNo s.boot.slot)) (antiRollback ok (startConfirmed s)) := rfl

/-- What the updates leave of the boot state: all but the two floors. -/
theorem antiRollback_boot (ok : Bool) (s : State) : ∃ e v, (antiRollback ok s).boot = { s.boot with epoch := e, minVersion := v } := by
  unfold antiRollback
  dsimp only
  generalize manEpoch (slotManifest s s.boot.slot) = e
  generalize manFloor (slotManifest s s.boot.slot) = f
  split
  · split
    · exact ⟨e, f, rfl⟩
    · exact ⟨s.boot.epoch, s.boot.minVersion, lantern_boot _ _ s⟩
  · exact ⟨s.boot.epoch, versionMax s.boot.minVersion f, rfl⟩

theorem antiRollback_newer {s : State} (h : s.boot.epoch < manEpoch (slotManifest s s.boot.slot)) :
    (antiRollback true s).boot.epoch = manEpoch (slotManifest s s.boot.slot) ∧
    (antiRollback true s).boot.minVersion = manFloor (slotManifest s s.boot.slot) := by
  unfold antiRollback
  dsimp only
  generalize manEpoch (slotManifest s s.boot.slot) = e at *
  generalize manFloor (slotManifest s s.boot.slot) = f
  rw [if_pos h]
  exact ⟨rfl, rfl⟩

theorem antiRollback_same {ok : Bool} {s : State} (h : ¬ s.boot.epoch < manEpoch (slotManifest s s.boot.slot)) :
    (antiRollback ok s).boot.epoch = s.boot.epoch ∧
    (antiRollback ok s).boot.minVersion = versionMax s.boot.minVersion (manFloor (slotManifest s s.boot.slot)) := by
  unfold antiRollback
  dsimp only
  generalize manEpoch (slotManifest s s.boot.slot) = e at *
  generalize manFloor (slotManifest s s.boot.slot) = f
  rw [if_neg h]
  exact ⟨rfl, rfl⟩

/-- The fused epoch never falls (R359). -/
theorem antiRollback_epoch (ok : Bool) (s : State) : s.boot.epoch ≤ (antiRollback ok s).boot.epoch := by
  unfold antiRollback
  dsimp only
  generalize manEpoch (slotManifest s s.boot.slot) = e
  generalize manFloor (slotManifest s s.boot.slot) = f
  split
  · next h =>
    split
    · exact h.le
    · rw [lantern_boot]
  · exact le_rfl

theorem setSlotCode_slots (p : Port) (code : Nat) (s : State) :
    ∃ a b, (setSlotCode p code s).boot = { s.boot with slotA := a, slotB := b } := by
  cases p with
  | a => exact ⟨code, s.boot.slotB, rfl⟩
  | b => exact ⟨s.boot.slotA, code, rfl⟩

theorem startConfirmed_boot (s : State) : ∃ a b, (startConfirmed s).boot = { s.boot with
    fails := 0, preferred := s.boot.slot, confirmed := true, ready := true, watchdog := none, fromPs4 := false, slotA := a, slotB := b } := by
  obtain ⟨a, b, h⟩ := setSlotCode_slots s.boot.slot 1 (s.onBoot fun b => { b with
    fails := 0, preferred := b.slot, confirmed := true, ready := true, watchdog := none, fromPs4 := false })
  exact ⟨a, b, h⟩

theorem startConfirmed_slots (s : State) : (s.boot.slot = .a → (startConfirmed s).boot.slotA = 1) ∧
    (s.boot.slot = .b → (startConfirmed s).boot.slotB = 1) := by
  unfold startConfirmed
  exact ⟨fun h => by rw [h]; rfl, fun h => by rw [h]; rfl⟩

theorem confirmStart_rest (ok : Bool) (s : State) : (confirmStart ok s).keep = s.keep ∧ (confirmStart ok s).trust = s.trust := by
  have h := confirmStart_kept ok (Nat.or_self _) (Kept.refl _ s)
  exact ⟨h.keep.eq_of_outside (by decide), h.trust.eq_of_outside rfl⟩

theorem exec_startConfirm (ok : Bool) {s : State} (hp : s.boot.phase = .normal) (hc : s.boot.confirmed = false) :
    exec (.startConfirm ok) s = .next (confirmStart ok s) :=
  congrArg Host.Outcome.next (if_pos (by rw [normalMode, hp, hc]; rfl))

/-- Settles O10: where each start leads, by the cases of the boot chain, and what a confirmation makes of the boot state. -/
theorem startUpAndConfirmation : Obligations.StartUpAndConfirmation := by
  refine ⟨fun o s hp hr hg ht h4 => ⟨_, exec_startUp hp hr hg ht h4, ?_⟩, fun ok s hp hc => ⟨_, exec_startConfirm ok hp hc, ?_⟩⟩
  · obtain ⟨hboot, -⟩ := strapsRead_boot o s
    rw [bootChain_eq]
    cases hstrap : (majorityStraps o.strapReads).getLsbD 0 with
    | true =>
      refine ⟨?_, fun _ => rfl, fun h => absurd h Bool.noConfusion⟩
      rw [if_pos rfl]
      exact congrArg Boot.straps hboot
    | false =>
      rw [if_neg Bool.noConfusion]
      obtain ⟨hself, hkeep, hfails, hfirst⟩ := chooseImage_leads o s
      have hwell (ht : o.selfTestOk = true) (hf : o.fuseWriteOk = true) (hk : o.keepOk = true) (hkf : s.boot.keepFault = false)
          (hm : o.mramOk = true) (hfl : o.flashReads = true) (h3 : (majorityStraps o.strapReads).getLsbD 3 = false) :
          startsWell o (strapsRead o s) := ⟨ht, hf, hk, by rwa [hboot], hm, hfl, by rwa [hboot]⟩
      refine ⟨?_, fun h => absurd h Bool.noConfusion, fun _ => ⟨hself, hkeep, chooseImage_keepFault _ _,
        fun ht hf hk hkf hm hfl h3 => hfails (hwell ht hf hk hkf hm hfl h3), fun ht hf hk hkf hm hfl h3 hn hps hc =>
        hfirst (hwell ht hf hk hkf hm hfl h3) hn hps ?_⟩⟩
      · have hstraps : (chooseImage o (strapsRead o s)).boot.straps = (strapsRead o s).boot.straps :=
          (chooseImage_kept o (Nat.or_self _) (Kept.refl _ _)).same .bootStraps rfl
        rw [hstraps, hboot]
      · exact hc
  · obtain ⟨hkeep, htrust⟩ := confirmStart_rest ok s
    obtain ⟨e, v, hroll⟩ := antiRollback_boot ok (startConfirmed s)
    obtain ⟨a, b, hstart⟩ := startConfirmed_boot s
    obtain ⟨hslotA, hslotB⟩ := startConfirmed_slots s
    have hslot : (startConfirmed s).boot.slot = s.boot.slot := by rw [hstart]
    have hepoch : (startConfirmed s).boot.epoch = s.boot.epoch := by rw [hstart]
    have hmin : (startConfirmed s).boot.minVersion = s.boot.minVersion := by rw [hstart]
    have hflash : (startConfirmed s).boot.flash = s.boot.flash := by rw [hstart]
    have hman : slotManifest (startConfirmed s) (startConfirmed s).boot.slot = slotManifest s s.boot.slot := by
      rw [slotManifest, flashFrom, hflash, hslot, slotManifest, flashFrom]
    have hnewer := @antiRollback_newer (startConfirmed s)
    have hsame := @antiRollback_same ok (startConfirmed s)
    have hrises := antiRollback_epoch ok (startConfirmed s)
    rw [hman, hepoch] at hnewer hsame
    rw [hmin] at hsame
    rw [hepoch] at hrises
    have hboot : (confirmStart ok s).boot = (antiRollback ok (startConfirmed s)).boot := by rw [confirmStart_eq, lantern_boot]
    rw [hkeep, htrust, hboot]
    refine ⟨by rw [hroll, hstart], by rw [hroll, hstart], by rw [hroll, hstart], by rw [hroll, hstart], by rw [hroll, hstart],
      fun h => ?_, fun h => ?_, fun hlt hok => ?_, hsame, hrises, by rw [hroll, hstart], rfl, rfl⟩
    · rw [hroll]
      exact hslotA h
    · rw [hroll]
      exact hslotB h
    · subst hok
      exact hnewer hlt

end Sys2Proof.Machine
end

section
/-! PROOF. Every command answers a next state (log 1), and what twelve of them complete with (R208, R216, R224, R226, R325, R326, R331, R369,
R371). -/

namespace Sys2Proof.Machine

set_option Elab.async false

/-- No command stops the machine. -/
theorem exec_answers (c : Instr) (s : State) : ∃ t, exec c s = .next t := by
  cases c with
  | claim core =>
    cases h : s.blf.cores[core].offer with
    | some n => exact ⟨_, exec_claim_some h⟩
    | none =>
      rw [exec_claim_none h]
      split <;> exact ⟨_, rfl⟩
  | _ => exact ⟨_, rfl⟩

section
variable {s : State} {q : Fin 256} {tag : BitVec 16} {c : Cmd} {x : QueuePair} {p : Port} {v : Volume} {o : Obj}

/-- A READ or VERIFY of one whole record completes with its one record (R325, R326). -/
theorem record_completes {i : Instr} (hi : (i = .read q tag ∧ inHand s q.val tag.toNat opRead c ∧ o.length ≤ lengthField c.entry) ∨
      (i = .verify q tag ∧ inHand s q.val tag.toNat opVerify c ∧ noDecrypt c = false)) (ha : alone s c x p) (hmet : c.met = [])
    (hv : s.drive.vol = some v) (hu : (partAt s (partField c.entry)).inUse = true) (hone : countField c.entry = 1) (hcount : c.count = 0)
    (hused : c.used = 0) (hlon : c.lon < logicalEndOf s (partField c.entry)) (ho : findObj s c c.lon = .object o) (hmark : o.mark = false)
    (hgood : ∀ b ∈ s.rd.badBlocks, ¬ (b.1 = partField c.entry ∧ b.2.1 = c.lon))
    (hready : (readyBytes s (partField c.entry) c.lon o.blocks.length).length = o.blocks.length) :
    ∃ t, exec i s = .next t ∧ completed t c (if 4 ≤ o.level then 0x0001 else 0) 1 := by
  obtain ⟨hexec, hreading, hop, hfits, hplain⟩ : exec i s = .next (serveCmd c.qid c.tag s) ∧ Reading s c x p v ∧
      opcodeOf c.entry ≠ opSpace ∧ (opcodeOf c.entry = opRead → c.used + o.length ≤ lengthField c.entry) ∧ noDecrypt c = false := by
    rcases hi with ⟨rfl, h, hfits⟩ | ⟨rfl, h, hplain⟩
    · have hop := opcode_of_inHand h
      exact ⟨exec_read h, .of_inHand h (.inl rfl) ha hv, by rw [hop]; decide, fun _ => by omega, by rw [noDecrypt, hop]; rfl⟩
    · have hop := opcode_of_inHand h
      exact ⟨exec_verify h, .of_inHand h (.inr (.inl rfl)) ha hv, by rw [hop]; decide, fun hr => absurd (hop.symm.trans hr) (by decide), hplain⟩
  obtain ⟨hdone, -⟩ := hreading.record_passes hop hu hmet hone hcount hlon ho hmark hfits hplain hgood hready
  rw [hcount] at hdone
  exact ⟨_, hexec, hdone⟩

end

/-- Settles O3: that every command answers, case by case, and each of the twelve effects by the lemma of its own row. -/
theorem everyCommandAnswersNext : Obligations.EveryCommandAnswersNext := by
  refine ⟨exec_answers, fun k s hl hps => ?_, fun s hl => ?_, fun i ns s h => ⟨_, exec_wakeLatch_caught h, getLsbD_latched_latch i.isLt s⟩,
    fun s q tag c x p v i o hi ha hmet hv hu hone hcount hused hlon ho hmark hgood hready =>
      record_completes hi ha hmet hv hu hone hcount hused hlon ho hmark hgood hready,
    fun s q tag c x p v o h ha hmet hv hu hunit hone hcount hused hlon ho hmark => ?_, fun g lane s hl _ => ?_, fun g lane s hl _ => ?_,
    fun g j s hl htok hsrc hup hlive => ?_, fun mask s hl hv => ?_, fun mask s hl hv => ?_, fun g lane s hl => ?_⟩
  · obtain ⟨u, hexec, -⟩ := alarm_taken k s hl hps
    obtain ⟨halarm, hcause, herased, -⟩ := takeAlarm_marks k u
    exact ⟨_, hexec, halarm, hcause, herased⟩
  · obtain ⟨t, hexec, hlfsr, hmismatches, hok, hout, -⟩ := (sealTick_answers _ _ s (.inl hl)).1 rfl rfl
    exact ⟨t, hexec, hlfsr, hmismatches, hok, hout⟩
  · obtain ⟨-, -, hspace⟩ := readsPassOneObjectAtATime
    obtain ⟨-, hforward, -⟩ := hspace s q tag c x p v h ha hv hu hmet hcount hused hunit
    obtain ⟨t, -, hexec, hdone, -⟩ := hforward hone hlon o ho hmark
    exact ⟨t, hexec, hdone⟩
  · obtain ⟨hrx, -⟩ := loseRx_lanes (g := g) (lane := lane) (s := s)
    exact ⟨_, goLive_of_live (loseRx g lane) hl, hrx⟩
  · obtain ⟨-, -, htx⟩ := loseTx_lanes g lane s
    exact ⟨_, goLive_of_live (loseTx g lane) hl, htx⟩
  · have hpermit : writePermit s = true := by rw [writePermit, htok, hsrc]; rfl
    obtain ⟨-, hlanes⟩ := tokensOut_group g s
    exact ⟨_, exec_tokenPeriod hl, (hlanes j j.isLt).trans (if_pos ⟨hpermit, hup, hlive⟩)⟩
  · exact ⟨_, exec_retrain_now hl hv, fun g h => retrainNow_named mask s h⟩
  · exact ⟨_, exec_groupEn_now hl hv, enableNow_groupEn mask s, fun g h => enableNow_disabled mask s h⟩
  · exact ⟨_, goLive_of_live (discardPacket g lane) hl, discardPacket_counts g lane s⟩

end Sys2Proof.Machine
end
